-- ==== Sys2Proof/Word.lean ====
section
/-!
DEFINITION. The machine's word and byte, and their plainest arithmetic: bit fields of a word read as numbers, saturating
counts, little-endian bytes (R5, R6).
-/

namespace Sys2Proof

/-- A 32-bit register word (R33). -/
abbrev Word := BitVec 32

/-- One byte. -/
abbrev Byte := BitVec 8

/-- A number as a register word, wrapping modulo 2^32. -/
abbrev word (n : Nat) : Word := BitVec.ofNat 32 n

/-- Bits [lo + width - 1 : lo] of a number (R5). -/
def bitsAt (n lo width : Nat) : Nat := n / 2 ^ lo % 2 ^ width

/-- Bit k of a number, as a Boolean. -/
def bitOf (n k : Nat) : Bool := n / 2 ^ k % 2 == 1

/-- The number with bits [lo + width - 1 : lo] replaced by v modulo 2^width. -/
def setBits (n lo width v : Nat) : Nat :=
  n - bitsAt n lo width * 2 ^ lo + v % 2 ^ width * 2 ^ lo

/-- A Boolean as a bit. -/
def bit (b : Bool) : Nat := if b then 1 else 0

/-- A count that stops at its largest value. -/
def satAdd (n k top : Nat) : Nat := min (n + k) top

/-- The bytes of a number, least significant first (R6). -/
def leBytes : Nat → Nat → List Byte
  | 0, _ => []
  | n + 1, v => BitVec.ofNat 8 v :: leBytes n (v / 256)

/-- The number whose bytes, least significant first, are given (R6). -/
def leNum : List Byte → Nat
  | [] => 0
  | b :: bs => b.toNat + 256 * leNum bs

/-- The number whose bytes, most significant first, are given. -/
def beNum (bs : List Byte) : Nat := leNum bs.reverse

/-- The signed value of the low width bits of n. -/
def signedOf (width n : Nat) : Int :=
  if n % 2 ^ width < 2 ^ (width - 1) then (n % 2 ^ width : Nat) else (n % 2 ^ width : Nat) - (2 ^ width : Nat)

/-- The width low bits, as a number, of an integer. -/
def wrapInt (width : Nat) (i : Int) : Nat := (i % (2 ^ width : Nat)).toNat

/-- An initiator of Footpath requests: its trailhead and its INIT number there (Table 13-3). -/
structure Initiator where
  src  : Nat
  init : Nat
  deriving DecidableEq, Repr

end Sys2Proof
end

