-- ==== Sys2Proof/Syntax.lean ====
section
/-!
DEFINITION. The commands of the block: one constructor per row of spec/opcode_table.json.
-/

namespace Sys2Proof

/-- An engine: its page type (0x03 sash, 0x04 slat, 0x05 gate; Table 02-2) and its number within the type. -/
structure EngineId where
  ty : Nat
  num : Nat
  deriving DecidableEq, Repr

/-- A syllable but for its opcode (Table 08-3): S, COND, GX, bits [18:0], and the stamp of its issue, which counts when its
bundle makes a far access. -/
structure Syl where
  stop : Bool
  cond : Nat
  gx : Bool
  ops : Nat
  stamp : Nat
  deriving DecidableEq, Repr

/-- Where a CRC, symbol or wire error strikes: the numbers of the bits that flip, from the first byte's bit 0. -/
abbrev Flips := List Nat

/-- A request as an initiator offers it to its trailhead (R302, R303): a read or a write; its address; the byte enables of its
lanes, 64 for each flit; the data of a write, lane by lane; 1, 2 or 4 flits; ROTATE and CONSUME; and whether a DMA engine makes it,
which no field of a flit says but a pane's own trailhead knows (R144). -/
structure NetReq where
  write : Bool
  addr : Nat
  be : Nat
  data : List Byte
  flits : Nat
  rotate : Bool
  consume : Bool
  dma : Bool
  deriving DecidableEq, Repr

/-- What the owners of the CTL and PIX slots have ready at a side of the Lintel that sends a frame (R14): link-management messages of 32
bytes, TYPE 0x80 and upward; 240 bytes of a pixel stream (none: empty), the stream's number, LINE_START and FRAME_START. -/
structure LintelReady where
  ctl : List Byte
  pix : List Byte
  stream : Nat
  lineStart : Bool
  frameStart : Bool
  deriving DecidableEq, Repr

/-- A physical failure of a Pantry bank's cells that a March run meets (R292): bank, element, word, read XOR expected. -/
structure MarchFail where
  bank : Nat
  element : Nat
  word : Nat
  diff : BitVec 76
  deriving DecidableEq, Repr

/-- A critical command but for its CODE (Table 17-4): whether a gate engine submitted it (else Hatch), SLOT, CTR, DEVICE, ARGS, TAG,
the stamp of its arrival; whether the two AES datapaths disagree on it and whether a journal write of it fails (R429). -/
structure CmdFields where
  gate : Bool
  slot : Nat
  ctr : Nat
  device : Nat
  args : List Byte
  tag : List Byte
  stamp : Nat
  aesFault : Bool
  journalFail : Bool
  deriving DecidableEq, Repr


/-- The commands of the block: one constructor per row of spec/opcode_table.json, in the table's order. -/
inductive Instr where
  /-- REGISTER_WRITE (R36): A write to a register with no row of its own is applied according to its access type (RW, W1C, W1S, TB shadow, SAFE refusal), with range and lock checks. meets: the bits of the fields that the hardware update just before reaches in the same cycle (R40). The stamp is the cycle in which the page applies it (R56). -/
  | registerWrite (i : Initiator) (addr : Nat) (value : Word) (enables stamp : Nat) (meets : Word := 0)
  /-- LOCK_KEY_WRITE (R46): A write of LOCK with KEY 0x5EA1 opens an unlock window for its initiator; other keys or HARD_LOCK close it or latch an error. -/
  | lockKeyWrite (i : Initiator) (ty n : Nat) (value : Word)
  /-- UNLOCK_WINDOW_EXPIRE (R46): An unlock window reaches 64 CK_NOC cycles unused and closes with error code 0x0002. -/
  | unlockWindowExpire (ty n : Nat)
  /-- SOFT_RESET (R44): A write of CTL.SOFT_RESET resets the block if it is fenced and drained and its chapter's conditions hold, else is refused with 0x0007. -/
  | softReset (i : Initiator) (ty n : Nat)
  /-- FENCE (R328): A write of CTL.FENCE makes the block's trailhead answer arriving requests RSP_FENCED. -/
  | fence (i : Initiator) (ty n : Nat) (on : Bool)
  /-- EVT_FORCE (R42): A write to EVT_FORCE sets event bits as a hardware set would, or is refused RSP_AUTH without rights. -/
  | evtForce (i : Initiator) (ty n : Nat) (mask : Word)
  /-- TICK_START (R50): TICK_RUN.RUN written 1 starts the tick generator, choosing reference or holdover source, with the first edge one tick later. -/
  | tickStart (stamp : Nat)
  /-- TICK_STOP (R50): TICK_RUN.RUN written 0 stops the generator; no cutoff or commit occurs until the next start. -/
  | tickStop (stamp : Nat)
  /-- TICK_SLEW_WRITE (R49): A write to TICK_SLEW is clamped to ±100 ppm into its shadow, raising SLEW_CLAMP when clamped. -/
  | tickSlewWrite (i : Initiator) (value : Word) (stamp : Nat)
  /-- CUTOFF (R56): The cutoff instant of the next snapshot passes: inputs are assigned, the post-cutoff hold begins and the CUT message is sent. -/
  | cutoff
  /-- COMMIT (R61): The tick edge passes: the boundary-die commit swaps signal slots, applies TB shadows, tick settings, surfaces and framebuffers, and advances TICK_SNAP. -/
  | commit
  /-- REFERENCE_LOST (R51): The clock monitor reports loss of the 25 MHz reference and the generator continues in holdover from OSC_C. -/
  | referenceLost
  /-- ARRAY_SIDE_EDGE (R16): The tick edge is applied on the array die: array-side commit, variant selection, gang formation and start of the tick's tasks. The losses reported less than 2 µs before the edge (R496), by the codes of PORT_TKO_LAST.CAUSE. -/
  | arraySideEdge (late : List Nat := [])
  /-- RENDER_WINDOW_CLOSE (R54): TICK_ARRAY_BUDGET array cycles after the array-side edge the render window closes and the guard begins. -/
  | renderWindowClose
  /-- HELD_FRAME_EXTRACT (R60): A frame held in the post-cutoff hold is extracted into pending slots after the commit, in stamp order. -/
  | heldFrameExtract
  /-- CUT_MESSAGE_RECEIVE (R55): The array side receives a CUT message and fixes the array-side cutoff by backing out AGE. The arrival is counted in Lintel frames of 4 ns. -/
  | cutMessageReceive (tickSeq age arrival : Nat)
  /-- FRAME_INFO_RECEIVE (R70): A head receives the array's FRAME_INFO message supplying provenance fields for a frame. The message that the array side has sent for the frame. -/
  | frameInfoReceive (head : Nat)
  /-- PROVENANCE_RECORD_WRITE (R70): At the end of a frame's last active line the head writes its provenance record to the TICK ring. -/
  | provenanceRecordWrite (head : Nat)
  /-- LINTEL_FRAME_RECEIVE (R17): A Lintel frame arrives and is CRC-checked, delivering its payload class or setting NAK on error. The frame that the other side sends to that side with what is ready there, the bits that flip on the way, and the arrival in units of 4 ns. -/
  | lintelFrameReceive (side : Nat) (ready : LintelReady) (flips : Flips) (arrival : Nat := 0)
  /-- LINK_DOWN (R18): A Lintel direction is declared down on CRC failures, replay limit or 1 µs without a CTL frame; both sides stop and raise LINK_DOWN. -/
  | linkDown (side : Nat)
  /-- RETRAIN (R18): A write of LNTL_LINK_CTL.RETRAIN starts Lintel training, warm or full. -/
  | retrain (i : Initiator) (full : Bool)
  /-- LINK_TRAINING_DONE (R20): Lintel training ends; on first training after power-up the bridges return to SERVICE. -/
  | linkTrainingDone (ok : Bool)
  /-- BRIDGE_RETURN (R20): A write of STIL_MODE.BR_RETURN returns a bridge to SERVICE on both dies while the link is UP. -/
  | bridgeReturn (i : Initiator) (bridge : Nat)
  /-- DDR_TRAIN_FULL (R26): DDRC_TRAIN_CTL.START with MODE FULL starts full training of a DOWN or LOST channel. -/
  | ddrTrainFull (i : Initiator) (ch : Nat)
  /-- DDR_TRAIN_RESTORE (R26): DDRC_TRAIN_CTL.START with MODE RESTORE applies the written training record and verifies each rank. -/
  | ddrTrainRestore (i : Initiator) (ch : Nat)
  /-- DDR_TRAINING_DONE (R26): A training ends, leaving the channel READY or DOWN with FAIL_STEP. The record is what a FULL training leaves. -/
  | ddrTrainingDone (ch failStep ms : Nat) (record : List Word)
  /-- TRAIN_DATA_ACCESS (R26): An access to DDRC_TRAIN_DATA reads or writes a record word and advances IDX. With a value it writes, without one it reads. -/
  | trainDataAccess (i : Initiator) (ch : Nat) (value : Option Word)
  /-- DDR_READ (R24): A read of the DDR data region is decoded per word, corrected words written back, uncorrectable ones answered RSP_ECC. -/
  | ddrRead (ch addr len : Nat)
  /-- DDR_WRITE (R24): A DDR write stores whole blocks with check bytes, or read-merge-writes narrower writes. Byte k is written when bit k of enables is 1. -/
  | ddrWrite (ch addr enables : Nat) (data : List Byte)
  /-- DDR_SCRUB_BLOCK (R27): Every INTERVAL µs a READY channel scrubs the next 64-byte block. -/
  | ddrScrubBlock (ch : Nat)
  /-- DDR_PHY_LOCK_LOST (R25): A channel's PHY loses lock and the channel becomes LOST. -/
  | ddrPhyLockLost (ch : Nat)
  /-- DDR_SREF_EXIT_DONE (R28): A channel completes its self-refresh exit and serves its held requests. -/
  | ddrSrefExitDone (ch : Nat)
  /-- DDR_SREF_EXIT_TIMEOUT (R25): A self-refresh exit does not complete within 1 ms and the channel becomes LOST. -/
  | ddrSrefExitTimeout (ch : Nat)
  /-- ADMIT (R73): The ADMIT command copies an itinerary image into staging, authenticates it and starts the Porter's checks. -/
  | admitImage (c : CmdFields)
  /-- ADMISSION_COMPLETE (R74): The Porter finishes its checks and accepts or refuses the itinerary, writing PORT_RESULT. The stamp of the completion cycle and the duration in µs. -/
  | admissionComplete (stamp us : Nat)
  /-- POWER_CAP_WRITE (R100): A write of PORT_POWER_CAP is refused if below a declared POWER_TOTAL or out of range. -/
  | powerCapWrite (i : Initiator) (auth : Bool) (mw : Nat)
  /-- TASK_START (R96): A gang starts its next task entry with 16 task-start cycles, incrementing the TSN and setting TASK_START. p is the gang's base pane. -/
  | taskStart (p : Nat)
  /-- TASK_END (R167): The TASK_END macro-op is retired once every outbound unit is empty, ending the task. -/
  | taskEnd (p : Nat)
  /-- TASK_CUT_OFF (R97): A task reaches its BUDGET: controllers stop it, discard its queue, trap the sash engine and raise TASK_OVERRUN. Whether a fault of the controllers falls in the same cycle (R175). -/
  | taskCutOff (p : Nat) (meets : Bool := false)
  /-- PE_OP_EXECUTE (R108): A PE-op executes in every PE of the pane, updating memory, registers, hampers and reduction input under K. In every pane of the gang with base pane p. -/
  | peOpExecute (p : Nat)
  /-- PANE_INIT_DONE (R105): The pane finishes writing zero to all PE memory after coming up from OFF and raises INIT_DONE. -/
  | paneInitDone (p : Nat)
  /-- PANE_SCRUB (R122): In the guard of each tick the pane scrubs ROWS_PER_TICK addresses of PE memory. -/
  | paneScrub (p : Nat)
  /-- STEER_REBUILD_DONE (R125): A column rebuild of 2,064 cycles ends, STEERED is raised and the pane's tasks start. -/
  | steerRebuildDone (p : Nat)
  /-- PANE_BIST_START (R128): A write of PANE_BIST_CTL.START in STANDBY starts the destructive pane self-test. -/
  | paneBistStart (i : Initiator) (p : Nat)
  /-- PANE_BIST_DONE (R128): The pane self-test ends, reports failing columns and steers them when AUTO is 1. The failing physical columns, ascending. -/
  | paneBistDone (p : Nat) (cols : List Nat)
  /-- HAMPER_DROP (R132): A slice dropped by a row port lands in a unit's inbound hampers, or waits while the unit is full. The bits of the stored entry, its parity and the unit's second occupancy that flip. -/
  | hamperDrop (slat quad : Nat) (flips : Flips := [])
  /-- HAMPER_LIFT (R132): A slice is lifted from a unit's outbound hampers, or waits while the unit is empty. -/
  | hamperLift (slat quad : Nat)
  /-- ROW_COMMAND_START (R141): A row port takes up a queued row-port command and starts its drops or lifts, or refuses it with CMD_BAD. -/
  | rowCommandStart (slat quad : Nat)
  /-- REDUCTION_RESULT_DELIVER (R147): A macro-op's GOR and TALLY are delivered to the gang's sash engine, setting G, the tally register and RCNT. -/
  | reductionResultDeliver (p : Nat)
  /-- HAMPER_SNAP (R150): A write of PCTL_HAMP_SNAP captures all hamper counters in one array cycle. -/
  | hamperSnap (i : Initiator) (p : Nat)
  /-- PE_PLANE_WINDOW_ACCESS (R144): A slat DMA request to the PE-plane window reads or merges PE memory rows, or is refused. -/
  | pePlaneWindowAccess (i : Initiator) (p : Nat) (q : NetReq)
  /-- MACRO_ENQUEUE (R156): A macro-op enters every queue of the gang, or is discarded when its TSN is stale. The oldest macro-op on its way from the sash engine to the gang. -/
  | macroEnqueue (p : Nat)
  /-- MACRO_DISPATCH (R157): The controller takes the queue head, checks it against the op table and sets counters for expansion. -/
  | macroDispatch (p : Nat)
  /-- MICROWORD_PE (R162): A PE-class microword issues one PE-op assembled from OPERAND and the counters. -/
  | microwordPe (p : Nat)
  /-- MICROWORD_PE_R0 (R161): A PE_R0 microword issues LC0 PE-ops and reloads LC0. -/
  | microwordPeR0 (p : Nat)
  /-- MICROWORD_PE_R1 (R161): A PE_R1 microword issues LC1 PE-ops and reloads LC1. -/
  | microwordPeR1 (p : Nat)
  /-- MICROWORD_TT (R161): A TT microword loads the truth-table registers from OPERAND. -/
  | microwordTt (p : Nat)
  /-- MICROWORD_TTP (R161): A TTP microword loads TT_R from PARAM and TT_C from OPERAND. -/
  | microwordTtp (p : Nat)
  /-- MICROWORD_ADDR (R161): An ADDR microword sets one address counter and its step. -/
  | microwordAddr (p : Nat)
  /-- MICROWORD_LOOP (R161): A LOOP microword sets a loop counter and its reload. -/
  | microwordLoop (p : Nat)
  /-- MICROWORD_SEQ (R163): A SEQ microword decrements loop counters and selects the next address on a condition. -/
  | microwordSeq (p : Nat)
  /-- MICROWORD_WAIT (R161): A WAIT microword issues no PE-op for OPERAND + 1 cycles. -/
  | microwordWait (p : Nat)
  /-- MICROWORD_RESERVED (R166): A reserved microword issues nothing, raises MICRO_RESERVED and ends the task. -/
  | microwordReserved (p : Nat)
  /-- MACRO_COST_REACHED (R165): A macro-op reaches its declared cost, ending padding or abandoning the microprogram with COST_EXCEED. -/
  | macroCostReached (p : Nat)
  /-- SETC_LO (R167): SETC_LO writes the low half of the constant register in its dispatch cycle. -/
  | setcLo (p : Nat)
  /-- SETC_HI (R167): SETC_HI writes the high half of the constant register in its dispatch cycle. -/
  | setcHi (p : Nat)
  /-- LARDER_PATCH (R171): The LARDER_PATCH command loads a Larder payload into the named panes if they are in STANDBY and unpinned. -/
  | larderPatch (c : CmdFields)
  /-- LARDER_PATCH_DONE (R172): A patch's read-back CMAC completes and each pane takes the version or clears its region. -/
  | larderPatchDone (p : Nat)
  /-- ADD (R209): Register add with optional flag update. -/
  | addReg (e : EngineId) (y : Syl)
  /-- SUB (R209): Register subtract with optional flag update. -/
  | subReg (e : EngineId) (y : Syl)
  /-- ADC (R209): Register add with carry-in. -/
  | adc (e : EngineId) (y : Syl)
  /-- SBC (R209): Register subtract with borrow-in. -/
  | sbc (e : EngineId) (y : Syl)
  /-- AND (R209): Bitwise AND of two registers. -/
  | andReg (e : EngineId) (y : Syl)
  /-- OR (R209): Bitwise OR of two registers. -/
  | orReg (e : EngineId) (y : Syl)
  /-- XOR (R209): Bitwise XOR of two registers. -/
  | xor (e : EngineId) (y : Syl)
  /-- ANDN (R209): AND of a register with the complement of another. -/
  | andn (e : EngineId) (y : Syl)
  /-- SHL (R211): Logical shift left by a register amount. -/
  | shl (e : EngineId) (y : Syl)
  /-- SHR (R211): Logical shift right by a register amount. -/
  | shr (e : EngineId) (y : Syl)
  /-- SAR (R211): Arithmetic shift right by a register amount. -/
  | sar (e : EngineId) (y : Syl)
  /-- ROR (R211): Rotate right by a register amount. -/
  | ror (e : EngineId) (y : Syl)
  /-- CMP (R209): Compare two registers, writing N, Z, C, V only. -/
  | cmp (e : EngineId) (y : Syl)
  /-- TST (R209): AND two registers, writing N and Z only. -/
  | tst (e : EngineId) (y : Syl)
  /-- MINMAX (R213): Signed or unsigned minimum or maximum of two registers. -/
  | minmax (e : EngineId) (y : Syl)
  /-- BITCNT (R213): Leading zeros, population count or trailing zeros of a register. -/
  | bitcnt (e : EngineId) (y : Syl)
  /-- ADDI (R212): Add a signed immediate. -/
  | addi (e : EngineId) (y : Syl)
  /-- ANDI (R212): AND with a signed immediate. -/
  | andi (e : EngineId) (y : Syl)
  /-- ORI (R212): OR with a signed immediate. -/
  | ori (e : EngineId) (y : Syl)
  /-- XORI (R212): XOR with a signed immediate. -/
  | xori (e : EngineId) (y : Syl)
  /-- SHI (R212): Shift or rotate by an immediate amount. -/
  | shi (e : EngineId) (y : Syl)
  /-- CMPI (R212): Compare a register with an immediate, writing flags. -/
  | cmpi (e : EngineId) (y : Syl)
  /-- MOVI (R212): Load a sign-extended 14-bit immediate. -/
  | movi (e : EngineId) (y : Syl)
  /-- MOVH (R212): Shift a register left 14 and add a 14-bit immediate. -/
  | movh (e : EngineId) (y : Syl)
  /-- DADD (R216): Packed-decimal add, writing C, Z and D. -/
  | dadd (e : EngineId) (y : Syl)
  /-- DSUB (R216): Packed-decimal subtract, writing C, Z and D. -/
  | dsub (e : EngineId) (y : Syl)
  /-- EXT (R213): Extract a bit field (C32) or byte (C24). -/
  | extField (e : EngineId) (y : Syl)
  /-- INS (R213): Insert a bit field (C32) or byte (C24). -/
  | insField (e : EngineId) (y : Syl)
  /-- REP (R201): A REP bundle repeats its string or move syllable while RPC is not 0. -/
  | repMark (e : EngineId) (y : Syl)
  /-- MUL (R214): Integer multiply, writing the part of the product selected by FN. -/
  | mul (e : EngineId) (y : Syl)
  /-- DIV (R215): Interlocked integer divide or remainder, trapping DIV_ZERO on a zero divisor. -/
  | div (e : EngineId) (y : Syl)
  /-- FADD (R230): Floating-point add. -/
  | fadd (e : EngineId) (y : Syl)
  /-- FSUB (R230): Floating-point subtract. -/
  | fsub (e : EngineId) (y : Syl)
  /-- FMUL (R230): Floating-point multiply. -/
  | fmul (e : EngineId) (y : Syl)
  /-- FMA (R230): Fused multiply-add with one rounding and negation forms. -/
  | fma (e : EngineId) (y : Syl)
  /-- FDIV (R253): Floating-point divide on the non-pipelined divider. -/
  | fdiv (e : EngineId) (y : Syl)
  /-- FSQRT (R253): Floating-point square root on the non-pipelined divider. -/
  | fsqrt (e : EngineId) (y : Syl)
  /-- FCVT (R231): Conversion between formats or to and from 32-bit integers. -/
  | fcvt (e : EngineId) (y : Syl)
  /-- FCMP (R232): Quiet or signalling floating-point compare writing N, Z, C, V. -/
  | fcmp (e : EngineId) (y : Syl)
  /-- FMINMAX (R248): IEEE minimum, maximum, minimumNumber or maximumNumber. -/
  | fminmax (e : EngineId) (y : Syl)
  /-- FCLASS (R230): One-hot class of a floating-point operand into an integer register. -/
  | fclass (e : EngineId) (y : Syl)
  /-- FSGN (R230): Copy, negate or xor the sign of a floating-point value. -/
  | fsgn (e : EngineId) (y : Syl)
  /-- LD_B (R217): Local load of a sign-extended byte. -/
  | ldB (e : EngineId) (y : Syl)
  /-- LD_BU (R217): Local load of a zero-extended byte. -/
  | ldBu (e : EngineId) (y : Syl)
  /-- LD_H (R217): Local load of a sign-extended half-word. -/
  | ldH (e : EngineId) (y : Syl)
  /-- LD_HU (R217): Local load of a zero-extended half-word. -/
  | ldHu (e : EngineId) (y : Syl)
  /-- LD_W (R217): Local load of one word. -/
  | ldW (e : EngineId) (y : Syl)
  /-- LD_D (R217): Local load of a register pair. -/
  | ldD (e : EngineId) (y : Syl)
  /-- LD_WR (R218): Local load of a word with byte-lane rotate. -/
  | ldWr (e : EngineId) (y : Syl)
  /-- ST_B (R217): Local store of a byte. -/
  | stB (e : EngineId) (y : Syl)
  /-- ST_H (R217): Local store of a half-word. -/
  | stH (e : EngineId) (y : Syl)
  /-- ST_W (R217): Local store of one word. -/
  | stW (e : EngineId) (y : Syl)
  /-- ST_D (R217): Local store of a register pair. -/
  | stD (e : EngineId) (y : Syl)
  /-- ST_WR (R218): Local store of a word with byte-lane rotate. -/
  | stWr (e : EngineId) (y : Syl)
  /-- LDF (R219): Far load of one word through the engine's trailhead, waiting for the response. -/
  | ldf (e : EngineId) (y : Syl)
  /-- STF (R219): Far store of one word through the engine's trailhead, waiting for the response. -/
  | stf (e : EngineId) (y : Syl)
  /-- ECOPY (R220): Copy one element from source to destination. -/
  | ecopy (e : EngineId) (y : Syl)
  /-- EFILL (R220): Write one value to a destination element. -/
  | efill (e : EngineId) (y : Syl)
  /-- ECOMP (R220): Compare a source element with a destination element. -/
  | ecomp (e : EngineId) (y : Syl)
  /-- ESEEK (R220): Compare a destination element with a value. -/
  | eseek (e : EngineId) (y : Syl)
  /-- STRING_ITERATION (R220): One iteration of a repeated string or move syllable, with boundary checks between iterations. -/
  | stringIteration (e : EngineId) (stamp : Nat)
  /-- FAR_ACCESS_RESPONSE (R194): The response to a far access arrives and completes the waiting bundle or takes ACCESS. -/
  | farAccessResponse (e : EngineId) (stamp : Nat)
  /-- B (R223): Branch to PC plus displacement. -/
  | branch (e : EngineId) (y : Syl)
  /-- CALL (R187): Call with window slide, or WIN_OVERFLOW. -/
  | call (e : EngineId) (y : Syl)
  /-- JR (R223): Jump to a register address. -/
  | jr (e : EngineId) (y : Syl)
  /-- CALLR (R187): Call through a register with window slide. -/
  | callr (e : EngineId) (y : Syl)
  /-- RET (R187): Return to LK with window slide back, or WIN_UNDERFLOW. -/
  | ret (e : EngineId) (y : Syl)
  /-- RESUME (R197): Return from a trap handler, restoring FLG, window and pending load. -/
  | resume (e : EngineId) (y : Syl)
  /-- TRAP (R224): Take the TRAP cause with RSM at the next bundle. -/
  | trap (e : EngineId) (y : Syl)
  /-- BRK (R224): Halt under debug when armed, else take the BRK trap. -/
  | brk (e : EngineId) (y : Syl)
  /-- MFSR (R225): Read a system register. -/
  | mfsr (e : EngineId) (y : Syl)
  /-- MTSR (R225): Write a system register at the end of the bundle. -/
  | mtsr (e : EngineId) (y : Syl)
  /-- WSPILL (R188): Spill the oldest window position to memory at WSP. -/
  | wspill (e : EngineId) (y : Syl)
  /-- WFILL (R188): Fill a window position from memory at WSP. -/
  | wfill (e : EngineId) (y : Syl)
  /-- WFI (R226): Wait until an enabled interrupt line or TASK_END is pending. -/
  | wfi (e : EngineId) (y : Syl)
  /-- SYNC (R227): Discard prefetched bundles and refetch after instruction-memory writes. -/
  | sync (e : EngineId) (y : Syl)
  /-- FBAR (R228): Wait until no FP result is pending, then take a pending enabled FP trap. -/
  | fbar (e : EngineId) (y : Syl)
  /-- AISSUE (R234): Pass a macro-op to the gang's macro queues, waiting while any is full. -/
  | aissue (e : EngineId) (y : Syl)
  /-- ATEND (R235): Pass TASK_END to the gang's macro queues. -/
  | atend (e : EngineId) (y : Syl)
  /-- AWAIT (R236): Wait until the result count reaches a register value. -/
  | await (e : EngineId) (y : Syl)
  /-- ATALLY (R236): Read the tally register. -/
  | atally (e : EngineId) (y : Syl)
  /-- ROWCMD (R237): Queue a row-port command on its quad, waiting while the queue is full. -/
  | rowcmd (e : EngineId) (y : Syl)
  /-- ROWWAIT (R237): Wait until every command of the selected quads has completed. -/
  | rowwait (e : EngineId) (y : Syl)
  /-- DMA (R238): Queue a DMA descriptor and return its sequence number. -/
  | dmaQueue (e : EngineId) (y : Syl)
  /-- DMAWAIT (R238): Wait until a numbered DMA transfer has completed. -/
  | dmawait (e : EngineId) (y : Syl)
  /-- DMASTAT (R238): Read DMA status, optionally clearing ERR. -/
  | dmastat (e : EngineId) (y : Syl)
  /-- LOAD_WRITEBACK (R191): A local load's value lands in its physical target at the end of the following bundle. -/
  | loadWriteback (e : EngineId)
  /-- RESULT_LAND (R193): An interlocked DIV or FP result lands in its register and its FP flags accumulate in FCSR. -/
  | resultLand (e : EngineId)
  /-- TRAP_ENTRY (R196): At a bundle boundary the engine takes a trap, interrupt, FP or TASK_END event and enters the vector. -/
  | trapEntry (e : EngineId)
  /-- ENGINE_ENABLE (R263): CTL.ENABLE written 0 to 1 resets the engine and starts it at xxx_START. -/
  | engineEnable (i : Initiator) (e : EngineId)
  /-- ENGINE_DISABLE (R263): CTL.ENABLE written 0 stops the engine at its next bundle boundary. -/
  | engineDisable (i : Initiator) (e : EngineId)
  /-- ENGINE_MEM_INIT_DONE (R260): An engine's memories finish zero initialisation after power-up and INIT_DONE is raised. -/
  | engineMemInitDone (e : EngineId)
  /-- ENGINE_MEM_SCRUB (R259): Every 256 engine cycles the engine scrubs one memory row; an uncorrectable row stops the engine. -/
  | engineMemScrub (e : EngineId)
  /-- LOCKSTEP_MISMATCH (R262): The two cores of a lockstep pair disagree and the pair stops both cores. -/
  | lockstepMismatch (e : EngineId)
  /-- SPARE_LOAD_COMPLETE (R272): The spare loader finishes copying the image, or fails with RELOAD_FAIL. k = 0 is SASH_16. -/
  | spareLoadComplete (k : Nat)
  /-- SPARE_RELEASE (R274): SASH_SPARE_CTL.RELEASE at its edge reconnects the pane to its own sash if it is RUNNING. -/
  | spareRelease (k stamp : Nat)
  /-- WDG_KICK (R268): A write of xxx_WDG_KICK reloads the engine watchdog with the right key. -/
  | wdgKick (i : Initiator) (e : EngineId) (value : Word)
  /-- WDG_WARN (R268): Half the engine watchdog period remains and WDG_WARN is set. -/
  | wdgWarn (e : EngineId)
  /-- WDG_EXPIRE (R268): The engine watchdog reaches 0 and the engine stops as a fault. -/
  | wdgExpire (e : EngineId)
  /-- ENGINE_TASK_READ (R266): A read of xxx_TASK clears CUT and the TASK_START and TASK_CUT interrupt latches. -/
  | engineTaskRead (i : Initiator) (e : EngineId)
  /-- DMA_DESCRIPTOR_START (R270): The DMA engine takes the next queued descriptor and issues its Footpath requests. -/
  | dmaDescriptorStart (e : EngineId) (stamp : Nat)
  /-- DMA_TRANSFER_COMPLETE (R270): All responses of a transfer have arrived; DONE_SEQ advances, with ERR on any failure. -/
  | dmaTransferComplete (e : EngineId) (stamp : Nat)
  /-- PANTRY_REQUEST_ARRIVE (R282): A request reaches a bank and is queued, held for a hand-over, or answered RSP_NOT_OWNER. The request names its initiator; its answer goes to the command. -/
  | pantryRequestArrive (bank : Nat) (i : Initiator) (q : NetReq)
  /-- PANTRY_ACCESS (R286): In each CK_NOC cycle the bank serves its queue heads with fixed conflict rules. -/
  | pantryAccess (bank : Nat)
  /-- PANTRY_CORRECTED_WRITEBACK (R279): A corrected word is written back in the bank's next idle cycle. -/
  | pantryCorrectedWriteback (bank : Nat)
  /-- PANTRY_SCRUB (R280): After INTERVAL cycles the bank scrubs one word in an idle cycle. -/
  | pantryScrub (bank : Nat)
  /-- HANDOVER_START (R283): A write of PANT_OWNER_NEXT starts a hand-over, or is refused. -/
  | handoverStart (i : Initiator) (bank code : Nat)
  /-- HANDOVER_COMPLETE (R283): The old owner's last request is served and OWNER takes the new code. -/
  | handoverComplete (bank : Nat)
  /-- MARCH_START (R288): A write of MRCH_CTL.START starts a destructive or preserving run over the masked banks. -/
  | marchStart (i : Initiator) (preserve checker : Bool)
  /-- MARCH_STARTUP_RUN (R293): When PD_PANTRY comes up from OFF the March engine starts a full destructive run by itself. -/
  | marchStartupRun
  /-- MARCH_RUN_END (R292): A March run ends, failing banks marked FAILED and passing banks handed over. The failures that the physical cells show, in order of time. -/
  | marchRunEnd (fails : List MarchFail)
  /-- REQUEST_ISSUE (R308): An initiator issues a request; the trailhead maps it, checks holes, closed mask and routes, or answers locally. -/
  | requestIssue (i : Initiator) (q : NetReq) (stamp : Nat)
  /-- REQUEST_INJECT (R314): A request with a tag and credit is classified S, A or B and injected into the network. The trailhead, the stamp, and whether the word that it stores is found uncorrectable (R506). -/
  | requestInject (t stamp : Nat) (ue : Bool := false)
  /-- FLIT_ARRIVE (R305): A flit enters a stile, is CRC-checked, routed by its hop and forwarded or sunk. The next flit on the link into that input; the bits that flip: 0 to 703 of the flit and 704 to 719 of its CRC on the link, the same from 720 on in the buffer. -/
  | flitArrive (stile port vc : Nat) (flips : Flips) (stamp : Nat := 0)
  /-- REQUEST_ARRIVE (R34): A request reaches its serving trailhead and page, answered RSP_FENCED, RSP_CLOSED or served. -/
  | requestArrive (t stamp : Nat)
  /-- RESPONSE_DELIVER (R319): A response reaches the issuing trailhead and is delivered to its initiator, freeing the tag. The trailhead, the stamp, and whether the stored word that it needs is found uncorrectable (R506). -/
  | responseDeliver (t stamp : Nat) (ue : Bool := false)
  /-- RESPONSE_TIMEOUT (R320): A request reaches TRLH_TIMEOUT without response and is answered RSP_UNREACHABLE. -/
  | responseTimeout (t tag : Nat)
  /-- TAG_QUARANTINE_END (R320): A timed-out tag completes its quarantine and becomes free. -/
  | tagQuarantineEnd (t tag : Nat)
  /-- STILE_SERVICE (R327): STIL_MODE written SERVICE returns the stile to normal switching. -/
  | stileService (i : Initiator) (stile : Nat)
  /-- STILE_DETOUR (R327): STIL_MODE written DETOUR stops new worms toward the stile and starts its drain. -/
  | stileDetour (i : Initiator) (stile : Nat)
  /-- STILE_DOWN (R327): STIL_MODE written DOWN sinks all flits, poisons worms in progress and sets the mask bit. -/
  | stileDown (i : Initiator) (stile : Nat)
  /-- STILE_DRAINED (R327): A stile in DETOUR has no buffered flit or worm in progress and raises DRAINED. -/
  | stileDrained (stile : Nat)
  /-- CLOSE (R328): TRLH_CLOSE_CTL.CLOSE sends CLOSE to reachable trailheads and starts DRAIN. -/
  | closeStart (i : Initiator) (t : Nat)
  /-- OPEN (R329): TRLH_CLOSE_CTL.OPEN sends OPEN to every reachable trailhead. -/
  | openSend (i : Initiator) (t : Nat)
  /-- CLOSE_RECEIVE (R330): A trailhead receives CLOSE, sets the sender closed and returns CLOSE_ACK. -/
  | closeReceive (t : Nat)
  /-- CLOSE_ACK_RECEIVE (R328): A closing trailhead receives a CLOSE_ACK. -/
  | closeAckReceive (t : Nat)
  /-- OPEN_RECEIVE (R330): A trailhead receives OPEN and clears the sender from its closed mask. -/
  | openReceive (t : Nat)
  /-- DRAIN_COMPLETE (R328): Every CLOSE_ACK and outstanding response has arrived and DRAINED becomes 1. -/
  | drainComplete (t : Nat)
  /-- DRAIN_TIMEOUT (R328): 100 µs after CLOSE, outstanding requests are answered RSP_UNREACHABLE and DRAIN_LATE raised. -/
  | drainTimeout (t : Nat)
  /-- ROUTE_ENTRY_WRITE (R309): A write of TRLH_RT_HI applies a whole route entry after validity and pin checks. The value is that of TRLH_RT_HI. -/
  | routeEntryWrite (i : Initiator) (t : Nat) (value : Word)
  /-- TRAILHEAD_SNAP (R321): TRLH_SNAP.CAPTURE captures ISSUED, RESPONDED and OUTSTANDING in one cycle. -/
  | trailheadSnap (i : Initiator) (t : Nat)
  /-- TRACE_DATA_READ (R333): A consuming read of STIL_TRACE_DATA returns a trace word and advances IDX. -/
  | traceDataRead (i : Initiator)
  /-- HEAD_FRAME_START (R343): A head starts a frame, choosing its source and taking tell-tale states from committed slots. It stands for the time up to the first active pixel. -/
  | headFrameStart (head : Nat)
  /-- SCANOUT_FETCH (R341): The scanout fetch reads framebuffer pixels per region select and sends them on the PIX stream. One active line. -/
  | scanoutFetch (head : Nat)
  /-- LINE_BUFFER_UNDERRUN (R342): A due active pixel has not arrived and the head finishes the frame from the limp composer. -/
  | lineBufferUnderrun (head : Nat)
  /-- LUT_COPY_DONE (R345): The copy of the new active LUT into the other copy completes and LUT writes are accepted again. -/
  | lutCopyDone (head : Nat)
  /-- LUT_DATA_ACCESS (R345): An access to HEAD_LUT_DATA reads or writes the inactive LUT copy and advances INDEX. With a value it writes, without one it reads. -/
  | lutDataAccess (i : Initiator) (head : Nat) (value : Option Word)
  /-- HEAD_LINK_TRAIN (R348): HEAD_LINK_CTL.TRAIN starts link training on the head's PHYs. -/
  | headLinkTrain (i : Initiator) (head : Nat)
  /-- HEAD_LINK_TRAIN_DONE (R348): Link training ends UP or FAILED. -/
  | headLinkTrainDone (head lanes ms : Nat) (ok : Bool)
  /-- HEAD_LINK_LOST (R348): An UP eDP link loses status or reports a fault by HPD IRQ and becomes FAILED. The lanes that still hold their status. -/
  | headLinkLost (head lanes : Nat)
  /-- SIDE_TRANSACTION_START (R347): HEAD_SIDE_CMD.GO starts an AUX or DCS side-channel transaction. The word written to HEAD_SIDE_CMD. -/
  | sideTransactionStart (i : Initiator) (head : Nat) (value : Word)
  /-- SIDE_TRANSACTION_DONE (R347): A side-channel transaction ends with its status and SIDE_DONE. The bytes that a read returned. -/
  | sideTransactionDone (head status : Nat) (data : List Byte)
  /-- GLAZING_LOAD_START (R349): GLAZ_LOAD_CTL.START suspends checking and starts loading an asset container from flash. -/
  | glazingLoadStart (slot : Nat)
  /-- GLAZING_LOAD_DONE (R349): An asset load ends, taking the version or clearing SRAM on failure. -/
  | glazingLoadDone
  /-- TELLTALE_CRC_CHECK (R357): After a rectangle's last pixel both checkers compare its CRC with the expected value. The bits of the rectangle's stream that differ at stage 6 from what was stamped, and the difference of the second checker's CRC. -/
  | telltaleCrcCheck (head tt : Nat) (flips : Flips) (other : Nat)
  /-- TT_CLEAR (R360): A SAFE write of GLAZ_TT_CLEAR returns FAILED pairs to OK. -/
  | ttClear (all : Bool) (head tt : Nat)
  /-- FRAME_MISSING (R362): A due frame start or its record does not come in time and FRAME_MISSING is set. -/
  | frameMissing (head : Nat)
  /-- GLAZING_SRAM_SCRUB (R366): Every 1,024 CK_AO cycles one Glazing SRAM row is scrubbed. -/
  | glazingSramScrub
  /-- CSI_FRAME_START (R370): A frame-start packet of the configured virtual channel begins a camera frame. -/
  | csiFrameStart (cam vc fnum : Nat) (corrected : Bool)
  /-- CSI_LINE (R370): A long packet line is CRC-checked and forwarded on the PIX stream. The header is good (0), was corrected (1) or is uncorrectable (2); a pixel is its packet value (for RGB888 R in [23:16]); storeFull: the camera's line store on the array side is full (R373). -/
  | csiLine (cam vc dt : Nat) (pixels : List Nat) (hdr : Nat) (crcOk storeFull : Bool)
  /-- CSI_FRAME_END (R370): A frame-end packet completes the frame: the last line is sent if good, else the frame is discarded. -/
  | csiFrameEnd (cam vc : Nat) (corrected : Bool)
  /-- CSI_OTHER_PACKET (R368): A packet of another virtual channel or data type is counted and ignored. -/
  | csiOtherPacket (cam : Nat) (corrected : Bool)
  /-- CAMERA_WRITER_FRAME_START (R372): The camera writer takes a FREE valid buffer as WRITING, or counts NOBUF. -/
  | cameraWriterFrameStart (cam : Nat)
  /-- CAMERA_FRAME_COMPLETE (R372): The last write of a camera frame is acknowledged and its buffer becomes PENDING. -/
  | cameraFrameComplete (cam stamp : Nat)
  /-- FSYNC_PULSE_START (R376): OFS reference cycles after a due edge the FSYNC ball goes active. -/
  | fsyncPulseStart (cam : Nat)
  /-- FSYNC_PULSE_END (R376): WIDTH reference cycles later the FSYNC ball returns inactive. -/
  | fsyncPulseEnd (cam : Nat)
  /-- BAR0_ACCESS (R378): A PCIe BAR0 access is served for an allowed page type or denied. With a value it writes, without one it reads. -/
  | bar0Access (off : Nat) (value : Option Word) (enables stamp : Nat)
  /-- BAR2_WRITE (R380): A BAR2 write into a FREE or FILLING surface buffer is forwarded to DDR, else dropped. -/
  | bar2Write (off : Nat) (data : List Byte)
  /-- DOORBELL (R382): A write of TRSM_DOORBELL queues a doorbell or refuses it when 16 wait. -/
  | doorbell (i : Initiator) (value : Word)
  /-- DOORBELL_ACCEPT (R382): After earlier BAR2 writes complete the doorbell is accepted and the buffer POSTED, or refused. -/
  | doorbellAccept (stamp : Nat)
  /-- MSIX_MESSAGE (R384): A vector's source event output rises or the vector is unmasked and the MSI-X message is sent. -/
  | msixMessage (v : Nat)
  /-- TRSM_LINK_CHANGE (R377): The PCIe link state changes and LINK_CHANGE is raised. -/
  | trsmLinkChange (up : Bool) (speed width : Nat)
  /-- T1S_FRAME_RECEIVE (R388): A T1S frame completes reception and is stamped or rejected at layer 2. The frame from the destination address to its FCS, as received; the stamp in CK_AO cycles. -/
  | t1sFrameReceive (j node stamp : Nat) (fcsOk symbolsOk jabber : Bool) (frame : List Byte)
  /-- CAN_FRAME_RECEIVE (R391): A CAN frame completes its end-of-frame field and is stamped. The format is 0 base, 1 extended, 2 XL (identifier: priority ID in [18:8], VCID in [7:0]). -/
  | canFrameReceive (k fmt id sdt stamp : Nat) (fd remote : Bool) (data : List Byte)
  /-- CAN_ERROR (R391): A CAN frame meets an error and counts in ERROR_FRAMES. Whether the controller was sending, and whether, as a receiver, it saw a dominant bit first after its error flag. -/
  | canError (k : Nat) (sending dominant : Bool)
  /-- FRAME_CLASSIFY (R400): A received frame passes CAM, protection and capacity checks and is accepted, rejected or dropped. The oldest frame not yet classified; with an uncorrectable error in its buffer or in the counters. -/
  | frameClassify (ue : Bool)
  /-- CAN_TRANSMIT_DONE (R392): A CAN frame is sent successfully and its stamp recorded. -/
  | canTransmitDone (k stamp : Nat)
  /-- CAN_ARBITRATION_LOST (R392): A CAN transmission loses arbitration and is retried at the next bus idle. -/
  | canArbitrationLost (k : Nat)
  /-- CAN_BUS_OFF (R392): A controller's transmit error counter passes 255 and it enters bus-off. -/
  | canBusOff (k : Nat)
  /-- CAN_BUS_OFF_RECOVERY (R392): After 128 recessive sequences a bus-off controller recovers. -/
  | canBusOffRecovery (k : Nat)
  /-- CAN_RECOVER (R392): A write of GATE_CAN_RECOVER allows recovery of a controller with AUTO_RECOVER 0. -/
  | canRecover (i : Initiator) (mask : Nat)
  /-- T1S_TRANSMIT (R389): The device sends one frame in its transmit opportunity. -/
  | t1sTransmit (j stamp : Nat)
  /-- T1S_COLLISION (R389): A T1S collision is counted and the frame retried or discarded after 16. -/
  | t1sCollision (j : Nat)
  /-- PLCA_BEACON_LOST (R389): A follower loses PLCA beacons and falls back to CSMA/CD or stops sending. -/
  | plcaBeaconLost (j : Nat)
  /-- CAM_ENTRY_WRITE (R396): A write of GATE_CAM_W3 applies a staged CAM entry, queued while ENABLE is 1. -/
  | camEntryWrite (i : Initiator) (value : Word) (stamp : Nat)
  /-- PROTECTION_PROFILE_WRITE (R397): A write of GATE_PROT_W1 applies a staged protection profile. -/
  | protectionProfileWrite (i : Initiator) (value : Word) (stamp : Nat)
  /-- ENTRY_CONFIG_WRITE (R410): A write of SIGT_CFG_W3 applies a staged signal entry configuration. -/
  | entryConfigWrite (i : Initiator) (value : Word) (stamp : Nat)
  /-- DESCRIPTOR_WRITE (R406): A write of SIGT_DESC_W3 applies a staged signal descriptor. -/
  | descriptorWrite (i : Initiator) (value : Word) (stamp : Nat)
  /-- SIGNAL_INJECT (R409): A write of SIGT_INJ_HI injects an update of a signal entry as a stamped input. -/
  | signalInject (i : Initiator) (value : Word) (stamp : Nat)
  /-- SIGNAL_TABLE_READ (R414): A read of the committed bank is served from one snapshot or refused under R63. -/
  | signalTableRead (q : NetReq) (tickSeq : Option Nat)
  /-- SIGNAL_TABLE_SCRUB (R415): Every 256 CK_GATE cycles one signal-table row is scrubbed. -/
  | signalTableScrub
  /-- RXQ_POP (R416): A write of GATE_RXQ_POP removes the head frame of the engine's receive queue. -/
  | rxqPop (i : Initiator)
  /-- TX_POST (R416): A write of GATE_TX_POST queues the staged frame for transmission, or refuses it. -/
  | txPost (i : Initiator)
  /-- STATUS_FRAME_SEND (R420): A due status frame is sent on each eligible port, or skipped and counted. -/
  | statusFrameSend
  /-- GATE_COUNTER_SNAP (R404): GATE_CNT_SNAP.CAPTURE captures every port counter in one cycle. -/
  | gateCounterSnap (i : Initiator)
  /-- WAKE (R477): The WAKE command brings the target domains ON in the set order, optionally rebooting. -/
  | wake (c : CmdFields)
  /-- SLEEP (R478): The SLEEP command takes target domains to RETAIN or OFF, stopping the tick when parking. -/
  | sleep (c : CmdFields)
  /-- SET_DOMAIN (R472): The SET_DOMAIN command moves one domain to a named state after its checks. -/
  | setDomain (c : CmdFields)
  /-- DEBUG_LEVEL (R440): The DEBUG_LEVEL command sets the debug ceiling, lowering the level if needed. -/
  | debugLevel (c : CmdFields)
  /-- HINGE_LOAD (R455): The HINGE_LOAD command starts a fabric load from copy A, then B. -/
  | hingeLoad (c : CmdFields)
  /-- FLASH_WRITE (R463): The FLASH_WRITE command checks a container, erases and programs a flash range and verifies it. -/
  | flashWrite (c : CmdFields)
  /-- FLASH_WRITE_DONE (R463): A flash write finishes its verify, raising FLASH_DONE or FLASH_FAIL. Whether the flash holds what was programmed when it is read back. -/
  | flashWriteDone (programmed : Bool)
  /-- KEY_ROLL (R433): The KEY_ROLL command unwraps and programs a new slot key, optionally revoking and sealing. -/
  | keyRoll (c : CmdFields)
  /-- KEY_PROGRAM_DONE (R433): Fuse programming of a rolled key ends and Latch takes commands again. -/
  | keyProgramDone
  /-- TAKEOVER_OVERRIDE (R503): The TAKEOVER_OVERRIDE command applies write records to PORT_LOST_CMD or the spare controls. -/
  | takeoverOverride (c : CmdFields)
  /-- COUNTER_RESYNC (R436): The COUNTER_RESYNC command raises a slot counter to NEW_CTR when the nonce matches. -/
  | counterResync (c : CmdFields)
  /-- SAFE_WRITE (R427): The SAFE_WRITE command applies its write records as authenticated register writes. -/
  | safeWrite (c : CmdFields)
  /-- JOURNAL_SECTOR_ERASE (R434): Latch erases the inactive journal sector in the background. -/
  | journalSectorErase
  /-- LATCH_RESTORE (R435): Once boundary supplies are in range, Latch restores counters and BOOTS from the journal. -/
  | latchRestore
  /-- HATCH_READ (R445): A Hatch READ frame reads N words and returns them with status. The request frame, CRC included. -/
  | hatchRead (frame : List Byte)
  /-- HATCH_WRITE (R445): A Hatch WRITE frame writes N words and returns status. The request frame, CRC included. -/
  | hatchWrite (frame : List Byte) (stamp : Nat)
  /-- HATCH_COMMAND (R445): A Hatch COMMAND frame submits a critical command to Latch and returns its response. The request frame, CRC included. -/
  | hatchCommand (frame : List Byte) (stamp : Nat) (aesFault journalFail : Bool)
  /-- DEBUG_GO (R441): LTCH_DBG.GO checks the challenge response and grants or denies the requested level. -/
  | debugGo (i : Initiator) (req stamp : Nat)
  /-- FABRIC_PARK (R455): A SAFE write of HNGE_FAB_CTL.PARK parks a released fabric in one cycle. -/
  | fabricPark (i : Initiator) (auth : Bool)
  /-- FABRIC_RELEASE (R457): A bitstream copy passes its checks and the fabric is released on a single edge. -/
  | fabricRelease
  /-- FABRIC_LOAD_FAIL (R456): A bitstream copy fails a step; its configuration is cleared and copy B tried or the fabric FAILED. -/
  | fabricLoadFail
  /-- CONFIG_SCRUB_FRAME (R459): Every 236 CK_HINGE cycles one configuration frame's CRC is checked and repaired, reported or parked. -/
  | configScrubFrame
  /-- FLIP_FLOP_CAPTURE (R460): HNGE_CAP_CTL.CAPTURE starts a snapshot of every fabric flip-flop. -/
  | flipFlopCapture (i : Initiator)
  /-- CAPTURE_DONE (R460): Every clock net has been captured and CAPTURED is raised. -/
  | captureDone
  /-- CAPTURE_DATA_READ (R460): A read of HNGE_CAP_DATA returns one bay's flip-flops and advances the index. -/
  | captureDataRead (i : Initiator)
  /-- FLASH_WINDOW_READ (R461): A window read of Hinge flash returns a decoded word or RSP_ECC. -/
  | flashWindowRead (q : NetReq)
  /-- HSP_TXD_WRITE (R466): A write of HSP_TXD queues a byte, with CTRL per mode, or is refused when full. -/
  | hspTxdWrite (i : Initiator) (k : Nat) (value : Word)
  /-- HSP_RXD_READ (R466): A consuming read of HSP_RXD removes the receive head entry. -/
  | hspRxdRead (i : Initiator) (k : Nat) (consume : Bool)
  /-- HSP_BYTE_RECEIVE (R466): A port receives a byte, break or sync, queued or counted as overrun. Whether it follows a break, its error flags, and the rate that a sync byte implies. -/
  | hspByteReceive (k data measured : Nat) (lead framing parity : Bool)
  /-- DOMAIN_TRANSITION_DONE (R473): A domain transition ends, SHUT_BUSY clears and DOMAIN_DONE is raised. -/
  | domainTransitionDone (n stamp : Nat)
  /-- RAIL_RAMP_FAIL (R476): A rail fails to come up within its ramp time and the domain stays OFF. -/
  | railRampFail (n stamp : Nat)
  /-- SUPPLY_OUT_OF_LIMITS (R476): A supply monitor finds a supply out of its limit and raises SUPPLY_LOST. 0 is VDD_ARRAY, 1 VDD_BND, 2 VDD_AO. -/
  | supplyOutOfLimits (k : Nat)
  /-- WAKE_LINK_TIMEOUT (R477): The Lintel is not UP 100 ms into a WAKE and remaining array domains are left, with LINK_DOWN. -/
  | wakeLinkTimeout (stamp : Nat)
  /-- CLOCK_MONITOR_WINDOW (R480): Each 10 µs window the monitor measures every running clock and flags faults. The clocks measured and their rates in kHz. -/
  | clockMonitorWindow (measured : List (Nat × Nat)) (disagree refGood : Bool)
  /-- RESET_N (R534): RESET_N sampled low for 1 µs stops the tick and turns every domain but PD_AO and PD_HINGE OFF. -/
  | resetN (stamp : Nat)
  /-- PD_AO_POWER_ON (R482): VDD_AO rises through its threshold and every register takes its reset value. The slots whose key this reading of the fuses finds uncorrectable (R423). -/
  | pdAoPowerOn (badKeys : List Nat := [])
  /-- BOOT_FLOW (R485): GENG_0 runs the boot ROM steps of the manifest after PD_GATE comes up or on REBOOT. The step starts when its conditions hold; once started, it ends when its result is there. -/
  | bootFlow (step stamp : Nat)
  /-- HWDG_KICK (R488): A write of SHUT_HWDG_KICK reloads the host watchdog with the right key. -/
  | hwdgKick (i : Initiator) (value : Word)
  /-- HWDG_WARN (R488): Half the host watchdog period remains and HWDG_WARN is raised. -/
  | hwdgWarn
  /-- HWDG_EXPIRE (R488): The host watchdog reaches 0 and a DEVICE fault is reported. -/
  | hwdgExpire
  /-- FAULT_RECORD_ARRIVE (R490): A fault record reaches the aggregator, is logged and drives the class latches and FAULT_N. The k-th of the records that wait. -/
  | faultRecordArrive (k : Nat)
  /-- LOST_SET (R502): PORT_LOST_CMD with SET places a unit in the lost set at its edge. -/
  | lostSet (code stamp : Nat)
  /-- LOST_CLEAR (R502): PORT_LOST_CMD with CLEAR removes a unit from the lost set if its return condition holds. -/
  | lostClear (code stamp : Nat)
  /-- THERMAL_OVER_LIMIT (R544): A temperature sensor reads above 125 °C and one DEVICE record is logged. -/
  | thermalOverLimit
  /-- TAP_RESET (R511): The TAP enters Test-Logic-Reset and selects IDCODE. -/
  | tapReset
  /-- EXTEST (R511): The EXTEST instruction drives pins from the boundary-scan register. The 1,024 cells shifted in. -/
  | extest (cells : Nat)
  /-- SAMPLE_PRELOAD (R511): The SAMPLE/PRELOAD instruction observes pins through the boundary scan. The 1,024 cells shifted in. -/
  | samplePreload (cells : Nat)
  /-- IDCODE (R511): The IDCODE instruction returns the 32-bit device identification. -/
  | idcode
  /-- HIGHZ (R511): The HIGHZ instruction places outputs in high impedance. -/
  | highz
  /-- CLAMP (R511): The CLAMP instruction holds outputs from the boundary-scan register with bypass selected. -/
  | clamp
  /-- BYPASS (R511): The BYPASS instruction selects the 1-bit bypass register. -/
  | bypass
  /-- ACCESS (R512): An Update-DR of the ACCESS register issues a debug read or write checked against the access level. The 76 bits shifted in, and the stamp of Update-DR. -/
  | accessDr (dr stamp : Nat)
  /-- HALT (R516): DBG_RUN_CTL.HALT requests a halt of the selected engine's unit, or is refused. -/
  | halt (i : Initiator)
  /-- ENGINE_HALT (R519): An engine takes a pending halt at a permitted bundle boundary and becomes HALTED. -/
  | engineHalt (e : EngineId)
  /-- RELEASE (R522): DBG_RUN_CTL.RELEASE resumes every engine of the unit. -/
  | release (i : Initiator) (stamp : Nat)
  /-- STEP (R523): DBG_RUN_CTL.STEP executes one bundle of a halted engine and halts again. -/
  | stepBundle (i : Initiator) (maskIrq : Bool) (stamp : Nat)
  /-- BRK_ON (R524): DBG_RUN_CTL.BRK_ON makes BRK halt the selected engine. -/
  | brkOn (i : Initiator)
  /-- BRK_OFF (R524): DBG_RUN_CTL.BRK_OFF clears BRK_HALT of the selected engine. -/
  | brkOff (i : Initiator)
  /-- DEBUG_REG_ACCESS (R526): An access to DBG_REG_DATA reads or writes a register of a halted or faulted engine. -/
  | debugRegAccess (i : Initiator) (write : Bool) (value : Word)
  /-- VT_OUT_WRITE (R527): An engine writes a byte to its virtual-terminal output queue, discarding it when full. -/
  | vtOutWrite (e : EngineId) (data : Nat)
  /-- VT_OUT_READ (R527): A consuming port read of DBG_VT_OUT removes the output head byte. -/
  | vtOutRead
  /-- VT_IN_WRITE (R527): The port writes a byte to an engine's input queue and sets VT_IN. -/
  | vtInWrite (data : Nat)
  /-- VT_IN_READ (R527): An engine reads and removes the head byte of its input queue. -/
  | vtInRead (e : EngineId)
  /-- RESET_N_RELEASE (R482): RESET_N returns high and the device again accepts commands and may leave domains OFF. -/
  | resetNRelease
  /-- SUPPLY_WITHIN_LIMITS (R476): A supply that was out of its limit returns within it and its SHUT_SUPPLY bit clears. -/
  | supplyWithinLimits (k : Nat)
  /-- THERMAL_REARM (R544): Every temperature sensor reads 120 °C or less and the thermal monitor is re-armed to log again. -/
  | thermalRearm
  /-- TICK_OUT_PULSE_END (R8): WIDTH reference cycles after an edge the TICK_OUT ball returns low. -/
  | tickOutPulseEnd
  /-- HPD_IRQ (R348): An eDP panel signals an HPD IRQ on its HPD ball and HEAD_EVT.HPD_IRQ is raised. -/
  | hpdIrq (head : Nat)
  /-- CAN_BUS_INTEGRATION (R391): A CAN controller integrates on the bus after enable or a protocol exception and sets SYNC, taking part in frames again. -/
  | canBusIntegration (k : Nat)
  /-- PLCA_BEACON_REGAINED (R389): A follower that lost PLCA beacons sees them again and returns to PLCA mode, clearing its IRQ_13 condition. -/
  | plcaBeaconRegained (j : Nat)
  /-- HATCH_TRANSACTION_END (R446): HATCH_CS_N rises before the CRC or the response ends, so the frame is not performed or its response is discarded and counted. -/
  | hatchTransactionEnd (inResponse : Bool)
  /-- HSP_BYTE_SENT (R466): A hard serial port finishes sending a byte, lowering TX_LEVEL and setting NACK or ARB_LOST in I2C controller mode. -/
  | hspByteSent (k : Nat) (nack arbLost : Bool)
  /-- PANE_TICK_MISSING (R12): A pane controller's tick monitor finds no tick marker where one was due and records the missing tick as a fault. -/
  | paneTickMissing (p : Nat)
  deriving DecidableEq, Repr

end Sys2Proof
end

