-- ==== Sys2Proof/Machine/Flags.lean ====
section
/-!
DEFINITION. Integer and packed-decimal arithmetic of the engines, with the flags it sets (R208 to R216, R232): results are numbers
below 2^W, flags are pairs of a bit of FLG and its value (N 0, Z 1, C 2, V 3, D 4).
-/

namespace Sys2Proof.Machine

/-- Flag values by bit of FLG. -/
abbrev FlagVals := List (Nat × Bool)

/-- N and Z of a result (R210). -/
def flagsNZ (w r : Nat) : FlagVals := [(0, bitOf r (w - 1)), (1, r == 0)]

/-- An exact signed result lies outside the W-bit range (R210). -/
def overflows (w : Nat) (i : Int) : Bool := decide (i < -(2 ^ (w - 1) : Nat) ∨ (2 ^ (w - 1) : Nat) ≤ i)

/-- x + y + carry (R209, R210). -/
def aluAdd (w x y : Nat) (c : Bool) : Nat × FlagVals :=
  let sum := x + y + bit c
  let r := sum % 2 ^ w
  (r, flagsNZ w r ++ [(2, decide (2 ^ w ≤ sum)), (3, overflows w (signedOf w x + signedOf w y + bit c))])

/-- x - y - borrow (R209, R210). -/
def aluSub (w x y : Nat) (b : Bool) : Nat × FlagVals :=
  let r := wrapInt w ((x : Int) - y - bit b)
  (r, flagsNZ w r ++ [(2, decide (y + bit b ≤ x)), (3, overflows w (signedOf w x - signedOf w y - bit b))])

/-- The complement of a W-bit number. -/
def notW (w x : Nat) : Nat := 2 ^ w - 1 - x % 2 ^ w

/-- A logical operation's result with N and Z (R209). -/
def aluLogic (w r : Nat) : Nat × FlagVals := (r, flagsNZ w r)

/-- A shift or rotate by s: kind 0 SHL, 1 SHR, 2 SAR, 3 ROR (R211); the flags are N, Z, C. -/
def aluShift (w kind x s : Nat) (c : Bool) : Nat × FlagVals :=
  let out : Nat × Bool :=
    if s = 0 then (x, c)
    else match kind with
      | 0 => (x * 2 ^ s % 2 ^ w, decide (s ≤ w) && bitOf x (w - s))
      | 1 => (x / 2 ^ s, decide (s ≤ w) && bitOf x (s - 1))
      | 2 => (wrapInt w (signedOf w x / (2 ^ s : Nat)), if s ≤ w then bitOf x (s - 1) else bitOf x (w - 1))
      | _ =>
        let t := s % w
        let r := (x / 2 ^ t + x * 2 ^ (w - t)) % 2 ^ w
        (r, bitOf r (w - 1))
  (out.1, flagsNZ w out.1 ++ [(2, out.2)])

/-- MINMAX by FN (Table 09-3). -/
def aluMinMax (w fn x y : Nat) : Nat :=
  let less : Bool := if fn < 4 then decide (signedOf w x < signedOf w y) else decide (x < y)
  if bitOf fn 1 then (if less then y else x) else (if less then x else y)

/-- The number of zeros above the highest 1 of the k low bits. -/
def clz : Nat → Nat → Nat
  | 0, _ => 0
  | k + 1, x => if bitOf x k then 0 else clz k x + 1

/-- The number of 1 bits among the k low bits. -/
def popc : Nat → Nat → Nat
  | 0, _ => 0
  | k + 1, x => bit (bitOf x k) + popc k x

/-- The number of zeros below the lowest 1 of the k low bits. -/
def ctz : Nat → Nat → Nat
  | 0, _ => 0
  | k + 1, x => if bitOf x 0 then 0 else ctz k (x / 2) + 1

/-- BITCNT by FN (Table 09-3). -/
def aluBitCount (w fn x : Nat) : Nat :=
  match fn with
  | 0 => clz w x
  | 1 => popc w x
  | _ => ctz w x

/-- The low k bits of a number extended by sign to W bits (R208). -/
def sextTo (w k x : Nat) : Nat := wrapInt w (signedOf k x)

/-- EXT in C32: the bit field of x that y names, extended by zeros or sign (Table 09-3). -/
def extBits (signed : Bool) (x y : Nat) : Nat :=
  let p := y % 32
  let l := bitsAt y 8 5 + 1
  let f := x / 2 ^ p % 2 ^ l
  if signed then sextTo 32 l f else f

/-- INS in C32: the bit field of d that y names replaced by the low bits of x (Table 09-3). -/
def insBits (d x y : Nat) : Nat :=
  let p := y % 32
  let l := min (bitsAt y 8 5 + 1) (32 - p)
  setBits d p l x

/-- EXT in C24: a byte of x (Table 09-3). -/
def extByte (fn x : Nat) : Nat :=
  let b := bitsAt x (8 * (fn % 4)) 8
  if bitOf fn 2 then sextTo 24 8 b else b

/-- INS in C24: a byte of d replaced (Table 09-3). -/
def insByte (fn d x : Nat) : Nat := setBits d (8 * (fn % 4)) 8 x

/-- MUL by FN (Table 09-4): the low result, and the high one of a pair. -/
def aluMul (w fn x y : Nat) : Nat × Option Nat :=
  let u := x * y
  let s := wrapInt (2 * w) (signedOf w x * signedOf w y)
  match fn with
  | 0 => (u % 2 ^ w, none)
  | 1 => (u / 2 ^ w, none)
  | 2 => (s / 2 ^ w, none)
  | 3 => (u % 2 ^ w, some (u / 2 ^ w))
  | _ => (s % 2 ^ w, some (s / 2 ^ w))

/-- DIV by FN for a divisor that is not 0 (R215): quotients rounded toward 0, remainders with the sign of the dividend. -/
def aluDiv (w fn x y : Nat) : Nat :=
  match fn with
  | 0 => x / y
  | 1 => wrapInt w (Int.tdiv (signedOf w x) (signedOf w y))
  | 2 => x % y
  | _ => wrapInt w (Int.tmod (signedOf w x) (signedOf w y))

/-! ### Packed decimal (R216) -/

/-- The value of d BCD digits, none if one is above 9. -/
def bcdValue : Nat → Nat → Option Nat
  | 0, _ => some 0
  | d + 1, x => if 9 < x % 16 then none else (bcdValue d (x / 16)).map (fun v => x % 16 + 10 * v)

/-- d BCD digits of a number. -/
def bcdDigits : Nat → Nat → Nat
  | 0, _ => 0
  | d + 1, n => n % 10 + 16 * bcdDigits d (n / 10)

/-- DADD or DSUB with its carry-in or borrow-in (R216). -/
def aluDecimal (w : Nat) (sub : Bool) (x y : Nat) (useC c : Bool) : Nat × FlagVals :=
  let d := w / 4
  match bcdValue d x, bcdValue d y with
  | some a, some b =>
    let t : Int := if sub then (a : Int) - b - bit (useC && !c) else (a : Int) + b + bit (useC && c)
    let r := (t % (10 ^ d : Nat)).toNat
    let cout := if sub then decide (0 ≤ t) else decide ((10 ^ d : Nat) ≤ t)
    (bcdDigits d r, [(2, cout), (1, r == 0), (4, false)])
  | _, _ => (x, [(4, true)])

/-! ### Conditions (R184) -/

/-- The test of Table 08-5 on N, Z, C, V; code 0b1111 tests the bit `last` in the sense of GX. -/
def condHolds (cond : Nat) (gx : Bool) (flg : Nat) (last : Bool) : Bool :=
  let n := bitOf flg 0
  let z := bitOf flg 1
  let c := bitOf flg 2
  let v := bitOf flg 3
  match cond with
  | 0 => true
  | 1 => z
  | 2 => !z
  | 3 => c
  | 4 => !c
  | 5 => n
  | 6 => !n
  | 7 => v
  | 8 => !v
  | 9 => c && !z
  | 10 => !c || z
  | 11 => n == v
  | 12 => n != v
  | 13 => !z && n == v
  | 14 => z || n != v
  | _ => last == gx

end Sys2Proof.Machine
end

