-- ==== Sys2Proof/Machine/Crc.lean ====
section
/-!
DEFINITION. Cyclic redundancy checks, most significant bit first, with initial value all ones and no final change unless
a caller makes one (R13, R297, R356, R453).
-/

namespace Sys2Proof.Machine

/-- One bit into a CRC register of the given width and polynomial, most significant bit first. -/
def crcBit (width poly reg : Nat) (b : Bool) : Nat :=
  let top := bitOf reg (width - 1) != b
  let sh := reg * 2 % 2 ^ width
  if top then sh ^^^ poly else sh

/-- The low n bits of v into the CRC register, highest bit first. -/
def crcBits (width poly : Nat) : Nat → Nat → Nat → Nat
  | 0, _, reg => reg
  | n + 1, v, reg => crcBits width poly n v (crcBit width poly reg (bitOf v n))

/-- Bytes into the CRC register, in order. -/
def crcBytes (width poly reg : Nat) (bs : List Byte) : Nat :=
  bs.foldl (fun r b => crcBits width poly 8 b.toNat r) reg

/-- The CRC-16 of R297: polynomial 0x1021, initial value all ones. -/
def crc16 (bs : List Byte) : Nat := crcBytes 16 0x1021 0xFFFF bs

/-- The CRC-32 of R356 and R453: polynomial 0x04C1_1DB7, initial value all ones, no reflection, no final inversion. -/
def crc32 (bs : List Byte) : Nat := crcBytes 32 0x04C11DB7 0xFFFFFFFF bs

/-- The CRC-32 of a Lintel frame (R13): polynomial 0x1EDC_6F41, initial value all ones. -/
def crcLintel (bs : List Byte) : Nat := crcBytes 32 0x1EDC6F41 0xFFFFFFFF bs

end Sys2Proof.Machine
end

