-- ==== Sys2Proof/Config.lean ====
section
/-!
DEFINITION. What one device fixes and the values the spec leaves free. Each constant is opaque: it has no body, so
nothing can be proved of its value. A claim about one holds whatever it is.
-/

namespace Sys2Proof

/-- DEVICE_ID, unique per device (R423). -/
opaque Config.deviceId : BitVec 64

/-- The device-unique key (R423, R424). -/
opaque Config.duk : BitVec 128

/-- The debug key (R423, R424). -/
opaque Config.debugKey : BitVec 128

/-- The vendor image key (R423, R424). -/
opaque Config.vendorKey : BitVec 128

/-- A value the spec leaves open: the n-th free value drawn (State.freeCount). -/
opaque Config.freeValue : Nat → Nat

/-- Word 0 of a training record made for a data rate and a rank count, both as DDRC_CFG codes them (R26). -/
opaque Config.trainWord : Nat → Nat → BitVec 32

/-- What a byte of DDR reads as that nothing has written since its contents were lost: by channel and loss, and address. -/
opaque Config.freeByte : Nat → Nat → Byte

end Sys2Proof
end

