-- ==== Sys2Proof/Machine/Regs.lean ====
section
/-!
DEFINITION. The registers of every page (Table 02-2) and their fields, as the register tables of spec/ list them: where
each lies, what a write of each access type reaches (R36), and its reset value. A field of the header that every page
has is named R.HDR_…; a register that all three engine types share is named R.ENG_… and used with Field.on.
-/

namespace Sys2Proof.Machine

/-- A field of a register: page type, page offset, stride of a register array, lowest bit, width. -/
structure Field where
  ty : Nat
  off : Nat
  stride : Nat
  lo : Nat
  w : Nat
  deriving DecidableEq, Repr

/-- The field in element k of a register array. -/
abbrev Field.nth (f : Field) (k : Nat) : Field := { f with off := f.off + f.stride * k }

/-- The field in the page of another block type (the page header, the engine registers). -/
abbrev Field.on (f : Field) (ty : Nat) : Field := { f with ty := ty }

/-! The page header (Table 02-5) -/


abbrev R.HDR_ID : Field := ⟨0, 0x000, 4, 0, 32⟩
abbrev R.HDR_CAP : Field := ⟨0, 0x004, 4, 0, 32⟩
abbrev R.HDR_CTL : Field := ⟨0, 0x008, 4, 0, 32⟩
abbrev R.HDR_CTL_ENABLE : Field := ⟨0, 0x008, 4, 0, 1⟩
abbrev R.HDR_CTL_FENCE : Field := ⟨0, 0x008, 4, 1, 1⟩
abbrev R.HDR_CTL_SOFT_RESET : Field := ⟨0, 0x008, 4, 2, 1⟩
abbrev R.HDR_STAT : Field := ⟨0, 0x00C, 4, 0, 32⟩
abbrev R.HDR_STAT_FAULT : Field := ⟨0, 0x00C, 4, 3, 1⟩
abbrev R.HDR_STAT_DRAINED : Field := ⟨0, 0x00C, 4, 2, 1⟩
abbrev R.HDR_EVT : Field := ⟨0, 0x010, 4, 0, 32⟩
abbrev R.HDR_EVT_EN : Field := ⟨0, 0x014, 4, 0, 32⟩
abbrev R.HDR_EVT_FORCE : Field := ⟨0, 0x018, 4, 0, 32⟩
abbrev R.HDR_ERR_CODE : Field := ⟨0, 0x01C, 4, 0, 32⟩
abbrev R.HDR_ERR_CODE_CODE : Field := ⟨0, 0x01C, 4, 0, 16⟩
abbrev R.HDR_ERR_CODE_OFFSET : Field := ⟨0, 0x01C, 4, 16, 12⟩
abbrev R.HDR_ERR_COUNT : Field := ⟨0, 0x020, 4, 0, 32⟩
abbrev R.HDR_LOCK : Field := ⟨0, 0x024, 4, 0, 32⟩
abbrev R.HDR_LOCK_ARMED : Field := ⟨0, 0x024, 4, 8, 1⟩
abbrev R.HDR_LOCK_HARD_LOCK : Field := ⟨0, 0x024, 4, 0, 1⟩

/-! Registers of 01_architecture.md -/

abbrev R.LNTL_EVT : Field := ⟨10, 0x010, 4, 0, 32⟩
abbrev R.LNTL_EVT_BRIDGE_FULL : Field := ⟨10, 0x010, 4, 5, 1⟩
abbrev R.LNTL_EVT_TICK_LOST : Field := ⟨10, 0x010, 4, 4, 1⟩
abbrev R.LNTL_EVT_RETRY_LIMIT : Field := ⟨10, 0x010, 4, 3, 1⟩
abbrev R.LNTL_EVT_CRC_ERR : Field := ⟨10, 0x010, 4, 2, 1⟩
abbrev R.LNTL_EVT_LINK_UP : Field := ⟨10, 0x010, 4, 1, 1⟩
abbrev R.LNTL_EVT_LINK_DOWN : Field := ⟨10, 0x010, 4, 0, 1⟩
abbrev R.LNTL_LINK_CTL : Field := ⟨10, 0x040, 4, 0, 32⟩
abbrev R.LNTL_LINK_CTL_FULL_TRAIN : Field := ⟨10, 0x040, 4, 1, 1⟩
abbrev R.LNTL_LINK_CTL_RETRAIN : Field := ⟨10, 0x040, 4, 0, 1⟩
abbrev R.LNTL_LINK_STAT : Field := ⟨10, 0x044, 4, 0, 32⟩
abbrev R.LNTL_LINK_STAT_LAST_SEQ : Field := ⟨10, 0x044, 4, 8, 8⟩
abbrev R.LNTL_LINK_STAT_TICK_SEQ : Field := ⟨10, 0x044, 4, 4, 4⟩
abbrev R.LNTL_LINK_STAT_RX_DOWN : Field := ⟨10, 0x044, 4, 3, 1⟩
abbrev R.LNTL_LINK_STAT_TX_DOWN : Field := ⟨10, 0x044, 4, 2, 1⟩
abbrev R.LNTL_LINK_STAT_STATE : Field := ⟨10, 0x044, 4, 0, 2⟩
abbrev R.LNTL_ERR_COUNT2 : Field := ⟨10, 0x048, 4, 0, 32⟩
abbrev R.LNTL_ERR_COUNT2_RETRIES : Field := ⟨10, 0x048, 4, 16, 16⟩
abbrev R.LNTL_ERR_COUNT2_CRC_ERRS : Field := ⟨10, 0x048, 4, 0, 16⟩
abbrev R.LNTL_LANE_ERR : Field := ⟨10, 0x04C, 4, 0, 32⟩
abbrev R.LNTL_LANE_ERR_LANE : Field := ⟨10, 0x04C, 4, 0, 32⟩
abbrev R.LNTL_BRIDGE_STAT : Field := ⟨10, 0x050, 4, 0, 32⟩
abbrev R.LNTL_BRIDGE_STAT_BR1_OUT : Field := ⟨10, 0x050, 4, 16, 9⟩
abbrev R.LNTL_BRIDGE_STAT_BR0_OUT : Field := ⟨10, 0x050, 4, 0, 9⟩
abbrev R.LNTL_PIX_FRAMES : Field := ⟨10, 0x054, 4, 0, 32⟩
abbrev R.LNTL_PIX_FRAMES_COUNT : Field := ⟨10, 0x054, 4, 0, 32⟩
abbrev R.DDRC_CAP : Field := ⟨12, 0x004, 4, 0, 32⟩
abbrev R.DDRC_CAP_MAX_MTS : Field := ⟨12, 0x004, 4, 16, 16⟩
abbrev R.DDRC_CAP_CACHE_KIB : Field := ⟨12, 0x004, 4, 8, 8⟩
abbrev R.DDRC_EVT : Field := ⟨12, 0x010, 4, 0, 32⟩
abbrev R.DDRC_EVT_CFG_MISMATCH : Field := ⟨12, 0x010, 4, 7, 1⟩
abbrev R.DDRC_EVT_SCRUB_PASS : Field := ⟨12, 0x010, 4, 6, 1⟩
abbrev R.DDRC_EVT_TRAIN_FAIL : Field := ⟨12, 0x010, 4, 5, 1⟩
abbrev R.DDRC_EVT_LOST : Field := ⟨12, 0x010, 4, 4, 1⟩
abbrev R.DDRC_EVT_UE : Field := ⟨12, 0x010, 4, 3, 1⟩
abbrev R.DDRC_EVT_CE : Field := ⟨12, 0x010, 4, 2, 1⟩
abbrev R.DDRC_EVT_READY : Field := ⟨12, 0x010, 4, 1, 1⟩
abbrev R.DDRC_EVT_TRAINED : Field := ⟨12, 0x010, 4, 0, 1⟩
abbrev R.DDRC_CFG : Field := ⟨12, 0x040, 4, 0, 32⟩
abbrev R.DDRC_CFG_LOSS_LIMIT : Field := ⟨12, 0x040, 4, 24, 8⟩
abbrev R.DDRC_CFG_RATE : Field := ⟨12, 0x040, 4, 8, 2⟩
abbrev R.DDRC_CFG_RANKS2 : Field := ⟨12, 0x040, 4, 4, 1⟩
abbrev R.DDRC_CFG_DENSITY : Field := ⟨12, 0x040, 4, 0, 3⟩
abbrev R.DDRC_STAT : Field := ⟨12, 0x044, 4, 0, 32⟩
abbrev R.DDRC_STAT_MTS : Field := ⟨12, 0x044, 4, 16, 16⟩
abbrev R.DDRC_STAT_SREF : Field := ⟨12, 0x044, 4, 3, 1⟩
abbrev R.DDRC_STAT_STATE : Field := ⟨12, 0x044, 4, 0, 3⟩
abbrev R.DDRC_USABLE : Field := ⟨12, 0x048, 4, 0, 32⟩
abbrev R.DDRC_USABLE_MIB : Field := ⟨12, 0x048, 4, 0, 32⟩
abbrev R.DDRC_TRAIN_CTL : Field := ⟨12, 0x04C, 4, 0, 32⟩
abbrev R.DDRC_TRAIN_CTL_MODE : Field := ⟨12, 0x04C, 4, 1, 1⟩
abbrev R.DDRC_TRAIN_CTL_START : Field := ⟨12, 0x04C, 4, 0, 1⟩
abbrev R.DDRC_TRAIN_STAT : Field := ⟨12, 0x050, 4, 0, 32⟩
abbrev R.DDRC_TRAIN_STAT_MS : Field := ⟨12, 0x050, 4, 16, 16⟩
abbrev R.DDRC_TRAIN_STAT_FAIL_STEP : Field := ⟨12, 0x050, 4, 0, 4⟩
abbrev R.DDRC_TRAIN_IDX : Field := ⟨12, 0x054, 4, 0, 32⟩
abbrev R.DDRC_TRAIN_IDX_WORD : Field := ⟨12, 0x054, 4, 0, 9⟩
abbrev R.DDRC_TRAIN_DATA : Field := ⟨12, 0x058, 4, 0, 32⟩
abbrev R.DDRC_TRAIN_DATA_VALUE : Field := ⟨12, 0x058, 4, 0, 32⟩
abbrev R.DDRC_CE_COUNT : Field := ⟨12, 0x05C, 4, 0, 32⟩
abbrev R.DDRC_CE_COUNT_COUNT : Field := ⟨12, 0x05C, 4, 0, 32⟩
abbrev R.DDRC_UE_COUNT : Field := ⟨12, 0x060, 4, 0, 32⟩
abbrev R.DDRC_UE_COUNT_COUNT : Field := ⟨12, 0x060, 4, 0, 32⟩
abbrev R.DDRC_UE_TICK : Field := ⟨12, 0x064, 4, 0, 32⟩
abbrev R.DDRC_UE_TICK_COUNT : Field := ⟨12, 0x064, 4, 0, 32⟩
abbrev R.DDRC_ERR_LOC_LO : Field := ⟨12, 0x068, 4, 0, 32⟩
abbrev R.DDRC_ERR_LOC_LO_ADDR : Field := ⟨12, 0x068, 4, 0, 32⟩
abbrev R.DDRC_ERR_LOC_HI : Field := ⟨12, 0x06C, 4, 0, 32⟩
abbrev R.DDRC_ERR_LOC_HI_UE : Field := ⟨12, 0x06C, 4, 31, 1⟩
abbrev R.DDRC_ERR_LOC_HI_SYMBOL : Field := ⟨12, 0x06C, 4, 24, 5⟩
abbrev R.DDRC_ERR_LOC_HI_VALUE : Field := ⟨12, 0x06C, 4, 20, 4⟩
abbrev R.DDRC_ERR_LOC_HI_ADDR_HI : Field := ⟨12, 0x06C, 4, 0, 4⟩
abbrev R.DDRC_SCRUB : Field := ⟨12, 0x070, 4, 0, 32⟩
abbrev R.DDRC_SCRUB_INTERVAL : Field := ⟨12, 0x070, 4, 0, 16⟩
abbrev R.DDRC_TEMP : Field := ⟨12, 0x074, 4, 0, 32⟩
abbrev R.DDRC_TEMP_REFRESH : Field := ⟨12, 0x074, 4, 0, 3⟩

/-! Registers of 03_tick_and_snapshot.md -/

abbrev R.TICK_CAP : Field := ⟨23, 0x004, 4, 0, 32⟩
abbrev R.TICK_CAP_HEADS : Field := ⟨23, 0x004, 4, 8, 4⟩
abbrev R.TICK_CAP_PROV_DEPTH : Field := ⟨23, 0x004, 4, 0, 8⟩
abbrev R.TICK_EVT : Field := ⟨23, 0x010, 4, 0, 32⟩
abbrev R.TICK_EVT_HOLD : Field := ⟨23, 0x010, 4, 6, 1⟩
abbrev R.TICK_EVT_LATE_READ : Field := ⟨23, 0x010, 4, 5, 1⟩
abbrev R.TICK_EVT_REF_LOST : Field := ⟨23, 0x010, 4, 4, 1⟩
abbrev R.TICK_EVT_SLEW_CLAMP : Field := ⟨23, 0x010, 4, 3, 1⟩
abbrev R.TICK_EVT_PERIOD_HELD : Field := ⟨23, 0x010, 4, 2, 1⟩
abbrev R.TICK_EVT_CUTOFF : Field := ⟨23, 0x010, 4, 1, 1⟩
abbrev R.TICK_EVT_EDGE : Field := ⟨23, 0x010, 4, 0, 1⟩
abbrev R.TICK_RUN : Field := ⟨23, 0x040, 4, 0, 32⟩
abbrev R.TICK_RUN_SRC : Field := ⟨23, 0x040, 4, 8, 1⟩
abbrev R.TICK_RUN_RUN : Field := ⟨23, 0x040, 4, 0, 1⟩
abbrev R.TICK_PERIOD : Field := ⟨23, 0x044, 4, 0, 32⟩
abbrev R.TICK_PERIOD_INT : Field := ⟨23, 0x044, 4, 12, 20⟩
abbrev R.TICK_PERIOD_FRAC : Field := ⟨23, 0x044, 4, 0, 12⟩
abbrev R.TICK_SLEW : Field := ⟨23, 0x048, 4, 0, 32⟩
abbrev R.TICK_SLEW_SLEW : Field := ⟨23, 0x048, 4, 0, 24⟩
abbrev R.TICK_CUTOFF : Field := ⟨23, 0x04C, 4, 0, 32⟩
abbrev R.TICK_CUTOFF_CYCLES : Field := ⟨23, 0x04C, 4, 0, 16⟩
abbrev R.TICK_SNAP : Field := ⟨23, 0x050, 4, 0, 32⟩
abbrev R.TICK_SNAP_SNAP : Field := ⟨23, 0x050, 4, 0, 32⟩
abbrev R.TICK_PHASE : Field := ⟨23, 0x054, 4, 0, 32⟩
abbrev R.TICK_PHASE_PAST_CUTOFF : Field := ⟨23, 0x054, 4, 31, 1⟩
abbrev R.TICK_PHASE_CYCLES : Field := ⟨23, 0x054, 4, 0, 20⟩
abbrev R.TICK_EDGES_LO : Field := ⟨23, 0x058, 4, 0, 32⟩
abbrev R.TICK_EDGES_LO_COUNT : Field := ⟨23, 0x058, 4, 0, 32⟩
abbrev R.TICK_EDGES_HI : Field := ⟨23, 0x05C, 4, 0, 32⟩
abbrev R.TICK_EDGES_HI_COUNT : Field := ⟨23, 0x05C, 4, 0, 16⟩
abbrev R.TICK_ADM_PERIOD : Field := ⟨23, 0x060, 4, 0, 32⟩
abbrev R.TICK_ADM_PERIOD_INT : Field := ⟨23, 0x060, 4, 12, 20⟩
abbrev R.TICK_ADM_PERIOD_FRAC : Field := ⟨23, 0x060, 4, 0, 12⟩
abbrev R.TICK_ARRAY_BUDGET : Field := ⟨23, 0x064, 4, 0, 32⟩
abbrev R.TICK_ARRAY_BUDGET_CYCLES : Field := ⟨23, 0x064, 4, 0, 25⟩
abbrev R.TICK_OUT_CFG : Field := ⟨23, 0x068, 4, 0, 32⟩
abbrev R.TICK_OUT_CFG_WIDTH : Field := ⟨23, 0x068, 4, 0, 16⟩
abbrev R.TICK_DEFER : Field := ⟨23, 0x06C, 4, 0, 32⟩
abbrev R.TICK_DEFER_FRAMES : Field := ⟨23, 0x06C, 4, 16, 16⟩
abbrev R.TICK_DEFER_DOORBELLS : Field := ⟨23, 0x06C, 4, 8, 8⟩
abbrev R.TICK_DEFER_TB_WRITES : Field := ⟨23, 0x06C, 4, 0, 8⟩
abbrev R.TICK_LATE_READ : Field := ⟨23, 0x070, 4, 0, 32⟩
abbrev R.TICK_LATE_READ_COUNT : Field := ⟨23, 0x070, 4, 0, 32⟩
abbrev R.TICK_PROV_WP : Field := ⟨23, 0x074, 4, 0, 32⟩
abbrev R.TICK_PROV_WP_HEAD_3 : Field := ⟨23, 0x074, 4, 12, 3⟩
abbrev R.TICK_PROV_WP_HEAD_2 : Field := ⟨23, 0x074, 4, 8, 3⟩
abbrev R.TICK_PROV_WP_HEAD_1 : Field := ⟨23, 0x074, 4, 4, 3⟩
abbrev R.TICK_PROV_WP_HEAD_0 : Field := ⟨23, 0x074, 4, 0, 3⟩
abbrev R.TICK_PROV : Field := ⟨23, 0x400, 4, 0, 32⟩
abbrev R.TICK_PROV_WORD : Field := ⟨23, 0x400, 4, 0, 32⟩

/-! Registers of 04_itineraries_and_admission.md -/

abbrev R.PORT_CAP : Field := ⟨11, 0x004, 4, 0, 32⟩
abbrev R.PORT_CAP_VARIANTS : Field := ⟨11, 0x004, 4, 16, 8⟩
abbrev R.PORT_CAP_IMAGE_KIB : Field := ⟨11, 0x004, 4, 0, 16⟩
abbrev R.PORT_EVT : Field := ⟨11, 0x010, 4, 0, 32⟩
abbrev R.PORT_EVT_WAIT : Field := ⟨11, 0x010, 4, 5, 1⟩
abbrev R.PORT_EVT_CURRENT : Field := ⟨11, 0x010, 4, 4, 1⟩
abbrev R.PORT_EVT_SUPERSEDED : Field := ⟨11, 0x010, 4, 3, 1⟩
abbrev R.PORT_EVT_REFUSED : Field := ⟨11, 0x010, 4, 2, 1⟩
abbrev R.PORT_EVT_ACCEPTED : Field := ⟨11, 0x010, 4, 1, 1⟩
abbrev R.PORT_EVT_DONE : Field := ⟨11, 0x010, 4, 0, 1⟩
abbrev R.PORT_STATE : Field := ⟨11, 0x040, 4, 0, 32⟩
abbrev R.PORT_STATE_STAGED : Field := ⟨11, 0x040, 4, 3, 1⟩
abbrev R.PORT_STATE_WAITING : Field := ⟨11, 0x040, 4, 2, 1⟩
abbrev R.PORT_STATE_CHECK : Field := ⟨11, 0x040, 4, 0, 2⟩
abbrev R.PORT_RESULT : Field := ⟨11, 0x044, 4, 0, 32⟩
abbrev R.PORT_RESULT_ITEM_KIND : Field := ⟨11, 0x044, 4, 16, 4⟩
abbrev R.PORT_RESULT_VARIANT : Field := ⟨11, 0x044, 4, 8, 8⟩
abbrev R.PORT_RESULT_REASON : Field := ⟨11, 0x044, 4, 0, 8⟩
abbrev R.PORT_RESULT_ITEM : Field := ⟨11, 0x048, 4, 0, 32⟩
abbrev R.PORT_RESULT_ITEM_INDEX : Field := ⟨11, 0x048, 4, 0, 32⟩
abbrev R.PORT_RESULT_AMOUNT : Field := ⟨11, 0x04C, 4, 0, 32⟩
abbrev R.PORT_RESULT_AMOUNT_AMOUNT : Field := ⟨11, 0x04C, 4, 0, 32⟩
abbrev R.PORT_RESULT_ID : Field := ⟨11, 0x050, 4, 0, 32⟩
abbrev R.PORT_RESULT_ID_ITIN_ID : Field := ⟨11, 0x050, 4, 0, 32⟩
abbrev R.PORT_CUR_ID : Field := ⟨11, 0x054, 4, 0, 32⟩
abbrev R.PORT_CUR_ID_ITIN_ID : Field := ⟨11, 0x054, 4, 0, 32⟩
abbrev R.PORT_STAGED_ID : Field := ⟨11, 0x058, 4, 0, 32⟩
abbrev R.PORT_STAGED_ID_ITIN_ID : Field := ⟨11, 0x058, 4, 0, 32⟩
abbrev R.PORT_VARIANT : Field := ⟨11, 0x05C, 4, 0, 32⟩
abbrev R.PORT_VARIANT_VARIANT : Field := ⟨11, 0x05C, 4, 0, 8⟩
abbrev R.PORT_POWER_CAP : Field := ⟨11, 0x060, 4, 0, 32⟩
abbrev R.PORT_POWER_CAP_CAP_MW : Field := ⟨11, 0x060, 4, 0, 16⟩
abbrev R.PORT_POWER_EST : Field := ⟨11, 0x064, 4, 0, 32⟩
abbrev R.PORT_POWER_EST_DECLARED_MW : Field := ⟨11, 0x064, 4, 16, 16⟩
abbrev R.PORT_POWER_EST_ARRAY_EST_MW : Field := ⟨11, 0x064, 4, 0, 16⟩
abbrev R.PORT_ADM_TIME : Field := ⟨11, 0x068, 4, 0, 32⟩
abbrev R.PORT_ADM_TIME_MICROSECONDS : Field := ⟨11, 0x068, 4, 0, 16⟩
abbrev R.PORT_COUNTS : Field := ⟨11, 0x06C, 4, 0, 32⟩
abbrev R.PORT_COUNTS_REFUSED : Field := ⟨11, 0x06C, 4, 16, 16⟩
abbrev R.PORT_COUNTS_ACCEPTED : Field := ⟨11, 0x06C, 4, 0, 16⟩

/-! Registers of 05_processing_elements.md -/

abbrev R.PANE_CAP : Field := ⟨1, 0x004, 4, 0, 32⟩
abbrev R.PANE_CAP_SPARE_COLS : Field := ⟨1, 0x004, 4, 16, 8⟩
abbrev R.PANE_CAP_SEGMENTS : Field := ⟨1, 0x004, 4, 12, 4⟩
abbrev R.PANE_CAP_MEM_LOG2 : Field := ⟨1, 0x004, 4, 8, 4⟩
abbrev R.PANE_EVT : Field := ⟨1, 0x010, 4, 0, 32⟩
abbrev R.PANE_EVT_INIT_DONE : Field := ⟨1, 0x010, 4, 9, 1⟩
abbrev R.PANE_EVT_BIST_DONE : Field := ⟨1, 0x010, 4, 8, 1⟩
abbrev R.PANE_EVT_SCRUB_PASS : Field := ⟨1, 0x010, 4, 7, 1⟩
abbrev R.PANE_EVT_PEOP_RESERVED : Field := ⟨1, 0x010, 4, 6, 1⟩
abbrev R.PANE_EVT_TWIN_MISMATCH : Field := ⟨1, 0x010, 4, 5, 1⟩
abbrev R.PANE_EVT_NO_SPARE : Field := ⟨1, 0x010, 4, 4, 1⟩
abbrev R.PANE_EVT_STEERED : Field := ⟨1, 0x010, 4, 3, 1⟩
abbrev R.PANE_EVT_COL_FAULT : Field := ⟨1, 0x010, 4, 2, 1⟩
abbrev R.PANE_EVT_UE : Field := ⟨1, 0x010, 4, 1, 1⟩
abbrev R.PANE_EVT_CE : Field := ⟨1, 0x010, 4, 0, 1⟩
abbrev R.PANE_MODE : Field := ⟨1, 0x040, 4, 0, 32⟩
abbrev R.PANE_MODE_IN_GANG : Field := ⟨1, 0x040, 4, 8, 1⟩
abbrev R.PANE_MODE_GANG_SIZE : Field := ⟨1, 0x040, 4, 4, 3⟩
abbrev R.PANE_MODE_GANG_BASE : Field := ⟨1, 0x040, 4, 0, 4⟩
abbrev R.PANE_EDGE_CFG : Field := ⟨1, 0x044, 4, 0, 32⟩
abbrev R.PANE_EDGE_CFG_W_MODE : Field := ⟨1, 0x044, 4, 3, 1⟩
abbrev R.PANE_EDGE_CFG_S_MODE : Field := ⟨1, 0x044, 4, 2, 1⟩
abbrev R.PANE_EDGE_CFG_E_MODE : Field := ⟨1, 0x044, 4, 1, 1⟩
abbrev R.PANE_EDGE_CFG_N_MODE : Field := ⟨1, 0x044, 4, 0, 1⟩
abbrev R.PANE_STEER : Field := ⟨1, 0x048, 4, 0, 32⟩
abbrev R.PANE_STEER_B_EN : Field := ⟨1, 0x048, 4, 15, 1⟩
abbrev R.PANE_STEER_B_COL : Field := ⟨1, 0x048, 4, 8, 6⟩
abbrev R.PANE_STEER_A_EN : Field := ⟨1, 0x048, 4, 7, 1⟩
abbrev R.PANE_STEER_A_COL : Field := ⟨1, 0x048, 4, 0, 6⟩
abbrev R.PANE_STEER_CTL : Field := ⟨1, 0x058, 4, 0, 32⟩
abbrev R.PANE_STEER_CTL_CE_THRESH : Field := ⟨1, 0x058, 4, 8, 8⟩
abbrev R.PANE_STEER_CTL_AUTO : Field := ⟨1, 0x058, 4, 0, 1⟩
abbrev R.PANE_CE_COUNT : Field := ⟨1, 0x05C, 4, 0, 32⟩
abbrev R.PANE_CE_COUNT_COUNT : Field := ⟨1, 0x05C, 4, 0, 32⟩
abbrev R.PANE_UE_COUNT : Field := ⟨1, 0x060, 4, 0, 32⟩
abbrev R.PANE_UE_COUNT_COUNT : Field := ⟨1, 0x060, 4, 0, 32⟩
abbrev R.PANE_ERR_LOC : Field := ⟨1, 0x064, 4, 0, 32⟩
abbrev R.PANE_ERR_LOC_UE : Field := ⟨1, 0x064, 4, 31, 1⟩
abbrev R.PANE_ERR_LOC_ADDR : Field := ⟨1, 0x064, 4, 20, 11⟩
abbrev R.PANE_ERR_LOC_ROW : Field := ⟨1, 0x064, 4, 12, 8⟩
abbrev R.PANE_ERR_LOC_SEG : Field := ⟨1, 0x064, 4, 10, 2⟩
abbrev R.PANE_ERR_LOC_SYMBOL : Field := ⟨1, 0x064, 4, 5, 5⟩
abbrev R.PANE_ERR_LOC_VALUE : Field := ⟨1, 0x064, 4, 0, 4⟩
abbrev R.PANE_COL_FAULT : Field := ⟨1, 0x068, 4, 0, 32⟩
abbrev R.PANE_COL_FAULT_NO_SPARE : Field := ⟨1, 0x068, 4, 13, 1⟩
abbrev R.PANE_COL_FAULT_STEERED : Field := ⟨1, 0x068, 4, 12, 1⟩
abbrev R.PANE_COL_FAULT_PHYS_COL : Field := ⟨1, 0x068, 4, 0, 9⟩
abbrev R.PANE_SCRUB : Field := ⟨1, 0x06C, 4, 0, 32⟩
abbrev R.PANE_SCRUB_NEXT_ADDR : Field := ⟨1, 0x06C, 4, 16, 11⟩
abbrev R.PANE_SCRUB_ROWS_PER_TICK : Field := ⟨1, 0x06C, 4, 0, 8⟩
abbrev R.PANE_BIST_CTL : Field := ⟨1, 0x070, 4, 0, 32⟩
abbrev R.PANE_BIST_CTL_START : Field := ⟨1, 0x070, 4, 0, 1⟩
abbrev R.PANE_BIST_STAT : Field := ⟨1, 0x074, 4, 0, 32⟩
abbrev R.PANE_BIST_STAT_FIRST_COL : Field := ⟨1, 0x074, 4, 16, 9⟩
abbrev R.PANE_BIST_STAT_FAIL_COUNT : Field := ⟨1, 0x074, 4, 8, 8⟩
abbrev R.PANE_BIST_STAT_FAIL : Field := ⟨1, 0x074, 4, 2, 1⟩
abbrev R.PANE_BIST_STAT_PASS : Field := ⟨1, 0x074, 4, 1, 1⟩
abbrev R.PANE_BIST_STAT_BUSY : Field := ⟨1, 0x074, 4, 0, 1⟩
abbrev R.PANE_TWIN_STAT : Field := ⟨1, 0x078, 4, 0, 32⟩
abbrev R.PANE_TWIN_STAT_COMPARES : Field := ⟨1, 0x078, 4, 16, 16⟩
abbrev R.PANE_TWIN_STAT_MISMATCHES : Field := ⟨1, 0x078, 4, 0, 16⟩
abbrev R.PANE_ACTIVE : Field := ⟨1, 0x07C, 4, 0, 32⟩
abbrev R.PANE_ACTIVE_CYCLES : Field := ⟨1, 0x07C, 4, 0, 25⟩
abbrev R.PANE_EDGE : Field := ⟨1, 0x100, 4, 0, 32⟩
abbrev R.PANE_EDGE_BITS : Field := ⟨1, 0x100, 4, 0, 32⟩

/-! Registers of 06_hampers_and_reductions.md -/

abbrev R.PCTL_HAMP_SNAP : Field := ⟨2, 0x200, 4, 0, 32⟩
abbrev R.PCTL_HAMP_SNAP_CAPTURE : Field := ⟨2, 0x200, 4, 0, 1⟩
abbrev R.PCTL_HIN_RESIDENT : Field := ⟨2, 0x21C, 4, 0, 32⟩
abbrev R.PCTL_HIN_RESIDENT_SLICES : Field := ⟨2, 0x21C, 4, 0, 16⟩
abbrev R.PCTL_HOUT_RESIDENT : Field := ⟨2, 0x238, 4, 0, 32⟩
abbrev R.PCTL_HOUT_RESIDENT_SLICES : Field := ⟨2, 0x238, 4, 0, 16⟩
abbrev R.PCTL_HAMP_WAIT_IN : Field := ⟨2, 0x23C, 4, 0, 32⟩
abbrev R.PCTL_HAMP_WAIT_IN_CYCLES : Field := ⟨2, 0x23C, 4, 0, 25⟩
abbrev R.PCTL_HAMP_WAIT_OUT : Field := ⟨2, 0x240, 4, 0, 32⟩
abbrev R.PCTL_HAMP_WAIT_OUT_CYCLES : Field := ⟨2, 0x240, 4, 0, 25⟩
abbrev R.PCTL_HAMP_FAULT : Field := ⟨2, 0x244, 4, 0, 32⟩
abbrev R.PCTL_HAMP_FAULT_OCC_MISMATCH : Field := ⟨2, 0x244, 4, 31, 1⟩
abbrev R.PCTL_HAMP_FAULT_PARITY : Field := ⟨2, 0x244, 4, 30, 1⟩
abbrev R.PCTL_HAMP_FAULT_OUTBOUND : Field := ⟨2, 0x244, 4, 29, 1⟩
abbrev R.PCTL_HAMP_FAULT_ROW : Field := ⟨2, 0x244, 4, 11, 8⟩
abbrev R.PCTL_HAMP_FAULT_GROUP : Field := ⟨2, 0x244, 4, 8, 3⟩
abbrev R.PCTL_RED_LAST : Field := ⟨2, 0x248, 4, 0, 32⟩
abbrev R.PCTL_RED_LAST_GOR : Field := ⟨2, 0x248, 4, 31, 1⟩
abbrev R.PCTL_RED_LAST_SEQ : Field := ⟨2, 0x248, 4, 21, 8⟩
abbrev R.PCTL_RED_LAST_TALLY : Field := ⟨2, 0x248, 4, 0, 21⟩
abbrev R.PCTL_RED_COUNT : Field := ⟨2, 0x24C, 4, 0, 32⟩
abbrev R.PCTL_RED_COUNT_COUNT : Field := ⟨2, 0x24C, 4, 0, 32⟩
abbrev R.SLAT_ROW_CFG : Field := ⟨4, 0x200, 4, 0, 32⟩
abbrev R.SLAT_ROW_CFG_PARTNER : Field := ⟨4, 0x200, 4, 16, 1⟩
abbrev R.SLAT_ROW_CFG_PARTNER_BASE : Field := ⟨4, 0x200, 4, 8, 8⟩
abbrev R.SLAT_ROW_CFG_ROW_BASE : Field := ⟨4, 0x200, 4, 0, 8⟩
abbrev R.SLAT_ROW_STAT : Field := ⟨4, 0x204, 4, 0, 32⟩
abbrev R.SLAT_ROW_STAT_CMD_BAD : Field := ⟨4, 0x204, 4, 31, 1⟩
abbrev R.SLAT_ROW_STAT_LAST_CMD : Field := ⟨4, 0x204, 4, 0, 24⟩
abbrev R.SLAT_ROW_DROPS : Field := ⟨4, 0x208, 4, 0, 32⟩
abbrev R.SLAT_ROW_DROPS_SLICES : Field := ⟨4, 0x208, 4, 0, 32⟩
abbrev R.SLAT_ROW_LIFTS : Field := ⟨4, 0x20C, 4, 0, 32⟩
abbrev R.SLAT_ROW_LIFTS_SLICES : Field := ⟨4, 0x20C, 4, 0, 32⟩
abbrev R.SLAT_ROW_WAIT : Field := ⟨4, 0x210, 4, 0, 32⟩
abbrev R.SLAT_ROW_WAIT_CYCLES : Field := ⟨4, 0x210, 4, 0, 25⟩

/-! Registers of 07_larder_microcode.md -/

abbrev R.PCTL_CAP : Field := ⟨2, 0x004, 4, 0, 32⟩
abbrev R.PCTL_CAP_QUEUE : Field := ⟨2, 0x004, 4, 24, 8⟩
abbrev R.PCTL_CAP_LARDER_WORDS_M1 : Field := ⟨2, 0x004, 4, 0, 12⟩
abbrev R.PCTL_EVT : Field := ⟨2, 0x010, 4, 0, 32⟩
abbrev R.PCTL_EVT_PATCH_FAIL : Field := ⟨2, 0x010, 4, 6, 1⟩
abbrev R.PCTL_EVT_PATCH_DONE : Field := ⟨2, 0x010, 4, 5, 1⟩
abbrev R.PCTL_EVT_MICRO_RESERVED : Field := ⟨2, 0x010, 4, 4, 1⟩
abbrev R.PCTL_EVT_COST_EXCEED : Field := ⟨2, 0x010, 4, 3, 1⟩
abbrev R.PCTL_EVT_OP_UNLISTED : Field := ⟨2, 0x010, 4, 2, 1⟩
abbrev R.PCTL_EVT_TASK_SKIPPED : Field := ⟨2, 0x010, 4, 1, 1⟩
abbrev R.PCTL_EVT_TASK_OVERRUN : Field := ⟨2, 0x010, 4, 0, 1⟩
abbrev R.PCTL_STATE : Field := ⟨2, 0x040, 4, 0, 32⟩
abbrev R.PCTL_STATE_QUEUE_OCC : Field := ⟨2, 0x040, 4, 24, 6⟩
abbrev R.PCTL_STATE_UPC : Field := ⟨2, 0x040, 4, 8, 12⟩
abbrev R.PCTL_STATE_DISPATCH : Field := ⟨2, 0x040, 4, 2, 1⟩
abbrev R.PCTL_STATE_STATE : Field := ⟨2, 0x040, 4, 0, 2⟩
abbrev R.PCTL_TASK : Field := ⟨2, 0x044, 4, 0, 32⟩
abbrev R.PCTL_TASK_ENTRY : Field := ⟨2, 0x044, 4, 16, 10⟩
abbrev R.PCTL_TASK_TASK_ID : Field := ⟨2, 0x044, 4, 0, 16⟩
abbrev R.PCTL_TASK_CYCLES : Field := ⟨2, 0x048, 4, 0, 32⟩
abbrev R.PCTL_TASK_CYCLES_CYCLES : Field := ⟨2, 0x048, 4, 0, 25⟩
abbrev R.PCTL_TASK_BUDGET : Field := ⟨2, 0x04C, 4, 0, 32⟩
abbrev R.PCTL_TASK_BUDGET_CYCLES : Field := ⟨2, 0x04C, 4, 0, 25⟩
abbrev R.PCTL_OVERRUN : Field := ⟨2, 0x050, 4, 0, 32⟩
abbrev R.PCTL_OVERRUN_COUNT : Field := ⟨2, 0x050, 4, 16, 16⟩
abbrev R.PCTL_OVERRUN_LAST_TASK : Field := ⟨2, 0x050, 4, 0, 16⟩
abbrev R.PCTL_SKIPPED : Field := ⟨2, 0x054, 4, 0, 32⟩
abbrev R.PCTL_SKIPPED_COUNT : Field := ⟨2, 0x054, 4, 16, 16⟩
abbrev R.PCTL_SKIPPED_LAST_TASK : Field := ⟨2, 0x054, 4, 0, 16⟩
abbrev R.PCTL_MACRO_FAULT : Field := ⟨2, 0x058, 4, 0, 32⟩
abbrev R.PCTL_MACRO_FAULT_KIND : Field := ⟨2, 0x058, 4, 30, 2⟩
abbrev R.PCTL_MACRO_FAULT_OP : Field := ⟨2, 0x058, 4, 12, 10⟩
abbrev R.PCTL_MACRO_FAULT_UPC : Field := ⟨2, 0x058, 4, 0, 12⟩
abbrev R.PCTL_MACROS : Field := ⟨2, 0x05C, 4, 0, 32⟩
abbrev R.PCTL_MACROS_COUNT : Field := ⟨2, 0x05C, 4, 0, 32⟩
abbrev R.PCTL_PAD : Field := ⟨2, 0x060, 4, 0, 32⟩
abbrev R.PCTL_PAD_CYCLES : Field := ⟨2, 0x060, 4, 0, 25⟩
abbrev R.PCTL_DISCARDS : Field := ⟨2, 0x064, 4, 0, 32⟩
abbrev R.PCTL_DISCARDS_COUNT : Field := ⟨2, 0x064, 4, 0, 32⟩
abbrev R.PCTL_LARD_VER : Field := ⟨2, 0x068, 4, 0, 32⟩
abbrev R.PCTL_LARD_VER_MAJOR : Field := ⟨2, 0x068, 4, 24, 8⟩
abbrev R.PCTL_LARD_VER_MINOR : Field := ⟨2, 0x068, 4, 16, 8⟩
abbrev R.PCTL_LARD_VER_PATCH : Field := ⟨2, 0x068, 4, 0, 16⟩
abbrev R.PCTL_LARD_XVER : Field := ⟨2, 0x070, 4, 0, 32⟩
abbrev R.PCTL_LARD_XVER_MAJOR : Field := ⟨2, 0x070, 4, 24, 8⟩
abbrev R.PCTL_LARD_XVER_MINOR : Field := ⟨2, 0x070, 4, 16, 8⟩
abbrev R.PCTL_LARD_XVER_PATCH : Field := ⟨2, 0x070, 4, 0, 16⟩
abbrev R.PCTL_LARD_TAG : Field := ⟨2, 0x06C, 4, 0, 32⟩
abbrev R.PCTL_LARD_TAG_TAG : Field := ⟨2, 0x06C, 4, 0, 32⟩
abbrev R.PCTL_LARD_XTAG : Field := ⟨2, 0x074, 4, 0, 32⟩
abbrev R.PCTL_LARD_XTAG_TAG : Field := ⟨2, 0x074, 4, 0, 32⟩
abbrev R.PCTL_OPT_IDX : Field := ⟨2, 0x078, 4, 0, 32⟩
abbrev R.PCTL_OPT_IDX_OP : Field := ⟨2, 0x078, 4, 0, 10⟩
abbrev R.PCTL_OPT_LO : Field := ⟨2, 0x07C, 4, 0, 32⟩
abbrev R.PCTL_OPT_LO_ENTRY_LO : Field := ⟨2, 0x07C, 4, 0, 32⟩
abbrev R.PCTL_OPT_HI : Field := ⟨2, 0x080, 4, 0, 32⟩
abbrev R.PCTL_OPT_HI_ENTRY_HI : Field := ⟨2, 0x080, 4, 0, 32⟩
abbrev R.PCTL_PATCH_STAT : Field := ⟨2, 0x084, 4, 0, 32⟩
abbrev R.PCTL_PATCH_STAT_BYTES : Field := ⟨2, 0x084, 4, 16, 16⟩
abbrev R.PCTL_PATCH_STAT_REGION : Field := ⟨2, 0x084, 4, 2, 1⟩
abbrev R.PCTL_PATCH_STAT_FAIL : Field := ⟨2, 0x084, 4, 1, 1⟩
abbrev R.PCTL_PATCH_STAT_BUSY : Field := ⟨2, 0x084, 4, 0, 1⟩

/-! Registers of 11_engines.md -/

abbrev R.ENG_CAP : Field := ⟨3, 0x004, 4, 0, 32⟩
abbrev R.ENG_CAP_IMEM_KIB : Field := ⟨3, 0x004, 4, 24, 8⟩
abbrev R.ENG_CAP_DMEM_KIB : Field := ⟨3, 0x004, 4, 16, 8⟩
abbrev R.ENG_CAP_LOCKSTEP : Field := ⟨3, 0x004, 4, 8, 1⟩
abbrev R.ENG_CAP_DMA : Field := ⟨3, 0x004, 4, 4, 1⟩
abbrev R.ENG_CAP_PROFILE : Field := ⟨3, 0x004, 4, 0, 1⟩
abbrev R.ENG_EVT : Field := ⟨3, 0x010, 4, 0, 32⟩
abbrev R.ENG_EVT_RELOAD_FAIL : Field := ⟨3, 0x010, 4, 10, 1⟩
abbrev R.ENG_EVT_TAKEOVER : Field := ⟨3, 0x010, 4, 9, 1⟩
abbrev R.ENG_EVT_INIT_DONE : Field := ⟨3, 0x010, 4, 8, 1⟩
abbrev R.ENG_EVT_DMA_ERR : Field := ⟨3, 0x010, 4, 7, 1⟩
abbrev R.ENG_EVT_MEM_UE : Field := ⟨3, 0x010, 4, 6, 1⟩
abbrev R.ENG_EVT_MEM_CE : Field := ⟨3, 0x010, 4, 5, 1⟩
abbrev R.ENG_EVT_DOUBLE_TRAP : Field := ⟨3, 0x010, 4, 4, 1⟩
abbrev R.ENG_EVT_LOCKSTEP : Field := ⟨3, 0x010, 4, 3, 1⟩
abbrev R.ENG_EVT_WDG_EXPIRE : Field := ⟨3, 0x010, 4, 2, 1⟩
abbrev R.ENG_EVT_WDG_WARN : Field := ⟨3, 0x010, 4, 1, 1⟩
abbrev R.ENG_EVT_STARTED : Field := ⟨3, 0x010, 4, 0, 1⟩
abbrev R.ENG_STATE : Field := ⟨3, 0x040, 4, 0, 32⟩
abbrev R.ENG_STATE_FAULT_KIND : Field := ⟨3, 0x040, 4, 4, 4⟩
abbrev R.ENG_STATE_STATE : Field := ⟨3, 0x040, 4, 0, 2⟩
abbrev R.ENG_START : Field := ⟨3, 0x044, 4, 0, 32⟩
abbrev R.ENG_START_ADDR : Field := ⟨3, 0x044, 4, 0, 32⟩
abbrev R.ENG_PC : Field := ⟨3, 0x048, 4, 0, 32⟩
abbrev R.ENG_PC_PC : Field := ⟨3, 0x048, 4, 0, 32⟩
abbrev R.ENG_WDG_CFG : Field := ⟨3, 0x04C, 4, 0, 32⟩
abbrev R.ENG_WDG_CFG_EN : Field := ⟨3, 0x04C, 4, 31, 1⟩
abbrev R.ENG_WDG_CFG_PERIOD : Field := ⟨3, 0x04C, 4, 0, 20⟩
abbrev R.ENG_WDG_KICK : Field := ⟨3, 0x050, 4, 0, 32⟩
abbrev R.ENG_WDG_KICK_KEY : Field := ⟨3, 0x050, 4, 0, 32⟩
abbrev R.ENG_WDG_COUNT : Field := ⟨3, 0x054, 4, 0, 32⟩
abbrev R.ENG_WDG_COUNT_CYCLES : Field := ⟨3, 0x054, 4, 0, 30⟩
abbrev R.ENG_TASK : Field := ⟨3, 0x058, 4, 0, 32⟩
abbrev R.ENG_TASK_CUT : Field := ⟨3, 0x058, 4, 24, 1⟩
abbrev R.ENG_TASK_TSN : Field := ⟨3, 0x058, 4, 16, 8⟩
abbrev R.ENG_TASK_TASK_ID : Field := ⟨3, 0x058, 4, 0, 16⟩
abbrev R.ENG_IRQ : Field := ⟨3, 0x05C, 4, 0, 32⟩
abbrev R.ENG_IRQ_LEVEL : Field := ⟨3, 0x05C, 4, 8, 8⟩
abbrev R.ENG_IRQ_LATCH : Field := ⟨3, 0x05C, 4, 0, 8⟩
abbrev R.ENG_MEM_CE : Field := ⟨3, 0x060, 4, 0, 32⟩
abbrev R.ENG_MEM_CE_COUNT : Field := ⟨3, 0x060, 4, 0, 32⟩
abbrev R.ENG_MEM_ERR_LOC : Field := ⟨3, 0x064, 4, 0, 32⟩
abbrev R.ENG_MEM_ERR_LOC_UE : Field := ⟨3, 0x064, 4, 31, 1⟩
abbrev R.ENG_MEM_ERR_LOC_DMEM : Field := ⟨3, 0x064, 4, 30, 1⟩
abbrev R.ENG_MEM_ERR_LOC_SYMBOL : Field := ⟨3, 0x064, 4, 25, 5⟩
abbrev R.ENG_MEM_ERR_LOC_VALUE : Field := ⟨3, 0x064, 4, 21, 4⟩
abbrev R.ENG_MEM_ERR_LOC_ROW : Field := ⟨3, 0x064, 4, 0, 14⟩
abbrev R.ENG_DMA_ERR : Field := ⟨3, 0x068, 4, 0, 32⟩
abbrev R.ENG_DMA_ERR_V : Field := ⟨3, 0x068, 4, 31, 1⟩
abbrev R.ENG_DMA_ERR_CODE : Field := ⟨3, 0x068, 4, 12, 8⟩
abbrev R.ENG_DMA_ERR_SEQ : Field := ⟨3, 0x068, 4, 0, 12⟩
abbrev R.ENG_DMA_ERR_ADDR_LO : Field := ⟨3, 0x06C, 4, 0, 32⟩
abbrev R.ENG_DMA_ERR_ADDR_LO_ADDR : Field := ⟨3, 0x06C, 4, 0, 32⟩
abbrev R.ENG_DMA_ERR_ADDR_HI : Field := ⟨3, 0x070, 4, 0, 32⟩
abbrev R.ENG_DMA_ERR_ADDR_HI_ADDR : Field := ⟨3, 0x070, 4, 0, 8⟩
abbrev R.SASH_RELOAD_LO : Field := ⟨3, 0x080, 4, 0, 32⟩
abbrev R.SASH_RELOAD_LO_ADDR : Field := ⟨3, 0x080, 4, 6, 26⟩
abbrev R.SASH_RELOAD_HI : Field := ⟨3, 0x084, 4, 0, 32⟩
abbrev R.SASH_RELOAD_HI_ADDR : Field := ⟨3, 0x084, 4, 0, 8⟩
abbrev R.SASH_RELOAD_LEN : Field := ⟨3, 0x088, 4, 0, 32⟩
abbrev R.SASH_RELOAD_LEN_IMEM_BLOCKS : Field := ⟨3, 0x088, 4, 16, 12⟩
abbrev R.SASH_RELOAD_LEN_DMEM_BLOCKS : Field := ⟨3, 0x088, 4, 0, 11⟩
abbrev R.SASH_XBAR : Field := ⟨3, 0x08C, 4, 0, 32⟩
abbrev R.SASH_XBAR_SPARE : Field := ⟨3, 0x08C, 4, 1, 1⟩
abbrev R.SASH_XBAR_REPLACED : Field := ⟨3, 0x08C, 4, 0, 1⟩
abbrev R.SASH_SPARE_CTL : Field := ⟨3, 0x090, 4, 0, 32⟩
abbrev R.SASH_SPARE_CTL_RELEASE : Field := ⟨3, 0x090, 4, 1, 1⟩
abbrev R.SASH_SPARE_CTL_AUTO : Field := ⟨3, 0x090, 4, 0, 1⟩
abbrev R.SASH_SPARE_STAT : Field := ⟨3, 0x094, 4, 0, 32⟩
abbrev R.SASH_SPARE_STAT_ACTIVE : Field := ⟨3, 0x094, 4, 9, 1⟩
abbrev R.SASH_SPARE_STAT_LOADING : Field := ⟨3, 0x094, 4, 8, 1⟩
abbrev R.SASH_SPARE_STAT_ASSIGNED : Field := ⟨3, 0x094, 4, 7, 1⟩
abbrev R.SASH_SPARE_STAT_PANE : Field := ⟨3, 0x094, 4, 0, 4⟩

/-! Registers of 12_pantry.md -/

abbrev R.PANT_CAP : Field := ⟨6, 0x004, 4, 0, 32⟩
abbrev R.PANT_CAP_QUEUE_SASH : Field := ⟨6, 0x004, 4, 24, 8⟩
abbrev R.PANT_CAP_QUEUE_GEN : Field := ⟨6, 0x004, 4, 16, 8⟩
abbrev R.PANT_CAP_WORDS_M1 : Field := ⟨6, 0x004, 4, 0, 16⟩
abbrev R.PANT_EVT : Field := ⟨6, 0x010, 4, 0, 32⟩
abbrev R.PANT_EVT_SCRUB_PASS : Field := ⟨6, 0x010, 4, 5, 1⟩
abbrev R.PANT_EVT_NOT_OWNER : Field := ⟨6, 0x010, 4, 4, 1⟩
abbrev R.PANT_EVT_FAILED : Field := ⟨6, 0x010, 4, 3, 1⟩
abbrev R.PANT_EVT_UE : Field := ⟨6, 0x010, 4, 2, 1⟩
abbrev R.PANT_EVT_CE : Field := ⟨6, 0x010, 4, 1, 1⟩
abbrev R.PANT_EVT_HANDED : Field := ⟨6, 0x010, 4, 0, 1⟩
abbrev R.PANT_OWNER : Field := ⟨6, 0x040, 4, 0, 32⟩
abbrev R.PANT_OWNER_FAILED : Field := ⟨6, 0x040, 4, 18, 1⟩
abbrev R.PANT_OWNER_PINNED : Field := ⟨6, 0x040, 4, 17, 1⟩
abbrev R.PANT_OWNER_HANDING : Field := ⟨6, 0x040, 4, 16, 1⟩
abbrev R.PANT_OWNER_NEXT_FLD : Field := ⟨6, 0x040, 4, 8, 8⟩
abbrev R.PANT_OWNER_OWNER : Field := ⟨6, 0x040, 4, 0, 8⟩
abbrev R.PANT_OWNER_NEXT : Field := ⟨6, 0x044, 4, 0, 32⟩
abbrev R.PANT_OWNER_NEXT_CODE : Field := ⟨6, 0x044, 4, 0, 8⟩
abbrev R.PANT_CE_COUNT : Field := ⟨6, 0x048, 4, 0, 32⟩
abbrev R.PANT_CE_COUNT_COUNT : Field := ⟨6, 0x048, 4, 0, 32⟩
abbrev R.PANT_UE_COUNT : Field := ⟨6, 0x04C, 4, 0, 32⟩
abbrev R.PANT_UE_COUNT_COUNT : Field := ⟨6, 0x04C, 4, 0, 32⟩
abbrev R.PANT_ERR_LOC : Field := ⟨6, 0x050, 4, 0, 32⟩
abbrev R.PANT_ERR_LOC_UE : Field := ⟨6, 0x050, 4, 31, 1⟩
abbrev R.PANT_ERR_LOC_SYMBOL : Field := ⟨6, 0x050, 4, 24, 5⟩
abbrev R.PANT_ERR_LOC_VALUE : Field := ⟨6, 0x050, 4, 20, 4⟩
abbrev R.PANT_ERR_LOC_WORD : Field := ⟨6, 0x050, 4, 0, 16⟩
abbrev R.PANT_NOT_OWNER : Field := ⟨6, 0x054, 4, 0, 32⟩
abbrev R.PANT_NOT_OWNER_LAST_SRC : Field := ⟨6, 0x054, 4, 24, 8⟩
abbrev R.PANT_NOT_OWNER_COUNT : Field := ⟨6, 0x054, 4, 0, 24⟩
abbrev R.PANT_SCRUB : Field := ⟨6, 0x058, 4, 0, 32⟩
abbrev R.PANT_SCRUB_NEXT_WORD : Field := ⟨6, 0x058, 4, 16, 16⟩
abbrev R.PANT_SCRUB_INTERVAL : Field := ⟨6, 0x058, 4, 0, 12⟩
abbrev R.PANT_ACCESSES : Field := ⟨6, 0x05C, 4, 0, 32⟩
abbrev R.PANT_ACCESSES_COUNT : Field := ⟨6, 0x05C, 4, 0, 32⟩
abbrev R.PANT_CONFLICTS : Field := ⟨6, 0x060, 4, 0, 32⟩
abbrev R.PANT_CONFLICTS_COUNT : Field := ⟨6, 0x060, 4, 0, 32⟩
abbrev R.PANT_HANDOVERS : Field := ⟨6, 0x064, 4, 0, 32⟩
abbrev R.PANT_HANDOVERS_COUNT : Field := ⟨6, 0x064, 4, 0, 32⟩
abbrev R.MRCH_EVT : Field := ⟨7, 0x010, 4, 0, 32⟩
abbrev R.MRCH_EVT_FAIL : Field := ⟨7, 0x010, 4, 1, 1⟩
abbrev R.MRCH_EVT_DONE : Field := ⟨7, 0x010, 4, 0, 1⟩
abbrev R.MRCH_CTL : Field := ⟨7, 0x040, 4, 0, 32⟩
abbrev R.MRCH_CTL_CHECKER : Field := ⟨7, 0x040, 4, 2, 1⟩
abbrev R.MRCH_CTL_MODE : Field := ⟨7, 0x040, 4, 1, 1⟩
abbrev R.MRCH_CTL_START : Field := ⟨7, 0x040, 4, 0, 1⟩
abbrev R.MRCH_MASK_LO : Field := ⟨7, 0x044, 4, 0, 32⟩
abbrev R.MRCH_MASK_LO_BANKS : Field := ⟨7, 0x044, 4, 0, 32⟩
abbrev R.MRCH_MASK_HI : Field := ⟨7, 0x048, 4, 0, 32⟩
abbrev R.MRCH_MASK_HI_BANKS : Field := ⟨7, 0x048, 4, 0, 32⟩
abbrev R.MRCH_STAT : Field := ⟨7, 0x04C, 4, 0, 32⟩
abbrev R.MRCH_STAT_FAIL_COUNT : Field := ⟨7, 0x04C, 4, 16, 8⟩
abbrev R.MRCH_STAT_ELEMENT : Field := ⟨7, 0x04C, 4, 4, 4⟩
abbrev R.MRCH_STAT_FAIL : Field := ⟨7, 0x04C, 4, 2, 1⟩
abbrev R.MRCH_STAT_PASS : Field := ⟨7, 0x04C, 4, 1, 1⟩
abbrev R.MRCH_STAT_BUSY : Field := ⟨7, 0x04C, 4, 0, 1⟩
abbrev R.MRCH_FAIL_LOC : Field := ⟨7, 0x050, 4, 0, 32⟩
abbrev R.MRCH_FAIL_LOC_BANK : Field := ⟨7, 0x050, 4, 26, 6⟩
abbrev R.MRCH_FAIL_LOC_ELEMENT : Field := ⟨7, 0x050, 4, 22, 4⟩
abbrev R.MRCH_FAIL_LOC_WORD : Field := ⟨7, 0x050, 4, 0, 16⟩
abbrev R.MRCH_FAIL_LO : Field := ⟨7, 0x054, 4, 0, 32⟩
abbrev R.MRCH_FAIL_LO_DIFF : Field := ⟨7, 0x054, 4, 0, 32⟩
abbrev R.MRCH_FAIL_HI : Field := ⟨7, 0x058, 4, 0, 32⟩
abbrev R.MRCH_FAIL_HI_DIFF : Field := ⟨7, 0x058, 4, 0, 32⟩
abbrev R.MRCH_FAIL_CHK : Field := ⟨7, 0x05C, 4, 0, 32⟩
abbrev R.MRCH_FAIL_CHK_DIFF : Field := ⟨7, 0x05C, 4, 0, 12⟩
abbrev R.MRCH_FAILED_LO : Field := ⟨7, 0x060, 4, 0, 32⟩
abbrev R.MRCH_FAILED_LO_BANKS : Field := ⟨7, 0x060, 4, 0, 32⟩
abbrev R.MRCH_FAILED_HI : Field := ⟨7, 0x064, 4, 0, 32⟩
abbrev R.MRCH_FAILED_HI_BANKS : Field := ⟨7, 0x064, 4, 0, 32⟩

/-! Registers of 13_footpath.md -/

abbrev R.STIL_CAP : Field := ⟨8, 0x004, 4, 0, 32⟩
abbrev R.STIL_CAP_DEPTH_BRIDGE : Field := ⟨8, 0x004, 4, 8, 8⟩
abbrev R.STIL_CAP_PROBES : Field := ⟨8, 0x004, 4, 4, 4⟩
abbrev R.STIL_CAP_DEPTH : Field := ⟨8, 0x004, 4, 0, 4⟩
abbrev R.STIL_EVT : Field := ⟨8, 0x010, 4, 0, 32⟩
abbrev R.STIL_EVT_LINK_LIMIT : Field := ⟨8, 0x010, 4, 5, 1⟩
abbrev R.STIL_EVT_MISROUTE : Field := ⟨8, 0x010, 4, 4, 1⟩
abbrev R.STIL_EVT_LINK_CRC : Field := ⟨8, 0x010, 4, 3, 1⟩
abbrev R.STIL_EVT_ORPHAN : Field := ⟨8, 0x010, 4, 2, 1⟩
abbrev R.STIL_EVT_DOWN : Field := ⟨8, 0x010, 4, 1, 1⟩
abbrev R.STIL_EVT_DRAINED : Field := ⟨8, 0x010, 4, 0, 1⟩
abbrev R.STIL_MODE : Field := ⟨8, 0x040, 4, 0, 32⟩
abbrev R.STIL_MODE_BR_DOWN : Field := ⟨8, 0x040, 4, 3, 1⟩
abbrev R.STIL_MODE_BR_RETURN : Field := ⟨8, 0x040, 4, 2, 1⟩
abbrev R.STIL_MODE_MODE : Field := ⟨8, 0x040, 4, 0, 2⟩
abbrev R.STIL_POS : Field := ⟨8, 0x044, 4, 0, 32⟩
abbrev R.STIL_POS_ROW : Field := ⟨8, 0x044, 4, 12, 4⟩
abbrev R.STIL_POS_COL : Field := ⟨8, 0x044, 4, 8, 4⟩
abbrev R.STIL_POS_PORTS : Field := ⟨8, 0x044, 4, 0, 6⟩
abbrev R.STIL_CFG : Field := ⟨8, 0x048, 4, 0, 32⟩
abbrev R.STIL_CFG_LINK_THRESH : Field := ⟨8, 0x048, 4, 8, 8⟩
abbrev R.STIL_CFG_AGE : Field := ⟨8, 0x048, 4, 0, 8⟩
abbrev R.STIL_ORPHAN : Field := ⟨8, 0x04C, 4, 0, 32⟩
abbrev R.STIL_ORPHAN_COUNT : Field := ⟨8, 0x04C, 4, 0, 32⟩
abbrev R.STIL_STRAY : Field := ⟨8, 0x050, 4, 0, 32⟩
abbrev R.STIL_STRAY_COUNT : Field := ⟨8, 0x050, 4, 0, 32⟩
abbrev R.STIL_CORRUPT : Field := ⟨8, 0x054, 4, 0, 32⟩
abbrev R.STIL_CORRUPT_COUNT : Field := ⟨8, 0x054, 4, 0, 32⟩
abbrev R.STIL_LINK_ERR : Field := ⟨8, 0x058, 4, 0, 32⟩
abbrev R.STIL_LINK_ERR_COUNT : Field := ⟨8, 0x058, 4, 0, 24⟩
abbrev R.STIL_FLITS : Field := ⟨8, 0x05C, 4, 0, 32⟩
abbrev R.STIL_FLITS_COUNT : Field := ⟨8, 0x05C, 4, 0, 32⟩
abbrev R.STIL_CREDIT_SEL : Field := ⟨8, 0x060, 4, 0, 32⟩
abbrev R.STIL_CREDIT_SEL_PORT : Field := ⟨8, 0x060, 4, 2, 3⟩
abbrev R.STIL_CREDIT_SEL_VC : Field := ⟨8, 0x060, 4, 0, 2⟩
abbrev R.STIL_CREDIT : Field := ⟨8, 0x064, 4, 0, 32⟩
abbrev R.STIL_CREDIT_HELD : Field := ⟨8, 0x064, 4, 16, 5⟩
abbrev R.STIL_CREDIT_BUFFERED : Field := ⟨8, 0x064, 4, 8, 5⟩
abbrev R.STIL_CREDIT_FREE : Field := ⟨8, 0x064, 4, 0, 5⟩
abbrev R.STIL_PRB_CTL : Field := ⟨8, 0x100, 32, 0, 32⟩
abbrev R.STIL_PRB_CTL_PORT : Field := ⟨8, 0x100, 32, 4, 3⟩
abbrev R.STIL_PRB_CTL_HEADS : Field := ⟨8, 0x100, 32, 2, 1⟩
abbrev R.STIL_PRB_CTL_TRACE : Field := ⟨8, 0x100, 32, 1, 1⟩
abbrev R.STIL_PRB_CTL_EN : Field := ⟨8, 0x100, 32, 0, 1⟩
abbrev R.STIL_PRB_MATCH_LO : Field := ⟨8, 0x104, 32, 0, 32⟩
abbrev R.STIL_PRB_MATCH_LO_KEY : Field := ⟨8, 0x104, 32, 0, 32⟩
abbrev R.STIL_PRB_MATCH_HI : Field := ⟨8, 0x108, 32, 0, 32⟩
abbrev R.STIL_PRB_MATCH_HI_KEY : Field := ⟨8, 0x108, 32, 0, 10⟩
abbrev R.STIL_PRB_MASK_LO : Field := ⟨8, 0x10C, 32, 0, 32⟩
abbrev R.STIL_PRB_MASK_LO_KEY : Field := ⟨8, 0x10C, 32, 0, 32⟩
abbrev R.STIL_PRB_MASK_HI : Field := ⟨8, 0x110, 32, 0, 32⟩
abbrev R.STIL_PRB_MASK_HI_KEY : Field := ⟨8, 0x110, 32, 0, 10⟩
abbrev R.STIL_PRB_COUNT : Field := ⟨8, 0x114, 32, 0, 32⟩
abbrev R.STIL_PRB_COUNT_COUNT : Field := ⟨8, 0x114, 32, 0, 32⟩
abbrev R.STIL_TRACE_CTL : Field := ⟨8, 0x200, 4, 0, 32⟩
abbrev R.STIL_TRACE_CTL_WRAP : Field := ⟨8, 0x200, 4, 1, 1⟩
abbrev R.STIL_TRACE_CTL_EN : Field := ⟨8, 0x200, 4, 0, 1⟩
abbrev R.STIL_TRACE_WP : Field := ⟨8, 0x204, 4, 0, 32⟩
abbrev R.STIL_TRACE_WP_VALUE : Field := ⟨8, 0x204, 4, 0, 32⟩
abbrev R.STIL_TRACE_DROPS : Field := ⟨8, 0x208, 4, 0, 32⟩
abbrev R.STIL_TRACE_DROPS_VALUE : Field := ⟨8, 0x208, 4, 0, 32⟩
abbrev R.STIL_TRACE_IDX : Field := ⟨8, 0x20C, 4, 0, 32⟩
abbrev R.STIL_TRACE_IDX_VALUE : Field := ⟨8, 0x20C, 4, 0, 32⟩
abbrev R.STIL_TRACE_DATA : Field := ⟨8, 0x210, 4, 0, 32⟩
abbrev R.STIL_TRACE_DATA_VALUE : Field := ⟨8, 0x210, 4, 0, 32⟩
abbrev R.TRLH_CAP : Field := ⟨9, 0x004, 4, 0, 32⟩
abbrev R.TRLH_CAP_TAGS : Field := ⟨9, 0x004, 4, 24, 8⟩
abbrev R.TRLH_CAP_QUEUE_B : Field := ⟨9, 0x004, 4, 16, 8⟩
abbrev R.TRLH_CAP_STILE : Field := ⟨9, 0x004, 4, 8, 8⟩
abbrev R.TRLH_CAP_INITS : Field := ⟨9, 0x004, 4, 4, 4⟩
abbrev R.TRLH_CAP_PORT : Field := ⟨9, 0x004, 4, 0, 4⟩
abbrev R.TRLH_EVT : Field := ⟨9, 0x010, 4, 0, 32⟩
abbrev R.TRLH_EVT_TIMEOUT : Field := ⟨9, 0x010, 4, 7, 1⟩
abbrev R.TRLH_EVT_LATE : Field := ⟨9, 0x010, 4, 6, 1⟩
abbrev R.TRLH_EVT_B_REFUSED : Field := ⟨9, 0x010, 4, 5, 1⟩
abbrev R.TRLH_EVT_UNREACHABLE : Field := ⟨9, 0x010, 4, 4, 1⟩
abbrev R.TRLH_EVT_CLOSE_RX : Field := ⟨9, 0x010, 4, 3, 1⟩
abbrev R.TRLH_EVT_POISONED : Field := ⟨9, 0x010, 4, 2, 1⟩
abbrev R.TRLH_EVT_DRAIN_LATE : Field := ⟨9, 0x010, 4, 1, 1⟩
abbrev R.TRLH_EVT_ADDR_HOLE : Field := ⟨9, 0x010, 4, 0, 1⟩
abbrev R.TRLH_RT_IDX : Field := ⟨9, 0x040, 4, 0, 32⟩
abbrev R.TRLH_RT_IDX_BANK : Field := ⟨9, 0x040, 4, 8, 1⟩
abbrev R.TRLH_RT_IDX_ALT : Field := ⟨9, 0x040, 4, 7, 1⟩
abbrev R.TRLH_RT_IDX_DEST : Field := ⟨9, 0x040, 4, 0, 7⟩
abbrev R.TRLH_RT_LO : Field := ⟨9, 0x044, 4, 0, 32⟩
abbrev R.TRLH_RT_LO_ROUTE_LO : Field := ⟨9, 0x044, 4, 0, 32⟩
abbrev R.TRLH_RT_HI : Field := ⟨9, 0x048, 4, 0, 32⟩
abbrev R.TRLH_RT_HI_VALID : Field := ⟨9, 0x048, 4, 31, 1⟩
abbrev R.TRLH_RT_HI_PINNED : Field := ⟨9, 0x048, 4, 30, 1⟩
abbrev R.TRLH_RT_HI_ROUTE_HI : Field := ⟨9, 0x048, 4, 0, 16⟩
abbrev R.TRLH_BANK_SEL : Field := ⟨9, 0x04C, 4, 0, 32⟩
abbrev R.TRLH_BANK_SEL_BANK : Field := ⟨9, 0x04C, 4, 0, 1⟩
abbrev R.TRLH_DDR_MAP : Field := ⟨9, 0x050, 4, 0, 32⟩
abbrev R.TRLH_DDR_MAP_MODE : Field := ⟨9, 0x050, 4, 0, 2⟩
abbrev R.TRLH_URG_INIT : Field := ⟨9, 0x054, 4, 0, 32⟩
abbrev R.TRLH_URG_INIT_INIT : Field := ⟨9, 0x054, 4, 0, 16⟩
abbrev R.TRLH_URG_DEST_LO : Field := ⟨9, 0x058, 4, 0, 32⟩
abbrev R.TRLH_URG_DEST_LO_DEST : Field := ⟨9, 0x058, 4, 0, 32⟩
abbrev R.TRLH_URG_DEST_HI : Field := ⟨9, 0x05C, 4, 0, 32⟩
abbrev R.TRLH_URG_DEST_HI_DEST : Field := ⟨9, 0x05C, 4, 0, 8⟩
abbrev R.TRLH_TIMEOUT : Field := ⟨9, 0x060, 4, 0, 32⟩
abbrev R.TRLH_TIMEOUT_MICROSECONDS : Field := ⟨9, 0x060, 4, 0, 14⟩
abbrev R.TRLH_CLOSED_LO : Field := ⟨9, 0x064, 4, 0, 32⟩
abbrev R.TRLH_CLOSED_LO_CLOSED : Field := ⟨9, 0x064, 4, 0, 32⟩
abbrev R.TRLH_CLOSED_HI : Field := ⟨9, 0x068, 4, 0, 32⟩
abbrev R.TRLH_CLOSED_HI_CLOSED : Field := ⟨9, 0x068, 4, 0, 8⟩
abbrev R.TRLH_DOWN_LO : Field := ⟨9, 0x06C, 4, 0, 32⟩
abbrev R.TRLH_DOWN_LO_DOWN : Field := ⟨9, 0x06C, 4, 0, 32⟩
abbrev R.TRLH_DOWN_HI : Field := ⟨9, 0x070, 4, 0, 32⟩
abbrev R.TRLH_DOWN_HI_DOWN : Field := ⟨9, 0x070, 4, 0, 14⟩
abbrev R.TRLH_SNAP : Field := ⟨9, 0x074, 4, 0, 32⟩
abbrev R.TRLH_SNAP_CAPTURE : Field := ⟨9, 0x074, 4, 0, 1⟩
abbrev R.TRLH_ISSUED : Field := ⟨9, 0x078, 4, 0, 32⟩
abbrev R.TRLH_ISSUED_COUNT : Field := ⟨9, 0x078, 4, 0, 32⟩
abbrev R.TRLH_RESPONDED : Field := ⟨9, 0x07C, 4, 0, 32⟩
abbrev R.TRLH_RESPONDED_COUNT : Field := ⟨9, 0x07C, 4, 0, 32⟩
abbrev R.TRLH_OUTSTANDING : Field := ⟨9, 0x080, 4, 0, 32⟩
abbrev R.TRLH_OUTSTANDING_TAGS : Field := ⟨9, 0x080, 4, 0, 7⟩
abbrev R.TRLH_LOCAL_UNREACH : Field := ⟨9, 0x084, 4, 0, 32⟩
abbrev R.TRLH_LOCAL_UNREACH_COUNT : Field := ⟨9, 0x084, 4, 0, 32⟩
abbrev R.TRLH_LOCAL_CLOSED : Field := ⟨9, 0x088, 4, 0, 32⟩
abbrev R.TRLH_LOCAL_CLOSED_COUNT : Field := ⟨9, 0x088, 4, 0, 32⟩
abbrev R.TRLH_LOCAL_REFUSED : Field := ⟨9, 0x08C, 4, 0, 32⟩
abbrev R.TRLH_LOCAL_REFUSED_COUNT : Field := ⟨9, 0x08C, 4, 0, 32⟩
abbrev R.TRLH_LOCAL_TIMEOUT : Field := ⟨9, 0x090, 4, 0, 32⟩
abbrev R.TRLH_LOCAL_TIMEOUT_COUNT : Field := ⟨9, 0x090, 4, 0, 32⟩
abbrev R.TRLH_HOLES : Field := ⟨9, 0x094, 4, 0, 32⟩
abbrev R.TRLH_HOLES_COUNT : Field := ⟨9, 0x094, 4, 0, 32⟩
abbrev R.TRLH_LATE : Field := ⟨9, 0x098, 4, 0, 32⟩
abbrev R.TRLH_LATE_COUNT : Field := ⟨9, 0x098, 4, 0, 32⟩
abbrev R.TRLH_CLOSE_CTL : Field := ⟨9, 0x09C, 4, 0, 32⟩
abbrev R.TRLH_CLOSE_CTL_CLOSED : Field := ⟨9, 0x09C, 4, 8, 1⟩
abbrev R.TRLH_CLOSE_CTL_OPEN : Field := ⟨9, 0x09C, 4, 1, 1⟩
abbrev R.TRLH_CLOSE_CTL_CLOSE : Field := ⟨9, 0x09C, 4, 0, 1⟩
abbrev R.TRLH_STAT_SEL : Field := ⟨9, 0x0A0, 4, 0, 32⟩
abbrev R.TRLH_STAT_SEL_INIT : Field := ⟨9, 0x0A0, 4, 0, 4⟩
abbrev R.TRLH_BW_S : Field := ⟨9, 0x0A4, 4, 0, 32⟩
abbrev R.TRLH_BW_S_BYTES : Field := ⟨9, 0x0A4, 4, 0, 32⟩
abbrev R.TRLH_BW_A : Field := ⟨9, 0x0A8, 4, 0, 32⟩
abbrev R.TRLH_BW_A_BYTES : Field := ⟨9, 0x0A8, 4, 0, 32⟩
abbrev R.TRLH_BW_B : Field := ⟨9, 0x0AC, 4, 0, 32⟩
abbrev R.TRLH_BW_B_BYTES : Field := ⟨9, 0x0AC, 4, 0, 32⟩
abbrev R.TRLH_LOST_RSP : Field := ⟨9, 0x0B0, 4, 0, 32⟩
abbrev R.TRLH_LOST_RSP_COUNT : Field := ⟨9, 0x0B0, 4, 0, 32⟩
abbrev R.TRLH_HIST : Field := ⟨9, 0x0C0, 4, 0, 32⟩
abbrev R.TRLH_HIST_COUNT : Field := ⟨9, 0x0C0, 4, 0, 32⟩

/-! Registers of 14_display_and_glazing.md -/

abbrev R.HEAD_CAP : Field := ⟨13, 0x004, 4, 0, 32⟩
abbrev R.HEAD_CAP_MAX_MHZ : Field := ⟨13, 0x004, 4, 16, 16⟩
abbrev R.HEAD_CAP_LUT_NODES : Field := ⟨13, 0x004, 4, 0, 8⟩
abbrev R.HEAD_EVT : Field := ⟨13, 0x010, 4, 0, 32⟩
abbrev R.HEAD_EVT_LUT_SWAPPED : Field := ⟨13, 0x010, 4, 9, 1⟩
abbrev R.HEAD_EVT_SIDE_DONE : Field := ⟨13, 0x010, 4, 8, 1⟩
abbrev R.HEAD_EVT_HPD_IRQ : Field := ⟨13, 0x010, 4, 7, 1⟩
abbrev R.HEAD_EVT_LINK_FAIL : Field := ⟨13, 0x010, 4, 6, 1⟩
abbrev R.HEAD_EVT_TIMING_HELD : Field := ⟨13, 0x010, 4, 5, 1⟩
abbrev R.HEAD_EVT_ARRAY_ENTER : Field := ⟨13, 0x010, 4, 4, 1⟩
abbrev R.HEAD_EVT_LIMP_ENTER : Field := ⟨13, 0x010, 4, 3, 1⟩
abbrev R.HEAD_EVT_UNDERRUN : Field := ⟨13, 0x010, 4, 2, 1⟩
abbrev R.HEAD_EVT_FRAME_END : Field := ⟨13, 0x010, 4, 1, 1⟩
abbrev R.HEAD_EVT_FRAME_START : Field := ⟨13, 0x010, 4, 0, 1⟩
abbrev R.HEAD_SRC : Field := ⟨13, 0x040, 4, 0, 32⟩
abbrev R.HEAD_SRC_SOURCE : Field := ⟨13, 0x040, 4, 8, 2⟩
abbrev R.HEAD_SRC_FORCE_LIMP : Field := ⟨13, 0x040, 4, 0, 1⟩
abbrev R.HEAD_HTIME : Field := ⟨13, 0x044, 4, 0, 32⟩
abbrev R.HEAD_HTIME_TOTAL : Field := ⟨13, 0x044, 4, 16, 16⟩
abbrev R.HEAD_HTIME_ACTIVE : Field := ⟨13, 0x044, 4, 0, 16⟩
abbrev R.HEAD_VTIME : Field := ⟨13, 0x04C, 4, 0, 32⟩
abbrev R.HEAD_VTIME_TOTAL : Field := ⟨13, 0x04C, 4, 16, 16⟩
abbrev R.HEAD_VTIME_ACTIVE : Field := ⟨13, 0x04C, 4, 0, 16⟩
abbrev R.HEAD_HSYNC : Field := ⟨13, 0x048, 4, 0, 32⟩
abbrev R.HEAD_HSYNC_SYNC_W : Field := ⟨13, 0x048, 4, 16, 16⟩
abbrev R.HEAD_HSYNC_FP : Field := ⟨13, 0x048, 4, 0, 16⟩
abbrev R.HEAD_VSYNC : Field := ⟨13, 0x050, 4, 0, 32⟩
abbrev R.HEAD_VSYNC_SYNC_W : Field := ⟨13, 0x050, 4, 16, 16⟩
abbrev R.HEAD_VSYNC_FP : Field := ⟨13, 0x050, 4, 0, 16⟩
abbrev R.HEAD_FMT : Field := ⟨13, 0x054, 4, 0, 32⟩
abbrev R.HEAD_FMT_DEPTH : Field := ⟨13, 0x054, 4, 4, 2⟩
abbrev R.HEAD_FMT_REFRESH : Field := ⟨13, 0x054, 4, 0, 2⟩
abbrev R.HEAD_PHY : Field := ⟨13, 0x058, 4, 0, 32⟩
abbrev R.HEAD_PHY_SPLIT : Field := ⟨13, 0x058, 4, 8, 2⟩
abbrev R.HEAD_PHY_SECOND : Field := ⟨13, 0x058, 4, 4, 3⟩
abbrev R.HEAD_PHY_PRIMARY : Field := ⟨13, 0x058, 4, 0, 3⟩
abbrev R.HEAD_LINK_CFG : Field := ⟨13, 0x05C, 4, 0, 32⟩
abbrev R.HEAD_LINK_CFG_DSI_RATE : Field := ⟨13, 0x05C, 4, 16, 10⟩
abbrev R.HEAD_LINK_CFG_DSI_BURST : Field := ⟨13, 0x05C, 4, 9, 1⟩
abbrev R.HEAD_LINK_CFG_SSC : Field := ⟨13, 0x05C, 4, 8, 1⟩
abbrev R.HEAD_LINK_CFG_LANES : Field := ⟨13, 0x05C, 4, 4, 3⟩
abbrev R.HEAD_LINK_CFG_EDP_RATE : Field := ⟨13, 0x05C, 4, 0, 3⟩
abbrev R.HEAD_PCLK : Field := ⟨13, 0x060, 4, 0, 32⟩
abbrev R.HEAD_PCLK_FREQ_HZ : Field := ⟨13, 0x060, 4, 0, 32⟩
abbrev R.HEAD_CP_CTL : Field := ⟨13, 0x064, 4, 0, 32⟩
abbrev R.HEAD_CP_CTL_SWAP : Field := ⟨13, 0x064, 4, 8, 1⟩
abbrev R.HEAD_CP_CTL_DITHER : Field := ⟨13, 0x064, 4, 2, 2⟩
abbrev R.HEAD_CP_CTL_GAMMA_EN : Field := ⟨13, 0x064, 4, 1, 1⟩
abbrev R.HEAD_CP_CTL_LUT3D_EN : Field := ⟨13, 0x064, 4, 0, 1⟩
abbrev R.HEAD_LUT_IDX : Field := ⟨13, 0x068, 4, 0, 32⟩
abbrev R.HEAD_LUT_IDX_TABLE : Field := ⟨13, 0x068, 4, 14, 2⟩
abbrev R.HEAD_LUT_IDX_INDEX : Field := ⟨13, 0x068, 4, 0, 13⟩
abbrev R.HEAD_LUT_DATA : Field := ⟨13, 0x06C, 4, 0, 32⟩
abbrev R.HEAD_LUT_DATA_VALUE : Field := ⟨13, 0x06C, 4, 0, 30⟩
abbrev R.HEAD_LINK_CTL : Field := ⟨13, 0x070, 4, 0, 32⟩
abbrev R.HEAD_LINK_CTL_LOW_POWER : Field := ⟨13, 0x070, 4, 1, 1⟩
abbrev R.HEAD_LINK_CTL_TRAIN : Field := ⟨13, 0x070, 4, 0, 1⟩
abbrev R.HEAD_LINK_STAT : Field := ⟨13, 0x074, 4, 0, 32⟩
abbrev R.HEAD_LINK_STAT_TRAIN_MS : Field := ⟨13, 0x074, 4, 8, 8⟩
abbrev R.HEAD_LINK_STAT_LANES_OK : Field := ⟨13, 0x074, 4, 4, 4⟩
abbrev R.HEAD_LINK_STAT_HPD : Field := ⟨13, 0x074, 4, 2, 1⟩
abbrev R.HEAD_LINK_STAT_STATE : Field := ⟨13, 0x074, 4, 0, 2⟩
abbrev R.HEAD_SIDE_CMD : Field := ⟨13, 0x078, 4, 0, 32⟩
abbrev R.HEAD_SIDE_CMD_GO : Field := ⟨13, 0x078, 4, 31, 1⟩
abbrev R.HEAD_SIDE_CMD_READ : Field := ⟨13, 0x078, 4, 30, 1⟩
abbrev R.HEAD_SIDE_CMD_KIND : Field := ⟨13, 0x078, 4, 28, 2⟩
abbrev R.HEAD_SIDE_CMD_ADDR : Field := ⟨13, 0x078, 4, 8, 20⟩
abbrev R.HEAD_SIDE_CMD_LEN_M1 : Field := ⟨13, 0x078, 4, 4, 4⟩
abbrev R.HEAD_SIDE_CMD_STATUS : Field := ⟨13, 0x078, 4, 0, 4⟩
abbrev R.HEAD_SIDE_DATA : Field := ⟨13, 0x07C, 4, 0, 32⟩
abbrev R.HEAD_SIDE_DATA_BYTES : Field := ⟨13, 0x07C, 4, 0, 32⟩
abbrev R.HEAD_UNDERRUNS : Field := ⟨13, 0x08C, 4, 0, 32⟩
abbrev R.HEAD_UNDERRUNS_COUNT : Field := ⟨13, 0x08C, 4, 0, 32⟩
abbrev R.HEAD_LIMP_FRAMES : Field := ⟨13, 0x090, 4, 0, 32⟩
abbrev R.HEAD_LIMP_FRAMES_COUNT : Field := ⟨13, 0x090, 4, 0, 32⟩
abbrev R.HEAD_POS : Field := ⟨13, 0x094, 4, 0, 32⟩
abbrev R.HEAD_POS_LINE : Field := ⟨13, 0x094, 4, 16, 16⟩
abbrev R.HEAD_POS_PIXEL : Field := ⟨13, 0x094, 4, 0, 16⟩
abbrev R.GLAZ_CAP : Field := ⟨14, 0x004, 4, 0, 32⟩
abbrev R.GLAZ_CAP_SRAM_KIB : Field := ⟨14, 0x004, 4, 16, 16⟩
abbrev R.GLAZ_CAP_TT_MAX : Field := ⟨14, 0x004, 4, 0, 9⟩
abbrev R.GLAZ_EVT : Field := ⟨14, 0x010, 4, 0, 32⟩
abbrev R.GLAZ_EVT_SRAM_UE : Field := ⟨14, 0x010, 4, 6, 1⟩
abbrev R.GLAZ_EVT_SRAM_CE : Field := ⟨14, 0x010, 4, 5, 1⟩
abbrev R.GLAZ_EVT_FAULT : Field := ⟨14, 0x010, 4, 4, 1⟩
abbrev R.GLAZ_EVT_TT_FAILED : Field := ⟨14, 0x010, 4, 3, 1⟩
abbrev R.GLAZ_EVT_MISMATCH : Field := ⟨14, 0x010, 4, 2, 1⟩
abbrev R.GLAZ_EVT_LOAD_FAIL : Field := ⟨14, 0x010, 4, 1, 1⟩
abbrev R.GLAZ_EVT_LOAD_DONE : Field := ⟨14, 0x010, 4, 0, 1⟩
abbrev R.GLAZ_LOAD_ADDR : Field := ⟨14, 0x040, 4, 0, 32⟩
abbrev R.GLAZ_LOAD_ADDR_OFFSET : Field := ⟨14, 0x040, 4, 0, 23⟩
abbrev R.GLAZ_LOAD_CTL : Field := ⟨14, 0x044, 4, 0, 32⟩
abbrev R.GLAZ_LOAD_CTL_START : Field := ⟨14, 0x044, 4, 31, 1⟩
abbrev R.GLAZ_LOAD_CTL_SLOT : Field := ⟨14, 0x044, 4, 0, 5⟩
abbrev R.GLAZ_LOAD_STAT : Field := ⟨14, 0x048, 4, 0, 32⟩
abbrev R.GLAZ_LOAD_STAT_BYTES_KIB : Field := ⟨14, 0x048, 4, 10, 22⟩
abbrev R.GLAZ_LOAD_STAT_FAIL : Field := ⟨14, 0x048, 4, 1, 1⟩
abbrev R.GLAZ_LOAD_STAT_BUSY : Field := ⟨14, 0x048, 4, 0, 1⟩
abbrev R.GLAZ_ASSET_VER : Field := ⟨14, 0x04C, 4, 0, 32⟩
abbrev R.GLAZ_ASSET_VER_VALUE : Field := ⟨14, 0x04C, 4, 0, 32⟩
abbrev R.GLAZ_ASSET_TAG : Field := ⟨14, 0x050, 4, 0, 32⟩
abbrev R.GLAZ_ASSET_TAG_VALUE : Field := ⟨14, 0x050, 4, 0, 32⟩
abbrev R.GLAZ_ESC : Field := ⟨14, 0x054, 4, 0, 32⟩
abbrev R.GLAZ_ESC_MISS_LIMIT : Field := ⟨14, 0x054, 4, 0, 4⟩
abbrev R.GLAZ_TT_IDX : Field := ⟨14, 0x058, 4, 0, 32⟩
abbrev R.GLAZ_TT_IDX_STATE : Field := ⟨14, 0x058, 4, 10, 2⟩
abbrev R.GLAZ_TT_IDX_HEAD : Field := ⟨14, 0x058, 4, 8, 2⟩
abbrev R.GLAZ_TT_IDX_TT : Field := ⟨14, 0x058, 4, 0, 8⟩
abbrev R.GLAZ_TT_CRC_EXP : Field := ⟨14, 0x05C, 4, 0, 32⟩
abbrev R.GLAZ_TT_CRC_EXP_CRC : Field := ⟨14, 0x05C, 4, 0, 32⟩
abbrev R.GLAZ_TT_CRC_LAST : Field := ⟨14, 0x060, 4, 0, 32⟩
abbrev R.GLAZ_TT_CRC_LAST_CRC : Field := ⟨14, 0x060, 4, 0, 32⟩
abbrev R.GLAZ_TT_STAT : Field := ⟨14, 0x064, 4, 0, 32⟩
abbrev R.GLAZ_TT_STAT_MISMATCHES : Field := ⟨14, 0x064, 4, 16, 16⟩
abbrev R.GLAZ_TT_STAT_COUNT : Field := ⟨14, 0x064, 4, 12, 4⟩
abbrev R.GLAZ_TT_STAT_ESC : Field := ⟨14, 0x064, 4, 10, 2⟩
abbrev R.GLAZ_TT_STAT_SHOWN : Field := ⟨14, 0x064, 4, 8, 2⟩
abbrev R.GLAZ_TT_STAT_MODE : Field := ⟨14, 0x064, 4, 0, 3⟩
abbrev R.GLAZ_TT_CLEAR : Field := ⟨14, 0x068, 4, 0, 32⟩
abbrev R.GLAZ_TT_CLEAR_ALL : Field := ⟨14, 0x068, 4, 31, 1⟩
abbrev R.GLAZ_TT_CLEAR_HEAD : Field := ⟨14, 0x068, 4, 8, 2⟩
abbrev R.GLAZ_TT_CLEAR_TT : Field := ⟨14, 0x068, 4, 0, 8⟩
abbrev R.GLAZ_FAULT : Field := ⟨14, 0x06C, 4, 0, 32⟩
abbrev R.GLAZ_FAULT_PIN : Field := ⟨14, 0x06C, 4, 12, 1⟩
abbrev R.GLAZ_FAULT_FRAME_MISSING : Field := ⟨14, 0x06C, 4, 8, 4⟩
abbrev R.GLAZ_FAULT_DOMAIN : Field := ⟨14, 0x06C, 4, 4, 1⟩
abbrev R.GLAZ_FAULT_SRAM_UE : Field := ⟨14, 0x06C, 4, 3, 1⟩
abbrev R.GLAZ_FAULT_LOADING : Field := ⟨14, 0x06C, 4, 2, 1⟩
abbrev R.GLAZ_FAULT_CHECKER : Field := ⟨14, 0x06C, 4, 1, 1⟩
abbrev R.GLAZ_FAULT_TT_FAILED : Field := ⟨14, 0x06C, 4, 0, 1⟩
abbrev R.GLAZ_MISMATCHES : Field := ⟨14, 0x070, 4, 0, 32⟩
abbrev R.GLAZ_MISMATCHES_COUNT : Field := ⟨14, 0x070, 4, 0, 32⟩
abbrev R.GLAZ_SRAM_CE : Field := ⟨14, 0x074, 4, 0, 32⟩
abbrev R.GLAZ_SRAM_CE_COUNT : Field := ⟨14, 0x074, 4, 0, 32⟩
abbrev R.GLAZ_SRAM_UE : Field := ⟨14, 0x078, 4, 0, 32⟩
abbrev R.GLAZ_SRAM_UE_COUNT : Field := ⟨14, 0x078, 4, 0, 32⟩
abbrev R.GLAZ_FAILED : Field := ⟨14, 0x080, 4, 0, 32⟩
abbrev R.GLAZ_FAILED_TT : Field := ⟨14, 0x080, 4, 0, 32⟩

/-! Registers of 15_cameras_and_transom.md -/

abbrev R.CAMI_EVT : Field := ⟨15, 0x010, 4, 0, 32⟩
abbrev R.CAMI_EVT_DISCARD : Field := ⟨15, 0x010, 4, 4, 1⟩
abbrev R.CAMI_EVT_FRAME_SENT : Field := ⟨15, 0x010, 4, 3, 1⟩
abbrev R.CAMI_EVT_FRAME_START : Field := ⟨15, 0x010, 4, 2, 1⟩
abbrev R.CAMI_EVT_FSYNC : Field := ⟨15, 0x010, 4, 1, 1⟩
abbrev R.CAMI_EVT_ECC_CORR : Field := ⟨15, 0x010, 4, 0, 1⟩
abbrev R.CAMI_RX_CFG : Field := ⟨15, 0x040, 4, 0, 32⟩
abbrev R.CAMI_RX_CFG_RATE : Field := ⟨15, 0x040, 4, 16, 8⟩
abbrev R.CAMI_RX_CFG_VC : Field := ⟨15, 0x040, 4, 12, 4⟩
abbrev R.CAMI_RX_CFG_LANES : Field := ⟨15, 0x040, 4, 10, 2⟩
abbrev R.CAMI_RX_CFG_DT : Field := ⟨15, 0x040, 4, 0, 6⟩
abbrev R.CAMI_SIZE : Field := ⟨15, 0x044, 4, 0, 32⟩
abbrev R.CAMI_SIZE_HEIGHT : Field := ⟨15, 0x044, 4, 16, 16⟩
abbrev R.CAMI_SIZE_WIDTH : Field := ⟨15, 0x044, 4, 0, 16⟩
abbrev R.CAMI_FSYNC_OFS : Field := ⟨15, 0x048, 4, 0, 32⟩
abbrev R.CAMI_FSYNC_OFS_OFS : Field := ⟨15, 0x048, 4, 0, 20⟩
abbrev R.CAMI_FSYNC_CFG : Field := ⟨15, 0x04C, 4, 0, 32⟩
abbrev R.CAMI_FSYNC_CFG_EN : Field := ⟨15, 0x04C, 4, 31, 1⟩
abbrev R.CAMI_FSYNC_CFG_POL : Field := ⟨15, 0x04C, 4, 30, 1⟩
abbrev R.CAMI_FSYNC_CFG_DIV_M1 : Field := ⟨15, 0x04C, 4, 16, 4⟩
abbrev R.CAMI_FSYNC_CFG_WIDTH : Field := ⟨15, 0x04C, 4, 0, 16⟩
abbrev R.CAMI_STAT : Field := ⟨15, 0x050, 4, 0, 32⟩
abbrev R.CAMI_STAT_FNUM : Field := ⟨15, 0x050, 4, 16, 16⟩
abbrev R.CAMI_STAT_LINE : Field := ⟨15, 0x050, 4, 4, 12⟩
abbrev R.CAMI_STAT_IN_FRAME : Field := ⟨15, 0x050, 4, 1, 1⟩
abbrev R.CAMI_STAT_HS : Field := ⟨15, 0x050, 4, 0, 1⟩
abbrev R.CAMI_RECEIVED : Field := ⟨15, 0x054, 4, 0, 32⟩
abbrev R.CAMI_RECEIVED_COUNT : Field := ⟨15, 0x054, 4, 0, 32⟩
abbrev R.CAMI_SENT : Field := ⟨15, 0x058, 4, 0, 32⟩
abbrev R.CAMI_SENT_COUNT : Field := ⟨15, 0x058, 4, 0, 32⟩
abbrev R.CAMI_DISC_HDR : Field := ⟨15, 0x05C, 4, 0, 32⟩
abbrev R.CAMI_DISC_HDR_COUNT : Field := ⟨15, 0x05C, 4, 0, 32⟩
abbrev R.CAMI_DISC_CRC : Field := ⟨15, 0x060, 4, 0, 32⟩
abbrev R.CAMI_DISC_CRC_COUNT : Field := ⟨15, 0x060, 4, 0, 32⟩
abbrev R.CAMI_DISC_SIZE : Field := ⟨15, 0x064, 4, 0, 32⟩
abbrev R.CAMI_DISC_SIZE_COUNT : Field := ⟨15, 0x064, 4, 0, 32⟩
abbrev R.CAMI_DISC_LINK : Field := ⟨15, 0x068, 4, 0, 32⟩
abbrev R.CAMI_DISC_LINK_COUNT : Field := ⟨15, 0x068, 4, 0, 32⟩
abbrev R.CAMI_DISC_DISABLED : Field := ⟨15, 0x06C, 4, 0, 32⟩
abbrev R.CAMI_DISC_DISABLED_COUNT : Field := ⟨15, 0x06C, 4, 0, 32⟩
abbrev R.CAMI_IGNORED : Field := ⟨15, 0x070, 4, 0, 32⟩
abbrev R.CAMI_IGNORED_COUNT : Field := ⟨15, 0x070, 4, 0, 32⟩
abbrev R.CAMI_ECC_CORR : Field := ⟨15, 0x074, 4, 0, 32⟩
abbrev R.CAMI_ECC_CORR_COUNT : Field := ⟨15, 0x074, 4, 0, 32⟩
abbrev R.CAMI_WR_STARTED : Field := ⟨15, 0x080, 4, 0, 32⟩
abbrev R.CAMI_WR_STARTED_COUNT : Field := ⟨15, 0x080, 4, 0, 32⟩
abbrev R.CAMI_WR_CURRENT : Field := ⟨15, 0x084, 4, 0, 32⟩
abbrev R.CAMI_WR_CURRENT_COUNT : Field := ⟨15, 0x084, 4, 0, 32⟩
abbrev R.CAMI_WR_SUPERSEDED : Field := ⟨15, 0x088, 4, 0, 32⟩
abbrev R.CAMI_WR_SUPERSEDED_COUNT : Field := ⟨15, 0x088, 4, 0, 32⟩
abbrev R.CAMI_WR_NOBUF : Field := ⟨15, 0x08C, 4, 0, 32⟩
abbrev R.CAMI_WR_NOBUF_COUNT : Field := ⟨15, 0x08C, 4, 0, 32⟩
abbrev R.CAMI_WR_WERR : Field := ⟨15, 0x090, 4, 0, 32⟩
abbrev R.CAMI_WR_WERR_COUNT : Field := ⟨15, 0x090, 4, 0, 32⟩
abbrev R.CAMI_WR_CUT : Field := ⟨15, 0x094, 4, 0, 32⟩
abbrev R.CAMI_WR_CUT_COUNT : Field := ⟨15, 0x094, 4, 0, 32⟩
abbrev R.TRSM_EVT : Field := ⟨16, 0x010, 4, 0, 32⟩
abbrev R.TRSM_EVT_BAR0_DENIED : Field := ⟨16, 0x010, 4, 5, 1⟩
abbrev R.TRSM_EVT_WIN_DROP : Field := ⟨16, 0x010, 4, 4, 1⟩
abbrev R.TRSM_EVT_DB_REFUSED : Field := ⟨16, 0x010, 4, 3, 1⟩
abbrev R.TRSM_EVT_RELEASED : Field := ⟨16, 0x010, 4, 2, 1⟩
abbrev R.TRSM_EVT_DB_ACCEPTED : Field := ⟨16, 0x010, 4, 1, 1⟩
abbrev R.TRSM_EVT_LINK_CHANGE : Field := ⟨16, 0x010, 4, 0, 1⟩
abbrev R.TRSM_LINK_STAT : Field := ⟨16, 0x040, 4, 0, 32⟩
abbrev R.TRSM_LINK_STAT_WIDTH : Field := ⟨16, 0x040, 4, 4, 4⟩
abbrev R.TRSM_LINK_STAT_SPEED : Field := ⟨16, 0x040, 4, 1, 3⟩
abbrev R.TRSM_LINK_STAT_UP : Field := ⟨16, 0x040, 4, 0, 1⟩
abbrev R.TRSM_BAR0_ALLOW : Field := ⟨16, 0x044, 4, 0, 32⟩
abbrev R.TRSM_BAR0_ALLOW_TYPES : Field := ⟨16, 0x044, 4, 1, 24⟩
abbrev R.TRSM_WIN_BASE : Field := ⟨16, 0x048, 4, 0, 32⟩
abbrev R.TRSM_WIN_BASE_ADDR : Field := ⟨16, 0x048, 4, 0, 28⟩
abbrev R.TRSM_SURF_IDX : Field := ⟨16, 0x04C, 4, 0, 32⟩
abbrev R.TRSM_SURF_IDX_BUF : Field := ⟨16, 0x04C, 4, 8, 2⟩
abbrev R.TRSM_SURF_IDX_SURF : Field := ⟨16, 0x04C, 4, 0, 5⟩
abbrev R.TRSM_SURF_CFG : Field := ⟨16, 0x050, 4, 0, 32⟩
abbrev R.TRSM_SURF_CFG_EN : Field := ⟨16, 0x050, 4, 31, 1⟩
abbrev R.TRSM_SURF_CFG_BUFS : Field := ⟨16, 0x050, 4, 24, 2⟩
abbrev R.TRSM_SURF_CFG_ID : Field := ⟨16, 0x050, 4, 0, 16⟩
abbrev R.TRSM_SURF_BUF : Field := ⟨16, 0x054, 4, 0, 32⟩
abbrev R.TRSM_SURF_BUF_ADDR : Field := ⟨16, 0x054, 4, 0, 28⟩
abbrev R.TRSM_SURF_LEN : Field := ⟨16, 0x058, 4, 0, 32⟩
abbrev R.TRSM_SURF_LEN_PAGES : Field := ⟨16, 0x058, 4, 0, 16⟩
abbrev R.TRSM_SURF_STAT : Field := ⟨16, 0x05C, 4, 0, 32⟩
abbrev R.TRSM_SURF_STAT_STATE : Field := ⟨16, 0x05C, 4, 0, 6⟩
abbrev R.TRSM_DOORBELL : Field := ⟨16, 0x060, 4, 0, 32⟩
abbrev R.TRSM_DOORBELL_BUF : Field := ⟨16, 0x060, 4, 8, 2⟩
abbrev R.TRSM_DOORBELL_SURF : Field := ⟨16, 0x060, 4, 0, 5⟩
abbrev R.TRSM_DB_RESULT : Field := ⟨16, 0x064, 4, 0, 32⟩
abbrev R.TRSM_DB_RESULT_REFUSED : Field := ⟨16, 0x064, 4, 16, 16⟩
abbrev R.TRSM_DB_RESULT_LAST : Field := ⟨16, 0x064, 4, 0, 3⟩
abbrev R.TRSM_DB_ACCEPTED : Field := ⟨16, 0x068, 4, 0, 32⟩
abbrev R.TRSM_DB_ACCEPTED_COUNT : Field := ⟨16, 0x068, 4, 0, 32⟩
abbrev R.TRSM_SUPERSEDED : Field := ⟨16, 0x06C, 4, 0, 32⟩
abbrev R.TRSM_SUPERSEDED_COUNT : Field := ⟨16, 0x06C, 4, 0, 32⟩
abbrev R.TRSM_WIN_DROP : Field := ⟨16, 0x070, 4, 0, 32⟩
abbrev R.TRSM_WIN_DROP_COUNT : Field := ⟨16, 0x070, 4, 0, 32⟩
abbrev R.TRSM_BAR0_DENIED : Field := ⟨16, 0x074, 4, 0, 32⟩
abbrev R.TRSM_BAR0_DENIED_COUNT : Field := ⟨16, 0x074, 4, 0, 32⟩
abbrev R.TRSM_VEC_SRC : Field := ⟨16, 0x100, 4, 0, 32⟩
abbrev R.TRSM_VEC_SRC_EN : Field := ⟨16, 0x100, 4, 31, 1⟩
abbrev R.TRSM_VEC_SRC_TYPE : Field := ⟨16, 0x100, 4, 8, 8⟩
abbrev R.TRSM_VEC_SRC_INSTANCE : Field := ⟨16, 0x100, 4, 0, 8⟩
abbrev R.TRSM_SURF_CUR : Field := ⟨16, 0x400, 4, 0, 32⟩
abbrev R.TRSM_SURF_CUR_VALID : Field := ⟨16, 0x400, 4, 31, 1⟩
abbrev R.TRSM_SURF_CUR_BUF : Field := ⟨16, 0x400, 4, 28, 2⟩
abbrev R.TRSM_SURF_CUR_ADDR : Field := ⟨16, 0x400, 4, 0, 28⟩

/-! Registers of 16_gatehouse.md -/

abbrev R.GATE_CAP : Field := ⟨17, 0x004, 4, 0, 32⟩
abbrev R.GATE_CAP_CAN : Field := ⟨17, 0x004, 4, 28, 4⟩
abbrev R.GATE_CAP_T1S : Field := ⟨17, 0x004, 4, 24, 4⟩
abbrev R.GATE_CAP_PROFILES : Field := ⟨17, 0x004, 4, 16, 8⟩
abbrev R.GATE_CAP_CAM : Field := ⟨17, 0x004, 4, 0, 16⟩
abbrev R.GATE_EVT : Field := ⟨17, 0x010, 4, 0, 32⟩
abbrev R.GATE_EVT_CMD_FAILOVER : Field := ⟨17, 0x010, 4, 9, 1⟩
abbrev R.GATE_EVT_CNT_INVALID : Field := ⟨17, 0x010, 4, 8, 1⟩
abbrev R.GATE_EVT_STAT_SKIPPED : Field := ⟨17, 0x010, 4, 7, 1⟩
abbrev R.GATE_EVT_ENGINE_DOWN : Field := ⟨17, 0x010, 4, 6, 1⟩
abbrev R.GATE_EVT_DROPPED : Field := ⟨17, 0x010, 4, 5, 1⟩
abbrev R.GATE_EVT_REJECTED : Field := ⟨17, 0x010, 4, 4, 1⟩
abbrev R.GATE_EVT_STRANGER : Field := ⟨17, 0x010, 4, 3, 1⟩
abbrev R.GATE_EVT_PLCA_LOST : Field := ⟨17, 0x010, 4, 2, 1⟩
abbrev R.GATE_EVT_RECOVERED : Field := ⟨17, 0x010, 4, 1, 1⟩
abbrev R.GATE_EVT_BUS_OFF : Field := ⟨17, 0x010, 4, 0, 1⟩
abbrev R.GATE_CAN_CFG : Field := ⟨17, 0x040, 4, 0, 32⟩
abbrev R.GATE_CAN_CFG_EN : Field := ⟨17, 0x040, 4, 31, 1⟩
abbrev R.GATE_CAN_CFG_FD_EN : Field := ⟨17, 0x040, 4, 30, 1⟩
abbrev R.GATE_CAN_CFG_XL_EN : Field := ⟨17, 0x040, 4, 29, 1⟩
abbrev R.GATE_CAN_CFG_PWM : Field := ⟨17, 0x040, 4, 28, 1⟩
abbrev R.GATE_CAN_CFG_LISTEN : Field := ⟨17, 0x040, 4, 27, 1⟩
abbrev R.GATE_CAN_CFG_AUTO_RECOVER : Field := ⟨17, 0x040, 4, 26, 1⟩
abbrev R.GATE_CAN_CFG_TDCO : Field := ⟨17, 0x040, 4, 8, 8⟩
abbrev R.GATE_CAN_NBT : Field := ⟨17, 0x050, 4, 0, 32⟩
abbrev R.GATE_CAN_NBT_PRESC_M1 : Field := ⟨17, 0x050, 4, 24, 8⟩
abbrev R.GATE_CAN_NBT_TSEG1_M1 : Field := ⟨17, 0x050, 4, 16, 8⟩
abbrev R.GATE_CAN_NBT_TSEG2_M1 : Field := ⟨17, 0x050, 4, 8, 8⟩
abbrev R.GATE_CAN_NBT_SJW_M1 : Field := ⟨17, 0x050, 4, 0, 8⟩
abbrev R.GATE_CAN_DBT : Field := ⟨17, 0x060, 4, 0, 32⟩
abbrev R.GATE_CAN_DBT_PRESC_M1 : Field := ⟨17, 0x060, 4, 24, 8⟩
abbrev R.GATE_CAN_DBT_TSEG1_M1 : Field := ⟨17, 0x060, 4, 16, 8⟩
abbrev R.GATE_CAN_DBT_TSEG2_M1 : Field := ⟨17, 0x060, 4, 8, 8⟩
abbrev R.GATE_CAN_DBT_SJW_M1 : Field := ⟨17, 0x060, 4, 0, 8⟩
abbrev R.GATE_CAN_XBT : Field := ⟨17, 0x070, 4, 0, 32⟩
abbrev R.GATE_CAN_XBT_PRESC_M1 : Field := ⟨17, 0x070, 4, 24, 8⟩
abbrev R.GATE_CAN_XBT_TSEG1_M1 : Field := ⟨17, 0x070, 4, 16, 8⟩
abbrev R.GATE_CAN_XBT_TSEG2_M1 : Field := ⟨17, 0x070, 4, 8, 8⟩
abbrev R.GATE_CAN_XBT_SJW_M1 : Field := ⟨17, 0x070, 4, 0, 8⟩
abbrev R.GATE_CAN_STAT : Field := ⟨17, 0x080, 4, 0, 32⟩
abbrev R.GATE_CAN_STAT_TEC : Field := ⟨17, 0x080, 4, 16, 8⟩
abbrev R.GATE_CAN_STAT_REC : Field := ⟨17, 0x080, 4, 8, 7⟩
abbrev R.GATE_CAN_STAT_STATE : Field := ⟨17, 0x080, 4, 1, 2⟩
abbrev R.GATE_CAN_STAT_SYNC : Field := ⟨17, 0x080, 4, 0, 1⟩
abbrev R.GATE_CAN_RECOVER : Field := ⟨17, 0x090, 4, 0, 32⟩
abbrev R.GATE_CAN_RECOVER_PORT : Field := ⟨17, 0x090, 4, 0, 4⟩
abbrev R.GATE_T1S_CFG : Field := ⟨17, 0x0A0, 4, 0, 32⟩
abbrev R.GATE_T1S_CFG_EN : Field := ⟨17, 0x0A0, 4, 31, 1⟩
abbrev R.GATE_T1S_CFG_PLCA_EN : Field := ⟨17, 0x0A0, 4, 30, 1⟩
abbrev R.GATE_T1S_CFG_FALLBACK : Field := ⟨17, 0x0A0, 4, 29, 1⟩
abbrev R.GATE_T1S_CFG_NODE_ID : Field := ⟨17, 0x0A0, 4, 16, 8⟩
abbrev R.GATE_T1S_CFG_NODE_COUNT : Field := ⟨17, 0x0A0, 4, 8, 8⟩
abbrev R.GATE_T1S_CFG_TO_TIMER : Field := ⟨17, 0x0A0, 4, 0, 8⟩
abbrev R.GATE_T1S_STAT : Field := ⟨17, 0x0A8, 4, 0, 32⟩
abbrev R.GATE_T1S_STAT_BEACON : Field := ⟨17, 0x0A8, 4, 2, 1⟩
abbrev R.GATE_T1S_STAT_MODE : Field := ⟨17, 0x0A8, 4, 0, 2⟩
abbrev R.GATE_MAC_LO : Field := ⟨17, 0x0B0, 4, 0, 32⟩
abbrev R.GATE_MAC_LO_MAC : Field := ⟨17, 0x0B0, 4, 0, 32⟩
abbrev R.GATE_MAC_HI : Field := ⟨17, 0x0B4, 4, 0, 32⟩
abbrev R.GATE_MAC_HI_MAC : Field := ⟨17, 0x0B4, 4, 0, 16⟩
abbrev R.GATE_T1S_ETYPE : Field := ⟨17, 0x0B8, 4, 0, 32⟩
abbrev R.GATE_T1S_ETYPE_ETYPE : Field := ⟨17, 0x0B8, 4, 0, 16⟩
abbrev R.GATE_CAM_IDX : Field := ⟨17, 0x0C0, 4, 0, 32⟩
abbrev R.GATE_CAM_IDX_INDEX : Field := ⟨17, 0x0C0, 4, 0, 12⟩
abbrev R.GATE_CAM_W : Field := ⟨17, 0x0C4, 4, 0, 32⟩
abbrev R.GATE_CAM_W_WORD : Field := ⟨17, 0x0C4, 4, 0, 32⟩
abbrev R.GATE_PROT_IDX : Field := ⟨17, 0x0D4, 4, 0, 32⟩
abbrev R.GATE_PROT_IDX_INDEX : Field := ⟨17, 0x0D4, 4, 0, 6⟩
abbrev R.GATE_PROT_W : Field := ⟨17, 0x0D8, 4, 0, 32⟩
abbrev R.GATE_PROT_W_WORD : Field := ⟨17, 0x0D8, 4, 0, 32⟩
abbrev R.GATE_RXQ_DESC0 : Field := ⟨17, 0x170, 4, 0, 32⟩
abbrev R.GATE_RXQ_DESC0_STAMP_LO : Field := ⟨17, 0x170, 4, 0, 32⟩
abbrev R.GATE_RXQ_DESC1 : Field := ⟨17, 0x174, 4, 0, 32⟩
abbrev R.GATE_RXQ_DESC1_LEN : Field := ⟨17, 0x174, 4, 16, 16⟩
abbrev R.GATE_RXQ_DESC1_STAMP_HI : Field := ⟨17, 0x174, 4, 0, 16⟩
abbrev R.GATE_RXQ_DESC2 : Field := ⟨17, 0x178, 4, 0, 32⟩
abbrev R.GATE_RXQ_DESC2_ID : Field := ⟨17, 0x178, 4, 0, 32⟩
abbrev R.GATE_RXQ_DESC3 : Field := ⟨17, 0x17C, 4, 0, 32⟩
abbrev R.GATE_RXQ_DESC3_VALID : Field := ⟨17, 0x17C, 4, 31, 1⟩
abbrev R.GATE_RXQ_DESC3_PORT : Field := ⟨17, 0x17C, 4, 28, 3⟩
abbrev R.GATE_RXQ_DESC3_FMT : Field := ⟨17, 0x17C, 4, 26, 2⟩
abbrev R.GATE_RXQ_DESC3_CLASS : Field := ⟨17, 0x17C, 4, 24, 2⟩
abbrev R.GATE_RXQ_DESC3_NODE : Field := ⟨17, 0x17C, 4, 16, 8⟩
abbrev R.GATE_RXQ_DESC3_CAM : Field := ⟨17, 0x17C, 4, 0, 12⟩
abbrev R.GATE_RXQ_POP : Field := ⟨17, 0x180, 4, 0, 32⟩
abbrev R.GATE_RXQ_POP_GO : Field := ⟨17, 0x180, 4, 0, 1⟩
abbrev R.GATE_TX_POST : Field := ⟨17, 0x184, 4, 0, 32⟩
abbrev R.GATE_TX_POST_GO : Field := ⟨17, 0x184, 4, 0, 1⟩
abbrev R.GATE_TX_LAST_LO : Field := ⟨17, 0x188, 4, 0, 32⟩
abbrev R.GATE_TX_LAST_LO_STAMP : Field := ⟨17, 0x188, 4, 0, 32⟩
abbrev R.GATE_TX_LAST_HI : Field := ⟨17, 0x18C, 4, 0, 32⟩
abbrev R.GATE_TX_LAST_HI_V : Field := ⟨17, 0x18C, 4, 31, 1⟩
abbrev R.GATE_TX_LAST_HI_PORT : Field := ⟨17, 0x18C, 4, 16, 3⟩
abbrev R.GATE_TX_LAST_HI_STAMP : Field := ⟨17, 0x18C, 4, 0, 16⟩
abbrev R.GATE_TIME_LO : Field := ⟨17, 0x190, 4, 0, 32⟩
abbrev R.GATE_TIME_LO_CYCLES : Field := ⟨17, 0x190, 4, 0, 32⟩
abbrev R.GATE_TIME_HI : Field := ⟨17, 0x194, 4, 0, 32⟩
abbrev R.GATE_TIME_HI_CYCLES : Field := ⟨17, 0x194, 4, 0, 16⟩
abbrev R.GATE_CNT_SEL : Field := ⟨17, 0x198, 4, 0, 32⟩
abbrev R.GATE_CNT_SEL_PORT : Field := ⟨17, 0x198, 4, 8, 3⟩
abbrev R.GATE_CNT_SEL_CODE : Field := ⟨17, 0x198, 4, 0, 5⟩
abbrev R.GATE_CNT_VAL : Field := ⟨17, 0x19C, 4, 0, 32⟩
abbrev R.GATE_CNT_VAL_COUNT : Field := ⟨17, 0x19C, 4, 0, 32⟩
abbrev R.GATE_CNT_SNAP : Field := ⟨17, 0x1A0, 4, 0, 32⟩
abbrev R.GATE_CNT_SNAP_CAPTURE : Field := ⟨17, 0x1A0, 4, 0, 1⟩
abbrev R.GATE_CNT_STAT : Field := ⟨17, 0x1A4, 4, 0, 32⟩
abbrev R.GATE_CNT_STAT_INVALID : Field := ⟨17, 0x1A4, 4, 0, 1⟩
abbrev R.GATE_HOLD : Field := ⟨17, 0x1A8, 4, 0, 32⟩
abbrev R.GATE_HOLD_PEAK : Field := ⟨17, 0x1A8, 4, 16, 10⟩
abbrev R.GATE_HOLD_OCC : Field := ⟨17, 0x1A8, 4, 0, 10⟩
abbrev R.GATE_RXQ_OCC : Field := ⟨17, 0x1AC, 4, 0, 32⟩
abbrev R.GATE_RXQ_OCC_Q1 : Field := ⟨17, 0x1AC, 4, 16, 7⟩
abbrev R.GATE_RXQ_OCC_Q0 : Field := ⟨17, 0x1AC, 4, 0, 7⟩
abbrev R.GATE_CMD_CFG : Field := ⟨17, 0x1B0, 4, 0, 32⟩
abbrev R.GATE_CMD_CFG_FAILOVER : Field := ⟨17, 0x1B0, 4, 1, 1⟩
abbrev R.GATE_CMD_CFG_ENG : Field := ⟨17, 0x1B0, 4, 0, 1⟩
abbrev R.GATE_STAT_CFG : Field := ⟨17, 0x1B4, 4, 0, 32⟩
abbrev R.GATE_STAT_CFG_EN : Field := ⟨17, 0x1B4, 4, 31, 1⟩
abbrev R.GATE_STAT_CFG_PERIOD : Field := ⟨17, 0x1B4, 4, 0, 8⟩
abbrev R.GATE_STAT_ID : Field := ⟨17, 0x1B8, 4, 0, 32⟩
abbrev R.GATE_STAT_ID_ID : Field := ⟨17, 0x1B8, 4, 0, 32⟩
abbrev R.SIGT_CAP : Field := ⟨18, 0x004, 4, 0, 32⟩
abbrev R.SIGT_CAP_ENTRIES_M1 : Field := ⟨18, 0x004, 4, 16, 16⟩
abbrev R.SIGT_CAP_DESCS_M1 : Field := ⟨18, 0x004, 4, 0, 16⟩
abbrev R.SIGT_EVT : Field := ⟨18, 0x010, 4, 0, 32⟩
abbrev R.SIGT_EVT_UE : Field := ⟨18, 0x010, 4, 3, 1⟩
abbrev R.SIGT_EVT_CE : Field := ⟨18, 0x010, 4, 2, 1⟩
abbrev R.SIGT_EVT_SHORT : Field := ⟨18, 0x010, 4, 1, 1⟩
abbrev R.SIGT_EVT_TIMEOUT : Field := ⟨18, 0x010, 4, 0, 1⟩
abbrev R.SIGT_CFG_IDX : Field := ⟨18, 0x040, 4, 0, 32⟩
abbrev R.SIGT_CFG_IDX_ENTRY : Field := ⟨18, 0x040, 4, 0, 16⟩
abbrev R.SIGT_CFG_W : Field := ⟨18, 0x044, 4, 0, 32⟩
abbrev R.SIGT_CFG_W_WORD : Field := ⟨18, 0x044, 4, 0, 32⟩
abbrev R.SIGT_DESC_IDX : Field := ⟨18, 0x054, 4, 0, 32⟩
abbrev R.SIGT_DESC_IDX_DESC : Field := ⟨18, 0x054, 4, 0, 14⟩
abbrev R.SIGT_DESC_W : Field := ⟨18, 0x058, 4, 0, 32⟩
abbrev R.SIGT_DESC_W_WORD : Field := ⟨18, 0x058, 4, 0, 32⟩
abbrev R.SIGT_INJ_ENTRY : Field := ⟨18, 0x068, 4, 0, 32⟩
abbrev R.SIGT_INJ_ENTRY_ENTRY : Field := ⟨18, 0x068, 4, 0, 16⟩
abbrev R.SIGT_INJ_LO : Field := ⟨18, 0x06C, 4, 0, 32⟩
abbrev R.SIGT_INJ_LO_VALUE : Field := ⟨18, 0x06C, 4, 0, 32⟩
abbrev R.SIGT_INJ_HI : Field := ⟨18, 0x070, 4, 0, 32⟩
abbrev R.SIGT_INJ_HI_VALUE : Field := ⟨18, 0x070, 4, 0, 32⟩
abbrev R.SIGT_TB_PEND : Field := ⟨18, 0x074, 4, 0, 32⟩
abbrev R.SIGT_TB_PEND_VALUE : Field := ⟨18, 0x074, 4, 0, 32⟩
abbrev R.SIGT_WRITES : Field := ⟨18, 0x078, 4, 0, 32⟩
abbrev R.SIGT_WRITES_VALUE : Field := ⟨18, 0x078, 4, 0, 32⟩
abbrev R.SIGT_TIMEOUTS : Field := ⟨18, 0x07C, 4, 0, 32⟩
abbrev R.SIGT_TIMEOUTS_VALUE : Field := ⟨18, 0x07C, 4, 0, 32⟩
abbrev R.SIGT_SHORT : Field := ⟨18, 0x080, 4, 0, 32⟩
abbrev R.SIGT_SHORT_VALUE : Field := ⟨18, 0x080, 4, 0, 32⟩
abbrev R.SIGT_CE : Field := ⟨18, 0x084, 4, 0, 32⟩
abbrev R.SIGT_CE_VALUE : Field := ⟨18, 0x084, 4, 0, 32⟩
abbrev R.SIGT_UE : Field := ⟨18, 0x088, 4, 0, 32⟩
abbrev R.SIGT_UE_VALUE : Field := ⟨18, 0x088, 4, 0, 32⟩
abbrev R.SIGT_UE_ENTRY : Field := ⟨18, 0x08C, 4, 0, 32⟩
abbrev R.SIGT_UE_ENTRY_VALUE : Field := ⟨18, 0x08C, 4, 0, 32⟩

/-! Registers of 17_latch_security.md -/

abbrev R.LTCH_EVT : Field := ⟨20, 0x010, 4, 0, 32⟩
abbrev R.LTCH_EVT_FAULT : Field := ⟨20, 0x010, 4, 5, 1⟩
abbrev R.LTCH_EVT_JOURNAL_FAIL : Field := ⟨20, 0x010, 4, 4, 1⟩
abbrev R.LTCH_EVT_DBG_FAIL : Field := ⟨20, 0x010, 4, 3, 1⟩
abbrev R.LTCH_EVT_IMG_FAIL : Field := ⟨20, 0x010, 4, 2, 1⟩
abbrev R.LTCH_EVT_CMD_FAIL : Field := ⟨20, 0x010, 4, 1, 1⟩
abbrev R.LTCH_EVT_CMD_OK : Field := ⟨20, 0x010, 4, 0, 1⟩
abbrev R.LTCH_DEVICE_ID_LO : Field := ⟨20, 0x040, 4, 0, 32⟩
abbrev R.LTCH_DEVICE_ID_LO_ID : Field := ⟨20, 0x040, 4, 0, 32⟩
abbrev R.LTCH_DEVICE_ID_HI : Field := ⟨20, 0x044, 4, 0, 32⟩
abbrev R.LTCH_DEVICE_ID_HI_ID : Field := ⟨20, 0x044, 4, 0, 32⟩
abbrev R.LTCH_LIFECYCLE : Field := ⟨20, 0x048, 4, 0, 32⟩
abbrev R.LTCH_LIFECYCLE_STATE : Field := ⟨20, 0x048, 4, 0, 3⟩
abbrev R.LTCH_SLOT_IDX : Field := ⟨20, 0x04C, 4, 0, 32⟩
abbrev R.LTCH_SLOT_IDX_SLOT : Field := ⟨20, 0x04C, 4, 0, 5⟩
abbrev R.LTCH_SLOT_STAT : Field := ⟨20, 0x050, 4, 0, 32⟩
abbrev R.LTCH_SLOT_STAT_REVOKED : Field := ⟨20, 0x050, 4, 9, 1⟩
abbrev R.LTCH_SLOT_STAT_PROGRAMMED : Field := ⟨20, 0x050, 4, 8, 1⟩
abbrev R.LTCH_SLOT_STAT_USE : Field := ⟨20, 0x050, 4, 0, 8⟩
abbrev R.LTCH_CTR_LO : Field := ⟨20, 0x054, 4, 0, 32⟩
abbrev R.LTCH_CTR_LO_CTR : Field := ⟨20, 0x054, 4, 0, 32⟩
abbrev R.LTCH_CTR_HI : Field := ⟨20, 0x058, 4, 0, 32⟩
abbrev R.LTCH_CTR_HI_CTR : Field := ⟨20, 0x058, 4, 0, 32⟩
abbrev R.LTCH_LAST_CMD : Field := ⟨20, 0x05C, 4, 0, 32⟩
abbrev R.LTCH_LAST_CMD_CODE : Field := ⟨20, 0x05C, 4, 24, 8⟩
abbrev R.LTCH_LAST_CMD_SLOT : Field := ⟨20, 0x05C, 4, 16, 8⟩
abbrev R.LTCH_LAST_CMD_STATUS : Field := ⟨20, 0x05C, 4, 8, 8⟩
abbrev R.LTCH_LAST_CMD_GATE : Field := ⟨20, 0x05C, 4, 0, 1⟩
abbrev R.LTCH_CMD_COUNT : Field := ⟨20, 0x060, 4, 0, 32⟩
abbrev R.LTCH_CMD_COUNT_FAILED : Field := ⟨20, 0x060, 4, 16, 16⟩
abbrev R.LTCH_CMD_COUNT_DONE : Field := ⟨20, 0x060, 4, 0, 16⟩
abbrev R.LTCH_NONCE_LO : Field := ⟨20, 0x064, 4, 0, 32⟩
abbrev R.LTCH_NONCE_LO_NONCE : Field := ⟨20, 0x064, 4, 0, 32⟩
abbrev R.LTCH_NONCE_HI : Field := ⟨20, 0x068, 4, 0, 32⟩
abbrev R.LTCH_NONCE_HI_NONCE : Field := ⟨20, 0x068, 4, 0, 32⟩
abbrev R.LTCH_DBG : Field := ⟨20, 0x06C, 4, 0, 32⟩
abbrev R.LTCH_DBG_GO : Field := ⟨20, 0x06C, 4, 31, 1⟩
abbrev R.LTCH_DBG_LOCKED : Field := ⟨20, 0x06C, 4, 30, 1⟩
abbrev R.LTCH_DBG_FAILS : Field := ⟨20, 0x06C, 4, 10, 2⟩
abbrev R.LTCH_DBG_REQ : Field := ⟨20, 0x06C, 4, 8, 2⟩
abbrev R.LTCH_DBG_CEIL : Field := ⟨20, 0x06C, 4, 2, 2⟩
abbrev R.LTCH_DBG_LEVEL : Field := ⟨20, 0x06C, 4, 0, 2⟩
abbrev R.LTCH_DBG_CHAL : Field := ⟨20, 0x070, 4, 0, 32⟩
abbrev R.LTCH_DBG_CHAL_BYTES : Field := ⟨20, 0x070, 4, 0, 32⟩
abbrev R.LTCH_DBG_RESP : Field := ⟨20, 0x080, 4, 0, 32⟩
abbrev R.LTCH_DBG_RESP_BYTES : Field := ⟨20, 0x080, 4, 0, 32⟩
abbrev R.LTCH_IMG_RESULT : Field := ⟨20, 0x090, 4, 0, 32⟩
abbrev R.LTCH_IMG_RESULT_KIND : Field := ⟨20, 0x090, 4, 24, 8⟩
abbrev R.LTCH_IMG_RESULT_STEP : Field := ⟨20, 0x090, 4, 0, 4⟩
abbrev R.LTCH_JOURNAL : Field := ⟨20, 0x094, 4, 0, 32⟩
abbrev R.LTCH_JOURNAL_SECTOR : Field := ⟨20, 0x094, 4, 31, 1⟩
abbrev R.LTCH_JOURNAL_ENTRIES : Field := ⟨20, 0x094, 4, 0, 9⟩
abbrev R.LTCH_SVN : Field := ⟨20, 0x098, 4, 0, 32⟩
abbrev R.LTCH_SVN_FLOOR : Field := ⟨20, 0x098, 4, 0, 7⟩
abbrev R.HTCH_EVT : Field := ⟨19, 0x010, 4, 0, 32⟩
abbrev R.HTCH_EVT_ABANDONED : Field := ⟨19, 0x010, 4, 2, 1⟩
abbrev R.HTCH_EVT_FORMAT : Field := ⟨19, 0x010, 4, 1, 1⟩
abbrev R.HTCH_EVT_CRC_BAD : Field := ⟨19, 0x010, 4, 0, 1⟩
abbrev R.HTCH_CFG : Field := ⟨19, 0x040, 4, 0, 32⟩
abbrev R.HTCH_CFG_QUAD : Field := ⟨19, 0x040, 4, 0, 1⟩
abbrev R.HTCH_IRQ_SRC : Field := ⟨19, 0x044, 4, 0, 32⟩
abbrev R.HTCH_IRQ_SRC_EN : Field := ⟨19, 0x044, 4, 31, 1⟩
abbrev R.HTCH_IRQ_SRC_TYPE : Field := ⟨19, 0x044, 4, 8, 8⟩
abbrev R.HTCH_IRQ_SRC_INSTANCE : Field := ⟨19, 0x044, 4, 0, 8⟩
abbrev R.HTCH_IRQ_PEND : Field := ⟨19, 0x064, 4, 0, 32⟩
abbrev R.HTCH_IRQ_PEND_SRC : Field := ⟨19, 0x064, 4, 0, 8⟩
abbrev R.HTCH_CRC_ERR : Field := ⟨19, 0x068, 4, 0, 32⟩
abbrev R.HTCH_CRC_ERR_COUNT : Field := ⟨19, 0x068, 4, 0, 32⟩
abbrev R.HTCH_ABANDONED : Field := ⟨19, 0x06C, 4, 0, 32⟩
abbrev R.HTCH_ABANDONED_COUNT : Field := ⟨19, 0x06C, 4, 0, 32⟩

/-! Registers of 18_hinge_fabric.md -/

abbrev R.HNGE_CAP : Field := ⟨21, 0x004, 4, 0, 32⟩
abbrev R.HNGE_CAP_BAYS : Field := ⟨21, 0x004, 4, 16, 16⟩
abbrev R.HNGE_CAP_PINS : Field := ⟨21, 0x004, 4, 8, 8⟩
abbrev R.HNGE_CAP_HSP : Field := ⟨21, 0x004, 4, 4, 4⟩
abbrev R.HNGE_CAP_GCLK : Field := ⟨21, 0x004, 4, 0, 4⟩
abbrev R.HNGE_EVT : Field := ⟨21, 0x010, 4, 0, 32⟩
abbrev R.HNGE_EVT_HSP : Field := ⟨21, 0x010, 4, 11, 8⟩
abbrev R.HNGE_EVT_CAPTURED : Field := ⟨21, 0x010, 4, 10, 1⟩
abbrev R.HNGE_EVT_FLASH_UE : Field := ⟨21, 0x010, 4, 9, 1⟩
abbrev R.HNGE_EVT_FLASH_CE : Field := ⟨21, 0x010, 4, 8, 1⟩
abbrev R.HNGE_EVT_FLASH_FAIL : Field := ⟨21, 0x010, 4, 7, 1⟩
abbrev R.HNGE_EVT_FLASH_DONE : Field := ⟨21, 0x010, 4, 6, 1⟩
abbrev R.HNGE_EVT_SCRUB_REPAIR : Field := ⟨21, 0x010, 4, 5, 1⟩
abbrev R.HNGE_EVT_SCRUB_MISMATCH : Field := ⟨21, 0x010, 4, 4, 1⟩
abbrev R.HNGE_EVT_PARKED : Field := ⟨21, 0x010, 4, 3, 1⟩
abbrev R.HNGE_EVT_LOAD_ALT : Field := ⟨21, 0x010, 4, 2, 1⟩
abbrev R.HNGE_EVT_LOAD_FAIL : Field := ⟨21, 0x010, 4, 1, 1⟩
abbrev R.HNGE_EVT_RELEASED : Field := ⟨21, 0x010, 4, 0, 1⟩
abbrev R.HNGE_FAB_STATE : Field := ⟨21, 0x040, 4, 0, 32⟩
abbrev R.HNGE_FAB_STATE_OFFSET : Field := ⟨21, 0x040, 4, 9, 23⟩
abbrev R.HNGE_FAB_STATE_PARK_VALID : Field := ⟨21, 0x040, 4, 5, 1⟩
abbrev R.HNGE_FAB_STATE_COPY : Field := ⟨21, 0x040, 4, 4, 1⟩
abbrev R.HNGE_FAB_STATE_STATE : Field := ⟨21, 0x040, 4, 0, 3⟩
abbrev R.HNGE_FAB_CTL : Field := ⟨21, 0x044, 4, 0, 32⟩
abbrev R.HNGE_FAB_CTL_PARK : Field := ⟨21, 0x044, 4, 0, 1⟩
abbrev R.HNGE_BS_ALT : Field := ⟨21, 0x048, 4, 0, 32⟩
abbrev R.HNGE_BS_ALT_EN : Field := ⟨21, 0x048, 4, 31, 1⟩
abbrev R.HNGE_BS_ALT_OFFSET : Field := ⟨21, 0x048, 4, 0, 23⟩
abbrev R.HNGE_LOAD_STAT : Field := ⟨21, 0x04C, 4, 0, 32⟩
abbrev R.HNGE_LOAD_STAT_FIRST_FRAME : Field := ⟨21, 0x04C, 4, 16, 16⟩
abbrev R.HNGE_LOAD_STAT_A_ERR : Field := ⟨21, 0x04C, 4, 8, 8⟩
abbrev R.HNGE_LOAD_STAT_B_ERR : Field := ⟨21, 0x04C, 4, 0, 8⟩
abbrev R.HNGE_DESIGN : Field := ⟨21, 0x050, 4, 0, 32⟩
abbrev R.HNGE_DESIGN_VALUE : Field := ⟨21, 0x050, 4, 0, 32⟩
abbrev R.HNGE_USER_VER : Field := ⟨21, 0x054, 4, 0, 32⟩
abbrev R.HNGE_USER_VER_VALUE : Field := ⟨21, 0x054, 4, 0, 32⟩
abbrev R.HNGE_SCRUB_CFG : Field := ⟨21, 0x058, 4, 0, 32⟩
abbrev R.HNGE_SCRUB_CFG_EN : Field := ⟨21, 0x058, 4, 2, 1⟩
abbrev R.HNGE_SCRUB_CFG_ACTION : Field := ⟨21, 0x058, 4, 0, 2⟩
abbrev R.HNGE_SCRUB_STAT : Field := ⟨21, 0x05C, 4, 0, 32⟩
abbrev R.HNGE_SCRUB_STAT_MISMATCHES : Field := ⟨21, 0x05C, 4, 20, 12⟩
abbrev R.HNGE_SCRUB_STAT_LAST_FRAME : Field := ⟨21, 0x05C, 4, 0, 13⟩
abbrev R.HNGE_OSC_CTL : Field := ⟨21, 0x060, 4, 0, 32⟩
abbrev R.HNGE_OSC_CTL_D_BYPASS : Field := ⟨21, 0x060, 4, 4, 1⟩
abbrev R.HNGE_OSC_CTL_D_EN : Field := ⟨21, 0x060, 4, 3, 1⟩
abbrev R.HNGE_OSC_CTL_C_EN : Field := ⟨21, 0x060, 4, 2, 1⟩
abbrev R.HNGE_OSC_CTL_B_EN : Field := ⟨21, 0x060, 4, 1, 1⟩
abbrev R.HNGE_OSC_CTL_A_EN : Field := ⟨21, 0x060, 4, 0, 1⟩
abbrev R.HNGE_OSC_STAT : Field := ⟨21, 0x064, 4, 0, 32⟩
abbrev R.HNGE_OSC_STAT_RUN : Field := ⟨21, 0x064, 4, 0, 4⟩
abbrev R.HNGE_RTC_LO : Field := ⟨21, 0x068, 4, 0, 32⟩
abbrev R.HNGE_RTC_LO_COUNT : Field := ⟨21, 0x068, 4, 0, 32⟩
abbrev R.HNGE_RTC_HI : Field := ⟨21, 0x06C, 4, 0, 32⟩
abbrev R.HNGE_RTC_HI_COUNT : Field := ⟨21, 0x06C, 4, 0, 16⟩
abbrev R.HNGE_FLASH_STAT : Field := ⟨21, 0x070, 4, 0, 32⟩
abbrev R.HNGE_FLASH_STAT_BUSY : Field := ⟨21, 0x070, 4, 31, 1⟩
abbrev R.HNGE_FLASH_STAT_OP : Field := ⟨21, 0x070, 4, 28, 3⟩
abbrev R.HNGE_FLASH_STAT_SUSPENDED : Field := ⟨21, 0x070, 4, 27, 1⟩
abbrev R.HNGE_FLASH_STAT_SECTOR : Field := ⟨21, 0x070, 4, 0, 11⟩
abbrev R.HNGE_FLASH_CE : Field := ⟨21, 0x074, 4, 0, 32⟩
abbrev R.HNGE_FLASH_CE_COUNT : Field := ⟨21, 0x074, 4, 0, 32⟩
abbrev R.HNGE_FLASH_UE : Field := ⟨21, 0x078, 4, 0, 32⟩
abbrev R.HNGE_FLASH_UE_COUNT : Field := ⟨21, 0x078, 4, 0, 32⟩
abbrev R.HNGE_FLASH_ERASES : Field := ⟨21, 0x07C, 4, 0, 32⟩
abbrev R.HNGE_FLASH_ERASES_COUNT : Field := ⟨21, 0x07C, 4, 0, 32⟩
abbrev R.HNGE_CAP_CTL : Field := ⟨21, 0x080, 4, 0, 32⟩
abbrev R.HNGE_CAP_CTL_CAPTURE : Field := ⟨21, 0x080, 4, 0, 1⟩
abbrev R.HNGE_CAP_IDX : Field := ⟨21, 0x084, 4, 0, 32⟩
abbrev R.HNGE_CAP_IDX_BAY : Field := ⟨21, 0x084, 4, 0, 12⟩
abbrev R.HNGE_CAP_DATA : Field := ⟨21, 0x088, 4, 0, 32⟩
abbrev R.HNGE_CAP_DATA_VALID : Field := ⟨21, 0x088, 4, 31, 1⟩
abbrev R.HNGE_CAP_DATA_FF : Field := ⟨21, 0x088, 4, 0, 8⟩
abbrev R.HNGE_UIN : Field := ⟨21, 0x100, 4, 0, 32⟩
abbrev R.HNGE_UIN_BITS : Field := ⟨21, 0x100, 4, 0, 32⟩
abbrev R.HNGE_UOUT : Field := ⟨21, 0x140, 4, 0, 32⟩
abbrev R.HNGE_UOUT_BITS : Field := ⟨21, 0x140, 4, 0, 32⟩
abbrev R.HSP_CFG : Field := ⟨21, 0x200, 32, 0, 32⟩
abbrev R.HSP_CFG_EN : Field := ⟨21, 0x200, 32, 31, 1⟩
abbrev R.HSP_CFG_MODE : Field := ⟨21, 0x200, 32, 28, 3⟩
abbrev R.HSP_CFG_CPOL : Field := ⟨21, 0x200, 32, 25, 1⟩
abbrev R.HSP_CFG_CPHA : Field := ⟨21, 0x200, 32, 24, 1⟩
abbrev R.HSP_CFG_PAR_EN : Field := ⟨21, 0x200, 32, 23, 1⟩
abbrev R.HSP_CFG_PAR_ODD : Field := ⟨21, 0x200, 32, 22, 1⟩
abbrev R.HSP_CFG_STOP2 : Field := ⟨21, 0x200, 32, 21, 1⟩
abbrev R.HSP_CFG_I2C_ADDR : Field := ⟨21, 0x200, 32, 14, 7⟩
abbrev R.HSP_BAUD : Field := ⟨21, 0x204, 32, 0, 32⟩
abbrev R.HSP_BAUD_MEASURED : Field := ⟨21, 0x204, 32, 16, 16⟩
abbrev R.HSP_BAUD_DIV_M1 : Field := ⟨21, 0x204, 32, 0, 16⟩
abbrev R.HSP_STAT : Field := ⟨21, 0x208, 32, 0, 32⟩
abbrev R.HSP_STAT_TX_LEVEL : Field := ⟨21, 0x208, 32, 16, 5⟩
abbrev R.HSP_STAT_RX_LEVEL : Field := ⟨21, 0x208, 32, 8, 5⟩
abbrev R.HSP_STAT_BUSY : Field := ⟨21, 0x208, 32, 6, 1⟩
abbrev R.HSP_STAT_ARB_LOST : Field := ⟨21, 0x208, 32, 5, 1⟩
abbrev R.HSP_STAT_NACK : Field := ⟨21, 0x208, 32, 4, 1⟩
abbrev R.HSP_STAT_BREAK : Field := ⟨21, 0x208, 32, 3, 1⟩
abbrev R.HSP_STAT_OVERRUN : Field := ⟨21, 0x208, 32, 2, 1⟩
abbrev R.HSP_STAT_PARITY : Field := ⟨21, 0x208, 32, 1, 1⟩
abbrev R.HSP_STAT_FRAMING : Field := ⟨21, 0x208, 32, 0, 1⟩
abbrev R.HSP_TXD : Field := ⟨21, 0x20C, 32, 0, 32⟩
abbrev R.HSP_TXD_CTRL : Field := ⟨21, 0x20C, 32, 8, 1⟩
abbrev R.HSP_TXD_DATA : Field := ⟨21, 0x20C, 32, 0, 8⟩
abbrev R.HSP_RXD : Field := ⟨21, 0x210, 32, 0, 32⟩
abbrev R.HSP_RXD_VALID : Field := ⟨21, 0x210, 32, 31, 1⟩
abbrev R.HSP_RXD_BREAK : Field := ⟨21, 0x210, 32, 9, 1⟩
abbrev R.HSP_RXD_ERR : Field := ⟨21, 0x210, 32, 8, 1⟩
abbrev R.HSP_RXD_DATA : Field := ⟨21, 0x210, 32, 0, 8⟩
abbrev R.HSP_COUNT : Field := ⟨21, 0x214, 32, 0, 32⟩
abbrev R.HSP_COUNT_OVERRUNS : Field := ⟨21, 0x214, 32, 16, 16⟩
abbrev R.HSP_COUNT_RECEIVED : Field := ⟨21, 0x214, 32, 0, 16⟩

/-! Registers of 19_shutters_clocks_boot.md -/

abbrev R.SHUT_CAP : Field := ⟨22, 0x004, 4, 0, 32⟩
abbrev R.SHUT_CAP_CLOCKS : Field := ⟨22, 0x004, 4, 8, 8⟩
abbrev R.SHUT_CAP_DOMAINS : Field := ⟨22, 0x004, 4, 0, 8⟩
abbrev R.SHUT_EVT : Field := ⟨22, 0x010, 4, 0, 32⟩
abbrev R.SHUT_EVT_HWDG_EXPIRE : Field := ⟨22, 0x010, 4, 10, 1⟩
abbrev R.SHUT_EVT_HWDG_WARN : Field := ⟨22, 0x010, 4, 9, 1⟩
abbrev R.SHUT_EVT_MON_DISAGREE : Field := ⟨22, 0x010, 4, 8, 1⟩
abbrev R.SHUT_EVT_CLK_FAULT : Field := ⟨22, 0x010, 4, 7, 1⟩
abbrev R.SHUT_EVT_RAMP_FAIL : Field := ⟨22, 0x010, 4, 6, 1⟩
abbrev R.SHUT_EVT_SUPPLY_LOST : Field := ⟨22, 0x010, 4, 5, 1⟩
abbrev R.SHUT_EVT_TRAINED : Field := ⟨22, 0x010, 4, 4, 1⟩
abbrev R.SHUT_EVT_BOOT_FAIL : Field := ⟨22, 0x010, 4, 3, 1⟩
abbrev R.SHUT_EVT_BOOT_DONE : Field := ⟨22, 0x010, 4, 2, 1⟩
abbrev R.SHUT_EVT_PROFILE_DONE : Field := ⟨22, 0x010, 4, 1, 1⟩
abbrev R.SHUT_EVT_DOMAIN_DONE : Field := ⟨22, 0x010, 4, 0, 1⟩
abbrev R.SHUT_STATE_0 : Field := ⟨22, 0x040, 4, 0, 32⟩
abbrev R.SHUT_STATE_0_D : Field := ⟨22, 0x040, 4, 0, 32⟩
abbrev R.SHUT_STATE_1 : Field := ⟨22, 0x044, 4, 0, 32⟩
abbrev R.SHUT_STATE_1_D : Field := ⟨22, 0x044, 4, 0, 32⟩
abbrev R.SHUT_BUSY : Field := ⟨22, 0x048, 4, 0, 32⟩
abbrev R.SHUT_BUSY_DOMAINS : Field := ⟨22, 0x048, 4, 1, 29⟩
abbrev R.SHUT_PROFILE : Field := ⟨22, 0x04C, 4, 0, 32⟩
abbrev R.SHUT_PROFILE_DOMAIN : Field := ⟨22, 0x04C, 4, 8, 5⟩
abbrev R.SHUT_PROFILE_KIND : Field := ⟨22, 0x04C, 4, 0, 2⟩
abbrev R.SHUT_STAGGER : Field := ⟨22, 0x050, 4, 0, 32⟩
abbrev R.SHUT_STAGGER_TENTHS_MS : Field := ⟨22, 0x050, 4, 0, 7⟩
abbrev R.SHUT_SUPPLY : Field := ⟨22, 0x054, 4, 0, 32⟩
abbrev R.SHUT_SUPPLY_AO_LOW : Field := ⟨22, 0x054, 4, 2, 1⟩
abbrev R.SHUT_SUPPLY_BND_LOW : Field := ⟨22, 0x054, 4, 1, 1⟩
abbrev R.SHUT_SUPPLY_ARRAY_LOW : Field := ⟨22, 0x054, 4, 0, 1⟩
abbrev R.SHUT_RESET_CAUSE : Field := ⟨22, 0x058, 4, 0, 32⟩
abbrev R.SHUT_RESET_CAUSE_PIN : Field := ⟨22, 0x058, 4, 0, 1⟩
abbrev R.SHUT_BOOT_CFG : Field := ⟨22, 0x05C, 4, 0, 32⟩
abbrev R.SHUT_BOOT_CFG_SLOT : Field := ⟨22, 0x05C, 4, 24, 5⟩
abbrev R.SHUT_BOOT_CFG_OFFSET : Field := ⟨22, 0x05C, 4, 0, 23⟩
abbrev R.SHUT_BOOT_STAT : Field := ⟨22, 0x060, 4, 0, 32⟩
abbrev R.SHUT_BOOT_STAT_WARM : Field := ⟨22, 0x060, 4, 31, 1⟩
abbrev R.SHUT_BOOT_STAT_FAIL_STEP : Field := ⟨22, 0x060, 4, 24, 4⟩
abbrev R.SHUT_BOOT_STAT_STEP : Field := ⟨22, 0x060, 4, 20, 4⟩
abbrev R.SHUT_BOOT_STAT_CODE : Field := ⟨22, 0x060, 4, 0, 16⟩
abbrev R.SHUT_T_FIRST : Field := ⟨22, 0x064, 4, 0, 32⟩
abbrev R.SHUT_T_FIRST_MICROSECONDS : Field := ⟨22, 0x064, 4, 0, 32⟩
abbrev R.SHUT_T_FULL : Field := ⟨22, 0x068, 4, 0, 32⟩
abbrev R.SHUT_T_FULL_MICROSECONDS : Field := ⟨22, 0x068, 4, 0, 32⟩
abbrev R.SHUT_CLK_SEL : Field := ⟨22, 0x06C, 4, 0, 32⟩
abbrev R.SHUT_CLK_SEL_HINGE_SRC : Field := ⟨22, 0x06C, 4, 0, 1⟩
abbrev R.SHUT_CLK_STAT : Field := ⟨22, 0x070, 4, 0, 32⟩
abbrev R.SHUT_CLK_STAT_CLK : Field := ⟨22, 0x070, 4, 0, 18⟩
abbrev R.SHUT_CLK_FAULT : Field := ⟨22, 0x074, 4, 0, 32⟩
abbrev R.SHUT_CLK_FAULT_CLK : Field := ⟨22, 0x074, 4, 0, 18⟩
abbrev R.SHUT_CLK_IDX : Field := ⟨22, 0x078, 4, 0, 32⟩
abbrev R.SHUT_CLK_IDX_CLK : Field := ⟨22, 0x078, 4, 0, 5⟩
abbrev R.SHUT_CLK_FREQ : Field := ⟨22, 0x07C, 4, 0, 32⟩
abbrev R.SHUT_CLK_FREQ_KHZ : Field := ⟨22, 0x07C, 4, 0, 32⟩
abbrev R.SHUT_HWDG_CFG : Field := ⟨22, 0x080, 4, 0, 32⟩
abbrev R.SHUT_HWDG_CFG_EN : Field := ⟨22, 0x080, 4, 31, 1⟩
abbrev R.SHUT_HWDG_CFG_PERIOD_MS : Field := ⟨22, 0x080, 4, 0, 16⟩
abbrev R.SHUT_HWDG_KICK : Field := ⟨22, 0x084, 4, 0, 32⟩
abbrev R.SHUT_HWDG_KICK_KEY : Field := ⟨22, 0x084, 4, 0, 32⟩
abbrev R.SHUT_HWDG_COUNT : Field := ⟨22, 0x088, 4, 0, 32⟩
abbrev R.SHUT_HWDG_COUNT_MS : Field := ⟨22, 0x088, 4, 0, 16⟩

/-! Registers of 20_faults_and_guarantees.md -/

abbrev R.PORT_LOST_PANE : Field := ⟨11, 0x070, 4, 0, 32⟩
abbrev R.PORT_LOST_PANE_PANES : Field := ⟨11, 0x070, 4, 0, 16⟩
abbrev R.PORT_LOST_SLAT : Field := ⟨11, 0x074, 4, 0, 32⟩
abbrev R.PORT_LOST_SLAT_SLATS : Field := ⟨11, 0x074, 4, 0, 32⟩
abbrev R.PORT_LOST_DDR : Field := ⟨11, 0x084, 4, 0, 32⟩
abbrev R.PORT_LOST_DDR_HALTED : Field := ⟨11, 0x084, 4, 8, 1⟩
abbrev R.PORT_LOST_DDR_CHANNELS : Field := ⟨11, 0x084, 4, 0, 2⟩
abbrev R.PORT_LOST_CMD : Field := ⟨11, 0x088, 4, 0, 32⟩
abbrev R.PORT_LOST_CMD_SET : Field := ⟨11, 0x088, 4, 31, 1⟩
abbrev R.PORT_LOST_CMD_UNIT : Field := ⟨11, 0x088, 4, 0, 8⟩
abbrev R.PORT_TKO_LAST : Field := ⟨11, 0x08C, 4, 0, 32⟩
abbrev R.PORT_TKO_LAST_FROM : Field := ⟨11, 0x08C, 4, 24, 8⟩
abbrev R.PORT_TKO_LAST_TO : Field := ⟨11, 0x08C, 4, 16, 8⟩
abbrev R.PORT_TKO_LAST_CAUSE : Field := ⟨11, 0x08C, 4, 8, 8⟩
abbrev R.PORT_TKO_COUNT : Field := ⟨11, 0x090, 4, 0, 32⟩
abbrev R.PORT_TKO_COUNT_COUNT : Field := ⟨11, 0x090, 4, 0, 32⟩
abbrev R.DBG_FLT_ACTIVE : Field := ⟨24, 0x800, 4, 0, 32⟩
abbrev R.DBG_FLT_ACTIVE_TT_PIN : Field := ⟨24, 0x800, 4, 9, 1⟩
abbrev R.DBG_FLT_ACTIVE_PIN : Field := ⟨24, 0x800, 4, 8, 1⟩
abbrev R.DBG_FLT_ACTIVE_CLASS : Field := ⟨24, 0x800, 4, 0, 6⟩
abbrev R.DBG_FLT_LATCH : Field := ⟨24, 0x804, 4, 0, 32⟩
abbrev R.DBG_FLT_LATCH_CLASS : Field := ⟨24, 0x804, 4, 0, 6⟩
abbrev R.DBG_FLT_PIN_EN : Field := ⟨24, 0x808, 4, 0, 32⟩
abbrev R.DBG_FLT_PIN_EN_DEVICE : Field := ⟨24, 0x808, 4, 5, 1⟩
abbrev R.DBG_FLT_PIN_EN_TELLTALE : Field := ⟨24, 0x808, 4, 4, 1⟩
abbrev R.DBG_FLT_PIN_EN_ARRAY : Field := ⟨24, 0x808, 4, 3, 1⟩
abbrev R.DBG_FLT_PIN_EN_UNIT : Field := ⟨24, 0x808, 4, 2, 1⟩
abbrev R.DBG_FLT_PIN_EN_HOLD_ESC : Field := ⟨24, 0x808, 4, 1, 1⟩
abbrev R.DBG_FLT_PIN_EN_HOLD : Field := ⟨24, 0x808, 4, 0, 1⟩
abbrev R.DBG_FLT_ESC : Field := ⟨24, 0x80C, 4, 0, 32⟩
abbrev R.DBG_FLT_ESC_HOLD_LIMIT : Field := ⟨24, 0x80C, 4, 0, 8⟩
abbrev R.DBG_FLT_COUNT : Field := ⟨24, 0x810, 4, 0, 32⟩
abbrev R.DBG_FLT_COUNT_COUNT : Field := ⟨24, 0x810, 4, 0, 32⟩
abbrev R.DBG_FLT_WP : Field := ⟨24, 0x828, 4, 0, 32⟩
abbrev R.DBG_FLT_WP_COUNT : Field := ⟨24, 0x828, 4, 0, 32⟩
abbrev R.DBG_FLT_INVALID_LO : Field := ⟨24, 0x82C, 4, 0, 32⟩
abbrev R.DBG_FLT_INVALID_LO_TRLH : Field := ⟨24, 0x82C, 4, 0, 32⟩
abbrev R.DBG_FLT_INVALID_HI : Field := ⟨24, 0x830, 4, 0, 32⟩
abbrev R.DBG_FLT_INVALID_HI_TRLH : Field := ⟨24, 0x830, 4, 0, 8⟩
abbrev R.DBG_FLT_LOG : Field := ⟨24, 0xA00, 4, 0, 32⟩
abbrev R.DBG_FLT_LOG_WORD : Field := ⟨24, 0xA00, 4, 0, 32⟩

/-! Registers of 21_debug.md -/

abbrev R.DBG_CAP : Field := ⟨24, 0x004, 4, 0, 32⟩
abbrev R.DBG_CAP_VT_DEPTH : Field := ⟨24, 0x004, 4, 8, 8⟩
abbrev R.DBG_CAP_IR_LEN : Field := ⟨24, 0x004, 4, 0, 8⟩
abbrev R.DBG_EVT : Field := ⟨24, 0x010, 4, 0, 32⟩
abbrev R.DBG_EVT_VT_OUT : Field := ⟨24, 0x010, 4, 5, 1⟩
abbrev R.DBG_EVT_MISS : Field := ⟨24, 0x010, 4, 4, 1⟩
abbrev R.DBG_EVT_DENIED : Field := ⟨24, 0x010, 4, 3, 1⟩
abbrev R.DBG_EVT_HALT_REFUSED : Field := ⟨24, 0x010, 4, 2, 1⟩
abbrev R.DBG_EVT_RELEASED : Field := ⟨24, 0x010, 4, 1, 1⟩
abbrev R.DBG_EVT_HALTED : Field := ⟨24, 0x010, 4, 0, 1⟩
abbrev R.DBG_VT_OUT : Field := ⟨24, 0x040, 4, 0, 32⟩
abbrev R.DBG_VT_OUT_V : Field := ⟨24, 0x040, 4, 31, 1⟩
abbrev R.DBG_VT_OUT_DATA : Field := ⟨24, 0x040, 4, 0, 8⟩
abbrev R.DBG_VT_IN : Field := ⟨24, 0x044, 4, 0, 32⟩
abbrev R.DBG_VT_IN_V : Field := ⟨24, 0x044, 4, 31, 1⟩
abbrev R.DBG_VT_IN_DATA : Field := ⟨24, 0x044, 4, 0, 8⟩
abbrev R.DBG_ENG_SEL : Field := ⟨24, 0x048, 4, 0, 32⟩
abbrev R.DBG_ENG_SEL_TYPE : Field := ⟨24, 0x048, 4, 8, 8⟩
abbrev R.DBG_ENG_SEL_INSTANCE : Field := ⟨24, 0x048, 4, 0, 8⟩
abbrev R.DBG_RUN_CTL : Field := ⟨24, 0x04C, 4, 0, 32⟩
abbrev R.DBG_RUN_CTL_BRK_OFF : Field := ⟨24, 0x04C, 4, 5, 1⟩
abbrev R.DBG_RUN_CTL_BRK_ON : Field := ⟨24, 0x04C, 4, 4, 1⟩
abbrev R.DBG_RUN_CTL_MASK_IRQ : Field := ⟨24, 0x04C, 4, 3, 1⟩
abbrev R.DBG_RUN_CTL_STEP : Field := ⟨24, 0x04C, 4, 2, 1⟩
abbrev R.DBG_RUN_CTL_RELEASE : Field := ⟨24, 0x04C, 4, 1, 1⟩
abbrev R.DBG_RUN_CTL_HALT : Field := ⟨24, 0x04C, 4, 0, 1⟩
abbrev R.DBG_RUN_STAT : Field := ⟨24, 0x050, 4, 0, 32⟩
abbrev R.DBG_RUN_STAT_REFUSED : Field := ⟨24, 0x050, 4, 16, 4⟩
abbrev R.DBG_RUN_STAT_CAUSE : Field := ⟨24, 0x050, 4, 8, 4⟩
abbrev R.DBG_RUN_STAT_BRK_HALT : Field := ⟨24, 0x050, 4, 4, 1⟩
abbrev R.DBG_RUN_STAT_GANG : Field := ⟨24, 0x050, 4, 3, 1⟩
abbrev R.DBG_RUN_STAT_HALT_PENDING : Field := ⟨24, 0x050, 4, 2, 1⟩
abbrev R.DBG_RUN_STAT_STATE : Field := ⟨24, 0x050, 4, 0, 2⟩
abbrev R.DBG_REG_IDX : Field := ⟨24, 0x054, 4, 0, 32⟩
abbrev R.DBG_REG_IDX_SPACE : Field := ⟨24, 0x054, 4, 8, 2⟩
abbrev R.DBG_REG_IDX_NUM : Field := ⟨24, 0x054, 4, 0, 8⟩
abbrev R.DBG_REG_DATA : Field := ⟨24, 0x058, 4, 0, 32⟩
abbrev R.DBG_REG_DATA_VALUE : Field := ⟨24, 0x058, 4, 0, 32⟩
abbrev R.DBG_VT_STAT : Field := ⟨24, 0x05C, 4, 0, 32⟩
abbrev R.DBG_VT_STAT_LOST : Field := ⟨24, 0x05C, 4, 16, 16⟩
abbrev R.DBG_VT_STAT_IN_LEVEL : Field := ⟨24, 0x05C, 4, 8, 5⟩
abbrev R.DBG_VT_STAT_OUT_LEVEL : Field := ⟨24, 0x05C, 4, 0, 5⟩
abbrev R.DBG_ALLOW : Field := ⟨24, 0x060, 4, 0, 32⟩
abbrev R.DBG_ALLOW_EN : Field := ⟨24, 0x060, 4, 31, 1⟩
abbrev R.DBG_ALLOW_GENG : Field := ⟨24, 0x060, 4, 30, 1⟩
abbrev R.DBG_ALLOW_ID : Field := ⟨24, 0x064, 4, 0, 32⟩
abbrev R.DBG_ALLOW_ID_ITIN_ID : Field := ⟨24, 0x064, 4, 0, 32⟩
abbrev R.DBG_DENIED : Field := ⟨24, 0x068, 4, 0, 32⟩
abbrev R.DBG_DENIED_COUNT : Field := ⟨24, 0x068, 4, 0, 32⟩
abbrev R.DBG_LEVEL : Field := ⟨24, 0x06C, 4, 0, 32⟩
abbrev R.DBG_LEVEL_LEVEL : Field := ⟨24, 0x06C, 4, 0, 2⟩
abbrev R.DBG_MISS : Field := ⟨24, 0x100, 4, 0, 32⟩
abbrev R.DBG_MISS_COUNT : Field := ⟨24, 0x100, 4, 0, 32⟩

/-! Registers of 06_hampers_and_reductions.md -/

abbrev R.PCTL_HIN_DROPS_LO : Field := ⟨2, 0x204, 4, 0, 32⟩
abbrev R.PCTL_HIN_DROPS_LO_COUNT : Field := ⟨2, 0x204, 4, 0, 32⟩
abbrev R.PCTL_HIN_DROPS_HI : Field := ⟨2, 0x208, 4, 0, 32⟩
abbrev R.PCTL_HIN_DROPS_HI_INVALID : Field := ⟨2, 0x208, 4, 31, 1⟩
abbrev R.PCTL_HIN_DROPS_HI_COUNT : Field := ⟨2, 0x208, 4, 0, 16⟩
abbrev R.PCTL_HIN_POPS_LO : Field := ⟨2, 0x20C, 4, 0, 32⟩
abbrev R.PCTL_HIN_POPS_LO_COUNT : Field := ⟨2, 0x20C, 4, 0, 32⟩
abbrev R.PCTL_HIN_POPS_HI : Field := ⟨2, 0x210, 4, 0, 32⟩
abbrev R.PCTL_HIN_POPS_HI_INVALID : Field := ⟨2, 0x210, 4, 31, 1⟩
abbrev R.PCTL_HIN_POPS_HI_COUNT : Field := ⟨2, 0x210, 4, 0, 16⟩
abbrev R.PCTL_HIN_FLUSH_LO : Field := ⟨2, 0x214, 4, 0, 32⟩
abbrev R.PCTL_HIN_FLUSH_LO_COUNT : Field := ⟨2, 0x214, 4, 0, 32⟩
abbrev R.PCTL_HIN_FLUSH_HI : Field := ⟨2, 0x218, 4, 0, 32⟩
abbrev R.PCTL_HIN_FLUSH_HI_INVALID : Field := ⟨2, 0x218, 4, 31, 1⟩
abbrev R.PCTL_HIN_FLUSH_HI_COUNT : Field := ⟨2, 0x218, 4, 0, 16⟩
abbrev R.PCTL_HOUT_PUSHES_LO : Field := ⟨2, 0x220, 4, 0, 32⟩
abbrev R.PCTL_HOUT_PUSHES_LO_COUNT : Field := ⟨2, 0x220, 4, 0, 32⟩
abbrev R.PCTL_HOUT_PUSHES_HI : Field := ⟨2, 0x224, 4, 0, 32⟩
abbrev R.PCTL_HOUT_PUSHES_HI_INVALID : Field := ⟨2, 0x224, 4, 31, 1⟩
abbrev R.PCTL_HOUT_PUSHES_HI_COUNT : Field := ⟨2, 0x224, 4, 0, 16⟩
abbrev R.PCTL_HOUT_LIFTS_LO : Field := ⟨2, 0x228, 4, 0, 32⟩
abbrev R.PCTL_HOUT_LIFTS_LO_COUNT : Field := ⟨2, 0x228, 4, 0, 32⟩
abbrev R.PCTL_HOUT_LIFTS_HI : Field := ⟨2, 0x22C, 4, 0, 32⟩
abbrev R.PCTL_HOUT_LIFTS_HI_INVALID : Field := ⟨2, 0x22C, 4, 31, 1⟩
abbrev R.PCTL_HOUT_LIFTS_HI_COUNT : Field := ⟨2, 0x22C, 4, 0, 16⟩
abbrev R.PCTL_HOUT_FLUSH_LO : Field := ⟨2, 0x230, 4, 0, 32⟩
abbrev R.PCTL_HOUT_FLUSH_LO_COUNT : Field := ⟨2, 0x230, 4, 0, 32⟩
abbrev R.PCTL_HOUT_FLUSH_HI : Field := ⟨2, 0x234, 4, 0, 32⟩
abbrev R.PCTL_HOUT_FLUSH_HI_INVALID : Field := ⟨2, 0x234, 4, 31, 1⟩
abbrev R.PCTL_HOUT_FLUSH_HI_COUNT : Field := ⟨2, 0x234, 4, 0, 16⟩

/-- A field of camera c's registers in LNTL_0: the registers of one camera are 0x20 from the next. -/
abbrev R.LNTL_CAM_BUF_VALID (c k : Nat) : Field := ⟨10, 0x200 + 0x20 * c + 4 * k, 4, 31, 1⟩
abbrev R.LNTL_CAM_BUF_ADDR (c k : Nat) : Field := ⟨10, 0x200 + 0x20 * c + 4 * k, 4, 0, 28⟩
abbrev R.LNTL_CAM_FMT_STRIDE_64 (c : Nat) : Field := ⟨10, 0x210 + 0x20 * c, 4, 16, 16⟩
abbrev R.LNTL_CAM_FMT_HEIGHT (c : Nat) : Field := ⟨10, 0x210 + 0x20 * c, 4, 0, 16⟩


/-- What the register tables say of one register or register array: its page offset, how many it is and their stride,
its reset value, and the bits that are RW, W1C, TB and SAFE; whether its heading line says "locked" (R36, R46). -/
structure RegInfo where
  off : Nat
  count : Nat
  stride : Nat
  reset : Nat
  rw : Nat
  w1c : Nat
  tb : Nat
  safe : Nat
  locked : Bool
  deriving DecidableEq, Repr

/-- The registers of the PANE page. -/
def regsPANE : List RegInfo :=
  [⟨0x004, 1, 4, 0x84B00, 0x0, 0x0, 0x0, 0x0, false⟩ /- PANE_CAP -/,
   ⟨0x010, 1, 4, 0x0, 0x0, 0x3FF, 0x0, 0x0, false⟩ /- PANE_EVT -/,
   ⟨0x040, 1, 4, 0x0, 0x0, 0x0, 0x0, 0x0, false⟩ /- PANE_MODE -/,
   ⟨0x044, 1, 4, 0x0, 0xF, 0x0, 0x0, 0x0, false⟩ /- PANE_EDGE_CFG -/,
   ⟨0x048, 4, 4, 0x0, 0x0, 0x0, 0xBFBF, 0x0, true⟩ /- PANE_STEER -/,
   ⟨0x058, 1, 4, 0x401, 0xFF01, 0x0, 0x0, 0x0, false⟩ /- PANE_STEER_CTL -/,
   ⟨0x05C, 1, 4, 0x0, 0x0, 0x0, 0x0, 0x0, false⟩ /- PANE_CE_COUNT -/,
   ⟨0x060, 1, 4, 0x0, 0x0, 0x0, 0x0, 0x0, false⟩ /- PANE_UE_COUNT -/,
   ⟨0x064, 1, 4, 0x0, 0x0, 0x0, 0x0, 0x0, false⟩ /- PANE_ERR_LOC -/,
   ⟨0x068, 1, 4, 0x0, 0x0, 0x0, 0x0, 0x0, false⟩ /- PANE_COL_FAULT -/,
   ⟨0x06C, 1, 4, 0x40, 0xFF, 0x0, 0x0, 0x0, false⟩ /- PANE_SCRUB -/,
   ⟨0x070, 1, 4, 0x0, 0x1, 0x0, 0x0, 0x0, false⟩ /- PANE_BIST_CTL -/,
   ⟨0x074, 1, 4, 0x0, 0x0, 0x0, 0x0, 0x0, false⟩ /- PANE_BIST_STAT -/,
   ⟨0x078, 1, 4, 0x0, 0x0, 0x0, 0x0, 0x0, false⟩ /- PANE_TWIN_STAT -/,
   ⟨0x07C, 1, 4, 0x0, 0x0, 0x0, 0x0, 0x0, false⟩ /- PANE_ACTIVE -/,
   ⟨0x100, 32, 4, 0x0, 0xFFFFFFFF, 0x0, 0x0, 0x0, false⟩ /- PANE_EDGE -/]

/-- The registers of the PCTL page. -/
def regsPCTL : List RegInfo :=
  [⟨0x200, 1, 4, 0x0, 0x0, 0x0, 0x0, 0x0, false⟩ /- PCTL_HAMP_SNAP -/,
   ⟨0x21C, 1, 4, 0x0, 0x0, 0x0, 0x0, 0x0, false⟩ /- PCTL_HIN_RESIDENT -/,
   ⟨0x238, 1, 4, 0x0, 0x0, 0x0, 0x0, 0x0, false⟩ /- PCTL_HOUT_RESIDENT -/,
   ⟨0x23C, 1, 4, 0x0, 0x0, 0x0, 0x0, 0x0, false⟩ /- PCTL_HAMP_WAIT_IN -/,
   ⟨0x240, 1, 4, 0x0, 0x0, 0x0, 0x0, 0x0, false⟩ /- PCTL_HAMP_WAIT_OUT -/,
   ⟨0x244, 1, 4, 0x0, 0x0, 0xC0000000, 0x0, 0x0, false⟩ /- PCTL_HAMP_FAULT -/,
   ⟨0x248, 1, 4, 0x0, 0x0, 0x0, 0x0, 0x0, false⟩ /- PCTL_RED_LAST -/,
   ⟨0x24C, 1, 4, 0x0, 0x0, 0x0, 0x0, 0x0, false⟩ /- PCTL_RED_COUNT -/,
   ⟨0x004, 1, 4, 0x20000FFF, 0x0, 0x0, 0x0, 0x0, false⟩ /- PCTL_CAP -/,
   ⟨0x010, 1, 4, 0x0, 0x0, 0x7F, 0x0, 0x0, false⟩ /- PCTL_EVT -/,
   ⟨0x040, 1, 4, 0x4, 0x0, 0x0, 0x0, 0x0, false⟩ /- PCTL_STATE -/,
   ⟨0x044, 1, 4, 0x0, 0x0, 0x0, 0x0, 0x0, false⟩ /- PCTL_TASK -/,
   ⟨0x048, 1, 4, 0x0, 0x0, 0x0, 0x0, 0x0, false⟩ /- PCTL_TASK_CYCLES -/,
   ⟨0x04C, 1, 4, 0x0, 0x0, 0x0, 0x0, 0x0, false⟩ /- PCTL_TASK_BUDGET -/,
   ⟨0x050, 1, 4, 0x0, 0x0, 0x0, 0x0, 0x0, false⟩ /- PCTL_OVERRUN -/,
   ⟨0x054, 1, 4, 0x0, 0x0, 0x0, 0x0, 0x0, false⟩ /- PCTL_SKIPPED -/,
   ⟨0x058, 1, 4, 0x0, 0x0, 0x0, 0x0, 0x0, false⟩ /- PCTL_MACRO_FAULT -/,
   ⟨0x05C, 1, 4, 0x0, 0x0, 0x0, 0x0, 0x0, false⟩ /- PCTL_MACROS -/,
   ⟨0x060, 1, 4, 0x0, 0x0, 0x0, 0x0, 0x0, false⟩ /- PCTL_PAD -/,
   ⟨0x064, 1, 4, 0x0, 0x0, 0x0, 0x0, 0x0, false⟩ /- PCTL_DISCARDS -/,
   ⟨0x068, 1, 4, 0x0, 0x0, 0x0, 0x0, 0x0, false⟩ /- PCTL_LARD_VER -/,
   ⟨0x070, 1, 4, 0x0, 0x0, 0x0, 0x0, 0x0, false⟩ /- PCTL_LARD_XVER -/,
   ⟨0x06C, 1, 4, 0x0, 0x0, 0x0, 0x0, 0x0, false⟩ /- PCTL_LARD_TAG -/,
   ⟨0x074, 1, 4, 0x0, 0x0, 0x0, 0x0, 0x0, false⟩ /- PCTL_LARD_XTAG -/,
   ⟨0x078, 1, 4, 0x0, 0x3FF, 0x0, 0x0, 0x0, false⟩ /- PCTL_OPT_IDX -/] ++
  [⟨0x07C, 1, 4, 0x0, 0x0, 0x0, 0x0, 0x0, false⟩ /- PCTL_OPT_LO -/,
   ⟨0x080, 1, 4, 0x0, 0x0, 0x0, 0x0, 0x0, false⟩ /- PCTL_OPT_HI -/,
   ⟨0x084, 1, 4, 0x0, 0x0, 0x0, 0x0, 0x0, false⟩ /- PCTL_PATCH_STAT -/,
   ⟨0x204, 1, 4, 0x0, 0x0, 0x0, 0x0, 0x0, false⟩ /- PCTL_HIN_DROPS_LO -/,
   ⟨0x208, 1, 4, 0x0, 0x0, 0x0, 0x0, 0x0, false⟩ /- PCTL_HIN_DROPS_HI -/,
   ⟨0x20C, 1, 4, 0x0, 0x0, 0x0, 0x0, 0x0, false⟩ /- PCTL_HIN_POPS_LO -/,
   ⟨0x210, 1, 4, 0x0, 0x0, 0x0, 0x0, 0x0, false⟩ /- PCTL_HIN_POPS_HI -/,
   ⟨0x214, 1, 4, 0x0, 0x0, 0x0, 0x0, 0x0, false⟩ /- PCTL_HIN_FLUSH_LO -/,
   ⟨0x218, 1, 4, 0x0, 0x0, 0x0, 0x0, 0x0, false⟩ /- PCTL_HIN_FLUSH_HI -/,
   ⟨0x220, 1, 4, 0x0, 0x0, 0x0, 0x0, 0x0, false⟩ /- PCTL_HOUT_PUSHES_LO -/,
   ⟨0x224, 1, 4, 0x0, 0x0, 0x0, 0x0, 0x0, false⟩ /- PCTL_HOUT_PUSHES_HI -/,
   ⟨0x228, 1, 4, 0x0, 0x0, 0x0, 0x0, 0x0, false⟩ /- PCTL_HOUT_LIFTS_LO -/,
   ⟨0x22C, 1, 4, 0x0, 0x0, 0x0, 0x0, 0x0, false⟩ /- PCTL_HOUT_LIFTS_HI -/,
   ⟨0x230, 1, 4, 0x0, 0x0, 0x0, 0x0, 0x0, false⟩ /- PCTL_HOUT_FLUSH_LO -/,
   ⟨0x234, 1, 4, 0x0, 0x0, 0x0, 0x0, 0x0, false⟩ /- PCTL_HOUT_FLUSH_HI -/]

/-- The registers of the PANT page. -/
def regsPANT : List RegInfo :=
  [⟨0x004, 1, 4, 0x810FFFF, 0x0, 0x0, 0x0, 0x0, false⟩ /- PANT_CAP -/,
   ⟨0x010, 1, 4, 0x0, 0x0, 0x3F, 0x0, 0x0, false⟩ /- PANT_EVT -/,
   ⟨0x040, 1, 4, 0xFF40, 0x0, 0x0, 0x0, 0x0, false⟩ /- PANT_OWNER -/,
   ⟨0x044, 1, 4, 0x40, 0xFF, 0x0, 0x0, 0x0, true⟩ /- PANT_OWNER_NEXT -/,
   ⟨0x048, 1, 4, 0x0, 0x0, 0x0, 0x0, 0x0, false⟩ /- PANT_CE_COUNT -/,
   ⟨0x04C, 1, 4, 0x0, 0x0, 0x0, 0x0, 0x0, false⟩ /- PANT_UE_COUNT -/,
   ⟨0x050, 1, 4, 0x0, 0x0, 0x0, 0x0, 0x0, false⟩ /- PANT_ERR_LOC -/,
   ⟨0x054, 1, 4, 0x0, 0x0, 0x0, 0x0, 0x0, false⟩ /- PANT_NOT_OWNER -/,
   ⟨0x058, 1, 4, 0x400, 0xFFF, 0x0, 0x0, 0x0, false⟩ /- PANT_SCRUB -/,
   ⟨0x05C, 1, 4, 0x0, 0x0, 0x0, 0x0, 0x0, false⟩ /- PANT_ACCESSES -/,
   ⟨0x060, 1, 4, 0x0, 0x0, 0x0, 0x0, 0x0, false⟩ /- PANT_CONFLICTS -/,
   ⟨0x064, 1, 4, 0x0, 0x0, 0x0, 0x0, 0x0, false⟩ /- PANT_HANDOVERS -/]

/-- The registers of the MRCH page. -/
def regsMRCH : List RegInfo :=
  [⟨0x010, 1, 4, 0x0, 0x0, 0x3, 0x0, 0x0, false⟩ /- MRCH_EVT -/,
   ⟨0x040, 1, 4, 0x4, 0x7, 0x0, 0x0, 0x0, false⟩ /- MRCH_CTL -/,
   ⟨0x044, 1, 4, 0xFFFFFFFF, 0xFFFFFFFF, 0x0, 0x0, 0x0, false⟩ /- MRCH_MASK_LO -/,
   ⟨0x048, 1, 4, 0xFFFFFFFF, 0xFFFFFFFF, 0x0, 0x0, 0x0, false⟩ /- MRCH_MASK_HI -/,
   ⟨0x04C, 1, 4, 0x0, 0x0, 0x0, 0x0, 0x0, false⟩ /- MRCH_STAT -/,
   ⟨0x050, 1, 4, 0x0, 0x0, 0x0, 0x0, 0x0, false⟩ /- MRCH_FAIL_LOC -/,
   ⟨0x054, 1, 4, 0x0, 0x0, 0x0, 0x0, 0x0, false⟩ /- MRCH_FAIL_LO -/,
   ⟨0x058, 1, 4, 0x0, 0x0, 0x0, 0x0, 0x0, false⟩ /- MRCH_FAIL_HI -/,
   ⟨0x05C, 1, 4, 0x0, 0x0, 0x0, 0x0, 0x0, false⟩ /- MRCH_FAIL_CHK -/,
   ⟨0x060, 1, 4, 0x0, 0x0, 0x0, 0x0, 0x0, false⟩ /- MRCH_FAILED_LO -/,
   ⟨0x064, 1, 4, 0x0, 0x0, 0x0, 0x0, 0x0, false⟩ /- MRCH_FAILED_HI -/]

/-- The registers of the STIL page. -/
def regsSTIL : List RegInfo :=
  [⟨0x004, 1, 4, 0x44, 0x0, 0x0, 0x0, 0x0, false⟩ /- STIL_CAP -/,
   ⟨0x010, 1, 4, 0x0, 0x0, 0x3F, 0x0, 0x0, false⟩ /- STIL_EVT -/,
   ⟨0x040, 1, 4, 0x0, 0x3, 0x0, 0x0, 0x0, true⟩ /- STIL_MODE -/,
   ⟨0x044, 1, 4, 0x0, 0x0, 0x0, 0x0, 0x0, false⟩ /- STIL_POS -/,
   ⟨0x048, 1, 4, 0x1010, 0xFFFF, 0x0, 0x0, 0x0, false⟩ /- STIL_CFG -/,
   ⟨0x04C, 1, 4, 0x0, 0x0, 0x0, 0x0, 0x0, false⟩ /- STIL_ORPHAN -/,
   ⟨0x050, 1, 4, 0x0, 0x0, 0x0, 0x0, 0x0, false⟩ /- STIL_STRAY -/,
   ⟨0x054, 1, 4, 0x0, 0x0, 0x0, 0x0, 0x0, false⟩ /- STIL_CORRUPT -/,
   ⟨0x058, 1, 4, 0x0, 0x0, 0x0, 0x0, 0x0, false⟩ /- STIL_LINK_ERR -/,
   ⟨0x05C, 1, 4, 0x0, 0x0, 0x0, 0x0, 0x0, false⟩ /- STIL_FLITS -/,
   ⟨0x060, 1, 4, 0x0, 0x1F, 0x0, 0x0, 0x0, false⟩ /- STIL_CREDIT_SEL -/,
   ⟨0x064, 1, 4, 0x0, 0x0, 0x0, 0x0, 0x0, false⟩ /- STIL_CREDIT -/,
   ⟨0x100, 4, 32, 0x0, 0x77, 0x0, 0x0, 0x0, false⟩ /- STIL_PRB_CTL -/,
   ⟨0x104, 4, 32, 0x0, 0xFFFFFFFF, 0x0, 0x0, 0x0, false⟩ /- STIL_PRB_MATCH_LO -/,
   ⟨0x108, 4, 32, 0x0, 0x3FF, 0x0, 0x0, 0x0, false⟩ /- STIL_PRB_MATCH_HI -/,
   ⟨0x10C, 4, 32, 0x0, 0xFFFFFFFF, 0x0, 0x0, 0x0, false⟩ /- STIL_PRB_MASK_LO -/,
   ⟨0x110, 4, 32, 0x0, 0x3FF, 0x0, 0x0, 0x0, false⟩ /- STIL_PRB_MASK_HI -/,
   ⟨0x114, 4, 32, 0x0, 0x0, 0x0, 0x0, 0x0, false⟩ /- STIL_PRB_COUNT -/,
   ⟨0x200, 1, 4, 0x0, 0x3, 0x0, 0x0, 0x0, false⟩ /- STIL_TRACE_CTL -/,
   ⟨0x204, 1, 4, 0x0, 0x0, 0x0, 0x0, 0x0, false⟩ /- STIL_TRACE_WP -/,
   ⟨0x208, 1, 4, 0x0, 0x0, 0x0, 0x0, 0x0, false⟩ /- STIL_TRACE_DROPS -/,
   ⟨0x20C, 1, 4, 0x0, 0xFFFFFFFF, 0x0, 0x0, 0x0, false⟩ /- STIL_TRACE_IDX -/,
   ⟨0x210, 1, 4, 0x0, 0x0, 0x0, 0x0, 0x0, false⟩ /- STIL_TRACE_DATA -/]

/-- The registers of the TRLH page. -/
def regsTRLH : List RegInfo :=
  [⟨0x004, 1, 4, 0x40100000, 0x0, 0x0, 0x0, 0x0, false⟩ /- TRLH_CAP -/,
   ⟨0x010, 1, 4, 0x0, 0x0, 0xFF, 0x0, 0x0, false⟩ /- TRLH_EVT -/,
   ⟨0x040, 1, 4, 0x0, 0x1FF, 0x0, 0x0, 0x0, false⟩ /- TRLH_RT_IDX -/,
   ⟨0x044, 1, 4, 0x0, 0xFFFFFFFF, 0x0, 0x0, 0x0, false⟩ /- TRLH_RT_LO -/,
   ⟨0x048, 1, 4, 0x0, 0x8000FFFF, 0x0, 0x0, 0x0, false⟩ /- TRLH_RT_HI -/,
   ⟨0x04C, 1, 4, 0x0, 0x0, 0x0, 0x1, 0x0, true⟩ /- TRLH_BANK_SEL -/,
   ⟨0x050, 1, 4, 0x0, 0x0, 0x0, 0x3, 0x0, false⟩ /- TRLH_DDR_MAP -/,
   ⟨0x054, 1, 4, 0x0, 0xFFFF, 0x0, 0x0, 0x0, false⟩ /- TRLH_URG_INIT -/,
   ⟨0x058, 1, 4, 0x0, 0xFFFFFFFF, 0x0, 0x0, 0x0, false⟩ /- TRLH_URG_DEST_LO -/,
   ⟨0x05C, 1, 4, 0x0, 0xFF, 0x0, 0x0, 0x0, false⟩ /- TRLH_URG_DEST_HI -/,
   ⟨0x060, 1, 4, 0x1F4, 0x3FFF, 0x0, 0x0, 0x0, false⟩ /- TRLH_TIMEOUT -/,
   ⟨0x064, 1, 4, 0x0, 0x0, 0x0, 0x0, 0x0, false⟩ /- TRLH_CLOSED_LO -/,
   ⟨0x068, 1, 4, 0x0, 0x0, 0x0, 0x0, 0x0, false⟩ /- TRLH_CLOSED_HI -/,
   ⟨0x06C, 1, 4, 0x0, 0x0, 0x0, 0x0, 0x0, false⟩ /- TRLH_DOWN_LO -/,
   ⟨0x070, 1, 4, 0x3000, 0x0, 0x0, 0x0, 0x0, false⟩ /- TRLH_DOWN_HI -/,
   ⟨0x074, 1, 4, 0x0, 0x0, 0x0, 0x0, 0x0, false⟩ /- TRLH_SNAP -/,
   ⟨0x078, 1, 4, 0x0, 0x0, 0x0, 0x0, 0x0, false⟩ /- TRLH_ISSUED -/,
   ⟨0x07C, 1, 4, 0x0, 0x0, 0x0, 0x0, 0x0, false⟩ /- TRLH_RESPONDED -/,
   ⟨0x080, 1, 4, 0x0, 0x0, 0x0, 0x0, 0x0, false⟩ /- TRLH_OUTSTANDING -/,
   ⟨0x084, 1, 4, 0x0, 0x0, 0x0, 0x0, 0x0, false⟩ /- TRLH_LOCAL_UNREACH -/,
   ⟨0x088, 1, 4, 0x0, 0x0, 0x0, 0x0, 0x0, false⟩ /- TRLH_LOCAL_CLOSED -/,
   ⟨0x08C, 1, 4, 0x0, 0x0, 0x0, 0x0, 0x0, false⟩ /- TRLH_LOCAL_REFUSED -/,
   ⟨0x090, 1, 4, 0x0, 0x0, 0x0, 0x0, 0x0, false⟩ /- TRLH_LOCAL_TIMEOUT -/,
   ⟨0x094, 1, 4, 0x0, 0x0, 0x0, 0x0, 0x0, false⟩ /- TRLH_HOLES -/,
   ⟨0x098, 1, 4, 0x0, 0x0, 0x0, 0x0, 0x0, false⟩ /- TRLH_LATE -/] ++
  [⟨0x09C, 1, 4, 0x0, 0x0, 0x0, 0x0, 0x0, false⟩ /- TRLH_CLOSE_CTL -/,
   ⟨0x0A0, 1, 4, 0x0, 0xF, 0x0, 0x0, 0x0, false⟩ /- TRLH_STAT_SEL -/,
   ⟨0x0A4, 1, 4, 0x0, 0x0, 0x0, 0x0, 0x0, false⟩ /- TRLH_BW_S -/,
   ⟨0x0A8, 1, 4, 0x0, 0x0, 0x0, 0x0, 0x0, false⟩ /- TRLH_BW_A -/,
   ⟨0x0AC, 1, 4, 0x0, 0x0, 0x0, 0x0, 0x0, false⟩ /- TRLH_BW_B -/,
   ⟨0x0B0, 1, 4, 0x0, 0x0, 0x0, 0x0, 0x0, false⟩ /- TRLH_LOST_RSP -/,
   ⟨0x0C0, 16, 4, 0x0, 0x0, 0x0, 0x0, 0x0, false⟩ /- TRLH_HIST -/]

/-- The registers of the LNTL page. -/
def regsLNTL : List RegInfo :=
  [⟨0x010, 1, 4, 0x0, 0x0, 0x3F, 0x0, 0x0, false⟩ /- LNTL_EVT -/,
   ⟨0x040, 1, 4, 0x0, 0x3, 0x0, 0x0, 0x0, false⟩ /- LNTL_LINK_CTL -/,
   ⟨0x044, 1, 4, 0xC, 0x0, 0x0, 0x0, 0x0, false⟩ /- LNTL_LINK_STAT -/,
   ⟨0x048, 1, 4, 0x0, 0x0, 0x0, 0x0, 0x0, false⟩ /- LNTL_ERR_COUNT2 -/,
   ⟨0x04C, 1, 4, 0x0, 0x0, 0xFFFFFFFF, 0x0, 0x0, false⟩ /- LNTL_LANE_ERR -/,
   ⟨0x050, 1, 4, 0x0, 0x0, 0x0, 0x0, 0x0, false⟩ /- LNTL_BRIDGE_STAT -/,
   ⟨0x054, 1, 4, 0x0, 0x0, 0x0, 0x0, 0x0, false⟩ /- LNTL_PIX_FRAMES -/,
   ⟨0x200, 4, 32, 0x0, 0x0, 0x0, 0x8FFFFFFF, 0x0, false⟩ /- LNTL_CAM_BUF_c_0 -/,
   ⟨0x204, 4, 32, 0x0, 0x0, 0x0, 0x8FFFFFFF, 0x0, false⟩ /- LNTL_CAM_BUF_c_1 -/,
   ⟨0x208, 4, 32, 0x0, 0x0, 0x0, 0x8FFFFFFF, 0x0, false⟩ /- LNTL_CAM_BUF_c_2 -/,
   ⟨0x20C, 4, 32, 0x0, 0x0, 0x0, 0x8FFFFFFF, 0x0, false⟩ /- LNTL_CAM_BUF_c_3 -/,
   ⟨0x210, 4, 32, 0x10040, 0x0, 0x0, 0xFFFFFFFF, 0x0, false⟩ /- LNTL_CAM_FMT -/,
   ⟨0x214, 4, 32, 0x0, 0x0, 0x0, 0x0, 0x0, false⟩ /- LNTL_CAM_CUR -/]

/-- The registers of the PORT page. -/
def regsPORT : List RegInfo :=
  [⟨0x004, 1, 4, 0x500200, 0x0, 0x0, 0x0, 0x0, false⟩ /- PORT_CAP -/,
   ⟨0x010, 1, 4, 0x0, 0x0, 0x3F, 0x0, 0x0, false⟩ /- PORT_EVT -/,
   ⟨0x040, 1, 4, 0x0, 0x0, 0x0, 0x0, 0x0, false⟩ /- PORT_STATE -/,
   ⟨0x044, 1, 4, 0x0, 0x0, 0x0, 0x0, 0x0, false⟩ /- PORT_RESULT -/,
   ⟨0x048, 1, 4, 0x0, 0x0, 0x0, 0x0, 0x0, false⟩ /- PORT_RESULT_ITEM -/,
   ⟨0x04C, 1, 4, 0x0, 0x0, 0x0, 0x0, 0x0, false⟩ /- PORT_RESULT_AMOUNT -/,
   ⟨0x050, 1, 4, 0x0, 0x0, 0x0, 0x0, 0x0, false⟩ /- PORT_RESULT_ID -/,
   ⟨0x054, 1, 4, 0x0, 0x0, 0x0, 0x0, 0x0, false⟩ /- PORT_CUR_ID -/,
   ⟨0x058, 1, 4, 0x0, 0x0, 0x0, 0x0, 0x0, false⟩ /- PORT_STAGED_ID -/,
   ⟨0x05C, 1, 4, 0x0, 0x0, 0x0, 0x0, 0x0, false⟩ /- PORT_VARIANT -/,
   ⟨0x060, 1, 4, 0x9C40, 0x0, 0x0, 0x0, 0xFFFF, false⟩ /- PORT_POWER_CAP -/,
   ⟨0x064, 1, 4, 0x0, 0x0, 0x0, 0x0, 0x0, false⟩ /- PORT_POWER_EST -/,
   ⟨0x068, 1, 4, 0x0, 0x0, 0x0, 0x0, 0x0, false⟩ /- PORT_ADM_TIME -/,
   ⟨0x06C, 1, 4, 0x0, 0x0, 0x0, 0x0, 0x0, false⟩ /- PORT_COUNTS -/,
   ⟨0x070, 1, 4, 0x0, 0x0, 0x0, 0x0, 0x0, false⟩ /- PORT_LOST_PANE -/,
   ⟨0x074, 4, 4, 0x0, 0x0, 0x0, 0x0, 0x0, false⟩ /- PORT_LOST_SLAT -/,
   ⟨0x084, 1, 4, 0x0, 0x0, 0x0, 0x0, 0x0, false⟩ /- PORT_LOST_DDR -/,
   ⟨0x088, 1, 4, 0x0, 0x0, 0x0, 0x800000FF, 0x800000FF, false⟩ /- PORT_LOST_CMD -/,
   ⟨0x08C, 1, 4, 0xFF00, 0x0, 0x0, 0x0, 0x0, false⟩ /- PORT_TKO_LAST -/,
   ⟨0x090, 1, 4, 0x0, 0x0, 0x0, 0x0, 0x0, false⟩ /- PORT_TKO_COUNT -/]

/-- The registers of the DDRC page. -/
def regsDDRC : List RegInfo :=
  [⟨0x004, 1, 4, 0x21551000, 0x0, 0x0, 0x0, 0x0, false⟩ /- DDRC_CAP -/,
   ⟨0x010, 1, 4, 0x0, 0x0, 0xFF, 0x0, 0x0, false⟩ /- DDRC_EVT -/,
   ⟨0x040, 1, 4, 0x10000202, 0xFF000317, 0x0, 0x0, 0x0, true⟩ /- DDRC_CFG -/,
   ⟨0x044, 1, 4, 0x0, 0x0, 0x0, 0x0, 0x0, false⟩ /- DDRC_STAT -/,
   ⟨0x048, 1, 4, 0x0, 0x0, 0x0, 0x0, 0x0, false⟩ /- DDRC_USABLE -/,
   ⟨0x04C, 1, 4, 0x0, 0x3, 0x0, 0x0, 0x0, false⟩ /- DDRC_TRAIN_CTL -/,
   ⟨0x050, 1, 4, 0x0, 0x0, 0x0, 0x0, 0x0, false⟩ /- DDRC_TRAIN_STAT -/,
   ⟨0x054, 1, 4, 0x0, 0x1FF, 0x0, 0x0, 0x0, false⟩ /- DDRC_TRAIN_IDX -/,
   ⟨0x058, 1, 4, 0x0, 0xFFFFFFFF, 0x0, 0x0, 0x0, false⟩ /- DDRC_TRAIN_DATA -/,
   ⟨0x05C, 1, 4, 0x0, 0x0, 0x0, 0x0, 0x0, false⟩ /- DDRC_CE_COUNT -/,
   ⟨0x060, 1, 4, 0x0, 0x0, 0x0, 0x0, 0x0, false⟩ /- DDRC_UE_COUNT -/,
   ⟨0x064, 1, 4, 0x0, 0x0, 0x0, 0x0, 0x0, false⟩ /- DDRC_UE_TICK -/,
   ⟨0x068, 1, 4, 0x0, 0x0, 0x0, 0x0, 0x0, false⟩ /- DDRC_ERR_LOC_LO -/,
   ⟨0x06C, 1, 4, 0x0, 0x0, 0x0, 0x0, 0x0, false⟩ /- DDRC_ERR_LOC_HI -/,
   ⟨0x070, 1, 4, 0x8, 0xFFFF, 0x0, 0x0, 0x0, false⟩ /- DDRC_SCRUB -/,
   ⟨0x074, 1, 4, 0x0, 0x0, 0x0, 0x0, 0x0, false⟩ /- DDRC_TEMP -/]

/-- The registers of the HEAD page. -/
def regsHEAD : List RegInfo :=
  [⟨0x004, 1, 4, 0x44C0011, 0x0, 0x0, 0x0, 0x0, false⟩ /- HEAD_CAP -/,
   ⟨0x010, 1, 4, 0x0, 0x0, 0x3FF, 0x0, 0x0, false⟩ /- HEAD_EVT -/,
   ⟨0x040, 1, 4, 0x0, 0x1, 0x0, 0x0, 0x0, false⟩ /- HEAD_SRC -/,
   ⟨0x044, 1, 4, 0x0, 0x0, 0x0, 0xFFFFFFFF, 0xFFFFFFFF, false⟩ /- HEAD_HTIME -/,
   ⟨0x04C, 1, 4, 0x0, 0x0, 0x0, 0xFFFFFFFF, 0xFFFFFFFF, false⟩ /- HEAD_VTIME -/,
   ⟨0x048, 1, 4, 0x0, 0x0, 0x0, 0xFFFFFFFF, 0xFFFFFFFF, false⟩ /- HEAD_HSYNC -/,
   ⟨0x050, 1, 4, 0x0, 0x0, 0x0, 0xFFFFFFFF, 0xFFFFFFFF, false⟩ /- HEAD_VSYNC -/,
   ⟨0x054, 1, 4, 0x11, 0x0, 0x0, 0x33, 0x33, false⟩ /- HEAD_FMT -/,
   ⟨0x058, 1, 4, 0x0, 0x0, 0x0, 0x377, 0x377, false⟩ /- HEAD_PHY -/,
   ⟨0x05C, 1, 4, 0x500040, 0x0, 0x0, 0x3FF0377, 0x3FF0377, false⟩ /- HEAD_LINK_CFG -/,
   ⟨0x060, 1, 4, 0x0, 0x0, 0x0, 0x0, 0x0, false⟩ /- HEAD_PCLK -/,
   ⟨0x064, 1, 4, 0x4, 0xF, 0x0, 0x100, 0x0, false⟩ /- HEAD_CP_CTL -/,
   ⟨0x068, 1, 4, 0x0, 0xDFFF, 0x0, 0x0, 0x0, false⟩ /- HEAD_LUT_IDX -/,
   ⟨0x06C, 1, 4, 0x0, 0x3FFFFFFF, 0x0, 0x0, 0x0, false⟩ /- HEAD_LUT_DATA -/,
   ⟨0x070, 1, 4, 0x0, 0x3, 0x0, 0x0, 0x0, false⟩ /- HEAD_LINK_CTL -/,
   ⟨0x074, 1, 4, 0x0, 0x0, 0x0, 0x0, 0x0, false⟩ /- HEAD_LINK_STAT -/,
   ⟨0x078, 1, 4, 0x0, 0xFFFFFFF0, 0x0, 0x0, 0x0, false⟩ /- HEAD_SIDE_CMD -/,
   ⟨0x07C, 4, 4, 0x0, 0xFFFFFFFF, 0x0, 0x0, 0x0, false⟩ /- HEAD_SIDE_DATA -/,
   ⟨0x08C, 1, 4, 0x0, 0x0, 0x0, 0x0, 0x0, false⟩ /- HEAD_UNDERRUNS -/,
   ⟨0x090, 1, 4, 0x0, 0x0, 0x0, 0x0, 0x0, false⟩ /- HEAD_LIMP_FRAMES -/,
   ⟨0x094, 1, 4, 0x0, 0x0, 0x0, 0x0, 0x0, false⟩ /- HEAD_POS -/]

/-- The registers of the GLAZ page. -/
def regsGLAZ : List RegInfo :=
  [⟨0x004, 1, 4, 0x8000100, 0x0, 0x0, 0x0, 0x0, false⟩ /- GLAZ_CAP -/,
   ⟨0x010, 1, 4, 0x0, 0x0, 0x7F, 0x0, 0x0, false⟩ /- GLAZ_EVT -/,
   ⟨0x040, 1, 4, 0x0, 0x0, 0x0, 0x0, 0x7FFFFF, false⟩ /- GLAZ_LOAD_ADDR -/,
   ⟨0x044, 1, 4, 0x0, 0x0, 0x0, 0x0, 0x8000001F, false⟩ /- GLAZ_LOAD_CTL -/,
   ⟨0x048, 1, 4, 0x0, 0x0, 0x0, 0x0, 0x0, false⟩ /- GLAZ_LOAD_STAT -/,
   ⟨0x04C, 1, 4, 0x0, 0x0, 0x0, 0x0, 0x0, false⟩ /- GLAZ_ASSET_VER -/,
   ⟨0x050, 1, 4, 0x0, 0x0, 0x0, 0x0, 0x0, false⟩ /- GLAZ_ASSET_TAG -/,
   ⟨0x054, 1, 4, 0x2, 0x0, 0x0, 0x0, 0xF, false⟩ /- GLAZ_ESC -/,
   ⟨0x058, 1, 4, 0x0, 0xFFF, 0x0, 0x0, 0x0, false⟩ /- GLAZ_TT_IDX -/,
   ⟨0x05C, 1, 4, 0x0, 0x0, 0x0, 0x0, 0x0, false⟩ /- GLAZ_TT_CRC_EXP -/,
   ⟨0x060, 1, 4, 0x0, 0x0, 0x0, 0x0, 0x0, false⟩ /- GLAZ_TT_CRC_LAST -/,
   ⟨0x064, 1, 4, 0x0, 0x0, 0x0, 0x0, 0x0, false⟩ /- GLAZ_TT_STAT -/,
   ⟨0x068, 1, 4, 0x0, 0x0, 0x0, 0x0, 0x800003FF, false⟩ /- GLAZ_TT_CLEAR -/,
   ⟨0x06C, 1, 4, 0x0, 0x0, 0x0, 0x0, 0x0, false⟩ /- GLAZ_FAULT -/,
   ⟨0x070, 1, 4, 0x0, 0x0, 0x0, 0x0, 0x0, false⟩ /- GLAZ_MISMATCHES -/,
   ⟨0x074, 1, 4, 0x0, 0x0, 0x0, 0x0, 0x0, false⟩ /- GLAZ_SRAM_CE -/,
   ⟨0x078, 1, 4, 0x0, 0x0, 0x0, 0x0, 0x0, false⟩ /- GLAZ_SRAM_UE -/,
   ⟨0x080, 8, 4, 0x0, 0x0, 0x0, 0x0, 0x0, false⟩ /- GLAZ_FAILED -/]

/-- The registers of the CAMI page. -/
def regsCAMI : List RegInfo :=
  [⟨0x010, 1, 4, 0x0, 0x0, 0x1F, 0x0, 0x0, false⟩ /- CAMI_EVT -/,
   ⟨0x040, 1, 4, 0x80C1E, 0xFFFC3F, 0x0, 0x0, 0x0, false⟩ /- CAMI_RX_CFG -/,
   ⟨0x044, 1, 4, 0x400040, 0xFFFFFFFF, 0x0, 0x0, 0x0, false⟩ /- CAMI_SIZE -/,
   ⟨0x048, 1, 4, 0x0, 0x0, 0x0, 0xFFFFF, 0x0, false⟩ /- CAMI_FSYNC_OFS -/,
   ⟨0x04C, 1, 4, 0x400000FA, 0x0, 0x0, 0xC00FFFFF, 0x0, false⟩ /- CAMI_FSYNC_CFG -/,
   ⟨0x050, 1, 4, 0x0, 0x0, 0x0, 0x0, 0x0, false⟩ /- CAMI_STAT -/,
   ⟨0x054, 1, 4, 0x0, 0x0, 0x0, 0x0, 0x0, false⟩ /- CAMI_RECEIVED -/,
   ⟨0x058, 1, 4, 0x0, 0x0, 0x0, 0x0, 0x0, false⟩ /- CAMI_SENT -/,
   ⟨0x05C, 1, 4, 0x0, 0x0, 0x0, 0x0, 0x0, false⟩ /- CAMI_DISC_HDR -/,
   ⟨0x060, 1, 4, 0x0, 0x0, 0x0, 0x0, 0x0, false⟩ /- CAMI_DISC_CRC -/,
   ⟨0x064, 1, 4, 0x0, 0x0, 0x0, 0x0, 0x0, false⟩ /- CAMI_DISC_SIZE -/,
   ⟨0x068, 1, 4, 0x0, 0x0, 0x0, 0x0, 0x0, false⟩ /- CAMI_DISC_LINK -/,
   ⟨0x06C, 1, 4, 0x0, 0x0, 0x0, 0x0, 0x0, false⟩ /- CAMI_DISC_DISABLED -/,
   ⟨0x070, 1, 4, 0x0, 0x0, 0x0, 0x0, 0x0, false⟩ /- CAMI_IGNORED -/,
   ⟨0x074, 1, 4, 0x0, 0x0, 0x0, 0x0, 0x0, false⟩ /- CAMI_ECC_CORR -/,
   ⟨0x080, 1, 4, 0x0, 0x0, 0x0, 0x0, 0x0, false⟩ /- CAMI_WR_STARTED -/,
   ⟨0x084, 1, 4, 0x0, 0x0, 0x0, 0x0, 0x0, false⟩ /- CAMI_WR_CURRENT -/,
   ⟨0x088, 1, 4, 0x0, 0x0, 0x0, 0x0, 0x0, false⟩ /- CAMI_WR_SUPERSEDED -/,
   ⟨0x08C, 1, 4, 0x0, 0x0, 0x0, 0x0, 0x0, false⟩ /- CAMI_WR_NOBUF -/,
   ⟨0x090, 1, 4, 0x0, 0x0, 0x0, 0x0, 0x0, false⟩ /- CAMI_WR_WERR -/,
   ⟨0x094, 1, 4, 0x0, 0x0, 0x0, 0x0, 0x0, false⟩ /- CAMI_WR_CUT -/]

/-- The registers of the TRSM page. -/
def regsTRSM : List RegInfo :=
  [⟨0x010, 1, 4, 0x0, 0x0, 0x3F, 0x0, 0x0, false⟩ /- TRSM_EVT -/,
   ⟨0x040, 1, 4, 0x0, 0x0, 0x0, 0x0, 0x0, false⟩ /- TRSM_LINK_STAT -/,
   ⟨0x044, 1, 4, 0x10000, 0x0, 0x0, 0x0, 0x1FFFFFE, false⟩ /- TRSM_BAR0_ALLOW -/,
   ⟨0x048, 1, 4, 0x0, 0x0, 0x0, 0x0, 0xFFFFFFF, false⟩ /- TRSM_WIN_BASE -/,
   ⟨0x04C, 1, 4, 0x0, 0x31F, 0x0, 0x0, 0x0, false⟩ /- TRSM_SURF_IDX -/,
   ⟨0x050, 1, 4, 0x300FFFF, 0x0, 0x0, 0x0, 0x8300FFFF, false⟩ /- TRSM_SURF_CFG -/,
   ⟨0x054, 1, 4, 0x0, 0x0, 0x0, 0x0, 0xFFFFFFF, false⟩ /- TRSM_SURF_BUF -/,
   ⟨0x058, 1, 4, 0x1, 0x0, 0x0, 0x0, 0xFFFF, false⟩ /- TRSM_SURF_LEN -/,
   ⟨0x05C, 1, 4, 0x0, 0x0, 0x0, 0x0, 0x0, false⟩ /- TRSM_SURF_STAT -/,
   ⟨0x060, 1, 4, 0x0, 0x0, 0x0, 0x0, 0x0, false⟩ /- TRSM_DOORBELL -/,
   ⟨0x064, 1, 4, 0x0, 0x0, 0x0, 0x0, 0x0, false⟩ /- TRSM_DB_RESULT -/,
   ⟨0x068, 1, 4, 0x0, 0x0, 0x0, 0x0, 0x0, false⟩ /- TRSM_DB_ACCEPTED -/,
   ⟨0x06C, 1, 4, 0x0, 0x0, 0x0, 0x0, 0x0, false⟩ /- TRSM_SUPERSEDED -/,
   ⟨0x070, 1, 4, 0x0, 0x0, 0x0, 0x0, 0x0, false⟩ /- TRSM_WIN_DROP -/,
   ⟨0x074, 1, 4, 0x0, 0x0, 0x0, 0x0, 0x0, false⟩ /- TRSM_BAR0_DENIED -/,
   ⟨0x100, 64, 4, 0x0, 0x8000FFFF, 0x0, 0x0, 0x0, false⟩ /- TRSM_VEC_SRC -/,
   ⟨0x400, 32, 4, 0x0, 0x0, 0x0, 0x0, 0x0, false⟩ /- TRSM_SURF_CUR -/,
   ⟨0x800, 64, 16, 0x0, 0xFFFFFFFC, 0x0, 0x0, 0x0, false⟩ /- MSI-X message address -/,
   ⟨0x804, 64, 16, 0x0, 0xFFFFFFFF, 0x0, 0x0, 0x0, false⟩ /- MSI-X upper address -/,
   ⟨0x808, 64, 16, 0x0, 0xFFFFFFFF, 0x0, 0x0, 0x0, false⟩ /- MSI-X message data -/,
   ⟨0x80C, 64, 16, 0x1, 0x1, 0x0, 0x0, 0x0, false⟩ /- MSI-X vector control -/,
   ⟨0xC00, 2, 4, 0x0, 0x0, 0x0, 0x0, 0x0, false⟩ /- MSI-X PBA -/]

/-- The registers of the GATE page. -/
def regsGATE : List RegInfo :=
  [⟨0x004, 1, 4, 0x423F1000, 0x0, 0x0, 0x0, 0x0, false⟩ /- GATE_CAP -/,
   ⟨0x010, 1, 4, 0x0, 0x0, 0x3FF, 0x0, 0x0, false⟩ /- GATE_EVT -/,
   ⟨0x040, 4, 4, 0x4000000, 0xFC00FF00, 0x0, 0x0, 0x0, false⟩ /- GATE_CAN_CFG -/,
   ⟨0x050, 4, 4, 0x7E1F1F, 0xFFFFFFFF, 0x0, 0x0, 0x0, false⟩ /- GATE_CAN_NBT -/,
   ⟨0x060, 4, 4, 0x1C0909, 0xFFFFFFFF, 0x0, 0x0, 0x0, false⟩ /- GATE_CAN_DBT -/,
   ⟨0x070, 4, 4, 0x40101, 0xFFFFFFFF, 0x0, 0x0, 0x0, false⟩ /- GATE_CAN_XBT -/,
   ⟨0x080, 4, 4, 0x0, 0x0, 0x0, 0x0, 0x0, false⟩ /- GATE_CAN_STAT -/,
   ⟨0x090, 1, 4, 0x0, 0x0, 0x0, 0x0, 0x0, false⟩ /- GATE_CAN_RECOVER -/,
   ⟨0x0A0, 2, 4, 0x60FF0820, 0xE0FFFFFF, 0x0, 0x0, 0x0, false⟩ /- GATE_T1S_CFG -/,
   ⟨0x0A8, 2, 4, 0x0, 0x0, 0x0, 0x0, 0x0, false⟩ /- GATE_T1S_STAT -/,
   ⟨0x0B0, 1, 4, 0x0, 0xFFFFFFFF, 0x0, 0x0, 0x0, false⟩ /- GATE_MAC_LO -/,
   ⟨0x0B4, 1, 4, 0x0, 0xFFFF, 0x0, 0x0, 0x0, false⟩ /- GATE_MAC_HI -/,
   ⟨0x0B8, 1, 4, 0x88B5, 0xFFFF, 0x0, 0x0, 0x0, false⟩ /- GATE_T1S_ETYPE -/,
   ⟨0x0C0, 1, 4, 0x0, 0xFFF, 0x0, 0x0, 0x0, false⟩ /- GATE_CAM_IDX -/,
   ⟨0x0C4, 4, 4, 0x0, 0xFFFFFFFF, 0x0, 0x0, 0x0, false⟩ /- GATE_CAM_W -/,
   ⟨0x0D4, 1, 4, 0x1, 0x3F, 0x0, 0x0, 0x0, false⟩ /- GATE_PROT_IDX -/,
   ⟨0x0D8, 2, 4, 0x0, 0xFFFFFFFF, 0x0, 0x0, 0x0, false⟩ /- GATE_PROT_W -/,
   ⟨0x170, 1, 4, 0x0, 0x0, 0x0, 0x0, 0x0, false⟩ /- GATE_RXQ_DESC0 -/,
   ⟨0x174, 1, 4, 0x0, 0x0, 0x0, 0x0, 0x0, false⟩ /- GATE_RXQ_DESC1 -/,
   ⟨0x178, 1, 4, 0x0, 0x0, 0x0, 0x0, 0x0, false⟩ /- GATE_RXQ_DESC2 -/,
   ⟨0x17C, 1, 4, 0x0, 0x0, 0x0, 0x0, 0x0, false⟩ /- GATE_RXQ_DESC3 -/,
   ⟨0x180, 1, 4, 0x0, 0x0, 0x0, 0x0, 0x0, false⟩ /- GATE_RXQ_POP -/,
   ⟨0x184, 1, 4, 0x0, 0x0, 0x0, 0x0, 0x0, false⟩ /- GATE_TX_POST -/,
   ⟨0x188, 1, 4, 0x0, 0x0, 0x0, 0x0, 0x0, false⟩ /- GATE_TX_LAST_LO -/,
   ⟨0x18C, 1, 4, 0x0, 0x0, 0x0, 0x0, 0x0, false⟩ /- GATE_TX_LAST_HI -/] ++
  [⟨0x190, 1, 4, 0x0, 0x0, 0x0, 0x0, 0x0, false⟩ /- GATE_TIME_LO -/,
   ⟨0x194, 1, 4, 0x0, 0x0, 0x0, 0x0, 0x0, false⟩ /- GATE_TIME_HI -/,
   ⟨0x198, 1, 4, 0x0, 0x71F, 0x0, 0x0, 0x0, false⟩ /- GATE_CNT_SEL -/,
   ⟨0x19C, 1, 4, 0x0, 0x0, 0x0, 0x0, 0x0, false⟩ /- GATE_CNT_VAL -/,
   ⟨0x1A0, 1, 4, 0x0, 0x0, 0x0, 0x0, 0x0, false⟩ /- GATE_CNT_SNAP -/,
   ⟨0x1A4, 1, 4, 0x0, 0x0, 0x0, 0x0, 0x0, false⟩ /- GATE_CNT_STAT -/,
   ⟨0x1A8, 1, 4, 0x0, 0x0, 0x0, 0x0, 0x0, false⟩ /- GATE_HOLD -/,
   ⟨0x1AC, 1, 4, 0x0, 0x0, 0x0, 0x0, 0x0, false⟩ /- GATE_RXQ_OCC -/,
   ⟨0x1B0, 1, 4, 0x2, 0x0, 0x0, 0x0, 0x3, false⟩ /- GATE_CMD_CFG -/,
   ⟨0x1B4, 1, 4, 0x1, 0x800000FF, 0x0, 0x0, 0x0, false⟩ /- GATE_STAT_CFG -/,
   ⟨0x1B8, 6, 4, 0x0, 0xFFFFFFFF, 0x0, 0x0, 0x0, false⟩ /- GATE_STAT_ID -/]

/-- The registers of the SIGT page. -/
def regsSIGT : List RegInfo :=
  [⟨0x004, 1, 4, 0xFFFF3FFF, 0x0, 0x0, 0x0, 0x0, false⟩ /- SIGT_CAP -/,
   ⟨0x010, 1, 4, 0x0, 0x0, 0xF, 0x0, 0x0, false⟩ /- SIGT_EVT -/,
   ⟨0x040, 1, 4, 0x0, 0xFFFF, 0x0, 0x0, 0x0, false⟩ /- SIGT_CFG_IDX -/,
   ⟨0x044, 4, 4, 0x0, 0xFFFFFFFF, 0x0, 0x0, 0x0, false⟩ /- SIGT_CFG_W -/,
   ⟨0x054, 1, 4, 0x0, 0x3FFF, 0x0, 0x0, 0x0, false⟩ /- SIGT_DESC_IDX -/,
   ⟨0x058, 4, 4, 0x0, 0xFFFFFFFF, 0x0, 0x0, 0x0, false⟩ /- SIGT_DESC_W -/,
   ⟨0x068, 1, 4, 0x0, 0xFFFF, 0x0, 0x0, 0x0, false⟩ /- SIGT_INJ_ENTRY -/,
   ⟨0x06C, 1, 4, 0x0, 0xFFFFFFFF, 0x0, 0x0, 0x0, false⟩ /- SIGT_INJ_LO -/,
   ⟨0x070, 1, 4, 0x0, 0x0, 0x0, 0x0, 0x0, false⟩ /- SIGT_INJ_HI -/,
   ⟨0x074, 1, 4, 0x0, 0x0, 0x0, 0x0, 0x0, false⟩ /- SIGT_TB_PEND -/,
   ⟨0x078, 1, 4, 0x0, 0x0, 0x0, 0x0, 0x0, false⟩ /- SIGT_WRITES -/,
   ⟨0x07C, 1, 4, 0x0, 0x0, 0x0, 0x0, 0x0, false⟩ /- SIGT_TIMEOUTS -/,
   ⟨0x080, 1, 4, 0x0, 0x0, 0x0, 0x0, 0x0, false⟩ /- SIGT_SHORT -/,
   ⟨0x084, 1, 4, 0x0, 0x0, 0x0, 0x0, 0x0, false⟩ /- SIGT_CE -/,
   ⟨0x088, 1, 4, 0x0, 0x0, 0x0, 0x0, 0x0, false⟩ /- SIGT_UE -/,
   ⟨0x08C, 1, 4, 0x0, 0x0, 0x0, 0x0, 0x0, false⟩ /- SIGT_UE_ENTRY -/]

/-- The registers of the HTCH page. -/
def regsHTCH : List RegInfo :=
  [⟨0x010, 1, 4, 0x0, 0x0, 0x7, 0x0, 0x0, false⟩ /- HTCH_EVT -/,
   ⟨0x040, 1, 4, 0x0, 0x1, 0x0, 0x0, 0x0, false⟩ /- HTCH_CFG -/,
   ⟨0x044, 8, 4, 0x0, 0x8000FFFF, 0x0, 0x0, 0x0, false⟩ /- HTCH_IRQ_SRC -/,
   ⟨0x064, 1, 4, 0x0, 0x0, 0x0, 0x0, 0x0, false⟩ /- HTCH_IRQ_PEND -/,
   ⟨0x068, 1, 4, 0x0, 0x0, 0x0, 0x0, 0x0, false⟩ /- HTCH_CRC_ERR -/,
   ⟨0x06C, 1, 4, 0x0, 0x0, 0x0, 0x0, 0x0, false⟩ /- HTCH_ABANDONED -/]

/-- The registers of the LTCH page. -/
def regsLTCH : List RegInfo :=
  [⟨0x010, 1, 4, 0x0, 0x0, 0x3F, 0x0, 0x0, false⟩ /- LTCH_EVT -/,
   ⟨0x040, 1, 4, 0x0, 0x0, 0x0, 0x0, 0x0, false⟩ /- LTCH_DEVICE_ID_LO -/,
   ⟨0x044, 1, 4, 0x0, 0x0, 0x0, 0x0, 0x0, false⟩ /- LTCH_DEVICE_ID_HI -/,
   ⟨0x048, 1, 4, 0x3, 0x0, 0x0, 0x0, 0x0, false⟩ /- LTCH_LIFECYCLE -/,
   ⟨0x04C, 1, 4, 0x0, 0x1F, 0x0, 0x0, 0x0, false⟩ /- LTCH_SLOT_IDX -/,
   ⟨0x050, 1, 4, 0x0, 0x0, 0x0, 0x0, 0x0, false⟩ /- LTCH_SLOT_STAT -/,
   ⟨0x054, 1, 4, 0x0, 0x0, 0x0, 0x0, 0x0, false⟩ /- LTCH_CTR_LO -/,
   ⟨0x058, 1, 4, 0x0, 0x0, 0x0, 0x0, 0x0, false⟩ /- LTCH_CTR_HI -/,
   ⟨0x05C, 1, 4, 0x0, 0x0, 0x0, 0x0, 0x0, false⟩ /- LTCH_LAST_CMD -/,
   ⟨0x060, 1, 4, 0x0, 0x0, 0x0, 0x0, 0x0, false⟩ /- LTCH_CMD_COUNT -/,
   ⟨0x064, 1, 4, 0x0, 0x0, 0x0, 0x0, 0x0, false⟩ /- LTCH_NONCE_LO -/,
   ⟨0x068, 1, 4, 0x0, 0x0, 0x0, 0x0, 0x0, false⟩ /- LTCH_NONCE_HI -/,
   ⟨0x06C, 1, 4, 0x0, 0x300, 0x0, 0x0, 0x0, false⟩ /- LTCH_DBG -/,
   ⟨0x070, 4, 4, 0x0, 0x0, 0x0, 0x0, 0x0, false⟩ /- LTCH_DBG_CHAL -/,
   ⟨0x080, 4, 4, 0x0, 0x0, 0x0, 0x0, 0x0, false⟩ /- LTCH_DBG_RESP -/,
   ⟨0x090, 1, 4, 0x0, 0x0, 0x0, 0x0, 0x0, false⟩ /- LTCH_IMG_RESULT -/,
   ⟨0x094, 1, 4, 0x0, 0x0, 0x0, 0x0, 0x0, false⟩ /- LTCH_JOURNAL -/,
   ⟨0x098, 8, 4, 0x0, 0x0, 0x0, 0x0, 0x0, false⟩ /- LTCH_SVN -/]

/-- The registers of the HNGE page. -/
def regsHNGE : List RegInfo :=
  [⟨0x004, 1, 4, 0x10006084, 0x0, 0x0, 0x0, 0x0, false⟩ /- HNGE_CAP -/,
   ⟨0x010, 1, 4, 0x0, 0x0, 0x7FFFF, 0x0, 0x0, false⟩ /- HNGE_EVT -/,
   ⟨0x040, 1, 4, 0x0, 0x0, 0x0, 0x0, 0x0, false⟩ /- HNGE_FAB_STATE -/,
   ⟨0x044, 1, 4, 0x0, 0x0, 0x0, 0x0, 0x1, false⟩ /- HNGE_FAB_CTL -/,
   ⟨0x048, 1, 4, 0x0, 0x0, 0x0, 0x0, 0x807FFFFF, false⟩ /- HNGE_BS_ALT -/,
   ⟨0x04C, 1, 4, 0x0, 0x0, 0x0, 0x0, 0x0, false⟩ /- HNGE_LOAD_STAT -/,
   ⟨0x050, 1, 4, 0x0, 0x0, 0x0, 0x0, 0x0, false⟩ /- HNGE_DESIGN -/,
   ⟨0x054, 1, 4, 0x0, 0x0, 0x0, 0x0, 0x0, false⟩ /- HNGE_USER_VER -/,
   ⟨0x058, 1, 4, 0x5, 0x7, 0x0, 0x0, 0x0, false⟩ /- HNGE_SCRUB_CFG -/,
   ⟨0x05C, 1, 4, 0x0, 0x0, 0x0, 0x0, 0x0, false⟩ /- HNGE_SCRUB_STAT -/,
   ⟨0x060, 1, 4, 0xF, 0x1F, 0x0, 0x0, 0x0, true⟩ /- HNGE_OSC_CTL -/,
   ⟨0x064, 1, 4, 0xF, 0x0, 0x0, 0x0, 0x0, false⟩ /- HNGE_OSC_STAT -/,
   ⟨0x068, 1, 4, 0x0, 0x0, 0x0, 0x0, 0x0, false⟩ /- HNGE_RTC_LO -/,
   ⟨0x06C, 1, 4, 0x0, 0x0, 0x0, 0x0, 0x0, false⟩ /- HNGE_RTC_HI -/,
   ⟨0x070, 1, 4, 0x0, 0x0, 0x0, 0x0, 0x0, false⟩ /- HNGE_FLASH_STAT -/,
   ⟨0x074, 1, 4, 0x0, 0x0, 0x0, 0x0, 0x0, false⟩ /- HNGE_FLASH_CE -/,
   ⟨0x078, 1, 4, 0x0, 0x0, 0x0, 0x0, 0x0, false⟩ /- HNGE_FLASH_UE -/,
   ⟨0x07C, 1, 4, 0x0, 0x0, 0x0, 0x0, 0x0, false⟩ /- HNGE_FLASH_ERASES -/,
   ⟨0x080, 1, 4, 0x0, 0x0, 0x0, 0x0, 0x0, false⟩ /- HNGE_CAP_CTL -/,
   ⟨0x084, 1, 4, 0x0, 0xFFF, 0x0, 0x0, 0x0, false⟩ /- HNGE_CAP_IDX -/,
   ⟨0x088, 1, 4, 0x0, 0x0, 0x0, 0x0, 0x0, false⟩ /- HNGE_CAP_DATA -/,
   ⟨0x100, 16, 4, 0x0, 0x0, 0x0, 0xFFFFFFFF, 0x0, false⟩ /- HNGE_UIN -/,
   ⟨0x140, 16, 4, 0x0, 0x0, 0x0, 0x0, 0x0, false⟩ /- HNGE_UOUT -/,
   ⟨0x200, 8, 32, 0x0, 0xF3FFC000, 0x0, 0x0, 0x0, false⟩ /- HSP_CFG -/,
   ⟨0x204, 8, 32, 0x145, 0xFFFF, 0x0, 0x0, 0x0, false⟩ /- HSP_BAUD -/] ++
  [⟨0x208, 8, 32, 0x0, 0x0, 0x3F, 0x0, 0x0, false⟩ /- HSP_STAT -/,
   ⟨0x20C, 8, 32, 0x0, 0x0, 0x0, 0x0, 0x0, false⟩ /- HSP_TXD -/,
   ⟨0x210, 8, 32, 0x0, 0x0, 0x0, 0x0, 0x0, false⟩ /- HSP_RXD -/,
   ⟨0x214, 8, 32, 0x0, 0x0, 0x0, 0x0, 0x0, false⟩ /- HSP_COUNT -/]

/-- The registers of the SHUT page. -/
def regsSHUT : List RegInfo :=
  [⟨0x004, 1, 4, 0x121E, 0x0, 0x0, 0x0, 0x0, false⟩ /- SHUT_CAP -/,
   ⟨0x010, 1, 4, 0x0, 0x0, 0x7FF, 0x0, 0x0, false⟩ /- SHUT_EVT -/,
   ⟨0x040, 1, 4, 0xF, 0x0, 0x0, 0x0, 0x0, false⟩ /- SHUT_STATE_0 -/,
   ⟨0x044, 1, 4, 0x0, 0x0, 0x0, 0x0, 0x0, false⟩ /- SHUT_STATE_1 -/,
   ⟨0x048, 1, 4, 0x0, 0x0, 0x0, 0x0, 0x0, false⟩ /- SHUT_BUSY -/,
   ⟨0x04C, 1, 4, 0x0, 0x0, 0x0, 0x0, 0x0, false⟩ /- SHUT_PROFILE -/,
   ⟨0x050, 1, 4, 0x14, 0x7F, 0x0, 0x0, 0x0, true⟩ /- SHUT_STAGGER -/,
   ⟨0x054, 1, 4, 0x0, 0x0, 0x0, 0x0, 0x0, false⟩ /- SHUT_SUPPLY -/,
   ⟨0x058, 1, 4, 0x0, 0x0, 0x0, 0x0, 0x0, false⟩ /- SHUT_RESET_CAUSE -/,
   ⟨0x05C, 1, 4, 0x0, 0x0, 0x0, 0x0, 0x1F7FFFFF, false⟩ /- SHUT_BOOT_CFG -/,
   ⟨0x060, 1, 4, 0x0, 0x0, 0x0, 0x0, 0x0, false⟩ /- SHUT_BOOT_STAT -/,
   ⟨0x064, 1, 4, 0xFFFFFFFF, 0x0, 0x0, 0x0, 0x0, false⟩ /- SHUT_T_FIRST -/,
   ⟨0x068, 1, 4, 0xFFFFFFFF, 0x0, 0x0, 0x0, 0x0, false⟩ /- SHUT_T_FULL -/,
   ⟨0x06C, 1, 4, 0x0, 0x1, 0x0, 0x0, 0x0, true⟩ /- SHUT_CLK_SEL -/,
   ⟨0x070, 1, 4, 0x0, 0x0, 0x0, 0x0, 0x0, false⟩ /- SHUT_CLK_STAT -/,
   ⟨0x074, 1, 4, 0x0, 0x0, 0xFFFFFFFF, 0x0, 0x0, false⟩ /- SHUT_CLK_FAULT -/,
   ⟨0x078, 1, 4, 0x0, 0x1F, 0x0, 0x0, 0x0, false⟩ /- SHUT_CLK_IDX -/,
   ⟨0x07C, 1, 4, 0x0, 0x0, 0x0, 0x0, 0x0, false⟩ /- SHUT_CLK_FREQ -/,
   ⟨0x080, 1, 4, 0x64, 0x0, 0x0, 0x0, 0x8000FFFF, false⟩ /- SHUT_HWDG_CFG -/,
   ⟨0x084, 1, 4, 0x0, 0x0, 0x0, 0x0, 0x0, false⟩ /- SHUT_HWDG_KICK -/,
   ⟨0x088, 1, 4, 0x0, 0x0, 0x0, 0x0, 0x0, false⟩ /- SHUT_HWDG_COUNT -/]

/-- The registers of the TICK page. -/
def regsTICK : List RegInfo :=
  [⟨0x004, 1, 4, 0x408, 0x0, 0x0, 0x0, 0x0, false⟩ /- TICK_CAP -/,
   ⟨0x010, 1, 4, 0x0, 0x0, 0x7F, 0x0, 0x0, false⟩ /- TICK_EVT -/,
   ⟨0x040, 1, 4, 0x0, 0x0, 0x0, 0x0, 0x1, false⟩ /- TICK_RUN -/,
   ⟨0x044, 1, 4, 0x65B9AAAB, 0x0, 0x0, 0xFFFFFFFF, 0xFFFFFFFF, true⟩ /- TICK_PERIOD -/,
   ⟨0x048, 1, 4, 0x0, 0x0, 0x0, 0xFFFFFF, 0x0, false⟩ /- TICK_SLEW -/,
   ⟨0x04C, 1, 4, 0x1388, 0x0, 0x0, 0xFFFF, 0x0, false⟩ /- TICK_CUTOFF -/,
   ⟨0x050, 1, 4, 0x0, 0x0, 0x0, 0x0, 0x0, false⟩ /- TICK_SNAP -/,
   ⟨0x054, 1, 4, 0x0, 0x0, 0x0, 0x0, 0x0, false⟩ /- TICK_PHASE -/,
   ⟨0x058, 1, 4, 0x0, 0x0, 0x0, 0x0, 0x0, false⟩ /- TICK_EDGES_LO -/,
   ⟨0x05C, 1, 4, 0x0, 0x0, 0x0, 0x0, 0x0, false⟩ /- TICK_EDGES_HI -/,
   ⟨0x060, 1, 4, 0x0, 0x0, 0x0, 0x0, 0x0, false⟩ /- TICK_ADM_PERIOD -/,
   ⟨0x064, 1, 4, 0x9C4000, 0x0, 0x0, 0x0, 0x0, false⟩ /- TICK_ARRAY_BUDGET -/,
   ⟨0x068, 1, 4, 0xFA, 0xFFFF, 0x0, 0x0, 0x0, false⟩ /- TICK_OUT_CFG -/,
   ⟨0x06C, 1, 4, 0x0, 0x0, 0x0, 0x0, 0x0, false⟩ /- TICK_DEFER -/,
   ⟨0x070, 1, 4, 0x0, 0x0, 0x0, 0x0, 0x0, false⟩ /- TICK_LATE_READ -/,
   ⟨0x074, 1, 4, 0x7777, 0x0, 0x0, 0x0, 0x0, false⟩ /- TICK_PROV_WP -/,
   ⟨0x400, 256, 4, 0x0, 0x0, 0x0, 0x0, 0x0, false⟩ /- TICK_PROV -/]

/-- The registers of the DBG page. -/
def regsDBG : List RegInfo :=
  [⟨0x800, 1, 4, 0x0, 0x0, 0x0, 0x0, 0x0, false⟩ /- DBG_FLT_ACTIVE -/,
   ⟨0x804, 1, 4, 0x0, 0x0, 0x3F, 0x0, 0x0, false⟩ /- DBG_FLT_LATCH -/,
   ⟨0x808, 1, 4, 0x2E, 0x0, 0x0, 0x0, 0x17, false⟩ /- DBG_FLT_PIN_EN -/,
   ⟨0x80C, 1, 4, 0x3, 0x0, 0x0, 0x0, 0xFF, false⟩ /- DBG_FLT_ESC -/,
   ⟨0x810, 6, 4, 0x0, 0x0, 0x0, 0x0, 0x0, false⟩ /- DBG_FLT_COUNT -/,
   ⟨0x828, 1, 4, 0x0, 0x0, 0x0, 0x0, 0x0, false⟩ /- DBG_FLT_WP -/,
   ⟨0x82C, 1, 4, 0x0, 0x0, 0x0, 0x0, 0x0, false⟩ /- DBG_FLT_INVALID_LO -/,
   ⟨0x830, 1, 4, 0x0, 0x0, 0x0, 0x0, 0x0, false⟩ /- DBG_FLT_INVALID_HI -/,
   ⟨0xA00, 128, 4, 0x0, 0x0, 0x0, 0x0, 0x0, false⟩ /- DBG_FLT_LOG -/,
   ⟨0x004, 1, 4, 0x1006, 0x0, 0x0, 0x0, 0x0, false⟩ /- DBG_CAP -/,
   ⟨0x010, 1, 4, 0x0, 0x0, 0x3F, 0x0, 0x0, false⟩ /- DBG_EVT -/,
   ⟨0x040, 1, 4, 0x0, 0x0, 0x0, 0x0, 0x0, false⟩ /- DBG_VT_OUT -/,
   ⟨0x044, 1, 4, 0x0, 0x0, 0x0, 0x0, 0x0, false⟩ /- DBG_VT_IN -/,
   ⟨0x048, 1, 4, 0x300, 0xFFFF, 0x0, 0x0, 0x0, false⟩ /- DBG_ENG_SEL -/,
   ⟨0x04C, 1, 4, 0x0, 0x0, 0x0, 0x0, 0x0, false⟩ /- DBG_RUN_CTL -/,
   ⟨0x050, 1, 4, 0x0, 0x0, 0x0, 0x0, 0x0, false⟩ /- DBG_RUN_STAT -/,
   ⟨0x054, 1, 4, 0x0, 0x3FF, 0x0, 0x0, 0x0, false⟩ /- DBG_REG_IDX -/,
   ⟨0x058, 1, 4, 0x0, 0xFFFFFFFF, 0x0, 0x0, 0x0, false⟩ /- DBG_REG_DATA -/,
   ⟨0x05C, 1, 4, 0x0, 0x0, 0x0, 0x0, 0x0, false⟩ /- DBG_VT_STAT -/,
   ⟨0x060, 1, 4, 0x0, 0x0, 0x0, 0x0, 0xC0000000, false⟩ /- DBG_ALLOW -/,
   ⟨0x064, 1, 4, 0x0, 0x0, 0x0, 0x0, 0xFFFFFFFF, false⟩ /- DBG_ALLOW_ID -/,
   ⟨0x068, 1, 4, 0x0, 0x0, 0x0, 0x0, 0x0, false⟩ /- DBG_DENIED -/,
   ⟨0x06C, 1, 4, 0x0, 0x0, 0x0, 0x0, 0x0, false⟩ /- DBG_LEVEL -/,
   ⟨0x100, 16, 4, 0x0, 0x0, 0x0, 0x0, 0x0, false⟩ /- DBG_MISS -/]

/-- The registers of a sash engine page. -/
def regsSASH : List RegInfo :=
  [⟨0x004, 1, 4, 0x400000, 0x0, 0x0, 0x0, 0x0, false⟩ /- ENG_CAP -/,
   ⟨0x010, 1, 4, 0x0, 0x0, 0x7FF, 0x0, 0x0, false⟩ /- ENG_EVT -/,
   ⟨0x040, 1, 4, 0x0, 0x0, 0x0, 0x0, 0x0, false⟩ /- ENG_STATE -/,
   ⟨0x044, 1, 4, 0x0, 0xFFFFFFFF, 0x0, 0x0, 0x0, false⟩ /- ENG_START -/,
   ⟨0x048, 1, 4, 0x0, 0x0, 0x0, 0x0, 0x0, false⟩ /- ENG_PC -/,
   ⟨0x04C, 1, 4, 0x8000A2C3, 0x800FFFFF, 0x0, 0x0, 0x0, true⟩ /- ENG_WDG_CFG -/,
   ⟨0x050, 1, 4, 0x0, 0x0, 0x0, 0x0, 0x0, false⟩ /- ENG_WDG_KICK -/,
   ⟨0x054, 1, 4, 0x0, 0x0, 0x0, 0x0, 0x0, false⟩ /- ENG_WDG_COUNT -/,
   ⟨0x058, 1, 4, 0x0, 0x0, 0x0, 0x0, 0x0, false⟩ /- ENG_TASK -/,
   ⟨0x05C, 1, 4, 0x0, 0x0, 0xFF, 0x0, 0x0, false⟩ /- ENG_IRQ -/,
   ⟨0x060, 1, 4, 0x0, 0x0, 0x0, 0x0, 0x0, false⟩ /- ENG_MEM_CE -/,
   ⟨0x064, 1, 4, 0x0, 0x0, 0x0, 0x0, 0x0, false⟩ /- ENG_MEM_ERR_LOC -/,
   ⟨0x080, 1, 4, 0x0, 0xFFFFFFC0, 0x0, 0x0, 0x0, false⟩ /- SASH_RELOAD_LO -/,
   ⟨0x084, 1, 4, 0x0, 0xFF, 0x0, 0x0, 0x0, false⟩ /- SASH_RELOAD_HI -/,
   ⟨0x088, 1, 4, 0x0, 0xFFF07FF, 0x0, 0x0, 0x0, false⟩ /- SASH_RELOAD_LEN -/,
   ⟨0x08C, 1, 4, 0x0, 0x0, 0x0, 0x0, 0x0, false⟩ /- SASH_XBAR -/,
   ⟨0x090, 1, 4, 0x1, 0x0, 0x0, 0x3, 0x3, false⟩ /- SASH_SPARE_CTL -/,
   ⟨0x094, 1, 4, 0x0, 0x0, 0x0, 0x0, 0x0, false⟩ /- SASH_SPARE_STAT -/]

/-- The registers of a slat engine page. -/
def regsSLAT : List RegInfo :=
  [⟨0x004, 1, 4, 0x400000, 0x0, 0x0, 0x0, 0x0, false⟩ /- ENG_CAP -/,
   ⟨0x010, 1, 4, 0x0, 0x0, 0x7FF, 0x0, 0x0, false⟩ /- ENG_EVT -/,
   ⟨0x040, 1, 4, 0x0, 0x0, 0x0, 0x0, 0x0, false⟩ /- ENG_STATE -/,
   ⟨0x044, 1, 4, 0x0, 0xFFFFFFFF, 0x0, 0x0, 0x0, false⟩ /- ENG_START -/,
   ⟨0x048, 1, 4, 0x0, 0x0, 0x0, 0x0, 0x0, false⟩ /- ENG_PC -/,
   ⟨0x04C, 1, 4, 0x8000A2C3, 0x800FFFFF, 0x0, 0x0, 0x0, true⟩ /- ENG_WDG_CFG -/,
   ⟨0x050, 1, 4, 0x0, 0x0, 0x0, 0x0, 0x0, false⟩ /- ENG_WDG_KICK -/,
   ⟨0x054, 1, 4, 0x0, 0x0, 0x0, 0x0, 0x0, false⟩ /- ENG_WDG_COUNT -/,
   ⟨0x058, 1, 4, 0x0, 0x0, 0x0, 0x0, 0x0, false⟩ /- ENG_TASK -/,
   ⟨0x05C, 1, 4, 0x0, 0x0, 0xFF, 0x0, 0x0, false⟩ /- ENG_IRQ -/,
   ⟨0x060, 1, 4, 0x0, 0x0, 0x0, 0x0, 0x0, false⟩ /- ENG_MEM_CE -/,
   ⟨0x064, 1, 4, 0x0, 0x0, 0x0, 0x0, 0x0, false⟩ /- ENG_MEM_ERR_LOC -/,
   ⟨0x068, 1, 4, 0x0, 0x0, 0x80000000, 0x0, 0x0, false⟩ /- ENG_DMA_ERR -/,
   ⟨0x06C, 1, 4, 0x0, 0x0, 0x0, 0x0, 0x0, false⟩ /- ENG_DMA_ERR_ADDR_LO -/,
   ⟨0x070, 1, 4, 0x0, 0x0, 0x0, 0x0, 0x0, false⟩ /- ENG_DMA_ERR_ADDR_HI -/,
   ⟨0x200, 1, 4, 0x0, 0x0, 0x0, 0x0, 0x0, false⟩ /- SLAT_ROW_CFG -/,
   ⟨0x204, 1, 4, 0x0, 0x0, 0x80000000, 0x0, 0x0, false⟩ /- SLAT_ROW_STAT -/,
   ⟨0x208, 1, 4, 0x0, 0x0, 0x0, 0x0, 0x0, false⟩ /- SLAT_ROW_DROPS -/,
   ⟨0x20C, 1, 4, 0x0, 0x0, 0x0, 0x0, 0x0, false⟩ /- SLAT_ROW_LIFTS -/,
   ⟨0x210, 1, 4, 0x0, 0x0, 0x0, 0x0, 0x0, false⟩ /- SLAT_ROW_WAIT -/]

/-- The registers of a gate engine page. -/
def regsGENG : List RegInfo :=
  [⟨0x004, 1, 4, 0x400000, 0x0, 0x0, 0x0, 0x0, false⟩ /- ENG_CAP -/,
   ⟨0x010, 1, 4, 0x0, 0x0, 0x7FF, 0x0, 0x0, false⟩ /- ENG_EVT -/,
   ⟨0x040, 1, 4, 0x0, 0x0, 0x0, 0x0, 0x0, false⟩ /- ENG_STATE -/,
   ⟨0x044, 1, 4, 0x0, 0xFFFFFFFF, 0x0, 0x0, 0x0, false⟩ /- ENG_START -/,
   ⟨0x048, 1, 4, 0x0, 0x0, 0x0, 0x0, 0x0, false⟩ /- ENG_PC -/,
   ⟨0x04C, 1, 4, 0x8000A2C3, 0x800FFFFF, 0x0, 0x0, 0x0, true⟩ /- ENG_WDG_CFG -/,
   ⟨0x050, 1, 4, 0x0, 0x0, 0x0, 0x0, 0x0, false⟩ /- ENG_WDG_KICK -/,
   ⟨0x054, 1, 4, 0x0, 0x0, 0x0, 0x0, 0x0, false⟩ /- ENG_WDG_COUNT -/,
   ⟨0x05C, 1, 4, 0x0, 0x0, 0xFF, 0x0, 0x0, false⟩ /- ENG_IRQ -/,
   ⟨0x060, 1, 4, 0x0, 0x0, 0x0, 0x0, 0x0, false⟩ /- ENG_MEM_CE -/,
   ⟨0x064, 1, 4, 0x0, 0x0, 0x0, 0x0, 0x0, false⟩ /- ENG_MEM_ERR_LOC -/,
   ⟨0x068, 1, 4, 0x0, 0x0, 0x80000000, 0x0, 0x0, false⟩ /- ENG_DMA_ERR -/,
   ⟨0x06C, 1, 4, 0x0, 0x0, 0x0, 0x0, 0x0, false⟩ /- ENG_DMA_ERR_ADDR_LO -/,
   ⟨0x070, 1, 4, 0x0, 0x0, 0x0, 0x0, 0x0, false⟩ /- ENG_DMA_ERR_ADDR_HI -/]

/-- The registers of a page of the block type (Table 02-2). -/
def regsOf (ty : Nat) : List RegInfo :=
  match ty with
  | 0x01 => regsPANE | 0x02 => regsPCTL | 0x03 => regsSASH | 0x04 => regsSLAT | 0x05 => regsGENG | 0x06 => regsPANT
  | 0x07 => regsMRCH | 0x08 => regsSTIL | 0x09 => regsTRLH | 0x0A => regsLNTL | 0x0B => regsPORT | 0x0C => regsDDRC
  | 0x0D => regsHEAD | 0x0E => regsGLAZ | 0x0F => regsCAMI | 0x10 => regsTRSM | 0x11 => regsGATE | 0x12 => regsSIGT
  | 0x13 => regsHTCH | 0x14 => regsLTCH | 0x15 => regsHNGE | 0x16 => regsSHUT | 0x17 => regsTICK | 0x18 => regsDBG
  | _ => []

/-- How many pages a block type has (Table 02-2). -/
def pageCount (ty : Nat) : Nat :=
  match ty with
  | 0x01 => 16 | 0x02 => 16 | 0x03 => 18 | 0x04 => 128 | 0x05 => 2 | 0x06 => 64 | 0x07 => 1 | 0x08 => 44 | 0x09 => 40
  | 0x0A => 2 | 0x0B => 1 | 0x0C => 2 | 0x0D => 4 | 0x0E => 1 | 0x0F => 4 | 0x10 => 1 | 0x11 => 1 | 0x12 => 1
  | 0x13 => 1 | 0x14 => 1 | 0x15 => 1 | 0x16 => 1 | 0x17 => 1 | 0x18 => 1
  | _ => 0

/-- Whether CTL.ENABLE of a page type can be written: elsewhere it reads 1 and writes have no effect. -/
def enableWritable (ty : Nat) : Bool :=
  match ty with
  | 0x01 | 0x02 | 0x03 | 0x04 | 0x05 | 0x09 | 0x0D | 0x0F | 0x10 | 0x11 => true
  | _ => false

/-- The reset value of CTL.ENABLE. LNTL and PORT give none: 1 there (DESIGN CHOICE, log entry 5). -/
def enableReset (ty : Nat) : Nat :=
  match ty with
  | 0x03 | 0x04 | 0x05 | 0x0D | 0x0F | 0x11 => 0
  | _ => 1

/-- The entry of a register table that holds the page offset. -/
def findReg : List RegInfo → Nat → Option RegInfo
  | [], _ => none
  | r :: t, off =>
    if r.off ≤ off ∧ off < r.off + r.stride * r.count ∧ (off - r.off) % r.stride = 0 then some r else findReg t off

end Sys2Proof.Machine
end

