-- ==== Sys2Proof/Machine/Table.lean ====
section
/-!
DEFINITION. Sparse tables: lists of a number and a value in one canonical form, the numbers strictly rising and no value
equal to what an unlisted number reads as.
-/

namespace Sys2Proof.Machine

/-- A sparse table: pairs of a key and a value, keys strictly rising. -/
abbrev Tbl (α : Type) := List (Nat × α)

/-- The value listed for a key, if one is: the first. -/
def tblFind {α : Type} : Tbl α → Nat → Option α
  | [], _ => none
  | (k, v) :: t, i => if i = k then some v else tblFind t i

/-- The value of a key: the listed one, or the default. -/
def tblGet {α : Type} (d : α) (t : Tbl α) (i : Nat) : α := (tblFind t i).getD d

/-- The table without the key. -/
def tblErase {α : Type} : Tbl α → Nat → Tbl α
  | [], _ => []
  | (k, v) :: t, i => if i = k then tblErase t i else (k, v) :: tblErase t i

/-- A pair put before the first larger key. -/
def tblInsert {α : Type} : Tbl α → Nat → α → Tbl α
  | [], i, x => [(i, x)]
  | (k, v) :: t, i, x => if i < k then (i, x) :: (k, v) :: t else (k, v) :: tblInsert t i x

/-- The table with the key listed at the value. -/
def tblPut {α : Type} (t : Tbl α) (i : Nat) (x : α) : Tbl α := tblInsert (tblErase t i) i x

/-- Writing a key: the value that an unlisted key reads as removes the entry, so equal tables are equal lists. -/
def tblSet {α : Type} [DecidableEq α] (d : α) (t : Tbl α) (i : Nat) (x : α) : Tbl α :=
  if x = d then tblErase t i else tblPut t i x

/-- The table without the keys of a range [lo, hi). -/
def tblDrop {α : Type} (t : Tbl α) (lo hi : Nat) : Tbl α :=
  t.filter (fun p => p.1 < lo || hi ≤ p.1)

/-- Keys strictly rising. -/
def tblSorted {α : Type} : Tbl α → Bool
  | [] => true
  | [_] => true
  | (a, _) :: (b, y) :: t => a < b && tblSorted ((b, y) :: t)

/-- The canonical form of a table with one default. -/
def tblWf {α : Type} [DecidableEq α] (d : α) (t : Tbl α) : Bool :=
  tblSorted t && t.all (fun p => p.2 ≠ d)

end Sys2Proof.Machine
end

