-- ==== Sys2Proof/Machine/State.lean ====
section
/-!
DEFINITION. The state of the device, as plain data, its reset, and the reasons a step can stop. A register of a page
lives in `regs`, keyed by page type, page number and offset; an unlisted register reads as its reset value. State that
no register shows lives in the structures below, one section per chapter of spec/.
-/

namespace Sys2Proof.Machine

/-- Bytes by address, in the canonical form of a table: what an unlisted address reads as is said by its reader. -/
abbrev Memory := Tbl Byte

/-- A response: its code (Table 13-9) and its data bytes. -/
structure Answer where
  code : Nat
  data : List Byte
  deriving DecidableEq, Repr


/-! ### Footpath (13_footpath.md) -/

/-- A flit (Table 13-5): the header's fields, XS as its 8 bits, and the payload's lanes. The last four fields are the model's own: the
DDR map under which its request was issued (R300), the losses of the link before its last crossing (R20), whether an error
has struck it in a buffer, so that the second CRC check will find it (R323), and whether a DMA engine made its request (R144). -/
structure Flit where
  route : Nat
  hop : Nat
  kind : Nat
  vc : Nat
  cb : Bool
  src : Nat
  init : Nat
  dest : Nat
  tag : Nat
  rspAlt : Bool
  tickSeq : Nat
  xs : Nat
  addr : Nat
  be : Nat
  data : List Byte
  map : Nat
  epoch : Nat
  hurt : Bool
  dma : Bool
  deriving DecidableEq, Repr

/-- Where the response to a served request goes (R305): the serving trailhead, the issuing trailhead, the tag, the request's
shape, RSP_ALT, class S, the byte enables and CB, which the response carries again (R301, R314), and the flit's loss count. -/
structure ReplyTo where
  t : Nat
  src : Nat
  tag : Nat
  write : Bool
  flits : Nat
  rspAlt : Bool
  urgent : Bool
  be : Nat
  cb : Bool
  epoch : Nat
  deriving DecidableEq, Repr

/-- A request as its target meets it: its initiator, the request, TICK_SEQ if the request came from the array (R63), and where
its response goes (none: the command that made it is answered at once). -/
structure NetIn where
  init : Initiator
  req : NetReq
  tickSeq : Option Nat
  reply : Option ReplyTo
  deriving DecidableEq, Repr

/-- One stile. Inputs and outputs are numbered port × 4 + channel. Flits on the link into an input; flits buffered there;
flits that a sender has spent a credit on and not got it back; how many flits at the front of an input hold no credit (R20, R322); the
input whose worm holds an output channel (0: none, else 1 + port); the output (1 + port) and the flits left of the worm in
progress at an input; the inputs that absorb the rest of a worm (1: after a corrupt head, 2: misrouted, 3: answered before a loss of
the link); the POISON flits with LAST that wait for a credit at an output (R327); since when the head at an input waits (its stamp
plus 1; R312); the round-robin place and the channel last sent of an output; CRC errors of an input port in this tick; flits
forwarded in this tick. -/
structure Stile where
  links : Tbl (List Flit)
  buf : Tbl (List Flit)
  used : Tbl Nat
  free : Tbl Nat
  holder : Tbl Nat
  wormOut : Tbl Nat
  wormLeft : Tbl Nat
  dropping : Tbl Nat
  cut : List (Nat × Flit)
  waitSince : Tbl Nat
  rr : Tbl Nat
  lastVc : Tbl Nat
  errTick : Tbl Nat
  flitsTick : Nat
  deriving DecidableEq, Repr

/-- An empty stile with full credit. -/
def Stile.idle : Stile := ⟨[], [], [], [], [], [], [], [], [], [], [], [], [], 0⟩

/-- A tag in use (R318) or in quarantine (R320): the initiator, the request, its stamp, and whether its storage has lost it (R506). -/
structure TagUse where
  init : Nat
  req : NetReq
  stamp : Nat
  quarantine : Bool
  lost : Bool
  deriving DecidableEq, Repr

/-- One trailhead: its tags; the requests that wait by class (R313 to R316); the bytes taken from each destination's token
bucket and when it was last filled (R314); the stamp of its last class S injection (R313); its route table, entry bank × 256
+ alternate × 128 + destination, and the pinned entries (R84, R307); the destinations whose request or response route is
the alternate (R308); the class A reservations of the variant in force (destination, bytes per µs); the CLOSE_ACKs awaited
and whether it drains (R328); ISSUED and RESPONDED (R321); the statistics of this tick and of the last (R334), initiator ×
32 + bin 0 to 15, 16 S, 17 A, 18 B; the flits that wait for a credit, with their stile. -/
structure Trailhead where
  tags : Tbl (Option TagUse)
  queueS : List (Nat × NetReq)
  queueA : List (Nat × NetReq)
  queueB : List (Nat × NetReq)
  bucket : Tbl Nat
  bucketStamp : Tbl Nat
  lastUrgent : Option Nat
  routes : Tbl (BitVec 64)
  pinned : List Nat
  reqAlt : List Nat
  rspAlt : List Nat
  reserved : List (Nat × Nat)
  ackWait : List Nat
  draining : Bool
  issued : Nat
  responded : Nat
  statNow : Tbl Nat
  statLast : Tbl Nat
  outQueue : List (Nat × Flit)
  deriving DecidableEq, Repr

/-- A trailhead as its domain comes ON (R329). -/
def Trailhead.idle : Trailhead := ⟨[], [], [], [], [], [], none, [], [], [], [], [], [], false, 0, 0, [], [], []⟩

/-- A request that crossed the Lintel and has not been answered (R19). -/
structure BridgeReq where
  src : Nat
  tag : Nat
  deriving DecidableEq, Repr


/-! ### Pages (R38, R46, R490) -/

/-- A write to a TB field that waits for its commit: register key, page offset's word, and its stamp (R38, R56). -/
structure ShadowWrite where
  key : Nat
  value : Word
  stamp : Nat
  deriving DecidableEq, Repr

/-- A fault record on its way to the aggregator (R490): page type, page number, bit of the page's EVT, class. -/
structure FaultRec where
  ty : Nat
  num : Nat
  evtBit : Nat
  cls : Nat
  deriving DecidableEq, Repr

/-! ### The tick (03_tick_and_snapshot.md) -/

/-- The tick generator's hidden state: the 24-bit fraction accumulator (R48), the CK_AO cycle of the last edge (or of the
start), the length of the tick it opened, the cutoff that governs it, whether the reference is good (R51), the inputs
counted since the cutoff (TICK_DEFER), whether an error-free frame has told the array of an edge that is not yet applied there (R16), the TICK_SEQ that the array has last seen
and the instant of that edge, the array-side cutoff once it is known, whether the render window is open, and TICK_SNAP before the last
commit. -/
structure TickState where
  acc : Nat
  lastEdge : Nat
  len : Nat
  cut : Nat
  goodWindows : Nat
  deferFrames : Nat
  deferDoorbells : Nat
  deferTb : Nat
  edgePending : Bool
  edgeSeq : Nat
  edgeAt : Nat
  arrayCutoff : Option Nat
  windowOpen : Bool
  prevSnap : Nat
  deriving DecidableEq, Repr

/-- FRAME_INFO of one frame (Table 03-9). -/
structure FrameInfo where
  hold : Bool
  debug : Bool
  variant : Nat
  picSnap : Nat
  itinId : Nat
  surfCount : Nat
  surfs : List Nat
  deriving DecidableEq, Repr

/-! ### The Lintel (01_architecture.md) -/

/-- One side of the Lintel. As a sender: the SEQ of its next frame; the slot of the cycle that comes next (Table 01-7); the frames it has
sent, oldest first (at most 64; R17); the frames it must send again; how often each SEQ has been replayed since its last success (R18);
frames sent since the last tick edge and, on the boundary side after a cutoff, since the cutoff (R16, R55); messages that wait for
a CTL frame (Table 03-9); the flits that wait for the bridges and those not yet received, oldest first: bridge, bytes still to be sent, flit; the credits to
return, bridge × 4 + channel, and the bridge whose credits the last frame carried. As
a receiver: consecutive CRC failures (R18), the NAK it will send (R17), whether it waits for a replay, the bytes received of a flit that
is not complete, per bridge, the class and payload of the last good frame. -/
structure LintelSide where
  nextSeq : Nat
  slot : Nat
  sent : List (List Byte)
  resend : List (List Byte)
  tries : Tbl Nat
  sinceEdge : Nat
  sinceCut : Option Nat
  messages : List (List Byte)
  flits : List (Nat × List Byte × Flit)
  credits : Tbl Nat
  lastCr : Nat
  crcFails : Nat
  nakOut : Bool
  waits : Bool
  rxPart : Tbl (List Byte)
  lastClass : Nat
  lastPayload : List Byte
  deriving DecidableEq, Repr

/-- A Lintel side with nothing sent or received. -/
def LintelSide.idle : LintelSide := ⟨0, 0, [], [], [], 0, none, [], [], [], 0, 0, false, false, [], 15, []⟩

/-! ### External memory (01_architecture.md) -/

/-- A request that a DDR channel holds in SREF_EXIT (Table 01-10): a read (no data) or a write, and where it came from. -/
structure DdrRequest where
  addr : Nat
  len : Nat
  enables : Nat
  data : Option (List Byte)
  origin : Option NetIn
  deriving DecidableEq, Repr

/-- One DDR channel: its data region by byte, the error patterns that have struck its 64-bit words (76 bits each), the
training record of 512 words, the mode of the training in progress, the block the scrub reads next, the uncorrectable
reads of this tick, the requests held in SREF_EXIT, and the numbers of the free values that unwritten bytes read as: one for
the 64 KiB that a FULL training uses in each rank, one for the rest. -/
structure DdrChannel where
  data : Memory
  errs : Tbl (BitVec 76)
  record : Tbl Word
  fullMode : Bool
  scrubBlock : Nat
  ueTick : Nat
  held : List DdrRequest
  lowEpoch : Nat
  epoch : Nat
  deriving DecidableEq, Repr

/-- A channel with nothing in it. -/
def DdrChannel.idle : DdrChannel := ⟨[], [], [], false, 0, 0, [], 0, 0⟩

/-- The output pins whose level the state drives: FAULT_N and TT_FAULT_N asserted (R363, R494), HOST_IRQ_N asserted (R447),
TICK_OUT high (TICK_OUT_CFG), FSYNC_0 to FSYNC_3 active (R376); and, for each MSI-X vector, the event output of its source as last
seen and whether a message of it waits (R384). -/
structure Pins where
  fault : Bool
  ttFault : Bool
  hostIrq : Bool
  tickOut : Bool
  fsync : Tbl Bool
  vecLevel : Nat
  vecWait : Nat
  deriving DecidableEq, Repr

/-- The aggregator's hidden state (R490, R492, R493, R544): the HOLD sources logged in this tick, the held frames that each
head has written in a row, the heads whose HOLD_ESC is logged, whether a provenance record of this tick and of the
last complete tick carried HOLD, and whether the thermal monitor may log. -/
structure AggState where
  holdPages : List (Nat × Nat)
  heldRow : Tbl Nat
  escalated : Tbl Bool
  holdNow : Bool
  holdLast : Bool
  thermalArmed : Bool
  deriving DecidableEq, Repr


/-! ### The Porter (04_itineraries_and_admission.md) -/

/-- A macro list entry (Table 04-4). -/
structure MacroUse where
  op : Nat
  width : Nat
  count : Nat
  deriving DecidableEq, Repr

/-- A task definition (Table 04-3). -/
structure TaskDef where
  id : Nat
  cls : Nat
  rank : Nat
  budget : Nat
  stream : Nat
  depends : Nat
  pantryAcc : Nat
  banks : Nat
  macros : List MacroUse
  deriving DecidableEq, Repr

/-- A head record (Table 04-2). -/
structure HeadRec where
  enable : Bool
  refresh : Nat
  bpp : Nat
  width : Nat
  height : Nat
  fbA : Nat
  fbB : Nat
  deriving DecidableEq, Repr

/-- A region record (Table 04-5). -/
structure RegionRec where
  head : Nat
  x : Nat
  y : Nat
  w : Nat
  h : Nat
  task : Nat
  fill : Nat
  deriving DecidableEq, Repr

/-- A task entry (Table 04-8). -/
structure TaskEntry where
  size : Nat
  base : Nat
  defIdx : Nat
  deriving DecidableEq, Repr

/-- A reservation (Table 04-10). -/
structure ResvRec where
  init : Nat
  dest : Nat
  routes : Nat
  owner : Nat
  bw : Nat
  deriving DecidableEq, Repr

/-- A variant record (Table 04-7) with what its offsets name; the reservations and the Pantry table that are those of
variant 0 are given as none. -/
structure VariantRec where
  sameAs : Nat
  entries : List TaskEntry
  resv : Option (List ResvRec)
  pantry : Option (List Nat)
  powerArray : Nat
  powerTotal : Nat
  deriving DecidableEq, Repr

/-- An itinerary, as its image gives it (Tables 04-1 to 04-10). -/
structure Itinerary where
  id : Nat
  period : Nat
  bankSel : Nat
  heads : List HeadRec
  defs : List TaskDef
  regions : List RegionRec
  variants : List VariantRec
  deriving DecidableEq, Repr

/-- The Porter: the image copied to staging, whether Latch's check of its CMAC passed while an admission is in progress, the
current itinerary, the staged one, and the stamp of its acceptance; the itinerary and the variant that rendered the picture that this
tick scans out (R65). -/
structure Porter where
  image : List Byte
  admitting : Option Bool
  current : Option Itinerary
  staged : Option Itinerary
  stagedStamp : Nat
  shown : Option Itinerary
  shownVariant : Nat
  deriving DecidableEq, Repr

/-- A gang's run of the variant in force, kept at its base pane: the indices in the variant's list of the entries still to
run; the tasks cut off or skipped in this tick; whether it runs no further entry in this tick (R267). -/
structure GangRun where
  left : List Nat
  lost : List Nat
  stopped : Bool
  deriving DecidableEq, Repr


/-! ### Panes, hampers and pane controllers (05_processing_elements.md to 07_larder_microcode.md) -/

/-- One bit of each PE of a pane: bit 256·r + c is that of PE (r, c) in logical columns (R102). -/
abbrev Plane := BitVec 65536

/-- A pane's PEs (Table 05-2): the planes of PE memory by bit address, the error patterns that have struck its rows (key
address·1024 + row·4 + segment), X, Y, C, K, F, the inbound and outbound hampers of each drop unit (key row·8 + group)
as slices, oldest first; the corrected bits of each physical column in this tick (R126); the column that waits to be
steered; whether memory is being initialised or a rebuild is in progress; the edge configuration and edge registers (side·8 + word)
that the PE-ops in execution see (R114). A hamper entry is a slice with its two parity bits, over its odd columns [33] and its even
columns [32], and each unit's occupancy is held a second time (R149). -/
structure Pane where
  planes : Tbl Plane
  errs : Tbl (BitVec 76)
  x : Plane
  y : Plane
  c : Plane
  k : Plane
  f : Plane
  inb : Tbl (List (BitVec 34))
  outb : Tbl (List (BitVec 34))
  inOcc : Tbl Nat
  outOcc : Tbl Nat
  colCount : Tbl Nat
  waitCols : List Nat
  initRunning : Bool
  rebuilding : Bool
  rebuildBad : Bool
  edgeCfg : Nat
  edges : Tbl Word
  active : Nat
  deriving DecidableEq, Repr

/-- A pane at a task start with an empty memory. -/
def Pane.idle : Pane :=
  ⟨[], [], 0, 0, 0, BitVec.allOnes 65536, 0, [], [], [], [], [], [], false, false, false, 0, [], 0⟩

/-- A PE-op issued and not yet executed, with the number of its macro-op. -/
structure Issued where
  op : BitVec 64
  seq : Nat
  deriving DecidableEq, Repr

/-- What a macro-op found in a pane when its first PE-op executed: PE memory with its error patterns, C and K (R239, R241). -/
structure MacroStart where
  planes : Tbl Plane
  errs : Tbl (BitVec 76)
  c : Plane
  k : Plane
  deriving DecidableEq, Repr

/-- A macro-op dispatched whose PE-ops have not all executed: its number, its word, the edge configuration and edge registers that govern
its PE-ops (R114), what its first PE-op found, and whether it was abandoned (R165, R174). -/
structure MacroRun where
  seq : Nat
  mop : BitVec 64
  edgeCfg : Nat
  edges : Tbl Word
  start : Option MacroStart
  cut : Bool
  deriving DecidableEq, Repr

/-- A reduction in progress (R145): the macro-op's number, its OP, GOR and TALLY. -/
structure RedAcc where
  seq : Nat
  op : Nat
  gor : Bool
  tally : Nat
  deriving DecidableEq, Repr

/-- A pane controller (R157 to R164): the macro queue; the macro-op in execution; dispatch phase; micro-program counter;
cycles left of its cost; the cycles left of a WAIT; whether the microword's next PE-op is its first; the address counters
and their steps; the loop counters and reloads; the truth tables; the constant register; the PE-ops in flight; the number
of macro-ops dispatched; the reduction in progress; results not yet delivered (GOR, TALLY); the Larder and the op table;
the hamper counters (R150: inbound dropped, popped, flushed, outbound pushed, lifted, flushed) and whether they are
frozen; the patch being loaded (its payload and tag); macro-ops dispatched and padding cycles in this tick; the macro-ops whose PE-ops have
not all executed; the edge writes whose responses wait for a macro-op boundary (R114; none: one answered in the answer slot); the TSN of its gang
(R266). -/
structure PaneCtl where
  queue : List (BitVec 64)
  mop : BitVec 64
  dispatch : Bool
  upc : Nat
  remaining : Nat
  waitLeft : Nat
  first : Bool
  a : Nat
  b : Nat
  d : Nat
  stepA : Nat
  stepB : Nat
  stepD : Nat
  lc0 : Nat
  lc0r : Nat
  lc1 : Nat
  lc1r : Nat
  ttR : Nat
  ttC : Nat
  const : BitVec 64
  inflight : List Issued
  seq : Nat
  red : Option RedAcc
  results : List (Bool × Nat)
  larder : Tbl Word
  opTable : Tbl (BitVec 64)
  hamp : Tbl Nat
  hampFrozen : Bool
  patch : Option (List Byte × Nat × Nat)
  macrosTick : Nat
  padTick : Nat
  runs : List MacroRun
  edgeWait : List (Option ReplyTo)
  tsn : Nat
  deriving DecidableEq, Repr

/-- A pane controller in dispatch with nothing loaded. -/
def PaneCtl.idle : PaneCtl :=
  ⟨[], 0, true, 0, 0, 0, true, 0, 0, 0, 1, 1, 1, 0, 0, 0, 0, 0, 0, 0, [], 0, none, [], [], [], [], false, none, 0, 0, [], [], 0⟩

/-- A row-port command that waits or runs (R138): the command, its byte address, the next slice, and the words that its drop
reads or the slices that its lift has taken. -/
structure RowCmd where
  cmd : Nat
  addr : Nat
  next : Nat
  words : List Word
  deriving DecidableEq, Repr

/-- A slat's row port: the queued commands of each quad, the command that each quad runs, the next one whose words already stand in the
other half of the corner-turn buffer (R141), the quad whose transfer waits on a full or empty unit (R132), the slices it
dropped and lifted in this tick. -/
structure RowPort where
  queue : Tbl (List RowCmd)
  run : Tbl (Option RowCmd)
  ahead : Tbl (Option RowCmd)
  held : Option Nat
  drops : Nat
  lifts : Nat
  deriving DecidableEq, Repr

/-- A row port with nothing to do. -/
def RowPort.idle : RowPort := ⟨[], [], [], none, 0, 0⟩


/-! ### Pantry (12_pantry.md) -/

/-- A request that a bank has queued (R282): what arrived, the words it touches still to serve, the bytes read so far, whether
a word was uncorrectable, whether it is of the next owner and held, and whether it arrived before the hand-over's write. -/
structure PantReq where
  net : NetIn
  words : List Nat
  data : List Byte
  bad : Bool
  held : Bool
  early : Bool
  deriving DecidableEq, Repr

/-- A Pantry bank: its bytes, the error patterns that have struck its words, the two queues, whether the general head waited
in the last cycle, the corrected words to write back, and the accesses and conflicts of this tick. -/
structure PantBank where
  data : Memory
  errs : Tbl (BitVec 76)
  sashQ : List PantReq
  genQ : List PantReq
  waited : Bool
  writeBack : List Nat
  accesses : Nat
  conflicts : Nat
  deriving DecidableEq, Repr

/-- An empty bank. -/
def PantBank.idle : PantBank := ⟨[], [], [], [], false, [], 0, 0⟩

/-- A March run in progress (R288): preserving mode, alternating background, the banks; the accesses that each bank's port has made, and
the failures met so far (R289, R290). -/
structure MarchRun where
  preserve : Bool
  checker : Bool
  banks : List Nat
  done : Tbl Nat
  fails : List MarchFail
  deriving DecidableEq, Repr


/-! ### Engines: memories and what the array tells them (06_hampers_and_reductions.md, 11_engines.md) -/

/-- What the array delivers to a sash engine: flag G, the tally register, the result count (R147), and the TSN of a task ended
as at a cut-off whose TASK_END trap has not been taken (R266). -/
structure ArrayLink where
  g : Bool
  tally : Nat
  rcnt : Nat
  taskEnd : Option Nat
  deriving DecidableEq, Repr

/-- Nothing delivered. -/
def ArrayLink.idle : ArrayLink := ⟨false, 0, 0, none⟩

/-- An engine's memories: instruction and data memory by byte, the error patterns that have struck their 64-bit rows (data
memory rows from 2^20 on), the row that the scrub reads next, and whether they are being set to zero (R260). -/
structure EngMem where
  imem : Memory
  dmem : Memory
  errs : Tbl (BitVec 76)
  scrubRow : Nat
  initRunning : Bool
  deriving DecidableEq, Repr

/-- Memories with nothing in them. -/
def EngMem.idle : EngMem := ⟨[], [], [], 0, false⟩


/-! ### Engines (08_casement_isa.md, 09_instruction_reference.md, 10_numerics.md, 11_engines.md) -/

/-- An interlocked result that has not landed (R193): its physical targets and values; the FP exception flags it raises; N, Z,
C, V of an FCMP; the unit that computes it (0 pipelined FP, 1 the divider of DIV, 2 the FP divider); the engine cycle from which
on it has landed; the bundle and the syllable of the operation (R249). -/
structure LateRes where
  regs : List (Nat × Nat)
  fpFlags : Nat
  nzcv : Option Nat
  unit : Nat
  landAt : Nat
  pc : Nat
  syl : Nat
  deriving DecidableEq, Repr

/-- A bundle that waits for the response to its far access (R194): its syllables, whether it is a REP iteration, and the
system registers and array results as they stood at its start (R181), and the responses that have come: an element that lies in two
64-byte blocks takes two requests. -/
structure FarWait where
  words : List Nat
  isRep : Bool
  sys : Tbl Nat
  link : ArrayLink
  answers : List Answer
  deriving DecidableEq, Repr

/-- A DMA transfer in its queue (R238): its sequence number and the six words of its descriptor (R269). -/
structure DmaXfer where
  seq : Nat
  words : List Nat
  deriving DecidableEq, Repr

/-- The DMA transfer in progress (R270): the row and the byte within it that comes next, the requests outstanding with the
local address of each, and the first error: response code and far address. -/
structure DmaRun where
  row : Nat
  col : Nat
  out : List (NetReq × Nat)
  err : Option (Nat × Nat)
  deriving DecidableEq, Repr

/-- An engine. The registers: PC, the physical registers, the system registers by SEL (FLG without G, which lies in
`arrayLink`). The syllables issued of the bundle in progress; loads whose value lands at the end of the next bundle (R191), and
those that land now; interlocked results; engine cycles counted; a far access waited for; a REP bundle in progress
(R202). The DMA engine: the queue, the number the next transfer gets, DONE_SEQ, ERR, the transfer in progress. The period that
the watchdog counts from (R268). A stop requested and not yet taken (R263); a halt requested and not yet
taken, as the CAUSE it will show (0: none; R519); a single step in progress (1; 2 with interrupts masked; R523); BRK_HALT (R524). A bundle that has issued
and waits where no event is taken: WFI, ROWCMD or DMA (R198, R226). -/
structure Engine where
  pc : Nat
  phys : Tbl Nat
  sys : Tbl Nat
  bundle : List Nat
  loads : List (Nat × Nat)
  due : List (Nat × Nat)
  late : List LateRes
  cyc : Nat
  far : Option FarWait
  rep : Option (List Nat)
  dmaQueue : List DmaXfer
  dmaNext : Nat
  dmaDone : Nat
  dmaErr : Bool
  dmaRun : Option DmaRun
  wdgFull : Nat
  stopReq : Bool
  haltReq : Nat
  stepReq : Nat
  brkHalt : Bool
  held : Bool
  deriving DecidableEq, Repr

/-- An engine at reset, its PC apart (R204, R238). -/
def Engine.idle : Engine :=
  ⟨0, [], [], [], [], [], [], 0, none, none, [], 0, 0xFFF, false, none, 0, false, 0, 0, false, false⟩


/-! ### Display heads and Glazing (14_display_and_glazing.md) -/

/-- The frame that a head has started and whose record is not yet written: its number; whether it is the second scan (R65); the
snapshot of its tell-tales; its source at the first active pixel (1 array, 2 limp, 3 black: HEAD_SRC.SOURCE) and the active line at
which an underrun cut it; whether Glazing saw its start; whether checking was suspended in it; the tell-tales checked in it; whether
one mismatched. -/
structure Scan where
  number : Nat
  second : Bool
  ttSnap : Nat
  source : Nat
  cut : Option Nat
  seen : Bool
  suspended : Bool
  checked : List Nat
  mismatch : Bool
  deriving DecidableEq, Repr

/-- One head: frames started since it was enabled; frame starts that the last edge made due; the frame in progress; the FRAME_INFO
received (R70); the lines in the line buffer, oldest first (R342); the active line that the
scanout fetches next; the last active line presented at stage 6; the two LUT copies and whether the copy back runs (R345); the stage
enables and dither mode in force; whether the tell-tale states of this tick have been taken (R67), and the values of the limp layers
taken with them, none where a layer shows its invalid glyph (R365). -/
structure Head where
  frames : Nat
  due : Nat
  scan : Option Scan
  info : Option FrameInfo
  lines : List (Nat × List Nat)
  nextLine : Nat
  glass : List Nat
  lut : Tbl Nat
  lutSpare : Tbl Nat
  copying : Bool
  style : Nat
  taken : Bool
  limpValues : List (Option Nat)
  deriving DecidableEq, Repr

/-- A head that has shown nothing. -/
def Head.idle : Head := ⟨0, 0, none, none, [], 0, [], [], [], false, 0, false, []⟩

/-- One pair of a tell-tale and a head (GLAZ_TT_STAT, GLAZ_TT_CRC_LAST): escalation state, consecutive and total mismatches, the CRC of
its last checked scan, shown state and mode in the last frame. -/
structure TtPair where
  esc : Nat
  count : Nat
  total : Nat
  last : Nat
  shown : Nat
  mode : Nat
  deriving DecidableEq, Repr

/-- A pair that nothing has happened to. -/
def TtPair.idle : TtPair := ⟨0, 0, 0, 0, 0, 0⟩

/-- Glazing: its SRAM and the error patterns in its rows of 64 bits, the pairs by 4 × tell-tale + head, the row the scrub takes next. -/
structure Glazing where
  sram : Memory
  errs : Tbl (BitVec 76)
  pairs : Tbl TtPair
  scrubRow : Nat
  deriving DecidableEq, Repr


/-! ### Cameras and the Transom (15_cameras_and_transom.md) -/

/-- The frame that a camera receiver is in: lines received; the last line, held back until the frame end (R370); the discard reasons that
apply (Table 15-3). -/
structure CamFrame where
  lines : Nat
  last : Option (List Byte)
  link : Bool
  hdr : Bool
  crc : Bool
  size : Bool
  deriving DecidableEq, Repr

/-- What waits on a camera's PIX stream for the writer: a frame start with its number, or a line. -/
inductive PixItem where
  | start (fnum : Nat)
  | line (y : Nat) (data : List Byte)
  deriving DecidableEq, Repr

/-- A camera buffer: 0 FREE, 1 WRITING, 2 PENDING, 3 CURRENT; its frame's number and stamp (R372). -/
structure CamBuf where
  st : Nat
  fnum : Nat
  stamp : Nat
  deriving DecidableEq, Repr

/-- A camera: the receiver's frame, VC and DT in force, an FSYNC pulse that the last edge made due; the PIX stream; the writer's buffers,
the lines of its frame, and its counts STARTED, CURRENT, SUPERSEDED, NOBUF, WERR, CUT (R374). -/
structure Camera where
  frame : Option CamFrame
  cfg : Nat
  pulseDue : Bool
  pix : List PixItem
  bufs : Tbl CamBuf
  lines : Nat
  counts : Tbl Nat
  deriving DecidableEq, Repr

/-- A camera with nothing received. -/
def Camera.idle : Camera := ⟨none, 0x80C1E, false, [], [], 0, []⟩

/-- An entry of the surface table (R379): EN, BUFS, ID as TRSM_SURF_CFG; the buffers' addresses; PAGES; the buffers' states (0 FREE, 1
FILLING, 2 POSTED, 3 CURRENT), the stamps of the POSTED ones in the order of acceptance, and whether a write of one failed (R382). -/
structure Surface where
  cfg : Nat
  addrs : Tbl Nat
  pages : Nat
  states : Tbl Nat
  posted : List (Nat × Nat)
  failed : Tbl Bool
  deriving DecidableEq, Repr

/-- An entry as reset leaves it. -/
def Surface.idle : Surface := ⟨0x300FFFF, [], 1, [], [], []⟩



/-! ### Gatehouse and signal table (16_gatehouse.md) -/

/-- A value slot of a signal entry (R410, Table 16-9): value, updates in the snapshot, INVALID, SUBST, TIMEOUT, FRESH, and the
stamp of the update that supplied the value (0 when none). -/
structure SigSlot where
  value : Nat
  updates : Nat
  invalid : Bool
  subst : Bool
  timeout : Bool
  fresh : Bool
  stamp : Nat
  deriving DecidableEq, Repr

/-- Value 0 with only INVALID set (R411). -/
def SigSlot.empty : SigSlot := ⟨0, 0, true, false, false, false, 0⟩

/-- A signal entry (R410): its two slots, whether the second is the committed one, how it is marked for the coming snapshot (0
not, 1 by an update, 2 by a timeout), and the cycle from which its timeout counts. -/
structure SigEntry where
  slot0 : SigSlot
  slot1 : SigSlot
  sel : Bool
  mark : Nat
  last : Nat
  deriving DecidableEq, Repr

/-- An entry that was never updated. -/
def SigEntry.empty : SigEntry := ⟨SigSlot.empty, SigSlot.empty, false, 0, 0⟩

/-- The signal table: entries, configurations (Table 16-8) and descriptors (Table 16-7) as 128-bit numbers, the error patterns
that have struck their rows, and the row that the scrub reads next (R415). -/
structure SigTable where
  entries : Tbl SigEntry
  cfg : Tbl Nat
  desc : Tbl Nat
  errs : Tbl (BitVec 76)
  scrubRow : Nat
  deriving DecidableEq, Repr

/-- A write in the queue that GATE and SIGT share (R396): the table (0 CAM, 1 profiles, 2 entry configurations, 3 descriptors),
the index, the entry, and the stamp of the write. -/
structure TabWrite where
  kind : Nat
  idx : Nat
  value : Nat
  stamp : Nat
  deriving DecidableEq, Repr

/-- A frame received and not yet classified (R400): its port, format, whether its key is an EtherType, key identifier, node (XL:
SDT), stamp in CK_AO cycles, payload. -/
structure ArrivedFrame where
  port : Nat
  fmt : Nat
  raw : Bool
  id : Nat
  node : Nat
  stamp : Nat
  data : List Byte
  deriving DecidableEq, Repr

/-- An input in the post-cutoff hold (R60, R402): its stamp, the class as which it was served, its descriptors and payload; or an
injection (entry and value). -/
structure HeldInput where
  stamp : Nat
  cls : Nat
  first : Nat
  count : Nat
  data : List Byte
  inject : Option (Nat × Nat)
  deriving DecidableEq, Repr

/-- A frame in a gate engine's receive queue (R416), with the class as which it was served and the CAM entry hit. -/
structure QueuedFrame where
  frame : ArrivedFrame
  cls : Nat
  cam : Nat
  deriving DecidableEq, Repr

/-- A frame to send (Table 16-10): identifier, format, BRS, SDT, data, the engine that posted it (none: a status frame), and how
often it has collided. -/
structure TxFrame where
  id : Nat
  fmt : Nat
  brs : Bool
  sdt : Nat
  data : List Byte
  sender : Option Nat
  collisions : Nat
  deriving DecidableEq, Repr

/-- The Gatehouse: CAM and profiles (128 and 64 bits each); streams (none: INIT); the stamp of each CAM entry's last class A
frame; staged words (table × 4 + word); the shared queue; frames not yet classified; the hold; per engine the receive queue, the
staging area (engine × 1,024 + byte), whether a frame is staged, and the stamp and port of the last frame sent; per port the
transmit queue, the status frame that waits, the frame last sent; the counters and their capture (port × 32 + code); error
counters of the CAN controllers and whether recovery is allowed; per port the status frames sent, the counts that the last one
covered and those that the waiting one covers (R420); whether a status frame is due. -/
structure Gatehouse where
  cam : Tbl Nat
  prof : Tbl Nat
  streams : Tbl (Option Nat)
  lastA : Tbl (Option Nat)
  staging : Tbl Nat
  tbQueue : List TabWrite
  arrived : List ArrivedFrame
  held : List HeldInput
  rxq : Tbl (List QueuedFrame)
  stage : Memory
  staged : Tbl Bool
  txLast : Tbl (Option (Nat × Nat))
  txq : Tbl (List TxFrame)
  status : Tbl (Option TxFrame)
  wire : Tbl (Option TxFrame)
  counts : Tbl Nat
  captured : Tbl Nat
  tec : Tbl Nat
  rxe : Tbl Nat
  mayRecover : Tbl Bool
  statSeq : Tbl Nat
  statBase : Tbl (List Nat)
  statNext : Tbl (List Nat)
  statDue : Bool
  deriving DecidableEq, Repr

/-- A Gatehouse with nothing in it. -/
def Gatehouse.idle : Gatehouse :=
  ⟨[], [], [], [], [], [], [], [], [], [], [], [], [], [], [], [], [], [], [], [], [], [], [], false⟩



/-! ### Latch and Hatch (17_latch_security.md) -/

/-- A critical command as it reaches Latch (Table 17-4): from a gate engine or from Hatch; its fields; whether the two AES datapaths
disagree and whether a journal write of it fails (R429). -/
structure CritCmd where
  gate : Bool
  code : Nat
  slot : Nat
  ctr : Nat
  device : Nat
  args : List Byte
  tag : List Byte
  stamp : Nat
  aesFault : Bool
  journalFail : Bool
  deriving DecidableEq, Repr

/-- A KEY_ROLL whose fuses are being programmed (R433). -/
structure RollJob where
  target : Nat
  key : BitVec 128
  use : Nat
  revoke : Nat
  toField : Bool
  deriving DecidableEq, Repr

/-- Latch: the fuses of the integrator slots (key; REVOKED, PROGRAMMED and USE as LTCH_SLOT_STAT shows them; whether the key is
uncorrectable); the stored counters; the entries of the two journal sectors, oldest first (slot, or 32 for BOOTS, and value), and
whether a sector is erased; BOOTS, RESYNCS and the GO count; whether commands are accepted (R435); the roll being programmed;
the commands that wait, one of each source; the SET_DOMAIN whose response waits for its parent's transition (R475); the words of LTCH_DBG_RESP. -/
structure Latch where
  keys : Tbl (BitVec 128)
  slots : Tbl Nat
  keyBad : Tbl Bool
  ctr : Tbl Nat
  journal : Tbl (List (Nat × Nat))
  dirty : Tbl Bool
  boots : Nat
  resyncs : Nat
  goCount : Nat
  ready : Bool
  rolling : Option RollJob
  waiting : List CritCmd
  held : Option CritCmd
  response : Tbl Word
  deriving DecidableEq, Repr



/-! ### Hinge (18_hinge_fabric.md) -/

/-- The flash: its bytes, and the error patterns that have struck its 64-bit words (R461). -/
structure Flash where
  data : Memory
  errs : Tbl (BitVec 76)
  deriving DecidableEq, Repr

/-- A load of the fabric (R456): the copies still to try after the one in progress, which copy that is, the key, the stamp. -/
structure FabricLoad where
  copyB : Bool
  offset : Nat
  key : Nat
  deriving DecidableEq, Repr

/-- A FLASH_WRITE in progress (R463): the container, where it goes, the key that authenticates it. -/
structure FlashJob where
  container : List Byte
  dst : Nat
  key : Nat
  deriving DecidableEq, Repr

/-- A hard serial port's FIFOs (R466): transmit entries (CTRL and byte), receive entries (BREAK, ERR and byte). -/
structure SerialPort where
  tx : List (Bool × Nat)
  rx : List (Bool × Bool × Nat)
  deriving DecidableEq, Repr

/-- The fabric: configuration frames (data bits) and the CRC held of each from the load, with the error patterns that struck the
held CRCs; the flip-flops of each bay; the parking table; the captured flip-flops and the nets still to capture; the load in
progress; the frame that the scrub reads next and the frame that mismatched in this pass; whether a parked fabric was RELEASED
before RETAIN; the UIN words in force. -/
structure Fabric where
  frames : Tbl (BitVec 512)
  held : Tbl Nat
  heldErrs : Tbl (BitVec 76)
  flops : Tbl Nat
  park : Option (List Nat)
  captured : Tbl Nat
  capWait : List Nat
  load : Option FabricLoad
  scrubNext : Nat
  mismatch : List Nat
  keep : Bool
  deriving DecidableEq, Repr



/-! ### The Shutter (19_shutters_clocks_boot.md) -/

/-- A WAKE or SLEEP sequence in progress (R477, R478): which of the two, RETAIN, the domains still to take after the one in hand, in
their order, and whether it waits for the Lintel. -/
structure Profile where
  wake : Bool
  retain : Bool
  left : List Nat
  waitLink : Bool
  deriving DecidableEq, Repr

/-- The Shutter: the target of each transition in progress, plus 1, by domain; the sequence in progress; whether RESET_N is low; the
frequencies of the last monitor window in kHz; which picture events each head has shown since the last accepted wake (1 the
first, 2 the full one); FULL_TRAIN of the last wake; the
host watchdog (0 not loaded or at 0, 1 more than half its period left, 2 at most half left). -/
structure Shutter where
  moving : Tbl Nat
  profile : Option Profile
  resetLow : Bool
  clkFreq : Tbl Nat
  picture : Tbl Nat
  fullTrain : Bool
  hwdg : Nat
  deriving DecidableEq, Repr

/-- The boot flow (R483 to R486): the steps started, ended and failed, as bits; the manifest's payload; the containers staged, by their
flash offsets; how far step 9 is (0 not begun, 1 self-tests, 2 + k: the k-th LARDER entry's patches). -/
structure BootFlow where
  started : Nat
  ended : Nat
  failed : Nat
  manifest : List Byte
  staged : Tbl (List Byte)
  fan : Nat
  deriving DecidableEq, Repr

/-- A flow that has not begun. -/
def BootFlow.idle : BootFlow := ⟨0, 0, 0, [], [], 0⟩




/-! ### The debug port (21_debug.md) -/

/-- The test access port (R511 to R513, R545): the instruction in force by opcode; the boundary-scan cells as last updated; the address
of the previous access; whether an access is outstanding and whether it is a read; ERR; RSP and RDATA of the last access completed. -/
structure DebugPort where
  instr : Nat
  cells : Nat
  addr : Nat
  busy : Bool
  reading : Bool
  err : Bool
  rsp : Nat
  rdata : Nat
  deriving DecidableEq, Repr


/-- The whole state of the device, as plain data. -/
structure State where
  /-- The 44 stiles. -/
  stiles : Tbl Stile
  /-- The 40 trailheads. -/
  trlh : Tbl Trailhead
  /-- Flits that a stile has delivered to a trailhead, per trailhead × 4 + channel. -/
  ejected : Tbl (List Flit)
  /-- The requests recorded at each bridge end, side × 2 + bridge (R19). -/
  bridge : Tbl (List BridgeReq)
  /-- The device trace buffer, 16,384 words (R333). -/
  trace : Tbl Word
  /-- The latest stamp that a Footpath event has carried: the model's own clock of waiting flits (R312). -/
  nocNow : Nat
  /-- Responses delivered to an initiator and not yet taken, trailhead × 32 + INIT. -/
  inbox : Tbl (List (Answer × NetReq))
  /-- The commands that wait, first in, first out. -/
  pending : List Instr
  /-- The responses the last answered command gave. -/
  answer : List Answer
  /-- How many free values have been drawn (Config.freeValue). -/
  freeCount : Nat
  /-- Every register of every page: key type·2^20 + number·2^12 + offset. -/
  regs : Tbl Word
  /-- Writes to TB fields that wait for a commit, oldest first (R38). -/
  shadows : List ShadowWrite
  /-- The initiator whose unlock window is open, per page (R46). -/
  unlock : Tbl (Option Initiator)
  /-- Fault records on their way to the aggregator (R490). -/
  reports : List FaultRec
  /-- The tick generator. -/
  tick : TickState
  /-- The two sides of the Lintel. -/
  lintel : Tbl LintelSide
  /-- How often the link has been lost: the model's own count, by which a response to a request answered at a loss is known (R20). -/
  linkLosses : Nat
  /-- The bridges have not yet been returned by the first training since an end stile's domain came up (R20). -/
  bridgeFresh : Bool
  /-- The two DDR channels. -/
  ddr : Tbl DdrChannel
  /-- The output pins. -/
  pins : Pins
  /-- The fault aggregator. -/
  agg : AggState
  /-- The Porter's memory. -/
  porter : Porter
  /-- The gangs of the variant in force, by base pane. -/
  gangs : Tbl GangRun
  /-- The tasks that have completed in this tick (R66). -/
  doneTasks : List Nat
  /-- The 16 panes. -/
  panes : Tbl Pane
  /-- The 16 pane controllers. -/
  pctl : Tbl PaneCtl
  /-- The row ports of the 128 slats. -/
  rowPorts : Tbl RowPort
  /-- Macro-ops issued and not yet in the queues, with their task sequence number, by the gang's base pane (R156). -/
  macroFlight : Tbl (List (BitVec 64 × Nat))
  /-- The panes whose last self-test since they were lost has passed (R502). -/
  bistFresh : Tbl Bool
  /-- The 64 Pantry banks. -/
  pant : Tbl PantBank
  /-- PD_PANTRY has come up from OFF and its start-up run has not begun (R293). -/
  marchDue : Bool
  /-- The March run in progress. -/
  march : Option MarchRun
  /-- What the array has told the engines, by type × 256 + number. -/
  arrayLink : Tbl ArrayLink
  /-- The engines' memories, by type × 256 + number. -/
  engMem : Tbl EngMem
  /-- The engines, by type × 256 + number. -/
  engines : Tbl Engine
  /-- The four heads. -/
  heads : Tbl Head
  /-- Glazing. -/
  glaz : Glazing
  /-- The buffer selects of the current itinerary's regions: true names framebuffer B (R66). -/
  regionSel : Tbl Bool
  /-- The four cameras: receivers and writers. -/
  cams : Tbl Camera
  /-- The 32 entries of the surface table. -/
  surfaces : Tbl Surface
  /-- The doorbells that wait: entry and buffer (R382). -/
  doorbells : List (Nat × Nat)
  /-- The signal table. -/
  sigt : SigTable
  /-- The Gatehouse. -/
  gate : Gatehouse
  /-- Latch. -/
  latch : Latch
  /-- Hatch has begun a response whose transaction has not ended (R446). -/
  hatchOpen : Bool
  /-- The 8 MiB flash. -/
  flash : Flash
  /-- Hinge's fabric. -/
  fabric : Fabric
  /-- The FLASH_WRITE in progress. -/
  flashJob : Option FlashJob
  /-- The FIFOs of the hard serial ports. -/
  serial : Tbl SerialPort
  /-- The Shutter. -/
  shutter : Shutter
  /-- The boot flow. -/
  boot : BootFlow
  /-- GENG_0 runs the boot flow: from its start at the boot ROM until the flow ends (Table 12-1). -/
  bootActive : Bool
  /-- The ticks that each pane's tick monitor has recorded as missing (R12). -/
  missedTicks : Tbl Nat
  /-- The test access port. -/
  jtag : DebugPort
  /-- The terminal output queues, by engine type × 256 + number, oldest byte first (R527). -/
  vtOut : Tbl (List Nat)
  /-- The terminal input queues. -/
  vtIn : Tbl (List Nat)
  /-- For each pane whose halted gang has been released and not rejoined: the stamp of the release, plus 1 (R522). -/
  released : Tbl Nat
  deriving DecidableEq, Repr

/-- The machine right after a PD_AO power-on (R482). -/
def State.reset : State where
  stiles := []
  trlh := []
  ejected := []
  bridge := []
  trace := []
  nocNow := 0
  inbox := []
  pending := []
  answer := []
  freeCount := 0
  regs := []
  shadows := []
  unlock := []
  reports := []
  tick := ⟨0, 0, 0, 0, 0, 0, 0, 0, false, 0, 0, none, false, 0⟩
  lintel := []
  linkLosses := 0
  bridgeFresh := true
  ddr := []
  pins := ⟨false, false, false, false, [], 0, 0⟩
  agg := ⟨[], [], [], false, false, true⟩
  porter := ⟨[], none, none, none, 0, none, 0⟩
  gangs := []
  doneTasks := []
  panes := []
  pctl := []
  rowPorts := []
  macroFlight := []
  bistFresh := []
  pant := []
  marchDue := false
  march := none
  arrayLink := []
  engMem := []
  engines := []
  heads := []
  glaz := ⟨[], [], [], 0⟩
  regionSel := []
  cams := []
  surfaces := []
  doorbells := []
  sigt := ⟨[], [], [], [], 0⟩
  gate := Gatehouse.idle
  latch := ⟨[], [], [], [], [], [], 0, 0, 0, false, none, [], none, []⟩
  hatchOpen := false
  flash := ⟨[], []⟩
  fabric := ⟨[], [], [], [], none, [], [], none, 0, [], false⟩
  flashJob := none
  serial := []
  shutter := ⟨[], none, false, [], [], false, 0⟩
  boot := BootFlow.idle
  bootActive := false
  missedTicks := []
  jtag := ⟨2, 0, 0, false, false, false, 0, 0⟩
  vtOut := []
  vtIn := []
  released := []

/-- Why a step stops with a fault. -/
inductive Fault where
  /-- The command is not well formed: it names a page, an engine or another unit that the device does not have. Raised by
  any meaning whose unit is checked. Safe: the device has no such unit to act on. -/
  | illFormed
  deriving DecidableEq, Repr

/-- Why a step is refused. -/
inductive Refusal where
  /-- The command has no meaning in this model yet. Raised by no meaning. Safe: the step stops. -/
  | notModelled (mnemonic : String)
  deriving DecidableEq, Repr

/-- What a command answers. -/
abbrev Result := Host.Outcome State Fault Refusal

end Sys2Proof.Machine
end

