-- ==== Sys2Proof/Machine/Topology.lean ====
section
/-!
DEFINITION. Where the blocks sit: power domain and die of every page (Tables 01-1, 01-2), serving trailhead of every page and
trailhead attachment (Table 13-3), and the stile grid (R295, R296).
-/

namespace Sys2Proof.Machine

/-- The power domain of a trailhead (Table 13-3), by its number of Table 19-1. -/
def trlhDomain (t : Nat) : Nat :=
  if t < 16 then 14 + t else if t < 24 then 10 else if t < 26 then 11 else if t < 28 then 9
  else match t with
    | 28 => 12 | 29 => 13 | 30 => 0 | 31 => 7 | 32 => 2 | 33 => 2 | 34 => 2 | 35 => 4 | 36 => 5 | 37 => 6 | 38 => 1
    | _ => 0

/-- The power domain of a page's block (Tables 01-1, 01-2), by its number of Table 19-1. -/
def pageDomain (ty n : Nat) : Nat :=
  match ty with
  | 0x01 => 14 + n
  | 0x02 => 14 + n
  | 0x03 => if n < 16 then 14 + n else 12 + (n - 16)
  | 0x04 => 14 + n / 8
  | 0x05 => 2
  | 0x06 => 10
  | 0x07 => 10
  | 0x08 => if n < 36 then 9 else 0
  | 0x09 => trlhDomain n
  | 0x0A => if n = 0 then 9 else 8
  | 0x0B => 9
  | 0x0C => 11
  | 0x0D => 5
  | 0x0E => 4
  | 0x0F => 6
  | 0x10 => 7
  | 0x11 => 2
  | 0x12 => 2
  | 0x15 => 1
  | _ => 0

/-- The domains 9 to 29 are on the array die (Table 19-1). -/
def domainOnArray (d : Nat) : Bool := 9 ≤ d

/-- Whether a page lies on the array die (Table 02-2). -/
def pageOnArray (ty n : Nat) : Bool := domainOnArray (pageDomain ty n)

/-- The trailhead that serves a page (Table 13-3). -/
def pageTrlh (ty n : Nat) : Nat :=
  match ty with
  | 0x01 => n
  | 0x02 => n
  | 0x03 => if n < 16 then n else 28 + (n - 16)
  | 0x04 => n / 8
  | 0x05 => 33 + n
  | 0x06 => 16 + n / 8
  | 0x07 => 27
  | 0x08 => if n < 36 then 27 else 39
  | 0x09 => if n < 30 then 27 else 39
  | 0x0A => if n = 0 then 26 else 39
  | 0x0B => 27
  | 0x0C => 24 + n
  | 0x0D => 36
  | 0x0E => 35
  | 0x0F => 37
  | 0x10 => 31
  | 0x11 => 32
  | 0x12 => 32
  | 0x13 => 30
  | 0x15 => 38
  | _ => 39

/-- The stile and local port to which a trailhead attaches (Table 13-3); TRLH_26 also attaches to STIL_35 (R299). -/
def trlhStile (t : Nat) : Nat :=
  if t < 16 then 6 * (t / 4) + t % 4 + 1
  else if t < 20 then 6 * (t - 16)
  else if t < 24 then 6 * (t - 20) + 5
  else match t with
    | 24 => 24 | 25 => 29 | 26 => 34 | 27 => 27 | 28 => 26 | 29 => 28 | 30 => 43 | 31 => 40 | 32 => 37 | 33 => 39
    | 34 => 39 | 35 => 38 | 36 => 41 | 37 => 41 | 38 => 42 | _ => 36

/-- The local port of a trailhead's attachment: 4 is L0, 5 is L1 (Table 13-2). -/
def trlhPort (t : Nat) : Nat := if t = 34 ∨ t = 37 then 5 else 4

/-- How many initiators a trailhead has (Table 13-3). -/
def trlhInits (t : Nat) : Nat :=
  if t < 16 then 10 else if t < 26 then 0
  else match t with
    | 26 => 8 | 27 => 1 | 28 => 2 | 29 => 2 | 30 => 1 | 31 => 1 | 33 => 2 | 34 => 2 | 38 => 1 | 39 => 2 | _ => 0

/-- Row and column of a stile on the grid (Table 13-1). -/
def stilRow (s : Nat) : Nat := if s < 36 then s / 6 else if s = 36 then 7 else 6 + (s - 37) / 4

/-- The column of a stile on the grid (Table 13-1). -/
def stilCol (s : Nat) : Nat := if s < 36 then s % 6 else if s = 36 then 5 else 2 + (s - 37) % 4

/-- The stile at a place of the grid, if one stands there (Table 13-1). -/
def stileAt (row col : Nat) : Option Nat :=
  if row < 6 then (if col < 6 then some (6 * row + col) else none)
  else if row = 7 ∧ col = 5 then some 36
  else if row < 8 ∧ 2 ≤ col ∧ col < 6 ∧ 4 * (row - 6) + (col - 2) < 7 then some (37 + 4 * (row - 6) + (col - 2))
  else none

/-- The stile that the link of a port leads to: a neighbour of the same die, or the far end of a bridge (R295, R296).
Ports 0 to 3 are N, E, S, W. -/
def stilNext (s port : Nat) : Option Nat :=
  if s = 32 ∧ port = 2 then some 37 else if s = 37 ∧ port = 0 then some 32
  else if s = 33 ∧ port = 2 then some 38 else if s = 38 ∧ port = 0 then some 33
  else
    let r := stilRow s
    let c := stilCol s
    let far := match port with
      | 0 => if r = 0 then none else stileAt (r - 1) c
      | 1 => stileAt r (c + 1)
      | 2 => stileAt (r + 1) c
      | 3 => if c = 0 then none else stileAt r (c - 1)
      | _ => none
    match far with
    | some f => if (s < 36) = (f < 36) then some f else none
    | none => none

/-- The bridge that a port belongs to: 0 is BR0, 1 is BR1 (R295). -/
def portBridge (s port : Nat) : Option Nat :=
  if (s = 32 ∧ port = 2) ∨ (s = 37 ∧ port = 0) then some 0
  else if (s = 33 ∧ port = 2) ∨ (s = 38 ∧ port = 0) then some 1
  else none

/-- The trailheads that attach to a local port of a stile (Table 13-3, R299). -/
def localTrlh (s port : Nat) : Option Nat :=
  if s = 35 ∧ port = 4 then some 26
  else (List.range 40).find? (fun t => trlhStile t = s && trlhPort t = port)

/-- Whether a port is present at a stile (R296). -/
def portPresent (s port : Nat) : Bool :=
  if port < 4 then (stilNext s port).isSome else if port < 6 then (localTrlh s port).isSome else false

/-- The input port of the far stile that the link from an output port enters. -/
def oppositePort (port : Nat) : Nat := if port < 2 then port + 2 else port - 2

/-- The number of the bits set, from the list of positions that satisfy a test. -/
def maskOf (k : Nat) (p : Nat → Bool) : Nat := (List.range k).foldl (fun m i => if p i then m + 2 ^ i else m) 0

end Sys2Proof.Machine
end

