-- ==== Sys2Proof/Machine/Ops.lean ====
section
/-!
DEFINITION. The named operations over the state: registers and fields, events, errors, fault reports, memories under the
symbol code, free values, and the level of the output pins.
-/

namespace Sys2Proof.Machine

/-! ### Response codes (Table 13-9) -/

abbrev rspOk : Nat := 0
abbrev rspRefused : Nat := 1
abbrev rspFenced : Nat := 2
abbrev rspClosed : Nat := 3
abbrev rspUnreachable : Nat := 4
abbrev rspNotOwner : Nat := 5
abbrev rspEcc : Nat := 6
abbrev rspAuth : Nat := 7

/-! ### Registers -/

/-- The key of a register in the register file. -/
def regKey (ty n off : Nat) : Nat := ty * 0x100000 + n * 0x1000 + off

/-- The page type in a key. -/
def keyTy (k : Nat) : Nat := k / 0x100000
/-- The page number in a key. -/
def keyNum (k : Nat) : Nat := k / 0x1000 % 0x100
/-- The page offset in a key. -/
def keyOff (k : Nat) : Nat := k % 0x1000

/-- Reset values that depend on the page's number, where the register tables say "per instance", or by engine kind. -/
def resetSpecial (ty n off : Nat) : Option Nat :=
  match ty, off with
  | 0x03, 0x004 => some 0x80400100
  | 0x04, 0x004 => some 0x20400011
  | 0x05, 0x004 => some 0x60400111
  | 0x05, 0x044 => some (if n = 0 then 0x00F00000 else 0)
  | 0x04, 0x200 => some (32 * ((n % 8) ^^^ 1) * 256 + 32 * (n % 8))
  | 0x08, 0x004 => some ((if n = 32 ∨ n = 33 ∨ n = 37 ∨ n = 38 then 0x1000 else 0x400) + 0x44)
  | 0x08, 0x040 => some (if n = 32 ∨ n = 33 then 8 else 0)
  | 0x08, 0x044 => some (stilRow n * 0x1000 + stilCol n * 0x100 + maskOf 6 (portPresent n))
  | 0x09, 0x004 => some (0x40100000 + trlhStile n * 0x100 + trlhInits n * 0x10 + trlhPort n)
  | 0x09, 0x064 => some 0xBFFFFFFF
  | 0x09, 0x068 => some 0x3F
  | 0x0A, _ => if n = 1 ∧ 0x200 ≤ off ∧ off < 0x280 then some 0 else none
  | _, _ => none

/-- The reset value of a register: the page header (R43), the register tables, the values by page number. An offset that
no table names reads 0 (R3). -/
def resetWord (ty n off : Nat) : Word :=
  match resetSpecial ty n off with
  | some v => word v
  | none =>
    match off with
    | 0x000 => word (ty * 0x1000000 + n * 0x10000 + 0x0100)
    | 0x008 => word (if ty = 5 ∧ n = 0 then 1 else enableReset ty)
    | 0x00C => word 4
    | _ =>
      match findReg (regsOf ty) off with
      | some r => word r.reset
      | none => 0

/-- A register's stored word. -/
def State.getReg (s : State) (ty n off : Nat) : Word := tblGet (resetWord ty n off) s.regs (regKey ty n off)

/-- A register's stored word replaced. -/
def State.setReg (s : State) (ty n off : Nat) (v : Word) : State :=
  { s with regs := tblSet (resetWord ty n off) s.regs (regKey ty n off) v }

/-- A field's value. -/
def State.get (s : State) (f : Field) (n : Nat) : Nat := bitsAt (s.getReg f.ty n f.off).toNat f.lo f.w

/-- A field set to a value modulo 2^width; the register's other bits stay. -/
def State.put (s : State) (f : Field) (n v : Nat) : State :=
  s.setReg f.ty n f.off (word (setBits (s.getReg f.ty n f.off).toNat f.lo f.w v))

/-- A one-bit field as a Boolean. -/
def State.flag (s : State) (f : Field) (n : Nat) : Bool := s.get f n == 1

/-- A counting field raised by k, stopping at its largest value. -/
def State.count (s : State) (f : Field) (n k : Nat) : State := s.put f n (satAdd (s.get f n) k (2 ^ f.w - 1))

/-- A counting field raised by k, wrapping modulo 2^width. -/
def State.countWrap (s : State) (f : Field) (n k : Nat) : State := s.put f n (s.get f n + k)

/-- All registers of a page whose offset satisfies a test return to their reset values. -/
def State.resetPage (s : State) (ty n : Nat) (p : Nat → Bool) : State :=
  { s with regs := s.regs.filter (fun e => !(keyTy e.1 == ty && keyNum e.1 == n && p (keyOff e.1))) }

/-- The TB shadows of a page are discarded (R64). -/
def State.dropShadows (s : State) (ty n : Nat) : State :=
  { s with shadows := s.shadows.filter (fun w => !(keyTy w.key == ty && keyNum w.key == n)) }

/-- A hardware set of bit k of a page's EVT (R40). -/
def State.raise (s : State) (ty n k : Nat) : State := s.put ⟨ty, 0x10, 4, k, 1⟩ n 1

/-- A fault record is sent to the aggregator (R490). -/
def State.report (s : State) (ty n k cls : Nat) : State := { s with reports := s.reports ++ [⟨ty, n, k, cls⟩] }

/-- An error is latched in a page: ERR_CODE keeps the first, ERR_COUNT counts every one (R45). -/
def State.err (s : State) (ty n off code : Nat) : State :=
  let s1 := if s.get ((R.HDR_ERR_CODE_CODE).on ty) n = 0
    then (s.put ((R.HDR_ERR_CODE_OFFSET).on ty) n off).put ((R.HDR_ERR_CODE_CODE).on ty) n code else s
  s1.count ((R.HDR_ERR_COUNT).on ty) n 1

/-! Fault classes (Table 20-2) -/
abbrev clsHold : Nat := 0
abbrev clsHoldEsc : Nat := 1
abbrev clsUnit : Nat := 2
abbrev clsArray : Nat := 3
abbrev clsTelltale : Nat := 4
abbrev clsDevice : Nat := 5

/-! ### Free values -/

/-- The next free value, and the state in which it is drawn. -/
def State.draw (s : State) : Nat × State := (Config.freeValue s.freeCount, { s with freeCount := s.freeCount + 1 })

/-! ### Power domains (Table 19-1) -/

abbrev psOff : Nat := 0
abbrev psRetain : Nat := 1
abbrev psIdle : Nat := 2
abbrev psOn : Nat := 3

/-- The field of SHUT_STATE that holds a domain's state. -/
def domainField (d : Nat) : Field := ⟨0x16, if d < 16 then 0x040 else 0x044, 4, 2 * (d % 16), 2⟩

/-- A domain's state, coded as STAT.PSTATE. -/
def State.domain (s : State) (d : Nat) : Nat := s.get (domainField d) 0

/-- A domain is ON or IDLE. -/
def State.domainUp (s : State) (d : Nat) : Bool := decide (psIdle ≤ s.domain d)

/-- A domain is ON. -/
def State.domainOn (s : State) (d : Nat) : Bool := s.domain d == psOn

/-- The Lintel is UP on both sides (LNTL_LINK_STAT.STATE). -/
def State.linkUp (s : State) : Bool := s.get R.LNTL_LINK_STAT_STATE 1 == 2

/-! ### Memories under the symbol code (R118 to R121) -/

/-- The n bytes of a memory from an address on; an unlisted byte reads as d. -/
def memRead (d : Byte) (m : Memory) (a : Nat) : Nat → List Byte
  | 0 => []
  | n + 1 => tblGet d m a :: memRead d m (a + 1) n

/-- Bytes written to a memory from an address on. -/
def memWrite (d : Byte) (m : Memory) (a : Nat) : List Byte → Memory
  | [] => m
  | b :: bs => memWrite d (tblSet d m a b) (a + 1) bs

/-- Bytes written where the enable bit of their place is 1 (place k of the list against bit k of the enables). -/
def memWriteMask (d : Byte) (m : Memory) (a enables : Nat) : List Byte → Memory
  | [] => m
  | b :: bs =>
    memWriteMask d (if bitOf enables 0 then tblSet d m a b else m) (a + 1) (enables / 2) bs

/-! ### Answers and outcomes -/

/-- The response of a command that is answered. -/
def State.reply (s : State) (code : Nat) (data : List Byte) : State := { s with answer := [⟨code, data⟩] }

/-- A word as the bytes of a response. -/
def wordBytes (w : Word) : List Byte := leBytes 4 w.toNat

/-! ### The output pins -/

/-- An asset load is in progress while a head is enabled (R361). -/
def State.loadFault (s : State) : Bool :=
  s.flag R.GLAZ_LOAD_STAT_BUSY 0 && (List.range 4).any (fun h => s.flag (R.HDR_CTL_ENABLE.on 0x0D) h)

/-- A pair is FAILED (R360). -/
def State.ttFailed (s : State) : Bool := (List.range 8).any (fun k => s.get (R.GLAZ_FAILED_TT.nth k) 0 != 0)

/-- A condition of Table 14-10 holds (R363). -/
def State.ttFault (s : State) : Bool :=
  s.get R.GLAZ_FAULT_FRAME_MISSING 0 != 0 || s.flag R.GLAZ_FAULT_SRAM_UE 0 || s.loadFault ||
  s.flag R.GLAZ_FAULT_CHECKER 0 || s.ttFailed || (s.domainOn 5 && !s.domainOn 4)

/-- The Lintel is down although both its ends are powered (Table 20-2). -/
def State.arrayLost (s : State) : Bool :=
  (!s.linkUp && s.domainOn 8 && s.domainOn 9) || s.flag R.SHUT_SUPPLY_ARRAY_LOW 0

/-- A stile is DOWN, or a bridge is DOWN between two powered ends (Table 20-2, R494; log entry 6). -/
def State.stileDown (s : State) : Bool :=
  (List.range 44).any (fun k => s.get R.STIL_MODE_MODE k == 2) ||
  (s.domainOn 8 && s.domainOn 9 && (s.flag R.STIL_MODE_BR_DOWN 32 || s.flag R.STIL_MODE_BR_DOWN 33))

/-- The ACTIVE condition of a fault class (R493, Table 20-2). -/
def State.classActive (s : State) (k : Nat) : Bool :=
  match k with
  | 0 => s.agg.holdLast
  | 1 => (List.range 4).any (fun h => decide (s.get R.DBG_FLT_ESC_HOLD_LIMIT 0 ≤ tblGet 0 s.agg.heldRow h))
  | 2 => s.get R.PORT_VARIANT_VARIANT 0 != 0 || s.stileDown ||
      (List.range 2).any (fun g => s.get (R.ENG_STATE_STATE.on 5) g == 3)
  | 3 => s.arrayLost
  | 4 => s.ttFault
  | _ => false

/-- FAULT_N is asserted (R494). -/
def State.faultLevel (s : State) : Bool :=
  (List.range 6).any (fun k => bitOf (s.get R.DBG_FLT_PIN_EN 0) k &&
    (s.classActive k || bitOf (s.get R.DBG_FLT_LATCH_CLASS 0) k))

/-- The event output of a page is asserted (R41). -/
def State.eventOut (s : State) (ty n : Nat) : Bool :=
  (s.getReg ty n 0x10 &&& s.getReg ty n 0x14) != 0

/-- Interrupt source k of HTCH asserts HOST_IRQ_N (R447). -/
def State.irqSource (s : State) (k : Nat) : Bool :=
  s.flag (R.HTCH_IRQ_SRC_EN.nth k) 0 &&
  s.eventOut (s.get (R.HTCH_IRQ_SRC_TYPE.nth k) 0) (s.get (R.HTCH_IRQ_SRC_INSTANCE.nth k) 0)

/-- HOST_IRQ_N is asserted (R447). -/
def State.hostIrqLevel (s : State) : Bool := (List.range 8).any s.irqSource

/-- The event output of the page that an MSI-X vector's source names (R384). -/
def State.vectorOut (s : State) (v : Nat) : Bool :=
  s.eventOut (s.get (R.TRSM_VEC_SRC_TYPE.nth v) 0) (s.get (R.TRSM_VEC_SRC_INSTANCE.nth v) 0)

/-- Those levels, as bits. -/
def State.vectorLevels (s : State) : Nat := maskOf 64 s.vectorOut

/-- The vectors whose message waits: their source's output has risen since the last message (R384). -/
def State.vectorWaits (s : State) : Nat :=
  maskOf 64 (fun v => bitOf s.pins.vecWait v || (s.flag (R.TRSM_VEC_SRC_EN.nth v) 0 && s.vectorOut v && !bitOf s.pins.vecLevel v))

/-- The levels that the state drives on the pins; TICK_OUT and FSYNC keep the level their own events gave them. -/
def State.settledPins (s : State) : Pins :=
  { s.pins with fault := s.faultLevel, ttFault := s.ttFault, hostIrq := s.hostIrqLevel
                vecLevel := if s.domainOn 7 then s.vectorLevels else s.pins.vecLevel
                vecWait := if s.domainOn 7 then s.vectorWaits else s.pins.vecWait }

/-- The outcome of a command that leaves the machine in this state, with its pins at the level the state drives. -/
def done (s : State) : Result := .next { s with pins := s.settledPins }

/-- The outcome of a command whose units must exist. -/
def need (ok : Bool) (r : Result) : Result := if ok then r else .fault .illFormed

end Sys2Proof.Machine
end

