-- ==== Sys2Proof/Machine/Pages.lean ====
section
/-!
DEFINITION. What every page does with a write (R36 to R46, R548): the locked sequence, the access types, TB shadows and their
application at a commit, the header's own registers.
-/

namespace Sys2Proof.Machine

/-- A write as a page meets it: who sends it, whether Latch authenticated it (R39), the register, the value, and its stamp. -/
structure WriteReq where
  init : Initiator
  auth : Bool
  ty : Nat
  n : Nat
  off : Nat
  value : Word
  stamp : Nat
  deriving DecidableEq, Repr

/-- What a page answers to a write: the state after it and the response code. -/
abbrev Written := State × Nat

/-- A write that the page refuses with a response code and latches with an error code. -/
def refuseWrite (w : WriteReq) (rsp code : Nat) (s : State) : Written := (s.err w.ty w.n w.off code, rsp)

/-! ### Locked sequences (R46) -/

/-- The page's number in the table of unlock windows. -/
def pageIdx (ty n : Nat) : Nat := ty * 0x100 + n

/-- The initiator whose unlock window is open in a page. -/
def State.window (s : State) (ty n : Nat) : Option Initiator := tblGet none s.unlock (pageIdx ty n)

/-- The page's unlock window opened for an initiator or closed; LOCK.ARMED follows. -/
def State.setWindow (s : State) (ty n : Nat) (i : Option Initiator) : State :=
  ({ s with unlock := tblSet none s.unlock (pageIdx ty n) i }).put (R.HDR_LOCK_ARMED.on ty) n (bit i.isSome)

/-- A write of LOCK (R46). -/
def lockWrite (w : WriteReq) (s : State) : Written :=
  let v := w.value.toNat
  let key := bitsAt v 16 16
  let s1 := if bitOf v 0 then (s.put (R.HDR_LOCK_HARD_LOCK.on w.ty) w.n 1).setWindow w.ty w.n none else s
  if key = 0 then (s1, rspOk)
  else if key = 0x5EA1 then
    (if s1.flag (R.HDR_LOCK_HARD_LOCK.on w.ty) w.n then s1 else s1.setWindow w.ty w.n (some w.init), rspOk)
  else ((s1.setWindow w.ty w.n none).err w.ty w.n 0x024 0x0008, rspOk)

/-- The lock check of a write to a locked register: whether it may be applied, and the state with the window closed if so. -/
def lockCheck (w : WriteReq) (s : State) : Option State :=
  if s.flag (R.HDR_LOCK_HARD_LOCK.on w.ty) w.n then none
  else if s.window w.ty w.n = some w.init then some (s.setWindow w.ty w.n none) else none

/-- An unlock window that reaches 64 CK_NOC cycles unused closes with 0x0002 (R46). -/
def windowExpire (ty n : Nat) (s : State) : State :=
  if (s.window ty n).isSome then (s.setWindow ty n none).err ty n 0x024 0x0002 else s

/-! ### Access types (R36, R38) -/

/-- The word with the bits of a mask taken from another word. -/
def maskMerge (old new mask : Nat) : Nat := (old &&& (0xFFFFFFFF ^^^ mask)) ||| (new &&& mask)

/-- The bits of a register whose write sets the value in force at once: RW, and SAFE that is not TB. -/
def RegInfo.direct (r : RegInfo) : Nat := r.rw ||| (r.safe &&& (0xFFFFFFFF ^^^ r.tb))

/-- The bits of a register in force after a write, by their access types. -/
def applyWord (r : RegInfo) (old v : Nat) : Nat :=
  maskMerge old v r.direct &&& (0xFFFFFFFF ^^^ (v &&& r.w1c))

/-- The cutoff of the coming snapshot, in CK_AO cycles (R54). -/
def State.cutoffCycle (s : State) : Nat := s.tick.lastEdge + s.tick.len - s.tick.cut

/-- The first stamp, in units of 4 ns, that lies in the cutoff cycle (R56): ten units make one CK_AO cycle of 40 ns. -/
def State.cutoffStamp (s : State) : Nat := s.cutoffCycle * 10

/-- The first stamp at or after the array-side cutoff, 48 ns after the boundary cutoff (R55): as the CUT message gave it. -/
def State.arrayCutoffStamp (s : State) : Nat := s.tick.arrayCutoff.getD (s.cutoffStamp + 12)

/-- A write to the shadow of a register (R38). -/
def shadowWrite (w : WriteReq) (v : Nat) (s : State) : State :=
  let s1 := { s with shadows := s.shadows ++ [⟨regKey w.ty w.n w.off, word v, w.stamp⟩] }
  if !pageOnArray w.ty w.n && s.flag R.TICK_PHASE_PAST_CUTOFF 0 && decide (s.cutoffStamp ≤ w.stamp) then
    { s1 with tick := { s1.tick with deferTb := s1.tick.deferTb + 1 } } else s1

/-- What a write does to a register that has no rule of its own (R36): direct bits, W1C bits, TB bits to the shadow. -/
def genericWrite (r : RegInfo) (w : WriteReq) (s : State) : Written :=
  let v := w.value.toNat
  let s1 := s.setReg w.ty w.n w.off (word (applyWord r (s.getReg w.ty w.n w.off).toNat v))
  (if r.tb = 0 then s1 else shadowWrite w (v &&& r.tb) s1, rspOk)

/-- The TB bits of a register. -/
def tbMask (k : Nat) : Nat :=
  match findReg (regsOf (keyTy k)) (keyOff k) with
  | some r => r.tb
  | none => 0

/-- One shadow applied: its register's TB bits take the shadow's value. -/
def applyShadow (s : State) (w : ShadowWrite) : State :=
  let ty := keyTy w.key
  let n := keyNum w.key
  let off := keyOff w.key
  s.setReg ty n off (word (maskMerge (s.getReg ty n off).toNat w.value.toNat (tbMask w.key)))

/-- The shadows that a commit takes: those of one die whose stamp lies before the cutoff, but for registers that another
rule applies (R38, R56). -/
def takenShadows (s : State) (array : Bool) (cut : Nat) : List ShadowWrite :=
  s.shadows.filter (fun w => pageOnArray (keyTy w.key) (keyNum w.key) == array && decide (w.stamp < cut))

/-- The shadows that a commit leaves. -/
def leftShadows (s : State) (array : Bool) (cut : Nat) : List ShadowWrite :=
  s.shadows.filter (fun w => !(pageOnArray (keyTy w.key) (keyNum w.key) == array && decide (w.stamp < cut)))

/-- The last shadow of a register among those taken (R38: the last write takes effect). -/
def lastShadow (ws : List ShadowWrite) (key : Nat) : Option Word :=
  (ws.reverse.find? (fun w => w.key == key)).map (fun w => w.value)

/-! ### The header -/

/-- The event bits that a page defines. -/
def evtMask (ty : Nat) : Nat :=
  match findReg (regsOf ty) 0x010 with
  | some r => r.w1c
  | none => 0

/-- EVT, W1C (R36). -/
def evtWrite (w : WriteReq) (s : State) : Written :=
  (s.setReg w.ty w.n 0x010 (s.getReg w.ty w.n 0x010 &&& ~~~w.value), rspOk)

/-- EVT_EN, one enable for each event bit (R43). -/
def evtEnWrite (w : WriteReq) (s : State) : Written :=
  (s.setReg w.ty w.n 0x014 (w.value &&& word (evtMask w.ty)), rspOk)

/-- The device is in manufacturing test, lifecycle VENDOR (Table 17-3). -/
def State.vendor (s : State) : Bool := s.get R.LTCH_LIFECYCLE_STATE 0 == 1

/-- The debug level (R440): FULL at all times in VENDOR. -/
def State.debugLevel (s : State) : Nat := if s.vendor then 2 else s.get R.LTCH_DBG_LEVEL 0

/-- EVT_FORCE (R42): a hardware set of each bit written, with the debug level FULL or in manufacturing test. -/
def evtForceWrite (w : WriteReq) (s : State) : Written :=
  if s.debugLevel = 2 ∨ s.vendor then
    (s.setReg w.ty w.n 0x010 (s.getReg w.ty w.n 0x010 ||| (w.value &&& word (evtMask w.ty))), rspOk)
  else refuseWrite w rspAuth 0x0006 s

end Sys2Proof.Machine
end

