-- ==== Sys2Proof/Machine/Footpath.lean ====
section
/-!
DEFINITION. Footpath (R295 to R335): destinations and routes, the issue of a request, stiles with their credits, worms, orphan
sinks and modes, tags, timers, closing and draining, probes and statistics.
-/

namespace Sys2Proof.Machine

def State.stile (s : State) (k : Nat) : Stile := tblGet Stile.idle s.stiles k
def State.setStile (s : State) (k : Nat) (x : Stile) : State := { s with stiles := tblSet Stile.idle s.stiles k x }
def State.th (s : State) (t : Nat) : Trailhead := tblGet Trailhead.idle s.trlh t
def State.setTh (s : State) (t : Nat) (x : Trailhead) : State := { s with trlh := tblSet Trailhead.idle s.trlh t x }
def State.side (s : State) (k : Nat) : LintelSide := tblGet LintelSide.idle s.lintel k
def State.setSide (s : State) (k : Nat) (x : LintelSide) : State := { s with lintel := tblSet LintelSide.idle s.lintel k x }

/-- The Footpath's clock of waiting flits follows the stamps of its events (R312). -/
def State.clockTo (s : State) (stamp : Nat) : State := { s with nocNow := max s.nocNow stamp }

/-! ### A flit as bits (R297, R301, R323) -/

/-- The 192 bits of a flit's header (Table 13-5). -/
def Flit.header (f : Flit) : Nat :=
  f.route % 2 ^ 48 * 2 ^ 144 + f.hop % 16 * 2 ^ 140 + f.kind % 8 * 2 ^ 137 + f.vc % 4 * 2 ^ 135 + bit f.cb * 2 ^ 134 +
  f.src % 64 * 2 ^ 128 + f.init % 16 * 2 ^ 124 + f.dest % 128 * 2 ^ 117 + f.tag % 64 * 2 ^ 111 + bit f.rspAlt * 2 ^ 110 +
  f.tickSeq % 16 * 2 ^ 106 + f.xs % 256 * 2 ^ 98 + f.addr % 2 ^ 34 * 2 ^ 64 + f.be % 2 ^ 64

/-- A flit's 88 bytes: the header, least significant byte first, then lane 0 to lane 63 (log entry 12). -/
def Flit.bytes (f : Flit) : List Byte := leBytes 24 f.header ++ (f.data ++ List.replicate 64 0).take 64

/-- The flit that 88 bytes spell; what no bit of a flit shows is as in the flit given. -/
def flitOfBytes (g : Flit) (b : List Byte) : Flit :=
  let h := leNum (b.take 24)
  { g with
    route := bitsAt h 144 48, hop := bitsAt h 140 4, kind := bitsAt h 137 3, vc := bitsAt h 135 2, cb := bitOf h 134
    src := bitsAt h 128 6, init := bitsAt h 124 4, dest := bitsAt h 117 7, tag := bitsAt h 111 6, rspAlt := bitOf h 110
    tickSeq := bitsAt h 106 4, xs := bitsAt h 98 8, addr := bitsAt h 64 34, be := h % 2 ^ 64, data := (b.drop 24).take 64 }

/-- A flit whose bits flip on its way: bits 0 to 703 are its own, bits 704 to 719 its CRC's; the Boolean says that the CRC holds. -/
def strikeFlit (hit : Flips) (f : Flit) : Flit × Bool :=
  if hit = [] then (f, true)
  else
    let w := hit.foldl (fun n k => n ^^^ 2 ^ k) (leNum f.bytes + crc16 f.bytes * 2 ^ 704)
    let b := leBytes 88 w
    if crc16 b = w / 2 ^ 704 then (flitOfBytes f b, true) else (f, false)

/-- What the link does to a flit: the flips below 720. -/
def strikeLink (flips : Flips) (f : Flit) : Flit × Bool := strikeFlit (flips.filter (fun k => k < 720)) f

/-- What the buffer does to a flit: the flips from 720 on; the check as the flit leaves will find those that its CRC shows (R323). -/
def strikeBuffer (flips : Flips) (f : Flit) : Flit :=
  let r := strikeFlit ((flips.filter (fun k => 720 ≤ k)).map (fun k => k - 720)) f
  if r.2 then r.1 else { f with hurt := true }

/-- A POISON body flit (R323, Table 13-7). -/
def poisonFlit (vc : Nat) (last : Bool) : Flit :=
  ⟨0, 0, 6, vc, false, 0, 0, 0, 0, false, 0, 64 + 128 * bit last, 0, 0, [], 0, 0, false, false⟩

/-! ### Destinations (R300, Table 13-4) -/

/-- What an address reaches. -/
inductive Target where
  | hole
  | ddr (ch addr : Nat)
  | pantry (bank off : Nat)
  | plane (pane off : Nat)
  | page (ty n off : Nat)
  | signals (off : Nat)
  | flash (off : Nat)
  | glazing (off : Nat)
  | larder (pane off : Nat)
  | engine (ty n off : Nat)
  deriving DecidableEq, Repr

/-- The channel and channel address of a DDR address (R23, Table 13-4). -/
def ddrMap (mode a : Nat) : Nat × Nat :=
  if mode = 0 then (bitsAt a 12 1, a / 2 ^ 13 * 2 ^ 12 + a % 2 ^ 12) else if mode = 1 then (0, a) else (1, a)

/-- Whether an offset lies in an engine's window (Table 11-2). -/
def engineWindowOk (ty off : Nat) : Bool :=
  let imem := if ty = 3 then 0x20000 else if ty = 4 then 0x8000 else 0x18000
  off < imem || (0x20000 ≤ off && decide (off < 0x30000))

/-- What an address of the map reaches from a trailhead whose DDR map is given (R29, Table 02-1); reserved addresses are
holes (R30). -/
def targetOf (s : State) (mode a : Nat) : Target :=
  if a < 0x400000000 then
    let (c, x) := ddrMap mode a
    if s.get R.DDRC_USABLE c ≠ 0 ∧ s.get R.DDRC_USABLE c * 2 ^ 20 ≤ x then .hole else .ddr c x
  else if 0x1000000000 ≤ a ∧ a < 0x1002000000 then .pantry (bitsAt a 19 6) (a % 0x80000)
  else if 0x2000000000 ≤ a ∧ a < 0x2100000000 then
    if bitsAt a 24 4 = 0 then .plane (bitsAt a 28 4) (a % 0x1000000) else .hole
  else if 0x3000000000 ≤ a ∧ a < 0x3002000000 then
    let ty := bitsAt a 20 5
    let n := bitsAt a 12 8
    if n < pageCount ty then .page ty n (a % 0x1000) else .hole
  else if 0x3100000000 ≤ a ∧ a < 0x3100100000 then .signals (a % 0x100000)
  else if 0x3200000000 ≤ a ∧ a < 0x3200800000 then .flash (a % 0x800000)
  else if 0x3300000000 ≤ a ∧ a < 0x3300200000 then .glazing (a % 0x200000)
  else if 0x3400000000 ≤ a ∧ a < 0x3400100000 then
    if a % 0x10000 < 0x4000 then .larder (bitsAt a 16 4) (a % 0x10000) else .hole
  else if 0x3500000000 ≤ a ∧ a < 0x3600000000 then
    let ty := (a - 0x3500000000) / 0x2000000
    let n := bitsAt a 18 7
    if (ty = 3 ∨ ty = 4 ∨ ty = 5) ∧ n < pageCount ty ∧ engineWindowOk ty (a % 0x40000) then .engine ty n (a % 0x40000)
    else .hole
  else .hole

/-- The serving trailhead of a target (Tables 13-3, 13-4). -/
def targetTrlh : Target → Nat
  | .hole => 40
  | .ddr c _ => 24 + c
  | .pantry b _ => 16 + b / 8
  | .plane p _ => p
  | .page ty n _ => pageTrlh ty n
  | .signals _ => 32
  | .flash _ => 38
  | .glazing _ => 35
  | .larder p _ => p
  | .engine ty n _ => pageTrlh ty n

/-- A block's page of the common header obeys no fence but a trailhead's own page (R44, R328). -/
def targetIsPage : Target → Bool
  | .page _ _ _ => true
  | _ => false

/-- The destination number of a target (Table 13-4). -/
def targetDest : Target → Nat
  | .pantry b _ => 64 + b
  | t => targetTrlh t

/-- The serving trailhead of a destination number. -/
def destTrlh (d : Nat) : Nat := if 64 ≤ d then 16 + (d - 64) / 8 else d

/-- The page of the block that a target belongs to (the page whose CTL.FENCE it obeys). -/
def targetPage : Target → Nat × Nat
  | .hole => (0, 0)
  | .ddr c _ => (0x0C, c)
  | .pantry b _ => (0x06, b)
  | .plane p _ => (0x01, p)
  | .page ty n _ => (ty, n)
  | .signals _ => (0x12, 0)
  | .flash _ => (0x15, 0)
  | .glazing _ => (0x0E, 0)
  | .larder p _ => (0x02, p)
  | .engine ty n _ => (ty, n)

/-- What a request carried to a destination reaches there (R300): the channel or the bank that the destination names, with the
address as its issuer mapped it. -/
def destTarget (s : State) (dest map a : Nat) : Target :=
  if dest = 24 ∨ dest = 25 then .ddr (dest - 24) (ddrMap map a).2
  else if 64 ≤ dest then .pantry (dest - 64) (a % 0x80000)
  else targetOf s map a

/-- The block of a target is fenced, or its trailhead is (R44, R328). -/
def State.fenced (s : State) (tg : Target) : Bool :=
  let t := targetTrlh tg
  let own : Bool := targetIsPage tg && targetPage tg == (0x09, t)
  (s.flag (R.HDR_CTL_FENCE.on 0x09) t && !own) ||
  (!targetIsPage tg && s.flag (R.HDR_CTL_FENCE.on (targetPage tg).1) (targetPage tg).2)

/-! ### Routes (R305 to R308) -/

/-- Whether a route from a stile is valid (R306) for a destination's serving trailhead; `turned` says that an E or S hop
has been taken, `last` the hop before (7 at the start). -/
def routeValidFrom (dest : Nat) : Nat → Nat → Nat → Nat → Bool → Bool
  | 0, _, _, _, _ => false
  | fuel + 1, stile, route, last, turned =>
    let hop := route % 8
    if 4 ≤ hop then
      decide (hop < 6) && localTrlh stile hop == some dest && route / 8 == 0
    else
      let back := (last == 0 && hop == 2) || (last == 2 && hop == 0) || (last == 1 && hop == 3) || (last == 3 && hop == 1)
      let es := hop == 1 || hop == 2
      match stilNext stile hop with
      | some next => !back && (es || !turned) && routeValidFrom dest fuel next (route / 8) hop (turned || es)
      | none => false

/-- The stile into which a trailhead injects on a route of a column (R299). -/
def injectStile (t : Nat) (alt : Bool) : Nat := if t = 26 ∧ alt then 35 else trlhStile t

/-- Whether a route of a trailhead's table is valid (R306). -/
def routeValid (t : Nat) (alt : Bool) (dest route : Nat) : Bool :=
  routeValidFrom (destTrlh dest) 16 (injectStile t alt) route 7 false

/-- The stile-down mask (R326). -/
def State.downMask (s : State) (k : Nat) : Bool :=
  if k < 44 then s.get R.STIL_MODE_MODE k == 2
  else if k = 44 then s.flag R.STIL_MODE_BR_DOWN 32 else s.flag R.STIL_MODE_BR_DOWN 33

/-- The stile-down mask as a trailhead sees it, TRLH_DOWN_LO and TRLH_DOWN_HI (R326). -/
def State.downSeen (s : State) (t k : Nat) : Bool :=
  if k < 32 then bitOf (s.get R.TRLH_DOWN_LO t) k else bitOf (s.get R.TRLH_DOWN_HI t) (k - 32)

/-- A trailhead of the array die (Table 13-3). -/
def trlhOnArray (t : Nat) : Bool := decide (t < 30)

/-- A change of the mask reaches the trailheads that run: those of its own die, those of the other die while the Lintel is up; both bridge
ends mark their own port (R20, R326). -/
def updateDownRegs (s : State) : State :=
  (List.range 40).foldl (fun s t =>
    if !s.domainUp (trlhDomain t) then s
    else
      let sees := fun k => if 44 ≤ k || s.linkUp || decide (k < 36) == trlhOnArray t then s.downMask k else s.downSeen t k
      (s.put R.TRLH_DOWN_LO t (maskOf 32 sees)).put R.TRLH_DOWN_HI t (maskOf 14 (fun k => sees (k + 32)))) s

/-- Whether a route enters a stile or takes a bridge that a trailhead sees marked DOWN (R308). -/
def routeCrosses (s : State) (t : Nat) : Nat → Nat → Nat → Bool
  | 0, _, _ => false
  | fuel + 1, stile, route =>
    s.downSeen t stile ||
    (let hop := route % 8
     if 4 ≤ hop then false
     else match stilNext stile hop with
      | some next =>
        (match portBridge stile hop with
          | some b => s.downSeen t (44 + b)
          | none => false) || routeCrosses s t fuel next (route / 8)
      | none => false)

/-- A route-table entry. -/
def State.route (s : State) (t dest : Nat) (alt : Bool) : BitVec 64 :=
  tblGet 0 (s.th t).routes (s.get R.TRLH_BANK_SEL_BANK t * 256 + bit alt * 128 + dest)

/-- The entry's route if it is VALID and crosses no stile that is down (R308). -/
def State.usableRoute (s : State) (t dest : Nat) (alt : Bool) : Option Nat :=
  let e := (s.route t dest alt).toNat
  if bitOf e 63 && !routeCrosses s t 16 (injectStile t alt) (e % 2 ^ 48) then some (e % 2 ^ 48) else none

/-- The route a trailhead takes to a destination, and its column: its choice, else the other (R308). -/
def State.pickRoute (s : State) (t dest : Nat) (alt : Bool) : Option (Nat × Bool) :=
  match s.usableRoute t dest alt with
  | some r => some (r, alt)
  | none => (s.usableRoute t dest (!alt)).map (fun r => (r, !alt))

/-- The closed mask of a trailhead (R329, R330). -/
def State.closedTo (s : State) (t k : Nat) : Bool :=
  if k < 32 then bitOf (s.get R.TRLH_CLOSED_LO t) k else bitOf (s.get R.TRLH_CLOSED_HI t) (k - 32)

/-- A bit of the closed mask set or cleared. -/
def State.setClosed (s : State) (t k : Nat) (v : Bool) : State :=
  if k < 32 then s.put ⟨0x09, 0x064, 4, k, 1⟩ t (bit v) else s.put ⟨0x09, 0x068, 4, k - 32, 1⟩ t (bit v)

/-- What a trailhead finds of a new request before it injects it (R308, R330): an answer of its own, or the destination. -/
inductive Path where
  | answer (code : Nat)
  | send (dest route : Nat) (alt : Bool)
  deriving DecidableEq, Repr

/-- The trailhead's first look at a request of its own initiators (R308, R328). -/
def requestPath (s : State) (t : Nat) (tg : Target) : Path :=
  if tg = .hole then .answer rspOk
  else
    let d := targetDest tg
    if s.flag R.TRLH_CLOSE_CTL_CLOSED t || (s.th t).draining || s.closedTo t (targetTrlh tg) then .answer rspClosed
    else match s.pickRoute t d ((s.th t).reqAlt.contains d) with
      | some (r, alt) => .send d r alt
      | none => .answer rspUnreachable

/-- A local answer counted in the trailhead's page (R30, R308, R316, R320, R330). -/
def countLocal (t code : Nat) (s : State) : State :=
  if code = rspOk then (s.count R.TRLH_HOLES t 1).raise 0x09 t 0
  else if code = rspClosed then s.count R.TRLH_LOCAL_CLOSED t 1
  else if code = rspUnreachable then (s.count R.TRLH_LOCAL_UNREACH t 1).raise 0x09 t 4
  else (s.count R.TRLH_LOCAL_REFUSED t 1).raise 0x09 t 5

/-! ### Statistics (R334) -/

/-- A statistic of an initiator raised in this tick. -/
def addStat (t init slot k : Nat) (s : State) : State :=
  let h := s.th t
  s.setTh t { h with statNow := tblSet 0 h.statNow (init % 16 * 32 + slot) (satAdd (tblGet 0 h.statNow (init % 16 * 32 + slot)) k (2 ^ 32 - 1)) }

/-- The latency bin of a response that took so many CK_NOC cycles (R334). -/
def latencyBin (cycles : Nat) : Nat :=
  if cycles < 16 then 0 else min 15 (Nat.log2 cycles - 3)

/-- CK_NOC cycles, at 1,200 MHz, in a span of 4 ns units. -/
def nocCycles (units : Nat) : Nat := units * 24 / 5

/-! ### Issue and injection (R313 to R318) -/

/-- Whether a trailhead has an initiator's class S right to a destination (R313). -/
def urgentRight (s : State) (t init dest : Nat) : Bool :=
  let k := destTrlh dest
  bitOf (s.get R.TRLH_URG_INIT_INIT t) (init % 16) &&
  (if k < 32 then bitOf (s.get R.TRLH_URG_DEST_LO t) k else bitOf (s.get R.TRLH_URG_DEST_HI t) (k - 32))

/-- The rate in bytes per µs of the reservations that cover a destination: their rates add (R314). -/
def reservedRate (h : Trailhead) (dest : Nat) : Nat :=
  (h.reserved.filter (fun r => r.1 == dest)).foldl (fun a r => a + r.2) 0

/-- The bytes in a destination's token bucket at a stamp: it fills at the rate up to 1,024 (R314). -/
def bucketLevel (h : Trailhead) (dest stamp : Nat) : Nat :=
  min 1024 ((1024 - tblGet 0 h.bucket dest) +
    reservedRate h dest * (stamp - tblGet 0 h.bucketStamp dest) / 250)

/-- The class of a request as its trailhead takes it: 0 S, 1 A, 2 B; class A takes its bytes from the bucket (R313, R314). -/
def classify (s : State) (t init : Nat) (q : NetReq) (dest stamp : Nat) : Nat × Trailhead :=
  let h := s.th t
  if urgentRight s t init dest then (0, h)
  else
    let level := bucketLevel h dest stamp
    if reservedRate h dest ≠ 0 ∧ 64 * q.flits ≤ level then
      (1, { h with bucket := tblSet 0 h.bucket dest (1024 - (level - 64 * q.flits))
                   bucketStamp := tblSet 0 h.bucketStamp dest stamp })
    else (2, h)

/-- Initiators whose class B requests wait for a place instead of being refused: the Transom and the camera writers (R316). -/
def waitsForPlace (t init : Nat) : Bool := (t == 31 && init == 0) || (t == 26 && decide (4 ≤ init ∧ init < 8))

/-- ROTATE is kept only for Hatch, the Transom and the debug port, CONSUME only for the debug port (R303). -/
def cleanReq (t init : Nat) (q : NetReq) : NetReq :=
  { q with rotate := q.rotate && (t == 30 || t == 31 || (t == 39 && init == 0))
           consume := q.consume && (t == 39 && init == 0)
           dma := q.dma && decide (t < 16 ∧ 1 ≤ init ∧ init ≤ 8) }

/-- Whether an initiator is an engine, an engine's DMA, a spare's loader or the debug port: what it is answered stays until it takes it. The DMA of
a slat shares its INIT (Table 13-3) and is numbered 16 more here. -/
def keepsInbox (t init : Nat) : Bool := decide (t < 16) || t == 28 || t == 29 || t == 33 || t == 34 || init ≥ 16 || (t == 39 && init == 0)

/-- A response delivered to an initiator (R319, R321). -/
def deliver (t init : Nat) (q : NetReq) (a : Answer) (s : State) : State :=
  let h := s.th t
  let s1 := { s.setTh t { h with responded := (h.responded + 1) % 2 ^ 32 } with answer := [a] }
  if keepsInbox t init then
    { s1 with inbox := tblSet [] s1.inbox (t * 32 + init) (tblGet [] s1.inbox (t * 32 + init) ++ [(a, q)]) }
  else s1

/-- A request that its trailhead answers itself at once (R30, R308, R316, R330): it counts as ISSUED and RESPONDED, in
latency bin 0. -/
def answerLocal (t init : Nat) (q : NetReq) (code : Nat) (s : State) : State :=
  let s1 := addStat t init 0 1 (countLocal t code s)
  let h := s1.th t
  deliver t init q ⟨code, if q.write then [] else List.replicate (64 * q.flits) 0⟩
    (s1.setTh t { h with issued := (h.issued + 1) % 2 ^ 32 })

/-- A request accepted from an initiator (R321): answered locally, or queued by its class. -/
def issueRequest (t init : Nat) (q0 : NetReq) (stamp : Nat) (s : State) : State :=
  let q := cleanReq t init q0
  let tg := targetOf s (s.get R.TRLH_DDR_MAP_MODE t) q.addr
  match requestPath s t tg with
  | .answer code => answerLocal t init q code s
  | .send dest _ _ =>
    let (cls, h) := classify s t init q dest stamp
    let s2 := addStat t init (16 + cls) (64 * q.flits) (s.setTh t h)
    let h2 := s2.th t
    if cls = 0 then s2.setTh t { h2 with queueS := h2.queueS ++ [(init, q)] }
    else if cls = 1 then s2.setTh t { h2 with queueA := h2.queueA ++ [(init, q)] }
    else if 16 ≤ h2.queueB.length ∧ !waitsForPlace t init then answerLocal t init q rspRefused s
    else s2.setTh t { h2 with queueB := h2.queueB ++ [(init, q)] }

/-- The lowest free tag of a trailhead (R318). -/
def freeTag (h : Trailhead) : Option Nat := (List.range 64).find? (fun k => (tblGet none h.tags k).isNone)

/-- Input depth of a stile's port: 16 at a bridge end, else 4 (R297). -/
def inputDepth (stile port : Nat) : Nat := if (portBridge stile port).isSome then 16 else 4

/-- The credits that the sender into an input holds (R311, R322). -/
def creditHeld (s : State) (stile port vc : Nat) : Nat :=
  inputDepth stile port - tblGet 0 (s.stile stile).used (port * 4 + vc)

/-- A credit of an input spent by its sender (R311). -/
def spendCredit (stile k : Nat) (s : State) : State :=
  let x := s.stile stile
  s.setStile stile { x with used := tblSet 0 x.used k (tblGet 0 x.used k + 1) }

/-- A flit put on the link into an input. -/
def linkFlit (stile port : Nat) (f : Flit) (s : State) : State :=
  let x := s.stile stile
  let k := port * 4 + f.vc
  s.setStile stile { x with links := tblSet [] x.links k (tblGet [] x.links k ++ [f]) }

/-- A flit sent on the link into an input: its sender spends a credit (R311). -/
def sendFlit (stile port : Nat) (f : Flit) (s : State) : State := linkFlit stile port f (spendCredit stile (port * 4 + f.vc) s)

/-- Whether a flit is a worm's head: every kind but BODY. -/
def Flit.isHead (f : Flit) : Bool := f.kind != 6

/-- A trailhead may send a flit into a stile: there is a credit, and a stile in DETOUR takes no new worm (R310, R327). -/
def maySend (s : State) (stile port : Nat) (f : Flit) : Bool :=
  decide (0 < creditHeld s stile port f.vc) && (!f.isHead || s.get R.STIL_MODE_MODE stile != 1)

/-- What a trailhead has to send, in order on each channel, as far as its credits go (R311). -/
def flushOut (t : Nat) (s : State) : State :=
  let q := (s.th t).outQueue
  let s0 := s.setTh t { s.th t with outQueue := [] }
  (q.foldl (fun (r : State × List (Nat × Flit)) e =>
    if r.2.all (fun d => d.1 != e.1 || d.2.vc != e.2.vc) && maySend r.1 e.1 (trlhPort t) e.2 then
      (sendFlit e.1 (trlhPort t) e.2 r.1, r.2)
    else (r.1, r.2 ++ [e])) (s0, [])) |> fun r => r.1.setTh t { r.1.th t with outQueue := r.2 }

/-- Flits that a trailhead sends into a stile as credits allow. -/
def postFlits (t stile : Nat) (fs : List Flit) (s : State) : State :=
  flushOut t (s.setTh t { s.th t with outQueue := (s.th t).outQueue ++ fs.map (fun f => (stile, f)) })

/-- XS of a request (Table 13-7). -/
def requestXs (q : NetReq) : Nat :=
  bit q.rotate * 128 + bit q.consume * 64 + (if q.rotate then q.addr % 64 else q.flits - 1)

/-- A body flit of a worm: fields that BODY does not use are 0 (R301). -/
def bodyFlit (route vc : Nat) (last : Bool) (be : Nat) (data : List Byte) : Flit :=
  ⟨route, 0, 6, vc, false, 0, 0, 0, 0, false, 0, 128 * bit last, 0, be, data, 0, 0, false, false⟩

/-- The flits of a request's worm (R301, R302): one for a read, one for each 64 bytes of a write. -/
def requestFlits (s : State) (t init tag : Nat) (q : NetReq) (dest route vc : Nat) (cb rspAlt : Bool) : List Flit :=
  let head : Flit := ⟨route, 0, bit q.write, vc, cb, t, init % 16, dest, tag, rspAlt, 0, requestXs q, q.addr / 64,
    q.be % 2 ^ 64, if q.write then q.data.take 64 else [], s.get R.TRLH_DDR_MAP_MODE t, 0, false, q.dma⟩
  if q.write then
    head :: (List.range (q.flits - 1)).map (fun k =>
      bodyFlit route vc (k + 2 == q.flits) (bitsAt q.be (64 * (k + 1)) 64) ((q.data.drop (64 * (k + 1))).take 64))
  else [head]

/-- The requests that a trailhead may inject, in their order of preference: class S, at most one per 320 CK_NOC cycles (R313); then the
first of class A, or of class B when none of class A waits (R315, R316). -/
def requestChoices (h : Trailhead) (stamp : Nat) : List (Nat × (Nat × NetReq) × Trailhead) :=
  let urgentReady := match h.lastUrgent with
    | none => true
    | some u => decide (320 ≤ nocCycles (stamp - u))
  (match urgentReady, h.queueS with
    | true, q :: rest => [(0, q, { h with queueS := rest, lastUrgent := some stamp })]
    | _, _ => []) ++
  (match h.queueA, h.queueB with
    | q :: rest, _ => [(1, q, { h with queueA := rest })]
    | [], q :: rest => [(2, q, { h with queueB := rest })]
    | [], [] => [])

/-- The first of the choices that can go is injected with the tag (R308, R314 to R318): one that its trailhead now answers itself, or one
whose worm has a credit for every flit at a stile that takes it. -/
def injectFirst (t stamp tag : Nat) : List (Nat × (Nat × NetReq) × Trailhead) → State → State
  | [], s => s
  | (cls, (init, q), h) :: more, s =>
    let tg := targetOf s (s.get R.TRLH_DDR_MAP_MODE t) q.addr
    match requestPath s t tg with
    | .answer code => answerLocal t init q code (s.setTh t h)
    | .send dest route alt =>
      let vc := if cls = 0 then 2 else 0
      let st := injectStile t alt
      let fs := requestFlits s t init tag q dest route vc (cls == 2) ((s.th t).rspAlt.contains dest)
      if fs.length ≤ creditHeld s st (trlhPort t) vc ∧ s.get R.STIL_MODE_MODE st ≠ 1 ∧
          h.outQueue.all (fun e => e.1 != st || e.2.vc != vc) then
        fs.foldl (fun s f => sendFlit st (trlhPort t) f s)
          (s.setTh t { h with tags := tblSet none h.tags tag (some ⟨init, q, stamp, false, false⟩)
                              issued := (h.issued + 1) % 2 ^ 32 })
      else injectFirst t stamp tag more s

/-- The bit of DBG_FLT_INVALID for a trailhead: its conservation counters are frozen (R506). -/
def invalidField (t : Nat) : Field :=
  if t < 32 then ⟨0x18, R.DBG_FLT_INVALID_LO.off, 4, t, 1⟩ else ⟨0x18, R.DBG_FLT_INVALID_HI.off, 4, t - 32, 1⟩

/-- An uncorrectable word in the storage of a tag (R506): only its timer can answer the request, the trailhead's captures freeze, and a
DEVICE record is sent; its EVT_BIT, which no event of the page names, is a free value. -/
def storageFault (t tag : Nat) (s : State) : State :=
  let (v, s1) := s.draw
  let h := s1.th t
  ((s1.setTh t { h with tags := tblSet none h.tags tag ((tblGet none h.tags tag).map (fun u => { u with lost := true })) }).put
    (invalidField t) 0 1).report 0x09 t (v % 32) clsDevice

/-- The trailhead injects its next request with a tag and credit (R308, R314 to R318); `ue`: the word that it stores for it turns out
uncorrectable (R506). -/
def injectRequest (t stamp : Nat) (ue : Bool) (s : State) : State :=
  match freeTag (s.th t) with
  | some tag =>
    let s1 := injectFirst t stamp tag (requestChoices (s.th t) stamp) (s.clockTo stamp)
    if ue && (tblGet none (s1.th t).tags tag).isSome then storageFault t tag s1 else s1
  | none => s

/-- A request that is served where it stands, without flits: the path is tried as for any request (R308, R330), and the request counts as
ISSUED and RESPONDED with its bytes (R321, R334). None: it may go on to its target. -/
def directRequest (i : Initiator) (tg : Target) (q : NetReq) (s : State) : State × Option Nat :=
  match requestPath s i.src tg with
  | .answer code =>
    let s1 := addStat i.src i.init 0 1 (countLocal i.src code s)
    let h := s1.th i.src
    (s1.setTh i.src { h with issued := (h.issued + 1) % 2 ^ 32, responded := (h.responded + 1) % 2 ^ 32 }, some code)
  | .send dest _ _ =>
    let c := classify s i.src i.init q dest s.nocNow
    let s1 := addStat i.src i.init 0 1 (addStat i.src i.init (16 + c.1) (64 * q.flits) (s.setTh i.src c.2))
    let h := s1.th i.src
    (s1.setTh i.src { h with issued := (h.issued + 1) % 2 ^ 32, responded := (h.responded + 1) % 2 ^ 32 }, none)

/-! ### Stiles (R310 to R312, R323 to R327) -/

/-- Whether a flit carries a response. -/
def Flit.isResponse (f : Flit) : Bool := f.kind == 2 || f.kind == 3 || f.kind == 4

/-- Whether a flit belongs to a response: the body flits of VC_RSP do (R304). -/
def Flit.ofResponse (f : Flit) : Bool := f.isResponse || (f.kind == 6 && f.vc == 1)

/-- How many flits the worm of a head has (R301, Table 13-7). -/
def Flit.wormLen (f : Flit) : Nat :=
  if f.kind = 1 ∧ ¬ bitOf f.xs 7 then bitsAt f.xs 0 2 + 1 else if f.kind = 2 then bitsAt f.xs 2 2 + 1 else 1

/-- The flits of a worm still to come after the flits of a queue (LAST ends a worm early). -/
def wormOpen (left : Nat) : List Flit → Nat
  | [] => left
  | f :: t => wormOpen (if f.isHead then f.wormLen - 1 else if bitOf f.xs 7 then 0 else left - 1) t

/-- The orphan sink counts a flit as CORRUPT, ORPHAN or STRAY (R324). -/
def sinkAs (stile : Nat) (count : Field) (s : State) : State := (s.raise 0x08 stile 2).count count stile 1

/-- The count of a flit that is not corrupt: ORPHAN for a response, STRAY for the rest. -/
def Flit.sinkField (f : Flit) : Field := if f.ofResponse then R.STIL_ORPHAN else R.STIL_STRAY

/-- The orphan sink absorbs a flit (R324). -/
def sinkFlit (stile : Nat) (f : Flit) (corrupt : Bool) (s : State) : State :=
  sinkAs stile (if corrupt then R.STIL_CORRUPT else f.sinkField) s

/-- The die of a stile: 0 the array, 1 the boundary. -/
def stileSide (stile : Nat) : Nat := if stile < 36 then 0 else 1

/-- The credit of a flit that leaves an input returned to its sender (R311): at a bridge end it waits for a frame's CR field (R297). A flit
at the front that holds no credit returns none. -/
def returnCredit (stile k : Nat) (s : State) : State :=
  let x := s.stile stile
  if 0 < tblGet 0 x.free k then s.setStile stile { x with free := tblSet 0 x.free k (tblGet 0 x.free k - 1) }
  else match portBridge stile (k / 4) with
    | some b =>
      let y := s.side (stileSide stile)
      s.setSide (stileSide stile) { y with credits := tblSet 0 y.credits (b * 4 + k % 4) (tblGet 0 y.credits (b * 4 + k % 4) + 1) }
    | none => s.setStile stile { x with used := tblSet 0 x.used k (tblGet 0 x.used k - 1) }

/-- Header bits [139:98], the probe key (R332). -/
def probeKey (f : Flit) : Nat :=
  f.kind * 2 ^ 39 + f.vc * 2 ^ 37 + bit f.cb * 2 ^ 36 + f.src * 2 ^ 30 + f.init * 2 ^ 26 + f.dest * 2 ^ 19 +
  f.tag * 2 ^ 13 + bit f.rspAlt * 2 ^ 12 + f.tickSeq * 2 ^ 8 + f.xs

/-- A trace record of a probe (R332, R333), carried across the Lintel from a boundary stile; the low bits of the CK_NOC cycle count are a free
value. -/
def traceRecord (stile port probe : Nat) (f : Flit) (s : State) : State :=
  let wp := s.get R.STIL_TRACE_WP 0
  if !s.flag R.STIL_TRACE_CTL_EN 0 ∨ (stileSide stile = 1 ∧ !s.linkUp) then s
  else if 4096 ≤ wp ∧ !s.flag R.STIL_TRACE_CTL_WRAP 0 then s.count R.STIL_TRACE_DROPS 0 1
  else
    let (v, s1) := s.draw
    let a := wp % 4096 * 4
    let key := probeKey f
    let t := tblSet 0 (tblSet 0 (tblSet 0 (tblSet 0 s1.trace a (word v)) (a + 1)
      (word (stile * 2 ^ 26 + port * 2 ^ 23 + probe * 2 ^ 21 + key / 2 ^ 32))) (a + 2) (word key)) (a + 3)
      (word (f.addr * 64))
    ({ s1 with trace := t }).countWrap R.STIL_TRACE_WP 0 1

/-- Probe k of a stile looks at a flit that leaves by a port (R332). -/
def probeFlit (stile port : Nat) (f : Flit) (s : State) (k : Nat) : State :=
  let mask := s.get (R.STIL_PRB_MASK_LO.nth k) stile + 2 ^ 32 * s.get (R.STIL_PRB_MASK_HI.nth k) stile
  let mat := s.get (R.STIL_PRB_MATCH_LO.nth k) stile + 2 ^ 32 * s.get (R.STIL_PRB_MATCH_HI.nth k) stile
  if s.flag (R.STIL_PRB_CTL_EN.nth k) stile ∧ s.get (R.STIL_PRB_CTL_PORT.nth k) stile = port ∧
      (s.flag (R.STIL_PRB_CTL_HEADS.nth k) stile → f.isHead) ∧ probeKey f &&& mask = mat &&& mask then
    let s1 := s.countWrap (R.STIL_PRB_COUNT.nth k) stile 1
    if s.flag (R.STIL_PRB_CTL_TRACE.nth k) stile then traceRecord stile port k f s1 else s1
  else s

/-- The bridge port of an output that is DOWN (R20): what is to go out there is discarded. -/
def bridgeOff (s : State) (stile out : Nat) : Bool :=
  match portBridge stile out with
  | some b => s.downMask (44 + b)
  | none => false

/-- Whether the flit at the head of an input is eligible at an output (R310, R19): the channel is free or its own, the
next input has a credit, the next stile takes new worms, and a bridge's record has room for a request. -/
def eligible (s : State) (stile inp out : Nat) (f : Flit) : Bool :=
  let x := s.stile stile
  let holder := tblGet 0 x.holder (out * 4 + f.vc)
  (if f.isHead then holder == 0 else holder == inp + 1) &&
  (if 4 ≤ out || bridgeOff s stile out then true
   else match stilNext stile out with
    | none => false
    | some next =>
      decide (0 < creditHeld s next (oppositePort out) f.vc) &&
      (!f.isHead || s.get R.STIL_MODE_MODE next != 1) &&
      (match portBridge stile out with
        | some b => !(f.isHead && (f.kind == 0 || f.kind == 1) && f.vc == 0) ||
            decide ((tblGet [] s.bridge (stileSide stile * 2 + b)).length < 256)
        | none => true))

/-- The output (port) that the flit at the head of an input takes; 8: it is discarded with the rest of its worm. -/
def flitOut (x : Stile) (k : Nat) (f : Flit) : Nat :=
  if f.isHead then bitsAt f.route (3 * f.hop) 3 else tblGet 0 x.wormOut k - 1

/-- A class B head that has waited STIL_CFG.AGE × 16 cycles ranks as class A (R312). -/
def agedHead (s : State) (stile k : Nat) (f : Flit) : Bool :=
  let since := tblGet 0 (s.stile stile).waitSince k
  f.isHead && since != 0 && decide (16 * s.get R.STIL_CFG_AGE stile ≤ nocCycles (s.nocNow + 1 - since))

/-- The rank of an eligible flit at an output (R312), lower first: VC_URG; then the channel that did not send last; a class S
response before others; class A before class B; then round-robin. -/
def rank (x : Stile) (out inp : Nat) (aged : Bool) (f : Flit) : Nat :=
  let last := tblGet 0 x.lastVc out
  let rr := (inp + 6 - tblGet 0 x.rr out) % 6
  (if f.vc = 2 then 0 else if f.vc + 1 = last then 2 else 1) * 1000 +
  (if f.vc = 1 ∧ ¬ bitOf f.xs 0 then 100 else 0) + (if f.cb ∧ !aged then 50 else 0) + rr

/-- The eligible flits at an output: rank, input port and flit. -/
def candidates (s : State) (stile out : Nat) : List (Nat × Nat × Flit) :=
  let x := s.stile stile
  (List.range 18).filterMap (fun i =>
    let inp := i / 3
    let vc := i % 3
    match tblGet [] x.buf (inp * 4 + vc) with
    | f :: _ => if flitOut x (inp * 4 + vc) f = out ∧ eligible s stile inp out f then
        some (rank x out inp (agedHead s stile (inp * 4 + vc) f) f, inp, f) else none
    | [] => none)

/-- The least-ranked candidate. -/
def bestOf : List (Nat × Nat × Flit) → Option (Nat × Nat × Flit)
  | [] => none
  | c :: t => match bestOf t with
    | none => some c
    | some d => if c.1 ≤ d.1 then some c else some d

/-- LNTL_BRIDGE_STAT of a bridge end: the requests that it has recorded. -/
def showRecord (side b : Nat) (s : State) : State :=
  s.put (if b = 0 then R.LNTL_BRIDGE_STAT_BR0_OUT else R.LNTL_BRIDGE_STAT_BR1_OUT) side (tblGet [] s.bridge (side * 2 + b)).length

/-- A bridge end records a request head that it sends across, and counts a full record (R19). -/
def recordBridge (side b : Nat) (f : Flit) (s : State) : State :=
  if f.isHead && (f.kind == 0 || f.kind == 1) then
    let l := tblGet [] s.bridge (side * 2 + b) ++ [⟨f.src, f.tag⟩]
    let s1 := showRecord side b { s with bridge := tblSet [] s.bridge (side * 2 + b) l }
    if l.length = 256 then s1.raise 0x0A side 5 else s1
  else s

/-- A response comes back to the die of its request: whichever bridge end recorded the request forgets it (R19). -/
def forgetRecord (side : Nat) (f : Flit) (s : State) : State :=
  [0, 1].foldl (fun s b =>
    showRecord side b { s with bridge := tblSet [] s.bridge (side * 2 + b) ((tblGet [] s.bridge (side * 2 + b)).erase ⟨f.dest, f.tag⟩) }) s

/-- A flit goes to the bridge: it waits for frames of the Lintel (R14). A request is recorded; a boundary bridge end writes TICK_SEQ into
requests from the array (R63). -/
def crossBridge (stile out next b : Nat) (f : Flit) (s : State) : State :=
  let side := stileSide stile
  let s1 := spendCredit next (oppositePort out * 4 + f.vc) (recordBridge side b f s)
  let isReq := f.isHead && (f.kind == 0 || f.kind == 1)
  let g := { f with epoch := if isReq then s1.linkLosses else f.epoch
                    tickSeq := if isReq && side == 0 then s1.get R.LNTL_LINK_STAT_TICK_SEQ 0 else f.tickSeq }
  let y := s1.side side
  s1.setSide side { y with flits := y.flits ++ [(b, g.bytes, g)] }

/-- A flit goes out of a port: over the bridge, on the link to the next stile, or to the local trailhead, whose orphan sink serves it while
its domain is neither ON nor IDLE (R324). At a bridge port that is DOWN it is discarded (R20). -/
def emitFlit (stile out : Nat) (f : Flit) (s : State) : State :=
  if 4 ≤ out then
    match localTrlh stile out with
    | some t =>
      if s.domainUp (trlhDomain t) then
        { s with ejected := tblSet [] s.ejected (t * 4 + f.vc) (tblGet [] s.ejected (t * 4 + f.vc) ++ [f]) }
      else sinkFlit stile f false s
    | none => sinkFlit stile f false s
  else if bridgeOff s stile out then s
  else match stilNext stile out, portBridge stile out with
    | some next, some b => crossBridge stile out next b f s
    | some next, none => sendFlit next (oppositePort out) f s
    | none, _ => sinkFlit stile f false s

/-- The flit at the head of an input leaves it: the input's worm goes on to an output (8: none) and its credit returns. -/
def takeFlit (stile k out : Nat) (f : Flit) (s : State) : State :=
  let x := s.stile stile
  let left := if f.isHead then f.wormLen - 1 else if bitOf f.xs 7 then 0 else tblGet 0 x.wormLeft k - 1
  let rest := (tblGet [] x.buf k).drop 1
  returnCredit stile k (s.setStile stile { x with
    buf := tblSet [] x.buf k rest
    waitSince := tblSet 0 x.waitSince k (if rest = [] then 0 else s.nocNow + 1)
    wormOut := tblSet 0 x.wormOut k (if left = 0 then 0 else out + 1)
    wormLeft := tblSet 0 x.wormLeft k left })

/-- A flit leaves an input for an output (R305, R310): HOP is incremented in every flit's outgoing header. A worm whose head finds its
bridge DOWN is discarded whole. -/
def forwardFlit (stile inp out : Nat) (f : Flit) (s : State) : State :=
  let k := inp * 4 + f.vc
  if bridgeOff s stile out && f.isHead then takeFlit stile k 8 f s
  else
    let s1 := takeFlit stile k out f s
    let x := s1.stile stile
    let s2 := s1.setStile stile { x with
      holder := tblSet 0 x.holder (out * 4 + f.vc) (if tblGet 0 x.wormLeft k = 0 then 0 else inp + 1)
      rr := tblSet 0 x.rr out ((inp + 1) % 6)
      lastVc := tblSet 0 x.lastVc out (f.vc + 1)
      flitsTick := x.flitsTick + 1 }
    emitFlit stile out { f with hop := (f.hop + 1) % 16 } ((List.range 4).foldl (probeFlit stile out f) s2)

/-- A stile enters DOWN (R327): every buffered flit goes to the sink, each output with a worm in progress is to send a POISON body flit
with LAST, and the mask bit is set. DRAINED reads 1 when nothing is left to send. -/
def stileEnterDown (stile : Nat) (s : State) : State :=
  let x := s.stile stile
  let worms := (x.wormOut.filter (fun e => e.2 != 0 && e.2 != 9)).map (fun e => ((e.2 - 1) * 4 + e.1 % 4, poisonFlit (e.1 % 4) true))
  let s1 := x.buf.foldl (fun s e => e.2.foldl (fun s f => returnCredit stile e.1 (sinkFlit stile f false s)) s) s
  let x1 := s1.stile stile
  let s2 := s1.setStile stile { x1 with
    buf := [], wormOut := [], wormLeft := [], dropping := [], waitSince := []
    cut := x1.cut ++ worms
    holder := worms.foldl (fun h e => tblSet 0 h e.1 7) x1.holder }
  ((s2.put R.STIL_MODE_MODE stile 2).put (R.HDR_STAT_DRAINED.on 0x08) stile (bit (x1.cut ++ worms == []))).raise 0x08 stile 1

/-- A stile enters DOWN by a fault of its own, which it reports as its loss (R325): LINK_THRESH reached, or the second CRC check. -/
def stileFault (stile : Nat) (s : State) : State :=
  updateDownRegs (((((stileEnterDown stile s).put (R.HDR_STAT_FAULT.on 0x08) stile 1).raise 0x08 stile 5)).report 0x08 stile 5 clsUnit)

/-- The flit that the second CRC check fails as it leaves (R323): a head goes to the sink, a body flit goes on as POISON; the stile reports
its fault (R325). -/
def leaveHurt (stile inp out : Nat) (f : Flit) (s : State) : State :=
  let k := inp * 4 + f.vc
  stileFault stile (if f.isHead then sinkFlit stile f true (takeFlit stile k 8 f s)
    else forwardFlit stile inp out (poisonFlit f.vc (tblGet 0 (s.stile stile).wormLeft k == 1)) s)

/-- The stile that feeds an input, if a stile of its die does. -/
def feeder (stile port : Nat) : Option Nat :=
  if port < 4 ∧ (portBridge stile port).isNone then stilNext stile port else none

/-- A POISON flit that waits at an output of a stile and can go (R327). -/
def cutReady (s : State) (stile : Nat) : Option (Nat × Flit) :=
  (s.stile stile).cut.find? (fun e =>
    let out := e.1 / 4
    4 ≤ out || bridgeOff s stile out || (match stilNext stile out with
      | some next => decide (0 < creditHeld s next (oppositePort out) e.2.vc)
      | none => true))

/-- It goes, and frees the channel. -/
def sendCut (stile : Nat) (e : Nat × Flit) (s : State) : State :=
  let x := s.stile stile
  let left := x.cut.erase e
  let s1 := emitFlit stile (e.1 / 4) e.2 (s.setStile stile { x with cut := left, holder := tblSet 0 x.holder e.1 0 })
  if left = [] ∧ s1.get R.STIL_MODE_MODE stile = 2 then s1.put (R.HDR_STAT_DRAINED.on 0x08) stile 1 else s1

/-- The first input whose head flit is to be discarded with its worm. -/
def discardable (s : State) (stile : Nat) : Option (Nat × Flit) :=
  (List.range 24).findSome? (fun k => match tblGet [] (s.stile stile).buf k with
    | f :: _ => if flitOut (s.stile stile) k f = 8 ∧ !f.isHead then some (k, f) else none
    | [] => none)

/-- One thing that a stile can do now, and the input it has taken a flit from (24: none). -/
def stileMove (s : State) (st : Nat) : Option (Nat × State) :=
  match cutReady s st with
  | some e => some (24, sendCut st e s)
  | none =>
    match discardable s st with
    | some (k, f) => some (k, takeFlit st k 8 f s)
    | none =>
      ((List.range 6).findSome? (fun out => (bestOf (candidates s st out)).map (fun c => (out, c.2)))).map (fun c =>
        let (out, inp, f) := c
        (inp * 4 + f.vc, if f.hurt then leaveHurt st inp out f s else forwardFlit st inp out f s))

/-- Stiles send what is eligible, and those that got a credit back try again: a worklist of stiles (R310 to R312). -/
def runStiles : Nat → List Nat → State → State
  | 0, _, s => s
  | _, [], s => s
  | fuel + 1, st :: rest, s =>
    match stileMove s st with
    | some (k, s1) =>
      match feeder st (k / 4), (if 4 ≤ k / 4 then localTrlh st (k / 4) else none) with
      | some u, _ => runStiles fuel (st :: u :: rest) s1
      | none, some t => runStiles fuel (st :: rest) (flushOut t s1)
      | none, none => runStiles fuel (st :: rest) s1
    | none => runStiles fuel rest s

/-- Enough moves for all that the buffers of a stile and its neighbours can hold. -/
abbrev stileFuel : Nat := 1024

/-- A CRC error at an input (R323, R325). -/
def countCrcError (stile port : Nat) (s : State) : State :=
  let x := s.stile stile
  let n := tblGet 0 x.errTick port + 1
  let s1 := ((s.setStile stile { x with errTick := tblSet 0 x.errTick port n }).raise 0x08 stile 3).count
    ⟨0x08, 0x058, 4, 4 * port, 4⟩ stile 1
  let limit := s.get R.STIL_CFG_LINK_THRESH stile
  if limit ≠ 0 ∧ limit ≤ n ∧ s.get R.STIL_MODE_MODE stile ≠ 2 then stileFault stile s1 else s1

/-- A flit does not enter its input: its credit returns, and its worm's other flits are to be absorbed in the way given (0: not). -/
def absorbFlit (stile k drop : Nat) (s : State) : State :=
  let x := s.stile stile
  returnCredit stile k (s.setStile stile { x with dropping := tblSet 0 x.dropping k drop })

/-- A flit of a worm whose head has been absorbed: discarded after a corrupt head, STRAY where misrouted, ORPHAN where the request had been
answered (R20, R323, R324). -/
def absorbBody (stile k how : Nat) (f : Flit) (s : State) : State :=
  let s1 := if how = 2 then (sinkAs stile R.STIL_STRAY s).raise 0x08 stile 4 else if how = 3 then sinkAs stile R.STIL_ORPHAN s else s
  absorbFlit stile k (if bitOf f.xs 7 then 0 else how) s1

/-- A flit enters its input's buffer. -/
def bufferFlit (stile k : Nat) (f : Flit) (s : State) : State :=
  let x := s.stile stile
  let q := tblGet [] x.buf k
  s.setStile stile { x with
    buf := tblSet [] x.buf k (q ++ [f])
    waitSince := if q = [] then tblSet 0 x.waitSince k (s.nocNow + 1) else x.waitSince
    dropping := if f.isHead then tblSet 0 x.dropping k 0 else x.dropping }

/-- A good head at an input: misrouted (R324), a response whose request had been answered at a loss of the link (R20), or buffered. -/
def headEnter (stile k : Nat) (f : Flit) (s : State) : State :=
  let out := bitsAt f.route (3 * f.hop) 3
  let more := fun how => if f.wormLen = 1 then 0 else how
  let crossed := f.isResponse && (portBridge stile (k / 4)).isSome
  let s1 := if crossed && f.epoch == s.linkLosses then forgetRecord (stileSide stile) f s else s
  if f.hop = 15 ∧ out < 4 ∨ 15 < f.hop ∨ ¬ portPresent stile out then
    absorbFlit stile k (more 2) ((sinkAs stile R.STIL_STRAY s1).raise 0x08 stile 4)
  else if crossed ∧ f.epoch ≠ s.linkLosses then absorbFlit stile k (more 3) (sinkAs stile R.STIL_ORPHAN s1)
  else bufferFlit stile k f s1

/-- A flit enters a stile (R305, R323, R324, R327). -/
def flitArrive (stile port vc : Nat) (flips : Flips) (s : State) : State :=
  let k := port * 4 + vc
  match tblGet [] (s.stile stile).links k with
  | [] => s
  | f0 :: rest =>
    let s0 := s.setStile stile { s.stile stile with links := tblSet [] (s.stile stile).links k rest }
    let (f, ok) := strikeLink flips f0
    let s1 := if ok then s0 else countCrcError stile port s0
    let x := s1.stile stile
    let left := wormOpen (tblGet 0 x.wormLeft k) (tblGet [] x.buf k)
    if s1.get R.STIL_MODE_MODE stile = 2 then returnCredit stile k (sinkFlit stile f (!ok) s1)
    else if !f.isHead ∧ tblGet 0 x.dropping k ≠ 0 then absorbBody stile k (tblGet 0 x.dropping k) f s1
    else if !ok ∧ (f.isHead ∨ left = 0) then absorbFlit stile k 1 (sinkFlit stile f true s1)
    else if f.isHead then runStiles stileFuel [stile] (headEnter stile k (strikeBuffer flips f) s1)
    else if left = 0 then absorbFlit stile k 0 (sinkFlit stile f false s1)
    else runStiles stileFuel [stile]
      (bufferFlit stile k (strikeBuffer flips (if ok then f else poisonFlit vc (left == 1))) s1)

/-! ### Modes (R20, R327) -/

/-- No flit is buffered at a stile or on its way into it, and no worm is in progress at any of its ports (R327). -/
def stileEmpty (x : Stile) : Bool := x.buf == [] && x.links == [] && x.wormLeft == [] && x.cut == []

/-- The stiles around a stile try to send (after it takes new worms again). -/
def neighbours (stile : Nat) : List Nat := (List.range 4).filterMap (stilNext stile)

/-- The trailheads of a stile. -/
def stileTrlhs (stile : Nat) : List Nat := [4, 5].filterMap (localTrlh stile)

/-- A stile takes worms again: it, its neighbours and its trailheads send what waited. -/
def stileResume (stile : Nat) (s : State) : State :=
  runStiles stileFuel (stile :: neighbours stile) ((stileTrlhs stile).foldl (fun s t => flushOut t s) s)

/-- A write of STIL_MODE (R20, R327), its lock already checked. -/
def stileModeWrite (w : WriteReq) (s : State) : Written :=
  let v := w.value.toNat
  let m := bitsAt v 0 2
  let br := bitOf v 2 && (w.n == 32 || w.n == 33)
  let cur := s.get R.STIL_MODE_MODE w.n
  if m = 3 ∨ (cur = 2 ∧ m = 0 ∧ s.flag (R.HDR_STAT_FAULT.on 0x08) w.n) ∨ (br ∧ !s.linkUp) then
    refuseWrite w rspRefused 0x0101 s
  else
    let s1 := if br then updateDownRegs (s.put R.STIL_MODE_BR_DOWN w.n 0) else s
    if m = cur then (s1, rspOk)
    else if m = 2 then (runStiles stileFuel (w.n :: neighbours w.n) (updateDownRegs (stileEnterDown w.n s1)), rspOk)
    else
      let s2 := (s1.put R.STIL_MODE_MODE w.n m).put (R.HDR_STAT_DRAINED.on 0x08) w.n (if m = 1 then 0 else 1)
      (stileResume w.n (updateDownRegs s2), rspOk)

/-- A stile in DETOUR is drained (R327); in DOWN it is drained without an event. -/
def stileDrained (stile : Nat) (s : State) : State :=
  let mode := s.get R.STIL_MODE_MODE stile
  if mode = 1 ∧ stileEmpty (s.stile stile) then (s.put (R.HDR_STAT_DRAINED.on 0x08) stile 1).raise 0x08 stile 0
  else if mode = 2 ∧ (s.stile stile).cut = [] then s.put (R.HDR_STAT_DRAINED.on 0x08) stile 1
  else s

/-- Whether STIL_CFG may be written and the stile reset (R327): DETOUR or DOWN, with DRAINED 1. -/
def stileQuiet (s : State) (stile : Nat) : Bool :=
  (s.get R.STIL_MODE_MODE stile == 1 || s.get R.STIL_MODE_MODE stile == 2) && s.flag (R.HDR_STAT_DRAINED.on 0x08) stile

/-- An input's sender set to full credit: what is buffered or on its way there holds none from now on. -/
def freeInput (k : Nat) (x : Stile) : Stile :=
  { x with used := tblSet 0 x.used k 0
           free := tblSet 0 x.free k ((tblGet [] x.buf k).length + (tblGet [] x.links k).length) }

/-- SOFT_RESET of a stile (R322, R335): buffers empty, both ends of its links at full credit; STIL_CFG, STIL_MODE and HARD_LOCK stay. -/
def stileReset (stile : Nat) (s : State) : State :=
  let links := (s.stile stile).links
  let s1 := s.setStile stile ((List.range 24).foldl (fun x k => freeInput k x) { Stile.idle with links := links })
  let s2 := (List.range 4).foldl (fun s p => match stilNext stile p with
    | some next => s.setStile next ((List.range 4).foldl (fun x vc => freeInput (oppositePort p * 4 + vc) x) (s.stile next))
    | none => s) s1
  s2.resetPage 0x08 stile (fun off => off != 0x040 && off != 0x048 && off != 0x024 && off != 0x008)

/-! ### Fence, close and drain (R328 to R331) -/

/-- A CTL flit from a trailhead to another (Table 13-6, Table 13-7). -/
def ctlFlit (s : State) (t k msg vc : Nat) : Option (Flit × Bool) :=
  (s.pickRoute t k ((s.th t).reqAlt.contains k)).map (fun r =>
    (⟨r.1, 0, 5, vc, false, t, 0, k, 0, false, 0, msg * 16, 0, 0, [], 0, 0, false, false⟩, r.2))

/-- A CTL message sent from a trailhead to another, when a route reaches it (R328, R329). The Boolean says that it was. -/
def sendCtl (t k msg vc : Nat) (s : State) : State × Bool :=
  match ctlFlit s t k msg vc with
  | some (f, alt) => (postFlits t (injectStile t alt) [f] s, true)
  | none => (s, false)

/-- A CTL message to every other trailhead that a route reaches; the trailheads it went to. -/
def broadcastCtl (t msg vc : Nat) (s : State) : State × List Nat :=
  (List.range 40).foldl (fun r k =>
    if k = t then r else
      let x := sendCtl t k msg vc r.1
      (x.1, if x.2 then r.2 ++ [k] else r.2)) (s, [])

/-- CLOSE and DRAIN (R328): refused unless the trailhead is fenced. -/
def closeWrite (w : WriteReq) (s : State) : Written :=
  if s.flag (R.HDR_CTL_FENCE.on 0x09) w.n then
    let s1 := (s.put R.TRLH_CLOSE_CTL_CLOSED w.n 1).put (R.HDR_STAT_DRAINED.on 0x09) w.n 0
    let r := broadcastCtl w.n 1 2 s1
    (r.1.setTh w.n { r.1.th w.n with ackWait := r.2, draining := true }, rspOk)
  else refuseWrite w rspRefused 0x0104 s

/-- OPEN to every trailhead that can be reached (R329). -/
def sendOpen (t : Nat) (s : State) : State := (broadcastCtl t 3 2 (s.put R.TRLH_CLOSE_CTL_CLOSED t 0)).1

/-- A write of TRLH_CLOSE_CTL. -/
def closeCtlWrite (w : WriteReq) (s : State) : Written :=
  let v := w.value.toNat
  let r := if bitOf v 0 then closeWrite w s else (s, rspOk)
  if bitOf v 1 ∧ r.2 = rspOk then (sendOpen w.n r.1, rspOk) else r

/-- The tags of a trailhead that hold an unanswered request. -/
def openTags (h : Trailhead) : List (Nat × TagUse) :=
  h.tags.filterMap (fun e => match e.2 with
    | some u => if u.quarantine then none else some (e.1, u)
    | none => none)

/-- Whether a trailhead's drain is complete (R328): every CLOSE_ACK and every response has arrived. -/
def drainComplete (h : Trailhead) : Bool := h.draining && h.ackWait == [] && openTags h == []

/-- The drain of a trailhead ends: STAT.DRAINED becomes 1. -/
def endDrain (t : Nat) (s : State) : State :=
  (s.setTh t { s.th t with draining := false, ackWait := [] }).put (R.HDR_STAT_DRAINED.on 0x09) t 1

/-- An unanswered request of a tag answered by the trailhead itself (R320, R328). -/
def answerTag (t tag code : Nat) (quarantine : Bool) (s : State) : State :=
  let h := s.th t
  match tblGet none h.tags tag with
  | some u =>
    if u.quarantine then s
    else deliver t u.init u.req ⟨code, []⟩
      (s.setTh t { h with tags := tblSet none h.tags tag (if quarantine then some { u with quarantine := true } else none) })
  | none => s

/-- DRAIN at its 100 µs limit (R328): what is outstanding is answered RSP_UNREACHABLE. -/
def drainTimeout (t : Nat) (s : State) : State :=
  if (s.th t).draining then
    let tags := openTags (s.th t)
    let s1 := tags.foldl (fun s e => answerTag t e.1 rspUnreachable true s) s
    let s2 := { s1 with answer := tags.map (fun _ => ⟨rspUnreachable, []⟩) }
    (endDrain t s2).raise 0x09 t 1
  else s

/-- A CTL flit of a kind taken from what has arrived at a trailhead, the first one. -/
def takeCtl (t vc msg : Nat) (s : State) : Option (Flit × State) :=
  let l := tblGet [] s.ejected (t * 4 + vc)
  match l.find? (fun f => f.kind == 5 && f.xs / 16 == msg) with
  | some f => some (f, { s with ejected := tblSet [] s.ejected (t * 4 + vc) (l.erase f) })
  | none => none

/-! ### Route tables, snapshots and the pages (R307, R309, R321) -/

/-- A write of TRLH_RT_HI: the whole entry is applied (R306, R309). -/
def routeWrite (w : WriteReq) (s : State) : Written :=
  let i := s.get R.TRLH_RT_IDX w.n % 512
  let h := s.th w.n
  let v := w.value.toNat
  let alt := bitOf i 7
  let route := s.get R.TRLH_RT_LO w.n + bitsAt v 0 16 * 2 ^ 32
  if h.pinned.contains i then refuseWrite w rspRefused 0x0102 s
  else if !routeValid w.n alt (i % 128) route then ((s.err 0x09 w.n 0x048 0x0101), rspRefused)
  else
    (s.setTh w.n { h with routes := tblSet 0 h.routes i (BitVec.ofNat 64 (route + bit (bitOf v 31) * 2 ^ 63)) }, rspOk)

/-- What TRLH_RT_LO and TRLH_RT_HI read: the entry selected (R309). -/
def routeRead (s : State) (t : Nat) (hi : Bool) : Word :=
  let i := s.get R.TRLH_RT_IDX t % 512
  let e := (tblGet 0 (s.th t).routes i).toNat
  if hi then word (bitsAt e 32 16 + bit ((s.th t).pinned.contains i) * 2 ^ 30 + bit (bitOf e 63) * 2 ^ 31) else word e

/-- TRLH_SNAP.CAPTURE: three counts in one cycle (R321); a frozen trailhead keeps its captures (R506). -/
def trlhSnap (t : Nat) (s : State) : State :=
  if s.flag (invalidField t) 0 then s
  else
    let h := s.th t
    ((s.put R.TRLH_ISSUED t h.issued).put R.TRLH_RESPONDED t h.responded).put R.TRLH_OUTSTANDING t (openTags h).length

/-- The STIL page's value rules (R327). -/
def stilBad (n off v : Nat) (s : State) : Option Nat :=
  if off = 0x048 then (if !stileQuiet s n then some 0x0102 else if v % 256 = 0 then some 0x0009 else none)
  else if 0x100 ≤ off ∧ off < 0x180 ∧ off % 0x20 = 0 ∧ 6 ≤ bitsAt v 4 3 then some 0x0009
  else none

/-- The STIL page's registers with a rule of their own; the trace registers exist in STIL_00 only. -/
def stilSpecial (w : WriteReq) (s : State) : Option Written :=
  if w.off = 0x040 then some (stileModeWrite w s)
  else if 0x200 ≤ w.off ∧ w.n ≠ 0 then some (s, rspOk)
  else if w.off = 0x20C then some (s.put R.STIL_TRACE_IDX 0 (w.value.toNat % 16384), rspOk)
  else none

/-- The BANK_SEL bits that the current and the staged itinerary give a trailhead (R307). -/
def bankPinned (s : State) (t : Nat) : List Nat :=
  s.porter.current.toList.map (fun it => bitsAt it.bankSel t 1) ++ s.porter.staged.toList.map (fun it => bitsAt it.bankSel t 1)

/-- The TRLH page's value and state rules (R307, R548). -/
def trlhBad (n off v : Nat) (s : State) : Option Nat :=
  if off = 0x04C then (if (bankPinned s n).all (fun b => b == v % 2) then none else some 0x0103)
  else if off = 0x050 then (if v % 4 = 3 then some 0x0009 else none)
  else if off = 0x060 then (if v % 2 ^ 14 < 10 then some 0x0009 else none)
  else none

/-- The TRLH page's registers with a rule of their own. -/
def trlhSpecial (w : WriteReq) (s : State) : Option Written :=
  if w.off = 0x048 then some (routeWrite w s)
  else if w.off = 0x074 then some (if bitOf w.value.toNat 0 then trlhSnap w.n s else s, rspOk)
  else if w.off = 0x09C then some (closeCtlWrite w s)
  else none

/-- SOFT_RESET of a trailhead (R335): route tables and BANK_SEL stay, all else is reset, and its counters are valid again (R506). -/
def trlhReset (t : Nat) (s : State) : State :=
  ((s.setTh t { Trailhead.idle with routes := (s.th t).routes, pinned := (s.th t).pinned }).put (invalidField t) 0 0).resetPage 0x09 t
    (fun off => off != 0x04C && off != 0x024 && off != 0x008 && off != 0x064 && off != 0x068 && off != 0x06C && off != 0x070)

/-! ### Responses (R308, R319) -/

/-- A response sent by a serving trailhead on its response route (R308): it carries the request's CB (R314), and data with the request's
byte enables (Table 13-6). When both routes cross the mask it sends none and counts LOST_RSP. -/
def sendResponse (r : ReplyTo) (a : Answer) (s : State) : State :=
  match s.pickRoute r.t r.src r.rspAlt with
  | none => s.count R.TRLH_LOST_RSP r.t 1
  | some (route, alt) =>
    let isData := a.code = rspOk ∧ ¬ r.write
    let n := if isData then r.flits else 1
    let head : Flit := ⟨route, 0, if a.code ≠ rspOk then 4 else if r.write then 3 else 2, 1, r.cb, r.t, 0, r.src, r.tag,
      false, 0, a.code * 16 + (n - 1) * 4 + bit r.urgent, 0, if isData then r.be else 0, if isData then a.data.take 64 else [],
      0, r.epoch, false, false⟩
    let body := (List.range (n - 1)).map (fun k => bodyFlit route 1 (k + 2 == n) r.be ((a.data.drop (64 * (k + 1))).take 64))
    postFlits r.t (injectStile r.t alt) (head :: body) s

/-- The answer to a served request: over the network, or to the command that made it. -/
def answerNet (i : NetIn) (a : Answer) (s : State) : State :=
  match i.reply with
  | some r => sendResponse r a s
  | none => { s with answer := [a] }

/-- The first whole worm whose head satisfies a test, among flits in order of arrival, and what is left. -/
def takeWorm (p : Flit → Bool) (l : List Flit) : Option (List Flit × List Flit) :=
  match l.span (fun f => !(f.isHead && p f)) with
  | (_, []) => none
  | (pre, h :: rest) =>
    let body := if h.wormLen = 1 then [] else
      let c := rest.takeWhile (fun f => f.kind == 6 && !bitOf f.xs 7)
      c ++ ((rest.drop c.length).take 1)
    if body.length + 1 = h.wormLen ∨ body.any (fun f => bitOf f.xs 7) then some (h :: body, pre ++ rest.drop body.length)
    else none

/-- A worm with a poisoned flit (R323). -/
def poisoned (w : List Flit) : Bool := w.any (fun f => f.kind == 6 && bitOf f.xs 6)

/-- The request that a worm carries (R301 to R303): a read's byte enables stand for each of its flits (R302). -/
def wormRequest (h : Flit) (body : List Flit) : NetReq :=
  let rot := bitOf h.xs 7
  let n := if rot then 1 else h.xs % 4 + 1
  { write := h.kind == 1
    addr := h.addr * 64 + (if rot then h.xs % 64 else 0)
    be := if h.kind = 1 then ((h :: body).zip (List.range 4)).foldl (fun b p => b + p.1.be * 2 ^ (64 * p.2)) 0
      else (List.range n).foldl (fun b k => b + h.be * 2 ^ (64 * k)) 0
    data := if h.kind = 1 then ((h :: body).map (fun f => f.data)).flatten else []
    flits := n
    rotate := rot
    consume := bitOf h.xs 6
    dma := h.dma }

/-- The next request that has arrived at a trailhead: its worm, and the state with the worm taken. VC_URG goes first (R312). -/
def takeRequest (t : Nat) (s : State) : Option (List Flit × State) :=
  let from_ := fun (vc : Nat) =>
    (takeWorm (fun f => f.kind == 0 || f.kind == 1) (tblGet [] s.ejected (t * 4 + vc))).map
      (fun r => (r.1, { s with ejected := tblSet [] s.ejected (t * 4 + vc) r.2 }))
  match from_ 2 with
  | some r => some r
  | none => from_ 0

/-- Where a request's response goes, and what its target sees of it. -/
def wormNetIn (t : Nat) (h : Flit) (body : List Flit) : NetIn :=
  let q := wormRequest h body
  { init := ⟨h.src, h.init⟩, req := q, tickSeq := if trlhOnArray h.src then some h.tickSeq else none
    reply := some ⟨t, h.src, h.tag, q.write, q.flits, h.rspAlt, h.vc == 2, h.be, h.cb, h.epoch⟩ }

/-- The next response that has arrived at a trailhead is delivered (R319, R320, R323), unless the storage has lost the request that it
answers (R506). -/
def takeResponse (t stamp : Nat) (ue : Bool) (s : State) : State :=
  match takeWorm Flit.isResponse (tblGet [] s.ejected (t * 4 + 1)) with
  | none => s
  | some ([], _) => s
  | some (h :: body, rest) =>
    let s1 := { s with ejected := tblSet [] s.ejected (t * 4 + 1) rest }
    match tblGet none (s1.th t).tags h.tag with
    | none => s1
    | some u =>
      if u.quarantine then (s1.count R.TRLH_LATE t 1).raise 0x09 t 6
      else if u.lost then s1
      else if ue then storageFault t h.tag s1
      else
        let bad := poisoned body
        let s2 := if bad then s1.raise 0x09 t 2 else s1
        let s3 := addStat t u.init (latencyBin (nocCycles (stamp - u.stamp))) 1
          (s2.setTh t { s2.th t with tags := tblSet none (s2.th t).tags h.tag none })
        deliver t u.init u.req (if bad then ⟨rspEcc, []⟩ else ⟨h.xs / 16, ((h :: body).map (fun f => f.data)).flatten⟩) s3

/-! ### The commands -/

/-- REQUEST_ISSUE (R308). -/
def execRequestIssue (i : Initiator) (q : NetReq) (stamp : Nat) (s : State) : Result :=
  need (i.src < 40) (done (issueRequest i.src i.init q stamp (s.clockTo stamp)))

/-- REQUEST_INJECT (R314). -/
def execRequestInject (t stamp : Nat) (s : State) (ue : Bool := false) : Result := need (t < 40) (done (injectRequest t stamp ue s))

/-- FLIT_ARRIVE (R305). -/
def execFlitArrive (stile port vc : Nat) (flips : Flips) (s : State) (stamp : Nat := 0) : Result :=
  need (stile < 44) (done (flitArrive stile port vc flips (s.clockTo stamp)))

/-- RESPONSE_DELIVER (R319). -/
def execResponseDeliver (t stamp : Nat) (s : State) (ue : Bool := false) : Result := need (t < 40) (done (takeResponse t stamp ue (s.clockTo stamp)))

/-- RESPONSE_TIMEOUT (R320): the request's timer answers; the tag goes to quarantine. -/
def execResponseTimeout (t tag : Nat) (s : State) : Result :=
  need (t < 40) (done (match tblGet none (s.th t).tags tag with
    | some u => if u.quarantine then s
        else (answerTag t tag rspUnreachable true (s.count R.TRLH_LOCAL_TIMEOUT t 1)).raise 0x09 t 7
    | none => s))

/-- TAG_QUARANTINE_END (R320). -/
def execTagQuarantineEnd (t tag : Nat) (s : State) : Result :=
  need (t < 40) (done (match tblGet none (s.th t).tags tag with
    | some u => if u.quarantine then s.setTh t { s.th t with tags := tblSet none (s.th t).tags tag none } else s
    | none => s))

/-- STILE_DRAINED (R327). -/
def execStileDrained (stile : Nat) (s : State) : Result := need (stile < 44) (done (stileDrained stile s))

/-- CLOSE_RECEIVE (R330): the sender enters the closed mask and gets CLOSE_ACK on VC_REQ. -/
def execCloseReceive (t : Nat) (s : State) : Result :=
  need (t < 40) (done (match takeCtl t 2 1 s with
    | some (f, s1) => (sendCtl t f.src 2 0 ((s1.setClosed t f.src true).raise 0x09 t 3)).1
    | none => s))

/-- CLOSE_ACK_RECEIVE (R328). -/
def execCloseAckReceive (t : Nat) (s : State) : Result :=
  need (t < 40) (done (match takeCtl t 0 2 s with
    | some (f, s1) => s1.setTh t { s1.th t with ackWait := (s1.th t).ackWait.filter (fun k => k != f.src) }
    | none => s))

/-- OPEN_RECEIVE (R330). -/
def execOpenReceive (t : Nat) (s : State) : Result :=
  need (t < 40) (done (match takeCtl t 2 3 s with
    | some (f, s1) => (s1.setClosed t f.src false).raise 0x09 t 3
    | none => s))

/-- DRAIN_COMPLETE (R328). -/
def execDrainComplete (t : Nat) (s : State) : Result :=
  need (t < 40) (done (if drainComplete (s.th t) then endDrain t s else s))

/-- DRAIN_TIMEOUT (R328). -/
def execDrainTimeout (t : Nat) (s : State) : Result := need (t < 40) (done (drainTimeout t s))

/-- The word of the trace buffer that STIL_TRACE_DATA shows; IDX advances modulo 16,384. -/
def traceRead (s : State) : State × Word :=
  let i := s.get R.STIL_TRACE_IDX 0 % 16384
  (s.put R.STIL_TRACE_IDX 0 ((i + 1) % 16384), tblGet 0 s.trace i)

end Sys2Proof.Machine
end

