-- ==== Sys2Proof/Machine/Fp.lean ====
section
/-!
DEFINITION. Floating point (R229 to R254): the three interchange formats, one rounding of an exact value, the operations of
Table 09-9 with their flags and NaN rules.
-/

namespace Sys2Proof.Machine

/-- A format (Table 10-3): width, precision and largest exponent. -/
structure FpFmt where
  w : Nat
  p : Nat
  emax : Nat
  deriving DecidableEq, Repr

def fmtH : FpFmt := ⟨16, 11, 15⟩
def fmtS : FpFmt := ⟨32, 24, 127⟩
def fmtD : FpFmt := ⟨64, 53, 1023⟩

/-- The format that FN[1:0] names; 0b11 is reserved and read as binary32. -/
def fpFmt (code : Nat) : FpFmt := if code = 0 then fmtH else if code = 2 then fmtD else fmtS

/-- The exponent of the last place of the smallest subnormal. -/
def FpFmt.qmin (f : FpFmt) : Int := 1 - (f.emax : Int) - ((f.p : Int) - 1)

/-- The encoding of +∞. -/
def FpFmt.inf (f : FpFmt) : Nat := (2 ^ (f.w - f.p) - 1) * 2 ^ (f.p - 1)

/-- The largest finite number. -/
def FpFmt.big (f : FpFmt) : Nat := f.inf - 1

/-- The default NaN (Table 10-4). -/
def FpFmt.nan (f : FpFmt) : Nat := f.inf + 2 ^ (f.p - 2)

/-- The sign bit's weight. -/
def FpFmt.signBit (f : FpFmt) : Nat := 2 ^ (f.w - 1)

/-- A value (R243): a finite number is ±m · 2^e. -/
inductive FpVal where
  | nan (signalling : Bool)
  | inf (neg : Bool)
  | fin (neg : Bool) (m : Nat) (e : Int)
  deriving DecidableEq, Repr

/-- The sign of an encoding. -/
def fpNeg (f : FpFmt) (x : Nat) : Bool := bitOf x (f.w - 1)

/-- The encoding without its sign. -/
def fpMag (f : FpFmt) (x : Nat) : Nat := x % 2 ^ (f.w - 1)

/-- What an encoding stands for. -/
def fpVal (f : FpFmt) (x : Nat) : FpVal :=
  let m := fpMag f x
  let field := m / 2 ^ (f.p - 1)
  let frac := m % 2 ^ (f.p - 1)
  if f.inf < m then .nan (!bitOf x (f.p - 2))
  else if m = f.inf then .inf (fpNeg f x)
  else if field = 0 then .fin (fpNeg f x) frac f.qmin
  else .fin (fpNeg f x) (frac + 2 ^ (f.p - 1)) (f.qmin + ((field : Int) - 1))

/-! ### Flags: NX 1, UF 2, OF 4, DZ 8, NV 16 (the order of FCSR.FLAGS) -/

abbrev fNX : Nat := 1
abbrev fUF : Nat := 2
abbrev fOF : Nat := 4
abbrev fDZ : Nat := 8
abbrev fNV : Nat := 16

/-- A result: its encoding and the flags raised. -/
abbrev FpRes := Nat × Nat

/-- A sign put on a magnitude. -/
def withSign (f : FpFmt) (neg : Bool) (mag : Nat) : Nat := mag + bit neg * f.signBit

/-- Whether a magnitude's integer part is rounded up: `rem` of 2^d is left over, `sticky` says that more lies below. -/
def roundsUp (rm : Nat) (neg : Bool) (q rem d : Nat) (sticky : Bool) : Bool :=
  let inexact := rem != 0 || sticky
  match rm with
  | 0 => d != 0 && (decide (2 ^ (d - 1) < rem) || (rem == 2 ^ (d - 1) && (sticky || q % 2 == 1)))
  | 1 => false
  | 2 => inexact && !neg
  | _ => inexact && neg

/-- m · 2^e (and something below when sticky) as a multiple of 2^q, rounded; and whether that is inexact. -/
def roundAt (rm : Nat) (neg : Bool) (m : Nat) (e q : Int) (sticky : Bool) : Nat × Bool :=
  if q ≤ e then
    let n := m * 2 ^ (e - q).toNat
    (if roundsUp rm neg n 0 0 sticky then n + 1 else n, sticky)
  else
    let d := (q - e).toNat
    let n := m / 2 ^ d
    let rem := m % 2 ^ d
    (if roundsUp rm neg n rem d sticky then n + 1 else n, rem != 0 || sticky)

/-- The result of an overflow (Table 10-7). -/
def overflow (f : FpFmt) (rm : Nat) (neg : Bool) : FpRes :=
  let toInf := match rm with
    | 0 => true
    | 1 => false
    | 2 => !neg
    | _ => neg
  (withSign f neg (if toInf then f.inf else f.big), fOF + fNX)

/-- A non-zero exact value ±m · 2^e (and something below when sticky) rounded once to a format (R244, R247). -/
def fpRound (f : FpFmt) (rm : Nat) (neg : Bool) (m : Nat) (e : Int) (sticky : Bool) : FpRes :=
  let top := (Nat.log2 m : Int) + e
  let free := roundAt rm neg m e (top - ((f.p : Int) - 1)) sticky
  let emin := 1 - (f.emax : Int)
  let tiny := decide ((Nat.log2 free.1 : Int) + (top - ((f.p : Int) - 1)) < emin)
  let q := max (top - ((f.p : Int) - 1)) f.qmin
  let r := roundAt rm neg m e q sticky
  let enc := (q - f.qmin).toNat * 2 ^ (f.p - 1) + r.1
  if f.inf ≤ enc then overflow f rm neg
  else (withSign f neg enc, (if r.2 then fNX else 0) + (if r.2 && tiny then fUF else 0))

/-- An exact integer multiple of 2^e rounded; `zeroNeg` is the sign of an exact zero. -/
def fpRoundInt (f : FpFmt) (rm : Nat) (n : Int) (e : Int) (zeroNeg : Bool) : FpRes :=
  if n = 0 then (withSign f zeroNeg 0, 0) else fpRound f rm (decide (n < 0)) n.natAbs e false

/-! ### NaNs (R248) -/

/-- A NaN operand quieted: sign and payload kept. -/
def quiet (f : FpFmt) (x : Nat) : Nat := if bitOf x (f.p - 2) then x else x + 2 ^ (f.p - 2)

/-- A NaN operand is signalling. -/
def isSig (f : FpFmt) (x : Nat) : Bool := fpVal f x == .nan true

/-- An encoding is a NaN. -/
def isNan (f : FpFmt) (x : Nat) : Bool := decide (f.inf < fpMag f x)

/-- The NaN result of operands, if one of them is a NaN: the first, quieted; NV when one is signalling. -/
def nanOf (f : FpFmt) (xs : List Nat) : Option FpRes :=
  (xs.find? (isNan f)).map (fun x => (quiet f x, if xs.any (isSig f) then fNV else 0))

/-- The result of an invalid operation on numbers. -/
def invalid (f : FpFmt) : FpRes := (f.nan, fNV)

/-- The sign flipped. -/
def flip (f : FpFmt) (x : Nat) : Nat := if fpNeg f x then x - f.signBit else x + f.signBit

/-! ### Arithmetic -/

/-- The sign of an exact zero sum (R247). -/
def zeroSign (rm : Nat) (a b : Bool) : Bool := if a = b then a else rm == 3

/-- A signed integer from sign and magnitude. -/
def signedInt (neg : Bool) (m : Nat) : Int := if neg then -(m : Int) else m

/-- The sum of two finite numbers. -/
def addFin (f : FpFmt) (rm : Nat) (n1 : Bool) (m1 : Nat) (e1 : Int) (n2 : Bool) (m2 : Nat) (e2 : Int) : FpRes :=
  let e := min e1 e2
  fpRoundInt f rm (signedInt n1 (m1 * 2 ^ (e1 - e).toNat) + signedInt n2 (m2 * 2 ^ (e2 - e).toNat)) e (zeroSign rm n1 n2)

/-- a + b, or a − b when sub (R247, R248). -/
def fpAdd (f : FpFmt) (rm : Nat) (sub : Bool) (a b : Nat) : FpRes :=
  match nanOf f [a, b] with
  | some r => r
  | none =>
    match fpVal f a, fpVal f b with
    | .inf s, .inf t => if s = (t != sub) then (a, 0) else invalid f
    | .inf _, _ => (a, 0)
    | _, .inf t => (withSign f (t != sub) f.inf, 0)
    | .fin n1 m1 e1, .fin n2 m2 e2 => addFin f rm n1 m1 e1 (n2 != sub) m2 e2
    | _, _ => invalid f

/-- a × b. -/
def fpMul (f : FpFmt) (rm : Nat) (a b : Nat) : FpRes :=
  match nanOf f [a, b] with
  | some r => r
  | none =>
    match fpVal f a, fpVal f b with
    | .inf s, .inf t => (withSign f (s != t) f.inf, 0)
    | .inf s, .fin t m _ => if m = 0 then invalid f else (withSign f (s != t) f.inf, 0)
    | .fin s m _, .inf t => if m = 0 then invalid f else (withSign f (s != t) f.inf, 0)
    | .fin n1 m1 e1, .fin n2 m2 e2 => fpRoundInt f rm (signedInt (n1 != n2) (m1 * m2)) (e1 + e2) (n1 != n2)
    | _, _ => invalid f

/-- ±(a × b) ± c with one rounding (R244, R248, R251): a NaN that a negation meets has its sign flipped. -/
def fpFma (f : FpFmt) (rm : Nat) (negP negC : Bool) (a b c : Nat) : FpRes :=
  let zeroInf := match fpVal f a, fpVal f b with
    | .inf _, .fin _ 0 _ => true
    | .fin _ 0 _, .inf _ => true
    | _, _ => false
  let sig := if [a, b, c].any (isSig f) then fNV else 0
  if isNan f a then (if negP then flip f (quiet f a) else quiet f a, sig)
  else if isNan f b then (if negP then flip f (quiet f b) else quiet f b, sig)
  else if isNan f c then (if negC then flip f (quiet f c) else quiet f c, sig)
  else if zeroInf then invalid f
  else
    match fpVal f a, fpVal f b, fpVal f c with
    | .fin n1 m1 e1, .fin n2 m2 e2, .fin n3 m3 e3 =>
      addFin f rm ((n1 != n2) != negP) (m1 * m2) (e1 + e2) (n3 != negC) m3 e3
    | .fin _ _ _, .fin _ _ _, .inf s => (withSign f (s != negC) f.inf, 0)
    | _, _, .inf s =>
      let ps := (fpNeg f a != fpNeg f b) != negP
      if ps = (s != negC) then (withSign f ps f.inf, 0) else invalid f
    | _, _, _ => (withSign f ((fpNeg f a != fpNeg f b) != negP) f.inf, 0)

/-! ### The divider (R252, R253) -/

/-- The integer square root of n, bit by bit from bit k − 1 down. -/
def isqrtFrom : Nat → Nat → Nat → Nat
  | 0, _, r => r
  | k + 1, n, r => let t := r + 2 ^ k; if t * t ≤ n then isqrtFrom k n t else isqrtFrom k n r

/-- Entry T[k] of the reciprocal estimate table: round(262,144 / (513 + 2k)) − 256, ties up (R252). -/
def recipTable (k : Nat) : Nat := (2 * 262144 + (513 + 2 * k)) / (2 * (513 + 2 * k)) - 256

/-- Entry R[q, j] of the reciprocal square root table: round(512 / √(2^q × (1 + (j + 0.5) / 128))) − 256, ties up (R252): half of
⌊16,384 / √(2^q × (257 + 2j))⌋, rounded up. -/
def rsqrtTable (q j : Nat) : Nat := (isqrtFrom 15 (2 ^ 28 / (2 ^ q * (257 + 2 * j))) 0 + 1) / 2 - 256

/-- The Newton–Raphson steps of a format (Table 10-10). -/
def FpFmt.steps (f : FpFmt) : Nat := if f.p = 53 then 3 else 2

/-- The fraction bits of the estimate in the divider. DESIGN CHOICE (log 14): the spec gives the steps and a bound of their error, not
the datapath's width; the result does not depend on it. -/
def FpFmt.estBits (f : FpFmt) : Nat := if f.p = 53 then 68 else 34

/-- A function applied n times. -/
def timesDo {α : Type} (g : α → α) : Nat → α → α
  | 0, x => x
  | n + 1, x => timesDo g n (g x)

/-- An estimate (256 + entry) / 512 with g fraction bits. -/
def estimate (g entry : Nat) : Nat := (256 + entry) * 2 ^ (g - 9)

/-- The estimate of 1 / b after the steps y := y × (2 − b × y), for a significand b of p bits (R253). -/
def recipEst (f : FpFmt) (b : Nat) : Nat :=
  let g := f.estBits
  let one := g + f.p - 1
  timesDo (fun y => y * (2 ^ (one + 1) - b * y) / 2 ^ one) f.steps (estimate g (recipTable (b % 2 ^ (f.p - 1) / 2 ^ (f.p - 9))))

/-- The estimate of 1 / √s after the steps y := y × (3 − s × y²) / 2, for s = 2^q × b (R253). -/
def rsqrtEst (f : FpFmt) (q b : Nat) : Nat :=
  let g := f.estBits
  let one := 2 * g + f.p - 1
  let j := b % 2 ^ (f.p - 1) / 2 ^ (f.p - 8)
  timesDo (fun y => y * (3 * 2 ^ one - 2 ^ q * b * y ^ 2) / 2 ^ (one + 1)) f.steps (estimate g (rsqrtTable q j))

/-- The candidate that the exact remainder selects, and whether the remainder is not 0: `rem q` is the remainder of candidate q (R253). -/
def adjacent (rem : Nat → Int) (q : Nat) : Nat × Bool :=
  let q1 := if rem q < 0 then q - 1 else if 0 ≤ rem (q + 1) then q + 1 else q
  (q1, rem q1 != 0)

/-- The quotient of two significands of p bits with p + 1 fraction bits, and whether more lies below it (R253). -/
def quotient (f : FpFmt) (a b : Nat) : Nat × Bool :=
  adjacent (fun q => ((a * 2 ^ (f.p + 1) : Nat) : Int) - ((b * q : Nat) : Int)) (a * recipEst f b / 2 ^ (f.estBits - 2))

/-- The root of s = 2^q × b with p fraction bits, and whether more lies below it (R253). -/
def root (f : FpFmt) (q b : Nat) : Nat × Bool :=
  let s := 2 ^ q * b
  adjacent (fun r => ((s * 2 ^ (f.p + 1) : Nat) : Int) - ((r * r : Nat) : Int)) (s * rsqrtEst f q b / 2 ^ (f.estBits - 1))

/-- A non-zero number m · 2^e with its significand moved up to p bits. -/
def normalise (f : FpFmt) (m : Nat) (e : Int) : Nat × Int :=
  let d := f.p - 1 - Nat.log2 m
  (m * 2 ^ d, e - d)

/-- a / b. -/
def fpDiv (f : FpFmt) (rm : Nat) (a b : Nat) : FpRes :=
  match nanOf f [a, b] with
  | some r => r
  | none =>
    let neg := fpNeg f a != fpNeg f b
    match fpVal f a, fpVal f b with
    | .inf _, .inf _ => invalid f
    | .inf _, _ => (withSign f neg f.inf, 0)
    | _, .inf _ => (withSign f neg 0, 0)
    | .fin _ m1 e1, .fin _ m2 e2 =>
      if m2 = 0 then (if m1 = 0 then invalid f else (withSign f neg f.inf, fDZ))
      else if m1 = 0 then (withSign f neg 0, 0)
      else
        let x := normalise f m1 e1
        let y := normalise f m2 e2
        let q := quotient f x.1 y.1
        fpRound f rm neg q.1 (x.2 - y.2 - ((f.p + 1 : Nat) : Int)) q.2
    | _, _ => invalid f

/-- The square root of a. -/
def fpSqrt (f : FpFmt) (rm : Nat) (a : Nat) : FpRes :=
  match nanOf f [a] with
  | some r => r
  | none =>
    match fpVal f a with
    | .fin neg m e =>
      if m = 0 then (a, 0)
      else if neg then invalid f
      else
        let x := normalise f m e
        let top := x.2 + ((f.p : Int) - 1)
        let q := (top % 2).toNat
        let r := root f q x.1
        fpRound f rm false r.1 (top / 2 - (f.p : Int)) r.2
    | .inf neg => if neg then invalid f else (a, 0)
    | _ => invalid f

/-! ### Conversions (R231) -/

/-- Format to format: a NaN keeps its sign and as much of its payload as fits, quieted (R248). -/
def fpConvert (src dst : FpFmt) (rm : Nat) (a : Nat) : FpRes :=
  match fpVal src a with
  | .nan sg =>
    let frac := quiet src a % 2 ^ (src.p - 1)
    let kept := if dst.p ≤ src.p then frac / 2 ^ (src.p - dst.p) else frac * 2 ^ (dst.p - src.p)
    (withSign dst (fpNeg src a) (dst.inf + kept), if sg then fNV else 0)
  | .inf neg => (withSign dst neg dst.inf, 0)
  | .fin neg m e => if m = 0 then (withSign dst neg 0, 0) else fpRound dst rm neg m e false

/-- To a 32-bit integer (R231): the register's word and the flags. -/
def fpToInt (f : FpFmt) (rm : Nat) (sgn : Bool) (a : Nat) : FpRes :=
  let lo : Int := if sgn then -(2 ^ 31) else 0
  let hi : Int := if sgn then 2 ^ 31 - 1 else 2 ^ 32 - 1
  match fpVal f a with
  | .nan _ => (0, fNV)
  | .inf neg => (wrapInt 32 (if neg then lo else hi), fNV)
  | .fin neg m e =>
    let r := roundAt rm neg m e 0 false
    let v := signedInt neg r.1
    if v < lo then (wrapInt 32 lo, fNV) else if hi < v then (wrapInt 32 hi, fNV)
    else (wrapInt 32 v, if r.2 then fNX else 0)

/-- From a 32-bit integer. -/
def fpFromInt (f : FpFmt) (rm : Nat) (sgn : Bool) (x : Nat) : FpRes :=
  fpRoundInt f rm (if sgn then signedOf 32 x else ((x % 2 ^ 32 : Nat) : Int)) 0 false

/-! ### Comparison, class, sign (R230, R232) -/

/-- The order of two numbers that are not NaN. -/
def fpOrder (f : FpFmt) (a b : Nat) : Ordering :=
  let key := fun (x : Nat) => signedInt (fpNeg f x) (fpMag f x)
  compare (key a) (key b)

/-- FCMP: N, Z, C, V (Table 09-12) and the flags. -/
def fpCompare (f : FpFmt) (signalling : Bool) (a b : Nat) : (Bool × Bool × Bool × Bool) × Nat :=
  if isNan f a || isNan f b then
    ((false, false, true, true), if signalling || isSig f a || isSig f b then fNV else 0)
  else match fpOrder f a b with
    | .lt => ((true, false, false, false), 0)
    | .eq => ((false, true, true, false), 0)
    | .gt => ((false, false, true, false), 0)

/-- Whether a comes before b in an order that puts −0 below +0. -/
def fpBefore (f : FpFmt) (a b : Nat) : Bool :=
  match fpOrder f a b with
  | .lt => true
  | .gt => false
  | .eq => fpNeg f a

/-- FMINMAX: 0 minimum, 1 maximum, 2 minimumNumber, 3 maximumNumber. -/
def fpMinMax (f : FpFmt) (kind a b : Nat) : FpRes :=
  let pick := if kind % 2 = 0 then (if fpBefore f a b then a else b) else (if fpBefore f a b then b else a)
  if isNan f a ∨ isNan f b then
    if 2 ≤ kind ∧ !(isNan f a && isNan f b) then
      (if isNan f a then b else a, if isSig f a || isSig f b then fNV else 0)
    else (nanOf f [a, b]).getD (invalid f)
  else (pick, 0)

/-- FCLASS (Table 09-11). -/
def fpClass (f : FpFmt) (x : Nat) : Nat :=
  let neg := fpNeg f x
  match fpVal f x with
  | .nan sg => if sg then 2 ^ 8 else 2 ^ 9
  | .inf _ => if neg then 1 else 2 ^ 7
  | .fin _ m _ =>
    if m = 0 then (if neg then 2 ^ 3 else 2 ^ 4)
    else if fpMag f x < 2 ^ (f.p - 1) then (if neg then 2 ^ 2 else 2 ^ 5)
    else if neg then 2 else 2 ^ 6

/-- FSGN: 0 copy, 1 opposite, 2 xor. -/
def fpSign (f : FpFmt) (kind a b : Nat) : Nat :=
  let s := match kind with
    | 0 => fpNeg f b
    | 1 => !fpNeg f b
    | _ => fpNeg f a != fpNeg f b
  withSign f s (fpMag f a)

end Sys2Proof.Machine
end

