-- ==== Sys2Proof/Machine/SymbolCode.lean ====
section
/-!
DEFINITION. The device-wide symbol code (R118 to R120): a word of 16 data symbols of 4 bits and three check symbols
over GF(16), 76 bits: data symbol j in bits [4j + 3 : 4j], C0, C1 and C2 above them. A memory holds the data a word
delivers when it is clean and, apart, the error pattern that has struck it; the code is linear, so the syndrome of
the stored word is the syndrome of the pattern.
-/

namespace Sys2Proof.Machine

/-- alpha times x in GF(16), generated by x^4 + x + 1 (R118). -/
def gfDouble (x : Nat) : Nat := if 8 ≤ x then (2 * x) ^^^ 0x13 else 2 * x

/-- The field product (R118). -/
def gfMul (a b : Nat) : Nat :=
  (if bitOf b 0 then a else 0) ^^^ (if bitOf b 1 then gfDouble a else 0) ^^^
  (if bitOf b 2 then gfDouble (gfDouble a) else 0) ^^^
  (if bitOf b 3 then gfDouble (gfDouble (gfDouble a)) else 0)

/-- The field inverse, x^14. -/
def gfInv (x : Nat) : Nat :=
  let x2 := gfMul x x
  let x4 := gfMul x2 x2
  let x8 := gfMul x4 x4
  gfMul x8 (gfMul x4 x2)

/-- The columns h_j of Table 05-9, D0 to D15, C0, C1, C2. -/
def symbolColumns : List (Nat × Nat × Nat) :=
  [(0xA, 0xA, 0xA), (0xA, 0x7, 0xE), (0x1, 0x4, 0x3), (0x1, 0x8, 0xC), (0x1, 0x3, 0x5), (0xB, 0xF, 0x4),
   (0x1, 0xC, 0xF), (0x5, 0x1, 0xB), (0xB, 0x1, 0x5), (0x1, 0xA, 0x8), (0x1, 0x7, 0x6), (0x2, 0xF, 0x5),
   (0xC, 0x8, 0x1), (0x4, 0x1, 0xD), (0xE, 0x7, 0xA), (0x4, 0x7, 0x4), (1, 0, 0), (0, 1, 0), (0, 0, 1)]

/-- The syndrome of a 76-bit word (R118): the sum of symbol times column over the given columns from symbol j on. -/
def syndromeFrom : List (Nat × Nat × Nat) → Nat → Nat → Nat × Nat × Nat
  | [], _, _ => (0, 0, 0)
  | (h0, h1, h2) :: t, j, w =>
    let d := bitsAt w (4 * j) 4
    let (s0, s1, s2) := syndromeFrom t (j + 1) w
    (gfMul d h0 ^^^ s0, gfMul d h1 ^^^ s1, gfMul d h2 ^^^ s2)

/-- The syndrome of a 76-bit word (R118). -/
def syndrome (w : Nat) : Nat × Nat × Nat := syndromeFrom symbolColumns 0 w

/-- The 12 check bits {C2, C1, C0} of 64 data bits (R118). -/
def checkBits (d : Nat) : Nat :=
  let s := syndrome (d % 2 ^ 64)
  s.1 + 16 * s.2.1 + 256 * s.2.2

/-- The outcome of decoding a word (R119). -/
inductive Decoded where
  | clean
  | corrected (symbol e : Nat)
  | uncorrectable
  deriving DecidableEq, Repr

/-- The first symbol from j on whose column times some e is the syndrome (R119). -/
def decodeFrom : List (Nat × Nat × Nat) → Nat → Nat × Nat × Nat → Decoded
  | [], _, _ => .uncorrectable
  | (h0, h1, h2) :: t, j, s =>
    let e := if h0 ≠ 0 then gfMul s.1 (gfInv h0) else if h1 ≠ 0 then gfMul s.2.1 (gfInv h1)
             else gfMul s.2.2 (gfInv h2)
    if e ≠ 0 ∧ s = (gfMul e h0, gfMul e h1, gfMul e h2) then .corrected j e else decodeFrom t (j + 1) s

/-- The decoder of R119 on the error pattern of a stored word. -/
def decodeWord (err : Nat) : Decoded :=
  let s := syndrome err
  if s = (0, 0, 0) then .clean else decodeFrom symbolColumns 0 s

/-- The error pattern left in the delivered word after R119: the pattern with the corrected symbol added. -/
def residue (err : Nat) : Nat :=
  match decodeWord err with
  | .corrected j e => err ^^^ (e * 2 ^ (4 * j))
  | _ => err

end Sys2Proof.Machine
end

