-- ==== Sys2Proof/Machine/Tick.lean ====
section
/-!
DEFINITION. The tick generator (R47 to R53, R72): effective period, tick lengths, start, stop, slew, holdover, and the TICK
page's own write rules. Stamps are counted in units of 4 ns since PD_AO came up, ten to a CK_AO cycle.
-/

namespace Sys2Proof.Machine

/-- TICK_SLEW as a signed number (R49). -/
def State.slew (s : State) : Int := signedOf 24 (s.get R.TICK_SLEW_SLEW 0)

/-- The effective period in units of 2^-24 reference cycle: TICK_PERIOD × (1 + SLEW / 2^32), rounded to nearest (R49);
an exact tie rounds up (DESIGN CHOICE, log 21). -/
def effectivePeriod (period : Nat) (slew : Int) : Nat :=
  (((period : Int) * (2 ^ 32 + slew) + 2 ^ 19) / 2 ^ 20).toNat

/-- The tick that an edge opens: its length is the integer part of the effective period, one more when the fraction
carries out of the 24-bit accumulator (R48). The accumulator is 0 at reset and keeps its value over a stop and a start (DESIGN CHOICE,
log 20). -/
def openTick (s : State) (cycle : Nat) : State :=
  let e := effectivePeriod (s.get R.TICK_PERIOD 0) s.slew
  let sum := s.tick.acc + e % 2 ^ 24
  { s with tick := { s.tick with
      acc := sum % 2 ^ 24
      len := e / 2 ^ 24 + sum / 2 ^ 24
      lastEdge := cycle
      cut := s.get R.TICK_CUTOFF_CYCLES 0 } }

/-- TICK_ARRAY_BUDGET: floor(0.96 × TICK_PERIOD × 25.6), without slew (R52). -/
def arrayBudget (period : Nat) : Nat := 96 * 256 * period / (1000 * 4096)

/-- The monitor has reported the reference good for 10 ms without a break: 1,000 windows of 10 µs (R51, R480). -/
def State.refGood (s : State) : Bool := decide (1000 ≤ s.tick.goodWindows)

/-- The generator starts (R50, R51): TICK_SNAP returns to 0, the source is chosen, the first edge falls one tick later. A
generator that runs is not started again. -/
def tickStart (stamp : Nat) (s : State) : State :=
  if s.flag R.TICK_RUN_RUN 0 then s
  else
    let s1 := (((s.put R.TICK_RUN_RUN 0 1).put R.TICK_RUN_SRC 0 (bit (!s.refGood))).put R.TICK_SNAP 0 0).put
      R.TICK_PHASE 0 0
    openTick { s1 with tick := { s1.tick with arrayCutoff := none } } (stamp / 10)

/-- The generator stops (R50, R549): no cutoff and no commit until the next start. TICK_SNAP and every input stay. TICK_PHASE reads 0 while
it is stopped (DESIGN CHOICE, log 22). -/
def tickStop (s : State) : State :=
  if s.flag R.TICK_RUN_RUN 0 then
    let s1 := (s.put R.TICK_RUN_RUN 0 0).put R.TICK_PHASE 0 0
    { s1 with tick := { s1.tick with arrayCutoff := none } }
  else s

/-- TICK_SLEW clamped to ±429,496 (R49). -/
def clampSlew (v : Nat) : Nat × Bool :=
  let x := signedOf 24 v
  if 429496 < x then (wrapInt 24 429496, true)
  else if x < -429496 then (wrapInt 24 (-429496), true)
  else (v % 2 ^ 24, false)

/-- A write of TICK_SLEW: the shadow holds the clamped value (R49). -/
def slewWrite (w : WriteReq) (s : State) : Written :=
  let (v, clamped) := clampSlew w.value.toNat
  let s1 := shadowWrite w v s
  (if clamped then s1.raise 0x17 0 3 else s1, rspOk)

/-- The TICK page's range rules: TICK_PERIOD 100,000 to 1,041,675 cycles (R47), TICK_CUTOFF 1,250 to 50,000 cycles. -/
def tickBad (off v : Nat) : Option Nat :=
  if off = 0x044 ∧ ¬ (100000 * 4096 ≤ v ∧ v ≤ 1041675 * 4096) then some 0x0102
  else if off = 0x04C ∧ ¬ (1250 ≤ v % 2 ^ 16 ∧ v % 2 ^ 16 ≤ 50000) then some 0x0101
  else none

/-- The TICK page's registers with a rule of their own. -/
def tickSpecial (w : WriteReq) (s : State) : Option Written :=
  if w.off = 0x040 then some (if bitOf w.value.toNat 0 then tickStart w.stamp s else tickStop s, rspOk)
  else if w.off = 0x048 then some (slewWrite w s)
  else none

/-- A SOFT_RESET of the TICK page (R72): EVT, OUT_CFG, LATE_READ and the header take their reset values, and the shadows
are discarded; everything that carries the running tick stays. -/
def tickSoftReset (s : State) : State :=
  (s.resetPage 0x17 0 (fun off => (0x008 ≤ off && decide (off < 0x024)) || off == 0x068 || off == 0x070)).dropShadows 0x17 0

/-- The next snapshot number: 0 is skipped (R50). -/
def nextSnap (n : Nat) : Nat := if n = 2 ^ 32 - 1 then 1 else n + 1

/-- TICK_EDGES, the 48-bit count of edges. -/
def State.edges (s : State) : Nat := s.get R.TICK_EDGES_LO 0 + 2 ^ 32 * s.get R.TICK_EDGES_HI_COUNT 0

/-- TICK_EDGES one further. -/
def countEdge (s : State) : State :=
  let e := (s.edges + 1) % 2 ^ 48
  (s.put R.TICK_EDGES_LO 0 e).put R.TICK_EDGES_HI_COUNT 0 (e / 2 ^ 32)

/-- The pending TICK_PERIOD at a commit (R53): applied if it is at least the period for which the itinerary current after
the commit was admitted, else discarded with PERIOD_HELD. -/
def periodCommit (ws : List ShadowWrite) (admitted : Nat) (s : State) : State :=
  match lastShadow ws (regKey 0x17 0 0x044) with
  | none => s
  | some v =>
    if admitted ≤ v.toNat then
      (s.setReg 0x17 0 0x044 v).put R.TICK_ARRAY_BUDGET_CYCLES 0 (arrayBudget v.toNat)
    else s.raise 0x17 0 2

/-- The tick generator's part of a commit (R48 to R53, R61): the shadows of the TICK page, the return to the reference,
the numbers, and the tick that the edge opens. -/
def tickCommit (ws : List ShadowWrite) (admitted : Nat) (s : State) : State :=
  let s1 := periodCommit ws admitted s
  let s2 := match lastShadow ws (regKey 0x17 0 0x048) with
    | some v => s1.put R.TICK_SLEW_SLEW 0 v.toNat
    | none => s1
  let s3 := match lastShadow ws (regKey 0x17 0 0x04C) with
    | some v => s2.put R.TICK_CUTOFF_CYCLES 0 v.toNat
    | none => s2
  let s4 := if s3.flag R.TICK_RUN_SRC 0 && s3.refGood then s3.put R.TICK_RUN_SRC 0 0 else s3
  let s5 := (countEdge s4).put R.TICK_SNAP 0 (nextSnap (s4.get R.TICK_SNAP 0))
  let s6 := ((s5.put R.TICK_DEFER_FRAMES 0 s.tick.deferFrames).put R.TICK_DEFER_DOORBELLS 0
    (min s.tick.deferDoorbells 255)).put R.TICK_DEFER_TB_WRITES 0 (min s.tick.deferTb 255)
  let s7 := openTick (s6.put R.TICK_PHASE 0 0) (s.tick.lastEdge + s.tick.len)
  let s8 := { s7 with
    tick := { s7.tick with deferFrames := 0, deferDoorbells := 0, deferTb := 0,
                             prevSnap := s.get R.TICK_SNAP 0 }
    pins := { s7.pins with tickOut := s7.get R.TICK_OUT_CFG_WIDTH 0 != 0 } }
  s8.raise 0x17 0 0

/-- REFERENCE_LOST (R51): the generator goes on in holdover. -/
def execReferenceLost (s : State) : Result :=
  let s1 := { s with tick := { s.tick with goodWindows := 0 } }
  done (if s1.flag R.TICK_RUN_RUN 0 && !s1.flag R.TICK_RUN_SRC 0 then (s1.put R.TICK_RUN_SRC 0 1).raise 0x17 0 4 else s1)

/-- TICK_OUT_PULSE_END: WIDTH reference cycles after an edge TICK_OUT returns low. -/
def execTickOutPulseEnd (s : State) : Result := done { s with pins := { s.pins with tickOut := false } }

/-- A CUT message (R55, R71): the array-side cutoff is the arrival of the first one less AGE × 4 ns; later copies, and a message whose
TICK_SEQ is not that of the coming commit, fix nothing. -/
def cutMessage (tickSeq age arrival : Nat) (s : State) : State :=
  if tickSeq = (s.edges + 1) % 16 ∧ s.linkUp ∧ s.tick.arrayCutoff = none then
    { s with tick := { s.tick with arrayCutoff := some (arrival - age) } } else s

/-- CUT_MESSAGE_RECEIVE (R55, R71). -/
def execCutMessageReceive (tickSeq age arrival : Nat) (s : State) : Result := done (cutMessage tickSeq age arrival s)

end Sys2Proof.Machine
end

