-- ==== Sys2Proof/Machine/Signals.lean ====
section
/-!
DEFINITION. The signal table (R406 to R415): extraction, updates, the timeout sweep, the commit, reads of the committed bank, rows
under the symbol code.
-/

namespace Sys2Proof.Machine

def State.setSigt (s : State) (x : SigTable) : State := { s with sigt := x }
def State.sig (s : State) (e : Nat) : SigEntry := tblGet SigEntry.empty s.sigt.entries e
def State.setSig (s : State) (e : Nat) (x : SigEntry) : State :=
  { s with sigt := { s.sigt with entries := tblSet SigEntry.empty s.sigt.entries e x } }

/-! ### Rows (R415). Rows of the slots, four to an entry, then of the configurations, then of the descriptors, two each. -/

/-- The row of word w of a slot of an entry. -/
def slotRow (e : Nat) (second : Bool) (w : Nat) : Nat := 4 * e + 2 * bit second + w
/-- The row of word w of an entry's configuration. -/
def cfgRow (e w : Nat) : Nat := 2 ^ 18 + 2 * e + w
/-- The row of word w of a descriptor. -/
def descRow (d w : Nat) : Nat := 2 ^ 18 + 2 ^ 17 + 2 * d + w
/-- How many rows there are. -/
abbrev sigRows : Nat := 2 ^ 18 + 2 ^ 17 + 2 ^ 15
/-- The entry (or descriptor) that a row belongs to. -/
def rowEntry (r : Nat) : Nat :=
  if r < 2 ^ 18 then r / 4 else if r < 2 ^ 18 + 2 ^ 17 then (r - 2 ^ 18) / 2 else (r - 2 ^ 18 - 2 ^ 17) / 2

def SigTable.err (t : SigTable) (r : Nat) : Nat := (tblGet 0 t.errs r).toNat
/-- A row holds an uncorrectable word. -/
def SigTable.bad (t : SigTable) (r : Nat) : Bool := decodeWord (t.err r) == .uncorrectable
/-- A row's error pattern replaced. -/
def SigTable.setErr (t : SigTable) (r : Nat) (e : BitVec 76) : SigTable := { t with errs := tblSet 0 t.errs r e }
/-- The bits that differ from what was written in the two rows of a 128-bit item, as the decoder delivers them (R119). -/
def SigTable.noise (t : SigTable) (r0 r1 : Nat) : Nat :=
  residue (t.err r0) % 2 ^ 64 + 2 ^ 64 * (residue (t.err r1) % 2 ^ 64)

/-- A row met by a read or the scrub (R415): a corrected row is written back and counted, an uncorrectable one is counted,
located and reported. -/
def touchRow (r : Nat) (s : State) : State :=
  match decodeWord (s.sigt.err r) with
  | .clean => s
  | .corrected _ _ => ((s.setSigt (s.sigt.setErr r (BitVec.ofNat 76 (residue (s.sigt.err r))))).count R.SIGT_CE_VALUE 0 1).raise 0x12 0 2
  | .uncorrectable =>
    (((s.count R.SIGT_UE_VALUE 0 1).put R.SIGT_UE_ENTRY_VALUE 0 (rowEntry r % 2 ^ 16)).raise 0x12 0 3).report 0x12 0 3 clsDevice

/-! ### Configurations and descriptors -/

/-- An entry's configuration as its users read it: disabled while a row of it is uncorrectable (R415). -/
def State.sigCfg (s : State) (e : Nat) : Nat :=
  if s.sigt.bad (cfgRow e 0) || s.sigt.bad (cfgRow e 1) then 0
  else tblGet 0 s.sigt.cfg e ^^^ s.sigt.noise (cfgRow e 0) (cfgRow e 1)

/-- EN, SUBST_EN, TIMEOUT_MS, SUBST (Table 16-8). -/
def cfgEn (c : Nat) : Bool := bitOf c 31
def cfgSubstEn (c : Nat) : Bool := bitOf c 30
def cfgTimeout (c : Nat) : Nat := c % 2 ^ 16
def cfgSubst (c : Nat) : Nat := bitsAt c 64 64

/-- A descriptor, or none while a row of it is uncorrectable. -/
def State.sigDesc (s : State) (d : Nat) : Option Nat :=
  if s.sigt.bad (descRow d 0) || s.sigt.bad (descRow d 1) then none
  else some (tblGet 0 s.sigt.desc d ^^^ s.sigt.noise (descRow d 0) (descRow d 1))

/-! ### Slots -/

/-- The committed slot of an entry. -/
def SigEntry.committed (x : SigEntry) : SigSlot := if x.sel then x.slot1 else x.slot0
/-- The pending slot of an entry. -/
def SigEntry.pending (x : SigEntry) : SigSlot := if x.sel then x.slot0 else x.slot1
/-- The pending slot replaced. -/
def SigEntry.setPending (x : SigEntry) (v : SigSlot) : SigEntry := if x.sel then { x with slot0 := v } else { x with slot1 := v }
/-- The committed slot replaced. -/
def SigEntry.setCommitted (x : SigEntry) (v : SigSlot) : SigEntry := if x.sel then { x with slot1 := v } else { x with slot0 := v }

/-- The 16 bytes of the committed view (Table 16-9), as a number. -/
def slotBits (v : SigSlot) : Nat :=
  v.value % 2 ^ 64 + 2 ^ 64 * (bit v.fresh + 2 * bit v.timeout + 4 * bit v.subst + 8 * bit v.invalid + 256 * v.updates) +
  2 ^ 96 * (v.stamp % 2 ^ 32)

/-- Both rows of an entry's slot hold what is now written: no error is left in them. -/
def clearSlotErrs (e : Nat) (second : Bool) (s : State) : State :=
  s.setSigt ((s.sigt.setErr (slotRow e second 0) 0).setErr (slotRow e second 1) 0)

/-- A write to the pending slot (R412). -/
def writePending (e : Nat) (x : SigEntry) (v : SigSlot) (s : State) : State :=
  clearSlotErrs e (!x.sel) (s.setSig e (x.setPending v))

/-- An accepted update (R412): value and INVALID, FRESH set, TIMEOUT and SUBST clear, UPDATES raised. Of two updates for one snapshot the one
with the later stamp stands (R58). -/
def writeUpdate (e value : Nat) (invalid : Bool) (stamp : Nat) (s : State) : State :=
  let x := s.sig e
  let n := if x.mark = 1 then x.pending.updates else 0
  if x.mark = 1 ∧ stamp < x.pending.stamp then writePending e x { x.pending with updates := satAdd n 1 255 } s
  else writePending e { x with mark := 1, last := max x.last stamp } ⟨value, satAdd n 1 255, invalid, false, false, true, stamp⟩ s

/-- A skipped descriptor or injection (R407, R409, R415). -/
def countShort (s : State) : State := (s.count R.SIGT_SHORT_VALUE 0 1).raise 0x12 0 1

/-! ### Extraction (R406, R407) -/

/-- Bit b of a payload. -/
def payloadBit (data : List Byte) (b : Nat) : Bool := bitOf (data.getD (b / 8) 0).toNat (b % 8)

/-- The bit places of a big-endian signal from its most significant bit on. -/
def bigPlaces : Nat → Nat → List Nat
  | 0, _ => []
  | n + 1, b => b :: bigPlaces n (if b % 8 = 0 then b + 15 else b - 1)

/-- The bit places of a descriptor's signal, most significant first. -/
def signalPlaces (d : Nat) : List Nat :=
  let len := bitsAt d 30 6 + 1
  if bitOf d 36 then bigPlaces len (bitsAt d 16 14) else ((List.range len).map (fun i => bitsAt d 16 14 + i)).reverse

/-- The raw value of a signal. -/
def signalRaw (data : List Byte) (places : List Nat) : Nat := places.foldl (fun r b => 2 * r + bit (payloadBit data b)) 0

/-- The value of a signal and whether it is invalid (R407). -/
def signalValue (d raw : Nat) : Nat × Bool :=
  let len := bitsAt d 30 6 + 1
  let invalid := bitOf d 38 && raw == 2 ^ len - 1
  let v : Int := if bitOf d 37 then signedOf len raw else raw
  (wrapInt 64 (v * signedOf 16 (bitsAt d 40 16) / (2 ^ bitsAt d 56 6 : Nat) + signedOf 32 (bitsAt d 64 32)), invalid)

/-- One descriptor applied to a payload (R407). -/
def applyDesc (data : List Byte) (stamp d : Nat) (s : State) : State :=
  let s1 := touchRow (descRow d 1) (touchRow (descRow d 0) s)
  match s.sigDesc d with
  | none => countShort s1
  | some w =>
    let e := w % 2 ^ 16
    let s2 := touchRow (cfgRow e 1) (touchRow (cfgRow e 0) s1)
    let places := signalPlaces w
    if !(places.all (fun b => decide (b < 8 * data.length))) || !cfgEn (s.sigCfg e) then countShort s2
    else
      let r := signalValue w (signalRaw data places)
      writeUpdate e r.1 r.2 stamp s2

/-- The descriptors of a frame, in ascending order (R406). -/
def extract (first count : Nat) (data : List Byte) (stamp : Nat) (s : State) : State :=
  (List.range count).foldl (fun s k => applyDesc data stamp (first + k) s) s

/-- An injected update (R409). -/
def injectUpdate (e value stamp : Nat) (s : State) : State :=
  if cfgEn (s.sigCfg e) then writeUpdate e value false stamp s else countShort s

/-! ### Cutoff and commit (R57, R412, R413) -/

/-- A slot copied row by row into the pending slot: what the code cannot correct in it stays uncorrectable (R415). -/
def copySlotErrs (e : Nat) (s : State) : State :=
  let x := s.sig e
  let from_ := fun w => BitVec.ofNat 76 (s.sigt.err (slotRow e x.sel w))
  s.setSigt ((s.sigt.setErr (slotRow e (!x.sel) 0) (from_ 0)).setErr (slotRow e (!x.sel) 1) (from_ 1))

/-- The timeout sweep of one entry at a cutoff; it meets the rows of the configuration and those of a slot that it copies. -/
def sweepEntry (cutoff : Nat) (s0 : State) (e : Nat) : State :=
  let s := touchRow (cfgRow e 1) (touchRow (cfgRow e 0) s0)
  let c := s.sigCfg e
  let x := s.sig e
  if cfgEn c ∧ x.mark = 0 ∧ cfgTimeout c ≠ 0 ∧ x.last + cfgTimeout c * 25000 < cutoff then
    let old := x.committed
    if cfgSubstEn c then writePending e { x with mark := 2 } ⟨cfgSubst c, 0, false, true, true, false, 0⟩ s
    else copySlotErrs e (writePending e { x with mark := 2 } { old with updates := 0, timeout := true, fresh := false }
      (touchRow (slotRow e x.sel 1) (touchRow (slotRow e x.sel 0) s)))
  else s

/-- The timeout sweep: every enabled entry. -/
def timeoutSweep (cutoff : Nat) (s : State) : State := (s.sigt.cfg.map (fun p => p.1)).foldl (sweepEntry cutoff) s

/-- The commit of one entry: a marked entry flips its slots; another loses FRESH and UPDATES. -/
def commitEntry (s : State) (e : Nat) : State :=
  let x := s.sig e
  if x.mark ≠ 0 then
    let s1 := s.setSig e { x with sel := !x.sel, mark := 0 }
    let s2 := s1.put R.SIGT_WRITES_VALUE 0 (s1.get R.SIGT_WRITES_VALUE 0 + 1)
    if x.pending.timeout then
      let s3 := s2.put R.SIGT_TIMEOUTS_VALUE 0 (s2.get R.SIGT_TIMEOUTS_VALUE 0 + 1)
      if x.committed.timeout then s3 else s3.raise 0x12 0 0
    else s2
  else s.setSig e (x.setCommitted { x.committed with fresh := false, updates := 0 })

/-- The signal table's part of a commit. -/
def signalCommit (s : State) : State :=
  (s.sigt.entries.map (fun p => p.1)).foldl commitEntry ((s.put R.SIGT_WRITES_VALUE 0 0).put R.SIGT_TIMEOUTS_VALUE 0 0)

/-- A configuration applied to an entry (R410): EN applied as 0 empties the committed slot; EN applied as 1 where it was 0 starts
the timeout. -/
def applyCfg (e value cycle : Nat) (s : State) : State :=
  let was := cfgEn (s.sigCfg e)
  let s1 := s.setSigt (({ s.sigt with cfg := tblSet 0 s.sigt.cfg e value }.setErr (cfgRow e 0) 0).setErr (cfgRow e 1) 0)
  let x := s1.sig e
  if !cfgEn value then clearSlotErrs e x.sel (s1.setSig e { x.setCommitted SigSlot.empty with mark := 0 })
  else if was then s1 else s1.setSig e { x with last := cycle }

/-- A descriptor replaced. -/
def applyDescWrite (d value : Nat) (s : State) : State :=
  s.setSigt (({ s.sigt with desc := tblSet 0 s.sigt.desc d value }.setErr (descRow d 0) 0).setErr (descRow d 1) 0)

/-! ### Reads of the committed bank (R63, R411, R414) -/

/-- The committed slot of an entry has an uncorrectable row. -/
def State.slotBad (s : State) (e : Nat) : Bool :=
  s.sigt.bad (slotRow e (s.sig e).sel 0) || s.sigt.bad (slotRow e (s.sig e).sel 1)

/-- The committed slot of an entry as it is read: value 0 with INVALID while TICK_SNAP is 0 (R50). -/
def State.sigView (s : State) (e : Nat) : SigSlot :=
  if s.get R.TICK_SNAP 0 = 0 then SigSlot.empty else (s.sig e).committed

/-- The 16 bytes of an entry's committed view. -/
def State.sigBytes (s : State) (e : Nat) : List Byte :=
  let noise := if s.get R.TICK_SNAP 0 = 0 then 0 else s.sigt.noise (slotRow e (s.sig e).sel 0) (slotRow e (s.sig e).sel 1)
  leBytes 16 (slotBits (s.sigView e) ^^^ noise)

/-- The first lane and the number of lanes of a read that names one run of lanes. -/
def laneRun (q : NetReq) : Option (Nat × Nat) :=
  match (List.range 64).find? (fun k => bitOf q.be k) with
  | none => none
  | some a =>
    let n := (List.range 64).foldl (fun n k => n + bit (bitOf q.be k)) 0
    if q.be % 2 ^ 64 = (2 ^ n - 1) * 2 ^ a then some (a, n) else none

/-- A read that R414 serves: 4 to 64 bytes, aligned to 4 bytes, in one block. -/
def sigReadOk (q : NetReq) : Bool :=
  !q.write && !q.rotate && q.flits == 1 && (match laneRun q with
    | some (a, n) => a % 4 == 0 && decide (4 ≤ n)
    | none => false)

/-- A request to the signal window. -/
def sigRead (q : NetReq) (tickSeq : Option Nat) (s : State) : State × Answer :=
  if !sigReadOk q then (s, ⟨rspRefused, []⟩)
  else if (match tickSeq with
    | some t => t != s.edges % 16
    | none => false) then
    ((s.count R.TICK_LATE_READ_COUNT 0 1).raise 0x17 0 5, ⟨rspRefused, []⟩)
  else
    let block := q.addr % 2 ^ 20 / 64
    let hit := (List.range 4).filter (fun j => (List.range 16).any (fun k => bitOf q.be (16 * j + k)))
    let es := hit.map (fun j => 4 * block + j)
    let s1 := es.foldl (fun s e => touchRow (slotRow e (s.sig e).sel 1) (touchRow (slotRow e (s.sig e).sel 0) s)) s
    if es.any s.slotBad then (s1, ⟨rspEcc, []⟩)
    else
      let bytes := (List.range 4).flatMap (fun j => s.sigBytes (4 * block + j))
      (s1, ⟨rspOk, (List.range 64).map (fun k => if bitOf q.be k then bytes.getD k 0 else 0)⟩)

/-- SIGNAL_TABLE_SCRUB (R415): one row. -/
def execSignalTableScrub (s : State) : Result :=
  done (if s.domainOn 2 then
    let s1 := touchRow (s.sigt.scrubRow % sigRows) s
    s1.setSigt { s1.sigt with scrubRow := (s.sigt.scrubRow + 1) % sigRows } else s)

end Sys2Proof.Machine
end

