-- ==== Sys2Proof/Machine/Itin.lean ====
section
/-!
DEFINITION. What an itinerary says of a variant and of gangs (R80 to R85, R103), looked up.
-/

namespace Sys2Proof.Machine

/-- The panes of a gang by its code and base (Tables 04-9, 05-1). -/
def gangPanes (size base : Nat) : List Nat :=
  let n := match size with
    | 0 => 1 | 1 => 2 | 2 => 4 | 3 => 8 | 4 => 16 | 5 => 2 | _ => 0
  (List.range n).map (fun k => base + k)

/-- A variant's record, its alias resolved (R81). -/
def Itinerary.variant (it : Itinerary) (v : Nat) : VariantRec :=
  let empty : VariantRec := ⟨0xFF, [], none, none, 0, 0⟩
  let r := it.variants.getD v empty
  if r.sameAs = 0xFF then r else it.variants.getD r.sameAs empty

/-- A variant's Pantry table (R85, Table 04-7). -/
def Itinerary.pantry (it : Itinerary) (v : Nat) : List Nat :=
  ((it.variant v).pantry).getD (((it.variant 0).pantry).getD [])

/-- A variant's tasks: their definitions in list order. -/
def Itinerary.tasks (it : Itinerary) (v : Nat) : List TaskDef :=
  (it.variant v).entries.filterMap (fun e => it.defs[e.defIdx]?)

/-- Whether a task is in a variant. -/
def Itinerary.hasTask (it : Itinerary) (v id : Nat) : Bool := (it.tasks v).any (fun d => d.id == id)

/-- A variant's reservations as listed (Table 04-7). -/
def Itinerary.resvList (it : Itinerary) (v : Nat) : List ResvRec :=
  ((it.variant v).resv).getD (((it.variant 0).resv).getD [])

/-- A reservation takes part in a variant: its owner is the itinerary or a task present (R83). -/
def Itinerary.resvIn (it : Itinerary) (v : Nat) (r : ResvRec) : Bool := r.owner == 0xFFFF || it.hasTask v r.owner

/-- The entries of a gang in a variant, with their index in the list. -/
def Itinerary.gangEntries (it : Itinerary) (v base : Nat) : List (Nat × TaskEntry) :=
  ((List.range (it.variant v).entries.length).zip (it.variant v).entries).filter (fun e => e.2.base == base)

/-- The gangs of a variant: size code and base, each once, in the order of their first entries. -/
def Itinerary.gangs (it : Itinerary) (v : Nat) : List (Nat × Nat) :=
  ((it.variant v).entries.map (fun e => (e.size, e.base))).eraseDups

/-- The panes that a variant names. -/
def Itinerary.variantPanes (it : Itinerary) (v : Nat) : List Nat :=
  ((it.gangs v).map (fun g => gangPanes g.1 g.2)).flatten

/-- A pane is named in a gang of some variant of the current or the staged itinerary (R171). -/
def State.panePinned (s : State) (p : Nat) : Bool :=
  (s.porter.current.toList ++ s.porter.staged.toList).any
    (fun it => (List.range 80).any (fun v => (it.variantPanes v).contains p))

/-- A bank is pinned (R284): the Pantry table of some variant of the current or staged itinerary gives it an owner that is
not the host. -/
def State.bankPinnedAt (s : State) (b : Nat) : Bool :=
  (s.porter.current.toList ++ s.porter.staged.toList).any
    (fun it => (List.range 80).any (fun v => match (it.pantry v)[b]? with
      | some c => c != 0x41
      | none => false))

/-- The variant in force. -/
def State.variantNow (s : State) : Nat := s.get R.PORT_VARIANT_VARIANT 0

/-- The panes of the gang that a pane belongs to: the pane alone when it is in none. -/
def State.paneGang (s : State) (p : Nat) : List Nat :=
  if s.flag R.PANE_MODE_IN_GANG p then gangPanes (s.get R.PANE_MODE_GANG_SIZE p) (s.get R.PANE_MODE_GANG_BASE p) else [p]

/-- The pane is one of a twin pair. -/
def State.isTwin (s : State) (p : Nat) : Bool := s.flag R.PANE_MODE_IN_GANG p && s.get R.PANE_MODE_GANG_SIZE p == 5

/-- The spare (0 for SASH_16, 1 for SASH_17) that drives a pane through the crossbar. -/
def State.paneSpare (s : State) (p : Nat) : Option Nat :=
  if s.flag R.SASH_XBAR_REPLACED p then some (s.get R.SASH_XBAR_SPARE p) else none

end Sys2Proof.Machine
end

