-- ==== Sys2Proof/Machine/Task.lean ====
section
/-!
DEFINITION. Gangs and their tasks (R96 to R98, R115, R174, R175, R266, R267): the end of a task, the cut-off, the loss of a pane, a
slat or a sash.
-/

namespace Sys2Proof.Machine

def State.pane (s : State) (p : Nat) : Pane := tblGet Pane.idle s.panes p
def State.setPane (s : State) (p : Nat) (x : Pane) : State := { s with panes := tblSet Pane.idle s.panes p x }
def State.ctl (s : State) (p : Nat) : PaneCtl := tblGet PaneCtl.idle s.pctl p
def State.setCtl (s : State) (p : Nat) (x : PaneCtl) : State := { s with pctl := tblSet PaneCtl.idle s.pctl p x }

/-- An engine's key: its page type and its number. -/
def engKey (ty n : Nat) : Nat := ty * 256 + n

def State.link (s : State) (k : Nat) : ArrayLink := tblGet ArrayLink.idle s.arrayLink k
def State.setLink (s : State) (k : Nat) (x : ArrayLink) : State := { s with arrayLink := tblSet ArrayLink.idle s.arrayLink k x }
def State.port (s : State) (slat : Nat) : RowPort := tblGet RowPort.idle s.rowPorts slat
def State.setPort (s : State) (slat : Nat) (x : RowPort) : State := { s with rowPorts := tblSet RowPort.idle s.rowPorts slat x }
def State.run (s : State) (base : Nat) : GangRun := tblGet ⟨[], [], false⟩ s.gangs base
def State.setRun (s : State) (base : Nat) (x : GangRun) : State := { s with gangs := tblSet ⟨[], [], false⟩ s.gangs base x }

/-- The base pane of the gang of a pane. -/
def State.gangBase (s : State) (p : Nat) : Nat := if s.flag R.PANE_MODE_IN_GANG p then s.get R.PANE_MODE_GANG_BASE p else p

/-- Pane controller states (Table 07-1). -/
abbrev pcStandby : Nat := 0
abbrev pcRun : Nat := 1
abbrev pcHalted : Nat := 2
abbrev pcPatch : Nat := 3

/-- A pane controller's state. -/
def State.pcState (s : State) (p : Nat) : Nat := s.get R.PCTL_STATE_STATE p

/-- The sash engine that drives a pane: its own, or the spare that the crossbar connects (R272). -/
def State.paneSash (s : State) (p : Nat) : Nat :=
  match s.paneSpare p with
  | some k => 16 + k
  | none => p

/-- The slats of a pane. -/
def paneSlats (p : Nat) : List Nat := (List.range 8).map (fun k => 8 * p + k)

/-- The engines of a pane: type and number. -/
def State.paneEngines (s : State) (p : Nat) : List (Nat × Nat) := (3, s.paneSash p) :: (paneSlats p).map (fun n => (4, n))

/-- Latched interrupt line k of an engine set (Table 11-3). -/
def setIrq (ty n k : Nat) (s : State) : State := s.put ⟨ty, 0x05C, 4, k, 1⟩ n 1

/-- Latched interrupt line k of an engine cleared. -/
def clearIrq (ty n k : Nat) (s : State) : State := s.put ⟨ty, 0x05C, 4, k, 1⟩ n 0

/-- The TSN of a gang (R266). -/
def State.gangTsn (s : State) (base : Nat) : Nat := (s.ctl base).tsn

/-- The task that a gang runs: 0 when none. -/
def State.taskNow (s : State) (base : Nat) : Nat := s.get R.PCTL_TASK_TASK_ID base

/-- The controllers of a gang drop what they hold of a task (R174): microprogram and queue. -/
def dropMacros (p : Nat) (s : State) : State :=
  let c := s.ctl p
  (s.setCtl p { c with queue := [], dispatch := true, upc := 0, remaining := 0, waitLeft := 0,
                       runs := if c.dispatch then c.runs else c.runs.map (fun r => if r.seq = c.seq then { r with cut := true } else r)
      }).count R.PCTL_DISCARDS p c.queue.length

/-- A running task ends as at a cut-off (R174, R175, R266): controllers stop it, slats abandon their streams, the sash gets
the TASK_END trap. With `overrun` it is the cut-off itself (R97). -/
def cutTask (p : Nat) (overrun : Bool) (s : State) : State :=
  let base := s.gangBase p
  let id := s.taskNow base
  if id = 0 then s
  else
    let gang := s.paneGang base
    let s1 := gang.foldl (fun s q =>
      let s2 := dropMacros q s
      let s3 := if overrun then ((s2.put R.PCTL_OVERRUN_LAST_TASK q id).count R.PCTL_OVERRUN_COUNT q 1).raise 0x02 q 0 else s2
      let s4 := (s.paneEngines q).foldl (fun s e => s.put (R.ENG_TASK_CUT.on e.1) e.2 1) s3
      (paneSlats q).foldl (fun s n => setIrq 4 n 1 (s.setPort n { s.port n with queue := [], run := [], ahead := [], held := none })) s4) s
    let s5 := gang.foldl (fun s q => (s.put R.PCTL_TASK_TASK_ID q 0).put R.PCTL_TASK_BUDGET_CYCLES q 0) s1
    let k := engKey 3 (s5.paneSash base)
    let s6 := s5.setLink k { s5.link k with taskEnd := some (s5.gangTsn base) }
    let r := s6.run base
    let s7 := s6.setRun base { r with lost := id :: r.lost }
    if overrun then s7.report 0x02 base 0 clsHold else s7

/-- A task of a gang is skipped (R98). -/
def skipTask (base id : Nat) (s : State) : State :=
  let s1 := (s.paneGang base).foldl (fun s q =>
    ((s.put R.PCTL_SKIPPED_LAST_TASK q id).count R.PCTL_SKIPPED_COUNT q 1).raise 0x02 q 1) s
  let r := s1.run base
  (s1.setRun base { r with lost := id :: r.lost }).report 0x02 base 1 clsHold

/-- The task of an entry of the variant in force. -/
def State.entryTask (s : State) (k : Nat) : Option TaskDef :=
  s.porter.current.bind (fun it => ((it.variant s.variantNow).entries[k]?).bind (fun e => it.defs[e.defIdx]?))

/-- A gang runs no further entry in this tick (R267, R499): the running task ends as at a cut-off in the next cycle, and what is
left is skipped. -/
def stopGang (p : Nat) (s : State) : State :=
  let base := s.gangBase p
  let s1 := cutTask p false s
  let r := s1.run base
  let s2 := r.left.foldl (fun s k => match s.entryTask k with
    | some d => skipTask base d.id s
    | none => s) s1
  s2.setRun base { s2.run base with left := [], stopped := true }

/-- A pane enters the lost set (R127, R495, R499). -/
def losePane (p : Nat) (s : State) : State :=
  let s1 := { (s.put R.PORT_LOST_PANE_PANES 0 (s.get R.PORT_LOST_PANE_PANES 0 ||| 2 ^ p)) with
    bistFresh := tblSet false s.bistFresh p false }
  if s.flag R.PANE_MODE_IN_GANG p then stopGang p s1 else s1

/-- A slat's bit of the lost set. -/
def slatLostField (slat : Nat) : Field := ⟨0x0B, R.PORT_LOST_SLAT_SLATS.off + 4 * (slat / 32), 4, slat % 32, 1⟩

/-- A pane has a lost slat (R496). -/
def State.slatLost (s : State) (p : Nat) : Bool := (paneSlats p).any (fun n => s.flag (slatLostField n) 0)

/-- A slat stopped as a fault (R275): it enters the lost set if its partner can take its rows, else its pane does. -/
def loseSlat (slat : Nat) (s : State) : State :=
  let partner := slat / 8 * 8 + (slat % 8 ^^^ 1)
  if s.get (R.ENG_STATE_STATE.on 4) partner = 1 ∧ !s.flag R.SLAT_ROW_CFG_PARTNER partner then
    let s1 := s.put (slatLostField slat) 0 1
    if s.flag R.PANE_MODE_IN_GANG (slat / 8) then stopGang (slat / 8) s1 else s1
  else losePane (slat / 8) s

end Sys2Proof.Machine
end

