-- ==== Sys2Proof/Machine/Gatehouse.lean ====
section
/-!
DEFINITION. The Gatehouse (R386 to R405, R416 to R421): ports, CAM, frame protection, classes and capacity, the post-cutoff hold,
the queues of the gate engines, transmission, the queue of table writes, its page.
-/

namespace Sys2Proof.Machine

def State.setGate (s : State) (x : Gatehouse) : State := { s with gate := x }

/-! ### Counters (R404, R405, GATE_CNT_SEL) -/

/-- A counter of a port raised, modulo 2^32, unless the counters are frozen. -/
def countPort (p code n : Nat) (s : State) : State :=
  if s.flag R.GATE_CNT_STAT_INVALID 0 then s
  else s.setGate { s.gate with counts := tblSet 0 s.gate.counts (32 * p + code) ((tblGet 0 s.gate.counts (32 * p + code) + n) % 2 ^ 32) }

/-- A counter's value; PENDING counts the frames not yet classified, and stays as it was when the counters froze. -/
def State.portCount (s : State) (p code : Nat) : Nat :=
  if code = 2 ∧ !s.flag R.GATE_CNT_STAT_INVALID 0 then (s.gate.arrived.filter (fun f => f.port == p)).length else tblGet 0 s.gate.counts (32 * p + code)

/-- A capture of every counter of every port (R404). -/
def gateSnap (s : State) : State :=
  let now := ((List.range 192).map (fun k => (k, s.portCount (k / 32) (k % 32)))).filter (fun p => p.2 != 0)
  s.setGate { s.gate with captured := now }

/-! ### Ports (R386 to R392, R421) -/

/-- The Gatehouse's clocks run and its page is enabled. -/
def State.gateRuns (s : State) : Bool := s.domainOn 2 && s.flag (R.HDR_CTL_ENABLE.on 0x11) 0

/-- A CAN controller is enabled. -/
def State.canOn (s : State) (k : Nat) : Bool := s.gateRuns && s.flag (R.GATE_CAN_CFG_EN.nth k) 0

/-- A CAN controller takes part in frames: integrated and not bus-off. -/
def State.canActive (s : State) (k : Nat) : Bool :=
  s.canOn k && s.flag (R.GATE_CAN_STAT_SYNC.nth k) 0 && s.get (R.GATE_CAN_STAT_STATE.nth k) 0 != 2

/-- A T1S port is enabled and powered. -/
def State.t1sOn (s : State) (j : Nat) : Bool := s.gateRuns && s.domainOn 3 && s.flag (R.GATE_T1S_CFG_EN.nth j) 0

/-- MODE and BEACON of a T1S port that starts or stops. -/
def t1sMode (j : Nat) (s : State) : State :=
  let mode := if !s.t1sOn j then 0 else if s.flag (R.GATE_T1S_CFG_PLCA_EN.nth j) 0 then 1 else 2
  (s.put (R.GATE_T1S_STAT_MODE.nth j) 0 mode).put (R.GATE_T1S_STAT_BEACON.nth j) 0
    (bit (mode == 1 && s.get (R.GATE_T1S_CFG_NODE_ID.nth j) 0 == 0))

/-- The ports after a change of what keeps them on: a controller that is off is not integrated, a T1S port shows its mode. -/
def settlePorts (s : State) : State :=
  let s1 := (List.range 4).foldl (fun s k => if s.canOn k then s else s.put (R.GATE_CAN_STAT_SYNC.nth k) 0 0) s
  (List.range 2).foldl (fun s j => if s.t1sOn j && s.get (R.GATE_T1S_STAT_MODE.nth j) 0 != 0 then s else t1sMode j s) s1

/-- An error counter pair of a controller, and the state it shows (ISO 11898-1 as R390 names it; log entry 11). -/
def setErrCounters (k tec rxe : Nat) (s : State) : State :=
  let s1 := s.setGate { s.gate with tec := tblSet 0 s.gate.tec k tec, rxe := tblSet 0 s.gate.rxe k rxe }
  let s2 := (s1.put (R.GATE_CAN_STAT_TEC.nth k) 0 (min tec 255)).put (R.GATE_CAN_STAT_REC.nth k) 0 (min rxe 127)
  if s2.get (R.GATE_CAN_STAT_STATE.nth k) 0 = 2 then s2
  else s2.put (R.GATE_CAN_STAT_STATE.nth k) 0 (bit (decide (128 ≤ tec ∨ 128 ≤ rxe)))

/-- A frame of an enabled port has been received: RECEIVED. -/
def receiveFrame (f : ArrivedFrame) (s : State) : State :=
  let s1 := countPort f.port 0 1 s
  let before := fun (g : ArrivedFrame) => decide (g.stamp < f.stamp) || (g.stamp == f.stamp && decide (g.port ≤ f.port))
  s1.setGate { s1.gate with arrived := s1.gate.arrived.takeWhile before ++ [f] ++ s1.gate.arrived.dropWhile before }

/-- A frame that its port rejects (stages 1 and 2 of Table 16-1). -/
def rejectFrame (p code : Nat) (s : State) : State := countPort p code 1 (countPort p 0 1 s)

/-- The device's MAC address, byte 0 first (GATE_MAC). -/
def State.macBytes (s : State) : List Byte :=
  leBytes 6 (s.get R.GATE_MAC_HI_MAC 0 + 2 ^ 16 * s.get R.GATE_MAC_LO_MAC 0)

/-- A destination address that the device receives: its own, broadcast, or any group address. -/
def addressed (s : State) (dst : List Byte) : Bool :=
  bitOf (dst.getD 0 0).toNat 0 || dst == s.macBytes

/-- A T1S frame received (R388, R393). -/
def t1sReceive (j node stamp : Nat) (fcsOk symbolsOk jabber : Bool) (frame : List Byte) (s : State) : State :=
  let p := 4 + j
  if !s.t1sOn j then s
  else if jabber then rejectFrame p 0x06 s
  else if !fcsOk then rejectFrame p 0x03 s
  else if !symbolsOk then rejectFrame p 0x04 s
  else if frame.length < 64 ∨ 1522 < frame.length then rejectFrame p 0x05 s
  else if !addressed s (frame.take 6) then rejectFrame p 0x07 s
  else
    let etype := beNum ((frame.drop 12).take 2)
    let payload := (frame.drop 14).take (frame.length - 18)
    let pdu := etype == s.get R.GATE_T1S_ETYPE_ETYPE 0
    let id := if pdu then beNum (payload.take 4) else etype
    let nodeId := if s.get (R.GATE_T1S_STAT_MODE.nth j) 0 = 1 then node else 255
    receiveFrame ⟨p, 3, !pdu, id, nodeId, stamp, if pdu then payload.drop 4 else payload⟩ s

/-- The data lengths of a format (Table 16-3). -/
def canLengthOk (fmt : Nat) (fd : Bool) (n : Nat) : Bool :=
  if fmt = 2 then decide (1 ≤ n ∧ n ≤ 2048) else decide (n ≤ 8) || (fd && [12, 16, 20, 24, 32, 48, 64].contains n)

/-- A CAN frame received (R391): a frame of a format that is not enabled is left alone, and the controller waits for bus
integration. -/
def canReceive (k fmt id sdt stamp : Nat) (fd remote : Bool) (data : List Byte) (s : State) : State :=
  if !s.canActive k ∨ !canLengthOk fmt fd data.length then s
  else if (fmt = 2 ∧ !s.flag (R.GATE_CAN_CFG_XL_EN.nth k) 0) ∨ (fmt ≠ 2 ∧ fd ∧ !s.flag (R.GATE_CAN_CFG_FD_EN.nth k) 0) then
    s.put (R.GATE_CAN_STAT_SYNC.nth k) 0 0
  else
    let rec_ := tblGet 0 s.gate.rxe k
    let s1 := setErrCounters k (tblGet 0 s.gate.tec k) (if 127 < rec_ then 127 else rec_ - 1) s
    if remote ∧ fmt ≠ 2 then rejectFrame k 0x08 s1
    else receiveFrame ⟨k, fmt, false, id, if fmt = 2 then sdt else 255, stamp, data⟩ s1

/-- A CAN frame that meets an error (R391, R390). -/
def canError (k : Nat) (sending dominant : Bool) (s : State) : State :=
  if !s.canActive k then s
  else
    let tec := tblGet 0 s.gate.tec k
    let rec_ := tblGet 0 s.gate.rxe k
    setErrCounters k (if sending then tec + 8 else tec) (if sending then rec_ else rec_ + (if dominant then 8 else 1))
      (countPort k 0x1B 1 s)

/-- Bus-off (R392). -/
def canBusOff (k : Nat) (s : State) : State :=
  if s.canOn k ∧ 255 < tblGet 0 s.gate.tec k ∧ s.get (R.GATE_CAN_STAT_STATE.nth k) 0 ≠ 2 then
    countPort k 0x1C 1 (((s.put (R.GATE_CAN_STAT_STATE.nth k) 0 2).setGate
      { s.gate with mayRecover := tblSet false s.gate.mayRecover k false }).raise 0x11 0 0)
  else s

/-- Recovery from bus-off (R392). -/
def canRecovered (k : Nat) (s : State) : State :=
  if s.canOn k ∧ s.get (R.GATE_CAN_STAT_STATE.nth k) 0 = 2 ∧ (s.flag (R.GATE_CAN_CFG_AUTO_RECOVER.nth k) 0 ∨ tblGet false s.gate.mayRecover k) then
    (setErrCounters k 0 0 ((s.put (R.GATE_CAN_STAT_STATE.nth k) 0 0).setGate
      { s.gate with mayRecover := tblSet false s.gate.mayRecover k false })).raise 0x11 0 1
  else s

/-- A write of GATE_CAN_RECOVER (R392). -/
def canRecoverWrite (mask : Nat) (s : State) : State :=
  (List.range 4).foldl (fun s k => if bitOf mask k ∧ s.get (R.GATE_CAN_STAT_STATE.nth k) 0 = 2 then
    s.setGate { s.gate with mayRecover := tblSet false s.gate.mayRecover k true } else s) s

/-! ### Transmission (R389, R392, R416, R420) -/

/-- The frame that a port sends next: a status frame goes ahead of engine frames. -/
def State.nextTx (s : State) (p : Nat) : Option TxFrame :=
  match tblGet none s.gate.status p with
  | some f => some f
  | none => (tblGet [] s.gate.txq p).head?

/-- The frame that a port sends next replaced, or removed. -/
def setNextTx (p : Nat) (f : Option TxFrame) (s : State) : State :=
  match tblGet none s.gate.status p with
  | some _ => s.setGate { s.gate with status := tblSet none s.gate.status p f }
  | none =>
    let rest := (tblGet [] s.gate.txq p).tail
    s.setGate { s.gate with txq := tblSet [] s.gate.txq p (match f with
      | some x => x :: rest
      | none => rest) }

/-- A frame has been sent: TX_OK; an engine's frame leaves its stamp and port with its sender; a status frame counts in SEQ. -/
def sentFrame (p stamp : Nat) (s : State) : State :=
  match s.nextTx p with
  | none => s
  | some f =>
    let s1 := countPort p 0x18 1 (setNextTx p none s)
    let g := { s1.gate with wire := tblSet none s1.gate.wire p (some f) }
    match f.sender with
    | some e => s1.setGate { g with txLast := tblSet none g.txLast e (some (stamp, p)) }
    | none => s1.setGate { g with
        statSeq := tblSet 0 g.statSeq p ((tblGet 0 g.statSeq p + 1) % 2 ^ 16)
        statBase := tblSet [] g.statBase p (tblGet [] g.statNext p) }

/-- A frame that a CAN controller has sent (R392); the transmit error counter falls by one. -/
def canSent (k stamp : Nat) (s : State) : State :=
  if s.canActive k ∧ !s.flag (R.GATE_CAN_CFG_LISTEN.nth k) 0 ∧ (s.nextTx k).isSome then
    setErrCounters k (tblGet 0 s.gate.tec k - 1) (tblGet 0 s.gate.rxe k) (sentFrame k stamp s)
  else s

/-- A lost arbitration (R392). -/
def canArbLost (k : Nat) (s : State) : State :=
  if s.canActive k ∧ !s.flag (R.GATE_CAN_CFG_LISTEN.nth k) 0 ∧ (s.nextTx k).isSome then countPort k 0x19 1 s else s

/-- A T1S port may send: in PLCA or in CSMA/CD mode. -/
def State.t1sSends (s : State) (j : Nat) : Bool :=
  s.t1sOn j && (s.get (R.GATE_T1S_STAT_MODE.nth j) 0 == 1 || s.get (R.GATE_T1S_STAT_MODE.nth j) 0 == 2)

/-- A frame that a T1S port has sent (R389). -/
def t1sSent (j stamp : Nat) (s : State) : State := if s.t1sSends j then sentFrame (4 + j) stamp s else s

/-- A collision (R389): the frame is sent again, or discarded after its 16th. -/
def t1sCollision (j : Nat) (s : State) : State :=
  match if s.t1sSends j then s.nextTx (4 + j) else none with
  | none => s
  | some f =>
    let s1 := countPort (4 + j) 0x1D 1 s
    if 15 ≤ f.collisions then countPort (4 + j) 0x1A 1 (setNextTx (4 + j) none s1)
    else setNextTx (4 + j) (some { f with collisions := f.collisions + 1 }) s1

/-- A follower loses the beacons (R389). -/
def plcaLost (j : Nat) (s : State) : State :=
  if s.t1sOn j ∧ s.get (R.GATE_T1S_STAT_MODE.nth j) 0 = 1 ∧ s.get (R.GATE_T1S_CFG_NODE_ID.nth j) 0 ≠ 0 then
    ((s.put (R.GATE_T1S_STAT_MODE.nth j) 0 (if s.flag (R.GATE_T1S_CFG_FALLBACK.nth j) 0 then 2 else 3)).put (R.GATE_T1S_STAT_BEACON.nth j) 0 0).raise 0x11 0 2
  else s

/-- A follower sees beacons again. -/
def plcaRegained (j : Nat) (s : State) : State :=
  if s.t1sOn j ∧ s.flag (R.GATE_T1S_CFG_PLCA_EN.nth j) 0 then (s.put (R.GATE_T1S_STAT_MODE.nth j) 0 1).put (R.GATE_T1S_STAT_BEACON.nth j) 0 1 else s

/-! ### CAM and profiles (R393 to R399) -/

/-- Key of a CAM entry: identifier, port, format, RAW. -/
def camKey (c : Nat) : Nat × Nat × Nat × Bool := (c % 2 ^ 32, bitsAt c 60 3, bitsAt c 58 2, bitOf c 45)
def camValid (c : Nat) : Bool := bitOf c 63
def camClass (c : Nat) : Nat := bitsAt c 56 2
def camRoute (c : Nat) : Nat := bitsAt c 54 2
def camNode (c : Nat) : Nat := bitsAt c 46 8
def camStream (c : Nat) : Nat := bitsAt c 32 10
def camFirst (c : Nat) : Nat := bitsAt c 82 14
def camCount (c : Nat) : Nat := bitsAt c 75 7
def camProt (c : Nat) : Nat := bitsAt c 64 6
def camGap (c : Nat) : Nat := bitsAt c 112 16

/-- The width of an identifier (R393). -/
def idBits (fmt : Nat) (raw : Bool) : Nat :=
  match fmt with
  | 0 => 11
  | 1 => 29
  | 2 => 19
  | _ => if raw then 16 else 32

/-- The CAM lookup of a frame (R394): the entry hit. -/
def camHit (cam : Tbl Nat) (f : ArrivedFrame) : Option (Nat × Nat) :=
  cam.find? (fun p => camValid p.2 && camKey p.2 == (f.id, f.port, f.fmt, f.raw))

/-- The node check (R394): CAN frames match only entries with NODE 255. -/
def nodeOk (c : Nat) (f : ArrivedFrame) : Bool := camNode c == 255 || (f.fmt == 3 && camNode c == f.node)

/-- The format rules of a CAM entry (R395). -/
def camFormatBad (c : Nat) : Bool :=
  camClass c == 3 || decide (5 < bitsAt c 60 3) || bitsAt c 42 3 != 0 || bitsAt c 70 5 != 0 || bitsAt c 96 16 != 0 ||
  decide (2 ^ idBits (bitsAt c 58 2) (bitOf c 45) ≤ c % 2 ^ 32) || (camRoute c == 3 && camClass c != 0) ||
  decide (64 < camCount c) || (camRoute c != 0 && camCount c != 0) || decide (16384 < camFirst c + camCount c)

/-- The width in bits of a profile's CRC and of its counter (Table 16-5). -/
def profCrcBits (p : Nat) : Nat := match bitsAt p 30 2 with | 0 => 0 | 1 => 8 | 2 => 16 | _ => 32
def profCntBits (p : Nat) : Nat := match bitsAt p 28 2 with | 0 => 0 | 1 => 4 | 2 => 8 | _ => 16
def profPoly (p : Nat) : Nat := match bitsAt p 30 2 with | 1 => 0x1D | 2 => 0x1021 | _ => 0x04C11DB7
def profDelta (p : Nat) : Nat := bitsAt p 24 4
def profLen (p : Nat) : Nat := bitsAt p 12 12
def profOfs (p : Nat) : Nat := p % 2 ^ 12
def profDataId (p : Nat) : Nat := bitsAt p 48 16
def profCntPos (p : Nat) : Nat := bitsAt p 32 14

/-- Whether the fields that a profile names lie in n bytes of data. -/
def profFits (p n : Nat) : Bool :=
  (profCrcBits p == 0 || decide (profOfs p + profCrcBits p / 8 ≤ n)) &&
  (profCntBits p == 0 || decide (profCntPos p + profCntBits p ≤ 8 * n))

/-- The format rules of a profile (R397). -/
def profFormatBad (idx p : Nat) : Bool :=
  idx == 0 || bitsAt p 46 2 != 0 || profDelta p == 0 || decide (2048 < profLen p) ||
  (profLen p != 0 && !profFits p (profLen p))

/-- The CRC of R398: low and high byte of DATA_ID, then every byte but those of the CRC field. -/
def protCrc (width poly dataId ofs : Nat) (data : List Byte) : Nat :=
  crcBytes width poly (2 ^ width - 1) (leBytes 2 dataId ++ data.take ofs ++ data.drop (ofs + width / 8))

/-- The counter of a frame. -/
def protCounter (p : Nat) (data : List Byte) : Nat :=
  (List.range (profCntBits p)).foldl (fun n i => n + 2 ^ i * bit (payloadBit data (profCntPos p + i))) 0

/-- The counter check (R399): the outcome code (0: accepted), LOST, and the stream's last value. -/
def counterCheck (last : Option Nat) (m maxDelta c : Nat) : Nat × Nat × Nat :=
  match last with
  | none => (0, 0, c)
  | some l =>
    let delta := (c + m - l % m) % m
    if delta = 0 then (0x0D, 0, l) else if delta ≤ maxDelta then (0, delta - 1, c) else (0x0B, 0, c)

/-- Frame protection (R397 to R399): the outcome code, 0 when accepted. -/
def protect (c : Nat) (f : ArrivedFrame) (s : State) : State × Nat :=
  if camProt c = 0 then (s, 0)
  else
    let p := tblGet 0 s.gate.prof (camProt c)
    if (profLen p ≠ 0 ∧ f.data.length ≠ profLen p) ∨ !profFits p f.data.length then (s, 0x0C)
    else if profCrcBits p ≠ 0 ∧ protCrc (profCrcBits p) (profPoly p) (profDataId p) (profOfs p) f.data ≠
        beNum ((f.data.drop (profOfs p)).take (profCrcBits p / 8)) then (s, 0x0A)
    else if profCntBits p = 0 then (s, 0)
    else
      let r := counterCheck (tblGet none s.gate.streams (camStream c)) (2 ^ profCntBits p) (profDelta p) (protCounter p f.data)
      let s1 := s.setGate { s.gate with streams := tblSet none s.gate.streams (camStream c) (some r.2.2) }
      (countPort f.port 0x1E r.2.1 s1, r.1)

/-! ### Classes and capacity (R401 to R403) -/

/-- The class as which a frame is served (R401): class A within MIN_GAP of the entry's last class A frame is class B. -/
def servedClass (idx c stamp : Nat) (s : State) : Nat :=
  match camClass c, tblGet none s.gate.lastA idx with
  | 1, some t => if camGap c ≠ 0 ∧ stamp < t + camGap c * 250 then 2 else 1
  | k, _ => k

/-- Whether a frame of a class takes a place of a store whose frames have the classes given (R402, R403). -/
def hasPlace (top limit limitB : Nat) (cls : Nat) (inUse : List Nat) : Bool :=
  decide (inUse.length < top) && (cls == 0 || (decide (inUse.length < limit) &&
    (cls != 2 || decide ((inUse.filter (fun k => k == 2)).length < limitB))))

/-- An input stamped in the cutoff cycle or later while the cutoff has passed and the commit has not (R60). -/
def State.holds (s : State) (stamp : Nat) : Bool :=
  s.flag R.TICK_RUN_RUN 0 && s.flag R.TICK_PHASE_PAST_CUTOFF 0 && decide (s.cutoffCycle ≤ stamp)

/-- The oldest held input extracted (R60). -/
def extractHeld (s : State) : State :=
  match s.gate.held with
  | [] => s
  | h :: t =>
    let s1 := s.setGate { s.gate with held := t }
    match h.inject with
    | some (e, v) => injectUpdate e v h.stamp s1
    | none => extract h.first h.count h.data h.stamp s1

/-- Every held input extracted, in stamp order. -/
def extractAll : Nat → State → State
  | 0, s => s
  | n + 1, s => extractAll n (extractHeld s)

/-- An input enters the hold, in stamp order; PEAK and TICK_DEFER follow. -/
def holdInput (h : HeldInput) (s : State) : State :=
  let before := fun (x : HeldInput) => decide (x.stamp ≤ h.stamp)
  let s1 := s.setGate { s.gate with held := s.gate.held.takeWhile before ++ [h] ++ s.gate.held.dropWhile before }
  let occ := (s1.gate.held.filter (fun x => x.inject.isNone)).length
  let s2 := s1.put R.GATE_HOLD_PEAK 0 (max (s1.get R.GATE_HOLD_PEAK 0) occ)
  if h.inject.isNone then { s2 with tick := { s2.tick with deferFrames := s2.tick.deferFrames + 1 } } else s2

/-- The classes of the frames in the hold. -/
def heldClasses (s : State) : List Nat := (s.gate.held.filter (fun x => x.inject.isNone)).map (fun x => x.cls)

/-- Where an input that is not held belongs behind the held ones: what is still held goes first (R60). -/
def flushHold (s : State) : State := extractAll s.gate.held.length s

/-- A frame enters an engine's queue: by class, then by stamp (R403). -/
def queueFrame (e : Nat) (x : QueuedFrame) (s : State) : State :=
  let q := tblGet [] s.gate.rxq e
  let before := fun (y : QueuedFrame) => decide (y.cls ≤ x.cls)
  s.setGate { s.gate with rxq := tblSet [] s.gate.rxq e (q.takeWhile before ++ [x] ++ q.dropWhile before) }

/-- The engine that a route names (Table 16-4, R418). -/
def State.routeEngine (s : State) (route : Nat) : Nat := if route = 3 then s.get R.GATE_CMD_CFG_ENG 0 else route - 1

/-- Delivery of a frame that has passed protection: the outcome code of Table 16-6. -/
def deliverFrame (idx c : Nat) (f : ArrivedFrame) (s : State) : State × Nat :=
  let cls := servedClass idx c f.stamp s
  let s1 := if cls = 1 then s.setGate { s.gate with lastA := tblSet none s.gate.lastA idx (some f.stamp) } else s
  if camRoute c = 0 then
    if s1.holds f.stamp then
      if hasPlace 512 448 128 cls (heldClasses s1) then (holdInput ⟨f.stamp, cls, camFirst c, camCount c, f.data, none⟩ s1, 1)
      else (s1, 0x0E)
    else (extract (camFirst c) (camCount c) f.data f.stamp (if s1.flag R.TICK_PHASE_PAST_CUTOFF 0 then s1 else flushHold s1), 1)
  else
    let e := s1.routeEngine (camRoute c)
    if s1.get (R.ENG_STATE_STATE.on 5) e ≠ 1 then (s1, 0x10)
    else if hasPlace 64 56 32 cls ((tblGet [] s1.gate.rxq e).map (fun x => x.cls)) then (queueFrame e ⟨f, cls, idx⟩ s1, 1)
    else (s1, 0x0F)

/-- Stages 2 to 6 of Table 16-1: the outcome code of a frame. -/
def classifyFrame (f : ArrivedFrame) (s : State) : State × Nat :=
  match camHit s.gate.cam f with
  | none => (s, 0x09)
  | some (idx, c) =>
    if !nodeOk c f then (s, 0x09)
    else
      let r := protect c f s
      if r.2 ≠ 0 then r else deliverFrame idx c f r.1

/-- The event of an outcome (GATE_EVT). -/
def outcomeEvent (code : Nat) (s : State) : State :=
  if code = 9 then s.raise 0x11 0 3
  else if 0x0A ≤ code ∧ code ≤ 0x0D then s.raise 0x11 0 4
  else if 0x0E ≤ code then s.raise 0x11 0 5 else s

/-- The counters freeze, PENDING with them (R405). -/
def freezeCounters (s0 : State) : State :=
  let s := (List.range 6).foldl (fun s p => s.setGate { s.gate with counts := tblSet 0 s.gate.counts (32 * p + 2) (s0.portCount p 2) }) s0
  ((s.put R.GATE_CNT_STAT_INVALID 0 1).raise 0x11 0 8).report 0x11 0 8 clsDevice

/-- The oldest received frame classified (R400). A frame whose buffer has an uncorrectable error is lost. -/
def classifyNext (ue : Bool) (s : State) : State :=
  match s.gate.arrived with
  | [] => s
  | f :: t =>
    let drop := fun (s : State) => s.setGate { s.gate with arrived := t }
    let s1 := drop s
    if ue then drop (freezeCounters s)
    else
      let r := classifyFrame f s1
      outcomeEvent r.2 (countPort f.port r.2 1 r.1)

/-! ### The queue of table writes (R396) -/

/-- One write of a table applied, at a cycle. -/
def applyTab (cycle : Nat) (s : State) (w : TabWrite) : State :=
  match w.kind with
  | 0 => s.setGate { s.gate with
      cam := tblSet 0 s.gate.cam w.idx w.value
      streams := tblSet none s.gate.streams (camStream w.value) none
      lastA := tblSet none s.gate.lastA w.idx none }
  | 1 => s.setGate { s.gate with prof := tblSet 0 s.gate.prof w.idx w.value }
  | 2 => applyCfg w.idx w.value cycle s
  | _ => applyDescWrite w.idx w.value s

/-- The queued writes of a commit applied, in order (R396). -/
def tabCommit (cut cycle : Nat) (s : State) : State :=
  let now := s.gate.tbQueue.filter (fun w => decide (w.stamp < cut))
  let later := s.gate.tbQueue.filter (fun w => !decide (w.stamp < cut))
  now.foldl (applyTab cycle) (s.setGate { s.gate with tbQueue := later })

/-- The page and offset of the last word of each kind of table. -/
def tabPlace (kind : Nat) : Nat × Nat :=
  match kind with
  | 0 => (0x11, 0x0D0)
  | 1 => (0x11, 0x0DC)
  | 2 => (0x12, 0x050)
  | _ => (0x12, 0x064)

/-- The index register of each kind of table. -/
def State.tabIndex (s : State) (kind : Nat) : Nat :=
  match kind with
  | 0 => s.get R.GATE_CAM_IDX_INDEX 0
  | 1 => s.get R.GATE_PROT_IDX_INDEX 0
  | 2 => s.get R.SIGT_CFG_IDX_ENTRY 0
  | _ => s.get R.SIGT_DESC_IDX_DESC 0

/-- A word staged (R396). -/
def stageWord (kind k : Nat) (v : Word) (s : State) : State :=
  s.setGate { s.gate with staging := tblSet 0 s.gate.staging (4 * kind + k) v.toNat }

/-- The entry made of the staged words and the last one. -/
def stagedEntry (s : State) (kind : Nat) (v : Word) : Nat :=
  let w := fun k => tblGet 0 s.gate.staging (4 * kind + k)
  if kind = 1 then w 0 + 2 ^ 32 * v.toNat else w 0 + 2 ^ 32 * w 1 + 2 ^ 64 * w 2 + 2 ^ 96 * v.toNat

/-- The CAM as it will be with the queued writes applied. -/
def State.camAhead (s : State) : Tbl Nat :=
  s.gate.tbQueue.foldl (fun t w => if w.kind = 0 then tblSet 0 t w.idx w.value else t) s.gate.cam

/-- The error code with which a table refuses an entry (R395, R397, R406, SIGT_CFG_W). -/
def tabRefusal (s : State) (kind idx v : Nat) : Option Nat :=
  match kind with
  | 0 => if camValid v && s.camAhead.any (fun p => p.1 != idx && camValid p.2 && camKey p.2 == camKey v) then some 0x0101
         else if camFormatBad v then some 0x0102 else none
  | 1 => if profFormatBad idx v then some 0x0103 else none
  | 2 => if bitsAt v 16 14 ≠ 0 ∨ bitsAt v 32 32 ≠ 0 then some 0x0102 else none
  | _ => if bitsAt v 96 32 ≠ 0 ∨ bitsAt v 62 2 ≠ 0 ∨ bitOf v 39 then some 0x0101 else none

/-- The write of a last word (R396). -/
def tabWrite (kind : Nat) (value : Word) (stamp : Nat) (s : State) : Written :=
  let place := tabPlace kind
  let idx := s.tabIndex kind
  let v := stagedEntry s kind value
  match tabRefusal s kind idx v with
  | some code => (s.err place.1 0 place.2 code, rspRefused)
  | none =>
    if s.flag (R.HDR_CTL_ENABLE.on 0x11) 0 then
      if 64 ≤ s.gate.tbQueue.length then (s.err place.1 0 place.2 0x0105, rspRefused)
      else
        let s1 := s.setGate { s.gate with tbQueue := s.gate.tbQueue ++ [⟨kind, idx, v, stamp⟩] }
        (if s.flag R.TICK_PHASE_PAST_CUTOFF 0 && decide (s.cutoffStamp ≤ stamp) then
          { s1 with tick := { s1.tick with deferTb := s1.tick.deferTb + 1 } } else s1, rspOk)
    else (applyTab (stamp / 10) s ⟨kind, idx, v, stamp⟩, rspOk)

/-- Word k of the entry in force at an index register (R396). -/
def tabRead (s : State) (kind k : Nat) : Word :=
  let idx := s.tabIndex kind
  word (bitsAt (match kind with
    | 0 => tblGet 0 s.gate.cam idx
    | 1 => tblGet 0 s.gate.prof idx
    | 2 => tblGet 0 s.sigt.cfg idx
    | _ => tblGet 0 s.sigt.desc idx) (32 * k) 32)

/-! ### Gate engines (R416, R417, R419) -/

/-- The gate engine whose queue and staging area an initiator addresses as its own. -/
def gateOf (i : Initiator) : Option Nat := if i.src = 33 then some 0 else if i.src = 34 then some 1 else none

/-- The engine whose queue an initiator sees: GENG_0's as a peek for every other. -/
def gateSeen (i : Initiator) : Nat := (gateOf i).getD 0

/-- The head of the queue that an initiator sees. -/
def State.rxHead (s : State) (i : Initiator) : Option QueuedFrame := (tblGet [] s.gate.rxq (gateSeen i)).head?

/-- A write of GATE_RXQ_POP (R416). -/
def rxqPop (i : Initiator) (s : State) : Written :=
  match gateOf i with
  | none => (s.err 0x11 0 0x180 0x0009, rspRefused)
  | some e => (s.setGate { s.gate with rxq := tblSet [] s.gate.rxq e (tblGet [] s.gate.rxq e).tail }, rspOk)

/-- The frame that a staging area holds (Table 16-10). -/
def stagedFrame (s : State) (e : Nat) : Nat × TxFrame :=
  let b := fun a n => memRead 0 s.gate.stage (1024 * e + a) n
  let len := leNum (b 4 2)
  let ctl := leNum (b 6 1)
  (ctl % 8, ⟨leNum (b 0 4), bitsAt ctl 3 2, bitOf ctl 5, leNum (b 7 1), b 8 (min len 1016), some e, 0⟩)

/-- A staging area emptied. -/
def clearStage (e : Nat) (s : State) : State :=
  s.setGate { s.gate with stage := tblDrop s.gate.stage (1024 * e) (1024 * e + 1024), staged := tblSet false s.gate.staged e false }

/-- A write of GATE_TX_POST (R416): the staged frame enters its port's queue of 16, or the write is refused. -/
def txPost (i : Initiator) (s : State) : Written :=
  match gateOf i with
  | none => (s.err 0x11 0 0x184 0x0009, rspRefused)
  | some e =>
    let (p, f) := stagedFrame s e
    let q := tblGet [] s.gate.txq p
    if 5 < p ∨ 16 ≤ q.length then (s.err 0x11 0 0x184 0x0106, rspRefused)
    else (s.setGate { s.gate with txq := tblSet [] s.gate.txq p (q ++ [f]), staged := tblSet false s.gate.staged e false }, rspOk)

/-- A write into the staging area of the engine that makes it. -/
def stageWrite (i : Initiator) (ofs enables : Nat) (v : Word) (s : State) : Written :=
  match gateOf i with
  | none => (s.err 0x11 0 (0x400 + ofs) 0x0009, rspRefused)
  | some e => (s.setGate { s.gate with
      stage := memWriteMask 0 s.gate.stage (1024 * e + ofs) enables (leBytes 4 v.toNat)
      staged := tblSet false s.gate.staged e true }, rspOk)

/-- The Gatehouse lines of a gate engine (Table 16-11), as bits 13 to 8. -/
def State.gateLines (s : State) (e : Nat) : Nat :=
  maskOf 14 (fun k => match k with
    | 8 => tblGet [] s.gate.rxq e != []
    | 9 => !tblGet false s.gate.staged e
    | 10 => s.eventOut 0x11 0
    | 11 => s.eventOut 0x12 0
    | 12 => (List.range 4).any (fun k => s.get (R.GATE_CAN_STAT_STATE.nth k) 0 == 2)
    | 13 => (List.range 2).any (fun j => s.flag (R.GATE_T1S_CFG_PLCA_EN.nth j) 0 && decide (2 ≤ s.get (R.GATE_T1S_STAT_MODE.nth j) 0))
    | _ => false)

/-- A gate engine has stopped as a fault (R419). -/
def gateEngineDown (e : Nat) (s : State) : State :=
  let s1 := (tblGet [] s.gate.rxq e).foldl (fun s x => countPort x.frame.port 0x11 1 s) s
  let s2 := (clearStage e (s1.setGate { s1.gate with rxq := tblSet [] s1.gate.rxq e [] })).raise 0x11 0 6
  if s2.get R.GATE_CMD_CFG_ENG 0 = e ∧ s2.flag R.GATE_CMD_CFG_FAILOVER 0 then
    (s2.put R.GATE_CMD_CFG_ENG 0 (1 - e)).raise 0x11 0 9
  else s2

/-! ### The pages -/

/-- The divisor of 80 MHz that a bit-timing word gives. -/
def canDivisor (v : Nat) : Nat := (bitsAt v 24 8 + 1) * (3 + bitsAt v 16 8 + bitsAt v 8 8)

/-- A bit-timing word whose rate lies outside the limits of Table 16-3 that it can break by itself. -/
def canRateBad (s : State) (off v : Nat) : Bool :=
  let k := off % 16 / 4
  let d := canDivisor v
  if off < 0x060 then decide (d < 80 ∨ 640 < d) else if off < 0x070 then decide (d < 10)
  else decide (d < if s.flag (R.GATE_CAN_CFG_PWM.nth k) 0 then 4 else 8)

/-- The value rules of the GATE page. -/
def gateBad (off v : Nat) (s : State) : Option Nat :=
  let k := off % 16 / 4
  if 0x040 ≤ off ∧ off < 0x050 then
    let was := s.flag (R.GATE_CAN_CFG_EN.nth k) 0
    let old := (s.getReg 0x11 0 off).toNat
    if was ∧ (old ^^^ v) &&& 0x7C00FF00 ≠ 0 then some 0x0104
    else if bitOf v 31 ∧ !was ∧ (canDivisor (s.getReg 0x11 0 (0x050 + 4 * k)).toNat < canDivisor (s.getReg 0x11 0 (0x060 + 4 * k)).toNat ∨
        canDivisor (s.getReg 0x11 0 (0x050 + 4 * k)).toNat < canDivisor (s.getReg 0x11 0 (0x070 + 4 * k)).toNat) then some 0x0104
    else none
  else if 0x050 ≤ off ∧ off < 0x080 then
    if s.flag (R.GATE_CAN_CFG_EN.nth k) 0 ∨ canRateBad s off v then some 0x0104 else none
  else if 0x0A0 ≤ off ∧ off < 0x0A8 then
    let j := off % 8 / 4
    let old := (s.getReg 0x11 0 off).toNat
    if bitOf old 31 then (if (old ^^^ v) &&& 0xE0FFFFFF = 0x80000000 ∨ (old ^^^ v) &&& 0xE0FFFFFF = 0 then none else some 0x0104)
    else if (bitOf v 30 ∧ bitsAt v 16 8 = 0xFF) ∨ bitsAt v 8 8 = 0 ∨ v % 256 = 0 ∨ (bitOf v 31 ∧ !s.domainOn 3) ∨ 2 ≤ j then some 0x0104
    else none
  else if off = 0x1B4 ∧ v % 256 = 0 then some 0x0009
  else none

/-- The registers of the GATE page with a rule of their own; the enables count for the staging area. -/
def gateSpecial (w : WriteReq) (enables : Nat) (s : State) : Option Written :=
  let v := w.value.toNat
  if (0x040 ≤ w.off ∧ w.off < 0x050) ∨ (0x0A0 ≤ w.off ∧ w.off < 0x0A8) then
    let mask := if w.off < 0x050 then 0xFC00FF00 else 0xE0FFFFFF
    some (settlePorts (s.setReg 0x11 0 w.off (word (v &&& mask))), rspOk)
  else if w.off = 0x090 then some (canRecoverWrite (v % 16) s, rspOk)
  else if 0x0C4 ≤ w.off ∧ w.off < 0x0D0 then some (stageWord 0 ((w.off - 0x0C4) / 4) w.value s, rspOk)
  else if w.off = 0x0D0 then some (tabWrite 0 w.value w.stamp s)
  else if w.off = 0x0D8 then some (stageWord 1 0 w.value s, rspOk)
  else if w.off = 0x0DC then some (tabWrite 1 w.value w.stamp s)
  else if w.off = 0x180 then some (if bitOf v 0 then rxqPop w.init s else (s, rspOk))
  else if w.off = 0x184 then some (if bitOf v 0 then txPost w.init s else (s, rspOk))
  else if w.off = 0x1A0 then some (if bitOf v 0 then gateSnap s else s, rspOk)
  else if 0x400 ≤ w.off ∧ w.off < 0x800 then some (stageWrite w.init (w.off - 0x400) enables w.value s)
  else none

/-- A write of SIGT_INJ_HI (R409): an update with the stamp of the write, treated as a signal frame by R56 to R58 and R60. -/
def injectWrite (w : WriteReq) (s : State) : State :=
  let e := s.get R.SIGT_INJ_ENTRY_ENTRY 0
  let v := s.get R.SIGT_INJ_LO_VALUE 0 + 2 ^ 32 * w.value.toNat
  let cycle := w.stamp / 10
  if s.holds cycle then holdInput ⟨cycle, 0, 0, 0, [], some (e, v)⟩ s
  else injectUpdate e v cycle (if s.flag R.TICK_PHASE_PAST_CUTOFF 0 then s else flushHold s)

/-- The registers of the SIGT page with a rule of their own. -/
def sigtSpecial (w : WriteReq) (s : State) : Option Written :=
  if 0x044 ≤ w.off ∧ w.off < 0x050 then some (stageWord 2 ((w.off - 0x044) / 4) w.value s, rspOk)
  else if w.off = 0x050 then some (tabWrite 2 w.value w.stamp s)
  else if 0x058 ≤ w.off ∧ w.off < 0x064 then some (stageWord 3 ((w.off - 0x058) / 4) w.value s, rspOk)
  else if w.off = 0x064 then some (tabWrite 3 w.value w.stamp s)
  else if w.off = 0x070 then some (injectWrite w s, rspOk)
  else none

/-- A read of the GATE page's derived registers, as an initiator sees them. -/
def gateRead (i : Initiator) (off : Nat) (s : State) : Option Word :=
  let h := s.rxHead i
  if 0x0C4 ≤ off ∧ off ≤ 0x0D0 then some (tabRead s 0 ((off - 0x0C4) / 4))
  else if off = 0x0D8 ∨ off = 0x0DC then some (tabRead s 1 ((off - 0x0D8) / 4))
  else if 0x170 ≤ off ∧ off ≤ 0x17C then
    some (match h with
      | none => 0
      | some x =>
        let f := x.frame
        word (match (off - 0x170) / 4 with
          | 0 => f.stamp % 2 ^ 32
          | 1 => f.data.length * 2 ^ 16 + bitsAt f.stamp 32 16
          | 2 => f.id
          | _ => 2 ^ 31 + f.port * 2 ^ 28 + f.fmt * 2 ^ 26 + x.cls * 2 ^ 24 + f.node % 256 * 2 ^ 16 + x.cam))
  else if off = 0x188 ∨ off = 0x18C then
    some (match tblGet none s.gate.txLast (gateSeen i) with
      | none => 0
      | some (t, p) => if off = 0x188 then word t else word (2 ^ 31 + p * 2 ^ 16 + bitsAt t 32 16))
  else if off = 0x19C then some (word (tblGet 0 s.gate.captured (32 * s.get R.GATE_CNT_SEL_PORT 0 + s.get R.GATE_CNT_SEL_CODE 0)))
  else if off = 0x1A8 then
    some (word (s.get R.GATE_HOLD_PEAK 0 * 2 ^ 16 + (heldClasses s).length))
  else if off = 0x1AC then some (word ((tblGet [] s.gate.rxq 1).length * 2 ^ 16 + (tblGet [] s.gate.rxq 0).length))
  else if 0x400 ≤ off ∧ off < 0x800 then some (word (leNum (memRead 0 s.gate.stage (1024 * gateSeen i + (off - 0x400)) 4)))
  else if 0x800 ≤ off then
    some (match h with
      | none => 0
      | some x => word (leNum ((List.range 4).map (fun k => x.frame.data.getD (off - 0x800 + k) 0))))
  else none

/-- A read of the SIGT page's derived registers. -/
def sigtRead (off : Nat) (s : State) : Option Word :=
  if 0x044 ≤ off ∧ off ≤ 0x050 then some (tabRead s 2 ((off - 0x044) / 4))
  else if 0x058 ≤ off ∧ off ≤ 0x064 then some (tabRead s 3 ((off - 0x058) / 4))
  else if off = 0x074 then some (word s.gate.tbQueue.length)
  else none

/-- SOFT_RESET of the GATE page (R421): the receive queues, the hold, the transmit queues and the counters are cleared, the
tables stay; the page's registers take their reset values. -/
def gateReset (s : State) : State :=
  let g := s.gate
  let s1 := s.setGate { Gatehouse.idle with
    cam := g.cam, prof := g.prof, streams := g.streams, lastA := g.lastA, tbQueue := g.tbQueue }
  settlePorts ((s1.resetPage 0x11 0 (fun off => off != 0x024)).dropShadows 0x11 0)

/-- SOFT_RESET of the SIGT page (R421): the shared queue is discarded, the table stays. -/
def sigtReset (s : State) : State :=
  ((s.setGate { s.gate with tbQueue := [] }).resetPage 0x12 0 (fun off => off != 0x024)).dropShadows 0x12 0

/-! ### The commands -/

/-- T1S_FRAME_RECEIVE (R388). -/
def execT1sFrameReceive (j node stamp : Nat) (fcsOk symbolsOk jabber : Bool) (frame : List Byte) (s : State) : Result :=
  need (j < 2) (done (t1sReceive j node stamp fcsOk symbolsOk jabber frame s))

/-- CAN_FRAME_RECEIVE (R391). -/
def execCanFrameReceive (k fmt id sdt stamp : Nat) (fd remote : Bool) (data : List Byte) (s : State) : Result :=
  need (k < 4) (done (canReceive k fmt id sdt stamp fd remote data s))

/-- CAN_ERROR (R391). -/
def execCanError (k : Nat) (sending dominant : Bool) (s : State) : Result := need (k < 4) (done (canError k sending dominant s))

/-- FRAME_CLASSIFY (R400). -/
def execFrameClassify (ue : Bool) (s : State) : Result := done (if s.gateRuns then classifyNext ue s else s)

/-- CAN_TRANSMIT_DONE (R392). -/
def execCanTransmitDone (k stamp : Nat) (s : State) : Result := need (k < 4) (done (canSent k stamp s))

/-- CAN_ARBITRATION_LOST (R392). -/
def execCanArbitrationLost (k : Nat) (s : State) : Result := need (k < 4) (done (canArbLost k s))

/-- CAN_BUS_OFF (R392). -/
def execCanBusOff (k : Nat) (s : State) : Result := need (k < 4) (done (canBusOff k s))

/-- CAN_BUS_OFF_RECOVERY (R392). -/
def execCanBusOffRecovery (k : Nat) (s : State) : Result := need (k < 4) (done (canRecovered k s))

/-- CAN_BUS_INTEGRATION (R391). -/
def execCanBusIntegration (k : Nat) (s : State) : Result :=
  need (k < 4) (done (if s.canOn k then s.put (R.GATE_CAN_STAT_SYNC.nth k) 0 1 else s))

/-- T1S_TRANSMIT (R389). -/
def execT1sTransmit (j stamp : Nat) (s : State) : Result := need (j < 2) (done (t1sSent j stamp s))

/-- T1S_COLLISION (R389). -/
def execT1sCollision (j : Nat) (s : State) : Result := need (j < 2) (done (t1sCollision j s))

/-- PLCA_BEACON_LOST (R389). -/
def execPlcaBeaconLost (j : Nat) (s : State) : Result := need (j < 2) (done (plcaLost j s))

/-- PLCA_BEACON_REGAINED (R389). -/
def execPlcaBeaconRegained (j : Nat) (s : State) : Result := need (j < 2) (done (plcaRegained j s))

/-- HELD_FRAME_EXTRACT (R60, R549): the oldest held input, after the commit or while the generator is stopped. -/
def execHeldFrameExtract (s : State) : Result :=
  done (if s.domainOn 2 ∧ !(s.flag R.TICK_RUN_RUN 0 && s.flag R.TICK_PHASE_PAST_CUTOFF 0) then extractHeld s else s)

end Sys2Proof.Machine
end

