-- ==== Sys2Proof/Machine/Isa.lean ====
section
/-!
DEFINITION. Syllables and bundles (R177 to R184, R200, R201, R208 to R238): the fields of a syllable, what it reads and writes, which
encodings are reserved and which bundles are illegal.
-/

namespace Sys2Proof.Machine

/-! ### Fields (R182) -/

abbrev sylStop (w : Nat) : Bool := bitOf w 31
abbrev sylCond (w : Nat) : Nat := bitsAt w 27 4
abbrev sylOp (w : Nat) : Nat := bitsAt w 20 7
abbrev sylGx (w : Nat) : Bool := bitOf w 19
abbrev sylRd (w : Nat) : Nat := bitsAt w 14 5
abbrev sylRa (w : Nat) : Nat := bitsAt w 9 5
abbrev sylRb (w : Nat) : Nat := bitsAt w 4 5
abbrev sylFn (w : Nat) : Nat := bitsAt w 0 4
abbrev sylImm9 (w : Nat) : Nat := bitsAt w 0 9
abbrev sylImm14 (w : Nat) : Nat := bitsAt w 0 14
abbrev sylDisp (w : Nat) : Nat := bitsAt w 0 19
abbrev sylSel (w : Nat) : Nat := bitsAt w 0 9
/-- FN[1:0], the FP format. -/
abbrev sylFmt (w : Nat) : Nat := bitsAt w 0 2
/-- FN[3:2]. -/
abbrev sylFn2 (w : Nat) : Nat := bitsAt w 2 2

/-- The word of a syllable (Table 08-3). -/
def sylWord (op : Nat) (y : Syl) : Nat :=
  bit y.stop * 2 ^ 31 + y.cond * 2 ^ 27 + op * 2 ^ 20 + bit y.gx * 2 ^ 19 + y.ops

/-- The register width W of an engine type: 32 in C32, 24 in C24 (R177). -/
def widthOf (ty : Nat) : Nat := if ty = 3 then 32 else 24

/-! ### What a syllable writes and reads -/

/-- A target of a write, for R180: a register by its number, a system register by SEL, a bit of FLG. -/
inductive SylTarget where
  | reg (v : Nat)
  | sys (sel : Nat)
  | flag (k : Nat)
  deriving DecidableEq, Repr

/-- N, Z, C, V as targets. -/
def nzcvTargets : List SylTarget := [.flag 0, .flag 1, .flag 2, .flag 3]

/-- A register and, when it is a pair, its second. -/
def pairOf (pair : Bool) (v : Nat) : List Nat := if pair then [v, v + 1] else [v]

/-- An FCVT's kind: RB[4:3]; 0 between formats, 1 to an integer, 2 from one (Table 09-10). -/
abbrev cvtKind (w : Nat) : Nat := bitsAt w 7 2
/-- The source format of an FCVT between formats: RB[1:0]. -/
abbrev cvtSrc (w : Nat) : Nat := bitsAt w 4 2

/-- RD of an FP syllable is a binary64 pair. -/
def fpRdPair (w : Nat) : Bool :=
  sylFmt w == 2 && (sylOp w != 0x2A || cvtKind w != 1) && sylOp w != 0x2D && sylOp w != 0x2B

/-- RA of an FP syllable is a binary64 pair. -/
def fpRaPair (w : Nat) : Bool :=
  if sylOp w = 0x2A then (if cvtKind w = 0 then cvtSrc w == 2 else cvtKind w == 1 && sylFmt w == 2) else sylFmt w == 2

/-- RB of an FP syllable is a binary64 pair. -/
def fpRbPair (w : Nat) : Bool := sylFmt w == 2 && sylOp w != 0x29 && sylOp w != 0x2A && sylOp w != 0x2D

/-- The registers that a syllable writes, v0 among them. -/
def writesRegs (ty w : Nat) : List Nat :=
  let op := sylOp w
  let rd := sylRd w
  if op = 0x0C ∨ op = 0x0D ∨ op = 0x15 ∨ op = 0x1F then []
  else if op < 0x1C then [rd]
  else if op = 0x20 then pairOf (sylFn w == 3 || sylFn w == 4) rd
  else if op = 0x21 then [rd]
  else if op = 0x2B then []
  else if 0x24 ≤ op ∧ op ≤ 0x2E then pairOf (fpRdPair w) rd
  else if 0x40 ≤ op ∧ op ≤ 0x46 then pairOf (op == 0x45) rd
  else if op = 0x50 ∨ op = 0x68 then [rd]
  else if op = 0x73 ∧ ty = 3 then [rd]
  else if (op = 0x72 ∨ op = 0x74) ∧ ty ≠ 3 then [rd]
  else []

/-- The flags and system registers that a syllable writes. -/
def writesOther (ty w : Nat) : List SylTarget :=
  let op := sylOp w
  let sf := bitOf w 0
  if op ≤ 0x03 ∧ sf then nzcvTargets
  else if 0x04 ≤ op ∧ op ≤ 0x07 ∧ sf then [.flag 0, .flag 1]
  else if 0x08 ≤ op ∧ op ≤ 0x0B ∧ sf then [.flag 0, .flag 1, .flag 2]
  else if op = 0x0C ∨ op = 0x15 ∨ op = 0x2B then nzcvTargets
  else if op = 0x0D then [.flag 0, .flag 1]
  else if op = 0x18 ∨ op = 0x19 then [.flag 1, .flag 2, .flag 4]
  else if op = 0x58 then [.sys 0x11, .sys 0x12]
  else if op = 0x59 then [.sys 0x12]
  else if op = 0x5A then [.sys 0x11, .sys 0x12, .sys 0x13] ++ nzcvTargets
  else if op = 0x5B then [.sys 0x12, .sys 0x13] ++ nzcvTargets
  else if op = 0x61 ∨ op = 0x63 then [.sys 1, .sys 2]
  else if op = 0x64 then [.sys 2]
  else if op = 0x65 then [.sys 2, .flag 4] ++ nzcvTargets ++ (if ty = 3 then [.flag 5] else [])
  else if op = 0x6A ∨ op = 0x6B then [.sys 2, .sys 3]
  else if op = 0x69 then
    if sylSel w = 0 then nzcvTargets ++ [.flag 4] ++ (if ty = 3 then [.flag 5] else []) else [.sys (sylSel w)]
  else []

/-- Everything that a syllable writes, but v0, which holds nothing (R186). -/
def writesOf (ty w : Nat) : List SylTarget :=
  ((writesRegs ty w).filter (fun v => v != 0)).map SylTarget.reg ++ writesOther ty w

/-- The registers that a syllable reads. -/
def readsRegs (ty w : Nat) : List Nat :=
  let op := sylOp w
  let rd := sylRd w
  let ra := sylRa w
  let rb := sylRb w
  if op ≤ 0x0E then [ra, rb]
  else if op = 0x0F then [ra]
  else if op ≤ 0x15 then [ra]
  else if op = 0x16 then []
  else if op = 0x17 then [rd]
  else if op = 0x18 ∨ op = 0x19 then [ra, rb]
  else if op = 0x1A then ra :: (if ty = 3 then [rb] else [])
  else if op = 0x1B then [ra, rd] ++ (if ty = 3 then [rb] else [])
  else if op = 0x20 ∨ op = 0x21 then [ra, rb]
  else if 0x24 ≤ op ∧ op ≤ 0x2E then
    pairOf (fpRaPair w) ra ++ (if op = 0x29 ∨ op = 0x2A ∨ op = 0x2D then [] else pairOf (fpRbPair w) rb) ++
      (if op = 0x27 then pairOf (fpRdPair w) rd else [])
  else if 0x40 ≤ op ∧ op ≤ 0x46 then [ra]
  else if 0x48 ≤ op ∧ op ≤ 0x4C then ra :: pairOf (op == 0x4B) rd
  else if op = 0x50 then [ra, ra + 1]
  else if op = 0x51 then [ra, ra + 1, rd] ++ (if ty = 3 then [] else [rb])
  else if op = 0x59 ∨ op = 0x5B then [rb]
  else if op = 0x62 ∨ op = 0x63 ∨ op = 0x69 then [ra]
  else if ty = 3 then (if op = 0x70 then [ra, ra + 1] else if op = 0x72 then [ra] else [])
  else if op = 0x70 then [ra, rb]
  else if op = 0x72 ∨ op = 0x73 then [ra]
  else []

/-- A syllable whose outcome or condition uses the flags N, Z, C, V, D, or that writes them (R232). -/
def usesFlags (ty w : Nat) : Bool :=
  let op := sylOp w
  sylCond w != 0 || op == 0x02 || op == 0x03 || op == 0x18 || op == 0x19 || (op == 0x68 && sylSel w == 0) ||
  (writesOther ty w).any (fun t => match t with
    | .flag _ => true
    | _ => false)

/-! ### Bundles (R178 to R180) -/

/-- How many syllables a bundle may hold. -/
def bundleMax (ty : Nat) : Nat := if ty = 3 then 4 else 3

/-- The slot that a syllable claims, from its place, the slot of the syllable before it and its class (R179): C32 ALU0 0, ALU1 1,
LSU 2, BR 3; C24 ALU 1, LSU 2, BR 3. -/
def slotOf (ty : Nat) (prev : Option Nat) (w : Nat) : Nat :=
  match bitsAt w 25 2 with
  | 0 => if ty = 3 ∧ prev = none then 0 else 1
  | 1 => 1
  | 2 => 2
  | _ => 3

/-- The first syllable at which a rule of R180 is broken, from place i on. -/
def illegalFrom (ty : Nat) : Nat → Option Nat → List SylTarget → List Nat → Option (Nat × Nat)
  | _, _, _, [] => none
  | i, prev, seen, w :: rest =>
    let k := slotOf ty prev w
    let late : Bool := match prev with
      | none => false
      | some p => decide (k ≤ p)
    let ws := writesOf ty w
    if late ∨ ws.any (fun t => seen.contains t) ∨ (i + 1 = bundleMax ty ∧ !sylStop w) then some (i, w)
    else illegalFrom ty (i + 1) (some k) (seen ++ ws) rest

/-- ILLEGAL_BUNDLE of a bundle: the place and the word of the offending syllable (R180). -/
def illegalBundle (ty : Nat) (ws : List Nat) : Option (Nat × Nat) := illegalFrom ty 0 none [] ws

/-! ### Reserved encodings (R200) -/

/-- A string or move syllable. -/
def isString (w : Nat) : Bool := decide (0x58 ≤ sylOp w ∧ sylOp w ≤ 0x5B)

/-- The system registers of Table 08-9 that an engine type has. -/
def selValid (ty sel : Nat) : Bool :=
  decide (sel ≤ 0x0F) || decide (0x10 ≤ sel ∧ sel ≤ 0x13) ||
  (ty == 3 && (sel == 0x20 || sel == 0x21 || sel == 0x22 || sel == 0x30 || sel == 0x31))

/-- The system registers that MTSR may name (Table 08-9: RW). -/
def selWritable (ty sel : Nat) : Bool :=
  selValid ty sel && !(sel == 6 || sel == 8 || sel == 9 || sel == 0x0C || sel == 0x0E || sel == 0x0F || sel == 0x21 || sel == 0x22 ||
    sel == 0x30 || sel == 0x31)

/-- The operand fields of an ALU or MUL syllable break R183 or name an FN that is not defined. -/
def reservedAlu (ty w : Nat) : Bool :=
  let op := sylOp w
  let fn := sylFn w
  let rd := sylRd w
  let rb := sylRb w
  if op ≤ 0x0B then fn / 2 != 0
  else if op = 0x0C ∨ op = 0x0D then rd != 0 || fn != 0
  else if op = 0x0E then !(fn == 0 || fn == 2 || fn == 4 || fn == 6)
  else if op = 0x0F then decide (2 < fn) || rb != 0
  else if op ≤ 0x13 ∨ op = 0x16 ∨ op = 0x17 then false
  else if op = 0x14 then bitsAt w 5 2 != 0
  else if op = 0x15 then rd != 0
  else if op = 0x18 ∨ op = 0x19 then fn / 2 != 0
  else if op = 0x1A then (if ty = 3 then fn / 2 != 0 else fn / 8 != 0 || fn % 4 == 3 || rb != 0)
  else if op = 0x1B then (if ty = 3 then fn != 0 else fn / 4 != 0 || fn % 4 == 3 || rb != 0)
  else if op = 0x20 then decide (4 < fn) || ((fn == 3 || fn == 4) && rd % 2 == 1)
  else if op = 0x21 then decide (3 < fn)
  else true

/-- An FCVT code that Table 09-10 reserves. -/
def reservedCvt (w : Nat) : Bool :=
  match cvtKind w with
  | 0 => bitOf w 6 || cvtSrc w == 3 || cvtSrc w == sylFmt w
  | 1 => bitOf w 4
  | 2 => bitsAt w 4 2 != 0
  | _ => true

/-- An FP syllable that is reserved (R207, R229 to R232, Table 08-11): with FN[1:0] = 0b10 an odd RD or RA is, and an odd RB where RB names a
register; so is an odd RA that names the pair of an FCVT from binary64. -/
def reservedFp (ty w : Nat) : Bool :=
  let op := sylOp w
  let f2 := sylFn2 w
  ty != 3 || op < 0x24 || decide (0x2E < op) || sylFmt w == 3 ||
  (sylFmt w == 2 && (sylRd w % 2 == 1 || sylRa w % 2 == 1)) || (fpRaPair w && sylRa w % 2 == 1) || (fpRbPair w && sylRb w % 2 == 1) ||
  (if op ≤ 0x26 ∨ op = 0x28 then f2 != 0
   else if op = 0x29 ∨ op = 0x2D then f2 != 0 || sylRb w != 0
   else if op = 0x2A then reservedCvt w
   else if op = 0x2B then decide (1 < f2) || sylRd w != 0
   else if op = 0x2E then f2 == 3
   else false)

/-- An LSU syllable that is reserved (Tables 08-12, 09-5, 09-6, R220). RPS is that of the start of the bundle. -/
def reservedLsu (ty w rps : Nat) : Bool :=
  let op := sylOp w
  let rd := sylRd w
  let ra := sylRa w
  let rb := sylRb w
  let fn := sylFn w
  if op ≤ 0x46 then (if ty = 3 then op == 0x45 && rd % 2 == 1 else op != 0x44)
  else if 0x48 ≤ op ∧ op ≤ 0x4C then (if ty = 3 then op == 0x4B && rd % 2 == 1 else op != 0x4A)
  else if op = 0x50 then ra % 2 == 1 || rb != 0 || (if ty = 3 then fn != 0 else decide (1 < fn))
  else if op = 0x51 then ra % 2 == 1 || fn != 0 || (ty == 3 && rb != 0)
  else if op = 0x58 ∨ op = 0x5A then sylDisp w != 0
  else if op = 0x59 ∨ op = 0x5B then rd != 0 || ra != 0 || fn != 0 || rps % 4 == 1
  else true

/-- An MTSR whose value is reserved (R189, R225). -/
def reservedMtsr (ty sel v : Nat) (ta : Bool) : Bool :=
  let top := if ty = 3 then (if ta then 7 else 6) else (if ta then 3 else 2)
  if sel = 2 then
    let res := bitsAt v 4 4
    v / 256 != 0 || bitOf v 3 || (ty != 3 && bitOf v 2) || res == 0 || decide (top < res)
  else if sel = 0x13 then
    bitsAt v 4 4 == 0xF || v % 4 == 3 || (ty == 3 && (decide (2 ^ 18 ≤ v) || bitsAt v 16 2 == 3))
  else false

/-- What the reserved encodings of the BR class depend on: RES, TA, the value that MTSR would write. -/
structure BrCtx where
  res : Nat
  ta : Bool
  value : Nat
  deriving DecidableEq, Repr

/-- A BR syllable that is reserved (Tables 08-13, 09-13, 09-15, R189, R197, R224, R225, R237). -/
def reservedBr (ty : Nat) (c : BrCtx) (w : Nat) : Bool :=
  let op := sylOp w
  let rd := sylRd w
  let ra := sylRa w
  let rb := sylRb w
  let fn := sylFn w
  let none0 := sylDisp w != 0
  if op = 0x60 ∨ op = 0x61 then false
  else if op = 0x62 ∨ op = 0x63 then rd != 0 || rb != 0 || fn != 0
  else if op = 0x64 ∨ op = 0x6C ∨ op = 0x6D then none0
  else if op = 0x65 then none0 || !c.ta
  else if op = 0x66 ∨ op = 0x67 then rd != 0 || ra != 0
  else if op = 0x68 then ra != 0 || !selValid ty (sylSel w)
  else if op = 0x69 then rd != 0 || !selWritable ty (sylSel w) || reservedMtsr ty (sylSel w) c.value c.ta
  else if op = 0x6A then none0 || c.res == 1
  else if op = 0x6B then none0 || decide ((if ty = 3 then (if c.ta then 7 else 6) else (if c.ta then 3 else 2)) < c.res + 1)
  else if op = 0x6E then ty != 3 || none0
  else if ty = 3 then
    if op = 0x70 then rd != 0 || rb != 0 || fn != 0 || ra % 2 == 1
    else if op = 0x71 then none0
    else if op = 0x72 then rd != 0 || rb != 0 || fn != 0
    else if op = 0x73 then ra != 0 || rb != 0 || fn != 0
    else true
  else if op = 0x70 then ty != 4 || rd != 0 || fn != 0
  else if op = 0x71 then ty != 4 || rd != 0 || ra != 0 || rb != 0
  else if op = 0x72 then rb != 0 || fn != 0
  else if op = 0x73 then rd != 0 || rb != 0 || fn != 0
  else if op = 0x74 then ra != 0 || rb != 0 || fn / 2 != 0
  else true

/-- A syllable that is no REP is reserved. -/
def reservedSyl (ty rps : Nat) (c : BrCtx) (w : Nat) : Bool :=
  (sylGx w && sylCond w != 15) ||
  (match bitsAt w 25 2 with
   | 0 => reservedAlu ty w
   | 1 => if sylOp w < 0x22 then reservedAlu ty w else reservedFp ty w
   | 2 => reservedLsu ty w rps
   | _ => reservedBr ty c w)

/-- A REP bundle (R201, R221). -/
def isRepBundle (ws : List Nat) : Bool :=
  match ws with
  | [r, y] => sylOp r == 0x1F && isString y
  | _ => false

/-- The first reserved syllable from place i on (R200, R201, R221). -/
def reservedFrom (ty rps : Nat) (value : Nat → Nat) (res : Nat) (ta : Bool) (rep : Bool) : Nat → List Nat → Option (Nat × Nat)
  | _, [] => none
  | i, w :: rest =>
    let bad :=
      if sylOp w = 0x1F then !rep || i != 0 || sylDisp w != 0 || sylCond w != 0 || sylGx w
      else reservedSyl ty rps ⟨res, ta, value (sylRa w)⟩ w || (rep && sylCond w != 0)
    if bad then some (i, w) else reservedFrom ty rps value res ta rep (i + 1) rest

end Sys2Proof.Machine
end

