-- ==== Sys2Proof/Machine/Pane.lean ====
section
/-!
DEFINITION. Panes (R102 to R130) and hampers (R131 to R136, R145 to R151): the PE-op, neighbours and edges, memory rows under the
symbol code, steering, self-test, the hamper counters.
-/

namespace Sys2Proof.Machine

/-! ### Planes -/

/-- The plane with a 1 in column 0 of every row. -/
def colZero : Plane := BitVec.ofNat 65536 ((2 ^ 65536 - 1) / (2 ^ 256 - 1))

/-- The plane with row 0 all 1. -/
def rowZero : Plane := BitVec.ofNat 65536 (2 ^ 256 - 1)

/-- The bits of row r of a plane. -/
def planeRow (x : Plane) (r : Nat) : BitVec 256 := BitVec.ofNat 256 (x.toNat / 2 ^ (256 * r))

/-- The bit of PE (r, c). -/
def planeBit (x : Plane) (r c : Nat) : Bool := x.getLsbD (256 * r + c)

/-- A plane from the numbers of its rows' parts: each part shifted to its place. -/
def planeOf (parts : List (Nat × Nat)) : Plane :=
  BitVec.ofNat 65536 (parts.foldl (fun n p => n + p.2 * 2 ^ p.1) 0)

/-- The function of three planes that a truth table gives (R107): bit 4a + 2b + c of the table. -/
def tableFn (tt : Nat) (a b c : Plane) : Plane :=
  (List.range 8).foldl (fun (acc : Plane) i =>
    if bitOf tt i then
      acc ||| ((if bitOf i 2 then a else ~~~a) &&& (if bitOf i 1 then b else ~~~b) &&& (if bitOf i 0 then c else ~~~c))
    else acc) 0

/-! ### The PE-op word (Table 05-3) -/

def opTtR (o : BitVec 64) : Nat := bitsAt o.toNat 56 8
def opTtC (o : BitVec 64) : Nat := bitsAt o.toNat 48 8
def opA (o : BitVec 64) : Nat := bitsAt o.toNat 37 11
def opB (o : BitVec 64) : Nat := bitsAt o.toNat 26 11
def opD (o : BitVec 64) : Nat := bitsAt o.toNat 15 11
def opBSrc (o : BitVec 64) : Nat := bitsAt o.toNat 12 3
def opASrc (o : BitVec 64) : Bool := bitOf o.toNat 11
def opConst (o : BitVec 64) : Bool := bitOf o.toNat 10
def opDMem (o : BitVec 64) : Bool := bitOf o.toNat 9
def opLdX (o : BitVec 64) : Bool := bitOf o.toNat 8
def opLdY (o : BitVec 64) : Bool := bitOf o.toNat 7
def opLdC (o : BitVec 64) : Bool := bitOf o.toNat 6
def opKMode (o : BitVec 64) : Nat := bitsAt o.toNat 4 2
def opLdF (o : BitVec 64) : Bool := bitOf o.toNat 3
def opPop (o : BitVec 64) : Bool := bitOf o.toNat 2
def opPush (o : BitVec 64) : Bool := bitOf o.toNat 1
def opRed (o : BitVec 64) : Bool := bitOf o.toNat 0

/-! ### Hampers (R131 to R136) -/

/-- The units of a pane: 2,048. -/
abbrev unitCount : Nat := 2048

/-- Every unit holds more than k entries. -/
def allMoreThan (t : Tbl (List (BitVec 34))) (k : Nat) : Bool :=
  t.length == unitCount && t.all (fun e => decide (k < e.2.length))

/-- Every unit holds fewer than k entries. -/
def allFewerThan (t : Tbl (List (BitVec 34))) (k : Nat) : Bool := decide (0 < k) && t.all (fun e => decide (e.2.length < k))

/-- The parity of n bits of a number. -/
def oddBits : Nat → Nat → Bool
  | 0, _ => false
  | n + 1, v => (v % 2 == 1) != oddBits n (v / 2)

/-- A slice as a hamper entry, with its parity over the even and over the odd columns (R149). -/
def hampEntry (v : BitVec 32) : BitVec 34 :=
  BitVec.ofNat 34 (v.toNat + bit (oddBits 32 (v &&& 0x55555555).toNat) * 2 ^ 32 + bit (oddBits 32 (v &&& 0xAAAAAAAA).toNat) * 2 ^ 33)

/-- The slice of an entry. -/
def entrySlice (e : BitVec 34) : BitVec 32 := e.truncate 32

/-- An entry's parity holds. -/
def entryOk (e : BitVec 34) : Bool := hampEntry (entrySlice e) == e

/-- The plane at the heads of the units. -/
def headPlane (t : Tbl (List (BitVec 34))) : Plane :=
  planeOf (t.filterMap (fun e => e.2.head?.map (fun v => (256 * (e.1 / 8) + 32 * (e.1 % 8), (entrySlice v).toNat))))

/-- Every unit's head removed. -/
def popAll (t : Tbl (List (BitVec 34))) : Tbl (List (BitVec 34)) :=
  (t.map (fun e => (e.1, e.2.drop 1))).filter (fun e => e.2 != [])

/-- A plane's slice of each unit appended. -/
def pushAll (x : Plane) (t : Tbl (List (BitVec 34))) : Tbl (List (BitVec 34)) :=
  (List.range unitCount).map (fun u =>
    (u, tblGet [] t u ++ [hampEntry (BitVec.ofNat 32 (x.toNat / 2 ^ (256 * (u / 8) + 32 * (u % 8))))]))

/-- The second copies of the occupancies after a pop of every unit. -/
def popOcc (t : Tbl Nat) : Tbl Nat := (t.map (fun e => (e.1, e.2 - 1))).filter (fun e => e.2 != 0)

/-- The second copies of the occupancies after a push to every unit. -/
def pushOcc (t : Tbl Nat) : Tbl Nat := (List.range unitCount).map (fun u => (u, tblGet 0 t u + 1))

/-- The slices resident in the hampers of a direction (R150). -/
def resident (t : Tbl (List (BitVec 34))) : Nat := t.foldl (fun n e => n + e.2.length) 0

/-- The hamper counters by number: inbound dropped 0, popped 1, flushed 2, outbound pushed 3, lifted 4, flushed 5 (R150). A
frozen set of counters does not count (R149). -/
def hampCount (p k n : Nat) (s : State) : State :=
  let c := s.ctl p
  if c.hampFrozen then s else s.setCtl p { c with hamp := tblSet 0 c.hamp k ((tblGet 0 c.hamp k + n) % 2 ^ 48) }

/-- Every hamper of a pane flushed (R136, R151). -/
def flushHampers (p : Nat) (s : State) : State :=
  let x := s.pane p
  let s1 := hampCount p 2 (resident x.inb) (hampCount p 5 (resident x.outb) s)
  s1.setPane p { x with inb := [], outb := [], inOcc := [], outOcc := [] }

/-- A hamper error (R149): an occupancy mismatch, which freezes the counters, or a parity error, at a unit of a direction. The running task
ends without TASK_OVERRUN. The record's EVT_BIT is a free value: no event of a page stands for the error. -/
def hamperFault (p : Nat) (occ outbound : Bool) (u : Nat) (s : State) : State :=
  let old := (s.getReg 0x02 p 0x244).toNat / 2 ^ 30
  let now := old ||| (if occ then 2 else 1)
  let s1 := s.setReg 0x02 p 0x244 (word (now * 2 ^ 30 + bit outbound * 2 ^ 29 + u / 8 * 2 ^ 11 + u % 8 * 2 ^ 8))
  let (v, s2) := s1.draw
  let c := s2.ctl p
  cutTask p false ((s2.setCtl p { c with hampFrozen := c.hampFrozen || occ }).report 0x01 p (v % 32) clsHold)

/-- The unit of a direction whose two occupancies differ, if one does. -/
def occMismatch (t : Tbl (List (BitVec 34))) (occ : Tbl Nat) : Option Nat :=
  (t.map (fun e => e.1) ++ occ.map (fun e => e.1)).find? (fun u => (tblGet [] t u).length != tblGet 0 occ u)

/-- The two copies of every occupancy of a pane compared, as in every cycle (R149), until the counters are frozen. -/
def hampCompare (p : Nat) (s : State) : State :=
  let x := s.pane p
  if (s.ctl p).hampFrozen then s
  else match occMismatch x.inb x.inOcc, occMismatch x.outb x.outOcc with
    | some u, _ => hamperFault p true false u s
    | none, some u => hamperFault p true true u s
    | none, none => s

/-- The parity of the entries that a pop or a head read meets (R149). -/
def headParity (p : Nat) (s : State) : State :=
  match (s.pane p).inb.find? (fun e => !(e.2.head?.map entryOk).getD true) with
  | some e => hamperFault p false false e.1 s
  | none => s

/-- A capture of the hamper counters (R150). -/
def hampSnap (p : Nat) (s : State) : State :=
  let c := s.ctl p
  let x := s.pane p
  let pair := fun (off k : Nat) (s : State) =>
    let v := tblGet 0 c.hamp k
    (s.setReg 0x02 p off (word v)).setReg 0x02 p (off + 4) (word (v / 2 ^ 32 % 2 ^ 16 + bit c.hampFrozen * 2 ^ 31))
  let s1 := pair 0x204 0 (pair 0x20C 1 (pair 0x214 2 (pair 0x220 3 (pair 0x228 4 (pair 0x230 5 s)))))
  (s1.put R.PCTL_HIN_RESIDENT_SLICES p (resident x.inb)).put R.PCTL_HOUT_RESIDENT_SLICES p (resident x.outb)

/-! ### Memory rows (R117 to R122) -/

/-- The segment rows of a bit address whose stored pattern is in error: row × 4 + segment and the pattern. -/
def errsAt (errs : Tbl (BitVec 76)) (addr : Nat) : List (Nat × BitVec 76) :=
  errs.filterMap (fun e => if e.1 / 1024 = addr then some (e.1 % 1024, e.2) else none)

/-- Those of a pane. -/
abbrev rowErrs (x : Pane) (addr : Nat) : List (Nat × BitVec 76) := errsAt x.errs addr

/-- The wrong bits that a read of a bit address delivers, after correction (R119). -/
def wrongBits (errs : Tbl (BitVec 76)) (addr : Nat) : Plane :=
  planeOf ((errsAt errs addr).map (fun e => (256 * (e.1 / 4) + 64 * (e.1 % 4), residue e.2.toNat % 2 ^ 64)))

/-- A plane of a memory as a read delivers it. -/
def planeAt (planes : Tbl Plane) (errs : Tbl (BitVec 76)) (addr : Nat) : Plane := tblGet 0 planes addr ^^^ wrongBits errs addr

/-- A plane of PE memory as a read delivers it. -/
def readPlane (x : Pane) (addr : Nat) : Plane := planeAt x.planes x.errs addr

/-- The physical column of bit k of symbol j of a segment (R123, R124): through the steering for a data symbol. Spare B serves a column that
both spares name: it has replaced spare A. -/
def physCol (s : State) (p seg j k : Nat) : Nat :=
  if 16 ≤ j then 264 + 12 * seg + 4 * (j - 16) + k
  else
    let col := 4 * j + k
    if s.flag (R.PANE_STEER_B_EN.nth seg) p ∧ s.get (R.PANE_STEER_B_COL.nth seg) p = col then 66 * seg + 65
    else if s.flag (R.PANE_STEER_A_EN.nth seg) p ∧ s.get (R.PANE_STEER_A_COL.nth seg) p = col then 66 * seg + 64
    else 66 * seg + col

/-- The logical column that a physical PE column serves, as segment and column: none for a spare out of use and for a column that a spare
has replaced, which takes no further part (R124). -/
def logCol (s : State) (p phys : Nat) : Option (Nat × Nat) :=
  let seg := phys / 66
  let j := phys % 66
  let a := if s.flag (R.PANE_STEER_A_EN.nth seg) p then some (s.get (R.PANE_STEER_A_COL.nth seg) p) else none
  let b := if s.flag (R.PANE_STEER_B_EN.nth seg) p then some (s.get (R.PANE_STEER_B_COL.nth seg) p) else none
  if 264 ≤ phys then none
  else if j = 64 then (if a = b then none else a.map (fun col => (seg, col)))
  else if j = 65 then b.map (fun col => (seg, col))
  else if a = some j ∨ b = some j then none
  else some (seg, j)

/-- Whether a segment has a spare out of use. -/
def spareFree (s : State) (p seg : Nat) : Bool :=
  !s.flag (R.PANE_STEER_A_EN.nth seg) p || !s.flag (R.PANE_STEER_B_EN.nth seg) p

/-- A faulty column cannot be steered (R127): the pane is lost. -/
def noSpare (p : Nat) (s : State) : State :=
  losePane p (((s.put R.PANE_COL_FAULT_NO_SPARE p 1).raise 0x01 p 4).report 0x01 p 4 clsUnit)

/-- A physical column declares itself faulty (R126, R127); one that waits already goes on waiting. -/
def columnFault (p phys : Nat) (s : State) : State :=
  let s1 := (s.setReg 0x01 p 0x068 (word phys)).raise 0x01 p 2
  match logCol s p phys with
  | some (seg, _) =>
    if (s1.pane p).waitCols.contains phys then s1
    else if spareFree s p seg ∧ s.flag R.PANE_STEER_CTL_AUTO p then
      s1.setPane p { s1.pane p with waitCols := (s1.pane p).waitCols ++ [phys] }
    else noSpare p s1
  | none => noSpare p s1

/-- A corrected bit counted on its physical column (R121, R126). -/
def countCol (p phys : Nat) (s : State) : State :=
  let x := s.pane p
  let n := tblGet 0 x.colCount phys + 1
  let s1 := s.setPane p { x with colCount := tblSet 0 x.colCount phys n }
  let limit := s.get R.PANE_STEER_CTL_CE_THRESH p
  if limit ≠ 0 ∧ n = limit then columnFault p phys s1 else s1

/-- PANE_ERR_LOC. -/
def paneErrLoc (p addr rowSeg symbol e : Nat) (ue : Bool) (s : State) : State :=
  s.setReg 0x01 p 0x064 (word (bit ue * 2 ^ 31 + addr * 2 ^ 20 + rowSeg / 4 * 2 ^ 12 + rowSeg % 4 * 2 ^ 10 + symbol * 2 ^ 5 + e))

/-- A row written back as its decoder delivers it, with fresh check symbols: no pattern stays. -/
def rowRenew (p addr : Nat) (e : Nat × BitVec 76) (s : State) : State :=
  let x := s.pane p
  s.setPane p { x with
    errs := tblSet 0 x.errs (addr * 1024 + e.1) 0
    planes := tblSet 0 x.planes addr (tblGet 0 x.planes addr ^^^
      planeOf [(256 * (e.1 / 4) + 64 * (e.1 % 4), residue e.2.toNat % 2 ^ 64)]) }

/-- What a read finds in one row in error (R121). With `keep` the row is written back: a corrected one, and one that decodes as clean though
its bits have changed, get new check symbols over what was delivered (R118). -/
def rowRead (p addr : Nat) (keep endTask : Bool) (e : Nat × BitVec 76) (s : State) : State :=
  match decodeWord e.2.toNat with
  | .clean => if keep then rowRenew p addr e s else s
  | .corrected j v =>
    let s1 := ((paneErrLoc p addr e.1 j v false s).count R.PANE_CE_COUNT p 1).raise 0x01 p 0
    let s2 := (List.range 4).foldl (fun s k => if bitOf v k then countCol p (physCol s p (e.1 % 4) j k) s else s) s1
    if keep then rowRenew p addr e s2 else s2
  | .uncorrectable =>
    let s1 := (((paneErrLoc p addr e.1 0x1F 0 true s).count R.PANE_UE_COUNT p 1).raise 0x01 p 1).report 0x01 p 1 clsHold
    if endTask then cutTask p false s1 else s1

/-- A read of a bit address in every segment. -/
def addrRead (p addr : Nat) (keep endTask : Bool) (s : State) : State :=
  (rowErrs (s.pane p) addr).foldl (fun s e => rowRead p addr keep endTask e s) s

/-- The PEs of the rows of a bit address whose stored row is uncorrectable. -/
def uncorrectable (x : Pane) (addr : Nat) : Plane :=
  planeOf ((rowErrs x addr).filterMap (fun e => if decodeWord e.2.toNat = .uncorrectable
    then some (256 * (e.1 / 4) + 64 * (e.1 % 4), 2 ^ 64 - 1) else none))

/-- A plane written under a mask (R108, R121): rows that are uncorrectable keep what they hold. -/
def writePlane (x : Pane) (addr : Nat) (v mask : Plane) : Pane :=
  let m := mask &&& ~~~uncorrectable x addr
  { x with planes := tblSet 0 x.planes addr ((tblGet 0 x.planes addr &&& ~~~m) ||| (v &&& m)) }

/-! ### Neighbours (R113) -/

/-- The edge bits of a side (0 north, 1 east, 2 south, 3 west) that the PE-ops in execution see (R114). -/
def edgeBits (x : Pane) (side : Nat) : Nat :=
  if bitOf x.edgeCfg side then (List.range 8).foldl (fun n w => n + (tblGet 0 x.edges (side * 8 + w)).toNat * 2 ^ (32 * w)) 0
  else 0

/-- A number's bit r at column 0 of row r. -/
def spreadRows (n : Nat) : Nat := (List.range 256).foldl (fun a r => a + (n / 2 ^ r % 2) * 2 ^ (256 * r)) 0

/-- The pane that lies beyond a side of a pane in the grid of panes. -/
def beyond (p side : Nat) : Option Nat :=
  match side with
  | 0 => if 4 ≤ p then some (p - 4) else none
  | 1 => if p % 4 < 3 then some (p + 1) else none
  | 2 => if p < 12 then some (p + 4) else none
  | _ => if 0 < p % 4 then some (p - 1) else none

/-- The neighbouring X of every PE of a pane on a side: within the pane, across the boundary to a pane of the same rectangle, or
the edge value. -/
def neighbourX (s : State) (p side : Nat) : Plane :=
  let x := (s.pane p).x
  let linked := match beyond p side with
    | some q => if s.flag R.PANE_MODE_IN_GANG p && !s.isTwin p && (s.paneGang p).contains q then some (s.pane q).x else none
    | none => none
  let e := edgeBits (s.pane p) side
  match side with
  | 0 => (x <<< 256) ||| (match linked with
      | some y => y >>> (255 * 256)
      | none => BitVec.ofNat 65536 e)
  | 1 => ((x >>> 1) &&& ~~~(colZero <<< 255)) ||| (match linked with
      | some y => (y &&& colZero) <<< 255
      | none => BitVec.ofNat 65536 (spreadRows e * 2 ^ 255))
  | 2 => (x >>> 256) ||| (match linked with
      | some y => y <<< (255 * 256)
      | none => BitVec.ofNat 65536 (e * 2 ^ (255 * 256)))
  | _ => ((x <<< 1) &&& ~~~colZero) ||| (match linked with
      | some y => (y >>> 255) &&& colZero
      | none => BitVec.ofNat 65536 (spreadRows e))

/-! ### One PE-op (R108, R109) -/

/-- The other pane of a twin pair. -/
def twinOf (p : Nat) : Nat := p ^^^ 1

/-- Operand B of every PE of a pane. -/
def operandB (s : State) (p : Nat) (o : BitVec 64) : Plane :=
  match opBSrc o with
  | 0 => readPlane (s.pane p) (opB o)
  | 1 => neighbourX s p 0
  | 2 => neighbourX s p 1
  | 3 => neighbourX s p 2
  | 4 => neighbourX s p 3
  | 5 => headPlane (s.pane p).inb
  | 6 => if opConst o then BitVec.allOnes 65536 else 0
  | _ => (s.pane (twinOf p)).x

/-! ### Initialisation, scrub, steering, self-test (R105, R122 to R128) -/

/-- The pane's PEs at the end of an initialisation: memory 0. -/
def paneInitDone (p : Nat) (s : State) : State :=
  let x := s.pane p
  if x.initRunning ∧ s.domainOn (14 + p) then (s.setPane p { x with planes := [], errs := [], initRunning := false }).raise 0x01 p 9 else s

/-- n addresses scrubbed from one on. -/
def scrubAddrs (p : Nat) : Nat → State → State
  | 0, s => s
  | n + 1, s =>
    let a := s.get R.PANE_SCRUB_NEXT_ADDR p
    let s1 := (addrRead p a true false s).put R.PANE_SCRUB_NEXT_ADDR p (a + 1)
    scrubAddrs p n (if a = 0x7FF then s1.raise 0x01 p 7 else s1)

/-- The scrub of a tick's guard (R122). -/
def paneScrub (p : Nat) (s : State) : State :=
  if s.domainOn (14 + p) ∧ (s.pcState p = pcStandby ∨ s.pcState p = pcRun) then
    scrubAddrs p (s.get R.PANE_SCRUB_ROWS_PER_TICK p) s
  else s

/-- A column enabled on a free spare of its segment, spare A first (R126). -/
def steerColumn (p seg col : Nat) (s : State) : State :=
  if !s.flag (R.PANE_STEER_A_EN.nth seg) p then
    (s.put (R.PANE_STEER_A_EN.nth seg) p 1).put (R.PANE_STEER_A_COL.nth seg) p col
  else (s.put (R.PANE_STEER_B_EN.nth seg) p 1).put (R.PANE_STEER_B_COL.nth seg) p col

/-- A rebuild's reads of a segment's rows, through the steering that stands (R125): every row is decoded and written back. An
uncorrectable row is what R127 says of it. -/
def rebuildSegment (p : Nat) (s : State) (seg : Nat) : State :=
  let bad := (s.pane p).errs.any (fun e => e.1 % 4 == seg && decodeWord e.2.toNat == .uncorrectable)
  let s1 := (s.pane p).errs.foldl (fun s e => if e.1 % 4 = seg then rowRead p (e.1 / 1024) true false (e.1 % 1024, e.2) s else s) s
  s1.setPane p { s1.pane p with rebuilding := true, rebuildBad := (s1.pane p).rebuildBad || bad }

/-- The column that a pane steers at an edge by itself (R126): the first that waits, with its physical number. -/
def autoSteer (s : State) (p : Nat) : Option (Nat × Nat × Nat) :=
  (s.pane p).waitCols.head?.bind (fun phys => (logCol s p phys).map (fun c => (phys, c)))

/-- What an array-side edge does to a pane before the steering changes (R125, R126): the counts restart, and the rows of every segment whose
steering will change are read through the old steering: those that software changes, and the one whose column waits. -/
def steerBefore (p : Nat) (changed : List Nat) (s : State) : State :=
  let s1 := s.setPane p { s.pane p with colCount := [] }
  let own := match autoSteer s1 p with
    | some (_, seg, _) => if spareFree s1 p seg then [seg] else []
    | none => []
  (own ++ changed.filter (fun k => !own.contains k)).foldl (rebuildSegment p) s1

/-- The pane's own steering at an edge (R126): it is decided on the registers as they stood before software's writes of this edge, and takes
precedence over them (R40). -/
def steerAuto (p : Nat) (before s : State) : State :=
  let x := s.pane p
  match x.waitCols with
  | [] => s
  | phys :: rest =>
    let s1 := s.setPane p { x with waitCols := rest }
    match logCol before p phys with
    | some (seg, col) =>
      if !spareFree before p seg then noSpare p s1
      else
        let s2 := if !before.flag (R.PANE_STEER_A_EN.nth seg) p then
            (s1.put (R.PANE_STEER_A_EN.nth seg) p 1).put (R.PANE_STEER_A_COL.nth seg) p col
          else (s1.put (R.PANE_STEER_B_EN.nth seg) p 1).put (R.PANE_STEER_B_COL.nth seg) p col
        s2.put R.PANE_COL_FAULT_STEERED p 1
    | none => s1

/-- A rebuild ends (R125, R127). -/
def rebuildDone (p : Nat) (s : State) : State :=
  let x := s.pane p
  if x.rebuilding ∧ s.domainOn (14 + p) then
    let s1 := (s.setPane p { x with rebuilding := false, rebuildBad := false }).raise 0x01 p 3
    if x.rebuildBad then noSpare p s1 else s1
  else s

/-- A write of PANE_BIST_CTL (R128). -/
def bistWrite (w : WriteReq) (s : State) : Written :=
  if bitOf w.value.toNat 0 then
    if s.pcState w.n = pcStandby then
      (((s.put R.PANE_BIST_CTL_START w.n 1).put R.PANE_BIST_STAT_BUSY w.n 1), rspOk)
    else refuseWrite w rspRefused 0x0102 s
  else (s, rspOk)

/-- A failing column of the self-test (R128): steered at once with AUTO and a free spare; a spare out of use and a column already replaced
take no part; any other is what R127 says. -/
def bistColumn (p : Nat) (s : State) (c : Nat) : State :=
  match logCol s p c with
  | some (seg, col) => if s.flag R.PANE_STEER_CTL_AUTO p ∧ spareFree s p seg then steerColumn p seg col s else noSpare p s
  | none => if c < 264 then s else noSpare p s

/-- The self-test ends with the failing physical columns (R128): memory 0, columns steered in ascending order. -/
def bistDone (p : Nat) (found : List Nat) (s : State) : State :=
  if s.flag R.PANE_BIST_STAT_BUSY p ∧ s.domainOn (14 + p) then
    let cols := (List.range 312).filter found.contains
    let x := s.pane p
    let s1 := s.setPane p { x with planes := [], errs := [] }
    let stat := bit (!cols.isEmpty) * 4 + bit cols.isEmpty * 2 + min cols.length 255 * 2 ^ 8 + (cols.foldl min 0x1FF) % 0x200 * 2 ^ 16
    let s2 := (s1.setReg 0x01 p 0x074 (word (if cols.isEmpty then 2 else stat))).put R.PANE_BIST_CTL_START p 0
    let s3 := cols.foldl (bistColumn p) s2
    { s3.raise 0x01 p 8 with bistFresh := tblSet false s3.bistFresh p cols.isEmpty }
  else s

/-- PANE_STEER_s: a value that names one column for both spares is refused (R125). -/
def paneBad (off v : Nat) : Option Nat :=
  if 0x048 ≤ off ∧ off ≤ 0x054 ∧ bitOf v 7 ∧ bitOf v 15 ∧ bitsAt v 0 6 = bitsAt v 8 6 then some 0x0101 else none

/-- The PANE page's registers with a rule of their own. -/
def paneSpecial (w : WriteReq) (s : State) : Option Written :=
  if w.off = 0x070 then some (bistWrite w s) else none

/-- SOFT_RESET of a PANE page (R105, R130): initialisation runs, X, Y, C, F and hampers are cleared, K is 1. -/
def paneReset (p : Nat) (s : State) : State :=
  ((flushHampers p s).setPane p { Pane.idle with planes := (s.pane p).planes, errs := (s.pane p).errs, initRunning := true }).resetPage
    0x01 p (fun off => off != 0x040 && off != 0x024 && off != 0x008)

/-- The edge configuration and edge registers of a page, as a macro-op that begins takes them (R114). -/
def edgePage (s : State) (p : Nat) : Nat × Tbl Word :=
  ((s.getReg 0x01 p 0x044).toNat % 16,
   (List.range 32).foldl (fun t k => tblSet 0 t k (s.getReg 0x01 p (0x100 + 0x20 * (k / 8) + 4 * (k % 8)))) [])

/-- An offset of the edge configuration or of an edge register. -/
def isEdgeOff (off : Nat) : Bool := off == 0x044 || decide (0x100 ≤ off ∧ off < 0x180)

/-! ### The commands -/

/-- PANE_INIT_DONE (R105). -/
def execPaneInitDone (p : Nat) (s : State) : Result := need (p < 16) (done (paneInitDone p s))

/-- PANE_SCRUB (R122). -/
def execPaneScrub (p : Nat) (s : State) : Result := need (p < 16) (done (paneScrub p s))

/-- STEER_REBUILD_DONE (R125). -/
def execSteerRebuildDone (p : Nat) (s : State) : Result := need (p < 16) (done (rebuildDone p s))

/-- PANE_BIST_DONE (R128). -/
def execPaneBistDone (p : Nat) (cols : List Nat) (s : State) : Result := need (p < 16) (done (bistDone p cols s))

end Sys2Proof.Machine
end

