-- ==== Sys2Proof/Machine/Macro.lean ====
section
/-!
DEFINITION. Macro-ops in a pane: the macro-op word (R155), what a macro-op finds and what governs its PE-ops (R114), its reduction (R145),
and the results of the base image's macro-ops on PE memory (R239 to R242, R244 to R251, R256).
-/

namespace Sys2Proof.Machine

/-! ### The macro-op word (Table 07-2) -/

def mopD (m : BitVec 64) : Nat := bitsAt m.toNat 53 11
def mopB (m : BitVec 64) : Nat := bitsAt m.toNat 42 11
def mopA (m : BitVec 64) : Nat := bitsAt m.toNat 31 11
def mopParam (m : BitVec 64) : Nat := bitsAt m.toNat 23 8
def mopWidth (m : BitVec 64) : Nat := bitsAt m.toNat 15 8
def mopReserved (m : BitVec 64) : Nat := bitsAt m.toNat 10 5
def mopOp (m : BitVec 64) : Nat := bitsAt m.toNat 0 10

/-! ### The macro-ops whose PE-ops have not all executed -/

/-- The word of a dispatched macro-op. -/
def PaneCtl.runWord (c : PaneCtl) (seq : Nat) : BitVec 64 :=
  match c.runs.find? (fun r => r.seq == seq) with
  | some r => r.mop
  | none => 0

/-- The first PE-op of a macro-op meets the pane (R114): the macro-op's edge configuration comes into force, and what it finds is noted. -/
def enterRun (p seq : Nat) (s : State) : State :=
  let c := s.ctl p
  let x := s.pane p
  match c.runs.find? (fun r => r.seq == seq && r.start.isNone) with
  | none => s
  | some r =>
    let mark := fun (q : MacroRun) => if q.seq = seq then { q with start := some ⟨x.planes, x.errs, x.c, x.k⟩ } else q
    (s.setCtl p { c with runs := c.runs.map mark }).setPane p { x with edgeCfg := r.edgeCfg, edges := r.edges }

/-- Every PE-op of a controller's macro-op has executed and the controller is past it. -/
def PaneCtl.pastRun (c : PaneCtl) (seq : Nat) : Bool := (c.dispatch || seq != c.seq) && c.inflight.all (fun i => i.seq != seq)

/-! ### PE-ops and reductions (R108, R109, R145) -/

/-- The number of bits set of a plane, n bits from the bottom. -/
def popCount : Nat → Nat → Nat
  | 0, _ => 0
  | n + 1, v => v % 2 + popCount n (v / 2)

/-- The reduction input of a PE-op enters the pane's accumulation (R145). -/
def reduceAdd (p seq : Nat) (red : Plane) (s : State) : State :=
  let c := s.ctl p
  let old := match c.red with
    | some r => r.gor
    | none => false
  s.setCtl p { c with red := some ⟨seq, mopOp (c.runWord seq), old || red != 0, popCount 65536 red.toNat⟩ }

/-- One PE-op in every PE of a pane (R108), its reads taken from the state before the cycle. -/
def peOp (before : State) (p : Nat) (i : Issued) (s : State) : State :=
  let o := i.op
  let x := before.pane p
  if opBSrc o = 7 ∧ !before.isTwin p then
    ((s.setPane p { s.pane p with active := (s.pane p).active + 1 }).raise 0x01 p 6).report 0x01 p 6 clsHold
  else
    let a := if opASrc o then x.y else readPlane x (opA o)
    let b := operandB before p o
    let r := tableFn (opTtR o) a b x.c
    let cNew := tableFn (opTtC o) a b x.c
    let k := x.k
    let keep := fun (on : Bool) (old new : Plane) => if on then (old &&& ~~~k) ||| (new &&& k) else old
    let s1 := if opASrc o then s else addrRead p (opA o) false true s
    let s2 := if opBSrc o = 0 then addrRead p (opB o) false true s1 else s1
    let s2a := if opPop o || opBSrc o == 5 then headParity p s2 else s2
    let s3 := if opDMem o then addrRead p (opD o) true true s2a else s2a
    let y := s3.pane p
    let y1 := if opDMem o then writePlane y (opD o) r k else y
    let y2 := { y1 with
      x := keep (opLdX o) x.x r
      y := keep (opLdY o) x.y r
      c := keep (opLdC o) x.c cNew
      f := keep (opLdF o) x.f (x.f ||| r)
      k := match opKMode o with
        | 1 => r
        | 2 => k &&& r
        | 3 => BitVec.allOnes 65536
        | _ => k
      inb := if opPop o then popAll x.inb else x.inb
      outb := if opPush o then pushAll r x.outb else x.outb
      inOcc := if opPop o then popOcc x.inOcc else x.inOcc
      outOcc := if opPush o then pushOcc x.outOcc else x.outOcc
      active := y.active + 1 }
    let s4 := s3.setPane p y2
    let s5 := if opPop o then hampCount p 1 1 s4 else s4
    let s6 := if opPush o then hampCount p 3 1 s5 else s5
    if opRed o then reduceAdd p i.seq (r &&& k) s6 else s6

/-- A difference between the panes of a twin pair (R116, R148). -/
def twinMismatch (p : Nat) (s : State) : State :=
  let q := twinOf p
  let mark := fun (k : Nat) (s : State) => (s.raise 0x01 k 5).count R.PANE_TWIN_STAT_MISMATCHES k 1
  (mark q (mark p s)).report 0x01 p 5 clsHold

/-- The reductions of a gang that can close (R145): the PE-ops of the macro-op have all executed and the controller is past it.
Each result goes to the gang's base pane; a twin pair compares (R116, R148). -/
def closeReductions (base : Nat) (s : State) : State :=
  let gang := s.paneGang base
  let ready := gang.all (fun p =>
    let c := s.ctl p
    match c.red with
    | some r => c.pastRun r.seq
    | none => false)
  if !ready then s
  else
    let accs := gang.filterMap (fun p => (s.ctl p).red)
    let s1 := gang.foldl (fun s p => s.setCtl p { s.ctl p with red := none }) s
    let c := s1.ctl base
    match s.isTwin base, accs with
    | true, r0 :: r1 :: _ =>
      let s2 := s1.setCtl base { c with results := c.results ++ [(r0.gor, r0.tally)] }
      let s3 := gang.foldl (fun s p => s.countWrap R.PANE_TWIN_STAT_COMPARES p 1) s2
      if r0.gor != r1.gor || r0.tally != r1.tally || (r0.op == 0x00F && (r0.gor || r1.gor)) then twinMismatch base s3 else s3
    | _, _ => s1.setCtl base { c with results := c.results ++
        [(accs.any (fun r => r.gor), accs.foldl (fun n r => n + r.tally) 0)] }

/-! ### Integer and decimal results, one PE (R241, R242, Tables 07-10 and 10-2) -/

/-- What a macro-op leaves in a PE: the destination field, DIV's remainder, C and K where it sets them, the flags that XF collects. -/
structure PeOut where
  d : Nat := 0
  rem : Option Nat := none
  c : Option Bool := none
  k : Option Bool := none
  flags : Nat := 0
  deriving DecidableEq, Repr

/-- The number that an n-bit operand stands for: signed with PARAM[0]. -/
def macroInt (sgn : Bool) (n v : Nat) : Int := if sgn then signedOf n v else ((v % 2 ^ n : Nat) : Int)

/-- DIV (Table 10-2): toward 0; by 0 all ones and the dividend. -/
def macroDiv (sgn : Bool) (n a b : Nat) : PeOut :=
  if b = 0 then { d := 2 ^ n - 1, rem := some a }
  else
    let x := macroInt sgn n a
    let y := macroInt sgn n b
    { d := wrapInt n (x.tdiv y), rem := some (wrapInt n (x.tmod y)) }

/-- BCD_ADD and BCD_SUB (R242): as DADD and DSUB with d digits and no carry-in; an invalid digit gives A, C 0 and the sticky bit. -/
def macroDecimal (sub : Bool) (d a b : Nat) : PeOut :=
  match bcdValue d a, bcdValue d b with
  | some x, some y =>
    let t : Int := if sub then (x : Int) - y else (x : Int) + y
    { d := bcdDigits d (t % (10 ^ d : Nat)).toNat, c := some (if sub then decide (0 ≤ t) else decide ((10 ^ d : Nat) ≤ t)) }
  | _, _ => { d := a, c := some false, flags := 1 }

/-- LOGIC (Table 07-10): the PARAM table's function of A, B and C, bit by bit. -/
def macroLogic (param n a b : Nat) (c : Bool) : Nat := maskOf n (fun k => bitOf param (4 * bit (bitOf a k) + 2 * bit (bitOf b k) + bit c))

/-- The macro-ops of Table 07-10 on integers and digits, in one PE. -/
def macroInteger (op n param a b : Nat) (c k : Bool) : Option PeOut :=
  let sgn := bitOf param 0
  match op with
  | 0x001 => some { d := macroLogic param n a b c }
  | 0x002 => some { d := a }
  | 0x004 => some { d := (a + b) % 2 ^ n, c := some (decide (2 ^ n ≤ a + b)) }
  | 0x005 => some { d := (a + 2 ^ n - b) % 2 ^ n, c := some (decide (b ≤ a)) }
  | 0x006 => some { k := some (k && a == b) }
  | 0x007 => some { k := some (k && decide (macroInt sgn n a < macroInt sgn n b)) }
  | 0x008 => some { d := a }
  | 0x009 => some { d := a }
  | 0x00A => some { d := a }
  | 0x00B => some { d := a }
  | 0x00E => some { k := some (if n = 1 then a == 1 else k && a != 0) }
  | 0x010 => some { d := wrapInt (2 * n) (macroInt sgn n a * macroInt sgn n b) }
  | 0x011 => some (macroDiv sgn n a b)
  | 0x018 => some (macroDecimal false n a b)
  | 0x019 => some (macroDecimal true n a b)
  | _ => none

/-! ### Floating-point results, one PE (R251, R256): the sash FPU's operations -/

/-- ±(A × B): the product's sign, or a NaN's, flipped before the one rounding (R251). -/
def fpMulNeg (f : FpFmt) (rm : Nat) (neg : Bool) (a b : Nat) : FpRes :=
  if !neg then fpMul f rm a b
  else match nanOf f [a, b] with
    | some r => (flip f r.1, r.2)
    | none => if (fpMul f rm a b).2 = fNV then invalid f else fpMul f rm (flip f a) b

/-- The format of a floating-point macro-op. -/
def macroFmt (op : Nat) : FpFmt := if op < 0x028 then fmtH else if op < 0x030 then fmtS else fmtD

/-- The floating-point macro-ops of Table 10-9 in one PE: the result and the flags. The addend of an FMA is D. -/
def macroFloat (op param a b d : Nat) : Option FpRes :=
  let f := macroFmt op
  let rm := param % 4
  let negP := bitOf param 2
  match op with
  | 0x020 => some (fpAdd f rm negP a b)
  | 0x028 => some (fpAdd f rm negP a b)
  | 0x030 => some (fpAdd f rm negP a b)
  | 0x021 => some (fpMulNeg f rm negP a b)
  | 0x029 => some (fpMulNeg f rm negP a b)
  | 0x031 => some (fpMulNeg f rm negP a b)
  | 0x022 => some (fpFma f rm negP (bitOf param 3) a b d)
  | 0x02A => some (fpFma f rm negP (bitOf param 3) a b d)
  | 0x032 => some (fpFma f rm negP (bitOf param 3) a b d)
  | 0x02B => some (fpDiv f rm a b)
  | 0x02C => some (fpSqrt f rm a)
  | _ => none

/-! ### Fields of a macro-op (R239, R240) -/

/-- The operand width of a macro-op: n bits, 4 bits a digit, the format's width. -/
def macroWidth (op n : Nat) : Nat := if 0x020 ≤ op then (macroFmt op).w else if op = 0x018 ∨ op = 0x019 then 4 * n else n

/-- The destination's width; 0 for a macro-op that writes K alone. -/
def macroDest (op n : Nat) : Nat :=
  if op = 0x006 ∨ op = 0x007 ∨ op = 0x00E then 0 else if op = 0x010 then 2 * n else macroWidth op n

/-- A macro-op reads operand B. -/
def macroUsesB (op : Nat) : Bool := !(op == 0x002 || (decide (0x008 ≤ op ∧ op ≤ 0x00E)) || op == 0x02C)

/-- The destination may coincide with operand A (R240). -/
def macroInPlace (op : Nat) : Bool :=
  [0x001, 0x002, 0x004, 0x005, 0x008, 0x009, 0x00A, 0x00B, 0x018, 0x019, 0x020, 0x021, 0x028, 0x029, 0x030, 0x031].contains op

/-- The addresses of a field, modulo 2,048. -/
def fieldAddrs (base w : Nat) : List Nat := (List.range w).map (fun k => (base + k) % 2048)

/-- The addresses at which fields of a macro-op overlap as software must not let them (R240). -/
def macroOverlap (m : BitVec 64) : List Nat :=
  let op := mopOp m
  let w := macroWidth op (mopWidth m)
  let a := fieldAddrs (mopA m) w
  let b := if macroUsesB op then fieldAddrs (mopB m) w else []
  let d := if macroInPlace op ∧ mopD m = mopA m then [] else fieldAddrs (mopD m) (macroDest op (mopWidth m))
  (a.filter (fun x => b.contains x || d.contains x)) ++ b.filter d.contains

/-- A number whose bit k is the PE's bit of the k-th plane. -/
def planesVal : List Plane → Nat → Nat
  | [], _ => 0
  | p :: t, pe => bit (p.getLsbD pe) + 2 * planesVal t pe

/-- The plane of a function of the PEs. -/
def planeFn (f : Nat → Bool) : Plane := BitVec.ofNat 65536 (maskOf 65536 f)

/-- The planes of a field as a macro-op finds them. -/
def startPlanes (m : MacroStart) (base w : Nat) : List Plane := (fieldAddrs base w).map (planeAt m.planes m.errs)

/-- A field written under a mask (R241): bit k of each PE's value at the k-th address. -/
def writeField (x : Pane) (base w : Nat) (v : Nat → Nat) (mask : Plane) : Pane :=
  (List.range w).foldl (fun x k => writePlane x ((base + k) % 2048) (planeFn (fun pe => bitOf (v pe) k)) mask) x

/-- Flags ORed into memory from an address on (R242, R251). -/
def collectFlags (x : Pane) (base n : Nat) (v : Nat → Nat) (mask : Plane) : Pane :=
  (List.range n).foldl (fun x k =>
    writePlane x ((base + k) % 2048) (BitVec.allOnes 65536) (mask &&& planeFn (fun pe => bitOf (v pe) k))) x

/-- Addresses that end with unspecified bits (R240): free values. -/
def freePlanes (p : Nat) (mask : Plane) : List Nat → State → State
  | [], s => s
  | a :: t, s =>
    let (v, s1) := s.draw
    freePlanes p mask t (s1.setPane p (writePlane (s1.pane p) a (BitVec.ofNat 65536 v) mask))

/-- What a macro-op found in a pane: as noted when its first PE-op executed, else as the pane stands. -/
def runStart (s : State) (p : Nat) (r : MacroRun) : MacroStart :=
  let x := s.pane p
  r.start.getD ⟨x.planes, x.errs, x.c, x.k⟩

/-! ### The results of the base image (R241, R242, R251) -/

/-- Operand A of every PE: the neighbour's field for a shift (Table 07-10). -/
def macroOperandA (s : State) (gang : List Nat) (p : Nat) (r : MacroRun) (w : Nat) : List Plane :=
  let op := mopOp r.mop
  if 0x008 ≤ op ∧ op ≤ 0x00B then
    (fieldAddrs (mopA r.mop) w).map (fun a =>
      neighbourX (gang.foldl (fun t q =>
        let m := runStart s q r
        t.setPane q { s.pane q with x := planeAt m.planes m.errs a, edgeCfg := r.edgeCfg, edges := r.edges }) s) p (op - 0x008))
  else startPlanes (runStart s p r) (mopA r.mop) w

/-- What a macro-op leaves in one PE: none for one whose effects are those of its PE-ops alone. -/
def macroOut (m : BitVec 64) (a b d : Nat) (c k : Bool) : Option PeOut :=
  match macroFloat (mopOp m) (mopParam m) a b d with
  | some r => some { d := r.1, flags := r.2 }
  | none => macroInteger (mopOp m) (mopWidth m) (mopParam m) a b c k

/-- A base macro-op's result in one pane: the fields under K, C, K, and with XF the flags; where fields overlap, free values in what is
written and at the overlapping addresses. -/
def macroResult (before : State) (gang : List Nat) (p : Nat) (r : MacroRun) (s : State) : State :=
  let m := r.mop
  let op := mopOp m
  let n := mopWidth m
  let st := runStart before p r
  let w := macroWidth op n
  let pa := macroOperandA before gang p r w
  let pb := if macroUsesB op then startPlanes st (mopB m) w else []
  let pd := startPlanes st (mopD m) w
  let out := fun (pe : Nat) =>
    (macroOut m (planesVal pa pe) (planesVal pb pe) (planesVal pd pe) (st.c.getLsbD pe) (st.k.getLsbD pe)).getD {}
  let dw := macroDest op n
  let x := s.pane p
  let k := st.k
  let keep := fun (old new : Plane) => (old &&& ~~~k) ||| (new &&& k)
  let x1 := { writeField x (mopD m) dw (fun pe => (out pe).d) k with
    c := if (out 0).c.isSome then keep st.c (planeFn (fun pe => (out pe).c.getD false)) else x.c
    k := if (out 0).k.isSome then planeFn (fun pe => (out pe).k.getD false) else x.k }
  let x2 := if op = 0x011 then writeField x1 (mopA m) w (fun pe => (out pe).rem.getD 0) k else x1
  let x3 := if bitOf (mopParam m) 4 ∧ 0x018 ≤ op then
      collectFlags x2 (mopD m + dw) (if op < 0x020 then 1 else 5) (fun pe => (out pe).flags) k else x2
  let s1 := s.setPane p x3
  match macroOverlap m with
  | [] => s1
  | l => freePlanes p k ((fieldAddrs (mopD m) dw ++ (if op = 0x011 then fieldAddrs (mopA m) w else []) ++ l).eraseDups) s1

/-- A pane's controller holds a base image of version 1.0 (R169). -/
def State.baseImage (s : State) (p : Nat) : Bool := (s.getReg 0x02 p 0x068).toNat / 2 ^ 16 == 0x0100

/-- The gang's oldest macro-op, when all its PE-ops have executed in every pane, leaves its result: that of the base image, whose
microwords the spec does not list, in the panes that hold it, unless it was abandoned. -/
def settleRun (base : Nat) (s : State) : State :=
  let gang := s.paneGang base
  let past := fun (p : Nat) => match (s.ctl p).runs with
    | r :: _ => (s.ctl p).pastRun r.seq
    | [] => true
  if gang.all (fun p => (s.ctl p).runs == []) ∨ !gang.all past then s
  else
    let acts := fun (p : Nat) => match (s.ctl p).runs.head? with
      | some q => if !q.cut ∧ s.baseImage p ∧ (macroOut q.mop 0 0 0 false false).isSome then some q else none
      | none => none
    let s1 := gang.foldl (fun t p => match acts p with
      | some q => macroResult s gang p q t
      | none => t) s
    gang.foldl (fun t p => t.setCtl p { t.ctl p with runs := (t.ctl p).runs.drop 1 }) s1
/-- Every macro-op that has run to its end leaves its result, in order. -/
def settleRuns (base : Nat) : Nat → State → State
  | 0, s => s
  | n + 1, s =>
    let t := settleRun base s
    if (t.ctl base).runs.length < (s.ctl base).runs.length then settleRuns base n t else s

end Sys2Proof.Machine
end

