-- ==== Sys2Proof/Machine/Pctl.lean ====
section
/-!
DEFINITION. Pane controllers (R153 to R176): macro queue, dispatch, microwords, exact cost, PE-ops in the pipeline, tasks, the PE-plane
window, reduction results.
-/

namespace Sys2Proof.Machine

/-! ### The op table (Table 07-3) -/

def opEntryC2 (e : BitVec 64) : Nat := bitsAt e.toNat 32 8
def opEntryC1 (e : BitVec 64) : Nat := bitsAt e.toNat 24 8
def opEntryC0 (e : BitVec 64) : Nat := bitsAt e.toNat 12 12
def opEntryWmax (e : BitVec 64) : Nat := bitsAt e.toNat 48 8
def opEntryWmin (e : BitVec 64) : Nat := bitsAt e.toNat 40 8
def opEntryEnergy (e : BitVec 64) : Nat := bitsAt e.toNat 56 8
def opEntryAddr (e : BitVec 64) : Nat := bitsAt e.toNat 0 12

/-- larder_cost of an entry at a width (R159). -/
def entryCost (e : BitVec 64) (w : Nat) : Nat := opEntryC2 e * w * w + opEntryC1 e * w + opEntryC0 e

/-- An entry lists its OP for a width (R159). -/
def listed (e : BitVec 64) (w : Nat) : Bool :=
  opEntryAddr e != 0 && decide (opEntryWmin e ≤ w) && decide (w ≤ opEntryWmax e)

abbrev opSetcLo : Nat := 0x1FC
abbrev opSetcHi : Nat := 0x1FD
abbrev opTaskEnd : Nat := 0x1FF

/-! ### Faults inside the controller -/

/-- PCTL_MACRO_FAULT. -/
def macroFault (p kind upc evt : Nat) (s : State) : State :=
  ((s.setReg 0x02 p 0x058 (word (kind * 2 ^ 30 + mopOp (s.ctl p).mop * 2 ^ 12 + upc))).raise 0x02 p evt).report 0x02 p evt clsHold

/-! ### Queue (R155, R156) -/

/-- The controllers of a gang are clocked (R35): every pane's domain is ON. -/
def State.gangOn (s : State) (base : Nat) : Bool := (s.paneGang base).all (fun p => s.domainOn (14 + p))

/-- A controller that expands macro-ops: in RUN, or HALTED, where it goes on (R521). -/
def State.expands (s : State) (p : Nat) : Bool := s.pcState p == pcRun || s.pcState p == pcHalted

/-- No pane of a gang is being initialised: until then it accepts no macro-op (R105). -/
def State.gangInit (s : State) (base : Nat) : Bool := (s.paneGang base).any (fun p => (s.pane p).initRunning)

/-- A macro-op enters every queue of the gang, or is discarded when its TSN is not that of the running task. -/
def macroEnqueue (base : Nat) (s : State) : State :=
  match tblGet [] s.macroFlight base with
  | [] => s
  | (m, tsn) :: rest =>
    if !s.gangOn base || s.gangInit base then s
    else
      let s1 := { s with macroFlight := tblSet [] s.macroFlight base rest }
      (s1.paneGang base).foldl (fun t p =>
        if s1.taskNow base ≠ 0 ∧ tsn = s1.gangTsn base then
          t.setCtl p { t.ctl p with queue := (t.ctl p).queue ++ [m] }
        else t.count R.PCTL_DISCARDS p 1) s1

/-! ### What follows each cycle of a gang's controllers -/

/-- The responses of edge writes that a controller at a macro-op boundary has taken (R114). -/
def edgeAnswers (p : Nat) (s : State) : State :=
  let c := s.ctl p
  if !c.dispatch then s
  else c.edgeWait.foldl (fun t r => match r with
    | some x => sendResponse x ⟨rspOk, []⟩ t
    | none => t.reply rspOk []) (s.setCtl p { c with edgeWait := [] })

/-- After a cycle: macro-ops whose PE-ops have all executed leave their results, reductions close, edge writes are answered at a boundary,
and the copies of every occupancy are compared (R149). -/
def closeCycle (base : Nat) (s : State) : State :=
  let s1 := closeReductions base (settleRuns base (s.ctl base).runs.length s)
  (s1.paneGang base).foldl (fun t p => hampCompare p (edgeAnswers p t)) s1

/-! ### Dispatch (R157, R164) -/

/-- The op entry of a macro-op in a controller's op table. -/
def PaneCtl.entry (c : PaneCtl) (m : BitVec 64) : BitVec 64 := tblGet 0 c.opTable (mopOp m)

/-- The macro-op at the head of a controller's queue is not listed for its width, or has a reserved field that is not 0 (R160). -/
def PaneCtl.headBad (c : PaneCtl) : Bool :=
  match c.queue with
  | [] => false
  | m :: _ => !listed (c.entry m) (mopWidth m) || mopReserved m != 0

/-- The dispatch cycle begins: the head leaves the queue, and what the page's edge registers hold will govern its PE-ops (R114); with `bad` it is
abandoned at once (R160). -/
def takeHead (bad : Bool) (p : Nat) (s : State) : State :=
  let c := s.ctl p
  match c.queue with
  | [] => s
  | m :: rest =>
    let e := edgePage s p
    s.setCtl p { c with
      queue := rest, mop := m, seq := c.seq + 1, macrosTick := satAdd c.macrosTick 1 (2 ^ 32 - 1)
      runs := c.runs ++ [⟨c.seq + 1, m, e.1, e.2, none, bad⟩] }

/-- A controller after the dispatch of a listed macro-op that it has taken (R157, R164, R167). -/
def PaneCtl.dispatched (c : PaneCtl) : PaneCtl :=
  let m := c.mop
  let setc := mopOp m == opSetcLo || mopOp m == opSetcHi
  let e := c.entry m
  let c1 := { c with
    a := if setc then c.a else mopA m
    b := if setc then c.b else mopB m
    d := if setc then c.d else mopD m
    stepA := 1, stepB := 1, stepD := 1
    lc0 := mopWidth m, lc0r := mopWidth m, lc1 := 0, lc1r := 0, first := true, waitLeft := 0
    remaining := entryCost e (mopWidth m) - 1 }
  if mopOp m = opSetcLo then { c1 with const := BitVec.ofNat 64 (setBits c.const.toNat 0 32 (m.toNat / 2 ^ 32)) }
  else if mopOp m = opSetcHi then { c1 with const := BitVec.ofNat 64 (setBits c.const.toNat 32 32 (m.toNat / 2 ^ 32)) }
  else if c1.remaining = 0 then c1
  else { c1 with dispatch := false, upc := opEntryAddr e }

/-- The controllers of a gang that runs, no pane of it being initialised, are in their dispatch phase with a macro-op other than TASK_END
at the head. -/
def canDispatch (s : State) (base : Nat) : Bool :=
  s.gangOn base && !s.gangInit base && (s.paneGang base).all (fun p => s.expands p && (s.ctl p).dispatch &&
    (match (s.ctl p).queue with
      | m :: _ => mopOp m != opTaskEnd
      | [] => false))

/-- The panes of a gang whose controllers find their head unlisted or malformed (R160). -/
def headFaults (s : State) (base : Nat) : List Nat := (s.paneGang base).filter (fun p => (s.ctl p).headBad)

/-- Their faults recorded. -/
def recordHeads (bad : List Nat) (s : State) : State := bad.foldl (fun t p => macroFault p 1 0 2 t) s

/-- The gang dispatches its next macro-op: every controller takes its head in the same cycle (R115). -/
def dispatchGang (base : Nat) (s : State) : State :=
  if canDispatch s base then
    let gang := s.paneGang base
    let bad := headFaults s base
    let s1 := gang.foldl (fun t p => takeHead (bad != []) p t) s
    closeCycle base (if bad = [] then gang.foldl (fun t p => t.setCtl p (t.ctl p).dispatched) s1
      else cutTask base false (recordHeads bad s1))
  else s

/-! ### Microwords (R161 to R163) -/

/-- The fields of a microword. -/
def muClass (u : Word) : Nat := bitsAt u.toNat 28 4
def muNext (u : Word) : Nat := bitsAt u.toNat 16 12
def muOperand (u : Word) : Nat := bitsAt u.toNat 0 16

/-- The microword a controller executes. -/
def muNow (c : PaneCtl) : Word := tblGet 0 c.larder c.upc

/-- A truth table whose entries with c = 1 take the value of the entry with c = 0 (R162). -/
def ignoreC (t : Nat) : Nat :=
  (List.range 4).foldl (fun n k => if bitOf t (2 * k) then n + 3 * 4 ^ k else n) 0

/-- The PE-op that a PE-class microword assembles (R162, Table 07-5). -/
def assemble (c : PaneCtl) (o : Nat) : BitVec 64 :=
  let first := bitOf o 0 && c.first
  let ttR := if first then ignoreC c.ttR else c.ttR
  let ttC := if first then ignoreC c.ttC else c.ttC
  BitVec.ofNat 64 (ttR * 2 ^ 56 + ttC * 2 ^ 48 + c.a * 2 ^ 37 + c.b * 2 ^ 26 + c.d * 2 ^ 15 + bitsAt o 13 3 * 2 ^ 12 +
    bitsAt o 12 1 * 2 ^ 11 + bit (bitOf o 11 && bitOf c.const.toNat 0) * 2 ^ 10 + bitsAt o 10 1 * 2 ^ 9 +
    bitsAt o 9 1 * 2 ^ 8 + bitsAt o 8 1 * 2 ^ 7 + bitsAt o 7 1 * 2 ^ 6 + bitsAt o 5 2 * 2 ^ 4 + bitsAt o 4 1 * 2 ^ 3 +
    bitsAt o 3 1 * 2 ^ 2 + bitsAt o 2 1 * 2 + bitsAt o 1 1)

/-- The PE-op issued: the counters step modulo 2,048, the constant register rotates when CONST is 1. -/
def issueOp (c : PaneCtl) (o : Nat) : PaneCtl :=
  { c with
    inflight := c.inflight ++ [⟨assemble c o, c.seq⟩]
    a := (c.a + c.stepA) % 2048, b := (c.b + c.stepB) % 2048, d := (c.d + c.stepD) % 2048
    const := if bitOf o 11 then c.const.rotateRight 1 else c.const
    first := false }

/-- A controller's hampers let it issue a PE-op (R133). -/
def mayIssue (s : State) (p : Nat) (o : BitVec 64) : Bool :=
  let c := s.ctl p
  let x := s.pane p
  let pops := (c.inflight.filter (fun i => opPop i.op)).length
  let pushes := (c.inflight.filter (fun i => opPush i.op)).length
  (!(opPop o || opBSrc o == 5) || allMoreThan x.inb pops) && (!opPush o || allFewerThan x.outb (16 - pushes))

/-- The microword completed: the next address, and the next microword's first PE-op is a first one again. -/
def advance (c : PaneCtl) (next : Nat) : PaneCtl := { c with upc := next, first := true }

/-- A cycle of the macro-op is used; at the cost with nothing left to run the controller dispatches again (R164). -/
def useCycle (c : PaneCtl) : PaneCtl :=
  let r := c.remaining - 1
  if r = 0 ∧ c.upc = 0 then { c with remaining := 0, dispatch := true } else { c with remaining := r }

/-- A controller is clocked and in execution with cycles left of its cost. -/
def executing (s : State) (p : Nat) : Bool :=
  let c := s.ctl p
  s.domainOn (14 + p) && s.expands p && !c.dispatch && c.upc != 0 && c.remaining != 0

/-- One PE-op issued by every controller of the gang, each from its own microword, if the hampers of all allow it (R115, R133). The
Boolean says that it was. `last` says whether the microword completes with it. -/
def issueGang (base : Nat) (last : PaneCtl → PaneCtl) (s : State) : State × Bool :=
  let gang := s.paneGang base
  if gang.all (fun p => executing s p && mayIssue s p (assemble (s.ctl p) (muOperand (muNow (s.ctl p))))) then
    (gang.foldl (fun t p => t.setCtl p (useCycle (last (issueOp (s.ctl p) (muOperand (muNow (s.ctl p))))))) s, true)
  else (s, false)

/-- The gang stalls (R133): the PE-op of some controller's microword would meet an empty or full hamper. -/
def stalled (s : State) (base : Nat) : Bool :=
  (s.paneGang base).any (fun p =>
    let c := s.ctl p
    let u := muNow c
    executing s p && (muClass u == 0 || (muClass u == 1 && c.lc0 != 0) || (muClass u == 2 && c.lc1 != 0)) &&
      !mayIssue s p (assemble c (muOperand u)))

/-- The oldest PE-op in flight executes in every pane of the gang (R110, R115); a stall holds it (R133). -/
def executeOp (base : Nat) (s : State) : State :=
  let gang := s.paneGang base
  if s.gangOn base ∧ gang.all (fun p => (s.ctl p).inflight != []) ∧ !stalled s base then
    let s0 := gang.foldl (fun t p => match (s.ctl p).inflight with
      | i :: _ => enterRun p i.seq t
      | [] => t) s
    let s1 := gang.foldl (fun t p => match (s.ctl p).inflight with
      | i :: rest => peOp s0 p i (t.setCtl p { t.ctl p with inflight := rest })
      | [] => t) s0
    closeCycle base s1
  else s

/-- A microword of class PE (Table 07-4). -/
def microPe (base : Nat) (s : State) : State :=
  (issueGang base (fun c => advance c (muNext (tblGet 0 c.larder c.upc))) s).1

/-- After one PE-op of a repeated microword: its loop counter one down; at 0 it is reloaded and the microword is complete. -/
def repeatStep (one : Bool) (c : PaneCtl) : PaneCtl :=
  let n := (if one then c.lc1 else c.lc0) - 1
  if n = 0 then
    advance (if one then { c with lc1 := c.lc1r } else { c with lc0 := c.lc0r }) (muNext (tblGet 0 c.larder c.upc))
  else if one then { c with lc1 := n } else { c with lc0 := n }

/-- The PE-ops of a repeated microword, as far as the hampers and the cost allow. -/
def microRepeat (one : Bool) (base : Nat) : Nat → State → State
  | 0, s => s
  | n + 1, s =>
    let upc := (s.ctl base).upc
    let r := issueGang base (repeatStep one) s
    if r.2 ∧ (r.1.ctl base).upc = upc ∧ (r.1.ctl base).remaining ≠ 0 then microRepeat one base n r.1 else r.1

/-- A repeated microword (Table 07-4): with its counter at 0 it takes one cycle and issues nothing, and reloads the counter. -/
def microRepeatStart (one : Bool) (base : Nat) (s : State) : State :=
  let c := s.ctl base
  let n := if one then c.lc1 else c.lc0
  if n = 0 then
    (s.paneGang base).foldl (fun t p =>
      let d := t.ctl p
      if executing t p then
        t.setCtl p (useCycle (advance (if one then { d with lc1 := d.lc1r } else { d with lc0 := d.lc0r }) (muNext (muNow d))))
      else t) s
  else microRepeat one base n s

/-- A microword with a reserved class or field (R166). -/
def microBad (u : Word) : Bool :=
  let o := muOperand u
  match muClass u with
  | 0 => false
  | 1 => false
  | 2 => false
  | 3 => false
  | 4 => o / 256 != 0
  | 5 => bitsAt o 14 2 == 3 || bitsAt o 11 2 == 3
  | 6 => bitsAt o 12 2 != 0
  | 7 => decide (4 < bitsAt o 13 3) || o % 2048 != 0
  | 8 => o / 4096 != 0
  | _ => true

/-- A step code of Table 07-6 as a number to add modulo 2,048. -/
def stepOf (k : Nat) : Nat := if k = 0 then 1 else if k = 1 then 2047 else 0

/-- ADDR (Table 07-6). -/
def microAddr (c : PaneCtl) (o : Nat) : PaneCtl :=
  let v := bitsAt o 0 11
  let at_ := fun (base : Nat) => if bitOf o 13 then v else (base + v) % 2048
  let st := stepOf (bitsAt o 11 2)
  match bitsAt o 14 2 with
  | 0 => { c with a := at_ (mopA c.mop), stepA := st }
  | 1 => { c with b := at_ (mopB c.mop), stepB := st }
  | _ => { c with d := at_ (mopD c.mop), stepD := st }

/-- LOOP (Table 07-7). -/
def microLoop (c : PaneCtl) (o : Nat) : PaneCtl :=
  let n := if bitOf o 14 then ((mopWidth c.mop : Int) + signedOf 12 o).toNat % 4096 else o % 4096
  if bitOf o 15 then { c with lc1 := n, lc1r := n } else { c with lc0 := n, lc0r := n }

/-- SEQ (R163, Table 07-8): the counters after their decrements, and the next address. -/
def microSeq (c : PaneCtl) (gor : Bool) (u : Word) : PaneCtl × Nat :=
  let o := muOperand u
  let c1 := { c with lc0 := c.lc0 - bitsAt o 12 1, lc1 := c.lc1 - bitsAt o 11 1 }
  let pick := fun (b : Bool) => muNext u / 2 * 2 + bit b
  (c1, match bitsAt o 13 3 with
    | 1 => pick (c1.lc0 == 0)
    | 2 => pick (c1.lc1 == 0)
    | 3 => pick gor
    | 4 => pick (c1.queue == [])
    | _ => muNext u)

/-- One cycle of a microword that issues no PE-op, in one controller. -/
def microPlain (p : Nat) (s : State) : State :=
  let c := s.ctl p
  let u := muNow c
  let o := muOperand u
  if !executing s p then s
  else
    let go := fun (d : PaneCtl) => s.setCtl p (useCycle (advance d (muNext u)))
    match muClass u with
    | 3 => go { c with ttR := o / 256, ttC := o % 256 }
    | 4 => go { c with ttR := mopParam c.mop, ttC := o % 256 }
    | 5 => go (microAddr c o)
    | 6 => go (microLoop c o)
    | 7 =>
      let r := microSeq c (s.flag R.PCTL_RED_LAST_GOR (s.gangBase p)) u
      s.setCtl p (useCycle (advance r.1 r.2))
    | _ => s

/-- WAIT (Table 07-4): its cycles, as far as the cost goes. -/
def microWait (p : Nat) (s : State) : State :=
  let c := s.ctl p
  let n := muOperand (muNow c) % 4096 + 1
  if !executing s p then s
  else if c.remaining < n then s.setCtl p { c with remaining := 0 }
  else s.setCtl p (useCycle { (advance c (muNext (muNow c))) with remaining := c.remaining - (n - 1) })

/-- The controllers of a gang whose base executes a well-formed microword of a class run it. -/
def microGang (base cls : Nat) (f : State → State) (s : State) : State :=
  let u := muNow (s.ctl base)
  if s.gangOn base ∧ executing s base ∧ muClass u = cls ∧ !microBad u then closeCycle base (f s) else s

/-- A microword with no PE-op in every controller of the gang. -/
def microAll (base cls : Nat) (s : State) : State :=
  microGang base cls (fun s => (s.paneGang base).foldl (fun t p => microPlain p t) s) s

/-- The panes of a gang whose controllers meet a reserved microword (R166). -/
def microFaults (s : State) (base : Nat) : List Nat := (s.paneGang base).filter (fun p => executing s p && microBad (muNow (s.ctl p)))

/-- Their faults recorded. -/
def recordMicro (bad : List Nat) (s : State) : State := bad.foldl (fun t p => macroFault p 3 (t.ctl p).upc 4 t) s

/-- A reserved microword (R166): the task ends as at a cut-off. -/
def microReserved (base : Nat) (s : State) : State :=
  let bad := microFaults s base
  if bad = [] ∨ !s.gangOn base then s else closeCycle base (cutTask base false (recordMicro bad s))

/-- The task reaches its budget (R97): no cut-off while the gang is HALTED (R521). With `meets`, a fault of the controllers falls in the same
cycle: its event is raised as well, and the cut-off is what is recorded (R175). -/
def budgetCut (p : Nat) (meets : Bool) (s : State) : State :=
  let base := s.gangBase p
  if !s.gangOn base || s.pcState base == pcHalted then s
  else
    let s1 := if !meets then s
      else recordMicro (microFaults s base) (if canDispatch s base then recordHeads (headFaults s base) s else s)
    closeCycle base (cutTask p true s1)

/-- The cost of the macro-op is reached (R165): padding ends, or the microprogram is abandoned. -/
def costReached (base : Nat) (s : State) : State :=
  if !s.gangOn base then s
  else closeCycle base ((s.paneGang base).foldl (fun t p =>
    let c := t.ctl p
    if c.dispatch then t
    else if c.upc = 0 then
      t.setCtl p { c with dispatch := true, remaining := 0, padTick := satAdd c.padTick c.remaining (2 ^ 25 - 1) }
    else if c.remaining = 0 then
      (macroFault p 2 c.upc 3 t).setCtl p { c with
        dispatch := true, upc := 0, first := true
        runs := c.runs.map (fun r => if r.seq = c.seq then { r with cut := true } else r) }
    else t) s)

/-! ### Tasks (R96 to R98, R266) -/

/-- The first 16 cycles of a task (R87, R104, R136): hampers flushed, X, Y, C, F 0 and K 1; nothing is left to settle of macro-ops whose PE-ops
have executed; the gang's TSN is the new one (R266). -/
def taskStartPane (p tsn : Nat) (s : State) : State :=
  let s0 := flushHampers p s
  let c := s0.ctl p
  let s1 := s0.setCtl p { c with runs := c.runs.filter (fun r => c.inflight.any (fun i => i.seq == r.seq)), tsn := tsn }
  s1.setPane p { s1.pane p with x := 0, y := 0, c := 0, f := 0, k := BitVec.allOnes 65536 }

/-- The engines of a gang learn of the task that starts (R266). -/
def taskStartEngines (base tsn id : Nat) (s : State) : State :=
  (s.paneGang base).foldl (fun t p => (t.paneEngines p).foldl (fun t e =>
    let k := engKey e.1 e.2
    setIrq e.1 e.2 0 (((t.put (R.ENG_TASK_TSN.on e.1) e.2 tsn).put (R.ENG_TASK_TASK_ID.on e.1) e.2 id).setLink k
      { t.link k with g := false, tally := 0, rcnt := 0 })) t) s

/-- The next entry of a gang starts; tasks whose DEPENDS task was cut off or skipped are skipped first (R98). -/
def startNext (base : Nat) : List Nat → State → State
  | [], s => s.setRun base { s.run base with left := [] }
  | k :: rest, s =>
    match s.entryTask k with
    | none => startNext base rest s
    | some d =>
      if (s.run base).lost.contains d.depends then startNext base rest (skipTask base d.id s)
      else
        let tsn := (s.gangTsn base + 1) % 256
        let s1 := s.setRun base { s.run base with left := rest }
        let s2 := (s1.paneGang base).foldl (fun t p =>
          (((taskStartPane p tsn t).put R.PCTL_TASK_ENTRY p k).put R.PCTL_TASK_TASK_ID p d.id).put R.PCTL_TASK_BUDGET_CYCLES p
            d.budget) s1
        (taskStartEngines base tsn d.id s2).put R.PCTL_RED_LAST_SEQ base 0

/-- A gang may start its next task: it runs, no task is running, no rebuild is in progress. -/
def canStart (s : State) (base : Nat) : Bool :=
  s.flag R.PANE_MODE_IN_GANG base && s.gangBase base == base && s.taskNow base == 0 && !(s.run base).stopped &&
  s.tick.windowOpen && s.gangOn base && !s.gangInit base &&
  (s.paneGang base).all (fun p => s.pcState p == pcRun && !(s.pane p).rebuilding)

/-- TASK_START's effect. -/
def taskStart (base : Nat) (s : State) : State :=
  if canStart s base then startNext base (s.run base).left s else s

/-- TASK_END at the head of every queue of the gang, nothing in flight, every outbound unit empty (R134, R167). -/
def canEnd (s : State) (base : Nat) : Bool :=
  s.taskNow base != 0 && s.gangOn base && (s.paneGang base).all (fun p =>
    (s.ctl p).dispatch && (s.ctl p).inflight == [] && (s.pane p).outb == [] &&
    (match (s.ctl p).queue with
      | m :: _ => mopOp m == opTaskEnd
      | [] => false))

/-- The task of a gang ends (R96). -/
def taskEnd (base : Nat) (s : State) : State :=
  if canEnd s base then
    let id := s.taskNow base
    let s1 := (s.paneGang base).foldl (fun t p =>
      ((t.setCtl p { t.ctl p with queue := (t.ctl p).queue.drop 1 }).put R.PCTL_TASK_TASK_ID p 0).put
        R.PCTL_TASK_BUDGET_CYCLES p 0) s
    { s1 with doneTasks := id :: s1.doneTasks }
  else s

/-! ### Reduction results (R147) -/

/-- The next result of a gang reaches its sash engine. -/
def deliverResult (base : Nat) (s : State) : State :=
  let c := s.ctl base
  match c.results with
  | [] => s
  | (g, t) :: rest =>
    if !s.domainOn (14 + base) then s
    else
    let sash := s.paneSash base
    let k := engKey 3 sash
    let l := s.link k
    let s1 := setIrq 3 sash 2 ((s.setCtl base { c with results := rest }).setLink k
      { l with g := g, tally := t, rcnt := l.rcnt + 1 })
    (((s1.put R.PCTL_RED_LAST_GOR base (bit g)).put R.PCTL_RED_LAST_TALLY base t).countWrap R.PCTL_RED_LAST_SEQ base 1).countWrap
      R.PCTL_RED_COUNT base 1

/-! ### The PE-plane window (R144) -/

/-- A byte of a bit address of PE memory through the window: byte n of the plane. -/
def planeByte (x : Plane) (n : Nat) : Byte := BitVec.ofNat 8 (x.toNat / 2 ^ (8 * n))

/-- A request of the window: refused unless it comes from the DMA engine of a slat of the pane, in STANDBY, with no initialisation or test. The
rows whose lanes are enabled are read. -/
def windowAccess (i : Initiator) (p : Nat) (q : NetReq) (s : State) : State × Answer :=
  let x := s.pane p
  let ok := q.dma && i.src == p && decide (1 ≤ i.init ∧ i.init ≤ 8) && s.pcState p == pcStandby && !x.initRunning &&
    !s.flag R.PANE_BIST_STAT_BUSY p
  if !ok ∨ q.rotate ∨ q.flits ≠ 1 then (s.err 0x01 p 0 0x0103, ⟨rspRefused, []⟩)
  else
    let o := q.addr % 0x1000000 / 64 * 64
    let addr := o / 8192
    let n := o % 8192
    let rows := (rowErrs x addr).filter (fun e => n / 8 ≤ e.1 ∧ e.1 < n / 8 + 8 ∧ bitsAt q.be (8 * (e.1 - n / 8)) 8 ≠ 0)
    let s1 := rows.foldl (fun s e => rowRead p addr q.write false e s) s
    if q.write then
      let lanes := (List.range 64).filter (fun k => laneBit q k)
      let v := planeOf (lanes.map (fun k => (8 * (n + k), (q.data.getD k 0).toNat)))
      let m := planeOf (lanes.map (fun k => (8 * (n + k), 255)))
      (s1.setPane p (writePlane (s1.pane p) addr v m), ⟨rspOk, []⟩)
    else if rows.any (fun e => decodeWord e.2.toNat == .uncorrectable) then (s1, ⟨rspEcc, []⟩)
    else
      let y := readPlane x addr
      (s1, ⟨rspOk, (List.range 64).map (fun k => if laneBit q k then planeByte y (n + k) else 0)⟩)
where
  /-- Byte enable k of a request. -/
  laneBit (q : NetReq) (k : Nat) : Bool := bitOf q.be k

/-! ### Ticks and resets -/

/-- The cycles that a controller stalled in the tick that ends: a free value, 0 when it expanded no macro-op and ran no task. -/
def stallCount (p : Nat) (s : State) : Nat × State :=
  if (s.ctl p).macrosTick = 0 ∧ (s.ctl p).dispatch ∧ s.taskNow (s.gangBase p) = 0 then (0, s)
  else
    let (v, s1) := s.draw
    (v % 2 ^ 25, s1)

/-- The registers of the last complete tick (R152) of a pane and its controller. -/
def paneTick (p : Nat) (s : State) : State :=
  let x := s.pane p
  let c := s.ctl p
  let (wIn, s1) := stallCount p s
  let (wOut, s2) := stallCount p s1
  (((((s2.put R.PANE_ACTIVE_CYCLES p (min x.active (2 ^ 25 - 1))).put R.PCTL_MACROS_COUNT p c.macrosTick).put R.PCTL_PAD_CYCLES p
    c.padTick).setReg 0x02 p 0x23C (word wIn)).setReg 0x02 p 0x240 (word wOut)).setPane p { x with active := 0 } |>.setCtl p
    { c with macrosTick := 0, padTick := 0 }

/-- SOFT_RESET of a PCTL page (R151, R176): the Larder, the op table and the versions stay. -/
def pctlReset (p : Nat) (s : State) : State :=
  let s0 := flushHampers p s
  let c := s0.ctl p
  (s0.setCtl p { PaneCtl.idle with larder := c.larder, opTable := c.opTable, tsn := c.tsn }).resetPage 0x02 p
    (fun off => off != 0x024 && off != 0x008 && off != 0x040 && off != 0x068 && off != 0x06C && off != 0x070 && off != 0x074 &&
      off != 0x24C)

/-- A write of PCTL_HAMP_SNAP, and of PCTL_HAMP_FAULT's W1C bits. -/
def pctlSpecial (w : WriteReq) (s : State) : Option Written :=
  if w.off = 0x200 then some (if bitOf w.value.toNat 0 then hampSnap w.n s else s, rspOk) else none

/-! ### The commands -/

/-- PE_OP_EXECUTE (R108). -/
def execPeOpExecute (p : Nat) (s : State) : Result := need (p < 16) (done (executeOp p s))

/-- MACRO_ENQUEUE (R156). -/
def execMacroEnqueue (p : Nat) (s : State) : Result := need (p < 16) (done (macroEnqueue p s))

/-- MACRO_DISPATCH (R157). -/
def execMacroDispatch (p : Nat) (s : State) : Result := need (p < 16) (done (dispatchGang p s))

/-- MICROWORD_PE (R162). -/
def execMicrowordPe (p : Nat) (s : State) : Result := need (p < 16) (done (microGang p 0 (microPe p) s))

/-- MICROWORD_PE_R0 (R161). -/
def execMicrowordPeR0 (p : Nat) (s : State) : Result := need (p < 16) (done (microGang p 1 (microRepeatStart false p) s))

/-- MICROWORD_PE_R1 (R161). -/
def execMicrowordPeR1 (p : Nat) (s : State) : Result := need (p < 16) (done (microGang p 2 (microRepeatStart true p) s))

/-- MICROWORD_TT (R161). -/
def execMicrowordTt (p : Nat) (s : State) : Result := need (p < 16) (done (microAll p 3 s))

/-- MICROWORD_TTP (R161). -/
def execMicrowordTtp (p : Nat) (s : State) : Result := need (p < 16) (done (microAll p 4 s))

/-- MICROWORD_ADDR (R161). -/
def execMicrowordAddr (p : Nat) (s : State) : Result := need (p < 16) (done (microAll p 5 s))

/-- MICROWORD_LOOP (R161). -/
def execMicrowordLoop (p : Nat) (s : State) : Result := need (p < 16) (done (microAll p 6 s))

/-- MICROWORD_SEQ (R163). -/
def execMicrowordSeq (p : Nat) (s : State) : Result := need (p < 16) (done (microAll p 7 s))

/-- MICROWORD_WAIT (R161). -/
def execMicrowordWait (p : Nat) (s : State) : Result :=
  need (p < 16) (done (microGang p 8 (fun s => (s.paneGang p).foldl (fun t q => microWait q t) s) s))

/-- MICROWORD_RESERVED (R166). -/
def execMicrowordReserved (p : Nat) (s : State) : Result := need (p < 16) (done (microReserved p s))

/-- MACRO_COST_REACHED (R165). -/
def execMacroCostReached (p : Nat) (s : State) : Result := need (p < 16) (done (costReached p s))

/-- SETC_LO (R167). -/
def execSetcLo (p : Nat) (s : State) : Result :=
  need (p < 16) (done (if ((s.ctl p).queue.head?.map mopOp) = some opSetcLo then dispatchGang p s else s))

/-- SETC_HI (R167). -/
def execSetcHi (p : Nat) (s : State) : Result :=
  need (p < 16) (done (if ((s.ctl p).queue.head?.map mopOp) = some opSetcHi then dispatchGang p s else s))

/-- TASK_START (R96). -/
def execTaskStart (p : Nat) (s : State) : Result := need (p < 16) (done (taskStart p s))

/-- TASK_END (R167). -/
def execTaskEnd (p : Nat) (s : State) : Result := need (p < 16) (done (taskEnd p s))

/-- TASK_CUT_OFF (R97, R175). -/
def execTaskCutOff (p : Nat) (s : State) (meets : Bool := false) : Result := need (p < 16) (done (budgetCut p meets s))

/-- REDUCTION_RESULT_DELIVER (R147). -/
def execReductionResultDeliver (p : Nat) (s : State) : Result := need (p < 16) (done (deliverResult p s))

end Sys2Proof.Machine
end

