-- ==== Sys2Proof/Machine/Engine.lean ====
section
/-!
DEFINITION. The engine as a block (R186 to R206, R257 to R268): registers and window, memories under the symbol code, interlocked
results, traps, faults and what follows from them, start and stop.
-/

namespace Sys2Proof.Machine

def State.eng (s : State) (k : Nat) : Engine := tblGet Engine.idle s.engines k
def State.setEng (s : State) (k : Nat) (x : Engine) : State := { s with engines := tblSet Engine.idle s.engines k x }

/-- Engine states (xxx_STATE). -/
abbrev esStopped : Nat := 0
abbrev esRunning : Nat := 1
abbrev esHalted : Nat := 2
abbrev esFaulted : Nat := 3

/-- xxx_STATE.STATE. -/
def State.engState (s : State) (ty n : Nat) : Nat := s.get (R.ENG_STATE_STATE.on ty) n
/-- xxx_STATE.STATE written. -/
def State.setEngState (s : State) (ty n v : Nat) : State := s.put (R.ENG_STATE_STATE.on ty) n v

/-- The initiator that an engine is (Table 13-3): its sash, its slats, the spares, the gate engines. -/
def engInit (ty n : Nat) : Initiator :=
  if ty = 3 then (if n < 16 then ⟨n, 0⟩ else ⟨28 + (n - 16), 0⟩)
  else if ty = 4 then ⟨n / 8, 1 + n % 8⟩ else ⟨33 + n, 0⟩

/-- The INIT number under which an engine's DMA sends (Table 13-3). -/
def dmaInit (ty n : Nat) : Nat := if ty = 4 then 17 + n % 8 else 1

/-! ### Registers and the window (R186, R203, R204) -/

/-- The reset value of a system register (Table 08-9, RPS). -/
def sysReset (ty sel : Nat) : Nat := if sel = 2 then 0x10 else if sel = 0x13 ∧ ty = 3 then 0x20000 else 0

/-- A stored system register. -/
def sysGet (ty : Nat) (t : Tbl Nat) (sel : Nat) : Nat := tblGet (sysReset ty sel) t sel
/-- A system register stored. -/
def sysPut (ty : Nat) (t : Tbl Nat) (sel v : Nat) : Tbl Nat := tblSet (sysReset ty sel) t sel v

/-- A system register of an engine, as stored. -/
def State.sysReg (s : State) (ty n sel : Nat) : Nat := sysGet ty (s.eng (engKey ty n)).sys sel
/-- A system register of an engine written. -/
def State.setSys (s : State) (ty n sel v : Nat) : State :=
  let x := s.eng (engKey ty n)
  s.setEng (engKey ty n) { x with sys := sysPut ty x.sys sel v }

/-- The number of window positions (R177). -/
def windowPositions (ty : Nat) : Nat := if ty = 3 then 8 else 4

/-- The physical register behind v(x) (R186). -/
def physReg (ty wpos v : Nat) : Nat := if v < 8 then v else 8 + (16 * wpos + (v - 8)) % (16 * windowPositions ty)

/-- WST.WPOS and WST.RES of a stored WST. -/
def wstPos (ty v : Nat) : Nat := v % windowPositions ty
def wstRes (v : Nat) : Nat := bitsAt v 4 4
/-- WST of a position and a number of resident frames. -/
def wstOf (ty pos res : Nat) : Nat := pos % windowPositions ty + 16 * res

/-- The oldest resident frame's position. -/
def oldestPos (ty wst : Nat) : Nat := (wstPos ty wst + 2 * windowPositions ty + 1 - wstRes wst) % windowPositions ty

/-- A physical register written; physical register 0 holds nothing (R186). -/
def physPut (t : Tbl Nat) (p v : Nat) : Tbl Nat := if p = 0 then t else tblSet 0 t p v

/-- Several physical registers written. -/
def physPuts (t : Tbl Nat) (ws : List (Nat × Nat)) : Tbl Nat := ws.foldl (fun t w => physPut t w.1 w.2) t

/-! ### Memories (R257 to R261) -/

/-- The bytes of an engine's instruction memory (Table 11-1). -/
def imemBytes (ty : Nat) : Nat := if ty = 3 then 131072 else if ty = 4 then 32768 else 98304
/-- The bytes of an engine's data memory (Table 11-1). -/
abbrev dmemBytes : Nat := 65536

def State.mem (s : State) (k : Nat) : EngMem := tblGet EngMem.idle s.engMem k
def State.setMem (s : State) (k : Nat) (x : EngMem) : State := { s with engMem := tblSet EngMem.idle s.engMem k x }

/-- The key of a row among the error patterns: data memory rows from 2^20 on. -/
def rowKey (dm : Bool) (row : Nat) : Nat := (if dm then 2 ^ 20 else 0) + row

/-- The error pattern that has struck a row. -/
def EngMem.err (m : EngMem) (dm : Bool) (row : Nat) : Nat := (tblGet 0 m.errs (rowKey dm row)).toNat

/-- What the decoder finds of a row (R119, R259). -/
def EngMem.decode (m : EngMem) (dm : Bool) (row : Nat) : Decoded := decodeWord (m.err dm row)

/-- The byte at an address as the decoder delivers it. -/
def EngMem.byte (m : EngMem) (dm : Bool) (a : Nat) : Byte :=
  let noise := residue (m.err dm (a / 8))
  tblGet 0 (if dm then m.dmem else m.imem) a ^^^ BitVec.ofNat 8 (bitsAt noise (8 * (a % 8)) 8)

/-- n bytes from an address on as the decoder delivers them. -/
def EngMem.bytes (m : EngMem) (dm : Bool) (a n : Nat) : List Byte := (List.range n).map (fun k => m.byte dm (a + k))

/-- A row as the decoder delivers it. -/
def EngMem.row (m : EngMem) (dm : Bool) (row : Nat) : List Byte := m.bytes dm (8 * row) 8

/-- The rows that n bytes from an address on touch. -/
def rowsOf (a n : Nat) : List Nat := (List.range ((a + n + 7) / 8 - a / 8)).map (fun k => a / 8 + k)

/-- A row of those given is uncorrectable. -/
def EngMem.bad (m : EngMem) (dm : Bool) (rows : List Nat) : Bool := rows.any (fun r => m.decode dm r == .uncorrectable)

/-- A row met by a read or the scrub (R259): a corrected error is counted, located and raised; an uncorrectable one is located, with an
error value that the spec leaves open. -/
def readRow (ty n : Nat) (dm : Bool) (row : Nat) (s : State) : State :=
  let loc := fun (ue sym val : Nat) => word (ue * 2 ^ 31 + bit dm * 2 ^ 30 + sym * 2 ^ 25 + val * 2 ^ 21 + row % 2 ^ 14)
  match (s.mem (engKey ty n)).decode dm row with
  | .clean => s
  | .corrected j e => ((s.count (R.ENG_MEM_CE_COUNT.on ty) n 1).setReg ty n 0x064 (loc 0 j e)).raise ty n 5
  | .uncorrectable =>
    let (v, s1) := s.draw
    s1.setReg ty n 0x064 (loc 1 0x1F (v % 16))

/-- Several rows met. -/
def readRows (ty n : Nat) (dm : Bool) (rows : List Nat) (s : State) : State := rows.foldl (fun s r => readRow ty n dm r s) s

/-- A row rewritten as the decoder delivers it, as a codeword. -/
def EngMem.settleRow (m : EngMem) (dm : Bool) (row : Nat) : EngMem :=
  if m.err dm row = 0 then m
  else
    let m1 := { m with errs := tblSet 0 m.errs (rowKey dm row) 0 }
    if dm then { m1 with dmem := memWrite 0 m.dmem (8 * row) (m.row dm row) }
    else { m1 with imem := memWrite 0 m.imem (8 * row) (m.row dm row) }

/-- Bytes stored to a memory of an engine: a read-merge-write of each row (R259). -/
def EngMem.store (m : EngMem) (dm : Bool) (a : Nat) (bytes : List Byte) : EngMem :=
  let m1 := (rowsOf a bytes.length).foldl (fun m r => m.settleRow dm r) m
  if dm then { m1 with dmem := memWrite 0 m1.dmem a bytes } else { m1 with imem := memWrite 0 m1.imem a bytes }

/-- Bytes stored to an engine's data memory. -/
def dmemStore (ty n a : Nat) (bytes : List Byte) (s : State) : State :=
  s.setMem (engKey ty n) ((s.mem (engKey ty n)).store true a bytes)

/-! ### The watchdog's count (R268) -/

/-- The watchdog runs. -/
def wdgRuns (s : State) (ty n : Nat) : Bool := s.flag (R.ENG_WDG_CFG_EN.on ty) n && s.engState ty n == esRunning

/-- The count was last known above half of its period. -/
def wdgAboveHalf (s : State) (ty n : Nat) : Bool :=
  decide ((s.eng (engKey ty n)).wdgFull / 2 < s.get (R.ENG_WDG_COUNT_CYCLES.on ty) n)

/-- The cycles that remain of a running count, by a free value: between the count last known and the next event, half of the period or 0. -/
def wdgLeft (s : State) (ty n v : Nat) : Nat :=
  let known := s.get (R.ENG_WDG_COUNT_CYCLES.on ty) n
  let low := if wdgAboveHalf s ty n then (s.eng (engKey ty n)).wdgFull / 2 else 0
  if known ≤ low then known else low + 1 + v % (known - low)

/-- A running count stops: it keeps the cycles that remain. -/
def wdgStop (ty n : Nat) (s : State) : State :=
  if wdgRuns s ty n then
    let r := s.draw
    r.2.put (R.ENG_WDG_COUNT_CYCLES.on ty) n (wdgLeft s ty n r.1)
  else s

/-- A running engine leaves RUNNING: its watchdog's count stops (R268). -/
def leaveRunning (ty n v : Nat) (s : State) : State := (wdgStop ty n s).setEngState ty n v

/-! ### Halts (R516, R517, R519) -/

/-- The pane that an engine drives or serves: a sash its own unless a spare drives it, a spare the one it is connected to, a
slat its own. -/
def State.enginePane (s : State) (ty n : Nat) : Option Nat :=
  if ty = 3 then
    if n < 16 then (if (s.paneSpare n).isSome then none else some n)
    else if s.flag R.SASH_SPARE_STAT_ACTIVE n then some (s.get R.SASH_SPARE_STAT_PANE n) else none
  else if ty = 4 then some (n / 8)
  else none

/-- The gang of an engine's pane, if the pane is in one: its panes. -/
def State.engineGang (s : State) (ty n : Nat) : Option (List Nat) :=
  match s.enginePane ty n with
  | none => none
  | some p => if s.flag R.PANE_MODE_IN_GANG p then some (s.paneGang p) else none

/-- The unit that a halt of an engine acts on (R517). -/
def State.haltUnit (s : State) (ty n : Nat) : List (Nat × Nat) :=
  match s.engineGang ty n with
  | some ps => (ps.map s.paneEngines).flatten
  | none => [(ty, n)]

/-- DBG_ALLOW permits halts of an engine (R516, second to fourth conditions). -/
def State.haltAllowed (s : State) (ty : Nat) : Bool :=
  s.flag R.DBG_ALLOW_EN 0 && (s.porter.current.isNone || s.get R.PORT_CUR_ID 0 == s.get R.DBG_ALLOW_ID_ITIN_ID 0) &&
  (ty != 5 || s.flag R.DBG_ALLOW_GENG 0)

/-- The first condition of R516 that fails, as DBG_RUN_STAT.REFUSED codes it; 0 when all hold. -/
def State.haltRefusal (s : State) (ty n : Nat) : Nat :=
  if s.debugLevel ≠ 2 then 1 else if !s.haltAllowed ty then 2 else if s.engState ty n ≠ esRunning then 3 else 0

/-- The engine holds an open unlock window in some page (R519). -/
def State.holdsWindow (s : State) (ty n : Nat) : Bool := s.unlock.any (fun e => e.2 == some (engInit ty n))

/-- An engine halts (R520): when no engine of its unit runs any more, HALTED is raised and the gang's controllers enter HALTED
(R521). -/
def takeHalt (ty n : Nat) (s : State) : State :=
  let x := s.eng (engKey ty n)
  let s0 := if x.haltReq = 0 then s else s.put R.DBG_RUN_STAT_CAUSE 0 x.haltReq
  let s1 := leaveRunning ty n esHalted (s0.setEng (engKey ty n) { x with haltReq := 0, stepReq := 0, rep := none, bundle := [], held := false })
  if (s1.haltUnit ty n).all (fun e => s1.engState e.1 e.2 != esRunning) then
    let s2 := s1.raise 0x18 0 0
    match s2.engineGang ty n with
    | some ps => ps.foldl (fun s p =>
        let s3 := { s with released := tblSet 0 s.released p 0 }
        if s.pcState p = pcRun then s3.put R.PCTL_STATE_STATE p pcHalted else s3) s2
    | none => s2
  else s1

/-! ### Faults (R199, R264, R267, R272, R275) -/

/-- Whether spare k (0 for SASH_16) is available (R271). -/
def State.spareFree (s : State) (k : Nat) : Bool :=
  let n := 16 + k
  s.domainOn (pageDomain 3 n) && !(s.mem (engKey 3 n)).initRunning && !s.flag (R.HDR_CTL_ENABLE.on 3) n &&
  s.engState 3 n == esStopped && s.flag R.SASH_SPARE_CTL_AUTO n && !s.flag R.SASH_SPARE_STAT_ASSIGNED n

/-- A spare is assigned to a pane and its load starts (R272 step 1); with none available the pane is lost. -/
def assignSpare (p : Nat) (s : State) : State :=
  match (List.range 2).find? s.spareFree with
  | none => losePane p s
  | some k =>
    let n := 16 + k
    ((((((s.put R.SASH_SPARE_STAT_PANE n p).put R.SASH_SPARE_STAT_ASSIGNED n 1).put R.SASH_SPARE_STAT_LOADING n 1).put
      (R.ENG_START_ADDR.on 3) n (s.get (R.ENG_START_ADDR.on 3) p)).raise 3 p 9).raise 3 n 9)

/-- What the fault of an engine brings with it: its gang's task ends (R267), a spare takes over a sash (R272), a partner a slat
(R275), the fault of an active spare is loss of its pane, and the Gatehouse drops what it held for a gate engine (R419). -/
def faultFollows (ty n : Nat) (s : State) : State :=
  if ty = 3 then
    match s.enginePane 3 n with
    | none => s
    | some p =>
      let s1 := if s.flag R.PANE_MODE_IN_GANG p then stopGang p s else s
      if n < 16 then assignSpare p s1 else losePane p s1
  else if ty = 4 then
    loseSlat n (if s.flag R.PANE_MODE_IN_GANG (n / 8) then stopGang (n / 8) s else s)
  else gateEngineDown n s

/-- FAULT_KIND codes (xxx_STATE). -/
abbrev fkLockstep : Nat := 1
abbrev fkWatchdog : Nat := 2
abbrev fkDoubleTrap : Nat := 3
abbrev fkImemUe : Nat := 4
abbrev fkDmemUe : Nat := 5

/-- An engine stops as a fault (R264): its event is raised, the fault reported, its registers kept. -/
def engineFault (ty n kind evt : Nat) (s : State) : State :=
  let s1 := ((leaveRunning ty n esFaulted s).put (R.ENG_STATE_FAULT_KIND.on ty) n kind).raise ty n evt
  let x := s1.eng (engKey ty n)
  let s2 := s1.setEng (engKey ty n) { x with bundle := [], far := none, rep := none, stopReq := false, haltReq := 0
                                             stepReq := 0, held := false }
  faultFollows ty n (s2.report ty n evt clsUnit)

/-! ### Landing results (R191, R193, R246, R249) -/

/-- Loads that land at the end of the bundle after theirs have landed (R191). -/
def landLoads (ty n : Nat) (s : State) : State :=
  let x := s.eng (engKey ty n)
  s.setEng (engKey ty n) { x with phys := physPuts x.phys x.due, due := [] }

/-- FCSR after an FP operation's flags have accumulated and, if one is enabled and none was pending, TPEND and TXF (R246, R249). -/
def fcsrLand (fcsr flags : Nat) : Nat :=
  let f1 := setBits fcsr 4 5 (bitsAt fcsr 4 5 ||| flags)
  if flags &&& bitsAt fcsr 9 5 ≠ 0 ∧ !bitOf fcsr 15 then setBits (setBits f1 15 1 1) 16 5 flags else f1

/-- One interlocked result lands. -/
def landOne (ty : Nat) (x : Engine) (r : LateRes) : Engine :=
  let fcsr := sysGet ty x.sys 0x20
  let new := fcsrLand fcsr r.fpFlags
  let t1 := if r.fpFlags = 0 then x.sys else sysPut ty x.sys 0x20 new
  let t2 := if bitOf new 15 && !bitOf fcsr 15 then sysPut ty (sysPut ty t1 0x21 r.pc) 0x22 r.syl else t1
  let t3 := match r.nzcv with
    | some f => sysPut ty t2 0 (setBits (sysGet ty t2 0) 0 4 f)
    | none => t2
  { x with phys := physPuts x.phys r.regs, sys := t3 }

/-- Every interlocked result due by a cycle lands, in the order of their cycles. -/
def landUpTo (ty t : Nat) (x : Engine) : Engine :=
  let ready := x.late.filter (fun r => decide (r.landAt ≤ t))
  ready.foldl (landOne ty) { x with late := x.late.filter (fun r => !decide (r.landAt ≤ t)), cyc := max x.cyc t }

/-- An interlocked result joins the others, behind those that land no later. -/
def insertLate (r : LateRes) : List LateRes → List LateRes
  | [] => [r]
  | q :: l => if q.landAt ≤ r.landAt then q :: insertLate r l else r :: q :: l

/-- The last cycle in which an interlocked result lands. -/
def lastLanding (l : List LateRes) : Nat := l.foldl (fun t r => max t r.landAt) 0

/-- The engine waits until no interlocked result is pending (R193). -/
def landAll (ty : Nat) (x : Engine) : Engine := landUpTo ty (max x.cyc (lastLanding x.late)) x

/-! ### Traps (R194 to R199) -/

/-- TCAUSE (R196, and its C24 layout). -/
def tcauseOf (ty cause slot info : Nat) (async : Bool) : Nat :=
  if ty = 3 then bit async * 2 ^ 31 + info * 2 ^ 16 + slot * 2 ^ 8 + cause
  else bit async * 2 ^ 23 + info * 2 ^ 15 + slot * 2 ^ 8 + cause

/-- A PC value: a multiple of 4 of the profile's width (R177). -/
def pcOf (ty a : Nat) : Nat := a % 2 ^ widthOf ty / 4 * 4

/-- The vector of a cause. -/
def vectorOf (ty : Nat) (t : Tbl Nat) (cause : Nat) : Nat := pcOf ty (sysGet ty t 4 + 64 * cause)

/-- FLG as a program reads it, with G in C32 (R185). -/
def flgValue (ty : Nat) (t : Tbl Nat) (g : Bool) : Nat := sysGet ty t 0 + (if ty = 3 then 32 * bit g else 0)

/-- FLG.TA. -/
def trapActive (ty : Nat) (t : Tbl Nat) : Bool := bitOf (sysGet ty t 0) 9

/-- TLD and TLDV at trap entry (R192, R196): the pending load, or V cleared. Of a register pair TLD names the first; the write of the
second is not performed, and nothing reinstates it (DEDUCED, log 17). -/
def saveLoad (ty : Nat) (x : Engine) : Tbl Nat :=
  let vbit := widthOf ty - 1
  match x.loads with
  | [] => sysPut ty x.sys 0xA (setBits (sysGet ty x.sys 0xA) vbit 1 0)
  | (p, v) :: _ => sysPut ty (sysPut ty x.sys 0xA (2 ^ vbit + p)) 0xB v

/-- A single step is over: the engine halts at the next boundary with CAUSE STEP (R523). -/
def Engine.stepped (x : Engine) : Engine := if x.stepReq = 0 then x else { x with stepReq := 0, haltReq := 3 }

/-- Trap entry (R196). TVAL holds what the profile's width holds of the value (DEDUCED, log 16: a C24 TVAL has 24 bits, a syllable 32). -/
def enterTrap (ty n cause slot tval info rsm rsmNext : Nat) (async : Bool) (s : State) : State :=
  let k := engKey ty n
  let x := landAll ty (s.eng k)
  let flg := flgValue ty x.sys (s.link k).g
  let wst := sysGet ty x.sys 2
  let t1 := sysPut ty (saveLoad ty x) 5 rsm
  let t2 := sysPut ty (sysPut ty t1 6 rsmNext) 7 flg
  let t3 := sysPut ty (sysPut ty t2 8 (tcauseOf ty cause slot info async)) 9 (tval % 2 ^ widthOf ty)
  let t4 := sysPut ty t3 0 (setBits (setBits (sysGet ty t3 0) 8 1 0) 9 1 1)
  let t5 := sysPut ty t4 2 (wstOf ty (wstPos ty wst + 1) (wstRes wst + 1))
  s.setEng k { x.stepped with
    sys := t5, loads := [], due := [], bundle := [], far := none, rep := none, held := false, cyc := x.cyc + 4
    pc := vectorOf ty t5 cause }

/-- The TASK_END trap that takes the place of an active handler (R196). -/
def replaceTrap (ty n tsn : Nat) (s : State) : State :=
  let k := engKey ty n
  let x := landAll ty (s.eng k)
  let t1 := sysPut ty (sysPut ty x.sys 8 (tcauseOf ty 0x0D 0 0 true)) 9 tsn
  let t2 := sysPut ty t1 0 (setBits (sysGet ty t1 0) 8 1 0)
  s.setEng k { x.stepped with sys := t2, bundle := [], rep := none, cyc := x.cyc + 4, pc := vectorOf ty t2 0x0D }

/-- A synchronous trap: a double trap while a handler is active (R199). -/
def syncTrap (ty n cause slot tval info rsm rsmNext : Nat) (s : State) : State :=
  let x := s.eng (engKey ty n)
  if trapActive ty x.sys then engineFault ty n fkDoubleTrap 4 s
  else enterTrap ty n cause slot tval info rsm rsmNext false s

/-- The syllables of a bundle in instruction memory, from an address on: how many up to its stop bit. -/
def bundleLenAt (m : EngMem) (a : Nat) : Nat → Nat
  | 0 => 0
  | k + 1 => if bitOf (leNum (m.bytes false a 4)) 31 then 1 else 1 + bundleLenAt m (a + 4) k

/-- The address of the bundle after the one that instruction memory holds at an address. -/
def nextBundle (s : State) (ty n a : Nat) : Nat := pcOf ty (a + 4 * bundleLenAt (s.mem (engKey ty n)) a (bundleMax ty))

/-- IPEND: the latched lines and the levels (R198, R265); a gate engine's levels are those of Table 16-11. -/
def State.ipend (s : State) (ty n : Nat) : Nat :=
  (s.getReg ty n 0x05C).toNat % 2 ^ 16 ||| (if ty = 5 then s.gateLines n else 0)

/-- The lowest line that is pending and enabled. -/
def State.irqLine (s : State) (ty n : Nat) : Option Nat :=
  let m := s.ipend ty n &&& s.sysReg ty n 0x0D
  (List.range 16).find? (fun k => bitOf m k)

/-- The event that R195 finds at a boundary: its cause, and TVAL. -/
def boundaryEvent (s : State) (ty n : Nat) (maskIrq : Bool) : Option (Nat × Nat) :=
  let k := engKey ty n
  let x := s.eng k
  let flg := sysGet ty x.sys 0
  match if ty = 3 then (s.link k).taskEnd else none with
  | some tsn => some (0x0D, tsn)
  | none =>
    if ty = 3 ∧ bitOf (sysGet ty x.sys 0x20) 15 ∧ !bitOf flg 9 then some (0x0C, 0)
    else if bitOf flg 8 ∧ !bitOf flg 9 ∧ !maskIrq then (s.irqLine ty n).map (fun i => (0x10 + i, 0))
    else none

/-- The trap of an event at the boundary before the bundle at PC (R195, R196); the entry of an FP trap ends with TPEND 0, what landed in its
wait included (R250). -/
def takeEvent (ty n : Nat) (e : Nat × Nat) (s : State) : State :=
  let k := engKey ty n
  let x := s.eng k
  let s1 := if e.1 = 0x0D then s.setLink k { s.link k with taskEnd := none } else s
  if e.1 = 0x0D ∧ trapActive ty x.sys then replaceTrap ty n e.2 s1
  else
    let s2 := enterTrap ty n e.1 0 e.2 0 x.pc (nextBundle s1 ty n x.pc) true s1
    if e.1 = 0x0C then s2.setSys ty n 0x20 (setBits (s2.sysReg ty n 0x20) 15 1 0) else s2

/-- An engine stops (R263). -/
def stopEngine (ty n : Nat) (s : State) : State :=
  let x := s.eng (engKey ty n)
  leaveRunning ty n esStopped
    (s.setEng (engKey ty n) { x with stopReq := false, haltReq := 0, stepReq := 0, rep := none, bundle := [], held := false })

/-- What is taken at a bundle boundary instead of the next bundle: a stop, a halt, an event (R195, R263, R519). A step ends after its
one bundle, at the load-delay boundary too (R523). -/
def boundary (ty n : Nat) (maskIrq : Bool) (s : State) : Option State :=
  let x := s.eng (engKey ty n)
  if x.stopReq then some (stopEngine ty n s)
  else if x.haltReq = 3 ∧ !s.holdsWindow ty n then some (takeHalt ty n s)
  else if x.loads ≠ [] ∧ x.rep = none then none
  else if x.haltReq ≠ 0 ∧ !s.holdsWindow ty n then some (takeHalt ty n s)
  else (boundaryEvent s ty n maskIrq).map (fun e => takeEvent ty n e s)

/-- Results whose cycle has come have landed. -/
def settleEngine (ty n : Nat) (s : State) : State :=
  let s1 := landLoads ty n s
  let x := s1.eng (engKey ty n)
  s1.setEng (engKey ty n) (landUpTo ty x.cyc x)

/-! ### Starting (R204, R263, R268) -/

/-- The watchdog loaded with its full period (R268). -/
def wdgLoad (ty n : Nat) (s : State) : State :=
  let full := s.get (R.ENG_WDG_CFG_PERIOD.on ty) n * 1024
  let x := s.eng (engKey ty n)
  (s.setEng (engKey ty n) { x with wdgFull := full }).put (R.ENG_WDG_COUNT_CYCLES.on ty) n full

/-- An engine starts: reset, PC at START, RUNNING, STARTED (R263). -/
def startEngine (ty n : Nat) (s : State) : State :=
  let k := engKey ty n
  let x := s.eng k
  let start := pcOf ty (s.get (R.ENG_START_ADDR.on ty) n)
  let s1 := s.setEng k { Engine.idle with pc := start, brkHalt := x.brkHalt }
  let s2 := s1.setLink k ArrayLink.idle
  (((wdgLoad ty n s2).setEngState ty n esRunning).put (R.HDR_CTL_ENABLE.on ty) n 1).raise ty n 0

/-- GENG_0 starts at the boot ROM (R263, R483): the boot flow begins. -/
def bootStart (s : State) : State :=
  { (startEngine 5 0 s).setReg 0x16 0 0x060 0 with boot := BootFlow.idle, bootActive := true }

/-- A write of CTL.ENABLE = 1 (R260, R263, R264). -/
def enableWrite (w : WriteReq) (s : State) : Written :=
  if (s.mem (engKey w.ty w.n)).initRunning then refuseWrite w rspRefused 0x0103 s
  else if s.engState w.ty w.n = esFaulted then refuseWrite w rspRefused 0x0104 s
  else if s.flag (R.HDR_CTL_ENABLE.on w.ty) w.n then (s, rspOk)
  else (startEngine w.ty w.n s, rspOk)

/-- A write of CTL.ENABLE = 0 (R263): the engine stops at its next bundle boundary. -/
def disableWrite (w : WriteReq) (s : State) : Written :=
  let s1 := s.put (R.HDR_CTL_ENABLE.on w.ty) w.n 0
  let x := s1.eng (engKey w.ty w.n)
  if s1.engState w.ty w.n = esRunning ∨ s1.engState w.ty w.n = esHalted then
    if x.far.isNone ∧ x.bundle = [] ∧ !x.held then (stopEngine w.ty w.n s1, rspOk)
    else (s1.setEng (engKey w.ty w.n) { x with stopReq := true }, rspOk)
  else (s1, rspOk)

end Sys2Proof.Machine
end

