-- ==== Sys2Proof/Machine/Operands.lean ====
section
/-!
DEFINITION. What the syllables of a bundle see and what they do (R181, R184): the state at the start of the bundle, operands by
format, local and far accesses, and the effects that a bundle commits together.
-/

namespace Sys2Proof.Machine

/-- What a bundle sees (R181): its engine, the number of its syllables, the state, the system registers and array results at
its start, and the responses to its far access that have come (R194). -/
structure Ctx where
  ty : Nat
  n : Nat
  len : Nat
  s : State
  sys : Tbl Nat
  link : ArrayLink
  resp : List Answer

abbrev Ctx.key (c : Ctx) : Nat := engKey c.ty c.n
abbrev Ctx.c32 (c : Ctx) : Bool := c.ty == 3
abbrev Ctx.w (c : Ctx) : Nat := widthOf c.ty
abbrev Ctx.eng (c : Ctx) : Engine := c.s.eng c.key
abbrev Ctx.mem (c : Ctx) : EngMem := c.s.mem c.key
/-- A system register at the start of the bundle. -/
def Ctx.sr (c : Ctx) (sel : Nat) : Nat := sysGet c.ty c.sys sel
/-- FLG at the start of the bundle. -/
def Ctx.flg (c : Ctx) : Nat := c.sr 0
def Ctx.carry (c : Ctx) : Bool := bitOf c.flg 2
def Ctx.pos (c : Ctx) : Nat := wstPos c.ty (c.sr 2)
def Ctx.res (c : Ctx) : Nat := wstRes (c.sr 2)
/-- The physical register behind v(x). -/
def Ctx.phys (c : Ctx) (v : Nat) : Nat := physReg c.ty c.pos v
/-- v(x) (R186). -/
def Ctx.reg (c : Ctx) (v : Nat) : Nat := if v = 0 then 0 else tblGet 0 c.eng.phys (c.phys v)
/-- The address of the next bundle in sequence (R178). -/
def Ctx.next (c : Ctx) : Nat := pcOf c.ty (c.eng.pc + 4 * c.len)

/-- What a bundle hands to another unit when it completes: a macro-op to the gang with a base pane (R234), a row-port command to
a quad (R237), a descriptor to the DMA queue and a clear of its ERR (R238). -/
inductive Hand where
  | macroOp (base : Nat) (op : BitVec 64)
  | row (quad : Nat) (c : RowCmd)
  | dma (words : List Nat)
  | clearErr
  deriving DecidableEq, Repr

/-- The effects of a syllable, which its bundle commits (R181): physical registers, flags, system registers, G, bytes stored to data
memory, data rows read, loads that become pending, interlocked results, the target of a transfer, extra engine cycles, what
is handed on, whether it is an FBAR. -/
structure Eff where
  regs : List (Nat × Nat) := []
  flags : FlagVals := []
  sys : List (Nat × Nat) := []
  g : Option Bool := none
  stores : List (Nat × List Byte) := []
  rows : List Nat := []
  loads : List (Nat × Nat) := []
  late : List LateRes := []
  jump : Option Nat := none
  cost : Nat := 0
  hand : List Hand := []
  fbar : Bool := false

/-- What a syllable comes to: effects; a synchronous trap with TVAL and INFO; a far access to wait for; a wait; a halt by BRK; a
double trap by RESUME (R199). -/
inductive OpRes where
  | ok (f : Eff)
  | trap (cause tval info : Nat)
  | far (q : NetReq)
  | wait
  | halt
  | double

/-- A result in v(RD). -/
def Ctx.put (c : Ctx) (rd v : Nat) : OpRes := .ok { regs := [(c.phys rd, v)] }

/-- A result in v(RD), and its flags when SF is set (R209). -/
def Ctx.putFlags (c : Ctx) (w : Nat) (r : Nat × FlagVals) : OpRes :=
  .ok { regs := [(c.phys (sylRd w), r.1)], flags := if bitOf w 0 then r.2 else [] }

/-- sext(IMM9) (R208). -/
def Ctx.imm9 (c : Ctx) (w : Nat) : Nat := sextTo c.w 9 (sylImm9 w)

/-- A pair read as one number: v(x) low. -/
def Ctx.pair (c : Ctx) (v : Nat) : Nat := c.reg v + 2 ^ c.w * c.reg (v + 1)

/-! ### Local accesses (R217) -/

/-- The data address of the first uncorrectable memory word that an access meets (R194, R217): in C32 that of the row, in C24 that of the
data word. -/
def Ctx.eccAt (c : Ctx) (a size shown : Nat) : Option Nat :=
  if c.c32 then ((rowsOf a size).find? (fun r => c.mem.bad true [r])).map (fun r => 8 * r)
  else ((List.range (size / 3)).find? (fun k => c.mem.bad true (rowsOf (a + 3 * k) 3))).map (fun k => shown + k)

/-- The trap of a local access at byte address a, if it takes one: MISALIGNED, ACCESS with INFO 0xFF, MEM_ECC, in the order of
R195. The data address that TVAL shows is `shown`; of a MEM_ECC it is that of the uncorrectable word. -/
def Ctx.localTrap (c : Ctx) (a size shown : Nat) (aligned reads : Bool) : Option OpRes :=
  if aligned ∧ a % size ≠ 0 then some (.trap 0x06 shown 0)
  else if dmemBytes < a + size then some (.trap 0x07 shown 0xFF)
  else if reads then (c.eccAt a size shown).map (fun v => .trap 0x08 v 0)
  else none

/-- The number in n bytes of data memory. -/
def Ctx.peek (c : Ctx) (a n : Nat) : Nat := leNum (c.mem.bytes true a n)

/-- The byte address of an M-format syllable in C32, scaled by the access size (R183). -/
def Ctx.addr32 (c : Ctx) (w size : Nat) : Nat := wrapInt 32 ((c.reg (sylRa w) : Int) + signedOf 9 (sylImm9 w) * size)

/-- The word address of an M-format syllable in C24. -/
def Ctx.addr24 (c : Ctx) (w : Nat) : Nat := wrapInt 24 ((c.reg (sylRa w) : Int) + signedOf 9 (sylImm9 w))

/-- A load: targets from n bytes at a, by a conversion of the number read (Table 09-5). -/
def Ctx.load (c : Ctx) (w a size shown : Nat) (aligned : Bool) (f : Nat → List Nat) : OpRes :=
  match c.localTrap a size shown aligned true with
  | some t => t
  | none =>
    let vs := f (c.peek a size)
    .ok { rows := rowsOf a size, loads := (List.range vs.length).map (fun k => (c.phys (sylRd w + k), vs.getD k 0)) }

/-- A store of size bytes of a number at a: a read-merge-write unless it fills a row (R259). -/
def Ctx.store (c : Ctx) (a size shown v : Nat) (aligned : Bool) : OpRes :=
  match c.localTrap a size shown aligned (size < 8) with
  | some t => t
  | none => .ok { stores := [(a, leBytes size v)], rows := if size < 8 then rowsOf a size else [] }

/-! ### Far accesses (R219) -/

/-- The far address in the pair RA. -/
def Ctx.farAddr (c : Ctx) (w : Nat) : Nat :=
  if c.c32 then c.reg (sylRa w) + 2 ^ 32 * (c.reg (sylRa w + 1) % 2 ^ 8)
  else c.reg (sylRa w) + 2 ^ 24 * (c.reg (sylRa w + 1) % 2 ^ 16)

/-- The bytes of a far access that lie in the first of the 64-byte blocks that it touches. -/
def farHead (a n : Nat) : Nat := min n (64 - a % 64)

/-- A request of an engine for some bytes of one 64-byte block from a far address on: a single flit (R302). -/
def farReq (write : Bool) (a n v : Nat) : NetReq :=
  let lane := a % 64
  ⟨write, a, maskOf 64 (fun k => decide (lane ≤ k ∧ k < lane + n)),
    if write then List.replicate lane 0 ++ leBytes n v ++ List.replicate (64 - lane - n) 0 else [], 1, false, false, false⟩

/-- The requests of a far access: a C24 element that lies in two 64-byte blocks takes two (DESIGN CHOICE, log 15: engines issue only
single-flit requests, R302, and the spec does not say how such an element is moved). -/
def farParts (write : Bool) (a n v : Nat) : List NetReq :=
  let h := farHead a n
  farReq write a h v :: (if h < n then [farReq write ((a + h) % 2 ^ 40) (n - h) (v / 2 ^ (8 * h))] else [])

/-- The bytes that the responses to a far access's requests bring. -/
def farBytes (a n : Nat) : List Answer → List Byte
  | [] => []
  | r :: rest =>
    (r.data.drop (a % 64)).take (farHead a n) ++ (match rest with
      | [] => []
      | q :: _ => q.data.take (n - farHead a n))

/-- A far access of n bytes: the wait for its responses, ACCESS on a response other than RSP_OK, or what follows (R194). -/
def Ctx.farDo (c : Ctx) (write : Bool) (a n v : Nat) (f : Nat → Eff) : OpRes :=
  match c.resp.find? (fun r => r.code != rspOk) with
  | some r => .trap 0x07 (a % 2 ^ c.w) r.code
  | none =>
    match (farParts write a n v).drop c.resp.length with
    | q :: _ => .far q
    | [] => .ok (f (leNum (farBytes a n c.resp)))

end Sys2Proof.Machine
end

