-- ==== Sys2Proof/Machine/Alu.lean ====
section
/-!
DEFINITION. The ALU, MUL and FPU syllables (R209 to R216, R229 to R233).
-/

namespace Sys2Proof.Machine

/-- ADD, SUB, ADC, SBC, AND, OR, XOR, ANDN, CMP, TST (Table 09-1). -/
def opArith (c : Ctx) (w : Nat) : OpRes :=
  let x := c.reg (sylRa w)
  let y := c.reg (sylRb w)
  match sylOp w with
  | 0x00 => c.putFlags w (aluAdd c.w x y false)
  | 0x01 => c.putFlags w (aluSub c.w x y false)
  | 0x02 => c.putFlags w (aluAdd c.w x y c.carry)
  | 0x03 => c.putFlags w (aluSub c.w x y (!c.carry))
  | 0x04 => c.putFlags w (aluLogic c.w (x &&& y))
  | 0x05 => c.putFlags w (aluLogic c.w (x ||| y))
  | 0x06 => c.putFlags w (aluLogic c.w (x ^^^ y))
  | 0x07 => c.putFlags w (aluLogic c.w (x &&& notW c.w y))
  | 0x0C => .ok { flags := (aluSub c.w x y false).2 }
  | _ => .ok { flags := (aluLogic c.w (x &&& y)).2 }

/-- SHL, SHR, SAR, ROR (R211). -/
def opShift (c : Ctx) (w : Nat) : OpRes :=
  c.putFlags w (aluShift c.w (sylOp w - 8) (c.reg (sylRa w)) (c.reg (sylRb w) % 256) c.carry)

/-- ADDI, ANDI, ORI, XORI, SHI, CMPI, MOVI, MOVH (Table 09-2). -/
def opImm (c : Ctx) (w : Nat) : OpRes :=
  let x := c.reg (sylRa w)
  let i := c.imm9 w
  match sylOp w with
  | 0x10 => c.put (sylRd w) (aluAdd c.w x i false).1
  | 0x11 => c.put (sylRd w) (x &&& i)
  | 0x12 => c.put (sylRd w) (x ||| i)
  | 0x13 => c.put (sylRd w) (x ^^^ i)
  | 0x14 => c.put (sylRd w) (aluShift c.w (bitsAt w 7 2) x (bitsAt w 0 5) c.carry).1
  | 0x15 => .ok { flags := (aluSub c.w x i false).2 }
  | 0x16 => c.put (sylRd w) (sextTo c.w 14 (sylImm14 w))
  | _ => c.put (sylRd w) ((c.reg (sylRd w) * 2 ^ 14 + sylImm14 w) % 2 ^ c.w)

/-- DADD, DSUB (R216). -/
def opDecimal (c : Ctx) (w : Nat) : OpRes :=
  let r := aluDecimal c.w (sylOp w == 0x19) (c.reg (sylRa w)) (c.reg (sylRb w)) (bitOf w 0) c.carry
  .ok { regs := [(c.phys (sylRd w), r.1)], flags := r.2 }

/-- MINMAX, BITCNT, EXT, INS (Table 09-3). -/
def opField (c : Ctx) (w : Nat) : OpRes :=
  let x := c.reg (sylRa w)
  let y := c.reg (sylRb w)
  match sylOp w with
  | 0x0E => c.put (sylRd w) (aluMinMax c.w (sylFn w) x y)
  | 0x0F => c.put (sylRd w) (aluBitCount c.w (sylFn w) x)
  | 0x1A => c.put (sylRd w) (if c.c32 then extBits (bitOf w 0) x y else extByte (sylFn w) x)
  | _ => c.put (sylRd w) (if c.c32 then insBits (c.reg (sylRd w)) x y else insByte (sylFn w) (c.reg (sylRd w)) x)

/-- MUL (R214). -/
def opMul (c : Ctx) (w : Nat) : OpRes :=
  match aluMul c.w (sylFn w) (c.reg (sylRa w)) (c.reg (sylRb w)) with
  | (lo, none) => c.put (sylRd w) lo
  | (lo, some hi) => .ok { regs := [(c.phys (sylRd w), lo), (c.phys (sylRd w + 1), hi)] }

/-- The physical registers and values of a result in v(RD) or the pair RD. -/
def Ctx.target (c : Ctx) (w : Nat) (pair : Bool) (v : Nat) : List (Nat × Nat) :=
  if pair then [(c.phys (sylRd w), v % 2 ^ 32), (c.phys (sylRd w + 1), v / 2 ^ 32)] else [(c.phys (sylRd w), v)]

/-- DIV (R215): its result is interlocked. -/
def opDiv (c : Ctx) (w : Nat) : OpRes :=
  let y := c.reg (sylRb w)
  if y = 0 then .trap 0x09 w 0
  else
    let r := aluDiv c.w (sylFn w) (c.reg (sylRa w)) y
    .ok { late := [⟨[(c.phys (sylRd w), r)], 0, none, 1, c.eng.cyc + (if c.c32 then 18 else 14), c.eng.pc, w⟩] }

/-- The latency of an FP syllable (Table 09-9). -/
def fpLatency (w : Nat) : Nat :=
  let d := sylFmt w == 2
  match sylOp w with
  | 0x24 => if d then 4 else 3
  | 0x25 => if d then 4 else 3
  | 0x26 => if d then 5 else 3
  | 0x27 => if d then 6 else 4
  | 0x28 => if d then 22 else 14
  | 0x29 => if d then 26 else 16
  | 0x2A => 3
  | _ => 2

/-- An FP operand: a register's low half, a register, a pair (R229). -/
def Ctx.fpArg (c : Ctx) (fmt v : Nat) : Nat :=
  match fmt with
  | 0 => c.reg v % 2 ^ 16
  | 1 => c.reg v
  | _ => c.pair v

/-- An FP result that lands after its latency (R193, R230). -/
def Ctx.fpLate (c : Ctx) (w : Nat) (pair : Bool) (r : FpRes) : OpRes :=
  .ok { late := [⟨c.target w pair r.1, r.2, none, if sylOp w = 0x28 ∨ sylOp w = 0x29 then 2 else 0, c.eng.cyc + fpLatency w, c.eng.pc,
    w⟩] }

/-- FCVT (R231). -/
def opFcvt (c : Ctx) (w : Nat) : OpRes :=
  let rm := c.sr 0x20 % 4
  let fmt := sylFmt w
  match cvtKind w with
  | 0 => c.fpLate w (fmt == 2) (fpConvert (fpFmt (cvtSrc w)) (fpFmt fmt) rm (c.fpArg (cvtSrc w) (sylRa w)))
  | 1 => c.fpLate w false (fpToInt (fpFmt fmt) (if bitOf w 5 then 1 else rm) (bitOf w 6) (c.fpArg fmt (sylRa w)))
  | _ => c.fpLate w (fmt == 2) (fpFromInt (fpFmt fmt) rm (bitOf w 6) (c.reg (sylRa w)))

/-- N, Z, C, V of a comparison as the low bits of FLG. -/
def nzcvNum (f : Bool × Bool × Bool × Bool) : Nat := bit f.1 + 2 * bit f.2.1 + 4 * bit f.2.2.1 + 8 * bit f.2.2.2

/-- The FP syllables (Table 09-9). -/
def opFp (c : Ctx) (w : Nat) : OpRes :=
  let f := fpFmt (sylFmt w)
  let rm := c.sr 0x20 % 4
  let a := c.fpArg (sylFmt w) (sylRa w)
  let b := c.fpArg (sylFmt w) (sylRb w)
  let d := sylFmt w == 2
  match sylOp w with
  | 0x24 => c.fpLate w d (fpAdd f rm false a b)
  | 0x25 => c.fpLate w d (fpAdd f rm true a b)
  | 0x26 => c.fpLate w d (fpMul f rm a b)
  | 0x27 => c.fpLate w d (fpFma f rm (bitOf w 3) (bitOf w 2) a b (c.fpArg (sylFmt w) (sylRd w)))
  | 0x28 => c.fpLate w d (fpDiv f rm a b)
  | 0x29 => c.fpLate w d (fpSqrt f rm a)
  | 0x2A => opFcvt c w
  | 0x2B =>
    let r := fpCompare f (sylFn2 w == 1) a b
    .ok { late := [⟨[], r.2, some (nzcvNum r.1), 0, c.eng.cyc + 2, c.eng.pc, w⟩] }
  | 0x2C => c.fpLate w d (fpMinMax f (sylFn2 w) a b)
  | 0x2D => c.fpLate w false (fpClass f a, 0)
  | _ => c.fpLate w d (fpSign f (sylFn2 w) a b, 0)

end Sys2Proof.Machine
end

