-- ==== Sys2Proof/Machine/Branch.lean ====
section
/-!
DEFINITION. The BR syllables: control transfer, system registers, window moves, waits, array operations, row port and DMA (R187 to R189,
R223 to R228, R234 to R238).
-/

namespace Sys2Proof.Machine

/-- A transfer's effect; PC is a multiple of 4 (Table 08-1). -/
def Ctx.goto (c : Ctx) (a : Nat) : Eff := { jump := some (pcOf c.ty a), cost := 1 }

/-- PC + 4 × DISP19 (R183). -/
def Ctx.branchTarget (c : Ctx) (w : Nat) : Nat := wrapInt c.w ((c.eng.pc : Int) + 4 * signedOf 19 (sylDisp w))

/-- CALL and CALLR to a target (R187). -/
def Ctx.call (c : Ctx) (target : Nat) : OpRes :=
  if (if c.c32 then 6 else 2) ≤ c.res then .trap 0x04 0 0
  else .ok { c.goto target with sys := [(1, c.next), (2, wstOf c.ty (c.pos + 1) (c.res + 1))] }

/-- A target in a register must be a multiple of 4 (R223). -/
def Ctx.aligned (c : Ctx) (w : Nat) (f : Nat → OpRes) : OpRes :=
  let t := c.reg (sylRa w)
  if t % 4 ≠ 0 then .trap 0x06 t 0 else f t

/-- RET (R187). -/
def opRet (c : Ctx) : OpRes :=
  if c.res = 1 then .trap 0x05 0 0
  else .ok { c.goto (c.sr 1) with sys := [(2, wstOf c.ty (c.pos + windowPositions c.ty - 1) (c.res - 1))] }

/-- RESUME (R197). -/
def opResume (c : Ctx) : OpRes :=
  if c.res = 1 then .double
  else
    let flg := c.sr 7
    let tld := c.sr 0xA
    .ok { c.goto (c.sr 5) with
      sys := [(0, setBits flg 5 1 0), (2, wstOf c.ty (c.pos + windowPositions c.ty - 1) (c.res - 1))]
      g := if c.c32 then some (bitOf flg 5) else none
      loads := if bitOf tld (c.w - 1) then [(tld % 256, c.sr 0xB)] else [] }

/-- B, CALL, JR, CALLR, RET, RESUME (Table 09-8). -/
def opTransfer (c : Ctx) (w : Nat) : OpRes :=
  match sylOp w with
  | 0x60 => .ok (c.goto (c.branchTarget w))
  | 0x61 => c.call (c.branchTarget w)
  | 0x62 => c.aligned w (fun t => .ok (c.goto t))
  | 0x63 => match c.call (c.reg (sylRa w)) with
    | .trap a b d => .trap a b d
    | r => c.aligned w (fun _ => r)
  | 0x64 => opRet c
  | _ => opResume c

/-- TRAP and BRK (R224, R524). -/
def opTrap (c : Ctx) (w : Nat) : OpRes :=
  if sylOp w = 0x66 then .trap 0x0A (sylSel w) 0
  else if c.eng.brkHalt ∧ c.s.haltRefusal c.ty c.n = 0 then .halt
  else .trap 0x0B (sylSel w) 0

/-! ### System registers (R203, R225) -/

/-- What MFSR reads of a system register (Table 08-9). CYC_LO and CYC_HI are the two parts of one 48-bit count. -/
def Ctx.readSys (c : Ctx) (sel : Nat) : Nat :=
  match sel with
  | 0x00 => flgValue c.ty c.sys c.link.g
  | 0x0C => c.s.ipend c.ty c.n
  | 0x0E => c.eng.cyc % 2 ^ c.w
  | 0x0F => c.eng.cyc % 2 ^ 48 / 2 ^ c.w
  | 0x30 => c.link.tally
  | 0x31 => c.link.rcnt
  | _ => c.sr sel

/-- The bits of a system register that MTSR writes (Table 08-9 and the layouts). -/
def sysMask (ty sel : Nat) : Nat :=
  match sel with
  | 0x00 => 0x11F
  | 0x04 => if ty = 3 then 0xFFFFF800 else 0xFFF800
  | 0x07 => if ty = 3 then 0x33F else 0x31F
  | 0x0A => 2 ^ (widthOf ty - 1) + 0xFF
  | 0x0D => 0xFFFF
  | 0x20 => 0x3FF3
  | _ => 2 ^ widthOf ty - 1

/-- MFSR and MTSR (R225). -/
def opSys (c : Ctx) (w : Nat) : OpRes :=
  let sel := sylSel w
  if sylOp w = 0x68 then
    c.put (sylRd w) (c.readSys sel)
  else
    let v := c.reg (sylRa w)
    .ok { sys := [(sel, maskMerge (c.sr sel) v (sysMask c.ty sel))]
          g := if sel = 0 ∧ c.c32 then some (bitOf v 5) else none }

/-! ### Window moves (R188) -/

/-- The bytes of one position in memory. -/
def Ctx.posBytes (c : Ctx) : Nat := if c.c32 then 64 else 48
/-- The size of a register in memory. -/
def Ctx.regBytes (c : Ctx) : Nat := if c.c32 then 4 else 3
/-- A data address as a byte address. -/
def Ctx.byteAddr (c : Ctx) (a : Nat) : Nat := if c.c32 then a else 3 * a

/-- The trap of a window move at a data address: MISALIGNED at WSP, ACCESS at the first address outside, MEM_ECC at the first
uncorrectable word. -/
def Ctx.moveTrap (c : Ctx) (a : Nat) (reads : Bool) : Option OpRes :=
  let b := c.byteAddr a
  if c.c32 ∧ c.sr 3 % 8 ≠ 0 then some (.trap 0x06 (c.sr 3) 0)
  else if dmemBytes < b + c.posBytes then
    some (.trap 0x07 (if dmemBytes < b + c.regBytes then a else if c.c32 then dmemBytes else 21845) 0xFF)
  else if reads then
    (c.eccAt b c.posBytes a).map (fun v => .trap 0x08 v 0)
  else none

/-- WSPILL and WFILL (R188). -/
def opWindow (c : Ctx) (w : Nat) : OpRes :=
  let step : Nat := if c.c32 then 64 else 16
  let cost := if c.c32 then 7 else 15
  let old := oldestPos c.ty (c.sr 2)
  if sylOp w = 0x6A then
    let a := wrapInt c.w ((c.sr 3 : Int) - step)
    match c.moveTrap a (!c.c32) with
    | some t => t
    | none =>
      let bytes := ((List.range 16).map (fun k => leBytes c.regBytes (tblGet 0 c.eng.phys (8 + 16 * old + k)))).flatten
      .ok { sys := [(3, a), (2, wstOf c.ty c.pos (c.res - 1))], stores := [(c.byteAddr a, bytes)], cost := cost
            rows := if c.c32 then [] else rowsOf (c.byteAddr a) c.posBytes }
  else
    let a := c.sr 3
    match c.moveTrap a true with
    | some t => t
    | none =>
      let dest := (old + windowPositions c.ty - 1) % windowPositions c.ty
      .ok { sys := [(3, (a + step) % 2 ^ c.w), (2, wstOf c.ty c.pos (c.res + 1))], cost := cost
            rows := rowsOf (c.byteAddr a) c.posBytes
            regs := (List.range 16).map (fun k => (8 + 16 * dest + k, c.peek (c.byteAddr a + k * c.regBytes) c.regBytes)) }

/-! ### Waits (R226 to R228) -/

/-- WFI, SYNC and FBAR. An FBAR's wait is over when it comes here. -/
def opWait (c : Ctx) (w : Nat) : OpRes :=
  match sylOp w with
  | 0x6C => if c.s.ipend c.ty c.n &&& c.sr 0x0D ≠ 0 ∨ (c.c32 ∧ c.link.taskEnd.isSome) then .ok {} else .wait
  | 0x6D => .ok { cost := 3 }
  | _ => .ok { fbar := true }

/-! ### Array operations (R234 to R236) -/

/-- The base pane of the gang that a sash engine drives, when its controllers are in RUN. -/
def State.drivenGang (s : State) (n : Nat) : Option Nat :=
  match s.enginePane 3 n with
  | none => none
  | some p =>
    if s.flag R.PANE_MODE_IN_GANG p && s.gangBase p == p && (s.paneGang p).all (fun q => s.pcState q == pcRun || s.pcState q == pcHalted) then some p
    else none

/-- Every queue of a gang has room, what is on its way to them counted (R156). -/
def State.queuesOpen (s : State) (base : Nat) : Bool :=
  (s.paneGang base).all (fun q => decide ((s.ctl q).queue.length + (tblGet [] s.macroFlight base).length < 32))

/-- AISSUE and ATEND pass a macro-op (R234, R235). -/
def Ctx.issueMacro (c : Ctx) (op : BitVec 64) : OpRes :=
  match c.s.drivenGang c.n with
  | none => .trap 0x07 0 rspRefused
  | some base => if c.s.queuesOpen base then .ok { hand := [.macroOp base op] } else .wait

/-- AISSUE, ATEND, AWAIT, ATALLY (Table 09-13). -/
def opArray (c : Ctx) (w : Nat) : OpRes :=
  match sylOp w with
  | 0x70 => c.issueMacro (BitVec.ofNat 64 (c.pair (sylRa w)))
  | 0x71 => c.issueMacro (BitVec.ofNat 64 opTaskEnd)
  | 0x72 => if c.reg (sylRa w) ≤ c.link.rcnt then .ok {} else .wait
  | _ => c.put (sylRd w) c.link.tally

/-! ### Row port and DMA (R237, R238) -/

/-- The quads of a row port that a mask names: all four for 0. -/
def quadsOf (mask : Nat) : List Nat := (List.range 4).filter (fun q => mask == 0 || bitOf mask q)

/-- A quad has no command waiting or running. -/
def quadIdle (p : RowPort) (q : Nat) : Bool := tblGet [] p.queue q == [] && (tblGet none p.run q).isNone && (tblGet none p.ahead q).isNone

/-- ROWCMD and ROWWAIT (R237). -/
def opRow (c : Ctx) (w : Nat) : OpRes :=
  let p := c.s.port c.n
  if sylOp w = 0x70 then
    let cmd := c.reg (sylRa w)
    let quad := bitsAt cmd 20 2
    if (tblGet [] p.queue quad).length < 4 then .ok { hand := [.row quad ⟨cmd, c.reg (sylRb w), 0, []⟩] } else .wait
  else if (quadsOf (sylFn w)).all (quadIdle p) then .ok {} else .wait

/-- The DMASTAT result (R238). -/
def dmaStat (x : Engine) : Nat := x.dmaDone + x.dmaQueue.length * 2 ^ 12 + bit x.dmaErr * 2 ^ 16

/-- DMA, DMAWAIT, DMASTAT (R238). -/
def opDma (c : Ctx) (w : Nat) : OpRes :=
  match sylOp w with
  | 0x72 =>
    let a := c.reg (sylRa w)
    match c.localTrap (3 * a) 18 a false true with
    | some t => t
    | none =>
      if 8 ≤ c.eng.dmaQueue.length then .wait
      else .ok { regs := [(c.phys (sylRd w), c.eng.dmaNext)], rows := rowsOf (3 * a) 18
                 hand := [.dma ((List.range 6).map (fun k => c.peek (3 * a + 3 * k) 3))] }
  | 0x73 => if (c.eng.dmaDone + 4096 - c.reg (sylRa w) % 4096) % 4096 < 2048 then .ok {} else .wait
  | _ => .ok { regs := [(c.phys (sylRd w), dmaStat c.eng)], hand := if bitOf w 0 then [.clearErr] else [] }

end Sys2Proof.Machine
end

