-- ==== Sys2Proof/Machine/Lsu.lean ====
section
/-!
DEFINITION. The LSU syllables: local loads and stores, far loads and stores, string and move syllables (R217 to R222).
-/

namespace Sys2Proof.Machine

/-- A word rotated right by 8k bits (R218). -/
def rotRight (k v : Nat) : Nat := v / 2 ^ (8 * k) + v % 2 ^ (8 * k) * 2 ^ (32 - 8 * k)
/-- A word rotated left by 8k bits (R218). -/
def rotLeft (k v : Nat) : Nat := rotRight ((4 - k) % 4) v

/-- LD.B, LD.BU, LD.H, LD.HU, LD.W, LD.D, LD.WR (Table 09-5). -/
def opLoad (c : Ctx) (w : Nat) : OpRes :=
  if c.c32 then
    match sylOp w with
    | 0x40 => let a := c.addr32 w 1; c.load w a 1 a true (fun v => [sextTo 32 8 v])
    | 0x41 => let a := c.addr32 w 1; c.load w a 1 a true (fun v => [v])
    | 0x42 => let a := c.addr32 w 2; c.load w a 2 a true (fun v => [sextTo 32 16 v])
    | 0x43 => let a := c.addr32 w 2; c.load w a 2 a true (fun v => [v])
    | 0x44 => let a := c.addr32 w 4; c.load w a 4 a true (fun v => [v])
    | 0x45 => let a := c.addr32 w 8; c.load w a 8 a true (fun v => [v % 2 ^ 32, v / 2 ^ 32])
    | _ =>
      let a := c.addr32 w 4
      c.load w (a / 4 * 4) 4 a true (fun v => [rotRight (a % 4) v])
  else
    let a := c.addr24 w
    c.load w (3 * a) 3 a false (fun v => [v])

/-- ST.B, ST.H, ST.W, ST.D, ST.WR (Table 09-5). -/
def opStore (c : Ctx) (w : Nat) : OpRes :=
  let v := c.reg (sylRd w)
  if c.c32 then
    match sylOp w with
    | 0x48 => let a := c.addr32 w 1; c.store a 1 a v true
    | 0x49 => let a := c.addr32 w 2; c.store a 2 a v true
    | 0x4A => let a := c.addr32 w 4; c.store a 4 a v true
    | 0x4B => let a := c.addr32 w 8; c.store a 8 a (c.pair (sylRd w)) true
    | _ =>
      let a := c.addr32 w 4
      c.store (a / 4 * 4) 4 a (rotLeft (a % 4) v) true
  else
    let a := c.addr24 w
    c.store (3 * a) 3 a v false

/-- LDF, STF (Table 09-6). -/
def opFar (c : Ctx) (w : Nat) : OpRes :=
  let a := c.farAddr w
  if a % 4 ≠ 0 then .trap 0x06 (a % 2 ^ c.w) 0
  else if sylOp w = 0x50 then
    c.farDo false a 4 0 (fun v =>
      { regs := [(c.phys (sylRd w), if c.c32 then v else if sylFn w = 0 then v % 2 ^ 24 else v / 2 ^ 24)] })
  else
    let v := if c.c32 then c.reg (sylRd w) else c.reg (sylRd w) + 2 ^ 24 * (c.reg (sylRb w) % 256)
    c.farDo true a 4 v (fun _ => {})

/-! ### String and move syllables (R220) -/

/-- RPS fields. -/
abbrev Ctx.rps (c : Ctx) : Nat := c.sr 0x13
/-- The bytes of an element. -/
def Ctx.esz (c : Ctx) : Nat := if c.c32 then 2 ^ bitsAt c.rps 16 2 else 3
/-- The far address of a side: {FHI, register}. -/
def Ctx.farSide (c : Ctx) (v : Nat) : Nat := if c.c32 then v + 2 ^ 32 * bitsAt c.rps 8 8 else v + 2 ^ 24 * bitsAt c.rps 8 16
/-- A side's register after one step (R220). -/
def Ctx.stepSide (c : Ctx) (far : Bool) (v : Nat) : Nat :=
  let k := if c.c32 then c.esz else if far then 3 else 1
  if bitOf c.rps 2 then wrapInt c.w ((v : Int) - k) else (v + k) % 2 ^ c.w
/-- The byte address of a local side. -/
def Ctx.localSide (c : Ctx) (v : Nat) : Nat := if c.c32 then v else 3 * v

/-- A local side's trap. -/
def Ctx.sideTrap (c : Ctx) (v : Nat) (reads : Bool) : Option OpRes := c.localTrap (c.localSide v) c.esz v c.c32 reads

/-- A far side's trap: C32 elements must be aligned to their size. -/
def Ctx.farSideTrap (c : Ctx) (v : Nat) : Option OpRes :=
  if c.c32 ∧ c.farSide v % c.esz ≠ 0 then some (.trap 0x06 (c.farSide v % 2 ^ c.w) 0) else none

/-- The registers, flags and status after an iteration that compared x with y, or moved (R220); under REP the count steps too. -/
def stringDone (c : Ctx) (w : Nat) (rep : Bool) (cmp : Option (Nat × Nat)) (srcFar dstFar : Bool) : Eff :=
  let op := sylOp w
  let src := if op = 0x58 ∨ op = 0x5A then [(0x11, c.stepSide srcFar (c.sr 0x11))] else []
  let base := src ++ [(0x12, c.stepSide dstFar (c.sr 0x12))]
  let rpc := c.sr 0x10 - 1
  match cmp with
  | none => { sys := base ++ (if rep then [(0x10, rpc)] else []) }
  | some (x, y) =>
    let f := (aluSub c.w x y false).2
    let flg := f.foldl (fun a e => setBits a e.1 1 (bit e.2)) c.flg
    let stop := bitsAt c.rps 4 4
    let hit := stop != 0 && condHolds stop false flg false
    { flags := f
      sys := base ++ [(0x13, setBits c.rps 3 1 (bit hit))] ++ (if rep then [(0x10, if hit then 0 else rpc)] else []) }

/-- Which of two sides' traps is taken (R195): the one whose cause ranks first, the source's on equal causes. -/
def firstSide : Option OpRes → Option OpRes → Option OpRes
  | some (.trap c v i), some (.trap d w j) => if d < c then some (.trap d w j) else some (.trap c v i)
  | some t, _ => some t
  | none, u => u

/-- One iteration of ECOPY, EFILL, ECOMP or ESEEK (R220). -/
def opString (c : Ctx) (w : Nat) (rep : Bool) : OpRes :=
  let op := sylOp w
  let srcFar := c.rps % 4 == 1
  let dstFar := c.rps % 4 == 2
  let usesSrc := op == 0x58 || op == 0x5A
  let writes := op == 0x58 || op == 0x59
  let sv := c.sr 0x11
  let dv := c.sr 0x12
  let srcTrap := if !usesSrc then none else if srcFar then c.farSideTrap sv else c.sideTrap sv true
  let dstTrap := if dstFar then c.farSideTrap dv else c.sideTrap dv (!writes || decide (c.esz < 8))
  match firstSide srcTrap dstTrap with
  | some t => t
  | none =>
    let n := c.esz
    let val := c.reg (sylRb w) % 2 ^ (8 * n)
    let local_ := fun (v : Nat) => c.peek (c.localSide v) n
    let rowsAt := fun (v : Nat) => rowsOf (c.localSide v) n
    let fin := fun (cmp : Option (Nat × Nat)) => stringDone c w rep cmp srcFar dstFar
    let put := fun (v : Nat) => { (fin none) with stores := [(c.localSide dv, leBytes n v)], rows := rowsAt dv }
    match op with
    | 0x58 =>
      if srcFar then c.farDo false (c.farSide sv) n 0 put
      else if dstFar then c.farDo true (c.farSide dv) n (local_ sv) (fun _ => { (fin none) with rows := rowsAt sv })
      else .ok { (put (local_ sv)) with rows := rowsAt sv ++ rowsAt dv }
    | 0x59 =>
      if dstFar then c.farDo true (c.farSide dv) n val (fun _ => fin none) else .ok (put val)
    | 0x5A =>
      if srcFar then c.farDo false (c.farSide sv) n 0 (fun v => { (fin (some (v, local_ dv))) with rows := rowsAt dv })
      else if dstFar then c.farDo false (c.farSide dv) n 0 (fun v => { (fin (some (local_ sv, v))) with rows := rowsAt sv })
      else .ok { (fin (some (local_ sv, local_ dv))) with rows := rowsAt sv ++ rowsAt dv }
    | _ =>
      if dstFar then c.farDo false (c.farSide dv) n 0 (fun v => fin (some (v, val)))
      else .ok { (fin (some (local_ dv, val))) with rows := rowsAt dv }

end Sys2Proof.Machine
end

