-- ==== Sys2Proof/Machine/Bundle.lean ====
section
/-!
DEFINITION. How an engine runs a bundle (R178 to R202): the syllables collected up to the stop bit, stalls, illegal and reserved
encodings, traps by rank, waits, far accesses, REP, and the commit of all effects together.
-/

namespace Sys2Proof.Machine

/-! ### One syllable -/

/-- What a syllable comes to, its condition held (Tables 08-10 to 08-13). -/
def opEffect (c : Ctx) (rep : Bool) (w : Nat) : OpRes :=
  let op := sylOp w
  if op ≤ 0x07 ∨ op = 0x0C ∨ op = 0x0D then opArith c w
  else if op ≤ 0x0B then opShift c w
  else if op = 0x0E ∨ op = 0x0F ∨ op = 0x1A ∨ op = 0x1B then opField c w
  else if op ≤ 0x17 then opImm c w
  else if op ≤ 0x19 then opDecimal c w
  else if op = 0x1F then .ok {}
  else if op = 0x20 then opMul c w
  else if op = 0x21 then opDiv c w
  else if op ≤ 0x3F then opFp c w
  else if op ≤ 0x46 then opLoad c w
  else if op ≤ 0x4C then opStore c w
  else if op ≤ 0x51 then opFar c w
  else if op ≤ 0x5B then opString c w rep
  else if op ≤ 0x65 then opTransfer c w
  else if op ≤ 0x67 then opTrap c w
  else if op ≤ 0x69 then opSys c w
  else if op ≤ 0x6B then opWindow c w
  else if op ≤ 0x6E then opWait c w
  else if c.c32 then opArray c w
  else if op ≤ 0x71 then opRow c w
  else opDma c w

/-- The condition of a syllable holds on the flags at the start of the bundle (R184). -/
def Ctx.holds (c : Ctx) (w : Nat) : Bool :=
  condHolds (sylCond w) (sylGx w) c.flg (if c.c32 then c.link.g else bitOf c.flg 4)

/-- What a syllable comes to: no effect when its condition is false (R184). -/
def Ctx.result (c : Ctx) (rep : Bool) (w : Nat) : OpRes := if c.holds w then opEffect c rep w else .ok {}

/-! ### Stalls (R193, R215, R228, R232, R233) -/

/-- A syllable waits until no interlocked result is pending (R193). -/
def waitsForAll (w : Nat) : Bool :=
  let op := sylOp w
  op == 0x61 || op == 0x63 || op == 0x64 || op == 0x65 || op == 0x6A || op == 0x6B || (op == 0x69 && sylSel w == 2)

/-- A syllable stalls until an interlocked result has landed. -/
def stallsOn (ty wpos : Nat) (r : LateRes) (w : Nat) : Bool :=
  let touched := ((readsRegs ty w ++ writesRegs ty w).filter (fun v => v != 0)).map (physReg ty wpos)
  waitsForAll w || r.regs.any (fun p => touched.contains p.1) || (r.nzcv.isSome && usesFlags ty w) ||
  (r.unit == 1 && sylOp w == 0x21) || (r.unit == 2 && (sylOp w == 0x28 || sylOp w == 0x29)) || (r.unit != 1 && sylOp w == 0x6E)

/-- The engine once a bundle has stalled for what it must (R193). -/
def stall (ty : Nat) (ws : List Nat) (x : Engine) : Engine :=
  let wpos := wstPos ty (sysGet ty x.sys 2)
  let held := x.late.filter (fun r => ws.any (stallsOn ty wpos r))
  landUpTo ty (max x.cyc (lastLanding held)) x

/-- The engine as a bundle starts: stalled for what it must, the syllables taken from the buffer. -/
def takeBundle (ty : Nat) (ws : List Nat) (x : Engine) : Engine := { (stall ty ws x) with bundle := [], held := false }

/-! ### Committing (R181, R191) -/

/-- What is handed to other units. -/
def applyHand (ty n : Nat) (s : State) (h : Hand) : State :=
  let k := engKey ty n
  match h with
  | .macroOp base op =>
    let l := tblGet [] s.macroFlight base ++ [(op, s.get (R.ENG_TASK_TSN.on ty) n)]
    { s with macroFlight := tblSet [] s.macroFlight base l }
  | .row quad cmd =>
    let p := s.port n
    s.setPort n { p with queue := tblSet [] p.queue quad (tblGet [] p.queue quad ++ [cmd]) }
  | .dma words =>
    let x := s.eng k
    s.setEng k { x with dmaQueue := x.dmaQueue ++ [⟨x.dmaNext, words⟩], dmaNext := (x.dmaNext + 1) % 4096 }
  | .clearErr => s.setEng k { (s.eng k) with dmaErr := false }

/-- An engine's registers with the effects of a syllable. -/
def applyRegs (ty : Nat) (x : Engine) (f : Eff) : Engine :=
  let t1 := f.sys.foldl (fun t e => sysPut ty t e.1 e.2) x.sys
  let t2 := if f.flags = [] then t1
    else sysPut ty t1 0 (f.flags.foldl (fun a e => setBits a e.1 1 (bit e.2)) (sysGet ty t1 0))
  { x with phys := physPuts x.phys f.regs, sys := t2, late := f.late.foldl (fun l r => insertLate r l) x.late }

/-- The effects of one syllable outside the engine's registers. -/
def applyOutside (ty n : Nat) (s : State) (f : Eff) : State :=
  let k := engKey ty n
  let s1 := readRows ty n true f.rows s
  let s2 := f.stores.foldl (fun s e => dmemStore ty n e.1 e.2 s) s1
  let s3 := match f.g with
    | some g => s2.setLink k { s2.link k with g := g }
    | none => s2
  f.hand.foldl (applyHand ty n) s3

/-- The address of the last bundle issued (xxx_PC). -/
def showPc (ty n pc : Nat) (s : State) : State := s.put (R.ENG_PC_PC.on ty) n pc

/-- A bundle's effects, all at its end (R181); loads of the bundle before land unless this one wrote their target, at once or by an
interlocked result (R191). -/
def commit (c : Ctx) (fs : List Eff) (s : State) : State :=
  let s1 := fs.foldl (applyOutside c.ty c.n) s
  let x0 := s1.eng c.key
  let pc := x0.pc
  let x1 := fs.foldl (applyRegs c.ty) x0
  let written := (fs.map (fun f => (f.regs ++ (f.late.map (fun r => r.regs)).flatten).map (fun e => e.1))).flatten
  let jump := (fs.filterMap (fun f => f.jump)).head?
  showPc c.ty c.n pc (s1.setEng c.key { x1.stepped with
    due := x1.loads.filter (fun e => !written.contains e.1)
    loads := (fs.map (fun f => f.loads)).flatten
    pc := jump.getD c.next
    cyc := x1.cyc + 1 + (fs.map (fun f => f.cost)).sum
    bundle := []
    far := none })

/-! ### A bundle -/

/-- The trap that ranks first among the syllables' (R195): the smallest cause, then the lowest slot. -/
def firstTrap (i : Nat) : List (Nat × OpRes) → Option (Nat × Nat × Nat × Nat)
  | [] => none
  | (_, .trap cause tval info) :: rest =>
    match firstTrap (i + 1) rest with
    | some (c2, r) => if cause ≤ c2 then some (cause, i, tval, info) else some (c2, r)
    | none => some (cause, i, tval, info)
  | _ :: rest => firstTrap (i + 1) rest

/-- A syllable waits. -/
def OpRes.isWait : OpRes → Bool
  | .wait => true
  | _ => false
/-- A syllable halts its unit. -/
def OpRes.isHalt : OpRes → Bool
  | .halt => true
  | _ => false
/-- A syllable is a double trap. -/
def OpRes.isDouble : OpRes → Bool
  | .double => true
  | _ => false
/-- A syllable's far access. -/
def OpRes.farOf : OpRes → Option NetReq
  | .far q => some q
  | _ => none
/-- A syllable's effects. -/
def OpRes.effOf : OpRes → Option Eff
  | .ok f => some f
  | _ => none

/-- The halt of a unit by BRK (R524): the engine that executed it halts here, the others at their next boundaries. -/
def haltByBrk (ty n : Nat) (s : State) : State :=
  let s2 := (s.haltUnit ty n).foldl (fun t e =>
    if t.engState e.1 e.2 = esRunning then
      let x := t.eng (engKey e.1 e.2)
      t.setEng (engKey e.1 e.2) { x with haltReq := 2, stepReq := 0 }
    else t) s
  takeHalt ty n s2

/-- What follows the commit of a bundle: an FBAR with an enabled FP exception pending in a handler is a double trap (R199, R228). -/
def afterBundle (ty n : Nat) (fs : List Eff) (s : State) : State :=
  let t := (s.eng (engKey ty n)).sys
  if fs.any (fun f => f.fbar) && bitOf (sysGet ty t 0x20) 15 && trapActive ty t then engineFault ty n fkDoubleTrap 4 s else s

/-- The engine drops a bundle that has had no effect: it is at it again. -/
def dropBundle (ty n : Nat) (s : State) : State :=
  let k := engKey ty n
  s.setEng k { (s.eng k) with bundle := [], far := none }

/-- A bundle whose wait takes no event: the spec names the waits of AISSUE, ATEND, AWAIT, ROWWAIT and DMAWAIT as those that an interrupt
ends (R198). WFI completes, and the event comes at the boundary after it (R226); ROWCMD and DMA hold theirs until a queue has
room (DEDUCED, log 18). -/
def holdsEvents (ty : Nat) (ws : List Nat) : Bool :=
  ws.any (fun w => sylOp w == 0x6C || (ty != 3 && (sylOp w == 0x72 || (ty == 4 && sylOp w == 0x70))))

/-- Engine cycles pass in a wait: how many, no rule says. -/
def passCycles (ty n : Nat) (s : State) : State :=
  let r := s.draw
  let x := r.2.eng (engKey ty n)
  r.2.setEng (engKey ty n) { x with cyc := x.cyc + 1 + r.1 }

/-- A bundle waits (R198, R226, R234, R236 to R238): it has had no effect, and engine cycles pass. -/
def waitBundle (ty n : Nat) (ws : List Nat) (s : State) : State :=
  let k := engKey ty n
  let s1 := passCycles ty n (dropBundle ty n s)
  s1.setEng k { s1.eng k with held := holdsEvents ty ws }

/-- A bundle whose syllables' results are known is trapped, halted, left waiting, or committed. -/
def finishBundle (c : Ctx) (ws : List Nat) (rep : Bool) (stamp : Nat) (s : State) : State :=
  let rs := ws.map (fun w => (w, c.result rep w))
  let pc := c.eng.pc
  match firstTrap 0 rs with
  | some (cause, slot, tval, info) =>
    if cause = 0x0A then syncTrap c.ty c.n cause slot tval info c.next (nextBundle s c.ty c.n c.next) s
    else syncTrap c.ty c.n cause slot tval info pc c.next s
  | none =>
    if rs.any (fun r => r.2.isHalt) then haltByBrk c.ty c.n (dropBundle c.ty c.n s)
    else if rs.any (fun r => r.2.isDouble) then engineFault c.ty c.n fkDoubleTrap 4 s
    else if rs.any (fun r => r.2.isWait) then waitBundle c.ty c.n ws s
    else match rs.findSome? (fun r => r.2.farOf) with
      | some q =>
        let i := engInit c.ty c.n
        issueRequest i.src i.init q stamp (s.setEng c.key { c.eng with bundle := [], far := some ⟨ws, rep, c.sys, c.link, c.resp⟩ })
      | none =>
        let fs := rs.filterMap (fun r => r.2.effOf)
        afterBundle c.ty c.n fs (commit c fs s)

/-- What a bundle sees, as it stands now. -/
def Ctx.now (ty n len : Nat) (s : State) : Ctx := ⟨ty, n, len, s, (s.eng (engKey ty n)).sys, s.link (engKey ty n), []⟩

/-- The stop that was requested is taken at the end of a bundle (R263). -/
def endBundle (ty n : Nat) (s : State) : State :=
  let x := s.eng (engKey ty n)
  if x.stopReq ∧ x.bundle = [] ∧ x.far.isNone ∧ x.rep.isNone then stopEngine ty n s else s

/-- After an iteration: the bundle goes on while RPC is not 0 (R202), with its PC unchanged. -/
def keepRep (ty n : Nat) (ws : List Nat) (pc : Nat) (loads : List (Nat × Nat)) (s : State) : State :=
  let k := engKey ty n
  let x := s.eng k
  if x.far.isSome ∨ s.engState ty n = esFaulted ∨ trapped x then s
  else if sysGet ty x.sys 0x10 = 0 then s.setEng k { x with rep := none }
  else s.setEng k { x with rep := some ws, pc := pc, due := [], loads := loads }
where
  /-- The iteration trapped: the PC is at a vector. -/
  trapped (x : Engine) : Bool := x.rep.isNone

/-- A complete bundle at PC is run (R180, R195, R200 to R202). -/
def runBundle (ty n : Nat) (ws : List Nat) (stamp : Nat) (s : State) : State :=
  let k := engKey ty n
  let s0 := s.setEng k (takeBundle ty ws (s.eng k))
  let c := Ctx.now ty n ws.length s0
  let pc := c.eng.pc
  match illegalBundle ty ws with
  | some (i, w) => syncTrap ty n 0x02 i w 0 pc c.next s0
  | none =>
    match reservedFrom ty (c.sr 0x13) c.reg c.res (trapActive ty c.sys) (isRepBundle ws) 0 ws with
    | some (i, w) => syncTrap ty n 0x03 i w 0 pc c.next s0
    | none =>
      if isRepBundle ws then
        if c.sr 0x10 = 0 then endBundle ty n (commit c [] s0)
        else
          let s1 := s0.setEng k { c.eng with rep := some ws }
          keepRep ty n ws pc c.eng.loads (finishBundle (Ctx.now ty n 2 s1) ws true stamp s1)
      else endBundle ty n (finishBundle c ws false stamp s0)

/-! ### Issue -/

/-- The engine can take a syllable: RUNNING, its domain ON, no far access and no REP bundle in progress. -/
def canIssue (s : State) (ty n : Nat) : Bool :=
  s.engState ty n == esRunning && s.domainOn (pageDomain ty n) && (s.eng (engKey ty n)).far.isNone &&
  (s.eng (engKey ty n)).rep.isNone

/-- Whether an address can be fetched: instruction memory, or the boot ROM of GENG_0 (R258). -/
def fetchable (ty n a : Nat) : Bool :=
  decide (a + 4 ≤ imemBytes ty) || (ty == 5 && n == 0 && decide (0xF00000 ≤ a ∧ a + 4 ≤ 0xF10000))

/-- A syllable joins the bundle in progress; the stop bit, or the last place, completes the bundle (R178). -/
def pushSyl (ty n w stamp : Nat) (s : State) : State :=
  let k := engKey ty n
  let x := s.eng k
  let i := x.bundle.length
  let a := (x.pc + 4 * i) % 2 ^ widthOf ty
  let inMem := decide (a + 4 ≤ imemBytes ty)
  if !fetchable ty n a ∨ (inMem ∧ (s.mem k).bad false [a / 8]) then
    let (v, s1) := (if inMem then readRow ty n false (a / 8) s else s).draw
    syncTrap ty n 0x01 i a 0 x.pc (pcOf ty v) s1
  else
    let s1 := if inMem then readRow ty n false (a / 8) s else s
    let ws := x.bundle ++ [w]
    if sylStop w ∨ ws.length = bundleMax ty then runBundle ty n ws stamp s1
    else s1.setEng k { x with bundle := ws }

/-- A syllable reaches its engine (R178, R195): at a bundle boundary what the boundary takes comes first, and the syllable is not
executed then. A bundle that waits with its events held is at no boundary. -/
def issueWord (ty n w stamp : Nat) (s : State) : State :=
  if canIssue s ty n then
    let x := s.eng (engKey ty n)
    if x.held ∧ x.bundle = [] then pushSyl ty n w stamp (settleEngine ty n s)
    else if x.bundle = [] then
      let s1 := settleEngine ty n s
      (boundary ty n ((s1.eng (engKey ty n)).stepReq == 2) s1).getD (pushSyl ty n w stamp s1)
    else pushSyl ty n w stamp s
  else s

/-- A syllable with an opcode reaches its engine. -/
def issue (e : EngineId) (op : Nat) (y : Syl) (s : State) : State := issueWord e.ty e.num (sylWord op y) y.stamp s

/-! ### REP and far accesses (R194, R202, R222) -/

/-- The boundary between two iterations, or one iteration, of a REP bundle. -/
def iterate (ty n stamp : Nat) (maskIrq : Bool) (s : State) : State :=
  let k := engKey ty n
  match (s.eng k).rep with
  | none => s
  | some ws =>
    if (s.eng k).far.isSome then s
    else
      let s1 := settleEngine ty n s
      match boundary ty n maskIrq s1 with
      | some t => t
      | none => finishBundle (Ctx.now ty n 2 s1) ws true stamp s1

/-- One iteration of the REP bundle in progress (R202). -/
def stringIteration (ty n stamp : Nat) (maskIrq : Bool) (s : State) : State :=
  let x := s.eng (engKey ty n)
  match x.rep with
  | none => s
  | some ws => keepRep ty n ws x.pc x.loads (iterate ty n stamp maskIrq s)

/-- The response to an engine's far access, and the inbox without it. -/
def takeFar (ty n : Nat) (s : State) : Option (Answer × State) :=
  let i := engInit ty n
  let key := i.src * 32 + i.init
  match tblGet [] s.inbox key with
  | [] => none
  | (a, _) :: rest => some (a, { s with inbox := tblSet [] s.inbox key rest })

/-- The response arrives and the waiting bundle completes, or takes ACCESS (R194). -/
def farResponse (ty n stamp : Nat) (s : State) : State :=
  let k := engKey ty n
  let x := s.eng k
  match x.far with
  | none => s
  | some f =>
    match takeFar ty n s with
    | none => s
    | some (a, s1) =>
      let s2 := passCycles ty n (s1.setEng k { x with far := none })
      let c : Ctx := ⟨ty, n, f.words.length, s2, f.sys, f.link, f.answers ++ [a]⟩
      if f.isRep then
        endBundle ty n (keepRep ty n f.words x.pc x.loads (finishBundle c f.words true stamp s2))
      else endBundle ty n (finishBundle c f.words false stamp s2)

end Sys2Proof.Machine
end

