-- ==== Sys2Proof/Machine/Dma.lean ====
section
/-!
DEFINITION. DMA engines, watchdogs, scrub, lockstep and the registers of the engine pages (R238, R259 to R276).
-/

namespace Sys2Proof.Machine

/-! ### Descriptors (R269) -/

/-- Word k of a descriptor. -/
def descWord (d : DmaXfer) (k : Nat) : Nat := d.words.getD k 0
abbrev descOut (d : DmaXfer) : Bool := bitOf (descWord d 0) 23
abbrev descIrq (d : DmaXfer) : Bool := bitOf (descWord d 0) 22
abbrev descLen (d : DmaXfer) : Nat := descWord d 0 % 2 ^ 16 + 1
abbrev descLocal (d : DmaXfer) : Nat := descWord d 1 % 2 ^ 16
abbrev descFar (d : DmaXfer) : Nat := descWord d 2 + 2 ^ 24 * (descWord d 3 % 2 ^ 16)
abbrev descRows (d : DmaXfer) : Nat := descWord d 4 % 2 ^ 12 + 1
abbrev descStride (d : DmaXfer) : Nat := descWord d 5

/-- A descriptor that issues no request (R270). -/
def descBad (d : DmaXfer) : Bool :=
  bitsAt (descWord d 0) 16 6 != 0 || descLen d % 4 != 0 || bitsAt (descWord d 1) 16 8 != 0 || descLocal d % 4 != 0 ||
  descWord d 2 % 4 != 0 || bitsAt (descWord d 3) 16 8 != 0 || bitsAt (descWord d 4) 12 12 != 0 || descStride d % 4 != 0 ||
  decide (dmemBytes < descLocal d + descRows d * descLen d)

/-- The bytes of local memory that a DMA engine reads: those of an uncorrectable row are free values (DESIGN CHOICE, log 19: R259 and R270 do
not say what becomes of the transfer). -/
def dmaBytes (m : EngMem) (a n v : Nat) : List Byte :=
  (List.range n).map (fun k =>
    if m.decode true ((a + k) / 8) == .uncorrectable then BitVec.ofNat 8 (v / 2 ^ (8 * k)) else m.byte true (a + k))

/-- DMA reads bytes of local memory (R259): the rows are met as any read meets them. -/
def dmaRead (ty n a len : Nat) (s : State) : Nat × State :=
  let m := s.mem (engKey ty n)
  let s1 := readRows ty n true (rowsOf a len) s
  if m.bad true (rowsOf a len) then (leNum (dmaBytes m a len s1.draw.1), s1.draw.2) else (leNum (m.bytes true a len), s1)

/-- DMA writes bytes of local memory (R259): a row that it does not fill is read and merged. -/
def dmaWrite (ty n a : Nat) (bytes : List Byte) (s : State) : State :=
  let part := (rowsOf a bytes.length).filter (fun r => decide (8 * r < a) || decide (a + bytes.length < 8 * r + 8))
  let s1 := part.foldl (fun s r =>
    if (s.mem (engKey ty n)).decode true r == .uncorrectable then
      let x := dmaRead ty n (8 * r) 8 s
      dmemStore ty n (8 * r) (leBytes 8 x.1) x.2
    else readRow ty n true r s) s
  dmemStore ty n a bytes s1

/-- The next request of a transfer (R270) with what it carries: it does not cross a 64-byte boundary of the far address; with its local
address and its bytes. -/
def dmaNextReq (d : DmaXfer) (r : DmaRun) (v : Nat) : NetReq × Nat × Nat :=
  let far := (descFar d + r.row * descStride d + r.col) % 2 ^ 40
  let loc := descLocal d + r.row * descLen d + r.col
  let n := min (descLen d - r.col) (64 - far % 64)
  ({ farReq (descOut d) far n v with dma := true }, loc, n)

/-- Requests are issued until eight are outstanding or the rows are done (R270). -/
def dmaIssue (ty n stamp : Nat) : Nat → State → State
  | 0, s => s
  | fuel + 1, s =>
    let k := engKey ty n
    let x := s.eng k
    match x.dmaQueue, x.dmaRun with
    | d :: _, some r =>
      if r.err.isSome ∨ 8 ≤ r.out.length ∨ descRows d ≤ r.row then s
      else
        let (_, loc, len) := dmaNextReq d r 0
        let x1 := if descOut d then dmaRead ty n loc len s else (0, s)
        let (q, _, _) := dmaNextReq d r x1.1
        let col := r.col + len
        let r2 := { r with row := if col = descLen d then r.row + 1 else r.row, col := if col = descLen d then 0 else col
                           out := r.out ++ [(q, loc)] }
        dmaIssue ty n stamp fuel (issueRequest (engInit ty n).src (dmaInit ty n) q stamp (x1.2.setEng k { x1.2.eng k with dmaRun := some r2 }))
    | _, _ => s

/-- The bytes that a request enables, from its answer's lanes. -/
def laneBytes (q : NetReq) (data : List Byte) : List Byte :=
  (List.range (64 * q.flits)).filterMap (fun i => if bitOf q.be i then some (data.getD i 0) else none)

/-- One response of the transfer in progress: its bytes are written, or the first error is kept (R270). -/
def dmaTake (ty n : Nat) (s : State) (e : Answer × NetReq) : State :=
  let k := engKey ty n
  let x := s.eng k
  match x.dmaRun with
  | none => s
  | some r =>
    match r.out.find? (fun o => o.1 == e.2) with
    | none => s
    | some o =>
      let r1 := { r with out := r.out.erase o }
      if e.1.code ≠ rspOk then
        s.setEng k { x with dmaRun := some (if r.err.isNone then { r1 with err := some (e.1.code, e.2.addr) } else r1) }
      else
        let s1 := s.setEng k { x with dmaRun := some r1 }
        if e.2.write then s1 else dmaWrite ty n o.2 (laneBytes e.2 e.1.data) s1

/-- What has arrived for an engine's DMA is taken, and further requests follow. -/
def dmaAdvance (ty n stamp : Nat) (s : State) : State :=
  let key := (engInit ty n).src * 32 + dmaInit ty n
  let got := tblGet [] s.inbox key
  let s1 := got.foldl (dmaTake ty n) { s with inbox := tblSet [] s.inbox key [] }
  dmaIssue ty n stamp 8 s1

/-- A transfer completes (R238, R270): DONE_SEQ advances; an error is recorded unless one already is; IRQ_2 and IRQ_3. -/
def dmaFinish (ty n : Nat) (d : DmaXfer) (err : Option (Nat × Option Nat)) (s : State) : State :=
  let k := engKey ty n
  let x := s.eng k
  let s1 := s.setEng k { x with dmaQueue := x.dmaQueue.drop 1, dmaRun := none, dmaDone := d.seq, dmaErr := x.dmaErr || err.isSome }
  let s2 := if descIrq d then setIrq ty n 2 s1 else s1
  match err with
  | none => s2
  | some (code, addr) =>
    let s3 := setIrq ty n 3 (s2.raise ty n 7)
    if s3.flag (R.ENG_DMA_ERR_V.on ty) n then s3
    else
      let s4 := s3.setReg ty n 0x068 (word (2 ^ 31 + code * 2 ^ 12 + d.seq))
      match addr with
      | some a => (s4.setReg ty n 0x06C (word (a % 2 ^ 32))).setReg ty n 0x070 (word (a / 2 ^ 32))
      | none => s4

/-- The DMA engine takes the next descriptor (R270). -/
def dmaStart (ty n stamp : Nat) (s : State) : State :=
  let k := engKey ty n
  let x := s.eng k
  match x.dmaQueue, x.dmaRun with
  | d :: _, none =>
    if descBad d then dmaFinish ty n d (some (0xFE, none)) s
    else dmaIssue ty n stamp 8 (s.setEng k { x with dmaRun := some ⟨0, 0, [], none⟩ })
  | _, _ => s

/-- All responses of the transfer have arrived (R270). -/
def dmaComplete (ty n stamp : Nat) (s : State) : State :=
  let s1 := dmaAdvance ty n stamp s
  let x := s1.eng (engKey ty n)
  match x.dmaQueue, x.dmaRun with
  | d :: _, some r =>
    if r.out = [] ∧ (r.err.isSome ∨ descRows d ≤ r.row) then dmaFinish ty n d (r.err.map (fun e => (e.1, some e.2))) s1 else s1
  | _, _ => s1

/-! ### Watchdogs (R268) -/

/-- Half of the period remains. -/
def wdgWarn (ty n : Nat) (s : State) : State :=
  if wdgRuns s ty n ∧ s.domainOn (pageDomain ty n) ∧ wdgAboveHalf s ty n then
    (setIrq ty n 5 (s.put (R.ENG_WDG_COUNT_CYCLES.on ty) n ((s.eng (engKey ty n)).wdgFull / 2))).raise ty n 1
  else s

/-- The count reaches 0. -/
def wdgExpire (ty n : Nat) (s : State) : State :=
  if wdgRuns s ty n ∧ s.domainOn (pageDomain ty n) ∧ !wdgAboveHalf s ty n then
    engineFault ty n fkWatchdog 2 (s.put (R.ENG_WDG_COUNT_CYCLES.on ty) n 0)
  else s

/-- A write of xxx_WDG_KICK. -/
def wdgKick (w : WriteReq) (s : State) : Written :=
  if w.value = 0x0000C35A then (wdgLoad w.ty w.n s, rspOk) else (s.err w.ty w.n 0x050 0x0101, rspOk)

/-! ### Scrub and lockstep (R259, R262) -/

/-- The scrub of one row (R259): a corrected row is rewritten; an uncorrectable one stops the engine. -/
def scrubOne (ty n : Nat) (dm : Bool) (row : Nat) (s : State) : State :=
  let k := engKey ty n
  let s1 := readRow ty n dm row s
  match (s.mem k).decode dm row with
  | .clean => s1
  | .corrected _ _ => s1.setMem k ((s1.mem k).settleRow dm row)
  | .uncorrectable => if s1.engState ty n = esFaulted then s1.raise ty n 6
      else engineFault ty n (if dm then fkDmemUe else fkImemUe) 6 s1

/-- One row of each memory is scrubbed. -/
def engineScrub (ty n : Nat) (s : State) : State :=
  let k := engKey ty n
  let r := (s.mem k).scrubRow
  let s1 := scrubOne ty n true (r % (dmemBytes / 8)) (scrubOne ty n false (r % (imemBytes ty / 8)) s)
  s1.setMem k { (s1.mem k) with scrubRow := r + 1 }

/-- A lockstep mismatch (R262). -/
def lockstepMismatch (ty n : Nat) (s : State) : State :=
  if ty ≠ 4 ∧ s.engState ty n = esRunning ∧ s.domainOn (pageDomain ty n) then engineFault ty n fkLockstep 3 s else s

/-- The memories of an engine have been set to 0 (R260): GENG_0, whose ENABLE resets to 1, then starts (R263). -/
def engineInitDone (ty n : Nat) (s : State) : State :=
  let k := engKey ty n
  if (s.mem k).initRunning then
    let s1 := (s.setMem k EngMem.idle).raise ty n 8
    if ty = 5 ∧ n = 0 ∧ s1.flag (R.HDR_CTL_ENABLE.on 5) 0 then bootStart s1 else s1
  else s

/-- A read of xxx_TASK clears CUT and the latches (R265). -/
def taskRead (ty n : Nat) (s : State) : State × Word :=
  let v := s.getReg ty n 0x058
  let s1 := clearIrq ty n 0 (s.put (R.ENG_TASK_CUT.on ty) n 0)
  (if ty = 4 then clearIrq ty n 1 s1 else s1, v)

/-! ### The pages (R258, R263, R268, R271, R276) -/

/-- The range rules of an engine page. -/
def engBad (ty n off v : Nat) (_s : State) : Option Nat :=
  if off = 0x04C ∧ v % 2 ^ 20 = 0 then some 0x0101
  else if ty = 3 ∧ n < 16 ∧ off = 0x088 ∧ (2048 < bitsAt v 16 12 ∨ 1024 < v % 2 ^ 11) then some 0x0009
  else none

/-- The registers of an engine page with a rule of their own. -/
def engSpecial (w : WriteReq) (s : State) : Option Written :=
  let v := w.value.toNat
  if w.off = 0x044 then
    some (s.put (R.ENG_START_ADDR.on w.ty) w.n (pcOf w.ty v), rspOk)
  else if w.off = 0x04C then
    let was := s.flag (R.ENG_WDG_CFG_EN.on w.ty) w.n
    let s1 := s.setReg w.ty w.n 0x04C (word (v &&& 0x800FFFFF))
    some (if bitOf v 31 ∧ !was then wdgLoad w.ty w.n s1 else if was ∧ !bitOf v 31 then (wdgStop w.ty w.n s).setReg w.ty w.n 0x04C (word (v &&& 0x800FFFFF))
      else s1, rspOk)
  else if w.off = 0x050 then some (wdgKick w s)
  else if w.ty = 3 ∧ 0x080 ≤ w.off ∧ w.off < 0x090 ∧ 16 ≤ w.n then some (s, rspOk)
  else if w.ty = 3 ∧ 0x090 ≤ w.off ∧ w.off < 0x098 ∧ w.n < 16 then some (s, rspOk)
  else none

/-- SOFT_RESET of an engine's page (R264, R276): engine and page are reset, the memories stay, and a spare keeps its pane. GENG_0
starts again. -/
def engReset (ty n : Nat) (s : State) : State :=
  let k := engKey ty n
  let keep := fun off => off == 0x024 || (ty == 3 && (off == 0x08C || off == 0x094)) || (ty == 4 && off == 0x200)
  let s1 := ((s.setEng k Engine.idle).setLink k ArrayLink.idle).resetPage ty n (fun off => !keep off)
  if ty = 5 ∧ n = 0 then bootStart s1 else s1

end Sys2Proof.Machine
end

