-- ==== Sys2Proof/WellFormed.lean ====
section
/-!
DEFINITION. Which commands are well formed: those that name only units and values the device has.
-/

namespace Sys2Proof

open Sys2Proof.Machine (pageCount)

/-- The page exists (R31). -/
def pageOk (ty n : Nat) : Bool := n < pageCount ty

/-- An address of the 40-bit space (R29). -/
def addrOk (a : Nat) : Bool := a < 2 ^ 40

/-- The engine exists: 18 sash, 128 slat, 2 gate engines. -/
def engineOk (e : EngineId) : Bool := (e.ty == 3 || e.ty == 4 || e.ty == 5) && e.num < pageCount e.ty

/-- The fields of a syllable fit (Table 08-3). -/
def Syl.ok (y : Syl) : Bool := decide (y.cond < 16 ∧ y.ops < 2 ^ 19)

/-- What a side of the Lintel has ready is well formed: whole messages, a whole PIX payload or none, a stream 0 to 3. -/
def LintelReady.wf (r : LintelReady) : Bool :=
  r.ctl.length % 32 == 0 && (r.pix == [] || r.pix.length == 240) && decide (r.stream < 4)

/-- A well-formed command names only units and values that the device has. -/
def Instr.wf : Instr → Bool
  | .registerWrite _ addr _ enables _ _ => addrOk addr && enables < 16
  | .lockKeyWrite _ ty n _ => pageOk ty n
  | .unlockWindowExpire ty n => pageOk ty n
  | .softReset _ ty n => pageOk ty n
  | .fence _ ty n _ => pageOk ty n
  | .evtForce _ ty n _ => pageOk ty n
  | .tickStart _ => true
  | .tickStop _ => true
  | .tickSlewWrite _ _ _ => true
  | .cutoff => true
  | .commit => true
  | .referenceLost => true
  | .arraySideEdge late => late.all (fun c => decide (c < 0x92 ∨ 0xA0 ≤ c ∧ c < 0xCC))
  | .renderWindowClose => true
  | .heldFrameExtract => true
  | .cutMessageReceive tickSeq age _ => tickSeq < 16 && age < 256
  | .frameInfoReceive head => head < 4
  | .provenanceRecordWrite head => head < 4
  | .lintelFrameReceive side ready _ _ => side < 2 && ready.wf
  | .linkDown side => side < 2
  | .retrain _ _ => true
  | .linkTrainingDone _ => true
  | .bridgeReturn _ bridge => bridge < 2
  | .ddrTrainFull _ ch => ch < 2
  | .ddrTrainRestore _ ch => ch < 2
  | .ddrTrainingDone ch failStep _ _ => ch < 2 && failStep < 7
  | .trainDataAccess _ ch _ => ch < 2
  | .ddrRead ch _ _ => ch < 2
  | .ddrWrite ch _ _ _ => ch < 2
  | .ddrScrubBlock ch => ch < 2
  | .ddrPhyLockLost ch => ch < 2
  | .ddrSrefExitDone ch => ch < 2
  | .ddrSrefExitTimeout ch => ch < 2
  | .admitImage _ => true
  | .admissionComplete _ us => us < 65536
  | .powerCapWrite _ _ mw => mw < 65536
  | .taskStart p => p < 16
  | .taskEnd p => p < 16
  | .taskCutOff p _ => p < 16
  | .peOpExecute p => p < 16
  | .paneInitDone p => p < 16
  | .paneScrub p => p < 16
  | .steerRebuildDone p => p < 16
  | .paneBistStart _ p => p < 16
  | .paneBistDone p cols => p < 16 && cols.all (fun c => c < 312)
  | .hamperDrop slat quad _ => slat < 128 && quad < 4
  | .hamperLift slat quad => slat < 128 && quad < 4
  | .rowCommandStart slat quad => slat < 128 && quad < 4
  | .reductionResultDeliver p => p < 16
  | .hamperSnap _ p => p < 16
  | .pePlaneWindowAccess _ p _ => p < 16
  | .macroEnqueue p => p < 16
  | .macroDispatch p => p < 16
  | .microwordPe p => p < 16
  | .microwordPeR0 p => p < 16
  | .microwordPeR1 p => p < 16
  | .microwordTt p => p < 16
  | .microwordTtp p => p < 16
  | .microwordAddr p => p < 16
  | .microwordLoop p => p < 16
  | .microwordSeq p => p < 16
  | .microwordWait p => p < 16
  | .microwordReserved p => p < 16
  | .macroCostReached p => p < 16
  | .setcLo p => p < 16
  | .setcHi p => p < 16
  | .larderPatch _ => true
  | .larderPatchDone p => p < 16
  | .addReg e y => engineOk e && y.ok
  | .subReg e y => engineOk e && y.ok
  | .adc e y => engineOk e && y.ok
  | .sbc e y => engineOk e && y.ok
  | .andReg e y => engineOk e && y.ok
  | .orReg e y => engineOk e && y.ok
  | .xor e y => engineOk e && y.ok
  | .andn e y => engineOk e && y.ok
  | .shl e y => engineOk e && y.ok
  | .shr e y => engineOk e && y.ok
  | .sar e y => engineOk e && y.ok
  | .ror e y => engineOk e && y.ok
  | .cmp e y => engineOk e && y.ok
  | .tst e y => engineOk e && y.ok
  | .minmax e y => engineOk e && y.ok
  | .bitcnt e y => engineOk e && y.ok
  | .addi e y => engineOk e && y.ok
  | .andi e y => engineOk e && y.ok
  | .ori e y => engineOk e && y.ok
  | .xori e y => engineOk e && y.ok
  | .shi e y => engineOk e && y.ok
  | .cmpi e y => engineOk e && y.ok
  | .movi e y => engineOk e && y.ok
  | .movh e y => engineOk e && y.ok
  | .dadd e y => engineOk e && y.ok
  | .dsub e y => engineOk e && y.ok
  | .extField e y => engineOk e && y.ok
  | .insField e y => engineOk e && y.ok
  | .repMark e y => engineOk e && y.ok
  | .mul e y => engineOk e && y.ok
  | .div e y => engineOk e && y.ok
  | .fadd e y => engineOk e && y.ok
  | .fsub e y => engineOk e && y.ok
  | .fmul e y => engineOk e && y.ok
  | .fma e y => engineOk e && y.ok
  | .fdiv e y => engineOk e && y.ok
  | .fsqrt e y => engineOk e && y.ok
  | .fcvt e y => engineOk e && y.ok
  | .fcmp e y => engineOk e && y.ok
  | .fminmax e y => engineOk e && y.ok
  | .fclass e y => engineOk e && y.ok
  | .fsgn e y => engineOk e && y.ok
  | .ldB e y => engineOk e && y.ok
  | .ldBu e y => engineOk e && y.ok
  | .ldH e y => engineOk e && y.ok
  | .ldHu e y => engineOk e && y.ok
  | .ldW e y => engineOk e && y.ok
  | .ldD e y => engineOk e && y.ok
  | .ldWr e y => engineOk e && y.ok
  | .stB e y => engineOk e && y.ok
  | .stH e y => engineOk e && y.ok
  | .stW e y => engineOk e && y.ok
  | .stD e y => engineOk e && y.ok
  | .stWr e y => engineOk e && y.ok
  | .ldf e y => engineOk e && y.ok
  | .stf e y => engineOk e && y.ok
  | .ecopy e y => engineOk e && y.ok
  | .efill e y => engineOk e && y.ok
  | .ecomp e y => engineOk e && y.ok
  | .eseek e y => engineOk e && y.ok
  | .stringIteration e _ => engineOk e
  | .farAccessResponse e _ => engineOk e
  | .branch e y => engineOk e && y.ok
  | .call e y => engineOk e && y.ok
  | .jr e y => engineOk e && y.ok
  | .callr e y => engineOk e && y.ok
  | .ret e y => engineOk e && y.ok
  | .resume e y => engineOk e && y.ok
  | .trap e y => engineOk e && y.ok
  | .brk e y => engineOk e && y.ok
  | .mfsr e y => engineOk e && y.ok
  | .mtsr e y => engineOk e && y.ok
  | .wspill e y => engineOk e && y.ok
  | .wfill e y => engineOk e && y.ok
  | .wfi e y => engineOk e && y.ok
  | .sync e y => engineOk e && y.ok
  | .fbar e y => engineOk e && y.ok
  | .aissue e y => engineOk e && y.ok && e.ty == 3
  | .atend e y => engineOk e && y.ok && e.ty == 3
  | .await e y => engineOk e && y.ok && e.ty == 3
  | .atally e y => engineOk e && y.ok && e.ty == 3
  | .rowcmd e y => engineOk e && y.ok && e.ty != 3
  | .rowwait e y => engineOk e && y.ok && e.ty != 3
  | .dmaQueue e y => engineOk e && y.ok && e.ty != 3
  | .dmawait e y => engineOk e && y.ok && e.ty != 3
  | .dmastat e y => engineOk e && y.ok
  | .loadWriteback e => engineOk e
  | .resultLand e => engineOk e
  | .trapEntry e => engineOk e
  | .engineEnable _ e => engineOk e
  | .engineDisable _ e => engineOk e
  | .engineMemInitDone e => engineOk e
  | .engineMemScrub e => engineOk e
  | .lockstepMismatch e => engineOk e
  | .spareLoadComplete k => k < 2
  | .spareRelease k _ => k < 2
  | .wdgKick _ e _ => engineOk e
  | .wdgWarn e => engineOk e
  | .wdgExpire e => engineOk e
  | .engineTaskRead _ e => engineOk e
  | .dmaDescriptorStart e _ => engineOk e && e.ty != 3
  | .dmaTransferComplete e _ => engineOk e && e.ty != 3
  | .pantryRequestArrive bank _ _ => bank < 64
  | .pantryAccess bank => bank < 64
  | .pantryCorrectedWriteback bank => bank < 64
  | .pantryScrub bank => bank < 64
  | .handoverStart _ bank code => bank < 64 && code < 256
  | .handoverComplete bank => bank < 64
  | .marchStart _ _ _ => true
  | .marchStartupRun => true
  | .marchRunEnd _ => true
  | .requestIssue i q _ => i.src < 40 && addrOk q.addr
  | .requestInject t _ _ => t < 40
  | .flitArrive stile port vc _ _ => stile < 44 && port < 6 && vc < 3
  | .requestArrive t _ => t < 40
  | .responseDeliver t _ _ => t < 40
  | .responseTimeout t tag => t < 40 && tag < 64
  | .tagQuarantineEnd t tag => t < 40 && tag < 64
  | .stileService _ stile => stile < 44
  | .stileDetour _ stile => stile < 44
  | .stileDown _ stile => stile < 44
  | .stileDrained stile => stile < 44
  | .closeStart _ t => t < 40
  | .openSend _ t => t < 40
  | .closeReceive t => t < 40
  | .closeAckReceive t => t < 40
  | .openReceive t => t < 40
  | .drainComplete t => t < 40
  | .drainTimeout t => t < 40
  | .routeEntryWrite _ t _ => t < 40
  | .trailheadSnap _ t => t < 40
  | .traceDataRead _ => true
  | .headFrameStart head => head < 4
  | .scanoutFetch head => head < 4
  | .lineBufferUnderrun head => head < 4
  | .lutCopyDone head => head < 4
  | .lutDataAccess _ head _ => head < 4
  | .headLinkTrain _ head => head < 4
  | .headLinkTrainDone head lanes _ _ => head < 4 && lanes < 16
  | .headLinkLost head lanes => head < 4 && lanes < 16
  | .sideTransactionStart _ head _ => head < 4
  | .sideTransactionDone head status _ => head < 4 && status < 5
  | .glazingLoadStart slot => slot < 32
  | .glazingLoadDone => true
  | .telltaleCrcCheck head tt _ _ => head < 4 && tt < 256
  | .ttClear _ head tt => head < 4 && tt < 256
  | .frameMissing head => head < 4
  | .glazingSramScrub => true
  | .csiFrameStart cam vc _ _ => cam < 4 && vc < 16
  | .csiLine cam vc dt _ hdr _ _ => cam < 4 && vc < 16 && dt < 64 && hdr < 3
  | .csiFrameEnd cam vc _ => cam < 4 && vc < 16
  | .csiOtherPacket cam _ => cam < 4
  | .cameraWriterFrameStart cam => cam < 4
  | .cameraFrameComplete cam _ => cam < 4
  | .fsyncPulseStart cam => cam < 4
  | .fsyncPulseEnd cam => cam < 4
  | .bar0Access off _ enables _ => off < 0x2000000 && off % 4 == 0 && enables < 16
  | .bar2Write off data => off + data.length ≤ 0x40000000 && data.length ≤ 256
  | .doorbell _ _ => true
  | .doorbellAccept _ => true
  | .msixMessage v => v < 64
  | .trsmLinkChange _ speed width => speed < 5 && width < 5
  | .t1sFrameReceive j node _ _ _ _ _ => j < 2 && node < 256
  | .canFrameReceive k fmt id sdt _ _ _ _ => k < 4 && fmt < 3 && id < 2 ^ 29 && sdt < 256
  | .canError k _ _ => k < 4
  | .frameClassify _ => true
  | .canTransmitDone k _ => k < 4
  | .canArbitrationLost k => k < 4
  | .canBusOff k => k < 4
  | .canBusOffRecovery k => k < 4
  | .canRecover _ mask => mask < 16
  | .t1sTransmit j _ => j < 2
  | .t1sCollision j => j < 2
  | .plcaBeaconLost j => j < 2
  | .camEntryWrite _ _ _ => true
  | .protectionProfileWrite _ _ _ => true
  | .entryConfigWrite _ _ _ => true
  | .descriptorWrite _ _ _ => true
  | .signalInject _ _ _ => true
  | .signalTableRead _ _ => true
  | .signalTableScrub => true
  | .rxqPop _ => true
  | .txPost _ => true
  | .statusFrameSend => true
  | .gateCounterSnap _ => true
  | .wake _ => true
  | .sleep _ => true
  | .setDomain _ => true
  | .debugLevel _ => true
  | .hingeLoad _ => true
  | .flashWrite _ => true
  | .flashWriteDone _ => true
  | .keyRoll _ => true
  | .keyProgramDone => true
  | .takeoverOverride _ => true
  | .counterResync _ => true
  | .safeWrite _ => true
  | .journalSectorErase => true
  | .latchRestore => true
  | .hatchRead _ => true
  | .hatchWrite _ _ => true
  | .hatchCommand _ _ _ _ => true
  | .debugGo _ req _ => req < 4
  | .fabricPark _ _ => true
  | .fabricRelease => true
  | .fabricLoadFail => true
  | .configScrubFrame => true
  | .flipFlopCapture _ => true
  | .captureDone => true
  | .captureDataRead _ => true
  | .flashWindowRead _ => true
  | .hspTxdWrite _ k _ => k < 8
  | .hspRxdRead _ k _ => k < 8
  | .hspByteReceive k data measured _ _ _ => k < 8 && data < 256 && measured < 65536
  | .domainTransitionDone n _ => n < 30
  | .railRampFail n _ => n < 30
  | .supplyOutOfLimits k => k < 3
  | .wakeLinkTimeout _ => true
  | .clockMonitorWindow _ _ _ => true
  | .resetN _ => true
  | .pdAoPowerOn badKeys => badKeys.all (fun k => k < 32)
  | .bootFlow step _ => 1 ≤ step && step ≤ 12
  | .hwdgKick _ _ => true
  | .hwdgWarn => true
  | .hwdgExpire => true
  | .faultRecordArrive _ => true
  | .lostSet code _ => code < 256
  | .lostClear code _ => code < 256
  | .thermalOverLimit => true
  | .tapReset => true
  | .extest _ => true
  | .samplePreload _ => true
  | .idcode => true
  | .highz => true
  | .clamp => true
  | .bypass => true
  | .accessDr dr _ => decide (dr < 2 ^ 76)
  | .halt _ => true
  | .engineHalt e => engineOk e
  | .release _ _ => true
  | .stepBundle _ _ _ => true
  | .brkOn _ => true
  | .brkOff _ => true
  | .debugRegAccess _ _ _ => true
  | .vtOutWrite e data => engineOk e && decide (data < 256)
  | .vtOutRead => true
  | .vtInWrite data => decide (data < 256)
  | .vtInRead e => engineOk e
  | .resetNRelease => true
  | .supplyWithinLimits k => k < 3
  | .thermalRearm => true
  | .tickOutPulseEnd => true
  | .hpdIrq head => head < 4
  | .canBusIntegration k => k < 4
  | .plcaBeaconRegained j => j < 2
  | .hatchTransactionEnd _ => true
  | .hspByteSent k _ _ => k < 8
  | .paneTickMissing p => p < 16

end Sys2Proof
end

