-- ==== Sys2Proof/Machine/Casement.lean ====
section
/-!
DEFINITION. The meanings of the Casement instructions, one for each opcode (Tables 08-10 to 08-13), and of the engines' own events.
-/

namespace Sys2Proof.Machine

/-! ### Instructions -/

/-- ADD (R209), OP 0x00. -/
def execAddReg (e : EngineId) (y : Syl) (s : State) : Result := need (engineOk e && y.ok) (done (issue e 0x00 y s))

/-- SUB (R209), OP 0x01. -/
def execSubReg (e : EngineId) (y : Syl) (s : State) : Result := need (engineOk e && y.ok) (done (issue e 0x01 y s))

/-- ADC (R209), OP 0x02. -/
def execAdc (e : EngineId) (y : Syl) (s : State) : Result := need (engineOk e && y.ok) (done (issue e 0x02 y s))

/-- SBC (R209), OP 0x03. -/
def execSbc (e : EngineId) (y : Syl) (s : State) : Result := need (engineOk e && y.ok) (done (issue e 0x03 y s))

/-- AND (R209), OP 0x04. -/
def execAndReg (e : EngineId) (y : Syl) (s : State) : Result := need (engineOk e && y.ok) (done (issue e 0x04 y s))

/-- OR (R209), OP 0x05. -/
def execOrReg (e : EngineId) (y : Syl) (s : State) : Result := need (engineOk e && y.ok) (done (issue e 0x05 y s))

/-- XOR (R209), OP 0x06. -/
def execXor (e : EngineId) (y : Syl) (s : State) : Result := need (engineOk e && y.ok) (done (issue e 0x06 y s))

/-- ANDN (R209), OP 0x07. -/
def execAndn (e : EngineId) (y : Syl) (s : State) : Result := need (engineOk e && y.ok) (done (issue e 0x07 y s))

/-- SHL (R211), OP 0x08. -/
def execShl (e : EngineId) (y : Syl) (s : State) : Result := need (engineOk e && y.ok) (done (issue e 0x08 y s))

/-- SHR (R211), OP 0x09. -/
def execShr (e : EngineId) (y : Syl) (s : State) : Result := need (engineOk e && y.ok) (done (issue e 0x09 y s))

/-- SAR (R211), OP 0x0A. -/
def execSar (e : EngineId) (y : Syl) (s : State) : Result := need (engineOk e && y.ok) (done (issue e 0x0A y s))

/-- ROR (R211), OP 0x0B. -/
def execRor (e : EngineId) (y : Syl) (s : State) : Result := need (engineOk e && y.ok) (done (issue e 0x0B y s))

/-- CMP (R209), OP 0x0C. -/
def execCmp (e : EngineId) (y : Syl) (s : State) : Result := need (engineOk e && y.ok) (done (issue e 0x0C y s))

/-- TST (R209), OP 0x0D. -/
def execTst (e : EngineId) (y : Syl) (s : State) : Result := need (engineOk e && y.ok) (done (issue e 0x0D y s))

/-- MINMAX (R213), OP 0x0E. -/
def execMinmax (e : EngineId) (y : Syl) (s : State) : Result := need (engineOk e && y.ok) (done (issue e 0x0E y s))

/-- BITCNT (R213), OP 0x0F. -/
def execBitcnt (e : EngineId) (y : Syl) (s : State) : Result := need (engineOk e && y.ok) (done (issue e 0x0F y s))

/-- ADDI (R212), OP 0x10. -/
def execAddi (e : EngineId) (y : Syl) (s : State) : Result := need (engineOk e && y.ok) (done (issue e 0x10 y s))

/-- ANDI (R212), OP 0x11. -/
def execAndi (e : EngineId) (y : Syl) (s : State) : Result := need (engineOk e && y.ok) (done (issue e 0x11 y s))

/-- ORI (R212), OP 0x12. -/
def execOri (e : EngineId) (y : Syl) (s : State) : Result := need (engineOk e && y.ok) (done (issue e 0x12 y s))

/-- XORI (R212), OP 0x13. -/
def execXori (e : EngineId) (y : Syl) (s : State) : Result := need (engineOk e && y.ok) (done (issue e 0x13 y s))

/-- SHI (R212), OP 0x14. -/
def execShi (e : EngineId) (y : Syl) (s : State) : Result := need (engineOk e && y.ok) (done (issue e 0x14 y s))

/-- CMPI (R212), OP 0x15. -/
def execCmpi (e : EngineId) (y : Syl) (s : State) : Result := need (engineOk e && y.ok) (done (issue e 0x15 y s))

/-- MOVI (R212), OP 0x16. -/
def execMovi (e : EngineId) (y : Syl) (s : State) : Result := need (engineOk e && y.ok) (done (issue e 0x16 y s))

/-- MOVH (R212), OP 0x17. -/
def execMovh (e : EngineId) (y : Syl) (s : State) : Result := need (engineOk e && y.ok) (done (issue e 0x17 y s))

/-- DADD (R216), OP 0x18. -/
def execDadd (e : EngineId) (y : Syl) (s : State) : Result := need (engineOk e && y.ok) (done (issue e 0x18 y s))

/-- DSUB (R216), OP 0x19. -/
def execDsub (e : EngineId) (y : Syl) (s : State) : Result := need (engineOk e && y.ok) (done (issue e 0x19 y s))

/-- EXT (R213), OP 0x1A. -/
def execExtField (e : EngineId) (y : Syl) (s : State) : Result := need (engineOk e && y.ok) (done (issue e 0x1A y s))

/-- INS (R213), OP 0x1B. -/
def execInsField (e : EngineId) (y : Syl) (s : State) : Result := need (engineOk e && y.ok) (done (issue e 0x1B y s))

/-- REP (R201), OP 0x1F. -/
def execRepMark (e : EngineId) (y : Syl) (s : State) : Result := need (engineOk e && y.ok) (done (issue e 0x1F y s))

/-- MUL (R214), OP 0x20. -/
def execMul (e : EngineId) (y : Syl) (s : State) : Result := need (engineOk e && y.ok) (done (issue e 0x20 y s))

/-- DIV (R215), OP 0x21. -/
def execDiv (e : EngineId) (y : Syl) (s : State) : Result := need (engineOk e && y.ok) (done (issue e 0x21 y s))

/-- FADD (R230), OP 0x24. -/
def execFadd (e : EngineId) (y : Syl) (s : State) : Result := need (engineOk e && y.ok) (done (issue e 0x24 y s))

/-- FSUB (R230), OP 0x25. -/
def execFsub (e : EngineId) (y : Syl) (s : State) : Result := need (engineOk e && y.ok) (done (issue e 0x25 y s))

/-- FMUL (R230), OP 0x26. -/
def execFmul (e : EngineId) (y : Syl) (s : State) : Result := need (engineOk e && y.ok) (done (issue e 0x26 y s))

/-- FMA (R230), OP 0x27. -/
def execFma (e : EngineId) (y : Syl) (s : State) : Result := need (engineOk e && y.ok) (done (issue e 0x27 y s))

/-- FDIV (R230), OP 0x28. -/
def execFdiv (e : EngineId) (y : Syl) (s : State) : Result := need (engineOk e && y.ok) (done (issue e 0x28 y s))

/-- FSQRT (R230), OP 0x29. -/
def execFsqrt (e : EngineId) (y : Syl) (s : State) : Result := need (engineOk e && y.ok) (done (issue e 0x29 y s))

/-- FCVT (R231), OP 0x2A. -/
def execFcvt (e : EngineId) (y : Syl) (s : State) : Result := need (engineOk e && y.ok) (done (issue e 0x2A y s))

/-- FCMP (R232), OP 0x2B. -/
def execFcmp (e : EngineId) (y : Syl) (s : State) : Result := need (engineOk e && y.ok) (done (issue e 0x2B y s))

/-- FMINMAX (R230), OP 0x2C. -/
def execFminmax (e : EngineId) (y : Syl) (s : State) : Result := need (engineOk e && y.ok) (done (issue e 0x2C y s))

/-- FCLASS (R230), OP 0x2D. -/
def execFclass (e : EngineId) (y : Syl) (s : State) : Result := need (engineOk e && y.ok) (done (issue e 0x2D y s))

/-- FSGN (R230), OP 0x2E. -/
def execFsgn (e : EngineId) (y : Syl) (s : State) : Result := need (engineOk e && y.ok) (done (issue e 0x2E y s))

/-- LD_B (R217), OP 0x40. -/
def execLdB (e : EngineId) (y : Syl) (s : State) : Result := need (engineOk e && y.ok) (done (issue e 0x40 y s))

/-- LD_BU (R217), OP 0x41. -/
def execLdBu (e : EngineId) (y : Syl) (s : State) : Result := need (engineOk e && y.ok) (done (issue e 0x41 y s))

/-- LD_H (R217), OP 0x42. -/
def execLdH (e : EngineId) (y : Syl) (s : State) : Result := need (engineOk e && y.ok) (done (issue e 0x42 y s))

/-- LD_HU (R217), OP 0x43. -/
def execLdHu (e : EngineId) (y : Syl) (s : State) : Result := need (engineOk e && y.ok) (done (issue e 0x43 y s))

/-- LD_W (R217), OP 0x44. -/
def execLdW (e : EngineId) (y : Syl) (s : State) : Result := need (engineOk e && y.ok) (done (issue e 0x44 y s))

/-- LD_D (R217), OP 0x45. -/
def execLdD (e : EngineId) (y : Syl) (s : State) : Result := need (engineOk e && y.ok) (done (issue e 0x45 y s))

/-- LD_WR (R218), OP 0x46. -/
def execLdWr (e : EngineId) (y : Syl) (s : State) : Result := need (engineOk e && y.ok) (done (issue e 0x46 y s))

/-- ST_B (R217), OP 0x48. -/
def execStB (e : EngineId) (y : Syl) (s : State) : Result := need (engineOk e && y.ok) (done (issue e 0x48 y s))

/-- ST_H (R217), OP 0x49. -/
def execStH (e : EngineId) (y : Syl) (s : State) : Result := need (engineOk e && y.ok) (done (issue e 0x49 y s))

/-- ST_W (R217), OP 0x4A. -/
def execStW (e : EngineId) (y : Syl) (s : State) : Result := need (engineOk e && y.ok) (done (issue e 0x4A y s))

/-- ST_D (R217), OP 0x4B. -/
def execStD (e : EngineId) (y : Syl) (s : State) : Result := need (engineOk e && y.ok) (done (issue e 0x4B y s))

/-- ST_WR (R218), OP 0x4C. -/
def execStWr (e : EngineId) (y : Syl) (s : State) : Result := need (engineOk e && y.ok) (done (issue e 0x4C y s))

/-- LDF (R219), OP 0x50. -/
def execLdf (e : EngineId) (y : Syl) (s : State) : Result := need (engineOk e && y.ok) (done (issue e 0x50 y s))

/-- STF (R219), OP 0x51. -/
def execStf (e : EngineId) (y : Syl) (s : State) : Result := need (engineOk e && y.ok) (done (issue e 0x51 y s))

/-- ECOPY (R220), OP 0x58. -/
def execEcopy (e : EngineId) (y : Syl) (s : State) : Result := need (engineOk e && y.ok) (done (issue e 0x58 y s))

/-- EFILL (R220), OP 0x59. -/
def execEfill (e : EngineId) (y : Syl) (s : State) : Result := need (engineOk e && y.ok) (done (issue e 0x59 y s))

/-- ECOMP (R220), OP 0x5A. -/
def execEcomp (e : EngineId) (y : Syl) (s : State) : Result := need (engineOk e && y.ok) (done (issue e 0x5A y s))

/-- ESEEK (R220), OP 0x5B. -/
def execEseek (e : EngineId) (y : Syl) (s : State) : Result := need (engineOk e && y.ok) (done (issue e 0x5B y s))

/-- B (R223), OP 0x60. -/
def execBranch (e : EngineId) (y : Syl) (s : State) : Result := need (engineOk e && y.ok) (done (issue e 0x60 y s))

/-- CALL (R187), OP 0x61. -/
def execCall (e : EngineId) (y : Syl) (s : State) : Result := need (engineOk e && y.ok) (done (issue e 0x61 y s))

/-- JR (R223), OP 0x62. -/
def execJr (e : EngineId) (y : Syl) (s : State) : Result := need (engineOk e && y.ok) (done (issue e 0x62 y s))

/-- CALLR (R187), OP 0x63. -/
def execCallr (e : EngineId) (y : Syl) (s : State) : Result := need (engineOk e && y.ok) (done (issue e 0x63 y s))

/-- RET (R187), OP 0x64. -/
def execRet (e : EngineId) (y : Syl) (s : State) : Result := need (engineOk e && y.ok) (done (issue e 0x64 y s))

/-- RESUME (R197), OP 0x65. -/
def execResume (e : EngineId) (y : Syl) (s : State) : Result := need (engineOk e && y.ok) (done (issue e 0x65 y s))

/-- TRAP (R224), OP 0x66. -/
def execTrap (e : EngineId) (y : Syl) (s : State) : Result := need (engineOk e && y.ok) (done (issue e 0x66 y s))

/-- BRK (R224), OP 0x67. -/
def execBrk (e : EngineId) (y : Syl) (s : State) : Result := need (engineOk e && y.ok) (done (issue e 0x67 y s))

/-- MFSR (R225), OP 0x68. -/
def execMfsr (e : EngineId) (y : Syl) (s : State) : Result := need (engineOk e && y.ok) (done (issue e 0x68 y s))

/-- MTSR (R225), OP 0x69. -/
def execMtsr (e : EngineId) (y : Syl) (s : State) : Result := need (engineOk e && y.ok) (done (issue e 0x69 y s))

/-- WSPILL (R188), OP 0x6A. -/
def execWspill (e : EngineId) (y : Syl) (s : State) : Result := need (engineOk e && y.ok) (done (issue e 0x6A y s))

/-- WFILL (R188), OP 0x6B. -/
def execWfill (e : EngineId) (y : Syl) (s : State) : Result := need (engineOk e && y.ok) (done (issue e 0x6B y s))

/-- WFI (R226), OP 0x6C. -/
def execWfi (e : EngineId) (y : Syl) (s : State) : Result := need (engineOk e && y.ok) (done (issue e 0x6C y s))

/-- SYNC (R227), OP 0x6D. -/
def execSync (e : EngineId) (y : Syl) (s : State) : Result := need (engineOk e && y.ok) (done (issue e 0x6D y s))

/-- FBAR (R228), OP 0x6E. -/
def execFbar (e : EngineId) (y : Syl) (s : State) : Result := need (engineOk e && y.ok) (done (issue e 0x6E y s))

/-- AISSUE (R234), OP 0x70. -/
def execAissue (e : EngineId) (y : Syl) (s : State) : Result := need (engineOk e && y.ok && e.ty == 3) (done (issue e 0x70 y s))

/-- ATEND (R235), OP 0x71. -/
def execAtend (e : EngineId) (y : Syl) (s : State) : Result := need (engineOk e && y.ok && e.ty == 3) (done (issue e 0x71 y s))

/-- AWAIT (R236), OP 0x72. -/
def execAwait (e : EngineId) (y : Syl) (s : State) : Result := need (engineOk e && y.ok && e.ty == 3) (done (issue e 0x72 y s))

/-- ATALLY (R236), OP 0x73. -/
def execAtally (e : EngineId) (y : Syl) (s : State) : Result := need (engineOk e && y.ok && e.ty == 3) (done (issue e 0x73 y s))

/-- ROWCMD (R237), OP 0x70. -/
def execRowcmd (e : EngineId) (y : Syl) (s : State) : Result := need (engineOk e && y.ok && e.ty != 3) (done (issue e 0x70 y s))

/-- ROWWAIT (R237), OP 0x71. -/
def execRowwait (e : EngineId) (y : Syl) (s : State) : Result := need (engineOk e && y.ok && e.ty != 3) (done (issue e 0x71 y s))

/-- DMA (R238), OP 0x72. -/
def execDmaQueue (e : EngineId) (y : Syl) (s : State) : Result := need (engineOk e && y.ok && e.ty != 3) (done (issue e 0x72 y s))

/-- DMAWAIT (R238), OP 0x73. -/
def execDmawait (e : EngineId) (y : Syl) (s : State) : Result := need (engineOk e && y.ok && e.ty != 3) (done (issue e 0x73 y s))

/-- DMASTAT (R238), OP 0x74. -/
def execDmastat (e : EngineId) (y : Syl) (s : State) : Result := need (engineOk e && y.ok) (done (issue e 0x74 y s))

/-! ### What engines do by themselves -/

/-- An engine's domain is ON: in IDLE it stands still (R35). -/
def engineUp (s : State) (e : EngineId) : Bool := s.domainOn (pageDomain e.ty e.num)

/-- STRING_ITERATION (R202): one further iteration of the REP bundle in progress, or what its boundary takes. -/
def execStringIteration (e : EngineId) (stamp : Nat) (s : State) : Result :=
  need (engineOk e) (done (if s.engState e.ty e.num = esRunning ∧ engineUp s e then stringIteration e.ty e.num stamp false s else s))

/-- FAR_ACCESS_RESPONSE (R194). -/
def execFarAccessResponse (e : EngineId) (stamp : Nat) (s : State) : Result :=
  need (engineOk e) (done (if engineUp s e then farResponse e.ty e.num stamp s else s))

/-- LOAD_WRITEBACK (R191). -/
def execLoadWriteback (e : EngineId) (s : State) : Result :=
  need (engineOk e) (done (if engineUp s e then landLoads e.ty e.num s else s))

/-- RESULT_LAND (R193): the earliest interlocked result lands, at the end of its last latency cycle. -/
def execResultLand (e : EngineId) (s : State) : Result :=
  need (engineOk e) (
    let k := engKey e.ty e.num
    let x := s.eng k
    done (match x.late with
      | [] => s
      | r :: _ => if engineUp s e then s.setEng k (landUpTo e.ty (max x.cyc r.landAt) x) else s))

/-- An OP that the maps of some profile assign (Tables 08-10 to 08-13): the rows of the table name these alone. -/
def assignedOp (op : Nat) : Bool :=
  decide (op ≤ 0x1B) || decide (0x1F ≤ op ∧ op ≤ 0x21) || decide (0x24 ≤ op ∧ op ≤ 0x2E) || decide (0x40 ≤ op ∧ op ≤ 0x46) ||
  decide (0x48 ≤ op ∧ op ≤ 0x4C) || op == 0x50 || op == 0x51 || decide (0x58 ≤ op ∧ op ≤ 0x5B) || decide (0x60 ≤ op ∧ op ≤ 0x6E) ||
  decide (0x70 ≤ op ∧ op ≤ 0x74)

/-- The engine goes on by itself as far as a trap that no syllable's own row brings (R195, R200): a syllable that cannot be fetched, or a word
of instruction memory whose OP no map assigns. -/
def trapSyllable (ty n : Nat) (s : State) : State :=
  let x := s.eng (engKey ty n)
  let a := (x.pc + 4 * x.bundle.length) % 2 ^ widthOf ty
  let inMem := decide (a + 4 ≤ imemBytes ty)
  let w := leNum ((s.mem (engKey ty n)).bytes false a 4)
  if !fetchable ty n a ∨ (inMem ∧ ((s.mem (engKey ty n)).bad false [a / 8] ∨ !assignedOp (sylOp w))) then pushSyl ty n w 0 s else s

/-- TRAP_ENTRY (R195, R196): what the boundary takes, or the trap of the bundle that stands at PC where no row's syllable brings it. -/
def execTrapEntry (e : EngineId) (s : State) : Result :=
  need (engineOk e) (
    let x := s.eng (engKey e.ty e.num)
    done (if !canIssue s e.ty e.num then s
      else if x.bundle = [] ∧ !x.held then
        let s1 := settleEngine e.ty e.num s
        match boundary e.ty e.num false s1 with
        | some t => t
        | none => trapSyllable e.ty e.num s1
      else trapSyllable e.ty e.num s))

/-- ENGINE_MEM_INIT_DONE (R260). -/
def execEngineMemInitDone (e : EngineId) (s : State) : Result := need (engineOk e) (done (engineInitDone e.ty e.num s))

/-- ENGINE_MEM_SCRUB (R259). -/
def execEngineMemScrub (e : EngineId) (s : State) : Result :=
  need (engineOk e) (done (if s.domainOn (pageDomain e.ty e.num) then engineScrub e.ty e.num s else s))

/-- LOCKSTEP_MISMATCH (R262). -/
def execLockstepMismatch (e : EngineId) (s : State) : Result := need (engineOk e) (done (lockstepMismatch e.ty e.num s))

/-- WDG_WARN (R268). -/
def execWdgWarn (e : EngineId) (s : State) : Result := need (engineOk e) (done (wdgWarn e.ty e.num s))

/-- WDG_EXPIRE (R268). -/
def execWdgExpire (e : EngineId) (s : State) : Result := need (engineOk e) (done (wdgExpire e.ty e.num s))

/-- DMA_DESCRIPTOR_START (R270). -/
def execDmaDescriptorStart (e : EngineId) (stamp : Nat) (s : State) : Result :=
  need (engineOk e && e.ty != 3) (done (if engineUp s e then dmaStart e.ty e.num stamp s else s))

/-- DMA_TRANSFER_COMPLETE (R270). -/
def execDmaTransferComplete (e : EngineId) (stamp : Nat) (s : State) : Result :=
  need (engineOk e && e.ty != 3) (done (if engineUp s e then dmaComplete e.ty e.num stamp s else s))

end Sys2Proof.Machine
end

