-- ==== Sys2Proof/Machine/Ddr.lean ====
section
/-!
DEFINITION. The two LPDDR5X channels (R21 to R28): states, training, reads, writes and scrub under the symbol code. A byte that
nothing has written since its contents were lost reads as a free value.
-/

namespace Sys2Proof.Machine

/-- A channel's hidden state. -/
def State.ddrCh (s : State) (ch : Nat) : DdrChannel := tblGet DdrChannel.idle s.ddr ch

/-- A channel's hidden state replaced. -/
def State.setDdr (s : State) (ch : Nat) (c : DdrChannel) : State := { s with ddr := tblSet DdrChannel.idle s.ddr ch c }

abbrev ddrDown : Nat := 0
abbrev ddrTraining : Nat := 1
abbrev ddrReady : Nat := 2
abbrev ddrSrefExit : Nat := 3
abbrev ddrLostState : Nat := 4

/-- A channel's state (Table 01-10). -/
def State.ddrState (s : State) (ch : Nat) : Nat := s.get R.DDRC_STAT_STATE ch

/-- U in bytes (R22, R23). -/
def State.ddrUsable (s : State) (ch : Nat) : Nat := s.get R.DDRC_USABLE ch * 2 ^ 20

/-- Die density in MiB (DDRC_CFG.DENSITY). -/
def densityMib (code : Nat) : Nat :=
  match code with
  | 0 => 1024 | 1 => 1536 | 2 => 2048 | 3 => 3072 | _ => 4096

/-- U in MiB from DDRC_CFG: 13/16 of 2 × ranks × density (R22, Table 01-9). -/
def usableMib (density ranks2 : Nat) : Nat := 13 * (2 * (ranks2 + 1) * densityMib density) / 16

/-- The number of the free value that an unwritten byte of a channel reads as: the first 64 KiB of each rank have their own,
since a FULL training does not preserve them (R26; log entry 8). -/
def ddrEpoch (s : State) (ch a : Nat) : Nat :=
  let c := s.ddrCh ch
  let rank := s.ddrUsable ch / (s.get R.DDRC_CFG_RANKS2 ch + 1)
  2 * (if rank ≠ 0 ∧ a % rank < 65536 then c.lowEpoch else c.epoch) + ch

/-- One byte of a channel's data region, as written. -/
def ddrByte (s : State) (ch a : Nat) : Byte :=
  (tblFind (s.ddrCh ch).data a).getD (Config.freeByte (ddrEpoch s ch a) a)

/-- The n bytes from an address on. -/
def ddrBytes (s : State) (ch a : Nat) : Nat → List Byte
  | 0 => []
  | n + 1 => ddrByte s ch a :: ddrBytes s ch (a + 1) n

/-- Bytes written from an address on, where their enable bit is 1. -/
def ddrPut (m : Memory) (a enables : Nat) : List Byte → Memory
  | [] => m
  | b :: bs => ddrPut (if bitOf enables 0 then tblPut m a b else m) (a + 1) (enables / 2) bs

/-- The answer to a request that a channel held: over the network, or beside the answers of the command. -/
def answerHeld (q : DdrRequest) (a : Answer) (s : State) : State :=
  match q.origin.bind (fun i => i.reply) with
  | some r => sendResponse r a s
  | none => { s with answer := s.answer ++ [a] }

/-- The channel becomes LOST (R25): it reports the loss, which enters the Porter's lost set (R495), and answers what it holds. -/
def ddrLose (ch : Nat) (s : State) : State :=
  let s1 := (s.put R.DDRC_STAT_STATE ch ddrLostState).put R.DDRC_STAT_MTS ch 0
  let s2 := (s1.raise 0x0C ch 4).report 0x0C ch 4 clsUnit
  let s3 := s2.put R.PORT_LOST_DDR_CHANNELS 0 (s2.get R.PORT_LOST_DDR_CHANNELS 0 ||| 2 ^ ch)
  let c := s3.ddrCh ch
  c.held.foldl (fun s q => answerHeld q ⟨rspEcc, []⟩ s) (s3.setDdr ch { c with held := [] })

/-- DDRC_ERR_LOC of an error in the word at a channel address (R24). -/
def ddrErrLoc (ch addr symbol e : Nat) (ue : Bool) (s : State) : State :=
  (s.put R.DDRC_ERR_LOC_LO ch addr).setReg 0x0C ch 0x06C
    (word (bit ue * 2 ^ 31 + symbol * 2 ^ 24 + e * 2 ^ 20 + addr / 2 ^ 32 % 16))

/-- One word read (R24): a corrected word is written back and counted; an uncorrectable one is counted and reported. The
Boolean says that it was uncorrectable. Where R120 lets the correction fall on a third symbol, the codeword that results
is what the word then holds. -/
def ddrWord (ch w : Nat) (s : State) : State × Bool :=
  let c := s.ddrCh ch
  match decodeWord (tblGet 0 c.errs w).toNat with
  | .clean => (s, false)
  | .corrected j e =>
    let wrong := residue (tblGet 0 c.errs w).toNat
    let old := ddrBytes s ch (8 * w) 8
    let s1 := s.setDdr ch { c with
      errs := tblSet 0 c.errs w 0
      data := if wrong = 0 then c.data
        else ddrPut c.data (8 * w) 255 (leBytes 8 (leNum old ^^^ wrong % 2 ^ 64)) }
    (((ddrErrLoc ch (8 * w) j e false s1).count R.DDRC_CE_COUNT ch 1).raise 0x0C ch 2, false)
  | .uncorrectable =>
    ((((ddrErrLoc ch (8 * w) 0x1F 0 true s).count R.DDRC_UE_COUNT ch 1).raise 0x0C ch 3).report 0x0C ch 3 clsHold, true)

/-- n words read from word w on; the Boolean says that one was uncorrectable. -/
def ddrWords (ch w : Nat) : Nat → State → State × Bool
  | 0, s => (s, false)
  | n + 1, s =>
    let r1 := ddrWord ch w s
    let r2 := ddrWords ch (w + 1) n r1.1
    (r2.1, r1.2 || r2.2)

/-- An uncorrectable read counts towards LOSS_LIMIT; a READY channel that reaches it becomes LOST (R25). -/
def ddrCountUe (ch : Nat) (s : State) : State :=
  let c := s.ddrCh ch
  let s1 := s.setDdr ch { c with ueTick := c.ueTick + 1 }
  let limit := s.get R.DDRC_CFG_LOSS_LIMIT ch
  if limit ≠ 0 ∧ limit ≤ c.ueTick + 1 ∧ s.ddrState ch = ddrReady then ddrLose ch s1 else s1

/-- A read of len bytes served by a READY channel (R24). -/
def ddrServeRead (ch addr len : Nat) (s : State) : State × Answer :=
  if s.ddrUsable ch < addr + len then (s, ⟨rspOk, List.replicate len 0⟩)
  else
    let r := ddrWords ch (addr / 8) ((addr + len + 7) / 8 - addr / 8) s
    if r.2 then (ddrCountUe ch r.1, ⟨rspEcc, []⟩) else (r.1, ⟨rspOk, ddrBytes r.1 ch addr len⟩)

/-- Whether every byte of the 64-byte block that starts at place p of a request is enabled. -/
def blockFull (enables p : Nat) : Bool := bitsAt enables p 64 == 2 ^ 64 - 1

/-- The blocks of a write, from channel block b and place p of its data on: a block that the write does not cover whole is
read first (R24). The Boolean says that such a read found an uncorrectable word. -/
def ddrMergeReads (ch b enables p : Nat) : Nat → State → State × Bool
  | 0, s => (s, false)
  | n + 1, s =>
    let r1 := if blockFull enables p then (s, false) else ddrWords ch (8 * b) 8 s
    let r2 := ddrMergeReads ch (b + 1) enables (p + 64) n r1.1
    (r2.1, r1.2 || r2.2)

/-- The error patterns of n words from w on removed: a block written is a codeword again. -/
def clearErrs (errs : Tbl (BitVec 76)) (w n : Nat) : Tbl (BitVec 76) := tblDrop errs w (w + n)

/-- A write served by a READY channel (R24): byte k of the data is written when bit k of the enables is 1. -/
def ddrServeWrite (ch addr enables : Nat) (data : List Byte) (s : State) : State × Answer :=
  if s.ddrUsable ch < addr + data.length then (s, ⟨rspOk, []⟩)
  else
    let b := addr / 64
    let off := addr % 64
    let blocks := (off + data.length + 63) / 64
    let r := ddrMergeReads ch b (enables % 2 ^ data.length * 2 ^ off) 0 blocks s
    if r.2 then (ddrCountUe ch r.1, ⟨rspEcc, []⟩)
    else
      let c := r.1.ddrCh ch
      (r.1.setDdr ch { c with
        data := ddrPut c.data addr enables data
        errs := clearErrs c.errs (8 * b) (8 * blocks) }, ⟨rspOk, []⟩)

/-- A request that a channel is asked to serve, whatever its state (Table 01-10); no answer while it is held. -/
def ddrRequest (ch : Nat) (q : DdrRequest) (s : State) : State × Option Answer :=
  if s.ddrState ch = ddrReady then
    let r := match q.data with
      | none => ddrServeRead ch q.addr q.len s
      | some d => ddrServeWrite ch q.addr q.enables d s
    (r.1, some r.2)
  else if s.ddrState ch = ddrSrefExit then
    (s.setDdr ch { s.ddrCh ch with held := (s.ddrCh ch).held ++ [q] }, none)
  else if s.ddrState ch = ddrLostState then (s, some ⟨rspEcc, []⟩)
  else (s, some ⟨rspRefused, []⟩)

/-- A request and its answer, if it has one yet, in the answer slot; RSP_CLOSED while PD_DDR is down (R35). -/
def ddrAnswer (ch : Nat) (q : DdrRequest) (s : State) : State :=
  if s.domainUp 11 then
    let r := ddrRequest ch q s
    { r.1 with answer := r.2.toList }
  else s.reply rspClosed []

/-- The requests held in SREF_EXIT served in order (R28). -/
def ddrServeHeld (ch : Nat) : List DdrRequest → State → State
  | [], s => s
  | q :: qs, s =>
    let r := ddrRequest ch q s
    ddrServeHeld ch qs (match r.2 with
      | some a => answerHeld q a r.1
      | none => r.1)

/-- The data rate of DDRC_CFG.RATE in MT/s. -/
def rateMts (code : Nat) : Nat := if code = 0 then 6400 else if code = 1 then 7500 else 8533

/-- A write of DDRC_TRAIN_CTL (R26, R21). -/
def trainCtlWrite (w : WriteReq) (s : State) : Written :=
  let v := w.value.toNat
  if bitOf v 0 then
    if s.ddrState w.n = ddrDown ∨ s.ddrState w.n = ddrLostState then
      let s1 := s.put R.DDRC_TRAIN_CTL_MODE w.n (bit (bitOf v 1))
      if s.get R.DDRC_CFG_DENSITY 0 ≠ s.get R.DDRC_CFG_DENSITY 1 ∨ s.get R.DDRC_CFG_RANKS2 0 ≠ s.get R.DDRC_CFG_RANKS2 1 then
        ((s1.raise 0x0C 0 7).raise 0x0C 1 7, rspOk)
      else
        (((s1.put R.DDRC_TRAIN_CTL_START w.n 1).put R.DDRC_STAT_STATE w.n ddrTraining).setDdr w.n
          { s.ddrCh w.n with fullMode := bitOf v 1 }, rspOk)
    else refuseWrite w rspRefused 0x0102 s
  else (s.put R.DDRC_TRAIN_CTL_MODE w.n (bit (bitOf v 1)), rspOk)

/-- The record word that DDRC_TRAIN_DATA shows, and the state after the access: IDX advances modulo 512 (R26). -/
def trainDataRead (ch : Nat) (s : State) : State × Word :=
  let i := s.get R.DDRC_TRAIN_IDX_WORD ch
  (s.put R.DDRC_TRAIN_IDX_WORD ch ((i + 1) % 512), tblGet 0 (s.ddrCh ch).record i)

/-- A write of DDRC_TRAIN_DATA; refused with 0x0102 during TRAINING. -/
def trainDataWrite (w : WriteReq) (s : State) : Written :=
  if s.ddrState w.n = ddrTraining then refuseWrite w rspRefused 0x0102 s
  else
    let i := s.get R.DDRC_TRAIN_IDX_WORD w.n
    let c := s.ddrCh w.n
    ((s.setDdr w.n { c with record := tblSet 0 c.record i w.value }).put R.DDRC_TRAIN_IDX_WORD w.n ((i + 1) % 512), rspOk)

/-- The DDRC page's state and value rules (DDRC_CFG). -/
def ddrcBad (n off v : Nat) (s : State) : Option Nat :=
  if off = 0x040 then
    if s.ddrState n ≠ ddrDown then some 0x0101
    else if bitsAt v 8 2 = 3 ∨ 5 ≤ bitsAt v 0 3 ∨ (bitOf v 4 ∧ 3 ≤ bitsAt v 0 3) then some 0x0009
    else none
  else none

/-- The DDRC page's registers with a rule of their own. -/
def ddrcSpecial (w : WriteReq) (s : State) : Option Written :=
  if w.off = 0x04C then some (trainCtlWrite w s)
  else if w.off = 0x058 then some (trainDataWrite w s)
  else none

/-- What a FULL training does to the first 64 KiB of each rank (R26): the contents are not preserved. Where the data region of rank 1
begins the spec does not say: DESIGN CHOICE, at U / 2 (log entry 8). -/
def scrambleLow (ch : Nat) (s : State) : State :=
  let c := s.ddrCh ch
  let two := s.flag R.DDRC_CFG_RANKS2 ch
  let rank := usableMib (s.get R.DDRC_CFG_DENSITY ch) (s.get R.DDRC_CFG_RANKS2 ch) * 2 ^ 20 / (if two then 2 else 1)
  let cut := fun {α : Type} (t : Tbl α) (lo n : Nat) => tblDrop t lo (lo + n)
  let d1 := cut c.data 0 65536
  let e1 := cut c.errs 0 8192
  { s.setDdr ch { c with
      lowEpoch := s.freeCount + 1
      data := if two then cut d1 rank 65536 else d1
      errs := if two then cut e1 (rank / 8) 8192 else e1 } with freeCount := s.freeCount + 1 }

/-- Word 0 of the record that a FULL training leaves for the data rate and the rank count in force (R26; log entry 13). -/
def trainWord (s : State) (ch : Nat) : Word := Config.trainWord (s.get R.DDRC_CFG_RATE ch) (s.get R.DDRC_CFG_RANKS2 ch)

/-- FAIL_STEP of a training that ends: a record that does not match DDRC_CFG fails a RESTORE (R26). -/
def trainFail (s : State) (ch failStep : Nat) : Nat :=
  if !(s.ddrCh ch).fullMode && tblGet 0 (s.ddrCh ch).record 0 != trainWord s ch then 6 else failStep

/-- A training ends (R26): READY with U and the data rate, or DOWN with FAIL_STEP. -/
def ddrTrainingDone (ch step ms : Nat) (record : List Word) (s : State) : State :=
  if s.ddrState ch = ddrTraining then
    let c := s.ddrCh ch
    let failStep := trainFail s ch step
    let s1 := ((s.put R.DDRC_TRAIN_CTL_START ch 0).put R.DDRC_TRAIN_STAT_FAIL_STEP ch failStep).put R.DDRC_TRAIN_STAT_MS ch ms
    let s2 := if c.fullMode then scrambleLow ch s1 else s1
    if failStep = 0 then
      let s3 := (((s2.put R.DDRC_STAT_STATE ch ddrReady).put R.DDRC_STAT_MTS ch (rateMts (s.get R.DDRC_CFG_RATE ch))).put
        R.DDRC_USABLE ch (usableMib (s.get R.DDRC_CFG_DENSITY ch) (s.get R.DDRC_CFG_RANKS2 ch))).raise 0x0C ch 1
      if c.fullMode then
        (s3.setDdr ch { s3.ddrCh ch with record := ((List.range 512).zip (trainWord s ch :: record.drop 1)).foldl (fun t p => tblSet 0 t p.1 p.2) [] }).raise
          0x0C ch 0
      else s3
    else (s2.put R.DDRC_STAT_STATE ch ddrDown).raise 0x0C ch 5
  else s

/-! ### The commands -/

/-- DDR_TRAINING_DONE (R26). -/
def execDdrTrainingDone (ch failStep ms : Nat) (record : List Word) (s : State) : Result :=
  need (ch < 2) (done (ddrTrainingDone ch failStep ms record s))

/-- DDR_READ (R24). -/
def execDdrRead (ch addr len : Nat) (s : State) : Result :=
  need (ch < 2) (done (ddrAnswer ch ⟨addr, len, 0, none, none⟩ s))

/-- DDR_WRITE (R24). -/
def execDdrWrite (ch addr enables : Nat) (data : List Byte) (s : State) : Result :=
  need (ch < 2) (done (ddrAnswer ch ⟨addr, data.length, enables, some data, none⟩ s))

/-- DDR_SCRUB_BLOCK (R27): the next block of a READY channel, in ascending order. -/
def execDdrScrubBlock (ch : Nat) (s : State) : Result :=
  need (ch < 2) (done (
    if s.domainOn 11 ∧ s.ddrState ch = ddrReady ∧ s.get R.DDRC_SCRUB_INTERVAL ch ≠ 0 then
      let b := (s.ddrCh ch).scrubBlock
      let last := s.ddrUsable ch ≤ 64 * (b + 1)
      let r := ddrWords ch (8 * b) 8 s
      let s1 := if r.2 then ddrCountUe ch r.1 else r.1
      let s2 := s1.setDdr ch { s1.ddrCh ch with scrubBlock := if last then 0 else b + 1 }
      if last then s2.raise 0x0C ch 6 else s2
    else s))

/-- DDR_PHY_LOCK_LOST (R25). -/
def execDdrPhyLockLost (ch : Nat) (s : State) : Result :=
  need (ch < 2) (done (if s.domainUp 11 ∧ s.ddrState ch = ddrReady then ddrLose ch s else s))

/-- DDR_SREF_EXIT_DONE (R28): the channel is READY and serves what it holds. -/
def execDdrSrefExitDone (ch : Nat) (s : State) : Result :=
  need (ch < 2) (done (
    if s.ddrState ch = ddrSrefExit then
      let c := s.ddrCh ch
      let s1 := ((((s.put R.DDRC_STAT_STATE ch ddrReady).put R.DDRC_STAT_SREF ch 0).put R.DDRC_STAT_MTS ch
        (rateMts (s.get R.DDRC_CFG_RATE ch))).raise 0x0C ch 1).setDdr ch { c with held := [] }
      ddrServeHeld ch c.held { s1 with answer := [] }
    else s))

/-- DDR_SREF_EXIT_TIMEOUT (R25): the channel is LOST and answers what it holds RSP_ECC. -/
def execDdrSrefExitTimeout (ch : Nat) (s : State) : Result :=
  need (ch < 2) (done (if s.ddrState ch = ddrSrefExit then ddrLose ch s else s))

end Sys2Proof.Machine
end

