-- ==== Sys2Proof/Machine/Aes.lean ====
section
/-!
DEFINITION. AES-128, its CMAC and its key unwrap, which the spec names and does not restate (R423, R433): the block cipher on lists of
16 bytes as numbers, column by column. PRESUMED from the standards named (log entry 10).
-/

namespace Sys2Proof.Machine

/-- Doubling in GF(2^8) modulo x^8 + x^4 + x^3 + x + 1. -/
def gfTwice (a : Nat) : Nat := if a < 128 then 2 * a else (2 * a) % 256 ^^^ 0x1B

/-- The product in GF(2^8) of a byte and the n low bits of another, bit by bit. -/
def gfProduct : Nat → Nat → Nat → Nat
  | 0, _, _ => 0
  | n + 1, a, b => (if b % 2 = 1 then a else 0) ^^^ gfProduct n (gfTwice a) (b / 2)

/-- The substitution of the bytes 0 to 255, 8 bits each, byte 0 lowest. -/
def subTable : Nat :=
    0xC072A49CAFA2D4ADF04759FA7DC982CA76ABD7FE2B670130C56F6BF27B777C63
    + 0x75B227EBE28012079A059618C323C7041531D871F1E5A534CCF73F362693FDB7 * 2 ^ 256
    + 0xCF584C4A39BECB6A5BB1FC20ED00D153842FE329B3D63B52A05A6E1B1A2C8309 * 2 ^ 512
    + 0xD2F3FF1021DAB6BCF5389D928F40A351A89F3C507F02F94585334D43FBAAEFD0 * 2 ^ 768
    + 0xDB0B5EDE14B8EE4688902A22DC4F816073195D643D7EA7C41744975FEC130CCD * 2 ^ 1024
    + 0x08AE7A65EAF4566CA94ED58D6D37C8E779E4959162ACD3C25C2406490A3A32E0 * 2 ^ 1280
    + 0x9E1DC186B95735610EF6034866B53E708A8BBD4B1F74DDE8C6B4A61C2E2578BA * 2 ^ 1536
    + 0x16BB54B00F2D99416842E6BF0D89A18CDF2855CEE9871E9B948ED9691198F8E1 * 2 ^ 1792

/-- The inverse substitution, in the same form. -/
def invSubTable : Nat :=
    0xCBE9DEC444438E3487FF2F9B8239E37CFBD7F3819EA340BF38A53630D56A0952
    + 0x25D18B6D49A25B76B224D92866A12E084EC3FA420B954CEE3D23C2A632947B54 * 2 ^ 256
    + 0x849D8DA75746155EDAB9EDFD5048706C92B6655DCC5CA4D41698688664F6F872 * 2 ^ 512
    + 0x6B8A130103BDAFC1020F3FCA8F1E2CD00645B3B80558E4F70AD3BC8C00ABD890 * 2 ^ 768
    + 0x6EDF751CE837F9E28535ADE72274AC9673E6B4F0CECFF297EADC674F4111913A * 2 ^ 1024
    + 0xF45ACD78FEC0DB9A2079D2C64B3E56FC1BBE18AA0E62B76F89C5291D711AF147 * 2 ^ 1280
    + 0xEF9CC9939F7AE52D0D4AB519A97F51605FEC8027591012B131C7078833A8DD1F * 2 ^ 1536
    + 0x7D0C2155631469E126D677BA7E042B17619953833CBBEBC8B0F52AAE4D3BE0A0 * 2 ^ 1792

/-- The substitution of a byte. -/
def subByte (a : Nat) : Nat := subTable / 256 ^ a % 256

/-- The inverse substitution. -/
def invSubByte (a : Nat) : Nat := invSubTable / 256 ^ a % 256

/-- Byte i of a block. -/
def at16 (b : List Nat) (i : Nat) : Nat := b.getD i 0

/-- Two blocks added. -/
def xorBlock (a b : List Nat) : List Nat := a.zipWith (fun x y => x ^^^ y) b

/-- Row r of the state moves r columns to the left (byte i stands in row i mod 4 of column i div 4). -/
def shiftRows (b : List Nat) : List Nat := (List.range 16).map (fun i => at16 b ((i + 4 * (i % 4)) % 16))

/-- Row r of the state moves r columns to the right. -/
def invShiftRows (b : List Nat) : List Nat := (List.range 16).map (fun i => at16 b ((i + 16 - 4 * (i % 4)) % 16))

/-- Each column multiplied by the circulant matrix with first row (m0, m1, m2, m3). -/
def mixWith (m : List Nat) (b : List Nat) : List Nat :=
  (List.range 16).map (fun i =>
    (List.range 4).foldl (fun acc j => acc ^^^ gfProduct 4 (at16 b (i / 4 * 4 + j)) (at16 m ((j + 4 - i % 4) % 4))) 0)

/-- The round key after a round key, with the round's constant. -/
def nextKey (rcon : Nat) (k : List Nat) : List Nat :=
  let t := [subByte (at16 k 13) ^^^ rcon, subByte (at16 k 14), subByte (at16 k 15), subByte (at16 k 12)]
  let w0 := xorBlock (k.take 4) t
  let w1 := xorBlock ((k.drop 4).take 4) w0
  let w2 := xorBlock ((k.drop 8).take 4) w1
  let w3 := xorBlock ((k.drop 12).take 4) w2
  w0 ++ w1 ++ w2 ++ w3

/-- n round keys from one on. -/
def roundKeys : Nat → Nat → List Nat → List (List Nat)
  | 0, _, _ => []
  | n + 1, rcon, k => k :: roundKeys n (gfTwice rcon) (nextKey rcon k)

/-- The rounds of encryption after the first key addition. -/
def encRounds : List (List Nat) → List Nat → List Nat
  | [], b => b
  | [k], b => xorBlock (shiftRows (b.map subByte)) k
  | k :: ks, b => encRounds ks (xorBlock (mixWith [2, 3, 1, 1] (shiftRows (b.map subByte))) k)

/-- One block enciphered with AES-128. -/
def aesEncrypt (key block : List Nat) : List Nat :=
  match roundKeys 11 1 key with
  | [] => block
  | k :: ks => encRounds ks (xorBlock block k)

/-- The rounds of decryption, the keys from the last round's down. -/
def decRounds : List (List Nat) → List Nat → List Nat
  | [], b => b
  | [k], b => xorBlock ((invShiftRows b).map invSubByte) k
  | k :: ks, b => decRounds ks (mixWith [14, 11, 13, 9] (xorBlock ((invShiftRows b).map invSubByte) k))

/-- One block deciphered with AES-128. -/
def aesDecrypt (key block : List Nat) : List Nat :=
  match (roundKeys 11 1 key).reverse with
  | [] => block
  | k :: ks => decRounds ks (xorBlock block k)

/-- A block as a number, first byte most significant. -/
def blockNum (b : List Nat) : Nat := b.foldl (fun n x => n * 256 + x) 0

/-- A number as n bytes, first byte most significant. -/
def numBlock (n v : Nat) : List Nat := (List.range n).map (fun i => v / 256 ^ (n - 1 - i) % 256)

/-- Doubling in GF(2^128) for the subkeys of CMAC. -/
def cmacDouble (b : List Nat) : List Nat :=
  let n := blockNum b
  numBlock 16 (if n < 2 ^ 127 then 2 * n else (2 * n) % 2 ^ 128 ^^^ 0x87)

/-- The chaining of CMAC over a message of at least one byte, 16 bytes at a time (the fuel is the message's length). -/
def cmacChain (key k1 k2 : List Nat) : Nat → List Nat → List Nat → List Nat
  | 0, x, _ => x
  | fuel + 1, x, m =>
    if m.length ≤ 16 then
      let last := if m.length = 16 then xorBlock m k1
        else xorBlock (m ++ 0x80 :: List.replicate (15 - m.length) 0) k2
      aesEncrypt key (xorBlock x last)
    else cmacChain key k1 k2 fuel (aesEncrypt key (xorBlock x (m.take 16))) (m.drop 16)

/-- AES-CMAC over a message, the tag's bytes in transmission order. -/
def aesCmac (key message : List Nat) : List Nat :=
  let l := aesEncrypt key (List.replicate 16 0)
  let k1 := cmacDouble l
  cmacChain key k1 (cmacDouble k1) (message.length + 1) (List.replicate 16 0) message

/-- AES-CMAC with a key and a message of bytes. -/
def cmacBytes (key : BitVec 128) (message : List Byte) : List Byte :=
  (aesCmac (numBlock 16 key.toNat) (message.map (fun b => b.toNat))).map (fun n => BitVec.ofNat 8 n)

/-- The steps of AES key unwrap from t downwards, over registers A and R1, R2 of 8 bytes. -/
def unwrapSteps (key : List Nat) : Nat → List Nat × List Nat × List Nat → List Nat × List Nat × List Nat
  | 0, x => x
  | t + 1, (a, r1, r2) =>
    let step := t + 1
    let a1 := numBlock 8 (blockNum a ^^^ step)
    let b := aesDecrypt key (a1 ++ (if step % 2 = 0 then r2 else r1))
    unwrapSteps key t (b.take 8, if step % 2 = 0 then r1 else b.drop 8, if step % 2 = 0 then b.drop 8 else r2)

/-- AES key unwrap of 24 bytes: the 16-byte key, if the integrity value is right. -/
def aesUnwrap (kek wrapped : List Nat) : Option (List Nat) :=
  let (a, r1, r2) := unwrapSteps kek 12 (wrapped.take 8, (wrapped.drop 8).take 8, wrapped.drop 16)
  if a = List.replicate 8 0xA6 then some (r1 ++ r2) else none

end Sys2Proof.Machine
end

