-- ==== Sys2Proof/Machine/Latch.lean ====
section
/-!
DEFINITION. Latch (R422 to R443, R448): keys and their uses, the check of a critical command, counters and journal, containers,
debug levels.
-/

namespace Sys2Proof.Machine

def State.setLatch (s : State) (x : Latch) : State := { s with latch := x }

/-- DEVICE_ID as bytes, little-endian (R426). -/
def deviceBytes : List Byte := leBytes 8 Config.deviceId.toNat

/-! ### Keys (R424, R428) -/

/-- REVOKED, PROGRAMMED and USE of a slot as LTCH_SLOT_STAT shows them; an uncorrectable key counts as revoked (R423). -/
def State.slotStat (s : State) (k : Nat) : Nat :=
  tblGet 0 s.latch.slots k ||| (if tblGet false s.latch.keyBad k then 0x200 else 0)

/-- A slot's key may be used: PROGRAMMED and not REVOKED. -/
def State.slotLive (s : State) (k : Nat) : Bool := decide (k < 32) && bitOf (s.slotStat k) 8 && !bitOf (s.slotStat k) 9

/-- A slot may authenticate a use (Table 17-2). -/
def State.slotUse (s : State) (k use : Nat) : Bool := s.slotLive k && bitOf (s.slotStat k) use

/-- The transport key (R428). -/
def transportKey : BitVec 128 :=
  BitVec.ofNat 128 (beNum (cmacBytes Config.duk ((1 : Byte) :: deviceBytes ++ List.replicate 7 0)))

/-- The key that a command's SLOT names. -/
def State.cmdKey (s : State) (slot : Nat) : BitVec 128 := if slot = 0xFE then transportKey else tblGet 0 s.latch.keys slot

/-- The key that an IMG_SLOT or a container's KEY names. -/
def State.imgKey (s : State) (k : Nat) : BitVec 128 := if k = 0xFF then Config.vendorKey else tblGet 0 s.latch.keys k

/-- The use that a command code needs (Table 17-2). -/
def codeUse (code : Nat) : Nat :=
  match code with
  | 0x01 => 0
  | 0x02 => 0
  | 0x03 => 0
  | 0x04 => 1
  | 0x05 => 3
  | 0x06 => 4
  | 0x07 => 4
  | 0x08 => 4
  | 0x09 => 5
  | _ => 2

/-- The slot may send the code (R424); COUNTER_RESYNC needs no use. -/
def State.slotAllows (s : State) (slot code : Nat) : Bool :=
  if code = 0x0B then s.slotLive slot else s.slotUse slot (codeUse code)

/-! ### The format of a command (Tables 17-4, 17-5) -/

/-- n bytes of the arguments from an offset on, as a number. -/
def argNum (a : List Byte) (ofs n : Nat) : Nat := leNum ((a.drop ofs).take n)

/-- An IMG_SLOT that names a key. -/
def imgSlotOk (k : Nat) : Bool := decide (k < 32) || k == 0xFF

/-- The write records of a command (R427): address, value, the reserved bytes. -/
def writeRecords (a : List Byte) : List (Nat × Word × Nat) :=
  (List.range (a.length / 16)).map (fun k => (argNum a (16 * k) 8, word (argNum a (16 * k + 8) 4), argNum a (16 * k + 12) 4))

/-- Arguments that Table 17-5 allows: length and reserved fields. -/
def argsOk (code : Nat) (a : List Byte) : Bool :=
  match code with
  | 0x01 => a.length == 4 && argNum a 0 4 % 2 == 0
  | 0x02 => a.length == 4 && argNum a 0 4 % 2 == 0 && decide (argNum a 0 4 < 2 ^ 31)
  | 0x03 => a.length == 4 && argNum a 0 4 &&& 0xFFFFFCE0 == 0
  | 0x04 => a.length == 24 && argNum a 5 3 == 0 && imgSlotOk (argNum a 12 1) && argNum a 13 3 == 0
  | 0x05 => a.length == 4 && decide (argNum a 0 4 < 3)
  | 0x06 => a.length == 16 && imgSlotOk (argNum a 10 1) && argNum a 11 5 == 0
  | 0x07 => a.length == 8 && imgSlotOk (argNum a 4 1) && argNum a 5 3 == 0
  | 0x08 => a.length == 16 && imgSlotOk (argNum a 12 1) && argNum a 13 3 == 0
  | 0x09 => a.length == 32 && decide (argNum a 2 1 < 0x80) && decide (argNum a 3 1 < 2) && argNum a 4 4 == 0
  | 0x0B => a.length == 16
  | 0x0A => decide (1 ≤ a.length / 16 ∧ a.length / 16 ≤ 32) && a.length % 16 == 0 &&
      (writeRecords a).all (fun r => decide (r.1 < 2 ^ 40) && r.2.2 == 0)
  | 0x0C => decide (1 ≤ a.length / 16 ∧ a.length / 16 ≤ 32) && a.length % 16 == 0 &&
      (writeRecords a).all (fun r => decide (r.1 < 2 ^ 40) && r.2.2 == 0)
  | _ => false

/-- The bytes 0x00 to 0x0F + LEN of a command. -/
def cmdBytes (c : CritCmd) : List Byte :=
  leBytes 1 c.code ++ leBytes 1 c.slot ++ leBytes 2 c.args.length ++ leBytes 4 c.ctr ++ leBytes 8 c.device ++ c.args

/-! ### Journal (R434, R435, R464) -/

/-- The highest valid journaled value of a slot (32: BOOTS). -/
def State.journaled (s : State) (slot : Nat) : Option Nat :=
  let es := (tblGet [] s.latch.journal 0 ++ tblGet [] s.latch.journal 1).filter (fun e => e.1 == slot)
  if es = [] then none else some (es.foldl (fun m e => max m e.2) 0)

/-- The active sector. -/
def State.sector (s : State) : Nat := s.get R.LTCH_JOURNAL_SECTOR 0

/-- The latest value of every slot that has an entry, in a sector's place. -/
def latestEntries (s : State) : List (Nat × Nat) := (List.range 33).filterMap (fun k => (s.journaled k).map (fun v => (k, v)))

/-- An entry written (R434): into the active sector, or, when that is full, into the other after the latest values. -/
def journalWrite (slot v : Nat) (s : State) : State :=
  let a := s.sector
  let full := 256 ≤ (tblGet [] s.latch.journal a).length
  let b := if full then 1 - a else a
  let es := (if full then latestEntries s else tblGet [] s.latch.journal a) ++ [(slot, v)]
  let s1 := s.setLatch { s.latch with
    journal := tblSet [] s.latch.journal b es
    dirty := if full then tblSet false s.latch.dirty a true else s.latch.dirty }
  (s1.put R.LTCH_JOURNAL_SECTOR 0 b).put R.LTCH_JOURNAL_ENTRIES 0 es.length

/-- A journal write that may fail (R434, R464): none when it fails. -/
def journalTry (fails : Bool) (slot v : Nat) (s : State) : Option State :=
  if fails || !s.domainOn 1 then none else some (journalWrite slot v s)

/-- The inactive sector, erased in the background once its entries have been copied (R434). -/
def sectorErase (s : State) : State :=
  let b := 1 - s.sector
  if tblGet false s.latch.dirty b then
    s.setLatch { s.latch with journal := tblSet [] s.latch.journal b [], dirty := tblSet false s.latch.dirty b false }
  else s

/-- The restore (R435). -/
def latchRestore (s : State) : State :=
  let slots := (List.range 32).filterMap (fun k => (s.journaled k).map (fun v => (k, (v + 1024) % 2 ^ 64)))
  let boots := ((s.journaled 32).getD 0 + 1) % 2 ^ 64
  let s1 := s.setLatch { s.latch with ctr := slots.foldl (fun t e => tblSet 0 t e.1 e.2) [], boots := boots, ready := true }
  journalWrite 32 boots (slots.foldl (fun s e => journalWrite e.1 e.2 s) s1)

/-! ### Nonce and challenge (R437, R443) -/

/-- LTCH_NONCE, 8 bytes. -/
def State.nonce (s : State) : List Byte :=
  (cmacBytes Config.duk ((2 : Byte) :: leBytes 8 s.latch.boots ++ leBytes 8 s.latch.resyncs)).take 8

/-- The challenge, 16 bytes. -/
def State.challenge (s : State) : List Byte :=
  cmacBytes Config.duk ((3 : Byte) :: leBytes 8 s.latch.boots ++ leBytes 8 s.latch.goCount)

/-- The ceiling of the debug level in force (R440). -/
def State.debugCeil (s : State) : Nat := if s.vendor then 2 else s.get R.LTCH_DBG_CEIL 0

/-- The response that grants a level (R441). -/
def State.dbgAnswer (s : State) (level : Nat) : List Byte :=
  cmacBytes Config.debugKey (s.challenge ++ leBytes 1 level ++ deviceBytes)

/-- The range rules of the LTCH page: REQ has three levels (R440, R548). -/
def ltchBad (off v : Nat) : Option Nat := if off = 0x06C ∧ bitsAt v 8 2 = 3 then some 0x0009 else none

/-- A write of LTCH_DBG (R441, R442). -/
def dbgWrite (w : WriteReq) (s : State) : State :=
  let v := w.value.toNat
  let req := bitsAt v 8 2
  let s1 := s.put R.LTCH_DBG_REQ 0 req
  if !bitOf v 31 ∨ s1.flag R.LTCH_DBG_LOCKED 0 then s1
  else
    let given := (List.range 4).flatMap (fun k => leBytes 4 (tblGet 0 s1.latch.response k).toNat)
    let right := given == s1.dbgAnswer req
    let s2 := s1.setLatch { s1.latch with goCount := s1.latch.goCount + 1 }
    if right then
      let s3 := s2.put R.LTCH_DBG_FAILS 0 0
      if req ≤ s3.debugCeil then s3.put R.LTCH_DBG_LEVEL 0 req else s3
    else
      let n := s2.get R.LTCH_DBG_FAILS 0 + 1
      let s3 := (s2.put R.LTCH_DBG_FAILS 0 n).raise 0x14 0 3
      if 3 ≤ n then s3.put R.LTCH_DBG_LOCKED 0 1 else s3

/-! ### Checking a command (R429 to R432) -/

/-- The statuses of Table 17-7. -/
abbrev stOk : Nat := 0
abbrev stFormat : Nat := 1
abbrev stSlot : Nat := 2
abbrev stDevice : Nat := 3
abbrev stTag : Nat := 4
abbrev stCounter : Nat := 5
abbrev stRefused : Nat := 6
abbrev stBusy : Nat := 7
abbrev stJournal : Nat := 8
abbrev stLifecycle : Nat := 9
abbrev stFault : Nat := 10

/-- The slot whose counter a command uses: transport-key commands use that of slot 0 (R428). -/
def ctrSlot (slot : Nat) : Nat := if slot = 0xFE then 0 else slot

/-- The stored counter of a slot. -/
def State.storedCtr (s : State) (slot : Nat) : Nat := tblGet 0 s.latch.ctr slot

/-- A stored counter replaced. -/
def setCtr (slot v : Nat) (s : State) : State := s.setLatch { s.latch with ctr := tblSet 0 s.latch.ctr slot v }

/-- The two AES datapaths disagree (R429). -/
def latchFault (s : State) : State := (s.raise 0x14 0 5).report 0x14 0 5 clsDevice

/-- The checks of R429 in their order: the first status that applies (OK when all pass), and the counter advanced when all
pass. -/
def latchCheck (c : CritCmd) (s : State) : State × Nat :=
  if !argsOk c.code c.args then (s, stFormat)
  else if s.vendor then (s, stLifecycle)
  else if c.slot = 0xFE ∧ (s.get R.LTCH_LIFECYCLE_STATE 0 ≠ 3 ∨ c.code ≠ 0x09) then (s, stSlot)
  else if c.slot ≠ 0xFE ∧ !s.slotAllows c.slot c.code then (s, stSlot)
  else if c.device ≠ Config.deviceId.toNat then (s, stDevice)
  else if c.aesFault then (latchFault s, stFault)
  else if c.tag ≠ (cmacBytes (s.cmdKey c.slot) (cmdBytes c)).take 8 then (s, stTag)
  else if c.code = 0x0B then (s, stOk)
  else
    let k := ctrSlot c.slot
    let u := s.storedCtr k
    let d := (c.ctr + 2 ^ 32 - u % 2 ^ 32) % 2 ^ 32
    if d = 0 ∨ 65536 < d then (s, stCounter)
    else
      let v := u + d
      if u / 1024 < v / 1024 then
        match journalTry c.journalFail k v s with
        | none => (s.raise 0x14 0 4, stJournal)
        | some s1 => (setCtr k v s1, stOk)
      else (setCtr k v s, stOk)

/-- The response of Table 17-6, and what it leaves in the page (R432). -/
def latchAnswer (c : CritCmd) (status result : Nat) (s : State) : State × Answer :=
  let good := status = stOk ∨ status = stRefused
  let body := leBytes 1 (c.code ||| 0x80) ++ leBytes 1 c.slot ++ leBytes 1 status ++ [0] ++ leBytes 4 c.ctr ++ leBytes 4 result
  let noTag := status = stFormat ∨ status = stLifecycle ∨ status = stSlot ∨ status = stFault
  let tag := if noTag then List.replicate 8 0 else (cmacBytes (s.cmdKey c.slot) body).take 8
  let s1 := if status = stBusy then s
    else s.setReg 0x14 0 0x05C (word (c.code * 2 ^ 24 + c.slot % 256 * 2 ^ 16 + status * 2 ^ 8 + bit c.gate))
  let s2 := if good then (s1.count R.LTCH_CMD_COUNT_DONE 0 1).raise 0x14 0 0
    else (s1.count R.LTCH_CMD_COUNT_FAILED 0 1).raise 0x14 0 1
  (s2, ⟨rspOk, body ++ tag⟩)

/-- What an acting block answers: the state, the status (OK, REFUSED, or JOURNAL for a resync) and RESULT. -/
abbrev Acted := State × Nat × Nat

/-- A command accepted. -/
def accepted (s : State) : Acted := (s, stOk, 0)
/-- A command refused with an error code. -/
def refusedWith (code : Nat) (s : State) : Acted := (s, stRefused, code)

/-- The status by which an acting block postpones its response (R475). -/
abbrev stHold : Nat := 0xFF

/-- What the acting block did becomes the response, or the command is held until the block can check it (R475). -/
def latchActed (c : CritCmd) (a : Acted) : State × Option Answer :=
  if a.2.1 = stHold then (a.1.setLatch { a.1.latch with held := some c }, none)
  else
    let r := latchAnswer c a.2.1 a.2.2 a.1
    (r.1, some r.2)

/-- A command checked and passed to its acting block, which `act` stands for. -/
def latchRun (act : CritCmd → State → Acted) (c : CritCmd) (s : State) : State × Option Answer :=
  let r := latchCheck c s
  if r.2 ≠ stOk then
    let a := latchAnswer c r.2 0 r.1
    (a.1, some a.2)
  else latchActed c (act c r.1)

/-- A command of the source is held or waits. -/
def State.latchBusy (s : State) (gate : Bool) : Bool :=
  s.latch.waiting.any (fun w => w.gate == gate) || (s.latch.held.any (fun w => w.gate == gate))

/-- A command arrives at Latch (R431, R435): it runs, waits, or is answered BUSY. -/
def latchSubmit (act : CritCmd → State → Acted) (c : CritCmd) (s : State) : State :=
  if s.latchBusy c.gate ∨ (!s.latch.ready ∧ !c.gate) then
    let r := latchAnswer c stBusy 0 s
    { r.1 with answer := [r.2] }
  else if s.latch.ready ∧ s.latch.rolling.isNone then
    let r := latchRun act c s
    { r.1 with answer := r.2.toList }
  else { (s.setLatch { s.latch with waiting := s.latch.waiting ++ [c] }) with answer := [] }

/-- The waiting commands run in arrival order while Latch takes commands; their answers gather. -/
def latchDrain (act : CritCmd → State → Acted) : Nat → State → State
  | 0, s => s
  | n + 1, s =>
    match s.latch.waiting with
    | [] => s
    | c :: t =>
      if s.latch.ready ∧ s.latch.rolling.isNone then
        let r := latchRun act c (s.setLatch { s.latch with waiting := t })
        latchDrain act n { r.1 with answer := s.answer ++ r.2.toList }
      else s

/-- The held command is checked again by its acting block (R475). -/
def latchRetry (act : CritCmd → State → Acted) (s : State) : State :=
  match s.latch.held with
  | none => s
  | some c =>
    let r := latchActed c (act c (s.setLatch { s.latch with held := none }))
    { r.1 with answer := r.2.toList }

/-! ### What Latch itself carries out (R433, R436, R440) -/

/-- DEBUG_LEVEL (R440). -/
def actDebugLevel (c : CritCmd) (s : State) : Acted :=
  let ceil := argNum c.args 0 4
  accepted ((s.put R.LTCH_DBG_CEIL 0 ceil).put R.LTCH_DBG_LEVEL 0 (min (s.get R.LTCH_DBG_LEVEL 0) ceil))

/-- COUNTER_RESYNC (R436). -/
def actCounterResync (c : CritCmd) (s : State) : Acted :=
  let k := ctrSlot c.slot
  let v := argNum c.args 8 8
  let again := fun (s : State) => s.setLatch { s.latch with resyncs := s.latch.resyncs + 1 }
  if c.args.take 8 = s.nonce ∧ s.storedCtr k < v then
    match journalTry c.journalFail k v s with
    | none => (s.raise 0x14 0 4, stJournal, 0)
    | some s1 => accepted (again (setCtr k v s1))
  else refusedWith 0x0102 (again s)

/-- The USE bits of a commanding slot. -/
def State.useOf (s : State) (slot : Nat) : Nat := if slot = 0xFE then 0x7F else s.slotStat slot % 256

/-- KEY_ROLL (R433): the conditions; the fuses are programmed when KEY_PROGRAM_DONE comes. -/
def actKeyRoll (c : CritCmd) (s : State) : Acted :=
  let target := argNum c.args 0 1
  let revoke := argNum c.args 1 1
  let use := argNum c.args 2 1
  let key := aesUnwrap (numBlock 16 (s.cmdKey c.slot).toNat) (((c.args.drop 8).take 24).map (fun b => b.toNat))
  let free := decide (target < 32) && !bitOf (tblGet 0 s.latch.slots target) 8
  let revokeOk := revoke == 0xFF || (decide (revoke < 32) && bitOf (tblGet 0 s.latch.slots revoke) 8)
  match key with
  | none => refusedWith 0x0101 s
  | some k =>
    if free && revokeOk && use &&& s.useOf c.slot == use then
      accepted (s.setLatch { s.latch with
        rolling := some ⟨target, BitVec.ofNat 128 (blockNum k), use, revoke, bitOf (argNum c.args 3 1) 0⟩ })
    else refusedWith 0x0101 s

/-- The fuses of a KEY_ROLL have been programmed (R433). -/
def rollDone (j : RollJob) (s : State) : State :=
  let slots := tblSet 0 s.latch.slots j.target (0x100 + j.use)
  let s1 := s.setLatch { s.latch with
    keys := tblSet 0 s.latch.keys j.target j.key
    slots := if j.revoke = 0xFF then slots else tblSet 0 slots j.revoke (tblGet 0 slots j.revoke ||| 0x200)
    ctr := tblSet 0 s.latch.ctr j.target 0
    rolling := none }
  if j.toField ∧ s1.get R.LTCH_LIFECYCLE_STATE 0 = 3 then s1.put R.LTCH_LIFECYCLE_STATE 0 7 else s1

/-! ### Containers (R438, R439) -/

def contKind (b : List Byte) : Nat := argNum b 4 1
def contKey (b : List Byte) : Nat := argNum b 5 1
def contSvn (b : List Byte) : Nat := argNum b 6 1
def contFlags (b : List Byte) : Nat := argNum b 7 1
def contLen (b : List Byte) : Nat := argNum b 8 4
def contPayload (b : List Byte) : List Byte := (b.drop 0x20).take (contLen b)
/-- The tag of a container. -/
def contTag (b : List Byte) : List Byte := (b.drop (0x20 + contLen b)).take 16
/-- The length of a container: header, payload, tag. -/
def contSize (b : List Byte) : Nat := 48 + contLen b

/-- MAGIC and reserved fields (step 1). -/
def contHeaderOk (b : List Byte) : Bool :=
  argNum b 0 4 == 0x4752474E && decide (contFlags b < 2) && argNum b 0x0C 4 == 0 && argNum b 0x18 8 == 0 &&
  decide (contSvn b ≤ 64) && decide (contLen b ≤ 8388560)

/-- A key may authenticate a container of a kind (R424); the vendor key only a base Larder and a boot continuation. -/
def State.imgKeyOk (s : State) (key kind : Nat) (base : Bool) : Bool :=
  if key = 0xFF then kind == 7 || (kind == 1 && base) else kind != 7 && s.slotUse key 6

/-- Steps 1 to 5 of R439: the first that fails, 0 when all pass. -/
def contSteps (kindOk : Nat → Bool) (key : Nat) (base : Bool) (b : List Byte) (s : State) : Nat :=
  if !contHeaderOk b then 1
  else if !kindOk (contKind b) then 2
  else if contKey b ≠ key ∨ !s.imgKeyOk key (contKind b) base then 3
  else if argNum b 0x10 8 ≠ 0 ∧ argNum b 0x10 8 ≠ Config.deviceId.toNat then 4
  else if contSvn b < s.get (R.LTCH_SVN_FLOOR.nth (contKind b)) 0 then 5
  else 0

/-- Step 6 of R439. -/
def contTagOk (key : Nat) (b : List Byte) (s : State) : Bool :=
  contTag b == cmacBytes (s.imgKey key) (b.take (0x20 + contLen b))

/-- The step of R439 that fails first, 0 when the container passes. -/
def contCheck (kindOk : Nat → Bool) (key : Nat) (base : Bool) (b : List Byte) (s : State) : Nat :=
  let k := contSteps kindOk key base b s
  if k ≠ 0 then k else if contTagOk key b s then 0 else 6

/-- The result of a check, as Latch reports it. -/
def imgResult (kind step : Nat) (s : State) : State :=
  let s1 := s.setReg 0x14 0 0x090 (word (kind * 2 ^ 24 + step))
  if step = 0 then s1 else s1.raise 0x14 0 2

/-- COMMIT_SVN (R439): the floor of a kind raised. -/
def raiseFloor (b : List Byte) (s : State) : State :=
  if bitOf (contFlags b) 0 then s.put (R.LTCH_SVN_FLOOR.nth (contKind b)) 0 (max (s.get (R.LTCH_SVN_FLOOR.nth (contKind b)) 0) (contSvn b)) else s

/-! ### The page -/

/-- The registers of the LTCH page with a rule of their own. -/
def ltchSpecial (w : WriteReq) (s : State) : Option Written :=
  if w.off = 0x06C then some (dbgWrite w s, rspOk)
  else if 0x080 ≤ w.off ∧ w.off < 0x090 then
    some (s.setLatch { s.latch with response := tblSet 0 s.latch.response ((w.off - 0x080) / 4) w.value }, rspOk)
  else none

/-- A read of the LTCH page's derived registers. -/
def ltchRead (off : Nat) (s : State) : Option Word :=
  let k := s.get R.LTCH_SLOT_IDX_SLOT 0
  let bytes := fun (b : List Byte) (base : Nat) => some (word (argNum b (off - base) 4))
  if off = 0x040 ∨ off = 0x044 then bytes deviceBytes 0x040
  else if off = 0x050 then some (word (s.slotStat k))
  else if off = 0x054 ∨ off = 0x058 then bytes (leBytes 8 (s.storedCtr k)) 0x054
  else if off = 0x064 ∨ off = 0x068 then bytes s.nonce 0x064
  else if off = 0x06C then some (word (setBits (setBits (s.getReg 0x14 0 0x06C).toNat 0 2 s.debugLevel) 2 2 s.debugCeil))
  else if 0x070 ≤ off ∧ off < 0x080 then bytes s.challenge 0x070
  else none

/-- SOFT_RESET of the LTCH page: counters, lifecycle, debug level and ceiling stay. -/
def ltchReset (s : State) : State :=
  (s.resetPage 0x14 0 (fun off => !(off == 0x024 || off == 0x048 || off == 0x06C || off == 0x094 || (0x098 ≤ off && decide (off < 0x0B8))))).dropShadows
    0x14 0

/-! ### Latch's own events -/

/-- JOURNAL_SECTOR_ERASE (R434). -/
def execJournalSectorErase (s : State) : Result := done (if s.domainOn 1 then sectorErase s else s)

end Sys2Proof.Machine
end

