-- ==== Sys2Proof/Machine/Pantry.lean ====
section
/-!
DEFINITION. Pantry banks and the March engine (R277 to R294): ownership and hand-over, the two queues and their service, byte-lane
rotate, corrected words and scrub, March runs.
-/

namespace Sys2Proof.Machine

def State.bank (s : State) (b : Nat) : PantBank := tblGet PantBank.idle s.pant b
def State.setBank (s : State) (b : Nat) (x : PantBank) : State := { s with pant := tblSet PantBank.idle s.pant b x }

/-! ### Words (R277 to R279) -/

/-- PANT_ERR_LOC of an error in a word. -/
def pantErrLoc (b w symbol e : Nat) (ue : Bool) (s : State) : State :=
  s.setReg 0x06 b 0x050 (word (bit ue * 2 ^ 31 + symbol * 2 ^ 24 + e * 2 ^ 20 + w))

/-- One word read (R279): a corrected word is delivered corrected and its write-back waits; the Boolean says that it was
uncorrectable, which is counted and reported. -/
def pantWord (b w : Nat) (s : State) : State × Bool :=
  let x := s.bank b
  match decodeWord (tblGet 0 x.errs w).toNat with
  | .clean => (s, false)
  | .corrected j e =>
    let s1 := s.setBank b { x with writeBack := if x.writeBack.contains w then x.writeBack else x.writeBack ++ [w] }
    (((pantErrLoc b w j e false s1).count R.PANT_CE_COUNT b 1).raise 0x06 b 1, false)
  | .uncorrectable =>
    ((((pantErrLoc b w 0x1F 0 true s).count R.PANT_UE_COUNT b 1).raise 0x06 b 2).report 0x06 b 2 clsHold, true)

/-- The word's 8 bytes as the decoder delivers them (R119). -/
def pantValue (x : PantBank) (w : Nat) : List Byte :=
  let old := memRead 0 x.data (8 * w) 8
  let wrong := residue (tblGet 0 x.errs w).toNat % 2 ^ 64
  if wrong = 0 then old else leBytes 8 (leNum old ^^^ wrong)

/-- A word stored with valid check symbols: its error pattern is gone, and a write-back of it is no longer due. -/
def pantStore (b w enables : Nat) (bytes : List Byte) (s : State) : State :=
  let x := s.bank b
  let old := pantValue x w
  let new := (old.zip bytes).zip (List.range 8) |>.map (fun e => if bitOf enables e.2 then e.1.2 else e.1.1)
  s.setBank b { x with data := memWrite 0 x.data (8 * w) new, errs := tblSet 0 x.errs w 0
                       writeBack := x.writeBack.filter (fun v => v != w) }

/-! ### Ownership (R281 to R285) -/

/-- An owner code of R85. -/
def ownerCode (c : Nat) : Bool := decide (c ≤ 0x37) || c == 0x40 || c == 0x41

/-- The pane whose sash an initiator is, if it is a sash engine that belongs to one (R281). -/
def sashPane (s : State) (i : Initiator) : List Nat :=
  if i.src < 16 ∧ i.init = 0 then [i.src]
  else if (i.src = 28 ∨ i.src = 29) ∧ i.init = 0 then
    (List.range 16).filter (fun p => s.paneSpare p == some (i.src - 28))
  else []

/-- Whether a requester belongs to an owner (Table 12-1). -/
def ownerTakes (s : State) (code : Nat) (i : Initiator) : Bool :=
  if code < 0x10 then
    let gang := s.paneGang code
    (sashPane s i).any (fun p => gang.contains p) || (gang.contains i.src && decide (1 ≤ i.init ∧ i.init ≤ 8))
  else if code ≤ 0x37 then i.src == code - 0x10
  else if code = 0x41 then
    i.src == 30 || i.src == 31 || (i.src == 39 && i.init == 0) || (i.src == 33 && s.bootActive) ||
    ((i.src == 28 || i.src == 29) && i.init == 1) || (i.src == 38) || (decide (i.src < 16) && i.init == 9) ||
    (i.src == 27)
  else false

/-- The debug port at FULL reads any bank (R281). -/
def debugReads (s : State) (i : Initiator) (write : Bool) : Bool :=
  i.src == 39 && i.init == 0 && !write && s.debugLevel == 2

/-- A request of a sash engine: it goes to the sash queue. -/
def fromSash (i : Initiator) : Bool := (decide (i.src < 16) || i.src == 28 || i.src == 29) && i.init == 0

/-- A hand-over starts (R283): the old owner's requests are to be served first, but none for the code already in OWNER. -/
def handStart (b code : Nat) (s : State) : State :=
  let s1 := ((s.put R.PANT_OWNER_NEXT_FLD b code).put R.PANT_OWNER_HANDING b 1).put R.PANT_OWNER_NEXT_CODE b code
  let x := s1.bank b
  let same := s.get R.PANT_OWNER_OWNER b = code
  let mark := fun (l : List PantReq) => l.map (fun r => { r with early := !same && !r.held })
  s1.setBank b { x with sashQ := mark x.sashQ, genQ := mark x.genQ }

/-- Whether the old owner's last request has been served. -/
def handReady (x : PantBank) : Bool := (x.sashQ ++ x.genQ).all (fun r => !r.early)

/-- The switch (R283). -/
def handComplete (b : Nat) (s : State) : State :=
  if s.flag R.PANT_OWNER_HANDING b ∧ handReady (s.bank b) then
    let s1 := ((s.put R.PANT_OWNER_OWNER b (s.get R.PANT_OWNER_NEXT_FLD b)).put R.PANT_OWNER_HANDING b 0).put
      R.PANT_OWNER_NEXT_FLD b 0xFF
    let x := s1.bank b
    let free := fun (l : List PantReq) => l.map (fun r => { r with held := false })
    ((s1.setBank b { x with sashQ := free x.sashQ, genQ := free x.genQ }).countWrap R.PANT_HANDOVERS b 1).raise 0x06 b 0
  else s

/-- A write of PANT_OWNER_NEXT, its lock already checked (R283, R284). -/
def ownerNextWrite (w : WriteReq) (s : State) : Written :=
  let code := w.value.toNat % 256
  if s.bankPinnedAt w.n then refuseWrite w rspRefused 0x0101 s
  else if s.flag R.PANT_OWNER_HANDING w.n then refuseWrite w rspRefused 0x0102 s
  else if !ownerCode code then refuseWrite w rspRefused 0x0103 s
  else if s.flag R.PANT_OWNER_FAILED w.n ∧ code ≠ 0x40 then refuseWrite w rspRefused 0x0104 s
  else (handStart w.n code s, rspOk)

/-- The hand-overs of an array-side edge (R285), while the Pantry runs. -/
def pantryEdge (it : Itinerary) (v : Nat) (s : State) : State :=
  if !s.domainUp 10 then s
  else (List.range 64).foldl (fun s b =>
    match (it.pantry v)[b]? with
    | none => s
    | some c =>
      if c ≠ s.get R.PANT_OWNER_OWNER b ∧ !(s.march.any (fun m => m.banks.contains b)) ∧ !s.flag R.PANT_OWNER_FAILED b then handStart b c s else s) s

/-! ### Requests (R282, R286, R287) -/

/-- The first byte of a request and how many bytes it spans: the enabled lanes, from its start address with ROTATE. -/
def reqSpan (q : NetReq) : Nat × Nat :=
  if q.rotate then (q.addr, (List.range 64).foldl (fun n k => if bitOf q.be k then n + 1 else n) 0)
  else (q.addr / 64 * 64, 64 * q.flits)

/-- Whether a request may be served by a bank at all (R287, R302): a plain request stays in its 64-byte blocks, a burst is
aligned and stays in the bank, a ROTATE names lanes from 0 on and stays in the bank. -/
def pantFits (q : NetReq) : Bool :=
  let (a, n) := reqSpan q
  if q.rotate then
    q.flits == 1 && q.be % 2 ^ 64 == 2 ^ n - 1 && decide (0 < n ∧ a % 0x80000 + n ≤ 0x80000)
  else
    (q.flits == 1 || ((q.flits == 2 || q.flits == 4) && q.addr % (64 * q.flits) == 0 &&
      (q.write || q.be == 2 ^ (64 * q.flits) - 1)))

/-- Whether lane k of a request is enabled. -/
def laneOn (q : NetReq) (k : Nat) : Bool := bitOf q.be k

/-- The words that a request touches, in ascending order. -/
def reqWords (q : NetReq) : List Nat :=
  let (a, n) := reqSpan q
  let o := a % 0x80000
  ((List.range n).filterMap (fun k => if laneOn q k then some ((o + k) / 8) else none)).eraseDups

/-- A request reaches its bank (R282). -/
def pantArrive (b : Nat) (i : NetIn) (s : State) : State :=
  let owner := s.get R.PANT_OWNER_OWNER b
  let next := if s.flag R.PANT_OWNER_HANDING b then some (s.get R.PANT_OWNER_NEXT_FLD b) else none
  let mine := ownerTakes s owner i.init || debugReads s i.init i.req.write
  let coming := match next with
    | some c => ownerTakes s c i.init
    | none => false
  if !mine && !coming then
    let s1 := ((s.count R.PANT_NOT_OWNER_COUNT b 1).put R.PANT_NOT_OWNER_LAST_SRC b i.init.src).raise 0x06 b 4
    answerNet i ⟨rspNotOwner, []⟩ s1
  else if !pantFits i.req then answerNet i ⟨rspRefused, []⟩ s
  else
    let r : PantReq := ⟨i, reqWords i.req, [], false, !mine, false⟩
    let x := s.bank b
    if fromSash i.init then s.setBank b { x with sashQ := x.sashQ ++ [r] }
    else s.setBank b { x with genQ := x.genQ ++ [r] }

/-- The enables and the bytes that a write gives to one word. -/
def wordLanes (q : NetReq) (w : Nat) : Nat × List Byte :=
  let (a, n) := reqSpan q
  let o := a % 0x80000
  let at_ := fun (k : Nat) => let byte := 8 * w + k; if o ≤ byte ∧ byte < o + n then some (byte - o) else none
  ((List.range 8).foldl (fun m k => match at_ k with
      | some l => if laneOn q l then m + 2 ^ k else m
      | none => m) 0,
   (List.range 8).map (fun k => match at_ k with
      | some l => q.data.getD l 0
      | none => 0))

/-- The bytes of a request's answer: each enabled lane from its byte of the bank, the others 0. -/
def pantLanes (x : PantBank) (q : NetReq) : List Byte :=
  let (a, n) := reqSpan q
  let o := a % 0x80000
  (List.range (64 * q.flits)).map (fun k =>
    if k < n ∧ laneOn q k then (pantValue x ((o + k) / 8)).getD ((o + k) % 8) 0 else 0)

/-- Whether the head access of a request reads its word: a read, or a write that does not cover it (R279). -/
def headReads (r : PantReq) : Bool :=
  match r.words with
  | [] => false
  | w :: _ => !r.net.req.write || (wordLanes r.net.req w).1 != 255

/-- The word of a head access read once, as the decoder delivers it; the Boolean says that it was uncorrectable. -/
def headDecode (b : Nat) (w : Nat) (reads : Bool) (s : State) : State × Bool := if reads then pantWord b w s else (s, false)

/-- The head access of a request applied to its word, which has been read as `v` where the access reads it (R277, R279, R286). -/
def headApply (b : Nat) (r : PantReq) (bad : Bool) (v : List Byte) (s : State) : State × PantReq :=
  match r.words with
  | [] => (s, r)
  | w :: rest =>
    if r.net.req.write then
      let (en, bytes) := wordLanes r.net.req w
      if bad && en != 255 then (s, { r with words := rest, bad := true })
      else (pantStore b w en bytes s, { r with words := rest })
    else
      let (a, n) := reqSpan r.net.req
      let o := a % 0x80000
      let got := (List.range n).filter (fun k => laneOn r.net.req k && (o + k) / 8 == w)
      let lanes := if r.data = [] then List.replicate (64 * r.net.req.flits) 0 else r.data
      (s, { r with words := rest, bad := r.bad || bad
                   data := got.foldl (fun l k => l.set k (v.getD ((o + k) % 8) 0)) lanes })

/-- A request that has been served whole is answered. -/
def pantFinish (r : PantReq) (s : State) : State :=
  if r.words ≠ [] then s
  else answerNet r.net (if r.bad then ⟨rspEcc, []⟩ else ⟨rspOk, if r.net.req.write then [] else
    if r.data = [] then List.replicate (64 * r.net.req.flits) 0 else r.data⟩) s

/-- The head of a queue that may be served, and its place: a held request waits for the switch. -/
def pantHead (l : List PantReq) : Option PantReq := l.find? (fun r => !r.held)

/-- The queue with its first servable request replaced, or removed when it has no word left. -/
def putHead : List PantReq → PantReq → List PantReq
  | [], _ => []
  | h :: t, r => if h.held then h :: putHead t r else if r.words = [] then t else r :: t

/-- A head access served alone: its word, the queue, the answer when it was the last. -/
def pantServe (b : Nat) (sash : Bool) (r : PantReq) (bad : Bool) (v : List Byte) (s : State) : State :=
  let d := headApply b r bad v s
  let y := d.1.bank b
  pantFinish d.2 (d.1.setBank b (if sash then { y with sashQ := putHead y.sashQ d.2 }
    else { y with genQ := putHead y.genQ d.2, waited := false }))

/-- Both heads on one word: one access and one decode (Table 12-3). Reads receive the word as it stood; of two writes the sash's comes
last, and the word is read first only if they do not cover it together. -/
def pantBoth (b : Nat) (r g : PantReq) (s : State) : State :=
  let w := r.words.headD 0
  let reads := if r.net.req.write && g.net.req.write then
      ((wordLanes r.net.req w).1 ||| (wordLanes g.net.req w).1) != 255 else headReads r || headReads g
  let d := headDecode b w reads s
  let v := pantValue (d.1.bank b) w
  if g.net.req.write && !r.net.req.write then pantServe b false g d.2 v (pantServe b true r d.2 v d.1)
  else pantServe b true r d.2 v (pantServe b false g d.2 v d.1)

/-- One head alone. -/
def pantOne (b : Nat) (sash : Bool) (r : PantReq) (s : State) : State :=
  let w := r.words.headD 0
  let d := headDecode b w (headReads r) s
  pantServe b sash r d.2 (pantValue (d.1.bank b) w) d.1

/-- One access more in PANT_ACCESSES. -/
def countAccess (b : Nat) (s : State) : State := s.setBank b { s.bank b with accesses := satAdd (s.bank b).accesses 1 (2 ^ 32 - 1) }

/-- One cycle of a bank's port for its queues (R286, Table 12-3). -/
def pantAccess (b : Nat) (s : State) : State :=
  let x := s.bank b
  match pantHead x.sashQ, pantHead x.genQ with
  | none, none => s
  | some r, none => countAccess b (pantOne b true r s)
  | none, some g => countAccess b (pantOne b false g s)
  | some r, some g =>
    if r.words.head? = g.words.head? then countAccess b (pantBoth b r g s)
    else if x.waited then countAccess b (pantOne b false g s)
    else
      let s1 := countAccess b (pantOne b true r s)
      let y := s1.bank b
      s1.setBank b { y with waited := true, conflicts := satAdd y.conflicts 1 (2 ^ 32 - 1) }

/-- The bank serves what it has queued until the answer comes (the fuel bounds its accesses). -/
def pantUntil (b : Nat) : Nat → State → State
  | 0, s => s
  | n + 1, s => if s.answer != [] then s else pantUntil b n (pantAccess b s)

/-- The accesses that a bank's queues still need. -/
def bankWork (x : PantBank) : Nat := (x.sashQ ++ x.genQ).foldl (fun n r => n + r.words.length + 1) 1

/-- The bank serves its queues until the answer comes; a request of the next owner waits for the switch of the hand-over (R283). -/
def pantFlush (b : Nat) (s : State) : State :=
  let s1 := pantUntil b (bankWork (s.bank b) * 2) s
  if s1.answer != [] then s1
  else
    let s2 := handComplete b s1
    pantUntil b (bankWork (s2.bank b) * 2) s2

/-- A request that its sender waits for: the bank's answer. -/
def pantNow (b : Nat) (x : NetIn) (s : State) : State × Answer :=
  let s1 := pantFlush b (pantArrive b x { s with answer := [] })
  ({ s1 with answer := s.answer }, s1.answer.headD ⟨rspUnreachable, []⟩)

/-- A bank is in the March run. -/
def inMarch (s : State) (b : Nat) : Bool :=
  match s.march with
  | some m => m.banks.contains b
  | none => false

/-- A bank's port is idle: neither queue has a servable head, and no March run drives it (R289). -/
def pantIdle (s : State) (b : Nat) : Bool :=
  (pantHead (s.bank b).sashQ).isNone && (pantHead (s.bank b).genQ).isNone && !inMarch s b

/-- The first corrected word still to be written back is written (R279). -/
def pantWriteBack (b : Nat) (s : State) : State :=
  let x := s.bank b
  match x.writeBack with
  | w :: _ => if pantIdle s b then pantStore b w 255 (pantValue x w) s else s
  | [] => s

/-- A scrub read (R280). -/
def pantScrub (b : Nat) (s : State) : State :=
  if s.get R.PANT_SCRUB_INTERVAL b ≠ 0 ∧ pantIdle s b then
    let w := s.get R.PANT_SCRUB_NEXT_WORD b
    let r := pantWord b w s
    let s1 := r.1.put R.PANT_SCRUB_NEXT_WORD b (w + 1)
    if w = 65535 then s1.raise 0x06 b 5 else s1
  else s

/-! ### March (R288 to R293) -/

/-- The banks of MRCH_MASK. -/
def marchMask (s : State) : List Nat :=
  (List.range 64).filter (fun b => bitOf (s.get R.MRCH_MASK_LO_BANKS 0 + 2 ^ 32 * s.get R.MRCH_MASK_HI_BANKS 0) b)

/-- A run begins. -/
def marchBegin (preserve checker : Bool) (banks : List Nat) (s : State) : State :=
  { (((s.put R.MRCH_CTL_START 0 1).put R.MRCH_STAT_BUSY 0 1).put R.MRCH_STAT_ELEMENT 0 0) with
    march := some ⟨preserve, checker, banks, [], []⟩ }

/-! The 76 stored bits of a word are its codeword with the error pattern that has struck it. -/

/-- The stored bits of a word, raw (R289). -/
def rawRead (x : PantBank) (w : Nat) : Nat :=
  let d := leNum (memRead 0 x.data (8 * w) 8)
  (d + checkBits d * 2 ^ 64) ^^^ (tblGet 0 x.errs w).toNat

/-- The stored bits of a word replaced, raw. -/
def rawWrite (w v : Nat) (x : PantBank) : PantBank :=
  let d := v % 2 ^ 64
  { x with data := memWrite 0 x.data (8 * w) (leBytes 8 d)
           errs := tblSet 0 x.errs w (BitVec.ofNat 76 (v ^^^ (d + checkBits d * 2 ^ 64)))
           writeBack := x.writeBack.filter (fun k => k != w) }

/-- The background's "0" and "1": solid, or alternating with the even bits set in "0" (R289). -/
def marchPattern (alternating one : Bool) : Nat :=
  if alternating then (if one then 0xAAAAAAAAAAAAAAAAAAA else 0x5555555555555555555) else if one then 2 ^ 76 - 1 else 0

/-- What one access of a destructive run does: a read with the value it expects, or a write. -/
inductive MarchOp where
  | read (expect : Nat)
  | write (v : Nat)
  deriving DecidableEq, Repr

/-- The accesses that an element makes at each word (Table 12-4). -/
def marchOps (element : Nat) : List MarchOp :=
  let alt := decide (6 ≤ element)
  let p := fun one => marchPattern alt one
  if element = 12 then [.write 0]
  else match element % 6 with
    | 0 => [.write (p false)]
    | 1 => [.read (p false), .write (p true)]
    | 2 => [.read (p true), .write (p false)]
    | 3 => [.read (p false), .write (p true)]
    | 4 => [.read (p true), .write (p false)]
    | _ => [.read (p false)]

/-- The elements of a destructive run, in order (R289). -/
def marchElements (checker : Bool) : List Nat := List.range 6 ++ (if checker then (List.range 6).map (fun k => k + 6) else []) ++ [12]

/-- An element goes down the words (Table 12-4). -/
def marchDown (element : Nat) : Bool := element == 3 || element == 4 || element == 9 || element == 10

/-- The element, the word and the access that access n of a destructive run makes; none after the last. -/
def marchAt : List Nat → Nat → Option (Nat × Nat × MarchOp)
  | [], _ => none
  | e :: rest, n =>
    let ops := marchOps e
    if n < 65536 * ops.length then
      let k := n / ops.length
      (ops[n % ops.length]?).map (fun o => (e, if marchDown e then 65535 - k else k, o))
    else marchAt rest (n - 65536 * ops.length)

/-- A failure recorded once for each access that meets one (R292). -/
def marchNote (f : MarchFail) (s : State) : State :=
  { s with march := s.march.map (fun m => { m with fails := m.fails ++ [f] }) }

/-- One access of a destructive run at a bank (R289). -/
def marchDestroy (b e w : Nat) (op : MarchOp) (s : State) : State :=
  match op with
  | .write v => s.setBank b (rawWrite w v (s.bank b))
  | .read expect =>
    let d := rawRead (s.bank b) w ^^^ expect
    if d = 0 then s else marchNote ⟨b, e, w, BitVec.ofNat 76 d⟩ s

/-- One access of a preserving run at a bank (R290): the first one decodes the word, which is repaired if it can be; of an uncorrectable
word the stored bits stay. -/
def marchPreserve (b w phase : Nat) (s : State) : State :=
  let x := s.bank b
  let bad := s.march.any (fun m => m.fails.any (fun f => f.bank == b && f.word == w))
  match phase with
  | 0 =>
    let d := pantWord b w s
    if d.2 then marchNote ⟨b, 0, w, tblGet 0 x.errs w⟩ d.1 else pantStore b w 255 (pantValue x w) d.1
  | 1 => if bad then s else s.setBank b (rawWrite w (rawRead x w ^^^ (2 ^ 76 - 1)) x)
  | 3 => if bad then s else s.setBank b (rawWrite w (rawRead x w ^^^ (2 ^ 76 - 1)) x)
  | _ => s

/-- The next access of the March run at a bank, one in each cycle (R289 to R291). -/
def marchAccess (b : Nat) (s : State) : State :=
  match s.march with
  | none => s
  | some m =>
    let n := tblGet 0 m.done b
    let s1 := { s with march := some { m with done := tblSet 0 m.done b (n + 1) } }
    if m.preserve then (if n < 5 * 65536 then marchPreserve b (n / 5) (n % 5) s1 else s)
    else match marchAt (marchElements m.checker) n with
      | some (e, w, op) => marchDestroy b e w op (s1.put R.MRCH_STAT_ELEMENT 0 e)
      | none => s

/-- A write of MRCH_CTL (R288). -/
def marchCtlWrite (w : WriteReq) (s : State) : Written :=
  let v := w.value.toNat
  if s.march.isSome then refuseWrite w rspRefused 0x0101 s
  else
    let s1 := (s.put R.MRCH_CTL_MODE 0 (v / 2)).put R.MRCH_CTL_CHECKER 0 (v / 4)
    if bitOf v 0 then
      let m := marchMask s
      if m = [] ∨ m.any (fun b => s.get R.PANT_OWNER_OWNER b != 0x40 || s.flag R.PANT_OWNER_HANDING b) then
        refuseWrite w rspRefused 0x0102 s
      else (marchBegin (bitOf v 1) (bitOf v 2) m s1, rspOk)
    else (s1, rspOk)

/-- What is left of a run at a bank when it ends (R289, R290): a destructive run leaves zeros; a preserving one meets its remaining
words. -/
def marchRest (m : MarchRun) (b : Nat) (s : State) : State :=
  if m.preserve then
    let n := tblGet 0 m.done b
    let left := if n % 5 = 0 then n / 5 else n / 5 + 1
    let s0 := (List.range 5).foldl (fun s k => if n % 5 ≤ k ∧ n % 5 ≠ 0 then marchPreserve b (n / 5) k s else s) s
    (s0.bank b).errs.foldl (fun s e => if left ≤ e.1 then marchPreserve b e.1 0 s else s) s0
  else s.setBank b { s.bank b with data := [], errs := [], writeBack := [] }

/-- Whether a failure of a run comes before another: by element, then by place in the element's order, then by bank. -/
def marchBefore (a b : MarchFail) : Bool :=
  let key := fun (f : MarchFail) => (f.element * 65536 +
    (if f.element = 3 ∨ f.element = 4 ∨ f.element = 9 ∨ f.element = 10 then 65535 - f.word else f.word)) * 64 + f.bank
  decide (key a ≤ key b)

/-- The earliest failure. -/
def firstFail : List MarchFail → Option MarchFail
  | [] => none
  | f :: t => match firstFail t with
    | none => some f
    | some g => some (if marchBefore f g then f else g)

/-- The owner that a bank gets after a run (R292): the Pantry table of the variant in force, else the host. -/
def marchOwner (s : State) (b : Nat) : Nat :=
  match s.porter.current with
  | some it => ((it.pantry s.variantNow)[b]?).getD 0x41
  | none => 0x41

/-- A bank's bit in a register pair set or cleared. -/
def setBankBit (lo hi : Field) (b : Nat) (v : Bool) (s : State) : State :=
  if b < 32 then s.put ⟨lo.ty, lo.off, 4, b, 1⟩ 0 (bit v) else s.put ⟨hi.ty, hi.off, 4, b - 32, 1⟩ 0 (bit v)

/-- A run ends (R292). -/
def marchEnd (fails : List MarchFail) (s : State) : State :=
  match s.march with
  | none => s
  | some m =>
    let s0 := m.banks.foldl (fun s b => marchRest m b s) s
    let all := (fails.filter (fun f => m.banks.contains f.bank)) ++ ((s0.march.map (fun m => m.fails)).getD [])
    let bad := m.banks.filter (fun b => all.any (fun f => f.bank == b))
    let s1 := { s0 with march := none }
    let s2 := match firstFail all with
      | none => s1
      | some f =>
        (((s1.setReg 0x07 0 0x050 (word (f.bank * 2 ^ 26 + f.element * 2 ^ 22 + f.word))).setReg 0x07 0 0x054
          (word f.diff.toNat)).setReg 0x07 0 0x058 (word (f.diff.toNat / 2 ^ 32))).setReg 0x07 0 0x05C
          (word (f.diff.toNat / 2 ^ 64))
    let s3 := m.banks.foldl (fun s b =>
      if bad.contains b then
        ((setBankBit R.MRCH_FAILED_LO_BANKS R.MRCH_FAILED_HI_BANKS b true (s.put R.PANT_OWNER_FAILED b 1)).raise
          0x06 b 3).report 0x06 b 3 clsUnit
      else
        let t := setBankBit R.MRCH_FAILED_LO_BANKS R.MRCH_FAILED_HI_BANKS b false s
        let t1 := if m.preserve then t else t.put R.PANT_OWNER_FAILED b 0
        if t1.flag R.PANT_OWNER_FAILED b then t1 else handComplete b (handStart b (marchOwner s b) t1)) s2
    let s4 := (((s3.put R.MRCH_CTL_START 0 0).put R.MRCH_STAT_BUSY 0 0).put R.MRCH_STAT_FAIL_COUNT 0 bad.length).put
      R.MRCH_STAT_FAIL 0 (bit (!bad.isEmpty))
    let s5 := (s4.put R.MRCH_STAT_PASS 0 (bit bad.isEmpty)).raise 0x07 0 0
    if bad.isEmpty then s5 else s5.raise 0x07 0 1

/-- PD_PANTRY has come up from OFF (R293): the run over all banks starts by itself in the first cycle after the domain is ON. -/
def marchStartup (s : State) : State :=
  if s.marchDue && s.domainOn 10 then marchBegin false true (List.range 64) { s with marchDue := false } else s

/-- The MRCH page's masks are refused during a run. -/
def mrchBad (off : Nat) (s : State) : Option Nat :=
  if (off = 0x044 ∨ off = 0x048) ∧ s.march.isSome then some 0x0101 else none

/-- The Pantry's registers with a rule of their own. -/
def pantSpecial (w : WriteReq) (s : State) : Option Written :=
  if w.off = 0x044 then some (ownerNextWrite w s) else none

/-- The March engine's registers with a rule of their own. -/
def mrchSpecial (w : WriteReq) (s : State) : Option Written :=
  if w.off = 0x040 then some (marchCtlWrite w s) else none

/-- SOFT_RESET of a bank's page (R294). -/
def pantReset (b : Nat) (s : State) : State :=
  s.resetPage 0x06 b (fun off => off != 0x040 && off != 0x044 && off != 0x024 && off != 0x008)

/-- SOFT_RESET of the March engine's page (R294). -/
def mrchReset (s : State) : State :=
  s.resetPage 0x07 0 (fun off => off != 0x060 && off != 0x064 && off != 0x024 && off != 0x008)

/-- The registers of the last complete tick take their values (R152, R286). -/
def pantTick (s : State) : State :=
  (List.range 64).foldl (fun s b =>
    let x := s.bank b
    ((s.put R.PANT_ACCESSES b x.accesses).put R.PANT_CONFLICTS b x.conflicts).setBank b
      { x with accesses := 0, conflicts := 0 }) s

/-! ### The commands -/

/-- PANTRY_ACCESS (R286, R289): one cycle of the bank's port, which a March run drives while it lasts. -/
def execPantryAccess (bank : Nat) (s : State) : Result :=
  need (bank < 64) (done (
    if inMarch s bank then (if s.domainOn 10 then marchAccess bank s else s)
    else if s.domainUp 10 then pantAccess bank s else s))

/-- PANTRY_CORRECTED_WRITEBACK (R279). -/
def execPantryCorrectedWriteback (bank : Nat) (s : State) : Result := need (bank < 64) (done (if s.domainUp 10 then pantWriteBack bank s else s))

/-- PANTRY_SCRUB (R280). -/
def execPantryScrub (bank : Nat) (s : State) : Result := need (bank < 64) (done (if s.domainOn 10 then pantScrub bank s else s))

/-- HANDOVER_COMPLETE (R283). -/
def execHandoverComplete (bank : Nat) (s : State) : Result := need (bank < 64) (done (if s.domainUp 10 then handComplete bank s else s))

/-- MARCH_STARTUP_RUN (R293). -/
def execMarchStartupRun (s : State) : Result := done (marchStartup s)

/-- MARCH_RUN_END (R292). -/
def execMarchRunEnd (fails : List MarchFail) (s : State) : Result := done (if s.domainOn 10 then marchEnd fails s else s)

end Sys2Proof.Machine
end

