-- ==== Sys2Proof/Machine/Flash.lean ====
section
/-!
DEFINITION. The flash (R461, R462) and what the image loaders read: flash, DDR and Pantry by address (R74, R172, R463).
-/

namespace Sys2Proof.Machine

/-- What a byte of flash that nothing has programmed reads as: erased (R463). -/
abbrev erasedByte : Byte := 0xFF

/-- The bytes of flash, and where the journal's sectors begin (R461). -/
abbrev flashSize : Nat := 0x800000
abbrev journalBase : Nat := 0x7FE000

/-- One 64-bit word of flash met by a read (R462): the Boolean says that it was uncorrectable. -/
def flashWord (w : Nat) (s : State) : State × Bool :=
  match decodeWord (tblGet 0 s.flash.errs w).toNat with
  | .clean => (s, false)
  | .corrected _ _ => ((s.count R.HNGE_FLASH_CE 0 1).raise 0x15 0 8, false)
  | .uncorrectable => ((s.count R.HNGE_FLASH_UE 0 1).raise 0x15 0 9, true)

/-- n words met from word w on, until one is uncorrectable. -/
def flashWords (w : Nat) : Nat → State → State × Bool
  | 0, s => (s, false)
  | n + 1, s =>
    let r := flashWord w s
    if r.2 then r else flashWords (w + 1) n r.1

/-- The byte at a flash address as the decoder delivers it. -/
def flashByte (f : Flash) (a : Nat) : Byte :=
  let noise := residue (tblGet 0 f.errs (a / 8)).toNat
  tblGet erasedByte f.data a ^^^ BitVec.ofNat 8 (bitsAt noise (8 * (a % 8)) 8)

/-- n bytes of flash from an address on; none when a word of them is uncorrectable (R462). -/
def flashRead (a n : Nat) (s : State) : State × Option (List Byte) :=
  let r := flashWords (a / 8) ((a + n + 7) / 8 - a / 8) s
  (r.1, if r.2 then none else some ((List.range n).map (fun k => flashByte s.flash (a + k))))

/-- A range of flash erased: it reads 0xFF and holds codewords. -/
def flashErase (a n : Nat) (s : State) : State :=
  { s with flash := ⟨tblDrop s.flash.data a (a + n), tblDrop s.flash.errs (a / 8) ((a + n + 7) / 8)⟩ }

/-- Bytes programmed into flash. -/
def flashProgram (a : Nat) (bytes : List Byte) (s : State) : State :=
  { s with flash := { s.flash with data := memWrite erasedByte s.flash.data a bytes } }

/-! ### What an image loader reads (R74, R172, R463) -/

/-- A read of n bytes within one 64-byte block. -/
def blockReq (a n : Nat) : NetReq := ⟨false, a, (2 ^ n - 1) * 2 ^ (a % 64), [], 1, false, false, false⟩

/-- n bytes from a channel for an agent that waits: none while it holds its requests, since the response timer then answers. -/
def ddrNow (ch x n : Nat) (s : State) : State × Option (List Byte) :=
  if s.ddrState ch = ddrSrefExit then (s, none)
  else
    let r := ddrRequest ch ⟨x, n, 0, none, none⟩ s
    (r.1, r.2.bind (fun a => if a.code = rspOk then some a.data else none))

/-- n bytes of an image at its target, with the fence and the domain that the target has (R34, R35). -/
def fetchTarget (i : Initiator) (a n : Nat) (tg : Target) (s : State) : State × Option (List Byte) :=
  if s.fenced tg ∨ !s.domainUp (pageDomain (targetPage tg).1 (targetPage tg).2) then (s, none)
  else match tg with
    | .ddr ch x => ddrNow ch x n s
    | .pantry b _ =>
      let r := pantNow b ⟨i, blockReq a n, none, none⟩ s
      (r.1, if r.2.code = rspOk then some ((r.2.data.drop (a % 64)).take n) else none)
    | .flash o => if o + n ≤ journalBase then flashRead o n s else (s, none)
    | _ => (s, none)

/-- One piece of an image, at most a 64-byte block, from the memory that its address names: over the Footpath (R10, R308, R321), but for
Hinge's loader and its own flash. -/
def fetchBlock (i : Initiator) (mode a n : Nat) (s : State) : State × Option (List Byte) :=
  let tg := targetOf s mode a
  if i.src = 38 ∧ targetTrlh tg = 38 then fetchTarget i a n tg s
  else match directRequest i tg (blockReq a n) s with
    | (s1, some code) => (s1, if code = rspOk then some (List.replicate n 0) else none)
    | (s1, none) => fetchTarget i a n tg s1

/-- n bytes of an image from an address on, block by block (the fuel is the number of blocks). -/
def fetchFrom (i : Initiator) (mode : Nat) : Nat → Nat → Nat → State → State × Option (List Byte)
  | 0, _, _, s => (s, some [])
  | fuel + 1, a, n, s =>
    if n = 0 then (s, some [])
    else
      let k := min n (64 - a % 64)
      match fetchBlock i mode a k s with
      | (s1, none) => (s1, none)
      | (s1, some b) =>
        match fetchFrom i mode fuel (a + k) (n - k) s1 with
        | (s2, none) => (s2, none)
        | (s2, some rest) => (s2, some (b ++ rest))

/-- n bytes of an image from an address on; none when a part of them cannot be read. -/
def fetchBytes (i : Initiator) (mode a n : Nat) (s : State) : State × Option (List Byte) :=
  fetchFrom i mode (n / 64 + 2) a n s

/-- A container from an address on: its header, then the rest. -/
def fetchContainer (i : Initiator) (mode a : Nat) (s : State) : State × Option (List Byte) :=
  match fetchBytes i mode a 32 s with
  | (s1, none) => (s1, none)
  | (s1, some h) =>
    if 8388560 < contLen h then (s1, some h)
    else match fetchBytes i mode (a + 32) (contSize h - 32) s1 with
      | (s2, none) => (s2, none)
      | (s2, some rest) => (s2, some (h ++ rest))

end Sys2Proof.Machine
end

