-- ==== Sys2Proof/Machine/Fabric.lean ====
section
/-!
DEFINITION. The logic of Hinge's fabric (R449 to R452, R454): cells, wires, global clock nets, what the pins do.
-/

namespace Sys2Proof.Machine

def State.setFabric (s : State) (x : Fabric) : State := { s with fabric := x }

/-- Fabric states (Table 18-7). -/
abbrev fabUnconfigured : Nat := 0
abbrev fabLoading : Nat := 1
abbrev fabReleased : Nat := 2
abbrev fabParked : Nat := 3
abbrev fabFailed : Nat := 4

def State.fabState (s : State) : Nat := s.get R.HNGE_FAB_STATE_STATE 0

/-- The 64-bit field c of a frame. -/
def frameField (f c : Nat) : Nat := bitsAt f (64 * c) 64

/-- A frame of the configuration as it stands. -/
def Fabric.frame (x : Fabric) (n : Nat) : Nat := (tblGet 0 x.frames n).toNat

/-- The field of pin p (Table 18-5). -/
def Fabric.pin (x : Fabric) (p : Nat) : Nat := frameField (x.frame (4224 + p / 8)) (p % 8)

/-! ### Wires (R450, Table 18-1) -/

/-- The wires of the fabric as bits: track c of bay b is bit 8b + c of tracks, row line c of row r bit 8r + c of rows, and so for columns. -/
structure Wires where
  tracks : Nat
  rows : Nat
  cols : Nat
  deriving DecidableEq, Repr

/-- What the wires take from outside: whether the cell outputs are connected (R454), the levels of the pins, the bits of the UIN registers. -/
structure FabricIn where
  live : Bool
  pins : Nat
  uin : Nat
  deriving DecidableEq, Repr

/-- The wire that a multiplexer gives: the source whose select bit is set, 0 without one. -/
def muxOut (sel n : Nat) (src : Nat → Bool) : Bool := (List.range n).any (fun k => bitOf sel k && src k)

def Wires.track (w : Wires) (b c : Nat) : Bool := bitOf w.tracks (8 * b + c)
def Wires.row (w : Wires) (r c : Nat) : Bool := bitOf w.rows (8 * r + c)
def Wires.col (w : Wires) (q c : Nat) : Bool := bitOf w.cols (8 * q + c)

/-- The table output of a cell of a bay (R449). -/
def lutOut (x : Fabric) (w : Wires) (b c : Nat) : Bool :=
  let f := frameField (x.frame b) c
  bitOf f (maskOf 4 (fun i => muxOut (bitsAt f (24 + 8 * i) 8) 8 (w.track b)))

/-- The output of a cell: its flip-flop when REG is 1, its table when it is 0; 0 while disconnected (R449, R454). -/
def cellOut (x : Fabric) (i : FabricIn) (w : Wires) (b c : Nat) : Bool :=
  i.live && (if bitOf (frameField (x.frame b) c) 17 then bitOf (tblGet 0 x.flops b) c else lutOut x w b c)

/-- The input of the pin that enters column 0 at track c of row r, 0 if there is none. -/
def pinIn (x : Fabric) (i : FabricIn) (r c : Nat) : Bool :=
  (List.range 96).any (fun p => 2 * p / 3 == r && p % 8 == c && bitOf (x.pin p) 41 && bitOf i.pins p)

/-- Source k of track c of bay (r, q). -/
def trackSource (x : Fabric) (i : FabricIn) (w : Wires) (r q c k : Nat) : Bool :=
  let b := 64 * r + q
  match k with
  | 0 => cellOut x i w b c
  | 1 => if q = 0 then pinIn x i r c else if q = 63 then bitOf i.uin (8 * r + c) else cellOut x i w b ((c + 4) % 8)
  | 2 => w.track (b - 64) c
  | 3 => w.track (b + 1) c
  | 4 => w.track (b + 64) c
  | 5 => w.track (b - 1) c
  | 6 => w.row r c
  | _ => w.col q c

/-- Every wire driven once from the others as they stand. -/
def driveWires (x : Fabric) (i : FabricIn) (w : Wires) : Wires :=
  ⟨maskOf 32768 (fun k => muxOut (bitsAt (frameField (x.frame (k / 8)) (k % 8)) 56 8) 8 (trackSource x i w (k / 512) (k / 8 % 64) (k % 8))),
   maskOf 512 (fun k => muxOut (frameField (x.frame (4096 + k / 8)) (k % 8)) 64 (fun j => w.track (64 * (k / 8) + j) (k % 8))),
   maskOf 512 (fun k => muxOut (frameField (x.frame (4160 + k / 8)) (k % 8)) 64 (fun j => w.track (64 * j + k / 8) (k % 8)))⟩

/-- The wires driven until they stand still (the fuel bounds how long a combinational loop oscillates, R452). -/
def settleWires (x : Fabric) (i : FabricIn) : Nat → Wires → Wires
  | 0, w => w
  | n + 1, w => let v := driveWires x i w; if v = w then w else settleWires x i n v

/-- How many wires there are: without a loop they stand still after as many rounds, whatever they began with. -/
abbrev wireCount : Nat := 32768 + 512 + 512

/-- The wires that begin as the bits of a number; only where there is a loop does it matter which (R452). -/
def wiresFrom (v : Nat) : Wires := ⟨v % 2 ^ 32768, bitsAt v 32768 512, bitsAt v (32768 + 512) 512⟩

/-- The bits of the UIN registers in force. -/
def State.uinBits (s : State) : Nat := leNum ((List.range 16).flatMap (fun k => leBytes 4 (s.getReg 0x15 0 (0x100 + 4 * k)).toNat))

/-- What the wires take from outside, with given levels of the pins. -/
def State.fabricIn (s : State) (pins : Nat) : FabricIn := ⟨s.fabState == fabReleased, pins, s.uinBits⟩

/-- The wires settled with given pins, from a free beginning. -/
def State.wires (s : State) (pins v : Nat) : Wires := settleWires s.fabric (s.fabricIn pins) wireCount (wiresFrom v)

/-- The UOUT bits: track c of bay (r, 63) at bit 8r + c. -/
def Wires.uout (w : Wires) : Nat := maskOf 512 (fun k => w.track (64 * (k / 8) + 63) (k % 8))

/-! ### Clock nets and flip-flops (R449, R451) -/

/-- The source of a global clock net (hard frame). -/
def State.netSource (s : State) (g : Nat) : Nat := bitsAt (s.fabric.frame 4236) (192 + 16 * g) 3

/-- The nets that run: those of a RELEASED fabric with a source, while PD_HINGE is ON (R451, R469). -/
def State.runningNets (s : State) : List Nat :=
  if s.fabState = fabReleased ∧ s.domainOn 1 then (List.range 4).filter (fun g => s.netSource g != 0) else []

/-- The flip-flops of a bay that hang on one of the nets, as bits. -/
def netMask (s : State) (nets : List Nat) (bay : Nat) : Nat :=
  maskOf 8 (fun c => nets.contains (bitsAt (s.fabric.frame bay) (64 * c + 18) 2))

/-- Rising edges of some nets at once: each flip-flop on them takes its table's output (R449). -/
def clockEdge (nets : List Nat) (pins v : Nat) (s : State) : State :=
  let w := s.wires pins v
  s.setFabric { s.fabric with flops := (List.range 4096).foldl (fun t bay =>
    tblSet 0 t bay (maskMerge (tblGet 0 s.fabric.flops bay) (maskOf 8 (lutOut s.fabric w bay)) (netMask s nets bay))) s.fabric.flops }

/-- The edges that time has brought, as a free value tells them: how many, and for each the nets, the levels of the pins and what a loop
does. -/
def freeEdges (v : Nat) : List (Nat × Nat × Nat) :=
  let each := 4 + 96 + wireCount
  (List.range (v % 2 ^ 64)).map (fun k =>
    (bitsAt v (64 + each * k) 4, bitsAt v (64 + each * k + 4) 96, bitsAt v (64 + each * k + 100) wireCount))

/-- The fabric has run up to now: a free number of edges of its running nets, with free levels of the pins. -/
def runFabric (s : State) : State :=
  let nets := s.runningNets
  if nets = [] then s
  else
    let (v, s1) := s.draw
    (freeEdges v).foldl (fun s e => clockEdge (nets.filter (fun g => bitOf e.1 g)) e.2.1 e.2.2 s) s1

/-! ### Pins (R450, R454, Tables 18-5 and 18-6) -/

/-- What a pin does: the level it drives, if it drives; its pull (PULL of Table 18-5); its drive strength (DRIVE). -/
structure PinState where
  drives : Option Bool
  pull : Nat
  strength : Nat
  deriving DecidableEq, Repr

/-- A parked pin: its parking entry, high impedance with a weak pull-down where no table is in force (R454). -/
def parkedPin (table : Option (List Nat)) (p : Nat) : PinState :=
  match (table.map (fun t => t.getD p 1)).getD 1 with
  | 0 => ⟨none, 0, 0⟩
  | 2 => ⟨none, 2, 0⟩
  | 3 => ⟨some false, 0, 0⟩
  | 4 => ⟨some true, 0, 0⟩
  | _ => ⟨none, 1, 0⟩

/-- A configured pin: its output and enable from the row lines, or from the port that OUT_SEL names, whose signals are given as level and
enable. -/
def configuredPin (x : Fabric) (w : Wires) (hsp : Nat → Nat → Bool × Bool) (p : Nat) : PinState :=
  let f := x.pin p
  let line := w.row (2 * p / 3)
  let port := (List.range 8).find? (fun k => bitOf f (8 + k))
  let out := match port with
    | some k => hsp k (bitsAt f 32 3)
    | none => (muxOut (f % 2 ^ 8) 8 line, bitOf f 35 || muxOut (bitsAt f 16 8) 8 line)
  ⟨if !out.2 || (bitOf f 40 && out.1) then none else some out.1, bitsAt f 36 2, bitsAt f 38 2⟩

/-- What user pin p does, with given pin levels, port signals and a free beginning of the wires. -/
def State.userPin (s : State) (pins v : Nat) (hsp : Nat → Nat → Bool × Bool) (p : Nat) : PinState :=
  if s.domain 1 = psOff then parkedPin none p
  else if s.fabState = fabReleased then configuredPin s.fabric (s.wires pins v) hsp p
  else parkedPin s.fabric.park p

end Sys2Proof.Machine
end

