-- ==== Sys2Proof/Machine/Debug.lean ====
section
/-!
DEFINITION. The debug port (R511 to R528, R545): the test access port, its checked accesses, run control, engine registers, the
virtual terminals.
-/

namespace Sys2Proof.Machine

/-! ### The engine selected -/

/-- The engine that DBG_ENG_SEL names. -/
def State.selType (s : State) : Nat := s.get R.DBG_ENG_SEL_TYPE 0
def State.selNum (s : State) : Nat := s.get R.DBG_ENG_SEL_INSTANCE 0

/-- A value of DBG_ENG_SEL names an engine. -/
def selNames (v : Nat) : Bool := decide (3 ≤ bitsAt v 8 8 ∧ bitsAt v 8 8 ≤ 5) && decide (v % 256 < pageCount (bitsAt v 8 8))

/-- Every engine: type and number. -/
def allEngines : List (Nat × Nat) :=
  (List.range 18).map (fun n => (3, n)) ++ (List.range 128).map (fun n => (4, n)) ++ (List.range 2).map (fun n => (5, n))

/-! ### Release (R522, R525) -/

/-- An engine released: a pending halt is cancelled; a halted engine runs on at its PC with its watchdog at the full period. -/
def releaseOne (stamp : Nat) (s : State) (e : Nat × Nat) : State :=
  let x := s.eng (engKey e.1 e.2)
  let s1 := s.setEng (engKey e.1 e.2) { x with haltReq := 0, stepReq := 0 }
  if s.engState e.1 e.2 = esHalted then
    let s2 := wdgLoad e.1 e.2 (((passCycles e.1 e.2 s1).setEngState e.1 e.2 esRunning).raise 0x18 0 1)
    match s2.engineGang e.1 e.2 with
    | some ps => ps.foldl (fun s p =>
        if s.pcState p = pcHalted then { s with released := tblSet 0 s.released p (stamp + 1) } else s) s2
    | none => s2
  else s1

/-- The engines of a list released. -/
def releaseEngines (stamp : Nat) (es : List (Nat × Nat)) (s : State) : State := es.foldl (releaseOne stamp) s

/-- Every halt released and every pending halt cancelled (R525). -/
def releaseAll (stamp : Nat) (s : State) : State := releaseEngines stamp allEngines s

/-- What a fall of the level below FULL or of DBG_ALLOW.EN to 0 brings (R525). -/
def debugFall (stamp : Nat) (s : State) : State :=
  if s.debugLevel ≠ 2 then
    let s1 := releaseAll stamp s
    { s1 with engines := s1.engines.map (fun e => (e.1, { e.2 with brkHalt := false })) }
  else if s.flag R.DBG_ALLOW_EN 0 then s
  else releaseAll stamp s

/-! ### Run control (R516, R517, R519, R523, R524) -/

/-- A halt of the selected engine's unit requested, or refused (R516, R517). -/
def haltWrite (w : WriteReq) (s : State) : Written :=
  let r := s.haltRefusal s.selType s.selNum
  if r ≠ 0 then refuseWrite w rspRefused 0x0101 ((s.put R.DBG_RUN_STAT_REFUSED 0 r).raise 0x18 0 2)
  else
    ((s.haltUnit s.selType s.selNum).foldl (fun t e =>
      if t.engState e.1 e.2 = esRunning then
        let x := t.eng (engKey e.1 e.2)
        t.setEng (engKey e.1 e.2) { x with haltReq := 1 }
      else t) s, rspOk)

/-- The syllables of the bundle at an address, up to its stop bit: from instruction memory, or from the boot ROM, whose contents
are free values. -/
def fetchBundle (ty n : Nat) : Nat → Nat → State → List Nat × State
  | 0, _, s => ([], s)
  | k + 1, a, s =>
    let r := if a + 4 ≤ imemBytes ty then (leNum ((s.mem (engKey ty n)).bytes false a 4), s)
      else (s.draw.1 % 2 ^ 32, s.draw.2)
    if sylStop r.1 then ([r.1], r.2)
    else
      let t := fetchBundle ty n k (a + 4) r.2
      (r.1 :: t.1, t.2)

/-- The syllables of a bundle issued one after another, as far as the engine takes them. -/
def pushBundle (ty n stamp : Nat) : List Nat → State → State
  | [], s => s
  | w :: ws, s =>
    let s1 := pushSyl ty n w stamp s
    if (s1.eng (engKey ty n)).bundle = [] then s1 else pushBundle ty n stamp ws s1

/-- The step's bundle, or what its boundary takes (R523). -/
def stepOnce (ty n : Nat) (maskIrq : Bool) (stamp : Nat) (s : State) : State :=
  let r := fetchBundle ty n (bundleMax ty) (s.eng (engKey ty n)).pc s
  (boundary ty n maskIrq s).getD (pushBundle ty n stamp r.1 r.2)

/-- After a step the engine halts again, unless it waits or an unlock window is open (R519, R523). -/
def haltAgain (ty n : Nat) (s : State) : State :=
  let x := s.eng (engKey ty n)
  if x.haltReq ≠ 0 ∧ x.far.isNone ∧ !x.held ∧ s.engState ty n = esRunning ∧ !s.holdsWindow ty n then takeHalt ty n s else s

/-- A single step of an engine (R523): the event of its boundary, or its next bundle; then it halts again. -/
def stepEngine (ty n : Nat) (maskIrq : Bool) (stamp : Nat) (s : State) : State :=
  let k := engKey ty n
  let s1 := (settleEngine ty n (passCycles ty n s)).setEngState ty n esRunning
  haltAgain ty n (stepOnce ty n maskIrq stamp
    (s1.setEng k { s1.eng k with stepReq := if maskIrq then 2 else 1, bundle := [] }))

/-- A write of DBG_RUN_CTL. -/
def runCtlWrite (w : WriteReq) (s : State) : Written :=
  let v := w.value.toNat
  let ty := s.selType
  let n := s.selNum
  if 1 < bitsAt v 0 1 + bitsAt v 1 1 + bitsAt v 2 1 then refuseWrite w rspRefused 0x0101 s
  else
    let x := s.eng (engKey ty n)
    let s1 := if bitOf v 4 then s.setEng (engKey ty n) { x with brkHalt := true } else s
    let y := s1.eng (engKey ty n)
    let s2 := if bitOf v 5 then s1.setEng (engKey ty n) { y with brkHalt := false } else s1
    if bitOf v 0 then haltWrite w s2
    else if bitOf v 1 then (releaseEngines w.stamp (s2.haltUnit ty n) s2, rspOk)
    else if bitOf v 2 ∧ s2.engState ty n = esHalted then (stepEngine ty n (bitOf v 3) w.stamp s2, rspOk)
    else (s2, rspOk)

/-- DBG_RUN_STAT as it reads. -/
def runStat (s : State) : Word :=
  let x := s.eng (engKey s.selType s.selNum)
  word (s.get R.DBG_RUN_STAT_REFUSED 0 * 2 ^ 16 + s.get R.DBG_RUN_STAT_CAUSE 0 * 2 ^ 8 + bit x.brkHalt * 16 +
    bit (s.engineGang s.selType s.selNum).isSome * 8 + bit (x.haltReq != 0) * 4 + s.engState s.selType s.selNum)

/-- ENGINE_HALT: a pending halt is taken where R519 permits it. -/
def haltNow (ty n : Nat) (s : State) : State :=
  let s1 := settleEngine ty n s
  let x := s1.eng (engKey ty n)
  if s1.engState ty n = esRunning ∧ x.haltReq ≠ 0 ∧ x.far.isNone ∧ x.bundle = [] ∧ !x.held ∧
      (x.haltReq = 3 ∨ x.loads = [] ∨ x.rep.isSome) ∧ !s1.holdsWindow ty n then takeHalt ty n s1
  else s

/-! ### Engine registers (R526) -/

/-- The registers that an engine has: 8 globals and 16 for each window position. -/
def physCount (ty : Nat) : Nat := 8 + 16 * windowPositions ty

/-- What DBG_REG_IDX names in the selected engine reads as; a number that names no register reads as a free value. -/
def regValue (s : State) : Nat × Bool :=
  let ty := s.selType
  let c := Ctx.now ty s.selNum 0 s
  let k := s.get R.DBG_REG_IDX_NUM 0
  let space := s.get R.DBG_REG_IDX_SPACE 0
  if space = 0 ∧ k < physCount ty then (tblGet 0 c.eng.phys k, false)
  else if space = 1 ∧ selValid ty k then (c.readSys k, false)
  else if space = 2 then (c.eng.pc, false)
  else (Config.freeValue s.freeCount % 2 ^ widthOf ty, true)

/-- A read of DBG_REG_DATA. -/
def regDataRead (s : State) : State × Answer :=
  let st := s.engState s.selType s.selNum
  if st = esHalted ∨ st = esFaulted then
    let r := regValue s
    (if r.2 then s.draw.2 else s, ⟨rspOk, leBytes 4 r.1⟩)
  else (s.err 0x18 0 0x058 0x0103, ⟨rspRefused, []⟩)

/-- A write of DBG_REG_DATA. -/
def regDataWrite (w : WriteReq) (s : State) : Written :=
  let ty := s.selType
  let n := s.selNum
  let key := engKey ty n
  let x := s.eng key
  let k := s.get R.DBG_REG_IDX_NUM 0
  let space := s.get R.DBG_REG_IDX_SPACE 0
  let v := w.value.toNat % 2 ^ widthOf ty
  if s.engState ty n ≠ esHalted ∨ s.debugLevel ≠ 2 then refuseWrite w rspRefused 0x0103 s
  else if space = 1 ∧ selValid ty k ∧ (!selWritable ty k ∨ (k = 2 ∧ reservedMtsr ty 2 v (trapActive ty x.sys))) then
    refuseWrite w rspRefused 0x0103 s
  else if space = 0 ∧ k < physCount ty then (s.setEng key { x with phys := physPut x.phys k v }, rspOk)
  else if space = 1 ∧ selWritable ty k then
    let s1 := s.setSys ty n k (maskMerge (s.sysReg ty n k) v (sysMask ty k))
    (if k = 0 ∧ ty = 3 then s1.setLink key { s1.link key with g := bitOf v 5 } else s1, rspOk)
  else if space = 2 then (s.setEng key { x with pc := pcOf ty v, rep := none, bundle := [] }, rspOk)
  else (s, rspOk)

/-! ### Virtual terminals (R527) -/

/-- The engine that an initiator is, if it is one. -/
def initEngine (i : Initiator) : Option (Nat × Nat) := allEngines.find? (fun e => engInit e.1 e.2 == i)

/-- The debug port as an initiator. -/
def portInit : Initiator := ⟨39, 0⟩

/-- The entries of a terminal queue. -/
def vtDepth : Nat := 16

/-- DBG_EVT.VT_OUT is raised while the selected engine's output queue is not empty. -/
def vtRaise (s : State) : State := if tblGet [] s.vtOut (engKey s.selType s.selNum) = [] then s else s.raise 0x18 0 5

/-- An engine writes a byte to its output queue. -/
def vtOutWrite (ty n b : Nat) (s : State) : State :=
  let q := tblGet [] s.vtOut (engKey ty n)
  if vtDepth ≤ q.length then s.count R.DBG_VT_STAT_LOST 0 1
  else vtRaise { s with vtOut := tblSet [] s.vtOut (engKey ty n) (q ++ [b % 256]) }

/-- The port reads the selected engine's output queue; a consuming read removes the byte. -/
def vtOutRead (consume : Bool) (s : State) : State × Word :=
  match tblGet [] s.vtOut (engKey s.selType s.selNum) with
  | [] => (s, 0)
  | b :: q => (if consume then vtRaise { s with vtOut := tblSet [] s.vtOut (engKey s.selType s.selNum) q } else s, word (2 ^ 31 + b))

/-- The port writes a byte to the selected engine's input queue; the engine's VT_IN interrupt, line 4 of Table 11-3, is set. -/
def vtInWrite (w : WriteReq) (s : State) : Written :=
  let key := engKey s.selType s.selNum
  let q := tblGet [] s.vtIn key
  if vtDepth ≤ q.length then refuseWrite w rspRefused 0x0104 s
  else (setIrq s.selType s.selNum 4 { s with vtIn := tblSet [] s.vtIn key (q ++ [w.value.toNat % 256]) }, rspOk)

/-- An engine reads and removes the head of its input queue. -/
def vtInRead (ty n : Nat) (s : State) : State × Word :=
  match tblGet [] s.vtIn (engKey ty n) with
  | [] => (s, 0)
  | b :: q => ({ s with vtIn := tblSet [] s.vtIn (engKey ty n) q }, word (2 ^ 31 + b))

/-- The queues of an engine emptied (R528). -/
def vtClear (ty n : Nat) (s : State) : State :=
  { s with vtOut := tblSet [] s.vtOut (engKey ty n) [], vtIn := tblSet [] s.vtIn (engKey ty n) [] }

/-! ### The page -/

/-- A refusal for which the spec names no code: the code latched is a free value (R548). -/
def refuseFree (w : WriteReq) (s : State) : Written :=
  let (v, s1) := s.draw
  refuseWrite w rspRefused (1 + v % 65535) s1

/-- The DBG page's value rules. -/
def dbgBad (off v : Nat) : Option Nat :=
  if off = 0x048 then (if selNames v then none else some 0x0102)
  else if off = 0x054 then (if bitsAt v 8 2 = 3 then some 0x0009 else none)
  else none

/-- The DBG page's registers with a rule of their own. -/
def dbgSpecial (w : WriteReq) (s : State) : Option Written :=
  if w.off = 0x008 then some (s, rspOk)
  else if w.off = 0x010 then
    let r := evtWrite w s
    some (vtRaise r.1, r.2)
  else if w.off = 0x040 then
    some (match initEngine w.init with
      | some e => (vtOutWrite e.1 e.2 w.value.toNat s, rspOk)
      | none => if w.init = portInit then (s, rspOk) else refuseFree w s)
  else if w.off = 0x044 then
    some (if w.init = portInit then vtInWrite w s
      else if (initEngine w.init).isSome then (s, rspOk) else refuseFree w s)
  else if w.off = 0x048 then some (vtRaise (s.setReg 0x18 0 0x048 (w.value &&& 0xFFFF)), rspOk)
  else if w.off = 0x04C then some (runCtlWrite w s)
  else if w.off = 0x058 then some (regDataWrite w s)
  else none

/-- A read of the DBG page's derived registers. Reads by others than the port, and the port's consuming reads, have the side effect. -/
def dbgRead (i : Initiator) (off : Nat) (consume : Bool) (s : State) : Option (State × Answer) :=
  let ok := fun (r : State × Word) => some (r.1, (⟨rspOk, wordBytes r.2⟩ : Answer))
  let refused := fun (_ : Unit) =>
    let (v, s1) := s.draw
    some (s1.err 0x18 0 off (1 + v % 65535), (⟨rspRefused, []⟩ : Answer))
  if off = 0x040 then
    if i = portInit then ok (vtOutRead consume s) else if (initEngine i).isSome then ok (s, 0) else refused ()
  else if off = 0x044 then
    match initEngine i with
    | some e => ok (vtInRead e.1 e.2 s)
    | none => if i = portInit then ok (s, 0) else refused ()
  else if off = 0x050 then ok (s, runStat s)
  else if off = 0x058 then some (regDataRead s)
  else if off = 0x05C then
    let k := engKey s.selType s.selNum
    ok (s, word (s.get R.DBG_VT_STAT_LOST 0 * 2 ^ 16 + (tblGet [] s.vtIn k).length * 2 ^ 8 + (tblGet [] s.vtOut k).length))
  else if off = 0x06C then ok (s, word s.debugLevel)
  else none

/-- SOFT_RESET of the DBG page (R528): the queues, DBG_DENIED and DBG_MISS; halts, BRK_HALT, DBG_ALLOW and the aggregator stay. -/
def dbgReset (s : State) : State :=
  ({ s with vtOut := [], vtIn := [] }.resetPage 0x18 0 (fun off =>
    (0x010 ≤ off && decide (off < 0x024)) || (0x040 ≤ off && decide (off < 0x060) && off != 0x050) || off == 0x068 ||
    (0x100 ≤ off && decide (off < 0x140)))).dropShadows 0x18 0

/-! ### The test access port (R511 to R515, R545) -/

abbrev irExtest : Nat := 0
abbrev irSample : Nat := 1
abbrev irIdcode : Nat := 2
abbrev irHighz : Nat := 4
abbrev irClamp : Nat := 5
abbrev irAccess : Nat := 32
abbrev irBypass : Nat := 63

/-- IDCODE: version 0x1, part 0x1024, manufacturer 0x4E4, and 1. -/
def idcode : Nat := 0x1 * 2 ^ 28 + 0x1024 * 2 ^ 12 + 0x4E4 * 2 + 1

/-- An instruction register scan captures 0b000001 and puts an instruction in force; one whose level is not met acts as BYPASS. -/
def loadInstr (ir : Nat) (s : State) : State :=
  let met := !(ir == irExtest || ir == irHighz || ir == irClamp) || s.debugLevel == 2
  { s with jtag := { s.jtag with instr := if met then ir else irBypass } }

/-- What the two scans shifted out: the instruction register's capture, then the data register's, bit 0 first. -/
def State.shifted (s : State) (bytes : List Byte) : State := { s with answer := [⟨rspOk, leBytes 1 1⟩, ⟨rspOk, bytes⟩] }

/-- The three cells of a ball: output data, output enable, input (R545). -/
def ballCells (q : Nat) (drives : Option Bool) (input : Bool) (c : Nat) : Nat :=
  setBits (setBits (setBits c (3 * q) 1 ((drives.map bit).getD (bitsAt c (3 * q) 1))) (3 * q + 1) 1 (bit drives.isSome))
    (3 * q + 2) 1 (bit input)

/-- The boundary-scan cells as captured (R545): what the fabric's user pins and the output pins of the state drive; free values for
the pins' own levels, for the signals of the hard serial ports and for the cells of the others; 0 from cell 366 on. -/
def captureCells (s : State) : Nat × State :=
  let (v, s1) := (runFabric s).draw
  let pins := bitsAt v 366 96
  let hsp := fun (k i : Nat) => (bitOf v (462 + 16 * k + 2 * i), bitOf v (463 + 16 * k + 2 * i))
  let user := (List.range 96).foldl (fun c n => ballCells n (s1.userPin pins (v / 2 ^ 590) hsp n).drives (bitOf pins n) c) (v % 2 ^ 366)
  let outs := [(96, some (!s.pins.fault)), (97, some (!s.pins.ttFault)), (98, some s.pins.tickOut),
    (100, if s.pins.hostIrq then some false else none)] ++
    (List.range 4).map (fun k => (115 + k, some (tblGet false s.pins.fsync k == s.flag R.CAMI_FSYNC_CFG_POL k)))
  (outs.foldl (fun c k => ballCells k.1 k.2 (bitOf v (3 * k.1 + 2)) c) user, s1)

/-- A scan of the boundary-scan register under an instruction: capture, then the update of the cells if it is in force. -/
def scanCells (ir cells : Nat) (s : State) : State :=
  let s1 := loadInstr ir s
  if s1.jtag.instr = ir then
    let r := captureCells s1
    State.shifted { r.2 with jtag := { r.2.jtag with cells := cells % 2 ^ 366 } } (leBytes 128 r.1)
  else s1.shifted (leBytes 1 0)

/-- A scan of the bypass register: it captures 0. -/
def scanBypass (ir : Nat) (s : State) : State := (loadInstr ir s).shifted (leBytes 1 0)

/-- The registers that the port may write from OBSERVE on (Table 21-4): page type and offset. -/
def observeWrite (ty off : Nat) : Bool :=
  match ty with
  | 0x18 => off == 0x048 || off == 0x054
  | 0x08 => (0x100 ≤ off && decide (off < 0x180)) || off == 0x200 || off == 0x20C || off == 0x060
  | 0x09 => off == 0x0A0 || off == 0x074
  | 0x02 => off == 0x078 || off == 0x200
  | 0x11 => off == 0x198 || off == 0x1A0
  | 0x0E => off == 0x058
  | 0x14 => off == 0x04C
  | 0x16 => off == 0x078
  | _ => false

/-- The lowest level at which the port lets an access pass (Table 21-4): 0 NONE, 1 OBSERVE, 2 FULL. -/
def accessLevel (tg : Target) (write consume : Bool) : Nat :=
  match tg with
  | .page ty _ off =>
    if write then
      if ty = 0x14 ∧ (off = 0x06C ∨ (0x080 ≤ off ∧ off < 0x090)) then 0 else if observeWrite ty off then 1 else 2
    else if consume then (if ty = 0x18 ∧ off = 0x040 then 1 else 2)
    else if ty = 0x14 ∧ (off = 0x06C ∨ (0x070 ≤ off ∧ off < 0x080)) then 0
    else if ty = 0x18 ∨ (ty = 0x15 ∧ 0x080 ≤ off ∧ off ≤ 0x088) then 0 else 1
  | _ => if write || consume then 2 else 1

/-- The access register as captured (Table 21-3). -/
def accessCapture (s : State) : Nat :=
  s.debugLevel * 2 ^ 42 + bit s.jtag.err * 2 ^ 41 + bit s.jtag.busy * 2 ^ 40 + s.jtag.rsp * 2 ^ 32 + s.jtag.rdata

/-- The port takes the response to its outstanding access. -/
def takeAccess (s : State) : State :=
  if s.jtag.busy then
    match tblGet [] s.inbox (39 * 32) with
    | [] => s
    | (a, q) :: _ =>
      { s with
        inbox := tblSet [] s.inbox (39 * 32) []
        jtag := { s.jtag with
          busy := false, rsp := a.code
          rdata := if s.jtag.reading ∧ a.code = rspOk then leNum ((a.data.drop (q.addr % 64)).take 4) else s.jtag.rdata } }
  else s

/-- Update-DR of the access register (R512, R513). -/
def accessUpdate (dr stamp : Nat) (s : State) : State :=
  let op := bitsAt dr 72 2
  if op = 0 ∨ op = 3 then s
  else if s.jtag.busy then { s with jtag := { s.jtag with err := true } }
  else
    let a := if bitOf dr 75 then (s.jtag.addr + 4) % 2 ^ 40 else bitsAt dr 32 40 / 4 * 4
    let consume := bitOf dr 74
    let tg := targetOf s (s.get R.TRLH_DDR_MAP_MODE 39) a
    let s1 := { s with jtag := { s.jtag with addr := a } }
    if s.debugLevel < accessLevel tg (op == 2) consume then
      let s2 := { s1 with jtag := { s1.jtag with rsp := rspAuth } }
      (s2.count R.DBG_DENIED_COUNT 0 1).raise 0x18 0 3
    else
      let q := { farReq (op == 2) a 4 (bitsAt dr 0 32) with consume := consume }
      issueRequest 39 0 q stamp
        { s1 with jtag := { s1.jtag with busy := true, reading := op == 1 }, inbox := tblSet [] s1.inbox (39 * 32) [] }

/-- A scan of the access register: Capture-DR, which clears ERR, and Update-DR. -/
def accessScan (dr stamp : Nat) (s : State) : State :=
  let s1 := takeAccess (loadInstr irAccess s)
  let out := leBytes 10 (accessCapture s1)
  (accessUpdate dr stamp { s1 with jtag := { s1.jtag with err := false } }).shifted out

/-! ### The commands -/

/-- TAP_RESET (R511). -/
def execTapReset (s : State) : Result := done { s with jtag := { s.jtag with instr := irIdcode } }

/-- EXTEST (R511). -/
def execExtest (cells : Nat) (s : State) : Result := done (scanCells irExtest cells s)

/-- SAMPLE_PRELOAD (R511). -/
def execSamplePreload (cells : Nat) (s : State) : Result := done (scanCells irSample cells s)

/-- IDCODE (R511). -/
def execIdcode (s : State) : Result := done ((loadInstr irIdcode s).shifted (leBytes 4 idcode))

/-- HIGHZ (R511). -/
def execHighz (s : State) : Result := done (scanBypass irHighz s)

/-- CLAMP (R511). -/
def execClamp (s : State) : Result := done (scanBypass irClamp s)

/-- BYPASS (R511). -/
def execBypass (s : State) : Result := done (scanBypass irBypass s)

/-- ACCESS (R512). -/
def execAccessDr (dr stamp : Nat) (s : State) : Result := done (accessScan dr stamp s)

/-- ENGINE_HALT (R519). -/
def execEngineHalt (e : EngineId) (s : State) : Result := need (engineOk e) (done (haltNow e.ty e.num s))

end Sys2Proof.Machine
end

