-- ==== Sys2Proof/Machine/Aggregator.lean ====
section
/-!
DEFINITION. The fault aggregator (R490 to R494, R510, R544): records as they arrive, the log, the class latches, the watch over held
frames, the thermal monitor.
-/

namespace Sys2Proof.Machine

def State.setAgg (s : State) (x : AggState) : State := { s with agg := x }

/-- Word 0 of a fault record (Table 20-5). -/
def recordWord (r : FaultRec) : Nat := r.ty * 2 ^ 24 + r.num * 2 ^ 16 + r.evtBit % 32 * 2 ^ 11 + r.cls % 8 * 2 ^ 8 + 1

/-- A record written to the next slot of the log. -/
def logRecord (r : FaultRec) (s : State) : State :=
  let n := s.get R.DBG_FLT_WP_COUNT 0
  let a := 0xA00 + 8 * (n % 64)
  ((s.setReg 0x18 0 a (word (recordWord r))).setReg 0x18 0 (a + 4) (s.getReg 0x17 0 0x050)).put R.DBG_FLT_WP_COUNT 0 (n + 1)

/-- A record that reaches the aggregator (R490, R493): it is counted and sets its class's latch; a HOLD record is logged once per page
and tick. -/
def arriveRecord (r : FaultRec) (s : State) : State :=
  let s1 := (s.count (R.DBG_FLT_COUNT_COUNT.nth r.cls) 0 1).put ⟨0x18, 0x804, 4, r.cls, 1⟩ 0 1
  if r.cls = clsHold then
    if s.agg.holdPages.contains (r.ty, r.num) then s1
    else logRecord r (s1.setAgg { s1.agg with holdPages := s1.agg.holdPages ++ [(r.ty, r.num)] })
  else logRecord r s1

/-- A provenance record as the aggregator sees it (R492, Table 20-2). -/
def watchRecord (h : Nat) (hold second : Bool) (s : State) : State :=
  let s1 := s.setAgg { s.agg with holdNow := s.agg.holdNow || hold }
  if second then s1
  else if hold then
    let n := tblGet 0 s1.agg.heldRow h + 1
    let s2 := s1.setAgg { s1.agg with heldRow := tblSet 0 s1.agg.heldRow h n }
    if s2.get R.DBG_FLT_ESC_HOLD_LIMIT 0 ≤ n ∧ !tblGet false s2.agg.escalated h then
      arriveRecord ⟨0x0D, h, 1, clsHoldEsc⟩ (s2.setAgg { s2.agg with escalated := tblSet false s2.agg.escalated h true })
    else s2
  else s1.setAgg { s1.agg with heldRow := tblSet 0 s1.agg.heldRow h 0, escalated := tblSet false s1.agg.escalated h false }

/-- The aggregator at a tick edge: HOLD records may be logged again; the tick that ends is the last complete one. -/
def aggCommit (s : State) : State :=
  s.setAgg { s.agg with holdPages := [], holdLast := s.agg.holdNow, holdNow := false }

/-- The reports of the array die that wait when the link goes down are lost (R490). -/
def dropReports (s : State) : State := { s with reports := s.reports.filter (fun r => !pageOnArray r.ty r.num) }

/-- The k-th waiting record arrives; one from the array die needs the link. -/
def takeReport (k : Nat) (s : State) : State :=
  match s.reports[k]? with
  | none => s
  | some r =>
    if pageOnArray r.ty r.num && !s.linkUp then s
    else arriveRecord r { s with reports := s.reports.eraseIdx k }

/-- RESET_N clears the latch and the log (R510). -/
def aggResetN (s : State) : State :=
  (s.resetPage 0x18 0 (fun off => 0xA00 ≤ off && decide (off < 0xC00))).resetPage 0x18 0 (fun off => off == 0x804 || off == 0x828)

/-- FAULT_RECORD_ARRIVE (R490). -/
def execFaultRecordArrive (k : Nat) (s : State) : Result := done (takeReport k s)

/-- THERMAL_OVER_LIMIT (R544): one DEVICE record, with an EVT_BIT that no event has. -/
def execThermalOverLimit (s : State) : Result :=
  done (if s.agg.thermalArmed then
    arriveRecord ⟨0x16, 0, 0x1F, clsDevice⟩ (s.setAgg { s.agg with thermalArmed := false }) else s)

/-- THERMAL_REARM (R544). -/
def execThermalRearm (s : State) : Result := done (s.setAgg { s.agg with thermalArmed := true })

/-- PANE_TICK_MISSING (R12, R478): the tick monitor of a pane records that no tick marker came while the tick runs. -/
def execPaneTickMissing (p : Nat) (s : State) : Result :=
  need (p < 16) (done (if s.flag R.TICK_RUN_RUN 0 && s.domainOn (14 + p) then
    { s with missedTicks := tblSet 0 s.missedTicks p (tblGet 0 s.missedTicks p + 1) } else s))

end Sys2Proof.Machine
end

