-- ==== Sys2Proof/Machine/Pixels.lean ====
section
/-!
DEFINITION. Pixels: the formats (R340), the colour pipeline (R344), coverage and blending (R353, R354), the rectangle CRC (R356), the asset
image (R350, R351, R364), the tell-tale modes (R352), the limp picture (R365).
-/

namespace Sys2Proof.Machine

/-- A pixel's components. -/
structure Rgb where
  r : Nat
  g : Nat
  b : Nat
  deriving DecidableEq, Repr

/-- A function on each component. -/
def Rgb.map (f : Nat → Nat) (p : Rgb) : Rgb := ⟨f p.r, f p.g, f p.b⟩
/-- A function on the components of two pixels. -/
def Rgb.map2 (f : Nat → Nat → Nat) (p q : Rgb) : Rgb := ⟨f p.r q.r, f p.g q.g, f p.b q.b⟩
/-- R in [29:20], G in [19:10], B in [9:0] (R340, Tables 14-6, 14-7). -/
def rgbOf (w : Nat) : Rgb := ⟨bitsAt w 20 10, bitsAt w 10 10, bitsAt w 0 10⟩
/-- The word of a pixel of at most 10 bits a component. -/
def Rgb.word (p : Rgb) : Nat := p.r * 2 ^ 20 + p.g * 2 ^ 10 + p.b

/-- A framebuffer pixel as the scanout sends it (R340, R341): the BPP 4 layout. -/
def expandPixel (bpp w : Nat) : Nat :=
  if bpp = 2 then
    let r := bitsAt w 11 5
    let g := bitsAt w 5 6
    let b := bitsAt w 0 5
    (Rgb.mk (r * 32 + r) (g * 16 + g / 4) (b * 32 + b)).word
  else w % 2 ^ 30

/-! ### The colour pipeline (R344) -/

/-- The cell index and the fraction of a component. -/
def lutCell (x : Nat) : Nat × Nat :=
  let p := 16 * x
  let c := min (p / 1023) 15
  (c, p - 1023 * c)

/-- The axes in descending order of their fractions, ties R before G before B. -/
def lutOrder (fr fg fb : Nat) : List (Nat × Nat) :=
  if fg ≤ fr then
    if fb ≤ fg then [(0, fr), (1, fg), (2, fb)] else if fb ≤ fr then [(0, fr), (2, fb), (1, fg)] else [(2, fb), (0, fr), (1, fg)]
  else
    if fb ≤ fr then [(1, fg), (0, fr), (2, fb)] else if fb ≤ fg then [(1, fg), (2, fb), (0, fr)] else [(2, fb), (1, fg), (0, fr)]

/-- The node one step along an axis: R, G, B advance the index by 1, 17, 289. -/
def lutStep (axis : Nat) : Nat := if axis = 0 then 1 else if axis = 1 then 17 else 289

/-- The 3D LUT. -/
def lut3d (node : Nat → Nat) (p : Rgb) : Rgb :=
  let (cr, fr) := lutCell p.r
  let (cg, fg) := lutCell p.g
  let (cb, fb) := lutCell p.b
  let i0 := cr + 17 * cg + 289 * cb
  match lutOrder fr fg fb with
  | [(a1, f1), (a2, f2), (a3, f3)] =>
    let i1 := i0 + lutStep a1
    let i2 := i1 + lutStep a2
    let i3 := i2 + lutStep a3
    let v0 := rgbOf (node i0)
    let v1 := rgbOf (node i1)
    let v2 := rgbOf (node i2)
    let v3 := rgbOf (node i3)
    let out := fun (c0 c1 c2 c3 : Nat) => ((1023 - f1) * c0 + (f1 - f2) * c1 + (f2 - f3) * c2 + f3 * c3 + 511) / 1023
    ⟨out v0.r v1.r v2.r v3.r, out v0.g v1.g v2.g v3.g, out v0.b v1.b v2.b v3.b⟩
  | _ => p

/-- The dither matrix. -/
def ditherMatrix : List Nat := [0, 8, 2, 10, 12, 4, 14, 6, 3, 11, 1, 9, 15, 7, 13, 5]

/-- Dither from 12 bits to depth d at column x' and row y; mode 0 is NONE. -/
def dither (mode d x y v : Nat) : Nat :=
  let s := 12 - d
  if mode = 0 then min ((v + 2 ^ (s - 1)) / 2 ^ s) (2 ^ d - 1)
  else min ((v + ditherMatrix.getD (y % 4 * 4 + x % 4) 0 * 2 ^ s / 16) / 2 ^ s) (2 ^ d - 1)

/-- Stage 3: a 10:10:10 pixel of column x and active line y to depth d. The style holds DITHER in [3:2], GAMMA_EN, LUT3D_EN; table t of the
active LUT copy begins at 8192 t. -/
def pipeline (lut : Tbl Nat) (style d frame x y : Nat) (p : Rgb) : Rgb :=
  let p1 := if bitOf style 0 then lut3d (fun n => tblGet 0 lut n) p else p
  let gamma := fun (t v : Nat) => if bitOf style 1 then tblGet 0 lut (8192 * t + v) % 4096 else v * 4 + v / 256
  let mode := bitsAt style 2 2
  let x1 := if mode = 2 then x + frame % 4 else x
  (Rgb.mk (gamma 1 p1.r) (gamma 2 p1.g) (gamma 3 p1.b)).map (dither mode d x1 y)

/-! ### Coverage and blending (R353, R354) -/

/-- The coverage value of pixel i of a bitmap. -/
def coverage (byte : Nat → Nat) (i : Nat) : Nat := if i % 2 = 0 then byte (i / 2) % 16 else byte (i / 2) / 16 % 16

/-- Colour c over colour g with coverage a. -/
def blend (a c g : Nat) : Nat := (a * c + (15 - a) * g + 7) / 15

/-- A 10-bit pixel reduced to depth d by dropping low bits. -/
def Rgb.toDepth (d : Nat) (p : Rgb) : Rgb := p.map (fun v => v / 2 ^ (10 - d))

/-! ### The CRC of a rectangle (R356) -/

/-- The bits of a pixel at depth d: R, G, B, each most significant bit first. -/
def pixelBits (d : Nat) (p : Rgb) : List Bool :=
  let comp := fun v => (List.range d).map (fun k => bitOf v (d - 1 - k))
  comp p.r ++ comp p.g ++ comp p.b

/-- The CRC of a stream of bits. -/
def streamCrc (bs : List Bool) : Nat := bs.foldl (fun r b => crcBit 32 0x04C11DB7 r b) 0xFFFFFFFF

/-- The stream with the bits at some places turned. -/
def turnBits (flips : List Nat) (bs : List Bool) : List Bool :=
  ((List.range bs.length).zip bs).map (fun p => p.2 != flips.contains p.1)

/-! ### Glazing SRAM (R366) -/

def State.setGlaz (s : State) (x : Glazing) : State := { s with glaz := x }

/-- The bytes of the SRAM. -/
abbrev sramSize : Nat := 0x200000

/-- A byte of the SRAM as its decoder delivers it. -/
def Glazing.byte (g : Glazing) (a : Nat) : Byte :=
  tblGet 0 g.sram a ^^^ BitVec.ofNat 8 (bitsAt (residue (tblGet 0 g.errs (a / 8)).toNat) (8 * (a % 8)) 8)

/-- The number in n bytes of the SRAM from address a on. -/
def Glazing.num (g : Glazing) (a n : Nat) : Nat := leNum ((List.range n).map (fun k => g.byte (a + k)))

/-! ### The asset image. The functions take `num a n`, the number in n bytes at offset a of the payload. -/

/-- How the payload is read. -/
abbrev Reader := Nat → Nat → Nat

def ttCount (rd : Reader) : Nat := rd 0x08 2
def ttExp (rd : Reader) (t h shown : Nat) : Nat := rd (rd 0x10 4 + 4 * (16 * t + 4 * h + shown)) 4

/-- A tell-tale definition (Table 14-6). -/
structure TtDef where
  entry : Nat
  shift : Nat
  heads : Nat
  map : Nat
  blinkP : Nat
  blinkOn : Nat
  w : Nat
  h : Nat
  reserved : Nat
  bitmap : Nat
  xs : List Nat
  ys : List Nat
  colours : List Nat
  deriving DecidableEq, Repr

/-- Definition t. -/
def ttDef (rd : Reader) (t : Nat) : TtDef :=
  let a := rd 0x0C 4 + 48 * t
  ⟨rd a 2, rd (a + 2) 1, rd (a + 3) 1, rd (a + 4) 2, rd (a + 6) 1, rd (a + 7) 1, rd (a + 8) 1, rd (a + 9) 1, rd (a + 10) 2, rd (a + 12) 4,
    (List.range 4).map (fun h => rd (a + 16 + 4 * h) 2), (List.range 4).map (fun h => rd (a + 18 + 4 * h) 2),
    (List.range 4).map (fun k => rd (a + 32 + 4 * k) 4)⟩

/-- The tell-tales shown on a head. -/
def headTts (rd : Reader) (h : Nat) : List Nat := (List.range (ttCount rd)).filter (fun t => bitOf (ttDef rd t).heads h)

/-- A limp layer (Table 14-7). -/
structure Layer where
  kind : Nat
  n : Nat
  flags : Nat
  reserved : Nat
  x : Nat
  y : Nat
  w : Nat
  h : Nat
  entry : Nat
  asset : Nat
  colour : Nat
  mul : Nat
  deriving DecidableEq, Repr

/-- Where the limp record of a head begins, 0 for none. -/
def limpAt (rd : Reader) (h : Nat) : Nat := rd (0x14 + 4 * h) 4

/-- The layers of a head's limp picture, in list order (R364). -/
def limpLayers (rd : Reader) (h : Nat) : List Layer :=
  let a := limpAt rd h
  if a = 0 then []
  else (List.range (rd (a + 4) 2)).map (fun k =>
    let b := rd (a + 8) 4 + 32 * k
    ⟨rd b 1, rd (b + 1) 1, rd (b + 2) 1, rd (b + 3) 1 + rd (b + 14) 2 + rd (b + 28) 4, rd (b + 4) 2, rd (b + 6) 2, rd (b + 8) 2, rd (b + 10) 2,
      rd (b + 12) 2, rd (b + 16) 4, rd (b + 20) 4, rd (b + 24) 4⟩)

/-- The bytes of one glyph (Table 14-7). -/
def Layer.glyph (l : Layer) : Nat := ((l.w * l.h + 1) / 2 + 7) / 8 * 8

/-- How many glyphs or images a layer's asset holds. -/
def Layer.glyphs (l : Layer) : Nat := match l.kind with
  | 1 => 1
  | 2 => 11
  | 3 => l.n
  | _ => 0

/-- The width of all that a layer draws. -/
def Layer.width (l : Layer) : Nat := if l.kind = 2 then l.n * l.w else l.w

/-! ### The checks of an asset image -/

/-- An offset is a multiple of 8 and n bytes from it lie inside LENGTH (R350). -/
def offsetOk (len a n : Nat) : Bool := a % 8 == 0 && decide (a ≤ len ∧ a + n ≤ len)

/-- The header (Table 14-5). -/
def assetHeaderOk (rd : Reader) (len : Nat) : Bool :=
  rd 0 4 == 0x4C594754 && decide (ttCount rd ≤ 256) && rd 0x0A 2 == 0 && rd 0x24 4 == len && decide (0x40 ≤ len) && rd 0x28 24 == 0 &&
  offsetOk len (rd 0x0C 4) (48 * ttCount rd) && offsetOk len (rd 0x10 4) (64 * ttCount rd) &&
  (List.range 4).all (fun h => limpAt rd h == 0 ||
    (offsetOk len (limpAt rd h) 16 && offsetOk len (rd (limpAt rd h + 8) 4) (32 * rd (limpAt rd h + 4) 2)))

/-- The mode of code k, and FAIL_MODE (Table 14-6). -/
def TtDef.mode (d : TtDef) (k : Nat) : Nat := bitsAt d.map (3 * k) 3
def TtDef.failMode (d : TtDef) : Nat := bitsAt d.map 12 3

/-- A definition (R351). -/
def ttDefOk (d : TtDef) (len : Nat) : Bool :=
  let modes := d.failMode :: (List.range 4).map d.mode
  let blinks := modes.any (fun m => m == 3 || m == 4)
  decide (d.shift ≤ 62 ∧ d.heads < 16 ∧ d.map < 2 ^ 15) && modes.all (fun m => decide (m ≤ 4)) &&
  (if blinks then decide (2 ≤ d.blinkP ∧ 1 ≤ d.blinkOn ∧ d.blinkOn ≤ d.blinkP - 1) else d.blinkP == 0 && d.blinkOn == 0) &&
  decide (1 ≤ d.w ∧ d.w ≤ 128 ∧ 1 ≤ d.h ∧ d.h ≤ 128) && d.reserved == 0 && offsetOk len d.bitmap ((d.w * d.h + 1) / 2) &&
  d.colours.all (fun c => decide (c < 2 ^ 30))

/-- Two rectangles on one head share a pixel. -/
def ttOverlap (d e : TtDef) (h : Nat) : Bool :=
  let x := d.xs.getD h 0
  let y := d.ys.getD h 0
  let x' := e.xs.getD h 0
  let y' := e.ys.getD h 0
  decide (x < x' + e.w ∧ x' < x + d.w ∧ y < y' + e.h ∧ y' < y + d.h)

/-- No two tell-tales of a list share a pixel on a head. -/
def ttsApart (rd : Reader) (h : Nat) : List Nat → Bool
  | [] => true
  | t :: ts => ts.all (fun u => !ttOverlap (ttDef rd t) (ttDef rd u) h) && ttsApart rd h ts

/-- Every rectangle of a head lies inside an active area; one with no lines or pixels is not checked (R355). -/
def ttsInside (rd : Reader) (h ha va : Nat) : Bool :=
  ha == 0 || va == 0 || (headTts rd h).all (fun t =>
    let d := ttDef rd t
    decide (d.xs.getD h 0 + d.w ≤ ha ∧ d.ys.getD h 0 + d.h ≤ va))

/-- The fields of a layer (Table 14-7). -/
def layerOk (l : Layer) (len : Nat) : Bool :=
  decide (l.kind ≤ 3) && l.reserved == 0 && decide (l.colour < 2 ^ 30) &&
  (match l.kind with
    | 2 => decide (1 ≤ l.n ∧ l.n ≤ 6 ∧ l.flags ≤ 1)
    | 3 => decide (1 ≤ l.n ∧ l.n ≤ 16) && l.flags == 0
    | _ => l.n == 0 && l.flags == 0 && l.entry == 0xFFFF) &&
  decide (1 ≤ l.w ∧ l.w ≤ 512 ∧ 1 ≤ l.h ∧ l.h ≤ 256) && (l.kind == 0 || offsetOk len l.asset (l.glyphs * l.glyph))

/-- The layers of a head (R366): at most 32, inside its active area, at most 8 across a line. -/
def layersOk (rd : Reader) (h len ha va : Nat) : Bool :=
  let ls := limpLayers rd h
  decide (ls.length ≤ 32) && ls.all (fun l => layerOk l len) &&
  (ha == 0 || va == 0 || ls.all (fun l => decide (l.x + l.width ≤ ha ∧ l.y + l.h ≤ va))) &&
  ls.all (fun l => decide ((ls.filter (fun m => decide (m.y ≤ l.y ∧ l.y < m.y + m.h))).length ≤ 8))

/-- The first check that an asset payload fails, by its code of Table 14-9; 0 when it passes. -/
def assetCheck (rd : Reader) (len : Nat) (area : Nat → Nat × Nat) : Nat :=
  if !(assetHeaderOk rd len && (List.range (ttCount rd)).all (fun t => ttDefOk (ttDef rd t) len)) then 0x0101
  else if !(List.range 4).all (fun h => ttsApart rd h (headTts rd h) && ttsInside rd h (area h).1 (area h).2) then 0x0103
  else if !(List.range 4).all (fun h => layersOk rd h len (area h).1 (area h).2) then 0x0105
  else 0

/-! ### Tell-tale states (R352) -/

/-- An entry as Glazing takes it: its value, or none where its status gives FAIL_MODE (R352, R415). -/
def State.glazValue (s : State) (e : Nat) : Option Nat :=
  let v := s.sigView e
  if v.invalid || s.slotBad e || (v.timeout && !v.subst) then none else some v.value

/-- The mode of a tell-tale. -/
def ttMode (d : TtDef) (v : Option Nat) : Nat :=
  match v with
  | none => d.failMode
  | some x => d.mode (bitsAt x d.shift 2)

/-- The shown state of a mode at an edge count: 0 OFF, 1 A, 2 B (Table 14-8). -/
def shownState (d : TtDef) (mode edges : Nat) : Nat :=
  let on := decide (edges % d.blinkP < d.blinkOn)
  match mode with
  | 1 => 1
  | 2 => 2
  | 3 => if on then 1 else 0
  | 4 => if on then 2 else 0
  | _ => 0

/-- The colour of a shown state, COL_OFF, COL_A, COL_B; COL_BG is the first of the list. -/
def TtDef.colour (d : TtDef) (shown : Nat) : Rgb := rgbOf (d.colours.getD (shown + 1) 0)
def TtDef.ground (d : TtDef) : Rgb := rgbOf (d.colours.getD 0 0)

/-- The stamped pixel i of a rectangle in a shown state at depth d (R354). -/
def stampPixel (rd : Reader) (t : TtDef) (shown d i : Nat) : Rgb :=
  let a := coverage (fun k => rd (t.bitmap + k) 1) i
  Rgb.map2 (blend a) ((t.colour shown).toDepth d) (t.ground.toDepth d)

/-- The bits that stage 6 presents of a stamped rectangle, in scan order (R356). -/
def rectBits (rd : Reader) (t : TtDef) (shown d : Nat) : List Bool :=
  (List.range (t.w * t.h)).flatMap (fun i => pixelBits d (stampPixel rd t shown d i))

/-! ### The limp picture (R364, R365) -/

/-- Whether a pixel (px, py) lies in a box, and its number in it. -/
def boxPixel (px py x y w h : Nat) : Option Nat :=
  if x ≤ px ∧ px < x + w ∧ y ≤ py ∧ py < y + h then some ((py - y) * w + (px - x)) else none

/-- A layer's glyph g blended at pixel i over what lies beneath. -/
def glyphPixel (rd : Reader) (l : Layer) (g i : Nat) (under : Rgb) : Rgb :=
  let a := coverage (fun k => rd (l.asset + g * l.glyph + k) 1) i
  Rgb.map2 (blend a) (rgbOf l.colour) under

/-- The digit j of a NUMBER's value: none where a leading zero stays blank. -/
def numberGlyph (l : Layer) (v : Option Nat) (j : Nat) : Option Nat :=
  match v with
  | none => some 10
  | some x =>
    let n := x * l.mul / 65536 % 10 ^ l.n
    if bitOf l.flags 0 && j != 0 && n / 10 ^ j == 0 then none else some (n / 10 ^ j % 10)

/-- The image that an IMAGE-by-value layer shows. -/
def pickGlyph (l : Layer) (v : Option Nat) : Nat :=
  match v with
  | none => l.n - 1
  | some x => min x (l.n - 1)

/-- The glyphs or images of a layer's asset that it draws. -/
def Layer.drawn (l : Layer) (v : Option Nat) : List Nat :=
  match l.kind with
  | 0 => []
  | 1 => [0]
  | 2 => (List.range l.n).filterMap (numberGlyph l v)
  | _ => [pickGlyph l v]

/-- One layer over a pixel. -/
def drawLayer (rd : Reader) (px py : Nat) (under : Rgb) (lv : Layer × Option Nat) : Rgb :=
  let l := lv.1
  match l.kind with
  | 0 => match boxPixel px py l.x l.y l.w l.h with
    | some _ => rgbOf l.colour
    | none => under
  | 1 => match boxPixel px py l.x l.y l.w l.h with
    | some i => glyphPixel rd l 0 i under
    | none => under
  | 2 => (List.range l.n).foldl (fun u j =>
      match boxPixel px py (l.x + (l.n - 1 - j) * l.w) l.y l.w l.h, numberGlyph l lv.2 j with
      | some i, some g => glyphPixel rd l g i u
      | _, _ => u) under
  | _ => match boxPixel px py l.x l.y l.w l.h with
    | some i => glyphPixel rd l (pickGlyph l lv.2) i under
    | none => under

/-- The limp composer's pixel at 10 bits. -/
def limpPixel (rd : Reader) (h : Nat) (values : List (Option Nat)) (px py : Nat) : Rgb :=
  let a := limpAt rd h
  if a = 0 then ⟨0, 0, 0⟩
  else ((limpLayers rd h).zip values).foldl (drawLayer rd px py) (rgbOf (rd a 4))

end Sys2Proof.Machine
end

