-- ==== Sys2Proof/Machine/Glazing.lean ====
section
/-!
DEFINITION. Glazing (R349 to R367): asset loads, tell-tale states, the check of a rectangle and its escalation, SRAM rows, the page.
-/

namespace Sys2Proof.Machine

def State.head (s : State) (h : Nat) : Head := tblGet Head.idle s.heads h
def State.setHead (s : State) (h : Nat) (x : Head) : State := { s with heads := tblSet Head.idle s.heads h x }
def State.glazRd (s : State) : Reader := fun a n => s.glaz.num a n
def State.pair (s : State) (t h : Nat) : TtPair := tblGet TtPair.idle s.glaz.pairs (4 * t + h)
def State.setPair (s : State) (t h : Nat) (x : TtPair) : State :=
  s.setGlaz { s.glaz with pairs := tblSet TtPair.idle s.glaz.pairs (4 * t + h) x }

/-- An asset load is in progress. -/
def State.glazLoading (s : State) : Bool := s.flag R.GLAZ_LOAD_STAT_BUSY 0

/-- The active area of a head's timing in force. -/
def State.headArea (s : State) (h : Nat) : Nat × Nat := (s.get R.HEAD_HTIME_ACTIVE h, s.get R.HEAD_VTIME_ACTIVE h)

/-- A head's output depth d (HEAD_FMT.DEPTH). -/
def State.headDepth (s : State) (h : Nat) : Nat := 6 + 2 * s.get R.HEAD_FMT_DEPTH h

/-- A condition of Table 14-10 arises: GLAZ_EVT.FAULT, and a TELLTALE record with the bit of the event behind it. -/
def glazFault (evtBit : Nat) (s : State) : State := (s.raise 0x0E 0 4).report 0x0E 0 evtBit clsTelltale

/-! ### SRAM rows (R366) -/

/-- One row met by a read or the scrub. -/
def glazRow (row : Nat) (s : State) : State :=
  let e := (tblGet 0 s.glaz.errs row).toNat
  match decodeWord e with
  | .clean => s
  | .corrected _ _ =>
    ((s.setGlaz { s.glaz with errs := tblSet 0 s.glaz.errs row (BitVec.ofNat 76 (residue e)) }).count R.GLAZ_SRAM_CE_COUNT 0 1).raise 0x0E 0 5
  | .uncorrectable =>
    glazFault 6 (((s.count R.GLAZ_SRAM_UE_COUNT 0 1).raise 0x0E 0 6).put R.GLAZ_FAULT_SRAM_UE 0 1)

/-- The rows of n bytes from address a on. -/
def glazRows (a n : Nat) (s : State) : State :=
  (List.range ((a + n + 7) / 8 - a / 8)).foldl (fun s k => glazRow (a / 8 + k) s) s

/-! ### Loads (R349) -/

/-- Checking is suspended in every frame in progress; the states taken no longer stand. -/
def suspendScans (s : State) : State :=
  (List.range 4).foldl (fun s h =>
    let x := s.head h
    s.setHead h { x with taken := false, scan := x.scan.map (fun c => { c with suspended := true }) }) s

/-- A write of GLAZ_LOAD_CTL with START = 1 (R349, R361). -/
def glazLoadStart (slot : Nat) (s : State) : State :=
  let s1 := (((s.put R.GLAZ_LOAD_CTL_START 0 1).put R.GLAZ_LOAD_CTL_SLOT 0 slot).setReg 0x0E 0 0x04C 0).setReg 0x0E 0 0x050 0
  let s2 := suspendScans ((s1.put R.GLAZ_LOAD_STAT_BUSY 0 1).put R.GLAZ_LOAD_STAT_BYTES_KIB 0 0)
  if (List.range 4).any (fun h => s.flag (R.HDR_CTL_ENABLE.on 0x0D) h) then glazFault 4 s2 else s2

/-- The load has ended. -/
def glazLoadEnd (kib : Nat) (fail : Bool) (s : State) : State :=
  (((s.put R.GLAZ_LOAD_CTL_START 0 0).put R.GLAZ_LOAD_STAT_BUSY 0 0).put R.GLAZ_LOAD_STAT_FAIL 0 (bit fail)).put R.GLAZ_LOAD_STAT_BYTES_KIB 0 kib

/-- A load fails: the whole SRAM is written 0 (step 6). -/
def glazLoadFail (code kib : Nat) (s : State) : State :=
  ((glazLoadEnd kib true (s.setGlaz { s.glaz with sram := [], errs := [] })).raise 0x0E 0 1).err 0x0E 0 0x044 code

/-- The payload written to the SRAM from offset 0 (step 2). -/
def glazWrite (p : List Byte) (s : State) : State :=
  s.setGlaz { s.glaz with sram := memWrite 0 s.glaz.sram 0 p, errs := tblDrop s.glaz.errs 0 ((p.length + 7) / 8) }

/-- A load that ends: the container read from flash, its checks by Latch and by Glazing (steps 2 to 6, R439). -/
def glazLoadDone (s : State) : State :=
  if !s.glazLoading then s
  else
    let a := s.get R.GLAZ_LOAD_ADDR_OFFSET 0
    let slot := s.get R.GLAZ_LOAD_CTL_SLOT 0
    match flashRead a 32 s with
    | (s1, none) => glazLoadFail 0x0102 0 s1
    | (s1, some head) =>
      let step := contSteps (fun k => k == 2) slot false head s1
      if step ≠ 0 then glazLoadFail 0x0102 0 (imgResult (contKind head) step s1)
      else if sramSize < contLen head then glazLoadFail 0x0101 0 s1
      else if journalBase < a + contSize head then glazLoadFail 0x0102 0 s1
      else match flashRead (a + 32) (contSize head - 32) s1 with
      | (s2, none) => glazLoadFail 0x0102 0 s2
      | (s2, some rest) =>
        let payload := rest.take (contLen head)
        let kib := contLen head / 1024
        let s3 := glazWrite payload s2
        if !contTagOk slot (head ++ rest) s3 then glazLoadFail 0x0102 kib (imgResult 2 6 s3)
        else
          let s4 := imgResult 2 0 s3
          let code := assetCheck s4.glazRd (contLen head) s4.headArea
          if code ≠ 0 then glazLoadFail code kib s4
          else
            let s5 := (glazLoadEnd kib false s4).put R.GLAZ_FAULT_SRAM_UE 0 0
            let ver := s5.glaz.num 4 1 * 2 ^ 24 + s5.glaz.num 5 1 * 2 ^ 16 + s5.glaz.num 6 2
            ((s5.setReg 0x0E 0 0x04C (word ver)).setReg 0x0E 0 0x050
              (word (leNum ((contTag (head ++ rest)).take 4)))).raise 0x0E 0 0

/-! ### States at a frame start (R352, R365, R67) -/

/-- A signal entry is met by Glazing or the limp composer: the rows of its committed slot. -/
def meetSlot (e : Nat) (s : State) : State := touchRow (slotRow e (s.sig e).sel 1) (touchRow (slotRow e (s.sig e).sel 0) s)

/-- The state of one tell-tale of a head taken. -/
def takeTt (h : Nat) (s0 : State) (t : Nat) : State :=
  let d := ttDef s0.glazRd t
  let s := meetSlot d.entry (glazRows (s0.glazRd 0x0C 4 + 48 * t) 48 s0)
  let m := ttMode d (s.glazValue d.entry)
  s.setPair t h { s.pair t h with mode := m, shown := shownState d m s.edges }

/-- The rows of a head's limp record and of its layers. -/
def limpRecordRows (h : Nat) (s : State) : State :=
  let a := limpAt s.glazRd h
  if a = 0 then s else glazRows (s.glazRd (a + 8) 4) (32 * s.glazRd (a + 4) 2) (glazRows a 16 s)

/-- The states of a head's tell-tales and the values of its limp layers taken at a frame start. -/
def takeStates (h : Nat) (s : State) : State :=
  let ls := limpLayers s.glazRd h
  let valued := fun (l : Layer) => decide (l.kind = 2 ∨ l.kind = 3)
  let s1 := limpRecordRows h ((headTts s.glazRd h).foldl (takeTt h) s)
  let s2 := (ls.filter valued).foldl (fun s l => meetSlot l.entry s) s1
  s2.setHead h { s2.head h with
    taken := true
    limpValues := ls.map (fun l => if valued l then s.glazValue l.entry else none) }

/-- The rows that the limp composer meets on an active line: those of the glyphs and images that it draws there. -/
def limpLineRows (h y : Nat) (s : State) : State :=
  ((limpLayers s.glazRd h).zip (s.head h).limpValues).foldl (fun s lv =>
    let l := lv.1
    if l.y ≤ y ∧ y < l.y + l.h then
      let i := (y - l.y) * l.w
      (l.drawn lv.2).foldl (fun s g => glazRows (l.asset + g * l.glyph + i / 2) ((i % 2 + l.w + 1) / 2) s) s
    else s) s

/-! ### The check (R357 to R360) -/

/-- A pair's record of a match or a mismatch (R359, R360). -/
def pairResult (t h crc : Nat) (ok : Bool) (s : State) : State :=
  let p := { s.pair t h with last := crc }
  if ok then s.setPair t h (if p.esc = 2 then p else { p with count := 0, esc := 0 })
  else
    let n := min (p.count + 1) 15
    let q := { p with last := crc, count := n, total := satAdd p.total 1 0xFFFF }
    let s1 := (s.count R.GLAZ_MISMATCHES_COUNT 0 1).raise 0x0E 0 2
    if p.esc ≠ 2 ∧ s.get R.GLAZ_ESC_MISS_LIMIT 0 ≤ n then
      glazFault 3 (((s1.setPair t h { q with esc := 2 }).put ⟨0x0E, 0x080 + 4 * (t / 32), 4, t % 32, 1⟩ 0 1).raise 0x0E 0 3)
    else s1.setPair t h { q with esc := if p.esc = 2 then 2 else 1 }

/-- Both checkers at the end of a rectangle: the bits turned at stage 6, and the difference of the second checker's CRC. -/
def checkRect (h t : Nat) (flips : List Nat) (other : Nat) (s : State) : State :=
  match (s.head h).scan with
  | none => s
  | some c =>
    let d := ttDef s.glazRd t
    if !s.domainOn 4 || !s.domainOn 5 || c.suspended || !c.seen || c.checked.contains t || !(headTts s.glazRd h).contains t then s
    else
      let s0 := glazRows (s.glazRd 0x10 4 + 4 * (16 * t + 4 * h)) 12
        (glazRows d.bitmap ((d.w * d.h + 1) / 2) (glazRows (s.glazRd 0x0C 4 + 48 * t) 48 s))
      let shown := (s.pair t h).shown
      let crc := streamCrc (turnBits flips (rectBits s.glazRd d shown (s.headDepth h)))
      let want := ttExp s.glazRd t h shown
      let second := crc ^^^ (other % 2 ^ 32)
      let ok := crc == want && second == want
      let s1 := pairResult t h crc ok s0
      let s2 := if crc = second then s1 else
        if s1.flag R.GLAZ_FAULT_CHECKER 0 then s1 else glazFault 4 (s1.put R.GLAZ_FAULT_CHECKER 0 1)
      s2.setHead h { s2.head h with scan := some { c with checked := t :: c.checked, mismatch := c.mismatch || !ok } }

/-- A pair returned to OK, and GLAZ_FAILED of its tell-tale with it when no other head's pair is FAILED (R360). -/
def clearPair (t h : Nat) (s : State) : State :=
  let s1 := s.setPair t h { s.pair t h with esc := 0, count := 0 }
  s1.put ⟨0x0E, 0x080 + 4 * (t / 32), 4, t % 32, 1⟩ 0 (bit ((List.range 4).any (fun k => (s1.pair t k).esc == 2)))

/-- A write of GLAZ_TT_CLEAR. -/
def ttClear (v : Nat) (s : State) : State :=
  if bitOf v 31 then (s.glaz.pairs.map (fun p => p.1)).foldl (fun s k => clearPair (k / 4) (k % 4) s) s
  else clearPair (v % 256) (bitsAt v 8 2) s

/-! ### The frame watchdog (R362) -/

/-- A head of which Glazing watches a frame start or a record. -/
def watched (h : Nat) (s : State) : Bool :=
  s.domainOn 4 && s.domainOn 5 && s.flag (R.HDR_CTL_ENABLE.on 0x0D) h && !(headTts s.glazRd h).isEmpty && s.flag R.TICK_RUN_RUN 0 &&
  (decide (0 < (s.head h).due) || (s.head h).scan.isSome)

/-- A due frame start or its record has not come in time. -/
def frameMissing (h : Nat) (s : State) : State :=
  if watched h s && !s.flag ⟨0x0E, 0x06C, 4, 8 + h, 1⟩ 0 then glazFault 4 (s.put ⟨0x0E, 0x06C, 4, 8 + h, 1⟩ 0 1) else s

/-! ### The page -/

/-- The value rules of the GLAZ page. -/
def glazBad (off v : Nat) (s : State) : Option Nat :=
  if off = 0x040 ∧ v % 8 ≠ 0 then some 0x0009
  else if off = 0x044 ∧ bitOf v 31 ∧ s.glazLoading then some 0x0104
  else if off = 0x054 ∧ v % 16 = 0 then some 0x0009
  else none

/-- The registers of the GLAZ page with a rule of their own. -/
def glazSpecial (w : WriteReq) (s : State) : Option Written :=
  let v := w.value.toNat
  if w.off = 0x044 then some (if bitOf v 31 then glazLoadStart (v % 32) s else s.put R.GLAZ_LOAD_CTL_SLOT 0 (v % 32), rspOk)
  else if w.off = 0x068 then some (ttClear v s, rspOk)
  else none

/-- A read of the GLAZ page's derived registers. -/
def glazRead (off : Nat) (s : State) : Option Word :=
  let t := s.get R.GLAZ_TT_IDX_TT 0
  let h := s.get R.GLAZ_TT_IDX_HEAD 0
  let p := s.pair t h
  match off with
  | 0x05C => some (word (ttExp s.glazRd t h (s.get R.GLAZ_TT_IDX_STATE 0)))
  | 0x060 => some (word p.last)
  | 0x064 => some (word (p.total * 2 ^ 16 + p.count * 2 ^ 12 + p.esc * 2 ^ 10 + p.shown * 2 ^ 8 + p.mode))
  | 0x068 => some 0
  | 0x06C => some (word (bit s.ttFault * 2 ^ 12 + s.get R.GLAZ_FAULT_FRAME_MISSING 0 * 2 ^ 8 +
      bit (s.domainOn 5 && !s.domainOn 4) * 16 + s.get R.GLAZ_FAULT_SRAM_UE 0 * 8 + bit s.loadFault * 4 +
      s.get R.GLAZ_FAULT_CHECKER 0 * 2 + bit s.ttFailed))
  | _ => none

/-- SOFT_RESET of the GLAZ page (R367). -/
def glazReset (s : State) : State :=
  let pairs := s.glaz.pairs.map (fun p => (p.1, { p.2 with esc := 0, count := 0 }))
  let s1 := s.setGlaz { s.glaz with pairs := pairs.filter (fun p => p.2 != TtPair.idle) }
  let s2 := s1.resetPage 0x0E 0 (fun off => (0x008 ≤ off && decide (off < 0x024)) || (0x070 ≤ off && decide (off < 0x0A0)))
  (s2.put R.GLAZ_FAULT_CHECKER 0 0).dropShadows 0x0E 0

/-! ### The commands -/

/-- GLAZING_LOAD_DONE (R349). -/
def execGlazingLoadDone (s : State) : Result := done (if s.domainOn 4 then glazLoadDone s else s)

/-- TELLTALE_CRC_CHECK (R357). -/
def execTelltaleCrcCheck (head tt : Nat) (flips : Flips) (other : Nat) (s : State) : Result :=
  need (head < 4 && tt < 256) (done (checkRect head tt flips other s))

/-- FRAME_MISSING (R362). -/
def execFrameMissing (head : Nat) (s : State) : Result := need (head < 4) (done (frameMissing head s))

/-- GLAZING_SRAM_SCRUB (R366): one row. -/
def execGlazingSramScrub (s : State) : Result :=
  done (if s.domainOn 4 then
    let s1 := glazRow s.glaz.scrubRow s
    s1.setGlaz { s1.glaz with scrubRow := (s.glaz.scrubRow + 1) % (sramSize / 8) } else s)

end Sys2Proof.Machine
end

