-- ==== Sys2Proof/Machine/Hinge.lean ====
section
/-!
DEFINITION. Hinge (R449 to R469): the bitstream and its checks, loading, parking and release, scrub, capture, FLASH_WRITE, the flash
window, the hard serial ports, the oscillators.
-/

namespace Sys2Proof.Machine

def setFabState (v : Nat) (s : State) : State := s.put R.HNGE_FAB_STATE_STATE 0 v

/-! ### The bitstream (R453, R458) -/

/-- At most one bit of a select is set. -/
def oneHot (v : Nat) : Bool := v &&& (v - 1) == 0

/-- Codes of Table 18-12. -/
abbrev hcOk : Nat := 0
abbrev hcState : Nat := 0x0101
abbrev hcPark : Nat := 0x0102
abbrev hcFormat : Nat := 0x0103
abbrev hcCrc : Nat := 0x0104
abbrev hcAuth : Nat := 0x0105
abbrev hcContention : Nat := 0x0106
abbrev hcRange : Nat := 0x0107
abbrev hcBusy : Nat := 0x0108
abbrev hcVerify : Nat := 0x0109
abbrev hcEcc : Nat := 0x010A
abbrev hcOsc : Nat := 0x010B
abbrev hcJournal : Nat := 0x010C
abbrev hcFifo : Nat := 0x010D
abbrev hcPort : Nat := 0x010E

/-- A cell's field of bay (r, q) (Table 18-4). -/
def cellCheck (r q v : Nat) : Nat :=
  let trk := bitsAt v 56 8
  if !(oneHot trk && (List.range 4).all (fun i => oneHot (bitsAt v (24 + 8 * i) 8))) then hcContention
  else if bitsAt v 20 4 ≠ 0 ∨ (r = 0 ∧ bitOf trk 2) ∨ (q = 63 ∧ bitOf trk 3) ∨ (r = 63 ∧ bitOf trk 4) ∨ (q = 0 ∧ bitOf trk 5) then hcFormat
  else hcOk

/-- A pin's field (Table 18-5). -/
def pinCheck (v : Nat) : Nat :=
  let out := v % 2 ^ 16
  let oe := bitsAt v 16 16
  let hsp := bitsAt v 8 8 != 0
  let sig := bitsAt v 32 3
  if !oneHot out || !oneHot oe || (hsp && (oe != 0 || bitOf v 35)) then hcContention
  else if bitsAt v 42 22 ≠ 0 ∨ bitsAt v 24 8 ≠ 0 ∨ 5 < sig ∨ (bitOf v 35 ∧ oe ≠ 0) ∨ (hsp ∧ 4 ≤ sig ∧ !bitOf v 40) then hcFormat
  else hcOk

/-- The hard frame: HSP inputs and clock nets; a pin named as an input has IN_EN = 1. -/
def hardCheck (inEn : Nat → Bool) (f : Nat) : Nat :=
  let input := fun (v : Nat) => !bitOf v 7 || (decide (v % 128 < 96) && inEn (v % 128))
  let net := fun (v : Nat) => decide (v % 8 ≤ 5) && !bitOf v 3 && bitsAt v 11 5 == 0 &&
    (v % 8 != 5 || (decide (bitsAt v 4 7 < 96) && inEn (bitsAt v 4 7)))
  if (List.range 24).all (fun k => input (bitsAt f (8 * k) 8)) && (List.range 4).all (fun g => net (bitsAt f (192 + 16 * g) 16)) &&
    f / 2 ^ 256 == 0 then hcOk else hcFormat

/-- The first code other than 0 of a list. -/
def firstCode : List Nat → Nat
  | [] => 0
  | c :: t => if c ≠ 0 then c else firstCode t

/-- The check of a frame under R453 and R458; the frames before it tell which pins have their input enabled. -/
def frameCheck (frames : Tbl (BitVec 512)) (n : Nat) (f : BitVec 512) : Nat :=
  let v := f.toNat
  let each := fun (p : Nat → Nat) => firstCode ((List.range 8).map (fun c => p (frameField v c)))
  if n < 4096 then each (cellCheck (n / 64) (n % 64))
  else if n < 4224 then each (fun l => if oneHot l then hcOk else hcContention)
  else if n < 4236 then each pinCheck
  else hardCheck (fun p => bitOf (tblGet 0 frames (4224 + p / 8)).toNat (64 * (p % 8) + 41)) v

/-- The parking entries of a payload's first 0x100 bytes, if the table is valid (Table 18-6, PARK_CRC). -/
def parkTable (b : List Byte) : Option (List Nat) :=
  let es := (List.range 96).map (fun p => argNum b (0x40 + p) 1)
  if es.all (fun e => decide (e ≤ 4)) && argNum b 0xA0 4 == crc32 ((b.drop 0x40).take 0x60) then some es else none

/-- The payload header (Table 18-2). -/
def bitstreamHeaderOk (b : List Byte) : Bool :=
  argNum b 0 4 == 0x4C594842 && argNum b 4 2 == 1 && argNum b 6 2 == 4237 && argNum b 0x10 4 == 0x46678 &&
  ((b.drop 0x14).take 44).all (fun x => x == 0) && ((b.drop 0xA4).take 92).all (fun x => x == 0)

/-- The bytes of a bitstream's payload and of its container. -/
abbrev bitstreamLen : Nat := 0x46678
abbrev bitstreamContainer : Nat := 288424

/-- What the steps of a copy have found so far (R456): frames, held CRCs, the parking table, design words. -/
structure CopyRun where
  frames : Tbl (BitVec 512)
  held : Tbl Nat
  park : Option (List Nat)
  design : Nat
  userVer : Nat

/-- How a copy ends: its code (0 passed), the frame at which it failed. -/
structure CopyEnd where
  code : Nat
  frame : Nat
  run : CopyRun

/-- Frames n, n + 1, … of a copy whose payload begins at flash address a (step 4). -/
def copyFrames (a : Nat) : Nat → Nat → CopyRun → State → State × CopyEnd
  | 0, n, run, s => (s, ⟨0, n, run⟩)
  | fuel + 1, n, run, s =>
    match flashRead (a + 0x100 + 68 * n) 68 s with
    | (s1, none) => (s1, ⟨hcEcc, n, run⟩)
    | (s1, some b) =>
      let data := b.take 64
      let f := BitVec.ofNat 512 (leNum data)
      if argNum b 64 4 ≠ crc32 data then (s1, ⟨hcCrc, n, run⟩)
      else
        let code := frameCheck run.frames n f
        if code ≠ 0 then (s1, ⟨code, n, run⟩)
        else copyFrames a fuel (n + 1) { run with frames := tblSet 0 run.frames n f, held := tblSet 0 run.held n (argNum b 64 4) } s1

/-- The steps of a copy at a flash offset with a key (R456). -/
def copySteps (offset key : Nat) (s : State) : State × CopyEnd :=
  let start : CopyRun := ⟨[], [], none, 0, 0⟩
  if journalBase < offset + bitstreamContainer then (s, ⟨hcRange, 0, start⟩)
  else match flashRead offset 32 s with
  | (s1, none) => (s1, ⟨hcEcc, 0, start⟩)
  | (s1, some head) =>
    let step := contSteps (fun k => k == 3) key false head s1
    if step ≠ 0 then (imgResult (contKind head) step s1, ⟨hcAuth, 0, start⟩)
    else if contLen head ≠ bitstreamLen then (s1, ⟨hcFormat, 0, start⟩)
    else match flashRead (offset + 32) 0x100 s1 with
    | (s2, none) => (s2, ⟨hcEcc, 0, start⟩)
    | (s2, some b) =>
      if !bitstreamHeaderOk b then (s2, ⟨hcFormat, 0, start⟩)
      else match parkTable b with
      | none => (s2, ⟨hcPark, 0, start⟩)
      | some t =>
        match copyFrames (offset + 32) 4237 0 { start with park := some t, design := argNum b 8 4, userVer := argNum b 12 4 } s2 with
        | (s3, e) =>
          if e.code ≠ 0 then (s3, e)
          else match flashRead offset bitstreamContainer s3 with
          | (s4, none) => (s4, ⟨hcEcc, 4236, e.run⟩)
          | (s4, some whole) =>
            if argNum whole (32 + bitstreamLen - 4) 4 ≠ crc32 ((whole.drop 32).take (bitstreamLen - 4)) then (s4, ⟨hcCrc, 0, e.run⟩)
            else if !contTagOk key whole s4 then (imgResult 3 6 s4, ⟨hcAuth, 0, e.run⟩)
            else (imgResult 3 0 s4, ⟨0, 0, e.run⟩)

/-! ### Flip-flops -/

/-- The initial values of a configuration's flip-flops. -/
def initFlops (frames : Tbl (BitVec 512)) : Tbl Nat :=
  (frames.filter (fun p => decide (p.1 < 4096))).foldl (fun t p =>
    tblSet 0 t p.1 (maskOf 8 (fun c => bitOf p.2.toNat (64 * c + 16)))) []

/-! ### Loading, parking, release (R454 to R458) -/

/-- The configuration cleared; the parking table in force stays. -/
def clearConfig (s : State) : State :=
  s.setFabric { s.fabric with frames := [], held := [], heldErrs := [], flops := [], captured := [], capWait := [], scrubNext := 0, mismatch := [] }

/-- The fabric parks (R455): its flip-flops hold what they have. -/
def parkFabric (s : State) : State := (setFabState fabParked (runFabric s)).raise 0x15 0 3

/-- A write of HNGE_FAB_CTL.PARK = 1, authenticated (R455). -/
def parkWrite (w : WriteReq) (s : State) : Written :=
  if s.fabState = fabReleased then (parkFabric s, rspOk) else refuseWrite w rspRefused hcState s

/-- A load starts with copy A (R455, R456). -/
def startLoad (offset key : Nat) (s : State) : State :=
  let s1 := clearConfig ((setFabState fabLoading s).setReg 0x15 0 0x04C 0)
  ((s1.setFabric { s1.fabric with load := some ⟨false, offset, key⟩ }).setReg 0x15 0 0x050 0).setReg 0x15 0 0x054 0

/-- The parking table of a load in force, if none was (R456 step 3). -/
def takePark (t : Option (List Nat)) (s : State) : State :=
  match s.fabric.park, t with
  | none, some p => (s.setFabric { s.fabric with park := some p }).put R.HNGE_FAB_STATE_PARK_VALID 0 1
  | _, _ => s

/-- The copy in progress passes all its steps: the fabric is released (R457). -/
def fabricRelease (s : State) : State :=
  match s.fabric.load with
  | none => s
  | some l =>
    match copySteps l.offset l.key s with
    | (s1, e) =>
      if e.code ≠ 0 then s
      else
        let s2 := takePark e.run.park s1
        let s3 := s2.setFabric { s2.fabric with
          frames := e.run.frames, held := e.run.held, heldErrs := [], flops := initFlops e.run.frames, load := none, scrubNext := 0, mismatch := [] }
        let s4 := (((setFabState fabReleased s3).put R.HNGE_FAB_STATE_OFFSET 0 l.offset).put R.HNGE_FAB_STATE_COPY 0 (bit l.copyB)).raise 0x15 0 0
        let s5 := ((s4.setReg 0x15 0 0x050 (word e.run.design)).setReg 0x15 0 0x054 (word e.run.userVer))
        if l.copyB then s5.raise 0x15 0 2 else s5

/-- The copy in progress fails: its configuration is cleared; copy B is tried or the fabric is FAILED (R456). -/
def fabricLoadFail (s : State) : State :=
  match s.fabric.load with
  | none => s
  | some l =>
    match copySteps l.offset l.key s with
    | (s1, e) =>
      if e.code = 0 then s
      else
        let s2 := clearConfig (takePark e.run.park s1)
        let s3 := ((s2.put (if l.copyB then R.HNGE_LOAD_STAT_B_ERR else R.HNGE_LOAD_STAT_A_ERR) 0 e.code).put R.HNGE_LOAD_STAT_FIRST_FRAME 0
          e.frame).raise 0x15 0 1
        if !l.copyB ∧ s3.flag R.HNGE_BS_ALT_EN 0 then
          s3.setFabric { s3.fabric with load := some ⟨true, s3.get R.HNGE_BS_ALT_OFFSET 0, l.key⟩ }
        else (setFabState fabFailed (s3.setFabric { s3.fabric with load := none })).report 0x15 0 1 clsDevice

/-- HINGE_LOAD (R455). -/
def actHingeLoad (c : CritCmd) (s : State) : Acted :=
  let offset := argNum c.args 0 4
  if !s.domainOn 1 then refusedWith rspClosed s
  else if s.fabState = fabLoading ∨ s.fabState = fabReleased then refusedWith hcState s
  else if journalBase < offset + bitstreamContainer then refusedWith hcRange s
  else accepted (startLoad offset (argNum c.args 4 1) s)

/-! ### Scrub (R459) -/

/-- A frame rewritten from the flash copy in use, if its FRAME_CRC holds. -/
def frameFromFlash (n : Nat) (s : State) : State × Option (BitVec 512) :=
  match flashRead (s.get R.HNGE_FAB_STATE_OFFSET 0 + 32 + 0x100 + 68 * n) 68 s with
  | (s1, none) => (s1, none)
  | (s1, some b) => (s1, if argNum b 64 4 = crc32 (b.take 64) then some (BitVec.ofNat 512 (leNum (b.take 64))) else none)

/-- A frame that does not match its held CRC: what ACTION says. -/
def scrubMismatch (n : Nat) (badHeld : Bool) (s : State) : State :=
  let s1 := (((s.raise 0x15 0 4).put R.HNGE_SCRUB_STAT_LAST_FRAME 0 n).count R.HNGE_SCRUB_STAT_MISMATCHES 0 1).report 0x15 0 4 clsDevice
  let again := s.fabric.mismatch.contains n
  let noted := s1.setFabric { s1.fabric with mismatch := if again then s1.fabric.mismatch else s1.fabric.mismatch ++ [n] }
  match s.get R.HNGE_SCRUB_CFG_ACTION 0 with
  | 0 => noted
  | 1 =>
    if again || badHeld then parkFabric noted
    else match frameFromFlash n noted with
      | (s2, none) => parkFabric s2
      | (s2, some f) =>
        let s3 := runFabric s2
        (s3.setFabric { s3.fabric with frames := tblSet 0 s3.fabric.frames n f }).raise 0x15 0 5
  | _ => parkFabric noted

/-- One frame scrubbed (R459). -/
def scrubFrame (s : State) : State :=
  if s.fabState ≠ fabReleased ∨ !s.flag R.HNGE_SCRUB_CFG_EN 0 ∨ !s.domainOn 1 then s
  else
    let n := s.fabric.scrubNext
    let s1 := s.setFabric { s.fabric with scrubNext := (n + 1) % 4237 }
    let badHeld := decodeWord (tblGet 0 s.fabric.heldErrs n).toNat == .uncorrectable
    let noise := residue (tblGet 0 s.fabric.heldErrs n).toNat % 2 ^ 32
    if badHeld ∨ crc32 (leBytes 64 (tblGet 0 s.fabric.frames n).toNat) ≠ tblGet 0 s.fabric.held n ^^^ noise then scrubMismatch n badHeld s1
    else s1.setFabric { s1.fabric with mismatch := s1.fabric.mismatch.filter (fun k => k != n) }

/-! ### Capture (R460) -/

/-- A write of HNGE_CAP_CTL.CAPTURE = 1: every flip-flop is captured with the value it has at the write, which it holds up to the first edge
of its net after it; the running nets have still to be captured. -/
def capStart (s : State) : State :=
  let s0 := runFabric s
  let nets := s0.runningNets
  let s1 := (s0.setFabric { s0.fabric with captured := s0.fabric.flops, capWait := nets }).put R.HNGE_CAP_DATA_VALID 0 0
  if nets = [] then (s1.put R.HNGE_CAP_DATA_VALID 0 1).raise 0x15 0 10 else s1

/-- Every net has been captured. -/
def capDone (s : State) : State :=
  if s.fabric.capWait = [] then s
  else ((s.setFabric { s.fabric with capWait := [] }).put R.HNGE_CAP_DATA_VALID 0 1).raise 0x15 0 10

/-- A read of HNGE_CAP_DATA: VALID and the bay's flip-flops; IDX advances. -/
def capRead (s : State) : State × Word :=
  let bay := s.get R.HNGE_CAP_IDX_BAY 0
  (s.put R.HNGE_CAP_IDX_BAY 0 ((bay + 1) % 4096),
   word (s.get R.HNGE_CAP_DATA_VALID 0 * 2 ^ 31 + tblGet 0 s.fabric.captured bay))

/-! ### Flash commands and window (R461, R463) -/

/-- The sectors' range of a container written at an offset. -/
def flashRange (dst size : Nat) : Nat × Nat := (dst, (size + 4095) / 4096 * 4096)

/-- Two ranges (start and length) overlap. -/
def overlaps (a n b m : Nat) : Bool := decide (a < b + m ∧ b < a + n)

/-- The flash copies that a load in progress reads. -/
def loadRanges (s : State) : List Nat :=
  match s.fabric.load with
  | none => []
  | some l => l.offset :: (if !l.copyB && s.flag R.HNGE_BS_ALT_EN 0 then [s.get R.HNGE_BS_ALT_OFFSET 0] else [])

/-- The initiator that reads and writes images for Hinge (TRLH_38). -/
def hingeInit : Initiator := ⟨38, 0⟩

/-- FLASH_WRITE (R463): the refusals; a write accepted ends with FLASH_WRITE_DONE. -/
def actFlashWrite (c : CritCmd) (s : State) : Acted :=
  let dst := argNum c.args 8 4
  if !s.domainOn 1 then refusedWith rspClosed s
  else if s.flashJob.isSome then refusedWith hcBusy s
  else
    let r := fetchContainer hingeInit 0 (argNum c.args 0 8) s
    let box := r.2.getD []
    let (a, n) := flashRange dst (contSize box)
    if (loadRanges r.1).any (fun o => overlaps a n o bitstreamContainer) then refusedWith hcBusy r.1
    else if dst % 4096 ≠ 0 ∨ journalBase < a + n ∨
        (s.fabState = fabReleased ∧ overlaps a n (s.get R.HNGE_FAB_STATE_OFFSET 0) bitstreamContainer) then refusedWith hcRange r.1
    else accepted (({ r.1 with flashJob := some ⟨box, dst, argNum c.args 12 1⟩ }.put R.HNGE_FLASH_STAT_BUSY 0 1).put R.HNGE_FLASH_STAT_OP 0 1)

/-- A FLASH_WRITE ends (R463). -/
def flashDone (programmed : Bool) (s : State) : State :=
  match s.flashJob with
  | none => s
  | some j =>
    let s0 := ({ s with flashJob := none }.put R.HNGE_FLASH_STAT_BUSY 0 0).put R.HNGE_FLASH_STAT_OP 0 0
    let step := contCheck (fun _ => true) j.key true j.container s0
    let s1 := imgResult (contKind j.container) step s0
    if step ≠ 0 then s1.raise 0x15 0 7
    else
      let (a, n) := flashRange j.dst (contSize j.container)
      let s2 := (flashErase a n s1).count R.HNGE_FLASH_ERASES 0 (n / 4096)
      if programmed then (raiseFloor j.container (flashProgram a j.container s2)).raise 0x15 0 6
      else (((flashErase a n s2).count R.HNGE_FLASH_ERASES 0 (n / 4096)).raise 0x15 0 7).err 0x15 0 0 hcVerify

/-- A request to the flash window (R461, R462). -/
def flashWindow (off : Nat) (q : NetReq) (s : State) : State × Answer :=
  let run := (List.range 16).find? (fun k => q.be == 15 * 2 ^ (4 * k))
  match run with
  | none => (s, ⟨rspRefused, []⟩)
  | some k =>
    let a := off / 64 * 64 + 4 * k
    if q.write || q.rotate || q.flits != 1 then (s, ⟨rspRefused, []⟩)
    else if journalBase ≤ a then (s.err 0x15 0 0 hcJournal, ⟨rspRefused, []⟩)
    else if (match s.flashJob with
      | some j => let (b, n) := flashRange j.dst (contSize j.container); decide (b ≤ a ∧ a < b + n)
      | none => false) then (s, ⟨rspRefused, []⟩)
    else match flashRead a 4 s with
      | (s1, none) => (s1, ⟨rspEcc, []⟩)
      | (s1, some b) => (s1, ⟨rspOk, List.replicate (4 * k) 0 ++ b ++ List.replicate (60 - 4 * k) 0⟩)

/-! ### Hard serial ports (R465, R466) -/

def State.hsp (s : State) (k : Nat) : SerialPort := tblGet ⟨[], []⟩ s.serial k

/-- A port's FIFOs replaced; its levels and BUSY follow. -/
def setHsp (k : Nat) (x : SerialPort) (s : State) : State :=
  let s1 := { s with serial := tblSet ⟨[], []⟩ s.serial k x }
  ((s1.put (R.HSP_STAT_TX_LEVEL.nth k) 0 x.tx.length).put (R.HSP_STAT_RX_LEVEL.nth k) 0 x.rx.length).put (R.HSP_STAT_BUSY.nth k) 0
    (bit (x.tx != [] && s1.flag (R.HSP_CFG_EN.nth k) 0))

/-- A write of HSP_TXD. -/
def hspTxd (k : Nat) (w : WriteReq) (s : State) : Written :=
  let x := s.hsp k
  let ctrl := bitOf w.value.toNat 8
  let mode := s.get (R.HSP_CFG_MODE.nth k) 0
  if 16 ≤ x.tx.length then refuseWrite w rspRefused hcFifo s
  else if ctrl ∧ mode ≠ 2 ∧ mode ≠ 3 ∧ mode ≠ 5 then refuseWrite w rspRefused 0x0009 s
  else (setHsp k { x with tx := x.tx ++ [(ctrl, w.value.toNat % 256)] } s, rspOk)

/-- A read of HSP_RXD; a consuming one removes the head. -/
def hspRxd (k : Nat) (consume : Bool) (s : State) : State × Word :=
  let x := s.hsp k
  match x.rx with
  | [] => (s, 0)
  | (brk, err, d) :: t =>
    (if consume then setHsp k { x with rx := t } s else s, word (2 ^ 31 + bit brk * 2 ^ 9 + bit err * 2 ^ 8 + d))

/-- A byte received (R466). -/
def hspReceive (k data measured : Nat) (lead framing parity : Bool) (s : State) : State :=
  if !s.domainOn 1 ∨ !s.flag (R.HSP_CFG_EN.nth k) 0 ∨ s.get (R.HSP_CFG_MODE.nth k) 0 = 0 then s
  else
    let lin := s.get (R.HSP_CFG_MODE.nth k) 0 == 2
    let brk := lead && lin
    let x := s.hsp k
    let s1 := (if brk then s.put (R.HSP_STAT_BREAK.nth k) 0 1 else s).countWrap (R.HSP_COUNT_RECEIVED.nth k) 0 1
    let s2 := if brk ∧ data = 0x55 then s1.put (R.HSP_BAUD_MEASURED.nth k) 0 measured else s1
    let uart := s.get (R.HSP_CFG_MODE.nth k) 0 ≤ 2
    let framing := framing && uart
    let parity := parity && uart && s.flag (R.HSP_CFG_PAR_EN.nth k) 0
    let s3 := if framing then s2.put (R.HSP_STAT_FRAMING.nth k) 0 1 else s2
    let s4 := if parity then s3.put (R.HSP_STAT_PARITY.nth k) 0 1 else s3
    let s5 := if 16 ≤ x.rx.length then (s4.count (R.HSP_COUNT_OVERRUNS.nth k) 0 1).put (R.HSP_STAT_OVERRUN.nth k) 0 1
      else setHsp k { x with rx := x.rx ++ [(brk, framing || parity, data)] } s4
    s5.raise 0x15 0 (11 + k)

/-- A byte sent (R466). -/
def hspSent (k : Nat) (nack arbLost : Bool) (s : State) : State :=
  let x := s.hsp k
  if !s.domainOn 1 ∨ !s.flag (R.HSP_CFG_EN.nth k) 0 ∨ x.tx = [] then s
  else
    let s1 := setHsp k { x with tx := x.tx.tail } s
    if s.get (R.HSP_CFG_MODE.nth k) 0 = 5 ∧ (nack ∨ arbLost) then
      let s2 := if nack then s1.put (R.HSP_STAT_NACK.nth k) 0 1 else s1
      (if arbLost then s2.put (R.HSP_STAT_ARB_LOST.nth k) 0 1 else s2).raise 0x15 0 (11 + k)
    else s1

/-! ### Oscillators (R467) -/

/-- An oscillator that is in use: as the source of CK_AO and the tick, of CK_HINGE, or of a running net (Table 19-5). Oscillators A,
B, C, D are 0 to 3. -/
def State.oscInUse (s : State) (k : Nat) : Bool :=
  let held := !s.refGood || (s.flag R.TICK_RUN_RUN 0 && s.flag R.TICK_RUN_SRC 0)
  let nets := s.runningNets.map s.netSource
  match k with
  | 0 => nets.contains 2
  | 1 => nets.contains 3
  | 2 => held || (s.domainUp 1 && !s.flag R.SHUT_CLK_SEL_HINGE_SRC 0)
  | _ => s.refGood || (s.flag R.TICK_RUN_RUN 0 && !s.flag R.TICK_RUN_SRC 0) || nets.contains 4

/-! ### The page -/

/-- The value rules of the HNGE page. -/
def hngeBad (off v : Nat) (s : State) : Option Nat :=
  if off = 0x048 ∧ v % 8 ≠ 0 then some 0x0009
  else if off = 0x058 ∧ v % 4 = 3 then some 0x0009
  else if off = 0x060 ∧ (List.range 4).any (fun k => s.flag ⟨0x15, 0x060, 4, k, 1⟩ 0 && !bitOf v k && s.oscInUse k) then some hcOsc
  else if 0x200 ≤ off ∧ off < 0x300 ∧ off % 32 = 0 then
    let k := (off - 0x200) / 32
    if s.flag (R.HSP_CFG_EN.nth k) 0 ∧ bitOf v 31 then some hcPort
    else if s.flag (R.HSP_CFG_EN.nth k) 0 ∧ (v ^^^ (s.getReg 0x15 0 off).toNat) &&& 0x73FFC000 ≠ 0 then some hcPort
    else if bitsAt v 28 3 = 7 then some 0x0009 else none
  else none

/-- The registers of the HNGE page with a rule of their own. -/
def hngeSpecial (w : WriteReq) (s : State) : Option Written :=
  let v := w.value.toNat
  if w.off = 0x044 then some (if bitOf v 0 then parkWrite w s else (s, rspOk))
  else if w.off = 0x060 then
    some ((s.setReg 0x15 0 0x060 (word (v % 32))).put R.HNGE_OSC_STAT_RUN 0 (v % 16), rspOk)
  else if w.off = 0x080 then some (if bitOf v 0 then capStart s else s, rspOk)
  else if 0x200 ≤ w.off ∧ w.off < 0x300 then
    let k := (w.off - 0x200) / 32
    if w.off % 32 = 0x0C then some (hspTxd k w s)
    else if w.off % 32 = 0 then
      let s1 := s.setReg 0x15 0 w.off (word (v &&& 0xF3FFC000))
      some (setHsp k (s1.hsp k) s1, rspOk)
    else none
  else none

/-- A read of a UOUT register: the tracks of column 63 as the fabric drives them now, with free levels of the pins. -/
def uoutRead (k : Nat) (s : State) : State × Word :=
  let s1 := runFabric s
  if s1.fabric.frames = [] then (s1, 0)
  else
    let (v, s2) := s1.draw
    (s2, word (bitsAt (s2.wires (v % 2 ^ 96) (v / 2 ^ 96)).uout (32 * k) 32))

/-- A read of the HNGE page's derived registers. While a load runs whose table is not in force yet, PARK_VALID depends on how far it has come;
while a FLASH_WRITE runs, so do its step, sector and suspension. -/
def hngeRead (off : Nat) (consume : Bool) (s : State) : Option (State × Word) :=
  if off = 0x088 then some (capRead s)
  else if 0x140 ≤ off ∧ off < 0x180 then
    some (uoutRead ((off - 0x140) / 4) s)
  else if off = 0x040 ∧ s.fabState = fabLoading ∧ s.fabric.park.isNone then
    let (v, s1) := s.draw
    some (s1, word (setBits (s.getReg 0x15 0 0x040).toNat 5 1 v))
  else if off = 0x070 ∧ s.flashJob.isSome then
    let (v, s1) := s.draw
    some (s1, word (2 ^ 31 + (1 + v % 4) * 2 ^ 28 + bitsAt v 2 1 * 2 ^ 27 + bitsAt v 3 11))
  else if off = 0x068 ∨ off = 0x06C then
    let (v, s1) := s.draw
    some (s1, word (if off = 0x068 then v else v % 2 ^ 16))
  else if 0x200 ≤ off ∧ off < 0x300 ∧ off % 32 = 0x10 then some (hspRxd ((off - 0x200) / 32) consume s)
  else none

/-- SOFT_RESET of the HNGE page (R469): the configuration is cleared, the parking table stays. -/
def hngeReset (s : State) : State :=
  let park := s.get R.HNGE_FAB_STATE_PARK_VALID 0
  let s1 := clearConfig (s.setFabric { s.fabric with load := none, keep := false })
  let s2 := ({ s1 with serial := [] }.resetPage 0x15 0 (fun off =>
    !(off == 0x024 || (0x060 ≤ off && decide (off < 0x070))))).dropShadows 0x15 0
  s2.put R.HNGE_FAB_STATE_PARK_VALID 0 park

/-! ### The commands -/

/-- FABRIC_RELEASE (R457). -/
def execFabricRelease (s : State) : Result := done (if s.domainOn 1 then fabricRelease s else s)

/-- FABRIC_LOAD_FAIL (R456). -/
def execFabricLoadFail (s : State) : Result := done (if s.domainOn 1 then fabricLoadFail s else s)

/-- CONFIG_SCRUB_FRAME (R459). -/
def execConfigScrubFrame (s : State) : Result := done (scrubFrame s)

/-- CAPTURE_DONE (R460). -/
def execCaptureDone (s : State) : Result := done (if s.domainOn 1 then capDone s else s)

/-- FLASH_WRITE_DONE (R463). -/
def execFlashWriteDone (programmed : Bool) (s : State) : Result := done (if s.domainOn 1 then flashDone programmed s else s)

/-- HSP_BYTE_RECEIVE (R466). -/
def execHspByteReceive (k data measured : Nat) (lead framing parity : Bool) (s : State) : Result :=
  need (k < 8) (done (hspReceive k data measured lead framing parity s))

/-- HSP_BYTE_SENT (R466). -/
def execHspByteSent (k : Nat) (nack arbLost : Bool) (s : State) : Result := need (k < 8) (done (hspSent k nack arbLost s))

end Sys2Proof.Machine
end

