-- ==== Sys2Proof/Machine/Heads.lean ====
section
/-!
DEFINITION. The display heads (R336 to R348, R550, R70): timing sets, frame start and source, scanout, line buffer, LUTs, links, the side
channel, the provenance record, the page.
-/

namespace Sys2Proof.Machine

def State.headOn (s : State) (h : Nat) : Bool := s.domainOn 5 && s.flag (R.HDR_CTL_ENABLE.on 0x0D) h

/-! ### The timing set (R337 to R339, R346, R347) -/

/-- The kind of a PHY: 1 eDP, 2 DSI, 0 none. -/
def phyKind (p : Nat) : Nat := if p = 1 ∨ p = 2 then 1 else if p = 3 ∨ p = 4 then 2 else 0

/-- The PHYs that a head names: SECOND counts when the line is split between two PHYs. -/
def State.headPhys (s : State) (h : Nat) : List Nat :=
  let p := s.get R.HEAD_PHY_PRIMARY h
  let q := s.get R.HEAD_PHY_SECOND h
  (if s.get R.HEAD_PHY_SPLIT h = 1 then [p, q] else [p]).filter (fun x => x != 0)

/-- The factors of f: H_TOTAL × V_TOTAL × REFRESH × 25,000,000 (R338). -/
def State.clockFactor (s : State) (h : Nat) : Nat :=
  s.get R.HEAD_HTIME_TOTAL h * s.get R.HEAD_VTIME_TOTAL h * s.get R.HEAD_FMT_REFRESH h * 25000000

/-- f without slew, multiplied by TICK_PERIOD (R339). -/
def State.clockTimesPeriod (s : State) (h : Nat) : Nat := s.clockFactor h * 4096

/-- Bits per second that a PHY kind carries on the head's lanes, times 10, with its factor of 0.8 or 0.9 (R347). -/
def State.linkCapacity (s : State) (h kind : Nat) : Nat :=
  let lanes := s.get R.HEAD_LINK_CFG_LANES h
  if kind = 1 then 8 * lanes * (match s.get R.HEAD_LINK_CFG_EDP_RATE h with
    | 0 => 1620000000
    | 1 => 2700000000
    | 2 => 5400000000
    | _ => 8100000000)
  else 9 * lanes * (s.get R.HEAD_LINK_CFG_DSI_RATE h * 10000000)

/-- Each PHY's payload demand is within the capacity of its link (R347). -/
def State.demandOk (s : State) (h : Nat) : Bool :=
  (s.headPhys h).all (fun p =>
    let share := if s.get R.HEAD_PHY_SPLIT h = 1 then 2 else 1
    decide (s.clockTimesPeriod h * 3 * s.headDepth h * 10 ≤
      s.linkCapacity h (phyKind p) * share * s.get R.TICK_PERIOD 0))

/-- The split of a head (R346). -/
def State.splitOk (s : State) (h : Nat) : Bool :=
  let p := phyKind (s.get R.HEAD_PHY_PRIMARY h)
  match s.get R.HEAD_PHY_SPLIT h with
  | 1 => p != 0 && p == phyKind (s.get R.HEAD_PHY_SECOND h) && s.get R.HEAD_HTIME_ACTIVE h % 2 == 0
  | 2 => p == 2
  | _ => true

/-- The back porches of a head (R337). -/
def State.porchOk (s : State) (h : Nat) : Bool :=
  decide (s.get R.HEAD_HTIME_ACTIVE h + s.get R.HEAD_HSYNC_FP h + s.get R.HEAD_HSYNC_SYNC_W h + 8 ≤ s.get R.HEAD_HTIME_TOTAL h) &&
  decide (s.get R.HEAD_VTIME_ACTIVE h + s.get R.HEAD_VSYNC_FP h + s.get R.HEAD_VSYNC_SYNC_W h + 1 ≤ s.get R.HEAD_VTIME_TOTAL h)

/-- The conditions of R339 on the timing in force. -/
def State.timingOk (s : State) : Bool :=
  let on := (List.range 4).filter (fun h => s.flag (R.HDR_CTL_ENABLE.on 0x0D) h)
  let period := s.get R.TICK_PERIOD 0
  let named := (List.range 4).map s.headPhys
  on.all s.porchOk && (List.range 4).all s.splitOk &&
  on.all (fun h => decide (s.clockTimesPeriod h ≤ 1100000000 * period)) &&
  decide ((on.map s.clockTimesPeriod).foldl (· + ·) 0 ≤ 2200000000 * period) &&
  (List.range 4).all (fun a => (List.range a).all (fun b => (named.getD a []).all (fun p => !(named.getD b []).contains p))) &&
  on.all s.demandOk &&
  (List.range 4).all (fun h => ttsInside s.glazRd h (s.headArea h).1 (s.headArea h).2)

/-- The registers of the timing set. -/
def timingOff (off : Nat) : Bool := 0x044 ≤ off && decide (off < 0x060)

/-- The heads' part of a commit (R339, R345): the pending timing of all heads as one set, the LUT swaps. -/
def headCommit (ws : List ShadowWrite) (s : State) : State :=
  let mine := ws.filter (fun w => keyTy w.key == 0x0D)
  let set := mine.filter (fun w => timingOff (keyOff w.key))
  let t := set.foldl applyShadow s
  let s1 := if t.timingOk then t
    else (List.range 4).foldl (fun s h => if set.any (fun w => keyNum w.key == h) then s.raise 0x0D h 5 else s) s
  (List.range 4).foldl (fun s h =>
    if (match lastShadow mine (regKey 0x0D h 0x064) with
      | some v => bitOf v.toNat 8
      | none => false) then
      let x := s.head h
      (s.setHead h { x with lut := x.lutSpare, lutSpare := x.lut, copying := true }).raise 0x0D h 9
    else s) s1

/-- The frame starts that a tick edge makes due (R65); what is left of the last tick's is dropped. -/
def headEdge (s : State) : State :=
  (List.range 4).foldl (fun s h =>
    s.setHead h { s.head h with
      due := if s.headOn h then s.get R.HEAD_FMT_REFRESH h else 0
      info := none, lines := [], nextLine := 0, taken := false }) s

/-- CK_PIX in force (R338): f rounded down. -/
def State.pixelClock (s : State) (h : Nat) : Nat :=
  s.clockFactor h * 2 ^ 24 / effectivePeriod (s.get R.TICK_PERIOD 0) s.slew

/-! ### What stage 6 presents (R336) -/

/-- The tell-tale pixel at a place of a head, if a rectangle covers it: every shown rectangle is stamped in every state (R354). -/
def State.stampAt (s : State) (h x y : Nat) : Option Rgb :=
  (headTts s.glazRd h).findSome? (fun t =>
    let d := ttDef s.glazRd t
    (boxPixel x y (d.xs.getD h 0) (d.ys.getD h 0) d.w d.h).map (fun i => stampPixel s.glazRd d (s.pair t h).shown (s.headDepth h) i))

/-- One pixel as stage 6 presents it: stage 3 output or the limp composer's pixel or black, then the stamp. While a load runs the
limp layout is not stated, so the limp pixel is the free value given. -/
def State.present (s : State) (h y free : Nat) (c : Scan) (line : Option (List Nat)) (x : Nat) : Nat :=
  let hd := s.head h
  let d := s.headDepth h
  let base := match c.source, line with
    | 3, _ => Rgb.mk 0 0 0
    | _, some ps => pipeline hd.lut hd.style d c.number x y (rgbOf (ps.getD x 0))
    | _, none =>
      if s.glazLoading then rgbOf (bitsAt free (30 * x) 30) |>.toDepth d
      else (limpPixel s.glazRd h hd.limpValues x y).toDepth d
  (if c.source = 3 ∨ c.suspended then base else (s.stampAt h x y).getD base).word

/-- An active line passes through stages 3 to 6. -/
def presentLine (h y : Nat) (line : Option (List Nat)) (c : Scan) (s : State) : State :=
  let (v, s1) := if line.isSome || c.source == 3 then (0, s) else if s.glazLoading then s.draw else (0, limpLineRows h y s)
  s1.setHead h { s1.head h with glass := (List.range (s.get R.HEAD_HTIME_ACTIVE h)).map (s.present h y v c line) }

/-! ### Frame start and source (R343, R550, R67) -/

/-- A change of source (R343). -/
def setSource (h src : Nat) (s : State) : State :=
  let was := s.get R.HEAD_SRC_SOURCE h
  let s1 := s.put R.HEAD_SRC_SOURCE h src
  if was = src then s1 else if src = 1 then s1.raise 0x0D h 4 else if src = 2 then s1.raise 0x0D h 3 else s1

/-- The source of a frame (Table 14-2). -/
def State.sourceOf (s : State) (h : Nat) : Nat :=
  let x := s.head h
  if !s.domainOn 4 then 3
  else if s.flag R.HEAD_SRC_FORCE_LIMP h then 2
  else if x.info.isSome && (match x.lines with
    | (0, _) :: _ => true
    | _ => false) then 1
  else 2

/-- Whether a head has shown a picture event (0 the first, 1 the full one) since the last wake. -/
def State.shown (s : State) (h e : Nat) : Bool := bitOf (tblGet 0 s.shutter.picture h) e

/-- SHUT_T_FIRST and SHUT_T_FULL (R487): the register takes the time, a free value, when the last enabled head shows the event. -/
def noteEvent (off e h : Nat) (s : State) : State :=
  let s1 := { s with shutter := { s.shutter with
    picture := tblSet 0 s.shutter.picture h (tblGet 0 s.shutter.picture h ||| 2 ^ e) } }
  if s1.getReg 0x16 0 off = 0xFFFFFFFF ∧ (List.range 4).all (fun k => !s1.headOn k || s1.shown k e) then
    let (v, s2) := s1.draw
    s2.setReg 0x16 0 off (word v)
  else s1

/-- A frame start's part in the picture events: the first frame with live tell-tales, the first array picture. -/
def notePicture (h src : Nat) (seen : Bool) (s : State) : State :=
  let s1 := if seen && !s.glazLoading && s.getReg 0x0E 0 0x04C != 0 && src != 3 then noteEvent 0x064 0 h s else s
  if src = 1 then noteEvent 0x068 1 h s1 else s1

/-- A head starts a due frame. -/
def frameStart (h : Nat) (s : State) : State :=
  let x := s.head h
  if !s.headOn h || !s.flag R.TICK_RUN_RUN 0 || x.due = 0 then s
  else
    let second := s.get R.HEAD_FMT_REFRESH h == 2 && x.due == 1
    let seen := s.domainOn 4
    let src := s.sourceOf h
    let s1 := (setSource h src s).raise 0x0D h 0
    let s2 := if src = 2 then s1.count R.HEAD_LIMP_FRAMES_COUNT h 1 else s1
    let s3 := if seen && !x.taken && !s.glazLoading then takeStates h s2 else s2
    notePicture h src seen <| s3.setHead h { s3.head h with
      frames := (x.frames + 1) % 2 ^ 32
      due := x.due - 1
      style := s.get R.HEAD_CP_CTL h % 16
      scan := some ⟨x.frames, second, s.get R.TICK_SNAP 0, src, none, seen, s.glazLoading, [], false⟩ }

/-! ### Scanout (R340 to R342) -/

/-- The pixels of a region on active line y: from the buffer that its select names, or its FILL (R66, R99). -/
def regionPixels (it : Itinerary) (hd : HeadRec) (h y k : Nat) (r : RegionRec) (s : State) : State × Option (List Nat) :=
  if !it.hasTask s.porter.shownVariant r.task then (s, some (List.replicate r.w (expandPixel hd.bpp r.fill)))
  else
    let stride := (hd.width * hd.bpp + 63) / 64 * 64
    let base := if tblGet false s.regionSel k then hd.fbB else hd.fbA
    match fetchBytes ⟨26, h⟩ (s.get R.TRLH_DDR_MAP_MODE 26) (base + y * stride + r.x * hd.bpp) (r.w * hd.bpp) s with
    | (s1, none) => (s1, none)
    | (s1, some b) => (s1, some ((List.range r.w).map (fun i => expandPixel hd.bpp (leNum ((b.drop (i * hd.bpp)).take hd.bpp)))))

/-- The regions of a head that cross an active line, with their numbers. -/
def regionsAt (it : Itinerary) (h y : Nat) : List (Nat × RegionRec) :=
  ((List.range it.regions.length).zip it.regions).filter (fun p => p.2.head == h && decide (p.2.y ≤ y ∧ y < p.2.y + p.2.h))

/-- The pieces of a line, by their first column; none when a piece cannot be read. -/
def linePieces (it : Itinerary) (hd : HeadRec) (h y : Nat) : List (Nat × RegionRec) → State → State × Option (List (Nat × List Nat))
  | [], s => (s, some [])
  | (k, r) :: t, s =>
    match regionPixels it hd h y k r s with
    | (s1, none) => (s1, none)
    | (s1, some ps) =>
      match linePieces it hd h y t s1 with
      | (s2, none) => (s2, none)
      | (s2, some rest) => (s2, some ((r.x, ps) :: rest))

/-- The pixel of a column among the pieces. -/
def piecePixel (pieces : List (Nat × List Nat)) (x : Nat) : Nat :=
  (pieces.findSome? (fun p => if p.1 ≤ x then p.2[x - p.1]? else none)).getD 0

/-- The next active line of a head fetched and sent on the PIX stream; the line buffer, when full, has let its oldest line pass. -/
def scanoutFetch (h : Nat) (s : State) : State :=
  let x := s.head h
  match s.porter.shown with
  | none => s
  | some it =>
    match it.heads[h]? with
    | none => s
    | some hd =>
      let y := x.nextLine
      let full := decide (2 ≤ x.lines.length)
      let array := match x.scan with
        | some c => c.source == 1 && c.cut.isNone
        | none => decide (0 < x.due)
      let room := !full || x.scan.isSome
      if !s.headOn h || !s.domainOn 9 || !s.linkUp || !hd.enable || hd.height ≤ y || !array || !room then s
      else
        match linePieces it hd h y (regionsAt it h y) s with
        | (s1, none) => s1
        | (s1, some ps) =>
          let s2 := match full, x.scan, x.lines with
            | true, some c, (y0, l0) :: _ => presentLine h y0 (some l0) c s1
            | _, _, _ => s1
          s2.setHead h { s2.head h with
            lines := x.lines.drop (if full then 1 else 0) ++ [(y, (List.range hd.width).map (piecePixel ps))]
            nextLine := y + 1 }

/-- A due pixel of the next line has not arrived (R342). -/
def underrun (h : Nat) (s : State) : State :=
  let x := s.head h
  match x.scan with
  | none => s
  | some c =>
    if c.source ≠ 1 ∨ c.cut.isSome ∨ s.get R.HEAD_VTIME_ACTIVE h ≤ x.nextLine ∨ !s.headOn h then s
    else
      let s1 := ((s.count R.HEAD_UNDERRUNS_COUNT h 1).count R.HEAD_LIMP_FRAMES_COUNT h 1).raise 0x0D h 2
      let s2 := setSource h 2 s1
      s2.setHead h { s2.head h with scan := some { c with cut := some x.nextLine } }

/-! ### The provenance record (R70, R359, R550) -/

/-- The verdict of a frame (Table 03-6). -/
def State.verdict (s : State) (h : Nat) (c : Scan) : Nat :=
  if !c.seen || c.suspended then 3
  else if headTts s.glazRd h = [] then 2
  else if c.mismatch then 1 else 0

/-- The eight words of a record. -/
def recordWords (c : Scan) (info : Option FrameInfo) (verdict : Nat) : List Nat :=
  let array := match c.source, info with
    | 1, some i => some i
    | _, _ => none
  let whole := array.isSome && c.cut.isNone
  let i : FrameInfo := array.getD ⟨false, false, 0, 0, 0, 0, []⟩
  let limp := c.source == 2 || c.cut.isSome
  let surf := fun k => i.surfs.getD k 0xFFFF % 2 ^ 16
  [c.number, if whole then i.picSnap else c.ttSnap, c.ttSnap, if whole then i.itinId else 0,
   i.variant % 256 * 2 ^ 24 + verdict * 2 ^ 20 + i.surfCount % 256 * 2 ^ 8 + bit c.second * 16 + bit limp * 8 + bit i.hold * 4 +
     bit i.debug * 2 + 1,
   surf 1 * 2 ^ 16 + surf 0, surf 3 * 2 ^ 16 + surf 2, surf 5 * 2 ^ 16 + surf 4]

/-- Words written to consecutive registers of a page. -/
def putWords (ty n off : Nat) : List Nat → State → State
  | [], s => s
  | v :: t, s => putWords ty n (off + 4) t (s.setReg ty n off (word v))

/-- Every rectangle of the head has been checked in the scan, or none is to be. -/
def State.scanChecked (s : State) (h : Nat) (c : Scan) : Bool :=
  !c.seen || c.suspended || (headTts s.glazRd h).all (fun t => c.checked.contains t)

/-- The field of TICK_PROV_WP of a head. -/
def provWp (h : Nat) : Field := ⟨0x17, 0x074, 4, 4 * h, 3⟩

/-- The end of the last active line: the record, and what it tells the aggregator and Glazing. -/
def writeRecord (h : Nat) (s : State) : State :=
  let x := s.head h
  match x.scan with
  | none => s
  | some c =>
    if !s.headOn h || !s.scanChecked h c then s
    else
      let ws := recordWords c x.info (s.verdict h c)
      let line := if c.source = 1 ∧ c.cut.isNone then (x.lines.getLast?).map (fun l => l.2) else none
      let s1 := presentLine h (s.get R.HEAD_VTIME_ACTIVE h - 1) line c s
      let s2 := putWords 0x17 0 (0x400 + 0x100 * h + 0x20 * (c.number % 8)) ws s1
      let flags := ws.getD 4 0
      let hold := bitOf flags 2
      let s3 := (s2.put (provWp h) 0 (c.number % 8)).raise 0x0D h 1
      let s4 := if hold || bitOf flags 1 then s3.raise 0x17 0 6 else s3
      let s5 := watchRecord h hold c.second s4
      let s6 := if s.domainOn 4 then s5.put ⟨0x0E, 0x06C, 4, 8 + h, 1⟩ 0 0 else s5
      s6.setHead h { s6.head h with scan := none, lines := [], nextLine := 0 }

/-! ### LUTs, link and side channel (R345, R347, R348) -/

/-- The place of HEAD_LUT_IDX in a copy, if it names a node or an entry. -/
def State.lutPlace (s : State) (h : Nat) : Option Nat :=
  let t := s.get R.HEAD_LUT_IDX_TABLE h
  let k := s.get R.HEAD_LUT_IDX_INDEX h
  if k < (if t = 0 then 4913 else 1024) then some (8192 * t + k) else none

/-- A data access advances the index. -/
def lutAdvance (h : Nat) (s : State) : State := s.put R.HEAD_LUT_IDX_INDEX h (s.get R.HEAD_LUT_IDX_INDEX h + 1)

/-- A read of HEAD_LUT_DATA: a free value where the index names nothing. -/
def lutRead (h : Nat) (s : State) : State × Word :=
  match s.lutPlace h with
  | some k => (lutAdvance h s, word (tblGet 0 (s.head h).lutSpare k))
  | none => let (v, s1) := s.draw; (lutAdvance h s1, word (v % 2 ^ 30))

/-- A write of HEAD_LUT_DATA. -/
def lutWrite (w : WriteReq) (s : State) : Written :=
  let h := w.n
  let x := s.head h
  if x.copying then refuseWrite w rspRefused 0x0102 s
  else
    let v := w.value.toNat % (if s.get R.HEAD_LUT_IDX_TABLE h = 0 then 2 ^ 30 else 2 ^ 12)
    (lutAdvance h (match s.lutPlace h with
      | some k => s.setHead h { x with lutSpare := tblSet 0 x.lutSpare k v }
      | none => s), rspOk)

/-- A write of HEAD_LINK_CTL (R348). -/
def linkCtlWrite (w : WriteReq) (s : State) : Written :=
  let v := w.value.toNat
  let s1 := s.put R.HEAD_LINK_CTL_LOW_POWER w.n (bitsAt v 1 1)
  (if bitOf v 0 then (s1.put R.HEAD_LINK_CTL_TRAIN w.n 1).put R.HEAD_LINK_STAT_STATE w.n 1 else s1, rspOk)

/-- A training that ends. -/
def trainDone (h lanes ms : Nat) (ok : Bool) (s : State) : State :=
  if s.get R.HEAD_LINK_STAT_STATE h ≠ 1 ∨ !s.domainOn 5 then s
  else
    let s1 := (((s.put R.HEAD_LINK_CTL_TRAIN h 0).put R.HEAD_LINK_STAT_STATE h (if ok then 2 else 3)).put R.HEAD_LINK_STAT_LANES_OK h lanes).put
      R.HEAD_LINK_STAT_TRAIN_MS h (min ms 255)
    if ok then s1 else s1.raise 0x0D h 6

/-- An UP eDP link that loses its status. -/
def linkLost (h lanes : Nat) (s : State) : State :=
  if s.get R.HEAD_LINK_STAT_STATE h = 2 ∧ phyKind (s.get R.HEAD_PHY_PRIMARY h) = 1 ∧ s.domainOn 5 then
    ((s.put R.HEAD_LINK_STAT_STATE h 3).put R.HEAD_LINK_STAT_LANES_OK h lanes).raise 0x0D h 6
  else s

/-- A write of HEAD_SIDE_CMD: GO starts a transaction. -/
def sideWrite (w : WriteReq) (s : State) : Written :=
  if s.flag R.HEAD_SIDE_CMD_GO w.n then refuseWrite w rspRefused 0x0103 s
  else
    let v := w.value.toNat / 16 * 16
    (s.setReg 0x0D w.n 0x078 (word (v + (if bitOf v 31 then 1 else s.get R.HEAD_SIDE_CMD_STATUS w.n))), rspOk)

/-- A side-channel transaction ends: the bytes of a read that succeeded lie in HEAD_SIDE_DATA. -/
def sideDone (h status : Nat) (data : List Byte) (s : State) : State :=
  if !s.flag R.HEAD_SIDE_CMD_GO h ∨ !s.domainOn 5 then s
  else
    let n := s.get R.HEAD_SIDE_CMD_LEN_M1 h + 1
    let s1 := if s.flag R.HEAD_SIDE_CMD_READ h ∧ status = 0 then
        (List.range n).foldl (fun s k => s.put ⟨0x0D, 0x07C + 4 * (k / 4), 4, 8 * (k % 4), 8⟩ h (data.getD k 0).toNat) s
      else s
    ((s1.put R.HEAD_SIDE_CMD_GO h 0).put R.HEAD_SIDE_CMD_STATUS h status).raise 0x0D h 8

/-! ### The page -/

/-- The value rules of a HEAD page (R337, R339). -/
def headBad (n off v : Nat) (s : State) : Option Nat :=
  let lo := v % 2 ^ 16
  let hi := v / 2 ^ 16
  let bad := match off with
    | 0x008 => bitOf v 0 && (s.get R.HEAD_HTIME_TOTAL n == 0 || s.get R.HEAD_VTIME_TOTAL n == 0)
    | 0x044 => decide (lo < 64 ∨ 7680 < lo)
    | 0x048 => decide (lo < 8 ∨ hi < 8)
    | 0x04C => decide (lo < 64 ∨ 4320 < lo)
    | 0x050 => decide (lo < 1 ∨ hi < 1)
    | 0x054 => bitsAt v 4 2 == 3 || bitsAt v 0 2 == 0 || bitsAt v 0 2 == 3
    | 0x058 => bitsAt v 8 2 == 3 || decide (4 < bitsAt v 4 3 ∨ 4 < bitsAt v 0 3)
    | 0x05C => decide (bitsAt v 16 10 < 8 ∨ 450 < bitsAt v 16 10 ∨ 3 < bitsAt v 0 3) || !(bitsAt v 4 3 == 1 || bitsAt v 4 3 == 2 || bitsAt v 4 3 == 4)
    | 0x064 => bitsAt v 2 2 == 3
    | 0x068 => decide ((if bitsAt v 14 2 = 0 then 4912 else 1023) < v % 2 ^ 13)
    | _ => false
  if bad then some 0x0101 else none

/-- A head is enabled: its ring is cleared, its frames are counted from 0 (R72, R70). -/
def headEnable (h : Nat) (s : State) : State :=
  let s1 := s.resetPage 0x17 0 (fun off => 0x400 + 0x100 * h ≤ off && decide (off < 0x500 + 0x100 * h))
  s1.setHead h { s1.head h with frames := 0, due := 0, scan := none }

/-- A head is disabled: it has no current frame. -/
def headDisable (h : Nat) (s : State) : State :=
  (s.put R.HEAD_SRC_SOURCE h 0).setHead h { s.head h with due := 0, scan := none }

/-- What follows a write of CTL.ENABLE. -/
def headEnableEdge (h : Nat) (was now : Bool) (s : State) : State :=
  if now && !was then
    let s1 := headEnable h s
    if s1.glazLoading then glazFault 4 s1 else s1
  else if was && !now then headDisable h s
  else s

/-- The registers of a HEAD page with a rule of their own. -/
def headSpecial (w : WriteReq) (s : State) : Option Written :=
  let v := w.value.toNat
  match w.off with
  | 0x064 =>
    let s1 := s.setReg 0x0D w.n 0x064 (word (v % 16))
    some (shadowWrite w 0x100 s1, rspOk)
  | 0x06C => some (lutWrite w s)
  | 0x070 => some (linkCtlWrite w s)
  | 0x078 => some (sideWrite w s)
  | _ => none

/-- A read of a HEAD page's derived registers: HPD and the position are free values, being the level of a ball and a running count. -/
def headRead (n off : Nat) (s : State) : Option (State × Word) :=
  match off with
  | 0x060 => some (s, word (s.pixelClock n))
  | 0x06C => some (lutRead n s)
  | 0x074 => let (v, s1) := s.draw; some (s1, word (setBits (s.getReg 0x0D n 0x074).toNat 2 1 v))
  | 0x094 => let (v, s1) := s.draw; some (s1, word v)
  | _ => none

/-- The head's frame timing stops with its clocks (R339): the frame in progress writes no record. -/
def headStop (h : Nat) (s : State) : State :=
  s.setHead h { s.head h with due := 0, scan := none, lines := [], nextLine := 0 }

/-- SOFT_RESET of a HEAD page. -/
def headReset (h : Nat) (s : State) : State := ({ s with heads := tblErase s.heads h }.resetPage 0x0D h (fun off => off != 0x024)).dropShadows 0x0D h

/-! ### The commands -/

/-- HEAD_FRAME_START (R343). -/
def execHeadFrameStart (head : Nat) (s : State) : Result := need (head < 4) (done (frameStart head s))

/-- SCANOUT_FETCH (R341). -/
def execScanoutFetch (head : Nat) (s : State) : Result := need (head < 4) (done (scanoutFetch head s))

/-- LINE_BUFFER_UNDERRUN (R342). -/
def execLineBufferUnderrun (head : Nat) (s : State) : Result := need (head < 4) (done (underrun head s))

/-- LUT_COPY_DONE (R345). -/
def execLutCopyDone (head : Nat) (s : State) : Result :=
  let x := s.head head
  need (head < 4) (done (if x.copying && s.domainOn 5 then s.setHead head { x with lutSpare := x.lut, copying := false } else s))

/-- HEAD_LINK_TRAIN_DONE (R348). -/
def execHeadLinkTrainDone (head lanes ms : Nat) (ok : Bool) (s : State) : Result := need (head < 4) (done (trainDone head lanes ms ok s))

/-- HEAD_LINK_LOST (R348). -/
def execHeadLinkLost (head lanes : Nat) (s : State) : Result := need (head < 4) (done (linkLost head lanes s))

/-- HPD_IRQ (R348). -/
def execHpdIrq (head : Nat) (s : State) : Result := need (head < 4) (done (if s.domainOn 5 then s.raise 0x0D head 7 else s))

/-- SIDE_TRANSACTION_DONE (R347). -/
def execSideTransactionDone (head status : Nat) (data : List Byte) (s : State) : Result :=
  need (head < 4) (done (sideDone head status data s))

/-- FRAME_INFO of a head arrives (R70). -/
def infoMessage (head : Nat) (i : FrameInfo) (s : State) : State :=
  if s.headOn head then s.setHead head { s.head head with info := some i } else s

/-- PROVENANCE_RECORD_WRITE (R70). -/
def execProvenanceRecordWrite (head : Nat) (s : State) : Result := need (head < 4) (done (writeRecord head s))

end Sys2Proof.Machine
end

