-- ==== Sys2Proof/Machine/Porter.lean ====
section
/-!
DEFINITION. The Porter's admission (R73 to R95, R100): the image parsed, its checks in the order of R86, the result.
-/

namespace Sys2Proof.Machine

def State.setPorter (s : State) (x : Porter) : State := { s with porter := x }

/-! ### The image (Tables 04-1 to 04-10) -/

/-- An image, and the number in n of its bytes from an offset on, the lowest first; past its end bytes are 0. -/
abbrev Img := List Byte
def Img.num (b : Img) (a n : Nat) : Nat := leNum b / 256 ^ a % 256 ^ n

/-- A table of k records of a size at an offset: the offset is a multiple of 8 and the table lies inside the image. -/
def tableFits (b : Img) (ofs k size : Nat) : Bool := ofs % 8 == 0 && decide (ofs + k * size ≤ b.length)

def imgDefs (b : Img) : Nat := min (b.num 0x14 2) 1024
def imgRegions (b : Img) : Nat := min (b.num 0x16 2) 256
def defAt (b : Img) (i : Nat) : Nat := b.num 0x18 4 + 32 * i
def regionAt (b : Img) (i : Nat) : Nat := b.num 0x1C 4 + 16 * i
def variantAt (b : Img) (v : Nat) : Nat := b.num 0x20 4 + 32 * v

/-- The head record at an offset (Table 04-2). -/
def readHead (b : Img) (a : Nat) : HeadRec :=
  ⟨b.num a 1 == 1, b.num (a + 1) 1, b.num (a + 2) 1, b.num (a + 4) 2, b.num (a + 6) 2, b.num (a + 8) 8, b.num (a + 16) 8⟩

/-- The task definition at an offset (Tables 04-3, 04-4). -/
def readDef (b : Img) (a : Nat) : TaskDef :=
  let m := b.num (a + 0x10) 4
  { id := b.num a 2, cls := b.num (a + 2) 1, rank := b.num (a + 3) 1, budget := b.num (a + 4) 4, stream := b.num (a + 8) 4
    depends := b.num (a + 0x0E) 2, pantryAcc := b.num (a + 0x14) 4, banks := b.num (a + 0x18) 8
    macros := (List.range (min (b.num (a + 0x0C) 2) 4096)).map (fun k =>
      ⟨b.num (m + 8 * k) 2, b.num (m + 8 * k + 2) 1, b.num (m + 8 * k + 4) 4⟩) }

/-- The region record at an offset (Table 04-5). -/
def readRegion (b : Img) (a : Nat) : RegionRec :=
  ⟨b.num a 1, b.num (a + 2) 2, b.num (a + 4) 2, b.num (a + 6) 2, b.num (a + 8) 2, b.num (a + 10) 2, b.num (a + 12) 4⟩

/-- The task entry at an offset (Table 04-8). -/
def readEntry (b : Img) (a : Nat) : TaskEntry :=
  let e := b.num a 8
  ⟨bitsAt e 20 3, bitsAt e 16 4, e % 65536⟩

/-- The reservation at an offset (Table 04-10). -/
def readResv (b : Img) (a : Nat) : ResvRec := ⟨b.num a 1, b.num (a + 1) 1, b.num (a + 2) 1, b.num (a + 4) 2, b.num (a + 8) 4⟩

/-- The variant record at an offset (Table 04-7). -/
def readVariant (b : Img) (a : Nat) : VariantRec :=
  let ents := b.num (a + 4) 4
  let resv := b.num (a + 0x0C) 4
  let pan := b.num (a + 0x10) 4
  { sameAs := b.num a 1
    entries := (List.range (min (b.num (a + 2) 2) 1024)).map (fun k => readEntry b (ents + 8 * k))
    resv := if resv = 0 then none else some ((List.range (min (b.num (a + 8) 2) 2048)).map (fun k => readResv b (resv + 16 * k)))
    pantry := if pan = 0 then none else some (((b.drop pan).take 64).map (fun x => x.toNat))
    powerArray := b.num (a + 0x14) 2, powerTotal := b.num (a + 0x16) 2 }

/-- The itinerary that an image gives. -/
def readItinerary (b : Img) : Itinerary :=
  { id := b.num 8 4, period := b.num 0x10 4, bankSel := b.num 0x28 8
    heads := (List.range 4).map (fun h => readHead b (0x40 + 32 * h))
    defs := (List.range (imgDefs b)).map (fun i => readDef b (defAt b i))
    regions := (List.range (imgRegions b)).map (fun i => readRegion b (regionAt b i))
    variants := (List.range 80).map (fun v => readVariant b (variantAt b v)) }

/-! ### FORMAT (R77 to R85) -/

/-- The offsets of fields that break a rule, from pairs of an offset and whether the field obeys. -/
def offends (l : List (Nat × Bool)) : List Nat := (l.filter (fun p => !p.2)).map (fun p => p.1)

def headerFields (b : Img) (len : Nat) : List (Nat × Bool) :=
  [(0x00, b.num 0 4 == 0x4C594954), (0x04, b.num 4 2 == 1), (0x06, b.num 6 2 == 0), (0x08, b.num 8 4 != 0),
   (0x0C, b.num 0x0C 4 == len && len % 16 == 0 && decide (len ≤ 0x80000)),
   (0x14, decide (1 ≤ b.num 0x14 2 ∧ b.num 0x14 2 ≤ 1024)), (0x16, decide (1 ≤ b.num 0x16 2 ∧ b.num 0x16 2 ≤ 256)),
   (0x18, tableFits b (b.num 0x18 4) (imgDefs b) 32), (0x1C, tableFits b (b.num 0x1C 4) (imgRegions b) 16),
   (0x20, tableFits b (b.num 0x20 4) 80 32), (0x24, b.num 0x24 4 == 0), (0x28, decide (b.num 0x28 8 < 2 ^ 40)), (0x30, b.num 0x30 16 == 0)]

/-- An address of a framebuffer: in DDR, 64-byte aligned. -/
def fbOk (a : Nat) : Bool := a % 64 == 0 && decide (a < 0x400000000)

def headFields (b : Img) (a : Nat) : List (Nat × Bool) :=
  [(a, decide (b.num a 1 ≤ 1)), (a + 1, b.num (a + 1) 1 == 1 || b.num (a + 1) 1 == 2),
   (a + 2, b.num (a + 2) 1 == 2 || b.num (a + 2) 1 == 4), (a + 3, b.num (a + 3) 1 == 0), (a + 8, fbOk (b.num (a + 8) 8)),
   (a + 16, fbOk (b.num (a + 16) 8)), (a + 24, b.num (a + 24) 8 == 0)]

/-- A task stands before another in the same gang's order in every variant that contains both (R78). -/
def dependsOk (it : Itinerary) (id dep : Nat) : Bool :=
  it.defs.any (fun d => d.id == dep) && (List.range 80).all (fun v =>
    let es := (it.variant v).entries
    let at_ := fun (t : Nat) => es.findIdx? (fun e => match it.defs[e.defIdx]? with
      | some d => d.id == t
      | none => false)
    match at_ id, at_ dep with
    | some i, some j => match es[i]?, es[j]? with
      | some x, some y => decide (j < i) && x.size == y.size && x.base == y.base
      | _, _ => false
    | _, _ => true)

def defFields (b : Img) (it : Itinerary) (i : Nat) : List (Nat × Bool) :=
  let a := defAt b i
  let d := readDef b a
  let same := (it.defs.take i).find? (fun e => e.id == d.id)
  let m := b.num (a + 0x10) 4
  [(a, decide (1 ≤ d.id ∧ d.id ≤ 0xFFFE)), (a + 2, decide (d.cls ≤ 1) && (match same with
      | some e => e.cls == d.cls
      | none => true)),
   (a + 3, decide (d.rank ≤ 15) && (d.cls != 0 || d.rank == 0) && (match same with
      | some e => e.rank == d.rank
      | none => true)),
   (a + 0x0C, decide (1 ≤ b.num (a + 0x0C) 2 ∧ b.num (a + 0x0C) 2 ≤ 4096)), (a + 0x0E, d.depends == 0xFFFF || dependsOk it d.id d.depends),
   (a + 0x10, tableFits b m d.macros.length 8)] ++
  (List.range d.macros.length).map (fun k => (m + 8 * k + 3, b.num (m + 8 * k + 3) 1 == 0))

def regionFields (b : Img) (i : Nat) : List (Nat × Bool) :=
  let a := regionAt b i
  [(a, decide (b.num a 1 ≤ 3)), (a + 1, b.num (a + 1) 1 == 0), (a + 6, b.num (a + 6) 2 != 0), (a + 8, b.num (a + 8) 2 != 0)]

/-- An owner code of a Pantry table (R85); a reserved code is a FORMAT fault (DESIGN CHOICE, log 26). -/
def codeFields (b : Img) (ofs : Nat) : List (Nat × Bool) :=
  (List.range 64).map (fun k => (ofs + k, ownerCode (b.num (ofs + k) 1)))

/-- A task entry (Table 04-8); its reserved bits and size codes are FORMAT faults (DESIGN CHOICE, log 26). -/
def entryFields (b : Img) (it : Itinerary) (ofs : Nat) (es : List TaskEntry) (k : Nat) : List (Nat × Bool) :=
  let a := ofs + 8 * k
  let e := b.num a 8
  let id := fun (x : TaskEntry) => (it.defs[x.defIdx]?).map (fun d => d.id)
  [(a, decide (e % 65536 < it.defs.length) && !((es.take k).map id).contains (id (readEntry b a))),
   (a + 2, decide (bitsAt e 20 3 ≤ 5) && e / 2 ^ 23 == 0)]

/-- A reservation (Table 04-10); its reserved fields are FORMAT faults (DESIGN CHOICE, log 26). -/
def resvFields (b : Img) (ofs k : Nat) : List (Nat × Bool) :=
  let a := ofs + 16 * k
  [(a, decide (b.num a 1 ≤ 39)), (a + 1, decide (b.num (a + 1) 1 ≤ 127)), (a + 2, decide (b.num (a + 2) 1 ≤ 3)), (a + 3, b.num (a + 3) 1 == 0),
   (a + 6, b.num (a + 6) 2 == 0), (a + 8, b.num (a + 8) 4 != 0), (a + 12, b.num (a + 12) 4 == 0)]

/-- A variant record (R81, Table 04-7). An offset of 0 stands for the table of variant 0, so variant 0 itself must give OFS_PANTRY, and
OFS_RESV while RESV_COUNT is not 0: FORMAT (DESIGN CHOICE, log 28). -/
def variantFields (b : Img) (it : Itinerary) (v : Nat) : List (Nat × Bool) :=
  let a := variantAt b v
  let r := readVariant b a
  if r.sameAs ≠ 0xFF then
    [(a, v != 0 && decide (r.sameAs < 80) && (match it.variants[r.sameAs]? with
      | some x => x.sameAs == 0xFF
      | none => false)), (a + 1, b.num (a + 1) 1 == 0), (a + 2, b.num (a + 2) 2 == 0), (a + 4, b.num (a + 4) 4 == 0), (a + 8, b.num (a + 8) 2 == 0),
     (a + 10, b.num (a + 10) 2 == 0), (a + 12, b.num (a + 12) 4 == 0), (a + 16, b.num (a + 16) 4 == 0), (a + 20, b.num (a + 20) 2 == 0),
     (a + 22, b.num (a + 22) 2 == 0), (a + 24, b.num (a + 24) 8 == 0)]
  else
    let ents := b.num (a + 4) 4
    let rs := b.num (a + 12) 4
    let pan := b.num (a + 16) 4
    let nr := b.num (a + 8) 2
    [(a + 1, b.num (a + 1) 1 == 0), (a + 2, decide (b.num (a + 2) 2 ≤ 1024)), (a + 4, tableFits b ents r.entries.length 8),
     (a + 8, decide (nr ≤ 2048)), (a + 10, b.num (a + 10) 2 == 0),
     (a + 12, if rs = 0 then v != 0 || nr == 0 else tableFits b rs (min nr 2048) 16), (a + 16, if pan = 0 then v != 0 else tableFits b pan 64 1),
     (a + 22, decide (r.powerArray ≤ r.powerTotal)), (a + 24, b.num (a + 24) 8 == 0)] ++
    (List.range r.entries.length).flatMap (entryFields b it ents r.entries) ++
    (if rs = 0 then [] else (List.range (min nr 2048)).flatMap (resvFields b rs)) ++
    (if pan = 0 then [] else codeFields b pan)

/-- The first offending field of an image (R77): the least offset; none when the layout holds. The tables are looked into when the header
places them. -/
def formatFault (b : Img) (len : Nat) : Option Nat :=
  let hdr := offends (headerFields b len)
  let it := readItinerary b
  let heads := (List.range 4).flatMap (fun h => offends (headFields b (0x40 + 32 * h)))
  let tables := if hdr != [] then [] else
    (List.range (imgDefs b)).flatMap (fun i => offends (defFields b it i)) ++
    (List.range (imgRegions b)).flatMap (fun i => offends (regionFields b i)) ++ (List.range 80).flatMap (fun v => offends (variantFields b it v))
  match hdr ++ heads ++ tables with
  | [] => none
  | x :: t => some (t.foldl min x)

/-! ### REGION (R79) -/

/-- Two regions of one head share a pixel. -/
def regionsMeet (a b : RegionRec) : Bool :=
  a.head == b.head && decide (a.x < b.x + b.w ∧ b.x < a.x + a.w ∧ a.y < b.y + b.h ∧ b.y < a.y + a.h)

/-- The regions that break R79 by themselves: outside an enabled head's area, over an earlier region, or with a task that variant 0
has not. -/
def badRegion (it : Itinerary) (k : Nat) (r : RegionRec) : Bool :=
  !it.hasTask 0 r.task || (match it.heads[r.head]? with
    | some hd => hd.enable && (decide (hd.width < r.x + r.w ∨ hd.height < r.y + r.h) || (it.regions.take k).any (fun q => regionsMeet q r))
    | none => false)

/-- The regions of every enabled head cover its area. -/
def covered (it : Itinerary) : Bool :=
  (List.range 4).all (fun h => match it.heads[h]? with
    | some hd => !hd.enable || ((it.regions.filter (fun r => r.head == h)).map (fun r => r.w * r.h)).foldl (· + ·) 0 == hd.width * hd.height
    | none => true)

/-! ### A variant's checks (R82, R87 to R94) -/

/-- A refusal (R95): code, item kind, item (none: the spec names none) and amount. -/
structure Refused where
  code : Nat
  kind : Nat
  item : Option Nat
  amount : Nat
  deriving DecidableEq, Repr

/-- The least of a list. -/
def leastOf : List Nat → Option Nat
  | [] => none
  | x :: t => some (t.foldl min x)

/-- GANG_MAP (R82). -/
def gangMapBad (it : Itinerary) (v : Nat) (g : Nat × Nat) : Bool :=
  let ps := gangPanes g.1 g.2
  g.2 % ps.length != 0 || ps.any (fun p => decide (16 ≤ p) || decide (1 ≤ v ∧ v ≤ 16 ∧ p = v - 1)) ||
  (it.gangs v).any (fun h => h != g && (gangPanes h.1 h.2).any (fun p => ps.contains p))

/-- The tasks of a variant with their gangs, in ascending TASK_ID. -/
def tasksById (it : Itinerary) (v : Nat) : List (TaskDef × List Nat) :=
  let ts := (it.variant v).entries.filterMap (fun e => (it.defs[e.defIdx]?).map (fun d => (d, gangPanes e.size e.base)))
  ts.mergeSort (fun a b => decide (a.1.id ≤ b.1.id))

/-- LARD_VER of a pane (R173). -/
def State.lardVer (s : State) (p : Nat) : List Word := [s.getReg 0x02 p 0x068, s.getReg 0x02 p 0x06C, s.getReg 0x02 p 0x070, s.getReg 0x02 p 0x074]

/-- An op-table entry of a pane. -/
def State.opEntry (s : State) (p op : Nat) : BitVec 64 := if 1024 ≤ op then 0 else tblGet 0 (s.ctl p).opTable op

/-- LARDER (R87): equal versions in the gang, every macro-op listed, no pane in PATCH. -/
def larderOk (s : State) (d : TaskDef) (ps : List Nat) : Bool :=
  match ps with
  | [] => false
  | p :: rest => rest.all (fun q => s.lardVer q == s.lardVer p) && ps.all (fun q => s.pcState q != pcPatch) &&
      d.macros.all (fun m => listed (s.opEntry p m.op) m.width)

/-- The array cycles that a task needs in a variant (R87). -/
def requiredCycles (s : State) (v : Nat) (d : TaskDef) (ps : List Nat) : Nat :=
  let p := ps.headD 0
  let macros := (d.macros.map (fun m => m.count * entryCost (s.opEntry p m.op) m.width)).foldl (· + ·) 0
  let cost := macros + (d.pantryAcc * 8 + 14) / 15 + 16 + (if v = 79 then 8 else 0)
  max cost (if 17 ≤ v ∧ v ≤ 32 ∧ ps.contains (v - 17) then 2 * d.stream else d.stream)

/-- The budgets of a gang. -/
def gangBudget (it : Itinerary) (v : Nat) (g : Nat × Nat) : Nat :=
  (((it.variant v).entries.filter (fun e => e.size == g.1 && e.base == g.2)).map (fun e => match it.defs[e.defIdx]? with
    | some d => d.budget
    | none => 0)).foldl (· + ·) 0

/-- PANTRY (R92). -/
def pantryBad (it : Itinerary) (v b : Nat) : Bool :=
  let o := (it.pantry v).getD b 0x41
  decide (1 ≤ v ∧ v ≤ 16 ∧ o = v - 1) || (tasksById it v).any (fun t => bitOf t.1.banks b && !(decide (o < 16) && t.2.contains o))

/-! Routes and what they are charged with (R83, R89 to R91) -/

/-- The scanout reservation of a head in MB/s (R89). -/
def scanoutBw (it : Itinerary) (hd : HeadRec) : Nat :=
  let n := hd.width * hd.height * hd.bpp * hd.refresh * 25000000 * 4096
  (n + it.period * 1000000 - 1) / (it.period * 1000000)

/-- The reservations that a variant's checks count: the index in the list (none for scanout), the initiator and the destination
trailhead, ROUTES, BW. Scanout from interleaved channels is split evenly; in variants 77 and 78 the surviving channel has it all. -/
structure Flow where
  index : Option Nat
  init : Nat
  dest : Nat
  routes : Nat
  bw : Nat
  deriving DecidableEq, Repr

def variantFlows (it : Itinerary) (v : Nat) : List Flow :=
  let rs := it.resvList v
  let listed := ((List.range rs.length).zip rs).filter (fun p => it.resvIn v p.2)
  let chans := if v = 77 then [25] else if v = 78 then [24] else [24, 25]
  listed.map (fun p => ⟨some p.1, p.2.init, p.2.dest, p.2.routes, p.2.bw⟩) ++
  (it.heads.filter (fun hd => hd.enable)).flatMap (fun hd =>
    chans.map (fun c => ⟨none, 26, c, 0, if chans.length = 1 then scanoutBw it hd else (scanoutBw it hd + 1) / 2⟩))

/-- An entry of a trailhead's table in the bank that BANK_SEL of an itinerary names. -/
def bankRoute (s : State) (it : Itinerary) (t dest : Nat) (alt : Bool) : Option Nat :=
  let e := (tblGet 0 (s.th t).routes (bitsAt it.bankSel t 1 * 256 + bit alt * 128 + dest)).toNat
  if bitOf e 63 then some (e % 2 ^ 48) else none

/-- The stiles that a route enters, with the output it takes at each. -/
def routeHops : Nat → Nat → Nat → List (Nat × Nat)
  | 0, _, _ => []
  | fuel + 1, st, route =>
    let hop := route % 8
    (st, hop) :: (if 4 ≤ hop then [] else match stilNext st hop with
      | some next => routeHops fuel next (route / 8)
      | none => [])

/-- A route of a pair as a variant uses it: the other one in variant 33 + s when this one crosses STIL_s (R91). -/
def usedRoute (s : State) (it : Itinerary) (v t dest : Nat) (alt : Bool) : Option (List (Nat × Nat)) :=
  let hops := fun (a : Bool) => (bankRoute s it t dest a).map (routeHops 16 (injectStile t a))
  let crosses := fun (h : Option (List (Nat × Nat))) => match h with
    | some l => decide (33 ≤ v ∧ v ≤ 76) && l.any (fun x => x.1 == v - 33)
    | none => false
  if crosses (hops alt) then hops (!alt) else hops alt

/-- The request and the response route of a flow. -/
def flowRoutes (s : State) (it : Itinerary) (v : Nat) (f : Flow) : List (Option (List (Nat × Nat))) :=
  [usedRoute s it v f.init f.dest (bitOf f.routes 0), usedRoute s it v (destTrlh f.dest) f.init (bitOf f.routes 1)]

/-- ROUTE_DOWN (R91): a route that is missing, crosses the stile of the variant, or a stile or bridge that is marked DOWN. -/
def routeBad (s : State) (v : Nat) (r : Option (List (Nat × Nat))) : Bool :=
  match r with
  | none => true
  | some l => l.any (fun x => (decide (33 ≤ v ∧ v ≤ 76) && x.1 == v - 33) || s.downMask x.1 || (match portBridge x.1 x.2 with
      | some b => s.downMask (44 + b)
      | none => false))

/-- What a link direction is charged with. -/
def linkLoad (charges : List (List (Nat × Nat) × Nat)) (st port : Nat) : Nat :=
  (charges.map (fun c => if c.1.contains (st, port) then c.2 else 0)).foldl (· + ·) 0

/-- The link directions of the device: of the mesh, of the bridges. -/
def meshLinks : List (Nat × Nat) :=
  ((List.range 44).flatMap (fun st => (List.range 4).map (fun p => (st, p)))).filter
    (fun l => (stilNext l.1 l.2).isSome && (portBridge l.1 l.2).isNone)

/-- The array power of a variant in mW (R93). -/
def arrayPower (s : State) (it : Itinerary) (v : Nat) : Nat :=
  let fj := ((tasksById it v).map (fun t =>
    let p := t.2.headD 0
    (t.1.macros.map (fun m => opEntryEnergy (s.opEntry p m.op))).foldl max 0 * 65536 * t.1.budget * t.2.length)).foldl (· + ·) 0
  let n := fj * 25000000 * 4096
  let d := it.period * 10 ^ 12
  if d = 0 then 0 else (n + d - 1) / d

/-- The checks of one variant, in the order of R86: the first failure. -/
def variantFault (s : State) (it : Itinerary) (v : Nat) : Option Refused :=
  let gangs := it.gangs v
  let tasks := tasksById it v
  let flows := variantFlows it v
  let first := fun (code kind : Nat) (l : List (Nat × Nat)) => (l.head?).map (fun x => (⟨code, kind, some x.1, x.2⟩ : Refused))
  let gangsUp := gangs.mergeSort (fun a b => decide (a.2 ≤ b.2))
  let budget := arrayBudget it.period
  let charges := flows.flatMap (fun f => (flowRoutes s it v f).filterMap (fun r => r.map (fun l => (l, f.bw))))
  let ddr : Nat := ((flows.filter (fun f => f.dest == 24 || f.dest == 25)).map (fun f => if f.index.isSome then f.bw else 0)).foldl (· + ·) 0 +
    ((it.heads.filter (fun hd => hd.enable)).map (scanoutBw it)).foldl (· + ·) 0
  let ddrLimit : Nat := if v = 77 ∨ v = 78 then 25599 else 51198
  let rec_ := it.variant v
  let est := arrayPower s it v
  let present := fun (id : Nat) => it.hasTask v id
  let zero := tasksById it 0
  first 0x05 2 ((gangsUp.filter (gangMapBad it v)).map (fun g => (g.2, 0)))
  <|> first 0x07 1 ((tasks.filter (fun t => !larderOk s t.1 t.2)).map (fun t => (t.1.id, 0)))
  <|> first 0x09 1 ((tasks.filter (fun t => decide (t.1.budget < requiredCycles s v t.1 t.2))).map
        (fun t => (t.1.id, requiredCycles s v t.1 t.2 - t.1.budget)))
  <|> first 0x0A 2 ((gangsUp.filter (fun g => decide (budget < gangBudget it v g))).map (fun g => (g.2, gangBudget it v g - budget)))
  <|> first 0x0B 6 (((List.range 64).filter (pantryBad it v)).map (fun b => (b, 0)))
  <|> ((flows.find? (fun f => (flowRoutes s it v f).any (routeBad s v))).map (fun f => (⟨0x0F, 10, f.index, 0⟩ : Refused)))
  <|> first 0x0C 3 ((meshLinks.filter (fun l => decide (65280 < linkLoad charges l.1 l.2))).map
        (fun l => (l.1 * 8 + l.2, linkLoad charges l.1 l.2 - 65280)))
  <|> first 0x0D 4 (([(0, 32, 2), (0, 37, 0), (1, 33, 2), (1, 38, 0)].filter (fun l => decide (13900 < linkLoad charges l.2.1 l.2.2))).map
        (fun l => (l.1, linkLoad charges l.2.1 l.2.2 - 13900)))
  <|> (if ddrLimit < ddr then some ⟨0x0E, 5, some 0, ddr - ddrLimit⟩ else none)
  <|> (if rec_.powerArray < est then some ⟨0x10, 8, some v, est - rec_.powerArray⟩ else none)
  <|> (if s.get R.PORT_POWER_CAP_CAP_MW 0 < rec_.powerTotal then some ⟨0x11, 8, some v, rec_.powerTotal - s.get R.PORT_POWER_CAP_CAP_MW 0⟩ else none)
  <|> first 0x12 1 ((zero.filter (fun t => t.1.cls == 0 && !present t.1.id)).map (fun t => (t.1.id, 0)))
  <|> first 0x13 1 ((zero.filter (fun t => present t.1.id && zero.any (fun u => !present u.1.id && decide (u.1.rank < t.1.rank)))).map
        (fun t => (t.1.id, 0)))

/-- The first variant that fails, with its refusal. -/
def firstVariantFault (s : State) (it : Itinerary) : Option (Nat × Refused) :=
  (List.range 80).findSome? (fun v => (variantFault s it v).map (fun r => (v, r)))

/-- The checks of R86 after BUSY: the variant that failed and the refusal, or none. `tagOk` is Latch's verdict on the copy. A failure of the
image as a whole shows variant 0 (R80; DESIGN CHOICE, log 27). -/
def admissionFault (s : State) (b : Img) (tagOk : Bool) : Option (Nat × Refused) :=
  let it := readItinerary b
  if !tagOk then some (0, ⟨0x02, 0, some 0, 0⟩)
  else match formatFault b b.length with
  | some ofs => some (0, ⟨0x03, 9, some ofs, 0⟩)
  | none =>
    if !(decide (100000 * 4096 ≤ it.period ∧ it.period ≤ 1041675 * 4096)) then some (0, ⟨0x04, 9, some 0x10, 0⟩)
    else match (List.range 80).find? (fun v => match it.variants[v]? with
        | some r => r.sameAs == 0xFF && r.entries == []
        | none => true) with
    | some v => some (0, ⟨0x08, 8, some v, 0⟩)
    | none =>
      match ((List.range it.regions.length).zip it.regions).find? (fun p => badRegion it p.1 p.2) with
      | some p => some (0, ⟨0x06, 7, some p.1, 0⟩)
      | none => if !covered it then some (0, ⟨0x06, 7, none, 0⟩) else firstVariantFault s it

/-! ### Results and pins (R74, R75, R84, R95) -/

/-- The result registers of an admission (R74); an item that the spec does not name is a free value, and an amount of more than 32 bits reads
as 2^32 − 1 (DESIGN CHOICE, log 25). -/
def putResult (v : Nat) (r : Refused) (id us : Nat) (s : State) : State :=
  let (x, s0) := match r.item with
    | some i => (i, s)
    | none => s.draw
  let s1 := (s0.setReg 0x0B 0 0x044 (word (r.kind * 2 ^ 16 + v * 2 ^ 8 + r.code))).setReg 0x0B 0 0x048 (word x)
  let s2 := (s1.setReg 0x0B 0 0x04C (word (min r.amount (2 ^ 32 - 1)))).setReg 0x0B 0 0x050 (word id)
  let s3 := s2.put R.PORT_ADM_TIME_MICROSECONDS 0 us
  if r.code = 0 then (s3.count R.PORT_COUNTS_ACCEPTED 0 1 |>.raise 0x0B 0 0).raise 0x0B 0 1
  else (s3.count R.PORT_COUNTS_REFUSED 0 1 |>.raise 0x0B 0 0).raise 0x0B 0 2

/-- The route-table entries that an itinerary's reservations use (R84): both routes of each pair, in the bank it names. -/
def pinnedBy (it : Itinerary) (t : Nat) : List Nat :=
  let bank := bitsAt it.bankSel t 1 * 256
  ((List.range 80).flatMap (fun v => (variantFlows it v).flatMap (fun f =>
    (if f.init = t then [bank + f.dest, bank + 128 + f.dest] else []) ++
    (if destTrlh f.dest = t then [bank + f.init, bank + 128 + f.init] else [])))).eraseDups

/-- The pins of the current and the staged itinerary on the route tables. -/
def updatePins (s : State) : State :=
  (List.range 40).foldl (fun s t =>
    s.setTh t { s.th t with pinned := ((s.porter.current.toList ++ s.porter.staged.toList).flatMap (fun it => pinnedBy it t)).eraseDups }) s

/-- An itinerary accepted at a stamp (R75): the staged one, if any, is superseded. -/
def stageItinerary (it : Itinerary) (stamp : Nat) (s : State) : State :=
  let s1 := if s.porter.staged.isSome then s.raise 0x0B 0 3 else s
  let s2 := s1.setPorter { s1.porter with staged := some it, stagedStamp := stamp }
  updatePins (((s2.put R.PORT_STATE_STAGED 0 1).put R.PORT_STATE_WAITING 0 0).setReg 0x0B 0 0x058 (word it.id))

/-- The identifier that PORT_RESULT_ID shows: 0 if the header could not be read. -/
def resultId (b : Img) : Nat := if 0xC0 ≤ b.length ∧ b.num 0 4 = 0x4C594954 then b.num 8 4 else 0

/-- The Porter ends its checks. -/
def admissionDone (stamp us : Nat) (s : State) : State :=
  match s.porter.admitting with
  | none => s
  | some tagOk =>
    let b := s.porter.image
    let s1 := (s.setPorter { s.porter with image := [], admitting := none }).put R.PORT_STATE_CHECK 0 0
    match admissionFault s b tagOk with
    | some (v, r) => putResult v r (resultId b) us s1
    | none => putResult 0 ⟨0, 0, some 0, 0⟩ (resultId b) us (stageItinerary (readItinerary b) stamp s1)

/-- The Porter as it reads images: TRLH_27, INIT 0. -/
def porterInit : Initiator := ⟨27, 0⟩

/-- ADMIT (R73): the image is copied and its CMAC checked; the checks of the chapter end with ADMISSION_COMPLETE. An address that is not
aligned to 16 bytes and an image that cannot be read end in AUTH, and of a LENGTH above 0x80010 only 0x80010 bytes are copied, so that it
ends in AUTH too (DESIGN CHOICE, log 23). -/
def startAdmission (addr len slot : Nat) (tag : List Byte) (s : State) : State :=
  let r := fetchBytes porterInit (s.get R.TRLH_DDR_MAP_MODE 27) addr (min len 0x80010) s
  let b := r.2.getD []
  let use := if slot < 32 then r.1.slotUse slot 6 else false
  let ok := r.2.isSome && use && addr % 16 == 0 && (cmacBytes (r.1.imgKey slot) b).take 8 == tag
  (r.1.setPorter { r.1.porter with image := b, admitting := some ok }).put R.PORT_STATE_CHECK 0 2

/-- ADMIT at the Porter: BUSY while an admission is in progress; its RESULT is a free value, since PORT has no error code for it.
PORT_RESULT_ID reads 0 after it and PORT_ADM_TIME keeps its value (DESIGN CHOICE, log 24). -/
def actAdmit (c : CritCmd) (s : State) : Acted :=
  if !s.domainOn 9 ∨ !s.linkUp then refusedWith (if s.linkUp then rspClosed else rspUnreachable) s
  else if s.porter.admitting.isSome then
    let s1 := putResult 0 ⟨0x01, 0, some 0, 0⟩ 0 (s.get R.PORT_ADM_TIME_MICROSECONDS 0) s
    let (v, s2) := s1.draw
    refusedWith (v % 65536) s2
  else accepted (startAdmission (argNum c.args 0 8) (argNum c.args 8 4) (argNum c.args 12 1) ((c.args.drop 16).take 8) s)

/-- The largest POWER_TOTAL of the current and the staged itinerary (R100). -/
def State.powerFloor (s : State) : Nat :=
  ((s.porter.current.toList ++ s.porter.staged.toList).flatMap (fun it => (List.range 80).map (fun v => (it.variant v).powerTotal))).foldl max 0

/-- The PORT page's value rules (R100, R502). -/
def portBad (off v : Nat) (s : State) : Option Nat :=
  if off = 0x060 then
    (if v % 65536 < 8000 ∨ 40000 < v % 65536 ∨ v % 65536 < s.powerFloor then some 0x0101 else none)
  else if off = 0x088 ∧ 0x91 < v % 256 then some 0x0102
  else none

/-- SOFT_RESET of the PORT page (R101). -/
def portReset (s : State) : State :=
  ((s.setPorter { s.porter with image := [], admitting := none }).resetPage 0x0B 0 (fun off =>
    (0x010 ≤ off && decide (off < 0x024)) || (0x044 ≤ off && decide (off < 0x054)) || off == 0x068 || off == 0x06C)).put
    R.PORT_STATE_CHECK 0 0 |>.dropShadows 0x0B 0

/-- ADMISSION_COMPLETE (R74). -/
def execAdmissionComplete (stamp us : Nat) (s : State) : Result := done (if s.domainOn 9 then admissionDone stamp us s else s)

end Sys2Proof.Machine
end

