-- ==== Sys2Proof/Machine/Larder.lean ====
section
/-!
DEFINITION. Larder patches (R170 to R173): the command's conditions, the payload's layout, the load, the check of what was written.
-/

namespace Sys2Proof.Machine

/-- A field of a payload (Table 07-12). -/
def payNum (p : List Byte) (a n : Nat) : Nat := leNum ((p.drop a).take n)

/-- The first microword and the first OP of a region, and how many of each it has (Table 07-9). -/
def regionWords (r : Nat) : Nat × Nat := if r = 0 then (0x001, 2559) else (0xA00, 1536)
def regionOps (r : Nat) : Nat := 512 * r

/-- An op entry that a region may hold: not listed, or an ENTRY in the region and an ENERGY of 1 to 42. -/
def opEntryOk (r : Nat) (e : BitVec 64) : Bool :=
  opEntryAddr e == 0 ||
  (decide ((regionWords r).1 ≤ opEntryAddr e ∧ opEntryAddr e < (regionWords r).1 + (regionWords r).2) &&
    decide (1 ≤ opEntryEnergy e ∧ opEntryEnergy e ≤ 42))

/-- The microwords and op entries of a payload. -/
def payWords (p : List Byte) : List Word := (List.range (payNum p 0x06 2)).map (fun k => word (payNum p (0x10 + 4 * k) 4))
def payOps (p : List Byte) : List (BitVec 64) :=
  (List.range (payNum p 0x0C 2)).map (fun k => BitVec.ofNat 64 (payNum p (0x10 + 4 * payNum p 0x06 2 + 8 * k) 8))

/-- The version that a payload names: MAJOR, MINOR, PATCH as PCTL_LARD_VER shows them. -/
def payVersion (p : List Byte) : Nat := payNum p 1 1 * 2 ^ 24 + payNum p 2 1 * 2 ^ 16 + payNum p 4 2

/-- The layout of a payload, for a pane whose base version is given (R170). -/
def payloadOk (p : List Byte) (base : Nat) : Bool :=
  let r := payNum p 0 1
  decide (r ≤ 1) && payNum p 3 1 == 0 && payNum p 0x0E 2 == 0 && decide (payNum p 0x06 2 ≤ (regionWords r).2) &&
  decide (payNum p 0x0C 2 ≤ 512) && p.length == 16 + 4 * payNum p 0x06 2 + 8 * payNum p 0x0C 2 &&
  (payOps p).all (opEntryOk r) && payNum p 8 4 == (if r = 0 then 0 else base)

/-- A table's region replaced by a list from its first place on. -/
def putRegion {α : Type} [DecidableEq α] (d : α) (t : Tbl α) (first n : Nat) (xs : List α) : Tbl α :=
  ((List.range xs.length).zip xs).foldl (fun t p => tblSet d t (first + p.1) p.2) (tblDrop t first (first + n))

/-- A region of a pane written: microwords and op entries; what is not supplied is 0. -/
def writeRegion (p r : Nat) (ws : List Word) (ops : List (BitVec 64)) (s : State) : State :=
  let c := s.ctl p
  s.setCtl p { c with
    larder := putRegion 0 c.larder (regionWords r).1 (regionWords r).2 ws
    opTable := putRegion 0 c.opTable (regionOps r) 512 ops }

/-- Version and tag of a region as the page shows them. -/
def putVersion (p r ver tag : Nat) (s : State) : State :=
  (s.setReg 0x02 p (0x068 + 8 * r) (word ver)).setReg 0x02 p (0x06C + 8 * r) (word tag)

/-- A pane starts to load a patch (R172 steps 1 and 2). -/
def patchPane (box : List Byte) (key p : Nat) (s : State) : State :=
  let pay := contPayload box
  let r := payNum pay 0 1
  let old := (s.getReg 0x02 p 0x068).toNat
  let s1 := writeRegion p r (payWords pay) (payOps pay) (putVersion p r 0 0 s)
  let s2 := (s1.setCtl p { s1.ctl p with patch := some (box, key, old) }).put R.PCTL_STATE_STATE p pcPatch
  (((s2.put R.PCTL_PATCH_STAT_BYTES p (pay.length / 4)).put R.PCTL_PATCH_STAT_REGION p r).put R.PCTL_PATCH_STAT_FAIL p 0).put
    R.PCTL_PATCH_STAT_BUSY p 1

/-- A refusal of a patch: the code is latched in the page of each pane concerned (R171). -/
def refusePatch (code : Nat) (panes : List Nat) (s : State) : Acted :=
  refusedWith code (panes.foldl (fun s p => s.err 0x02 p 0 code) s)

/-- LARDER_PATCH (R170, R171). -/
def actLarderPatch (c : CritCmd) (s : State) : Acted :=
  let mask := argNum c.args 8 2
  let key := argNum c.args 10 1
  let panes := (List.range 16).filter (fun p => bitOf mask p)
  if !s.linkUp then refusedWith rspUnreachable s
  else if panes.any (fun p => !s.domainUp (14 + p)) then refusedWith rspClosed s
  else if s.porter.admitting.isSome ∨ (List.range 16).any (fun p => (s.ctl p).patch.isSome) then refusePatch 0x0103 panes s
  else if panes.any (fun p => s.pcState p != pcStandby) then refusePatch 0x0101 (panes.filter (fun p => s.pcState p != pcStandby)) s
  else if panes.any s.panePinned then refusePatch 0x0102 (panes.filter s.panePinned) s
  else
    match panes with
    | [] => accepted s
    | p :: _ =>
      let r := fetchContainer ⟨p, 9⟩ (s.get R.TRLH_DDR_MAP_MODE p) (argNum c.args 0 8) s
      match r with
      | (s1, none) => refusePatch 0x0105 panes s1
      | (s1, some box) =>
        if panes.all (fun q => payloadOk (contPayload box) (s1.getReg 0x02 q 0x068).toNat) then
          accepted (panes.foldl (fun s q => patchPane box key q s) s1)
        else refusePatch 0x0105 (panes.filter (fun q => !payloadOk (contPayload box) (s1.getReg 0x02 q 0x068).toNat)) s1

/-- The container as a pane's region reads back (R172 step 3). -/
def readBack (s : State) (p : Nat) (box : List Byte) : List Byte :=
  let pay := contPayload box
  let r := payNum pay 0 1
  let c := s.ctl p
  let ws := (List.range (payNum pay 0x06 2)).flatMap (fun k => leBytes 4 (tblGet 0 c.larder ((regionWords r).1 + k)).toNat)
  let ops := (List.range (payNum pay 0x0C 2)).flatMap (fun k => leBytes 8 (tblGet 0 c.opTable (regionOps r + k)).toNat)
  box.take 32 ++ pay.take 16 ++ ws ++ ops ++ contTag box

/-- A pane's patch ends (R172 steps 3 to 5). -/
def patchDone (p : Nat) (s : State) : State :=
  match (s.ctl p).patch with
  | none => s
  | some (box, key, old) =>
    let pay := contPayload box
    let r := payNum pay 0 1
    let step := if r = 0 ∧ key ≠ 0xFF then 3 else contCheck (fun k => k == 1) key (r == 0) (readBack s p box) s
    let s1 := imgResult 1 step ((s.setCtl p { s.ctl p with patch := none }).put R.PCTL_STATE_STATE p pcStandby)
    let s2 := s1.put R.PCTL_PATCH_STAT_BUSY p 0
    if step = 0 then
      let s3 := putVersion p r (payVersion pay) (leNum ((contTag box).take 4)) s2
      let s4 := if r = 0 ∧ payVersion pay ≠ old then putVersion p 1 0 0 (writeRegion p 1 [] [] s3) else s3
      s4.raise 0x02 p R.PCTL_EVT_PATCH_DONE.lo
    else
      (((writeRegion p r [] [] s2).put R.PCTL_PATCH_STAT_FAIL p 1).raise 0x02 p R.PCTL_EVT_PATCH_FAIL.lo).err 0x02 p 0 0x0104

/-- LARDER_PATCH_DONE (R172). -/
def execLarderPatchDone (p : Nat) (s : State) : Result := need (p < 16) (done (patchDone p s))

end Sys2Proof.Machine
end

