-- ==== Sys2Proof/Machine/Cameras.lean ====
section
/-!
DEFINITION. Camera receivers and the camera writer (R368 to R376, R385): frames, discards, buffers in DDR, frame synchronisation.
-/

namespace Sys2Proof.Machine

def State.cam (s : State) (c : Nat) : Camera := tblGet Camera.idle s.cams c
def State.setCam (s : State) (c : Nat) (x : Camera) : State := { s with cams := tblSet Camera.idle s.cams c x }

/-! ### Writes to DDR by the camera writers and the Transom (R372, R380) -/

/-- Bytes within one 64-byte block written to DDR over the Footpath (R10, R308, R321): the response. -/
def storeBlock (i : Initiator) (mode a : Nat) (b : List Byte) (s : State) : State × Nat :=
  let tg := targetOf s mode a
  match directRequest i tg ⟨true, a, (2 ^ b.length - 1) * 2 ^ (a % 64), b, 1, false, false, false⟩ s with
  | (s1, some code) => (s1, code)
  | (s1, none) =>
    match tg with
    | .ddr ch x =>
      if s1.fenced tg then (s1, rspFenced)
      else if !s1.domainUp 11 then (s1, rspClosed)
      else
        let r := ddrRequest ch ⟨x, b.length, 2 ^ b.length - 1, some b, none⟩ s1
        (r.1, (r.2.map (fun a => a.code)).getD rspOk)
    | _ => (s1, rspRefused)

/-- Bytes written from an address on, block by block (the fuel is the number of blocks): the first response that is not RSP_OK. -/
def storeFrom (i : Initiator) (mode : Nat) : Nat → Nat → List Byte → State → State × Nat
  | 0, _, _, s => (s, rspOk)
  | fuel + 1, a, b, s =>
    if b = [] then (s, rspOk)
    else
      let k := 64 - a % 64
      let r := storeBlock i mode a (b.take k) s
      let r2 := storeFrom i mode fuel (a + k) (b.drop k) r.1
      (r2.1, if r.2 = rspOk then r2.2 else r.2)

/-- Bytes written by an initiator of a trailhead. -/
def storeBytes (i : Initiator) (a : Nat) (b : List Byte) (s : State) : State × Nat :=
  storeFrom i (s.get R.TRLH_DDR_MAP_MODE i.src) (b.length / 64 + 2) a b s

/-! ### The writer (R372 to R375) -/

def Camera.buf (x : Camera) (k : Nat) : CamBuf := tblGet ⟨0, 0, 0⟩ x.bufs k
def Camera.setBuf (x : Camera) (k : Nat) (b : CamBuf) : Camera := { x with bufs := tblSet ⟨0, 0, 0⟩ x.bufs k b }
/-- A count of the writer raised: STARTED 0, CURRENT 1, SUPERSEDED 2, NOBUF 3, WERR 4, CUT 5. -/
def Camera.tally (x : Camera) (k : Nat) : Camera := { x with counts := tblSet 0 x.counts k ((tblGet 0 x.counts k + 1) % 2 ^ 32) }
/-- The buffer being written. -/
def Camera.writing (x : Camera) : Option Nat := (List.range 4).find? (fun k => (x.buf k).st == 1)

/-- The writer's counts shown in the CAMI page while the Lintel is up (R374). -/
def showCounts (c : Nat) (s : State) : State :=
  if s.linkUp && s.domainUp 6 then
    (List.range 6).foldl (fun s k => s.setReg 0x0F c (0x080 + 4 * k) (word (tblGet 0 (s.cam c).counts k))) s
  else s

/-- A camera's writer changed. -/
def setWriter (c : Nat) (x : Camera) (s : State) : State := showCounts c (s.setCam c x)

/-- The frame being written ends without being complete: WERR or CUT; its buffer is FREE. -/
def Camera.endFrame (x : Camera) (count : Nat) : Camera :=
  match x.writing with
  | none => x
  | some k => { (x.setBuf k ⟨0, 0, 0⟩).tally count with lines := 0 }

/-- A frame start reaches the writer (R372). -/
def writerStart (c fnum : Nat) (s : State) : State :=
  let x := ((s.cam c).endFrame 5).tally 0
  let free := (List.range 4).find? (fun k => (x.buf k).st == 0 && s.flag (R.LNTL_CAM_BUF_VALID c k) 0)
  setWriter c (match free with
    | some k => { x.setBuf k ⟨1, fnum, 0⟩ with lines := 0 }
    | none => x.tally 3) s

/-- A line reaches the writer. -/
def writerLine (c y : Nat) (data : List Byte) (s : State) : State :=
  let x := s.cam c
  match x.writing with
  | none => s
  | some k =>
    let a := s.get (R.LNTL_CAM_BUF_ADDR c k) 0 * 4096 + y * (s.get (R.LNTL_CAM_FMT_STRIDE_64 c) 0 * 64)
    let r := storeBytes ⟨26, 4 + c⟩ a data s
    if r.2 = rspOk then r.1.setCam c { x with lines := x.lines + 1 } else setWriter c (x.endFrame 4) r.1

/-- Lines at the front of a PIX stream reach the writer, up to the next frame start. -/
def drainPix (c : Nat) : List PixItem → State → State × List PixItem
  | .line y d :: t, s => drainPix c t (writerLine c y d s)
  | l, s => (s, l)

/-- What is sent on a camera's PIX stream: a line goes to the writer at once when nothing waits before it. -/
def sendPix (c : Nat) (i : PixItem) (s : State) : State :=
  let x := s.cam c
  let r := drainPix c (x.pix ++ [i]) (s.setCam c { x with pix := [] })
  r.1.setCam c { r.1.cam c with pix := r.2 }

/-- The next frame start on the stream reaches the writer, and the lines behind it. -/
def writerTake (c : Nat) (s : State) : State :=
  match (s.cam c).pix with
  | .start f :: t =>
    let r := drainPix c t (writerStart c f (s.setCam c { s.cam c with pix := [] }))
    r.1.setCam c { r.1.cam c with pix := r.2 }
  | _ => s

/-- The writer's frame is complete: its last write is acknowledged at the stamp (R372). -/
def frameComplete (c stamp : Nat) (s : State) : State :=
  let x := s.cam c
  match x.writing with
  | none => s
  | some k =>
    if x.lines ≠ s.get (R.LNTL_CAM_FMT_HEIGHT c) 0 then s
    else
      let cut := s.arrayCutoffStamp
      let same := fun (b : CamBuf) => b.st == 2 && decide (b.stamp < cut) == decide (stamp < cut)
      let y := (List.range 4).foldl (fun (y : Camera) j => if same (y.buf j) then (y.setBuf j ⟨0, 0, 0⟩).tally 2 else y) x
      setWriter c { y.setBuf k ⟨2, (x.buf k).fnum, stamp⟩ with lines := 0 } s

/-- LNTL_CAM_CUR of a camera (R372, R375). -/
def showCurrent (c : Nat) (s : State) : State :=
  let x := s.cam c
  let cur := (List.range 4).find? (fun k => (x.buf k).st == 3)
  s.setReg 0x0A 0 (0x214 + 0x20 * c) (match cur with
    | some k => word (2 ^ 31 + k * 2 ^ 24 + (x.buf k).fnum % 2 ^ 16)
    | none => 0)

/-- A buffer whose VALID becomes 0 or whose address changes loses its frame (R375). -/
def loseBuffer (x : Camera) (k : Nat) : Camera :=
  match (x.buf k).st with
  | 1 => x.endFrame 5
  | 2 => (x.setBuf k ⟨0, 0, 0⟩).tally 2
  | 3 => x.setBuf k ⟨0, 0, 0⟩
  | _ => x

/-- The frame PENDING for the snapshot being committed becomes CURRENT; the old one's buffer is FREE (R372). Of several the one with the latest
stamp does, and the others are superseded (R549, R58). -/
def Camera.advance (x : Camera) (cut : Nat) : Camera :=
  let mine := (List.range 4).filter (fun k => (x.buf k).st == 2 && decide ((x.buf k).stamp < cut))
  match mine.find? (fun k => mine.all (fun j => decide ((x.buf j).stamp ≤ (x.buf k).stamp))) with
  | none => x
  | some k =>
    let y := (List.range 4).foldl (fun (y : Camera) j =>
      if (y.buf j).st = 3 then y.setBuf j ⟨0, 0, 0⟩
      else if j ≠ k ∧ mine.contains j then (y.setBuf j ⟨0, 0, 0⟩).tally 2 else y) x
    (y.setBuf k { x.buf k with st := 3 }).tally 1

/-- The cameras' part of an array-side edge: the buffers as they stood before the TB fields were applied are in `old`. -/
def cameraEdge (cut : Nat) (old : State) (s : State) : State :=
  (List.range 4).foldl (fun s c =>
    let x := (s.cam c).advance cut
    let y := (List.range 4).foldl (fun (y : Camera) k =>
      if !s.flag (R.LNTL_CAM_BUF_VALID c k) 0 || s.get (R.LNTL_CAM_BUF_ADDR c k) 0 != old.get (R.LNTL_CAM_BUF_ADDR c k) 0 then loseBuffer y k
      else y) x
    showCurrent c (setWriter c y s)) s

/-- The Lintel is lost: what was on the PIX streams is gone, the frames being written are CUT (R372). -/
def writerLinkLost (s : State) : State :=
  (List.range 4).foldl (fun s c => setWriter c { (s.cam c).endFrame 5 with pix := [] } s) s

/-! ### The receiver (R368 to R371) -/

/-- Bytes of one stored pixel (Table 15-2). -/
def pixelBytes (dt v : Nat) : List Byte :=
  let wide := fun (c : Nat) => c * 4 + c / 64
  match dt with
  | 0x2B => leBytes 2 (v % 2 ^ 10)
  | 0x2C => leBytes 2 (v % 2 ^ 12)
  | 0x24 => leBytes 4 (wide (bitsAt v 16 8) * 2 ^ 20 + wide (bitsAt v 8 8) * 2 ^ 10 + wide (bitsAt v 0 8))
  | _ => leBytes 2 (v % 2 ^ 16)

def State.camOn (s : State) (c : Nat) : Bool := s.domainOn 6 && s.flag (R.HDR_CTL_ENABLE.on 0x0F) c

/-- The receiver's frame replaced; CAMI_STAT follows. -/
def setCamFrame (c : Nat) (f : Option CamFrame) (s : State) : State :=
  let s1 := s.setCam c { s.cam c with frame := f }
  (s1.put R.CAMI_STAT_IN_FRAME c (bit f.isSome)).put R.CAMI_STAT_LINE c ((f.map (fun x => x.lines)).getD 0)

/-- A header that was corrected. -/
def correctedHeader (c : Nat) (yes : Bool) (s : State) : State :=
  if yes then (s.countWrap R.CAMI_ECC_CORR_COUNT c 1).raise 0x0F c 0 else s

/-- A frame discarded, under the first reason that applies (Table 15-3). -/
def camDiscard (c : Nat) (disabled : Bool) (f : CamFrame) (s : State) : State :=
  let field := if disabled then R.CAMI_DISC_DISABLED_COUNT else if f.link then R.CAMI_DISC_LINK_COUNT else if f.hdr then R.CAMI_DISC_HDR_COUNT
    else if f.crc then R.CAMI_DISC_CRC_COUNT else R.CAMI_DISC_SIZE_COUNT
  setCamFrame c none ((s.countWrap field c 1).raise 0x0F c 4)

/-- A frame-start packet of the configured virtual channel (R370). -/
def camStart (c fnum : Nat) (s : State) : State :=
  let s1 := match (s.cam c).frame with
    | some f => camDiscard c false { f with size := true } s
    | none => s
  let s2 := s1.setCam c { s1.cam c with cfg := (s1.getReg 0x0F c 0x040).toNat }
  let s3 := ((setCamFrame c (some ⟨0, none, !s.linkUp, false, false, false⟩) s2).countWrap R.CAMI_RECEIVED_COUNT c 1).raise 0x0F c 2
  let s4 := s3.put R.CAMI_STAT_FNUM c fnum
  if s.linkUp then sendPix c (.start (fnum % 2 ^ 16)) s4 else s4

/-- A long packet of the configured channel and data type: a line sent once its CRC has passed, the last one held back. -/
def camLine (c dt : Nat) (pixels : List Nat) (bad crcOk storeFull : Bool) (s : State) : State :=
  match (s.cam c).frame with
  | none => s
  | some f =>
    let height := s.get R.CAMI_SIZE_HEIGHT c
    let long := pixels.length != s.get R.CAMI_SIZE_WIDTH c || decide (height ≤ f.lines)
    let g : CamFrame := { f with lines := f.lines + 1, hdr := f.hdr || bad, crc := f.crc || !crcOk, size := f.size || long, link := f.link || !s.linkUp }
    let data := pixels.flatMap (pixelBytes dt)
    let ok := !bad && crcOk && !long && s.linkUp
    if ok && f.lines + 1 == height then setCamFrame c (some { g with last := some data }) s
    else
      let s1 := setCamFrame c (some g) s
      if !ok then s1
      else if storeFull then setWriter c ((s1.cam c).endFrame 4) s1
      else sendPix c (.line f.lines data) s1

/-- A frame-end packet: a good frame's last line is sent, any other frame is discarded. -/
def camEnd (c : Nat) (s : State) : State :=
  match (s.cam c).frame with
  | none => s
  | some f =>
    let height := s.get R.CAMI_SIZE_HEIGHT c
    let g := { f with link := f.link || !s.linkUp, size := f.size || f.lines != height }
    match g.last with
    | some d =>
      if g.link || g.hdr || g.crc || g.size then camDiscard c false g s
      else sendPix c (.line (height - 1) d) ((setCamFrame c none (s.countWrap R.CAMI_SENT_COUNT c 1)).raise 0x0F c 3)
    | none => camDiscard c false { g with size := true } s

/-- ENABLE written 0, or PD_CAMIN leaving ON, during a frame. -/
def camDisable (c : Nat) (s : State) : State :=
  match (s.cam c).frame with
  | some f => camDiscard c true f s
  | none => s

/-- The Lintel goes down in the frames in progress. -/
def camLinkLost (s : State) : State :=
  (List.range 4).foldl (fun s c => match (s.cam c).frame with
    | some f => s.setCam c { s.cam c with frame := some { f with link := true } }
    | none => s) s

/-! ### Frame synchronisation (R376) -/

/-- FSYNC_c at its inactive level. -/
def fsyncOff (c : Nat) (s : State) : State := { s with pins := { s.pins with fsync := tblSet false s.pins.fsync c false } }

/-- The pulses that a tick edge makes due, with the values applied at its commit. -/
def fsyncCommit (s : State) : State :=
  (List.range 4).foldl (fun s c =>
    let en := s.flag R.CAMI_FSYNC_CFG_EN c && s.domainOn 6
    let due := en && s.edges % (s.get R.CAMI_FSYNC_CFG_DIV_M1 c + 1) == 0 && decide (s.get R.CAMI_FSYNC_OFS_OFS c < s.tick.len)
    let s1 := s.setCam c { s.cam c with pulseDue := due }
    if en then s1 else fsyncOff c s1) s

/-- A due pulse starts. -/
def fsyncStart (c : Nat) (s : State) : State :=
  let x := s.cam c
  if x.pulseDue && s.domainOn 6 then
    ({ s.setCam c { x with pulseDue := false } with pins := { s.pins with fsync := tblSet false s.pins.fsync c true } }).raise 0x0F c 1
  else s

/-! ### The page (R548, R385) -/

/-- The value rules of a CAMI page (Table 15-1, R376): 0x0101 CFG_RANGE. -/
def camiBad (off v : Nat) : Option Nat :=
  let bad := match off with
    | 0x040 => decide (bitsAt v 16 8 < 8 ∨ 250 < bitsAt v 16 8 ∨ bitsAt v 10 2 = 0) || !([0x1E, 0x2B, 0x2C, 0x24].contains (v % 64))
    | 0x044 => decide (v / 2 ^ 16 < 64 ∨ 3072 < v / 2 ^ 16 ∨ v % 2 ^ 16 < 64 ∨ 4096 < v % 2 ^ 16)
    | 0x048 => decide (1041674 < v % 2 ^ 20)
    | 0x04C => v % 2 ^ 16 == 0
    | _ => false
  if bad then some 0x0101 else none

/-- A read of a CAMI page's derived registers: HS, the level of the lanes, is a free value. -/
def camiRead (n off : Nat) (s : State) : Option (State × Word) :=
  if off = 0x050 then let (v, s1) := s.draw; some (s1, word (setBits (s.getReg 0x0F n 0x050).toNat 0 1 v)) else none

/-- SOFT_RESET of a CAMI page (R385): TB registers stay; the frame in progress is gone with the counters. -/
def camiReset (c : Nat) (s : State) : State :=
  let s1 := s.setCam c { s.cam c with frame := none, cfg := 0x80C1E }
  showCounts c ((s1.resetPage 0x0F c (fun off => !(off == 0x024 || off == 0x048 || off == 0x04C))).dropShadows 0x0F c)

/-! ### The commands -/

/-- CSI_FRAME_START (R370, R368): another virtual channel's packet is ignored. -/
def execCsiFrameStart (cam vc fnum : Nat) (corrected : Bool) (s : State) : Result :=
  need (cam < 4) (done (if !s.camOn cam then s
    else
      let s1 := correctedHeader cam corrected s
      if vc = s.get R.CAMI_RX_CFG_VC cam then camStart cam fnum s1 else s1.countWrap R.CAMI_IGNORED_COUNT cam 1))

/-- CSI_LINE (R370). -/
def execCsiLine (cam vc dt : Nat) (pixels : List Nat) (hdr : Nat) (crcOk storeFull : Bool) (s : State) : Result :=
  let cfg := (s.cam cam).cfg
  need (cam < 4) (done (if !s.camOn cam then s
    else
      let s1 := correctedHeader cam (hdr == 1) s
      if hdr = 2 ∨ (vc = bitsAt cfg 12 4 ∧ dt = cfg % 64) then camLine cam dt pixels (hdr == 2) crcOk storeFull s1
      else s1.countWrap R.CAMI_IGNORED_COUNT cam 1))

/-- CSI_FRAME_END (R370). -/
def execCsiFrameEnd (cam vc : Nat) (corrected : Bool) (s : State) : Result :=
  need (cam < 4) (done (if !s.camOn cam then s
    else
      let s1 := correctedHeader cam corrected s
      if vc = bitsAt (s.cam cam).cfg 12 4 then camEnd cam s1 else s1.countWrap R.CAMI_IGNORED_COUNT cam 1))

/-- CSI_OTHER_PACKET (R368). -/
def execCsiOtherPacket (cam : Nat) (corrected : Bool) (s : State) : Result :=
  need (cam < 4) (done (if s.camOn cam then (correctedHeader cam corrected s).countWrap R.CAMI_IGNORED_COUNT cam 1 else s))

/-- CAMERA_WRITER_FRAME_START (R372). -/
def execCameraWriterFrameStart (cam : Nat) (s : State) : Result :=
  need (cam < 4) (done (if s.linkUp && s.domainOn 9 then writerTake cam s else s))

/-- CAMERA_FRAME_COMPLETE (R372). -/
def execCameraFrameComplete (cam stamp : Nat) (s : State) : Result :=
  need (cam < 4) (done (if s.domainOn 9 then frameComplete cam stamp s else s))

/-- FSYNC_PULSE_START (R376). -/
def execFsyncPulseStart (cam : Nat) (s : State) : Result := need (cam < 4) (done (fsyncStart cam s))

/-- FSYNC_PULSE_END (R376). -/
def execFsyncPulseEnd (cam : Nat) (s : State) : Result := need (cam < 4) (done (fsyncOff cam s))

end Sys2Proof.Machine
end

