-- ==== Sys2Proof/Machine/Lintel.lean ====
section
/-!
DEFINITION. The Lintel (R13 to R20, R55, R71): frames, their slots and their CRC, replay, loss and training of the link, the bridges, the
messages of the tick.
-/

namespace Sys2Proof.Machine

/-- The states of LNTL_LINK_STAT. -/
abbrev lnkDown : Nat := 0
abbrev lnkTraining : Nat := 1
abbrev lnkUp : Nat := 2

/-! ### Loss of the link (R18, R20) -/

/-- The flits that a bridge end holds for sending across are discarded with their credits, and the rest of their worms as it
arrives (R20): a worm in progress there is a worm to discard from now on. -/
def dropHeld (stile port : Nat) (s : State) : State :=
  let x := s.stile stile
  s.setStile stile { x with
    wormOut := (List.range 24).foldl (fun w k => if tblGet 0 x.wormOut k = port + 1 then tblSet 0 w k 9 else w) x.wormOut
    holder := (List.range 4).foldl (fun h vc => tblSet 0 h (port * 4 + vc) 0) x.holder
    cut := x.cut.filter (fun e => e.1 / 4 != port) }

/-- The input of a bridge end: the sender holds full credit, and a worm whose end can no longer come is closed by a POISON flit
(R20, R323). -/
def closeInput (stile port : Nat) (s : State) : State :=
  (List.range 4).foldl (fun s vc =>
    let x := s.stile stile
    let k := port * 4 + vc
    let q := tblGet [] x.buf k
    let l := tblGet [] x.links k
    let x1 := { x with dropping := tblSet 0 x.dropping k 0 }
    s.setStile stile (freeInput k (
      if wormOpen (tblGet 0 x.wormLeft k) (q ++ l) = 0 ∨ tblGet 0 x.dropping k ≠ 0 then x1
      else if l = [] then { x1 with buf := tblSet [] x.buf k (q ++ [poisonFlit vc true]) }
      else { x1 with links := tblSet [] x.links k (l ++ [poisonFlit vc true]) }))) s

/-- The two ends of a bridge: the array stile with its south port, the boundary stile with its north port (R295). -/
def bridgeEnds (b : Nat) : List (Nat × Nat) := [(32 + b, 2), (37 + b, 0)]

/-- A bridge is lost: its port DOWN in the mask, the recorded requests answered, flits and credits as R20 says. -/
def bridgeLost (b : Nat) (s : State) : State :=
  let s1 := s.put R.STIL_MODE_BR_DOWN (32 + b) 1
  let s2 := (List.range 2).foldl (fun s side =>
    let l := tblGet [] s.bridge (side * 2 + b)
    let s3 := l.foldl (fun s q => answerTag q.src q.tag rspUnreachable false s) { s with bridge := tblSet [] s.bridge (side * 2 + b) [] }
    showRecord side b s3) s1
  let s4 := (bridgeEnds b).foldl (fun s e => closeInput e.1 e.2 (dropHeld e.1 e.2 s)) s2
  runStiles stileFuel ((bridgeEnds b).flatMap (fun e => e.1 :: neighbours e.1)) s4

/-- LINK_STAT of both sides. -/
def setLink2 (st : Nat) (down : Bool) (s : State) : State :=
  [0, 1].foldl (fun s k => ((s.put R.LNTL_LINK_STAT_STATE k st).put R.LNTL_LINK_STAT_RX_DOWN k (bit down)).put R.LNTL_LINK_STAT_TX_DOWN k
    (bit down)) s

/-- What the loss of the link does besides its events: streams, reports in transit, bridges (R12, R20, R490). -/
def linkLoss (s : State) : State :=
  let s1 := setLink2 lnkDown true { s with lintel := [], linkLosses := s.linkLosses + 1 }
  let s2 := writerLinkLost (camLinkLost (dropReports s1))
  updateDownRegs (bridgeLost 1 (bridgeLost 0 s2))

/-- The link goes down (R18): each side raises LINK_DOWN, and LNTL_1 reports it. -/
def linkDown (s : State) : State :=
  if s.linkUp then ((linkLoss s).raise 0x0A 0 0 |>.raise 0x0A 1 0).report 0x0A 1 0 clsArray else s

/-! ### Training (R18, R20) -/

/-- A write of LNTL_LINK_CTL: in LNTL_1 RETRAIN starts training; a link that is up is lost first. -/
def retrainWrite (w : WriteReq) (s : State) : State :=
  let v := w.value.toNat
  let s1 := s.put R.LNTL_LINK_CTL_FULL_TRAIN w.n (bitsAt v 1 1)
  if w.n = 1 ∧ bitOf v 0 ∧ s.get R.LNTL_LINK_STAT_STATE 1 ≠ lnkTraining then
    let s2 := if s1.linkUp then linkLoss s1 else s1
    (setLink2 lnkTraining true s2).put R.LNTL_LINK_CTL_RETRAIN 1 1
  else s1

/-- The two sides as training leaves them: each goes on from the last SEQ that the other has received. -/
def freshSides (s : State) : Tbl LintelSide :=
  [0, 1].foldl (fun t k => tblSet LintelSide.idle t k
    { LintelSide.idle with nextSeq := (s.get R.LNTL_LINK_STAT_LAST_SEQ (1 - k) + 1) % 256 }) []

/-- Training ends; the first one that succeeds since an end's domain came up returns the bridges. -/
def trainingDone (ok : Bool) (s : State) : State :=
  if s.get R.LNTL_LINK_STAT_STATE 1 ≠ lnkTraining then s
  else
    let s1 := s.put R.LNTL_LINK_CTL_RETRAIN 1 0
    if ok && s.domainOn 8 && s.domainOn 9 then
      let s2 := (setLink2 lnkUp false { s1 with lintel := freshSides s1 }).raise 0x0A 0 1 |>.raise 0x0A 1 1
      let s3 := if s2.bridgeFresh then
          { (s2.put R.STIL_MODE_BR_DOWN 32 0).put R.STIL_MODE_BR_DOWN 33 0 with bridgeFresh := false }
        else s2
      (List.range 4).foldl (fun s c => showCounts c s) (updateDownRegs s3)
    else setLink2 lnkDown true s1

/-- An end of the Lintel loses its power or comes up (R20): the link is down, the bridges wait for a first training. -/
def linkEndOff (s : State) : State :=
  let s1 := if s.linkUp then (linkDown s) else setLink2 lnkDown true s
  updateDownRegs { ((s1.put R.LNTL_LINK_CTL_RETRAIN 1 0).put R.STIL_MODE_BR_DOWN 32 1).put R.STIL_MODE_BR_DOWN 33 1 with bridgeFresh := true }

/-! ### The frame that a side sends (R13, R14, R16, R55, R71) -/

/-- The owner of a slot (Table 01-7), as the CLASS that it sends (Table 01-6). -/
def slotOwner (slot : Nat) : Nat :=
  if slot = 0 then 0
  else if slot = 1 ∨ slot = 6 ∨ slot = 11 then 1
  else if slot = 2 ∨ slot = 4 ∨ slot = 7 ∨ slot = 9 ∨ slot = 12 ∨ slot = 14 then 2
  else 3

/-- The bridge of the oldest flit that has bytes to send. -/
def olderBridge (x : LintelSide) : Option Nat := (x.flits.find? (fun e => e.2.1 != [])).map (fun e => e.1)

/-- Whether a CLASS has something ready at a side (R14). -/
def classReady (x : LintelSide) (r : LintelReady) (cls : Nat) : Bool :=
  match cls with
  | 0 => x.sinceCut.isSome || x.messages != [] || r.ctl != []
  | 1 => r.pix != []
  | 2 => x.flits.any (fun e => e.1 == 0 && e.2.1 != [])
  | 3 => x.flits.any (fun e => e.1 == 1 && e.2.1 != [])
  | _ => false

/-- The CLASS of the next frame: the slot's owner, else the bridge with the older waiting flit, else IDLE (R14). -/
def frameClass (x : LintelSide) (r : LintelReady) : Nat :=
  if classReady x r (slotOwner x.slot) then slotOwner x.slot
  else match olderBridge x with
    | some b => 2 + b
    | none => 15

/-- The bytes of a bridge's flits that a payload takes from a position on, packed end to end; the offset, in units of 8 bytes, of the first
flit that starts there; and the flits with what is left of them. -/
def packFlits (b : Nat) : Nat → List (Nat × List Byte × Flit) → List Byte × Option Nat × List (Nat × List Byte × Flit)
  | _, [] => ([], none, [])
  | pos, e :: t =>
    if e.1 ≠ b ∨ e.2.1 = [] then
      let r := packFlits b pos t
      (r.1, r.2.1, e :: r.2.2)
    else
      let chunk := e.2.1.take (240 - pos)
      let r := packFlits b (pos + chunk.length) t
      (chunk ++ r.1, if e.2.1.length = 88 ∧ chunk ≠ [] then some (pos / 8) else r.2.1, (e.1, e.2.1.drop chunk.length, e.2.2) :: r.2.2)

/-- A CUT message (Table 03-9). -/
def packCut (tickSeq age : Nat) : List Byte := leBytes 32 (1 + tickSeq % 16 * 2 ^ 8 + min age 255 * 2 ^ 16)

/-- The CUT message that a side sends in every CTL frame from a cutoff to the next edge (R55). -/
def cutOut (s : State) (side : Nat) : List (List Byte) :=
  match (s.side side).sinceCut with
  | some n => [packCut (s.edges + 1) n]
  | none => []

/-- The 32-byte messages of a list of bytes. -/
def messagesOf (bytes : List Byte) : List (List Byte) := (List.range (bytes.length / 32)).map (fun k => (bytes.drop (32 * k)).take 32)

/-- A payload padded with zeros to 240 bytes. -/
def padPayload (b : List Byte) : List Byte := (b ++ List.replicate 240 0).take 240

/-- The header of a frame (Table 01-5) but for ACK_SEQ and NAK. -/
def frameHeader (seq slot cls tickSeq age ofs stream lineStart frameStart cr crBridge : Nat) : Nat :=
  seq % 256 * 2 ^ 56 + slot % 16 * 2 ^ 52 + cls % 16 * 2 ^ 48 + tickSeq % 16 * 2 ^ 44 + min age 15 * 2 ^ 40 + ofs % 128 * 2 ^ 24 +
  stream % 16 * 2 ^ 20 + lineStart % 2 * 2 ^ 19 + frameStart % 2 * 2 ^ 18 + cr % 2 ^ 12 * 2 ^ 4 + crBridge % 2 * 2 ^ 3

/-- The bridge whose credits a frame returns: the one that the last frame did not serve, if it has any. -/
def creditBridge (x : LintelSide) : Nat :=
  if (List.range 3).any (fun vc => tblGet 0 x.credits ((1 - x.lastCr) * 4 + vc) != 0) then 1 - x.lastCr else x.lastCr

/-- The CR fields of a bridge, at most 15 credits a channel. -/
def creditField (x : LintelSide) (b : Nat) : Nat :=
  min 15 (tblGet 0 x.credits (b * 4)) * 2 ^ 8 + min 15 (tblGet 0 x.credits (b * 4 + 1)) * 2 ^ 4 + min 15 (tblGet 0 x.credits (b * 4 + 2))

/-- The credits that are left when a frame has taken its own. -/
def creditsLeft (x : LintelSide) (b : Nat) : Tbl Nat :=
  (List.range 3).foldl (fun t vc => tblSet 0 t (b * 4 + vc) (tblGet 0 t (b * 4 + vc) - 15)) x.credits

/-- TICK_SEQ as a side sends it (Table 01-5): the last edge generated, or the last array-side edge applied. -/
def tickSeqOut (s : State) (side : Nat) : Nat := if side = 1 then s.edges % 16 else s.get R.LNTL_LINK_STAT_TICK_SEQ 0

/-- A frame closed for sending: ACK_SEQ and NAK as they stand, and the trailer (R13, R17). -/
def frameSent (s : State) (side hdr : Nat) (payload : List Byte) : List Byte :=
  let h := setBits (setBits hdr 32 8 (s.get R.LNTL_LINK_STAT_LAST_SEQ side)) 31 1 (bit (s.side side).nakOut)
  let body := leBytes 8 h ++ payload
  body ++ leBytes 4 0 ++ leBytes 4 (crcLintel body)

/-- A new frame of a side: it goes into the replay buffer of 64 (R17). -/
def newFrame (side : Nat) (r : LintelReady) (s : State) : List Byte × LintelSide :=
  let x := s.side side
  let cls := frameClass x r
  let msgs := cutOut s side ++ x.messages ++ messagesOf r.ctl
  let packed := packFlits (cls - 2) 0 x.flits
  let br := decide (cls = 2 ∨ cls = 3)
  let payload := if cls = 0 then (msgs.take 7).flatten else if cls = 1 then r.pix else if br then packed.1 else []
  let ofs := if br then packed.2.1.getD 127 else 127
  let cb := creditBridge x
  let pix := fun n => if cls = 1 then n else 0
  let f := frameSent s side (frameHeader x.nextSeq x.slot cls (tickSeqOut s side) x.sinceEdge ofs (pix r.stream) (pix (bit r.lineStart))
    (pix (bit r.frameStart)) (creditField x cb) cb) (padPayload payload)
  (f, { x with
    nextSeq := (x.nextSeq + 1) % 256
    messages := if cls = 0 then x.messages.drop (7 - (cutOut s side).length) else x.messages
    flits := if br then packed.2.2 else x.flits
    credits := creditsLeft x cb
    lastCr := cb
    sent := (x.sent ++ [f]).drop (x.sent.length + 1 - 64) })

/-- A field of a frame's header (Table 01-5). -/
def frameHdr (f : List Byte) (lo w : Nat) : Nat := bitsAt (leNum (f.take 8)) lo w

/-- The payload of a frame that is sent again: a CUT message in it counts the frames sent since (R55). -/
def replayPayload (s : State) (side : Nat) (f : List Byte) : List Byte :=
  let p := (f.drop 8).take 240
  if frameHdr f 48 4 = 0 ∧ p.take 2 = ((cutOut s side).headD []).take 2 then (cutOut s side).headD [] ++ p.drop 32 else p

/-- A frame sent again takes the next slot, with the tick and the acknowledgement as they stand now (R17). -/
def replayFrame (side : Nat) (g : List Byte) (s : State) : List Byte × LintelSide :=
  let x := s.side side
  let h0 := leNum (g.take 8)
  let h := setBits (setBits (setBits h0 52 4 x.slot) 44 4 (tickSeqOut s side)) 40 4 (min x.sinceEdge 15)
  let seq := frameHdr g 56 8
  (frameSent s side h (replayPayload s side g), { x with
    resend := x.resend.drop 1
    tries := tblSet 0 x.tries seq (tblGet 0 x.tries seq + 1) })

/-- What a side sends in the next slot: the first frame to replay, else a new one (R14, R17). -/
def sendFrame (side : Nat) (r : LintelReady) (s : State) : List Byte × State :=
  let p := match (s.side side).resend with
    | g :: _ => replayFrame side g s
    | [] => newFrame side r s
  (p.1, s.setSide side { p.2 with
    slot := (p.2.slot + 1) % 16
    nakOut := false
    sinceEdge := p.2.sinceEdge + 1
    sinceCut := p.2.sinceCut.map (fun n => n + 1) })

/-! ### The frame that a side receives (R16 to R18, R55, R71) -/

/-- The bits of a frame that flip on the way. -/
def flipBits (flips : List Nat) (f : List Byte) : List Byte :=
  leBytes f.length (flips.foldl (fun n k => n ^^^ 2 ^ k) (leNum f))

/-- A frame's ACK_SEQ and NAK (R17): success forgets the replays of what has arrived; NAK sends again every frame after ACK_SEQ. A frame that has
been replayed four times without success ends the link (R18). -/
def frameAck (side : Nat) (f : List Byte) (s : State) : State :=
  let x := s.side side
  let k := frameHdr f 32 8
  let after := x.sent.dropWhile (fun g => frameHdr g 56 8 != (k + 1) % 256)
  let tries := x.tries.filter (fun e => after.any (fun g => frameHdr g 56 8 == e.1))
  if frameHdr f 31 1 = 0 then s.setSide side { x with tries := tries }
  else if after = [] then s
  else
    let s1 := (s.setSide side { x with resend := after, tries := tries }).count R.LNTL_ERR_COUNT2_RETRIES side 1
    if 4 ≤ tblGet 0 tries ((k + 1) % 256) then linkDown (s1.raise 0x0A side 3) else s1

/-- The tick that a header tells the array of (R16): the edge of a new TICK_SEQ, which fell TICK_AGE frames of 4 ns before the arrival. A
TICK_SEQ that jumps by more than one is reported. -/
def frameTick (f : List Byte) (arrival : Nat) (s : State) : State :=
  let t := frameHdr f 44 4
  if t = s.tick.edgeSeq then s
  else
    let s1 := { s with tick := { s.tick with edgePending := s.domainOn 9, edgeSeq := t, edgeAt := arrival - frameHdr f 40 4 } }
    if 1 < (t + 16 - s.tick.edgeSeq) % 16 then s1.raise 0x0A 0 4 else s1

/-- The credits that a frame returns for what its receiver has sent over a bridge (R297); the bridge's stile tries again. -/
def frameCredits (side : Nat) (f : List Byte) (s : State) : State :=
  let b := frameHdr f 3 1
  let far := if side = 0 then (37 + b, 0) else (32 + b, 2)
  let s1 := (List.range 3).foldl (fun s vc =>
    let x := s.stile far.1
    let k := far.2 * 4 + vc
    s.setStile far.1 { x with used := tblSet 0 x.used k (tblGet 0 x.used k - frameHdr f (12 - 4 * vc) 4) }) s
  if frameHdr f 4 12 = 0 then s else runStiles stileFuel [if side = 0 then 32 + b else 37 + b] s1

/-- The whole flits at the front of a bridge's byte stream, and the bytes of one that is not complete. A header of zeros is fill (log entry 12). -/
def splitFlits : Nat → List Byte → List (List Byte) × List Byte
  | 0, b => ([], b)
  | fuel + 1, b =>
    if 24 ≤ b.length ∧ leNum (b.take 24) = 0 then ([], [])
    else if b.length < 88 then ([], b)
    else
      let r := splitFlits fuel (b.drop 88)
      (b.take 88 :: r.1, r.2)

/-- A flit has come across whole: it is on the link into the bridge end's stile. -/
def flitAcross (side b : Nat) (bytes : List Byte) (s : State) : State :=
  let y := s.side (1 - side)
  match y.flits.find? (fun e => e.1 == b) with
  | none => s
  | some e =>
    let f := if e.2.2.bytes = bytes then e.2.2 else flitOfBytes e.2.2 bytes
    let near := if side = 0 then (32 + b, 2) else (37 + b, 0)
    linkFlit near.1 near.2 { f with vc := e.2.2.vc } (s.setSide (1 - side) { y with flits := y.flits.erase e })

/-- The payload of a BR frame (R14): it goes on with the flit begun before, unless FLIT_OFS shows that what was there is fill. -/
def frameFlits (side b : Nat) (f : List Byte) (s : State) : State :=
  let x := s.side side
  let part := tblGet [] x.rxPart b
  let ofs := frameHdr f 24 7
  let payload := (f.drop 8).take 240
  let stream :=
    if part ≠ [] ∧ (ofs = 127 ∨ 8 * ofs = 88 - part.length) then part ++ payload
    else if ofs = 127 then [] else payload.drop (8 * ofs)
  let r := splitFlits 4 stream
  r.1.foldl (fun s c => flitAcross side b c s) (s.setSide side { x with rxPart := tblSet [] x.rxPart b r.2 })

/-- A FRAME_INFO message (Table 03-9). -/
def packInfo (head : Nat) (i : FrameInfo) : List Byte :=
  leBytes 4 (2 + head % 4 * 2 ^ 8 + (bit i.hold + 2 * bit i.debug) * 2 ^ 16 + i.variant % 256 * 2 ^ 24) ++ leBytes 4 i.picSnap ++
  leBytes 4 i.itinId ++ leBytes 4 (i.surfCount % 256) ++
  (List.range 6).flatMap (fun k => leBytes 2 (i.surfs.getD k 0xFFFF)) ++ leBytes 4 0

/-- What a FRAME_INFO message says, and of which head. -/
def readInfo (m : List Byte) : Nat × FrameInfo :=
  let v := leNum m
  (bitsAt v 8 2, ⟨bitOf v 16, bitOf v 17, bitsAt v 24 8, bitsAt v 32 32, bitsAt v 64 32, bitsAt v 96 8,
    ((List.range 6).map (fun k => bitsAt v (128 + 16 * k) 16)).take (bitsAt v 96 8)⟩)

/-- A message of a CTL frame (R71): CUT on the array side, FRAME_INFO on the boundary side; the others show software nothing. -/
def takeMessage (side arrival : Nat) (s : State) (m : List Byte) : State :=
  let v := leNum m
  if side = 0 ∧ v % 256 = 1 then cutMessage (bitsAt v 8 4) (bitsAt v 16 8) arrival s
  else if side = 1 ∧ v % 256 = 2 then infoMessage (readInfo m).1 (readInfo m).2 s
  else s

/-- The messages of a CTL frame's payload: TYPE 0x00 ends the list (R71). -/
def frameMessages (side : Nat) (f : List Byte) (arrival : Nat) (s : State) : State :=
  ((messagesOf ((f.drop 8).take 240)).takeWhile (fun m => leNum m % 256 != 0)).foldl (takeMessage side arrival) s

/-- A frame that is accepted: its credits and what its class carries. -/
def frameAccept (side : Nat) (f : List Byte) (arrival : Nat) (s : State) : State :=
  let x := s.side side
  let cls := frameHdr f 48 4
  let s1 := (s.setSide side { x with waits := false, lastClass := cls, lastPayload := (f.drop 8).take 240 }).put
    R.LNTL_LINK_STAT_LAST_SEQ side (frameHdr f 56 8)
  let s2 := frameCredits side f s1
  match cls with
  | 0 => frameMessages side f arrival s2
  | 1 => s2.countWrap R.LNTL_PIX_FRAMES_COUNT side 1
  | 2 => frameFlits side 0 f s2
  | 3 => frameFlits side 1 f s2
  | _ => s2

/-- A frame without error (R16, R17): its tick is seen at once; a frame out of sequence after an error waits for the replay; the frame's
ACK_SEQ and NAK act on what this side sends. -/
def goodFrame (side : Nat) (f : List Byte) (arrival : Nat) (s : State) : State :=
  let x := s.side side
  let s0 := s.setSide side { x with crcFails := 0 }
  let s1 := if side = 0 then frameTick f arrival s0 else s0
  let s2 := if x.waits ∧ frameHdr f 56 8 ≠ (s.get R.LNTL_LINK_STAT_LAST_SEQ side + 1) % 256 then s1 else frameAccept side f arrival s1
  frameAck side f s2

/-- A frame with a CRC error (R17, R18): discarded; the eighth in a row ends the link. The lanes that report an error are a free value. -/
def badFrame (side : Nat) (s : State) : State :=
  let x := s.side side
  let (v, s0) := s.draw
  let s1 := ((s0.setSide side { x with crcFails := x.crcFails + 1, nakOut := true, waits := true }).raise 0x0A side 2).count
    R.LNTL_ERR_COUNT2_CRC_ERRS side 1
  let s2 := s1.put R.LNTL_LANE_ERR_LANE side (s1.get R.LNTL_LANE_ERR_LANE side ||| v % 2 ^ 32)
  if 8 ≤ x.crcFails + 1 then linkDown s2 else s2

/-- A frame travels to a side, which checks its CRC. -/
def frameReceive (side : Nat) (r : LintelReady) (flips : List Nat) (arrival : Nat) (s : State) : State :=
  if !s.linkUp then s
  else
    let p := sendFrame (1 - side) r s
    let g := flipBits flips p.1
    if crcLintel (g.take 248) = leNum (g.drop 252) then goodFrame side g arrival p.2 else badFrame side p.2

/-! ### What the tick gives the Lintel to send (R16, R55, R71) -/

/-- A cutoff has passed: CUT messages from now on. -/
def lintelCutoff (s : State) : State := s.setSide 1 { s.side 1 with sinceCut := some 0 }

/-- A side's tick edge: TICK_AGE starts again, and CUT messages end. -/
def lintelEdge (side : Nat) (s : State) : State := s.setSide side { s.side side with sinceEdge := 0, sinceCut := none }

/-- The message is FRAME_INFO of a head. -/
def isInfo (head : Nat) (m : List Byte) : Bool := leNum m % 256 == 2 && (readInfo m).1 == head

/-- A FRAME_INFO message to be sent; one of an earlier tick that was not sent is superseded. -/
def lintelInfo (head : Nat) (i : FrameInfo) (s : State) : State :=
  s.setSide 0 { s.side 0 with messages := (s.side 0).messages.filter (fun m => !isInfo head m) ++ [packInfo head i] }

/-! ### The page -/

/-- The LNTL page's registers with a rule of their own: camera registers exist in LNTL_0 only. -/
def lntlSpecial (w : WriteReq) (s : State) : Option Written :=
  if w.off = 0x040 then some (retrainWrite w s, rspOk)
  else if w.n = 1 ∧ 0x200 ≤ w.off ∧ w.off < 0x280 then some (s, rspOk)
  else none

/-- SOFT_RESET of a LNTL page: the error registers and the page's own; the link itself goes on. -/
def lntlReset (n : Nat) (s : State) : State :=
  (s.resetPage 0x0A n (fun off => off != 0x024 && off != 0x044 && off != 0x050 && off != 0x040)).dropShadows 0x0A n

/-! ### The commands -/

/-- LINTEL_FRAME_RECEIVE (R17). -/
def execLintelFrameReceive (side : Nat) (ready : LintelReady) (flips : Flips) (s : State) (arrival : Nat := 0) : Result :=
  need (side < 2) (done (frameReceive side ready flips arrival s))

/-- FRAME_INFO_RECEIVE (R70, R71): the oldest message of the head that waits arrives. -/
def execFrameInfoReceive (head : Nat) (s : State) : Result :=
  let x := s.side 0
  need (head < 4) (done (
    if s.linkUp then
      match x.messages.find? (isInfo head) with
      | some m => infoMessage head (readInfo m).2 (s.setSide 0 { x with messages := x.messages.erase m })
      | none => s
    else s))

/-- LINK_DOWN (R18). -/
def execLinkDown (side : Nat) (s : State) : Result := need (side < 2) (done (linkDown s))

end Sys2Proof.Machine
end

