-- ==== Sys2Proof/Machine/Shut.lean ====
section
/-!
DEFINITION. The SHUT page's registers (R476, R479 to R481, R488): clocks and their monitor, supplies, the host watchdog.
-/

namespace Sys2Proof.Machine

/-- A bit of a SHUT register as a field. -/
def shutBit (off k : Nat) : Field := ⟨0x16, off, 4, k, 1⟩

/-! ### The host watchdog (R488) -/

/-- The count takes the full period. -/
def hwdgLoad (s : State) : State :=
  { s.put R.SHUT_HWDG_COUNT_MS 0 (s.get R.SHUT_HWDG_CFG_PERIOD_MS 0) with shutter := { s.shutter with hwdg := 1 } }

/-- A write of SHUT_HWDG_KICK. -/
def hwdgKick (w : WriteReq) (s : State) : Written :=
  if w.value = 0x0000A5C3 then (if s.flag R.SHUT_HWDG_CFG_EN 0 then hwdgLoad s else s, rspOk)
  else (s.err 0x16 0 0x084 0x0107, rspOk)

/-- A write of SHUT_HWDG_CFG, authenticated: EN from 0 to 1 loads the count; when EN goes to 0 the count stands where it was, a free
value. -/
def hwdgCfg (w : WriteReq) (s : State) : State :=
  let was := s.flag R.SHUT_HWDG_CFG_EN 0
  let s1 := s.setReg 0x16 0 0x080 (w.value &&& 0x8000FFFF)
  if bitOf w.value.toNat 31 then (if was then s1 else hwdgLoad s1)
  else if was then
    let (v, s2) := s1.draw
    { s2.put R.SHUT_HWDG_COUNT_MS 0 v with shutter := { s2.shutter with hwdg := 0 } }
  else s1

/-- Half of the period remains. -/
def hwdgWarn (s : State) : State :=
  if s.flag R.SHUT_HWDG_CFG_EN 0 && s.shutter.hwdg == 1 then
    { s.raise 0x16 0 9 with shutter := { s.shutter with hwdg := 2 } }
  else s

/-- The count reaches 0. -/
def hwdgExpire (s : State) : State :=
  if s.flag R.SHUT_HWDG_CFG_EN 0 && s.shutter.hwdg == 2 then
    { ((s.put R.SHUT_HWDG_COUNT_MS 0 0).raise 0x16 0 10).report 0x16 0 10 clsDevice with shutter := { s.shutter with hwdg := 0 } }
  else s

/-! ### The clocks (R479 to R481) -/

/-- A clock of Table 19-5 that the monitor measures when it runs, and whose domain lets it run. -/
def State.clockRuns (s : State) (k : Nat) : Bool :=
  if k = 0 then true
  else if k = 1 ∨ k = 2 then s.domainUp 9
  else if k = 3 then true
  else if k = 4 then s.domainUp 11
  else if k = 5 then s.domainUp 8
  else if k < 10 then s.domainUp 5
  else if k < 14 then s.domainUp 6
  else if k = 14 then s.domainUp 2
  else if k = 15 then s.domainUp 1
  else k == 16 && s.domainUp 7

/-- The nominal rate of a clock in Hz (Table 19-5): CK_PIX as R338, CK_DDR by the data rate, CK_CAM by the lane rate, CK_NOC on the
boundary die at 25 MHz while no domain but PD_AO is up there (R481). -/
def State.clockNominal (s : State) (k : Nat) : Nat :=
  if k = 0 then 25000000
  else if k = 1 then 640000000
  else if k = 2 then 1280000000
  else if k = 3 then (if (List.range 8).any (fun d => s.domainUp (d + 1)) then 1200000000 else 25000000)
  else if k = 4 then rateMts (s.get R.DDRC_CFG_RATE 0) * 125000
  else if k = 5 then 250000000
  else if k < 10 then s.pixelClock (k - 6)
  else if k < 14 then bitsAt (s.getReg 0x0F (k - 10) 0x040).toNat 16 8 * 1250000
  else if k = 14 then 400000000
  else if k = 15 then 100000000
  else 500000000

/-- A measured rate in kHz lies more than 1 % from the nominal. -/
def offLimits (nominal khz : Nat) : Bool :=
  decide (nominal < 100 * (if nominal ≤ 1000 * khz then 1000 * khz - nominal else nominal - 1000 * khz))

/-- One clock as the window measured it. -/
def clockMeasured (s : State) (m : Nat × Nat) : State :=
  let s1 := { s with shutter := { s.shutter with clkFreq := tblSet 0 s.shutter.clkFreq m.1 (m.2 % 2 ^ 32) } }
  if offLimits (s.clockNominal m.1) m.2 then
    let s2 := (((s1.put (shutBit 0x070 m.1) 0 0).put (shutBit 0x074 m.1) 0 1).raise 0x16 0 7).report 0x16 0 7 clsDevice
    if m.1 = 15 then s2.put R.SHUT_CLK_SEL_HINGE_SRC 0 0 else s2
  else s1.put (shutBit 0x070 m.1) 0 1

/-- A window of the clock monitor (R480, R51): the clocks measured, whether OSC_A and OSC_C disagree, whether the reference is good. A
clock that is not measured does not run. -/
def clockWindow (measured : List (Nat × Nat)) (disagree refGood : Bool) (s : State) : State :=
  let ms := measured.filter (fun m => s.clockRuns m.1)
  let gone := (List.range 18).filter (fun k => !(ms.any (fun m => m.1 == k)))
  let s1 := gone.foldl (fun s k =>
    { s.put (shutBit 0x070 k) 0 0 with shutter := { s.shutter with clkFreq := tblErase s.shutter.clkFreq k } }) s
  let s2 := ms.foldl clockMeasured s1
  let s3 := if disagree then s2.raise 0x16 0 8 else s2
  { s3 with tick := { s3.tick with goodWindows := if refGood then min (s3.tick.goodWindows + 1) 1000 else 0 } }

/-! ### The supplies (R476) -/

/-- A supply leaves its limits: 0 VDD_ARRAY, 1 VDD_BND, 2 VDD_AO. Loss of VDD_ARRAY is loss of the array die (Table 01-4). -/
def supplyOut (k : Nat) (s : State) : State :=
  if s.flag (shutBit 0x054 k) 0 then s
  else
    let s1 := ((s.put (shutBit 0x054 k) 0 1).raise 0x16 0 5).report 0x16 0 5 (if k = 0 then clsArray else clsDevice)
    if k = 0 then linkDown s1 else s1

/-- A supply is back within its limits. -/
def supplyWithin (k : Nat) (s : State) : State := s.put (shutBit 0x054 k) 0 0

/-! ### The page -/

/-- The value rules of the SHUT page: 0x0109 RANGE. -/
def shutBad (off v : Nat) : Option Nat :=
  if off = 0x050 ∧ ¬ (5 ≤ v % 128 ∧ v % 128 ≤ 100) then some 0x0109
  else if off = 0x05C ∧ v % 8 ≠ 0 then some 0x0109
  else if off = 0x078 ∧ 17 < v % 32 then some 0x0109
  else if off = 0x080 ∧ v % 2 ^ 16 = 0 then some 0x0109
  else none

/-- The SHUT page's registers with a rule of their own. -/
def shutSpecial (w : WriteReq) (s : State) : Option Written :=
  if w.off = 0x080 then some (hwdgCfg w s, rspOk)
  else if w.off = 0x084 then some (hwdgKick w s)
  else none

/-- A read of the SHUT page's derived registers: the watchdog's count is a free value while it runs. -/
def shutRead (off : Nat) (s : State) : Option (State × Word) :=
  if off = 0x07C then some (s, word (tblGet 0 s.shutter.clkFreq (s.get R.SHUT_CLK_IDX_CLK 0)))
  else if off = 0x088 ∧ s.flag R.SHUT_HWDG_CFG_EN 0 then
    let (v, s1) := s.draw
    some (s1, word (v % 2 ^ 16))
  else none

/-- SOFT_RESET of the SHUT page (R489). -/
def shutReset (s : State) : State :=
  s.resetPage 0x16 0 (fun off => off == 0x010 || off == 0x074 || off == 0x060 || off == 0x01C || off == 0x020)

/-! ### The commands -/

/-- HWDG_WARN (R488). -/
def execHwdgWarn (s : State) : Result := done (hwdgWarn s)

/-- HWDG_EXPIRE (R488). -/
def execHwdgExpire (s : State) : Result := done (hwdgExpire s)

/-- CLOCK_MONITOR_WINDOW (R480). -/
def execClockMonitorWindow (measured : List (Nat × Nat)) (disagree refGood : Bool) (s : State) : Result :=
  done (clockWindow measured disagree refGood s)

/-- SUPPLY_OUT_OF_LIMITS (R476). -/
def execSupplyOutOfLimits (k : Nat) (s : State) : Result := need (k < 3) (done (supplyOut k s))

/-- SUPPLY_WITHIN_LIMITS (R476). -/
def execSupplyWithinLimits (k : Nat) (s : State) : Result := need (k < 3) (done (supplyWithin k s))

end Sys2Proof.Machine
end

