-- ==== Sys2Proof/Machine/RowPort.lean ====
section
/-!
DEFINITION. Row ports and the corner turn (R131, R132, R137 to R143).
-/

namespace Sys2Proof.Machine

/-! ### The command (Table 06-2) -/

abbrev rowLift (c : Nat) : Bool := bitOf c 23
abbrev rowBank (c : Nat) : Bool := bitOf c 22
abbrev rowRow (c : Nat) : Nat := bitsAt c 17 5
abbrev rowGroup (c : Nat) : Nat := bitsAt c 14 3
/-- P, the number of planes. -/
abbrev rowPlanes (c : Nat) : Nat := bitsAt c 9 5 + 1
/-- O, the element bit of the first plane. -/
abbrev rowOfs (c : Nat) : Nat := bitsAt c 4 5
/-- E, the element width, for a code that is not reserved (Table 06-3). -/
abbrev rowWidth (c : Nat) : Nat := 2 ^ bitsAt c 1 3
abbrev rowDown (c : Nat) : Bool := bitOf c 0

/-- The bit of every element that slice k carries (R139). -/
def sliceBit (c k : Nat) : Nat := if rowDown c then rowOfs c + rowPlanes c - 1 - k else rowOfs c + k

/-- Where bit b of element i lies: the word and the bit in it (R139). -/
def elementAt (c i b : Nat) : Nat × Nat :=
  let e := rowWidth c
  (i / (32 / e), e * (i % (32 / e)) + b)

/-- Slice k of some words (R139): bit i of it is bit b of element i. -/
def sliceOf (c k : Nat) (words : List Nat) : BitVec 32 :=
  BitVec.ofNat 32 (maskOf 32 (fun i =>
    let p := elementAt c i (sliceBit c k)
    bitOf (words.getD p.1 0) p.2))

/-- Slice k merged into some words (R140). -/
def mergeSlice (c k : Nat) (slice : BitVec 32) (words : List Nat) : List Nat :=
  (List.range 32).foldl (fun ws i =>
    let p := elementAt c i (sliceBit c k)
    ws.set p.1 (setBits (ws.getD p.1 0) p.2 1 (bit (slice.getLsbD i)))) words

/-- A command that is not executed (R142). -/
def rowBad (s : State) (slat c addr : Nat) : Bool :=
  decide (5 < bitsAt c 1 3) || decide (rowWidth c < rowOfs c + rowPlanes c) || addr % 4 != 0 ||
  (rowBank c && !s.flag R.SLAT_ROW_CFG_PARTNER slat)

/-- The key of the drop unit that a command names (R131): row of the pane × 8 + group. -/
def rowUnit (slat c : Nat) : Nat :=
  let k := slat % 8
  ((32 * (if rowBank c then k ^^^ 1 else k)) + rowRow c) * 8 + rowGroup c

/-- The word at a local address as the decoder delivers it. -/
def rowWord (s : State) (slat a : Nat) : Nat := leNum ((s.mem (engKey 4 slat)).bytes true a 4)

/-- The words at a local address and the state in which they have been read: a word beyond local memory, of which the spec says
nothing, reads as a free value. -/
def rowRead4 (slat : Nat) : Nat → Nat → State → List Nat × State
  | _, 0, s => ([], s)
  | a, n + 1, s =>
    let r := if dmemBytes < a + 4 then s.draw else (rowWord s slat a, readRow 4 slat true (a / 8) s)
    let (ws, s2) := rowRead4 slat (a + 4) n r.2
    (r.1 :: ws, s2)

/-- A refused command (R142): CMD_BAD, LAST_CMD, and a fault record of the slat, whose EVT_BIT the spec does not give. -/
def rowRefuse (slat c : Nat) (s : State) : State :=
  let (v, s1) := ((s.put R.SLAT_ROW_STAT_CMD_BAD slat 1).put R.SLAT_ROW_STAT_LAST_CMD slat c).draw
  s1.report 0x04 slat (v % 32) clsUnit

/-- A quad's next command as the port takes it up: the words of a drop are read from local memory; a command that is not executed is refused. -/
def rowTake (slat quad : Nat) (c : RowCmd) (s : State) : Option RowCmd × State :=
  let p := s.port slat
  let s1 := s.setPort slat { p with queue := tblSet [] p.queue quad ((tblGet [] p.queue quad).drop 1) }
  if rowBad s slat c.cmd c.addr then (none, rowRefuse slat c.cmd s1)
  else
    let (words, s2) := if rowLift c.cmd then ([], s1) else rowRead4 slat c.addr (rowWidth c.cmd) s1
    (some { c with next := 0, words := words.map (fun v => word v) }, s2)

/-- A quad takes up its next command (R141): at once when it runs none; else its words enter the other half of the corner-turn buffer while
the slices of the present command are sent. -/
def rowStart (slat quad : Nat) (s : State) : State :=
  let p := s.port slat
  match tblGet [] p.queue quad with
  | [] => s
  | c :: _ =>
    if !s.domainOn (14 + slat / 8) || (tblGet none p.ahead quad).isSome then s
    else
      let r := rowTake slat quad c s
      let q := r.2.port slat
      if (tblGet none p.run quad).isNone then r.2.setPort slat { q with run := tblSet none q.run quad r.1 }
      else r.2.setPort slat { q with ahead := tblSet none q.ahead quad r.1 }

/-- The command that a quad runs after a slice of it: itself, or at its end the one whose words stand ready. -/
def rowNext (p : RowPort) (quad : Nat) (c : RowCmd) (last : Bool) : RowPort :=
  if last then { p with run := tblSet none p.run quad (tblGet none p.ahead quad), ahead := tblSet none p.ahead quad none }
  else { p with run := tblSet none p.run quad (some c) }

/-- A quad may make its transfer: its slat is clocked, and no transfer of another quad of the port waits (R132). -/
def portMoves (s : State) (slat quad : Nat) : Bool :=
  s.domainOn (14 + slat / 8) && (match (s.port slat).held with
    | some q => q == quad
    | none => true)

/-- A quad's transfer waits: the port holds it and every later transfer (R132). -/
def rowHold (slat quad : Nat) (s : State) : State := s.setPort slat { s.port slat with held := some quad }

/-- Upsets of n bits of a number: those flips that lie from lo on. -/
def strikeNat (flips : Flips) (lo n v : Nat) : Nat :=
  (List.range n).foldl (fun v k => if flips.contains (lo + k) then v ^^^ 2 ^ k else v) v

/-- A slice of the command that a quad runs lands in its inbound unit, unless the unit is full (R132). The flips are upsets of the entry (0 to
31 its slice, 32 and 33 its parity) and of the unit's second occupancy (34 to 38). -/
def hamperDrop (slat quad : Nat) (flips : Flips) (s : State) : State :=
  let p := s.port slat
  match tblGet none p.run quad with
  | none => s
  | some c =>
    if rowLift c.cmd || !portMoves s slat quad then s
    else
      let pane := slat / 8
      let x := s.pane pane
      let u := rowUnit slat c.cmd
      let held := tblGet [] x.inb u
      if 16 ≤ held.length then rowHold slat quad s
      else
        let slice := sliceOf c.cmd c.next (c.words.map (fun v => v.toNat))
        let entry := BitVec.ofNat 34 (strikeNat flips 0 34 (hampEntry slice).toNat)
        let occ := strikeNat flips 34 5 (tblGet 0 x.inOcc u + 1)
        let s1 := hampCount pane 0 1 (s.setPane pane { x with
          inb := tblSet [] x.inb u (held ++ [entry]), inOcc := tblSet 0 x.inOcc u occ })
        let q := rowNext p quad { c with next := c.next + 1 } (c.next + 1 == rowPlanes c.cmd)
        hampCompare pane (s1.setPort slat { q with drops := p.drops + 1, held := none })

/-- The slices of a lift merged into its words in local memory (R140); a word beyond local memory is stored nowhere. -/
def liftMerge (slat : Nat) (c : RowCmd) (slices : List Word) (s : State) : State :=
  let (old, s1) := rowRead4 slat c.addr (rowWidth c.cmd) s
  let new := (List.range slices.length).foldl (fun ws k => mergeSlice c.cmd k (slices.getD k 0) ws) old
  (List.range new.length).foldl (fun t k =>
    let a := c.addr + 4 * k
    if dmemBytes < a + 4 then t else dmemStore 4 slat a (leBytes 4 (new.getD k 0)) t) s1

/-- The command that a quad runs takes a slice from its outbound unit, unless the unit is empty (R132); the last one completes the
lift. -/
def hamperLift (slat quad : Nat) (s : State) : State :=
  let p := s.port slat
  match tblGet none p.run quad with
  | none => s
  | some c =>
    if !rowLift c.cmd || !portMoves s slat quad then s
    else
      let pane := slat / 8
      let x := s.pane pane
      let u := rowUnit slat c.cmd
      match tblGet [] x.outb u with
      | [] => rowHold slat quad s
      | entry :: rest =>
        let s1 := hampCount pane 4 1 (s.setPane pane { x with
          outb := tblSet [] x.outb u rest, outOcc := tblSet 0 x.outOcc u (tblGet 0 x.outOcc u - 1) })
        let got := c.words ++ [entrySlice entry]
        let last := c.next + 1 == rowPlanes c.cmd
        let q := rowNext p quad { c with next := c.next + 1, words := got } last
        let s2 := s1.setPort slat { q with lifts := p.lifts + 1, held := none }
        let s3 := if entryOk entry then s2 else hamperFault pane false true u s2
        hampCompare pane (if last then liftMerge slat c got s3 else s3)

/-- The row port's registers of the last complete tick (R152). The cycles in which a quad held a waiting transfer are a free value, 0 for a
port that has done nothing. -/
def rowTick (slat : Nat) (s : State) : State :=
  let p := s.port slat
  let idle := p.drops == 0 && p.lifts == 0 && p.held.isNone && p.run == []
  let (v, s1) := if idle then (0, s) else s.draw
  (((s1.put R.SLAT_ROW_DROPS_SLICES slat p.drops).put R.SLAT_ROW_LIFTS_SLICES slat p.lifts).put R.SLAT_ROW_WAIT_CYCLES slat v).setPort slat
    { p with drops := 0, lifts := 0 }

/-! ### The commands -/

/-- ROW_COMMAND_START (R141). -/
def execRowCommandStart (slat quad : Nat) (s : State) : Result :=
  need (slat < 128 && quad < 4) (done (rowStart slat quad s))

/-- HAMPER_DROP (R132). -/
def execHamperDrop (slat quad : Nat) (s : State) (flips : Flips := []) : Result :=
  need (slat < 128 && quad < 4) (done (hamperDrop slat quad flips s))

/-- HAMPER_LIFT (R132). -/
def execHamperLift (slat quad : Nat) (s : State) : Result := need (slat < 128 && quad < 4) (done (hamperLift slat quad s))

end Sys2Proof.Machine
end

