-- ==== Sys2Proof/Machine/Takeover.lean ====
section
/-!
DEFINITION. Takeover and the array-side edge (R61, R66, R75, R96, R271 to R275, R495 to R503, R521, R522): lost units, spares, the choice
of a variant and what it brings, the picture's FRAME_INFO, the counts of the tick that ends.
-/

namespace Sys2Proof.Machine

/-! ### Spare sash engines (R272, R274) -/

/-- The loader of spare k as an initiator (Table 13-3). -/
def loaderInit (k : Nat) : Initiator := ⟨28 + k, 1⟩

/-- The load of a spare ends (R272 step 2): its memories hold the image of the sash it replaces and 0 beyond, or the pane is lost. -/
def spareLoaded (k : Nat) (s : State) : State :=
  let n := 16 + k
  if !s.flag R.SASH_SPARE_STAT_LOADING n then s
  else
    let p := s.get R.SASH_SPARE_STAT_PANE n
    let im := 64 * s.get R.SASH_RELOAD_LEN_IMEM_BLOCKS p
    let dm := 64 * s.get R.SASH_RELOAD_LEN_DMEM_BLOCKS p
    let a := s.get R.SASH_RELOAD_HI_ADDR p * 2 ^ 32 + 64 * s.get R.SASH_RELOAD_LO_ADDR p
    let s0 := s.put R.SASH_SPARE_STAT_LOADING n 0
    match fetchBytes (loaderInit k) (s.get R.TRLH_DDR_MAP_MODE (28 + k)) a (im + dm) s0 with
    | (s1, none) => losePane p ((s1.put R.SASH_SPARE_STAT_ASSIGNED n 0).raise 3 n 10)
    | (s1, some b) =>
      s1.setMem (engKey 3 n) { EngMem.idle with
        imem := memWrite 0 [] 0 (b.take im), dmem := memWrite 0 [] 0 (b.drop im)
        scrubRow := (s1.mem (engKey 3 n)).scrubRow }

/-- The crossbar connects a spare whose load is complete (R272 step 3). -/
def spareConnect (s : State) (k : Nat) : State :=
  let n := 16 + k
  if s.flag R.SASH_SPARE_STAT_ASSIGNED n && !s.flag R.SASH_SPARE_STAT_LOADING n && !s.flag R.SASH_SPARE_STAT_ACTIVE n then
    let p := s.get R.SASH_SPARE_STAT_PANE n
    startEngine 3 n (((s.put R.SASH_XBAR_REPLACED p 1).put R.SASH_XBAR_SPARE p k).put R.SASH_SPARE_STAT_ACTIVE n 1)
  else s

/-- A spare leaves its pane, which its own sash drives again (R274). -/
def spareRelease (k : Nat) (s : State) : State :=
  let n := 16 + k
  if !s.flag R.SASH_SPARE_STAT_ACTIVE n then s
  else
    let p := s.get R.SASH_SPARE_STAT_PANE n
    let s1 := (s.put R.SASH_XBAR_REPLACED p 0).put R.SASH_XBAR_SPARE p 0
    let s2 := (s1.put R.SASH_SPARE_STAT_ACTIVE n 0).put R.SASH_SPARE_STAT_ASSIGNED n 0
    stopEngine 3 n (s2.put (R.HDR_CTL_ENABLE.on 3) n 0)

/-- A write of SASH_SPARE_CTL at its edge (R271, R274): a release that cannot happen is discarded with the write, else AUTO takes its value. -/
def spareControl (k v : Nat) (s : State) : State :=
  let n := 16 + k
  if bitOf v 1 ∧ s.flag R.SASH_SPARE_STAT_ACTIVE n ∧ s.engState 3 (s.get R.SASH_SPARE_STAT_PANE n) ≠ esRunning then s.raise 3 n 9
  else (if bitOf v 1 then spareRelease k s else s).put R.SASH_SPARE_CTL_AUTO n (bitsAt v 0 1)

/-! ### The lost set (R495, R502) -/

/-- A pane is in the lost set. -/
def State.paneLost (s : State) (p : Nat) : Bool := bitOf (s.get R.PORT_LOST_PANE_PANES 0) p
/-- A DDR channel is in the lost set. -/
def State.ddrLost (s : State) (c : Nat) : Bool := bitOf (s.get R.PORT_LOST_DDR_CHANNELS 0) c

/-- The partner of a slat (R143). -/
def partnerSlat (n : Nat) : Nat := n / 8 * 8 + (n % 8 ^^^ 1)

/-- A unit placed in the lost set as a report would (Table 20-4). -/
def lostSet (code : Nat) (s : State) : State :=
  if code < 0x10 then losePane code s
  else if code < 0x90 then loseSlat (code - 0x10) s
  else s.put R.PORT_LOST_DDR_CHANNELS 0 (s.get R.PORT_LOST_DDR_CHANNELS 0 ||| 2 ^ (code - 0x90))

/-- The condition under which a unit leaves the lost set (Table 20-4). -/
def mayReturn (code : Nat) (s : State) : Bool :=
  if code < 0x10 then
    s.domainOn (14 + code) && s.flag R.PANE_BIST_STAT_PASS code && tblGet false s.bistFresh code &&
    (s.engState 3 code == esRunning || [16, 17].any (fun n => s.flag R.SASH_SPARE_STAT_ASSIGNED n && s.get R.SASH_SPARE_STAT_PANE n == code))
  else if code < 0x90 then
    s.engState 4 (code - 0x10) == esRunning && !s.flag R.SLAT_ROW_CFG_PARTNER (partnerSlat (code - 0x10))
  else s.ddrState (code - 0x90) == ddrReady

/-- A unit removed from the lost set. -/
def lostClear (code : Nat) (s : State) : State :=
  if code < 0x10 then s.put ⟨0x0B, R.PORT_LOST_PANE_PANES.off, 4, code, 1⟩ 0 0
  else if code < 0x90 then s.put (slatLostField (code - 0x10)) 0 0
  else s.put ⟨0x0B, R.PORT_LOST_DDR_CHANNELS.off, 4, code - 0x90, 1⟩ 0 0

/-- A write of PORT_LOST_CMD at its edge (R502). -/
def lostCommand (v : Nat) (s : State) : State :=
  let code := v % 256
  if bitOf v 31 then lostSet code s else if mayReturn code s then lostClear code s else s

/-- The switch of the rows of a lost slat to its partner (R275), unless it was lost less than 2 µs ago (R496); a partner that cannot take
them any more leaves the pane lost. -/
def partnerEdge (late : List Nat) (s : State) (n : Nat) : State :=
  if !late.contains (0x10 + n) && s.flag (slatLostField n) 0 && !s.flag R.SLAT_ROW_CFG_PARTNER (partnerSlat n) && !s.paneLost (n / 8) then
    if s.engState 4 (partnerSlat n) = esRunning then s.put R.SLAT_ROW_CFG_PARTNER (partnerSlat n) 1 else losePane (n / 8) s
  else s

/-! ### The choice of a variant (R496 to R498) -/

/-- The state that the selection of R496 looks at: the losses reported less than 2 µs before the edge are not in it. -/
def withoutLate (late : List Nat) (s : State) : State :=
  late.foldl (fun s c =>
    if c < 0xA0 then lostClear c s
    else
      let k := c - 0xA0
      (List.range 40).foldl (fun s t => if k < 32 then s.put ⟨0x09, R.TRLH_DOWN_LO.off, 4, k, 1⟩ t 0
        else s.put ⟨0x09, R.TRLH_DOWN_HI.off, 4, k - 32, 1⟩ t 0) (s.put R.STIL_MODE_MODE k 0)) s

/-- The items of R496, lowest code first: the code (Table 20-4, PORT_TKO_LAST.CAUSE) and the variant for the item alone. -/
def takeoverItems (s : State) : List (Nat × Nat) :=
  (List.range 16).filterMap (fun p => if s.paneLost p then some (p, 1 + p) else none) ++
  (List.range 16).filterMap (fun p =>
    if s.paneLost p then none
    else ((paneSlats p).find? (fun n => s.flag (slatLostField n) 0)).map (fun n => (0x10 + n, 17 + p))) ++
  (List.range 2).filterMap (fun c => if s.ddrLost c then some (0x90 + c, 77 + c) else none) ++
  (List.range 44).filterMap (fun k => if s.downMask k then some (0xA0 + k, 33 + k) else none) ++
  (if [16, 17].any (fun n => s.flag R.SASH_SPARE_STAT_ACTIVE n) then [(0xE0, 79)] else [])

/-- Some route of a trailhead to a destination avoids the mask. -/
def State.routeAlive (s : State) (t dest : Nat) : Bool := (s.usableRoute t dest false).isSome || (s.usableRoute t dest true).isSome

/-- A variant is usable (R497). -/
def usable (s : State) (it : Itinerary) (v : Nat) : Bool :=
  let panes := it.variantPanes v
  panes.all (fun p => !s.paneLost p && (!s.slatLost p || v == 17 + p)) &&
  (variantFlows it v).all (fun f => s.routeAlive f.init f.dest && s.routeAlive (destTrlh f.dest) f.init) &&
  (List.range 2).all (fun c => !s.ddrLost c || v == 77 + c)

/-- The variant that R496 selects; none when the array halts. -/
def chooseVariant (s : State) (it : Itinerary) : Option Nat :=
  let lowest := (List.range 80).find? (usable s it)
  match takeoverItems s with
  | [] => if usable s it 0 then some 0 else lowest
  | [i] => if usable s it i.2 then some i.2 else lowest
  | _ => lowest

/-- The number that stands for a halted array in PORT_VARIANT (R498). -/
abbrev haltedVariant : Nat := 0xFF

/-- An itinerary that says nothing: what R496 selects for while none is current. -/
def emptyItinerary : Itinerary := ⟨0, 0, 0, [], [], [], []⟩

/-! ### What a variant brings (R96, R115, R273, R285, R308, R314, R500) -/

/-- The gang of a pane in a variant: size code and base. -/
def gangOfPane (it : Itinerary) (v p : Nat) : Option (Nat × Nat) :=
  (it.gangs v).find? (fun g => (gangPanes g.1 g.2).contains p)

/-- The gang of a pane as its page shows it. -/
def State.gangNow (s : State) (p : Nat) : Option (Nat × Nat) :=
  if s.flag R.PANE_MODE_IN_GANG p then some (s.get R.PANE_MODE_GANG_SIZE p, s.get R.PANE_MODE_GANG_BASE p) else none

/-- A halted gang that a change of variant breaks up is released (R525), and its task ends as at a cut-off. -/
def breakGang (it : Itinerary) (v stamp : Nat) (s : State) (p : Nat) : State :=
  if s.gangNow p ≠ none ∧ s.gangNow p ≠ gangOfPane it v p then
    cutTask p false (releaseEngines stamp (((s.paneGang p).map s.paneEngines).flatten) s)
  else s

/-- A pane joins or leaves its gang: PANE_MODE and the controller's state (R115, R153). -/
def formGang (it : Itinerary) (v : Nat) (s : State) (p : Nat) : State :=
  if !s.domainUp (14 + p) then s
  else
    let g := gangOfPane it v p
    let s1 := ((s.put R.PANE_MODE_IN_GANG p (bit g.isSome)).put R.PANE_MODE_GANG_SIZE p (g.map (fun x => x.1) |>.getD 0)).put
      R.PANE_MODE_GANG_BASE p (g.map (fun x => x.2) |>.getD 0)
    if g.isSome ∧ s.pcState p = pcStandby then s1.put R.PCTL_STATE_STATE p pcRun
    else if g.isNone ∧ s.pcState p = pcRun then s1.put R.PCTL_STATE_STATE p pcStandby
    else s1

/-- The route choices and the reservations of a trailhead in a variant: for a destination, those of the lowest reservation listed
(R308, R314). -/
def trailheadEdge (it : Itinerary) (v : Nat) (changed : Bool) (s : State) (t : Nat) : State :=
  let rs := (it.resvList v).filter (fun r => it.resvIn v r && r.init == t)
  let firsts := (rs.map (fun r => r.dest)).eraseDups.filterMap (fun d => rs.find? (fun r => r.dest == d))
  let h := s.th t
  s.setTh t { h with
    reqAlt := (firsts.filter (fun r => bitOf r.routes 0)).map (fun r => r.dest)
    rspAlt := (firsts.filter (fun r => bitOf r.routes 1)).map (fun r => r.dest)
    reserved := rs.map (fun r => (r.dest, r.bw))
    bucket := if changed then [] else h.bucket
    bucketStamp := if changed then [] else h.bucketStamp }

/-- TRLH_DDR_MAP.MODE that a variant sets (R500). -/
def variantMap (v : Nat) : Nat := if v = 77 then 2 else if v = 78 then 1 else 0

/-- The DDR map of every trailhead when a change of variant moves it. -/
def mapEdge (old new : Nat) (s : State) : State :=
  if variantMap old = variantMap new then s
  else (List.range 40).foldl (fun s t => s.put R.TRLH_DDR_MAP_MODE t (variantMap new)) s

/-- The entries that every gang runs in the tick that begins (R96). -/
def queueTasks (it : Itinerary) (v : Nat) (s : State) : State :=
  (it.gangs v).foldl (fun s g =>
    s.setRun g.2 ⟨if s.pcState g.2 = pcHalted then [] else (it.gangEntries v g.2).map (fun e => e.1), [], false⟩)
    { s with gangs := [] }

/-- PORT_VARIANT and what records its change (R496, R498). -/
def putVariant (new cause : Nat) (it : Itinerary) (s : State) : State :=
  let old := s.variantNow
  let s1 := (s.put R.PORT_VARIANT_VARIANT 0 new).put R.PORT_LOST_DDR_HALTED 0 (bit (new == haltedVariant))
  let s2 := (s1.put R.PORT_POWER_EST_DECLARED_MW 0 (it.variant new).powerTotal).put R.PORT_POWER_EST_ARRAY_EST_MW 0
    (min (arrayPower s it new) 65535)
  if old = new then s2
  else (s2.setReg 0x0B 0 0x08C (word (old * 2 ^ 24 + new * 2 ^ 16 + cause * 2 ^ 8))).countWrap R.PORT_TKO_COUNT_COUNT 0 1

/-- The variant in force from an edge on; `fresh` says that an itinerary has become current at it. -/
def variantEdge (late : List Nat) (fresh : Bool) (stamp : Nat) (s : State) : State :=
  let it := s.porter.current.getD emptyItinerary
  let old := s.variantNow
  let seen := withoutLate late s
  let new := (chooseVariant seen it).getD haltedVariant
  let changed := fresh || old != new
  let s1 := if changed then (List.range 16).foldl (breakGang it new stamp) s else s
  let s2 := putVariant new (((takeoverItems seen).head?.map (fun i => i.1)).getD 0xFF) it s1
  let s3 := (List.range 16).foldl (formGang it new) s2
  let s4 := (List.range 40).foldl (trailheadEdge it new changed) (mapEdge old new s3)
  if changed ∧ new ≠ haltedVariant then pantryEdge it new s4 else s4

/-! ### The staged itinerary (R53, R75) -/

/-- The head timing in force agrees with an itinerary's enabled head records. -/
def headsAgree (s : State) (it : Itinerary) : Bool :=
  ((List.range 4).zip it.heads).all (fun p => !p.2.enable ||
    (s.get R.HEAD_HTIME_ACTIVE p.1 == p.2.width && s.get R.HEAD_VTIME_ACTIVE p.1 == p.2.height &&
      s.get R.HEAD_FMT_REFRESH p.1 == p.2.refresh))

/-- The staged itinerary becomes current at the coming edge, as far as its stamp and its conditions go. -/
def stagedGoes (cut : Nat) (s : State) : Option Itinerary :=
  s.porter.staged.bind (fun it =>
    if s.porter.stagedStamp < cut ∧ it.period ≤ s.get R.TICK_PERIOD 0 ∧ headsAgree s it then some it else none)

/-- An itinerary becomes current (R75, R307). -/
def becomeCurrent (it : Itinerary) (stamp : Nat) (s : State) : State :=
  let s1 := s.setPorter { s.porter with current := some it, staged := none }
  let s2 := ((s1.put R.PORT_STATE_STAGED 0 0).put R.PORT_STATE_WAITING 0 0).raise 0x0B 0 4
  let s3 := ((s2.setReg 0x0B 0 0x054 (word it.id)).setReg 0x0B 0 0x058 0).setReg 0x17 0 0x060 (word it.period)
  let s4 := (List.range 40).foldl (fun s t => s.put R.TRLH_BANK_SEL_BANK t (bitsAt it.bankSel t 1)) (updatePins s3)
  if it.id = s4.get R.DBG_ALLOW_ID_ITIN_ID 0 then s4 else releaseAll stamp s4

/-- The staged itinerary at an edge: it becomes current, or waits (R75). -/
def stagedEdge (cut stamp : Nat) (s : State) : State :=
  match stagedGoes cut s with
  | some it => becomeCurrent it stamp s
  | none =>
    if s.porter.staged.isSome ∧ s.porter.stagedStamp < cut then (s.put R.PORT_STATE_WAITING 0 1).raise 0x0B 0 5 else s

/-! ### The picture of the tick that ends (R66, R70, R498, R500) -/

/-- A task of the variant belongs to a gang that the debug port holds (R521). -/
def taskHeld (s : State) (it : Itinerary) (v id : Nat) : Bool :=
  (it.variant v).entries.any (fun e => (match it.defs[e.defIdx]? with
    | some d => d.id == id
    | none => false) && s.pcState e.base == pcHalted)

/-- FRAME_INFO of a head for the picture that the ending tick rendered. Which surfaces a picture uses the spec does not say how to
find: they are a free choice among the surface table's entries. -/
def frameInfo (it : Itinerary) (v h : Nat) (s : State) : FrameInfo × State :=
  let (m, s1) := s.draw
  let mine := it.regions.filter (fun r => r.head == h && it.hasTask v r.task)
  let ids := ((List.range 32).filter (fun k => bitOf m k && bitOf (tblGet Surface.idle s.surfaces k).cfg 31)).map
    (fun k => (tblGet Surface.idle s.surfaces k).cfg % 2 ^ 16)
  let held := mine.any (fun r => taskHeld s it v r.task)
  (⟨held || mine.any (fun r => !s.doneTasks.contains r.task), held, v, s.tick.prevSnap, it.id, ids.length,
    (ids.mergeSort (fun a b => decide (a ≤ b))).take 6⟩, s1)

/-- FRAME_INFO for every head that the itinerary enables. -/
def sendInfos (it : Itinerary) (v : Nat) (s : State) : State :=
  ((List.range 4).zip it.heads).foldl (fun s p =>
    if p.2.enable then
      let r := frameInfo it v p.1 s
      lintelInfo p.1 r.1 r.2
    else s) s

/-- The writes that a pane's trailhead, or a spare's, has accepted and that have not been answered. -/
def writesOut (s : State) (t : Nat) : List NetReq :=
  let h := s.th t
  (h.tags.filterMap (fun e => e.2.bind (fun u => if u.quarantine then none else some u.req)) ++
    (h.queueS ++ h.queueA ++ h.queueB).map (fun e => e.2)).filter (fun q => q.write)

/-- A write touches pixels of a region in the framebuffer at an address. -/
def writesPixel (hd : HeadRec) (r : RegionRec) (base : Nat) (q : NetReq) : Bool :=
  let stride := (hd.width * hd.bpp + 63) / 64 * 64
  (List.range (64 * q.flits)).any (fun i =>
    let a := q.addr / 64 * 64 + i
    let y := (a - base) / stride
    let x := (a - base) % stride
    bitOf q.be i && decide (base ≤ a ∧ r.y ≤ y ∧ y < r.y + r.h ∧ r.x * hd.bpp ≤ x ∧ x < (r.x + r.w) * hd.bpp))

/-- The selects by which the ending tick's picture was made (R66): those of an itinerary whose first picture this is start at framebuffer A. -/
def selectsNow (it : Itinerary) (s : State) : Tbl Bool := if s.porter.shown = some it then s.regionSel else []

/-- A completed task has pixel writes of a region outstanding in the buffer that it writes (R66). -/
def pixelsOut (s : State) (it : Itinerary) (outs : List NetReq) (id : Nat) : Bool :=
  ((List.range it.regions.length).zip it.regions).any (fun p =>
    p.2.task == id && (match it.heads[p.2.head]? with
      | some hd => outs.any (writesPixel hd p.2 (if tblGet false (selectsNow it s) p.1 then hd.fbA else hd.fbB))
      | none => false))

/-- The tasks that completed with every pixel write of their regions acknowledged (R66). -/
def landedTasks (s : State) : List Nat :=
  match s.porter.current with
  | none => s.doneTasks
  | some it =>
    let outs := ((List.range 16 ++ [28, 29]).map (writesOut s)).flatten
    s.doneTasks.filter (fun id => !pixelsOut s it outs id)

/-- The buffer selects: a region's select flips when its task has completed; those of an itinerary whose first picture this is start at
framebuffer A (R66). -/
def flipRegions (s : State) : State :=
  match s.porter.current with
  | none => s.setPorter { s.porter with shown := none }
  | some it =>
    let base := selectsNow it s
    let sel := ((List.range it.regions.length).zip it.regions).foldl (fun t p =>
      if s.doneTasks.contains p.2.task then tblSet false t p.1 (!tblGet false t p.1) else t) base
    { s.setPorter { s.porter with shown := some it, shownVariant := s.variantNow } with regionSel := sel }

/-! ### The counts of the tick that ends (R152, R286, R334) -/

/-- The uncorrectable reads of a channel in the tick. -/
def ddrTick (s : State) (c : Nat) : State :=
  (s.put R.DDRC_UE_TICK_COUNT c (s.ddrCh c).ueTick).setDdr c { s.ddrCh c with ueTick := 0 }

/-- The flits that a stile forwarded, and its count of CRC errors within a tick (R325). -/
def stileTick (s : State) (k : Nat) : State :=
  let x := s.stile k
  (s.put R.STIL_FLITS_COUNT k (min x.flitsTick (2 ^ 32 - 1))).setStile k { x with flitsTick := 0, errTick := [] }

/-- A trailhead's latency bins and byte counts. -/
def trailheadTick (s : State) (t : Nat) : State :=
  s.setTh t { s.th t with statLast := (s.th t).statNow, statNow := [] }

/-- All counts of the last complete tick. -/
def countsEdge (s : State) : State :=
  let s1 := (List.range 16).foldl (fun s p => paneTick p s) s
  let s2 := (List.range 128).foldl (fun s n => rowTick n s) s1
  let s3 := (List.range 2).foldl ddrTick (pantTick s2)
  (List.range 40).foldl trailheadTick ((List.range 44).foldl stileTick s3)

/-! ### The edge -/

/-- Tasks that still run are cut off, but for those of gangs that the debug port holds (R97, R521). -/
def cutRunning (s : State) : State :=
  (List.range 16).foldl (fun s p =>
    if s.gangBase p = p ∧ s.taskNow p ≠ 0 ∧ s.pcState p ≠ pcHalted then cutTask p true s else s) s

/-- The panes whose controllers are HALTED at an edge: one released at least 2 µs before rejoins, another misses the tick (R521, R522). -/
def debugEdge (stamp : Nat) (s : State) : State :=
  (List.range 16).foldl (fun s p =>
    if s.pcState p ≠ pcHalted then s
    else
      let r := tblGet 0 s.released p
      if r ≠ 0 ∧ r - 1 + 500 ≤ stamp then
        let s1 := cutTask p false { s with released := tblSet 0 s.released p 0 }
        s1.put R.PCTL_STATE_STATE p (if s1.flag R.PANE_MODE_IN_GANG p then pcRun else pcStandby)
      else (s.count (R.DBG_MISS_COUNT.nth p) 0 1).raise 0x18 0 4) s

/-- The registers whose TB writes act at the edge by a rule of their own: SASH_SPARE_CTL and PORT_LOST_CMD. -/
def edgeCommand (w : ShadowWrite) : Bool :=
  w.key == regKey 0x0B 0 0x088 || w.key == regKey 3 16 0x090 || w.key == regKey 3 17 0x090

/-- The segments of a pane whose steering software changed. -/
def steerChanged (ws : List ShadowWrite) (p : Nat) : List Nat :=
  (List.range 4).filter (fun k => ws.any (fun w => w.key == regKey 0x01 p (0x048 + 4 * k)))

/-- The TB writes of the array die that the edge takes (R38, R61). -/
def shadowEdge (cut : Nat) (s : State) : State :=
  let ws := takenShadows s true cut
  let s1 := { s with shadows := leftShadows s true cut }
  let panes := (List.range 16).filter (fun p => s.domainUp (14 + p))
  let before := panes.foldl (fun s p => steerBefore p (steerChanged ws p) s) s1
  let s2 := (ws.filter (fun w => !edgeCommand w)).foldl applyShadow before
  let s3 := panes.foldl (fun s p => steerAuto p before s) s2
  let s4 := [0, 1].foldl (fun s k => match lastShadow ws (regKey 3 (16 + k) 0x090) with
    | some v => spareControl k v.toNat s
    | none => s) s3
  match lastShadow ws (regKey 0x0B 0 0x088) with
  | some v => lostCommand v.toNat s4
  | none => s4

/-- The array-side edge applied (R16, R61): it fell at the instant that the frame which told of it gives. -/
def arrayEdge (late : List Nat) (s : State) : State :=
  let cut := s.arrayCutoffStamp
  let stamp := s.tick.edgeAt
  let before := s.variantNow
  let s0 := cutRunning s
  let s1 := { s0 with doneTasks := landedTasks s0 }
  let s2 := flipRegions s1
  let s3 := cameraEdge cut s (shadowEdge cut s2)
  let s4 := [0, 1].foldl spareConnect s3
  let s5 := (List.range 128).foldl (partnerEdge late) s4
  let s6 := stagedEdge cut stamp s5
  let fresh := (stagedGoes cut s5).isSome
  let s7 := variantEdge late fresh stamp s6
  let now := s7.variantNow
  let s8 := match s2.porter.shown with
    | some it =>
      if before = haltedVariant ∨ now = haltedVariant ∨ variantMap before ≠ variantMap now then s7
      else sendInfos it before s7
    | none => s7
  let s9 := countsEdge (debugEdge stamp s8)
  let s10 := queueTasks (s9.porter.current.getD emptyItinerary) now s9
  let s11 := { s10 with
    doneTasks := []
    tick := { s10.tick with edgePending := false, windowOpen := true, arrayCutoff := none } }
  lintelEdge 0 (s11.put R.LNTL_LINK_STAT_TICK_SEQ 0 s11.tick.edgeSeq)

/-! ### The commands -/

/-- SPARE_LOAD_COMPLETE (R272). -/
def execSpareLoadComplete (k : Nat) (s : State) : Result := need (k < 2) (done (spareLoaded k s))

/-- ARRAY_SIDE_EDGE (R16, R61). -/
def execArraySideEdge (s : State) (late : List Nat := []) : Result :=
  done (if s.tick.edgePending && s.linkUp && s.domainOn 9 then arrayEdge late s else s)

/-- RENDER_WINDOW_CLOSE (R97, Table 03-1): tasks that still run are cut off, and none starts before the next edge. -/
def execRenderWindowClose (s : State) : Result :=
  done (if s.tick.windowOpen then cutRunning { s with tick := { s.tick with windowOpen := false } } else s)

end Sys2Proof.Machine
end

