-- ==== Sys2Proof/Machine/Transom.lean ====
section
/-!
DEFINITION. The Transom endpoint (R377 to R385): surfaces, the window, doorbells, MSI-X, the page. BAR0 accesses, which reach any page, are
with the commands that reach pages.
-/

namespace Sys2Proof.Machine

def State.surf (s : State) (e : Nat) : Surface := tblGet Surface.idle s.surfaces e
def State.setSurf (s : State) (e : Nat) (x : Surface) : State := { s with surfaces := tblSet Surface.idle s.surfaces e x }

def Surface.enabled (x : Surface) : Bool := bitOf x.cfg 31
/-- How many buffers an entry has (BUFS). -/
def Surface.bufs (x : Surface) : Nat := bitsAt x.cfg 24 2
def Surface.state (x : Surface) (b : Nat) : Nat := tblGet 0 x.states b
def Surface.setState (x : Surface) (b v : Nat) : Surface := { x with states := tblSet 0 x.states b v }
/-- The DDR address of a buffer. -/
def Surface.base (x : Surface) (b : Nat) : Nat := tblGet 0 x.addrs b * 4096

/-- A buffer returns to FREE: an error of its writes is forgotten (R382). -/
def Surface.free (x : Surface) (b : Nat) : Surface := { x.setState b 0 with failed := tblSet false x.failed b false }

/-- An entry that may not be changed: a buffer is POSTED or CURRENT (R379). -/
def Surface.busy (x : Surface) : Bool := (List.range 4).any (fun b => decide (2 ≤ x.state b))

/-! ### The surface window (R380, R381) -/

/-- The buffers of enabled entries, FREE or FILLING, that hold a byte of DDR. -/
def openBuffers (s : State) (a : Nat) : List (Nat × Nat) :=
  (List.range 32).flatMap (fun e =>
    let x := s.surf e
    ((List.range x.bufs).filter (fun b =>
      x.enabled && decide (x.state b ≤ 1 ∧ x.base b ≤ a ∧ a < x.base b + 4096 * x.pages))).map (fun b => (e, b)))

/-- A BAR2 write: accepted when every byte lies in an open buffer, which becomes FILLING. -/
def windowWrite (off : Nat) (data : List Byte) (s : State) : State :=
  let a := s.get R.TRSM_WIN_BASE_ADDR 0 * 4096 + off
  let hits := (List.range data.length).map (fun k => openBuffers s (a + k))
  if hits.any (fun h => h == []) then (s.count R.TRSM_WIN_DROP_COUNT 0 1).raise 0x10 0 4
  else
    let bufs := hits.flatten.eraseDups
    let s1 := bufs.foldl (fun s p => s.setSurf p.1 ((s.surf p.1).setState p.2 1)) s
    let r := storeBytes ⟨31, 0⟩ a data s1
    if r.2 = rspOk then r.1
    else bufs.foldl (fun s p =>
      let x := s.surf p.1
      s.setSurf p.1 { x with failed := tblSet false x.failed p.2 true }) r.1

/-! ### Doorbells (R382, R383) -/

/-- A doorbell refused (TRSM_DB_RESULT.LAST). -/
def refuseDoorbell (why : Nat) (s : State) : State :=
  ((s.count R.TRSM_DB_RESULT_REFUSED 0 1).put R.TRSM_DB_RESULT_LAST 0 why).raise 0x10 0 3

/-- A write of TRSM_DOORBELL. -/
def doorbellWrite (v : Nat) (s : State) : State :=
  if 16 ≤ s.doorbells.length then refuseDoorbell 1 s
  else { s with doorbells := s.doorbells ++ [(v % 32, bitsAt v 8 2)] }

/-- The doorbell that has waited longest is accepted or refused. -/
def doorbellAccept (stamp : Nat) (s : State) : State :=
  match s.doorbells with
  | [] => s
  | (e, b) :: rest =>
    let s0 := { s with doorbells := rest }
    let x := s.surf e
    if !x.enabled then refuseDoorbell 2 s0
    else if x.bufs ≤ b ∨ 2 ≤ x.state b then refuseDoorbell 3 s0
    else if tblGet false x.failed b then refuseDoorbell 4 s0
    else
      let s1 := s0.setSurf e { x.setState b 2 with posted := x.posted ++ [(b, stamp)] }
      let s2 := (s1.count R.TRSM_DB_ACCEPTED_COUNT 0 1).raise 0x10 0 1
      if s.flag R.TICK_PHASE_PAST_CUTOFF 0 && decide (s.cutoffStamp ≤ stamp) then
        { s2 with tick := { s2.tick with deferDoorbells := s2.tick.deferDoorbells + 1 } }
      else s2

/-- TRSM_SURF_CUR of an entry. -/
def showSurface (e : Nat) (s : State) : State :=
  let x := s.surf e
  s.setReg 0x10 0 (0x400 + 4 * e) (match (List.range 4).find? (fun b => x.state b == 3) with
    | some b => word (2 ^ 31 + b * 2 ^ 28 + tblGet 0 x.addrs b)
    | none => 0)

/-- One entry at a commit: of its buffers POSTED before the cutoff the last becomes CURRENT, the others and the old CURRENT are FREE. -/
def surfaceCommit (cut : Nat) (s : State) (e : Nat) : State :=
  let x := s.surf e
  let due := x.posted.filter (fun p => decide (p.2 < cut))
  match due.reverse with
  | [] => s
  | (b, _) :: older =>
    let old := (List.range 4).filter (fun k => x.state k == 3)
    let y := (old ++ older.map (fun p => p.1)).foldl Surface.free { x with posted := x.posted.filter (fun p => !decide (p.2 < cut)) }
    let s1 := showSurface e (s.setSurf e (y.setState b 3))
    let s2 := s1.count R.TRSM_SUPERSEDED_COUNT 0 older.length
    if old = [] then s2 else s2.raise 0x10 0 2

/-- The surfaces' part of a commit (R383). -/
def transomCommit (cut : Nat) (s : State) : State := (List.range 32).foldl (surfaceCommit cut) s

/-! ### The page -/

/-- The entry that TRSM_SURF_IDX selects. -/
def State.surfIdx (s : State) : Nat := s.get R.TRSM_SURF_IDX_SURF 0

/-- The value rules of the TRSM page. -/
def trsmBad (off v : Nat) (s : State) : Option Nat :=
  let entry := decide (0x050 ≤ off ∧ off < 0x05C)
  if off = 0x050 ∧ (bitsAt v 24 2 < 2 ∨ v % 2 ^ 16 = 0xFFFF) then some 0x0009
  else if off = 0x058 ∧ v % 2 ^ 16 = 0 then some 0x0009
  else if entry && (s.surf s.surfIdx).busy then some 0x0101
  else none

/-- A vector's source replaced: the level of the new page's output is what the vector has last seen. -/
def vecSrcWrite (w : WriteReq) (s : State) : State :=
  let v := (w.off - 0x100) / 4
  let s1 := s.setReg 0x10 0 w.off (w.value &&& 0x8000FFFF)
  { s1 with pins := { s1.pins with vecLevel := setBits s1.pins.vecLevel v 1 (bit (s1.vectorOut v)) } }

/-- The registers of the TRSM page with a rule of their own. -/
def trsmSpecial (w : WriteReq) (s : State) : Option Written :=
  let v := w.value.toNat
  let e := s.surfIdx
  let x := s.surf e
  match w.off with
  | 0x044 => some (s.setReg 0x10 0 0x044 ((w.value &&& 0x1FFFFFE) ||| 0x10000), rspOk)
  | 0x050 => some (s.setSurf e { x with cfg := v &&& 0x8300FFFF }, rspOk)
  | 0x054 => some (s.setSurf e { x with addrs := tblSet 0 x.addrs (s.get R.TRSM_SURF_IDX_BUF 0) (v % 2 ^ 28) }, rspOk)
  | 0x058 => some (s.setSurf e { x with pages := v % 2 ^ 16 }, rspOk)
  | 0x060 => some (doorbellWrite v s, rspOk)
  | off => if 0x100 ≤ off ∧ off < 0x200 then some (vecSrcWrite w s, rspOk) else none

/-- A read of the TRSM page's derived registers. -/
def trsmRead (off : Nat) (s : State) : Option Word :=
  let x := s.surf s.surfIdx
  match off with
  | 0x050 => some (word x.cfg)
  | 0x054 => some (word (tblGet 0 x.addrs (s.get R.TRSM_SURF_IDX_BUF 0)))
  | 0x058 => some (word x.pages)
  | 0x05C => some (word (x.state 0 + 4 * x.state 1 + 16 * x.state 2))
  | 0xC00 => some (word (maskOf 32 (fun v => bitOf s.pins.vecWait v && s.flag ⟨0x10, 0x80C + 16 * v, 4, 0, 1⟩ 0)))
  | 0xC04 => some (word (maskOf 32 (fun v => bitOf s.pins.vecWait (32 + v) && s.flag ⟨0x10, 0x80C + 16 * (32 + v), 4, 0, 1⟩ 0)))
  | _ => none

/-- SOFT_RESET of the TRSM page (R385): SAFE registers stay, and the surfaces with them. -/
def trsmReset (s : State) : State :=
  (s.resetPage 0x10 0 (fun off => !(off == 0x024 || off == 0x040 || off == 0x044 || off == 0x048 || (0x400 ≤ off && decide (off < 0x480))))).dropShadows 0x10 0

/-- OFF of PD_TRANSOM (R385): every buffer FREE, the doorbells and the table gone. -/
def trsmOff (s : State) : State :=
  { s with surfaces := [], doorbells := [], pins := { s.pins with vecLevel := 0, vecWait := 0 } }

/-! ### The commands -/

/-- BAR2_WRITE (R380, R381). -/
def execBar2Write (off : Nat) (data : List Byte) (s : State) : Result := done (if s.domainOn 7 then windowWrite off data s else s)

/-- DOORBELL_ACCEPT (R382). -/
def execDoorbellAccept (stamp : Nat) (s : State) : Result := done (if s.domainOn 7 then doorbellAccept stamp s else s)

/-- MSIX_MESSAGE (R384): a waiting, unmasked vector sends its message, address and data in the answer slot. -/
def execMsixMessage (v : Nat) (s : State) : Result :=
  let a := 0x800 + 16 * v
  need (v < 64) (done (if s.domainOn 7 && s.flag R.TRSM_LINK_STAT_UP 0 && bitOf s.pins.vecWait v && !bitOf (s.getReg 0x10 0 (a + 12)).toNat 0 then
    { s with
      pins := { s.pins with vecWait := setBits s.pins.vecWait v 1 0 }
      answer := [⟨rspOk, wordBytes (s.getReg 0x10 0 a) ++ wordBytes (s.getReg 0x10 0 (a + 4)) ++ wordBytes (s.getReg 0x10 0 (a + 8))⟩] }
    else s))

/-- TRSM_LINK_CHANGE (R377). -/
def execTrsmLinkChange (up : Bool) (speed width : Nat) (s : State) : Result :=
  let w := word (width * 16 + speed * 2 + bit up)
  done (if s.domainOn 7 && s.getReg 0x10 0 0x040 != w then (s.setReg 0x10 0 0x040 w).raise 0x10 0 0 else s)

end Sys2Proof.Machine
end

