-- ==== Sys2Proof/Machine/Read.lean ====
section
/-!
DEFINITION. What a register reads as (R36, R37, R43): the stored word, or the value derived from the rest of the state.
-/

namespace Sys2Proof.Machine

/-- STAT.DRAINED of a page (R43, R328): a trailhead, a stile by their own rules; an engine with nothing outstanding; a pane controller
outside PATCH (R171); the March engine without a run (R294); the debug port without an access. -/
def State.drained (s : State) (ty n : Nat) : Bool :=
  match ty with
  | 0x02 => s.pcState n != pcPatch
  | 0x03 =>
    let x := s.eng (engKey ty n)
    x.far.isNone && x.dmaRun.isNone && x.dmaQueue == []
  | 0x04 =>
    let x := s.eng (engKey ty n)
    x.far.isNone && x.dmaRun.isNone && x.dmaQueue == []
  | 0x05 =>
    let x := s.eng (engKey ty n)
    x.far.isNone && x.dmaRun.isNone && x.dmaQueue == []
  | 0x07 => s.march.isNone
  | 0x09 => s.flag (R.HDR_STAT_DRAINED.on ty) n && openTags (s.th n) == []
  | 0x18 => !s.jtag.busy
  | _ => s.flag (R.HDR_STAT_DRAINED.on ty) n

/-- STAT.FAULT of a page: a stile as R325 sets it; a FAULTED engine; a Glazing fault that is not cleared. -/
def State.pageFault (s : State) (ty n : Nat) : Bool :=
  match ty with
  | 0x03 => s.engState ty n == esFaulted
  | 0x04 => s.engState ty n == esFaulted
  | 0x05 => s.engState ty n == esFaulted
  | 0x0E => s.flag R.GLAZ_FAULT_CHECKER 0 || s.flag R.GLAZ_FAULT_SRAM_UE 0 || s.ttFailed
  | _ => s.flag (R.HDR_STAT_FAULT.on ty) n

/-- STAT.FENCED of a page: a stile is fenced in DETOUR and DOWN (R327). -/
def State.fencedStat (s : State) (ty n : Nat) : Bool :=
  if ty = 0x08 then s.get R.STIL_MODE_MODE n != 0 else s.flag (R.HDR_CTL_FENCE.on ty) n

/-- STAT as it reads (R43). -/
def State.statWord (s : State) (ty n : Nat) : Word :=
  word (s.domain (pageDomain ty n) * 16 + bit (s.pageFault ty n) * 8 + bit (s.drained ty n) * 4 +
    bit (s.fencedStat ty n) * 2 + bit (s.flag (R.HDR_CTL_ENABLE.on ty) n))

/-- A word that is a free value of so many bits. -/
def freeRead (w : Nat) (s : State) : Option (State × Word) := some (s.draw.2, word (s.draw.1 % 2 ^ w))

/-- The derived registers of a PCTL page: the queue and the micro-program counter as they stand; cycle counts, free values; the op-table
entry selected. -/
def pctlRead (p off : Nat) (s : State) : Option (State × Word) :=
  let c := s.ctl p
  match off with
  | 0x040 => some (s, word (c.queue.length * 2 ^ 24 + (if c.dispatch then 0 else c.upc) * 2 ^ 8 + bit c.dispatch * 4 + s.pcState p))
  | 0x048 => if s.taskNow p = 0 then some (s, 0) else freeRead 25 s
  | 0x07C => some (s, word ((tblGet 0 c.opTable (s.get R.PCTL_OPT_IDX_OP p)).toNat % 2 ^ 32))
  | 0x080 => some (s, word ((tblGet 0 c.opTable (s.get R.PCTL_OPT_IDX_OP p)).toNat / 2 ^ 32))
  | _ => none

/-- The derived registers of an engine page. -/
def engRead (ty n off : Nat) (s : State) : Option (State × Word) :=
  match off with
  | 0x054 =>
    if wdgRuns s ty n then some (s.draw.2, word (wdgLeft s ty n s.draw.1)) else none
  | 0x058 => if ty = 5 then none else some (taskRead ty n s)
  | 0x05C => some (s, word ((s.getReg ty n 0x05C).toNat % 256 + s.ipend ty n / 256 % 256 * 256))
  | _ => none

/-- STIL_CREDIT of the port and channel selected (R322); the credits toward a trailhead are a free value. -/
def creditRead (k : Nat) (s : State) : Option (State × Word) :=
  let port := s.get R.STIL_CREDIT_SEL_PORT k
  let vc := s.get R.STIL_CREDIT_SEL_VC k
  let x := s.stile k
  if !portPresent k port then some (s, 0)
  else
    let used := tblGet 0 x.used (port * 4 + vc)
    let here := (tblGet [] x.buf (port * 4 + vc)).length * 2 ^ 8 + (inputDepth k port - used)
    match (if port < 4 then stilNext k port else none) with
    | some far => some (s, word (creditHeld s far (oppositePort port) vc * 2 ^ 16 + here))
    | none => some (s.draw.2, word (s.draw.1 % 32 * 2 ^ 16 + here))

/-- The statistics of the initiator selected (R334). -/
def statRead (t off : Nat) (s : State) : Option (State × Word) :=
  let get := fun (k : Nat) => some (s, word (tblGet 0 (s.th t).statLast (s.get R.TRLH_STAT_SEL_INIT t * 32 + k)))
  if 0x0A4 ≤ off ∧ off < 0x0B0 then get (16 + (off - 0x0A4) / 4)
  else if 0x0C0 ≤ off ∧ off < 0x100 then get ((off - 0x0C0) / 4)
  else if off = 0x044 then some (s, routeRead s t false)
  else if off = 0x048 then some (s, routeRead s t true)
  else none

/-- DBG_FLT_ACTIVE (R493). -/
def activeRead (s : State) : Word :=
  word (bit s.ttFault * 2 ^ 9 + bit s.faultLevel * 2 ^ 8 + maskOf 6 s.classActive)

/-- A pure derived value in the form of a read. -/
def pureRead (s : State) (v : Option Word) : Option (State × Word) := v.map (fun w => (s, w))

/-- The registers that no word of the register file holds, or whose read has an effect. -/
def derivedRead (i : Initiator) (consume : Bool) (ty n off : Nat) (s : State) : Option (State × Word) :=
  if off = 0x00C then some (s, s.statWord ty n)
  else if off < 0x040 then none
  else match ty with
    | 0x02 => pctlRead n off s
    | 0x03 => engRead ty n off s
    | 0x04 => engRead ty n off s
    | 0x05 => engRead ty n off s
    | 0x06 => if off = 0x040 then some (s, word (setBits (s.getReg ty n off).toNat 17 1 (bit (s.bankPinnedAt n)))) else none
    | 0x08 => if off = 0x064 then creditRead n s else if off = 0x210 ∧ n = 0 then some (traceRead s) else none
    | 0x09 => statRead n off s
    | 0x0C => if off = 0x058 then some (trainDataRead n s) else if off = 0x074 then freeRead 3 s else none
    | 0x0D => headRead n off s
    | 0x0E => pureRead s (glazRead off s)
    | 0x0F => camiRead n off s
    | 0x10 => pureRead s (trsmRead off s)
    | 0x11 => if off = 0x190 then freeRead 32 s else if off = 0x194 then freeRead 16 s else pureRead s (gateRead i off s)
    | 0x12 => pureRead s (sigtRead off s)
    | 0x13 => if off = 0x064 then some (s, word (maskOf 8 s.irqSource)) else none
    | 0x14 => pureRead s (ltchRead off s)
    | 0x15 => hngeRead off consume s
    | 0x16 => shutRead off s
    | 0x17 =>
      if off = 0x054 ∧ s.flag R.TICK_RUN_RUN 0 then
        some (s.draw.2, word (bit (s.flag R.TICK_PHASE_PAST_CUTOFF 0) * 2 ^ 31 + s.draw.1 % 2 ^ 20))
      else none
    | 0x18 => if off = 0x800 then some (s, activeRead s) else none
    | _ => none

/-- A read of one register with its effects: by a page's own rule, else the stored word. -/
def fullRead (i : Initiator) (consume : Bool) (ty n off : Nat) (s : State) : State × Answer :=
  match (if ty = 0x18 then dbgRead i off consume s else none) with
  | some r => r
  | none =>
    match derivedRead i consume ty n off s with
    | some r => (r.1, ⟨rspOk, wordBytes r.2⟩)
    | none => (s, ⟨rspOk, wordBytes (s.getReg ty n off)⟩)

/-- A read of one register (R36, R515): a peek has no effect but the free values that it draws. -/
def pageRead (i : Initiator) (consume : Bool) (ty n off : Nat) (s : State) : State × Answer :=
  let r := fullRead i consume ty n off s
  if consume || r.2.code != rspOk then r else ({ s with freeCount := r.1.freeCount }, r.2)

/-- The RSE registers (R37). -/
def isRse (ty off : Nat) : Bool :=
  ((ty == 3 || ty == 4) && off == 0x058) || (ty == 0x15 && decide (0x200 ≤ off ∧ off < 0x300) && off % 32 == 0x10) ||
  (ty == 0x18 && (off == 0x040 || off == 0x044))

end Sys2Proof.Machine
end

