-- ==== Sys2Proof/Machine/Write.lean ====
section
/-!
DEFINITION. What a page does with a write (R33 to R46, R548): the header, the checks in their order, SOFT_RESET by block, the
registers with a rule of their own, and the access types for all others.
-/

namespace Sys2Proof.Machine

/-! ### SOFT_RESET (R44) -/

/-- SOFT_RESET of a DDRC page (R28): registers and training record; the DRAM's contents, the channel's state, which only a training
leaves (R25), and U stay. -/
def ddrcReset (ch : Nat) (s : State) : State :=
  let c := s.ddrCh ch
  (s.setDdr ch { c with record := [], fullMode := false, scrubBlock := 0, ueTick := 0 }).resetPage 0x0C ch
    (fun off => off != 0x024 && off != 0x044 && off != 0x048)

/-- SOFT_RESET of a PANE page: its slats drive their partners' lines no longer (R125). -/
def panePageReset (p : Nat) (s : State) : State :=
  (paneSlats p).foldl (fun s n => s.put R.SLAT_ROW_CFG_PARTNER n 0) (paneReset p s)

/-- The reset of a block as its chapter states it. -/
def blockReset (ty n : Nat) (s : State) : State :=
  match ty with
  | 0x01 => panePageReset n s
  | 0x02 => pctlReset n s
  | 0x03 => engReset 3 n s
  | 0x04 => engReset 4 n s
  | 0x05 => engReset 5 n s
  | 0x06 => pantReset n s
  | 0x07 => mrchReset s
  | 0x08 => stileReset n s
  | 0x09 => trlhReset n s
  | 0x0A => lntlReset n s
  | 0x0B => portReset s
  | 0x0C => ddrcReset n s
  | 0x0D => headReset n s
  | 0x0E => glazReset s
  | 0x0F => camiReset n s
  | 0x10 => trsmReset s
  | 0x11 => gateReset s
  | 0x12 => sigtReset s
  | 0x14 => ltchReset s
  | 0x15 => hngeReset s
  | 0x16 => shutReset s
  | 0x17 => tickSoftReset s
  | 0x18 => dbgReset s
  | _ => s.resetPage ty n (fun off => off != 0x024)

/-- A page reset: the block's, CTL with it except where the chapter keeps the page (R489, R528), and the shadows of its TB fields
(R64); an unlock window closes, and HARD_LOCK stays (R46). An engine that its reset starts reads ENABLE as 1. -/
def pageReset (ty n : Nat) (s : State) : State :=
  let s1 := blockReset ty n s
  let s2 := if ty = 0x16 ∨ ty = 0x18 then s1 else s1.resetPage ty n (fun off => off == 0x008)
  (s2.setWindow ty n none).dropShadows ty n

/-- Why a SOFT_RESET is refused (R28, R44, R171, R327, R489; GLAZ 0x0104 during a load). -/
def resetBad (ty n : Nat) (s : State) : Option Nat :=
  if ty = 0x08 then (if stileQuiet s n then none else some 0x0102)
  else if ty = 0x0E ∧ s.glazLoading then some 0x0104
  else if !s.flag (R.HDR_CTL_FENCE.on ty) n || !s.drained ty n then some 0x0007
  else if ty = 0x0C ∧ s.ddrState n ≠ ddrDown ∧ s.ddrState n ≠ ddrLostState then some 0x0007
  else if ty = 0x16 ∧ s.getReg 0x16 0 0x048 ≠ 0 then some 0x0007
  else none

/-- A write of 1 to CTL.SOFT_RESET. -/
def resetWrite (w : WriteReq) (s : State) : Written :=
  match resetBad w.ty w.n s with
  | some code => refuseWrite w rspRefused code s
  | none => (pageReset w.ty w.n s, rspOk)

/-! ### CTL -/

/-- CTL.ENABLE written where it can be (R43). -/
def enableCtl (w : WriteReq) (s : State) : Written :=
  let on := bitOf w.value.toNat 0
  let was := s.flag (R.HDR_CTL_ENABLE.on w.ty) w.n
  let s1 := s.put (R.HDR_CTL_ENABLE.on w.ty) w.n (bit on)
  if !enableWritable w.ty then (s, rspOk)
  else match w.ty with
    | 0x03 => if on then enableWrite w s else disableWrite w s
    | 0x04 => if on then enableWrite w s else disableWrite w s
    | 0x05 => if on then enableWrite w s else disableWrite w s
    | 0x09 => (if on && !was then sendOpen w.n s1 else s1, rspOk)
    | 0x0D =>
      match (if on && !was then headBad w.n 0x008 1 s else none) with
      | some code => refuseWrite w rspRefused code s
      | none => (headEnableEdge w.n was on s1, rspOk)
    | 0x0F => (if was && !on then camDisable w.n s1 else s1, rspOk)
    | 0x11 => (settlePorts s1, rspOk)
    | _ => (s1, rspOk)

/-- A write of CTL (R43, R44); FENCE of a stile takes no write (R327). -/
def ctlWrite (w : WriteReq) (s : State) : Written :=
  if bitOf w.value.toNat 2 then resetWrite w s
  else
    let r := enableCtl w s
    if r.2 = rspOk ∧ w.ty ≠ 0x08 then (r.1.put (R.HDR_CTL_FENCE.on w.ty) w.n (bitsAt w.value.toNat 1 1), rspOk) else r

/-! ### The registers of a block -/

/-- The value or state that makes a page refuse a write, and the code it latches (R548). -/
def pageBad (w : WriteReq) (s : State) : Option Nat :=
  let v := w.value.toNat
  match w.ty with
  | 0x01 => paneBad w.off v
  | 0x03 => engBad 3 w.n w.off v s
  | 0x04 => engBad 4 w.n w.off v s
  | 0x05 => engBad 5 w.n w.off v s
  | 0x07 => mrchBad w.off s
  | 0x08 => stilBad w.n w.off v s
  | 0x09 => trlhBad w.n w.off v s
  | 0x0B => portBad w.off v s
  | 0x0C => ddrcBad w.n w.off v s
  | 0x0D => headBad w.n w.off v s
  | 0x0E => glazBad w.off v s
  | 0x0F => camiBad w.off v
  | 0x10 => trsmBad w.off v s
  | 0x11 => gateBad w.off v s
  | 0x14 => ltchBad w.off v
  | 0x15 => hngeBad w.off v s
  | 0x16 => shutBad w.off v
  | 0x17 => tickBad w.off v
  | 0x18 => dbgBad w.off v
  | _ => none

/-- The registers with a rule of their own. -/
def pageSpecial (w : WriteReq) (s : State) : Option Written :=
  match w.ty with
  | 0x01 => paneSpecial w s
  | 0x02 => pctlSpecial w s
  | 0x03 => engSpecial w s
  | 0x04 => engSpecial w s
  | 0x05 => engSpecial w s
  | 0x06 => pantSpecial w s
  | 0x07 => mrchSpecial w s
  | 0x08 => stilSpecial w s
  | 0x09 => trlhSpecial w s
  | 0x0A => lntlSpecial w s
  | 0x0C => ddrcSpecial w s
  | 0x0D => headSpecial w s
  | 0x0E => glazSpecial w s
  | 0x10 => trsmSpecial w s
  | 0x11 => gateSpecial w 15 s
  | 0x12 => sigtSpecial w s
  | 0x14 => ltchSpecial w s
  | 0x15 => hngeSpecial w s
  | 0x16 => shutSpecial w s
  | 0x17 => tickSpecial w s
  | 0x18 => dbgSpecial w s
  | _ => none

/-- A write of a block's register whose lock, if it has one, is open: the value rules, then the register's own rule or its access
types. -/
def valueWrite (r : RegInfo) (w : WriteReq) (s : State) : Written :=
  match pageBad w s with
  | some code => refuseWrite w rspRefused code s
  | none =>
    match pageSpecial w s with
    | some x => x
    | none => genericWrite r w s

/-- A write of a block's register: SAFE fields (R39), locked registers (R46), the value. -/
def blockWrite (r : RegInfo) (w : WriteReq) (s : State) : Written :=
  if r.safe ≠ 0 ∧ !w.auth then refuseWrite w rspAuth 0x0004 s
  else if r.locked then
    match lockCheck w s with
    | none => refuseWrite w rspRefused 0x0001 s
    | some s1 => valueWrite r w s1
  else valueWrite r w s

/-- A write of one register word by its offset. Offsets that no table names take no write (R3). -/
def wordWrite (w : WriteReq) (s : State) : Written :=
  match w.off with
  | 0x008 => ctlWrite w s
  | 0x010 => let r := evtWrite w s; (if w.ty = 0x18 then vtRaise r.1 else r.1, r.2)
  | 0x014 => evtEnWrite w s
  | 0x018 => evtForceWrite w s
  | 0x024 => lockWrite w s
  | off =>
    if off < 0x040 then (s, rspOk)
    else match findReg (regsOf w.ty) off with
      | some r => blockWrite r w s
      | none => (s, rspOk)

/-- A fall of the debug level, or of DBG_ALLOW.EN, that a write brought (R525). -/
def afterWrite (w : WriteReq) (s : State) : State :=
  if (w.ty = 0x14 ∧ w.off = 0x06C) ∨ (w.ty = 0x18 ∧ w.off = R.DBG_ALLOW_EN.off) then debugFall w.stamp s else s

/-- A write that reaches a page: its domain (R35), its width (R33; the staging area of GATE takes any byte enables, R416), the
register. -/
def pageWrite (w : WriteReq) (enables : Nat) (s : State) : Written :=
  if !s.domainUp (pageDomain w.ty w.n) then (s, rspClosed)
  else if w.ty = 0x11 ∧ 0x400 ≤ w.off ∧ w.off < 0x800 then (gateSpecial { w with off := w.off / 4 * 4 } enables s).getD (s, rspOk)
  else if w.off % 4 ≠ 0 ∨ enables ≠ 15 then refuseWrite { w with off := w.off / 4 * 4 } rspRefused 0x0003 s
  else
    let r := wordWrite w s
    (afterWrite w r.1, r.2)

/-- A read that reaches a page: its domain, its width, the register. -/
def pageFetch (i : Initiator) (consume : Bool) (ty n off enables : Nat) (s : State) : State × Answer :=
  if !s.domainUp (pageDomain ty n) then (s, ⟨rspClosed, []⟩)
  else if off % 4 ≠ 0 ∨ enables ≠ 15 then (s.err ty n (off / 4 * 4) 0x0003, ⟨rspRefused, []⟩)
  else pageRead i consume ty n off s

end Sys2Proof.Machine
end

