-- ==== Sys2Proof/Machine/Serve.lean ====
section
/-!
DEFINITION. How a request is served where it arrives (R30, R33 to R37, R302, R303, R323, R328): fence, pages word by word, memories
and windows; and the accesses that agents without a wait of their own make word by word.
-/

namespace Sys2Proof.Machine

/-! ### Pages (R33, R37) -/

/-- The words that a request touches, and the byte enables of each. -/
def touchedWords (q : NetReq) : List (Nat × Nat) :=
  ((List.range 16).map (fun k => (k, bitsAt q.be (4 * k) 4))).filter (fun p => p.2 != 0)

/-- The word that the lanes of a write carry. -/
def laneWord (q : NetReq) (k : Nat) : Word := word (leNum ((q.data.drop (4 * k)).take 4))

/-- Lanes with one word's bytes put in its place. -/
def putWord (lanes : List Byte) (k : Nat) (b : List Byte) : List Byte := lanes.take (4 * k) ++ b ++ lanes.drop (4 * k + 4)

/-- The first response code that is not RSP_OK. -/
def failFirst (a b : Nat) : Nat := if a = rspOk then b else a

/-- A write of several words, in ascending order, each on its own (R33). -/
def writeWords (i : Initiator) (auth : Bool) (ty n base stamp : Nat) (q : NetReq) : List (Nat × Nat) → State → State × Nat
  | [], s => (s, rspOk)
  | (k, en) :: t, s =>
    let r := pageWrite ⟨i, auth, ty, n, base + 4 * k, laneWord q k, stamp⟩ en s
    let x := writeWords i auth ty n base stamp q t r.1
    (x.1, failFirst r.2 x.2)

/-- A read of several words, in ascending order, each on its own (R33): the lanes, and the first failing code. -/
def readWords (i : Initiator) (consume : Bool) (ty n base : Nat) : List (Nat × Nat) → List Byte → State → State × List Byte × Nat
  | [], l, s => (s, l, rspOk)
  | (k, en) :: t, l, s =>
    let r := pageFetch i consume ty n (base + 4 * k) en s
    let x := readWords i consume ty n base t (if r.2.code = rspOk then putWord l k (r.2.data.take 4) else l) r.1
    (x.1, x.2.1, failFirst r.2.code x.2.2)

/-- A read's side effects: the debug port peeks unless it asks (R37, R515). -/
def consumes (i : Initiator) (q : NetReq) : Bool := i != portInit || q.consume

/-- A request to a register page. -/
def servePage (i : Initiator) (auth : Bool) (ty n off stamp : Nat) (q : NetReq) (s : State) : State × Answer :=
  let ws := touchedWords q
  let base := off / 64 * 64
  if !s.domainUp (pageDomain ty n) then (s, ⟨rspClosed, []⟩)
  else if q.rotate ∨ q.flits ≠ 1 then (s.err ty n (off / 4 * 4) 0x0003, ⟨rspRefused, []⟩)
  else if q.write then
    let r := writeWords i auth ty n base stamp q ws s
    (r.1, ⟨r.2, []⟩)
  else if 1 < ws.length ∧ ws.any (fun p => isRse ty (base + 4 * p.1)) then
    let off1 := ((ws.find? (fun p => isRse ty (base + 4 * p.1))).map (fun p => base + 4 * p.1)).getD base
    (s.err ty n off1 0x0005, ⟨rspRefused, []⟩)
  else
    let r := readWords i (consumes i q) ty n base ws (List.replicate 64 0) s
    (r.1, ⟨r.2.2, if r.2.2 = rspOk then r.2.1 else []⟩)

/-- A write of edge configuration or edge registers whose response waits: the pane's controller executes a macro-op, and the write takes effect
at the boundary after it (R114). -/
def edgeHeld (ty n off : Nat) (q : NetReq) (s : State) : Bool :=
  ty == 1 && q.write && !(s.ctl n).dispatch && (touchedWords q).any (fun p => isEdgeOff (off / 64 * 64 + 4 * p.1))

/-- The response joins those that wait for the boundary. -/
def holdEdge (n : Nat) (r : Option ReplyTo) (s : State) : State :=
  s.setCtl n { s.ctl n with edgeWait := (s.ctl n).edgeWait ++ [r] }

/-! ### Memories and windows -/

/-- The lanes of a block as an answer: the bytes of the enabled lanes, 0 in the others. -/
def enabledLanes (q : NetReq) (f : Nat → Byte) : List Byte := (List.range 64).map (fun k => if bitOf q.be k then f k else 0)

/-- The rows of 8 bytes that the enabled lanes of a block touch. -/
def laneRows (q : NetReq) (a : Nat) : List Nat :=
  ((List.range 8).filter (fun r => bitsAt q.be (8 * r) 8 != 0)).map (fun r => a / 64 * 8 + r)

/-- A read of Glazing SRAM; it is written only by loads (Table 02-1). -/
def serveGlazing (off : Nat) (q : NetReq) (s : State) : State × Answer :=
  if q.write ∨ q.rotate ∨ q.flits ≠ 1 then (s, ⟨rspRefused, []⟩)
  else
    let rows := laneRows q off
    let bad := rows.any (fun r => decodeWord (tblGet 0 s.glaz.errs r).toNat == .uncorrectable)
    let s1 := rows.foldl (fun s r => glazRow r s) s
    if bad then (s1, ⟨rspEcc, []⟩)
    else (s1, ⟨rspOk, enabledLanes q (fun k => BitVec.ofNat 8 (s1.glazRd (off / 64 * 64 + k) 1))⟩)

/-- A read of a pane's Larder; it is written only through LARDER_PATCH (Table 02-1). -/
def serveLarder (p off : Nat) (q : NetReq) (s : State) : State × Answer :=
  if q.write ∨ q.rotate ∨ q.flits ≠ 1 then (s, ⟨rspRefused, []⟩)
  else (s, ⟨rspOk, enabledLanes q (fun k =>
    let a := off / 64 * 64 + k
    BitVec.ofNat 8 ((tblGet 0 (s.ctl p).larder (a / 4)).toNat / 2 ^ (8 * (a % 4))))⟩)

/-- The port may write the instruction memory of a HALTED engine at FULL (R524). -/
def State.portPatches (s : State) (i : Initiator) (ty n : Nat) : Bool :=
  i == portInit && s.debugLevel == 2 && s.engState ty n == esHalted

/-- The enabled lanes of a write stored in an engine's memory. -/
def storeLanes (dm : Bool) (a : Nat) (q : NetReq) (m : EngMem) : EngMem :=
  (List.range 64).foldl (fun m k => if bitOf q.be k then m.store dm (a + k) [q.data.getD k 0] else m) m

/-- A request to an engine's window (Table 11-2, R258, R260). -/
def serveEngine (i : Initiator) (ty n off : Nat) (q : NetReq) (s : State) : State × Answer :=
  let k := engKey ty n
  let dm := decide (0x20000 ≤ off)
  let a := off % 0x20000 / 64 * 64
  let rows := laneRows q a
  if q.rotate ∨ q.flits ≠ 1 ∨ (s.mem k).initRunning then (s, ⟨rspRefused, []⟩)
  else if q.write ∧ !dm ∧ s.flag (R.HDR_CTL_ENABLE.on ty) n ∧ i ≠ engInit ty n ∧ !s.portPatches i ty n then
    (s.err ty n 0 0x0102, ⟨rspRefused, []⟩)
  else if q.write then
    let part := rows.filter (fun r => bitsAt q.be (8 * (r % 8)) 8 != 255)
    let s1 := readRows ty n dm part s
    if (s.mem k).bad dm part then (s1, ⟨rspEcc, []⟩)
    else (s1.setMem k (storeLanes dm a q (s1.mem k)), ⟨rspOk, []⟩)
  else
    let s1 := readRows ty n dm rows s
    if (s.mem k).bad dm rows then (s1, ⟨rspEcc, []⟩)
    else (s1, ⟨rspOk, enabledLanes q (fun j => (s.mem k).byte dm (a + j))⟩)

/-- A request to DDR (R302, Table 01-10); none while the channel holds it. -/
def serveDdr (ch a : Nat) (x : NetIn) (s : State) : State × Option Answer :=
  let q := x.req
  if q.rotate ∨ q.flits = 3 ∨ (1 < q.flits ∧ (q.addr % (64 * q.flits) ≠ 0 ∨ (!q.write ∧ q.be ≠ 2 ^ (64 * q.flits) - 1))) then
    (s, some ⟨rspRefused, []⟩)
  else ddrRequest ch ⟨a / 64 * 64, 64 * q.flits, q.be, if q.write then some (q.data.take (64 * q.flits)) else none, some x⟩ s

/-! ### A request at its target (R34, R35, R44, R328) -/

/-- A request served by the block that it reaches: the answer, or none while a queue holds the request. -/
def serveTarget (x : NetIn) (auth : Bool) (stamp : Nat) (tg : Target) (s : State) : State × Option Answer :=
  let q := x.req
  let blk := targetPage tg
  let some' := fun (r : State × Answer) => (r.1, some r.2)
  if s.fenced tg then (s, some ⟨rspFenced, []⟩)
  else if tg ≠ .hole ∧ !s.domainUp (pageDomain blk.1 blk.2) then (s, some ⟨rspClosed, []⟩)
  else match tg with
    | .hole => (s, some ⟨rspOk, if q.write then [] else List.replicate (64 * q.flits) 0⟩)
    | .ddr c a => serveDdr c a x s
    | .pantry b _ => (pantArrive b x s, none)
    | .plane p _ => some' (windowAccess x.init p q s)
    | .page ty n off =>
      let r := servePage x.init auth ty n off stamp q s
      if x.reply.isSome && edgeHeld ty n off q s && r.2.code == rspOk then (holdEdge n x.reply r.1, none) else (r.1, some r.2)
    | .signals _ => some' (sigRead q x.tickSeq s)
    | .flash off => some' (flashWindow off q s)
    | .glazing off => some' (serveGlazing off q s)
    | .larder p off => some' (serveLarder p off q s)
    | .engine ty n off => some' (serveEngine x.init ty n off q s)

/-- The next request that has arrived at a trailhead is served (R34); a poisoned one is discarded (R323). -/
def requestArrive (t stamp : Nat) (s : State) : State :=
  match takeRequest t s with
  | none => s
  | some ([], s1) => s1
  | some (h :: body, s1) =>
    if poisoned body then s1.raise 0x09 t 2
    else
      let x := wormNetIn t h body
      let r := serveTarget x false stamp (destTarget s1 h.dest h.map x.req.addr) s1
      match r.2 with
      | some a => answerNet x a r.1
      | none => r.1

/-! ### Accesses word by word -/

/-- An access of one word as its target meets it: the target's answer. A channel that holds its requests does not answer before
the response timer (R320). -/
def serveWord (i : Initiator) (auth : Bool) (addr : Nat) (write : Bool) (value : Word) (enables stamp : Nat) (tg : Target) (s : State) :
    State × Answer :=
  let q : NetReq := { farReq write addr 4 value.toNat with be := enables * 2 ^ (addr % 64) }
  let x : NetIn := ⟨i, q, none, none⟩
  match tg with
  | .ddr c a =>
    if s.ddrState c = ddrSrefExit ∧ s.domainUp 11 then (s, ⟨rspUnreachable, []⟩)
    else
      let r := serveTarget x auth stamp (.ddr c a) s
      (r.1, r.2.getD ⟨rspUnreachable, []⟩)
  | .pantry b o =>
    let r := serveTarget x auth stamp (.pantry b o) { s with answer := [] }
    match r.2 with
    | some a => (r.1, a)
    | none =>
      let s2 := pantFlush b r.1
      ({ s2 with answer := s.answer }, s2.answer.headD ⟨rspUnreachable, []⟩)
  | tg' =>
    let r := serveTarget x auth stamp tg' s
    (r.1, r.2.getD ⟨rspUnreachable, []⟩)

/-- An access of one word by an agent that waits for it (Hatch, BAR0, the write records of Latch). -/
def accessWord (i : Initiator) (auth : Bool) (addr : Nat) (write : Bool) (value : Word) (enables stamp : Nat) (s : State) : State × Answer :=
  let tg := targetOf s (s.get R.TRLH_DDR_MAP_MODE i.src) addr
  match directRequest i tg (farReq write addr 4 value.toNat) s with
  | (s1, some code) => (s1, ⟨code, if write then [] else List.replicate 64 0⟩)
  | (s1, none) => serveWord i auth addr write value enables stamp tg s1

/-- The word that an answer holds for an address. -/
def answerWord (addr : Nat) (a : Answer) : Word := word (leNum ((a.data.drop (addr % 64)).take 4))

/-- REQUEST_ARRIVE (R34). -/
def execRequestArrive (t stamp : Nat) (s : State) : Result := need (t < 40) (done (requestArrive t stamp (s.clockTo stamp)))

end Sys2Proof.Machine
end

