-- ==== Sys2Proof/Machine/Access.lean ====
section
/-!
DEFINITION. The commands that are one access of a register page by an initiator (R36, R42, R44, R46, R328 and the rules of the
registers they name), each through the page's own write or read, and BAR0 accesses (R378).
-/

namespace Sys2Proof.Machine

/-- A write of one register by a command: the fence (R328), the page, the response. -/
def regWrite (w : WriteReq) (s : State) : Result :=
  if s.fenced (.page w.ty w.n w.off) then done (s.reply rspFenced [])
  else
    let r := pageWrite w 15 s
    done (r.1.reply r.2 [])

/-- A read of one register by a command: the fence, the page, the response with the word. -/
def regRead (i : Initiator) (consume : Bool) (ty n off : Nat) (s : State) : Result :=
  if s.fenced (.page ty n off) then done (s.reply rspFenced [])
  else
    let r := pageFetch i consume ty n off 15 s
    done { r.1 with answer := [r.2] }

/-- The initiator of Latch's own writes: those that an authenticated command carries (R39). -/
abbrev latchInit : Initiator := ⟨39, 1⟩

/-- What a write still does where a hardware update of the command before reaches some fields in the same cycle (R40): those fields keep what
the update gave them, a flag set stays set, and a command bit that hardware clears is not taken. -/
def meetWord (tg : Target) (value meets : Word) (s : State) : Word :=
  match tg with
  | .page ty n off =>
    let w1c := match findReg (regsOf ty) off with
      | some r => r.w1c
      | none => 0
    word (maskMerge value.toNat ((s.getReg ty n off).toNat &&& (0xFFFFFFFF ^^^ w1c)) meets.toNat)
  | _ => value

/-- REGISTER_WRITE (R36): a write of one word that arrives at its target; an address that is no register reaches the memory that stands
there, and a hole is answered and counted by the trailhead that issues the write (R30). The answer of a write of edge registers that waits for a
macro-op boundary (R114) comes with the command that reaches it. -/
def execRegisterWrite (i : Initiator) (addr : Nat) (value : Word) (enables stamp : Nat) (s : State) (meets : Word := 0) : Result :=
  let tg := targetOf s (s.get R.TRLH_DDR_MAP_MODE i.src) addr
  let r := if tg = .hole then (countLocal i.src rspOk s, ⟨rspOk, []⟩)
    else serveWord i false addr true (meetWord tg value meets s) enables stamp tg s
  let held := match tg with
    | .page ty n off => if r.2.code = rspOk ∧ edgeHeld ty n off (farReq true addr 4 0) s then some n else none
    | _ => none
  need (decide (addr < 2 ^ 40)) (done (match held with
    | some n => { holdEdge n none r.1 with answer := [] }
    | none => r.1.reply r.2.code []))

/-- LOCK_KEY_WRITE (R46). -/
def execLockKeyWrite (i : Initiator) (ty n : Nat) (value : Word) (s : State) : Result :=
  need (decide (n < pageCount ty)) (regWrite ⟨i, false, ty, n, 0x024, value, 0⟩ s)

/-- UNLOCK_WINDOW_EXPIRE (R46). -/
def execUnlockWindowExpire (ty n : Nat) (s : State) : Result := need (decide (n < pageCount ty)) (done (windowExpire ty n s))

/-- SOFT_RESET (R44): a write of CTL with SOFT_RESET. -/
def execSoftReset (i : Initiator) (ty n : Nat) (s : State) : Result :=
  need (decide (n < pageCount ty)) (regWrite ⟨i, false, ty, n, 0x008, 4, 0⟩ s)

/-- FENCE (R328): a write of CTL that sets FENCE and keeps ENABLE. -/
def execFence (i : Initiator) (ty n : Nat) (on : Bool) (s : State) : Result :=
  need (decide (n < pageCount ty))
    (regWrite ⟨i, false, ty, n, 0x008, word (bit (s.flag (R.HDR_CTL_ENABLE.on ty) n) + 2 * bit on), 0⟩ s)

/-- EVT_FORCE (R42). -/
def execEvtForce (i : Initiator) (ty n : Nat) (mask : Word) (s : State) : Result :=
  need (decide (n < pageCount ty)) (regWrite ⟨i, false, ty, n, 0x018, mask, 0⟩ s)

/-- TICK_START (R50): TICK_RUN.RUN written 1 by an authenticated write. -/
def execTickStart (stamp : Nat) (s : State) : Result := regWrite ⟨latchInit, true, 0x17, 0, 0x040, 1, stamp⟩ s

/-- TICK_STOP (R50, R549): TICK_RUN.RUN written 0 by an authenticated write. -/
def execTickStop (stamp : Nat) (s : State) : Result := regWrite ⟨latchInit, true, 0x17, 0, 0x040, 0, stamp⟩ s

/-- TICK_SLEW_WRITE (R49). -/
def execTickSlewWrite (i : Initiator) (value : Word) (stamp : Nat) (s : State) : Result :=
  regWrite ⟨i, false, 0x17, 0, 0x048, value, stamp⟩ s

/-- RETRAIN (R18): a write of LNTL_LINK_CTL in LNTL_1. -/
def execRetrain (i : Initiator) (full : Bool) (s : State) : Result :=
  regWrite ⟨i, false, 0x0A, 1, 0x040, word (1 + 2 * bit full), 0⟩ s

/-- BRIDGE_RETURN (R20): a write of STIL_MODE with BR_RETURN and the stile's MODE. -/
def execBridgeReturn (i : Initiator) (bridge : Nat) (s : State) : Result :=
  need (decide (bridge < 2)) (regWrite ⟨i, false, 0x08, 32 + bridge, 0x040, word (4 + s.get R.STIL_MODE_MODE (32 + bridge)), 0⟩ s)

/-- POWER_CAP_WRITE (R100). -/
def execPowerCapWrite (i : Initiator) (auth : Bool) (mw : Nat) (s : State) : Result := regWrite ⟨i, auth, 0x0B, 0, 0x060, word mw, 0⟩ s

/-- LUT_DATA_ACCESS (R345). -/
def execLutDataAccess (i : Initiator) (head : Nat) (value : Option Word) (s : State) : Result :=
  need (decide (head < 4)) (match value with
    | some v => regWrite ⟨i, false, 0x0D, head, 0x06C, v, 0⟩ s
    | none => regRead i true 0x0D head 0x06C s)

/-- HEAD_LINK_TRAIN (R348): TRAIN written with the LOW_POWER that stands. -/
def execHeadLinkTrain (i : Initiator) (head : Nat) (s : State) : Result :=
  need (decide (head < 4)) (regWrite ⟨i, false, 0x0D, head, 0x070, word (1 + 2 * s.get R.HEAD_LINK_CTL_LOW_POWER head), 0⟩ s)

/-- SIDE_TRANSACTION_START (R347): GO written with the rest of the word. -/
def execSideTransactionStart (i : Initiator) (head : Nat) (value : Word) (s : State) : Result :=
  need (decide (head < 4)) (regWrite ⟨i, false, 0x0D, head, 0x078, value ||| 0x80000000, 0⟩ s)

/-- GLAZING_LOAD_START (R349): an authenticated write of GLAZ_LOAD_CTL. -/
def execGlazingLoadStart (slot : Nat) (s : State) : Result :=
  need (decide (slot < 32)) (regWrite ⟨latchInit, true, 0x0E, 0, 0x044, word (2 ^ 31 + slot), 0⟩ s)

/-- TT_CLEAR (R360): an authenticated write of GLAZ_TT_CLEAR. -/
def execTtClear (all : Bool) (head tt : Nat) (s : State) : Result :=
  need (decide (head < 4 ∧ tt < 256)) (regWrite ⟨latchInit, true, 0x0E, 0, 0x068, word (bit all * 2 ^ 31 + head * 2 ^ 8 + tt), 0⟩ s)

/-- DOORBELL (R382). -/
def execDoorbell (i : Initiator) (value : Word) (s : State) : Result := regWrite ⟨i, false, 0x10, 0, 0x060, value, 0⟩ s

/-- CAN_RECOVER (R392). -/
def execCanRecover (i : Initiator) (mask : Nat) (s : State) : Result :=
  need (decide (mask < 16)) (regWrite ⟨i, false, 0x11, 0, 0x090, word mask, 0⟩ s)

/-- CAM_ENTRY_WRITE (R396). -/
def execCamEntryWrite (i : Initiator) (value : Word) (stamp : Nat) (s : State) : Result := regWrite ⟨i, false, 0x11, 0, 0x0D0, value, stamp⟩ s

/-- PROTECTION_PROFILE_WRITE (R397). -/
def execProtectionProfileWrite (i : Initiator) (value : Word) (stamp : Nat) (s : State) : Result :=
  regWrite ⟨i, false, 0x11, 0, 0x0DC, value, stamp⟩ s

/-- ENTRY_CONFIG_WRITE (R410). -/
def execEntryConfigWrite (i : Initiator) (value : Word) (stamp : Nat) (s : State) : Result :=
  regWrite ⟨i, false, 0x12, 0, 0x050, value, stamp⟩ s

/-- DESCRIPTOR_WRITE (R406). -/
def execDescriptorWrite (i : Initiator) (value : Word) (stamp : Nat) (s : State) : Result :=
  regWrite ⟨i, false, 0x12, 0, 0x064, value, stamp⟩ s

/-- SIGNAL_INJECT (R409). -/
def execSignalInject (i : Initiator) (value : Word) (stamp : Nat) (s : State) : Result :=
  regWrite ⟨i, false, 0x12, 0, 0x070, value, stamp⟩ s

/-- RXQ_POP (R416). -/
def execRxqPop (i : Initiator) (s : State) : Result := regWrite ⟨i, false, 0x11, 0, 0x180, 1, 0⟩ s

/-- TX_POST (R416). -/
def execTxPost (i : Initiator) (s : State) : Result := regWrite ⟨i, false, 0x11, 0, 0x184, 1, 0⟩ s

/-- GATE_COUNTER_SNAP (R404). -/
def execGateCounterSnap (i : Initiator) (s : State) : Result := regWrite ⟨i, false, 0x11, 0, 0x1A0, 1, 0⟩ s

/-- FABRIC_PARK (R455). -/
def execFabricPark (i : Initiator) (auth : Bool) (s : State) : Result := regWrite ⟨i, auth, 0x15, 0, 0x044, 1, 0⟩ s

/-- FLIP_FLOP_CAPTURE (R460). -/
def execFlipFlopCapture (i : Initiator) (s : State) : Result := regWrite ⟨i, false, 0x15, 0, 0x080, 1, 0⟩ s

/-- CAPTURE_DATA_READ (R460). -/
def execCaptureDataRead (i : Initiator) (s : State) : Result := regRead i true 0x15 0 0x088 s

/-- HSP_TXD_WRITE (R466). -/
def execHspTxdWrite (i : Initiator) (k : Nat) (value : Word) (s : State) : Result :=
  need (decide (k < 8)) (regWrite ⟨i, false, 0x15, 0, 0x20C + 32 * k, value, 0⟩ s)

/-- HSP_RXD_READ (R466). -/
def execHspRxdRead (i : Initiator) (k : Nat) (consume : Bool) (s : State) : Result :=
  need (decide (k < 8)) (regRead i consume 0x15 0 (0x210 + 32 * k) s)

/-- HWDG_KICK (R488). -/
def execHwdgKick (i : Initiator) (value : Word) (s : State) : Result := regWrite ⟨i, false, 0x16, 0, 0x084, value, 0⟩ s

/-! ### The Footpath -/

/-- STILE_SERVICE (R327). -/
def execStileService (i : Initiator) (stile : Nat) (s : State) : Result :=
  need (decide (stile < 44)) (regWrite ⟨i, false, 0x08, stile, 0x040, 0, 0⟩ s)

/-- STILE_DETOUR (R327). -/
def execStileDetour (i : Initiator) (stile : Nat) (s : State) : Result :=
  need (decide (stile < 44)) (regWrite ⟨i, false, 0x08, stile, 0x040, 1, 0⟩ s)

/-- STILE_DOWN (R327). -/
def execStileDown (i : Initiator) (stile : Nat) (s : State) : Result :=
  need (decide (stile < 44)) (regWrite ⟨i, false, 0x08, stile, 0x040, 2, 0⟩ s)

/-- TRACE_DATA_READ (R333). -/
def execTraceDataRead (i : Initiator) (s : State) : Result := regRead i true 0x08 0 0x210 s

/-- CLOSE (R328). -/
def execCloseStart (i : Initiator) (t : Nat) (s : State) : Result :=
  need (decide (t < 40)) (regWrite ⟨i, false, 0x09, t, 0x09C, 1, 0⟩ s)

/-- OPEN (R329). -/
def execOpenSend (i : Initiator) (t : Nat) (s : State) : Result :=
  need (decide (t < 40)) (regWrite ⟨i, false, 0x09, t, 0x09C, 2, 0⟩ s)

/-- ROUTE_ENTRY_WRITE (R309): the high word, with which the entry is written. -/
def execRouteEntryWrite (i : Initiator) (t : Nat) (value : Word) (s : State) : Result :=
  need (decide (t < 40)) (regWrite ⟨i, false, 0x09, t, 0x048, value, 0⟩ s)

/-- TRAILHEAD_SNAP (R321). -/
def execTrailheadSnap (i : Initiator) (t : Nat) (s : State) : Result :=
  need (decide (t < 40)) (regWrite ⟨i, false, 0x09, t, 0x074, 1, 0⟩ s)

/-! ### DDR -/

/-- DDR_TRAIN_FULL (R26): START with MODE 1. -/
def execDdrTrainFull (i : Initiator) (ch : Nat) (s : State) : Result :=
  need (decide (ch < 2)) (regWrite ⟨i, false, 0x0C, ch, 0x04C, 3, 0⟩ s)

/-- DDR_TRAIN_RESTORE (R26): START with MODE 0. -/
def execDdrTrainRestore (i : Initiator) (ch : Nat) (s : State) : Result :=
  need (decide (ch < 2)) (regWrite ⟨i, false, 0x0C, ch, 0x04C, 1, 0⟩ s)

/-- TRAIN_DATA_ACCESS (R26). -/
def execTrainDataAccess (i : Initiator) (ch : Nat) (value : Option Word) (s : State) : Result :=
  need (decide (ch < 2)) (match value with
    | some v => regWrite ⟨i, false, 0x0C, ch, 0x058, v, 0⟩ s
    | none => regRead i true 0x0C ch 0x058 s)

/-! ### Pantry and panes -/

/-- HANDOVER_START (R283). -/
def execHandoverStart (i : Initiator) (bank code : Nat) (s : State) : Result :=
  need (decide (bank < 64)) (regWrite ⟨i, false, 0x06, bank, 0x044, word code, 0⟩ s)

/-- MARCH_START (R288): MRCH_CTL with START. -/
def execMarchStart (i : Initiator) (preserve checker : Bool) (s : State) : Result :=
  regWrite ⟨i, false, 0x07, 0, 0x040, word (1 + 2 * bit preserve + 4 * bit checker), 0⟩ s

/-- PANE_BIST_START (R128). -/
def execPaneBistStart (i : Initiator) (p : Nat) (s : State) : Result :=
  need (decide (p < 16)) (regWrite ⟨i, false, 0x01, p, 0x070, 1, 0⟩ s)

/-- HAMPER_SNAP (R150). -/
def execHamperSnap (i : Initiator) (p : Nat) (s : State) : Result :=
  need (decide (p < 16)) (regWrite ⟨i, false, 0x02, p, 0x200, 1, 0⟩ s)

/-! ### Engines -/

/-- ENGINE_ENABLE (R263): CTL with ENABLE; FENCE stays. -/
def execEngineEnable (i : Initiator) (e : EngineId) (s : State) : Result :=
  need (engineOk e) (regWrite ⟨i, false, e.ty, e.num, 0x008, word (1 + 2 * bit (s.flag (R.HDR_CTL_FENCE.on e.ty) e.num)), 0⟩ s)

/-- ENGINE_DISABLE (R263): CTL without ENABLE; FENCE stays. -/
def execEngineDisable (i : Initiator) (e : EngineId) (s : State) : Result :=
  need (engineOk e) (regWrite ⟨i, false, e.ty, e.num, 0x008, word (2 * bit (s.flag (R.HDR_CTL_FENCE.on e.ty) e.num)), 0⟩ s)

/-- WDG_KICK (R268). -/
def execWdgKick (i : Initiator) (e : EngineId) (value : Word) (s : State) : Result :=
  need (engineOk e) (regWrite ⟨i, false, e.ty, e.num, 0x050, value, 0⟩ s)

/-- ENGINE_TASK_READ (R265, R266): a gate engine has no tasks, and its register reads 0. -/
def execEngineTaskRead (i : Initiator) (e : EngineId) (s : State) : Result :=
  need (engineOk e) (regRead i true e.ty e.num 0x058 s)

/-- SPARE_RELEASE (R274): the authenticated write; its edge acts on it. -/
def execSpareRelease (k stamp : Nat) (s : State) : Result :=
  need (decide (k < 2)) (regWrite ⟨latchInit, true, 3, 16 + k, 0x090, 2, stamp⟩ s)

/-- LOST_SET (R502): the authenticated write; its edge acts on it. -/
def execLostSet (code stamp : Nat) (s : State) : Result :=
  need (decide (code < 256)) (regWrite ⟨latchInit, true, 0x0B, 0, 0x088, word (2 ^ 31 + code), stamp⟩ s)

/-- LOST_CLEAR (R502): the authenticated write; its edge acts on it. -/
def execLostClear (code stamp : Nat) (s : State) : Result :=
  need (decide (code < 256)) (regWrite ⟨latchInit, true, 0x0B, 0, 0x088, word code, stamp⟩ s)

/-! ### Debug -/

/-- HALT (R516). -/
def execHalt (i : Initiator) (s : State) : Result := regWrite ⟨i, false, 0x18, 0, 0x04C, 1, 0⟩ s

/-- RELEASE (R522). -/
def execRelease (i : Initiator) (stamp : Nat) (s : State) : Result := regWrite ⟨i, false, 0x18, 0, 0x04C, 2, stamp⟩ s

/-- STEP (R523). -/
def execStepBundle (i : Initiator) (maskIrq : Bool) (stamp : Nat) (s : State) : Result :=
  regWrite ⟨i, false, 0x18, 0, 0x04C, word (4 + 8 * bit maskIrq), stamp⟩ s

/-- BRK_ON (R524). -/
def execBrkOn (i : Initiator) (s : State) : Result := regWrite ⟨i, false, 0x18, 0, 0x04C, 16, 0⟩ s

/-- BRK_OFF (R524). -/
def execBrkOff (i : Initiator) (s : State) : Result := regWrite ⟨i, false, 0x18, 0, 0x04C, 32, 0⟩ s

/-- DEBUG_REG_ACCESS (R526). -/
def execDebugRegAccess (i : Initiator) (write : Bool) (value : Word) (s : State) : Result :=
  if write then regWrite ⟨i, false, 0x18, 0, 0x058, value, 0⟩ s else regRead i true 0x18 0 0x058 s

/-- VT_OUT_WRITE (R527): the engine writes a byte to its output queue. -/
def execVtOutWrite (e : EngineId) (data : Nat) (s : State) : Result :=
  need (engineOk e) (regWrite ⟨engInit e.ty e.num, false, 0x18, 0, 0x040, word (data % 256), 0⟩ s)

/-- VT_OUT_READ (R527): the debug port reads with CONSUME. -/
def execVtOutRead (s : State) : Result := regRead portInit true 0x18 0 0x040 s

/-- VT_IN_WRITE (R527): the debug port writes a byte to the selected engine's input queue. -/
def execVtInWrite (data : Nat) (s : State) : Result := regWrite ⟨portInit, false, 0x18, 0, 0x044, word (data % 256), 0⟩ s

/-- VT_IN_READ (R527): the engine reads the head of its input queue. -/
def execVtInRead (e : EngineId) (s : State) : Result :=
  need (engineOk e) (regRead (engInit e.ty e.num) true 0x18 0 0x044 s)

/-- DEBUG_GO (R441): LTCH_DBG with GO and the requested level; a level that falls releases what R525 says. -/
def execDebugGo (i : Initiator) (req stamp : Nat) (s : State) : Result :=
  regWrite ⟨i, false, 0x14, 0, 0x06C, word (2 ^ 31 + req % 4 * 2 ^ 8), stamp⟩ s

/-! ### Windows -/

/-- A request that arrives at a memory or a window: its fence, its domain, the block (R35, R328); no answer while a queue holds it. -/
def windowCommand (x : NetIn) (tg : Target) (s : State) : Result :=
  let r := serveTarget x false 0 tg { s with answer := [] }
  done (match r.2 with
    | some a => { r.1 with answer := [a] }
    | none => r.1)

/-- PE_PLANE_WINDOW_ACCESS (R144). -/
def execPePlaneWindowAccess (i : Initiator) (p : Nat) (q : NetReq) (s : State) : Result :=
  need (decide (p < 16)) (windowCommand ⟨i, q, none, none⟩ (.plane p (q.addr % 0x1000000)) s)

/-- PANTRY_REQUEST_ARRIVE (R282). -/
def execPantryRequestArrive (bank : Nat) (i : Initiator) (q : NetReq) (s : State) : Result :=
  need (decide (bank < 64)) (windowCommand ⟨i, q, none, none⟩ (.pantry bank (q.addr % 0x80000)) s)

/-- SIGNAL_TABLE_READ (R414, R63): a request to the committed bank, with the TICK_SEQ that a bridge end wrote into it. -/
def execSignalTableRead (q : NetReq) (tickSeq : Option Nat) (s : State) : Result :=
  windowCommand ⟨⟨32, 0⟩, q, tickSeq, none⟩ (.signals (q.addr % 0x100000)) s

/-- FLASH_WINDOW_READ (R461). -/
def execFlashWindowRead (q : NetReq) (s : State) : Result :=
  windowCommand ⟨⟨38, 0⟩, q, none, none⟩ (.flash (q.addr % flashSize)) s

/-! ### BAR0 (R378) -/

/-- The completion status of a PCIe request, beside the response codes of the Footpath: Unsupported Request, Completer Abort. -/
abbrev cplUnsupported : Nat := 0x100
abbrev cplAbort : Nat := 0x101

/-- A BAR0 access: denied and counted unless its page type is allowed; served as a request of the Transom. -/
def bar0Access (off : Nat) (value : Option Word) (enables stamp : Nat) (s : State) : State :=
  if !s.domainOn 7 ∨ !bitOf (s.getReg 0x10 0 0x044).toNat (bitsAt off 20 5) then
    let s1 := if s.domainOn 7 then (s.count R.TRSM_BAR0_DENIED_COUNT 0 1).raise 0x10 0 5 else s
    match value with
    | some _ => { s1 with answer := [] }
    | none => s1.reply cplUnsupported []
  else
    let addr := 0x3000000000 + off
    let r := accessWord ⟨31, 0⟩ false addr value.isSome (value.getD 0) enables stamp s
    match value with
    | some _ => { r.1 with answer := [] }
    | none => if r.2.code = rspOk then r.1.reply rspOk (wordBytes (answerWord addr r.2)) else r.1.reply cplAbort []

/-- BAR0_ACCESS (R378). -/
def execBar0Access (off : Nat) (value : Option Word) (enables stamp : Nat) (s : State) : Result :=
  need (decide (off < 2 ^ 25)) (done (bar0Access off value enables stamp s))

end Sys2Proof.Machine
end

