-- ==== Sys2Proof/Machine/Shutter.lean ====
section
/-!
DEFINITION. The Shutter (R470 to R478, R482): domain states, transitions, WAKE and SLEEP, RESET_N and the power-on of PD_AO.
-/

namespace Sys2Proof.Machine

/-! ### Domains (R471, R472) -/

/-- The parent of a domain (Table 19-1). -/
def domainParent (d : Nat) : Nat := if d = 3 then 2 else if d = 9 then 8 else if 9 < d then 9 else 0

/-- The domains under a domain. -/
def domainChildren (d : Nat) : List Nat := (List.range 30).filter (fun c => c != 0 && domainParent c == d)

/-- The trailheads of a domain. -/
def domainTrlhs (d : Nat) : List Nat := (List.range 40).filter (fun t => trlhDomain t == d)

/-- The target of the transition of a domain, plus 1; 0 when it is in none. -/
def State.movingTo (s : State) (d : Nat) : Nat := tblGet 0 s.shutter.moving d

/-- A domain is in a transition. -/
def State.moves (s : State) (d : Nat) : Bool := s.movingTo d != 0

/-- A domain is up, or on its way up. -/
def State.staysUp (s : State) (d : Nat) : Bool := s.domainUp d || decide (psIdle + 1 ≤ s.movingTo d)

/-- The domain's state set in SHUT_STATE. -/
def setDomainState (d v : Nat) (s : State) : State := s.put (domainField d) 0 v

/-- The domain's bit of SHUT_BUSY and its transition. -/
def setMoving (d m : Nat) (s : State) : State :=
  { s.put ⟨0x16, 0x048, 4, d, 1⟩ 0 (bit (m != 0)) with shutter := { s.shutter with moving := tblSet 0 s.shutter.moving d m } }

/-- A reservation of the variant in force that touches a trailhead of the domain. -/
def resvTouches (it : Itinerary) (v d : Nat) : Bool :=
  (it.resvList v).any (fun r => it.resvIn v r && (trlhDomain r.init == d || trlhDomain r.dest == d))

/-- The Pantry table of the variant in force gives a bank an owner that is not the host. -/
def pantryUsed (it : Itinerary) (v : Nat) : Bool := (it.pantry v).any (fun c => c != 0x41)

/-- A pane, spare, PD_NOC, PD_PANTRY or PD_DDR that a gang, a reservation or the Pantry table of the variant in force uses (R472). -/
def State.domainInUse (s : State) (d : Nat) : Bool :=
  match s.porter.current with
  | none => false
  | some it =>
    let v := s.variantNow
    let panes := it.variantPanes v
    if v = 0xFF then false
    else if d < 9 then false
    else if d = 9 then panes != [] || (it.resvList v).any (it.resvIn v) || pantryUsed it v
    else if d = 10 then resvTouches it v d || pantryUsed it v
    else if d = 11 then resvTouches it v d
    else if d < 14 then
      resvTouches it v d || (s.flag R.SASH_SPARE_STAT_ASSIGNED (d + 4) && panes.contains (s.get R.SASH_SPARE_STAT_PANE (d + 4)))
    else resvTouches it v d || panes.contains (d - 14)

/-- An array domain that is switched over the Lintel, while the Lintel is down. -/
def State.outOfReach (s : State) (d : Nat) : Bool := decide (9 < d) && !s.linkUp

/-- A power-down of a pane in PATCH is refused as by R44: the pane is not drained (R171). -/
def State.patchHolds (s : State) (d target : Nat) : Bool := decide (14 ≤ d ∧ target < psIdle) && s.pcState (d - 14) == pcPatch

/-- Why SET_DOMAIN is refused (R472, Table 19-4). -/
def setDomainRefusal (d target : Nat) (s : State) : Option Nat :=
  if d = 0 ∨ 29 < d then some 0x0101
  else if (psIdle ≤ target ∧ !s.domainUp (domainParent d)) ∨ (target < psIdle ∧ (domainChildren d).any s.staysUp) then some 0x0102
  else if s.moves d then some 0x0103
  else if s.shutter.profile.isSome then some 0x0104
  else if s.outOfReach d then some 0x0106
  else if target < s.domain d ∧ s.domainInUse d then some 0x0105
  else if s.patchHolds d target then some 0x0007
  else none

/-! ### What a domain that goes down loses -/

/-- A register or shadow lies in a page of the domain. -/
def keyInDomain (d k : Nat) : Bool := pageDomain (keyTy k) (keyNum k) == d

/-- The shadows of a domain's pages are discarded (R64). -/
def dropDomainShadows (d : Nat) (s : State) : State :=
  { s with shadows := s.shadows.filter (fun w => !keyInDomain d w.key) }

/-- The registers of a domain's pages return to their reset values, and their unlock windows close. -/
def resetDomainPages (d : Nat) (s : State) : State :=
  { s with
    regs := s.regs.filter (fun e => !keyInDomain d e.1)
    unlock := s.unlock.filter (fun e => pageDomain (e.1 / 0x100) (e.1 % 0x100) != d) }

/-- The engines of a domain, as type and number. -/
def domainEngines (d : Nat) : List (Nat × Nat) :=
  if d = 2 then [(5, 0), (5, 1)]
  else if d = 12 ∨ d = 13 then [(3, d + 4)]
  else if 14 ≤ d then (3, d - 14) :: (List.range 8).map (fun k => (4, 8 * (d - 14) + k))
  else []

/-- An engine and its memories as OFF leaves them; its terminal queues are emptied (R276, R528). -/
def clearEngine (s : State) (e : Nat × Nat) : State :=
  let k := engKey e.1 e.2
  ((((s.setEng k Engine.idle).setLink k ArrayLink.idle).setMem k EngMem.idle) |> vtClear e.1 e.2)

/-- A trailhead as OFF leaves it: its counters are valid again (R506), and what the itineraries pin stays pinned (R84). -/
def clearTrlh (s : State) (t : Nat) : State :=
  { (s.setTh t { Trailhead.idle with pinned := (s.th t).pinned }).put (invalidField t) 0 0 with
    ejected := tblDrop s.ejected (4 * t) (4 * t + 4)
    inbox := tblDrop s.inbox (32 * t) (32 * t + 32) }

/-- PD_GATE's memories and queues (R421). -/
def clearGate (s : State) : State :=
  { s.setGate Gatehouse.idle with sigt := ⟨[], [], [], [], 0⟩, boot := BootFlow.idle, bootActive := false }

/-- Hinge as OFF leaves it (R469): the oscillator registers and HNGE_RTC are held in PD_AO. -/
def clearHinge (s : State) : State :=
  { s.setFabric ⟨[], [], [], [], none, [], [], none, 0, [], false⟩ with serial := [], flashJob := none }

/-- The camera receivers (PD_CAMIN) or writers (PD_NOC) as OFF leaves them. -/
def clearReceivers (s : State) : State :=
  (List.range 4).foldl (fun s c => s.setCam c { s.cam c with frame := none, cfg := Camera.idle.cfg, pulseDue := false }) s
def clearWriters (s : State) : State :=
  (List.range 4).foldl (fun s c => s.setCam c { s.cam c with pix := [], bufs := [], lines := 0, counts := [] }) s

/-- PD_NOC's state: the Porter and its itineraries with their pins (R84), the gangs, the stiles of the array, the camera writers, the trace buffer. -/
def clearNoc (s : State) : State :=
  let s1 := clearWriters <| updatePins { s with
    porter := ⟨[], none, none, none, 0, none, 0⟩
    regionSel := []
    gangs := []
    doneTasks := []
    stiles := s.stiles.filter (fun e => !decide (e.1 < 36))
    bridge := []
    trace := []
    missedTicks := []
    bistFresh := []
    tick := { s.tick with edgePending := false, windowOpen := false, arrayCutoff := none } }
  s1.setReg 0x17 0 0x060 0

/-- A DDR channel whose contents are lost: what it reads from now on is free. Whether a word that nothing has written since decodes as a
codeword the spec does not say: DESIGN CHOICE, it reads as clean, with free data (log entry 9). -/
def clearDdr (s : State) (ch : Nat) : State :=
  { s.setDdr ch { DdrChannel.idle with lowEpoch := s.freeCount + 1, epoch := s.freeCount + 1 } with freeCount := s.freeCount + 1 }

/-- A pane, its controller and its row ports as OFF leaves them. -/
def clearPane (p : Nat) (s : State) : State :=
  { s with
    panes := tblErase s.panes p
    pctl := tblErase s.pctl p
    rowPorts := tblDrop s.rowPorts (8 * p) (8 * p + 8)
    macroFlight := tblErase s.macroFlight p
    released := tblErase s.released p }

/-- A spare's assignment is cleared by OFF, connected or not (R276): its pane is lost. -/
def dropSpare (k : Nat) (s : State) : State :=
  let n := 16 + k
  if s.flag R.SASH_SPARE_STAT_ASSIGNED n then
    let p := s.get R.SASH_SPARE_STAT_PANE n
    let s1 := (s.put R.SASH_XBAR_REPLACED p 0).put R.SASH_XBAR_SPARE p 0
    losePane p s1
  else s

/-- The state that no register holds and that a domain loses in OFF. -/
def clearHidden (d : Nat) (s : State) : State :=
  match d with
  | 1 => clearHinge s
  | 2 => clearGate s
  | 4 => s.setGlaz ⟨[], [], [], 0⟩
  | 5 => { s with heads := [] }
  | 6 => clearReceivers s
  | 7 => trsmOff s
  | 9 => clearNoc s
  | 10 => { s with pant := [], march := none, marchDue := false }
  | 11 => [0, 1].foldl clearDdr s
  | _ => if 14 ≤ d then clearPane (d - 14) s else s

/-- The registers that keep their values through OFF although their page's domain loses it: Hinge's oscillators and RTC (R469). -/
def keptRegs (s : State) : Tbl Word := s.regs.filter (fun e => keyTy e.1 == 0x15 && decide (0x060 ≤ keyOff e.1 ∧ keyOff e.1 < 0x070))

/-- A domain reaches OFF: its blocks lose everything (R473, Table 19-6). -/
def domainOff (d : Nat) (s : State) : State :=
  let s0 := if d = 12 ∨ d = 13 then dropSpare (d - 12) s else s
  let s1 := clearHidden d ((domainTrlhs d).foldl clearTrlh ((domainEngines d).foldl clearEngine s0))
  let s2 := resetDomainPages d s1
  let s3 := if d = 1 then { s2 with regs := (keptRegs s1).foldl (fun t e => tblPut t e.1 e.2) s2.regs } else s2
  if d = 9 then updateDownRegs s3 else s3

/-- The registers of a pane's PEs are lost in RETAIN (R104): free values. -/
def losePlanes (p : Nat) (s : State) : State :=
  let v := fun (k : Nat) => BitVec.ofNat 65536 (Config.freeValue (s.freeCount + k))
  { s.setPane p { s.pane p with x := v 0, y := v 1, c := v 2, k := v 3, f := v 4 } with freeCount := s.freeCount + 5 }

/-- A domain reaches RETAIN: what its chapters say is lost there. -/
def domainRetain (d : Nat) (s : State) : State :=
  if d = 1 then
    if s.fabState = fabReleased then (parkFabric s).setFabric { (parkFabric s).fabric with keep := true } else s
  else if d = 11 then [0, 1].foldl (fun s c => s.put R.DDRC_STAT_SREF c 1) s
  else if 14 ≤ d then losePlanes (d - 14) (flushHampers (d - 14) s)
  else s

/-- What stops when a domain leaves ON, in whatever state it ends (R35): the ports of the Gatehouse, checking, scanout, reception, the
link. -/
def domainStops (d : Nat) (s : State) : State :=
  match d with
  | 2 => settlePorts s
  | 3 => settlePorts s
  | 4 => suspendScans s
  | 5 => (List.range 4).foldl (fun s h => headStop h s) s
  | 6 => (List.range 4).foldl (fun s c => fsyncOff c (camDisable c s)) s
  | 8 => if s.linkUp then linkDown s else (setLink2 lnkDown true s).put R.LNTL_LINK_CTL_RETRAIN 1 0
  | 9 => if s.linkUp then linkDown s else (setLink2 lnkDown true s).put R.LNTL_LINK_CTL_RETRAIN 1 0
  | _ => s

/-- Every trailhead that is up sets the trailheads of a domain in its closed mask (R329). -/
def closeDomain (d : Nat) (s : State) : State :=
  (List.range 40).foldl (fun s t =>
    if s.domainUp (trlhDomain t) then (domainTrlhs d).foldl (fun s k => s.setClosed t k true) s else s) s

/-- A domain leaves ON or IDLE, or changes below IDLE. -/
def domainDown (d target : Nat) (s : State) : State :=
  let s0 := if d = 1 then runFabric s else s
  let s1 := if s.domainOn d then domainStops d (setDomainState d target s0) else setDomainState d target s0
  if psIdle ≤ target then s1
  else
    let s2 := if s.domainUp d then closeDomain d s1 else s1
    let s3 := { dropDomainShadows d s2 with
      gate := if d = 2 then { s2.gate with tbQueue := [] } else s2.gate }
    if target = psOff then domainOff d s3 else domainRetain d s3

/-! ### What a domain that comes up does (R473, R329) -/

/-- A trailhead whose domain comes up: no tag in use, the counters at 0, every trailhead closed whose domain is not up, OPEN sent. -/
def trlhUp (s : State) (t : Nat) : State :=
  let h := s.th t
  let s1 := s.setTh t { Trailhead.idle with routes := h.routes, pinned := h.pinned }
  let s2 := ((s1.put (R.HDR_CTL_FENCE.on 0x09) t 0).put R.TRLH_CLOSE_CTL_CLOSED t 0).put (R.HDR_STAT_DRAINED.on 0x09) t 0
  let s3 := s2.resetPage 0x09 t (fun off => (0x074 ≤ off && decide (off < 0x09C)) || off == 0x0B0)
  let s4 := (List.range 40).foldl (fun s k => s.setClosed t k (!s.domainUp (trlhDomain k))) s3
  updateDownRegs (if s4.flag (R.HDR_CTL_ENABLE.on 0x09) t then sendOpen t s4 else s4)

/-- Hinge returns from RETAIN (R469): one pass over the held CRCs; the fabric that was RELEASED is released again, or parked on a
mismatch. -/
def hingeReturn (s : State) : State :=
  if !s.fabric.keep then s
  else
    let s1 := s.setFabric { s.fabric with keep := false }
    let bad := (List.range 4237).any (fun n =>
      decodeWord (tblGet 0 s.fabric.heldErrs n).toNat == .uncorrectable ||
        crc32 (leBytes 64 (tblGet 0 s.fabric.frames n).toNat) !=
          tblGet 0 s.fabric.held n ^^^ residue (tblGet 0 s.fabric.heldErrs n).toNat % 2 ^ 32)
    if bad then s1 else setFabState fabReleased s1

/-- The blocks of a domain that comes up from OFF initialise (R105, R260, R293, R20). -/
def domainInit (d : Nat) (s : State) : State :=
  let s1 := (domainEngines d).foldl (fun s e => s.setMem (engKey e.1 e.2) { EngMem.idle with initRunning := true }) s
  if d = 9 then linkEndOff s1
  else if d = 10 then marchStartup { s1 with marchDue := true }
  else if 14 ≤ d then s1.setPane (d - 14) { Pane.idle with initRunning := true }
  else s1

/-- PD_DDR returns from RETAIN: a channel that was READY leaves self-refresh (R28); DDRC_STAT.MTS reads 0 until it is READY again. -/
def ddrReturn (s : State) : State :=
  [0, 1].foldl (fun s c => if s.ddrState c = ddrReady then (s.put R.DDRC_STAT_STATE c ddrSrefExit).put R.DDRC_STAT_MTS c 0
    else s.put R.DDRC_STAT_SREF c 0) s

/-- A domain comes up from OFF or RETAIN. -/
def domainUpFrom (d target : Nat) (s : State) : State :=
  let wasOff := s.domain d = psOff
  let s1 := setDomainState d target s
  let s2 := if wasOff then domainInit d s1 else if d = 11 then ddrReturn s1 else if d = 1 then hingeReturn s1 else s1
  let s3 := (domainTrlhs d).foldl trlhUp s2
  if d = 3 ∨ d = 2 then settlePorts s3 else s3

/-! ### Transitions (R473, R475) -/

/-- A transition starts: going down from ON or IDLE the Shutter fences and closes every trailhead of the domain. -/
def startMove (d target : Nat) (s : State) : State :=
  let s1 := setMoving d (target + 1) s
  if target < psIdle ∧ s.domainUp d then
    (domainTrlhs d).foldl (fun s t =>
      (closeWrite ⟨⟨39, 1⟩, true, 0x09, t, R.TRLH_CLOSE_CTL_CLOSED.off, 1, 0⟩ (s.put (R.HDR_CTL_FENCE.on 0x09) t 1)).1) s1
  else s1

/-- The state change with which a transition ends. -/
def reachState (d target : Nat) (s : State) : State :=
  if s.domain d = target then s
  else if s.domain d < psIdle ∧ psIdle ≤ target then domainUpFrom d target s
  else if s.domain d = psOff then setDomainState d target s
  else if s.domain d < target then
    (if d = 2 ∨ d = 3 then settlePorts (setDomainState d target s) else setDomainState d target s)
  else domainDown d target s

/-- The trailheads of a domain are drained, where its transition waits for that. -/
def State.mayEnd (s : State) (d target : Nat) : Bool :=
  !(decide (target < psIdle) && s.domainUp d) || (domainTrlhs d).all (fun t => s.flag (R.HDR_STAT_DRAINED.on 0x09) t)

/-! ### WAKE and SLEEP (R477, R478) -/

/-- The place in a profile's order at which the tick stops (R478). -/
abbrev tickStage : Nat := 30

/-- The domains in the order of WAKE: boundary, then array. -/
def wakeOrder : List Nat := [1, 2, 4, 5, 3, 8, 6, 7] ++ (List.range 21).map (fun k => 9 + k)

/-- A profile ends: PROFILE_DONE. -/
def profileEnd (s : State) : State :=
  ({ s with shutter := { s.shutter with profile := none } }.setReg 0x16 0 0x04C 0).raise 0x16 0 1

/-- The sequence that goes on from a list of domains: what needs nothing is passed over; a domain in a transition of its own and the
wait for the Lintel stop it. -/
def profileGo (wake retain : Bool) : List Nat → State → State
  | [], s => profileEnd s
  | d :: rest, s =>
    let stay := fun (w : Bool) (s : State) => { s with shutter := { s.shutter with profile := some ⟨wake, retain, d :: rest, w⟩ } }
    let take := fun (target : Nat) (s : State) =>
      startMove d target { s.put R.SHUT_PROFILE_DOMAIN 0 d with shutter := { s.shutter with profile := some ⟨wake, retain, rest, false⟩ } }
    if d = tickStage then profileGo wake retain rest (tickStop s)
    else if s.moves d then stay false s
    else if wake then
      if s.domainOn d then profileGo wake retain rest s
      else if s.outOfReach d then stay true s
      else if !s.domainUp (domainParent d) then profileGo wake retain rest s
      else take psOn s
    else
      let target := if retain then psRetain else psOff
      if s.domain d ≤ target then profileGo wake retain rest s else take target s

/-- The sequence goes on once the domain in hand has ended its transition. -/
def profileNext (s : State) : State :=
  match s.shutter.profile with
  | none => s
  | some p => if s.moves (s.get R.SHUT_PROFILE_DOMAIN 0) then s else profileGo p.wake p.retain p.left s

/-- A profile starts. -/
def profileStart (wake retain : Bool) (ds : List Nat) (s : State) : State :=
  profileGo wake retain ds (s.setReg 0x16 0 0x04C (if wake then 1 else 2))

/-- WAKE (R477, R483). -/
def actWake (c : CritCmd) (s : State) : Acted :=
  let mode := argNum c.args 0 4
  let names := fun (n : Nat) => decide (n < 30) && bitOf mode n
  let reboot := bitOf mode 30 && s.domainOn 2
  if s.shutter.profile.isSome then refusedWith 0x0104 s
  else if (List.range 30).any (fun n => n != 0 && names n && !names (domainParent n) && !s.domainOn (domainParent n)) then refusedWith 0x0102 s
  else if reboot && s.engState 5 0 == esFaulted then refusedWith 0x0108 s
  else
    let s1 := ((s.setReg 0x16 0 0x064 0xFFFFFFFF).setReg 0x16 0 0x068 0xFFFFFFFF)
    let s2 := { s1 with shutter := { s1.shutter with picture := [], fullTrain := bitOf mode 31 } }
    let s3 := if reboot then bootStart (s2.setReg 5 0 0x044 0x00F00000) else s2
    accepted (profileStart true false (wakeOrder.filter names) s3)

/-- Why SLEEP is refused (R472, R478): for any one of its domains. -/
def sleepRefusal (mode : Nat) (s : State) : Option Nat :=
  let named := (List.range 30).filter (fun n => n != 0 && bitOf mode n)
  let target := if bitOf mode 30 then psRetain else psOff
  if s.shutter.profile.isSome then some 0x0104
  else if named.any (fun n => (domainChildren n).any (fun c => !bitOf mode c && s.staysUp c)) then some 0x0102
  else if named.any s.moves then some 0x0103
  else if named.any s.outOfReach then some 0x0106
  else if named.any (fun n => decide (target < s.domain n) && s.domainInUse n) then some 0x0105
  else if named.any (fun n => s.patchHolds n target) then some 0x0007
  else none

/-- SLEEP (R478): the array domains downwards, the tick when the device parks, the boundary domains in the reverse of WAKE's order. -/
def actSleep (c : CritCmd) (s : State) : Acted :=
  let mode := argNum c.args 0 4
  match sleepRefusal mode s with
  | some code => refusedWith code s
  | none =>
    let parks := (List.range 30).all (fun n => decide (n < 2) || bitOf mode n || !s.domainUp n)
    let down := wakeOrder.reverse.filter (fun n => bitOf mode n)
    let order := down.filter (fun n => decide (9 ≤ n)) ++ (if parks then [tickStage] else []) ++ down.filter (fun n => decide (n < 9))
    accepted (profileStart false (bitOf mode 30) order s)

/-- SET_DOMAIN (R472, R475): it waits while its domain's parent is in a transition. -/
def actSetDomain (c : CritCmd) (s : State) : Acted :=
  let d := argNum c.args 0 4 % 32
  let target := bitsAt (argNum c.args 0 4) 8 2
  if 0 < d ∧ d < 30 ∧ s.moves (domainParent d) then (s, stHold, 0)
  else
    match setDomainRefusal d target s with
    | some code => refusedWith code s
    | none => accepted (if s.domain d = target then s else startMove d target s)

/-! ### Events of the Shutter -/

/-- What follows the end of a transition: a SET_DOMAIN that waited for it, the profile. -/
def afterMove (s : State) : State := profileNext (latchRetry actSetDomain s)

/-- A domain's transition ends (R473). -/
def transitionDone (d : Nat) (s : State) : State :=
  let target := s.movingTo d - 1
  if !s.moves d ∨ !s.mayEnd d target then s
  else afterMove ((setMoving d 0 (reachState d target s)).raise 0x16 0 0)

/-- A rail does not come up in its time (R476): the domain stays OFF. -/
def rampFail (d : Nat) (s : State) : State :=
  if s.domain d = psOff ∧ psIdle + 1 ≤ s.movingTo d then
    afterMove (((setMoving d 0 s).raise 0x16 0 6).report 0x16 0 6 clsDevice)
  else s

/-- The Lintel is not up in time (R477). -/
def wakeTimeout (s : State) : State :=
  match s.shutter.profile with
  | some p => if p.waitLink then profileEnd (s.err 0x16 0 0 0x0106) else s
  | none => s

/-- A training of the Lintel ends; a WAKE that waits for the link goes on. -/
def linkTrained (ok : Bool) (s : State) : State :=
  let s1 := trainingDone ok s
  if s1.linkUp then profileNext s1 else s1

/-! ### Resets (R482, Table 19-6) -/

/-- Every domain but PD_AO and PD_HINGE goes OFF at once. -/
def allOff (s : State) : State :=
  (List.range 28).foldl (fun s k => let d := 29 - k; if s.domain d = psOff then s else domainDown d psOff s) s

/-- RESET_N takes effect (R482, R489, R510, R528, R534): transitions, profiles and commands in check are discarded. -/
def resetN (stamp : Nat) (s : State) : State :=
  let hinge := s.domain 1
  let s1 := hngeReset (allOff (tickStop s))
  let s2 := { s1 with
    shutter := ⟨[], none, true, [], [], false, s1.shutter.hwdg⟩
    latch := { s1.latch with held := none, waiting := [] } }
  let s3 := s2.resetPage 0x16 0 (fun off => !(off == 0x05C || off == 0x080 || off == 0x054))
  let s4 := (setDomainState 1 hinge s3).put R.SHUT_RESET_CAUSE_PIN 0 1
  let s5 := if s4.vendor then s4 else debugFall stamp ((s4.put R.LTCH_DBG_LEVEL 0 0).put R.LTCH_DBG_CEIL 0 0)
  aggResetN ({ s5 with vtOut := [], vtIn := [] }.resetPage 0x18 0 (fun off => off == R.DBG_DENIED.off))

/-- The registers that show what fuses and flash hold: lifecycle, the SVN floors, the journal. -/
def fuseRegs (s : State) : Tbl Word :=
  s.regs.filter (fun e => keyTy e.1 == 0x14 &&
    (keyOff e.1 == 0x048 || keyOff e.1 == 0x094 || decide (0x098 ≤ keyOff e.1 ∧ keyOff e.1 < 0x0B8)))

/-- The power-on of PD_AO (R482): fuses and flash keep their contents; the commands that wait outside stay. The slots whose key the
reading of the fuses finds uncorrectable become unusable (R423). -/
def powerOn (badKeys : List Nat) (s : State) : State :=
  let l := s.latch
  let bad := badKeys.foldl (fun t k => tblSet false t k true) l.keyBad
  let on := fun (s : State) => if bad = [] then s else s.raise 0x14 0 5
  on { State.reset with
    pending := s.pending
    freeCount := s.freeCount + 1
    regs := fuseRegs s
    ddr := [0, 1].map (fun ch => (ch, { DdrChannel.idle with lowEpoch := s.freeCount + 1, epoch := s.freeCount + 1 }))
    flash := s.flash
    latch := { State.reset.latch with keys := l.keys, slots := l.slots, keyBad := bad, journal := l.journal, dirty := l.dirty } }

/-! ### The commands -/

/-- DOMAIN_TRANSITION_DONE (R473). -/
def execDomainTransitionDone (n _stamp : Nat) (s : State) : Result := need (n < 30) (done (transitionDone n { s with answer := [] }))

/-- RAIL_RAMP_FAIL (R476). -/
def execRailRampFail (n _stamp : Nat) (s : State) : Result := need (n < 30) (done (rampFail n { s with answer := [] }))

/-- WAKE_LINK_TIMEOUT (R477). -/
def execWakeLinkTimeout (_stamp : Nat) (s : State) : Result := done (wakeTimeout s)

/-- LINK_TRAINING_DONE (R20, R477). -/
def execLinkTrainingDone (ok : Bool) (s : State) : Result := done (linkTrained ok s)

/-- RESET_N (R482, R534). -/
def execResetN (stamp : Nat) (s : State) : Result := done (resetN stamp s)

/-- RESET_N_RELEASE (R482). -/
def execResetNRelease (s : State) : Result := done { s with shutter := { s.shutter with resetLow := false } }

/-- PD_AO_POWER_ON (R482). -/
def execPdAoPowerOn (s : State) (badKeys : List Nat := []) : Result := done (powerOn badKeys s)

end Sys2Proof.Machine
end

