-- ==== Sys2Proof/Machine/Commands.lean ====
section
/-!
DEFINITION. The critical commands (Table 17-5): each checked by Latch (R429) and carried out by its acting block.
-/

namespace Sys2Proof.Machine

/-! ### Write records (R427) -/

/-- The records in order, each an authenticated write by Latch, until one is not answered RSP_OK: RESULT then holds its index and the
response code. -/
def runRecords (allowed : Nat → Bool) (stamp : Nat) : Nat → List (Nat × Word × Nat) → State → Acted
  | _, [], s => accepted s
  | k, (addr, v, _) :: t, s =>
    if addr < 0x3000000000 ∨ 0x3002000000 ≤ addr ∨ addr % 4 ≠ 0 ∨ !allowed addr then refusedWith (k * 2 ^ 8 + rspAuth) s
    else
      let r := accessWord latchInit true addr true v 15 stamp s
      if r.2.code = rspOk then runRecords allowed stamp (k + 1) t r.1 else refusedWith (k * 2 ^ 8 + r.2.code) r.1

/-- SAFE_WRITE (R427). -/
def actSafeWrite (c : CritCmd) (s : State) : Acted := runRecords (fun _ => true) c.stamp 0 (writeRecords c.args) s

/-- The registers that TAKEOVER_OVERRIDE may write (R503): PORT_LOST_CMD and SASH_SPARE_CTL of the two spares. -/
def takeoverAddr (a : Nat) : Bool := a == 0x3000B00088 || a == 0x3000310090 || a == 0x3000311090

/-- TAKEOVER_OVERRIDE (R503). -/
def actTakeover (c : CritCmd) (s : State) : Acted := runRecords takeoverAddr c.stamp 0 (writeRecords c.args) s

/-- DEBUG_LEVEL (R440) with what a fall of the level brings (R525). -/
def actDebugCeiling (c : CritCmd) (s : State) : Acted :=
  let a := actDebugLevel c s
  (debugFall c.stamp a.1, a.2)

/-- The acting block of a command, by its code (Table 17-5). -/
def actOf (c : CritCmd) (s : State) : Acted :=
  match c.code with
  | 0x01 => actWake c s
  | 0x02 => actSleep c s
  | 0x03 => actSetDomain c s
  | 0x04 => actAdmit c s
  | 0x05 => actDebugCeiling c s
  | 0x06 => actLarderPatch c s
  | 0x07 => actHingeLoad c s
  | 0x08 => actFlashWrite c s
  | 0x09 => actKeyRoll c s
  | 0x0A => actTakeover c s
  | 0x0B => actCounterResync c s
  | _ => actSafeWrite c s

/-- A critical command as it arrives at Latch: BUSY while RESET_N is low (R445, R482). -/
def critical (c : CritCmd) (s : State) : State :=
  if s.shutter.resetLow then
    let r := latchAnswer c stBusy 0 s
    { r.1 with answer := [r.2] }
  else latchSubmit actOf c s

/-- The command that a row's fields make with a code. -/
def critCmd (code : Nat) (c : CmdFields) : CritCmd := ⟨c.gate, code, c.slot, c.ctr, c.device, c.args, c.tag, c.stamp, c.aesFault, c.journalFail⟩

/-! ### The commands -/

/-- WAKE (R477). -/
def execWake (c : CmdFields) (s : State) : Result := done (critical (critCmd 0x01 c) s)

/-- SLEEP (R478). -/
def execSleep (c : CmdFields) (s : State) : Result := done (critical (critCmd 0x02 c) s)

/-- SET_DOMAIN (R472). -/
def execSetDomain (c : CmdFields) (s : State) : Result := done (critical (critCmd 0x03 c) s)

/-- ADMIT (R73). -/
def execAdmitImage (c : CmdFields) (s : State) : Result := done (critical (critCmd 0x04 c) s)

/-- DEBUG_LEVEL (R440). -/
def execDebugLevel (c : CmdFields) (s : State) : Result := done (critical (critCmd 0x05 c) s)

/-- LARDER_PATCH (R171). -/
def execLarderPatch (c : CmdFields) (s : State) : Result := done (critical (critCmd 0x06 c) s)

/-- HINGE_LOAD (R455). -/
def execHingeLoad (c : CmdFields) (s : State) : Result := done (critical (critCmd 0x07 c) s)

/-- FLASH_WRITE (R463). -/
def execFlashWrite (c : CmdFields) (s : State) : Result := done (critical (critCmd 0x08 c) s)

/-- KEY_ROLL (R433). -/
def execKeyRoll (c : CmdFields) (s : State) : Result := done (critical (critCmd 0x09 c) s)

/-- TAKEOVER_OVERRIDE (R503). -/
def execTakeoverOverride (c : CmdFields) (s : State) : Result := done (critical (critCmd 0x0A c) s)

/-- COUNTER_RESYNC (R436). -/
def execCounterResync (c : CmdFields) (s : State) : Result := done (critical (critCmd 0x0B c) s)

/-- SAFE_WRITE (R427). -/
def execSafeWrite (c : CmdFields) (s : State) : Result := done (critical (critCmd 0x0C c) s)

/-- KEY_PROGRAM_DONE (R433): Latch takes commands again; those that wait run. -/
def execKeyProgramDone (s : State) : Result :=
  done (match s.latch.rolling with
    | some j => latchDrain actOf s.latch.waiting.length { rollDone j s with answer := [] }
    | none => s)

/-- LATCH_RESTORE (R435): once, with VDD_BND within its limits and PD_HINGE on; the commands that wait run. -/
def execLatchRestore (s : State) : Result :=
  done (if !s.latch.ready && !s.flag R.SHUT_SUPPLY_BND_LOW 0 && s.domainUp 1 then
    latchDrain actOf s.latch.waiting.length { latchRestore s with answer := [] } else s)

end Sys2Proof.Machine
end

