-- ==== Sys2Proof/Machine/Boot.lean ====
section
/-!
DEFINITION. The boot flow (R483 to R486): the boot ROM's steps of Table 19-8, each begun when its conditions hold and ended when its
result is there.
-/

namespace Sys2Proof.Machine

def State.setBoot (s : State) (x : BootFlow) : State := { s with boot := x }

/-! ### The manifest (R483, R484) -/

/-- A manifest entry (R484). -/
structure BootEntry where
  type : Nat
  slot : Nat
  arg16 : Nat
  offset : Nat
  argA : Nat
  argB : Nat
  deriving DecidableEq, Repr

/-- The entry at a payload byte. -/
def entryOf (p : List Byte) (a : Nat) : BootEntry :=
  ⟨argNum p a 1, argNum p (a + 1) 1, argNum p (a + 2) 2, argNum p (a + 4) 4, argNum p (a + 8) 4, argNum p (a + 12) 4⟩

/-- The entries of a manifest up to END. -/
def bootEntries (p : List Byte) : List BootEntry :=
  ((List.range (argNum p 4 4)).map (fun k => entryOf p (16 + 16 * k))).takeWhile (fun e => e.type != 0)

/-- A manifest payload that the ROM acts on. -/
def manifestOk (p : List Byte) : Bool :=
  argNum p 0 4 == 0x4C594D46 && decide (1 ≤ argNum p 4 4 ∧ argNum p 4 4 ≤ 256) && argNum p 8 8 == 0 &&
  decide (16 + 16 * argNum p 4 4 ≤ p.length ∧ p.length ≤ 2 ^ 22) && (bootEntries p).all (fun e => decide (e.type ≤ 9))

/-- The entries of one type in the manifest in use. -/
def State.bootOf (s : State) (ty : Nat) : List BootEntry := (bootEntries s.boot.manifest).filter (fun e => e.type == ty)

/-- The container at a flash offset, if it lies below the journal and can be read. -/
def flashContainer (a : Nat) (s : State) : State × Option (List Byte) :=
  match flashRead a 32 s with
  | (s1, none) => (s1, none)
  | (s1, some h) => if journalBase < a + contSize h then (s1, none) else flashRead a (contSize h) s1

/-- A container read and checked by Latch under R439: the container if it passes. -/
def bootContainer (kind slot a : Nat) (s : State) : State × Option (List Byte) :=
  match flashContainer a s with
  | (s1, none) => (s1, none)
  | (s1, some b) =>
    let step := contCheck (fun k => k == kind) slot (argNum (contPayload b) 0 1 == 0) b s1
    (imgResult (contKind b) step s1, if step = 0 then some b else none)

/-! ### Steps (Table 19-8) -/

/-- The steps that a step comes after. -/
def bootNeeds (step : Nat) : List Nat :=
  match step with
  | 2 => [1] | 3 => [1] | 4 => [2] | 5 => [4] | 7 => [3, 6] | 8 => [6] | 9 => [7] | 10 => [8, 9] | 11 => [10] | 12 => [11]
  | _ => []

def State.bootStarted (s : State) (k : Nat) : Bool := bitOf s.boot.started k
def State.bootEnded (s : State) (k : Nat) : Bool := bitOf s.boot.ended k
def State.bootFailed (s : State) (k : Nat) : Bool := bitOf s.boot.failed k

/-- A bit set in a mask. -/
def withBit (m k : Nat) : Nat := m ||| 2 ^ k

/-- A step starts: SHUT_BOOT_STAT.STEP is the highest one started. -/
def bootMark (step : Nat) (s : State) : State :=
  (s.setBoot { s.boot with started := withBit s.boot.started step }).put R.SHUT_BOOT_STAT_STEP 0 (max step (s.get R.SHUT_BOOT_STAT_STEP 0))

/-- A step has its result. -/
def bootEnd (step : Nat) (s : State) : State := s.setBoot { s.boot with ended := withBit s.boot.ended step }

/-- The flow ends. -/
def bootOver (s : State) : State := { s with bootActive := false }

/-- A step is skipped because one that it needs failed. -/
def bootSkip (step : Nat) (s : State) : State :=
  let s1 := s.setBoot { s.boot with ended := withBit s.boot.ended step, failed := withBit s.boot.failed step }
  if step = 12 then bootOver s1 else s1

/-- A step fails (R486): the first failure is recorded; BOOT_FAIL; a report. Without step 1 the flow stops. -/
def bootFail (step code : Nat) (s : State) : State :=
  let s1 := if s.get R.SHUT_BOOT_STAT_FAIL_STEP 0 = 0 then
      (s.put R.SHUT_BOOT_STAT_FAIL_STEP 0 step).put R.SHUT_BOOT_STAT_CODE 0 code
    else s
  let s2 := bootSkip step ((s1.raise 0x16 0 3).report 0x16 0 3 clsDevice)
  if step = 1 then bootOver s2 else s2

/-- A step fails with an error code that no chapter names: a free value. -/
def bootFailFree (step : Nat) (s : State) : State :=
  let (v, s1) := s.draw
  bootFail step (v % 65536) s1

/-- Steps run from a list of items until one fails: the state, and whether all passed. -/
def untilFail {α : Type} (f : α → State → State × Bool) : List α → State → State × Bool
  | [], s => (s, true)
  | x :: t, s =>
    let r := f x s
    if r.2 then untilFail f t r.1 else r

/-! #### Step 1 -/

/-- The boot continuation in GENG_0's instruction memory. -/
def loadCont (e : BootEntry) (s : State) : State × Bool :=
  match bootContainer 7 0xFF e.offset s with
  | (s1, none) => (s1, false)
  | (s1, some b) =>
    let p := contPayload b
    if e.slot ≠ 0xFF ∨ imemBytes 5 < p.length then (s1, false)
    else (s1.setMem (engKey 5 0) ((s1.mem (engKey 5 0)).store false 0 p), true)

/-- Step 1: the manifest checked, CONT loaded. -/
def bootManifest (s : State) : State :=
  match bootContainer 6 (s.get R.SHUT_BOOT_CFG_SLOT 0) (s.get R.SHUT_BOOT_CFG_OFFSET 0) s with
  | (s1, none) => bootFailFree 1 s1
  | (s1, some b) =>
    if manifestOk (contPayload b) then
      let s2 := s1.setBoot { s1.boot with manifest := contPayload b }
      let r := untilFail loadCont (s2.bootOf 1) s2
      if r.2 then bootEnd 1 r.1 else bootFailFree 1 r.1
    else bootFailFree 1 s1

/-! #### Steps 2 and 10: register records -/

/-- An address in one of the pages that a manifest's records may not name (R484). -/
def bootBarred (a : Nat) : Bool :=
  let ty := (a - 0x3000000000) / 0x100000
  ty == 0x14 || ty == 0x18 || ty == 0x16

/-- A record applied as an authenticated write. -/
def bootRecord (stamp : Nat) (r : Nat × Word × Nat) (s : State) : State × Bool :=
  if r.1 < 0x3000000000 ∨ 0x3002000000 ≤ r.1 ∨ r.1 % 4 ≠ 0 ∨ bootBarred r.1 then (s, false)
  else
    let x := serveWord latchInit true r.1 true r.2.1 15 stamp (targetOf s (s.get R.TRLH_DDR_MAP_MODE 39) r.1) s
    (x.1, x.2.code == rspOk)

/-- The records of a REGS entry in list order. -/
def bootRegs (stamp : Nat) (e : BootEntry) (s : State) : State × Bool :=
  if s.boot.manifest.length < e.offset + 16 * e.argA then (s, false)
  else untilFail (bootRecord stamp) (writeRecords ((s.boot.manifest.drop e.offset).take (16 * e.argA))) s

/-! #### Step 3: Hinge and Glazing -/

/-- The Hinge load, unless the fabric is RELEASED. -/
def bootHinge (e : BootEntry) (s : State) : State :=
  if s.fabState = fabReleased then s
  else startLoad e.offset e.slot (s.setReg 0x15 0 R.HNGE_BS_ALT.off (word (e.argA &&& 0x807FFFFF)))

/-- The Glazing load, unless GLAZ_ASSET_VER is not 0. -/
def bootGlaze (e : BootEntry) (s : State) : State :=
  if s.getReg 0x0E 0 R.GLAZ_ASSET_VER.off ≠ 0 then s
  else glazLoadStart (e.slot % 32) (s.put R.GLAZ_LOAD_ADDR_OFFSET 0 e.offset)

/-- Step 3 as it goes on: both results there, one of them a failure, or neither. -/
def bootLoads (s : State) : State :=
  if !(s.bootOf 2).isEmpty && s.fabState == fabFailed then bootFail 3 (s.get R.HNGE_LOAD_STAT_A_ERR 0) s
  else if !(s.bootOf 3).isEmpty && s.flag R.GLAZ_LOAD_STAT_FAIL 0 then bootFail 3 (s.get (R.HDR_ERR_CODE.on 0x0E) 0) s
  else if ((s.bootOf 2).isEmpty || s.fabState == fabReleased) && ((s.bootOf 3).isEmpty || s.getReg 0x0E 0 R.GLAZ_ASSET_VER.off != 0) then
    bootEnd 3 s
  else s

/-! #### Step 5: head links -/

/-- Training on every enabled head. -/
def bootHeads (stamp : Nat) (s : State) : State :=
  (List.range 4).foldl (fun s h =>
    if s.headOn h then
      (linkCtlWrite ⟨latchInit, true, 0x0D, h, R.HEAD_LINK_CTL.off, word (s.getReg 0x0D h R.HEAD_LINK_CTL.off).toNat ||| 1, stamp⟩ s).1
    else s) s

/-! #### Step 7: staging -/

/-- The KIND of the container that an entry of a type names. -/
def stagedKind (ty : Nat) : Nat := if ty = 6 then 1 else if ty = 7 then 0 else 4

/-- A container staged. -/
def bootStage (e : BootEntry) (s : State) : State × Bool :=
  match bootContainer (stagedKind e.type) e.slot e.offset s with
  | (s1, none) => (s1, false)
  | (s1, some b) => (s1.setBoot { s1.boot with staged := tblSet [] s1.boot.staged e.offset b }, true)

/-- The container staged for an entry. -/
def State.staged (s : State) (e : BootEntry) : List Byte := tblGet [] s.boot.staged e.offset

/-- The entries that step 7 stages. -/
def State.toStage (s : State) : List BootEntry := (bootEntries s.boot.manifest).filter (fun e => e.type == 6 || e.type == 7 || e.type == 9)

/-! #### Step 8: DDR (R486) -/

/-- The TRAIN container of the warm path, if it may be taken. -/
def trainBox (s : State) : State × Option (List Byte) :=
  match (s.bootOf 5).head? with
  | none => (s, none)
  | some e =>
    match bootContainer 5 e.slot e.offset s with
    | (s1, none) => (s1, none)
    | (s1, some b) =>
      (s1, if argNum b 0x10 8 = Config.deviceId.toNat ∧ s1.shutter.fullTrain = false then some (contPayload b) else none)

/-- The channels that train: those that are not READY and do not leave self-refresh. -/
def State.ddrCold (s : State) : List Nat := [0, 1].filter (fun c => s.ddrState c == ddrDown || s.ddrState c == ddrLostState)

/-- A channel's record as a TRAIN payload holds it. -/
def trainRecord (p : List Byte) (c : Nat) : Tbl Word :=
  (List.range 512).foldl (fun t k => tblSet 0 t k (word (argNum p (2048 * c + 4 * k) 4))) []

/-- Step 8 begins. -/
def bootDdr (stamp : Nat) (s : State) : State :=
  if s.ddrCold = [] then s
  else
    match trainBox s with
    | (s1, some p) =>
      s1.ddrCold.foldl (fun s c =>
        (trainCtlWrite ⟨latchInit, true, 0x0C, c, R.DDRC_TRAIN_CTL.off, 1, stamp⟩
          (s.setDdr c { s.ddrCh c with record := trainRecord p c })).1) (s1.put R.SHUT_BOOT_STAT_WARM 0 1)
    | (s1, none) => s1.ddrCold.foldl (fun s c => (trainCtlWrite ⟨latchInit, true, 0x0C, c, R.DDRC_TRAIN_CTL.off, 3, stamp⟩ s).1) s1

/-- The training record of a full training, in PANT_63 where the host owns it. -/
def keepRecord (s : State) : State :=
  if [0, 1].any (fun c => (s.ddrCh c).fullMode) then
    let s1 := if (s.get R.PANT_OWNER_OWNER 63 == 0x41) then
        (List.range 512).foldl (fun s w =>
          pantStore 63 w 255 ((List.range 2).flatMap (fun k => leBytes 4 (tblGet 0 (s.ddrCh (w / 256)).record (2 * (w % 256) + k)).toNat)) s) s
      else s
    s1.raise 0x16 0 4
  else s

/-- Step 8 as it goes on. -/
def bootDdrNext (s : State) : State :=
  if s.ddrState 0 = ddrReady ∧ s.ddrState 1 = ddrReady then bootEnd 8 (keepRecord s)
  else if s.ddrCold ≠ [] then bootFailFree 8 s
  else s

/-! #### Step 9: self-tests, Larders, engine images (R128, R171, R485) -/

/-- The panes that are ON. -/
def State.panesOn (s : State) : List Nat := (List.range 16).filter (fun p => s.domainOn (14 + p))

/-- The self-test of every pane that is ON and in STANDBY. -/
def bootTests (stamp : Nat) (s : State) : State :=
  s.panesOn.foldl (fun s p =>
    if s.pcState p = pcStandby then (bistWrite ⟨latchInit, true, 0x01, p, R.PANE_BIST_CTL.off, 1, stamp⟩ s).1 else s) s

/-- The panes that a LARDER entry patches: masked, ON, and without a Larder of equal version. -/
def State.toPatch (s : State) (e : BootEntry) : List Nat :=
  let pay := contPayload (s.staged e)
  s.panesOn.filter (fun p => bitOf e.arg16 p && (s.getReg 0x02 p (0x068 + 8 * payNum pay 0 1)).toNat != payVersion pay)

/-- The codes with which a patch may be refused (R171). -/
def patchBar (e : BootEntry) (ps : List Nat) (s : State) : Option Nat :=
  if s.porter.admitting.isSome then some 0x0103
  else if ps.any (fun p => s.pcState p != pcStandby) then some 0x0101
  else if ps.any s.panePinned then some 0x0102
  else if ps.any (fun p => !payloadOk (contPayload (s.staged e)) (s.getReg 0x02 p 0x068).toNat) then some 0x0105
  else none

/-- One LARDER entry's patches begin. -/
def bootPatch (e : BootEntry) (s : State) : State :=
  let ps := s.toPatch e
  match patchBar e ps s with
  | some code => bootFail 9 code (ps.foldl (fun s p => s.err 0x02 p 0 code) s)
  | none => ps.foldl (fun s p => patchPane (s.staged e) e.slot p s) s

/-- The instances that an ENGINE entry names, in order. -/
def entryEngines (e : BootEntry) : List (Nat × Nat) :=
  (List.range (bitsAt e.argA 8 8)).map (fun k => (bitsAt e.argA 24 8, bitsAt e.argA 16 8 + k))

/-- An engine payload that fits the memories of the instances it is for. -/
def imageOk (ty : Nat) (p : List Byte) : Bool :=
  decide (argNum p 0 4 ≤ imemBytes ty ∧ argNum p 4 4 ≤ dmemBytes) && p.length == 8 + argNum p 0 4 + argNum p 4 4

/-- The two memories of an engine written from offset 0. -/
def loadImage (p : List Byte) (s : State) (e : Nat × Nat) : State :=
  let m := s.mem (engKey e.1 e.2)
  let m1 := m.store false 0 ((p.drop 8).take (argNum p 0 4))
  s.setMem (engKey e.1 e.2) (m1.store true 0 ((p.drop (8 + argNum p 0 4)).take (argNum p 4 4)))

/-- An engine that an entry may name. -/
def engineNamed (e : Nat × Nat) : Bool := (e.1 == 3 || e.1 == 4 || e.1 == 5) && decide (e.2 < pageCount e.1)

/-- The fan-out of one ENGINE entry to the instances that are ON and not RUNNING, but for GENG_0. -/
def bootFan (e : BootEntry) (s : State) : State × Bool :=
  let p := contPayload (s.staged e)
  if !(entryEngines e).all engineNamed || !imageOk (bitsAt e.argA 24 8) p then (s, false)
  else
    (((entryEngines e).filter (fun k => k != (5, 0) && s.domainOn (pageDomain k.1 k.2) && s.engState k.1 k.2 != esRunning)).foldl (loadImage p) s, true)

/-- A pane that still tests itself or takes a patch. -/
def State.paneBusy (s : State) (p : Nat) : Bool := s.flag R.PANE_BIST_STAT_BUSY p || s.flag R.PCTL_PATCH_STAT_BUSY p

/-- Step 9 as it goes on: the self-tests, each LARDER entry, then the fan-out. -/
def bootFanNext (s : State) : State :=
  if s.panesOn.any s.paneBusy then s
  else
    let ls := s.bootOf 6
    let k := s.boot.fan - 1
    let bad := (ls.take k).any (fun e => s.panesOn.any (fun p => bitOf e.arg16 p && s.flag R.PCTL_PATCH_STAT_FAIL p))
    if bad then bootFail 9 0x0104 s
    else
      match ls[k]? with
      | some e => bootPatch e (s.setBoot { s.boot with fan := s.boot.fan + 1 })
      | none =>
        let r := untilFail bootFan (s.bootOf 7) s
        if r.2 then bootEnd 9 r.1 else bootFailFree 9 r.1

/-! #### Step 10: engines started -/

/-- One engine started from its entry's START; a RUNNING one is left as it is. The error code of a refusal, or 0. -/
def bootEngine (stamp start : Nat) (k : Nat × Nat) (s : State) : State × Nat :=
  if k = (5, 0) ∨ !s.domainOn (pageDomain k.1 k.2) ∨ s.engState k.1 k.2 = esRunning then (s, 0)
  else
    let r := enableWrite ⟨latchInit, true, k.1, k.2, 0x008, 1, stamp⟩ (s.put (R.ENG_START_ADDR.on k.1) k.2 start)
    (r.1, if r.2 = rspOk then 0 else (r.1.get (R.HDR_ERR_CODE.on k.1) k.2))

/-- Engines started in order until one refuses. -/
def bootEngines (stamp : Nat) : List (Nat × (Nat × Nat)) → State → State × Nat
  | [], s => (s, 0)
  | (start, k) :: t, s =>
    let r := bootEngine stamp start k s
    if r.2 = 0 then bootEngines stamp t r.1 else r

/-- Step 10. -/
def bootRun (stamp : Nat) (s : State) : State :=
  let r := untilFail (bootRegs stamp) (s.bootOf 8) s
  if r.2 then
    let x := bootEngines stamp ((r.1.bootOf 7).flatMap (fun e => (entryEngines e).map (fun k => (e.argB, k)))) r.1
    if x.2 = 0 then bootEnd 10 x.1 else bootFail 10 x.2 x.1
  else bootFailFree 10 r.1

/-! #### Step 11: the itinerary -/

/-- Step 11: the ITIN payload given to the Porter, unless it is the current itinerary. -/
def bootAdmit (s : State) : State :=
  match (s.bootOf 9).head? with
  | none => bootEnd 11 s
  | some e =>
    let b := contPayload (s.staged e)
    if s.porter.current.any (fun it => it.id == argNum b 8 4) then bootEnd 11 s
    else (s.setPorter { s.porter with image := b, admitting := some true }).put R.PORT_STATE_CHECK 0 2

/-- Step 11 as it goes on. -/
def bootAdmitNext (s : State) : State :=
  if s.porter.admitting.isSome then s
  else if s.get R.PORT_RESULT_REASON 0 = 0 then bootEnd 11 s
  else bootFail 11 (s.get R.PORT_RESULT_REASON 0) s

/-! #### Step 12 -/

/-- Step 12: GENG_0 takes the image that an entry names for it and jumps to its START; the flow is over. -/
def bootLast (s : State) : State :=
  let s1 := match (s.bootOf 7).find? (fun e => (entryEngines e).contains (5, 0)) with
    | none => s
    | some e =>
      let s2 := loadImage (contPayload (s.staged e)) s (5, 0)
      let x := s2.eng (engKey 5 0)
      s2.setEng (engKey 5 0) { x with pc := pcOf 5 e.argB }
  bootOver ((bootEnd 12 s1).raise 0x16 0 2)

/-! ### The flow -/

/-- The conditions of a step other than the steps it comes after. -/
def State.bootReady (s : State) (step : Nat) : Bool :=
  match step with
  | 1 => !(s.mem (engKey 5 0)).initRunning
  | 3 => ((s.bootOf 2).isEmpty || s.domainOn 1) && ((s.bootOf 3).isEmpty || s.domainOn 4)
  | 5 => (s.getReg 0x17 0 R.TICK_SNAP.off != 0)
  | 6 => s.domainOn 9
  | 7 => s.march.isNone && s.domainUp 10
  | 8 => s.domainOn 11
  | 9 => s.shutter.profile.isNone
  | 11 => s.domainOn 9 && s.linkUp && s.porter.admitting.isNone
  | _ => true

/-- A step begins. -/
def bootBegin (step stamp : Nat) (s0 : State) : State :=
  let s := bootMark step s0
  match step with
  | 1 => bootManifest s
  | 2 =>
    let r := untilFail (bootRegs stamp) (s.bootOf 4) s
    if r.2 then bootEnd 2 r.1 else bootFailFree 2 r.1
  | 3 => bootLoads ((s.bootOf 3).foldl (fun s e => bootGlaze e s) ((s.bootOf 2).foldl (fun s e => bootHinge e s) s))
  | 4 => bootEnd 4 (if s.flag R.TICK_RUN_RUN 0 then s else tickStart stamp s)
  | 5 => bootEnd 5 (bootHeads stamp s)
  | 6 => if s.linkUp then bootEnd 6 s else retrainWrite ⟨latchInit, true, 0x0A, 1, R.LNTL_LINK_CTL.off, 3, stamp⟩ s
  | 7 =>
    let r := untilFail bootStage s.toStage s
    if r.2 then bootEnd 7 r.1 else bootFailFree 7 r.1
  | 8 => if s.ddrState 0 = ddrReady ∧ s.ddrState 1 = ddrReady then bootEnd 8 s else bootDdr stamp s
  | 9 => (bootTests stamp s).setBoot { s.boot with fan := 1 }
  | 10 => bootRun stamp s
  | 11 => bootAdmit s
  | _ => bootLast s

/-- A step that has begun goes on. -/
def bootAdvance (step : Nat) (s : State) : State :=
  match step with
  | 3 => bootLoads s
  | 6 => if s.linkUp then bootEnd 6 s else if s.get R.LNTL_LINK_STAT_STATE 1 = lnkDown then bootFailFree 6 s else s
  | 8 => bootDdrNext s
  | 9 => bootFanNext s
  | 11 => bootAdmitNext s
  | _ => s

/-- One look of the boot ROM at a step: skipped if a step that it needs failed, begun when its conditions hold, ended when its
result is there (R485, R486). -/
def bootStep (step stamp : Nat) (s : State) : State :=
  if s.bootEnded step then s
  else if (bootNeeds step).any s.bootFailed then bootSkip step s
  else if s.bootStarted step then bootAdvance step s
  else if (bootNeeds step).all s.bootEnded && s.bootReady step then bootBegin step stamp s
  else s

/-- BOOT_FLOW (R483, R485). -/
def execBootFlow (step stamp : Nat) (s : State) : Result :=
  need (decide (1 ≤ step ∧ step ≤ 12))
    (done (if s.bootActive ∧ s.domainOn 2 ∧ s.engState 5 0 = esRunning then bootStep step stamp s else s))

end Sys2Proof.Machine
end

