-- ==== Sys2Proof/Machine/Commit.lean ====
section
/-!
DEFINITION. The cutoff and the commit of the boundary die (R54 to R64), and the status frames that a commit makes due (R420).
-/

namespace Sys2Proof.Machine

/-! ### The cutoff (R55 to R57, R60) -/

/-- The cutoff passes: the timeout sweep, the post-cutoff hold, the event and the gate engines' line 1. -/
def cutoffPass (s : State) : State :=
  let s1 := s.put R.TICK_PHASE_PAST_CUTOFF 0 1
  let s2 := if s1.domainUp 2 then
      [0, 1].foldl (fun s e => setIrq 5 e 1 s) ((timeoutSweep s1.cutoffCycle s1).put R.GATE_HOLD_PEAK 0 (heldClasses s1).length)
    else s1
  let s3 := s2.raise 0x17 0 1
  lintelCutoff { s3 with tick := { s3.tick with arrayCutoff := none } }

/-- A cutoff of a generator that runs. -/
def cutoffTick (s : State) : State :=
  if s.flag R.TICK_RUN_RUN 0 && !s.flag R.TICK_PHASE_PAST_CUTOFF 0 then cutoffPass s else s

/-! ### The commit (R61) -/

/-- The period for which the itinerary current after the commit was admitted (R53): the staged one goes if it would go with the
pending period and head timing. -/
def admittedPeriod (ws : List ShadowWrite) (s : State) : Nat :=
  let s1 := match lastShadow ws (regKey 0x17 0 0x044) with
    | some v => s.setReg 0x17 0 0x044 v
    | none => s
  let goes := if s.linkUp && s.domainOn 9 then stagedGoes s.arrayCutoffStamp (headCommit ws s1) else none
  match goes with
  | some it => it.period
  | none => ((s.porter.current.map (fun it => it.period)).getD 0)

/-- The shadows that take effect as they stand: those of the tick generator, of head timing and of the LUTs have their own rules. -/
def plainShadow (w : ShadowWrite) : Bool :=
  keyTy w.key != 0x17 && !(keyTy w.key == 0x0D && (timingOff (keyOff w.key) || keyOff w.key == 0x064))

/-- A shadow of a UIN register: the fabric runs with the old bits up to the commit (R450). -/
def newUin (w : ShadowWrite) : Bool := keyTy w.key == 0x15 && decide (0x100 ≤ keyOff w.key ∧ keyOff w.key < 0x140)

/-- The status frames that an edge makes due (R420): TICK_EDGES as it stands after the commit. -/
def statusDue (s : State) : State :=
  if s.gateRuns && s.flag R.GATE_STAT_CFG_EN 0 && s.edges % s.get R.GATE_STAT_CFG_PERIOD 0 == 0 then
    s.setGate { s.gate with statDue := true }
  else s

/-- The Gatehouse's part of a commit: the signal slots, then the queued table writes, then the gate engines' line 0 (R396, R413). -/
def gateCommit (cut : Nat) (s : State) : State :=
  if s.domainUp 2 then
    [0, 1].foldl (fun s e => setIrq 5 e 0 s) (statusDue (tabCommit cut s.tick.lastEdge (signalCommit s)))
  else s

/-- The commit: every change of the boundary die at once. The Lintel tells the array die of the edge (R16). -/
def commitPass (s : State) : State :=
  let cut := s.cutoffStamp
  let arr := s.arrayCutoffStamp
  let ws := takenShadows s false cut
  let period := admittedPeriod ws s
  let s0 := { s with shadows := leftShadows s false cut }
  let s1 := tickCommit ws period s0
  let s2 := (ws.filter plainShadow).foldl applyShadow (if ws.any newUin then runFabric s1 else s1)
  let s3 := headCommit ws s2
  let s4 := gateCommit cut s3
  let s5 := if s4.domainUp 7 then transomCommit cut s4 else s4
  let s6 := headEdge (fsyncCommit s5)
  let s7 := (aggCommit s6).put R.LNTL_LINK_STAT_TICK_SEQ 1 (s6.edges % 16)
  lintelEdge 1 { s7 with tick := { s7.tick with arrayCutoff := some arr } }

/-- A commit of a generator that runs; a cutoff that has not passed yet passes first. -/
def commitTick (s : State) : State := if s.flag R.TICK_RUN_RUN 0 then commitPass (cutoffTick s) else s

/-! ### Status frames (R420, Table 16-12) -/

/-- A port that sends status frames: CAN with a format of 64 bytes and the right to send, or T1S. -/
def State.sendsStatus (s : State) (p : Nat) : Bool :=
  if p < 4 then s.canOn p && (s.flag (R.GATE_CAN_CFG_FD_EN.nth p) 0 || s.flag (R.GATE_CAN_CFG_XL_EN.nth p) 0) && !s.flag (R.GATE_CAN_CFG_LISTEN.nth p) 0
  else s.t1sOn (p - 4)

/-- The four groups of outcome codes that a status frame counts. -/
def statusGroups : List (List Nat) := [[3, 4, 5, 6], [8, 10, 11, 12], [9], [14, 15, 16]]

/-- The counts of all ports by group, as they stand. -/
def statusCounts (s : State) : List Nat :=
  (List.range 6).flatMap (fun p => statusGroups.map (fun g => g.foldl (fun n c => n + s.portCount p c) 0 % 2 ^ 32))

/-- PINS of a status frame. -/
def statusPins (s : State) : Nat :=
  bit s.pins.fault + 2 * bit s.pins.ttFault + 4 * maskOf 4 (fun h => s.get R.HEAD_SRC_SOURCE h == 2)

/-- The 64 data bytes of a port's status frame. -/
def statusData (p : Nat) (s : State) : List Byte :=
  let base := tblGet [] s.gate.statBase p
  let counts := ((List.range 24).zip (statusCounts s)).flatMap (fun k => leBytes 2 (min ((k.2 + 2 ^ 32 - base.getD k.1 0) % 2 ^ 32) 65535))
  let itin := if s.linkUp then (s.porter.current.map (fun it => it.id)).getD 0 else 0
  let body := leBytes 4 (s.get R.TICK_SNAP 0) ++ leBytes 2 (tblGet 0 s.gate.statSeq p) ++
    leBytes 1 (statusPins s) ++ leBytes 1 (if s.linkUp then s.get R.PORT_VARIANT_VARIANT 0 else 0xFF) ++ leBytes 4 itin ++ counts
  body ++ (leBytes 4 (protCrc 32 0x04C11DB7 0 60 body)).reverse

/-- A port's status frame: CAN in the format of the highest enabled mode, T1S to broadcast. Whether an FD frame switches its bit rate, and
the SDT of an XL frame, are free values. -/
def statusFrame (p : Nat) (s : State) : State × TxFrame :=
  let id := s.get (R.GATE_STAT_ID_ID.nth p) 0
  let data := statusData p s
  let (v, s1) := s.draw
  if 4 ≤ p then
    (s, ⟨0, 3, false, 0, List.replicate 6 255 ++ s.macBytes ++ (leBytes 2 (s.get R.GATE_T1S_ETYPE_ETYPE 0)).reverse ++
      (leBytes 4 id).reverse ++ data, none, 0⟩)
  else if s.flag (R.GATE_CAN_CFG_XL_EN.nth p) 0 then (s1, ⟨id % 2 ^ 19, 2, false, v % 256, data, none, 0⟩)
  else if bitOf id 31 then (s1, ⟨id % 2 ^ 29, 1, v % 2 == 1, 0, data, none, 0⟩)
  else (s1, ⟨id % 2 ^ 11, 0, v % 2 == 1, 0, data, none, 0⟩)

/-- A port's status frame made due: the one still waiting is skipped and counted. -/
def statusPort (s : State) (p : Nat) : State :=
  if !s.sendsStatus p then s
  else
    let s1 := match tblGet none s.gate.status p with
      | some _ => (countPort p 0x1F 1 s).raise 0x11 0 7
      | none => s
    let (s2, f) := statusFrame p s1
    s2.setGate { s2.gate with
      status := tblSet none s2.gate.status p (some f)
      statNext := tblSet [] s2.gate.statNext p (statusCounts s2) }

/-- The due status frames. -/
def statusSend (s : State) : State :=
  if s.gate.statDue then (List.range 6).foldl statusPort (s.setGate { s.gate with statDue := false }) else s

/-! ### The commands -/

/-- CUTOFF (R56). -/
def execCutoff (s : State) : Result := done (cutoffTick s)

/-- COMMIT (R61). -/
def execCommit (s : State) : Result := done (commitTick s)

/-- STATUS_FRAME_SEND (R420). -/
def execStatusFrameSend (s : State) : Result := done (if s.gateRuns then statusSend s else s)

end Sys2Proof.Machine
end

