-- ==== Sys2Proof/Machine/Hatch.lean ====
section
/-!
DEFINITION. Hatch (R445, R446): request frames from the host, their checks, and their responses.
-/

namespace Sys2Proof.Machine

/-- Hatch as an initiator (Table 13-3). -/
abbrev hatchInit : Initiator := ⟨30, 0⟩

/-- The Hatch codes of STATUS. -/
abbrev hsDone : Nat := 0
abbrev hsCrcBad : Nat := 1
abbrev hsFormat : Nat := 2
abbrev hsBusy : Nat := 3

/-- A response: 0xA5, STATUS, the data, and the CRC-16 over STATUS and data, most significant byte first. -/
def hatchReply (code footpath : Nat) (data : List Byte) (s : State) : State :=
  let body := leBytes 1 (code * 16 + footpath) ++ data
  { s with answer := [⟨code, leBytes 1 0xA5 ++ body ++ (leBytes 2 (crc16 body)).reverse⟩], hatchOpen := true }

/-- OP and byte 1 of a frame. -/
def frameOp (f : List Byte) : Nat := (f.getD 0 0).toNat
def frameN (f : List Byte) : Nat := (f.getD 1 0).toNat
/-- ADDR of a READ or WRITE frame. -/
def frameAddr (f : List Byte) : Nat := leNum ((f.drop 2).take 5)

/-- A reserved OP, or a byte 1 that its OP does not allow. -/
def frameFormatBad (f : List Byte) : Bool :=
  match frameOp f with
  | 1 => decide (15 < frameN f)
  | 2 => decide (15 < frameN f)
  | 3 => decide (frameN f < 5 ∨ 133 < frameN f)
  | _ => true

/-- The length of a frame but for its CRC (Table 17-10). -/
def frameLength (f : List Byte) : Nat :=
  match frameOp f with
  | 1 => 7
  | 2 => 7 + 4 * (frameN f + 1)
  | _ => 2 + 4 * (frameN f + 1)

/-- The CRC of a frame lies where its length says. -/
def frameCrcOk (f : List Byte) : Bool :=
  let n := frameLength f
  beNum ((f.drop n).take 2) == crc16 (f.take n)

/-- A frame whose transaction ends before its last CRC byte (R446): counted, no response. -/
def frameShort (s : State) : State := { (s.count R.HTCH_CRC_ERR_COUNT 0 1).raise 0x13 0 0 with answer := [] }

/-- The checks of a frame in their order (R446): FORMAT, its length, CRC_BAD, BUSY; else what the frame asks. -/
def hatchFrame (f : List Byte) (busy : Bool) (run : State → State) (s : State) : State :=
  if f.length < 2 then frameShort s
  else if frameFormatBad f then hatchReply hsFormat rspOk [] (s.raise 0x13 0 1)
  else if f.length < frameLength f + 2 then frameShort s
  else if !frameCrcOk f then hatchReply hsCrcBad rspOk [] ((s.count R.HTCH_CRC_ERR_COUNT 0 1).raise 0x13 0 0)
  else if busy then hatchReply hsBusy rspOk [] (s.raise 0x13 0 1)
  else run s

/-- The words of a frame's addresses, upward. -/
def frameAddrs (f : List Byte) : List Nat := (List.range (frameN f + 1)).map (fun k => frameAddr f + 4 * k)

/-- Words read one by one: the data, and the first failing code; a word that fails is sent as 0. -/
def hatchWords : List Nat → State → State × List Byte × Nat
  | [], s => (s, [], rspOk)
  | a :: t, s =>
    let r := accessWord hatchInit false a false 0 15 0 s
    let x := hatchWords t r.1
    (x.1, (if r.2.code = rspOk then wordBytes (answerWord a r.2) else leBytes 4 0) ++ x.2.1, failFirst r.2.code x.2.2)

/-- The RSE register that a READ of several words covers (R37). -/
def coveredRse (s : State) (addrs : List Nat) : Option (Nat × Nat × Nat) :=
  if addrs.length < 2 then none
  else addrs.findSome? (fun a => match targetOf s 0 a with
    | .page ty n off => if isRse ty off && s.domainUp (pageDomain ty n) then some (ty, n, off) else none
    | _ => none)

/-- A READ (R445). -/
def hatchRead (f : List Byte) (s : State) : State :=
  let addrs := frameAddrs f
  match coveredRse s addrs with
  | some (ty, n, off) => hatchReply hsDone rspRefused (List.replicate (4 * addrs.length) 0) (s.err ty n off 0x0005)
  | none =>
    let r := hatchWords addrs s
    hatchReply hsDone r.2.2 r.2.1 r.1

/-- Words written one by one: the first failing code. -/
def hatchStores (stamp : Nat) : List (Nat × Word) → State → State × Nat
  | [], s => (s, rspOk)
  | (a, v) :: t, s =>
    let r := accessWord hatchInit false a true v 15 stamp s
    let x := hatchStores stamp t r.1
    (x.1, failFirst r.2.code x.2)

/-- A WRITE (R445). -/
def hatchWrite (f : List Byte) (stamp : Nat) (s : State) : State :=
  let ws := (frameAddrs f).zip ((List.range (frameN f + 1)).map (fun k => word (leNum ((f.drop (7 + 4 * k)).take 4))))
  let r := hatchStores stamp ws s
  hatchReply hsDone r.2 [] r.1

/-- The critical command that a COMMAND frame carries (Table 17-4); one whose LEN is not the length of its arguments has none, which no
code allows. -/
def frameCommand (f : List Byte) (stamp : Nat) (aesFault journalFail : Bool) : CritCmd :=
  let c := (f.drop 2).take (4 * (frameN f + 1))
  let n := c.length - 24
  let num := fun (a k : Nat) => leNum ((c.drop a).take k)
  ⟨false, num 0 1, num 1 1, num 4 4, num 8 8, if num 2 2 = n then (c.drop 16).take n else [], c.drop (16 + n), stamp, aesFault, journalFail⟩

/-- A COMMAND (R445): the response of Latch is sent at once, or when Latch has run the command. -/
def hatchCommand (f : List Byte) (stamp : Nat) (aesFault journalFail : Bool) (s : State) : State :=
  let s1 := critical (frameCommand f stamp aesFault journalFail) s
  match s1.answer with
  | a :: _ => hatchReply hsDone rspOk a.data s1
  | [] => { s1 with hatchOpen := true }

/-- A command of Hatch waits in Latch: its request is still outstanding. -/
def State.hatchWaits (s : State) : Bool := s.latchBusy false

/-- Latch accepts no command of Hatch: before the restore, or while RESET_N is low. -/
def State.latchShut (s : State) : Bool := !s.latch.ready || s.shutter.resetLow

/-! ### The commands -/

/-- HATCH_READ (R445): a frame of OP READ, or of an OP that none of the three rows has. -/
def execHatchRead (frame : List Byte) (s : State) : Result :=
  done (if frameOp frame = 2 ∨ frameOp frame = 3 then s else hatchFrame frame s.hatchWaits (hatchRead frame) s)

/-- HATCH_WRITE (R445). -/
def execHatchWrite (frame : List Byte) (stamp : Nat) (s : State) : Result :=
  done (if frameOp frame = 2 then hatchFrame frame s.hatchWaits (hatchWrite frame stamp) s else s)

/-- HATCH_COMMAND (R445). -/
def execHatchCommand (frame : List Byte) (stamp : Nat) (aesFault journalFail : Bool) (s : State) : Result :=
  done (if frameOp frame = 3 then
    hatchFrame frame (s.hatchWaits || s.latchShut) (hatchCommand frame stamp aesFault journalFail) s else s)

/-- HATCH_TRANSACTION_END (R446): HATCH_CS_N rises before the last CRC byte, or before the response has ended. -/
def execHatchTransactionEnd (inResponse : Bool) (s : State) : Result :=
  done (if !inResponse then frameShort s
    else if s.hatchOpen then
      { (s.count R.HTCH_ABANDONED_COUNT 0 1).raise 0x13 0 2 with answer := [], hatchOpen := false }
    else s)

end Sys2Proof.Machine
end

