-- ==== Sys2Proof/Machine/Dispatch.lean ====
section
/-!
DEFINITION. One arm per command: each calls that command's meaning.
-/

namespace Sys2Proof.Machine

def exec (i : Instr) (s : State) : Host.Outcome State Fault Refusal :=
  match i with
  | .registerWrite ini addr value enables stamp meets => Sys2Proof.Machine.execRegisterWrite ini addr value enables stamp s meets
  | .lockKeyWrite ini ty n value => Sys2Proof.Machine.execLockKeyWrite ini ty n value s
  | .unlockWindowExpire ty n => Sys2Proof.Machine.execUnlockWindowExpire ty n s
  | .softReset ini ty n => Sys2Proof.Machine.execSoftReset ini ty n s
  | .fence ini ty n on => Sys2Proof.Machine.execFence ini ty n on s
  | .evtForce ini ty n mask => Sys2Proof.Machine.execEvtForce ini ty n mask s
  | .tickStart stamp => Sys2Proof.Machine.execTickStart stamp s
  | .tickStop stamp => Sys2Proof.Machine.execTickStop stamp s
  | .tickSlewWrite ini value stamp => Sys2Proof.Machine.execTickSlewWrite ini value stamp s
  | .cutoff => Sys2Proof.Machine.execCutoff s
  | .commit => Sys2Proof.Machine.execCommit s
  | .referenceLost => Sys2Proof.Machine.execReferenceLost s
  | .arraySideEdge late => Sys2Proof.Machine.execArraySideEdge s late
  | .renderWindowClose => Sys2Proof.Machine.execRenderWindowClose s
  | .heldFrameExtract => Sys2Proof.Machine.execHeldFrameExtract s
  | .cutMessageReceive tickSeq age arrival => Sys2Proof.Machine.execCutMessageReceive tickSeq age arrival s
  | .frameInfoReceive head => Sys2Proof.Machine.execFrameInfoReceive head s
  | .provenanceRecordWrite head => Sys2Proof.Machine.execProvenanceRecordWrite head s
  | .lintelFrameReceive side ready flips arrival => Sys2Proof.Machine.execLintelFrameReceive side ready flips s arrival
  | .linkDown side => Sys2Proof.Machine.execLinkDown side s
  | .retrain ini full => Sys2Proof.Machine.execRetrain ini full s
  | .linkTrainingDone ok => Sys2Proof.Machine.execLinkTrainingDone ok s
  | .bridgeReturn ini bridge => Sys2Proof.Machine.execBridgeReturn ini bridge s
  | .ddrTrainFull ini ch => Sys2Proof.Machine.execDdrTrainFull ini ch s
  | .ddrTrainRestore ini ch => Sys2Proof.Machine.execDdrTrainRestore ini ch s
  | .ddrTrainingDone ch failStep ms record => Sys2Proof.Machine.execDdrTrainingDone ch failStep ms record s
  | .trainDataAccess ini ch value => Sys2Proof.Machine.execTrainDataAccess ini ch value s
  | .ddrRead ch addr len => Sys2Proof.Machine.execDdrRead ch addr len s
  | .ddrWrite ch addr enables data => Sys2Proof.Machine.execDdrWrite ch addr enables data s
  | .ddrScrubBlock ch => Sys2Proof.Machine.execDdrScrubBlock ch s
  | .ddrPhyLockLost ch => Sys2Proof.Machine.execDdrPhyLockLost ch s
  | .ddrSrefExitDone ch => Sys2Proof.Machine.execDdrSrefExitDone ch s
  | .ddrSrefExitTimeout ch => Sys2Proof.Machine.execDdrSrefExitTimeout ch s
  | .admitImage c => Sys2Proof.Machine.execAdmitImage c s
  | .admissionComplete stamp us => Sys2Proof.Machine.execAdmissionComplete stamp us s
  | .powerCapWrite ini auth mw => Sys2Proof.Machine.execPowerCapWrite ini auth mw s
  | .taskStart p => Sys2Proof.Machine.execTaskStart p s
  | .taskEnd p => Sys2Proof.Machine.execTaskEnd p s
  | .taskCutOff p meets => Sys2Proof.Machine.execTaskCutOff p s meets
  | .peOpExecute p => Sys2Proof.Machine.execPeOpExecute p s
  | .paneInitDone p => Sys2Proof.Machine.execPaneInitDone p s
  | .paneScrub p => Sys2Proof.Machine.execPaneScrub p s
  | .steerRebuildDone p => Sys2Proof.Machine.execSteerRebuildDone p s
  | .paneBistStart ini p => Sys2Proof.Machine.execPaneBistStart ini p s
  | .paneBistDone p cols => Sys2Proof.Machine.execPaneBistDone p cols s
  | .hamperDrop slat quad flips => Sys2Proof.Machine.execHamperDrop slat quad s flips
  | .hamperLift slat quad => Sys2Proof.Machine.execHamperLift slat quad s
  | .rowCommandStart slat quad => Sys2Proof.Machine.execRowCommandStart slat quad s
  | .reductionResultDeliver p => Sys2Proof.Machine.execReductionResultDeliver p s
  | .hamperSnap ini p => Sys2Proof.Machine.execHamperSnap ini p s
  | .pePlaneWindowAccess ini p q => Sys2Proof.Machine.execPePlaneWindowAccess ini p q s
  | .macroEnqueue p => Sys2Proof.Machine.execMacroEnqueue p s
  | .macroDispatch p => Sys2Proof.Machine.execMacroDispatch p s
  | .microwordPe p => Sys2Proof.Machine.execMicrowordPe p s
  | .microwordPeR0 p => Sys2Proof.Machine.execMicrowordPeR0 p s
  | .microwordPeR1 p => Sys2Proof.Machine.execMicrowordPeR1 p s
  | .microwordTt p => Sys2Proof.Machine.execMicrowordTt p s
  | .microwordTtp p => Sys2Proof.Machine.execMicrowordTtp p s
  | .microwordAddr p => Sys2Proof.Machine.execMicrowordAddr p s
  | .microwordLoop p => Sys2Proof.Machine.execMicrowordLoop p s
  | .microwordSeq p => Sys2Proof.Machine.execMicrowordSeq p s
  | .microwordWait p => Sys2Proof.Machine.execMicrowordWait p s
  | .microwordReserved p => Sys2Proof.Machine.execMicrowordReserved p s
  | .macroCostReached p => Sys2Proof.Machine.execMacroCostReached p s
  | .setcLo p => Sys2Proof.Machine.execSetcLo p s
  | .setcHi p => Sys2Proof.Machine.execSetcHi p s
  | .larderPatch c => Sys2Proof.Machine.execLarderPatch c s
  | .larderPatchDone p => Sys2Proof.Machine.execLarderPatchDone p s
  | .addReg e y => Sys2Proof.Machine.execAddReg e y s
  | .subReg e y => Sys2Proof.Machine.execSubReg e y s
  | .adc e y => Sys2Proof.Machine.execAdc e y s
  | .sbc e y => Sys2Proof.Machine.execSbc e y s
  | .andReg e y => Sys2Proof.Machine.execAndReg e y s
  | .orReg e y => Sys2Proof.Machine.execOrReg e y s
  | .xor e y => Sys2Proof.Machine.execXor e y s
  | .andn e y => Sys2Proof.Machine.execAndn e y s
  | .shl e y => Sys2Proof.Machine.execShl e y s
  | .shr e y => Sys2Proof.Machine.execShr e y s
  | .sar e y => Sys2Proof.Machine.execSar e y s
  | .ror e y => Sys2Proof.Machine.execRor e y s
  | .cmp e y => Sys2Proof.Machine.execCmp e y s
  | .tst e y => Sys2Proof.Machine.execTst e y s
  | .minmax e y => Sys2Proof.Machine.execMinmax e y s
  | .bitcnt e y => Sys2Proof.Machine.execBitcnt e y s
  | .addi e y => Sys2Proof.Machine.execAddi e y s
  | .andi e y => Sys2Proof.Machine.execAndi e y s
  | .ori e y => Sys2Proof.Machine.execOri e y s
  | .xori e y => Sys2Proof.Machine.execXori e y s
  | .shi e y => Sys2Proof.Machine.execShi e y s
  | .cmpi e y => Sys2Proof.Machine.execCmpi e y s
  | .movi e y => Sys2Proof.Machine.execMovi e y s
  | .movh e y => Sys2Proof.Machine.execMovh e y s
  | .dadd e y => Sys2Proof.Machine.execDadd e y s
  | .dsub e y => Sys2Proof.Machine.execDsub e y s
  | .extField e y => Sys2Proof.Machine.execExtField e y s
  | .insField e y => Sys2Proof.Machine.execInsField e y s
  | .repMark e y => Sys2Proof.Machine.execRepMark e y s
  | .mul e y => Sys2Proof.Machine.execMul e y s
  | .div e y => Sys2Proof.Machine.execDiv e y s
  | .fadd e y => Sys2Proof.Machine.execFadd e y s
  | .fsub e y => Sys2Proof.Machine.execFsub e y s
  | .fmul e y => Sys2Proof.Machine.execFmul e y s
  | .fma e y => Sys2Proof.Machine.execFma e y s
  | .fdiv e y => Sys2Proof.Machine.execFdiv e y s
  | .fsqrt e y => Sys2Proof.Machine.execFsqrt e y s
  | .fcvt e y => Sys2Proof.Machine.execFcvt e y s
  | .fcmp e y => Sys2Proof.Machine.execFcmp e y s
  | .fminmax e y => Sys2Proof.Machine.execFminmax e y s
  | .fclass e y => Sys2Proof.Machine.execFclass e y s
  | .fsgn e y => Sys2Proof.Machine.execFsgn e y s
  | .ldB e y => Sys2Proof.Machine.execLdB e y s
  | .ldBu e y => Sys2Proof.Machine.execLdBu e y s
  | .ldH e y => Sys2Proof.Machine.execLdH e y s
  | .ldHu e y => Sys2Proof.Machine.execLdHu e y s
  | .ldW e y => Sys2Proof.Machine.execLdW e y s
  | .ldD e y => Sys2Proof.Machine.execLdD e y s
  | .ldWr e y => Sys2Proof.Machine.execLdWr e y s
  | .stB e y => Sys2Proof.Machine.execStB e y s
  | .stH e y => Sys2Proof.Machine.execStH e y s
  | .stW e y => Sys2Proof.Machine.execStW e y s
  | .stD e y => Sys2Proof.Machine.execStD e y s
  | .stWr e y => Sys2Proof.Machine.execStWr e y s
  | .ldf e y => Sys2Proof.Machine.execLdf e y s
  | .stf e y => Sys2Proof.Machine.execStf e y s
  | .ecopy e y => Sys2Proof.Machine.execEcopy e y s
  | .efill e y => Sys2Proof.Machine.execEfill e y s
  | .ecomp e y => Sys2Proof.Machine.execEcomp e y s
  | .eseek e y => Sys2Proof.Machine.execEseek e y s
  | .stringIteration e stamp => Sys2Proof.Machine.execStringIteration e stamp s
  | .farAccessResponse e stamp => Sys2Proof.Machine.execFarAccessResponse e stamp s
  | .branch e y => Sys2Proof.Machine.execBranch e y s
  | .call e y => Sys2Proof.Machine.execCall e y s
  | .jr e y => Sys2Proof.Machine.execJr e y s
  | .callr e y => Sys2Proof.Machine.execCallr e y s
  | .ret e y => Sys2Proof.Machine.execRet e y s
  | .resume e y => Sys2Proof.Machine.execResume e y s
  | .trap e y => Sys2Proof.Machine.execTrap e y s
  | .brk e y => Sys2Proof.Machine.execBrk e y s
  | .mfsr e y => Sys2Proof.Machine.execMfsr e y s
  | .mtsr e y => Sys2Proof.Machine.execMtsr e y s
  | .wspill e y => Sys2Proof.Machine.execWspill e y s
  | .wfill e y => Sys2Proof.Machine.execWfill e y s
  | .wfi e y => Sys2Proof.Machine.execWfi e y s
  | .sync e y => Sys2Proof.Machine.execSync e y s
  | .fbar e y => Sys2Proof.Machine.execFbar e y s
  | .aissue e y => Sys2Proof.Machine.execAissue e y s
  | .atend e y => Sys2Proof.Machine.execAtend e y s
  | .await e y => Sys2Proof.Machine.execAwait e y s
  | .atally e y => Sys2Proof.Machine.execAtally e y s
  | .rowcmd e y => Sys2Proof.Machine.execRowcmd e y s
  | .rowwait e y => Sys2Proof.Machine.execRowwait e y s
  | .dmaQueue e y => Sys2Proof.Machine.execDmaQueue e y s
  | .dmawait e y => Sys2Proof.Machine.execDmawait e y s
  | .dmastat e y => Sys2Proof.Machine.execDmastat e y s
  | .loadWriteback e => Sys2Proof.Machine.execLoadWriteback e s
  | .resultLand e => Sys2Proof.Machine.execResultLand e s
  | .trapEntry e => Sys2Proof.Machine.execTrapEntry e s
  | .engineEnable ini e => Sys2Proof.Machine.execEngineEnable ini e s
  | .engineDisable ini e => Sys2Proof.Machine.execEngineDisable ini e s
  | .engineMemInitDone e => Sys2Proof.Machine.execEngineMemInitDone e s
  | .engineMemScrub e => Sys2Proof.Machine.execEngineMemScrub e s
  | .lockstepMismatch e => Sys2Proof.Machine.execLockstepMismatch e s
  | .spareLoadComplete k => Sys2Proof.Machine.execSpareLoadComplete k s
  | .spareRelease k stamp => Sys2Proof.Machine.execSpareRelease k stamp s
  | .wdgKick ini e value => Sys2Proof.Machine.execWdgKick ini e value s
  | .wdgWarn e => Sys2Proof.Machine.execWdgWarn e s
  | .wdgExpire e => Sys2Proof.Machine.execWdgExpire e s
  | .engineTaskRead ini e => Sys2Proof.Machine.execEngineTaskRead ini e s
  | .dmaDescriptorStart e stamp => Sys2Proof.Machine.execDmaDescriptorStart e stamp s
  | .dmaTransferComplete e stamp => Sys2Proof.Machine.execDmaTransferComplete e stamp s
  | .pantryRequestArrive bank ini q => Sys2Proof.Machine.execPantryRequestArrive bank ini q s
  | .pantryAccess bank => Sys2Proof.Machine.execPantryAccess bank s
  | .pantryCorrectedWriteback bank => Sys2Proof.Machine.execPantryCorrectedWriteback bank s
  | .pantryScrub bank => Sys2Proof.Machine.execPantryScrub bank s
  | .handoverStart ini bank code => Sys2Proof.Machine.execHandoverStart ini bank code s
  | .handoverComplete bank => Sys2Proof.Machine.execHandoverComplete bank s
  | .marchStart ini preserve checker => Sys2Proof.Machine.execMarchStart ini preserve checker s
  | .marchStartupRun => Sys2Proof.Machine.execMarchStartupRun s
  | .marchRunEnd fails => Sys2Proof.Machine.execMarchRunEnd fails s
  | .requestIssue ini q stamp => Sys2Proof.Machine.execRequestIssue ini q stamp s
  | .requestInject t stamp ue => Sys2Proof.Machine.execRequestInject t stamp s ue
  | .flitArrive stile port vc flips stamp => Sys2Proof.Machine.execFlitArrive stile port vc flips s stamp
  | .requestArrive t stamp => Sys2Proof.Machine.execRequestArrive t stamp s
  | .responseDeliver t stamp ue => Sys2Proof.Machine.execResponseDeliver t stamp s ue
  | .responseTimeout t tag => Sys2Proof.Machine.execResponseTimeout t tag s
  | .tagQuarantineEnd t tag => Sys2Proof.Machine.execTagQuarantineEnd t tag s
  | .stileService ini stile => Sys2Proof.Machine.execStileService ini stile s
  | .stileDetour ini stile => Sys2Proof.Machine.execStileDetour ini stile s
  | .stileDown ini stile => Sys2Proof.Machine.execStileDown ini stile s
  | .stileDrained stile => Sys2Proof.Machine.execStileDrained stile s
  | .closeStart ini t => Sys2Proof.Machine.execCloseStart ini t s
  | .openSend ini t => Sys2Proof.Machine.execOpenSend ini t s
  | .closeReceive t => Sys2Proof.Machine.execCloseReceive t s
  | .closeAckReceive t => Sys2Proof.Machine.execCloseAckReceive t s
  | .openReceive t => Sys2Proof.Machine.execOpenReceive t s
  | .drainComplete t => Sys2Proof.Machine.execDrainComplete t s
  | .drainTimeout t => Sys2Proof.Machine.execDrainTimeout t s
  | .routeEntryWrite ini t value => Sys2Proof.Machine.execRouteEntryWrite ini t value s
  | .trailheadSnap ini t => Sys2Proof.Machine.execTrailheadSnap ini t s
  | .traceDataRead ini => Sys2Proof.Machine.execTraceDataRead ini s
  | .headFrameStart head => Sys2Proof.Machine.execHeadFrameStart head s
  | .scanoutFetch head => Sys2Proof.Machine.execScanoutFetch head s
  | .lineBufferUnderrun head => Sys2Proof.Machine.execLineBufferUnderrun head s
  | .lutCopyDone head => Sys2Proof.Machine.execLutCopyDone head s
  | .lutDataAccess ini head value => Sys2Proof.Machine.execLutDataAccess ini head value s
  | .headLinkTrain ini head => Sys2Proof.Machine.execHeadLinkTrain ini head s
  | .headLinkTrainDone head lanes ms ok => Sys2Proof.Machine.execHeadLinkTrainDone head lanes ms ok s
  | .headLinkLost head lanes => Sys2Proof.Machine.execHeadLinkLost head lanes s
  | .sideTransactionStart ini head value => Sys2Proof.Machine.execSideTransactionStart ini head value s
  | .sideTransactionDone head status data => Sys2Proof.Machine.execSideTransactionDone head status data s
  | .glazingLoadStart slot => Sys2Proof.Machine.execGlazingLoadStart slot s
  | .glazingLoadDone => Sys2Proof.Machine.execGlazingLoadDone s
  | .telltaleCrcCheck head tt flips other => Sys2Proof.Machine.execTelltaleCrcCheck head tt flips other s
  | .ttClear all head tt => Sys2Proof.Machine.execTtClear all head tt s
  | .frameMissing head => Sys2Proof.Machine.execFrameMissing head s
  | .glazingSramScrub => Sys2Proof.Machine.execGlazingSramScrub s
  | .csiFrameStart cam vc fnum corrected => Sys2Proof.Machine.execCsiFrameStart cam vc fnum corrected s
  | .csiLine cam vc dt pixels hdr crcOk storeFull => Sys2Proof.Machine.execCsiLine cam vc dt pixels hdr crcOk storeFull s
  | .csiFrameEnd cam vc corrected => Sys2Proof.Machine.execCsiFrameEnd cam vc corrected s
  | .csiOtherPacket cam corrected => Sys2Proof.Machine.execCsiOtherPacket cam corrected s
  | .cameraWriterFrameStart cam => Sys2Proof.Machine.execCameraWriterFrameStart cam s
  | .cameraFrameComplete cam stamp => Sys2Proof.Machine.execCameraFrameComplete cam stamp s
  | .fsyncPulseStart cam => Sys2Proof.Machine.execFsyncPulseStart cam s
  | .fsyncPulseEnd cam => Sys2Proof.Machine.execFsyncPulseEnd cam s
  | .bar0Access off value enables stamp => Sys2Proof.Machine.execBar0Access off value enables stamp s
  | .bar2Write off data => Sys2Proof.Machine.execBar2Write off data s
  | .doorbell ini value => Sys2Proof.Machine.execDoorbell ini value s
  | .doorbellAccept stamp => Sys2Proof.Machine.execDoorbellAccept stamp s
  | .msixMessage v => Sys2Proof.Machine.execMsixMessage v s
  | .trsmLinkChange up speed width => Sys2Proof.Machine.execTrsmLinkChange up speed width s
  | .t1sFrameReceive j node stamp fcsOk symbolsOk jabber frame => Sys2Proof.Machine.execT1sFrameReceive j node stamp fcsOk symbolsOk jabber frame s
  | .canFrameReceive k fmt id sdt stamp fd remote data => Sys2Proof.Machine.execCanFrameReceive k fmt id sdt stamp fd remote data s
  | .canError k sending dominant => Sys2Proof.Machine.execCanError k sending dominant s
  | .frameClassify ue => Sys2Proof.Machine.execFrameClassify ue s
  | .canTransmitDone k stamp => Sys2Proof.Machine.execCanTransmitDone k stamp s
  | .canArbitrationLost k => Sys2Proof.Machine.execCanArbitrationLost k s
  | .canBusOff k => Sys2Proof.Machine.execCanBusOff k s
  | .canBusOffRecovery k => Sys2Proof.Machine.execCanBusOffRecovery k s
  | .canRecover ini mask => Sys2Proof.Machine.execCanRecover ini mask s
  | .t1sTransmit j stamp => Sys2Proof.Machine.execT1sTransmit j stamp s
  | .t1sCollision j => Sys2Proof.Machine.execT1sCollision j s
  | .plcaBeaconLost j => Sys2Proof.Machine.execPlcaBeaconLost j s
  | .camEntryWrite ini value stamp => Sys2Proof.Machine.execCamEntryWrite ini value stamp s
  | .protectionProfileWrite ini value stamp => Sys2Proof.Machine.execProtectionProfileWrite ini value stamp s
  | .entryConfigWrite ini value stamp => Sys2Proof.Machine.execEntryConfigWrite ini value stamp s
  | .descriptorWrite ini value stamp => Sys2Proof.Machine.execDescriptorWrite ini value stamp s
  | .signalInject ini value stamp => Sys2Proof.Machine.execSignalInject ini value stamp s
  | .signalTableRead q tickSeq => Sys2Proof.Machine.execSignalTableRead q tickSeq s
  | .signalTableScrub => Sys2Proof.Machine.execSignalTableScrub s
  | .rxqPop ini => Sys2Proof.Machine.execRxqPop ini s
  | .txPost ini => Sys2Proof.Machine.execTxPost ini s
  | .statusFrameSend => Sys2Proof.Machine.execStatusFrameSend s
  | .gateCounterSnap ini => Sys2Proof.Machine.execGateCounterSnap ini s
  | .wake c => Sys2Proof.Machine.execWake c s
  | .sleep c => Sys2Proof.Machine.execSleep c s
  | .setDomain c => Sys2Proof.Machine.execSetDomain c s
  | .debugLevel c => Sys2Proof.Machine.execDebugLevel c s
  | .hingeLoad c => Sys2Proof.Machine.execHingeLoad c s
  | .flashWrite c => Sys2Proof.Machine.execFlashWrite c s
  | .flashWriteDone programmed => Sys2Proof.Machine.execFlashWriteDone programmed s
  | .keyRoll c => Sys2Proof.Machine.execKeyRoll c s
  | .keyProgramDone => Sys2Proof.Machine.execKeyProgramDone s
  | .takeoverOverride c => Sys2Proof.Machine.execTakeoverOverride c s
  | .counterResync c => Sys2Proof.Machine.execCounterResync c s
  | .safeWrite c => Sys2Proof.Machine.execSafeWrite c s
  | .journalSectorErase => Sys2Proof.Machine.execJournalSectorErase s
  | .latchRestore => Sys2Proof.Machine.execLatchRestore s
  | .hatchRead frame => Sys2Proof.Machine.execHatchRead frame s
  | .hatchWrite frame stamp => Sys2Proof.Machine.execHatchWrite frame stamp s
  | .hatchCommand frame stamp aesFault journalFail => Sys2Proof.Machine.execHatchCommand frame stamp aesFault journalFail s
  | .debugGo ini req stamp => Sys2Proof.Machine.execDebugGo ini req stamp s
  | .fabricPark ini auth => Sys2Proof.Machine.execFabricPark ini auth s
  | .fabricRelease => Sys2Proof.Machine.execFabricRelease s
  | .fabricLoadFail => Sys2Proof.Machine.execFabricLoadFail s
  | .configScrubFrame => Sys2Proof.Machine.execConfigScrubFrame s
  | .flipFlopCapture ini => Sys2Proof.Machine.execFlipFlopCapture ini s
  | .captureDone => Sys2Proof.Machine.execCaptureDone s
  | .captureDataRead ini => Sys2Proof.Machine.execCaptureDataRead ini s
  | .flashWindowRead q => Sys2Proof.Machine.execFlashWindowRead q s
  | .hspTxdWrite ini k value => Sys2Proof.Machine.execHspTxdWrite ini k value s
  | .hspRxdRead ini k consume => Sys2Proof.Machine.execHspRxdRead ini k consume s
  | .hspByteReceive k data measured lead framing parity => Sys2Proof.Machine.execHspByteReceive k data measured lead framing parity s
  | .domainTransitionDone n stamp => Sys2Proof.Machine.execDomainTransitionDone n stamp s
  | .railRampFail n stamp => Sys2Proof.Machine.execRailRampFail n stamp s
  | .supplyOutOfLimits k => Sys2Proof.Machine.execSupplyOutOfLimits k s
  | .wakeLinkTimeout stamp => Sys2Proof.Machine.execWakeLinkTimeout stamp s
  | .clockMonitorWindow measured disagree refGood => Sys2Proof.Machine.execClockMonitorWindow measured disagree refGood s
  | .resetN stamp => Sys2Proof.Machine.execResetN stamp s
  | .pdAoPowerOn badKeys => Sys2Proof.Machine.execPdAoPowerOn s badKeys
  | .bootFlow step stamp => Sys2Proof.Machine.execBootFlow step stamp s
  | .hwdgKick ini value => Sys2Proof.Machine.execHwdgKick ini value s
  | .hwdgWarn => Sys2Proof.Machine.execHwdgWarn s
  | .hwdgExpire => Sys2Proof.Machine.execHwdgExpire s
  | .faultRecordArrive k => Sys2Proof.Machine.execFaultRecordArrive k s
  | .lostSet code stamp => Sys2Proof.Machine.execLostSet code stamp s
  | .lostClear code stamp => Sys2Proof.Machine.execLostClear code stamp s
  | .thermalOverLimit => Sys2Proof.Machine.execThermalOverLimit s
  | .tapReset => Sys2Proof.Machine.execTapReset s
  | .extest cells => Sys2Proof.Machine.execExtest cells s
  | .samplePreload cells => Sys2Proof.Machine.execSamplePreload cells s
  | .idcode => Sys2Proof.Machine.execIdcode s
  | .highz => Sys2Proof.Machine.execHighz s
  | .clamp => Sys2Proof.Machine.execClamp s
  | .bypass => Sys2Proof.Machine.execBypass s
  | .accessDr dr stamp => Sys2Proof.Machine.execAccessDr dr stamp s
  | .halt ini => Sys2Proof.Machine.execHalt ini s
  | .engineHalt e => Sys2Proof.Machine.execEngineHalt e s
  | .release ini stamp => Sys2Proof.Machine.execRelease ini stamp s
  | .stepBundle ini maskIrq stamp => Sys2Proof.Machine.execStepBundle ini maskIrq stamp s
  | .brkOn ini => Sys2Proof.Machine.execBrkOn ini s
  | .brkOff ini => Sys2Proof.Machine.execBrkOff ini s
  | .debugRegAccess ini write value => Sys2Proof.Machine.execDebugRegAccess ini write value s
  | .vtOutWrite e data => Sys2Proof.Machine.execVtOutWrite e data s
  | .vtOutRead => Sys2Proof.Machine.execVtOutRead s
  | .vtInWrite data => Sys2Proof.Machine.execVtInWrite data s
  | .vtInRead e => Sys2Proof.Machine.execVtInRead e s
  | .resetNRelease => Sys2Proof.Machine.execResetNRelease s
  | .supplyWithinLimits k => Sys2Proof.Machine.execSupplyWithinLimits k s
  | .thermalRearm => Sys2Proof.Machine.execThermalRearm s
  | .tickOutPulseEnd => Sys2Proof.Machine.execTickOutPulseEnd s
  | .hpdIrq head => Sys2Proof.Machine.execHpdIrq head s
  | .canBusIntegration k => Sys2Proof.Machine.execCanBusIntegration k s
  | .plcaBeaconRegained j => Sys2Proof.Machine.execPlcaBeaconRegained j s
  | .hatchTransactionEnd inResponse => Sys2Proof.Machine.execHatchTransactionEnd inResponse s
  | .hspByteSent k nack arbLost => Sys2Proof.Machine.execHspByteSent k nack arbLost s
  | .paneTickMissing p => Sys2Proof.Machine.execPaneTickMissing p s

end Sys2Proof.Machine
end

