-- ==== Sys2Proof/Safety.lean ====
section
/-!
DEFINITION. What counts as a good state of the device and a good run of it, in the terms that the statements use.
-/

namespace Sys2Proof

/-- A syllable that is a bundle by itself and has no condition. -/
def Syl.alone (y : Syl) : Bool := y.ok && y.stop && y.cond == 0 && !y.gx

/-- RD, RA, RB, FN, IMM9, IMM14, SEL and DISP19 of a syllable (R182). -/
def Syl.rd (y : Syl) : Nat := bitsAt y.ops 14 5
def Syl.ra (y : Syl) : Nat := bitsAt y.ops 9 5
def Syl.rb (y : Syl) : Nat := bitsAt y.ops 4 5
def Syl.fn (y : Syl) : Nat := bitsAt y.ops 0 4
def Syl.imm9 (y : Syl) : Nat := bitsAt y.ops 0 9
def Syl.imm14 (y : Syl) : Nat := bitsAt y.ops 0 14

/-- The engine, the opcode and the syllable of a Casement instruction (Tables 08-10 to 08-13); none for every other command. -/
def Instr.syllable : Instr → Option (EngineId × Nat × Syl)
  | .addReg e y => some (e, 0x00, y)
  | .subReg e y => some (e, 0x01, y)
  | .adc e y => some (e, 0x02, y)
  | .sbc e y => some (e, 0x03, y)
  | .andReg e y => some (e, 0x04, y)
  | .orReg e y => some (e, 0x05, y)
  | .xor e y => some (e, 0x06, y)
  | .andn e y => some (e, 0x07, y)
  | .shl e y => some (e, 0x08, y)
  | .shr e y => some (e, 0x09, y)
  | .sar e y => some (e, 0x0A, y)
  | .ror e y => some (e, 0x0B, y)
  | .cmp e y => some (e, 0x0C, y)
  | .tst e y => some (e, 0x0D, y)
  | .minmax e y => some (e, 0x0E, y)
  | .bitcnt e y => some (e, 0x0F, y)
  | .addi e y => some (e, 0x10, y)
  | .andi e y => some (e, 0x11, y)
  | .ori e y => some (e, 0x12, y)
  | .xori e y => some (e, 0x13, y)
  | .shi e y => some (e, 0x14, y)
  | .cmpi e y => some (e, 0x15, y)
  | .movi e y => some (e, 0x16, y)
  | .movh e y => some (e, 0x17, y)
  | .dadd e y => some (e, 0x18, y)
  | .dsub e y => some (e, 0x19, y)
  | .extField e y => some (e, 0x1A, y)
  | .insField e y => some (e, 0x1B, y)
  | .repMark e y => some (e, 0x1F, y)
  | .mul e y => some (e, 0x20, y)
  | .div e y => some (e, 0x21, y)
  | .fadd e y => some (e, 0x24, y)
  | .fsub e y => some (e, 0x25, y)
  | .fmul e y => some (e, 0x26, y)
  | .fma e y => some (e, 0x27, y)
  | .fdiv e y => some (e, 0x28, y)
  | .fsqrt e y => some (e, 0x29, y)
  | .fcvt e y => some (e, 0x2A, y)
  | .fcmp e y => some (e, 0x2B, y)
  | .fminmax e y => some (e, 0x2C, y)
  | .fclass e y => some (e, 0x2D, y)
  | .fsgn e y => some (e, 0x2E, y)
  | .ldB e y => some (e, 0x40, y)
  | .ldBu e y => some (e, 0x41, y)
  | .ldH e y => some (e, 0x42, y)
  | .ldHu e y => some (e, 0x43, y)
  | .ldW e y => some (e, 0x44, y)
  | .ldD e y => some (e, 0x45, y)
  | .ldWr e y => some (e, 0x46, y)
  | .stB e y => some (e, 0x48, y)
  | .stH e y => some (e, 0x49, y)
  | .stW e y => some (e, 0x4A, y)
  | .stD e y => some (e, 0x4B, y)
  | .stWr e y => some (e, 0x4C, y)
  | .ldf e y => some (e, 0x50, y)
  | .stf e y => some (e, 0x51, y)
  | .ecopy e y => some (e, 0x58, y)
  | .efill e y => some (e, 0x59, y)
  | .ecomp e y => some (e, 0x5A, y)
  | .eseek e y => some (e, 0x5B, y)
  | .branch e y => some (e, 0x60, y)
  | .call e y => some (e, 0x61, y)
  | .jr e y => some (e, 0x62, y)
  | .callr e y => some (e, 0x63, y)
  | .ret e y => some (e, 0x64, y)
  | .resume e y => some (e, 0x65, y)
  | .trap e y => some (e, 0x66, y)
  | .brk e y => some (e, 0x67, y)
  | .mfsr e y => some (e, 0x68, y)
  | .mtsr e y => some (e, 0x69, y)
  | .wspill e y => some (e, 0x6A, y)
  | .wfill e y => some (e, 0x6B, y)
  | .wfi e y => some (e, 0x6C, y)
  | .sync e y => some (e, 0x6D, y)
  | .fbar e y => some (e, 0x6E, y)
  | .aissue e y => some (e, 0x70, y)
  | .atend e y => some (e, 0x71, y)
  | .await e y => some (e, 0x72, y)
  | .atally e y => some (e, 0x73, y)
  | .rowcmd e y => some (e, 0x70, y)
  | .rowwait e y => some (e, 0x71, y)
  | .dmaQueue e y => some (e, 0x72, y)
  | .dmawait e y => some (e, 0x73, y)
  | .dmastat e y => some (e, 0x74, y)
  | _ => none

end Sys2Proof

namespace Sys2Proof.Machine

/-- The canonical form of a memory whose unlisted bytes read as d: addresses strictly rising, no entry equal to d. -/
def Memory.wf (d : Byte) (m : Memory) : Bool := tblWf d m

/-- The output pins show what the registers and the units say (R41, R447, R493, R494, R363, R384): FAULT_N, TT_FAULT_N and
HOST_IRQ_N stand at their levels, and with PD_TRANSOM on the sampled levels of the vectors' sources are the present ones. -/
def State.PinsAgree (s : State) : Prop :=
  s.pins.fault = s.faultLevel ∧ s.pins.ttFault = s.ttFault ∧ s.pins.hostIrq = s.hostIrqLevel ∧
    (s.domainOn 7 = true → s.pins.vecLevel = s.vectorLevels)

/-- The next state is t, with its pins at the levels that t drives. -/
def Yields (i : Instr) (s t : State) : Prop := exec i s = .next { t with pins := t.settledPins }

/-- The register file lists the same for every register but those named. -/
def RegsBut (ks : List Nat) (s t : State) : Prop := ∀ k, k ∉ ks → tblFind t.regs k = tblFind s.regs k

/-- The key of a field's register in the register file. -/
def Field.key (f : Field) (n : Nat) : Nat := regKey f.ty n f.off

/-- From s to t nothing of the device changes but the registers named, the answer of the command and the pins. -/
def OnlyRegs (ks : List Nat) (s t : State) : Prop :=
  t = { s with regs := t.regs, answer := t.answer, pins := t.pins } ∧ RegsBut ks s t

/-- The events of a page, one bit each, are raised and its other events stay as they were (R40). -/
def Raises (ty n mask : Nat) (s t : State) : Prop := t.getReg ty n 0x10 = s.getReg ty n 0x10 ||| word mask

/-- The key of a page's EVT. -/
def evtKey (ty n : Nat) : Nat := regKey ty n 0x10

/-- A fault record joins those on their way to the aggregator, and nothing else (R490). -/
def Reports (ty n k cls : Nat) (s t : State) : Prop := t.reports = s.reports ++ [⟨ty, n, k, cls⟩]

/-- A page that takes accesses: its domain is up, and its trailhead is not fenced, unless the page is that trailhead's own
(R35, R328). -/
def State.pageOpen (s : State) (ty n : Nat) : Bool :=
  decide (n < pageCount ty) && s.domainUp (pageDomain ty n) &&
    ((ty == 0x09 && n == pageTrlh ty n) || !s.flag (R.HDR_CTL_FENCE.on 0x09) (pageTrlh ty n))

/-- The address of a page's register (Table 02-1). -/
def pageAddr (ty n off : Nat) : Nat := 0x3000000000 + ty * 2 ^ 20 + n * 2 ^ 12 + off

/-- A trailhead sends a request on to its target rather than answering it (R321). -/
def State.pathOpen (s : State) (t : Nat) (tg : Target) : Bool :=
  match requestPath s t tg with
  | .send _ _ _ => true
  | .answer _ => false

/-- From s to u a trailhead has had one request that was served where it stands (R321): counted as issued and as responded, in its statistics and
in its reserved bandwidth; no other trailhead changes. -/
def ServedFrom (k : Nat) (s u : State) : Prop :=
  u.th k = { s.th k with issued := ((s.th k).issued + 1) % 2 ^ 32, responded := ((s.th k).responded + 1) % 2 ^ 32, statNow := (u.th k).statNow
                         bucket := (u.th k).bucket, bucketStamp := (u.th k).bucketStamp } ∧
  ∀ (j : Nat), j ≠ k → u.th j = s.th j

/-- A memory or window that takes requests: its domain is up, and neither it nor its trailhead is fenced (R35, R328). -/
def State.targetOpen (s : State) (tg : Target) : Bool := !s.fenced tg && s.domainUp (pageDomain (targetPage tg).1 (targetPage tg).2)

/-- The command is a write that its page answers with a response code. -/
def State.answered (t : State) (code : Nat) : Prop := t.answer = [⟨code, []⟩]

/-- A page latches an error as the first one, and counts it (R45). -/
def Latches (ty n off code : Nat) (t : State) : Prop :=
  t.get (R.HDR_ERR_CODE_CODE.on ty) n = code ∧ t.get (R.HDR_ERR_CODE_OFFSET.on ty) n = off

/-- The keys of a page's error registers. -/
def errKeys (ty n : Nat) : List Nat := [(R.HDR_ERR_CODE_CODE.on ty).key n, (R.HDR_ERR_COUNT.on ty).key n]

/-! ### Critical commands -/

/-- The stored counter that a command's counter field stands for (R430): the next value with those low 32 bits. -/
def State.nextCtr (s : State) (c : CmdFields) : Nat :=
  let u := s.storedCtr (ctrSlot c.slot)
  u + (c.ctr + 2 ^ 32 - u % 2 ^ 32) % 2 ^ 32

/-- A critical command that Latch takes at once and that passes its checks (R429, R431): Latch takes commands, the format, the slot, the
device, the CMAC, a counter at most 65,536 ahead, and a journal that can be written where it must. -/
def State.authentic (s : State) (code : Nat) (c : CmdFields) : Bool :=
  let u := s.storedCtr (ctrSlot c.slot)
  !s.shutter.resetLow && s.latch.ready && s.latch.rolling.isNone && !s.latchBusy c.gate && !s.vendor && argsOk code c.args &&
  (if c.slot = 0xFE then s.get R.LTCH_LIFECYCLE_STATE 0 == 3 && code == 0x09 else s.slotAllows c.slot code) &&
  decide (c.device = Config.deviceId.toNat) && !c.aesFault &&
  decide (c.tag = (cmacBytes (s.cmdKey c.slot) (cmdBytes (critCmd code c))).take 8) &&
  (code == 0x0B || (decide (u < s.nextCtr c ∧ s.nextCtr c ≤ u + 65536) &&
    (u / 1024 == s.nextCtr c / 1024 || (!c.journalFail && s.domainOn 1))))

/-- The response to a critical command but for its CMAC (Table 17-6): the code with its top bit set, SLOT, STATUS, CTR, RESULT. -/
def Responds (t : State) (code : Nat) (c : CmdFields) (status result : Nat) : Prop :=
  t.answer.map (fun a => (a.code, a.data.take 12)) =
    [(rspOk, leBytes 1 (code + 0x80) ++ leBytes 1 c.slot ++ leBytes 1 status ++ [0] ++ leBytes 4 c.ctr ++ leBytes 4 result)]

/-- Latch has accepted a critical command and its acting block has carried it out (R429, R432): STATUS OK, the command shown as the
last one, counted, and DONE raised. -/
def Accepts (code : Nat) (c : CmdFields) (s t : State) : Prop :=
  Responds t code c 0 0 ∧ t.getReg 0x14 0 0x05C = word (code * 2 ^ 24 + c.slot % 256 * 2 ^ 16 + bit c.gate) ∧
  t.get R.LTCH_CMD_COUNT_DONE 0 = min (s.get R.LTCH_CMD_COUNT_DONE 0 + 1) (2 ^ R.LTCH_CMD_COUNT_DONE.w - 1) ∧
  bitOf (t.getReg 0x14 0 0x010).toNat 0 = true

/-- An acting block has refused an authentic command with an error code (R432). -/
def Refuses (code : Nat) (c : CmdFields) (result : Nat) (t : State) : Prop := Responds t code c 6 result

/-! ### Engines -/

/-- An engine. -/
def State.core (s : State) (e : EngineId) : Engine := s.eng (engKey e.ty e.num)

/-- The physical register behind v(x) of an engine (R186). -/
def State.vphys (s : State) (e : EngineId) (v : Nat) : Nat := physReg e.ty (wstPos e.ty (s.sysReg e.ty e.num 2)) v

/-- v(x) of an engine (R186). -/
def State.vreg (s : State) (e : EngineId) (v : Nat) : Nat := if v = 0 then 0 else tblGet 0 (s.core e).phys (s.vphys e v)

/-- A pair, v(x) low. -/
def State.vpair (s : State) (e : EngineId) (v : Nat) : Nat := s.vreg e v + 2 ^ widthOf e.ty * s.vreg e (v + 1)

/-- FLG.C of an engine. -/
def State.carry (s : State) (e : EngineId) : Bool := bitOf (s.sysReg e.ty e.num 0) 2

/-- The instruction row at the PC reads clean, or the PC is in the boot ROM. -/
def State.rowClean (s : State) (e : EngineId) : Bool :=
  let a := (s.core e).pc % 2 ^ widthOf e.ty
  !decide (a + 4 ≤ imemBytes e.ty) || (s.mem (engKey e.ty e.num)).decode false (a / 8) == .clean

/-- An engine at a bundle boundary that will take the next syllable: RUNNING, with no bundle, result, load, wait or far access open, no stop,
halt, step or event waiting, its PC in a row that can be fetched. -/
def State.ready (s : State) (e : EngineId) : Bool :=
  engineOk e && canIssue s e.ty e.num && (s.core e).bundle == [] && (s.core e).loads == [] && (s.core e).due == [] &&
  (s.core e).late == [] && !(s.core e).held && !(s.core e).stopReq && (s.core e).haltReq == 0 && (s.core e).stepReq == 0 &&
  (boundaryEvent s e.ty e.num false).isNone && fetchable e.ty e.num ((s.core e).pc % 2 ^ widthOf e.ty) && s.rowClean e

/-- A condition of Table 08-5 does not hold at an engine. -/
def State.condFails (s : State) (e : EngineId) (y : Syl) : Bool :=
  !condHolds y.cond y.gx (s.sysReg e.ty e.num 0) (if e.ty == 3 then (s.link (engKey e.ty e.num)).g else bitOf (s.sysReg e.ty e.num 0) 4)

/-- The key of xxx_PC in the register file. -/
def pcKey (e : EngineId) : Nat := regKey e.ty e.num 0x048

/-- From s to t nothing of the device changes but one engine's registers, xxx_PC and the pins. -/
def OnlyEngine (e : EngineId) (s t : State) : Prop :=
  t = { s with engines := t.engines, regs := t.regs, pins := t.pins } ∧ RegsBut [pcKey e] s t ∧
    ∀ k, k ≠ engKey e.ty e.num → t.eng k = s.eng k

/-- The command runs as a bundle of its own: from the engine as it was, with its PC past the bundle and its cycle count further, the
engine becomes f of that; nothing else of the device changes but xxx_PC and the pins. -/
def Runs (i : Instr) (e : EngineId) (s : State) (f : Engine → Engine) : Prop :=
  ∃ t, exec i s = .next t ∧ OnlyEngine e s t ∧
    t.core e = f { s.core e with pc := pcOf e.ty ((s.core e).pc + 4), cyc := (t.core e).cyc }

/-- System registers with flags of FLG set; the other bits of FLG and every other system register as before. -/
def flagsSet (ty : Nat) (t : Tbl Nat) (fs : FlagVals) : Tbl Nat :=
  if fs = [] then t else sysPut ty t 0 (fs.foldl (fun a f => setBits a f.1 1 (bit f.2)) (sysGet ty t 0))

/-- The command runs as a bundle of its own that writes a value to v(rd) and flags, and changes nothing else; v(0) holds nothing. -/
def Writes (i : Instr) (e : EngineId) (s : State) (rd v : Nat) (fs : FlagVals) : Prop :=
  Runs i e s (fun x => { x with phys := physPut x.phys (s.vphys e rd) v, sys := flagsSet e.ty x.sys fs })

/-- The command runs as a bundle of its own that writes flags, and changes nothing else. -/
def Flags (i : Instr) (e : EngineId) (s : State) (fs : FlagVals) : Prop :=
  Runs i e s (fun x => { x with sys := flagsSet e.ty x.sys fs })

/-- FLG as a handler finds it saved (R185): with G in C32. -/
def State.flgOf (s : State) (e : EngineId) : Nat := flgValue e.ty (s.core e).sys (s.link (engKey e.ty e.num)).g

/-- The system registers after the entry of a synchronous trap at a ready engine (R196): RSM_PC and RSM_NEXT, the flags saved, TCAUSE and
TVAL, interrupts off and the handler active, a new window frame, no load saved. -/
def trapSys (ty : Nat) (t : Tbl Nat) (cause tval info pc next flg : Nat) : Tbl Nat :=
  let t1 := sysPut ty t 0xA (setBits (sysGet ty t 0xA) (widthOf ty - 1) 1 0)
  let t2 := sysPut ty (sysPut ty (sysPut ty t1 5 pc) 6 next) 7 flg
  let t3 := sysPut ty (sysPut ty t2 8 (info * 2 ^ (if ty = 3 then 16 else 15) + cause)) 9 tval
  let t4 := sysPut ty t3 0 (setBits (setBits (sysGet ty t3 0) 8 1 0) 9 1 1)
  let wst := sysGet ty t 2
  sysPut ty t4 2 ((wst % windowPositions ty + 1) % windowPositions ty + 16 * (bitsAt wst 4 4 + 1))

/-- The command, a bundle of its own at an engine with no handler active, takes a synchronous trap in its first slot (R195, R196): the
engine is at the vector of the cause with the trap registers written, and nothing else of the device changes. -/
def Traps (i : Instr) (e : EngineId) (s : State) (cause tval info rsm next : Nat) : Prop :=
  ∃ t, exec i s = .next t ∧ OnlyEngine e s t ∧
    t.core e = { s.core e with
      sys := trapSys e.ty (s.core e).sys cause tval info rsm next (s.flgOf e)
      pc := pcOf e.ty (s.sysReg e.ty e.num 4 + 64 * cause), cyc := (t.core e).cyc }

/-- The address of the bundle after a bundle of one syllable. -/
def State.nextPc (s : State) (e : EngineId) : Nat := pcOf e.ty ((s.core e).pc + 4)

/-- The rows of data memory that n bytes from an address on touch read clean. -/
def State.dataClean (s : State) (e : EngineId) (a n : Nat) : Bool :=
  (rowsOf a n).all (fun r => (s.mem (engKey e.ty e.num)).decode true r == .clean)

/-- The number in n bytes of an engine's data memory. -/
def State.data (s : State) (e : EngineId) (a n : Nat) : Nat := leNum ((s.mem (engKey e.ty e.num)).bytes true a n)

/-- The command runs as a bundle of its own that leaves loads pending (R191): physical registers and the values they will hold. -/
def Loads (i : Instr) (e : EngineId) (s : State) (rs : List (Nat × Nat)) : Prop := Runs i e s (fun x => { x with loads := rs })

/-- From s to t nothing of the device changes but one engine's registers and memories, xxx_PC and the pins. -/
def OnlyEngineMem (e : EngineId) (s t : State) : Prop :=
  t = { s with engines := t.engines, engMem := t.engMem, regs := t.regs, pins := t.pins } ∧ RegsBut [pcKey e] s t ∧
    (∀ k, k ≠ engKey e.ty e.num → t.eng k = s.eng k) ∧ ∀ k, k ≠ engKey e.ty e.num → t.mem k = s.mem k

/-- The command runs as a bundle of its own that stores bytes at an address of data memory, and changes nothing else: every other byte of
data memory, and instruction memory, as before. -/
def Stores (i : Instr) (e : EngineId) (s : State) (a : Nat) (bytes : List Byte) (f : Engine → Engine) : Prop :=
  ∃ t, exec i s = .next t ∧ OnlyEngineMem e s t ∧
    t.core e = f { s.core e with pc := s.nextPc e, cyc := (t.core e).cyc } ∧
    (∀ b, (t.mem (engKey e.ty e.num)).byte true b =
      if a ≤ b ∧ b < a + bytes.length then bytes.getD (b - a) 0 else (s.mem (engKey e.ty e.num)).byte true b) ∧
    (∀ b, b < imemBytes e.ty → (t.mem (engKey e.ty e.num)).byte false b = (s.mem (engKey e.ty e.num)).byte false b)

/-- A syllable that is a bundle by itself leaves its engine waiting at its PC (R198): engine cycles pass, and whether the wait holds off the
events of the boundary is as given; nothing else of the device changes but the count of free values and the pins. -/
def Waits (i : Instr) (e : EngineId) (held : Bool) (s : State) : Prop :=
  ∃ t, exec i s = .next t ∧ t = { s with engines := t.engines, freeCount := s.freeCount + 1, pins := t.pins } ∧
    t.core e = { s.core e with cyc := (t.core e).cyc, held := held } ∧ (s.core e).cyc < (t.core e).cyc ∧
    ∀ k, k ≠ engKey e.ty e.num → t.eng k = s.eng k

/-- The key of xxx_WDG_COUNT. -/
def wdgKey (e : EngineId) : Nat := (R.ENG_WDG_COUNT_CYCLES.on e.ty).key e.num

/-- From s to t an engine has left RUNNING: the count of its watchdog keeps the cycles that remain, no more than were last known, and just
those where it was not running (R268). -/
def WdgKept (e : EngineId) (s t : State) : Prop :=
  let count := fun (u : State) => u.get (R.ENG_WDG_COUNT_CYCLES.on e.ty) e.num
  count t ≤ count s ∧ (wdgRuns s e.ty e.num = false → count t = count s)

/-- The registers and values of an FP result in v(RD) or the pair RD (R229). -/
def State.fpOut (s : State) (e : EngineId) (y : Syl) (pair : Bool) (v : Nat) : List (Nat × Nat) :=
  if pair then [(s.vphys e y.rd, v % 2 ^ 32), (s.vphys e (y.rd + 1), v / 2 ^ 32)] else [(s.vphys e y.rd, v)]

/-- An FP operand (R229): the low half of a register, a register, a pair. -/
def State.fpIn (s : State) (e : EngineId) (fmt v : Nat) : Nat :=
  if fmt = 0 then s.vreg e v % 2 ^ 16 else if fmt = 1 then s.vreg e v else s.vpair e v

/-- The command runs as a bundle of its own that leaves one interlocked result to land a number of engine cycles later (R193): values in
physical registers, FP flags to accumulate, N, Z, C, V if it compares, the unit (0 none, 1 DIV, 2 FDIV and FSQRT). -/
def Lands (i : Instr) (e : EngineId) (op : Nat) (y : Syl) (s : State) (regs : List (Nat × Nat)) (fp : Nat) (nzcv : Option Nat)
    (unit lat : Nat) : Prop :=
  Runs i e s (fun x => { x with late := [⟨regs, fp, nzcv, unit, (s.core e).cyc + lat, (s.core e).pc, sylWord op y⟩] })

/-! ### Pane controllers -/

/-- A controller after a cycle of its macro-op in which a microword completes, with the next address (R163, R164). -/
def PaneCtl.stepped (c : PaneCtl) (next : Nat) : PaneCtl :=
  { c with upc := next, first := true, remaining := c.remaining - 1, dispatch := decide (c.remaining = 1 ∧ next = 0) }

/-- A controller's oldest macro-op is not at its end: one of its PE-ops is in flight, or the controller still expands it (R145). -/
def PaneCtl.openRun (c : PaneCtl) : Bool :=
  match c.runs with
  | [] => true
  | r :: _ => !c.pastRun r.seq

/-- A pane's gang is clocked and initialised, and nothing waits to be settled in it: no macro-op at its end, no reduction open, no edge write
waiting for its answer, the two copies of every occupancy equal (R35, R105, R114, R145, R149). -/
def State.gangQuiet (s : State) (p : Nat) : Prop :=
  s.gangOn p = true ∧ s.gangInit p = false ∧ ∀ q, q ∈ s.paneGang p →
    (s.ctl q).openRun = true ∧ (s.ctl q).red = none ∧ (s.ctl q).edgeWait = [] ∧
    occMismatch (s.pane q).inb (s.pane q).inOcc = none ∧ occMismatch (s.pane q).outb (s.pane q).outOcc = none

/-- Every controller of a pane's gang executes a well-formed microword of a class, with cycles left. -/
def State.inMicroword (s : State) (p cls : Nat) : Prop :=
  p < 16 ∧ p ∈ s.paneGang p ∧ s.gangQuiet p ∧ ∀ q, q ∈ s.paneGang p →
    executing s q = true ∧ muClass (muNow (s.ctl q)) = cls ∧ microBad (muNow (s.ctl q)) = false

/-- The command changes the controllers of a pane's gang, each by f, and, no macro-op being at its end then, nothing else of the device but
the pins. -/
def GangRuns (i : Instr) (p : Nat) (s : State) (f : PaneCtl → PaneCtl) : Prop :=
  (∀ q, q ∈ s.paneGang p → (f (s.ctl q)).openRun = true) →
  ∃ t, exec i s = .next t ∧ t = { s with pctl := t.pctl, pins := t.pins } ∧
    (∀ q, q ∈ s.paneGang p → t.ctl q = f (s.ctl q)) ∧ (∀ q, q ∉ s.paneGang p → t.ctl q = s.ctl q)

/-! ### Processing elements -/

/-- The bit of a side's edge register that a PE gets across the edge of its rectangle, 0 where the side is not configured (R113). -/
def State.edgeBit (s : State) (p side k : Nat) : Bool :=
  bitOf (s.pane p).edgeCfg side && bitOf (tblGet 0 (s.pane p).edges (side * 8 + k / 32)).toNat (k % 32)

/-- The X of a PE of a pane. -/
def State.xBit (s : State) (p r c : Nat) : Bool := (s.pane p).x.getLsbD (256 * r + c)

/-- The X of the neighbour of PE (r, c) of a pane on a side (R113): in the pane, in the next pane of the same rectangle, or the edge. -/
def State.neighbourBit (s : State) (p side r c : Nat) : Bool :=
  let across := fun (r c k : Nat) => match beyond p side with
    | some q => if s.flag R.PANE_MODE_IN_GANG p && !s.isTwin p && (s.paneGang p).contains q then s.xBit q r c else s.edgeBit p side k
    | none => s.edgeBit p side k
  if side = 0 then (if 0 < r then s.xBit p (r - 1) c else across 255 c c)
  else if side = 1 then (if c < 255 then s.xBit p r (c + 1) else across r 0 r)
  else if side = 2 then (if r < 255 then s.xBit p (r + 1) c else across 0 c c)
  else (if 0 < c then s.xBit p r (c - 1) else across r 255 r)

/-- Operand B of PE (r, c) of a pane (Table 05-4), its memory being without errors. -/
def State.operandBit (s : State) (p : Nat) (o : BitVec 64) (r c : Nat) : Bool :=
  let n := 256 * r + c
  let src := bitsAt o.toNat 12 3
  if src = 0 then (tblGet 0 (s.pane p).planes (bitsAt o.toNat 26 11)).getLsbD n
  else if src ≤ 4 then s.neighbourBit p (src - 1) r c
  else if src = 5 then ((tblGet [] (s.pane p).inb (8 * r + c / 32)).headD 0).getLsbD (c % 32)
  else if src = 6 then bitOf o.toNat 10
  else s.xBit (twinOf p) r c

/-- Operand A of PE (r, c) of a pane. -/
def State.operandABit (s : State) (p : Nat) (o : BitVec 64) (r c : Nat) : Bool :=
  if bitOf o.toNat 11 then (s.pane p).y.getLsbD (256 * r + c) else (tblGet 0 (s.pane p).planes (bitsAt o.toNat 37 11)).getLsbD (256 * r + c)

/-- The bit that one of the two truth tables of a PE-op gives PE (r, c) of a pane (R107): the table from bit 56 on for the result, from
bit 48 on for the next C. -/
def State.tableBit (s : State) (p : Nat) (o : BitVec 64) (table r c : Nat) : Bool :=
  bitOf o.toNat (table + 4 * bit (s.operandABit p o r c) + 2 * bit (s.operandBit p o r c) + bit ((s.pane p).c.getLsbD (256 * r + c)))

/-- The number that w bits of a PE's memory hold from an address on, bit k at the address plus k modulo 2,048 (R239). -/
def fieldVal (planes : Tbl Plane) (base w pe : Nat) : Nat :=
  ((List.range w).map (fun k => if (tblGet 0 planes ((base + k) % 2048)).getLsbD pe then 2 ^ k else 0)).sum

/-- A pane that is no gang's, at the end of the cost of one macro-op of the base image: nothing of it left to execute, what its first PE-op found
noted, the memory without errors, no overlap among its fields (R114, R165, R239, R240). -/
def State.endsMacro (s : State) (p : Nat) (m : BitVec 64) (st : MacroStart) : Prop :=
  p < 16 ∧ s.flag R.PANE_MODE_IN_GANG p = false ∧ s.domainOn (14 + p) = true ∧ s.baseImage p = true ∧ (s.ctl p).dispatch = false ∧
    (s.ctl p).upc = 0 ∧ (s.ctl p).inflight = [] ∧ (s.ctl p).red = none ∧ (s.ctl p).edgeWait = [] ∧
    (s.ctl p).runs.map (fun r => (r.seq, r.mop, r.start, r.cut)) = [((s.ctl p).seq, m, some st, false)] ∧ st.errs = [] ∧ (s.pane p).errs = [] ∧ macroOverlap m = []

/-- The macro-op has left in a field of a pane, in the PEs whose K is 1, a function of each PE's operands, and changed no other bit of a plane. -/
def FieldLeft (p base w : Nat) (st : MacroStart) (v : Nat → Nat) (s t : State) : Prop :=
  (∀ (pe : Nat), pe < 65536 → fieldVal (t.pane p).planes base w pe =
    if st.k.getLsbD pe then v pe else fieldVal (s.pane p).planes base w pe) ∧
  ∀ (a : Nat), a ∉ (List.range w).map (fun k => (base + k) % 2048) → tblGet 0 (t.pane p).planes a = tblGet 0 (s.pane p).planes a

/-! ### The Gatehouse -/

/-- The key of a CAN controller's GATE_CAN_STAT. -/
def canStatKey (k : Nat) : Nat := (R.GATE_CAN_STAT_STATE.nth k).key 0

/-- Counters of ports (port, code, by how much) are raised modulo 2^32, unless the counters are frozen (R404, R405); every other counter
is as before. -/
def Counted (cs : List (Nat × Nat × Nat)) (s t : State) : Prop :=
  ∀ (p code : Nat), code < 32 → tblGet 0 t.gate.counts (32 * p + code) =
    if s.flag R.GATE_CNT_STAT_INVALID 0 || cs.all (fun c => (c.1, c.2.1) != (p, code)) then tblGet 0 s.gate.counts (32 * p + code)
    else (tblGet 0 s.gate.counts (32 * p + code) + (cs.map (fun c => if c.1 = p ∧ c.2.1 = code then c.2.2 else 0)).sum) % 2 ^ 32

/-- The frames to be classified with one more, ordered by stamp, then by port. -/
def arriving (f : ArrivedFrame) (l : List ArrivedFrame) : List ArrivedFrame :=
  let before := fun (g : ArrivedFrame) => decide (g.stamp < f.stamp ∨ g.stamp = f.stamp ∧ g.port ≤ f.port)
  l.takeWhile before ++ [f] ++ l.dropWhile before

/-- A CAN controller's error counters have new values, and its GATE_CAN_STAT shows them and error passive from 128 on (R390). -/
def ErrorCounters (k tec rxe : Nat) (s t : State) : Prop :=
  tblGet 0 t.gate.tec k = tec ∧ tblGet 0 t.gate.rxe k = rxe ∧ t.get (R.GATE_CAN_STAT_TEC.nth k) 0 = min tec 255 ∧
  t.get (R.GATE_CAN_STAT_REC.nth k) 0 = min rxe 127 ∧
  t.get (R.GATE_CAN_STAT_STATE.nth k) 0 = (if s.get (R.GATE_CAN_STAT_STATE.nth k) 0 = 2 then 2 else if 128 ≤ tec ∨ 128 ≤ rxe then 1 else 0) ∧
  ∀ (j : Nat), j ≠ k → tblGet 0 t.gate.tec j = tblGet 0 s.gate.tec j ∧ tblGet 0 t.gate.rxe j = tblGet 0 s.gate.rxe j

/-- The frame that a port would send next has left it: the status frame that waits, else the head of its queue (R416, R420). -/
def Removed (p : Nat) (s t : State) : Prop :=
  (∀ (k : Nat), tblGet none t.gate.status k = if k = p then none else tblGet none s.gate.status k) ∧
  (∀ (k : Nat), tblGet [] t.gate.txq k = if k = p ∧ tblGet none s.gate.status p = none then (tblGet [] s.gate.txq p).tail else tblGet [] s.gate.txq k)

/-- A port has sent a frame (R389, R392, R416): it leaves its queue, TX_OK counts it, its engine finds the stamp and the port; a status
frame counts in the port's SEQ. -/
def SentFrame (p stamp : Nat) (f : TxFrame) (s t : State) : Prop :=
  Removed p s t ∧ Counted [(p, 0x18, 1)] s t ∧ tblGet none t.gate.wire p = some f ∧
  (∀ (e : Nat), tblGet none t.gate.txLast e = if f.sender = some e then some (stamp, p) else tblGet none s.gate.txLast e) ∧
  tblGet 0 t.gate.statSeq p = (if f.sender = none then (tblGet 0 s.gate.statSeq p + 1) % 2 ^ 16 else tblGet 0 s.gate.statSeq p) ∧
  t = { s with gate := t.gate, regs := t.regs, pins := t.pins } ∧ t.gate.arrived = s.gate.arrived ∧ t.gate.held = s.gate.held ∧
  t.gate.rxq = s.gate.rxq ∧ t.gate.cam = s.gate.cam

/-- Rows of the signal table read clean. -/
def State.rowsClean (s : State) (rs : List Nat) : Bool := rs.all (fun r => decodeWord (s.sigt.err r) == .clean)

/-- An update has reached the pending slot of a signal entry (R412): value and INVALID, FRESH, one more update, the stamp; the committed
slot, every other entry and the tables are as before. -/
def SignalUpdated (e value : Nat) (invalid : Bool) (stamp : Nat) (s t : State) : Prop :=
  let x := s.sig e
  let y := t.sig e
  y.pending = ⟨value, min ((if x.mark = 1 then x.pending.updates else 0) + 1) 255, invalid, false, false, true, stamp⟩ ∧
  y.committed = x.committed ∧ y.sel = x.sel ∧ y.mark = 1 ∧ y.last = stamp ∧ (∀ (k : Nat), k ≠ e → t.sig k = s.sig k) ∧
  t.sigt.cfg = s.sigt.cfg ∧ t.sigt.desc = s.sigt.desc ∧ t.sigt.scrubRow = s.sigt.scrubRow

/-! ### Hinge -/

/-- The global clock net of a flip-flop: its cell's field of the bay's frame (Table 18-4). -/
def State.flopNet (s : State) (bay c : Nat) : Nat := bitsAt (tblGet 0 s.fabric.frames bay).toNat (64 * c + 18) 2

end Sys2Proof.Machine
end

