-- ==== Sys2Proof/Certificates/Slice0/Obligations.lean ====
section
/-!
DEFINITION. The statements for the provers: what the commands do by the rules of spec/, what every step keeps.
-/

open Sys2Proof Sys2Proof.Machine

/-- The model's own rule: a step takes the first waiting command; an empty queue idles (log entry 1). -/
def Obligations.StepRunsFrontCommand : Prop :=
  (∀ (c : Instr) (rest : List Instr) (s : State), step { s with pending := c :: rest } = exec c { s with pending := rest }) ∧
  (∀ (s : State), s.pending = [] → step s = .next s)

/-- R43, R470, R482. -/
def Obligations.AfterReset : Prop :=
  State.reset.pending = [] ∧ State.reset.PinsAgree ∧
  (∀ (ty n off : Nat), State.reset.getReg ty n off = resetWord ty n off) ∧
  State.reset.domain 0 = psOn ∧ State.reset.domain 1 = psOn ∧ (∀ (d : Nat), 1 < d → d < 30 → State.reset.domain d = psOff) ∧
  (∀ (t d : Nat) (alt : Bool), t < 40 → d < 128 → State.reset.usableRoute t d alt = none) ∧
  (∀ (t k : Nat), t < 40 → k < 38 → k ≠ 30 → State.reset.closedTo t k = true) ∧
  State.reset.porter.current = none ∧ State.reset.debugLevel = 0 ∧ State.reset.linkUp = false ∧
  (∀ (e : EngineId), State.reset.engState e.ty e.num = 0) ∧ (∀ (p : Nat), State.reset.taskNow p = 0)

/-- The model's own rule: nothing but a unit that does not exist stops a command. -/
def Obligations.EveryCommandCompletes : Prop :=
  (∀ (i : Instr) (s : State), i.wf = true → ∃ t, exec i s = .next t ∧ t.PinsAgree) ∧
  (∀ (i : Instr) (s : State), (∃ t, exec i s = .next t) ∨ exec i s = .fault .illFormed)

/-- R41, R363, R384, R447, R493, R494. -/
def Obligations.EveryStepKeepsThePins : Prop :=
  ∀ (s t : State), s.PinsAgree → step s = .next t → t.PinsAgree

/-- R100 (R45 says what latching is). -/
def Obligations.PowerCapBelowAnItinerary : Prop :=
  ∀ (i : Initiator) (mw v : Nat) (it : Itinerary) (s : State), s.pageOpen 0x0B 0 = true → mw < 65536 →
    it ∈ s.porter.current.toList ++ s.porter.staged.toList → v < 80 → mw < (it.variant v).powerTotal →
    ∃ t, exec (.powerCapWrite i true mw) s = .next t ∧ t.answered rspRefused ∧ OnlyRegs (errKeys 0x0B 0) s t ∧
      t.get (R.HDR_ERR_COUNT.on 0x0B) 0 = min (s.get (R.HDR_ERR_COUNT.on 0x0B) 0 + 1) (2 ^ R.HDR_ERR_COUNT.w - 1) ∧
      (s.get (R.HDR_ERR_CODE_CODE.on 0x0B) 0 = 0 → Latches 0x0B 0 0x060 0x0101 t) ∧
      (s.get (R.HDR_ERR_CODE_CODE.on 0x0B) 0 ≠ 0 → t.get (R.HDR_ERR_CODE_CODE.on 0x0B) 0 = s.get (R.HDR_ERR_CODE_CODE.on 0x0B) 0)

/-- R447; the event output is that of R41. -/
def Obligations.HostInterruptLine : Prop :=
  (∀ (i : Instr) (s t : State), exec i s = .next t →
    (t.pins.hostIrq = true ↔ ∃ k, k < 8 ∧ t.flag (R.HTCH_IRQ_SRC_EN.nth k) 0 = true ∧
      t.getReg (t.get (R.HTCH_IRQ_SRC_TYPE.nth k) 0) (t.get (R.HTCH_IRQ_SRC_INSTANCE.nth k) 0) 0x10 &&&
        t.getReg (t.get (R.HTCH_IRQ_SRC_TYPE.nth k) 0) (t.get (R.HTCH_IRQ_SRC_INSTANCE.nth k) 0) 0x14 ≠ 0)) ∧
  (∀ (s : State) (r : Word) (k : Nat), (fullRead ⟨30, 0⟩ false 0x13 0 0x064 s).2 = ⟨rspOk, wordBytes r⟩ → k < 32 →
    (bitOf r.toNat k = true ↔ k < 8 ∧ s.flag (R.HTCH_IRQ_SRC_EN.nth k) 0 = true ∧
      s.eventOut (s.get (R.HTCH_IRQ_SRC_TYPE.nth k) 0) (s.get (R.HTCH_IRQ_SRC_INSTANCE.nth k) 0) = true))

/-- R209, R210: the adding and subtracting instructions, their flags with SF, and their frame (Writes). -/
def Obligations.RegisterArithmetic : Prop :=
  ∀ (e : EngineId) (y : Syl) (s : State), s.ready e = true → y.alone = true → y.fn < 2 →
    let w := widthOf e.ty
    let x := s.vreg e y.ra
    let z := s.vreg e y.rb
    let c := bit (s.carry e)
    let flags := fun (r : Nat) (carry : Bool) (exact : Int) =>
      if y.fn = 1 then
        [(0, bitOf r (w - 1)), (1, r == 0), (2, carry), (3, decide (exact < -(2 ^ (w - 1) : Nat) ∨ (2 ^ (w - 1) : Nat) ≤ exact))]
      else []
    Writes (.addReg e y) e s y.rd ((x + z) % 2 ^ w) (flags ((x + z) % 2 ^ w) (decide (2 ^ w ≤ x + z)) (signedOf w x + signedOf w z)) ∧
    Writes (.subReg e y) e s y.rd (wrapInt w ((x : Int) - z)) (flags (wrapInt w ((x : Int) - z)) (decide (z ≤ x)) (signedOf w x - signedOf w z)) ∧
    Writes (.adc e y) e s y.rd ((x + z + c) % 2 ^ w)
      (flags ((x + z + c) % 2 ^ w) (decide (2 ^ w ≤ x + z + c)) (signedOf w x + signedOf w z + c)) ∧
    Writes (.sbc e y) e s y.rd (wrapInt w ((x : Int) - z - (1 - c : Nat)))
      (flags (wrapInt w ((x : Int) - z - (1 - c : Nat))) (decide (z + (1 - c) ≤ x)) (signedOf w x - signedOf w z - (1 - c : Nat)))

/-- R209, R210: the logical and comparing instructions. -/
def Obligations.RegisterLogic : Prop :=
  ∀ (e : EngineId) (y : Syl) (s : State), s.ready e = true → y.alone = true →
    let w := widthOf e.ty
    let x := s.vreg e y.ra
    let z := s.vreg e y.rb
    let nz := fun (r : Nat) => [(0, bitOf r (w - 1)), (1, r == 0)]
    let sf := fun (r : Nat) => if y.fn = 1 then nz r else []
    let d := signedOf w x - signedOf w z
    (y.fn < 2 →
      Writes (.andReg e y) e s y.rd (x &&& z) (sf (x &&& z)) ∧ Writes (.orReg e y) e s y.rd (x ||| z) (sf (x ||| z)) ∧
      Writes (.xor e y) e s y.rd (x ^^^ z) (sf (x ^^^ z)) ∧
      Writes (.andn e y) e s y.rd (x &&& (2 ^ w - 1 - z % 2 ^ w)) (sf (x &&& (2 ^ w - 1 - z % 2 ^ w)))) ∧
    (y.fn = 0 → y.rd = 0 →
      Flags (.cmp e y) e s (nz (wrapInt w ((x : Int) - z)) ++
        [(2, decide (z ≤ x)), (3, decide (d < -(2 ^ (w - 1) : Nat) ∨ (2 ^ (w - 1) : Nat) ≤ d))]) ∧
      Flags (.tst e y) e s (nz (x &&& z)))

/-- R211, R212: shifts by a register and by an immediate. -/
def Obligations.Shifts : Prop :=
  ∀ (e : EngineId) (y : Syl) (s : State), s.ready e = true → y.alone = true →
    let w := widthOf e.ty
    let x := s.vreg e y.ra
    let shl := fun (k : Nat) => if k = 0 then x else x * 2 ^ k % 2 ^ w
    let shr := fun (k : Nat) => if k = 0 then x else x / 2 ^ k
    let sar := fun (k : Nat) => if k = 0 then x else wrapInt w (signedOf w x / (2 ^ k : Nat))
    let ror := fun (k : Nat) => if k = 0 then x else (x / 2 ^ (k % w) + x * 2 ^ (w - k % w)) % 2 ^ w
    let k := s.vreg e y.rb % 256
    let flags := fun (r : Nat) (out : Bool) =>
      if y.fn = 1 then [(0, bitOf r (w - 1)), (1, r == 0), (2, if k = 0 then s.carry e else out)] else []
    (y.fn < 2 →
      Writes (.shl e y) e s y.rd (shl k) (flags (shl k) (decide (k ≤ w) && bitOf x (w - k))) ∧
      Writes (.shr e y) e s y.rd (shr k) (flags (shr k) (decide (k ≤ w) && bitOf x (k - 1))) ∧
      Writes (.sar e y) e s y.rd (sar k) (flags (sar k) (if k ≤ w then bitOf x (k - 1) else bitOf x (w - 1))) ∧
      Writes (.ror e y) e s y.rd (ror k) (flags (ror k) (bitOf (ror k) (w - 1)))) ∧
    (bitsAt y.ops 5 2 = 0 →
      Writes (.shi e y) e s y.rd
        (match bitsAt y.ops 7 2 with
          | 0 => shl (bitsAt y.ops 0 5)
          | 1 => shr (bitsAt y.ops 0 5)
          | 2 => sar (bitsAt y.ops 0 5)
          | _ => ror (bitsAt y.ops 0 5)) [])

/-- R212: the immediate instructions. -/
def Obligations.Immediates : Prop :=
  ∀ (e : EngineId) (y : Syl) (s : State), s.ready e = true → y.alone = true →
    let w := widthOf e.ty
    let x := s.vreg e y.ra
    let i := wrapInt w (signedOf 9 y.imm9)
    let r := wrapInt w ((x : Int) - i)
    let d := signedOf w x - signedOf w i
    Writes (.addi e y) e s y.rd ((x + i) % 2 ^ w) [] ∧ Writes (.andi e y) e s y.rd (x &&& i) [] ∧
    Writes (.ori e y) e s y.rd (x ||| i) [] ∧ Writes (.xori e y) e s y.rd (x ^^^ i) [] ∧
    Writes (.movi e y) e s y.rd (wrapInt w (signedOf 14 y.imm14)) [] ∧
    Writes (.movh e y) e s y.rd ((s.vreg e y.rd * 2 ^ 14 + y.imm14) % 2 ^ w) [] ∧
    (y.rd = 0 → Flags (.cmpi e y) e s
      [(0, bitOf r (w - 1)), (1, r == 0), (2, decide (i ≤ x)), (3, decide (d < -(2 ^ (w - 1) : Nat) ∨ (2 ^ (w - 1) : Nat) ≤ d))])

/-- R213 (Table 09-3). -/
def Obligations.FieldOperations : Prop :=
  ∀ (e : EngineId) (y : Syl) (s : State), s.ready e = true → y.alone = true →
    let w := widthOf e.ty
    let x := s.vreg e y.ra
    let z := s.vreg e y.rb
    let p := z % 32
    let l := bitsAt z 8 5 + 1
    let less := if y.fn < 4 then decide (signedOf w x < signedOf w z) else decide (x < z)
    (y.fn = 0 ∨ y.fn = 4 → Writes (.minmax e y) e s y.rd (if less then x else z) []) ∧
    (y.fn = 2 ∨ y.fn = 6 → Writes (.minmax e y) e s y.rd (if less then z else x) []) ∧
    (y.rb = 0 → y.fn = 0 → Writes (.bitcnt e y) e s y.rd (if x % 2 ^ w = 0 then w else w - 1 - Nat.log2 (x % 2 ^ w)) []) ∧
    (y.rb = 0 → y.fn = 1 → Writes (.bitcnt e y) e s y.rd (((List.range w).filter (bitOf x)).length) []) ∧
    (y.rb = 0 → y.fn = 2 → Writes (.bitcnt e y) e s y.rd (((List.range w).find? (bitOf x)).getD w) []) ∧
    (e.ty = 3 → y.fn = 0 → Writes (.extField e y) e s y.rd (x / 2 ^ p % 2 ^ l) []) ∧
    (e.ty = 3 → y.fn = 1 → Writes (.extField e y) e s y.rd (wrapInt 32 (signedOf l (x / 2 ^ p % 2 ^ l))) []) ∧
    (e.ty = 3 → y.fn = 0 → Writes (.insField e y) e s y.rd (setBits (s.vreg e y.rd) p (min l (32 - p)) x) []) ∧
    (e.ty ≠ 3 → y.rb = 0 → y.fn < 3 → Writes (.extField e y) e s y.rd (x / 2 ^ (8 * y.fn) % 256) []) ∧
    (e.ty ≠ 3 → y.rb = 0 → 4 ≤ y.fn → y.fn < 7 →
      Writes (.extField e y) e s y.rd (wrapInt 24 (signedOf 8 (x / 2 ^ (8 * (y.fn - 4)) % 256))) []) ∧
    (e.ty ≠ 3 → y.rb = 0 → y.fn < 3 → Writes (.insField e y) e s y.rd (setBits (s.vreg e y.rd) (8 * y.fn) 8 x) [])

/-- R214, R215, R216. -/
def Obligations.MultiplyDivideDecimal : Prop :=
  ∀ (e : EngineId) (y : Syl) (s : State), s.ready e = true → y.alone = true →
    let w := widthOf e.ty
    let x := s.vreg e y.ra
    let z := s.vreg e y.rb
    let u := x * z
    let g := wrapInt (2 * w) (signedOf w x * signedOf w z)
    let pairs := fun (p : Nat) => Runs (.mul e y) e s (fun m => { m with
      phys := physPut (physPut m.phys (s.vphys e y.rd) (p % 2 ^ w)) (s.vphys e (y.rd + 1)) (p / 2 ^ w) })
    let div := fun (q : Nat) => Lands (.div e y) e 0x21 y s [(s.vphys e y.rd, q)] 0 none 1 (if e.ty = 3 then 18 else 14)
    let digits := fun (n : Nat) => (List.range (w / 4)).map (fun k => n / 16 ^ k % 16)
    let value := fun (n : Nat) => (List.range (w / 4)).foldl (fun a k => a + n / 16 ^ k % 16 * 10 ^ k) 0
    let pack := fun (n : Nat) => (List.range (w / 4)).foldl (fun a k => a + n / 10 ^ k % 10 * 16 ^ k) 0
    let good := (digits x ++ digits z).all (fun d => decide (d ≤ 9))
    let top := 10 ^ (w / 4)
    let c := y.fn * bit (s.carry e)
    let b := y.fn * (1 - bit (s.carry e))
    (y.fn = 0 → Writes (.mul e y) e s y.rd (u % 2 ^ w) []) ∧ (y.fn = 1 → Writes (.mul e y) e s y.rd (u / 2 ^ w) []) ∧
    (y.fn = 2 → Writes (.mul e y) e s y.rd (g / 2 ^ w) []) ∧
    (y.fn = 3 → y.rd % 2 = 0 → pairs u) ∧ (y.fn = 4 → y.rd % 2 = 0 → pairs g) ∧
    (y.fn = 0 → z ≠ 0 → div (x / z)) ∧ (y.fn = 2 → z ≠ 0 → div (x % z)) ∧
    (y.fn = 1 → z ≠ 0 → div (wrapInt w (Int.tdiv (signedOf w x) (signedOf w z)))) ∧
    (y.fn = 3 → z ≠ 0 → div (wrapInt w (Int.tmod (signedOf w x) (signedOf w z)))) ∧
    (y.fn < 4 → z = 0 → trapActive e.ty (s.core e).sys = false → Traps (.div e y) e s 9 (sylWord 0x21 y) 0 (s.core e).pc (s.nextPc e)) ∧
    (y.fn < 2 → good = true →
      Writes (.dadd e y) e s y.rd (pack ((value x + value z + c) % top))
        [(2, decide (top ≤ value x + value z + c)), (1, (value x + value z + c) % top == 0), (4, false)] ∧
      Writes (.dsub e y) e s y.rd (pack ((value x + top - value z - b) % top))
        [(2, decide (value z + b ≤ value x)), (1, (value x + top - value z - b) % top == 0), (4, false)]) ∧
    (y.fn < 2 → good = false → Writes (.dadd e y) e s y.rd x [(4, true)] ∧ Writes (.dsub e y) e s y.rd x [(4, true)])

/-- R229 to R232: what each FP instruction leaves to land, and when. -/
def Obligations.FloatingPoint : Prop :=
  ∀ (e : EngineId) (y : Syl) (s : State), s.ready e = true → y.alone = true → e.ty = 3 → y.fn % 4 ≠ 3 →
    let fmt := y.fn % 4
    let d := fmt == 2
    let f := fpFmt fmt
    let rm := s.sysReg e.ty e.num 0x20 % 4
    let a := s.fpIn e fmt y.ra
    let b := s.fpIn e fmt y.rb
    let lat := fun (p q : Nat) => if fmt = 2 then q else p
    let even := fun (v : Nat) => fmt = 2 → v % 2 = 0
    (y.fn < 4 → even y.rd → even y.ra → even y.rb →
      Lands (.fadd e y) e 0x24 y s (s.fpOut e y d (fpAdd f rm false a b).1) (fpAdd f rm false a b).2 none 0 (lat 3 4) ∧
      Lands (.fsub e y) e 0x25 y s (s.fpOut e y d (fpAdd f rm true a b).1) (fpAdd f rm true a b).2 none 0 (lat 3 4) ∧
      Lands (.fmul e y) e 0x26 y s (s.fpOut e y d (fpMul f rm a b).1) (fpMul f rm a b).2 none 0 (lat 3 5) ∧
      Lands (.fdiv e y) e 0x28 y s (s.fpOut e y d (fpDiv f rm a b).1) (fpDiv f rm a b).2 none 2 (lat 14 22)) ∧
    (even y.rd → even y.ra → even y.rb →
      let r := fpFma f rm (bitOf y.ops 3) (bitOf y.ops 2) a b (s.fpIn e fmt y.rd)
      Lands (.fma e y) e 0x27 y s (s.fpOut e y d r.1) r.2 none 0 (lat 4 6) ∧
      Lands (.fminmax e y) e 0x2C y s (s.fpOut e y d (fpMinMax f (y.fn / 4) a b).1) (fpMinMax f (y.fn / 4) a b).2 none 0 2) ∧
    (y.fn < 4 → y.rb = 0 → even y.ra →
      (even y.rd → Lands (.fsqrt e y) e 0x29 y s (s.fpOut e y d (fpSqrt f rm a).1) (fpSqrt f rm a).2 none 2 (lat 16 26)) ∧
      Lands (.fclass e y) e 0x2D y s [(s.vphys e y.rd, fpClass f a)] 0 none 0 2) ∧
    (y.fn / 4 ≠ 3 → even y.rd → even y.ra → even y.rb →
      Lands (.fsgn e y) e 0x2E y s (s.fpOut e y d (fpSign f (y.fn / 4) a b)) 0 none 0 2) ∧
    (y.fn < 8 → y.rd = 0 → even y.ra → even y.rb →
      let r := fpCompare f (y.fn / 4 == 1) a b
      Lands (.fcmp e y) e 0x2B y s [] r.2 (some (bit r.1.1 + 2 * bit r.1.2.1 + 4 * bit r.1.2.2.1 + 8 * bit r.1.2.2.2)) 0 2) ∧
    (y.fn < 4 → y.rb < 3 → y.rb ≠ fmt → even y.rd → (y.rb = 2 → y.ra % 2 = 0) →
      let r := fpConvert (fpFmt y.rb) f rm (s.fpIn e y.rb y.ra)
      Lands (.fcvt e y) e 0x2A y s (s.fpOut e y d r.1) r.2 none 0 3) ∧
    (y.fn < 4 → y.rb / 8 = 1 → y.rb % 2 = 0 → even y.ra →
      let r := fpToInt f (if bitOf y.rb 1 then 1 else rm) (bitOf y.rb 2) a
      Lands (.fcvt e y) e 0x2A y s [(s.vphys e y.rd, r.1)] r.2 none 0 3) ∧
    (y.fn < 4 → y.rb = 16 ∨ y.rb = 20 → even y.rd →
      let r := fpFromInt f rm (y.rb == 20) (s.vreg e y.ra)
      Lands (.fcvt e y) e 0x2A y s (s.fpOut e y d r.1) r.2 none 0 3)

/-- R217, R218, R191: what a local load leaves pending. -/
def Obligations.LocalLoads : Prop :=
  ∀ (e : EngineId) (y : Syl) (s : State), s.ready e = true → y.alone = true →
    let addr := fun (n : Nat) => wrapInt 32 ((s.vreg e y.ra : Int) + signedOf 9 y.imm9 * n)
    let fits := fun (a n : Nat) => a % n = 0 ∧ a + n ≤ 65536 ∧ s.dataClean e a n = true
    let v := fun (n : Nat) => s.data e (addr n) n
    let at1 := fun (x : Nat) => [(s.vphys e y.rd, x)]
    let a24 := 3 * wrapInt 24 ((s.vreg e y.ra : Int) + signedOf 9 y.imm9)
    (e.ty = 3 →
      (fits (addr 1) 1 → Loads (.ldB e y) e s (at1 (wrapInt 32 (signedOf 8 (v 1)))) ∧ Loads (.ldBu e y) e s (at1 (v 1))) ∧
      (fits (addr 2) 2 → Loads (.ldH e y) e s (at1 (wrapInt 32 (signedOf 16 (v 2)))) ∧ Loads (.ldHu e y) e s (at1 (v 2))) ∧
      (fits (addr 4) 4 → Loads (.ldW e y) e s (at1 (v 4))) ∧
      (y.rd % 2 = 0 → fits (addr 8) 8 →
        Loads (.ldD e y) e s [(s.vphys e y.rd, v 8 % 2 ^ 32), (s.vphys e (y.rd + 1), v 8 / 2 ^ 32)]) ∧
      (let a := addr 4 / 4 * 4
       let k := 8 * (addr 4 % 4)
       fits a 4 → Loads (.ldWr e y) e s (at1 (s.data e a 4 / 2 ^ k + s.data e a 4 % 2 ^ k * 2 ^ (32 - k))))) ∧
    (e.ty ≠ 3 → a24 + 3 ≤ 65536 → s.dataClean e a24 3 = true → Loads (.ldW e y) e s (at1 (s.data e a24 3)))

/-- R217, R218: what a local store writes, and that it writes nothing else. -/
def Obligations.LocalStores : Prop :=
  ∀ (e : EngineId) (y : Syl) (s : State), s.ready e = true → y.alone = true →
    let addr := fun (n : Nat) => wrapInt 32 ((s.vreg e y.ra : Int) + signedOf 9 y.imm9 * n)
    let fits := fun (a n : Nat) => a % n = 0 ∧ a + n ≤ 65536 ∧ s.dataClean e a n = true
    let v := s.vreg e y.rd
    let a24 := 3 * wrapInt 24 ((s.vreg e y.ra : Int) + signedOf 9 y.imm9)
    (e.ty = 3 →
      (fits (addr 1) 1 → Stores (.stB e y) e s (addr 1) (leBytes 1 v) id) ∧
      (fits (addr 2) 2 → Stores (.stH e y) e s (addr 2) (leBytes 2 v) id) ∧
      (fits (addr 4) 4 → Stores (.stW e y) e s (addr 4) (leBytes 4 v) id) ∧
      (y.rd % 2 = 0 → fits (addr 8) 8 → Stores (.stD e y) e s (addr 8) (leBytes 8 (s.vpair e y.rd)) id) ∧
      (let a := addr 4 / 4 * 4
       let k := 8 * ((4 - addr 4 % 4) % 4)
       fits a 4 → Stores (.stWr e y) e s a (leBytes 4 (v / 2 ^ k + v % 2 ^ k * 2 ^ (32 - k))) id)) ∧
    (e.ty ≠ 3 → a24 + 3 ≤ 65536 → s.dataClean e a24 3 = true → Stores (.stW e y) e s a24 (leBytes 3 v) id)

/-- R217 with R195 and R196: the traps of a local word access, in their order. -/
def Obligations.LocalAccessTraps : Prop :=
  ∀ (e : EngineId) (y : Syl) (s : State), s.ready e = true → y.alone = true → e.ty = 3 → trapActive e.ty (s.core e).sys = false →
    let a := wrapInt 32 ((s.vreg e y.ra : Int) + signedOf 9 y.imm9 * 4)
    let both := fun (cause info : Nat) =>
      Traps (.ldW e y) e s cause a info (s.core e).pc (s.nextPc e) ∧ Traps (.stW e y) e s cause a info (s.core e).pc (s.nextPc e)
    (a % 4 ≠ 0 → both 6 0) ∧ (a % 4 = 0 → 65536 < a + 4 → both 7 0xFF) ∧
    (a % 4 = 0 → a + 4 ≤ 65536 → (s.mem (engKey e.ty e.num)).decode true (a / 8) = .uncorrectable → both 8 0)

/-- R223, R187, R197. -/
def Obligations.Transfers : Prop :=
  ∀ (e : EngineId) (y : Syl) (s : State), s.ready e = true → y.alone = true →
    let w := widthOf e.ty
    let pc := (s.core e).pc
    let wst := s.sysReg e.ty e.num 2
    let n := windowPositions e.ty
    let res := bitsAt wst 4 4
    let rel := pcOf e.ty (wrapInt w ((pc : Int) + 4 * signedOf 19 (y.ops % 2 ^ 19)))
    let t := s.vreg e y.ra
    let call := fun (a : Nat) (x : Engine) => { x with
      pc := a, sys := sysPut e.ty (sysPut e.ty x.sys 1 (s.nextPc e)) 2 ((wst % n + 1) % n + 16 * (res + 1)) }
    let back := fun (a : Nat) (x : Engine) => { x with
      pc := pcOf e.ty a, sys := sysPut e.ty x.sys 2 ((wst % n + n - 1) % n + 16 * (res - 1)) }
    let full := if e.ty = 3 then 6 else 2
    let plain := y.rd = 0 ∧ y.rb = 0 ∧ y.fn = 0
    let quiet := trapActive e.ty (s.core e).sys = false
    Runs (.branch e y) e s (fun x => { x with pc := rel }) ∧
    (res < full → Runs (.call e y) e s (call rel)) ∧
    (full ≤ res → quiet → Traps (.call e y) e s 4 0 0 pc (s.nextPc e)) ∧
    (plain → t % 4 = 0 → Runs (.jr e y) e s (fun x => { x with pc := pcOf e.ty t })) ∧
    (plain → t % 4 = 0 → res < full → Runs (.callr e y) e s (call (pcOf e.ty t))) ∧
    (plain → t % 4 ≠ 0 → quiet → Traps (.jr e y) e s 6 t 0 pc (s.nextPc e)) ∧
    (plain → full ≤ res → quiet → Traps (.callr e y) e s 4 0 0 pc (s.nextPc e)) ∧
    (y.ops = 0 → res ≠ 1 → Runs (.ret e y) e s (back (s.sysReg e.ty e.num 1))) ∧
    (y.ops = 0 → res = 1 → quiet → Traps (.ret e y) e s 5 0 0 pc (s.nextPc e)) ∧
    (y.ops = 0 → trapActive e.ty (s.core e).sys = true → res ≠ 1 →
      ∃ u, exec (.resume e y) s = .next u ∧
        u = { s with engines := u.engines, arrayLink := u.arrayLink, regs := u.regs, pins := u.pins } ∧ RegsBut [pcKey e] s u ∧
        (u.core e).pc = pcOf e.ty (s.sysReg e.ty e.num 5) ∧
        u.sysReg e.ty e.num 0 = setBits (s.sysReg e.ty e.num 7) 5 1 0 ∧
        u.sysReg e.ty e.num 2 = (wst % n + n - 1) % n + 16 * (res - 1) ∧
        (u.core e).phys = (s.core e).phys ∧
        (u.core e).loads = (if bitOf (s.sysReg e.ty e.num 0xA) (w - 1) then [(s.sysReg e.ty e.num 0xA % 256, s.sysReg e.ty e.num 0xB)] else []) ∧
        (e.ty = 3 → (u.link (engKey e.ty e.num)).g = bitOf (s.sysReg e.ty e.num 7) 5))

/-- R224, R200, R196: trap entry by instruction; R199 with R264: the double trap. -/
def Obligations.SoftwareTraps : Prop :=
  (∀ (e : EngineId) (y : Syl) (s : State), s.ready e = true → y.alone = true → trapActive e.ty (s.core e).sys = false →
    let pc := (s.core e).pc
    let next := s.nextPc e
    (y.rd = 0 → y.ra = 0 → Traps (.trap e y) e s 0x0A (y.ops % 2 ^ 9) 0 next (nextBundle s e.ty e.num next)) ∧
    (y.rd = 0 → y.ra = 0 → (s.core e).brkHalt = false → Traps (.brk e y) e s 0x0B (y.ops % 2 ^ 9) 0 pc next) ∧
    (2 ≤ y.fn → Traps (.addReg e y) e s 3 (sylWord 0x00 y) 0 pc next)) ∧
  (∀ (e : EngineId) (y : Syl) (s : State), s.ready e = true → y.alone = true → e.ty = 5 → trapActive e.ty (s.core e).sys = true →
    (y.rd = 0 → y.ra = 0 → ∃ t, exec (.trap e y) s = .next t ∧ t.engState e.ty e.num = 3 ∧
      t.get (R.ENG_STATE_FAULT_KIND.on e.ty) e.num = 3 ∧ (t.core e).phys = (s.core e).phys ∧ (t.core e).pc = (s.core e).pc) ∧
    (y.fn < 4 → s.vreg e y.rb = 0 → ∃ t, exec (.div e y) s = .next t ∧ t.engState e.ty e.num = 3 ∧
      t.get (R.ENG_STATE_FAULT_KIND.on e.ty) e.num = 3 ∧ (t.core e).phys = (s.core e).phys ∧ (t.core e).pc = (s.core e).pc))

/-- R184 with Table 08-5, for every Casement instruction. -/
def Obligations.ConditionFalse : Prop :=
  ∀ (i : Instr) (e : EngineId) (op : Nat) (y : Syl) (s : State), i.syllable = some (e, op, y) → i.wf = true → s.ready e = true →
    y.stop = true → op ≠ 0x1F →
    let f := s.sysReg e.ty e.num 0
    let n := bitOf f 0
    let z := bitOf f 1
    let c := bitOf f 2
    let v := bitOf f 3
    let last := if e.ty = 3 then (s.link (engKey e.ty e.num)).g else bitOf f 4
    let tests := [true, z, !z, c, !c, n, !n, v, !v, c && !z, !c || z, n == v, n != v, !z && n == v, z || n != v, last == y.gx]
    tests.getD y.cond false = false →
    reservedSyl e.ty (s.sysReg e.ty e.num 0x13)
      ⟨bitsAt (s.sysReg e.ty e.num 2) 4 4, trapActive e.ty (s.core e).sys, s.vreg e y.ra⟩ (sylWord op y) = false →
    Runs i e s id

/-- R178 and R181: collection, and two syllables that act in parallel. -/
def Obligations.BundleCollects : Prop :=
  (∀ (i : Instr) (e : EngineId) (op : Nat) (y : Syl) (s : State), i.syllable = some (e, op, y) → i.wf = true → s.ready e = true →
    y.stop = false →
    ∃ t, exec i s = .next t ∧ t = { s with engines := t.engines, pins := t.pins } ∧
      t.core e = { s.core e with bundle := [sylWord op y] } ∧ ∀ k, k ≠ engKey e.ty e.num → t.eng k = s.eng k) ∧
  (∀ (e : EngineId) (y1 y2 : Syl) (s : State), s.ready e = true → e.ty = 3 → y1.ok = true → y1.stop = false → y1.cond = 0 → y1.gx = false →
    y2.alone = true → y2.fn = 0 → (y1.rd ≠ y2.rd ∨ y1.rd = 0) → fetchable 3 e.num ((s.core e).pc % 2 ^ 32 + 4) = true →
    (s.core e).pc % 8 = 0 → (s.core e).pc < 131072 →
    ∃ t u, exec (.addi e y1) s = .next t ∧ exec (.addReg e y2) t = .next u ∧ OnlyEngine e s u ∧
      u.core e = { s.core e with
        phys := physPut (physPut (s.core e).phys (s.vphys e y1.rd) ((s.vreg e y1.ra + wrapInt 32 (signedOf 9 y1.imm9)) % 2 ^ 32))
          (s.vphys e y2.rd) ((s.vreg e y2.ra + s.vreg e y2.rb) % 2 ^ 32)
        pc := pcOf 3 ((s.core e).pc + 8), cyc := (u.core e).cyc })

/-- R225 over Table 08-9. -/
def Obligations.SystemRegisters : Prop :=
  ∀ (e : EngineId) (y : Syl) (s : State), s.ready e = true → y.alone = true →
    let sel := y.ops % 2 ^ 9
    let link := s.link (engKey e.ty e.num)
    let old := s.sysReg e.ty e.num sel
    let m := sysMask e.ty sel
    let new := (old &&& (0xFFFFFFFF ^^^ m)) ||| (s.vreg e y.ra &&& m)
    (y.ra = 0 → selValid e.ty sel = true →
      (sel = 0 → Writes (.mfsr e y) e s y.rd (s.flgOf e) []) ∧ (sel = 0x0C → Writes (.mfsr e y) e s y.rd (s.ipend e.ty e.num) []) ∧
      (sel = 0x30 → Writes (.mfsr e y) e s y.rd link.tally []) ∧ (sel = 0x31 → Writes (.mfsr e y) e s y.rd link.rcnt []) ∧
      (sel ∉ [0, 0x0C, 0x0E, 0x0F, 0x30, 0x31] → Writes (.mfsr e y) e s y.rd old []) ∧
      (sel = 0x0E → Writes (.mfsr e y) e s y.rd ((s.core e).cyc % 2 ^ widthOf e.ty) []) ∧
      (sel = 0x0F → Writes (.mfsr e y) e s y.rd ((s.core e).cyc % 2 ^ 48 / 2 ^ widthOf e.ty) [])) ∧
    (y.rd = 0 → selWritable e.ty sel = true → sel ≠ 0 → sel ≠ 2 → sel ≠ 0x13 →
      Runs (.mtsr e y) e s (fun x => { x with sys := sysPut e.ty x.sys sel new })) ∧
    (y.rd = 0 → sel = 0 → ∃ t, exec (.mtsr e y) s = .next t ∧ t.sysReg e.ty e.num 0 = new ∧
      (e.ty = 3 → (t.link (engKey e.ty e.num)).g = bitOf (s.vreg e y.ra) 5) ∧ (t.core e).phys = (s.core e).phys ∧
      t = { s with engines := t.engines, arrayLink := t.arrayLink, regs := t.regs, pins := t.pins } ∧ RegsBut [pcKey e] s t)

/-- R188 in C32. -/
def Obligations.WindowMoves : Prop :=
  ∀ (e : EngineId) (y : Syl) (s : State), s.ready e = true → y.alone = true → y.ops = 0 → e.ty = 3 → s.sysReg 3 e.num 3 % 8 = 0 →
    let wst := s.sysReg 3 e.num 2
    let res := bitsAt wst 4 4
    let wsp := s.sysReg 3 e.num 3
    let old := (wst % 8 + 17 - res) % 8
    (res ≠ 1 → 64 ≤ wsp → wsp ≤ 65536 →
      Stores (.wspill e y) e s (wsp - 64) ((List.range 16).flatMap (fun k => leBytes 4 (tblGet 0 (s.core e).phys (8 + 16 * old + k))))
        (fun x => { x with sys := sysPut 3 (sysPut 3 x.sys 3 (wsp - 64)) 2 (wst % 8 + 16 * (res - 1)) })) ∧
    (res < (if trapActive 3 (s.core e).sys then 7 else 6) → wsp + 64 ≤ 65536 → s.dataClean e wsp 64 = true →
      Runs (.wfill e y) e s (fun x => { x with
        phys := physPuts x.phys ((List.range 16).map (fun k => (8 + 16 * ((old + 7) % 8) + k, s.data e (wsp + 4 * k) 4)))
        sys := sysPut 3 (sysPut 3 x.sys 3 (wsp + 64)) 2 (wst % 8 + 16 * (res + 1)) }))

/-- R226 to R228. -/
def Obligations.WaitsAndBarriers : Prop :=
  ∀ (e : EngineId) (y : Syl) (s : State), s.ready e = true → y.alone = true → y.ops = 0 →
    let wakes := s.ipend e.ty e.num &&& s.sysReg e.ty e.num 0x0D ≠ 0
    (wakes → Runs (.wfi e y) e s id) ∧
    (¬wakes → (s.link (engKey e.ty e.num)).taskEnd = none → Waits (.wfi e y) e true s) ∧
    Runs (.sync e y) e s id ∧
    (e.ty = 3 → bitOf (s.sysReg 3 e.num 0x20) 15 = false → Runs (.fbar e y) e s id)

/-- R234 to R236. -/
def Obligations.ArrayInstructions : Prop :=
  ∀ (e : EngineId) (y : Syl) (s : State), s.ready e = true → y.alone = true → e.ty = 3 →
    let link := s.link (engKey e.ty e.num)
    let passes := fun (i : Instr) (op : BitVec 64) => ∀ (b : Nat), s.drivenGang e.num = some b → s.queuesOpen b = true →
      ∃ t, exec i s = .next t ∧
        t = { s with engines := t.engines, macroFlight := t.macroFlight, regs := t.regs, pins := t.pins } ∧ RegsBut [pcKey e] s t ∧
        t.core e = { s.core e with pc := s.nextPc e, cyc := (t.core e).cyc } ∧
        tblGet [] t.macroFlight b = tblGet [] s.macroFlight b ++ [(op, s.get (R.ENG_TASK_TSN.on 3) e.num)] ∧
        (∀ k, k ≠ b → tblGet [] t.macroFlight k = tblGet [] s.macroFlight k)
    (y.rd = 0 → y.rb = 0 → y.fn = 0 → y.ra % 2 = 0 → passes (.aissue e y) (BitVec.ofNat 64 (s.vpair e y.ra))) ∧
    (y.ops = 0 → passes (.atend e y) (BitVec.ofNat 64 opTaskEnd)) ∧
    (y.ops = 0 → ∀ (b : Nat), s.drivenGang e.num = some b → s.queuesOpen b = false → Waits (.atend e y) e false s) ∧
    (y.ops = 0 → s.drivenGang e.num = none → trapActive 3 (s.core e).sys = false →
      Traps (.atend e y) e s 7 0 rspRefused (s.core e).pc (s.nextPc e)) ∧
    (y.rd = 0 → y.rb = 0 → y.fn = 0 → s.vreg e y.ra ≤ link.rcnt → Runs (.await e y) e s id) ∧
    (y.rd = 0 → y.rb = 0 → y.fn = 0 → link.rcnt < s.vreg e y.ra → Waits (.await e y) e false s) ∧
    (y.ra = 0 → y.rb = 0 → y.fn = 0 → Writes (.atally e y) e s y.rd link.tally [])

/-- R237, R238. -/
def Obligations.RowPortAndDmaInstructions : Prop :=
  ∀ (e : EngineId) (y : Syl) (s : State), s.ready e = true → y.alone = true →
    let x := s.core e
    let cmd := s.vreg e y.ra
    let quad := bitsAt cmd 20 2
    let p := s.port e.num
    let idle := ((List.range 4).filter (fun q => y.fn == 0 || bitOf y.fn q)).all
      (fun q => tblGet [] p.queue q == [] && (tblGet none p.run q).isNone)
    let a := 3 * cmd
    let stat := x.dmaDone + x.dmaQueue.length * 2 ^ 12 + bit x.dmaErr * 2 ^ 16
    (e.ty = 4 → y.rd = 0 → y.fn = 0 → (tblGet [] p.queue quad).length < 4 →
      ∃ t, exec (.rowcmd e y) s = .next t ∧
        t = { s with engines := t.engines, rowPorts := t.rowPorts, regs := t.regs, pins := t.pins } ∧ RegsBut [pcKey e] s t ∧
        t.core e = { x with pc := s.nextPc e, cyc := (t.core e).cyc } ∧
        tblGet [] (t.port e.num).queue quad = tblGet [] p.queue quad ++ [⟨cmd, s.vreg e y.rb, 0, []⟩] ∧
        (∀ q, q ≠ quad → tblGet [] (t.port e.num).queue q = tblGet [] p.queue q) ∧
        (∀ k, k ≠ e.num → t.port k = s.port k)) ∧
    (e.ty = 4 → y.rd = 0 → y.fn = 0 → 4 ≤ (tblGet [] p.queue quad).length → Waits (.rowcmd e y) e true s) ∧
    (e.ty = 4 → y.rd = 0 → y.ra = 0 → y.rb = 0 → idle = true → Runs (.rowwait e y) e s id) ∧
    (e.ty = 4 → y.rd = 0 → y.ra = 0 → y.rb = 0 → idle = false → Waits (.rowwait e y) e false s) ∧
    (e.ty ≠ 3 → y.rb = 0 → y.fn = 0 → a + 18 ≤ 65536 → s.dataClean e a 18 = true → x.dmaQueue.length < 8 →
      Runs (.dmaQueue e y) e s (fun x => { x with
        phys := physPut x.phys (s.vphys e y.rd) x.dmaNext
        dmaQueue := x.dmaQueue ++ [⟨x.dmaNext, (List.range 6).map (fun k => s.data e (a + 3 * k) 3)⟩]
        dmaNext := (x.dmaNext + 1) % 4096 })) ∧
    (e.ty ≠ 3 → y.rd = 0 → y.rb = 0 → y.fn = 0 → (x.dmaDone + 4096 - cmd % 4096) % 4096 < 2048 → Runs (.dmawait e y) e s id) ∧
    (e.ty ≠ 3 → y.rd = 0 → y.rb = 0 → y.fn = 0 → 2048 ≤ (x.dmaDone + 4096 - cmd % 4096) % 4096 → Waits (.dmawait e y) e false s) ∧
    (e.ty ≠ 3 → y.ra = 0 → y.rb = 0 → y.fn < 2 →
      Runs (.dmastat e y) e s (fun x => { x with
        phys := physPut x.phys (s.vphys e y.rd) stat, dmaErr := if y.fn = 1 then false else x.dmaErr }))

/-- R219, R194. -/
def Obligations.FarAccesses : Prop :=
  ∀ (e : EngineId) (y : Syl) (s : State), s.ready e = true → y.alone = true → e.ty = 3 → y.ra % 2 = 0 → y.rb = 0 → y.fn = 0 →
    let k := engKey e.ty e.num
    let a := s.vreg e y.ra + 2 ^ 32 * (s.vreg e (y.ra + 1) % 2 ^ 8)
    let box := (engInit e.ty e.num).src * 32 + (engInit e.ty e.num).init
    let sends := fun (i : Instr) (op : Nat) (q : NetReq) => ∃ t, exec i s = .next t ∧
      OnlyEngine e s { s with engines := t.engines } ∧
      t.core e = { s.core e with far := some ⟨[sylWord op y], false, (s.core e).sys, s.link k, []⟩, cyc := (t.core e).cyc } ∧
      t = { issueRequest (engInit e.ty e.num).src (engInit e.ty e.num).init q y.stamp { s with engines := t.engines } with pins := t.pins }
    (a % 4 = 0 → sends (.ldf e y) 0x50 (farReq false a 4 0) ∧ sends (.stf e y) 0x51 (farReq true a 4 (s.vreg e y.rd))) ∧
    (a % 4 ≠ 0 → trapActive e.ty (s.core e).sys = false →
      Traps (.ldf e y) e s 6 (a % 2 ^ 32) 0 (s.core e).pc (s.nextPc e) ∧ Traps (.stf e y) e s 6 (a % 2 ^ 32) 0 (s.core e).pc (s.nextPc e)) ∧
    (∀ (r : Answer) (q : NetReq) (rest : List (Answer × NetReq)) (stamp : Nat), a % 4 = 0 → s.engState e.ty e.num = 1 →
      let w := sylWord 0x50 y
      let u := { s.setEng k { s.core e with far := some ⟨[w], false, (s.core e).sys, s.link k, []⟩ } with inbox := tblSet [] s.inbox box ((r, q) :: rest) }
      ∃ t, exec (.farAccessResponse e stamp) u = .next t ∧ (t.core e).far = none ∧ tblGet [] t.inbox box = rest ∧
        (r.code = rspOk → (t.core e).pc = s.nextPc e ∧ t.vreg e y.rd = (if y.rd = 0 then 0 else leNum ((r.data.drop (a % 64)).take 4))) ∧
        (r.code ≠ rspOk → trapActive e.ty (s.core e).sys = false →
          (t.core e).pc = pcOf e.ty (s.sysReg e.ty e.num 4 + 64 * 7) ∧ t.sysReg e.ty e.num 8 = r.code * 2 ^ 16 + 7))

/-- R220, R201, R202, on the local sides. -/
def Obligations.StringInstructions : Prop :=
  ∀ (e : EngineId) (y : Syl) (s : State), s.ready e = true → y.alone = true → e.ty = 3 →
    let rps := s.sysReg 3 e.num 0x13
    let n : Nat := 2 ^ bitsAt rps 16 2
    let src := s.sysReg 3 e.num 0x11
    let dst := s.sysReg 3 e.num 0x12
    let step : Nat → Nat := fun v => if bitOf rps 2 then wrapInt 32 ((v : Int) - n) else (v + n) % 2 ^ 32
    let clean := fun (a : Nat) => a % n = 0 ∧ a + n ≤ 65536 ∧ s.dataClean e a n = true
    let val := s.vreg e y.rb % 2 ^ (8 * n)
    let both := fun (t : Tbl Nat) => sysPut 3 (sysPut 3 t 0x11 (step src)) 0x12 (step dst)
    let cmp := fun (x z : Nat) => (aluSub 32 x z false).2
    let hit := fun (x z : Nat) => bitsAt rps 4 4 != 0 && condHolds (bitsAt rps 4 4) false
      ((cmp x z).foldl (fun a f => setBits a f.1 1 (bit f.2)) (s.sysReg 3 e.num 0)) false
    rps % 4 = 0 → bitsAt rps 16 2 ≠ 3 →
    (y.rd = 0 → y.ra = 0 → y.fn = 0 → clean dst →
      Stores (.efill e y) e s dst (leBytes n val) (fun x => { x with sys := sysPut 3 x.sys 0x12 (step dst) })) ∧
    (y.ops = 0 → clean src → clean dst →
      Stores (.ecopy e y) e s dst (leBytes n (s.data e src n)) (fun x => { x with sys := both x.sys })) ∧
    (y.ops = 0 → clean src → clean dst →
      let c := cmp (s.data e src n) (s.data e dst n)
      let r := setBits rps 3 1 (bit (hit (s.data e src n) (s.data e dst n)))
      Runs (.ecomp e y) e s (fun x => { x with sys := flagsSet 3 (sysPut 3 (both x.sys) 0x13 r) c })) ∧
    (y.rd = 0 → y.ra = 0 → y.fn = 0 → clean dst →
      let c := cmp (s.data e dst n) val
      let r := setBits rps 3 1 (bit (hit (s.data e dst n) val))
      Runs (.eseek e y) e s (fun x => { x with sys := flagsSet 3 (sysPut 3 (sysPut 3 x.sys 0x12 (step dst)) 0x13 r) c })) ∧
    (y.ops = 0 → ∃ t, exec (.repMark e ⟨false, 0, false, 0, y.stamp⟩) s = .next t ∧ (t.core e).bundle = [sylWord 0x1F ⟨false, 0, false, 0, y.stamp⟩] ∧
      (∀ k, k ≠ engKey e.ty e.num → t.eng k = s.eng k) ∧ t = { s with engines := t.engines, pins := t.pins }) ∧
    (∀ (stamp : Nat), s.sysReg 3 e.num 0x10 ≥ 2 → clean dst →
      let w := [sylWord 0x1F ⟨false, 0, false, 0, 0⟩, sylWord 0x59 ⟨true, 0, false, 16 * y.rb, 0⟩]
      let u := s.setEng (engKey e.ty e.num) { s.core e with rep := some w }
      ∃ t, exec (.stringIteration e stamp) u = .next t ∧ (t.core e).pc = (s.core e).pc ∧ (t.core e).rep = some w ∧
        t.sysReg 3 e.num 0x10 = s.sysReg 3 e.num 0x10 - 1 ∧ t.sysReg 3 e.num 0x12 = step dst ∧
        (∀ b, (t.mem (engKey e.ty e.num)).byte true b =
          if dst ≤ b ∧ b < dst + n then (leBytes n val).getD (b - dst) 0 else (s.mem (engKey e.ty e.num)).byte true b))

/-- R191, R193, R246, R249. -/
def Obligations.ResultsLand : Prop :=
  (∀ (e : EngineId) (s : State), engineOk e = true →
    ∃ t, exec (.loadWriteback e) s = .next t ∧ OnlyEngine e s t ∧ t.regs = s.regs ∧
      t.core e = { s.core e with phys := physPuts (s.core e).phys (s.core e).due, due := [] }) ∧
  (∀ (e : EngineId) (s : State) (r : LateRes) (l : List LateRes), engineOk e = true → (s.core e).late = r :: l →
    (∀ q, q ∈ l → max (s.core e).cyc r.landAt < q.landAt) →
    ∃ t, exec (.resultLand e) s = .next t ∧ OnlyEngine e s t ∧ t.regs = s.regs ∧
      (t.core e).late = l ∧ (t.core e).cyc = max (s.core e).cyc r.landAt ∧ (t.core e).phys = physPuts (s.core e).phys r.regs ∧
      t.core e = { s.core e with late := l, cyc := (t.core e).cyc, phys := (t.core e).phys, sys := (t.core e).sys } ∧
      (∀ k, k ∉ [0, 0x20, 0x21, 0x22] → t.sysReg e.ty e.num k = s.sysReg e.ty e.num k) ∧
      t.sysReg e.ty e.num 0 = (match r.nzcv with
        | some f => setBits (s.sysReg e.ty e.num 0) 0 4 f
        | none => s.sysReg e.ty e.num 0) ∧
      (r.fpFlags = 0 → t.sysReg e.ty e.num 0x20 = s.sysReg e.ty e.num 0x20) ∧
      (let fcsr := s.sysReg e.ty e.num 0x20
       let trap := r.fpFlags &&& bitsAt fcsr 9 5 ≠ 0 ∧ bitOf fcsr 15 = false
       (trap → bitOf (t.sysReg e.ty e.num 0x20) 15 = true ∧ t.sysReg e.ty e.num 0x21 = r.pc ∧ t.sysReg e.ty e.num 0x22 = r.syl ∧
         bitsAt (t.sysReg e.ty e.num 0x20) 16 5 = r.fpFlags % 32) ∧
       (¬trap → t.sysReg e.ty e.num 0x21 = s.sysReg e.ty e.num 0x21 ∧ t.sysReg e.ty e.num 0x22 = s.sysReg e.ty e.num 0x22 ∧
         bitOf (t.sysReg e.ty e.num 0x20) 15 = bitOf fcsr 15) ∧
       bitsAt (t.sysReg e.ty e.num 0x20) 4 5 = bitsAt fcsr 4 5 ||| r.fpFlags % 32))

/-- R195, R196. -/
def Obligations.BoundaryTraps : Prop :=
  ∀ (e : EngineId) (s : State), engineOk e = true → canIssue s e.ty e.num = true → (s.core e).bundle = [] → (s.core e).loads = [] →
    (s.core e).due = [] → (s.core e).late = [] → (s.core e).stopReq = false → (s.core e).haltReq = 0 → (s.core e).stepReq = 0 →
    trapActive e.ty (s.core e).sys = false →
    let w := widthOf e.ty
    let link := s.link (engKey e.ty e.num)
    let wst := s.sysReg e.ty e.num 2
    let n := windowPositions e.ty
    let enters := fun (cause tval : Nat) (t : State) =>
      (t.core e).pc = pcOf e.ty (s.sysReg e.ty e.num 4 + 64 * cause) ∧ t.sysReg e.ty e.num 5 = (s.core e).pc ∧
      t.sysReg e.ty e.num 7 = s.flgOf e ∧ t.sysReg e.ty e.num 8 = 2 ^ (w - 1) + cause ∧ t.sysReg e.ty e.num 9 = tval ∧
      bitOf (t.sysReg e.ty e.num 0) 8 = false ∧ trapActive e.ty (t.core e).sys = true ∧
      t.sysReg e.ty e.num 2 = (wst % n + 1) % n + 16 * (bitsAt wst 4 4 + 1) ∧
      t.core e = { s.core e with pc := (t.core e).pc, sys := (t.core e).sys, cyc := (t.core e).cyc } ∧
      (∀ k, k ∉ [0, 2, 5, 6, 7, 8, 9, 0xA] → t.sysReg e.ty e.num k = s.sysReg e.ty e.num k) ∧
      (∀ k, k ≠ engKey e.ty e.num → t.eng k = s.eng k)
    (∀ (k : Nat), e.ty ≠ 3 ∨ link.taskEnd = none → (e.ty = 3 → bitOf (s.sysReg e.ty e.num 0x20) 15 = false) →
      bitOf (s.sysReg e.ty e.num 0) 8 = true → s.irqLine e.ty e.num = some k →
      ∃ t, exec (.trapEntry e) s = .next t ∧ enters (16 + k) 0 t ∧ t = { s with engines := t.engines, pins := t.pins }) ∧
    (∀ (tsn : Nat), e.ty = 3 → link.taskEnd = some tsn →
      ∃ t, exec (.trapEntry e) s = .next t ∧ enters 13 tsn t ∧ (t.link (engKey e.ty e.num)) = { link with taskEnd := none } ∧
        (∀ k, k ≠ engKey e.ty e.num → t.link k = s.link k) ∧
        t = { s with engines := t.engines, arrayLink := t.arrayLink, pins := t.pins })

/-- R263, R260, R268. -/
def Obligations.EngineStartsAndStops : Prop :=
  (∀ (i : Initiator) (e : EngineId) (s : State), engineOk e = true → s.pageOpen e.ty e.num = true →
    (s.mem (engKey e.ty e.num)).initRunning = false → s.engState e.ty e.num ≠ 3 → s.flag (R.HDR_CTL_ENABLE.on e.ty) e.num = false →
    ∃ t, exec (.engineEnable i e) s = .next t ∧ t.answer = [⟨rspOk, []⟩] ∧ t.engState e.ty e.num = 1 ∧
      t.flag (R.HDR_CTL_ENABLE.on e.ty) e.num = true ∧ Raises e.ty e.num 1 s t ∧
      t.get (R.ENG_WDG_COUNT_CYCLES.on e.ty) e.num = s.get (R.ENG_WDG_CFG_PERIOD.on e.ty) e.num * 1024 % 2 ^ (R.ENG_WDG_COUNT_CYCLES).w ∧
      t.core e = { Engine.idle with
        pc := pcOf e.ty (s.get (R.ENG_START_ADDR.on e.ty) e.num), brkHalt := (s.core e).brkHalt
        wdgFull := s.get (R.ENG_WDG_CFG_PERIOD.on e.ty) e.num * 1024 } ∧
      t.link (engKey e.ty e.num) = ArrayLink.idle ∧
      t = { s with engines := t.engines, arrayLink := t.arrayLink, regs := t.regs, answer := t.answer, pins := t.pins } ∧
      (∀ k, k ≠ engKey e.ty e.num → t.eng k = s.eng k ∧ t.link k = s.link k) ∧
      RegsBut [(R.HDR_CTL_ENABLE.on e.ty).key e.num, (R.ENG_STATE_STATE.on e.ty).key e.num, (R.ENG_WDG_COUNT_CYCLES.on e.ty).key e.num,
        evtKey e.ty e.num] s t) ∧
  (∀ (i : Initiator) (e : EngineId) (s : State), engineOk e = true → s.pageOpen e.ty e.num = true →
    (s.core e).far = none → (s.core e).bundle = [] → (s.core e).held = false → s.engState e.ty e.num = 1 →
    ∃ t, exec (.engineDisable i e) s = .next t ∧ t.answer = [⟨rspOk, []⟩] ∧ t.engState e.ty e.num = 0 ∧
      t.flag (R.HDR_CTL_ENABLE.on e.ty) e.num = false ∧
      t.core e = { s.core e with stopReq := false, haltReq := 0, stepReq := 0, rep := none } ∧
      t = { s with engines := t.engines, regs := t.regs, answer := t.answer, freeCount := t.freeCount, pins := t.pins } ∧
      (∀ k, k ≠ engKey e.ty e.num → t.eng k = s.eng k) ∧ WdgKept e s t ∧
      RegsBut [(R.HDR_CTL_ENABLE.on e.ty).key e.num, (R.ENG_STATE_STATE.on e.ty).key e.num, wdgKey e] s t) ∧
  (∀ (e : EngineId) (s : State), engineOk e = true → (s.mem (engKey e.ty e.num)).initRunning = true → e ≠ ⟨5, 0⟩ →
    ∃ t, exec (.engineMemInitDone e) s = .next t ∧ t.mem (engKey e.ty e.num) = EngMem.idle ∧ Raises e.ty e.num 0x100 s t ∧
      t = { s with engMem := t.engMem, regs := t.regs, pins := t.pins } ∧ (∀ k, k ≠ engKey e.ty e.num → t.mem k = s.mem k) ∧
      RegsBut [evtKey e.ty e.num] s t) ∧
  (∀ (s : State), (s.mem (engKey 5 0)).initRunning = true → s.flag (R.HDR_CTL_ENABLE.on 5) 0 = true →
    ∃ t, exec (.engineMemInitDone ⟨5, 0⟩) s = .next t ∧ t.mem (engKey 5 0) = EngMem.idle ∧ t.engState 5 0 = 1 ∧ t.bootActive = true ∧
      t.boot = BootFlow.idle ∧ (t.core ⟨5, 0⟩).pc = pcOf 5 (s.get (R.ENG_START_ADDR.on 5) 0) ∧ Raises 5 0 0x101 s t)

/-- R268, R262, R259, R265. -/
def Obligations.EngineWatchdogAndChecks : Prop :=
  (∀ (i : Initiator) (e : EngineId) (v : Word) (s : State), engineOk e = true → s.pageOpen e.ty e.num = true →
    (v = 0xC35A → ∃ t, exec (.wdgKick i e v) s = .next t ∧ t.answer = [⟨rspOk, []⟩] ∧
      t.get (R.ENG_WDG_COUNT_CYCLES.on e.ty) e.num = s.get (R.ENG_WDG_CFG_PERIOD.on e.ty) e.num * 1024 % 2 ^ (R.ENG_WDG_COUNT_CYCLES).w ∧
      t.core e = { s.core e with wdgFull := s.get (R.ENG_WDG_CFG_PERIOD.on e.ty) e.num * 1024 } ∧
      t = { s with engines := t.engines, regs := t.regs, answer := t.answer, pins := t.pins } ∧
      (∀ k, k ≠ engKey e.ty e.num → t.eng k = s.eng k) ∧ RegsBut [(R.ENG_WDG_COUNT_CYCLES.on e.ty).key e.num] s t) ∧
    (v ≠ 0xC35A → s.get (R.HDR_ERR_CODE_CODE.on e.ty) e.num = 0 → ∃ t, exec (.wdgKick i e v) s = .next t ∧ t.answer = [⟨rspOk, []⟩] ∧
      t.get (R.HDR_ERR_CODE_CODE.on e.ty) e.num = 0x0101 ∧ t.get (R.HDR_ERR_CODE_OFFSET.on e.ty) e.num = 0x050 ∧
      OnlyRegs [(R.HDR_ERR_CODE_CODE.on e.ty).key e.num, (R.HDR_ERR_COUNT.on e.ty).key e.num] s t)) ∧
  (∀ (e : EngineId) (s : State), engineOk e = true → s.flag (R.ENG_WDG_CFG_EN.on e.ty) e.num = true → s.engState e.ty e.num = 1 →
    let half := (s.core e).wdgFull / 2
    half < s.get (R.ENG_WDG_COUNT_CYCLES.on e.ty) e.num →
    ∃ t, exec (.wdgWarn e) s = .next t ∧ t.get (R.ENG_WDG_COUNT_CYCLES.on e.ty) e.num = half ∧ Raises e.ty e.num 2 s t ∧
      t.getReg e.ty e.num 0x05C = s.getReg e.ty e.num 0x05C ||| word 0x20 ∧
      OnlyRegs [(R.ENG_WDG_COUNT_CYCLES.on e.ty).key e.num, regKey e.ty e.num 0x05C, evtKey e.ty e.num] s t ∧ t.answer = s.answer) ∧
  (∀ (e : EngineId) (s : State), engineOk e = true → s.engState e.ty e.num = 1 →
    let stopped := fun (kind evt : Nat) (t : State) =>
      t.engState e.ty e.num = 3 ∧ t.get (R.ENG_STATE_FAULT_KIND.on e.ty) e.num = kind ∧
      bitOf (t.getReg e.ty e.num 0x10).toNat evt = true ∧ (s.reports ++ [⟨e.ty, e.num, evt, clsUnit⟩]) <+: t.reports ∧
      (t.core e).phys = (s.core e).phys ∧ (t.core e).sys = (s.core e).sys ∧ (t.core e).pc = (s.core e).pc ∧
      (∀ k, k ≠ engKey e.ty e.num → t.eng k = s.eng k)
    (s.flag (R.ENG_WDG_CFG_EN.on e.ty) e.num = true → s.get (R.ENG_WDG_COUNT_CYCLES.on e.ty) e.num ≤ (s.core e).wdgFull / 2 →
      ∃ t, exec (.wdgExpire e) s = .next t ∧ stopped 2 2 t ∧ t.get (R.ENG_WDG_COUNT_CYCLES.on e.ty) e.num = 0) ∧
    (e.ty ≠ 4 → ∃ t, exec (.lockstepMismatch e) s = .next t ∧ stopped 1 3 t)) ∧
  (∀ (e : EngineId) (s : State), engineOk e = true → s.domainOn (pageDomain e.ty e.num) = true →
    let k := engKey e.ty e.num
    let m := s.mem k
    let ri := m.scrubRow % (imemBytes e.ty / 8)
    let rd := m.scrubRow % 8192
    (m.decode false ri = .clean → m.decode true rd = .clean →
      ∃ t, exec (.engineMemScrub e) s = .next t ∧ t.mem k = { m with scrubRow := m.scrubRow + 1 } ∧
        t = { s with engMem := t.engMem, pins := t.pins } ∧ ∀ j, j ≠ k → t.mem j = s.mem j) ∧
    (∀ (sym val : Nat), m.decode false ri = .clean → m.decode true rd = .corrected sym val →
      ∃ t, exec (.engineMemScrub e) s = .next t ∧ (t.mem k).err true rd = 0 ∧ (∀ a, (t.mem k).byte true a = m.byte true a) ∧
        t.get (R.ENG_MEM_CE_COUNT.on e.ty) e.num = min (s.get (R.ENG_MEM_CE_COUNT.on e.ty) e.num + 1) (2 ^ (R.ENG_MEM_CE_COUNT).w - 1) ∧
        Raises e.ty e.num 0x20 s t ∧ (∀ a, a < imemBytes e.ty → (t.mem k).byte false a = m.byte false a) ∧
        t = { s with engMem := t.engMem, regs := t.regs, pins := t.pins } ∧ (∀ j, j ≠ k → t.mem j = s.mem j) ∧
        RegsBut [(R.ENG_MEM_CE_COUNT.on e.ty).key e.num, regKey e.ty e.num 0x064, evtKey e.ty e.num] s t)) ∧
  (∀ (i : Initiator) (e : EngineId) (s : State), engineOk e = true → s.pageOpen e.ty e.num = true → e.ty ≠ 5 →
    ∃ t, exec (.engineTaskRead i e) s = .next t ∧ t.answer = [⟨rspOk, wordBytes (s.getReg e.ty e.num 0x058)⟩] ∧
      t.flag (R.ENG_TASK_CUT.on e.ty) e.num = false ∧ bitsAt (t.getReg e.ty e.num 0x05C).toNat 0 1 = 0 ∧
      (e.ty = 4 → bitsAt (t.getReg e.ty e.num 0x05C).toNat 1 1 = 0) ∧
      OnlyRegs [(R.ENG_TASK_CUT.on e.ty).key e.num, regKey e.ty e.num 0x05C] s t)

/-- R270. -/
def Obligations.EngineDma : Prop :=
  (∀ (e : EngineId) (stamp : Nat) (s : State) (d : DmaXfer) (l : List DmaXfer), engineOk e = true → e.ty ≠ 3 →
    s.domainOn (pageDomain e.ty e.num) = true → (s.core e).dmaQueue = d :: l → (s.core e).dmaRun = none → descBad d = true →
    s.flag (R.ENG_DMA_ERR_V.on e.ty) e.num = false →
    ∃ t, exec (.dmaDescriptorStart e stamp) s = .next t ∧
      t.core e = { s.core e with dmaQueue := l, dmaDone := d.seq, dmaErr := true } ∧ Raises e.ty e.num 0x80 s t ∧
      t.getReg e.ty e.num 0x068 = word (2 ^ 31 + 0xFE * 2 ^ 12 + d.seq) ∧
      t.getReg e.ty e.num 0x05C = s.getReg e.ty e.num 0x05C ||| word (8 + (if bitOf (d.words.getD 0 0) 22 then 4 else 0)) ∧
      t = { s with engines := t.engines, regs := t.regs, pins := t.pins } ∧ (∀ k, k ≠ engKey e.ty e.num → t.eng k = s.eng k) ∧
      RegsBut [evtKey e.ty e.num, regKey e.ty e.num 0x068, regKey e.ty e.num 0x05C] s t) ∧
  (∀ (e : EngineId) (stamp : Nat) (s : State) (d : DmaXfer) (l : List DmaXfer), engineOk e = true → e.ty ≠ 3 →
    s.domainOn (pageDomain e.ty e.num) = true → (s.core e).dmaQueue = d :: l → (s.core e).dmaRun = none → descBad d = false →
    let far := (d.words.getD 2 0 + 2 ^ 24 * (d.words.getD 3 0 % 2 ^ 16)) % 2 ^ 40
    let n := min (d.words.getD 0 0 % 2 ^ 16 + 1) (64 - far % 64)
    let loc := d.words.getD 1 0 % 2 ^ 16
    let out := bitOf (d.words.getD 0 0) 23
    let rows := d.words.getD 4 0 % 2 ^ 12 + 1
    (out = true → s.dataClean e loc (rows * (d.words.getD 0 0 % 2 ^ 16 + 1)) = true) →
    ∃ t, exec (.dmaDescriptorStart e stamp) s = .next t ∧ (∃ r, (t.core e).dmaRun = some r ∧ r.err = none ∧
      r.out.head? = some ({ farReq out far n (if out then s.data e loc n else 0) with dma := true }, loc) ∧ r.out.length ≤ 8 ∧
      t.core e = { s.core e with dmaRun := some r }) ∧ (∀ k, k ≠ engKey e.ty e.num → t.eng k = s.eng k) ∧
      t = { s with engines := t.engines, trlh := t.trlh, inbox := t.inbox, regs := t.regs, pins := t.pins,
                   answer := t.answer }) ∧
  (∀ (e : EngineId) (stamp : Nat) (s : State) (d : DmaXfer) (l : List DmaXfer) (r : DmaRun), engineOk e = true → e.ty ≠ 3 →
    s.domainOn (pageDomain e.ty e.num) = true → (s.core e).dmaQueue = d :: l → (s.core e).dmaRun = some r → r.out = [] →
    r.err = none → d.words.getD 4 0 % 2 ^ 12 + 1 ≤ r.row →
    tblGet [] s.inbox ((engInit e.ty e.num).src * 32 + dmaInit e.ty e.num) = [] →
    ∃ t, exec (.dmaTransferComplete e stamp) s = .next t ∧
      t.core e = { s.core e with dmaQueue := l, dmaRun := none, dmaDone := d.seq } ∧
      t.getReg e.ty e.num 0x05C = s.getReg e.ty e.num 0x05C ||| word (if bitOf (d.words.getD 0 0) 22 then 4 else 0) ∧
      (∀ k, k ≠ engKey e.ty e.num → t.eng k = s.eng k) ∧ RegsBut [regKey e.ty e.num 0x05C] s t)

/-- R272, R274, R502. -/
def Obligations.SpareSash : Prop :=
  (∀ (k : Nat) (s : State), k < 2 → s.flag R.SASH_SPARE_STAT_LOADING (16 + k) = true →
    let n := 16 + k
    let p := s.get R.SASH_SPARE_STAT_PANE n
    let im := 64 * s.get R.SASH_RELOAD_LEN_IMEM_BLOCKS p
    let dm := 64 * s.get R.SASH_RELOAD_LEN_DMEM_BLOCKS p
    let a := s.get R.SASH_RELOAD_HI_ADDR p * 2 ^ 32 + 64 * s.get R.SASH_RELOAD_LO_ADDR p
    let load := fetchBytes (loaderInit k) (s.get R.TRLH_DDR_MAP_MODE (28 + k)) a (im + dm) (s.put R.SASH_SPARE_STAT_LOADING n 0)
    ∃ t, exec (.spareLoadComplete k) s = .next t ∧ t.flag R.SASH_SPARE_STAT_LOADING n = false ∧
      (load.2 = none → t.flag R.SASH_SPARE_STAT_ASSIGNED n = false ∧ bitOf (t.getReg 3 n 0x10).toNat 10 = true ∧
        (p < 16 → bitOf (t.get R.PORT_LOST_PANE_PANES 0) p = true)) ∧
      (∀ b, load.2 = some b → (t.mem (engKey 3 n)).errs = [] ∧
        (∀ x, (t.mem (engKey 3 n)).byte false x = (b.take im).getD x 0) ∧ (∀ x, (t.mem (engKey 3 n)).byte true x = (b.drop im).getD x 0))) ∧
  (∀ (k stamp : Nat) (s : State), k < 2 → s.pageOpen 3 (16 + k) = true →
    ∃ t, exec (.spareRelease k stamp) s = .next t ∧ t.answer = [⟨rspOk, []⟩] ∧
      t = { s with shadows := s.shadows ++ [⟨regKey 3 (16 + k) 0x090, 2, stamp⟩], regs := t.regs, answer := t.answer, pins := t.pins } ∧
      t.getReg 3 (16 + k) 0x090 = s.getReg 3 (16 + k) 0x090 ∧ RegsBut [regKey 3 (16 + k) 0x090] s t) ∧
  (∀ (code stamp : Nat) (s : State), code < 256 → s.pageOpen 0x0B 0 = true → code ≤ 0x91 →
    (∃ t, exec (.lostClear code stamp) s = .next t ∧ t.answer = [⟨rspOk, []⟩] ∧
      t = { s with shadows := s.shadows ++ [⟨regKey 0x0B 0 0x088, word code, stamp⟩], regs := t.regs, answer := t.answer, pins := t.pins } ∧
      t.getReg 0x0B 0 0x088 = s.getReg 0x0B 0 0x088 ∧ RegsBut [regKey 0x0B 0 0x088] s t) ∧
    (∃ t, exec (.lostSet code stamp) s = .next t ∧ t.answer = [⟨rspOk, []⟩] ∧
      t = { s with shadows := s.shadows ++ [⟨regKey 0x0B 0 0x088, word (2 ^ 31 + code), stamp⟩], regs := t.regs, answer := t.answer
                   pins := t.pins } ∧ t.getReg 0x0B 0 0x088 = s.getReg 0x0B 0 0x088 ∧ RegsBut [regKey 0x0B 0 0x088] s t))

/-- R36, R38, R42, R43. -/
def Obligations.RegisterWriteByAccessType : Prop :=
  (∀ (i : Initiator) (ty n stamp : Nat) (v : Word) (s : State), s.pageOpen ty n = true → ty < 0x18 →
    (∃ t, exec (.registerWrite i (pageAddr ty n 0x010) v 15 stamp) s = .next t ∧ t.answered rspOk ∧
      t.getReg ty n 0x010 = s.getReg ty n 0x010 &&& ~~~v ∧ OnlyRegs [evtKey ty n] s t) ∧
    (∃ t, exec (.registerWrite i (pageAddr ty n 0x014) v 15 stamp) s = .next t ∧ t.answered rspOk ∧
      t.getReg ty n 0x014 = v &&& word (evtMask ty) ∧ OnlyRegs [regKey ty n 0x014] s t)) ∧
  (∀ (i : Initiator) (ty n off stamp : Nat) (v : Word) (s : State) (r : RegInfo), s.pageOpen ty n = true → ty < 0x18 →
    0x40 ≤ off → off < 0x400 → off % 4 = 0 → findReg (regsOf ty) off = some r → r.safe = 0 → r.locked = false →
    pageBad ⟨i, false, ty, n, off, v, stamp⟩ s = none → pageSpecial ⟨i, false, ty, n, off, v, stamp⟩ s = none →
    s.flag R.TICK_PHASE_PAST_CUTOFF 0 = false →
    ∃ t, exec (.registerWrite i (pageAddr ty n off) v 15 stamp) s = .next t ∧ t.answered rspOk ∧
      (∀ k, k < 32 → bitOf (t.getReg ty n off).toNat k =
        if bitOf r.w1c k && bitOf v.toNat k then false
        else if bitOf r.rw k then bitOf v.toNat k else bitOf (s.getReg ty n off).toNat k) ∧
      t.shadows = s.shadows ++ (if r.tb = 0 then [] else [⟨regKey ty n off, word (v.toNat &&& r.tb), stamp⟩]) ∧
      t = { s with regs := t.regs, shadows := t.shadows, answer := t.answer, pins := t.pins } ∧ RegsBut [regKey ty n off] s t) ∧
  (∀ (i : Initiator) (ty n : Nat) (b : Bool) (s : State), s.pageOpen ty n = true → ty ≠ 0x11 →
    (ty = 3 ∨ ty = 4 ∨ ty = 5 → (s.mem (engKey ty n)).initRunning = false ∧ s.engState ty n < 2 ∧
      s.flag (R.HDR_CTL_ENABLE.on ty) n = (s.engState ty n == 1)) →
    ∃ t, exec (.fence i ty n b) s = .next t ∧ t.answered rspOk ∧ t.flag (R.HDR_CTL_FENCE.on ty) n = b ∧
      t.flag (R.HDR_CTL_ENABLE.on ty) n = s.flag (R.HDR_CTL_ENABLE.on ty) n ∧ OnlyRegs [(R.HDR_CTL_FENCE.on ty).key n] s t) ∧
  (∀ (i : Initiator) (b : Bool) (s : State), s.pageOpen 0x11 0 = true →
    ∃ t, exec (.fence i 0x11 0 b) s = .next t ∧ t.answered rspOk ∧ t.flag (R.HDR_CTL_FENCE.on 0x11) 0 = b ∧
      t.flag (R.HDR_CTL_ENABLE.on 0x11) 0 = s.flag (R.HDR_CTL_ENABLE.on 0x11) 0 ∧
      OnlyRegs ((R.HDR_CTL_FENCE.on 0x11).key 0 :: (List.range 4).map (fun k => (R.GATE_CAN_STAT_SYNC.nth k).key 0) ++
        (List.range 2).map (fun k => (R.GATE_T1S_STAT_MODE.nth k).key 0)) s t) ∧
  (∀ (i : Initiator) (mw : Nat) (s : State), s.pageOpen 0x0B 0 = true → 8000 ≤ mw → mw ≤ 40000 →
    (∀ (it : Itinerary), it ∈ s.porter.current.toList ++ s.porter.staged.toList → ∀ (v : Nat), v < 80 → (it.variant v).powerTotal ≤ mw) →
    ∃ t, exec (.powerCapWrite i true mw) s = .next t ∧ t.answered rspOk ∧ t.get R.PORT_POWER_CAP_CAP_MW 0 = mw ∧
      OnlyRegs [R.PORT_POWER_CAP.key 0] s t) ∧
  (∀ (i : Initiator) (ty n : Nat) (m : Word) (s : State), s.pageOpen ty n = true →
    (s.debugLevel = 2 → ∃ t, exec (.evtForce i ty n m) s = .next t ∧ t.answered rspOk ∧
      t.getReg ty n 0x010 = s.getReg ty n 0x010 ||| (m &&& word (evtMask ty)) ∧ OnlyRegs [evtKey ty n] s t) ∧
    (s.debugLevel ≠ 2 → s.get (R.HDR_ERR_CODE_CODE.on ty) n = 0 → ∃ t, exec (.evtForce i ty n m) s = .next t ∧ t.answered rspAuth ∧
      Latches ty n 0x018 0x0006 t ∧ OnlyRegs (errKeys ty n) s t))

/-- R46. -/
def Obligations.LockedSequence : Prop :=
  (∀ (i : Initiator) (ty n : Nat) (v : Word) (s : State), s.pageOpen ty n = true →
    (v = 0x5EA10000 → s.flag (R.HDR_LOCK_HARD_LOCK.on ty) n = false →
      ∃ t, exec (.lockKeyWrite i ty n v) s = .next t ∧ t.answered rspOk ∧ t.window ty n = some i ∧
        t.flag (R.HDR_LOCK_ARMED.on ty) n = true ∧ t.flag (R.HDR_LOCK_HARD_LOCK.on ty) n = false ∧
        t = { s with unlock := t.unlock, regs := t.regs, answer := t.answer, pins := t.pins } ∧ RegsBut [regKey ty n 0x024] s t ∧
        ∀ k, k ≠ ty * 0x100 + n → tblGet none t.unlock k = tblGet none s.unlock k) ∧
    (v = 1 → ∃ t, exec (.lockKeyWrite i ty n v) s = .next t ∧ t.answered rspOk ∧ t.window ty n = none ∧
        t.flag (R.HDR_LOCK_ARMED.on ty) n = false ∧ t.flag (R.HDR_LOCK_HARD_LOCK.on ty) n = true ∧
        t = { s with unlock := t.unlock, regs := t.regs, answer := t.answer, pins := t.pins } ∧ RegsBut [regKey ty n 0x024] s t) ∧
    (bitsAt v.toNat 16 16 ≠ 0x5EA1 → bitsAt v.toNat 16 16 ≠ 0 → s.get (R.HDR_ERR_CODE_CODE.on ty) n = 0 →
      ∃ t, exec (.lockKeyWrite i ty n v) s = .next t ∧ t.answered rspOk ∧ t.window ty n = none ∧ Latches ty n 0x024 0x0008 t ∧
        t = { s with unlock := t.unlock, regs := t.regs, answer := t.answer, pins := t.pins } ∧
        RegsBut (regKey ty n 0x024 :: errKeys ty n) s t)) ∧
  (∀ (ty n : Nat) (s : State) (i : Initiator), n < pageCount ty → s.window ty n = some i → s.get (R.HDR_ERR_CODE_CODE.on ty) n = 0 →
    ∃ t, exec (.unlockWindowExpire ty n) s = .next t ∧ t.window ty n = none ∧ t.flag (R.HDR_LOCK_ARMED.on ty) n = false ∧
      Latches ty n 0x024 0x0002 t ∧ t = { s with unlock := t.unlock, regs := t.regs, pins := t.pins } ∧
      RegsBut (regKey ty n 0x024 :: errKeys ty n) s t) ∧
  (∀ (i : Initiator) (ty n off stamp : Nat) (v : Word) (s : State) (r : RegInfo), s.pageOpen ty n = true → ty < 0x18 →
    0x40 ≤ off → off < 0x400 → off % 4 = 0 → findReg (regsOf ty) off = some r → r.safe = 0 → r.locked = true → s.window ty n ≠ some i →
    s.get (R.HDR_ERR_CODE_CODE.on ty) n = 0 →
    ∃ t, exec (.registerWrite i (pageAddr ty n off) v 15 stamp) s = .next t ∧ t.answered rspRefused ∧
      Latches ty n off 0x0001 t ∧ OnlyRegs (errKeys ty n) s t)

/-- R44, R64. -/
def Obligations.SoftResetOfAPage : Prop :=
  (∀ (i : Initiator) (ty n : Nat) (s : State), s.pageOpen ty n = true → ty ∉ [0x08, 0x0C, 0x0E, 0x16, 0x18] →
    s.flag (R.HDR_CTL_FENCE.on ty) n = true → s.drained ty n = true →
    ∃ t, exec (.softReset i ty n) s = .next t ∧ t.answered rspOk ∧
      t.shadows = s.shadows.filter (fun w => !(w.key / 0x100000 == ty && w.key / 0x1000 % 0x100 == n)) ∧
      t.get (R.HDR_ERR_CODE_CODE.on ty) n = 0) ∧
  (∀ (i : Initiator) (s : State), s.pageOpen 0x13 0 = true → s.flag (R.HDR_CTL_FENCE.on 0x13) 0 = true → s.drained 0x13 0 = true →
    ∃ t, exec (.softReset i 0x13 0) s = .next t ∧ (∀ off, off < 0x1000 → off ≠ 0x024 → t.getReg 0x13 0 off = resetWord 0x13 0 off) ∧
      t.getReg 0x13 0 0x024 = s.getReg 0x13 0 0x024 ∧
      t = { s with regs := t.regs, shadows := t.shadows, answer := t.answer, pins := t.pins } ∧
      ∀ k, (k < 0x1300000 ∨ 0x1301000 ≤ k) → tblFind t.regs k = tblFind s.regs k) ∧
  (∀ (i : Initiator) (ty n : Nat) (s : State), s.pageOpen ty n = true → ty ∉ [0x08, 0x0E] →
    s.flag (R.HDR_CTL_FENCE.on ty) n = false → s.get (R.HDR_ERR_CODE_CODE.on ty) n = 0 →
    ∃ t, exec (.softReset i ty n) s = .next t ∧ t.answered rspRefused ∧ Latches ty n 0x008 0x0007 t ∧ OnlyRegs (errKeys ty n) s t)

/-- R34, R378. -/
def Obligations.RequestsAtTheirTargets : Prop :=
  (∀ (t stamp : Nat) (s : State), t < 40 →
    (takeRequest t s = none → ∃ u, exec (.requestArrive t stamp) s = .next u ∧ u = { s with nocNow := max s.nocNow stamp, pins := u.pins }) ∧
    (∀ (f : Flit) (body : List Flit) (s1 : State), takeRequest t { s with nocNow := max s.nocNow stamp } = some (f :: body, s1) →
      (poisoned body = true → ∃ u, exec (.requestArrive t stamp) s = .next u ∧ Raises 0x09 t 4 s1 u ∧
        u = { s1 with regs := u.regs, pins := u.pins } ∧ RegsBut [evtKey 0x09 t] s1 u) ∧
      (poisoned body = false → (wormNetIn t f body).req.addr = pageAddr 0x13 0 0 →
        (wormNetIn t f body).req.write = true → (wormNetIn t f body).req.be = 15 * 2 ^ 20 → (wormNetIn t f body).req.flits = 1 →
        (wormNetIn t f body).req.rotate = false → s1.pageOpen 0x13 0 = true →
        ∃ u, exec (.requestArrive t stamp) s = .next u ∧
          u.getReg 0x13 0 0x014 = laneWord (wormNetIn t f body).req 5 &&& word (evtMask 0x13)))) ∧
  (∀ (off stamp en : Nat) (v : Option Word) (s : State), off < 2 ^ 25 → s.domainOn 7 = true → bitOf (s.getReg 0x10 0 0x044).toNat (bitsAt off 20 5) = false →
    ∃ t, exec (.bar0Access off v en stamp) s = .next t ∧ t.answer = (if v.isSome then [] else [⟨cplUnsupported, []⟩]) ∧ Raises 0x10 0 0x20 s t ∧
      t.get R.TRSM_BAR0_DENIED_COUNT 0 = min (s.get R.TRSM_BAR0_DENIED_COUNT 0 + 1) (2 ^ R.TRSM_BAR0_DENIED_COUNT.w - 1) ∧
      OnlyRegs [evtKey 0x10 0, R.TRSM_BAR0_DENIED_COUNT.key 0] s t) ∧
  (∀ (stamp : Nat) (v : Word) (s : State), s.domainOn 7 = true → bitOf (s.getReg 0x10 0 0x044).toNat 0x13 = true →
    s.pathOpen 31 (.page 0x13 0 0x014) = true → s.pageOpen 0x13 0 = true →
    (∃ t, exec (.bar0Access (0x13 * 2 ^ 20 + 0x014) none 15 stamp) s = .next t ∧
      t.answer = [⟨rspOk, wordBytes (s.getReg 0x13 0 0x014)⟩] ∧ ServedFrom 31 s t ∧
      t = { s with trlh := t.trlh, answer := t.answer, pins := t.pins }) ∧
    (∃ t, exec (.bar0Access (0x13 * 2 ^ 20 + 0x014) (some v) 15 stamp) s = .next t ∧ t.answer = [] ∧
      t.getReg 0x13 0 0x014 = v &&& word (evtMask 0x13) ∧ ServedFrom 31 s t ∧ OnlyRegs [regKey 0x13 0 0x014] { s with trlh := t.trlh } t))

/-- R488, R480, R476, R490, R544. -/
def Obligations.MonitorsOfTheDevice : Prop :=
  (∀ (i : Initiator) (v : Word) (s : State), s.pageOpen 0x16 0 = true →
    (v = 0xA5C3 → s.flag R.SHUT_HWDG_CFG_EN 0 = true → ∃ t, exec (.hwdgKick i v) s = .next t ∧ t.answered rspOk ∧
      t.get R.SHUT_HWDG_COUNT_MS 0 = s.get R.SHUT_HWDG_CFG_PERIOD_MS 0 ∧ t.shutter = { s.shutter with hwdg := 1 } ∧
      t = { s with shutter := t.shutter, regs := t.regs, answer := t.answer, pins := t.pins } ∧ RegsBut [R.SHUT_HWDG_COUNT_MS.key 0] s t) ∧
    (v ≠ 0xA5C3 → s.get (R.HDR_ERR_CODE_CODE.on 0x16) 0 = 0 → ∃ t, exec (.hwdgKick i v) s = .next t ∧ t.answered rspOk ∧
      Latches 0x16 0 0x084 0x0107 t ∧ OnlyRegs (errKeys 0x16 0) s t)) ∧
  (∀ (s : State), s.flag R.SHUT_HWDG_CFG_EN 0 = true →
    (s.shutter.hwdg = 1 → ∃ t, exec .hwdgWarn s = .next t ∧ Raises 0x16 0 0x200 s t ∧ t.shutter = { s.shutter with hwdg := 2 } ∧
      t = { s with shutter := t.shutter, regs := t.regs, pins := t.pins } ∧ RegsBut [evtKey 0x16 0] s t) ∧
    (s.shutter.hwdg = 2 → ∃ t, exec .hwdgExpire s = .next t ∧ Raises 0x16 0 0x400 s t ∧ Reports 0x16 0 10 clsDevice s t ∧
      t.get R.SHUT_HWDG_COUNT_MS 0 = 0 ∧ t.shutter = { s.shutter with hwdg := 0 } ∧
      t = { s with shutter := t.shutter, reports := t.reports, regs := t.regs, pins := t.pins } ∧
      RegsBut [evtKey 0x16 0, R.SHUT_HWDG_COUNT_MS.key 0] s t)) ∧
  (∀ (k khz : Nat) (s : State), s.clockRuns k = true → k < 18 → khz < 2 ^ 32 → s.clockNominal k ≤ 101 * 10 * khz → 99 * 10 * khz ≤ s.clockNominal k →
    ∃ t, exec (.clockMonitorWindow [(k, khz)] false false) s = .next t ∧ t.flag ⟨0x16, 0x070, 4, k, 1⟩ 0 = true ∧
      tblGet 0 t.shutter.clkFreq k = khz ∧ t.tick = { s.tick with goodWindows := 0 } ∧
      t = { s with shutter := { s.shutter with clkFreq := t.shutter.clkFreq }, tick := t.tick, regs := t.regs, pins := t.pins } ∧
      RegsBut [regKey 0x16 0 0x070] s t) ∧
  (∀ (k : Nat) (s : State), k < 3 →
    (0 < k → s.flag ⟨0x16, 0x054, 4, k, 1⟩ 0 = false → ∃ t, exec (.supplyOutOfLimits k) s = .next t ∧
      t.flag ⟨0x16, 0x054, 4, k, 1⟩ 0 = true ∧ Raises 0x16 0 0x20 s t ∧ Reports 0x16 0 5 clsDevice s t ∧
      t = { s with reports := t.reports, regs := t.regs, pins := t.pins } ∧ RegsBut [regKey 0x16 0 0x054, evtKey 0x16 0] s t) ∧
    (s.flag ⟨0x16, 0x054, 4, 0, 1⟩ 0 = false → ∃ t, exec (.supplyOutOfLimits 0) s = .next t ∧
      t.flag ⟨0x16, 0x054, 4, 0, 1⟩ 0 = true ∧ bitOf (t.getReg 0x16 0 0x010).toNat 5 = true ∧ t.linkUp = false) ∧
    (∃ t, exec (.supplyWithinLimits k) s = .next t ∧ t.flag ⟨0x16, 0x054, 4, k, 1⟩ 0 = false ∧
      OnlyRegs [regKey 0x16 0 0x054] s t ∧ t.answer = s.answer)) ∧
  (∀ (k : Nat) (s : State) (r : FaultRec), s.reports[k]? = some r → (pageOnArray r.ty r.num = false ∨ s.linkUp = true) → r.cls < 6 →
    (r.cls = 0 → (r.ty, r.num) ∉ s.agg.holdPages) →
    let n := s.get R.DBG_FLT_WP_COUNT 0
    ∃ t, exec (.faultRecordArrive k) s = .next t ∧ t.reports = s.reports.eraseIdx k ∧
      t.get (R.DBG_FLT_COUNT_COUNT.nth r.cls) 0 = min (s.get (R.DBG_FLT_COUNT_COUNT.nth r.cls) 0 + 1) (2 ^ R.DBG_FLT_COUNT_COUNT.w - 1) ∧
      bitOf (t.get R.DBG_FLT_LATCH_CLASS 0) r.cls = true ∧
      t.getReg 0x18 0 (0xA00 + 8 * (n % 64)) = word (r.ty * 2 ^ 24 + r.num * 2 ^ 16 + r.evtBit % 32 * 2 ^ 11 + r.cls * 2 ^ 8 + 1) ∧
      t.getReg 0x18 0 (0xA04 + 8 * (n % 64)) = s.getReg 0x17 0 0x050 ∧
      t.get R.DBG_FLT_WP_COUNT 0 = (n + 1) % 2 ^ R.DBG_FLT_WP_COUNT.w ∧
      t = { s with reports := t.reports, agg := t.agg, regs := t.regs, pins := t.pins }) ∧
  (∀ (s : State),
    (s.agg.thermalArmed = true → ∃ t, exec .thermalOverLimit s = .next t ∧ t.agg = { s.agg with thermalArmed := false } ∧
      bitOf (t.get R.DBG_FLT_LATCH_CLASS 0) 5 = true ∧
      t.getReg 0x18 0 (0xA00 + 8 * (s.get R.DBG_FLT_WP_COUNT 0 % 64)) = word (0x16000000 + 0x1F * 2 ^ 11 + 5 * 2 ^ 8 + 1) ∧
      t = { s with agg := t.agg, regs := t.regs, pins := t.pins }) ∧
    (∃ t, exec .thermalRearm s = .next t ∧ t.agg = { s.agg with thermalArmed := true } ∧ t = { s with agg := t.agg, pins := t.pins })) ∧
  (∀ (p : Nat) (s : State), p < 16 → s.flag R.TICK_RUN_RUN 0 = true → s.domainOn (14 + p) = true →
    ∃ t, exec (.paneTickMissing p) s = .next t ∧ tblGet 0 t.missedTicks p = tblGet 0 s.missedTicks p + 1 ∧
      (∀ k, k ≠ p → tblGet 0 t.missedTicks k = tblGet 0 s.missedTicks k) ∧ t = { s with missedTicks := t.missedTicks, pins := t.pins })

/-- R48 to R51, R55. -/
def Obligations.TickGenerator : Prop :=
  (∀ (stamp : Nat) (s : State), s.pageOpen 0x17 0 = true → s.flag R.TICK_RUN_RUN 0 = false →
    let e := effectivePeriod (s.get R.TICK_PERIOD 0) (signedOf 24 (s.get R.TICK_SLEW_SLEW 0))
    let sum := s.tick.acc + e % 2 ^ 24
    ∃ t, exec (.tickStart stamp) s = .next t ∧ t.answered rspOk ∧ t.flag R.TICK_RUN_RUN 0 = true ∧
      t.flag R.TICK_RUN_SRC 0 = decide (s.tick.goodWindows < 1000) ∧ t.get R.TICK_SNAP 0 = 0 ∧
      t.tick = { s.tick with
        acc := sum % 2 ^ 24, len := e / 2 ^ 24 + sum / 2 ^ 24, lastEdge := stamp / 10, cut := s.get R.TICK_CUTOFF_CYCLES 0
        arrayCutoff := none } ∧
      t = { s with tick := t.tick, regs := t.regs, answer := t.answer, pins := t.pins } ∧
      RegsBut [R.TICK_RUN_RUN.key 0, R.TICK_SNAP.key 0, R.TICK_PHASE.key 0] s t) ∧
  (∀ (stamp : Nat) (s : State), s.pageOpen 0x17 0 = true → s.flag R.TICK_RUN_RUN 0 = true →
    ∃ t, exec (.tickStop stamp) s = .next t ∧ t.answered rspOk ∧ t.flag R.TICK_RUN_RUN 0 = false ∧ t.flag R.TICK_PHASE_PAST_CUTOFF 0 = false ∧
      t.tick = { s.tick with arrayCutoff := none } ∧ t = { s with tick := t.tick, regs := t.regs, answer := t.answer, pins := t.pins } ∧
      RegsBut [R.TICK_RUN_RUN.key 0, R.TICK_PHASE.key 0] s t) ∧
  (∀ (i : Initiator) (v : Word) (stamp : Nat) (s : State), s.pageOpen 0x17 0 = true → s.flag R.TICK_PHASE_PAST_CUTOFF 0 = false →
    let x := signedOf 24 v.toNat
    let y := max (-429496) (min 429496 x)
    ∃ t, exec (.tickSlewWrite i v stamp) s = .next t ∧ t.answered rspOk ∧
      t.shadows = s.shadows ++ [⟨regKey 0x17 0 0x048, word (wrapInt 24 y), stamp⟩] ∧ (x ≠ y → Raises 0x17 0 8 s t) ∧ (x = y → t.regs = s.regs) ∧
      t = { s with shadows := t.shadows, regs := t.regs, answer := t.answer, pins := t.pins } ∧ RegsBut [evtKey 0x17 0] s t) ∧
  (∀ (s : State), s.flag R.TICK_RUN_RUN 0 = true → s.flag R.TICK_RUN_SRC 0 = false →
    ∃ t, exec .referenceLost s = .next t ∧ t.flag R.TICK_RUN_SRC 0 = true ∧ t.flag R.TICK_RUN_RUN 0 = true ∧ Raises 0x17 0 0x10 s t ∧
      t.tick = { s.tick with goodWindows := 0 } ∧ t = { s with tick := t.tick, regs := t.regs, pins := t.pins } ∧
      RegsBut [R.TICK_RUN_RUN.key 0, evtKey 0x17 0] s t) ∧
  (∀ (s : State), ∃ t, exec .tickOutPulseEnd s = .next t ∧ t.pins.tickOut = false ∧ t = { s with pins := t.pins }) ∧
  (∀ (age arrival : Nat) (s : State), s.linkUp = true → age ≤ arrival →
    ∃ t, exec (.cutMessageReceive ((s.edges + 1) % 16) age arrival) s = .next t ∧
      t.tick = { s.tick with arrayCutoff := some (s.tick.arrayCutoff.getD (arrival - age)) } ∧ t = { s with tick := t.tick, pins := t.pins })

/-- R56, R61, R16, R97, R420. -/
def Obligations.TheTickEdge : Prop :=
  (∀ (s : State), s.flag R.TICK_RUN_RUN 0 = true → s.flag R.TICK_PHASE_PAST_CUTOFF 0 = false →
    ∃ t, exec .cutoff s = .next t ∧ t.flag R.TICK_PHASE_PAST_CUTOFF 0 = true ∧ Raises 0x17 0 2 s t ∧ t.tick = { s.tick with arrayCutoff := none } ∧
      (t.side 1).sinceCut = some 0 ∧ t.shadows = s.shadows ∧ (s.domainUp 2 = true → ∀ e, e < 2 → bitOf (t.getReg 5 e 0x05C).toNat 1 = true) ∧
      (s.domainUp 2 = false → t = { s with tick := t.tick, regs := t.regs, pins := t.pins, lintel := t.lintel } ∧
        RegsBut [R.TICK_PHASE.key 0, evtKey 0x17 0] s t)) ∧
  (∀ (s : State), s.flag R.TICK_RUN_RUN 0 = true → s.flag R.TICK_PHASE_PAST_CUTOFF 0 = true →
    let cut := (s.tick.lastEdge + s.tick.len - s.tick.cut) * 10
    let mine := fun (w : ShadowWrite) => !pageOnArray (w.key / 0x100000) (w.key / 0x1000 % 0x100) && decide (w.stamp < cut)
    ∃ t, exec .commit s = .next t ∧ t.shadows = s.shadows.filter (fun w => !mine w) ∧
      t.edges = (s.edges + 1) % 2 ^ 48 ∧ t.get R.TICK_SNAP 0 = (if s.get R.TICK_SNAP 0 = 2 ^ 32 - 1 then 1 else s.get R.TICK_SNAP 0 + 1) ∧
      t.tick.lastEdge = s.tick.lastEdge + s.tick.len ∧ t.flag R.TICK_PHASE_PAST_CUTOFF 0 = false ∧ bitOf (t.getReg 0x17 0 0x010).toNat 0 = true ∧
      t.tick.edgePending = s.tick.edgePending ∧ (t.side 1).sinceEdge = 0 ∧ (t.side 1).sinceCut = none ∧ t.get R.LNTL_LINK_STAT_TICK_SEQ 1 = t.edges % 16 ∧
      t.tick.len = (let e := effectivePeriod (t.get R.TICK_PERIOD 0) (signedOf 24 (t.get R.TICK_SLEW_SLEW 0))
        e / 2 ^ 24 + (s.tick.acc + e % 2 ^ 24) / 2 ^ 24) ∧
      (∀ u, u < 16 → t.getReg 0x15 0 (0x100 + 4 * u) =
        (((s.shadows.filter mine).reverse.find? (fun w => w.key == regKey 0x15 0 (0x100 + 4 * u))).map (fun w => w.value)).getD
          (s.getReg 0x15 0 (0x100 + 4 * u))) ∧
      t.engines = s.engines ∧ t.engMem = s.engMem ∧ t.panes = s.panes ∧ t.pctl = s.pctl ∧ t.pant = s.pant ∧ t.stiles = s.stiles ∧
      t.trlh = s.trlh ∧ t.porter = s.porter) ∧
  (∀ (late : List Nat) (s : State), s.tick.edgePending = true → s.linkUp = true → s.domainOn 9 = true →
    let cut := s.tick.arrayCutoff.getD ((s.tick.lastEdge + s.tick.len - s.tick.cut) * 10 + 12)
    let mine := fun (w : ShadowWrite) => pageOnArray (w.key / 0x100000) (w.key / 0x1000 % 0x100) && decide (w.stamp < cut)
    ∃ t, exec (.arraySideEdge late) s = .next t ∧ t.tick.edgePending = false ∧ t.tick.windowOpen = true ∧ t.doneTasks = [] ∧
      t.shadows = s.shadows.filter (fun w => !mine w) ∧ t.get R.LNTL_LINK_STAT_TICK_SEQ 0 = s.tick.edgeSeq % 16 ∧
      (s.porter.staged = none → t.porter.current = s.porter.current ∧ t.getReg 0x0B 0 0x054 = s.getReg 0x0B 0 0x054) ∧
      (∀ it, s.porter.staged = some it → s.porter.stagedStamp < cut → it.period ≤ s.get R.TICK_PERIOD 0 → it.heads = [] →
        t.porter.current = some it ∧ t.porter.staged = none ∧ t.getReg 0x0B 0 0x054 = word it.id) ∧
      (∀ p, p < 16 → s.domainUp (14 + p) = true → (s.pane p).waitCols = [] → (∀ w, w ∈ s.shadows → w.key / 0x1000 ≠ 0x100 + p) →
        t.getReg 0x01 p 0x048 = s.getReg 0x01 p 0x048)) ∧
  (∀ (p : Nat) (s : State), s.tick.windowOpen = true → p < 16 → s.flag R.PANE_MODE_IN_GANG p = false → s.taskNow p ≠ 0 →
    s.pcState p ≠ 2 → (∀ q, q < 16 → q ≠ p → s.flag R.PANE_MODE_IN_GANG q = false ∧ s.taskNow q = 0) →
    ∃ t, exec .renderWindowClose s = .next t ∧ t.tick = { s.tick with windowOpen := false } ∧ t.taskNow p = 0 ∧
      t.get R.PCTL_OVERRUN_LAST_TASK p = s.taskNow p % 2 ^ R.PCTL_OVERRUN_LAST_TASK.w ∧ (t.ctl p).queue = [] ∧
      t.reports = s.reports ++ [⟨0x02, p, 0, clsHold⟩] ∧ (t.link (engKey 3 (s.paneSash p))).taskEnd.isSome = true) ∧
  (∀ (s : State), s.gateRuns = true → s.gate.statDue = true →
    ∃ t, exec .statusFrameSend s = .next t ∧ t.gate.statDue = false ∧
      (∀ p, p < 6 → if s.sendsStatus p then (tblGet none t.gate.status p).isSome = true
        else tblGet none t.gate.status p = tblGet none s.gate.status p) ∧
      (∀ p, p < 6 → s.sendsStatus p = true → ∀ f, tblGet none t.gate.status p = some f →
        p < 4 → f.data.length = 64 ∧ leNum (f.data.take 4) = s.get R.TICK_SNAP 0))

/-- R13, R14, R16, R17, R18, R20. -/
def Obligations.TheLink : Prop :=
  (∀ (i : Initiator) (full : Bool) (s : State), s.pageOpen 0x0A 1 = true → s.get R.LNTL_LINK_STAT_STATE 1 = 0 →
    ∃ t, exec (.retrain i full) s = .next t ∧ t.answered rspOk ∧ t.get R.LNTL_LINK_STAT_STATE 0 = 1 ∧ t.get R.LNTL_LINK_STAT_STATE 1 = 1 ∧
      t.get R.LNTL_LINK_CTL_FULL_TRAIN 1 = bit full ∧ t.get R.LNTL_LINK_CTL_RETRAIN 1 = 1 ∧
      OnlyRegs [R.LNTL_LINK_CTL_RETRAIN.key 1, R.LNTL_LINK_STAT_STATE.key 0, R.LNTL_LINK_STAT_STATE.key 1] s t) ∧
  (∀ (ok : Bool) (s : State), s.get R.LNTL_LINK_STAT_STATE 1 = 1 →
    (ok = true → s.domainOn 8 = true → s.domainOn 9 = true → ∃ t, exec (.linkTrainingDone ok) s = .next t ∧ t.linkUp = true ∧
      t.get R.LNTL_LINK_STAT_STATE 0 = 2 ∧ bitOf (t.getReg 0x0A 0 0x010).toNat 1 = true ∧ bitOf (t.getReg 0x0A 1 0x010).toNat 1 = true ∧
      t.get R.LNTL_LINK_CTL_RETRAIN 1 = 0 ∧
      (∀ k, k < 2 → (t.side k).nextSeq = (s.get R.LNTL_LINK_STAT_LAST_SEQ (1 - k) + 1) % 256 ∧ (t.side k).slot = 0 ∧ (t.side k).resend = []) ∧
      (s.bridgeFresh = true → t.get R.STIL_MODE_BR_DOWN 32 = 0 ∧ t.get R.STIL_MODE_BR_DOWN 33 = 0 ∧ t.bridgeFresh = false)) ∧
    (ok = false → ∃ t, exec (.linkTrainingDone ok) s = .next t ∧ t.linkUp = false ∧ t.get R.LNTL_LINK_STAT_STATE 1 = 0 ∧
      OnlyRegs [R.LNTL_LINK_CTL_RETRAIN.key 1, R.LNTL_LINK_STAT_STATE.key 0, R.LNTL_LINK_STAT_STATE.key 1] s t)) ∧
  (∀ (side : Nat) (s : State), side < 2 → s.linkUp = true →
    ∃ t, exec (.linkDown side) s = .next t ∧ t.linkUp = false ∧ t.get R.LNTL_LINK_STAT_STATE 0 = 0 ∧
      (∀ k, (t.side k).sent = [] ∧ (t.side k).resend = []) ∧
      bitOf (t.getReg 0x0A 0 0x010).toNat 0 = true ∧ bitOf (t.getReg 0x0A 1 0x010).toNat 0 = true ∧
      t.reports = s.reports.filter (fun r => !pageOnArray r.ty r.num) ++ [⟨0x0A, 1, 0, clsArray⟩] ∧
      t.get R.STIL_MODE_BR_DOWN 32 = 1 ∧ t.get R.STIL_MODE_BR_DOWN 33 = 1) ∧
  (∀ (i : Initiator) (b : Nat) (s : State), b < 2 → s.pageOpen 0x08 (32 + b) = true → s.linkUp = true → s.domainOn 8 = true →
    s.window 0x08 (32 + b) = some i → s.flag (R.HDR_LOCK_HARD_LOCK.on 0x08) (32 + b) = false → s.get R.STIL_MODE_MODE (32 + b) = 0 →
    ∃ t, exec (.bridgeReturn i b) s = .next t ∧ t.answered rspOk ∧ t.get R.STIL_MODE_BR_DOWN (32 + b) = 0 ∧
      t.get R.STIL_MODE_MODE (32 + b) = 0) ∧
  (∀ (side : Nat) (ready : LintelReady) (arrival : Nat) (s : State), side < 2 → s.linkUp = true →
    let x := s.side (1 - side)
    let waiting := x.flits.filter (fun e => e.2.1 != [])
    let own := [0, 1, 2, 3, 2, 3, 1, 2, 3, 2, 3, 1, 2, 3, 2, 3].getD x.slot 3
    let has := fun c => if c = 0 then x.sinceCut.isSome || x.messages != [] || ready.ctl != [] else if c = 1 then ready.pix != []
      else waiting.any (fun e => e.1 == c - 2)
    let cls := if has own then own else (waiting.head?.map (fun e => e.1 + 2)).getD 15
    let age := min x.sinceEdge 15
    (x.resend = [] → x.nakOut = false → x.credits = [] → (s.side side).waits = false → (∀ e, e ∈ x.flits → e.1 < 2) →
      ∃ t, exec (.lintelFrameReceive side ready [] arrival) s = .next t ∧ t.linkUp = true ∧
        t.get R.LNTL_LINK_STAT_LAST_SEQ side = x.nextSeq % 256 ∧ (t.side side).lastClass = cls ∧ (t.side side).crcFails = 0 ∧
        (t.side (1 - side)).slot = (x.slot + 1) % 16 ∧ (t.side (1 - side)).nextSeq = (x.nextSeq + 1) % 256 ∧ t.panes = s.panes ∧
        (side = 0 → t.tick.edgeSeq = s.edges % 16 ∧
          (s.edges % 16 = s.tick.edgeSeq → t.tick.edgePending = s.tick.edgePending ∧ t.tick.edgeAt = s.tick.edgeAt) ∧
          (s.edges % 16 ≠ s.tick.edgeSeq → t.tick.edgePending = s.domainOn 9 ∧ t.tick.edgeAt = arrival - age))) ∧
    (∀ (b : Nat) (f : Flit), b < 2 → x.resend = [] → x.nakOut = false → x.credits = [] → (s.side side).waits = false →
      x.flits = [(b, f.bytes, f)] → leNum (f.bytes.take 24) ≠ 0 → tblGet [] (s.side side).rxPart b = [] → cls = 2 + b →
      let near := if side = 0 then (32 + b, 2) else (37 + b, 0)
      let k := near.2 * 4 + f.vc
      ∃ t, exec (.lintelFrameReceive side ready [] arrival) s = .next t ∧ (t.side (1 - side)).flits = [] ∧
        tblGet [] (t.stile near.1).links k = tblGet [] (s.stile near.1).links k ++ [f]) ∧
    (∀ (g : List Byte) (rest : List (List Byte)), x.resend = g :: rest → g.length = 256 → bitsAt (leNum (g.take 8)) 48 4 = 15 → bitsAt (leNum (g.take 8)) 4 12 = 0 →
      x.nakOut = false → bitsAt (leNum (g.take 8)) 56 8 = (s.get R.LNTL_LINK_STAT_LAST_SEQ side + 1) % 256 →
      ∃ t, exec (.lintelFrameReceive side ready [] arrival) s = .next t ∧ t.linkUp = true ∧ (t.side (1 - side)).resend = rest ∧
        t.get R.LNTL_LINK_STAT_LAST_SEQ side = bitsAt (leNum (g.take 8)) 56 8 ∧ (t.side side).lastClass = 15 ∧
        (t.side side).waits = false ∧ (t.side (1 - side)).slot = (x.slot + 1) % 16 ∧ (t.side (1 - side)).nextSeq = x.nextSeq) ∧
    (∀ (k : Nat), k < 32 → (s.side side).crcFails < 7 → ∃ t, exec (.lintelFrameReceive side ready [2016 + k] arrival) s = .next t ∧
      (t.side side).crcFails = (s.side side).crcFails + 1 ∧ (t.side side).nakOut = true ∧ (t.side side).waits = true ∧ Raises 0x0A side 4 s t ∧
      t.linkUp = true ∧ (t.side (1 - side)).slot = (x.slot + 1) % 16 ∧
      t.get R.LNTL_ERR_COUNT2_CRC_ERRS side = min (s.get R.LNTL_ERR_COUNT2_CRC_ERRS side + 1) (2 ^ R.LNTL_ERR_COUNT2_CRC_ERRS.w - 1)) ∧
    (∀ (k : Nat), k < 32 → (s.side side).crcFails = 7 → ∃ t, exec (.lintelFrameReceive side ready [2016 + k] arrival) s = .next t ∧
      t.linkUp = false ∧ t.get R.STIL_MODE_BR_DOWN 32 = 1 ∧ t.get R.STIL_MODE_BR_DOWN 33 = 1))

/-- R427, R429 to R436, R440, R503. -/
def Obligations.CommandsThatLatchActsOn : Prop :=
  (∀ (c : CmdFields) (s : State), s.authentic 0x05 c = true →
    let ceil := leNum (c.args.take 4)
    ∃ t, exec (.debugLevel c) s = .next t ∧ Accepts 0x05 c s t ∧ t.get R.LTCH_DBG_CEIL 0 = ceil ∧
      t.get R.LTCH_DBG_LEVEL 0 = min (s.get R.LTCH_DBG_LEVEL 0) ceil ∧ t.storedCtr (ctrSlot c.slot) = s.nextCtr c) ∧
  (∀ (c : CmdFields) (s : State), s.authentic 0x09 c = true →
    let target := (c.args.getD 0 0).toNat
    let revoke := (c.args.getD 1 0).toNat
    let use := (c.args.getD 2 0).toNat
    target < 32 → bitOf (tblGet 0 s.latch.slots target) 8 = false →
    (revoke = 0xFF ∨ revoke < 32 ∧ bitOf (tblGet 0 s.latch.slots revoke) 8 = true) →
    use &&& (if c.slot = 0xFE then 0x7F else s.slotStat c.slot % 256) = use →
    ∀ (k : List Nat), aesUnwrap (numBlock 16 (s.cmdKey c.slot).toNat) (((c.args.drop 8).take 24).map (fun b => b.toNat)) = some k →
    ∃ t, exec (.keyRoll c) s = .next t ∧ Accepts 0x09 c s t ∧ t.storedCtr (ctrSlot c.slot) = s.nextCtr c ∧
      t.latch.rolling = some ⟨target, BitVec.ofNat 128 (blockNum k), use, revoke, bitOf (c.args.getD 3 0).toNat 0⟩ ∧
      t.latch.keys = s.latch.keys ∧ t.latch.slots = s.latch.slots ∧
      t = { s with latch := t.latch, regs := t.regs, answer := t.answer, pins := t.pins }) ∧
  (∀ (c : CmdFields) (s : State), s.authentic 0x0B c = true → c.args.take 8 = s.nonce → s.storedCtr (ctrSlot c.slot) < leNum ((c.args.drop 8).take 8) →
    c.journalFail = false → s.domainOn 1 = true →
    ∃ t, exec (.counterResync c) s = .next t ∧ Accepts 0x0B c s t ∧ t.storedCtr (ctrSlot c.slot) = leNum ((c.args.drop 8).take 8) ∧
      t.latch.resyncs = s.latch.resyncs + 1 ∧ (∀ k, k ≠ ctrSlot c.slot → t.storedCtr k = s.storedCtr k) ∧
      t = { s with latch := t.latch, regs := t.regs, answer := t.answer, pins := t.pins }) ∧
  (∀ (h : Nat) (v : Word) (c : CmdFields) (s : State), s.authentic 0x0C c = true → h < 4 →
    c.args = leBytes 8 (pageAddr 0x0D h 0x054) ++ leBytes 4 v.toNat ++ leBytes 4 0 →
    s.pathOpen 39 (.page 0x0D h 0x054) = true → s.pageOpen 0x0D h = true → s.flag R.TICK_PHASE_PAST_CUTOFF 0 = false →
    headBad h 0x054 v.toNat s = none →
    ∃ t, exec (.safeWrite c) s = .next t ∧ Accepts 0x0C c s t ∧ t.storedCtr (ctrSlot c.slot) = s.nextCtr c ∧
      t.shadows = s.shadows ++ [⟨regKey 0x0D h 0x054, word (v.toNat &&& 0x33), c.stamp⟩] ∧
      ServedFrom 39 s t ∧
      t = { s with latch := t.latch, trlh := t.trlh, shadows := t.shadows, regs := t.regs, answer := t.answer, pins := t.pins }) ∧
  (∀ (v : Word) (c : CmdFields) (s : State), s.authentic 0x0A c = true →
    (c.args = leBytes 8 (pageAddr 0x0B 0 0x088) ++ leBytes 4 v.toNat ++ leBytes 4 0 → s.pathOpen 39 (.page 0x0B 0 0x088) = true →
      s.pageOpen 0x0B 0 = true → v.toNat % 256 ≤ 0x91 →
      ∃ t, exec (.takeoverOverride c) s = .next t ∧ Accepts 0x0A c s t ∧ t.storedCtr (ctrSlot c.slot) = s.nextCtr c ∧
        t.shadows = s.shadows ++ [⟨regKey 0x0B 0 0x088, v &&& 0x800000FF, c.stamp⟩] ∧
        ServedFrom 39 s t ∧
        t = { s with latch := t.latch, trlh := t.trlh, shadows := t.shadows, regs := t.regs, answer := t.answer, pins := t.pins }) ∧
    (c.args = leBytes 8 (pageAddr 0x0B 0 0x060) ++ leBytes 4 v.toNat ++ leBytes 4 0 →
      ∃ t, exec (.takeoverOverride c) s = .next t ∧ Refuses 0x0A c rspAuth t ∧ t.shadows = s.shadows)) ∧
  (∀ (c : CmdFields) (s : State), let good := { c with tag := (cmacBytes (s.cmdKey c.slot) (cmdBytes (critCmd 0x0C c))).take 8 }
    s.authentic 0x0C good = true → c.tag ≠ good.tag →
    ∃ t, exec (.safeWrite c) s = .next t ∧ Responds t 0x0C c 4 0 ∧ t.latch = s.latch ∧
      t.get R.LTCH_CMD_COUNT_FAILED 0 = min (s.get R.LTCH_CMD_COUNT_FAILED 0 + 1) (2 ^ R.LTCH_CMD_COUNT_FAILED.w - 1) ∧
      t = { s with regs := t.regs, answer := t.answer, pins := t.pins }) ∧
  (∀ (j : RollJob) (s : State), s.latch.rolling = some j → s.latch.waiting = [] →
    ∃ t, exec .keyProgramDone s = .next t ∧ t.latch.rolling = none ∧ tblGet 0 t.latch.keys j.target = j.key ∧ t.storedCtr j.target = 0 ∧
      (j.revoke ≠ j.target → tblGet 0 t.latch.slots j.target = 0x100 + j.use) ∧
      (j.revoke < 32 → j.revoke ≠ j.target → bitOf (tblGet 0 t.latch.slots j.revoke) 9 = true) ∧
      (j.toField = true → s.get R.LTCH_LIFECYCLE_STATE 0 = 3 → t.get R.LTCH_LIFECYCLE_STATE 0 = 7) ∧
      t = { s with latch := t.latch, regs := t.regs, answer := [], pins := t.pins } ∧ RegsBut [R.LTCH_LIFECYCLE_STATE.key 0] s t) ∧
  (∀ (s : State), s.latch.ready = false → s.flag R.SHUT_SUPPLY_BND_LOW 0 = false → s.domainUp 1 = true → s.latch.waiting = [] →
    ∃ t, exec .latchRestore s = .next t ∧ t.latch.ready = true ∧ t.latch.boots = ((s.journaled 32).getD 0 + 1) % 2 ^ 64 ∧
      (∀ k, k < 32 → t.storedCtr k = match s.journaled k with | some v => (v + 1024) % 2 ^ 64 | none => 0) ∧
      t = { s with latch := t.latch, regs := t.regs, answer := [], pins := t.pins }) ∧
  (∀ (s : State), s.domainOn 1 = true → s.sector < 2 → tblGet false s.latch.dirty (1 - s.sector) = true →
    ∃ t, exec .journalSectorErase s = .next t ∧ tblGet [] t.latch.journal (1 - s.sector) = [] ∧
      tblGet [] t.latch.journal s.sector = tblGet [] s.latch.journal s.sector ∧ tblGet false t.latch.dirty (1 - s.sector) = false ∧
      t = { s with latch := t.latch, pins := t.pins })

/-- R472 to R478, R73 to R75, R95, R171, R172, R455, R463. -/
def Obligations.CommandsForOtherBlocks : Prop :=
  (∀ (d : Nat) (c : CmdFields) (s : State), s.authentic 0x01 c = true → 1 ≤ d → d < 30 → leNum c.args = 2 ^ d → s.shutter.profile = none →
    s.domainOn d = false → s.moves d = false → s.domainOn (domainParent d) = true → (9 < d → s.linkUp = true) →
    ∃ t, exec (.wake c) s = .next t ∧ Accepts 0x01 c s t ∧ t.storedCtr (ctrSlot c.slot) = s.nextCtr c ∧ t.movingTo d = psOn + 1 ∧
      t.flag ⟨0x16, 0x048, 4, d, 1⟩ 0 = true ∧ t.shutter.profile = some ⟨true, false, [], false⟩ ∧ t.get R.SHUT_PROFILE_DOMAIN 0 = d ∧
      t.domain d = s.domain d ∧ t = { s with latch := t.latch, shutter := t.shutter, regs := t.regs, answer := t.answer, pins := t.pins }) ∧
  (∀ (d : Nat) (c : CmdFields) (s : State), s.authentic 0x02 c = true → 9 < d → d < 30 → leNum c.args = 2 ^ d → s.shutter.profile = none →
    s.domainOn d = true → s.moves d = false → s.linkUp = true → s.domainOn 8 = true → s.domainInUse d = false →
    ∃ t, exec (.sleep c) s = .next t ∧ Accepts 0x02 c s t ∧ t.storedCtr (ctrSlot c.slot) = s.nextCtr c ∧ t.movingTo d = psOff + 1 ∧
      t.flag ⟨0x16, 0x048, 4, d, 1⟩ 0 = true ∧ t.shutter.profile = some ⟨false, false, [], false⟩ ∧ t.domain d = s.domain d ∧
      ∀ k, k < 40 → trlhDomain k = d → t.flag (R.HDR_CTL_FENCE.on 0x09) k = true) ∧
  (∀ (c : CmdFields) (s : State), s.authentic 0x03 c = true →
    let d := leNum c.args % 32
    let target := bitsAt (leNum c.args) 8 2
    s.moves (domainParent d) = false →
    (setDomainRefusal d target s = none → s.domain d ≠ target →
      ∃ t, exec (.setDomain c) s = .next t ∧ Accepts 0x03 c s t ∧ t.storedCtr (ctrSlot c.slot) = s.nextCtr c ∧ t.movingTo d = target + 1 ∧
        t.flag ⟨0x16, 0x048, 4, d, 1⟩ 0 = true ∧ t.domain d = s.domain d ∧ ∀ k, k ≠ d → t.movingTo k = s.movingTo k) ∧
    (∀ (code : Nat), setDomainRefusal d target s = some code →
      ∃ t, exec (.setDomain c) s = .next t ∧ Refuses 0x03 c code t ∧ t.shutter = s.shutter ∧ t.storedCtr (ctrSlot c.slot) = s.nextCtr c)) ∧
  (∀ (c : CmdFields) (s : State), s.authentic 0x04 c = true → s.domainOn 9 = true → s.linkUp = true → s.porter.admitting = none →
    let addr := leNum (c.args.take 8)
    let len := leNum ((c.args.drop 8).take 4)
    let slot := leNum ((c.args.drop 12).take 1)
    let s0 := s.put R.LTCH_CMD_COUNT_DONE 0 (s.get R.LTCH_CMD_COUNT_DONE 0)
    let got := (fetchBytes ⟨27, 0⟩ (s0.get R.TRLH_DDR_MAP_MODE 27) addr (min len 0x80010) s0).2
    ∃ t, exec (.admitImage c) s = .next t ∧ Accepts 0x04 c s t ∧ t.storedCtr (ctrSlot c.slot) = s.nextCtr c ∧ t.get R.PORT_STATE_CHECK 0 = 2 ∧
      t.porter = { s.porter with
        image := got.getD []
        admitting := some (got.isSome && (decide (slot < 32) && s.slotUse slot 6) && addr % 16 == 0 &&
          (cmacBytes (s.imgKey slot) (got.getD [])).take 8 == (c.args.drop 16).take 8) }) ∧
  (∀ (p : Nat) (box : List Byte) (c : CmdFields) (s : State), s.authentic 0x06 c = true → p < 16 → leNum ((c.args.drop 8).take 2) = 2 ^ p →
    s.linkUp = true → s.domainUp (14 + p) = true → s.porter.admitting = none → (∀ q, q < 16 → (s.ctl q).patch = none) → s.pcState p = 0 →
    s.panePinned p = false → (fetchContainer ⟨p, 9⟩ (s.get R.TRLH_DDR_MAP_MODE p) (leNum (c.args.take 8)) s).2 = some box →
    payloadOk (contPayload box) (s.getReg 0x02 p 0x068).toNat = true →
    let r := (contPayload box).getD 0 0
    ∃ t, exec (.larderPatch c) s = .next t ∧ Accepts 0x06 c s t ∧ t.storedCtr (ctrSlot c.slot) = s.nextCtr c ∧ t.pcState p = 3 ∧
      (t.ctl p).patch = some (box, leNum ((c.args.drop 10).take 1), (s.getReg 0x02 p 0x068).toNat) ∧ t.flag R.PCTL_PATCH_STAT_BUSY p = true ∧
      t.getReg 0x02 p (0x068 + 8 * r.toNat) = 0 ∧
      (∀ k, k < leNum (((contPayload box).drop 6).take 2) → tblGet 0 (t.ctl p).larder ((if r = 0 then 1 else 0xA00) + k) =
        word (leNum (((contPayload box).drop (16 + 4 * k)).take 4))) ∧
      (∀ q, q ≠ p → t.ctl q = s.ctl q)) ∧
  (∀ (c : CmdFields) (s : State), s.authentic 0x07 c = true → s.domainOn 1 = true → s.fabState ≠ 1 → s.fabState ≠ 2 →
    leNum (c.args.take 4) + 288424 ≤ 0x7FE000 →
    ∃ t, exec (.hingeLoad c) s = .next t ∧ Accepts 0x07 c s t ∧ t.storedCtr (ctrSlot c.slot) = s.nextCtr c ∧ t.fabState = 1 ∧
      t.fabric.load = some ⟨false, leNum (c.args.take 4), leNum ((c.args.drop 4).take 1)⟩ ∧ t.fabric.frames = [] ∧
      t.fabric.park = s.fabric.park ∧ t = { s with latch := t.latch, fabric := t.fabric, regs := t.regs, answer := t.answer, pins := t.pins }) ∧
  (∀ (box : List Byte) (c : CmdFields) (s : State), s.authentic 0x08 c = true → s.domainOn 1 = true → s.flashJob = none → s.fabric.load = none →
    s.fabState ≠ 2 → (fetchContainer ⟨38, 0⟩ 0 (leNum (c.args.take 8)) s).2 = some box →
    let dst := leNum ((c.args.drop 8).take 4)
    dst % 4096 = 0 → dst + (48 + contLen box + 4095) / 4096 * 4096 ≤ 0x7FE000 →
    ∃ t, exec (.flashWrite c) s = .next t ∧ Accepts 0x08 c s t ∧ t.storedCtr (ctrSlot c.slot) = s.nextCtr c ∧
      t.flashJob = some ⟨box, dst, leNum ((c.args.drop 12).take 1)⟩ ∧ t.flag R.HNGE_FLASH_STAT_BUSY 0 = true ∧ t.flash = s.flash) ∧
  (∀ (stamp us : Nat) (ok : Bool) (s : State), s.domainOn 9 = true → s.porter.admitting = some ok →
    (∀ (v k : Nat) (r : Refused), admissionFault s s.porter.image ok = some (v, r) → r.item = some k →
      ∃ t, exec (.admissionComplete stamp us) s = .next t ∧ t.porter = { s.porter with image := [], admitting := none } ∧
        t.get R.PORT_STATE_CHECK 0 = 0 ∧ t.getReg 0x0B 0 0x044 = word (r.kind * 2 ^ 16 + v * 2 ^ 8 + r.code) ∧
        t.getReg 0x0B 0 0x048 = word k ∧ t.getReg 0x0B 0 0x04C = word (min r.amount (2 ^ 32 - 1)) ∧
        (r.code ≠ 0 → Raises 0x0B 0 5 s t ∧
          t.get R.PORT_COUNTS_REFUSED 0 = min (s.get R.PORT_COUNTS_REFUSED 0 + 1) (2 ^ R.PORT_COUNTS_REFUSED.w - 1)) ∧
        t = { s with porter := t.porter, regs := t.regs, pins := t.pins }) ∧
    (admissionFault s s.porter.image ok = none →
      ∃ t, exec (.admissionComplete stamp us) s = .next t ∧
        t.porter = { s.porter with image := [], admitting := none, staged := some (readItinerary s.porter.image), stagedStamp := stamp } ∧
        t.get R.PORT_STATE_CHECK 0 = 0 ∧ t.get R.PORT_STATE_STAGED 0 = 1 ∧ t.get R.PORT_STATE_WAITING 0 = 0 ∧ t.getReg 0x0B 0 0x044 = 0 ∧
        t.getReg 0x0B 0 0x058 = word (readItinerary s.porter.image).id ∧ Raises 0x0B 0 (if s.porter.staged.isSome then 11 else 3) s t ∧
        t.get R.PORT_COUNTS_ACCEPTED 0 = min (s.get R.PORT_COUNTS_ACCEPTED 0 + 1) (2 ^ R.PORT_COUNTS_ACCEPTED.w - 1) ∧
        t = { s with porter := t.porter, trlh := t.trlh, regs := t.regs, pins := t.pins })) ∧
  (∀ (p key old : Nat) (box : List Byte) (s : State), p < 16 → (s.ctl p).patch = some (box, key, old) → payNum (contPayload box) 0 1 ≤ 1 →
    let pay := contPayload box
    let r := payNum pay 0 1
    let base := if r = 0 then 0x001 else 0xA00
    let last := if r = 0 then 0xA00 else 0x1000
    let good := (r ≠ 0 ∨ key = 0xFF) ∧ contCheck (fun k => k == 1) key (r == 0) (readBack s p box) s = 0
    (good → ∃ t, exec (.larderPatchDone p) s = .next t ∧ t.pcState p = 0 ∧ (t.ctl p).patch = none ∧ t.flag R.PCTL_PATCH_STAT_BUSY p = false ∧
      Raises 0x02 p 32 s t ∧ t.getReg 0x02 p (0x068 + 8 * r) = word (payVersion pay) ∧
      t.getReg 0x02 p (0x06C + 8 * r) = word (leNum ((contTag box).take 4)) ∧
      (∀ (k : Nat), base ≤ k → k < last → tblGet 0 (t.ctl p).larder k = tblGet 0 (s.ctl p).larder k) ∧
      (r = 0 → payVersion pay ≠ old → ∀ (k : Nat), 0xA00 ≤ k → k < 0x1000 → tblGet 0 (t.ctl p).larder k = 0) ∧
      (∀ (q : Nat), q ≠ p → t.ctl q = s.ctl q) ∧ t = { s with pctl := t.pctl, regs := t.regs, pins := t.pins }) ∧
    (¬good → s.get (R.HDR_ERR_CODE_CODE.on 0x02) p = 0 →
      ∃ t, exec (.larderPatchDone p) s = .next t ∧ t.pcState p = 0 ∧ (t.ctl p).patch = none ∧ t.flag R.PCTL_PATCH_STAT_BUSY p = false ∧
        t.flag R.PCTL_PATCH_STAT_FAIL p = true ∧ Raises 0x02 p 64 s t ∧ Latches 0x02 p 0 0x0104 t ∧
        (∀ (k : Nat), base ≤ k → k < last → tblGet 0 (t.ctl p).larder k = 0) ∧ (∀ (k : Nat), k < 512 → tblGet 0 (t.ctl p).opTable (512 * r + k) = 0) ∧
        (∀ (q : Nat), q ≠ p → t.ctl q = s.ctl q) ∧ t = { s with pctl := t.pctl, regs := t.regs, pins := t.pins }))

/-- R473, R475 to R477, R482, R485. -/
def Obligations.PowerDomainsAndResets : Prop :=
  (∀ (d stamp : Nat) (s : State), 14 ≤ d → d < 30 → s.movingTo d = psOn + 1 → s.domain d = psOff → s.shutter.profile = none → s.latch.held = none →
    ∃ t, exec (.domainTransitionDone d stamp) s = .next t ∧ t.domain d = psOn ∧ t.movingTo d = 0 ∧
      t.flag ⟨0x16, 0x048, 4, d, 1⟩ 0 = false ∧ bitOf (t.getReg 0x16 0 0x010).toNat 0 = true ∧ (t.pane (d - 14)).initRunning = true ∧
      (∀ (k : Nat), k < 30 → k ≠ d → t.domain k = s.domain k ∧ t.movingTo k = s.movingTo k) ∧
      (∀ (k : Nat), k < 40 → trlhDomain k = d → t.flag (R.HDR_CTL_FENCE.on 0x09) k = false ∧ t.flag R.TRLH_CLOSE_CTL_CLOSED k = false ∧
        (t.th k).tags = [] ∧ ∀ (j : Nat), j < 40 → trlhDomain j ≠ d → t.closedTo k j = !s.domainUp (trlhDomain j))) ∧
  (∀ (d stamp : Nat) (s : State), 14 ≤ d → d < 30 → s.movingTo d = psOff + 1 → s.domain d = psOn → s.mayEnd d psOff = true →
    s.shutter.profile = none → s.latch.held = none →
    ∃ t, exec (.domainTransitionDone d stamp) s = .next t ∧ t.domain d = psOff ∧ t.movingTo d = 0 ∧
      t.flag ⟨0x16, 0x048, 4, d, 1⟩ 0 = false ∧ bitOf (t.getReg 0x16 0 0x010).toNat 0 = true ∧ t.pane (d - 14) = Pane.idle ∧
      (∀ (k : Nat), k < 30 → k ≠ d → t.domain k = s.domain k) ∧
      (∀ (off : Nat), off < 4096 → t.getReg 0x01 (d - 14) off = resetWord 0x01 (d - 14) off ∧
        t.getReg 0x02 (d - 14) off = resetWord 0x02 (d - 14) off ∧ t.getReg 0x03 (d - 14) off = resetWord 0x03 (d - 14) off) ∧
      t.shadows = s.shadows.filter (fun w => pageDomain (keyTy w.key) (keyNum w.key) != d) ∧
      (∀ (k j : Nat), k < 40 → j < 40 → trlhDomain j = d → trlhDomain k ≠ d → s.domainUp (trlhDomain k) = true → t.closedTo k j = true)) ∧
  (∀ (d stamp : Nat) (s : State), d < 30 → s.domain d = psOff → s.movingTo d = psOn + 1 → s.shutter.profile = none → s.latch.held = none →
    ∃ t, exec (.railRampFail d stamp) s = .next t ∧ t.domain d = psOff ∧ t.movingTo d = 0 ∧
      t.flag ⟨0x16, 0x048, 4, d, 1⟩ 0 = false ∧ Raises 0x16 0 64 s t ∧ Reports 0x16 0 6 clsDevice s t ∧
      t = { s with shutter := t.shutter, regs := t.regs, reports := t.reports, answer := [], pins := t.pins } ∧
      RegsBut [regKey 0x16 0 0x048, evtKey 0x16 0] s t) ∧
  (∀ (stamp : Nat) (p : Profile) (s : State), s.shutter.profile = some p → p.waitLink = true → s.get (R.HDR_ERR_CODE_CODE.on 0x16) 0 = 0 →
    ∃ t, exec (.wakeLinkTimeout stamp) s = .next t ∧ t.shutter = { s.shutter with profile := none } ∧ Raises 0x16 0 2 s t ∧
      Latches 0x16 0 0 0x0106 t ∧ t.getReg 0x16 0 0x04C = 0 ∧ t = { s with shutter := t.shutter, regs := t.regs, pins := t.pins } ∧
      RegsBut (evtKey 0x16 0 :: regKey 0x16 0 0x04C :: errKeys 0x16 0) s t) ∧
  (∀ (stamp : Nat) (s : State),
    ∃ t, exec (.resetN stamp) s = .next t ∧ t.flag R.TICK_RUN_RUN 0 = false ∧ t.shutter.resetLow = true ∧ t.shutter.profile = none ∧
      t.domain 1 = s.domain 1 ∧ (∀ (d : Nat), 1 < d → d < 30 → t.domain d = psOff) ∧ t.flag R.SHUT_RESET_CAUSE_PIN 0 = true ∧
      t.latch.waiting = [] ∧ t.latch.held = none ∧ t.latch.keys = s.latch.keys ∧ t.latch.slots = s.latch.slots ∧ t.latch.ctr = s.latch.ctr ∧
      t.latch.boots = s.latch.boots ∧ t.flash = s.flash ∧ t.pending = s.pending ∧
      (s.vendor = false → t.get R.LTCH_DBG_LEVEL 0 = 0 ∧ t.get R.LTCH_DBG_CEIL 0 = 0)) ∧
  (∀ (s : State), ∃ t, exec .resetNRelease s = .next t ∧ t = { s with shutter := { s.shutter with resetLow := false }, pins := t.pins }) ∧
  (∀ (badKeys : List Nat) (s : State),
    ∃ t, exec (.pdAoPowerOn badKeys) s = .next t ∧ t.flash = s.flash ∧ t.pending = s.pending ∧ t.latch.ready = false ∧ t.latch.keys = s.latch.keys ∧
      t.latch.slots = s.latch.slots ∧ t.latch.journal = s.latch.journal ∧ t.get R.LTCH_LIFECYCLE_STATE 0 = s.get R.LTCH_LIFECYCLE_STATE 0 ∧
      (∀ (ty n off : Nat), ty < 0x19 → n < 256 → off < 4096 → ty ≠ 0x14 → t.getReg ty n off = resetWord ty n off)) ∧
  (∀ (stamp : Nat) (s : State), s.bootActive = true → s.domainOn 2 = true → s.engState 5 0 = 1 → s.bootEnded 4 = false → s.bootFailed 2 = false →
    s.bootStarted 4 = false → s.bootEnded 2 = true → s.flag R.TICK_RUN_RUN 0 = false →
    ∃ t, exec (.bootFlow 4 stamp) s = .next t ∧ t.flag R.TICK_RUN_RUN 0 = true ∧ t.bootEnded 4 = true ∧ t.bootFailed 4 = s.bootFailed 4 ∧
      t.get R.SHUT_BOOT_STAT_STEP 0 = max 4 (s.get R.SHUT_BOOT_STAT_STEP 0)) ∧
  (∀ (k n stamp : Nat) (s : State), 1 < k → k < 12 → s.bootActive = true → s.domainOn 2 = true → s.engState 5 0 = 1 → s.bootEnded k = false →
    n ∈ bootNeeds k → s.bootFailed n = true →
    ∃ t, exec (.bootFlow k stamp) s = .next t ∧ t.bootEnded k = true ∧ t.bootFailed k = true ∧ t = { s with boot := t.boot, pins := t.pins })

/-- R445, R446. -/
def Obligations.HatchFrames : Prop :=
  (∀ (ty n : Nat) (s : State), ty < 0x18 → s.pageOpen ty n = true → s.hatchWaits = false → s.pathOpen 30 (.page ty n 0x014) = true →
    let f : List Byte := [1, 0] ++ leBytes 5 (pageAddr ty n 0x014)
    let body : List Byte := 0 :: wordBytes (s.getReg ty n 0x014)
    ∃ t, exec (.hatchRead (f ++ (leBytes 2 (crc16 f)).reverse)) s = .next t ∧
      ServedFrom 30 s t ∧ t = { s with
        trlh := t.trlh, answer := [⟨hsDone, 0xA5 :: body ++ (leBytes 2 (crc16 body)).reverse⟩], hatchOpen := true, pins := t.pins }) ∧
  (∀ (ty n stamp : Nat) (v : Word) (s : State), ty < 0x18 → s.pageOpen ty n = true → s.hatchWaits = false →
    s.pathOpen 30 (.page ty n 0x014) = true →
    let f : List Byte := [2, 0] ++ leBytes 5 (pageAddr ty n 0x014) ++ wordBytes v
    ∃ t, exec (.hatchWrite (f ++ (leBytes 2 (crc16 f)).reverse) stamp) s = .next t ∧ t.getReg ty n 0x014 = v &&& word (evtMask ty) ∧
      ServedFrom 30 s t ∧ t = { s with trlh := t.trlh, regs := t.regs, answer := [⟨hsDone, 0xA5 :: 0 :: (leBytes 2 (crc16 [0])).reverse⟩], hatchOpen := true, pins := t.pins } ∧
      RegsBut [regKey ty n 0x014] s t) ∧
  (∀ (c : CmdFields) (s : State), s.authentic 0x05 c = true → c.gate = false → c.slot < 256 → c.ctr < 2 ^ 32 → s.hatchWaits = false →
    let f : List Byte := [3, 6] ++ cmdBytes (critCmd 0x05 c) ++ c.tag
    ∃ t, exec (.hatchCommand (f ++ (leBytes 2 (crc16 f)).reverse) c.stamp c.aesFault c.journalFail) s = .next t ∧ t.hatchOpen = true ∧
      t.answer.map (fun a => (a.code, a.data.take 14)) =
        [(hsDone, [0xA5, 0] ++ leBytes 1 0x85 ++ leBytes 1 c.slot ++ [0, 0] ++ leBytes 4 c.ctr ++ leBytes 4 0)] ∧
      t.get R.LTCH_DBG_CEIL 0 = leNum (c.args.take 4) ∧ t.storedCtr (ctrSlot c.slot) = s.nextCtr c) ∧
  (∀ (a bad : Nat) (s : State),
    let f : List Byte := [1, 0] ++ leBytes 5 a
    bad < 2 ^ 16 → bad ≠ crc16 f →
    ∃ t, exec (.hatchRead (f ++ (leBytes 2 bad).reverse)) s = .next t ∧
      t = { s with regs := t.regs, answer := [⟨hsCrcBad, 0xA5 :: 0x10 :: (leBytes 2 (crc16 [0x10])).reverse⟩], hatchOpen := true, pins := t.pins } ∧
      Raises 0x13 0 1 s t ∧ RegsBut [evtKey 0x13 0, R.HTCH_CRC_ERR_COUNT.key 0] s t ∧
      t.get R.HTCH_CRC_ERR_COUNT 0 = min (s.get R.HTCH_CRC_ERR_COUNT 0 + 1) (2 ^ R.HTCH_CRC_ERR_COUNT.w - 1)) ∧
  (∀ (s : State),
    (∃ t, exec (.hatchTransactionEnd false) s = .next t ∧ t = { s with regs := t.regs, answer := [], pins := t.pins } ∧
      Raises 0x13 0 1 s t ∧ RegsBut [evtKey 0x13 0, R.HTCH_CRC_ERR_COUNT.key 0] s t ∧
      t.get R.HTCH_CRC_ERR_COUNT 0 = min (s.get R.HTCH_CRC_ERR_COUNT 0 + 1) (2 ^ R.HTCH_CRC_ERR_COUNT.w - 1)) ∧
    (s.hatchOpen = true → ∃ t, exec (.hatchTransactionEnd true) s = .next t ∧
      t = { s with regs := t.regs, answer := [], hatchOpen := false, pins := t.pins } ∧
      Raises 0x13 0 4 s t ∧ RegsBut [evtKey 0x13 0, R.HTCH_ABANDONED_COUNT.key 0] s t ∧
      t.get R.HTCH_ABANDONED_COUNT 0 = min (s.get R.HTCH_ABANDONED_COUNT 0 + 1) (2 ^ R.HTCH_ABANDONED_COUNT.w - 1)))

/-- R377, R380 to R382, R384. -/
def Obligations.TransomCommands : Prop :=
  (∀ (off : Nat) (data : List Byte) (s : State), s.domainOn 7 = true →
    let a := s.get R.TRSM_WIN_BASE_ADDR 0 * 4096 + off
    (∀ (k : Nat), k < data.length → openBuffers s (a + k) = [] →
      ∃ t, exec (.bar2Write off data) s = .next t ∧ t = { s with regs := t.regs, pins := t.pins } ∧ Raises 0x10 0 16 s t ∧
        t.get R.TRSM_WIN_DROP_COUNT 0 = min (s.get R.TRSM_WIN_DROP_COUNT 0 + 1) (2 ^ R.TRSM_WIN_DROP_COUNT.w - 1) ∧
        RegsBut [evtKey 0x10 0, R.TRSM_WIN_DROP_COUNT.key 0] s t) ∧
    (∀ (e b : Nat), data ≠ [] → (∀ k, k < data.length → openBuffers s (a + k) = [(e, b)]) →
      ∃ t, exec (.bar2Write off data) s = .next t ∧ (t.surf e).state b = 1 ∧
        (tblGet false (t.surf e).failed b = (tblGet false (s.surf e).failed b || (storeBytes ⟨31, 0⟩ a data s).2 != rspOk)) ∧
        t.ddr = (storeBytes ⟨31, 0⟩ a data s).1.ddr ∧ (∀ k, k ≠ e → t.surf k = s.surf k) ∧
        (∀ k, k ≠ b → (t.surf e).state k = (s.surf e).state k) ∧ (t.surf e).addrs = (s.surf e).addrs ∧ (t.surf e).posted = (s.surf e).posted)) ∧
  (∀ (i : Initiator) (v : Word) (s : State), s.pageOpen 0x10 0 = true →
    (s.doorbells.length < 16 → ∃ t, exec (.doorbell i v) s = .next t ∧ t.answered rspOk ∧
      t.doorbells = s.doorbells ++ [(bitsAt v.toNat 0 5, bitsAt v.toNat 8 2)] ∧
      t = { s with doorbells := t.doorbells, answer := t.answer, pins := t.pins }) ∧
    (s.doorbells.length = 16 → ∃ t, exec (.doorbell i v) s = .next t ∧ t.answered rspOk ∧ t.get R.TRSM_DB_RESULT_LAST 0 = 1 ∧
      Raises 0x10 0 8 s t ∧ OnlyRegs [evtKey 0x10 0, R.TRSM_DB_RESULT_LAST.key 0] s t)) ∧
  (∀ (e b stamp : Nat) (rest : List (Nat × Nat)) (s : State), s.domainOn 7 = true → s.doorbells = (e, b) :: rest →
    ((s.surf e).enabled = true → b < (s.surf e).bufs → (s.surf e).state b < 2 → tblGet false (s.surf e).failed b = false →
      ∃ t, exec (.doorbellAccept stamp) s = .next t ∧ (t.surf e).state b = 2 ∧ (t.surf e).posted = (s.surf e).posted ++ [(b, stamp)] ∧
        t.get R.TRSM_DB_ACCEPTED_COUNT 0 = min (s.get R.TRSM_DB_ACCEPTED_COUNT 0 + 1) (2 ^ R.TRSM_DB_ACCEPTED_COUNT.w - 1) ∧
        Raises 0x10 0 2 s t ∧ t = { s with doorbells := rest, surfaces := t.surfaces, tick := t.tick, regs := t.regs, pins := t.pins } ∧
        (∀ k, k ≠ e → t.surf k = s.surf k) ∧ RegsBut [evtKey 0x10 0, R.TRSM_DB_ACCEPTED_COUNT.key 0] s t) ∧
    (∀ (why : Nat), why = (if (s.surf e).enabled = false then 2 else if (s.surf e).bufs ≤ b ∨ 2 ≤ (s.surf e).state b then 3
        else if tblGet false (s.surf e).failed b = true then 4 else 0) → why ≠ 0 →
      ∃ t, exec (.doorbellAccept stamp) s = .next t ∧ t.get R.TRSM_DB_RESULT_LAST 0 = why ∧ Raises 0x10 0 8 s t ∧
        t = { s with doorbells := rest, regs := t.regs, pins := t.pins } ∧ RegsBut [evtKey 0x10 0, R.TRSM_DB_RESULT_LAST.key 0] s t)) ∧
  (∀ (v : Nat) (s : State), v < 64 → s.domainOn 7 = true → s.flag R.TRSM_LINK_STAT_UP 0 = true → bitOf s.pins.vecWait v = true →
    bitOf (s.getReg 0x10 0 (0x80C + 16 * v)).toNat 0 = false →
    ∃ t, exec (.msixMessage v) s = .next t ∧
      t.answer = [⟨rspOk, wordBytes (s.getReg 0x10 0 (0x800 + 16 * v)) ++ wordBytes (s.getReg 0x10 0 (0x804 + 16 * v)) ++
        wordBytes (s.getReg 0x10 0 (0x808 + 16 * v))⟩] ∧ t = { s with answer := t.answer, pins := t.pins } ∧
      (s.PinsAgree → bitOf t.pins.vecWait v = false)) ∧
  (∀ (up : Bool) (speed width : Nat) (s : State), s.domainOn 7 = true → speed < 5 → width < 5 →
    s.getReg 0x10 0 0x040 ≠ word (width * 16 + speed * 2 + bit up) →
    ∃ t, exec (.trsmLinkChange up speed width) s = .next t ∧ t.flag R.TRSM_LINK_STAT_UP 0 = up ∧
      t.getReg 0x10 0 0x040 = word (width * 16 + speed * 2 + bit up) ∧ Raises 0x10 0 1 s t ∧
      t = { s with regs := t.regs, pins := t.pins } ∧ RegsBut [evtKey 0x10 0, regKey 0x10 0 0x040] s t)

/-- R24 to R28. A byte that nothing has written is the free value Config.freeByte: the read holds for every value of it. What word 0 of the record holds is the free function
Config.trainWord (log entry 13). -/
def Obligations.DdrChannels : Prop :=
  (∀ (i : Initiator) (ch : Nat) (s : State), ch < 2 → s.pageOpen 0x0C ch = true → s.ddrState ch = ddrDown ∨ s.ddrState ch = ddrLostState →
    s.get R.DDRC_CFG_DENSITY 0 = s.get R.DDRC_CFG_DENSITY 1 → s.get R.DDRC_CFG_RANKS2 0 = s.get R.DDRC_CFG_RANKS2 1 →
    (∃ t, exec (.ddrTrainFull i ch) s = .next t ∧ t.answered rspOk ∧ t.ddrState ch = ddrTraining ∧ t.flag R.DDRC_TRAIN_CTL_START ch = true ∧
      t.flag R.DDRC_TRAIN_CTL_MODE ch = true ∧ t.ddrCh ch = { s.ddrCh ch with fullMode := true } ∧
      t = { s with ddr := t.ddr, regs := t.regs, answer := t.answer, pins := t.pins } ∧ (∀ k, k ≠ ch → t.ddrCh k = s.ddrCh k) ∧
      RegsBut [R.DDRC_TRAIN_CTL.key ch, R.DDRC_STAT_STATE.key ch] s t) ∧
    (∃ t, exec (.ddrTrainRestore i ch) s = .next t ∧ t.answered rspOk ∧ t.ddrState ch = ddrTraining ∧ t.flag R.DDRC_TRAIN_CTL_START ch = true ∧
      t.flag R.DDRC_TRAIN_CTL_MODE ch = false ∧ t.ddrCh ch = { s.ddrCh ch with fullMode := false } ∧
      t = { s with ddr := t.ddr, regs := t.regs, answer := t.answer, pins := t.pins } ∧ (∀ k, k ≠ ch → t.ddrCh k = s.ddrCh k) ∧
      RegsBut [R.DDRC_TRAIN_CTL.key ch, R.DDRC_STAT_STATE.key ch] s t)) ∧
  (∀ (ch ms : Nat) (record : List Word) (s : State), ch < 2 → ms < 2 ^ R.DDRC_TRAIN_STAT_MS.w → s.ddrState ch = ddrTraining →
    (s.ddrCh ch).fullMode = true →
    ∃ t, exec (.ddrTrainingDone ch 0 ms record) s = .next t ∧ t.ddrState ch = ddrReady ∧
      t.get R.DDRC_USABLE ch = usableMib (s.get R.DDRC_CFG_DENSITY ch) (s.get R.DDRC_CFG_RANKS2 ch) ∧
      t.get R.DDRC_STAT_MTS ch = rateMts (s.get R.DDRC_CFG_RATE ch) ∧ t.get R.DDRC_TRAIN_STAT_MS ch = ms ∧
      t.flag R.DDRC_TRAIN_CTL_START ch = false ∧ Raises 0x0C ch 3 s t ∧
      (∀ (k : Nat), k < 512 → tblGet 0 (t.ddrCh ch).record k = if k = 0 then trainWord s ch else record.getD k 0) ∧ (∀ k, k ≠ ch → t.ddrCh k = s.ddrCh k)) ∧
  (∀ (ch fail ms : Nat) (record : List Word) (s : State), ch < 2 → fail < 7 → s.ddrState ch = ddrTraining → (s.ddrCh ch).fullMode = false →
    let agrees := tblGet 0 (s.ddrCh ch).record 0 = trainWord s ch
    (0 < fail ∨ ¬agrees) →
    ∃ t, exec (.ddrTrainingDone ch fail ms record) s = .next t ∧ t.ddrState ch = ddrDown ∧
      t.get R.DDRC_TRAIN_STAT_FAIL_STEP ch = (if agrees then fail else 6) ∧
      Raises 0x0C ch 32 s t ∧ t.flag R.DDRC_TRAIN_CTL_START ch = false ∧ t = { s with regs := t.regs, pins := t.pins }) ∧
  (∀ (i : Initiator) (ch : Nat) (v : Word) (s : State), ch < 2 → s.pageOpen 0x0C ch = true → s.ddrState ch ≠ ddrTraining →
    let k := s.get R.DDRC_TRAIN_IDX_WORD ch
    k < 512 →
    (∃ t, exec (.trainDataAccess i ch (some v)) s = .next t ∧ t.answered rspOk ∧ tblGet 0 (t.ddrCh ch).record k = v ∧
      t.get R.DDRC_TRAIN_IDX_WORD ch = (k + 1) % 512 ∧ t = { s with ddr := t.ddr, regs := t.regs, answer := t.answer, pins := t.pins } ∧
      (∀ j, j ≠ k → tblGet 0 (t.ddrCh ch).record j = tblGet 0 (s.ddrCh ch).record j) ∧ RegsBut [R.DDRC_TRAIN_IDX_WORD.key ch] s t) ∧
    (∃ t, exec (.trainDataAccess i ch none) s = .next t ∧ t.answer = [⟨rspOk, wordBytes (tblGet 0 (s.ddrCh ch).record k)⟩] ∧
      t.get R.DDRC_TRAIN_IDX_WORD ch = (k + 1) % 512 ∧ OnlyRegs [R.DDRC_TRAIN_IDX_WORD.key ch] s t)) ∧
  (∀ (ch a n : Nat) (s : State), ch < 2 → s.domainUp 11 = true → s.ddrState ch = ddrReady → a + n ≤ s.ddrUsable ch →
    (∀ (w : Nat), a / 8 ≤ w → w < (a + n + 7) / 8 → decodeWord (tblGet 0 (s.ddrCh ch).errs w).toNat = .clean) →
    ∃ t, exec (.ddrRead ch a n) s = .next t ∧ t.answer = [⟨rspOk, ddrBytes s ch a n⟩] ∧ t = { s with answer := t.answer, pins := t.pins }) ∧
  (∀ (ch a en : Nat) (bs : List Byte) (s : State), ch < 2 → s.domainUp 11 = true → s.ddrState ch = ddrReady →
    a + bs.length ≤ s.ddrUsable ch →
    (∀ (w : Nat), a / 64 * 8 ≤ w → w < (a + bs.length + 63) / 64 * 8 → decodeWord (tblGet 0 (s.ddrCh ch).errs w).toNat = .clean) →
    ∃ t, exec (.ddrWrite ch a en bs) s = .next t ∧ t.answered rspOk ∧
      (∀ (b : Nat), ddrByte t ch b = if a ≤ b ∧ b < a + bs.length ∧ bitOf en (b - a) = true then bs.getD (b - a) 0 else ddrByte s ch b) ∧
      t = { s with ddr := t.ddr, answer := t.answer, pins := t.pins } ∧ (∀ k, k ≠ ch → t.ddrCh k = s.ddrCh k)) ∧
  (∀ (ch : Nat) (s : State), ch < 2 → s.domainOn 11 = true → s.ddrState ch = ddrReady → s.get R.DDRC_SCRUB_INTERVAL ch ≠ 0 →
    let b := (s.ddrCh ch).scrubBlock
    (∀ (k : Nat), k < 8 → decodeWord (tblGet 0 (s.ddrCh ch).errs (8 * b + k)).toNat = .clean) →
    ∃ t, exec (.ddrScrubBlock ch) s = .next t ∧
      t.ddrCh ch = { s.ddrCh ch with scrubBlock := if s.ddrUsable ch ≤ 64 * (b + 1) then 0 else b + 1 } ∧
      Raises 0x0C ch (if s.ddrUsable ch ≤ 64 * (b + 1) then 64 else 0) s t ∧ (∀ k, k ≠ ch → t.ddrCh k = s.ddrCh k) ∧
      t = { s with ddr := t.ddr, regs := t.regs, pins := t.pins } ∧ RegsBut [evtKey 0x0C ch] s t) ∧
  (∀ (ch : Nat) (s : State), ch < 2 → s.domainUp 11 = true → s.ddrState ch = ddrReady → (s.ddrCh ch).held = [] →
    ∃ t, exec (.ddrPhyLockLost ch) s = .next t ∧ t.ddrState ch = ddrLostState ∧ t.get R.DDRC_STAT_MTS ch = 0 ∧ Raises 0x0C ch 16 s t ∧
      Reports 0x0C ch 4 clsUnit s t ∧ bitOf (t.get R.PORT_LOST_DDR_CHANNELS 0) ch = true ∧
      t = { s with ddr := t.ddr, regs := t.regs, reports := t.reports, pins := t.pins } ∧ (∀ k, t.ddrCh k = s.ddrCh k) ∧
      RegsBut [R.DDRC_STAT_STATE.key ch, R.DDRC_STAT_MTS.key ch, evtKey 0x0C ch, R.PORT_LOST_DDR_CHANNELS.key 0] s t) ∧
  (∀ (ch : Nat) (s : State), ch < 2 → s.ddrState ch = ddrSrefExit →
    (∃ t, exec (.ddrSrefExitTimeout ch) s = .next t ∧ t.ddrState ch = ddrLostState ∧ (t.ddrCh ch).held = [] ∧
      bitOf (t.get R.PORT_LOST_DDR_CHANNELS 0) ch = true ∧ bitOf (t.getReg 0x0C ch 0x010).toNat 4 = true) ∧
    ((s.ddrCh ch).held = [] → ∃ t, exec (.ddrSrefExitDone ch) s = .next t ∧ t.ddrState ch = ddrReady ∧
      t.get R.DDRC_STAT_MTS ch = rateMts (s.get R.DDRC_CFG_RATE ch) ∧ Raises 0x0C ch 2 s t ∧ (∀ k, t.ddrCh k = s.ddrCh k) ∧
      t = { s with ddr := t.ddr, regs := t.regs, answer := [], pins := t.pins }))

/-- R277 to R293. -/
def Obligations.PantryBanks : Prop :=
  (∀ (b : Nat) (i : Initiator) (q : NetReq) (s : State), b < 64 → s.targetOpen (.pantry b (q.addr % 0x80000)) = true →
    s.flag R.PANT_OWNER_HANDING b = false → s.debugLevel = 0 →
    (ownerTakes s (s.get R.PANT_OWNER_OWNER b) i = true → pantFits q = true →
      ∃ t, exec (.pantryRequestArrive b i q) s = .next t ∧ t.answer = [] ∧ t = { s with pant := t.pant, answer := [], pins := t.pins } ∧
        t.bank b = (if fromSash i = true then
            { s.bank b with sashQ := (s.bank b).sashQ ++ [⟨⟨i, q, none, none⟩, reqWords q, [], false, false, false⟩] }
          else { s.bank b with genQ := (s.bank b).genQ ++ [⟨⟨i, q, none, none⟩, reqWords q, [], false, false, false⟩] }) ∧
        (∀ k, k ≠ b → t.bank k = s.bank k)) ∧
    (ownerTakes s (s.get R.PANT_OWNER_OWNER b) i = false →
      ∃ t, exec (.pantryRequestArrive b i q) s = .next t ∧ t.answer = [⟨rspNotOwner, []⟩] ∧ Raises 0x06 b 16 s t ∧
        t.get R.PANT_NOT_OWNER_LAST_SRC b = i.src % 2 ^ R.PANT_NOT_OWNER_LAST_SRC.w ∧
        t.get R.PANT_NOT_OWNER_COUNT b = min (s.get R.PANT_NOT_OWNER_COUNT b + 1) (2 ^ R.PANT_NOT_OWNER_COUNT.w - 1) ∧
        OnlyRegs [evtKey 0x06 b, R.PANT_NOT_OWNER_COUNT.key b] s t)) ∧
  (∀ (b w : Nat) (i : Initiator) (q : NetReq) (s : State), b < 64 → s.domainUp 10 = true → q.flits = 1 → q.rotate = false →
    q.addr % 0x80000 / 64 = w / 8 → q.be = 255 * 2 ^ (8 * (w % 8)) →
    (s.bank b).sashQ = [⟨⟨i, q, none, none⟩, [w], [], false, false, false⟩] → (s.bank b).genQ = [] →
    (q.write = false → decodeWord (tblGet 0 (s.bank b).errs w).toNat = .clean →
      ∃ t, exec (.pantryAccess b) s = .next t ∧
        t.answer = [⟨rspOk, (List.range 64).map (fun k => if k / 8 = w % 8 then (pantValue (s.bank b) w).getD (k % 8) 0 else 0)⟩] ∧
        (t.bank b).sashQ = [] ∧ (t.bank b).data = (s.bank b).data ∧ (t.bank b).errs = (s.bank b).errs ∧
        (t.bank b).accesses = min ((s.bank b).accesses + 1) (2 ^ 32 - 1) ∧ (∀ k, k ≠ b → t.bank k = s.bank k) ∧
        t = { s with pant := t.pant, answer := t.answer, pins := t.pins }) ∧
    (q.write = true →
      ∃ t, exec (.pantryAccess b) s = .next t ∧ t.answer = [⟨rspOk, []⟩] ∧ (t.bank b).sashQ = [] ∧
        (∀ (a : Nat), tblGet 0 (t.bank b).data a = if a / 8 = w then q.data.getD (a % 64) 0 else tblGet 0 (s.bank b).data a) ∧
        (∀ (v : Nat), tblGet 0 (t.bank b).errs v = if v = w then 0 else tblGet 0 (s.bank b).errs v) ∧
        (∀ k, k ≠ b → t.bank k = s.bank k) ∧ t = { s with pant := t.pant, answer := t.answer, pins := t.pins })) ∧
  (∀ (b w : Nat) (rest : List Nat) (s : State), b < 64 → s.domainUp 10 = true → (s.bank b).sashQ = [] → (s.bank b).genQ = [] →
    (s.bank b).writeBack = w :: rest →
    ∃ t, exec (.pantryCorrectedWriteback b) s = .next t ∧ tblGet 0 (t.bank b).errs w = 0 ∧ pantValue (t.bank b) w = pantValue (s.bank b) w ∧
      (t.bank b).writeBack = rest.filter (fun v => v != w) ∧
      (∀ (a : Nat), a / 8 ≠ w → tblGet 0 (t.bank b).data a = tblGet 0 (s.bank b).data a) ∧ t = { s with pant := t.pant, pins := t.pins } ∧
      (∀ k, k ≠ b → t.bank k = s.bank k)) ∧
  (∀ (b : Nat) (s : State), b < 64 → s.domainOn 10 = true → (s.bank b).sashQ = [] → (s.bank b).genQ = [] → s.get R.PANT_SCRUB_INTERVAL b ≠ 0 →
    let w := s.get R.PANT_SCRUB_NEXT_WORD b
    decodeWord (tblGet 0 (s.bank b).errs w).toNat = .clean →
    ∃ t, exec (.pantryScrub b) s = .next t ∧ t.get R.PANT_SCRUB_NEXT_WORD b = (w + 1) % 65536 ∧ Raises 0x06 b (if w = 65535 then 32 else 0) s t ∧
      t = { s with regs := t.regs, pins := t.pins } ∧ RegsBut [evtKey 0x06 b, R.PANT_SCRUB_NEXT_WORD.key b] s t) ∧
  (∀ (i : Initiator) (b code : Nat) (s : State), b < 64 → code < 256 → s.pageOpen 0x06 b = true → s.window 0x06 b = some i →
    s.flag (R.HDR_LOCK_HARD_LOCK.on 0x06) b = false →
    (s.bankPinnedAt b = false → s.flag R.PANT_OWNER_HANDING b = false → ownerCode code = true →
      (s.flag R.PANT_OWNER_FAILED b = false ∨ code = 0x40) →
      ∃ t, exec (.handoverStart i b code) s = .next t ∧ t.answered rspOk ∧ t.flag R.PANT_OWNER_HANDING b = true ∧
        t.get R.PANT_OWNER_NEXT_FLD b = code ∧ t.get R.PANT_OWNER_OWNER b = s.get R.PANT_OWNER_OWNER b ∧ t.window 0x06 b = none ∧
        (t.bank b).sashQ = (s.bank b).sashQ.map (fun r => { r with early := !r.held }) ∧ (t.bank b).data = (s.bank b).data ∧
        (∀ k, k ≠ b → t.bank k = s.bank k)) ∧
    (s.bankPinnedAt b = true → s.get (R.HDR_ERR_CODE_CODE.on 0x06) b = 0 →
      ∃ t, exec (.handoverStart i b code) s = .next t ∧ t.answered rspRefused ∧ Latches 0x06 b 0x044 0x0101 t ∧
        t.get R.PANT_OWNER_OWNER b = s.get R.PANT_OWNER_OWNER b ∧ t.flag R.PANT_OWNER_HANDING b = s.flag R.PANT_OWNER_HANDING b)) ∧
  (∀ (b : Nat) (s : State), b < 64 → s.domainUp 10 = true → s.flag R.PANT_OWNER_HANDING b = true → handReady (s.bank b) = true →
    ∃ t, exec (.handoverComplete b) s = .next t ∧ t.get R.PANT_OWNER_OWNER b = s.get R.PANT_OWNER_NEXT_FLD b ∧
      t.flag R.PANT_OWNER_HANDING b = false ∧ Raises 0x06 b 1 s t ∧
      t.get R.PANT_HANDOVERS b = (s.get R.PANT_HANDOVERS b + 1) % 2 ^ R.PANT_HANDOVERS.w ∧
      (t.bank b).genQ = (s.bank b).genQ.map (fun r => { r with held := false }) ∧ (t.bank b).data = (s.bank b).data ∧
      (∀ k, k ≠ b → t.bank k = s.bank k) ∧ t = { s with pant := t.pant, regs := t.regs, pins := t.pins }) ∧
  (∀ (i : Initiator) (keep chk : Bool) (s : State), s.pageOpen 0x07 0 = true → s.march = none →
    (marchMask s ≠ [] → (∀ b, b ∈ marchMask s → s.get R.PANT_OWNER_OWNER b = 0x40 ∧ s.flag R.PANT_OWNER_HANDING b = false) →
      ∃ t, exec (.marchStart i keep chk) s = .next t ∧ t.answered rspOk ∧ t.march = some ⟨keep, chk, marchMask s, [], []⟩ ∧
        t.flag R.MRCH_STAT_BUSY 0 = true ∧ t = { s with march := t.march, regs := t.regs, answer := t.answer, pins := t.pins }) ∧
    (marchMask s = [] → s.get (R.HDR_ERR_CODE_CODE.on 0x07) 0 = 0 →
      ∃ t, exec (.marchStart i keep chk) s = .next t ∧ t.answered rspRefused ∧ Latches 0x07 0 0x040 0x0102 t ∧ t.march = none)) ∧
  (∀ (s : State), s.march = none → s.domainOn 10 = true → s.marchDue = true →
    ∃ t, exec .marchStartupRun s = .next t ∧ t.march = some ⟨false, true, List.range 64, [], []⟩ ∧ t.flag R.MRCH_STAT_BUSY 0 = true) ∧
  (∀ (s : State), s.marchDue = false → ∃ t, exec .marchStartupRun s = .next t ∧ t = { s with pins := t.pins }) ∧
  (∀ (m : MarchRun) (s : State), s.domainOn 10 = true → s.march = some m → m.preserve = false → m.banks = [5] → s.porter.current = none →
    (s.bank 5).sashQ = [] → (s.bank 5).genQ = [] →
    ∃ t, exec (.marchRunEnd []) s = .next t ∧ t.march = none ∧ t.flag R.MRCH_STAT_BUSY 0 = false ∧ t.flag R.MRCH_STAT_PASS 0 = true ∧
      t.get R.MRCH_STAT_FAIL_COUNT 0 = 0 ∧ (t.bank 5).data = [] ∧ (t.bank 5).errs = [] ∧ t.get R.PANT_OWNER_OWNER 5 = 0x41 ∧
      t.flag R.PANT_OWNER_FAILED 5 = false ∧ (∀ k, k ≠ 5 → t.bank k = s.bank k) ∧ Raises 0x07 0 1 s t)

/-- R303, R306 to R309, R315 to R321. -/
def Obligations.Trailheads : Prop :=
  (∀ (i : Initiator) (q : NetReq) (stamp dest route : Nat) (alt : Bool) (s : State), i.src < 40 →
    let c := cleanReq i.src i.init q
    requestPath s i.src (targetOf s (s.get R.TRLH_DDR_MAP_MODE i.src) c.addr) = .send dest route alt →
    urgentRight s i.src i.init dest = false → reservedRate (s.th i.src) dest = 0 →
    ((s.th i.src).queueB.length < 16 →
      ∃ t, exec (.requestIssue i q stamp) s = .next t ∧ (t.th i.src).queueB = (s.th i.src).queueB ++ [(i.init, c)] ∧
        (t.th i.src).queueS = (s.th i.src).queueS ∧ (t.th i.src).queueA = (s.th i.src).queueA ∧ (t.th i.src).tags = (s.th i.src).tags ∧
        (t.th i.src).issued = (s.th i.src).issued ∧ t = { s with trlh := t.trlh, nocNow := max s.nocNow stamp, pins := t.pins } ∧
        (∀ k, k ≠ i.src → t.th k = s.th k)) ∧
    ((s.th i.src).queueB.length = 16 → waitsForPlace i.src i.init = false →
      ∃ t, exec (.requestIssue i q stamp) s = .next t ∧
        t.answer = [⟨rspRefused, if c.write then [] else List.replicate (64 * c.flits) 0⟩] ∧
        t.get R.TRLH_LOCAL_REFUSED i.src = min (s.get R.TRLH_LOCAL_REFUSED i.src + 1) (2 ^ R.TRLH_LOCAL_REFUSED.w - 1) ∧
        (t.th i.src).issued = ((s.th i.src).issued + 1) % 2 ^ 32 ∧ (t.th i.src).responded = ((s.th i.src).responded + 1) % 2 ^ 32 ∧
        (t.th i.src).queueB = (s.th i.src).queueB)) ∧
  (∀ (i : Initiator) (q : NetReq) (stamp : Nat) (s : State), i.src < 40 →
    let c := cleanReq i.src i.init q
    requestPath s i.src (targetOf s (s.get R.TRLH_DDR_MAP_MODE i.src) c.addr) = .answer rspClosed →
    ∃ t, exec (.requestIssue i q stamp) s = .next t ∧
      t.answer = [⟨rspClosed, if c.write then [] else List.replicate (64 * c.flits) 0⟩] ∧
      t.get R.TRLH_LOCAL_CLOSED i.src = min (s.get R.TRLH_LOCAL_CLOSED i.src + 1) (2 ^ R.TRLH_LOCAL_CLOSED.w - 1) ∧
      (t.th i.src).issued = ((s.th i.src).issued + 1) % 2 ^ 32 ∧ (t.th i.src).responded = ((s.th i.src).responded + 1) % 2 ^ 32) ∧
  (∀ (k stamp init dest route : Nat) (alt : Bool) (q : NetReq) (s : State), k < 40 → (s.th k).queueS = [] → (s.th k).queueA = [] →
    (s.th k).queueB = [(init, q)] → (s.th k).tags = [] → (s.th k).outQueue = [] → q.write = false →
    requestPath s k (targetOf s (s.get R.TRLH_DDR_MAP_MODE k) q.addr) = .send dest route alt →
    0 < creditHeld s (injectStile k alt) (trlhPort k) 0 → s.get R.STIL_MODE_MODE (injectStile k alt) ≠ 1 →
    let link := trlhPort k * 4
    ∃ t, exec (.requestInject k stamp false) s = .next t ∧ tblGet none (t.th k).tags 0 = some ⟨init, q, stamp, false, false⟩ ∧ (t.th k).queueB = [] ∧
      (t.th k).issued = ((s.th k).issued + 1) % 2 ^ 32 ∧
      tblGet [] (t.stile (injectStile k alt)).links link = tblGet [] (s.stile (injectStile k alt)).links link ++
        [⟨route, 0, 0, 0, true, k, init % 16, dest, 0, (s.th k).rspAlt.contains dest, 0, requestXs q, q.addr / 64, q.be % 2 ^ 64, [],
          s.get R.TRLH_DDR_MAP_MODE k, 0, false, q.dma⟩] ∧
      tblGet 0 (t.stile (injectStile k alt)).used link = tblGet 0 (s.stile (injectStile k alt)).used link + 1 ∧
      t = { s with trlh := t.trlh, stiles := t.stiles, nocNow := max s.nocNow stamp, pins := t.pins } ∧ (∀ j, j ≠ k → t.th j = s.th j) ∧
      (∀ j, j ≠ injectStile k alt → t.stile j = s.stile j)) ∧
  (∀ (k stamp : Nat) (f : Flit) (u : TagUse) (s : State), k < 40 → tblGet [] s.ejected (k * 4 + 1) = [f] → f.kind = 2 → bitsAt f.xs 2 2 = 0 →
    f.xs / 16 = rspOk → tblGet none (s.th k).tags f.tag = some u →
    (u.quarantine = false → u.lost = false →
      ∃ t, exec (.responseDeliver k stamp false) s = .next t ∧ t.answer = [⟨rspOk, f.data⟩] ∧ tblGet none (t.th k).tags f.tag = none ∧
        (t.th k).responded = ((s.th k).responded + 1) % 2 ^ 32 ∧ tblGet [] t.ejected (k * 4 + 1) = [] ∧
        (∀ (j : Nat), j ≠ f.tag → tblGet none (t.th k).tags j = tblGet none (s.th k).tags j) ∧
        t = { s with trlh := t.trlh, ejected := t.ejected, inbox := t.inbox, answer := t.answer, nocNow := max s.nocNow stamp, pins := t.pins }) ∧
    (u.quarantine = true →
      ∃ t, exec (.responseDeliver k stamp false) s = .next t ∧ Raises 0x09 k 64 s t ∧
        t.get R.TRLH_LATE k = min (s.get R.TRLH_LATE k + 1) (2 ^ R.TRLH_LATE.w - 1) ∧ tblGet [] t.ejected (k * 4 + 1) = [] ∧
        t = { s with ejected := t.ejected, regs := t.regs, nocNow := max s.nocNow stamp, pins := t.pins })) ∧
  (∀ (k tag : Nat) (u : TagUse) (s : State), k < 40 → tblGet none (s.th k).tags tag = some u →
    (u.quarantine = false →
      ∃ t, exec (.responseTimeout k tag) s = .next t ∧ t.answer = [⟨rspUnreachable, []⟩] ∧ Raises 0x09 k 128 s t ∧
        tblGet none (t.th k).tags tag = some { u with quarantine := true } ∧ (t.th k).responded = ((s.th k).responded + 1) % 2 ^ 32 ∧
        t.get R.TRLH_LOCAL_TIMEOUT k = min (s.get R.TRLH_LOCAL_TIMEOUT k + 1) (2 ^ R.TRLH_LOCAL_TIMEOUT.w - 1)) ∧
    (u.quarantine = true →
      ∃ t, exec (.tagQuarantineEnd k tag) s = .next t ∧ tblGet none (t.th k).tags tag = none ∧
        t.th k = { s.th k with tags := (t.th k).tags } ∧ (∀ (j : Nat), j ≠ tag → tblGet none (t.th k).tags j = tblGet none (s.th k).tags j) ∧
        t = { s with trlh := t.trlh, pins := t.pins } ∧ (∀ j, j ≠ k → t.th j = s.th j))) ∧
  (∀ (i : Initiator) (k : Nat) (s : State), k < 32 → s.pageOpen 0x09 k = true → bitOf (s.get R.DBG_FLT_INVALID_LO 0) k = false →
    ∃ t, exec (.trailheadSnap i k) s = .next t ∧ t.answered rspOk ∧ t.get R.TRLH_ISSUED k = (s.th k).issued % 2 ^ 32 ∧
      t.get R.TRLH_RESPONDED k = (s.th k).responded % 2 ^ 32 ∧
      t.get R.TRLH_OUTSTANDING k = (openTags (s.th k)).length % 2 ^ R.TRLH_OUTSTANDING.w ∧
      OnlyRegs [R.TRLH_ISSUED.key k, R.TRLH_RESPONDED.key k, R.TRLH_OUTSTANDING.key k] s t) ∧
  (∀ (i : Initiator) (k : Nat) (v : Word) (s : State), k < 40 → s.pageOpen 0x09 k = true →
    let e := s.get R.TRLH_RT_IDX k % 512
    let route := s.get R.TRLH_RT_LO k + bitsAt v.toNat 0 16 * 2 ^ 32
    (e ∉ (s.th k).pinned → routeValid k (bitOf e 7) (e % 128) route = true →
      ∃ t, exec (.routeEntryWrite i k v) s = .next t ∧ t.answered rspOk ∧
        tblGet 0 (t.th k).routes e = BitVec.ofNat 64 (route + bit (bitOf v.toNat 31) * 2 ^ 63) ∧
        t.th k = { s.th k with routes := (t.th k).routes } ∧ (∀ (j : Nat), j ≠ e → tblGet 0 (t.th k).routes j = tblGet 0 (s.th k).routes j) ∧
        t = { s with trlh := t.trlh, answer := t.answer, pins := t.pins } ∧ (∀ j, j ≠ k → t.th j = s.th j)) ∧
    (e ∉ (s.th k).pinned → routeValid k (bitOf e 7) (e % 128) route = false → s.get (R.HDR_ERR_CODE_CODE.on 0x09) k = 0 →
      ∃ t, exec (.routeEntryWrite i k v) s = .next t ∧ t.answered rspRefused ∧ Latches 0x09 k 0x048 0x0101 t ∧ OnlyRegs (errKeys 0x09 k) s t) ∧
    (e ∈ (s.th k).pinned → s.get (R.HDR_ERR_CODE_CODE.on 0x09) k = 0 →
      ∃ t, exec (.routeEntryWrite i k v) s = .next t ∧ t.answered rspRefused ∧ Latches 0x09 k 0x048 0x0102 t ∧ OnlyRegs (errKeys 0x09 k) s t))

/-- R310, R311, R324, R326 to R330, R333. -/
def Obligations.StilesAndClosing : Prop :=
  (∀ (n port vc k stamp : Nat) (f : Flit) (s : State), n < 44 → port < 6 → vc < 3 → f.vc = vc → f.kind = 0 → f.hop ≤ 15 →
    s.get R.STIL_MODE_MODE n = 0 → (s.stile n).links = [(port * 4 + vc, [f])] → (s.stile n).wormLeft = [] →
    (s.stile n).dropping = [] → (s.stile n).holder = [] → (∀ (j : Nat), j < 44 → (s.stile j).buf = []) →
    (∀ (j : Nat), j < 40 → (s.th j).outQueue = []) → (∀ (j : Nat), j < 4 → s.flag (R.STIL_PRB_CTL_EN.nth j) n = false) →
    let out := bitsAt f.route (3 * f.hop) 3
    4 ≤ out → portPresent n out = true → localTrlh n out = some k → s.domainUp (trlhDomain k) = true →
    ∃ t, exec (.flitArrive n port vc [] stamp) s = .next t ∧
      tblGet [] t.ejected (k * 4 + vc) = tblGet [] s.ejected (k * 4 + vc) ++ [{ f with hop := f.hop + 1 }] ∧
      (t.stile n).links = [] ∧ (t.stile n).buf = [] ∧
      tblGet 0 (t.stile n).used (port * 4 + vc) = tblGet 0 (s.stile n).used (port * 4 + vc) - 1 ∧
      t = { s with stiles := t.stiles, trlh := t.trlh, ejected := t.ejected, nocNow := max s.nocNow stamp, pins := t.pins } ∧ (∀ (j : Nat), t.th j = s.th j) ∧
      (∀ (j : Nat), j ≠ n → t.stile j = s.stile j)) ∧
  (∀ (n port vc stamp : Nat) (f : Flit) (s : State), n < 44 → port < 6 → vc < 3 → s.get R.STIL_MODE_MODE n = 2 →
    (s.stile n).links = [(port * 4 + vc, [f])] → f.isResponse = true →
    ∃ t, exec (.flitArrive n port vc [] stamp) s = .next t ∧ (t.stile n).links = [] ∧ Raises 0x08 n 4 s t ∧
      t.get R.STIL_ORPHAN n = min (s.get R.STIL_ORPHAN n + 1) (2 ^ R.STIL_ORPHAN.w - 1) ∧
      tblGet 0 (t.stile n).used (port * 4 + vc) = tblGet 0 (s.stile n).used (port * 4 + vc) - 1 ∧
      t = { s with stiles := t.stiles, regs := t.regs, nocNow := max s.nocNow stamp, pins := t.pins } ∧
      (∀ (j : Nat), j ≠ n → t.stile j = s.stile j)) ∧
  (∀ (i : Initiator) (n : Nat) (s : State), n < 44 → s.pageOpen 0x08 n = true → s.window 0x08 n = some i →
    s.flag (R.HDR_LOCK_HARD_LOCK.on 0x08) n = false →
    (s.get R.STIL_MODE_MODE n = 0 → ∃ t, exec (.stileDetour i n) s = .next t ∧ t.answered rspOk ∧ t.get R.STIL_MODE_MODE n = 1 ∧
      t.flag (R.HDR_STAT_DRAINED.on 0x08) n = false ∧ t.window 0x08 n = none) ∧
    (s.get R.STIL_MODE_MODE n = 1 → ∃ t, exec (.stileService i n) s = .next t ∧ t.answered rspOk ∧ t.get R.STIL_MODE_MODE n = 0 ∧
      t.flag (R.HDR_STAT_DRAINED.on 0x08) n = true ∧ t.window 0x08 n = none) ∧
    (s.get R.STIL_MODE_MODE n = 0 → ∃ t, exec (.stileDown i n) s = .next t ∧ t.answered rspOk ∧ t.get R.STIL_MODE_MODE n = 2 ∧
      (t.stile n).buf = [] ∧ (∀ (k : Nat), k < 40 → n < 32 → s.domainUp (trlhDomain k) = true → (s.linkUp = true ∨ trlhOnArray k = true) →
        bitOf (t.get R.TRLH_DOWN_LO k) n = true) ∧ t.window 0x08 n = none)) ∧
  (∀ (n : Nat) (s : State), n < 44 → s.get R.STIL_MODE_MODE n = 1 → (s.stile n).buf = [] → (s.stile n).wormLeft = [] →
    ∃ t, exec (.stileDrained n) s = .next t ∧ t.flag (R.HDR_STAT_DRAINED.on 0x08) n = true ∧ Raises 0x08 n 1 s t ∧
      t = { s with regs := t.regs, pins := t.pins } ∧ RegsBut [evtKey 0x08 n, regKey 0x08 n 0x00C] s t) ∧
  (∀ (i : Initiator) (k : Nat) (s : State), k < 40 → s.pageOpen 0x09 k = true →
    (s.flag (R.HDR_CTL_FENCE.on 0x09) k = true → ∃ t, exec (.closeStart i k) s = .next t ∧ t.answered rspOk ∧
      t.flag R.TRLH_CLOSE_CTL_CLOSED k = true ∧ t.flag (R.HDR_STAT_DRAINED.on 0x09) k = false ∧ (t.th k).draining = true) ∧
    (s.flag (R.HDR_CTL_FENCE.on 0x09) k = false → s.get (R.HDR_ERR_CODE_CODE.on 0x09) k = 0 →
      ∃ t, exec (.closeStart i k) s = .next t ∧ t.answered rspRefused ∧ Latches 0x09 k 0x09C 0x0104 t ∧ OnlyRegs (errKeys 0x09 k) s t) ∧
    (∃ t, exec (.openSend i k) s = .next t ∧ t.answered rspOk ∧ t.flag R.TRLH_CLOSE_CTL_CLOSED k = false)) ∧
  (∀ (k : Nat) (f : Flit) (s : State), k < 40 → f.kind = 5 → f.src < 40 →
    (tblGet [] s.ejected (k * 4 + 2) = [f] → f.xs / 16 = 1 → ∃ t, exec (.closeReceive k) s = .next t ∧ t.closedTo k f.src = true ∧
      Raises 0x09 k 8 s t ∧ tblGet [] t.ejected (k * 4 + 2) = [] ∧ (∀ (j : Nat), j < 40 → j ≠ f.src → t.closedTo k j = s.closedTo k j)) ∧
    (tblGet [] s.ejected (k * 4 + 2) = [f] → f.xs / 16 = 3 → ∃ t, exec (.openReceive k) s = .next t ∧ t.closedTo k f.src = false ∧
      Raises 0x09 k 8 s t ∧ tblGet [] t.ejected (k * 4 + 2) = [] ∧ (∀ (j : Nat), j < 40 → j ≠ f.src → t.closedTo k j = s.closedTo k j)) ∧
    (tblGet [] s.ejected (k * 4) = [f] → f.xs / 16 = 2 → ∃ t, exec (.closeAckReceive k) s = .next t ∧ f.src ∉ (t.th k).ackWait ∧
      (t.th k).draining = (s.th k).draining ∧ (t.th k).tags = (s.th k).tags ∧ tblGet [] t.ejected (k * 4) = [])) ∧
  (∀ (k : Nat) (s : State), k < 40 → (s.th k).draining = true →
    ((s.th k).ackWait = [] → openTags (s.th k) = [] → ∃ t, exec (.drainComplete k) s = .next t ∧ t.flag (R.HDR_STAT_DRAINED.on 0x09) k = true ∧
      t.th k = { s.th k with draining := false, ackWait := [] } ∧ t = { s with trlh := t.trlh, regs := t.regs, pins := t.pins } ∧
      RegsBut [regKey 0x09 k 0x00C] s t) ∧
    (∃ t, exec (.drainTimeout k) s = .next t ∧ t.flag (R.HDR_STAT_DRAINED.on 0x09) k = true ∧ (t.th k).draining = false ∧
      openTags (t.th k) = [] ∧ t.answer = (openTags (s.th k)).map (fun _ => ⟨rspUnreachable, []⟩) ∧ Raises 0x09 k 2 s t)) ∧
  (∀ (i : Initiator) (s : State), s.pageOpen 0x08 0 = true →
    let k := s.get R.STIL_TRACE_IDX 0 % 16384
    ∃ t, exec (.traceDataRead i) s = .next t ∧ t.answer = [⟨rspOk, wordBytes (tblGet 0 s.trace k)⟩] ∧
      t.get R.STIL_TRACE_IDX 0 = (k + 1) % 16384 ∧ OnlyRegs [R.STIL_TRACE_IDX.key 0] s t)

/-- R133, R161 to R166, R241, R242, R251, R256. That a macro-op of the base image takes effect at the end of its PE-ops is the model's choice
(log entry 29). -/
def Obligations.Microwords : Prop :=
  (∀ (p : Nat) (s : State), s.inMicroword p 0 →
    ((∀ (q : Nat), q ∈ s.paneGang p → mayIssue s q (assemble (s.ctl q) (muOperand (muNow (s.ctl q)))) = true) →
      GangRuns (.microwordPe p) p s (fun c =>
        let o := muOperand (muNow c)
        PaneCtl.stepped { c with inflight := c.inflight ++ [⟨assemble c o, c.seq⟩], a := (c.a + c.stepA) % 2048
                                 b := (c.b + c.stepB) % 2048, d := (c.d + c.stepD) % 2048
                                 const := if bitOf o 11 then c.const.rotateRight 1 else c.const } (muNext (muNow c)))) ∧
    (mayIssue s p (assemble (s.ctl p) (muOperand (muNow (s.ctl p)))) = false → GangRuns (.microwordPe p) p s (fun c => c))) ∧
  (∀ (p n : Nat) (s : State), s.inMicroword p 1 → 0 < n →
    (∀ (q : Nat), q ∈ s.paneGang p → (s.ctl q).lc0 = n ∧ n ≤ (s.ctl q).remaining ∧ bitsAt (muOperand (muNow (s.ctl q))) 2 2 = 0 ∧
      bitsAt (muOperand (muNow (s.ctl q))) 13 3 ≠ 5) →
    GangRuns (.microwordPeR0 p) p s (fun c =>
      let r := (List.range n).foldl (fun x _ => issueOp x (muOperand (muNow c))) c
      { r with lc0 := c.lc0r, upc := muNext (muNow c), first := true, remaining := c.remaining - n
               dispatch := decide (c.remaining = n ∧ muNext (muNow c) = 0) })) ∧
  (∀ (p n : Nat) (s : State), s.inMicroword p 2 → 0 < n →
    (∀ (q : Nat), q ∈ s.paneGang p → (s.ctl q).lc1 = n ∧ n ≤ (s.ctl q).remaining ∧ bitsAt (muOperand (muNow (s.ctl q))) 2 2 = 0 ∧
      bitsAt (muOperand (muNow (s.ctl q))) 13 3 ≠ 5) →
    GangRuns (.microwordPeR1 p) p s (fun c =>
      let r := (List.range n).foldl (fun x _ => issueOp x (muOperand (muNow c))) c
      { r with lc1 := c.lc1r, upc := muNext (muNow c), first := true, remaining := c.remaining - n
               dispatch := decide (c.remaining = n ∧ muNext (muNow c) = 0) })) ∧
  (∀ (p : Nat) (s : State),
    (s.inMicroword p 1 → (s.ctl p).lc0 = 0 →
      GangRuns (.microwordPeR0 p) p s (fun c => PaneCtl.stepped { c with lc0 := c.lc0r } (muNext (muNow c)))) ∧
    (s.inMicroword p 2 → (s.ctl p).lc1 = 0 →
      GangRuns (.microwordPeR1 p) p s (fun c => PaneCtl.stepped { c with lc1 := c.lc1r } (muNext (muNow c))))) ∧
  (∀ (p : Nat) (s : State),
    (s.inMicroword p 3 → GangRuns (.microwordTt p) p s (fun c =>
      let o := muOperand (muNow c)
      PaneCtl.stepped { c with ttR := bitsAt o 8 8, ttC := bitsAt o 0 8 } (muNext (muNow c)))) ∧
    (s.inMicroword p 4 → GangRuns (.microwordTtp p) p s (fun c =>
      PaneCtl.stepped { c with ttR := bitsAt c.mop.toNat 23 8, ttC := bitsAt (muOperand (muNow c)) 0 8 } (muNext (muNow c)))) ∧
    (s.inMicroword p 5 → GangRuns (.microwordAddr p) p s (fun c =>
      let o := muOperand (muNow c)
      let v := bitsAt o 0 11
      let step := if bitsAt o 11 2 = 0 then 1 else if bitsAt o 11 2 = 1 then 2047 else 0
      let value := fun (field : Nat) => if bitOf o 13 then v else (bitsAt c.mop.toNat field 11 + v) % 2048
      PaneCtl.stepped (if bitsAt o 14 2 = 0 then { c with a := value 31, stepA := step }
        else if bitsAt o 14 2 = 1 then { c with b := value 42, stepB := step }
        else { c with d := value 53, stepD := step }) (muNext (muNow c)))) ∧
    (s.inMicroword p 6 → GangRuns (.microwordLoop p) p s (fun c =>
      let o := muOperand (muNow c)
      let k := bitsAt o 0 12
      let n := if bitOf o 14 then (if k < 2048 then bitsAt c.mop.toNat 15 8 + k else bitsAt c.mop.toNat 15 8 - (4096 - k)) else k
      PaneCtl.stepped (if bitOf o 15 then { c with lc1 := n, lc1r := n } else { c with lc0 := n, lc0r := n }) (muNext (muNow c)))) ∧
    (s.inMicroword p 7 → GangRuns (.microwordSeq p) p s (fun c =>
      let o := muOperand (muNow c)
      let next := muNext (muNow c)
      let n0 := c.lc0 - bitsAt o 12 1
      let n1 := c.lc1 - bitsAt o 11 1
      let taken := if bitsAt o 13 3 = 1 then decide (n0 = 0) else if bitsAt o 13 3 = 2 then decide (n1 = 0)
        else if bitsAt o 13 3 = 3 then s.flag R.PCTL_RED_LAST_GOR (s.gangBase p) else decide (c.queue = [])
      PaneCtl.stepped { c with lc0 := n0, lc1 := n1 }
        (if bitsAt o 13 3 = 0 then next else next - next % 2 + (if taken then 1 else 0)))) ∧
    (s.inMicroword p 8 → (∀ (q : Nat), q ∈ s.paneGang p → muOperand (muNow (s.ctl q)) < (s.ctl q).remaining) →
      GangRuns (.microwordWait p) p s (fun c =>
        let n := muOperand (muNow c) + 1
        { c with upc := muNext (muNow c), first := true, remaining := c.remaining - n
                 dispatch := decide (c.remaining = n ∧ muNext (muNow c) = 0) })) ∧
    (s.inMicroword p 8 → (∀ (q : Nat), q ∈ s.paneGang p → (s.ctl q).remaining ≤ muOperand (muNow (s.ctl q))) →
      GangRuns (.microwordWait p) p s (fun c => { c with remaining := 0 }))) ∧
  (∀ (p : Nat) (s : State), p < 16 → p ∈ s.paneGang p → s.gangBase p = p → s.taskNow p ≠ 0 → s.gangQuiet p →
    (∀ (q : Nat), q ∈ s.paneGang p → executing s q = true ∧ microBad (muNow (s.ctl q)) = true ∧
      ∀ (r : MacroRun), r ∈ (s.ctl q).runs → r.seq = (s.ctl q).seq) →
    ∃ t, exec (.microwordReserved p) s = .next t ∧ t.taskNow p = 0 ∧
      (∀ (q : Nat), q ∈ s.paneGang p → Raises 0x02 q 16 s t ∧ (t.ctl q).queue = [] ∧ (t.ctl q).dispatch = true ∧ (t.ctl q).upc = 0 ∧
        (t.ctl q).inflight = (s.ctl q).inflight ∧
        t.getReg 0x02 q 0x058 = word (3 * 2 ^ 30 + bitsAt (s.ctl q).mop.toNat 0 10 * 2 ^ 12 + (s.ctl q).upc)) ∧
      t.reports = s.reports ++ (s.paneGang p).map (fun q => ⟨0x02, q, 4, clsHold⟩) ∧ t.panes = s.panes ∧ t.engines = s.engines ∧
      (t.run p).lost = s.taskNow p :: (s.run p).lost) ∧
  (∀ (c : PaneCtl) (o : Nat), c.ttR < 256 → c.ttC < 256 → c.a < 2048 → c.b < 2048 → c.d < 2048 → o < 65536 →
    let w := assemble c o
    (opA w, opB w, opD w) = (c.a, c.b, c.d) ∧ opBSrc w = bitsAt o 13 3 ∧ opASrc w = bitOf o 12 ∧
    opConst w = (bitOf o 11 && bitOf c.const.toNat 0) ∧ opDMem w = bitOf o 10 ∧ opLdX w = bitOf o 9 ∧ opLdY w = bitOf o 8 ∧
    opLdC w = bitOf o 7 ∧ opKMode w = bitsAt o 5 2 ∧ opLdF w = bitOf o 4 ∧ opPop w = bitOf o 3 ∧ opPush w = bitOf o 2 ∧
    opRed w = bitOf o 1 ∧
    (∀ (k : Nat), k < 8 → bitOf (opTtR w) k = bitOf c.ttR (if bitOf o 0 && c.first then k - k % 2 else k) ∧
      bitOf (opTtC w) k = bitOf c.ttC (if bitOf o 0 && c.first then k - k % 2 else k))) ∧
  (∀ (p : Nat) (m : BitVec 64) (st : MacroStart) (s : State), s.endsMacro p m st → bitOf (mopParam m) 4 = false →
    let n := mopWidth m
    let a := fieldVal st.planes (mopA m)
    let b := fieldVal st.planes (mopB m)
    let rm := mopParam m % 4
    let neg := bitOf (mopParam m) 2
    let leaves := fun (w : Nat) (v : Nat → Nat) => ∃ t, exec (.macroCostReached p) s = .next t ∧ FieldLeft p (mopD m) w st v s t ∧
      (t.pane p).k = (s.pane p).k ∧ (t.ctl p).dispatch = true ∧ (t.ctl p).runs = []
    let carries := fun (c : Nat → Bool) => ∃ t, exec (.macroCostReached p) s = .next t ∧
      ∀ (pe : Nat), pe < 65536 → (t.pane p).c.getLsbD pe = if st.k.getLsbD pe then c pe else st.c.getLsbD pe
    let selects := fun (k : Nat → Bool) => ∃ t, exec (.macroCostReached p) s = .next t ∧ FieldLeft p (mopD m) 0 st (fun _ => 0) s t ∧
      (t.pane p).c = (s.pane p).c ∧ ∀ (pe : Nat), pe < 65536 → (t.pane p).k.getLsbD pe = (st.k.getLsbD pe && k pe)
    (mopOp m = 0x004 → leaves n (fun pe => (a n pe + b n pe) % 2 ^ n) ∧ carries (fun pe => decide (2 ^ n ≤ a n pe + b n pe))) ∧
    (mopOp m = 0x005 → leaves n (fun pe => (a n pe + 2 ^ n - b n pe) % 2 ^ n) ∧ carries (fun pe => decide (b n pe ≤ a n pe))) ∧
    (mopOp m = 0x006 → selects (fun pe => decide (a n pe = b n pe))) ∧
    (mopOp m = 0x007 → bitOf (mopParam m) 0 = false → selects (fun pe => decide (a n pe < b n pe))) ∧
    (mopOp m = 0x010 → bitOf (mopParam m) 0 = false → leaves (2 * n) (fun pe => a n pe * b n pe)) ∧
    (mopOp m = 0x011 → bitOf (mopParam m) 0 = false → ∃ t, exec (.macroCostReached p) s = .next t ∧ ∀ (pe : Nat), pe < 65536 → st.k.getLsbD pe = true →
      fieldVal (t.pane p).planes (mopD m) n pe = (if b n pe = 0 then 2 ^ n - 1 else a n pe / b n pe) ∧
      fieldVal (t.pane p).planes (mopA m) n pe = (if b n pe = 0 then a n pe else a n pe % b n pe)) ∧
    (mopOp m = 0x018 → ∃ t, exec (.macroCostReached p) s = .next t ∧ ∀ (pe x y : Nat), pe < 65536 → st.k.getLsbD pe = true →
      bcdValue n (a (4 * n) pe) = some x → bcdValue n (b (4 * n) pe) = some y →
      fieldVal (t.pane p).planes (mopD m) (4 * n) pe = bcdDigits n ((x + y) % 10 ^ n)) ∧
    (mopOp m = 0x028 → leaves 32 (fun pe => (fpAdd fmtS rm neg (a 32 pe) (b 32 pe)).1)) ∧
    (mopOp m = 0x029 → neg = false → leaves 32 (fun pe => (fpMul fmtS rm (a 32 pe) (b 32 pe)).1)) ∧
    (mopOp m = 0x032 → leaves 64 (fun pe => (fpFma fmtD rm neg (bitOf (mopParam m) 3) (a 64 pe) (b 64 pe) (fieldVal st.planes (mopD m) 64 pe)).1)) ∧
    (mopOp m = 0x02B → leaves 32 (fun pe => (fpDiv fmtS rm (a 32 pe) (b 32 pe)).1)) ∧
    (mopOp m = 0x02C → leaves 32 (fun pe => (fpSqrt fmtS rm (a 32 pe)).1)))

/-- R96 to R98, R114, R147, R156, R157, R160, R165, R167, R174, R175. -/
def Obligations.PaneControllers : Prop :=
  (∀ (p tsn : Nat) (m : BitVec 64) (rest : List (BitVec 64 × Nat)) (s : State), p < 16 → tblGet [] s.macroFlight p = (m, tsn) :: rest →
    s.gangOn p = true → s.gangInit p = false →
    (s.taskNow p ≠ 0 → tsn = s.gangTsn p →
      ∃ t, exec (.macroEnqueue p) s = .next t ∧ tblGet [] t.macroFlight p = rest ∧
        (∀ (q : Nat), q ∈ s.paneGang p → t.ctl q = { s.ctl q with queue := (s.ctl q).queue ++ [m] }) ∧
        (∀ (q : Nat), q ∉ s.paneGang p → t.ctl q = s.ctl q) ∧ (∀ (k : Nat), k ≠ p → tblGet [] t.macroFlight k = tblGet [] s.macroFlight k) ∧
        t = { s with macroFlight := t.macroFlight, pctl := t.pctl, pins := t.pins }) ∧
    (s.taskNow p = 0 ∨ tsn ≠ s.gangTsn p →
      ∃ t, exec (.macroEnqueue p) s = .next t ∧ tblGet [] t.macroFlight p = rest ∧
        (∀ (q : Nat), q ∈ s.paneGang p → t.get R.PCTL_DISCARDS q = min (s.get R.PCTL_DISCARDS q + 1) (2 ^ 32 - 1)) ∧
        t = { s with macroFlight := t.macroFlight, regs := t.regs, pins := t.pins } ∧
        RegsBut ((s.paneGang p).map (fun q => R.PCTL_DISCARDS.key q)) s t)) ∧
  (∀ (p : Nat) (m : BitVec 64) (s : State), p < 16 → p ∈ s.paneGang p → bitsAt m.toNat 0 10 ≠ 0x1FF →
    s.gangQuiet p →
    (∀ (q : Nat), q ∈ s.paneGang p → s.expands q = true ∧ (s.ctl q).dispatch = true ∧ (s.ctl q).queue.head? = some m) →
    let op := bitsAt m.toNat 0 10
    let w := bitsAt m.toNat 15 8
    let cost := fun (e : BitVec 64) => bitsAt e.toNat 32 8 * w * w + bitsAt e.toNat 24 8 * w + bitsAt e.toNat 12 12
    ((∀ (q : Nat), q ∈ s.paneGang p → bitsAt (tblGet 0 (s.ctl q).opTable op).toNat 0 12 ≠ 0 ∧
        bitsAt (tblGet 0 (s.ctl q).opTable op).toNat 40 8 ≤ w ∧ w ≤ bitsAt (tblGet 0 (s.ctl q).opTable op).toNat 48 8) →
      bitsAt m.toNat 10 5 = 0 →
      (op ≠ 0x1FC → op ≠ 0x1FD → (∀ (q : Nat), q ∈ s.paneGang p → 1 < cost (tblGet 0 (s.ctl q).opTable op)) →
        ∃ t, exec (.macroDispatch p) s = .next t ∧ t = { s with pctl := t.pctl, pins := t.pins } ∧
          (∀ (q : Nat), q ∈ s.paneGang p →
            t.ctl q = { s.ctl q with
              queue := (s.ctl q).queue.drop 1, mop := m, seq := (s.ctl q).seq + 1
              macrosTick := min ((s.ctl q).macrosTick + 1) (2 ^ 32 - 1), a := bitsAt m.toNat 31 11, b := bitsAt m.toNat 42 11
              d := bitsAt m.toNat 53 11, stepA := 1, stepB := 1, stepD := 1, lc0 := w, lc0r := w, lc1 := 0, lc1r := 0, first := true
              waitLeft := 0, remaining := cost (tblGet 0 (s.ctl q).opTable op) - 1, dispatch := false
              upc := bitsAt (tblGet 0 (s.ctl q).opTable op).toNat 0 12
              runs := (s.ctl q).runs ++ [⟨(s.ctl q).seq + 1, m, (s.getReg 0x01 q 0x044).toNat % 16, (edgePage s q).2, none, false⟩] }) ∧
          (∀ (q : Nat), q ∉ s.paneGang p → t.ctl q = s.ctl q)) ∧
      (op = 0x1FC → ∃ t, exec (.setcLo p) s = .next t ∧ t = { s with pctl := t.pctl, pins := t.pins } ∧
          (∀ (q : Nat), q ∈ s.paneGang p → (t.ctl q).const.toNat = setBits (s.ctl q).const.toNat 0 32 (m.toNat / 2 ^ 32) ∧
            (t.ctl q).queue = (s.ctl q).queue.drop 1 ∧ (t.ctl q).dispatch = true ∧ (t.ctl q).inflight = (s.ctl q).inflight ∧
            ((t.ctl q).a, (t.ctl q).b, (t.ctl q).d) = ((s.ctl q).a, (s.ctl q).b, (s.ctl q).d))) ∧
      (op = 0x1FD → ∃ t, exec (.setcHi p) s = .next t ∧ t = { s with pctl := t.pctl, pins := t.pins } ∧
          (∀ (q : Nat), q ∈ s.paneGang p → (t.ctl q).const.toNat = setBits (s.ctl q).const.toNat 32 32 (m.toNat / 2 ^ 32) ∧
            (t.ctl q).queue = (s.ctl q).queue.drop 1 ∧ (t.ctl q).dispatch = true ∧ (t.ctl q).inflight = (s.ctl q).inflight ∧
            ((t.ctl q).a, (t.ctl q).b, (t.ctl q).d) = ((s.ctl q).a, (s.ctl q).b, (s.ctl q).d)))) ∧
    (s.gangBase p = p → s.taskNow p ≠ 0 →
      (bitsAt m.toNat 10 5 ≠ 0 ∨ ∀ (q : Nat), q ∈ s.paneGang p → bitsAt (tblGet 0 (s.ctl q).opTable op).toNat 0 12 = 0) →
      ∃ t, exec (.macroDispatch p) s = .next t ∧ t.taskNow p = 0 ∧
        (∀ (q : Nat), q ∈ s.paneGang p → Raises 0x02 q 4 s t ∧ t.getReg 0x02 q 0x058 = word (2 ^ 30 + op * 2 ^ 12) ∧
          (t.ctl q).queue = [] ∧ (t.ctl q).dispatch = true ∧ (t.ctl q).upc = 0 ∧ (t.ctl q).inflight = (s.ctl q).inflight) ∧
        t.reports = s.reports ++ (s.paneGang p).map (fun q => ⟨0x02, q, 2, clsHold⟩) ∧ (t.run p).lost = s.taskNow p :: (s.run p).lost)) ∧
  (∀ (p : Nat) (s : State), p < 16 → p ∈ s.paneGang p →
    s.gangQuiet p → (∀ (q : Nat), q ∈ s.paneGang p → (s.ctl q).dispatch = false) →
    ((∀ (q : Nat), q ∈ s.paneGang p → (s.ctl q).upc = 0) →
      GangRuns (.macroCostReached p) p s (fun c =>
        { c with dispatch := true, remaining := 0, padTick := min (c.padTick + c.remaining) (2 ^ 25 - 1) })) ∧
    ((∀ (q : Nat), q ∈ s.paneGang p → (s.ctl q).upc ≠ 0 ∧ (s.ctl q).remaining = 0 ∧
        ∀ (r : MacroRun), r ∈ (s.ctl q).runs → r.seq = (s.ctl q).seq) →
      ∃ t, exec (.macroCostReached p) s = .next t ∧ t = { s with pctl := t.pctl, regs := t.regs, reports := t.reports, pins := t.pins } ∧
        (∀ (q : Nat), q ∈ s.paneGang p → t.ctl q = { s.ctl q with dispatch := true, upc := 0, first := true, runs := (t.ctl q).runs } ∧
          (∀ (r : MacroRun), r ∈ (t.ctl q).runs → r.cut = true) ∧ Raises 0x02 q 8 s t ∧
          t.getReg 0x02 q 0x058 = word (2 * 2 ^ 30 + bitsAt (s.ctl q).mop.toNat 0 10 * 2 ^ 12 + (s.ctl q).upc)) ∧
        (∀ (q : Nat), q ∉ s.paneGang p → t.ctl q = s.ctl q) ∧
        t.reports = s.reports ++ (s.paneGang p).map (fun q => ⟨0x02, q, 3, clsHold⟩) ∧
        RegsBut ((s.paneGang p).map (evtKey 0x02) ++ (s.paneGang p).map (fun q => regKey 0x02 q 0x058)) s t)) ∧
  (∀ (p k : Nat) (rest : List Nat) (d : TaskDef) (s : State), p < 16 → s.flag R.PANE_MODE_IN_GANG p = true → s.gangBase p = p →
    s.taskNow p = 0 → s.tick.windowOpen = true → p ∈ s.paneGang p → s.gangOn p = true → s.gangInit p = false →
    (∀ (q : Nat), q ∈ s.paneGang p → s.pcState q = 1 ∧ (s.pane q).rebuilding = false) →
    s.run p = ⟨k :: rest, (s.run p).lost, false⟩ → s.entryTask k = some d →
    (d.depends ∉ (s.run p).lost →
      ∃ t, exec (.taskStart p) s = .next t ∧ t.run p = { s.run p with left := rest } ∧
        (∀ (q : Nat), q ∈ s.paneGang p → t.taskNow q = d.id % 2 ^ 16 ∧ t.gangTsn q = (s.gangTsn p + 1) % 256 ∧ t.get R.PCTL_TASK_ENTRY q = k % 2 ^ 10 ∧
          t.get R.PCTL_TASK_BUDGET_CYCLES q = d.budget % 2 ^ 25 ∧
          t.pane q = { s.pane q with x := 0, y := 0, c := 0, f := 0, k := BitVec.allOnes 65536, inb := [], outb := [], inOcc := [], outOcc := [] }) ∧
        (∀ (q : Nat), q ∈ s.paneGang p → ∀ (e : Nat × Nat), e ∈ s.paneEngines q →
          t.get (R.ENG_TASK_TSN.on e.1) e.2 = (s.gangTsn p + 1) % 256 ∧ t.get (R.ENG_TASK_TASK_ID.on e.1) e.2 = d.id % 2 ^ 16) ∧
        t = { s with gangs := t.gangs, panes := t.panes, pctl := t.pctl, arrayLink := t.arrayLink, regs := t.regs, pins := t.pins }) ∧
    (d.depends ∈ (s.run p).lost → rest = [] →
      ∃ t, exec (.taskStart p) s = .next t ∧ t.run p = ⟨[], d.id :: (s.run p).lost, false⟩ ∧ t.reports = s.reports ++ [⟨0x02, p, 1, clsHold⟩] ∧
        (∀ (q : Nat), q ∈ s.paneGang p → t.get R.PCTL_SKIPPED_LAST_TASK q = d.id % 2 ^ 16 ∧ Raises 0x02 q 2 s t ∧
          t.get R.PCTL_SKIPPED_COUNT q = min (s.get R.PCTL_SKIPPED_COUNT q + 1) (2 ^ 16 - 1)) ∧
        t = { s with gangs := t.gangs, regs := t.regs, reports := t.reports, pins := t.pins })) ∧
  (∀ (p : Nat) (s : State), p < 16 → p ∈ s.paneGang p → s.taskNow p ≠ 0 → s.gangOn p = true →
    ((∀ (q : Nat), q ∈ s.paneGang p → (s.ctl q).dispatch = true ∧ (s.ctl q).inflight = [] ∧ (s.pane q).outb = [] ∧
        (s.ctl q).queue.head?.map mopOp = some 0x1FF) →
      ∃ t, exec (.taskEnd p) s = .next t ∧ t.doneTasks = s.taskNow p :: s.doneTasks ∧
        t = { s with pctl := t.pctl, regs := t.regs, doneTasks := t.doneTasks, pins := t.pins } ∧
        (∀ (q : Nat), q ∈ s.paneGang p → t.ctl q = { s.ctl q with queue := (s.ctl q).queue.drop 1 } ∧ t.taskNow q = 0 ∧
          t.get R.PCTL_TASK_BUDGET_CYCLES q = 0)) ∧
    ((s.pane p).outb ≠ [] → ∃ t, exec (.taskEnd p) s = .next t ∧ t = { s with pins := t.pins })) ∧
  (∀ (p : Nat) (s : State), p < 16 → p ∈ s.paneGang p → s.gangBase p = p → s.taskNow p ≠ 0 → s.gangQuiet p → s.pcState p ≠ 2 →
    (∀ (q : Nat), q ∈ s.paneGang p → ∀ (r : MacroRun), r ∈ (s.ctl q).runs → r.seq = (s.ctl q).seq) →
    ∃ t, exec (.taskCutOff p false) s = .next t ∧ t.reports = s.reports ++ [⟨0x02, p, 0, clsHold⟩] ∧
      (t.run p) = { s.run p with lost := s.taskNow p :: (s.run p).lost } ∧
      (∀ (q : Nat), q ∈ s.paneGang p → t.taskNow q = 0 ∧ t.get R.PCTL_OVERRUN_LAST_TASK q = s.taskNow p % 2 ^ 16 ∧
        t.get R.PCTL_OVERRUN_COUNT q = min (s.get R.PCTL_OVERRUN_COUNT q + 1) (2 ^ 16 - 1) ∧ Raises 0x02 q 1 s t ∧
        t.get R.PCTL_DISCARDS q = min (s.get R.PCTL_DISCARDS q + (s.ctl q).queue.length) (2 ^ 32 - 1) ∧
        t.ctl q = { s.ctl q with queue := [], dispatch := true, upc := 0, remaining := 0, waitLeft := 0, runs := (t.ctl q).runs } ∧
        (∀ (n : Nat), n ∈ paneSlats q → (t.port n).queue = [] ∧ (t.port n).run = [] ∧ (t.port n).ahead = [] ∧ (t.port n).held = none)) ∧
      (t.link (engKey 3 (s.paneSash p))).taskEnd = some (s.gangTsn p) ∧ t.panes = s.panes ∧ t.engines = s.engines ∧ t.engMem = s.engMem) ∧
  (∀ (p n : Nat) (g : Bool) (rest : List (Bool × Nat)) (s : State), p < 16 → s.domainOn (14 + p) = true → (s.ctl p).results = (g, n) :: rest →
    let k := engKey 3 (s.paneSash p)
    ∃ t, exec (.reductionResultDeliver p) s = .next t ∧ t.ctl p = { s.ctl p with results := rest } ∧
      t.link k = { s.link k with g := g, tally := n, rcnt := (s.link k).rcnt + 1 } ∧
      t.flag R.PCTL_RED_LAST_GOR p = g ∧ t.get R.PCTL_RED_LAST_TALLY p = n % 2 ^ 21 ∧
      t.get R.PCTL_RED_LAST_SEQ p = (s.get R.PCTL_RED_LAST_SEQ p + 1) % 256 ∧
      t.get R.PCTL_RED_COUNT p = (s.get R.PCTL_RED_COUNT p + 1) % 2 ^ 32 ∧
      bitOf (t.getReg 3 (s.paneSash p) 0x05C).toNat 2 = true ∧
      t = { s with pctl := t.pctl, arrayLink := t.arrayLink, regs := t.regs, pins := t.pins } ∧
      (∀ (q : Nat), q ≠ p → t.ctl q = s.ctl q) ∧ (∀ (j : Nat), j ≠ k → t.link j = s.link j) ∧
      RegsBut [regKey 0x02 p 0x248, regKey 0x02 p 0x24C, regKey 3 (s.paneSash p) 0x05C] s t)

/-- R105, R107, R108, R113, R122, R125, R128, R131, R132, R139 to R145, R150. -/
def Obligations.ProcessingElements : Prop :=
  (∀ (p q r c : Nat) (i : Issued) (rest : List Issued) (s : State), p < 16 → q ∈ s.paneGang p → r < 256 → c < 256 →
    (∀ (j : Nat), j ∈ s.paneGang p → (s.ctl j).inflight ≠ [] ∧ (s.pane j).errs = []) → (s.ctl q).inflight = i :: rest →
    (bitsAt i.op.toNat 12 3 = 7 → s.isTwin q = true) → tblWf [] (s.pane q).inb = true → s.gangOn p = true → stalled s p = false →
    (∀ (j : Nat), j ∈ s.paneGang p → PaneCtl.openRun { s.ctl j with inflight := (s.ctl j).inflight.tail } = true ∧
      (∀ (e : MacroRun), e ∈ (s.ctl j).runs → e.start = none → e.edgeCfg = (s.pane j).edgeCfg ∧ e.edges = (s.pane j).edges) ∧
      s.paneGang (s.gangBase j) = s.paneGang p) →
    let o := i.op.toNat
    let n := 256 * r + c
    let u := 8 * r + c / 32
    let x := s.pane q
    let v := s.tableBit q i.op 56 r c
    let w := s.tableBit q i.op 48 r c
    let k := x.k.getLsbD n
    let keep := fun (f : Nat) (old new : Bool) => if bitOf o f && k then new else old
    ∃ t, exec (.peOpExecute p) s = .next t ∧ (t.ctl q).inflight = rest ∧ (t.pane q).x.getLsbD n = keep 8 (x.x.getLsbD n) v ∧
      (t.pane q).y.getLsbD n = keep 7 (x.y.getLsbD n) v ∧ (t.pane q).c.getLsbD n = keep 6 (x.c.getLsbD n) w ∧
      (t.pane q).f.getLsbD n = keep 3 (x.f.getLsbD n) (x.f.getLsbD n || v) ∧
      (t.pane q).k.getLsbD n = (if bitsAt o 4 2 = 1 then v else if bitsAt o 4 2 = 2 then k && v else if bitsAt o 4 2 = 3 then true else k) ∧
      (tblGet 0 (t.pane q).planes (bitsAt o 15 11)).getLsbD n = keep 9 ((tblGet 0 x.planes (bitsAt o 15 11)).getLsbD n) v ∧
      (∀ (d : Nat), d ≠ bitsAt o 15 11 → tblGet 0 (t.pane q).planes d = tblGet 0 x.planes d) ∧
      tblGet [] (t.pane q).inb u = (tblGet [] x.inb u).drop (if bitOf o 2 then 1 else 0) ∧
      (bitOf o 1 = false → (t.pane q).outb = x.outb) ∧
      (bitOf o 1 = true → (tblGet [] (t.pane q).outb u).dropLast = tblGet [] x.outb u ∧
        ((tblGet [] (t.pane q).outb u).getLastD 0).getLsbD (c % 32) = v) ∧
      (t.pane q).active = x.active + 1 ∧ (t.pane q).errs = [] ∧ (t.pane q).waitCols = x.waitCols ∧
      t.engines = s.engines ∧ t.engMem = s.engMem ∧ (∀ (j : Nat), j ∉ s.paneGang p → t.pane j = s.pane j ∧ t.ctl j = s.ctl j)) ∧
  (∀ (p : Nat) (i : Issued) (s : State), p < 16 → s.flag R.PANE_MODE_IN_GANG p = false → (s.pane p).errs = [] → (s.ctl p).inflight = [i] →
    bitsAt i.op.toNat 12 3 ≠ 7 → bitOf i.op.toNat 0 = true → (s.ctl p).dispatch = true → (s.ctl p).red = none → s.domainOn (14 + p) = true →
    (∀ (e : MacroRun), e ∈ (s.ctl p).runs → e.start = none → e.edgeCfg = (s.pane p).edgeCfg ∧ e.edges = (s.pane p).edges) →
    tblWf [] (s.pane p).inb = true →
    let ones := ((List.range 65536).filter (fun n => s.tableBit p i.op 56 (n / 256) (n % 256) && (s.pane p).k.getLsbD n)).length
    ∃ t, exec (.peOpExecute p) s = .next t ∧ (t.ctl p).red = none ∧ (t.ctl p).results = (s.ctl p).results ++ [(decide (0 < ones), ones)]) ∧
  (∀ (p : Nat) (s : State), p < 16 → (s.pane p).initRunning = true →
    ∃ t, exec (.paneInitDone p) s = .next t ∧ t.pane p = { s.pane p with planes := [], errs := [], initRunning := false } ∧
      Raises 0x01 p 0x200 s t ∧ t = { s with panes := t.panes, regs := t.regs, pins := t.pins } ∧ RegsBut [evtKey 0x01 p] s t ∧
      (∀ (q : Nat), q ≠ p → t.pane q = s.pane q)) ∧
  (∀ (p : Nat) (s : State), p < 16 → s.domainOn (14 + p) = true → s.pcState p ≤ 1 →
    let a := s.get R.PANE_SCRUB_NEXT_ADDR p
    let n := s.get R.PANE_SCRUB_ROWS_PER_TICK p
    ((s.pane p).errs = [] →
      ∃ t, exec (.paneScrub p) s = .next t ∧ t.get R.PANE_SCRUB_NEXT_ADDR p = (a + n) % 2048 ∧ Raises 0x01 p (if 2048 ≤ a + n then 128 else 0) s t ∧
        t = { s with regs := t.regs, pins := t.pins } ∧ RegsBut [evtKey 0x01 p, regKey 0x01 p 0x06C] s t) ∧
    (∀ (e j v : Nat) (pat : BitVec 76), (s.pane p).errs = [(a * 1024 + e, pat)] → e < 1024 → decodeWord pat.toNat = .corrected j v → n = 1 → a < 2047 →
      s.get R.PANE_STEER_CTL_CE_THRESH p = 0 →
      ∃ t, exec (.paneScrub p) s = .next t ∧ (t.pane p).errs = [] ∧ tblGet 0 (t.pane p).planes a = readPlane (s.pane p) a ∧
        (∀ (b : Nat), b ≠ a → tblGet 0 (t.pane p).planes b = tblGet 0 (s.pane p).planes b) ∧ Raises 0x01 p 1 s t ∧
        t.get R.PANE_CE_COUNT p = min (s.get R.PANE_CE_COUNT p + 1) (2 ^ 32 - 1) ∧
        t.getReg 0x01 p 0x064 = word (a * 2 ^ 20 + e / 4 * 2 ^ 12 + e % 4 * 2 ^ 10 + j * 2 ^ 5 + v))) ∧
  (∀ (p : Nat) (s : State), p < 16 → (s.pane p).rebuilding = true →
    ((s.pane p).rebuildBad = false →
      ∃ t, exec (.steerRebuildDone p) s = .next t ∧ t.pane p = { s.pane p with rebuilding := false } ∧ Raises 0x01 p 8 s t ∧
        t = { s with panes := t.panes, regs := t.regs, pins := t.pins } ∧ RegsBut [evtKey 0x01 p] s t) ∧
    ((s.pane p).rebuildBad = true → s.flag R.PANE_MODE_IN_GANG p = false →
      ∃ t, exec (.steerRebuildDone p) s = .next t ∧ (t.pane p).rebuilding = false ∧ Raises 0x01 p 24 s t ∧
        t.flag R.PANE_COL_FAULT_NO_SPARE p = true ∧ bitOf (t.get R.PORT_LOST_PANE_PANES 0) p = true ∧ Reports 0x01 p 4 clsUnit s t)) ∧
  (∀ (i : Initiator) (p : Nat) (s : State), p < 16 → s.pageOpen 0x01 p = true →
    (s.pcState p = 0 → ∃ t, exec (.paneBistStart i p) s = .next t ∧ t.answered rspOk ∧ t.flag R.PANE_BIST_STAT_BUSY p = true ∧
      t.flag R.PANE_BIST_CTL_START p = true ∧ OnlyRegs [regKey 0x01 p 0x070, regKey 0x01 p 0x074] s t) ∧
    (s.pcState p ≠ 0 → s.get (R.HDR_ERR_CODE_CODE.on 0x01) p = 0 →
      ∃ t, exec (.paneBistStart i p) s = .next t ∧ t.answered rspRefused ∧ Latches 0x01 p 0x070 0x0102 t ∧ OnlyRegs (errKeys 0x01 p) s t)) ∧
  (∀ (p col seg lc : Nat) (s : State), p < 16 → s.flag R.PANE_BIST_STAT_BUSY p = true →
    (∃ t, exec (.paneBistDone p []) s = .next t ∧ t.pane p = { s.pane p with planes := [], errs := [] } ∧ t.getReg 0x01 p 0x074 = 2 ∧
      t.flag R.PANE_BIST_CTL_START p = false ∧ Raises 0x01 p 0x100 s t ∧ tblGet false t.bistFresh p = true) ∧
    (col < 264 → logCol s p col = some (seg, lc) → s.flag R.PANE_STEER_CTL_AUTO p = true → s.flag (R.PANE_STEER_A_EN.nth seg) p = false →
      ∃ t, exec (.paneBistDone p [col]) s = .next t ∧ t.pane p = { s.pane p with planes := [], errs := [] } ∧
        t.getReg 0x01 p 0x074 = word (4 + 2 ^ 8 + col * 2 ^ 16) ∧ t.flag (R.PANE_STEER_A_EN.nth seg) p = true ∧
        t.get (R.PANE_STEER_A_COL.nth seg) p = lc % 64 ∧ Raises 0x01 p 0x100 s t ∧ tblGet false t.bistFresh p = false)) ∧
  (∀ (i : Initiator) (p k : Nat) (s : State), p < 16 → s.pageOpen 0x02 p = true → k < 6 →
    let off := 0x204 + 8 * k + (if 3 ≤ k then 4 else 0)
    ∃ t, exec (.hamperSnap i p) s = .next t ∧ t.answered rspOk ∧ t.getReg 0x02 p off = word (tblGet 0 (s.ctl p).hamp k) ∧
      t.getReg 0x02 p (off + 4) = word (tblGet 0 (s.ctl p).hamp k / 2 ^ 32 % 2 ^ 16 + (if (s.ctl p).hampFrozen then 2 ^ 31 else 0)) ∧
      t.get R.PCTL_HIN_RESIDENT_SLICES p = ((s.pane p).inb.map (fun e => e.2.length)).sum % 2 ^ 16 ∧
      t.get R.PCTL_HOUT_RESIDENT_SLICES p = ((s.pane p).outb.map (fun e => e.2.length)).sum % 2 ^ 16 ∧
      t = { s with regs := t.regs, answer := t.answer, pins := t.pins }) ∧
  (∀ (slat quad : Nat) (c : RowCmd) (rest : List RowCmd) (s : State), slat < 128 → quad < 4 → tblGet none (s.port slat).run quad = none →
    tblGet [] (s.port slat).queue quad = c :: rest → s.domainOn (14 + slat / 8) = true → tblGet none (s.port slat).ahead quad = none →
    let width := 2 ^ bitsAt c.cmd 1 3
    (rowBad s slat c.cmd c.addr = false → (bitOf c.cmd 23 = true ∨ c.addr + 4 * width ≤ 65536 ∧ ∀ (k : Nat), k < 32 →
        (s.mem (engKey 4 slat)).decode true (c.addr / 8 + k) = .clean) →
      ∃ t, exec (.rowCommandStart slat quad) s = .next t ∧ tblGet [] (t.port slat).queue quad = rest ∧
        tblGet none (t.port slat).run quad = some { c with
          next := 0
          words := if bitOf c.cmd 23 then [] else (List.range width).map (fun k => word (leNum ((s.mem (engKey 4 slat)).bytes true (c.addr + 4 * k) 4))) } ∧
        t = { s with rowPorts := t.rowPorts, pins := t.pins } ∧ (∀ (k : Nat), k ≠ slat → t.port k = s.port k)) ∧
    (rowBad s slat c.cmd c.addr = true →
      ∃ t, exec (.rowCommandStart slat quad) s = .next t ∧ tblGet [] (t.port slat).queue quad = rest ∧
        tblGet none (t.port slat).run quad = none ∧ t.flag R.SLAT_ROW_STAT_CMD_BAD slat = true ∧
        t.get R.SLAT_ROW_STAT_LAST_CMD slat = c.cmd % 2 ^ R.SLAT_ROW_STAT_LAST_CMD.w ∧ t.reports.length = s.reports.length + 1 ∧
        t = { s with rowPorts := t.rowPorts, regs := t.regs, reports := t.reports, freeCount := s.freeCount + 1, pins := t.pins })) ∧
  (∀ (slat quad : Nat) (c : RowCmd) (s : State), slat < 128 → quad < 4 → tblGet none (s.port slat).run quad = some c →
    s.domainOn (14 + slat / 8) = true → (s.port slat).held = none →
    occMismatch (s.pane (slat / 8)).inb (s.pane (slat / 8)).inOcc = none → occMismatch (s.pane (slat / 8)).outb (s.pane (slat / 8)).outOcc = none →
    let p := slat / 8
    let row := 32 * (if bitOf c.cmd 22 then (slat % 8) ^^^ 1 else slat % 8) + bitsAt c.cmd 17 5
    let u := row * 8 + bitsAt c.cmd 14 3
    let k := c.next
    let planes := bitsAt c.cmd 9 5 + 1
    let b := if bitOf c.cmd 0 then bitsAt c.cmd 4 5 + planes - 1 - k else bitsAt c.cmd 4 5 + k
    let per := 32 / 2 ^ bitsAt c.cmd 1 3
    (bitOf c.cmd 23 = false → (tblGet [] (s.pane p).inb u).length < 16 → bitsAt c.cmd 1 3 ≤ 5 →
      ∃ t, exec (.hamperDrop slat quad []) s = .next t ∧
        (tblGet [] (t.pane p).inb u).dropLast = tblGet [] (s.pane p).inb u ∧ entryOk ((tblGet [] (t.pane p).inb u).getLastD 0) = true ∧
        (∀ (e : Nat), e < 32 → ((tblGet [] (t.pane p).inb u).getLastD 0).getLsbD e =
          (c.words.getD (e / per) 0).getLsbD (2 ^ bitsAt c.cmd 1 3 * (e % per) + b)) ∧
        (∀ (w : Nat), w ≠ u → tblGet [] (t.pane p).inb w = tblGet [] (s.pane p).inb w) ∧
        tblGet none (t.port slat).run quad =
          (if k + 1 = planes then tblGet none (s.port slat).ahead quad else some { c with next := k + 1 }) ∧
        (t.port slat).drops = (s.port slat).drops + 1 ∧
        t = { s with panes := t.panes, pctl := t.pctl, rowPorts := t.rowPorts, pins := t.pins }) ∧
    (bitOf c.cmd 23 = false → 16 ≤ (tblGet [] (s.pane p).inb u).length →
      ∃ t, exec (.hamperDrop slat quad []) s = .next t ∧ t.port slat = { s.port slat with held := some quad } ∧
        t = { s with rowPorts := t.rowPorts, pins := t.pins } ∧ (∀ (j : Nat), j ≠ slat → t.port j = s.port j)) ∧
    (bitOf c.cmd 23 = false → (tblGet [] (s.pane p).inb u).length < 16 → (s.ctl p).hampFrozen = false → s.taskNow (s.gangBase p) ≠ 0 →
      s.gangBase p = p → s.paneGang p = [p] →
      ∃ t, exec (.hamperDrop slat quad [34]) s = .next t ∧ (t.ctl p).hampFrozen = true ∧ bitOf (t.getReg 0x02 p 0x244).toNat 31 = true ∧
        bitsAt (t.getReg 0x02 p 0x244).toNat 8 3 = u % 8 ∧ bitsAt (t.getReg 0x02 p 0x244).toNat 11 8 = u / 8 ∧
        bitOf (t.getReg 0x02 p 0x244).toNat 29 = false ∧ t.taskNow p = 0 ∧ t.reports.length = s.reports.length + 1 ∧
        t.get R.PCTL_OVERRUN_COUNT p = s.get R.PCTL_OVERRUN_COUNT p) ∧
    (bitOf c.cmd 23 = true → tblGet [] (s.pane p).outb u = [] →
      ∃ t, exec (.hamperLift slat quad) s = .next t ∧ t.port slat = { s.port slat with held := some quad } ∧
        t = { s with rowPorts := t.rowPorts, pins := t.pins } ∧ (∀ (j : Nat), j ≠ slat → t.port j = s.port j)) ∧
    (∀ (entry : BitVec 34) (more : List (BitVec 34)), bitOf c.cmd 23 = true → tblGet [] (s.pane p).outb u = entry :: more → entryOk entry = true →
      let slice := entry.truncate 32
      (k + 1 < planes →
        ∃ t, exec (.hamperLift slat quad) s = .next t ∧ tblGet [] (t.pane p).outb u = more ∧
          tblGet none (t.port slat).run quad = some { c with next := k + 1, words := c.words ++ [slice] } ∧
          (t.port slat).lifts = (s.port slat).lifts + 1 ∧
          t = { s with panes := t.panes, pctl := t.pctl, rowPorts := t.rowPorts, pins := t.pins }) ∧
      (k = 0 → planes = 1 → c.words = [] → bitsAt c.cmd 1 3 ≤ 5 → bitsAt c.cmd 4 5 < 2 ^ bitsAt c.cmd 1 3 → c.addr % 4 = 0 → c.addr + 128 ≤ 65536 →
        (∀ (j : Nat), j < 32 → (s.mem (engKey 4 slat)).decode true (c.addr / 8 + j) = .clean) →
        ∃ t, exec (.hamperLift slat quad) s = .next t ∧ tblGet none (t.port slat).run quad = tblGet none (s.port slat).ahead quad ∧
          tblGet [] (t.pane p).outb u = more ∧
          (∀ (j z : Nat), j < 2 ^ bitsAt c.cmd 1 3 → z < 32 →
            bitOf (leNum ((t.mem (engKey 4 slat)).bytes true (c.addr + 4 * j) 4)) z =
              (if z % 2 ^ bitsAt c.cmd 1 3 = b then slice.getLsbD (per * j + z / 2 ^ bitsAt c.cmd 1 3)
                else bitOf (leNum ((s.mem (engKey 4 slat)).bytes true (c.addr + 4 * j) 4)) z)) ∧
          (∀ (a : Nat), a < 65536 → a < c.addr ∨ c.addr + 4 * 2 ^ bitsAt c.cmd 1 3 ≤ a →
            (t.mem (engKey 4 slat)).byte true a = (s.mem (engKey 4 slat)).byte true a)))) ∧
  (∀ (i : Initiator) (p : Nat) (q : NetReq) (s : State), p < 16 → s.targetOpen (.plane p (q.addr % 2 ^ 24)) = true →
    let addr := q.addr % 2 ^ 24 / 8192
    let n := q.addr % 8192 / 64 * 64
    let ok := i.src = p ∧ 1 ≤ i.init ∧ i.init ≤ 8 ∧ s.pcState p = 0 ∧ (s.pane p).initRunning = false ∧ s.flag R.PANE_BIST_STAT_BUSY p = false ∧
      q.rotate = false ∧ q.flits = 1 ∧ q.dma = true
    (ok → (s.pane p).errs = [] → q.write = true → q.data.length = 64 →
      ∃ t, exec (.pePlaneWindowAccess i p q) s = .next t ∧ t.answered rspOk ∧
        (∀ (k : Nat), k < 65536 → (tblGet 0 (t.pane p).planes addr).getLsbD k =
          (if n ≤ k / 8 ∧ k / 8 < n + 64 ∧ bitOf q.be (k / 8 - n) = true then (q.data.getD (k / 8 - n) 0).getLsbD (k % 8)
            else (tblGet 0 (s.pane p).planes addr).getLsbD k)) ∧
        (∀ (d : Nat), d ≠ addr → tblGet 0 (t.pane p).planes d = tblGet 0 (s.pane p).planes d) ∧
        t = { s with panes := t.panes, answer := t.answer, pins := t.pins } ∧ (∀ (j : Nat), j ≠ p → t.pane j = s.pane j)) ∧
    (ok → (s.pane p).errs = [] → q.write = false →
      ∃ t, exec (.pePlaneWindowAccess i p q) s = .next t ∧ t = { s with answer := t.answer, pins := t.pins } ∧
        t.answer = [⟨rspOk, (List.range 64).map (fun k => if bitOf q.be k then
          BitVec.ofNat 8 ((tblGet 0 (s.pane p).planes addr).toNat / 2 ^ (8 * (n + k))) else 0)⟩]) ∧
    (¬ok → s.get (R.HDR_ERR_CODE_CODE.on 0x01) p = 0 →
      ∃ t, exec (.pePlaneWindowAccess i p q) s = .next t ∧ t.answer = [⟨rspRefused, []⟩] ∧ Latches 0x01 p 0 0x0103 t ∧ OnlyRegs (errKeys 0x01 p) s t))

/-- R336, R341 to R343, R345, R347, R348, R550, R70. -/
def Obligations.DisplayHeads : Prop :=
  (∀ (h : Nat) (s : State), h < 4 → s.domainOn 5 = true → s.flag (R.HDR_CTL_ENABLE.on 0x0D) h = true → s.flag R.TICK_RUN_RUN 0 = true →
    let x := s.head h
    (0 < x.due → s.flag R.GLAZ_LOAD_STAT_BUSY 0 = false →
      let src := if s.domainOn 4 = false then 3 else if s.flag R.HEAD_SRC_FORCE_LIMP h then 2
        else if x.info.isSome ∧ x.lines.head?.map (fun l => l.1) = some 0 then 1 else 2
      let was := s.get R.HEAD_SRC_SOURCE h
      ∃ t, exec (.headFrameStart h) s = .next t ∧
        (t.head h).scan = some ⟨x.frames, decide (s.get R.HEAD_FMT_REFRESH h = 2 ∧ x.due = 1), s.get R.TICK_SNAP 0, src, none, s.domainOn 4,
          false, [], false⟩ ∧
        (t.head h).frames = (x.frames + 1) % 2 ^ 32 ∧ (t.head h).due = x.due - 1 ∧ (t.head h).style = s.get R.HEAD_CP_CTL h % 16 ∧
        t.get R.HEAD_SRC_SOURCE h = src ∧ Raises 0x0D h (1 + (if was ≠ src ∧ src = 1 then 16 else if was ≠ src ∧ src = 2 then 8 else 0)) s t ∧
        (src = 2 → t.get R.HEAD_LIMP_FRAMES_COUNT h = min (s.get R.HEAD_LIMP_FRAMES_COUNT h + 1) (2 ^ 32 - 1)) ∧
        (src ≠ 2 → t.get R.HEAD_LIMP_FRAMES_COUNT h = s.get R.HEAD_LIMP_FRAMES_COUNT h) ∧
        (s.domainOn 4 = true → x.taken = false → ∀ (k : Nat), k ∈ headTts s.glazRd h →
          (t.pair k h).mode = ttMode (ttDef s.glazRd k) (s.glazValue (ttDef s.glazRd k).entry) ∧
          (t.pair k h).shown = shownState (ttDef s.glazRd k) (t.pair k h).mode s.edges) ∧
        t = { s with heads := t.heads, glaz := t.glaz, regs := t.regs, shutter := t.shutter, freeCount := t.freeCount, pins := t.pins } ∧
        (∀ (k : Nat), k ≠ h → t.head k = s.head k)) ∧
    (x.due = 0 → ∃ t, exec (.headFrameStart h) s = .next t ∧ t = { s with pins := t.pins })) ∧
  (∀ (h k : Nat) (it : Itinerary) (hd : HeadRec) (r : RegionRec) (s : State), h < 4 → s.domainOn 5 = true → s.domainOn 9 = true → s.linkUp = true →
    s.flag (R.HDR_CTL_ENABLE.on 0x0D) h = true → s.porter.shown = some it → it.heads[h]? = some hd → hd.enable = true →
    (s.head h).nextLine < hd.height → regionsAt it h (s.head h).nextLine = [(k, r)] → r.x = 0 → r.w = hd.width →
    it.hasTask s.porter.shownVariant r.task = false →
    ((s.head h).scan = none → 0 < (s.head h).due → (s.head h).lines.length < 2 →
      ∃ t, exec (.scanoutFetch h) s = .next t ∧ t.head h = { s.head h with
          lines := (s.head h).lines ++ [((s.head h).nextLine, List.replicate hd.width (expandPixel hd.bpp r.fill))]
          nextLine := (s.head h).nextLine + 1 } ∧
        t = { s with heads := t.heads, pins := t.pins } ∧ (∀ (j : Nat), j ≠ h → t.head j = s.head j)) ∧
    (∀ (c : Scan), (s.head h).scan = some c → c.source = 1 → c.cut = none → (s.head h).lines.length = 2 →
      ∃ t, exec (.scanoutFetch h) s = .next t ∧ (t.head h).lines = (s.head h).lines.drop 1 ++
          [((s.head h).nextLine, List.replicate hd.width (expandPixel hd.bpp r.fill))] ∧
        (t.head h).nextLine = (s.head h).nextLine + 1 ∧ (t.head h).glass.length = s.get R.HEAD_HTIME_ACTIVE h ∧
        t = { s with heads := t.heads, pins := t.pins } ∧ (∀ (j : Nat), j ≠ h → t.head j = s.head j))) ∧
  (∀ (h : Nat) (c : Scan) (s : State), h < 4 → s.domainOn 5 = true → s.flag (R.HDR_CTL_ENABLE.on 0x0D) h = true → (s.head h).scan = some c →
    c.source = 1 → c.cut = none → (s.head h).nextLine < s.get R.HEAD_VTIME_ACTIVE h →
    ∃ t, exec (.lineBufferUnderrun h) s = .next t ∧ (t.head h).scan = some { c with cut := some (s.head h).nextLine } ∧
      t.get R.HEAD_SRC_SOURCE h = 2 ∧ t.get R.HEAD_UNDERRUNS_COUNT h = min (s.get R.HEAD_UNDERRUNS_COUNT h + 1) (2 ^ 32 - 1) ∧
      t.get R.HEAD_LIMP_FRAMES_COUNT h = min (s.get R.HEAD_LIMP_FRAMES_COUNT h + 1) (2 ^ 32 - 1) ∧
      Raises 0x0D h (4 + (if s.get R.HEAD_SRC_SOURCE h = 2 then 0 else 8)) s t ∧ t = { s with heads := t.heads, regs := t.regs, pins := t.pins }) ∧
  (∀ (i : Initiator) (h : Nat) (v : Word) (s : State), h < 4 → s.pageOpen 0x0D h = true →
    let x := s.head h
    let table := s.get R.HEAD_LUT_IDX_TABLE h
    let k := s.get R.HEAD_LUT_IDX_INDEX h
    (x.copying = true → s.domainOn 5 = true → ∃ t, exec (.lutCopyDone h) s = .next t ∧ t.head h = { x with lutSpare := x.lut, copying := false } ∧
      t = { s with heads := t.heads, pins := t.pins }) ∧
    (x.copying = false → k < (if table = 0 then 4913 else 1024) →
      ∃ t, exec (.lutDataAccess i h (some v)) s = .next t ∧ t.answered rspOk ∧
        tblGet 0 (t.head h).lutSpare (8192 * table + k) = v.toNat % (if table = 0 then 2 ^ 30 else 2 ^ 12) ∧
        (∀ (j : Nat), j ≠ 8192 * table + k → tblGet 0 (t.head h).lutSpare j = tblGet 0 x.lutSpare j) ∧ (t.head h).lut = x.lut ∧
        t.get R.HEAD_LUT_IDX_INDEX h = (k + 1) % 2 ^ 13 ∧ t.get R.HEAD_LUT_IDX_TABLE h = table ∧
        t = { s with heads := t.heads, regs := t.regs, answer := t.answer, pins := t.pins }) ∧
    (x.copying = true → s.get (R.HDR_ERR_CODE_CODE.on 0x0D) h = 0 →
      ∃ t, exec (.lutDataAccess i h (some v)) s = .next t ∧ t.answered rspRefused ∧ Latches 0x0D h 0x06C 0x0102 t ∧ OnlyRegs (errKeys 0x0D h) s t) ∧
    (k < (if table = 0 then 4913 else 1024) →
      ∃ t, exec (.lutDataAccess i h none) s = .next t ∧ t.answer = [⟨rspOk, wordBytes (word (tblGet 0 x.lutSpare (8192 * table + k)))⟩] ∧
        t.get R.HEAD_LUT_IDX_INDEX h = (k + 1) % 2 ^ 13 ∧ OnlyRegs [R.HEAD_LUT_IDX.key h] s t)) ∧
  (∀ (i : Initiator) (h lanes ms : Nat) (s : State), h < 4 →
    (s.pageOpen 0x0D h = true → ∃ t, exec (.headLinkTrain i h) s = .next t ∧ t.answered rspOk ∧ t.flag R.HEAD_LINK_CTL_TRAIN h = true ∧
      t.get R.HEAD_LINK_STAT_STATE h = 1 ∧ t.get R.HEAD_LINK_CTL_LOW_POWER h = s.get R.HEAD_LINK_CTL_LOW_POWER h ∧
      OnlyRegs [R.HEAD_LINK_CTL.key h, R.HEAD_LINK_STAT.key h] s t) ∧
    (s.get R.HEAD_LINK_STAT_STATE h = 1 → s.domainOn 5 = true →
      (∃ t, exec (.headLinkTrainDone h lanes ms true) s = .next t ∧ t.get R.HEAD_LINK_STAT_STATE h = 2 ∧ t.flag R.HEAD_LINK_CTL_TRAIN h = false ∧
        t.get R.HEAD_LINK_STAT_LANES_OK h = lanes % 16 ∧ t.get R.HEAD_LINK_STAT_TRAIN_MS h = min ms 255 ∧
        t = { s with regs := t.regs, pins := t.pins } ∧ RegsBut [R.HEAD_LINK_CTL.key h, R.HEAD_LINK_STAT.key h] s t) ∧
      (∃ t, exec (.headLinkTrainDone h lanes ms false) s = .next t ∧ t.get R.HEAD_LINK_STAT_STATE h = 3 ∧
        t.flag R.HEAD_LINK_CTL_TRAIN h = false ∧ Raises 0x0D h 64 s t)) ∧
    (s.get R.HEAD_LINK_STAT_STATE h = 2 → s.get R.HEAD_PHY_PRIMARY h = 1 ∨ s.get R.HEAD_PHY_PRIMARY h = 2 → s.domainOn 5 = true →
      ∃ t, exec (.headLinkLost h lanes) s = .next t ∧ t.get R.HEAD_LINK_STAT_STATE h = 3 ∧ t.get R.HEAD_LINK_STAT_LANES_OK h = lanes % 16 ∧
        Raises 0x0D h 64 s t ∧ t = { s with regs := t.regs, pins := t.pins } ∧ RegsBut [evtKey 0x0D h, R.HEAD_LINK_STAT.key h] s t) ∧
    (s.domainOn 5 = true → ∃ t, exec (.hpdIrq h) s = .next t ∧ Raises 0x0D h 128 s t ∧ t = { s with regs := t.regs, pins := t.pins } ∧
      RegsBut [evtKey 0x0D h] s t)) ∧
  (∀ (i : Initiator) (h status : Nat) (v : Word) (data : List Byte) (s : State), h < 4 →
    (s.pageOpen 0x0D h = true → s.flag R.HEAD_SIDE_CMD_GO h = false →
      ∃ t, exec (.sideTransactionStart i h v) s = .next t ∧ t.answered rspOk ∧
        t.getReg 0x0D h 0x078 = word ((v ||| 0x80000000).toNat / 16 * 16 + 1) ∧ OnlyRegs [R.HEAD_SIDE_CMD.key h] s t) ∧
    (s.pageOpen 0x0D h = true → s.flag R.HEAD_SIDE_CMD_GO h = true → s.get (R.HDR_ERR_CODE_CODE.on 0x0D) h = 0 →
      ∃ t, exec (.sideTransactionStart i h v) s = .next t ∧ t.answered rspRefused ∧ Latches 0x0D h 0x078 0x0103 t ∧ OnlyRegs (errKeys 0x0D h) s t) ∧
    (s.flag R.HEAD_SIDE_CMD_GO h = true → s.domainOn 5 = true →
      ∃ t, exec (.sideTransactionDone h status data) s = .next t ∧ t.flag R.HEAD_SIDE_CMD_GO h = false ∧
        t.get R.HEAD_SIDE_CMD_STATUS h = status % 16 ∧ Raises 0x0D h 0x100 s t ∧
        (∀ (k : Nat), k < 16 → t.get ⟨0x0D, 0x07C + 4 * (k / 4), 4, 8 * (k % 4), 8⟩ h =
          if s.flag R.HEAD_SIDE_CMD_READ h = true ∧ status = 0 ∧ k ≤ s.get R.HEAD_SIDE_CMD_LEN_M1 h then (data.getD k 0).toNat
          else s.get ⟨0x0D, 0x07C + 4 * (k / 4), 4, 8 * (k % 4), 8⟩ h) ∧
        t = { s with regs := t.regs, pins := t.pins })) ∧
  (∀ (h : Nat) (s : State), h < 4 → s.linkUp = true → s.domainOn 5 = true → s.flag (R.HDR_CTL_ENABLE.on 0x0D) h = true →
    (∀ (m : List Byte) (i : FrameInfo), (s.side 0).messages = [m] → m = packInfo h i → i.variant < 256 → i.picSnap < 2 ^ 32 → i.itinId < 2 ^ 32 →
      i.surfCount = i.surfs.length → i.surfs.length ≤ 6 → (∀ k, k ∈ i.surfs → k < 2 ^ 16) →
      ∃ t, exec (.frameInfoReceive h) s = .next t ∧ t.head h = { s.head h with info := some i } ∧ (t.side 0).messages = [] ∧
        t = { s with heads := t.heads, lintel := t.lintel, pins := t.pins } ∧ (∀ (j : Nat), j ≠ h → t.head j = s.head j)) ∧
    ((s.side 0).messages.find? (isInfo h) = none → ∃ t, exec (.frameInfoReceive h) s = .next t ∧ t = { s with pins := t.pins })) ∧
  (∀ (h : Nat) (c : Scan) (s : State), h < 4 → s.domainOn 5 = true → s.flag (R.HDR_CTL_ENABLE.on 0x0D) h = true → (s.head h).scan = some c →
    c.cut = none → (∀ (k : Nat), k ∈ headTts s.glazRd h → c.seen = true → c.suspended = false → k ∈ c.checked) →
    let verdict := if c.seen = false ∨ c.suspended = true then 3 else if headTts s.glazRd h = [] then 2 else if c.mismatch then 1 else 0
    let rec_ := fun (t : State) (k : Nat) => t.getReg 0x17 0 (0x400 + 0x100 * h + 0x20 * (c.number % 8) + 4 * k)
    (c.source = 2 → ∃ t, exec (.provenanceRecordWrite h) s = .next t ∧ (t.head h).scan = none ∧ (t.head h).lines = [] ∧
      rec_ t 0 = word c.number ∧ rec_ t 1 = word c.ttSnap ∧ rec_ t 2 = word c.ttSnap ∧ rec_ t 3 = 0 ∧
      rec_ t 4 = word (verdict * 2 ^ 20 + (if c.second then 16 else 0) + 9) ∧ (∀ (k : Nat), k < 3 → rec_ t (5 + k) = 0xFFFFFFFF) ∧
      t.get (provWp h) 0 = c.number % 8 ∧ Raises 0x0D h 2 s t) ∧
    (∀ (i : FrameInfo), c.source = 1 → (s.head h).info = some i →
      ∃ t, exec (.provenanceRecordWrite h) s = .next t ∧ (t.head h).scan = none ∧ (t.head h).lines = [] ∧
        rec_ t 0 = word c.number ∧ rec_ t 1 = word i.picSnap ∧ rec_ t 2 = word c.ttSnap ∧ rec_ t 3 = word i.itinId ∧
        rec_ t 4 = word (i.variant % 256 * 2 ^ 24 + verdict * 2 ^ 20 + i.surfCount % 256 * 2 ^ 8 + (if c.second then 16 else 0) +
          (if i.hold then 4 else 0) + (if i.debug then 2 else 0) + 1) ∧
        (∀ (k : Nat), k < 3 → rec_ t (5 + k) = word (i.surfs.getD (2 * k + 1) 0xFFFF % 2 ^ 16 * 2 ^ 16 + i.surfs.getD (2 * k) 0xFFFF % 2 ^ 16)) ∧
        (i.hold = true ∨ i.debug = true → bitOf (t.getReg 0x17 0 0x010).toNat 6 = true) ∧ t.get (provWp h) 0 = c.number % 8 ∧ Raises 0x0D h 2 s t))

/-- R349, R357, R359 to R362, R366, R439. -/
def Obligations.GlazingChecks : Prop :=
  (∀ (slot : Nat) (s : State), slot < 32 → s.pageOpen 0x0E 0 = true →
    let someHead := (List.range 4).any (fun h => s.flag (R.HDR_CTL_ENABLE.on 0x0D) h)
    (s.flag R.GLAZ_LOAD_STAT_BUSY 0 = false →
      ∃ t, exec (.glazingLoadStart slot) s = .next t ∧ t.answered rspOk ∧ t.flag R.GLAZ_LOAD_STAT_BUSY 0 = true ∧
        t.flag R.GLAZ_LOAD_CTL_START 0 = true ∧ t.get R.GLAZ_LOAD_CTL_SLOT 0 = slot ∧ t.getReg 0x0E 0 0x04C = 0 ∧ t.getReg 0x0E 0 0x050 = 0 ∧
        (∀ (h : Nat), h < 4 → t.head h = { s.head h with taken := false, scan := (s.head h).scan.map (fun c => { c with suspended := true }) }) ∧
        Raises 0x0E 0 (if someHead then 16 else 0) s t ∧
        t.reports = s.reports ++ (if someHead then [⟨0x0E, 0, 4, clsTelltale⟩] else []) ∧ t.pins.ttFault = t.ttFault ∧
        (someHead = true → t.pins.ttFault = true) ∧
        t = { s with regs := t.regs, heads := t.heads, reports := t.reports, answer := t.answer, pins := t.pins }) ∧
    (s.flag R.GLAZ_LOAD_STAT_BUSY 0 = true → s.get (R.HDR_ERR_CODE_CODE.on 0x0E) 0 = 0 →
      ∃ t, exec (.glazingLoadStart slot) s = .next t ∧ t.answered rspRefused ∧ Latches 0x0E 0 0x044 0x0104 t ∧ OnlyRegs (errKeys 0x0E 0) s t)) ∧
  (∀ (head rest : List Byte) (s : State), s.domainOn 4 = true → s.flag R.GLAZ_LOAD_STAT_BUSY 0 = true →
    let a := s.get R.GLAZ_LOAD_ADDR_OFFSET 0
    let slot := s.get R.GLAZ_LOAD_CTL_SLOT 0
    s.flash.errs = [] → (List.range 32).map (fun k => flashByte s.flash (a + k)) = head →
    (contSteps (fun k => k == 2) slot false head s = 0 → contLen head ≤ sramSize → a + contSize head ≤ journalBase →
      (List.range (contSize head - 32)).map (fun k => flashByte s.flash (a + 32 + k)) = rest →
      contTagOk slot (head ++ rest) s = true →
      let payload := rest.take (contLen head)
      let g := { s.glaz with sram := memWrite 0 s.glaz.sram 0 payload, errs := tblDrop s.glaz.errs 0 ((payload.length + 7) / 8) }
      assetCheck (fun a n => g.num a n) (contLen head) s.headArea = 0 →
      ∃ t, exec .glazingLoadDone s = .next t ∧ t.glaz = g ∧ t.flag R.GLAZ_LOAD_STAT_BUSY 0 = false ∧ t.flag R.GLAZ_LOAD_STAT_FAIL 0 = false ∧
        t.get R.GLAZ_LOAD_STAT_BYTES_KIB 0 = contLen head / 1024 ∧ t.flag R.GLAZ_FAULT_SRAM_UE 0 = false ∧
        t.getReg 0x0E 0 0x04C = word (g.num 4 1 * 2 ^ 24 + g.num 5 1 * 2 ^ 16 + g.num 6 2) ∧
        t.getReg 0x0E 0 0x050 = word (leNum ((contTag (head ++ rest)).take 4)) ∧ Raises 0x0E 0 1 s t ∧
        t = { s with glaz := t.glaz, regs := t.regs, pins := t.pins }) ∧
    (contSteps (fun k => k == 2) slot false head s ≠ 0 → s.get (R.HDR_ERR_CODE_CODE.on 0x0E) 0 = 0 →
      ∃ t, exec .glazingLoadDone s = .next t ∧ t.glaz = { s.glaz with sram := [], errs := [] } ∧ t.flag R.GLAZ_LOAD_STAT_BUSY 0 = false ∧
        t.flag R.GLAZ_LOAD_STAT_FAIL 0 = true ∧ Raises 0x0E 0 2 s t ∧ Latches 0x0E 0 0x044 0x0102 t ∧
        t.getReg 0x0E 0 0x04C = s.getReg 0x0E 0 0x04C ∧ t = { s with glaz := t.glaz, regs := t.regs, pins := t.pins })) ∧
  (∀ (h tt other : Nat) (flips : Flips) (c : Scan) (s : State), h < 4 → tt < 256 → s.domainOn 4 = true → s.domainOn 5 = true → s.glaz.errs = [] →
    (s.head h).scan = some c → c.seen = true → c.suspended = false → tt ∉ c.checked → tt ∈ headTts s.glazRd h →
    let p := s.pair tt h
    let crc := streamCrc (turnBits flips (rectBits s.glazRd (ttDef s.glazRd tt) p.shown (s.headDepth h)))
    let want := ttExp s.glazRd tt h p.shown
    let n := min (p.count + 1) 15
    (crc = want → other % 2 ^ 32 = 0 → p.esc ≠ 2 →
      ∃ t, exec (.telltaleCrcCheck h tt flips other) s = .next t ∧ t.pair tt h = { p with last := crc, count := 0, esc := 0 } ∧
        t.head h = { s.head h with scan := some { c with checked := tt :: c.checked } } ∧
        t = { s with glaz := t.glaz, heads := t.heads, pins := t.pins } ∧ (∀ (j k : Nat), j ≠ h → k < 256 → j < 4 → t.pair k j = s.pair k j)) ∧
    (crc ≠ want → other % 2 ^ 32 = 0 → p.esc ≠ 2 → n < s.get R.GLAZ_ESC_MISS_LIMIT 0 →
      ∃ t, exec (.telltaleCrcCheck h tt flips other) s = .next t ∧
        t.pair tt h = { p with last := crc, count := n, total := min (p.total + 1) 0xFFFF, esc := 1 } ∧
        t.head h = { s.head h with scan := some { c with checked := tt :: c.checked, mismatch := true } } ∧ Raises 0x0E 0 4 s t ∧
        t.get R.GLAZ_MISMATCHES_COUNT 0 = min (s.get R.GLAZ_MISMATCHES_COUNT 0 + 1) (2 ^ 32 - 1) ∧
        t = { s with glaz := t.glaz, heads := t.heads, regs := t.regs, pins := t.pins }) ∧
    (crc ≠ want → other % 2 ^ 32 = 0 → p.esc ≠ 2 → s.get R.GLAZ_ESC_MISS_LIMIT 0 ≤ n →
      ∃ t, exec (.telltaleCrcCheck h tt flips other) s = .next t ∧
        t.pair tt h = { p with last := crc, count := n, total := min (p.total + 1) 0xFFFF, esc := 2 } ∧ Raises 0x0E 0 28 s t ∧
        bitOf (t.getReg 0x0E 0 (0x080 + 4 * (tt / 32))).toNat (tt % 32) = true ∧ Reports 0x0E 0 3 clsTelltale s t ∧ t.pins.ttFault = true) ∧
    (crc = want → other % 2 ^ 32 ≠ 0 → s.flag R.GLAZ_FAULT_CHECKER 0 = false →
      ∃ t, exec (.telltaleCrcCheck h tt flips other) s = .next t ∧ t.flag R.GLAZ_FAULT_CHECKER 0 = true ∧ t.pins.ttFault = true ∧
        (t.pair tt h).total = min (p.total + 1) 0xFFFF ∧ t.head h = { s.head h with scan := some { c with checked := tt :: c.checked, mismatch := true } })) ∧
  (∀ (h tt : Nat) (s : State), h < 4 → tt < 256 → s.pageOpen 0x0E 0 = true →
    (∃ t, exec (.ttClear false h tt) s = .next t ∧ t.answered rspOk ∧ t.pair tt h = { s.pair tt h with esc := 0, count := 0 } ∧
      (∀ (j k : Nat), j < 4 → k ≠ tt ∨ j ≠ h → t.pair k j = s.pair k j) ∧
      bitOf (t.getReg 0x0E 0 (0x080 + 4 * (tt / 32))).toNat (tt % 32) = (List.range 4).any (fun j => j != h && (s.pair tt j).esc == 2) ∧
      t = { s with glaz := t.glaz, regs := t.regs, answer := t.answer, pins := t.pins }) ∧
    (∃ t, exec (.ttClear true h tt) s = .next t ∧ t.answered rspOk ∧ (∀ (j k : Nat), j < 4 → (t.pair k j).esc = 0 ∧ (t.pair k j).count = 0 ∧
        (t.pair k j).total = (s.pair k j).total) ∧ t = { s with glaz := t.glaz, regs := t.regs, answer := t.answer, pins := t.pins })) ∧
  (∀ (h : Nat) (s : State), h < 4 → s.domainOn 4 = true → s.domainOn 5 = true → s.flag (R.HDR_CTL_ENABLE.on 0x0D) h = true →
    headTts s.glazRd h ≠ [] → s.flag R.TICK_RUN_RUN 0 = true → 0 < (s.head h).due ∨ (s.head h).scan.isSome = true →
    (bitOf (s.get R.GLAZ_FAULT_FRAME_MISSING 0) h = false →
      ∃ t, exec (.frameMissing h) s = .next t ∧ bitOf (t.get R.GLAZ_FAULT_FRAME_MISSING 0) h = true ∧ Raises 0x0E 0 16 s t ∧
        Reports 0x0E 0 4 clsTelltale s t ∧ t.pins.ttFault = true ∧ t = { s with regs := t.regs, reports := t.reports, pins := t.pins }) ∧
    (bitOf (s.get R.GLAZ_FAULT_FRAME_MISSING 0) h = true → ∃ t, exec (.frameMissing h) s = .next t ∧ t = { s with pins := t.pins })) ∧
  (∀ (j v : Nat) (s : State), s.domainOn 4 = true →
    let row := s.glaz.scrubRow
    let pat := tblGet 0 s.glaz.errs row
    let next := (row + 1) % (sramSize / 8)
    (decodeWord pat.toNat = .clean → ∃ t, exec .glazingSramScrub s = .next t ∧ t.glaz = { s.glaz with scrubRow := next } ∧
      t = { s with glaz := t.glaz, pins := t.pins }) ∧
    (decodeWord pat.toNat = .corrected j v →
      ∃ t, exec .glazingSramScrub s = .next t ∧ t.glaz.scrubRow = next ∧ tblGet 0 t.glaz.errs row = BitVec.ofNat 76 (residue pat.toNat) ∧
        t.glaz.sram = s.glaz.sram ∧ t.get R.GLAZ_SRAM_CE_COUNT 0 = min (s.get R.GLAZ_SRAM_CE_COUNT 0 + 1) (2 ^ 32 - 1) ∧ Raises 0x0E 0 32 s t ∧
        t.reports = s.reports) ∧
    (decodeWord pat.toNat = .uncorrectable →
      ∃ t, exec .glazingSramScrub s = .next t ∧ t.glaz = { s.glaz with scrubRow := next } ∧ t.flag R.GLAZ_FAULT_SRAM_UE 0 = true ∧
        t.get R.GLAZ_SRAM_UE_COUNT 0 = min (s.get R.GLAZ_SRAM_UE_COUNT 0 + 1) (2 ^ 32 - 1) ∧ Raises 0x0E 0 80 s t ∧
        Reports 0x0E 0 6 clsTelltale s t ∧ t.pins.ttFault = true))

/-- R368, R370 to R372, R374, R376. -/
def Obligations.Cameras : Prop :=
  (∀ (c vc fnum : Nat) (f : CamFrame) (corrected : Bool) (s : State), c < 4 → s.domainOn 6 = true → s.flag (R.HDR_CTL_ENABLE.on 0x0F) c = true →
    let x := s.cam c
    let ecc := if corrected then 1 else 0
    (vc = s.get R.CAMI_RX_CFG_VC c → s.linkUp = true → x.frame = none ∨ x.frame = some f ∧ f.link = false ∧ f.hdr = false ∧ f.crc = false →
      x.pix = [] →
      ∃ t, exec (.csiFrameStart c vc fnum corrected) s = .next t ∧ (t.cam c).frame = some ⟨0, none, false, false, false, false⟩ ∧
        (t.cam c).cfg = (s.getReg 0x0F c 0x040).toNat ∧ (t.cam c).pix = [.start (fnum % 2 ^ 16)] ∧ (t.cam c).bufs = x.bufs ∧
        t.get R.CAMI_RECEIVED_COUNT c = (s.get R.CAMI_RECEIVED_COUNT c + 1) % 2 ^ 32 ∧ t.get R.CAMI_STAT_FNUM c = fnum % 2 ^ 16 ∧
        t.flag R.CAMI_STAT_IN_FRAME c = true ∧ t.get R.CAMI_STAT_LINE c = 0 ∧
        t.get R.CAMI_ECC_CORR_COUNT c = (s.get R.CAMI_ECC_CORR_COUNT c + ecc) % 2 ^ 32 ∧
        t.get R.CAMI_DISC_SIZE_COUNT c = (s.get R.CAMI_DISC_SIZE_COUNT c + (if x.frame.isSome then 1 else 0)) % 2 ^ 32 ∧
        Raises 0x0F c (4 + ecc + (if x.frame.isSome then 16 else 0)) s t ∧
        t = { s with cams := t.cams, regs := t.regs, pins := t.pins } ∧ (∀ (k : Nat), k ≠ c → t.cam k = s.cam k)) ∧
    (vc ≠ s.get R.CAMI_RX_CFG_VC c →
      ∃ t, exec (.csiFrameStart c vc fnum false) s = .next t ∧ t.get R.CAMI_IGNORED_COUNT c = (s.get R.CAMI_IGNORED_COUNT c + 1) % 2 ^ 32 ∧
        t = { s with regs := t.regs, pins := t.pins } ∧ RegsBut [R.CAMI_IGNORED.key c] s t) ∧
    (∃ t, exec (.csiOtherPacket c corrected) s = .next t ∧ t.get R.CAMI_IGNORED_COUNT c = (s.get R.CAMI_IGNORED_COUNT c + 1) % 2 ^ 32 ∧
      t.get R.CAMI_ECC_CORR_COUNT c = (s.get R.CAMI_ECC_CORR_COUNT c + ecc) % 2 ^ 32 ∧ Raises 0x0F c ecc s t ∧
      t = { s with regs := t.regs, pins := t.pins })) ∧
  (∀ (c vc dt k n : Nat) (pixels : List Nat) (f : CamFrame) (crcOk : Bool) (s : State), c < 4 → s.domainOn 6 = true →
    s.flag (R.HDR_CTL_ENABLE.on 0x0F) c = true → s.linkUp = true → (s.cam c).frame = some f →
    vc = bitsAt (s.cam c).cfg 12 4 → dt = (s.cam c).cfg % 64 →
    let x := s.cam c
    let height := s.get R.CAMI_SIZE_HEIGHT c
    let wide := fun (v lo : Nat) => bitsAt v lo 8 * 4 + bitsAt v lo 8 / 64
    let data := pixels.flatMap (fun v => if dt = 0x2B then leBytes 2 (v % 2 ^ 10) else if dt = 0x2C then leBytes 2 (v % 2 ^ 12)
      else if dt = 0x24 then leBytes 4 (wide v 16 * 2 ^ 20 + wide v 8 * 2 ^ 10 + wide v 0) else leBytes 2 (v % 2 ^ 16))
    let a := s.get (R.LNTL_CAM_BUF_ADDR c k) 0 * 4096 + f.lines * (s.get (R.LNTL_CAM_FMT_STRIDE_64 c) 0 * 64)
    let good := crcOk = true ∧ pixels.length = s.get R.CAMI_SIZE_WIDTH c ∧ f.lines < height
    (good → f.lines + 1 < height → x.pix = [.start n] →
      ∃ t, exec (.csiLine c vc dt pixels 0 crcOk false) s = .next t ∧
        t.cam c = { x with frame := some { f with lines := f.lines + 1 }, pix := [.start n, .line f.lines data] } ∧
        t.get R.CAMI_STAT_LINE c = (f.lines + 1) % 2 ^ 12 ∧ t = { s with cams := t.cams, regs := t.regs, pins := t.pins } ∧
        RegsBut [R.CAMI_STAT.key c] s t ∧ (∀ (j : Nat), j ≠ c → t.cam j = s.cam j)) ∧
    (good → f.lines + 1 < height → x.pix = [] → x.writing = some k → (storeBytes ⟨26, 0⟩ a data s).2 = rspOk →
      ∃ t, exec (.csiLine c vc dt pixels 0 crcOk false) s = .next t ∧ t.ddr = (storeBytes ⟨26, 0⟩ a data s).1.ddr ∧
        t.cam c = { x with frame := some { f with lines := f.lines + 1 }, lines := x.lines + 1 }) ∧
    (good → f.lines + 1 < height → x.pix = [] → x.writing = some k → (storeBytes ⟨26, 0⟩ a data s).2 ≠ rspOk → s.domainUp 6 = true →
      ∃ t, exec (.csiLine c vc dt pixels 0 crcOk false) s = .next t ∧ ((t.cam c).buf k).st = 0 ∧ (t.cam c).lines = 0 ∧
        tblGet 0 (t.cam c).counts 4 = (tblGet 0 x.counts 4 + 1) % 2 ^ 32 ∧ t.get R.CAMI_WR_WERR_COUNT c = (tblGet 0 x.counts 4 + 1) % 2 ^ 32) ∧
    (good → f.lines + 1 = height →
      ∃ t, exec (.csiLine c vc dt pixels 0 crcOk false) s = .next t ∧
        t.cam c = { x with frame := some { f with lines := height, last := some data } } ∧
        t = { s with cams := t.cams, regs := t.regs, pins := t.pins }) ∧
    (¬good → ∃ t, exec (.csiLine c vc dt pixels 0 crcOk false) s = .next t ∧
        t.cam c = { x with frame := some { f with
          lines := f.lines + 1, crc := f.crc || !crcOk
          size := f.size || decide (pixels.length ≠ s.get R.CAMI_SIZE_WIDTH c ∨ height ≤ f.lines) } } ∧
        t = { s with cams := t.cams, regs := t.regs, pins := t.pins })) ∧
  (∀ (c vc n : Nat) (f : CamFrame) (d : List Byte) (s : State), c < 4 → s.domainOn 6 = true → s.flag (R.HDR_CTL_ENABLE.on 0x0F) c = true →
    s.linkUp = true → (s.cam c).frame = some f → vc = bitsAt (s.cam c).cfg 12 4 → f.link = false → f.hdr = false → f.crc = false → f.size = false →
    let height := s.get R.CAMI_SIZE_HEIGHT c
    (f.last = some d → f.lines = height → (s.cam c).pix = [.start n] →
      ∃ t, exec (.csiFrameEnd c vc false) s = .next t ∧ t.cam c = { s.cam c with frame := none, pix := [.start n, .line (height - 1) d] } ∧
        t.get R.CAMI_SENT_COUNT c = (s.get R.CAMI_SENT_COUNT c + 1) % 2 ^ 32 ∧ t.flag R.CAMI_STAT_IN_FRAME c = false ∧ Raises 0x0F c 8 s t ∧
        t = { s with cams := t.cams, regs := t.regs, pins := t.pins }) ∧
    (f.lines ≠ height →
      ∃ t, exec (.csiFrameEnd c vc false) s = .next t ∧ t.cam c = { s.cam c with frame := none } ∧
        t.get R.CAMI_DISC_SIZE_COUNT c = (s.get R.CAMI_DISC_SIZE_COUNT c + 1) % 2 ^ 32 ∧ t.flag R.CAMI_STAT_IN_FRAME c = false ∧
        Raises 0x0F c 16 s t ∧ t = { s with cams := t.cams, regs := t.regs, pins := t.pins })) ∧
  (∀ (c k n : Nat) (s : State), c < 4 → s.linkUp = true → s.domainOn 9 = true → (s.cam c).pix = [.start n] → (s.cam c).writing = none →
    let x := s.cam c
    (k < 4 → (x.buf k).st = 0 → s.flag (R.LNTL_CAM_BUF_VALID c k) 0 = true →
      (∀ (j : Nat), j < k → (x.buf j).st ≠ 0 ∨ s.flag (R.LNTL_CAM_BUF_VALID c j) 0 = false) →
      ∃ t, exec (.cameraWriterFrameStart c) s = .next t ∧ (t.cam c).buf k = ⟨1, n, 0⟩ ∧ (t.cam c).lines = 0 ∧ (t.cam c).pix = [] ∧
        (∀ (j : Nat), j ≠ k → (t.cam c).buf j = x.buf j) ∧ tblGet 0 (t.cam c).counts 0 = (tblGet 0 x.counts 0 + 1) % 2 ^ 32 ∧
        t = { s with cams := t.cams, regs := t.regs, pins := t.pins }) ∧
    ((∀ (j : Nat), j < 4 → (x.buf j).st ≠ 0 ∨ s.flag (R.LNTL_CAM_BUF_VALID c j) 0 = false) →
      ∃ t, exec (.cameraWriterFrameStart c) s = .next t ∧ (t.cam c).bufs = x.bufs ∧ (t.cam c).pix = [] ∧
        tblGet 0 (t.cam c).counts 0 = (tblGet 0 x.counts 0 + 1) % 2 ^ 32 ∧ tblGet 0 (t.cam c).counts 3 = (tblGet 0 x.counts 3 + 1) % 2 ^ 32 ∧
        t = { s with cams := t.cams, regs := t.regs, pins := t.pins })) ∧
  (∀ (c k stamp : Nat) (s : State), c < 4 → s.domainOn 9 = true → (s.cam c).writing = some k →
    let x := s.cam c
    (x.lines = s.get (R.LNTL_CAM_FMT_HEIGHT c) 0 →
      ∃ t, exec (.cameraFrameComplete c stamp) s = .next t ∧ (t.cam c).buf k = ⟨2, (x.buf k).fnum, stamp⟩ ∧ (t.cam c).lines = 0 ∧
        (∀ (j : Nat), j < 4 → j ≠ k → (t.cam c).buf j =
          if (x.buf j).st = 2 ∧ ((x.buf j).stamp < s.arrayCutoffStamp ↔ stamp < s.arrayCutoffStamp) then ⟨0, 0, 0⟩ else x.buf j) ∧
        t = { s with cams := t.cams, regs := t.regs, pins := t.pins }) ∧
    (x.lines ≠ s.get (R.LNTL_CAM_FMT_HEIGHT c) 0 → ∃ t, exec (.cameraFrameComplete c stamp) s = .next t ∧ t = { s with pins := t.pins })) ∧
  (∀ (c : Nat) (s : State), c < 4 →
    ((s.cam c).pulseDue = true → s.domainOn 6 = true →
      ∃ t, exec (.fsyncPulseStart c) s = .next t ∧ t.cam c = { s.cam c with pulseDue := false } ∧ tblGet false t.pins.fsync c = true ∧
        Raises 0x0F c 2 s t ∧ t = { s with cams := t.cams, regs := t.regs, pins := t.pins } ∧
        (∀ (j : Nat), j ≠ c → tblGet false t.pins.fsync j = tblGet false s.pins.fsync j)) ∧
    ((s.cam c).pulseDue = false → ∃ t, exec (.fsyncPulseStart c) s = .next t ∧ t = { s with pins := t.pins } ∧ t.pins.fsync = s.pins.fsync) ∧
    (∃ t, exec (.fsyncPulseEnd c) s = .next t ∧ tblGet false t.pins.fsync c = false ∧ t = { s with pins := t.pins } ∧
      (∀ (j : Nat), j ≠ c → tblGet false t.pins.fsync j = tblGet false s.pins.fsync j)))

/-- R388 to R421. The values of the CAN error counters are the model's (log entry 11). -/
def Obligations.Gatehouse : Prop :=
  (∀ (j node stamp : Nat) (fcs sym jabber : Bool) (frame : List Byte) (s : State), j < 2 → s.t1sOn j = true →
    let p := 4 + j
    let etype := beNum ((frame.drop 12).take 2)
    let body := (frame.drop 14).take (frame.length - 18)
    let pdu := decide (etype = s.get R.GATE_T1S_ETYPE_ETYPE 0)
    let seen := if s.get (R.GATE_T1S_STAT_MODE.nth j) 0 = 1 then node else 255
    let f : ArrivedFrame := if pdu then ⟨p, 3, false, beNum (body.take 4), seen, stamp, body.drop 4⟩ else ⟨p, 3, true, etype, seen, stamp, body⟩
    let short := frame.length < 64 ∨ 1522 < frame.length
    let ours := bitOf (frame.getD 0 0).toNat 0 = true ∨ frame.take 6 = s.macBytes
    let bad := if jabber then 6 else if fcs = false then 3 else if sym = false then 4 else if short then 5 else 7
    (jabber = true ∨ fcs = false ∨ sym = false ∨ short ∨ ¬ours →
      ∃ t, exec (.t1sFrameReceive j node stamp fcs sym jabber frame) s = .next t ∧ Counted [(p, 0, 1), (p, bad, 1)] s t ∧
        t = { s with gate := { s.gate with counts := t.gate.counts }, pins := t.pins }) ∧
    (jabber = false → fcs = true → sym = true → ¬short → ours →
      ∃ t, exec (.t1sFrameReceive j node stamp fcs sym jabber frame) s = .next t ∧ Counted [(p, 0, 1)] s t ∧ t.gate.arrived = arriving f s.gate.arrived ∧
        t = { s with gate := { s.gate with counts := t.gate.counts, arrived := t.gate.arrived }, pins := t.pins })) ∧
  (∀ (k fmt id sdt stamp : Nat) (fd remote : Bool) (data : List Byte) (s : State), k < 4 → s.canActive k = true → canLengthOk fmt fd data.length = true →
    let allowed := if fmt = 2 then s.flag (R.GATE_CAN_CFG_XL_EN.nth k) 0 else !fd || s.flag (R.GATE_CAN_CFG_FD_EN.nth k) 0
    let tec := tblGet 0 s.gate.tec k
    let rxe := tblGet 0 s.gate.rxe k
    let fewer := if 127 < rxe then 127 else rxe - 1
    (allowed = false → ∃ t, exec (.canFrameReceive k fmt id sdt stamp fd remote data) s = .next t ∧
      t.flag (R.GATE_CAN_STAT_SYNC.nth k) 0 = false ∧ t = { s with regs := t.regs, pins := t.pins } ∧ RegsBut [canStatKey k] s t) ∧
    (allowed = true → remote = true → fmt ≠ 2 → ∃ t, exec (.canFrameReceive k fmt id sdt stamp fd remote data) s = .next t ∧
      Counted [(k, 0, 1), (k, 8, 1)] s t ∧ ErrorCounters k tec fewer s t ∧ t.gate.arrived = s.gate.arrived ∧
      t = { s with gate := { s.gate with counts := t.gate.counts, tec := t.gate.tec, rxe := t.gate.rxe }, regs := t.regs, pins := t.pins } ∧
      RegsBut [canStatKey k] s t) ∧
    (allowed = true → (remote = false ∨ fmt = 2) → ∃ t, exec (.canFrameReceive k fmt id sdt stamp fd remote data) s = .next t ∧
      Counted [(k, 0, 1)] s t ∧ ErrorCounters k tec fewer s t ∧
      t.gate.arrived = arriving ⟨k, fmt, false, id, if fmt = 2 then sdt else 255, stamp, data⟩ s.gate.arrived ∧
      t = { s with gate := { s.gate with counts := t.gate.counts, tec := t.gate.tec, rxe := t.gate.rxe, arrived := t.gate.arrived }
                   regs := t.regs, pins := t.pins } ∧ RegsBut [canStatKey k] s t)) ∧
  (∀ (k : Nat) (sending dominant mayUse : Bool) (s : State), k < 4 → s.canOn k = true →
    let tec := tblGet 0 s.gate.tec k
    let rxe := tblGet 0 s.gate.rxe k
    let st := s.get (R.GATE_CAN_STAT_STATE.nth k) 0
    (s.canActive k = true → ∃ t, exec (.canError k sending dominant) s = .next t ∧ Counted [(k, 0x1B, 1)] s t ∧
      ErrorCounters k (if sending then tec + 8 else tec) (if sending then rxe else if dominant then rxe + 8 else rxe + 1) s t ∧
      t = { s with gate := { s.gate with counts := t.gate.counts, tec := t.gate.tec, rxe := t.gate.rxe }, regs := t.regs, pins := t.pins } ∧
      RegsBut [canStatKey k] s t) ∧
    (255 < tec → st ≠ 2 → ∃ t, exec (.canBusOff k) s = .next t ∧ t.get (R.GATE_CAN_STAT_STATE.nth k) 0 = 2 ∧ Counted [(k, 0x1C, 1)] s t ∧
      Raises 0x11 0 1 s t ∧ tblGet false t.gate.mayRecover k = false ∧ t.canActive k = false ∧ RegsBut [canStatKey k, evtKey 0x11 0] s t) ∧
    (st = 2 → mayUse = (s.flag (R.GATE_CAN_CFG_AUTO_RECOVER.nth k) 0 || tblGet false s.gate.mayRecover k) →
      ∃ t, exec (.canBusOffRecovery k) s = .next t ∧
        (mayUse = true → t.get (R.GATE_CAN_STAT_STATE.nth k) 0 = 0 ∧ tblGet 0 t.gate.tec k = 0 ∧ tblGet 0 t.gate.rxe k = 0 ∧
          Raises 0x11 0 2 s t ∧ tblGet false t.gate.mayRecover k = false ∧ RegsBut [canStatKey k, evtKey 0x11 0] s t) ∧
        (mayUse = false → t = { s with pins := t.pins })) ∧
    (∃ t, exec (.canBusIntegration k) s = .next t ∧ t.flag (R.GATE_CAN_STAT_SYNC.nth k) 0 = true ∧
      t = { s with regs := t.regs, pins := t.pins } ∧ RegsBut [canStatKey k] s t)) ∧
  (∀ (i : Initiator) (mask : Nat) (s : State), s.pageOpen 0x11 0 = true → mask < 16 →
    ∃ t, exec (.canRecover i mask) s = .next t ∧ t.answered rspOk ∧
      (∀ (k : Nat), k < 4 → tblGet false t.gate.mayRecover k =
        (tblGet false s.gate.mayRecover k || bitOf mask k && s.get (R.GATE_CAN_STAT_STATE.nth k) 0 == 2)) ∧
      t = { s with gate := { s.gate with mayRecover := t.gate.mayRecover }, answer := t.answer, pins := t.pins }) ∧
  (∀ (k j stamp : Nat) (f : TxFrame) (s : State),
    (k < 4 → s.canActive k = true → s.flag (R.GATE_CAN_CFG_LISTEN.nth k) 0 = false → s.nextTx k = some f →
      (∃ t, exec (.canTransmitDone k stamp) s = .next t ∧ SentFrame k stamp f s t ∧
        ErrorCounters k (tblGet 0 s.gate.tec k - 1) (tblGet 0 s.gate.rxe k) s t ∧ RegsBut [canStatKey k] s t) ∧
      (∃ t, exec (.canArbitrationLost k) s = .next t ∧ Counted [(k, 0x19, 1)] s t ∧
        t = { s with gate := { s.gate with counts := t.gate.counts }, pins := t.pins })) ∧
    (j < 2 → s.t1sSends j = true → s.nextTx (4 + j) = some f →
      (∃ t, exec (.t1sTransmit j stamp) s = .next t ∧ SentFrame (4 + j) stamp f s t ∧ t.regs = s.regs) ∧
      (f.collisions < 15 → ∃ t, exec (.t1sCollision j) s = .next t ∧ Counted [(4 + j, 0x1D, 1)] s t ∧
        t.nextTx (4 + j) = some { f with collisions := f.collisions + 1 } ∧ (∀ (p : Nat), p ≠ 4 + j → t.nextTx p = s.nextTx p) ∧
        (tblGet [] t.gate.txq (4 + j)).length = (tblGet [] s.gate.txq (4 + j)).length ∧
        t = { s with gate := { s.gate with counts := t.gate.counts, txq := t.gate.txq, status := t.gate.status }, pins := t.pins }) ∧
      (15 ≤ f.collisions → ∃ t, exec (.t1sCollision j) s = .next t ∧ Counted [(4 + j, 0x1D, 1), (4 + j, 0x1A, 1)] s t ∧ Removed (4 + j) s t ∧
        t = { s with gate := { s.gate with counts := t.gate.counts, txq := t.gate.txq, status := t.gate.status }, pins := t.pins }))) ∧
  (∀ (j : Nat) (s : State), j < 2 → s.t1sOn j = true →
    (s.get (R.GATE_T1S_STAT_MODE.nth j) 0 = 1 → s.get (R.GATE_T1S_CFG_NODE_ID.nth j) 0 ≠ 0 →
      ∃ t, exec (.plcaBeaconLost j) s = .next t ∧
        t.get (R.GATE_T1S_STAT_MODE.nth j) 0 = (if s.flag (R.GATE_T1S_CFG_FALLBACK.nth j) 0 then 2 else 3) ∧
        t.flag (R.GATE_T1S_STAT_BEACON.nth j) 0 = false ∧ Raises 0x11 0 4 s t ∧
        t = { s with regs := t.regs, pins := t.pins } ∧ RegsBut [(R.GATE_T1S_STAT_MODE.nth j).key 0, evtKey 0x11 0] s t) ∧
    (s.flag (R.GATE_T1S_CFG_PLCA_EN.nth j) 0 = true →
      ∃ t, exec (.plcaBeaconRegained j) s = .next t ∧ t.get (R.GATE_T1S_STAT_MODE.nth j) 0 = 1 ∧
        t.flag (R.GATE_T1S_STAT_BEACON.nth j) 0 = true ∧
        t = { s with regs := t.regs, pins := t.pins } ∧ RegsBut [(R.GATE_T1S_STAT_MODE.nth j).key 0] s t)) ∧
  (∀ (f : ArrivedFrame) (rest : List ArrivedFrame) (idx c l : Nat) (s : State), s.gateRuns = true → s.gate.arrived = f :: rest →
    let p := tblGet 0 s.gate.prof (camProt c)
    let fieldsBad := profLen p ≠ 0 ∧ f.data.length ≠ profLen p ∨ profFits p f.data.length = false
    let crcBad := profCrcBits p ≠ 0 ∧ protCrc (profCrcBits p) (profPoly p) (profDataId p) (profOfs p) f.data ≠
      beNum ((f.data.drop (profOfs p)).take (profCrcBits p / 8))
    let n := profCntBits p
    let count := protCounter p f.data
    let delta := (count + 2 ^ n - l % 2 ^ n) % 2 ^ n
    let hit := camHit s.gate.cam f = some (idx, c) ∧ nodeOk c f = true
    let fails := fun (t : State) (code : Nat) => Counted [(f.port, code, 1)] s t ∧ Raises 0x11 0 16 s t ∧
      t = { s with gate := { s.gate with counts := t.gate.counts, arrived := rest, streams := t.gate.streams }, regs := t.regs, pins := t.pins } ∧
      RegsBut [evtKey 0x11 0] s t
    (∃ t, exec (.frameClassify true) s = .next t ∧ t.flag R.GATE_CNT_STAT_INVALID 0 = true ∧ Raises 0x11 0 256 s t ∧ Reports 0x11 0 8 clsDevice s t ∧
      (∀ (q code : Nat), q < 6 → code < 32 → t.portCount q code = s.portCount q code) ∧
      t = { s with gate := { s.gate with arrived := rest, counts := t.gate.counts }, reports := t.reports, regs := t.regs, pins := t.pins }) ∧
    ((∀ (x c' : Nat), camHit s.gate.cam f = some (x, c') → nodeOk c' f = false) →
      ∃ t, exec (.frameClassify false) s = .next t ∧ Counted [(f.port, 9, 1)] s t ∧ Raises 0x11 0 8 s t ∧
        t = { s with gate := { s.gate with counts := t.gate.counts, arrived := rest }, regs := t.regs, pins := t.pins } ∧ RegsBut [evtKey 0x11 0] s t) ∧
    (hit → camProt c ≠ 0 → fieldsBad → ∃ t, exec (.frameClassify false) s = .next t ∧ fails t 0x0C ∧ t.gate.streams = s.gate.streams) ∧
    (hit → camProt c ≠ 0 → ¬fieldsBad → crcBad → ∃ t, exec (.frameClassify false) s = .next t ∧ fails t 0x0A ∧ t.gate.streams = s.gate.streams) ∧
    (hit → camProt c ≠ 0 → ¬fieldsBad → ¬crcBad → n ≠ 0 → tblGet none s.gate.streams (camStream c) = some l →
      (delta = 0 → ∃ t, exec (.frameClassify false) s = .next t ∧ fails t 0x0D ∧ tblGet none t.gate.streams (camStream c) = some l) ∧
      (profDelta p < delta → ∃ t, exec (.frameClassify false) s = .next t ∧ fails t 0x0B ∧ tblGet none t.gate.streams (camStream c) = some count) ∧
      (delta ≠ 0 → delta ≤ profDelta p → camRoute c = 1 → s.get (R.ENG_STATE_STATE.on 5) 0 = 1 → tblGet [] s.gate.rxq 0 = [] →
        ∃ t, exec (.frameClassify false) s = .next t ∧ Counted [(f.port, 1, 1), (f.port, 0x1E, delta - 1)] s t ∧
          tblGet none t.gate.streams (camStream c) = some count ∧
          (∀ (k : Nat), k ≠ camStream c → tblGet none t.gate.streams k = tblGet none s.gate.streams k) ∧
          tblGet [] t.gate.rxq 0 = [⟨f, servedClass idx c f.stamp s, idx⟩] ∧ t.gate.arrived = rest)) ∧
    (hit → camProt c = 0 → camRoute c ≠ 0 →
      let e := if camRoute c = 3 then s.get R.GATE_CMD_CFG_ENG 0 else camRoute c - 1
      let q := tblGet [] s.gate.rxq e
      let cls := servedClass idx c f.stamp s
      let room := q.length < 64 ∧ (cls = 0 ∨ q.length < 56 ∧ (cls ≠ 2 ∨ (q.filter (fun x => x.cls == 2)).length < 32))
      (s.get (R.ENG_STATE_STATE.on 5) e ≠ 1 → ∃ t, exec (.frameClassify false) s = .next t ∧ Counted [(f.port, 0x10, 1)] s t ∧ Raises 0x11 0 32 s t ∧
        t.gate.rxq = s.gate.rxq ∧ t.gate.arrived = rest) ∧
      (s.get (R.ENG_STATE_STATE.on 5) e = 1 → ¬room → ∃ t, exec (.frameClassify false) s = .next t ∧ Counted [(f.port, 0x0F, 1)] s t ∧
        Raises 0x11 0 32 s t ∧ t.gate.rxq = s.gate.rxq ∧ t.gate.arrived = rest) ∧
      (s.get (R.ENG_STATE_STATE.on 5) e = 1 → room → ∃ t, exec (.frameClassify false) s = .next t ∧ Counted [(f.port, 1, 1)] s t ∧
        tblGet [] t.gate.rxq e = q.takeWhile (fun x => decide (x.cls ≤ cls)) ++ [⟨f, cls, idx⟩] ++ q.dropWhile (fun x => decide (x.cls ≤ cls)) ∧
        (∀ (k : Nat), k ≠ e → tblGet [] t.gate.rxq k = tblGet [] s.gate.rxq k) ∧
        t = { s with gate := { s.gate with counts := t.gate.counts, arrived := rest, rxq := t.gate.rxq, lastA := t.gate.lastA }, pins := t.pins })) ∧
    (hit → camProt c = 0 → camRoute c = 0 → s.flag R.TICK_RUN_RUN 0 = true → s.flag R.TICK_PHASE_PAST_CUTOFF 0 = true → s.cutoffCycle ≤ f.stamp →
      let cls := servedClass idx c f.stamp s
      let q := heldClasses s
      let room := q.length < 512 ∧ (cls = 0 ∨ q.length < 448 ∧ (cls ≠ 2 ∨ (q.filter (fun x => x == 2)).length < 128))
      (room → ∃ t, exec (.frameClassify false) s = .next t ∧ Counted [(f.port, 1, 1)] s t ∧ t.sigt = s.sigt ∧ t.gate.arrived = rest ∧
        t.gate.held = s.gate.held.takeWhile (fun x => decide (x.stamp ≤ f.stamp)) ++ [⟨f.stamp, cls, camFirst c, camCount c, f.data, none⟩] ++
          s.gate.held.dropWhile (fun x => decide (x.stamp ≤ f.stamp)) ∧
        t.get R.GATE_HOLD_PEAK 0 = max (s.get R.GATE_HOLD_PEAK 0) (q.length + 1) % 2 ^ R.GATE_HOLD_PEAK.w ∧
        t.tick = { s.tick with deferFrames := s.tick.deferFrames + 1 }) ∧
      (¬room → ∃ t, exec (.frameClassify false) s = .next t ∧ Counted [(f.port, 0x0E, 1)] s t ∧ Raises 0x11 0 32 s t ∧ t.gate.held = s.gate.held ∧
        t.sigt = s.sigt ∧ t.gate.arrived = rest)) ∧
    (hit → camProt c = 0 → camRoute c = 0 → (s.flag R.TICK_PHASE_PAST_CUTOFF 0 = false ∧ s.gate.held = [] ∨
        s.flag R.TICK_PHASE_PAST_CUTOFF 0 = true ∧ (s.flag R.TICK_RUN_RUN 0 = false ∨ f.stamp < s.cutoffCycle)) → camCount c = 1 →
      ∀ (w : Nat), s.sigDesc (camFirst c) = some w → s.rowsClean [descRow (camFirst c) 0, descRow (camFirst c) 1, cfgRow (w % 2 ^ 16) 0, cfgRow (w % 2 ^ 16) 1] = true →
        let places := signalPlaces w
        let raw := signalRaw f.data places
        let len := bitsAt w 30 6 + 1
        let v : Int := if bitOf w 37 then signedOf len raw else raw
        let scaled := wrapInt 64 (v * signedOf 16 (bitsAt w 40 16) / (2 ^ bitsAt w 56 6 : Nat) + signedOf 32 (bitsAt w 64 32))
        let taken := (∀ b, b ∈ places → b < 8 * f.data.length) ∧ cfgEn (s.sigCfg (w % 2 ^ 16)) = true
        (taken → ∃ t, exec (.frameClassify false) s = .next t ∧ Counted [(f.port, 1, 1)] s t ∧ t.gate.arrived = rest ∧
          SignalUpdated (w % 2 ^ 16) scaled (bitOf w 38 && decide (raw = 2 ^ len - 1)) f.stamp s t) ∧
        (¬taken → ∃ t, exec (.frameClassify false) s = .next t ∧ Counted [(f.port, 1, 1)] s t ∧ t.sigt = s.sigt ∧ t.gate.arrived = rest ∧
          t.get R.SIGT_SHORT_VALUE 0 = min (s.get R.SIGT_SHORT_VALUE 0 + 1) (2 ^ R.SIGT_SHORT_VALUE.w - 1) ∧ Raises 0x12 0 2 s t))) ∧
  (∀ (kind stamp : Nat) (i : Initiator) (value : Word) (s : State), kind < 4 →
    let out := match kind with
      | 0 => exec (.camEntryWrite i value stamp) s
      | 1 => exec (.protectionProfileWrite i value stamp) s
      | 2 => exec (.entryConfigWrite i value stamp) s
      | _ => exec (.descriptorWrite i value stamp) s
    let ty := if kind < 2 then 0x11 else 0x12
    let off := match kind with
      | 0 => 0x0D0
      | 1 => 0x0DC
      | 2 => 0x050
      | _ => 0x064
    let idx := s.tabIndex kind
    let v := stagedEntry s kind value
    s.pageOpen ty 0 = true →
    (∀ (code : Nat), tabRefusal s kind idx v = some code → s.get (R.HDR_ERR_CODE_CODE.on ty) 0 = 0 →
      ∃ t, out = .next t ∧ t.answered rspRefused ∧ Latches ty 0 off code t ∧ OnlyRegs (errKeys ty 0) s t) ∧
    (tabRefusal s kind idx v = none → s.flag (R.HDR_CTL_ENABLE.on 0x11) 0 = true → s.gate.tbQueue.length < 64 →
      ∃ t, out = .next t ∧ t.answered rspOk ∧ t.gate = { s.gate with tbQueue := s.gate.tbQueue ++ [⟨kind, idx, v, stamp⟩] } ∧
        t.tick = { s.tick with deferTb := s.tick.deferTb +
          (if s.flag R.TICK_PHASE_PAST_CUTOFF 0 = true ∧ s.cutoffStamp ≤ stamp then 1 else 0) } ∧
        t = { s with gate := t.gate, tick := t.tick, answer := t.answer, pins := t.pins }) ∧
    (tabRefusal s kind idx v = none → s.flag (R.HDR_CTL_ENABLE.on 0x11) 0 = true → 64 ≤ s.gate.tbQueue.length → s.get (R.HDR_ERR_CODE_CODE.on ty) 0 = 0 →
      ∃ t, out = .next t ∧ t.answered rspRefused ∧ Latches ty 0 off 0x0105 t ∧ OnlyRegs (errKeys ty 0) s t) ∧
    (tabRefusal s kind idx v = none → s.flag (R.HDR_CTL_ENABLE.on 0x11) 0 = false →
      ∃ t, out = .next t ∧ t.answered rspOk ∧ t = { s with gate := t.gate, sigt := t.sigt, answer := t.answer, pins := t.pins } ∧
        (kind = 0 → tblGet 0 t.gate.cam idx = v ∧ tblGet none t.gate.streams (camStream v) = none ∧ tblGet none t.gate.lastA idx = none ∧
          (∀ (k : Nat), k ≠ idx → tblGet 0 t.gate.cam k = tblGet 0 s.gate.cam k) ∧ t.sigt = s.sigt) ∧
        (kind = 1 → tblGet 0 t.gate.prof idx = v ∧ (∀ (k : Nat), k ≠ idx → tblGet 0 t.gate.prof k = tblGet 0 s.gate.prof k) ∧ t.sigt = s.sigt) ∧
        (kind = 2 → tblGet 0 t.sigt.cfg idx = v ∧ (∀ (k : Nat), k ≠ idx → tblGet 0 t.sigt.cfg k = tblGet 0 s.sigt.cfg k) ∧ t.gate = s.gate ∧
          (cfgEn v = false → (t.sig idx).committed = SigSlot.empty ∧ (t.sig idx).mark = 0) ∧
          (cfgEn v = true → cfgEn (s.sigCfg idx) = false → t.sig idx = { s.sig idx with last := stamp / 10 }) ∧
          (cfgEn v = true → cfgEn (s.sigCfg idx) = true → t.sig idx = s.sig idx)) ∧
        (kind = 3 → tblGet 0 t.sigt.desc idx = v ∧ (∀ (k : Nat), k ≠ idx → tblGet 0 t.sigt.desc k = tblGet 0 s.sigt.desc k) ∧ t.gate = s.gate ∧
          t.sigt.entries = s.sigt.entries))) ∧
  (∀ (i : Initiator) (value : Word) (stamp : Nat) (s : State), s.pageOpen 0x12 0 = true →
    let e := s.get R.SIGT_INJ_ENTRY_ENTRY 0
    let v := s.get R.SIGT_INJ_LO_VALUE 0 + 2 ^ 32 * value.toNat
    let held := s.flag R.TICK_RUN_RUN 0 = true ∧ s.flag R.TICK_PHASE_PAST_CUTOFF 0 = true ∧ s.cutoffCycle ≤ stamp / 10
    (held → ∃ t, exec (.signalInject i value stamp) s = .next t ∧ t.answered rspOk ∧ t.sigt = s.sigt ∧ t.tick = s.tick ∧
      t.gate = { s.gate with held := s.gate.held.takeWhile (fun x => decide (x.stamp ≤ stamp / 10)) ++ [⟨stamp / 10, 0, 0, 0, [], some (e, v)⟩] ++
        s.gate.held.dropWhile (fun x => decide (x.stamp ≤ stamp / 10)) }) ∧
    (¬held → (s.flag R.TICK_PHASE_PAST_CUTOFF 0 = true ∨ s.gate.held = []) →
      (cfgEn (s.sigCfg e) = true → ∃ t, exec (.signalInject i value stamp) s = .next t ∧ t.answered rspOk ∧ SignalUpdated e v false (stamp / 10) s t ∧
        t = { s with sigt := t.sigt, answer := t.answer, pins := t.pins }) ∧
      (cfgEn (s.sigCfg e) = false → ∃ t, exec (.signalInject i value stamp) s = .next t ∧ t.answered rspOk ∧
        t.get R.SIGT_SHORT_VALUE 0 = min (s.get R.SIGT_SHORT_VALUE 0 + 1) (2 ^ R.SIGT_SHORT_VALUE.w - 1) ∧ Raises 0x12 0 2 s t ∧ t.sigt = s.sigt))) ∧
  (∀ (h : HeldInput) (rest : List HeldInput) (s : State), s.domainOn 2 = true → s.gate.held = h :: rest →
    let waits := s.flag R.TICK_RUN_RUN 0 = true ∧ s.flag R.TICK_PHASE_PAST_CUTOFF 0 = true
    (waits → ∃ t, exec .heldFrameExtract s = .next t ∧ t = { s with pins := t.pins }) ∧
    (¬waits → ∀ (e v : Nat), h.inject = some (e, v) → cfgEn (s.sigCfg e) = true →
      ∃ t, exec .heldFrameExtract s = .next t ∧ SignalUpdated e v false h.stamp s t ∧
        t = { s with gate := { s.gate with held := rest }, sigt := t.sigt, pins := t.pins }) ∧
    (¬waits → h.inject = none → h.count = 1 → ∀ (w : Nat), s.sigDesc h.first = some w →
      s.rowsClean [descRow h.first 0, descRow h.first 1, cfgRow (w % 2 ^ 16) 0, cfgRow (w % 2 ^ 16) 1] = true → cfgEn (s.sigCfg (w % 2 ^ 16)) = true →
      (∀ b, b ∈ signalPlaces w → b < 8 * h.data.length) →
      let r := signalValue w (signalRaw h.data (signalPlaces w))
      ∃ t, exec .heldFrameExtract s = .next t ∧ SignalUpdated (w % 2 ^ 16) r.1 r.2 h.stamp s t ∧
        t = { s with gate := { s.gate with held := rest }, sigt := t.sigt, pins := t.pins })) ∧
  (∀ (q : NetReq) (seq : Option Nat) (s : State), s.targetOpen (.signals (q.addr % 0x100000)) = true →
    let block := q.addr % 2 ^ 20 / 64
    let es := ((List.range 4).filter (fun j => (List.range 16).any (fun k => bitOf q.be (16 * j + k)))).map (fun j => 4 * block + j)
    let onTime := ∀ n, n ∈ seq.toList → n = s.edges % 16
    (sigReadOk q = false → ∃ t, exec (.signalTableRead q seq) s = .next t ∧ t.answered rspRefused ∧ t = { s with answer := t.answer, pins := t.pins }) ∧
    (sigReadOk q = true → ¬onTime → ∃ t, exec (.signalTableRead q seq) s = .next t ∧ t.answered rspRefused ∧ Raises 0x17 0 32 s t ∧
      t.get R.TICK_LATE_READ_COUNT 0 = min (s.get R.TICK_LATE_READ_COUNT 0 + 1) (2 ^ R.TICK_LATE_READ_COUNT.w - 1) ∧
      OnlyRegs [R.TICK_LATE_READ_COUNT.key 0, evtKey 0x17 0] s t) ∧
    (sigReadOk q = true → onTime → s.rowsClean (es.flatMap (fun e => [slotRow e (s.sig e).sel 0, slotRow e (s.sig e).sel 1])) = true →
      ∃ t, exec (.signalTableRead q seq) s = .next t ∧
        t.answer = [⟨rspOk, (List.range 64).map (fun k => if bitOf q.be k then (s.sigBytes (4 * block + k / 16)).getD (k % 16) 0 else 0)⟩] ∧
        t = { s with answer := t.answer, pins := t.pins }) ∧
    (sigReadOk q = true → onTime → (∃ e ∈ es, s.slotBad e = true) → ∃ t, exec (.signalTableRead q seq) s = .next t ∧ t.answered rspEcc)) ∧
  (∀ (s : State), s.domainOn 2 = true →
    let r := s.sigt.scrubRow % sigRows
    ∃ t, exec .signalTableScrub s = .next t ∧ t.sigt.scrubRow = (s.sigt.scrubRow + 1) % sigRows ∧ t.sigt.entries = s.sigt.entries ∧
      (decodeWord (s.sigt.err r) = .clean → t.sigt.errs = s.sigt.errs ∧ t.regs = s.regs ∧ t.reports = s.reports) ∧
      (∀ (a b : Nat), decodeWord (s.sigt.err r) = .corrected a b → t.sigt.err r = residue (s.sigt.err r) % 2 ^ 76 ∧ Raises 0x12 0 4 s t ∧
        t.get R.SIGT_CE_VALUE 0 = min (s.get R.SIGT_CE_VALUE 0 + 1) (2 ^ R.SIGT_CE_VALUE.w - 1) ∧ t.reports = s.reports) ∧
      (decodeWord (s.sigt.err r) = .uncorrectable → t.sigt.errs = s.sigt.errs ∧ Raises 0x12 0 8 s t ∧ Reports 0x12 0 3 clsDevice s t ∧
        t.get R.SIGT_UE_VALUE 0 = min (s.get R.SIGT_UE_VALUE 0 + 1) (2 ^ R.SIGT_UE_VALUE.w - 1) ∧ t.get R.SIGT_UE_ENTRY_VALUE 0 = rowEntry r % 2 ^ 16)) ∧
  (∀ (e : Nat) (s : State), s.pageOpen 0x11 0 = true → e < 2 →
    let p := (stagedFrame s e).1
    let f := (stagedFrame s e).2
    let q := tblGet [] s.gate.txq p
    (∃ t, exec (.rxqPop ⟨33 + e, 0⟩) s = .next t ∧ t.answered rspOk ∧ tblGet [] t.gate.rxq e = (tblGet [] s.gate.rxq e).tail ∧
      (∀ (k : Nat), k ≠ e → tblGet [] t.gate.rxq k = tblGet [] s.gate.rxq k) ∧
      t = { s with gate := { s.gate with rxq := t.gate.rxq }, answer := t.answer, pins := t.pins }) ∧
    (p < 6 → q.length < 16 → ∃ t, exec (.txPost ⟨33 + e, 0⟩) s = .next t ∧ t.answered rspOk ∧ tblGet [] t.gate.txq p = q ++ [f] ∧
      tblGet false t.gate.staged e = false ∧ (∀ (k : Nat), k ≠ p → tblGet [] t.gate.txq k = tblGet [] s.gate.txq k) ∧
      t = { s with gate := { s.gate with txq := t.gate.txq, staged := t.gate.staged }, answer := t.answer, pins := t.pins }) ∧
    (¬(p < 6 ∧ q.length < 16) → s.get (R.HDR_ERR_CODE_CODE.on 0x11) 0 = 0 → ∃ t, exec (.txPost ⟨33 + e, 0⟩) s = .next t ∧ t.answered rspRefused ∧
      Latches 0x11 0 0x184 0x0106 t ∧ OnlyRegs (errKeys 0x11 0) s t)) ∧
  (∀ (i : Initiator) (s : State), s.pageOpen 0x11 0 = true →
    (i.src ≠ 33 → i.src ≠ 34 → s.get (R.HDR_ERR_CODE_CODE.on 0x11) 0 = 0 →
      (∃ t, exec (.rxqPop i) s = .next t ∧ t.answered rspRefused ∧ Latches 0x11 0 0x180 0x0009 t ∧ OnlyRegs (errKeys 0x11 0) s t) ∧
      (∃ t, exec (.txPost i) s = .next t ∧ t.answered rspRefused ∧ Latches 0x11 0 0x184 0x0009 t ∧ OnlyRegs (errKeys 0x11 0) s t)) ∧
    (∃ t, exec (.gateCounterSnap i) s = .next t ∧ t.answered rspOk ∧
      (∀ (p code : Nat), p < 6 → code < 32 → tblGet 0 t.gate.captured (32 * p + code) =
        if code = 2 then (s.gate.arrived.filter (fun f => f.port == p)).length else tblGet 0 s.gate.counts (32 * p + code)) ∧
      t = { s with gate := { s.gate with captured := t.gate.captured }, answer := t.answer, pins := t.pins }))

/-- R449, R455 to R466. The values of the flip-flops on running nets are free. -/
def Obligations.Hinge : Prop :=
  (∀ (i : Initiator) (auth : Bool) (s : State), s.pageOpen 0x15 0 = true → s.get (R.HDR_ERR_CODE_CODE.on 0x15) 0 = 0 →
    (auth = true → s.fabState = 2 →
      ∃ t, exec (.fabricPark i auth) s = .next t ∧ t.answered rspOk ∧ t.fabState = 3 ∧ Raises 0x15 0 8 s t ∧ t.runningNets = [] ∧
        (∀ (b c : Nat), b < 4096 → c < 8 → s.runningNets.contains (s.flopNet b c) = false →
          bitOf (tblGet 0 t.fabric.flops b) c = bitOf (tblGet 0 s.fabric.flops b) c) ∧
        t = { s with fabric := { s.fabric with flops := t.fabric.flops }, freeCount := t.freeCount, regs := t.regs, answer := t.answer, pins := t.pins } ∧
        RegsBut [R.HNGE_FAB_STATE.key 0, evtKey 0x15 0] s t) ∧
    (auth = true → s.fabState ≠ 2 → ∃ t, exec (.fabricPark i auth) s = .next t ∧ t.answered rspRefused ∧ Latches 0x15 0 0x044 0x0101 t ∧
      OnlyRegs (errKeys 0x15 0) s t) ∧
    (auth = false → ∃ t, exec (.fabricPark i auth) s = .next t ∧ t.answered rspAuth ∧ Latches 0x15 0 0x044 0x0004 t ∧ OnlyRegs (errKeys 0x15 0) s t)) ∧
  (∀ (l : FabricLoad) (s : State), s.domainOn 1 = true → s.fabric.load = some l →
    let e := (copySteps l.offset l.key s).2
    let park := if s.fabric.park.isSome then s.fabric.park else e.run.park
    (e.code = 0 →
      ∃ t, exec .fabricRelease s = .next t ∧ t.fabState = 2 ∧ t.get R.HNGE_FAB_STATE_OFFSET 0 = l.offset % 2 ^ 23 ∧
        t.flag R.HNGE_FAB_STATE_COPY 0 = l.copyB ∧ t.fabric.load = none ∧ t.fabric.frames = e.run.frames ∧ t.fabric.held = e.run.held ∧
        t.fabric.heldErrs = [] ∧ t.fabric.flops = initFlops e.run.frames ∧ t.fabric.park = park ∧ t.fabric.scrubNext = 0 ∧
        t.get R.HNGE_DESIGN_VALUE 0 = e.run.design % 2 ^ 32 ∧ t.get R.HNGE_USER_VER_VALUE 0 = e.run.userVer % 2 ^ 32 ∧
        bitOf (t.getReg 0x15 0 0x010).toNat 0 = true ∧ (l.copyB = true → bitOf (t.getReg 0x15 0 0x010).toNat 2 = true) ∧
        t = { s with fabric := t.fabric, regs := t.regs, pins := t.pins }) ∧
    (e.code ≠ 0 → ∃ t, exec .fabricRelease s = .next t ∧ t = { s with pins := t.pins }) ∧
    (e.code ≠ 0 → (l.copyB = true ∨ s.flag R.HNGE_BS_ALT_EN 0 = false) →
      ∃ t, exec .fabricLoadFail s = .next t ∧ t.fabState = 4 ∧ t.fabric.load = none ∧ t.fabric.frames = [] ∧ t.fabric.flops = [] ∧ t.fabric.park = park ∧
        t.get (if l.copyB then R.HNGE_LOAD_STAT_B_ERR else R.HNGE_LOAD_STAT_A_ERR) 0 = e.code % 2 ^ 8 ∧
        t.get R.HNGE_LOAD_STAT_FIRST_FRAME 0 = e.frame % 2 ^ 16 ∧ bitOf (t.getReg 0x15 0 0x010).toNat 1 = true ∧ Reports 0x15 0 1 clsDevice s t ∧
        t = { s with fabric := t.fabric, reports := t.reports, regs := t.regs, pins := t.pins }) ∧
    (e.code ≠ 0 → l.copyB = false → s.flag R.HNGE_BS_ALT_EN 0 = true →
      ∃ t, exec .fabricLoadFail s = .next t ∧ t.fabState = s.fabState ∧ t.fabric.load = some ⟨true, s.get R.HNGE_BS_ALT_OFFSET 0, l.key⟩ ∧
        t.fabric.frames = [] ∧ t.fabric.park = park ∧ t.get R.HNGE_LOAD_STAT_A_ERR 0 = e.code % 2 ^ 8 ∧
        t.get R.HNGE_LOAD_STAT_FIRST_FRAME 0 = e.frame % 2 ^ 16 ∧ bitOf (t.getReg 0x15 0 0x010).toNat 1 = true ∧
        t = { s with fabric := t.fabric, regs := t.regs, pins := t.pins })) ∧
  (∀ (s : State), s.domainOn 1 = true → s.fabState = 2 → s.flag R.HNGE_SCRUB_CFG_EN 0 = true →
    let n := s.fabric.scrubNext
    let action := s.get R.HNGE_SCRUB_CFG_ACTION 0
    let noise := (tblGet 0 s.fabric.heldErrs n).toNat
    let unread := decodeWord noise = .uncorrectable
    let bad := unread ∨ crc32 (leBytes 64 (tblGet 0 s.fabric.frames n).toNat) ≠ tblGet 0 s.fabric.held n ^^^ residue noise % 2 ^ 32
    let again := n ∈ s.fabric.mismatch
    let found := fun (t : State) => t.fabric.scrubNext = (n + 1) % 4237 ∧ n ∈ t.fabric.mismatch ∧ t.get R.HNGE_SCRUB_STAT_LAST_FRAME 0 = n % 2 ^ 13 ∧
      t.get R.HNGE_SCRUB_STAT_MISMATCHES 0 = min (s.get R.HNGE_SCRUB_STAT_MISMATCHES 0 + 1) (2 ^ R.HNGE_SCRUB_STAT_MISMATCHES.w - 1) ∧
      bitOf (t.getReg 0x15 0 0x010).toNat 4 = true ∧ Reports 0x15 0 4 clsDevice s t
    (¬bad → ∃ t, exec .configScrubFrame s = .next t ∧
      t = { s with fabric := { s.fabric with scrubNext := (n + 1) % 4237, mismatch := s.fabric.mismatch.filter (fun k => k != n) }, pins := t.pins }) ∧
    (bad → action = 0 → ∃ t, exec .configScrubFrame s = .next t ∧ found t ∧ t.fabState = 2 ∧ t.fabric.frames = s.fabric.frames ∧
      t.fabric.flops = s.fabric.flops) ∧
    (bad → (2 ≤ action ∨ action = 1 ∧ (again ∨ unread)) → ∃ t, exec .configScrubFrame s = .next t ∧ found t ∧ t.fabState = 3 ∧
      t.fabric.frames = s.fabric.frames ∧ bitOf (t.getReg 0x15 0 0x010).toNat 3 = true) ∧
    (bad → action = 1 → ¬again → ¬unread →
      let copy := (flashRead (s.get R.HNGE_FAB_STATE_OFFSET 0 + 32 + 0x100 + 68 * n) 68 s).2
      (∀ (b : List Byte), copy = some b → argNum b 64 4 = crc32 (b.take 64) →
        ∃ t, exec .configScrubFrame s = .next t ∧ found t ∧ t.fabState = 2 ∧ tblGet 0 t.fabric.frames n = BitVec.ofNat 512 (leNum (b.take 64)) ∧
          (∀ (k : Nat), k ≠ n → tblGet 0 t.fabric.frames k = tblGet 0 s.fabric.frames k) ∧ bitOf (t.getReg 0x15 0 0x010).toNat 5 = true ∧
          (∀ (u c : Nat), u < 4096 → c < 8 → s.runningNets.contains (s.flopNet u c) = false →
            bitOf (tblGet 0 t.fabric.flops u) c = bitOf (tblGet 0 s.fabric.flops u) c)) ∧
      ((∀ (b : List Byte), copy = some b → argNum b 64 4 ≠ crc32 (b.take 64)) →
        ∃ t, exec .configScrubFrame s = .next t ∧ found t ∧ t.fabState = 3 ∧ t.fabric.frames = s.fabric.frames))) ∧
  (∀ (i : Initiator) (s : State), s.pageOpen 0x15 0 = true →
    (∃ t, exec (.flipFlopCapture i) s = .next t ∧ t.answered rspOk ∧
      t.fabric = { s.fabric with flops := t.fabric.flops, captured := t.fabric.flops, capWait := s.runningNets } ∧
      (∀ (b c : Nat), b < 4096 → c < 8 → s.runningNets.contains (s.flopNet b c) = false →
        bitOf (tblGet 0 t.fabric.flops b) c = bitOf (tblGet 0 s.fabric.flops b) c) ∧
      t.flag R.HNGE_CAP_DATA_VALID 0 = decide (s.runningNets = []) ∧ Raises 0x15 0 (if s.runningNets = [] then 1024 else 0) s t ∧
      t = { s with fabric := t.fabric, freeCount := t.freeCount, regs := t.regs, answer := t.answer, pins := t.pins } ∧
      RegsBut [R.HNGE_CAP_DATA.key 0, evtKey 0x15 0] s t) ∧
    (∃ t, exec (.captureDataRead i) s = .next t ∧
      t.answer = [⟨rspOk, leBytes 4 (bit (s.flag R.HNGE_CAP_DATA_VALID 0) * 2 ^ 31 + tblGet 0 s.fabric.captured (s.get R.HNGE_CAP_IDX_BAY 0))⟩] ∧
      t.get R.HNGE_CAP_IDX_BAY 0 = (s.get R.HNGE_CAP_IDX_BAY 0 + 1) % 4096 ∧ OnlyRegs [R.HNGE_CAP_IDX.key 0] s t)) ∧
  (∀ (s : State), s.domainOn 1 = true → s.fabric.capWait ≠ [] →
    ∃ t, exec .captureDone s = .next t ∧ t.fabric = { s.fabric with capWait := [] } ∧
      t.flag R.HNGE_CAP_DATA_VALID 0 = true ∧ Raises 0x15 0 1024 s t ∧
      t = { s with fabric := t.fabric, regs := t.regs, pins := t.pins } ∧
      RegsBut [R.HNGE_CAP_DATA.key 0, evtKey 0x15 0] s t) ∧
  (∀ (j : FlashJob) (done : Bool) (s : State), s.domainOn 1 = true → s.flashJob = some j →
    let s0 := ({ s with flashJob := none }.put R.HNGE_FLASH_STAT_BUSY 0 0).put R.HNGE_FLASH_STAT_OP 0 0
    let step := contCheck (fun _ => true) j.key true j.container s0
    let size := (contSize j.container + 4095) / 4096 * 4096
    let ended := fun (t : State) => t.flashJob = none ∧ t.flag R.HNGE_FLASH_STAT_BUSY 0 = false ∧ t.getReg 0x14 0 0x090 = word (contKind j.container * 2 ^ 24 + step)
    let outside := fun (t : State) => ∀ (a : Nat), a < j.dst ∨ j.dst + max size j.container.length ≤ a → tblGet erasedByte t.flash.data a = tblGet erasedByte s.flash.data a
    (step ≠ 0 → ∃ t, exec (.flashWriteDone done) s = .next t ∧ ended t ∧ t.flash = s.flash ∧ Raises 0x15 0 128 s t ∧
      t = { s with flashJob := none, regs := t.regs, pins := t.pins }) ∧
    (step = 0 → done = true → ∃ t, exec (.flashWriteDone done) s = .next t ∧ ended t ∧ Raises 0x15 0 64 s t ∧ outside t ∧
      (∀ (k : Nat), k < max size j.container.length → tblGet erasedByte t.flash.data (j.dst + k) = j.container.getD k 0xFF) ∧
      t.get R.HNGE_FLASH_ERASES_COUNT 0 = min (s.get R.HNGE_FLASH_ERASES_COUNT 0 + size / 4096) (2 ^ 32 - 1) ∧
      (bitOf (contFlags j.container) 0 = true → t.get (R.LTCH_SVN_FLOOR.nth (contKind j.container)) 0 = max (s.get (R.LTCH_SVN_FLOOR.nth (contKind j.container)) 0) (contSvn j.container) % 2 ^ R.LTCH_SVN_FLOOR.w) ∧
      t = { s with flash := t.flash, flashJob := none, regs := t.regs, pins := t.pins }) ∧
    (step = 0 → done = false → s.get (R.HDR_ERR_CODE_CODE.on 0x15) 0 = 0 → ∃ t, exec (.flashWriteDone done) s = .next t ∧ ended t ∧ Raises 0x15 0 128 s t ∧
      outside t ∧ (∀ (k : Nat), k < size → tblGet erasedByte t.flash.data (j.dst + k) = 0xFF) ∧ Latches 0x15 0 0 0x0109 t ∧
      t = { s with flash := t.flash, flashJob := none, regs := t.regs, pins := t.pins })) ∧
  (∀ (q : NetReq) (k : Nat) (s : State), s.targetOpen (.flash (q.addr % flashSize)) = true → k < 16 → q.be = 15 * 2 ^ (4 * k) →
    q.write = false → q.rotate = false → q.flits = 1 →
    let a := q.addr % 0x800000 / 64 * 64 + 4 * k
    let busy := ∃ j ∈ s.flashJob.toList, j.dst ≤ a ∧ a < j.dst + (contSize j.container + 4095) / 4096 * 4096
    (0x7FE000 ≤ a → s.get (R.HDR_ERR_CODE_CODE.on 0x15) 0 = 0 → ∃ t, exec (.flashWindowRead q) s = .next t ∧ t.answered rspRefused ∧
      Latches 0x15 0 0 0x010C t ∧ OnlyRegs (errKeys 0x15 0) s t) ∧
    (a < 0x7FE000 → busy → ∃ t, exec (.flashWindowRead q) s = .next t ∧ t.answered rspRefused ∧ t = { s with answer := t.answer, pins := t.pins }) ∧
    (a < 0x7FE000 → ¬busy →
      let row := decodeWord (tblGet 0 s.flash.errs (a / 8)).toNat
      (row ≠ .uncorrectable → ∃ t, exec (.flashWindowRead q) s = .next t ∧
        t.answer = [⟨rspOk, (List.range 64).map (fun b => if 4 * k ≤ b ∧ b < 4 * k + 4 then flashByte s.flash (a - 4 * k + b) else 0)⟩] ∧
        (row = .clean → t = { s with answer := t.answer, pins := t.pins }) ∧
        (row ≠ .clean → Raises 0x15 0 256 s t ∧ t.get R.HNGE_FLASH_CE_COUNT 0 = min (s.get R.HNGE_FLASH_CE_COUNT 0 + 1) (2 ^ 32 - 1))) ∧
      (row = .uncorrectable → ∃ t, exec (.flashWindowRead q) s = .next t ∧ t.answered rspEcc ∧ Raises 0x15 0 512 s t ∧
        t.get R.HNGE_FLASH_UE_COUNT 0 = min (s.get R.HNGE_FLASH_UE_COUNT 0 + 1) (2 ^ 32 - 1)))) ∧
  (∀ (i : Initiator) (k : Nat) (value : Word) (consume : Bool) (s : State), s.pageOpen 0x15 0 = true → k < 8 →
    let x := s.hsp k
    let mode := s.get (R.HSP_CFG_MODE.nth k) 0
    let others := fun (t : State) => ∀ (j : Nat), j ≠ k → t.hsp j = s.hsp j
    (x.tx.length < 16 → (bitOf value.toNat 8 = false ∨ mode = 2 ∨ mode = 3 ∨ mode = 5) →
      ∃ t, exec (.hspTxdWrite i k value) s = .next t ∧ t.answered rspOk ∧
        t.hsp k = { x with tx := x.tx ++ [(bitOf value.toNat 8, value.toNat % 256)] } ∧ others t ∧
        t.get (R.HSP_STAT_TX_LEVEL.nth k) 0 = x.tx.length + 1 ∧
        t = { s with serial := t.serial, regs := t.regs, answer := t.answer, pins := t.pins } ∧ RegsBut [(R.HSP_STAT.nth k).key 0] s t) ∧
    (16 ≤ x.tx.length → s.get (R.HDR_ERR_CODE_CODE.on 0x15) 0 = 0 → ∃ t, exec (.hspTxdWrite i k value) s = .next t ∧ t.answered rspRefused ∧
      Latches 0x15 0 (0x20C + 32 * k) 0x010D t ∧ OnlyRegs (errKeys 0x15 0) s t) ∧
    (x.tx.length < 16 → ¬(bitOf value.toNat 8 = false ∨ mode = 2 ∨ mode = 3 ∨ mode = 5) → s.get (R.HDR_ERR_CODE_CODE.on 0x15) 0 = 0 →
      ∃ t, exec (.hspTxdWrite i k value) s = .next t ∧ t.answered rspRefused ∧ Latches 0x15 0 (0x20C + 32 * k) 0x0009 t ∧ OnlyRegs (errKeys 0x15 0) s t) ∧
    (x.rx = [] → ∃ t, exec (.hspRxdRead i k consume) s = .next t ∧ t.answer = [⟨rspOk, [0, 0, 0, 0]⟩] ∧ t = { s with answer := t.answer, pins := t.pins }) ∧
    (∀ (brk err : Bool) (d : Nat) (rest : List (Bool × Bool × Nat)), x.rx = (brk, err, d) :: rest →
      ∃ t, exec (.hspRxdRead i k consume) s = .next t ∧ t.answer = [⟨rspOk, leBytes 4 (2 ^ 31 + bit brk * 2 ^ 9 + bit err * 2 ^ 8 + d)⟩] ∧
        t.hsp k = (if consume then { x with rx := rest } else x) ∧ others t ∧
        (consume = true → t.get (R.HSP_STAT_RX_LEVEL.nth k) 0 = rest.length % 2 ^ 5) ∧
        t = { s with serial := t.serial, regs := t.regs, answer := t.answer, pins := t.pins } ∧ RegsBut [(R.HSP_STAT.nth k).key 0] s t)) ∧
  (∀ (k data measured : Nat) (lead framing parity nack arb : Bool) (s : State), k < 8 → s.domainOn 1 = true → s.flag (R.HSP_CFG_EN.nth k) 0 = true →
    let x := s.hsp k
    let mode := s.get (R.HSP_CFG_MODE.nth k) 0
    let brk := lead && decide (mode = 2)
    let uart := decide (mode ≤ 2)
    let bad := parity && uart && s.flag (R.HSP_CFG_PAR_EN.nth k) 0
    let keys := [(R.HSP_STAT.nth k).key 0, (R.HSP_COUNT.nth k).key 0, (R.HSP_BAUD.nth k).key 0, evtKey 0x15 0]
    (mode ≠ 0 →
      ∃ t, exec (.hspByteReceive k data measured lead framing parity) s = .next t ∧
        t.hsp k = (if x.rx.length < 16 then { x with rx := x.rx ++ [(brk, framing && uart || bad, data)] } else x) ∧
        t.get (R.HSP_COUNT_RECEIVED.nth k) 0 = (s.get (R.HSP_COUNT_RECEIVED.nth k) 0 + 1) % 2 ^ 16 ∧
        t.get (R.HSP_COUNT_OVERRUNS.nth k) 0 = (if x.rx.length < 16 then s.get (R.HSP_COUNT_OVERRUNS.nth k) 0
          else min (s.get (R.HSP_COUNT_OVERRUNS.nth k) 0 + 1) (2 ^ 16 - 1)) ∧
        t.flag (R.HSP_STAT_OVERRUN.nth k) 0 = (s.flag (R.HSP_STAT_OVERRUN.nth k) 0 || decide (16 ≤ x.rx.length)) ∧
        t.flag (R.HSP_STAT_BREAK.nth k) 0 = (s.flag (R.HSP_STAT_BREAK.nth k) 0 || brk) ∧
        t.flag (R.HSP_STAT_FRAMING.nth k) 0 = (s.flag (R.HSP_STAT_FRAMING.nth k) 0 || framing && uart) ∧
        t.flag (R.HSP_STAT_PARITY.nth k) 0 = (s.flag (R.HSP_STAT_PARITY.nth k) 0 || bad) ∧
        t.get (R.HSP_BAUD_MEASURED.nth k) 0 = (if brk = true ∧ data = 0x55 then measured % 2 ^ 16 else s.get (R.HSP_BAUD_MEASURED.nth k) 0) ∧
        Raises 0x15 0 (2 ^ (11 + k)) s t ∧ (∀ (j : Nat), j ≠ k → t.hsp j = s.hsp j) ∧
        t = { s with serial := t.serial, regs := t.regs, pins := t.pins } ∧ RegsBut keys s t) ∧
    (x.tx ≠ [] →
      let ack := decide (mode = 5) && (nack || arb)
      ∃ t, exec (.hspByteSent k nack arb) s = .next t ∧ t.hsp k = { x with tx := x.tx.tail } ∧
        t.get (R.HSP_STAT_TX_LEVEL.nth k) 0 = x.tx.tail.length % 2 ^ 5 ∧ t.flag (R.HSP_STAT_BUSY.nth k) 0 = decide (x.tx.tail ≠ []) ∧
        t.flag (R.HSP_STAT_NACK.nth k) 0 = (s.flag (R.HSP_STAT_NACK.nth k) 0 || ack && nack) ∧
        t.flag (R.HSP_STAT_ARB_LOST.nth k) 0 = (s.flag (R.HSP_STAT_ARB_LOST.nth k) 0 || ack && arb) ∧
        Raises 0x15 0 (if ack then 2 ^ (11 + k) else 0) s t ∧ (∀ (j : Nat), j ≠ k → t.hsp j = s.hsp j) ∧
        t = { s with serial := t.serial, regs := t.regs, pins := t.pins } ∧ RegsBut keys s t))

/-- R511 to R515, R441, R545. -/
def Obligations.TestAccessPort : Prop :=
  (∀ (cells : Nat) (s : State),
    let shifted := fun (t : State) (ir : Nat) (bytes : List Byte) => t.answer = [⟨rspOk, [1]⟩, ⟨rspOk, bytes⟩] ∧
      t = { s with jtag := { s.jtag with instr := ir }, answer := t.answer, pins := t.pins }
    let second := fun (t : State) => (t.answer.map (fun a => a.data)).getD 1 []
    let scanned := fun (t : State) (ir : Nat) => t.answer = [⟨rspOk, [1]⟩, ⟨rspOk, second t⟩] ∧ (second t).length = 128 ∧
      (bitOf (leNum (second t)) 288 = !s.pins.fault) ∧ (bitOf (leNum (second t)) 291 = !s.pins.ttFault) ∧
      bitOf (leNum (second t)) 294 = s.pins.tickOut ∧ leNum (second t) < 2 ^ 366 ∧
      t = { s with
        jtag := { s.jtag with instr := ir, cells := cells % 2 ^ 366 }, fabric := t.fabric, freeCount := t.freeCount, regs := t.regs
        reports := t.reports, answer := t.answer, pins := t.pins }
    (∃ t, exec .tapReset s = .next t ∧ t = { s with jtag := { s.jtag with instr := 2 }, pins := t.pins }) ∧
    (∃ t, exec .idcode s = .next t ∧ shifted t 2 (leBytes 4 0x110249C9)) ∧
    (∃ t, exec .bypass s = .next t ∧ shifted t 63 [0]) ∧
    (∃ t, exec (.samplePreload cells) s = .next t ∧ scanned t 1) ∧
    (∃ t, exec (.extest cells) s = .next t ∧ if s.debugLevel = 2 then scanned t 0 else shifted t 63 [0]) ∧
    (∃ t, exec .highz s = .next t ∧ shifted t (if s.debugLevel = 2 then 4 else 63) [0]) ∧
    (∃ t, exec .clamp s = .next t ∧ shifted t (if s.debugLevel = 2 then 5 else 63) [0])) ∧
  (∀ (dr stamp : Nat) (s : State),
    let op := bitsAt dr 72 2
    let j := s.jtag
    let a := if bitOf dr 75 then (j.addr + 4) % 2 ^ 40 else bitsAt dr 32 40 / 4 * 4
    let level := accessLevel (targetOf s (s.get R.TRLH_DDR_MAP_MODE 39) a) (decide (op = 2)) (bitOf dr 74)
    let shows := fun (t : State) (err busy : Bool) (rsp data : Nat) => t.answer =
      [⟨rspOk, [1]⟩, ⟨rspOk, leBytes 10 (s.debugLevel * 2 ^ 42 + bit err * 2 ^ 41 + bit busy * 2 ^ 40 + rsp * 2 ^ 32 + data)⟩]
    (j.busy = false → (op = 0 ∨ op = 3) →
      ∃ t, exec (.accessDr dr stamp) s = .next t ∧ shows t j.err false j.rsp j.rdata ∧
        t = { s with jtag := { j with instr := 32, err := false }, answer := t.answer, pins := t.pins }) ∧
    (j.busy = false → (op = 1 ∨ op = 2) → s.debugLevel < level →
      ∃ t, exec (.accessDr dr stamp) s = .next t ∧ shows t j.err false j.rsp j.rdata ∧ Raises 0x18 0 8 s t ∧
        t.get R.DBG_DENIED_COUNT 0 = min (s.get R.DBG_DENIED_COUNT 0 + 1) (2 ^ 32 - 1) ∧
        t = { s with jtag := { j with instr := 32, err := false, addr := a, rsp := rspAuth }, regs := t.regs, answer := t.answer, pins := t.pins } ∧
        RegsBut [R.DBG_DENIED.key 0, evtKey 0x18 0] s t) ∧
    (j.busy = false → (op = 1 ∨ op = 2) → level ≤ s.debugLevel →
      ∃ t, exec (.accessDr dr stamp) s = .next t ∧ shows t j.err false j.rsp j.rdata ∧
        t = { issueRequest 39 0 { farReq (decide (op = 2)) a 4 (dr % 2 ^ 32) with consume := bitOf dr 74 } stamp
          { s with jtag := { j with instr := 32, err := false, addr := a, busy := true, reading := decide (op = 1) }
                   inbox := tblSet [] s.inbox 1248 [] } with answer := t.answer, pins := t.pins }) ∧
    (j.busy = true → tblGet [] s.inbox 1248 = [] →
      ∃ t, exec (.accessDr dr stamp) s = .next t ∧ shows t j.err true j.rsp j.rdata ∧
        t = { s with jtag := { j with instr := 32, err := decide (op = 1 ∨ op = 2) }, answer := t.answer, pins := t.pins }) ∧
    (∀ (r : Answer) (q : NetReq) (rest : List (Answer × NetReq)), j.busy = true → tblGet [] s.inbox 1248 = (r, q) :: rest → (op = 0 ∨ op = 3) →
      let data := if j.reading = true ∧ r.code = rspOk then leNum ((r.data.drop (q.addr % 64)).take 4) else j.rdata
      ∃ t, exec (.accessDr dr stamp) s = .next t ∧ shows t j.err false r.code data ∧ tblGet [] t.inbox 1248 = [] ∧
        t = { s with jtag := { j with instr := 32, err := false, busy := false, rsp := r.code, rdata := data }
                     inbox := t.inbox, answer := t.answer, pins := t.pins })) ∧
  (∀ (i : Initiator) (req stamp : Nat) (s : State), s.pageOpen 0x14 0 = true → req < 3 → s.flag R.LTCH_DBG_LOCKED 0 = false → s.vendor = false →
    let given := (List.range 4).flatMap (fun k => leBytes 4 (tblGet 0 s.latch.response k).toNat)
    (given = s.dbgAnswer req → req ≤ s.get R.LTCH_DBG_CEIL 0 →
      ∃ t, exec (.debugGo i req stamp) s = .next t ∧ t.answered rspOk ∧ t.get R.LTCH_DBG_LEVEL 0 = req ∧ t.debugLevel = req ∧
        t.get R.LTCH_DBG_FAILS 0 = 0 ∧ t.latch = { s.latch with goCount := s.latch.goCount + 1 } ∧
        (req = 2 → s.flag R.DBG_ALLOW_EN 0 = true → t = { s with latch := t.latch, regs := t.regs, answer := t.answer, pins := t.pins } ∧
          RegsBut [R.LTCH_DBG.key 0] s t) ∧
        (req < 2 → ∀ (ty n : Nat), engineOk ⟨ty, n⟩ = true → t.engState ty n ≠ 2 ∧ (t.core ⟨ty, n⟩).haltReq = 0 ∧ (t.core ⟨ty, n⟩).brkHalt = false)) ∧
    (given = s.dbgAnswer req → s.get R.LTCH_DBG_CEIL 0 < req →
      ∃ t, exec (.debugGo i req stamp) s = .next t ∧ t.get R.LTCH_DBG_LEVEL 0 = s.get R.LTCH_DBG_LEVEL 0 ∧ t.get R.LTCH_DBG_FAILS 0 = 0) ∧
    (given ≠ s.dbgAnswer req →
      let n := s.get R.LTCH_DBG_FAILS 0 + 1
      ∃ t, exec (.debugGo i req stamp) s = .next t ∧ t.answered rspOk ∧ t.get R.LTCH_DBG_LEVEL 0 = s.get R.LTCH_DBG_LEVEL 0 ∧
        t.get R.LTCH_DBG_FAILS 0 = n % 2 ^ R.LTCH_DBG_FAILS.w ∧ bitOf (t.getReg 0x14 0 0x010).toNat 3 = true ∧
        t.flag R.LTCH_DBG_LOCKED 0 = decide (3 ≤ n)))

/-- R516 to R527. That a step ends after one bundle at the load-delay boundary too is the model's reading. -/
def Obligations.DebugPortAndRunControl : Prop :=
  (∀ (i : Initiator) (stamp : Nat) (e : EngineId) (s : State), s.pageOpen 0x18 0 = true → s.selType = e.ty → s.selNum = e.num → engineOk e = true →
    let k := engKey e.ty e.num
    let unit := s.haltUnit e.ty e.num
    let inUnit := fun (n : Nat) => unit.any (fun x => engKey x.1 x.2 == n)
    let may := s.debugLevel = 2 ∧ s.haltAllowed e.ty = true ∧ s.engState e.ty e.num = 1
    (may → ∃ t, exec (.halt i) s = .next t ∧ t.answered rspOk ∧ t = { s with engines := t.engines, answer := t.answer, pins := t.pins } ∧
      (∀ x, x ∈ unit → s.engState x.1 x.2 = 1 → t.eng (engKey x.1 x.2) = { s.eng (engKey x.1 x.2) with haltReq := 1 }) ∧
      (∀ x, x ∈ unit → s.engState x.1 x.2 ≠ 1 → t.eng (engKey x.1 x.2) = s.eng (engKey x.1 x.2)) ∧
      (∀ (n : Nat), inUnit n = false → t.eng n = s.eng n)) ∧
    (¬may → s.get (R.HDR_ERR_CODE_CODE.on 0x18) 0 = 0 →
      ∃ t, exec (.halt i) s = .next t ∧ t.answered rspRefused ∧ Latches 0x18 0 0x04C 0x0101 t ∧ Raises 0x18 0 4 s t ∧
        t.get R.DBG_RUN_STAT_REFUSED 0 = (if s.debugLevel ≠ 2 then 1 else if s.haltAllowed e.ty = false then 2 else 3) ∧
        OnlyRegs (R.DBG_RUN_STAT.key 0 :: evtKey 0x18 0 :: errKeys 0x18 0) s t) ∧
    (s.engineGang e.ty e.num = none → s.engState e.ty e.num = 2 → ∃ t, exec (.release i stamp) s = .next t ∧ t.answered rspOk ∧
      t.engState e.ty e.num = 1 ∧ Raises 0x18 0 2 s t ∧ t.eng k = { s.eng k with haltReq := 0, stepReq := 0, cyc := (t.eng k).cyc, wdgFull := (t.eng k).wdgFull } ∧ (s.eng k).cyc < (t.eng k).cyc ∧
      (t.eng k).wdgFull = s.get (R.ENG_WDG_CFG_PERIOD.on e.ty) e.num * 1024 ∧
      t.get (R.ENG_WDG_COUNT_CYCLES.on e.ty) e.num = (t.eng k).wdgFull % 2 ^ (R.ENG_WDG_COUNT_CYCLES.on e.ty).w ∧
      t = { s with engines := t.engines, regs := t.regs, freeCount := t.freeCount, answer := t.answer, pins := t.pins } ∧ (∀ (n : Nat), n ≠ k → t.eng n = s.eng n)) ∧
    (s.engineGang e.ty e.num = none → s.engState e.ty e.num = 1 → ∃ t, exec (.release i stamp) s = .next t ∧ t.answered rspOk ∧
      t.eng k = { s.eng k with haltReq := 0, stepReq := 0 } ∧ t = { s with engines := t.engines, answer := t.answer, pins := t.pins } ∧
      (∀ (n : Nat), n ≠ k → t.eng n = s.eng n)) ∧
    (∀ (ps : List Nat), s.engineGang e.ty e.num = some ps → s.engState e.ty e.num = 2 → ∃ t, exec (.release i stamp) s = .next t ∧ t.answered rspOk ∧
      (∀ x, x ∈ unit → s.engState x.1 x.2 = 2 → t.engState x.1 x.2 = 1) ∧ (∀ p, p ∈ ps → t.pcState p = s.pcState p ∧
        (s.pcState p = 2 → (e.ty, e.num) ∈ unit → tblGet 0 t.released p = stamp + 1)) ∧
      (∀ (n : Nat), inUnit n = false → t.eng n = s.eng n)) ∧
    (∃ t, exec (.brkOn i) s = .next t ∧ t.answered rspOk ∧ t.eng k = { s.eng k with brkHalt := true } ∧
      t = { s with engines := t.engines, answer := t.answer, pins := t.pins } ∧ (∀ (n : Nat), n ≠ k → t.eng n = s.eng n)) ∧
    (∃ t, exec (.brkOff i) s = .next t ∧ t.answered rspOk ∧ t.eng k = { s.eng k with brkHalt := false } ∧
      t = { s with engines := t.engines, answer := t.answer, pins := t.pins } ∧ (∀ (n : Nat), n ≠ k → t.eng n = s.eng n))) ∧
  (∀ (e : EngineId) (s : State), engineOk e = true →
    let k := engKey e.ty e.num
    let x := s.core e
    let others := fun (y : Nat × Nat) => y = (e.ty, e.num) ∨ s.engState y.1 y.2 ≠ 1
    s.engState e.ty e.num = 1 → x.late = [] → x.due = [] → x.bundle = [] → x.loads = [] → x.far = none → x.held = false →
    s.holdsWindow e.ty e.num = false →
    (x.haltReq = 0 → ∃ t, exec (.engineHalt e) s = .next t ∧ t = { s with pins := t.pins }) ∧
    (1 ≤ x.haltReq → x.haltReq ≤ 3 → s.engineGang e.ty e.num = none →
      ∃ t, exec (.engineHalt e) s = .next t ∧ t.engState e.ty e.num = 2 ∧ t.core e = { x with haltReq := 0, stepReq := 0, rep := none } ∧
        t.get R.DBG_RUN_STAT_CAUSE 0 = x.haltReq ∧ Raises 0x18 0 1 s t ∧ (∀ (n : Nat), n ≠ k → t.eng n = s.eng n) ∧
        t = { s with engines := t.engines, regs := t.regs, freeCount := t.freeCount, pins := t.pins } ∧ WdgKept e s t ∧
        RegsBut [(R.ENG_STATE_STATE.on e.ty).key e.num, wdgKey e, R.DBG_RUN_STAT.key 0, evtKey 0x18 0] s t) ∧
    (∀ (ps : List Nat), 1 ≤ x.haltReq → x.haltReq ≤ 3 → s.engineGang e.ty e.num = some ps → (∀ y, y ∈ s.haltUnit e.ty e.num → others y) →
      ∃ t, exec (.engineHalt e) s = .next t ∧ t.engState e.ty e.num = 2 ∧ t.core e = { x with haltReq := 0, stepReq := 0, rep := none } ∧
        Raises 0x18 0 1 s t ∧ (∀ p, p ∈ ps → t.pcState p = if s.pcState p = 1 then 2 else s.pcState p) ∧ (∀ (n : Nat), n ≠ k → t.eng n = s.eng n))) ∧
  (∀ (i : Initiator) (mask : Bool) (stamp : Nat) (y : Syl) (e : EngineId) (s : State), s.pageOpen 0x18 0 = true → s.selType = e.ty → s.selNum = e.num →
    engineOk e = true →
    let k := engKey e.ty e.num
    let r := s.setEngState e.ty e.num 1
    (s.engState e.ty e.num ≠ 2 → ∃ t, exec (.stepBundle i mask stamp) s = .next t ∧ t.answered rspOk ∧ t = { s with answer := t.answer, pins := t.pins }) ∧
    (s.engState e.ty e.num = 2 → s.engineGang e.ty e.num = none → r.ready e = true → s.holdsWindow e.ty e.num = false → y.alone = true → y.rd ≠ 0 →
      (s.core e).pc + 4 ≤ imemBytes e.ty → leNum ((s.mem k).bytes false (s.core e).pc 4) = sylWord 0x12 y →
      ∃ t, exec (.stepBundle i mask stamp) s = .next t ∧ t.answered rspOk ∧ t.engState e.ty e.num = 2 ∧ t.get R.DBG_RUN_STAT_CAUSE 0 = 3 ∧
        Raises 0x18 0 1 s t ∧ (t.core e).pc = s.nextPc e ∧ t.vreg e y.rd = s.vreg e y.ra ||| y.imm9 ∧
        (t.core e).haltReq = 0 ∧ (t.core e).stepReq = 0 ∧ (∀ (n : Nat), n ≠ k → t.eng n = s.eng n) ∧
        t = { s with engines := t.engines, regs := t.regs, freeCount := t.freeCount, answer := t.answer, pins := t.pins } ∧
        RegsBut [pcKey e, wdgKey e, (R.ENG_STATE_STATE.on e.ty).key e.num, R.DBG_RUN_STAT.key 0, evtKey 0x18 0] s t)) ∧
  (∀ (i : Initiator) (v : Word) (e : EngineId) (s : State), s.pageOpen 0x18 0 = true → s.selType = e.ty → s.selNum = e.num → engineOk e = true →
    let k := engKey e.ty e.num
    let x := s.core e
    let space := s.get R.DBG_REG_IDX_SPACE 0
    let num := s.get R.DBG_REG_IDX_NUM 0
    let st := s.engState e.ty e.num
    let u := v.toNat % 2 ^ widthOf e.ty
    let wrote := fun (y : Engine) => ∃ t, exec (.debugRegAccess i true v) s = .next t ∧ t.answered rspOk ∧ t.core e = y ∧
      t = { s with engines := t.engines, answer := t.answer, pins := t.pins } ∧ (∀ (n : Nat), n ≠ k → t.eng n = s.eng n)
    ((st = 2 ∨ st = 3) →
      (space = 0 → num < 8 + 16 * windowPositions e.ty → ∃ t, exec (.debugRegAccess i false v) s = .next t ∧
        t.answer = [⟨rspOk, leBytes 4 (tblGet 0 x.phys num)⟩] ∧ t = { s with answer := t.answer, pins := t.pins }) ∧
      (space = 2 → ∃ t, exec (.debugRegAccess i false v) s = .next t ∧ t.answer = [⟨rspOk, leBytes 4 x.pc⟩] ∧
        t = { s with answer := t.answer, pins := t.pins }) ∧
      (space = 1 → 4 ≤ num → num ≤ 9 → ∃ t, exec (.debugRegAccess i false v) s = .next t ∧ t.answer = [⟨rspOk, leBytes 4 (s.sysReg e.ty e.num num)⟩] ∧
        t = { s with answer := t.answer, pins := t.pins })) ∧
    (st ≠ 2 → st ≠ 3 → s.get (R.HDR_ERR_CODE_CODE.on 0x18) 0 = 0 → ∃ t, exec (.debugRegAccess i false v) s = .next t ∧ t.answered rspRefused ∧
      Latches 0x18 0 0x058 0x0103 t ∧ OnlyRegs (errKeys 0x18 0) s t) ∧
    ((st ≠ 2 ∨ s.debugLevel ≠ 2) → s.get (R.HDR_ERR_CODE_CODE.on 0x18) 0 = 0 → ∃ t, exec (.debugRegAccess i true v) s = .next t ∧ t.answered rspRefused ∧
      Latches 0x18 0 0x058 0x0103 t ∧ OnlyRegs (errKeys 0x18 0) s t) ∧
    (st = 2 → s.debugLevel = 2 →
      (space = 0 → num < 8 + 16 * windowPositions e.ty → wrote { x with phys := physPut x.phys num u }) ∧
      (space = 1 → num = 4 → wrote { x with sys := sysPut e.ty x.sys 4 (maskMerge (s.sysReg e.ty e.num 4) u (sysMask e.ty 4)) }) ∧
      (space = 2 → wrote { x with pc := pcOf e.ty u, rep := none, bundle := [] }))) ∧
  (∀ (data : Nat) (e : EngineId) (s : State), s.pageOpen 0x18 0 = true → engineOk e = true → data < 256 →
    let k := engKey e.ty e.num
    let out := tblGet [] s.vtOut k
    let inp := tblGet [] s.vtIn k
    let mine := s.selType = e.ty ∧ s.selNum = e.num
    (out.length < 16 → ∃ t, exec (.vtOutWrite e data) s = .next t ∧ t.answered rspOk ∧ tblGet [] t.vtOut k = out ++ [data] ∧
      (∀ (n : Nat), n ≠ k → tblGet [] t.vtOut n = tblGet [] s.vtOut n) ∧ (mine → Raises 0x18 0 32 s t) ∧
      t = { s with vtOut := t.vtOut, regs := t.regs, answer := t.answer, pins := t.pins } ∧ RegsBut [evtKey 0x18 0] s t) ∧
    (16 ≤ out.length → ∃ t, exec (.vtOutWrite e data) s = .next t ∧ t.answered rspOk ∧ t.vtOut = s.vtOut ∧
      t.get R.DBG_VT_STAT_LOST 0 = min (s.get R.DBG_VT_STAT_LOST 0 + 1) (2 ^ R.DBG_VT_STAT_LOST.w - 1) ∧ OnlyRegs [R.DBG_VT_STAT.key 0] s t) ∧
    (mine → out = [] → ∃ t, exec .vtOutRead s = .next t ∧ t.answer = [⟨rspOk, [0, 0, 0, 0]⟩] ∧ t = { s with answer := t.answer, pins := t.pins }) ∧
    (∀ (b : Nat) (rest : List Nat), mine → out = b :: rest → ∃ t, exec .vtOutRead s = .next t ∧ t.answer = [⟨rspOk, leBytes 4 (2 ^ 31 + b)⟩] ∧
      tblGet [] t.vtOut k = rest ∧ (∀ (n : Nat), n ≠ k → tblGet [] t.vtOut n = tblGet [] s.vtOut n) ∧ Raises 0x18 0 (if rest = [] then 0 else 32) s t ∧
      t = { s with vtOut := t.vtOut, regs := t.regs, answer := t.answer, pins := t.pins } ∧ RegsBut [evtKey 0x18 0] s t) ∧
    (mine → inp.length < 16 → ∃ t, exec (.vtInWrite data) s = .next t ∧ t.answered rspOk ∧ tblGet [] t.vtIn k = inp ++ [data] ∧
      (∀ (n : Nat), n ≠ k → tblGet [] t.vtIn n = tblGet [] s.vtIn n) ∧ t.flag ⟨e.ty, 0x05C, 4, 4, 1⟩ e.num = true ∧
      t = { s with vtIn := t.vtIn, regs := t.regs, answer := t.answer, pins := t.pins } ∧ RegsBut [regKey e.ty e.num 0x05C] s t) ∧
    (mine → 16 ≤ inp.length → s.get (R.HDR_ERR_CODE_CODE.on 0x18) 0 = 0 → ∃ t, exec (.vtInWrite data) s = .next t ∧ t.answered rspRefused ∧
      Latches 0x18 0 0x044 0x0104 t ∧ OnlyRegs (errKeys 0x18 0) s t) ∧
    (inp = [] → ∃ t, exec (.vtInRead e) s = .next t ∧ t.answer = [⟨rspOk, [0, 0, 0, 0]⟩] ∧ t = { s with answer := t.answer, pins := t.pins }) ∧
    (∀ (b : Nat) (rest : List Nat), inp = b :: rest → ∃ t, exec (.vtInRead e) s = .next t ∧ t.answer = [⟨rspOk, leBytes 4 (2 ^ 31 + b)⟩] ∧
      tblGet [] t.vtIn k = rest ∧ (∀ (n : Nat), n ≠ k → tblGet [] t.vtIn n = tblGet [] s.vtIn n) ∧
      t = { s with vtIn := t.vtIn, answer := t.answer, pins := t.pins }))
end

