-- ==== Sys2Proof/Laws/Aes.lean ====
section
/-!
SUPPORT. The substitution tables of the block cipher against their definition: the inverse in GF(2^8) and an
affine map; and that every block,
round key and CMAC has 16 bytes.
-/

namespace Sys2Proof.Machine

/-- The affine map of the substitution undone: rotations of the byte added, and a constant. -/
def affineUndone (s : Nat) : Nat :=
  let rot (k : Nat) := (s * 2 ^ k) % 256 + s / 2 ^ (8 - k)
  rot 1 ^^^ rot 3 ^^^ rot 6 ^^^ 5

/-- The substitution of a byte is the affine map of its inverse in GF(2^8). -/
theorem subByte_inverse : ∀ a : Fin 256, gfProduct 8 a (affineUndone (subByte a)) = if a = 0 then 0 else 1 := by decide +kernel

/-- The substitution of 0 is the affine map of 0. -/
theorem subByte_zero : affineUndone (subByte 0) = 0 := by decide +kernel

/-- The inverse substitution undoes the substitution. -/
theorem invSubByte_subByte : ∀ a : Fin 256, invSubByte (subByte a) = a := by decide +kernel

/-! ### Every block has 16 bytes, and so has a CMAC -/

theorem xorBlock_length (a b : List Nat) : (xorBlock a b).length = min a.length b.length := by simp [xorBlock]

theorem shiftRows_length (b : List Nat) : (shiftRows b).length = 16 := by simp [shiftRows]

theorem nextKey_length (rcon : Nat) (k : List Nat) (h : k.length = 16) : (nextKey rcon k).length = 16 := by
  simp [nextKey, xorBlock_length, h]

theorem roundKeys_length : ∀ (n rcon : Nat) (k : List Nat), k.length = 16 → ∀ x ∈ roundKeys n rcon k, x.length = 16
  | 0, _, _, _, x, hx => by simp [roundKeys] at hx
  | n + 1, rcon, k, h, x, hx => by
    rcases List.mem_cons.mp hx with rfl | hx
    · exact h
    · exact roundKeys_length n _ _ (nextKey_length rcon k h) x hx

theorem encRounds_length : ∀ (ks : List (List Nat)) (b : List Nat), ks ≠ [] → (∀ k ∈ ks, k.length = 16) → (encRounds ks b).length = 16
  | [], _, h, _ => absurd rfl h
  | [k], b, _, h => by simp [encRounds, xorBlock_length, shiftRows_length, h]
  | k :: k' :: ks, b, _, h => by
    rw [encRounds]
    · exact encRounds_length (k' :: ks) _ (by simp) (fun x hx => h x (List.mem_cons_of_mem _ hx))
    · simp

theorem aesEncrypt_length (key block : List Nat) (h : key.length = 16) : (aesEncrypt key block).length = 16 := by
  have hk := roundKeys_length 11 1 key h
  simp only [aesEncrypt]
  rw [roundKeys] at *
  exact encRounds_length _ _ (by simp [roundKeys]) (fun x hx => hk x (List.mem_cons_of_mem _ hx))

theorem cmacChain_length (key k1 k2 : List Nat) (h : key.length = 16) :
    ∀ (fuel : Nat) (x m : List Nat), x.length = 16 → (cmacChain key k1 k2 fuel x m).length = 16
  | 0, _, _, hx => hx
  | n + 1, x, m, _ => by
    rw [cmacChain]
    split
    · exact aesEncrypt_length _ _ h
    · exact cmacChain_length key k1 k2 h n _ _ (aesEncrypt_length _ _ h)

theorem cmacBytes_length (key : BitVec 128) (message : List Byte) : (cmacBytes key message).length = 16 := by
  simp only [cmacBytes, List.length_map, aesCmac]
  exact cmacChain_length _ _ _ (by simp [numBlock]) _ _ _ (by simp)

end Sys2Proof.Machine
end

