-- ==== Sys2Proof/Laws/Bytes.lean ====
section
/-!
SUPPORT. The laws of byte order (R6): bytes and numbers, least significant first, undo each other.
-/

namespace Sys2Proof

@[simp] theorem leBytes_length : ∀ (n v : Nat), (leBytes n v).length = n
  | 0, _ => rfl
  | n + 1, v => by rw [leBytes, List.length_cons, leBytes_length n]

theorem leNum_lt : ∀ bs : List Byte, leNum bs < 256 ^ bs.length
  | [] => by simp [leNum]
  | b :: bs => by
    have h := leNum_lt bs
    have hb := b.isLt
    simp only [leNum, List.length_cons, Nat.pow_succ]
    omega

@[simp] theorem leBytes_leNum : ∀ bs : List Byte, leBytes bs.length (leNum bs) = bs
  | [] => rfl
  | b :: bs => by
    have hb := b.isLt
    have h : (b.toNat + 256 * leNum bs) / 256 = leNum bs := by omega
    simp only [List.length_cons, leBytes, leNum, h, leBytes_leNum bs, List.cons.injEq, and_true]
    apply BitVec.eq_of_toNat_eq
    rw [BitVec.toNat_ofNat]
    omega

@[simp] theorem leNum_leBytes : ∀ n v : Nat, leNum (leBytes n v) = v % 256 ^ n
  | 0, v => by simp [leBytes, leNum, Nat.mod_one]
  | n + 1, v => by
    have h : v % 256 ^ (n + 1) = v % 256 + 256 * (v / 256 % 256 ^ n) := by rw [Nat.pow_succ', Nat.mod_mul]
    simp only [leBytes, leNum, leNum_leBytes n, BitVec.toNat_ofNat, h, Nat.reducePow]

/-- The bytes of a register word are 4 bytes back again. -/
theorem leBytes_word (bs : List Byte) (h : bs.length = 4) : leBytes 4 (word (leNum bs)).toNat = bs := by
  have hl := leNum_lt bs
  rw [h] at hl
  rw [BitVec.toNat_ofNat, Nat.mod_eq_of_lt (by omega)]
  simpa [h] using leBytes_leNum bs

/-- Four register words carry 16 bytes. -/
theorem words_carry (bs : List Byte) (h : bs.length = 16) :
    (List.range 4).flatMap (fun k => leBytes 4 (word (leNum ((bs.drop (4 * k)).take 4))).toNat) = bs := by
  have e : List.range 4 = [0, 1, 2, 3] := rfl
  have hk (k : Nat) (hk : k < 4) : leBytes 4 (word (leNum ((bs.drop (4 * k)).take 4))).toNat = (bs.drop (4 * k)).take 4 :=
    leBytes_word _ (by simp [h]; omega)
  rw [e]
  simp only [List.flatMap_cons, List.flatMap_nil, List.append_nil, hk 0 (by omega), hk 1 (by omega), hk 2 (by omega), hk 3 (by omega)]
  match bs, h with
  | [a0, a1, a2, a3, a4, a5, a6, a7, a8, a9, a10, a11, a12, a13, a14, a15], _ => rfl

end Sys2Proof
end

