-- ==== Sys2Proof/Laws/Table.lean ====
section
/-!
SUPPORT. The laws of sparse tables and of memories held as tables: what a read sees after a write, whatever the table, and that every
operation keeps the canonical form.
-/

namespace Sys2Proof.Machine

variable {α : Type}

/-! ### Reads after writes -/

theorem tblFind_erase (t : Tbl α) (i j : Nat) : tblFind (tblErase t i) j = if j = i then none else tblFind t j := by
  induction t with
  | nil => simp [tblErase, tblFind]
  | cons p t ih =>
    obtain ⟨k, v⟩ := p
    simp only [tblErase]
    split
    · next h =>
      subst h
      rw [ih]
      by_cases hj : j = i <;> simp [tblFind, hj]
    · next h =>
      simp only [tblFind, ih]
      by_cases hj : j = k
      · subst hj
        simp [Ne.symm h]
      · simp [hj]

theorem tblFind_insert (t : Tbl α) (i j : Nat) (x : α) (h : tblFind t i = none) :
    tblFind (tblInsert t i x) j = if j = i then some x else tblFind t j := by
  induction t with
  | nil => simp [tblInsert, tblFind]
  | cons p t ih =>
    obtain ⟨k, v⟩ := p
    simp only [tblFind] at h
    split at h
    · cases h
    · next hk =>
      simp only [tblInsert]
      split
      · simp [tblFind]
      · simp only [tblFind, ih h]
        by_cases hj : j = k
        · subst hj
          simp [Ne.symm hk]
        · simp [hj]

theorem tblFind_put (t : Tbl α) (i j : Nat) (x : α) : tblFind (tblPut t i x) j = if j = i then some x else tblFind t j := by
  unfold tblPut
  rw [tblFind_insert _ _ _ _ (by rw [tblFind_erase]; simp), tblFind_erase]
  by_cases h : j = i <;> simp [h]

/-- A read after a write of one key. -/
theorem tblGet_set [DecidableEq α] (d : α) (t : Tbl α) (i j : Nat) (x : α) :
    tblGet d (tblSet d t i x) j = if j = i then x else tblGet d t j := by
  unfold tblSet tblGet
  by_cases hx : x = d
  · rw [if_pos hx, tblFind_erase]
    by_cases h : j = i <;> simp [h, hx]
  · rw [if_neg hx, tblFind_put]
    by_cases h : j = i <;> simp [h]

@[simp] theorem tblGet_set_same [DecidableEq α] (d : α) (t : Tbl α) (i : Nat) (x : α) : tblGet d (tblSet d t i x) i = x := by
  simp [tblGet_set]

theorem tblGet_set_other [DecidableEq α] (d : α) (t : Tbl α) (i j : Nat) (x : α) (h : j ≠ i) :
    tblGet d (tblSet d t i x) j = tblGet d t j := by
  simp [tblGet_set, h]

/-- A write of one key leaves what every other key lists. -/
theorem tblFind_set_other [DecidableEq α] (d : α) (t : Tbl α) (i j : Nat) (x : α) (h : j ≠ i) :
    tblFind (tblSet d t i x) j = tblFind t j := by
  unfold tblSet
  split
  · rw [tblFind_erase, if_neg h]
  · rw [tblFind_put, if_neg h]

@[simp] theorem tblGet_nil (d : α) (i : Nat) : tblGet d [] i = d := rfl

/-- What a table lists after the keys that fail a test have gone. -/
theorem tblFind_filter (t : Tbl α) (p : Nat → Bool) (j : Nat) :
    tblFind (t.filter (fun e => p e.1)) j = if p j then tblFind t j else none := by
  induction t with
  | nil => simp [tblFind]
  | cons e t ih =>
    obtain ⟨k, v⟩ := e
    by_cases hk : p k = true
    · simp only [List.filter_cons, hk, if_true, tblFind, ih]
      by_cases hj : j = k
      · subst hj
        simp [hk]
      · simp [hj]
    · simp only [List.filter_cons, hk, if_false, Bool.false_eq_true, tblFind, ih]
      by_cases hj : j = k
      · subst hj
        simp [hk]
      · simp [hj]

/-! ### The canonical form -/

theorem tblSorted_cons (k : Nat) (v : α) (t : Tbl α) :
    tblSorted ((k, v) :: t) = true ↔ (∀ p ∈ t, k < p.1) ∧ tblSorted t = true := by
  induction t generalizing k v with
  | nil => simp [tblSorted]
  | cons q t ih =>
    obtain ⟨b, y⟩ := q
    simp only [tblSorted, Bool.and_eq_true, decide_eq_true_eq, List.mem_cons, forall_eq_or_imp]
    constructor
    · rintro ⟨h1, h2⟩
      exact ⟨⟨h1, fun p hp => lt_trans h1 (((ih b y).1 h2).1 p hp)⟩, h2⟩
    · rintro ⟨⟨h1, _⟩, h2⟩
      exact ⟨h1, h2⟩

theorem tblErase_mem (t : Tbl α) (i : Nat) (p : Nat × α) (h : p ∈ tblErase t i) : p ∈ t ∧ p.1 ≠ i := by
  induction t with
  | nil => cases h
  | cons e t ih =>
    obtain ⟨k, v⟩ := e
    simp only [tblErase] at h
    split at h
    · exact ⟨List.mem_cons_of_mem _ (ih h).1, (ih h).2⟩
    · next hk =>
      rcases List.mem_cons.1 h with rfl | h
      · exact ⟨List.mem_cons_self, fun e => hk e.symm⟩
      · exact ⟨List.mem_cons_of_mem _ (ih h).1, (ih h).2⟩

theorem tblErase_sorted (t : Tbl α) (i : Nat) (h : tblSorted t = true) : tblSorted (tblErase t i) = true := by
  induction t with
  | nil => rfl
  | cons e t ih =>
    obtain ⟨k, v⟩ := e
    have hs := (tblSorted_cons k v t).1 h
    simp only [tblErase]
    split
    · exact ih hs.2
    · exact (tblSorted_cons _ _ _).2 ⟨fun p hp => hs.1 p (tblErase_mem t i p hp).1, ih hs.2⟩

theorem tblInsert_mem (t : Tbl α) (i : Nat) (x : α) (p : Nat × α) (h : p ∈ tblInsert t i x) : p = (i, x) ∨ p ∈ t := by
  induction t with
  | nil => exact .inl (List.mem_singleton.1 h)
  | cons e t ih =>
    obtain ⟨k, v⟩ := e
    simp only [tblInsert] at h
    split at h
    · exact List.mem_cons.1 h
    · rcases List.mem_cons.1 h with rfl | h
      · exact .inr List.mem_cons_self
      · exact (ih h).imp id (List.mem_cons_of_mem _)

theorem tblInsert_sorted (t : Tbl α) (i : Nat) (x : α) (h : tblSorted t = true) (hi : ∀ p ∈ t, p.1 ≠ i) :
    tblSorted (tblInsert t i x) = true := by
  induction t with
  | nil => rfl
  | cons e t ih =>
    obtain ⟨k, v⟩ := e
    have hs := (tblSorted_cons k v t).1 h
    have hk : k ≠ i := hi (k, v) List.mem_cons_self
    simp only [tblInsert]
    split
    · next hlt =>
      refine (tblSorted_cons _ _ _).2 ⟨fun p hp => ?_, h⟩
      rcases List.mem_cons.1 hp with rfl | hp
      · exact hlt
      · exact lt_trans hlt (hs.1 p hp)
    · next hge =>
      refine (tblSorted_cons _ _ _).2 ⟨fun p hp => ?_, ih hs.2 fun p hp => hi p (List.mem_cons_of_mem _ hp)⟩
      rcases tblInsert_mem t i x p hp with rfl | hp
      · exact lt_of_le_of_ne (Nat.le_of_not_lt hge) hk
      · exact hs.1 p hp

theorem tblFilter_sorted (t : Tbl α) (p : Nat × α → Bool) (h : tblSorted t = true) : tblSorted (t.filter p) = true := by
  induction t with
  | nil => rfl
  | cons e t ih =>
    obtain ⟨k, v⟩ := e
    have hs := (tblSorted_cons k v t).1 h
    simp only [List.filter_cons]
    split
    · exact (tblSorted_cons _ _ _).2 ⟨fun q hq => hs.1 q (List.mem_of_mem_filter hq), ih hs.2⟩
    · exact ih hs.2

theorem tblWf_iff [DecidableEq α] (d : α) (t : Tbl α) : tblWf d t = true ↔ tblSorted t = true ∧ ∀ p ∈ t, p.2 ≠ d := by
  simp [tblWf]

/-- Writing a key keeps the canonical form. -/
theorem tblSet_wf [DecidableEq α] (d : α) (t : Tbl α) (i : Nat) (x : α) (h : tblWf d t = true) : tblWf d (tblSet d t i x) = true := by
  rw [tblWf_iff] at h ⊢
  unfold tblSet
  split
  · exact ⟨tblErase_sorted t i h.1, fun p hp => h.2 p (tblErase_mem t i p hp).1⟩
  · next hx =>
    refine ⟨tblInsert_sorted _ _ _ (tblErase_sorted t i h.1) fun p hp => (tblErase_mem t i p hp).2, fun p hp => ?_⟩
    rcases tblInsert_mem _ _ _ _ hp with rfl | hp
    · exact hx
    · exact h.2 p (tblErase_mem t i p hp).1

/-- Dropping a range of keys keeps the canonical form. -/
theorem tblDrop_wf [DecidableEq α] (d : α) (t : Tbl α) (lo hi : Nat) (h : tblWf d t = true) : tblWf d (tblDrop t lo hi) = true := by
  rw [tblWf_iff] at h ⊢
  exact ⟨tblFilter_sorted t _ h.1, fun p hp => h.2 p (List.mem_of_mem_filter hp)⟩

/-- Writing bytes keeps the canonical form of a memory. -/
theorem memWrite_wf (d : Byte) (m : Memory) (a : Nat) (bs : List Byte) (h : tblWf d m = true) : tblWf d (memWrite d m a bs) = true := by
  induction bs generalizing m a with
  | nil => exact h
  | cons b bs ih => exact ih _ _ (tblSet_wf d m a b h)

/-- Writing bytes by their enables keeps the canonical form of a memory. -/
theorem memWriteMask_wf (d : Byte) (m : Memory) (a en : Nat) (bs : List Byte) (h : tblWf d m = true) :
    tblWf d (memWriteMask d m a en bs) = true := by
  induction bs generalizing m a en with
  | nil => exact h
  | cons b bs ih =>
    unfold memWriteMask
    refine ih _ _ _ ?_
    split
    · exact tblSet_wf d m a b h
    · exact h

/-- A byte of a memory after bytes have been written. -/
theorem memWrite_get (d : Byte) (m : Memory) (a : Nat) (bs : List Byte) (j : Nat) :
    tblGet d (memWrite d m a bs) j = if a ≤ j ∧ j < a + bs.length then bs.getD (j - a) d else tblGet d m j := by
  induction bs generalizing m a with
  | nil => simp [memWrite, show ¬(a ≤ j ∧ j < a) by omega]
  | cons b bs ih =>
    simp only [memWrite]
    rw [ih, tblGet_set]
    by_cases h1 : a + 1 ≤ j ∧ j < a + 1 + bs.length
    · rw [if_pos h1, if_pos (by simp; omega)]
      obtain ⟨n, rfl⟩ : ∃ n, j = a + 1 + n := ⟨j - (a + 1), by omega⟩
      rw [show a + 1 + n - (a + 1) = n by omega, show a + 1 + n - a = n + 1 by omega]
      simp
    · rw [if_neg h1]
      by_cases h2 : j = a
      · subst h2
        simp
      · rw [if_neg h2, if_neg (by simp; omega)]

end Sys2Proof.Machine
end

