-- ==== Sys2Proof/Laws/Bitstream.lean ====
section
/-!
SUPPORT. What reads of a flash with no error pattern deliver, the width of a CRC-32, and the steps of a bitstream copy (R456) on a
container of zero frames, under any key: that it passes them all.
-/

namespace Sys2Proof.Machine

/-- Flash words with no error pattern are clean. -/
theorem flashWords_clean : ∀ (n w : Nat) (s : State), s.flash.errs = [] → flashWords w n s = (s, false)
  | 0, _, _, _ => rfl
  | n + 1, w, s, h => by
    have e : flashWord w s = (s, false) := by
      simp only [flashWord, h]
      rw [show decodeWord (tblGet 0 ([] : Tbl (BitVec 76)) w).toNat = .clean from (by decide +kernel : decodeWord 0 = .clean)]
    simp only [flashWords, e]
    exact flashWords_clean n (w + 1) s h

/-- Bytes that lie in a flash with no error pattern from offset 0 on are read as they are. -/
theorem flashRead_clean (bs : List Byte) (s : State) (he : s.flash.errs = [])
    (hd : ∀ j, j < bs.length → tblGet erasedByte s.flash.data j = bs.getD j 0) (a n : Nat) (h : a + n ≤ bs.length) :
    flashRead a n s = (s, some ((bs.drop a).take n)) := by
  simp only [flashRead, flashWords_clean _ _ s he, Bool.false_eq_true, if_false]
  congr 2
  apply List.ext_getElem
  · simp; omega
  · intro k h1 h2
    simp only [List.length_map, List.length_range] at h1
    have e : residue (tblGet 0 ([] : Tbl (BitVec 76)) ((a + k) / 8)).toNat = 0 := (by decide +kernel : residue 0 = 0)
    simp only [List.getElem_map, List.getElem_range, flashByte, he, e, hd (a + k) (by omega)]
    simp [bitsAt, List.getElem_take, List.getElem_drop, show a + k < bs.length by omega]

theorem crcBit_lt (p r : Nat) (b : Bool) (hp : p < 2 ^ 32) : crcBit 32 p r b < 2 ^ 32 := by
  simp only [crcBit]
  split
  · exact Nat.xor_lt_two_pow (Nat.mod_lt _ (by decide)) hp
  · exact Nat.mod_lt _ (by decide)

theorem crcBits_lt (p : Nat) (hp : p < 2 ^ 32) : ∀ n v r : Nat, r < 2 ^ 32 → crcBits 32 p n v r < 2 ^ 32
  | 0, _, _, h => h
  | n + 1, v, r, _ => crcBits_lt p hp n v _ (crcBit_lt p r _ hp)

/-- A CRC-32 has 32 bits. -/
theorem crc32_lt (bs : List Byte) : crc32 bs < 2 ^ 32 := by
  have h : ∀ (bs : List Byte) (r : Nat), r < 2 ^ 32 → crcBytes 32 0x04C11DB7 r bs < 2 ^ 32 := by
    intro bs
    induction bs with
    | nil => exact fun r h => h
    | cons b bs ih => exact fun r h => ih _ (crcBits_lt _ (by decide) 8 _ r h)
  exact h bs _ (by decide)

/-- A frame of zeros passes its check where no frame before it says otherwise (R453, R458). -/
theorem frameCheck_zero (n : Nat) : frameCheck [] n (0 : BitVec 512) = 0 := by
  have each (p : Nat → Nat) (h : p 0 = 0) : firstCode ((List.range 8).map (fun c => p (frameField 0 c))) = 0 := by
    have e (c : Nat) : frameField 0 c = 0 := by simp [frameField, bitsAt]
    simp [e, h, firstCode, List.range_succ]
  have b (k : Nat) : bitOf 0 k = false := by simp [bitOf]
  have c (lo w : Nat) : bitsAt 0 lo w = 0 := by simp [bitsAt]
  have o : oneHot 0 = true := by decide
  have z : BitVec.toNat ((0 : BitVec 512)) = 0 := BitVec.toNat_zero
  simp only [frameCheck, z]
  split
  · exact each _ (by simp [cellCheck, b, c, o])
  split
  · exact each (fun l => if oneHot l then hcOk else hcContention) (by simp [o])
  split
  · exact each _ (by simp [pinCheck, b, c, o])
  · simp [hardCheck, b, c]

/-- A frame of zeros and its CRC. -/
def zeroFrame : List Byte := List.replicate 64 0 ++ leBytes 4 (crc32 (List.replicate 64 0))

/-- The 4 bytes after the first n of a list. -/
theorem word_after (a c : List Byte) (v n : Nat) (ha : a.length = n) (hv : v < 2 ^ 32) : argNum (a ++ (leBytes 4 v ++ c)) n 4 = v := by
  have e : ((a ++ (leBytes 4 v ++ c)).drop n).take 4 = leBytes 4 v := by
    rw [← ha, List.drop_left]
    exact List.take_left' (leBytes_length 4 v)
  rw [argNum, e, leNum_leBytes]
  exact Nat.mod_eq_of_lt hv

theorem zeroFrame_crc : argNum zeroFrame 64 4 = crc32 (zeroFrame.take 64) := by
  have e : zeroFrame.take 64 = List.replicate 64 0 := by decide +kernel
  rw [e]
  simpa [zeroFrame] using word_after (List.replicate 64 0) [] (crc32 (List.replicate 64 0)) 64 (by simp) (crc32_lt _)

/-- Frames of zeros, each with its CRC, pass the steps of a copy (R456). -/
theorem copyFrames_zero (a : Nat) (s : State) (hr : ∀ n, n < 4237 → flashRead (a + 0x100 + 68 * n) 68 s = (s, some zeroFrame)) :
    ∀ (fuel n : Nat) (run : CopyRun), n + fuel ≤ 4237 → run.frames = [] →
      ∃ k r, copyFrames a fuel n run s = (s, ⟨0, k, r⟩)
  | 0, n, run, _, _ => ⟨n, run, rfl⟩
  | fuel + 1, n, run, h, hf => by
    have f0 : BitVec.ofNat 512 (leNum (zeroFrame.take 64)) = (0 : BitVec 512) := by decide +kernel
    have c0 := zeroFrame_crc
    simp only [copyFrames, hr n (by omega), f0, c0, hf, frameCheck_zero, ne_eq, not_true, if_false]
    refine copyFrames_zero a s hr fuel (n + 1) _ (by omega) ?_
    simp [tblSet, tblErase]

/-- A block of a list of equal blocks. -/
theorem block_of_many (f post : List Byte) (l : Nat) (hl : f.length = l) :
    ∀ m n : Nat, n < m → ((((List.replicate m f).flatten ++ post).drop (l * n)).take l) = f
  | 0, n, h => absurd h (by omega)
  | m + 1, 0, _ => by simp [List.replicate_succ, ← hl]
  | m + 1, n + 1, h => by
    rw [List.replicate_succ, List.flatten_cons, List.append_assoc, show l * (n + 1) = f.length + l * n by rw [hl, Nat.mul_succ, Nat.add_comm],
      ← List.drop_drop, List.drop_left]
    exact block_of_many f post l hl m n (by omega)

/-- A copy at flash offset 0 all of whose steps pass (R456). -/
theorem copySteps_passes (key : Nat) (s : State) (head b whole : List Byte) (t : List Nat) (k : Nat) (r : CopyRun)
    (h0 : 0 + bitstreamContainer ≤ journalBase) (h1 : flashRead 0 32 s = (s, some head))
    (h2 : contSteps (fun k => k == 3) key false head s = 0) (h3 : contLen head = bitstreamLen)
    (h4 : flashRead (0 + 32) 0x100 s = (s, some b)) (h5 : bitstreamHeaderOk b = true) (h6 : parkTable b = some t)
    (h7 : copyFrames (0 + 32) 4237 0 ⟨[], [], some t, argNum b 8 4, argNum b 12 4⟩ s = (s, ⟨0, k, r⟩))
    (h8 : flashRead 0 bitstreamContainer s = (s, some whole))
    (h9 : argNum whole (32 + bitstreamLen - 4) 4 = crc32 ((whole.drop 32).take (bitstreamLen - 4))) (h10 : contTagOk key whole s = true) :
    (copySteps 0 key s).2.code = 0 := by
  have h0' : ¬ journalBase < 0 + bitstreamContainer := Nat.not_lt.mpr h0
  simp only [copySteps, h0', if_false, h1, h2, h3, ne_eq, not_true, h4, h5, Bool.not_true, Bool.false_eq_true, h6, h7, h8, h9, h10]

/-! ### A container of a bitstream of zeros -/

/-- Its header: kind 3, key slot 0. -/
def zeroHead : List Byte := leBytes 4 0x4752474E ++ [3, 0, 1, 0] ++ leBytes 4 bitstreamLen ++ List.replicate 20 0

/-- The first 256 bytes of its payload: the header and the parking table. -/
def zeroTop : List Byte :=
  leBytes 4 0x4C594842 ++ leBytes 2 1 ++ leBytes 2 4237 ++ leBytes 4 0xAB ++ leBytes 4 0xCD ++ leBytes 4 0x46678 ++
    List.replicate 44 0 ++ List.replicate 96 1 ++ leBytes 4 (crc32 (List.replicate 96 1)) ++ List.replicate 92 0

/-- Everything but the last CRC and the tag. -/
def zeroBody : List Byte := zeroHead ++ (zeroTop ++ (List.replicate 4237 zeroFrame).flatten)

/-- The container, under a key. -/
def zeroBox (key : BitVec 128) : List Byte :=
  (zeroBody ++ leBytes 4 (crc32 (zeroBody.drop 32))) ++ cmacBytes key (zeroBody ++ leBytes 4 (crc32 (zeroBody.drop 32)))

theorem zeroHead_length : zeroHead.length = 32 := by decide +kernel
theorem zeroTop_length : zeroTop.length = 256 := by decide +kernel
/-- Its parking table is valid. -/
theorem zeroTop_park : parkTable zeroTop = some (List.replicate 96 1) := by
  have e1 : (List.range 96).map (fun p => argNum zeroTop (0x40 + p) 1) = List.replicate 96 1 := by decide +kernel
  have e2 : (zeroTop.drop 0x40).take 0x60 = List.replicate 96 1 := by decide +kernel
  have e4 : argNum zeroTop 0xA0 4 = crc32 (List.replicate 96 1) := by
    rw [zeroTop, List.append_assoc]
    exact word_after _ _ _ _ (by decide +kernel) (crc32_lt _)
  simp only [parkTable, e1, e2, e4, beq_self_eq_true, Bool.and_true]
  exact if_pos (by decide +kernel)

theorem zeroFrame_length : zeroFrame.length = 68 := by decide +kernel
theorem zeroBody_length : zeroBody.length = 288404 := by
  rw [zeroBody, List.length_append, List.length_append, List.length_flatten, List.map_replicate, List.sum_replicate, zeroHead_length,
    zeroTop_length, zeroFrame_length]
  decide
theorem zeroBox_length (key : BitVec 128) : (zeroBox key).length = 288424 := by
  simp [zeroBox, zeroBody_length, cmacBytes_length]

theorem regroup (b h t f c g : List Byte) (e : b = h ++ (t ++ f)) : (b ++ c) ++ g = h ++ (t ++ (f ++ (c ++ g))) := by
  rw [e]
  simp only [List.append_assoc]

/-- The slices that a copy reads. -/
theorem zeroBox_slices (key : BitVec 128) :
    ((zeroBox key).drop 0).take 32 = zeroHead ∧ ((zeroBox key).drop 32).take 0x100 = zeroTop ∧
    (∀ n, n < 4237 → ((zeroBox key).drop (32 + 0x100 + 68 * n)).take 68 = zeroFrame) ∧
    ((zeroBox key).drop 0).take 288424 = zeroBox key ∧
    ((zeroBox key).drop 32).take 288372 = zeroBody.drop 32 ∧
    ((zeroBox key).drop 288404).take 4 = leBytes 4 (crc32 (zeroBody.drop 32)) ∧
    (zeroBox key).take 288408 = zeroBody ++ leBytes 4 (crc32 (zeroBody.drop 32)) ∧
    ((zeroBox key).drop 288408).take 16 = cmacBytes key (zeroBody ++ leBytes 4 (crc32 (zeroBody.drop 32))) := by
  have l1 := zeroHead_length
  have l2 := zeroTop_length
  have l3 := zeroBody_length
  have l4 : (zeroBody ++ leBytes 4 (crc32 (zeroBody.drop 32))).length = 288408 := by simp [l3]
  have form : ∃ post, zeroBox key = zeroHead ++ (zeroTop ++ ((List.replicate 4237 zeroFrame).flatten ++ post)) :=
    ⟨_, regroup _ _ _ _ _ _ rfl⟩
  have form2 : ∃ post, zeroBox key = zeroBody ++ (leBytes 4 (crc32 (zeroBody.drop 32)) ++ post) :=
    ⟨_, List.append_assoc _ _ _⟩
  obtain ⟨post, hp⟩ := form
  obtain ⟨post2, hp2⟩ := form2
  refine ⟨?_, ?_, fun n hn => ?_, ?_, ?_, ?_, ?_, ?_⟩
  · rw [hp, List.drop_zero, ← l1, List.take_left]
  · rw [hp, ← l1, List.drop_left, ← l2, List.take_left]
  · rw [hp, show 32 + 0x100 + 68 * n = zeroHead.length + (zeroTop.length + 68 * n) by rw [l1, l2]; omega, ← List.drop_drop,
      List.drop_left, ← List.drop_drop, List.drop_left]
    exact block_of_many zeroFrame post 68 zeroFrame_length 4237 n hn
  · rw [List.drop_zero, List.take_of_length_le (by rw [zeroBox_length])]
  · rw [hp2, List.drop_append_of_le_length (by rw [l3]; decide), List.take_append_of_le_length (by rw [List.length_drop, l3]),
      List.take_of_length_le (by rw [List.length_drop, l3])]
  · rw [hp2, ← l3, List.drop_left, List.take_append_of_le_length (by simp), List.take_of_length_le (by simp)]
  · rw [zeroBox, ← l4, List.take_left]
  · rw [zeroBox, ← l4, List.drop_left, List.take_of_length_le (by rw [cmacBytes_length])]

end Sys2Proof.Machine
end

