-- ==== Sys2Proof/Laws/State.lean ====
section
/-!
SUPPORT. What each named update of the state leaves and writes: one lemma a field, one a reader.
-/

namespace Sys2Proof.Machine

/-! ### setReg -/

@[simp] theorem State.setReg_stiles (s : State) (ty n off : Nat) (v : Word) : (s.setReg ty n off v).stiles = s.stiles := rfl
@[simp] theorem State.setReg_trlh (s : State) (ty n off : Nat) (v : Word) : (s.setReg ty n off v).trlh = s.trlh := rfl
@[simp] theorem State.setReg_ejected (s : State) (ty n off : Nat) (v : Word) : (s.setReg ty n off v).ejected = s.ejected := rfl
@[simp] theorem State.setReg_bridge (s : State) (ty n off : Nat) (v : Word) : (s.setReg ty n off v).bridge = s.bridge := rfl
@[simp] theorem State.setReg_trace (s : State) (ty n off : Nat) (v : Word) : (s.setReg ty n off v).trace = s.trace := rfl
@[simp] theorem State.setReg_nocNow (s : State) (ty n off : Nat) (v : Word) : (s.setReg ty n off v).nocNow = s.nocNow := rfl
@[simp] theorem State.setReg_inbox (s : State) (ty n off : Nat) (v : Word) : (s.setReg ty n off v).inbox = s.inbox := rfl
@[simp] theorem State.setReg_pending (s : State) (ty n off : Nat) (v : Word) : (s.setReg ty n off v).pending = s.pending := rfl
@[simp] theorem State.setReg_answer (s : State) (ty n off : Nat) (v : Word) : (s.setReg ty n off v).answer = s.answer := rfl
@[simp] theorem State.setReg_freeCount (s : State) (ty n off : Nat) (v : Word) : (s.setReg ty n off v).freeCount = s.freeCount := rfl
@[simp] theorem State.setReg_shadows (s : State) (ty n off : Nat) (v : Word) : (s.setReg ty n off v).shadows = s.shadows := rfl
@[simp] theorem State.setReg_unlock (s : State) (ty n off : Nat) (v : Word) : (s.setReg ty n off v).unlock = s.unlock := rfl
@[simp] theorem State.setReg_reports (s : State) (ty n off : Nat) (v : Word) : (s.setReg ty n off v).reports = s.reports := rfl
@[simp] theorem State.setReg_tick (s : State) (ty n off : Nat) (v : Word) : (s.setReg ty n off v).tick = s.tick := rfl
@[simp] theorem State.setReg_lintel (s : State) (ty n off : Nat) (v : Word) : (s.setReg ty n off v).lintel = s.lintel := rfl
@[simp] theorem State.setReg_linkLosses (s : State) (ty n off : Nat) (v : Word) : (s.setReg ty n off v).linkLosses = s.linkLosses := rfl
@[simp] theorem State.setReg_bridgeFresh (s : State) (ty n off : Nat) (v : Word) : (s.setReg ty n off v).bridgeFresh = s.bridgeFresh := rfl
@[simp] theorem State.setReg_ddr (s : State) (ty n off : Nat) (v : Word) : (s.setReg ty n off v).ddr = s.ddr := rfl
@[simp] theorem State.setReg_pins (s : State) (ty n off : Nat) (v : Word) : (s.setReg ty n off v).pins = s.pins := rfl
@[simp] theorem State.setReg_agg (s : State) (ty n off : Nat) (v : Word) : (s.setReg ty n off v).agg = s.agg := rfl
@[simp] theorem State.setReg_porter (s : State) (ty n off : Nat) (v : Word) : (s.setReg ty n off v).porter = s.porter := rfl
@[simp] theorem State.setReg_gangs (s : State) (ty n off : Nat) (v : Word) : (s.setReg ty n off v).gangs = s.gangs := rfl
@[simp] theorem State.setReg_doneTasks (s : State) (ty n off : Nat) (v : Word) : (s.setReg ty n off v).doneTasks = s.doneTasks := rfl
@[simp] theorem State.setReg_panes (s : State) (ty n off : Nat) (v : Word) : (s.setReg ty n off v).panes = s.panes := rfl
@[simp] theorem State.setReg_pctl (s : State) (ty n off : Nat) (v : Word) : (s.setReg ty n off v).pctl = s.pctl := rfl
@[simp] theorem State.setReg_rowPorts (s : State) (ty n off : Nat) (v : Word) : (s.setReg ty n off v).rowPorts = s.rowPorts := rfl
@[simp] theorem State.setReg_macroFlight (s : State) (ty n off : Nat) (v : Word) : (s.setReg ty n off v).macroFlight = s.macroFlight := rfl
@[simp] theorem State.setReg_bistFresh (s : State) (ty n off : Nat) (v : Word) : (s.setReg ty n off v).bistFresh = s.bistFresh := rfl
@[simp] theorem State.setReg_pant (s : State) (ty n off : Nat) (v : Word) : (s.setReg ty n off v).pant = s.pant := rfl
@[simp] theorem State.setReg_marchDue (s : State) (ty n off : Nat) (v : Word) : (s.setReg ty n off v).marchDue = s.marchDue := rfl
@[simp] theorem State.setReg_march (s : State) (ty n off : Nat) (v : Word) : (s.setReg ty n off v).march = s.march := rfl
@[simp] theorem State.setReg_arrayLink (s : State) (ty n off : Nat) (v : Word) : (s.setReg ty n off v).arrayLink = s.arrayLink := rfl
@[simp] theorem State.setReg_engMem (s : State) (ty n off : Nat) (v : Word) : (s.setReg ty n off v).engMem = s.engMem := rfl
@[simp] theorem State.setReg_engines (s : State) (ty n off : Nat) (v : Word) : (s.setReg ty n off v).engines = s.engines := rfl
@[simp] theorem State.setReg_heads (s : State) (ty n off : Nat) (v : Word) : (s.setReg ty n off v).heads = s.heads := rfl
@[simp] theorem State.setReg_glaz (s : State) (ty n off : Nat) (v : Word) : (s.setReg ty n off v).glaz = s.glaz := rfl
@[simp] theorem State.setReg_regionSel (s : State) (ty n off : Nat) (v : Word) : (s.setReg ty n off v).regionSel = s.regionSel := rfl
@[simp] theorem State.setReg_cams (s : State) (ty n off : Nat) (v : Word) : (s.setReg ty n off v).cams = s.cams := rfl
@[simp] theorem State.setReg_surfaces (s : State) (ty n off : Nat) (v : Word) : (s.setReg ty n off v).surfaces = s.surfaces := rfl
@[simp] theorem State.setReg_doorbells (s : State) (ty n off : Nat) (v : Word) : (s.setReg ty n off v).doorbells = s.doorbells := rfl
@[simp] theorem State.setReg_sigt (s : State) (ty n off : Nat) (v : Word) : (s.setReg ty n off v).sigt = s.sigt := rfl
@[simp] theorem State.setReg_gate (s : State) (ty n off : Nat) (v : Word) : (s.setReg ty n off v).gate = s.gate := rfl
@[simp] theorem State.setReg_latch (s : State) (ty n off : Nat) (v : Word) : (s.setReg ty n off v).latch = s.latch := rfl
@[simp] theorem State.setReg_hatchOpen (s : State) (ty n off : Nat) (v : Word) : (s.setReg ty n off v).hatchOpen = s.hatchOpen := rfl
@[simp] theorem State.setReg_flash (s : State) (ty n off : Nat) (v : Word) : (s.setReg ty n off v).flash = s.flash := rfl
@[simp] theorem State.setReg_fabric (s : State) (ty n off : Nat) (v : Word) : (s.setReg ty n off v).fabric = s.fabric := rfl
@[simp] theorem State.setReg_flashJob (s : State) (ty n off : Nat) (v : Word) : (s.setReg ty n off v).flashJob = s.flashJob := rfl
@[simp] theorem State.setReg_serial (s : State) (ty n off : Nat) (v : Word) : (s.setReg ty n off v).serial = s.serial := rfl
@[simp] theorem State.setReg_shutter (s : State) (ty n off : Nat) (v : Word) : (s.setReg ty n off v).shutter = s.shutter := rfl
@[simp] theorem State.setReg_boot (s : State) (ty n off : Nat) (v : Word) : (s.setReg ty n off v).boot = s.boot := rfl
@[simp] theorem State.setReg_bootActive (s : State) (ty n off : Nat) (v : Word) : (s.setReg ty n off v).bootActive = s.bootActive := rfl
@[simp] theorem State.setReg_missedTicks (s : State) (ty n off : Nat) (v : Word) : (s.setReg ty n off v).missedTicks = s.missedTicks := rfl
@[simp] theorem State.setReg_jtag (s : State) (ty n off : Nat) (v : Word) : (s.setReg ty n off v).jtag = s.jtag := rfl
@[simp] theorem State.setReg_vtOut (s : State) (ty n off : Nat) (v : Word) : (s.setReg ty n off v).vtOut = s.vtOut := rfl
@[simp] theorem State.setReg_vtIn (s : State) (ty n off : Nat) (v : Word) : (s.setReg ty n off v).vtIn = s.vtIn := rfl
@[simp] theorem State.setReg_released (s : State) (ty n off : Nat) (v : Word) : (s.setReg ty n off v).released = s.released := rfl
@[simp] theorem State.setReg_eng (s : State) (ty n off : Nat) (v : Word) (a : Nat): (s.setReg ty n off v).eng a= s.eng a:= rfl
@[simp] theorem State.setReg_mem (s : State) (ty n off : Nat) (v : Word) (a : Nat): (s.setReg ty n off v).mem a= s.mem a:= rfl
@[simp] theorem State.setReg_ctl (s : State) (ty n off : Nat) (v : Word) (a : Nat): (s.setReg ty n off v).ctl a= s.ctl a:= rfl
@[simp] theorem State.setReg_pane (s : State) (ty n off : Nat) (v : Word) (a : Nat): (s.setReg ty n off v).pane a= s.pane a:= rfl
@[simp] theorem State.setReg_link (s : State) (ty n off : Nat) (v : Word) (a : Nat): (s.setReg ty n off v).link a= s.link a:= rfl
@[simp] theorem State.setReg_port (s : State) (ty n off : Nat) (v : Word) (a : Nat): (s.setReg ty n off v).port a= s.port a:= rfl
@[simp] theorem State.setReg_run (s : State) (ty n off : Nat) (v : Word) (a : Nat): (s.setReg ty n off v).run a= s.run a:= rfl
@[simp] theorem State.setReg_th (s : State) (ty n off : Nat) (v : Word) (a : Nat): (s.setReg ty n off v).th a= s.th a:= rfl
@[simp] theorem State.setReg_stile (s : State) (ty n off : Nat) (v : Word) (a : Nat): (s.setReg ty n off v).stile a= s.stile a:= rfl
@[simp] theorem State.setReg_head (s : State) (ty n off : Nat) (v : Word) (a : Nat): (s.setReg ty n off v).head a= s.head a:= rfl
@[simp] theorem State.setReg_cam (s : State) (ty n off : Nat) (v : Word) (a : Nat): (s.setReg ty n off v).cam a= s.cam a:= rfl
@[simp] theorem State.setReg_ddrCh (s : State) (ty n off : Nat) (v : Word) (a : Nat): (s.setReg ty n off v).ddrCh a= s.ddrCh a:= rfl
@[simp] theorem State.setReg_bank (s : State) (ty n off : Nat) (v : Word) (a : Nat): (s.setReg ty n off v).bank a= s.bank a:= rfl
@[simp] theorem State.setReg_surf (s : State) (ty n off : Nat) (v : Word) (a : Nat): (s.setReg ty n off v).surf a= s.surf a:= rfl
@[simp] theorem State.setReg_side (s : State) (ty n off : Nat) (v : Word) (a : Nat): (s.setReg ty n off v).side a= s.side a:= rfl

/-! ### put -/

@[simp] theorem State.put_stiles (s : State) (f : Field) (n v : Nat) : (s.put f n v).stiles = s.stiles := rfl
@[simp] theorem State.put_trlh (s : State) (f : Field) (n v : Nat) : (s.put f n v).trlh = s.trlh := rfl
@[simp] theorem State.put_ejected (s : State) (f : Field) (n v : Nat) : (s.put f n v).ejected = s.ejected := rfl
@[simp] theorem State.put_bridge (s : State) (f : Field) (n v : Nat) : (s.put f n v).bridge = s.bridge := rfl
@[simp] theorem State.put_trace (s : State) (f : Field) (n v : Nat) : (s.put f n v).trace = s.trace := rfl
@[simp] theorem State.put_nocNow (s : State) (f : Field) (n v : Nat) : (s.put f n v).nocNow = s.nocNow := rfl
@[simp] theorem State.put_inbox (s : State) (f : Field) (n v : Nat) : (s.put f n v).inbox = s.inbox := rfl
@[simp] theorem State.put_pending (s : State) (f : Field) (n v : Nat) : (s.put f n v).pending = s.pending := rfl
@[simp] theorem State.put_answer (s : State) (f : Field) (n v : Nat) : (s.put f n v).answer = s.answer := rfl
@[simp] theorem State.put_freeCount (s : State) (f : Field) (n v : Nat) : (s.put f n v).freeCount = s.freeCount := rfl
@[simp] theorem State.put_shadows (s : State) (f : Field) (n v : Nat) : (s.put f n v).shadows = s.shadows := rfl
@[simp] theorem State.put_unlock (s : State) (f : Field) (n v : Nat) : (s.put f n v).unlock = s.unlock := rfl
@[simp] theorem State.put_reports (s : State) (f : Field) (n v : Nat) : (s.put f n v).reports = s.reports := rfl
@[simp] theorem State.put_tick (s : State) (f : Field) (n v : Nat) : (s.put f n v).tick = s.tick := rfl
@[simp] theorem State.put_lintel (s : State) (f : Field) (n v : Nat) : (s.put f n v).lintel = s.lintel := rfl
@[simp] theorem State.put_linkLosses (s : State) (f : Field) (n v : Nat) : (s.put f n v).linkLosses = s.linkLosses := rfl
@[simp] theorem State.put_bridgeFresh (s : State) (f : Field) (n v : Nat) : (s.put f n v).bridgeFresh = s.bridgeFresh := rfl
@[simp] theorem State.put_ddr (s : State) (f : Field) (n v : Nat) : (s.put f n v).ddr = s.ddr := rfl
@[simp] theorem State.put_pins (s : State) (f : Field) (n v : Nat) : (s.put f n v).pins = s.pins := rfl
@[simp] theorem State.put_agg (s : State) (f : Field) (n v : Nat) : (s.put f n v).agg = s.agg := rfl
@[simp] theorem State.put_porter (s : State) (f : Field) (n v : Nat) : (s.put f n v).porter = s.porter := rfl
@[simp] theorem State.put_gangs (s : State) (f : Field) (n v : Nat) : (s.put f n v).gangs = s.gangs := rfl
@[simp] theorem State.put_doneTasks (s : State) (f : Field) (n v : Nat) : (s.put f n v).doneTasks = s.doneTasks := rfl
@[simp] theorem State.put_panes (s : State) (f : Field) (n v : Nat) : (s.put f n v).panes = s.panes := rfl
@[simp] theorem State.put_pctl (s : State) (f : Field) (n v : Nat) : (s.put f n v).pctl = s.pctl := rfl
@[simp] theorem State.put_rowPorts (s : State) (f : Field) (n v : Nat) : (s.put f n v).rowPorts = s.rowPorts := rfl
@[simp] theorem State.put_macroFlight (s : State) (f : Field) (n v : Nat) : (s.put f n v).macroFlight = s.macroFlight := rfl
@[simp] theorem State.put_bistFresh (s : State) (f : Field) (n v : Nat) : (s.put f n v).bistFresh = s.bistFresh := rfl
@[simp] theorem State.put_pant (s : State) (f : Field) (n v : Nat) : (s.put f n v).pant = s.pant := rfl
@[simp] theorem State.put_marchDue (s : State) (f : Field) (n v : Nat) : (s.put f n v).marchDue = s.marchDue := rfl
@[simp] theorem State.put_march (s : State) (f : Field) (n v : Nat) : (s.put f n v).march = s.march := rfl
@[simp] theorem State.put_arrayLink (s : State) (f : Field) (n v : Nat) : (s.put f n v).arrayLink = s.arrayLink := rfl
@[simp] theorem State.put_engMem (s : State) (f : Field) (n v : Nat) : (s.put f n v).engMem = s.engMem := rfl
@[simp] theorem State.put_engines (s : State) (f : Field) (n v : Nat) : (s.put f n v).engines = s.engines := rfl
@[simp] theorem State.put_heads (s : State) (f : Field) (n v : Nat) : (s.put f n v).heads = s.heads := rfl
@[simp] theorem State.put_glaz (s : State) (f : Field) (n v : Nat) : (s.put f n v).glaz = s.glaz := rfl
@[simp] theorem State.put_regionSel (s : State) (f : Field) (n v : Nat) : (s.put f n v).regionSel = s.regionSel := rfl
@[simp] theorem State.put_cams (s : State) (f : Field) (n v : Nat) : (s.put f n v).cams = s.cams := rfl
@[simp] theorem State.put_surfaces (s : State) (f : Field) (n v : Nat) : (s.put f n v).surfaces = s.surfaces := rfl
@[simp] theorem State.put_doorbells (s : State) (f : Field) (n v : Nat) : (s.put f n v).doorbells = s.doorbells := rfl
@[simp] theorem State.put_sigt (s : State) (f : Field) (n v : Nat) : (s.put f n v).sigt = s.sigt := rfl
@[simp] theorem State.put_gate (s : State) (f : Field) (n v : Nat) : (s.put f n v).gate = s.gate := rfl
@[simp] theorem State.put_latch (s : State) (f : Field) (n v : Nat) : (s.put f n v).latch = s.latch := rfl
@[simp] theorem State.put_hatchOpen (s : State) (f : Field) (n v : Nat) : (s.put f n v).hatchOpen = s.hatchOpen := rfl
@[simp] theorem State.put_flash (s : State) (f : Field) (n v : Nat) : (s.put f n v).flash = s.flash := rfl
@[simp] theorem State.put_fabric (s : State) (f : Field) (n v : Nat) : (s.put f n v).fabric = s.fabric := rfl
@[simp] theorem State.put_flashJob (s : State) (f : Field) (n v : Nat) : (s.put f n v).flashJob = s.flashJob := rfl
@[simp] theorem State.put_serial (s : State) (f : Field) (n v : Nat) : (s.put f n v).serial = s.serial := rfl
@[simp] theorem State.put_shutter (s : State) (f : Field) (n v : Nat) : (s.put f n v).shutter = s.shutter := rfl
@[simp] theorem State.put_boot (s : State) (f : Field) (n v : Nat) : (s.put f n v).boot = s.boot := rfl
@[simp] theorem State.put_bootActive (s : State) (f : Field) (n v : Nat) : (s.put f n v).bootActive = s.bootActive := rfl
@[simp] theorem State.put_missedTicks (s : State) (f : Field) (n v : Nat) : (s.put f n v).missedTicks = s.missedTicks := rfl
@[simp] theorem State.put_jtag (s : State) (f : Field) (n v : Nat) : (s.put f n v).jtag = s.jtag := rfl
@[simp] theorem State.put_vtOut (s : State) (f : Field) (n v : Nat) : (s.put f n v).vtOut = s.vtOut := rfl
@[simp] theorem State.put_vtIn (s : State) (f : Field) (n v : Nat) : (s.put f n v).vtIn = s.vtIn := rfl
@[simp] theorem State.put_released (s : State) (f : Field) (n v : Nat) : (s.put f n v).released = s.released := rfl
@[simp] theorem State.put_eng (s : State) (f : Field) (n v : Nat) (a : Nat): (s.put f n v).eng a= s.eng a:= rfl
@[simp] theorem State.put_mem (s : State) (f : Field) (n v : Nat) (a : Nat): (s.put f n v).mem a= s.mem a:= rfl
@[simp] theorem State.put_ctl (s : State) (f : Field) (n v : Nat) (a : Nat): (s.put f n v).ctl a= s.ctl a:= rfl
@[simp] theorem State.put_pane (s : State) (f : Field) (n v : Nat) (a : Nat): (s.put f n v).pane a= s.pane a:= rfl
@[simp] theorem State.put_link (s : State) (f : Field) (n v : Nat) (a : Nat): (s.put f n v).link a= s.link a:= rfl
@[simp] theorem State.put_port (s : State) (f : Field) (n v : Nat) (a : Nat): (s.put f n v).port a= s.port a:= rfl
@[simp] theorem State.put_run (s : State) (f : Field) (n v : Nat) (a : Nat): (s.put f n v).run a= s.run a:= rfl
@[simp] theorem State.put_th (s : State) (f : Field) (n v : Nat) (a : Nat): (s.put f n v).th a= s.th a:= rfl
@[simp] theorem State.put_stile (s : State) (f : Field) (n v : Nat) (a : Nat): (s.put f n v).stile a= s.stile a:= rfl
@[simp] theorem State.put_head (s : State) (f : Field) (n v : Nat) (a : Nat): (s.put f n v).head a= s.head a:= rfl
@[simp] theorem State.put_cam (s : State) (f : Field) (n v : Nat) (a : Nat): (s.put f n v).cam a= s.cam a:= rfl
@[simp] theorem State.put_ddrCh (s : State) (f : Field) (n v : Nat) (a : Nat): (s.put f n v).ddrCh a= s.ddrCh a:= rfl
@[simp] theorem State.put_bank (s : State) (f : Field) (n v : Nat) (a : Nat): (s.put f n v).bank a= s.bank a:= rfl
@[simp] theorem State.put_surf (s : State) (f : Field) (n v : Nat) (a : Nat): (s.put f n v).surf a= s.surf a:= rfl
@[simp] theorem State.put_side (s : State) (f : Field) (n v : Nat) (a : Nat): (s.put f n v).side a= s.side a:= rfl

/-! ### raise -/

@[simp] theorem State.raise_stiles (s : State) (ty n k : Nat) : (s.raise ty n k).stiles = s.stiles := rfl
@[simp] theorem State.raise_trlh (s : State) (ty n k : Nat) : (s.raise ty n k).trlh = s.trlh := rfl
@[simp] theorem State.raise_ejected (s : State) (ty n k : Nat) : (s.raise ty n k).ejected = s.ejected := rfl
@[simp] theorem State.raise_bridge (s : State) (ty n k : Nat) : (s.raise ty n k).bridge = s.bridge := rfl
@[simp] theorem State.raise_trace (s : State) (ty n k : Nat) : (s.raise ty n k).trace = s.trace := rfl
@[simp] theorem State.raise_nocNow (s : State) (ty n k : Nat) : (s.raise ty n k).nocNow = s.nocNow := rfl
@[simp] theorem State.raise_inbox (s : State) (ty n k : Nat) : (s.raise ty n k).inbox = s.inbox := rfl
@[simp] theorem State.raise_pending (s : State) (ty n k : Nat) : (s.raise ty n k).pending = s.pending := rfl
@[simp] theorem State.raise_answer (s : State) (ty n k : Nat) : (s.raise ty n k).answer = s.answer := rfl
@[simp] theorem State.raise_freeCount (s : State) (ty n k : Nat) : (s.raise ty n k).freeCount = s.freeCount := rfl
@[simp] theorem State.raise_shadows (s : State) (ty n k : Nat) : (s.raise ty n k).shadows = s.shadows := rfl
@[simp] theorem State.raise_unlock (s : State) (ty n k : Nat) : (s.raise ty n k).unlock = s.unlock := rfl
@[simp] theorem State.raise_reports (s : State) (ty n k : Nat) : (s.raise ty n k).reports = s.reports := rfl
@[simp] theorem State.raise_tick (s : State) (ty n k : Nat) : (s.raise ty n k).tick = s.tick := rfl
@[simp] theorem State.raise_lintel (s : State) (ty n k : Nat) : (s.raise ty n k).lintel = s.lintel := rfl
@[simp] theorem State.raise_linkLosses (s : State) (ty n k : Nat) : (s.raise ty n k).linkLosses = s.linkLosses := rfl
@[simp] theorem State.raise_bridgeFresh (s : State) (ty n k : Nat) : (s.raise ty n k).bridgeFresh = s.bridgeFresh := rfl
@[simp] theorem State.raise_ddr (s : State) (ty n k : Nat) : (s.raise ty n k).ddr = s.ddr := rfl
@[simp] theorem State.raise_pins (s : State) (ty n k : Nat) : (s.raise ty n k).pins = s.pins := rfl
@[simp] theorem State.raise_agg (s : State) (ty n k : Nat) : (s.raise ty n k).agg = s.agg := rfl
@[simp] theorem State.raise_porter (s : State) (ty n k : Nat) : (s.raise ty n k).porter = s.porter := rfl
@[simp] theorem State.raise_gangs (s : State) (ty n k : Nat) : (s.raise ty n k).gangs = s.gangs := rfl
@[simp] theorem State.raise_doneTasks (s : State) (ty n k : Nat) : (s.raise ty n k).doneTasks = s.doneTasks := rfl
@[simp] theorem State.raise_panes (s : State) (ty n k : Nat) : (s.raise ty n k).panes = s.panes := rfl
@[simp] theorem State.raise_pctl (s : State) (ty n k : Nat) : (s.raise ty n k).pctl = s.pctl := rfl
@[simp] theorem State.raise_rowPorts (s : State) (ty n k : Nat) : (s.raise ty n k).rowPorts = s.rowPorts := rfl
@[simp] theorem State.raise_macroFlight (s : State) (ty n k : Nat) : (s.raise ty n k).macroFlight = s.macroFlight := rfl
@[simp] theorem State.raise_bistFresh (s : State) (ty n k : Nat) : (s.raise ty n k).bistFresh = s.bistFresh := rfl
@[simp] theorem State.raise_pant (s : State) (ty n k : Nat) : (s.raise ty n k).pant = s.pant := rfl
@[simp] theorem State.raise_marchDue (s : State) (ty n k : Nat) : (s.raise ty n k).marchDue = s.marchDue := rfl
@[simp] theorem State.raise_march (s : State) (ty n k : Nat) : (s.raise ty n k).march = s.march := rfl
@[simp] theorem State.raise_arrayLink (s : State) (ty n k : Nat) : (s.raise ty n k).arrayLink = s.arrayLink := rfl
@[simp] theorem State.raise_engMem (s : State) (ty n k : Nat) : (s.raise ty n k).engMem = s.engMem := rfl
@[simp] theorem State.raise_engines (s : State) (ty n k : Nat) : (s.raise ty n k).engines = s.engines := rfl
@[simp] theorem State.raise_heads (s : State) (ty n k : Nat) : (s.raise ty n k).heads = s.heads := rfl
@[simp] theorem State.raise_glaz (s : State) (ty n k : Nat) : (s.raise ty n k).glaz = s.glaz := rfl
@[simp] theorem State.raise_regionSel (s : State) (ty n k : Nat) : (s.raise ty n k).regionSel = s.regionSel := rfl
@[simp] theorem State.raise_cams (s : State) (ty n k : Nat) : (s.raise ty n k).cams = s.cams := rfl
@[simp] theorem State.raise_surfaces (s : State) (ty n k : Nat) : (s.raise ty n k).surfaces = s.surfaces := rfl
@[simp] theorem State.raise_doorbells (s : State) (ty n k : Nat) : (s.raise ty n k).doorbells = s.doorbells := rfl
@[simp] theorem State.raise_sigt (s : State) (ty n k : Nat) : (s.raise ty n k).sigt = s.sigt := rfl
@[simp] theorem State.raise_gate (s : State) (ty n k : Nat) : (s.raise ty n k).gate = s.gate := rfl
@[simp] theorem State.raise_latch (s : State) (ty n k : Nat) : (s.raise ty n k).latch = s.latch := rfl
@[simp] theorem State.raise_hatchOpen (s : State) (ty n k : Nat) : (s.raise ty n k).hatchOpen = s.hatchOpen := rfl
@[simp] theorem State.raise_flash (s : State) (ty n k : Nat) : (s.raise ty n k).flash = s.flash := rfl
@[simp] theorem State.raise_fabric (s : State) (ty n k : Nat) : (s.raise ty n k).fabric = s.fabric := rfl
@[simp] theorem State.raise_flashJob (s : State) (ty n k : Nat) : (s.raise ty n k).flashJob = s.flashJob := rfl
@[simp] theorem State.raise_serial (s : State) (ty n k : Nat) : (s.raise ty n k).serial = s.serial := rfl
@[simp] theorem State.raise_shutter (s : State) (ty n k : Nat) : (s.raise ty n k).shutter = s.shutter := rfl
@[simp] theorem State.raise_boot (s : State) (ty n k : Nat) : (s.raise ty n k).boot = s.boot := rfl
@[simp] theorem State.raise_bootActive (s : State) (ty n k : Nat) : (s.raise ty n k).bootActive = s.bootActive := rfl
@[simp] theorem State.raise_missedTicks (s : State) (ty n k : Nat) : (s.raise ty n k).missedTicks = s.missedTicks := rfl
@[simp] theorem State.raise_jtag (s : State) (ty n k : Nat) : (s.raise ty n k).jtag = s.jtag := rfl
@[simp] theorem State.raise_vtOut (s : State) (ty n k : Nat) : (s.raise ty n k).vtOut = s.vtOut := rfl
@[simp] theorem State.raise_vtIn (s : State) (ty n k : Nat) : (s.raise ty n k).vtIn = s.vtIn := rfl
@[simp] theorem State.raise_released (s : State) (ty n k : Nat) : (s.raise ty n k).released = s.released := rfl
@[simp] theorem State.raise_eng (s : State) (ty n k : Nat) (a : Nat): (s.raise ty n k).eng a= s.eng a:= rfl
@[simp] theorem State.raise_mem (s : State) (ty n k : Nat) (a : Nat): (s.raise ty n k).mem a= s.mem a:= rfl
@[simp] theorem State.raise_ctl (s : State) (ty n k : Nat) (a : Nat): (s.raise ty n k).ctl a= s.ctl a:= rfl
@[simp] theorem State.raise_pane (s : State) (ty n k : Nat) (a : Nat): (s.raise ty n k).pane a= s.pane a:= rfl
@[simp] theorem State.raise_link (s : State) (ty n k : Nat) (a : Nat): (s.raise ty n k).link a= s.link a:= rfl
@[simp] theorem State.raise_port (s : State) (ty n k : Nat) (a : Nat): (s.raise ty n k).port a= s.port a:= rfl
@[simp] theorem State.raise_run (s : State) (ty n k : Nat) (a : Nat): (s.raise ty n k).run a= s.run a:= rfl
@[simp] theorem State.raise_th (s : State) (ty n k : Nat) (a : Nat): (s.raise ty n k).th a= s.th a:= rfl
@[simp] theorem State.raise_stile (s : State) (ty n k : Nat) (a : Nat): (s.raise ty n k).stile a= s.stile a:= rfl
@[simp] theorem State.raise_head (s : State) (ty n k : Nat) (a : Nat): (s.raise ty n k).head a= s.head a:= rfl
@[simp] theorem State.raise_cam (s : State) (ty n k : Nat) (a : Nat): (s.raise ty n k).cam a= s.cam a:= rfl
@[simp] theorem State.raise_ddrCh (s : State) (ty n k : Nat) (a : Nat): (s.raise ty n k).ddrCh a= s.ddrCh a:= rfl
@[simp] theorem State.raise_bank (s : State) (ty n k : Nat) (a : Nat): (s.raise ty n k).bank a= s.bank a:= rfl
@[simp] theorem State.raise_surf (s : State) (ty n k : Nat) (a : Nat): (s.raise ty n k).surf a= s.surf a:= rfl
@[simp] theorem State.raise_side (s : State) (ty n k : Nat) (a : Nat): (s.raise ty n k).side a= s.side a:= rfl

/-! ### report -/

@[simp] theorem State.report_stiles (s : State) (ty n k d : Nat) : (s.report ty n k d).stiles = s.stiles := rfl
@[simp] theorem State.report_trlh (s : State) (ty n k d : Nat) : (s.report ty n k d).trlh = s.trlh := rfl
@[simp] theorem State.report_ejected (s : State) (ty n k d : Nat) : (s.report ty n k d).ejected = s.ejected := rfl
@[simp] theorem State.report_bridge (s : State) (ty n k d : Nat) : (s.report ty n k d).bridge = s.bridge := rfl
@[simp] theorem State.report_trace (s : State) (ty n k d : Nat) : (s.report ty n k d).trace = s.trace := rfl
@[simp] theorem State.report_nocNow (s : State) (ty n k d : Nat) : (s.report ty n k d).nocNow = s.nocNow := rfl
@[simp] theorem State.report_inbox (s : State) (ty n k d : Nat) : (s.report ty n k d).inbox = s.inbox := rfl
@[simp] theorem State.report_pending (s : State) (ty n k d : Nat) : (s.report ty n k d).pending = s.pending := rfl
@[simp] theorem State.report_answer (s : State) (ty n k d : Nat) : (s.report ty n k d).answer = s.answer := rfl
@[simp] theorem State.report_freeCount (s : State) (ty n k d : Nat) : (s.report ty n k d).freeCount = s.freeCount := rfl
@[simp] theorem State.report_regs (s : State) (ty n k d : Nat) : (s.report ty n k d).regs = s.regs := rfl
@[simp] theorem State.report_shadows (s : State) (ty n k d : Nat) : (s.report ty n k d).shadows = s.shadows := rfl
@[simp] theorem State.report_unlock (s : State) (ty n k d : Nat) : (s.report ty n k d).unlock = s.unlock := rfl
@[simp] theorem State.report_tick (s : State) (ty n k d : Nat) : (s.report ty n k d).tick = s.tick := rfl
@[simp] theorem State.report_lintel (s : State) (ty n k d : Nat) : (s.report ty n k d).lintel = s.lintel := rfl
@[simp] theorem State.report_linkLosses (s : State) (ty n k d : Nat) : (s.report ty n k d).linkLosses = s.linkLosses := rfl
@[simp] theorem State.report_bridgeFresh (s : State) (ty n k d : Nat) : (s.report ty n k d).bridgeFresh = s.bridgeFresh := rfl
@[simp] theorem State.report_ddr (s : State) (ty n k d : Nat) : (s.report ty n k d).ddr = s.ddr := rfl
@[simp] theorem State.report_pins (s : State) (ty n k d : Nat) : (s.report ty n k d).pins = s.pins := rfl
@[simp] theorem State.report_agg (s : State) (ty n k d : Nat) : (s.report ty n k d).agg = s.agg := rfl
@[simp] theorem State.report_porter (s : State) (ty n k d : Nat) : (s.report ty n k d).porter = s.porter := rfl
@[simp] theorem State.report_gangs (s : State) (ty n k d : Nat) : (s.report ty n k d).gangs = s.gangs := rfl
@[simp] theorem State.report_doneTasks (s : State) (ty n k d : Nat) : (s.report ty n k d).doneTasks = s.doneTasks := rfl
@[simp] theorem State.report_panes (s : State) (ty n k d : Nat) : (s.report ty n k d).panes = s.panes := rfl
@[simp] theorem State.report_pctl (s : State) (ty n k d : Nat) : (s.report ty n k d).pctl = s.pctl := rfl
@[simp] theorem State.report_rowPorts (s : State) (ty n k d : Nat) : (s.report ty n k d).rowPorts = s.rowPorts := rfl
@[simp] theorem State.report_macroFlight (s : State) (ty n k d : Nat) : (s.report ty n k d).macroFlight = s.macroFlight := rfl
@[simp] theorem State.report_bistFresh (s : State) (ty n k d : Nat) : (s.report ty n k d).bistFresh = s.bistFresh := rfl
@[simp] theorem State.report_pant (s : State) (ty n k d : Nat) : (s.report ty n k d).pant = s.pant := rfl
@[simp] theorem State.report_marchDue (s : State) (ty n k d : Nat) : (s.report ty n k d).marchDue = s.marchDue := rfl
@[simp] theorem State.report_march (s : State) (ty n k d : Nat) : (s.report ty n k d).march = s.march := rfl
@[simp] theorem State.report_arrayLink (s : State) (ty n k d : Nat) : (s.report ty n k d).arrayLink = s.arrayLink := rfl
@[simp] theorem State.report_engMem (s : State) (ty n k d : Nat) : (s.report ty n k d).engMem = s.engMem := rfl
@[simp] theorem State.report_engines (s : State) (ty n k d : Nat) : (s.report ty n k d).engines = s.engines := rfl
@[simp] theorem State.report_heads (s : State) (ty n k d : Nat) : (s.report ty n k d).heads = s.heads := rfl
@[simp] theorem State.report_glaz (s : State) (ty n k d : Nat) : (s.report ty n k d).glaz = s.glaz := rfl
@[simp] theorem State.report_regionSel (s : State) (ty n k d : Nat) : (s.report ty n k d).regionSel = s.regionSel := rfl
@[simp] theorem State.report_cams (s : State) (ty n k d : Nat) : (s.report ty n k d).cams = s.cams := rfl
@[simp] theorem State.report_surfaces (s : State) (ty n k d : Nat) : (s.report ty n k d).surfaces = s.surfaces := rfl
@[simp] theorem State.report_doorbells (s : State) (ty n k d : Nat) : (s.report ty n k d).doorbells = s.doorbells := rfl
@[simp] theorem State.report_sigt (s : State) (ty n k d : Nat) : (s.report ty n k d).sigt = s.sigt := rfl
@[simp] theorem State.report_gate (s : State) (ty n k d : Nat) : (s.report ty n k d).gate = s.gate := rfl
@[simp] theorem State.report_latch (s : State) (ty n k d : Nat) : (s.report ty n k d).latch = s.latch := rfl
@[simp] theorem State.report_hatchOpen (s : State) (ty n k d : Nat) : (s.report ty n k d).hatchOpen = s.hatchOpen := rfl
@[simp] theorem State.report_flash (s : State) (ty n k d : Nat) : (s.report ty n k d).flash = s.flash := rfl
@[simp] theorem State.report_fabric (s : State) (ty n k d : Nat) : (s.report ty n k d).fabric = s.fabric := rfl
@[simp] theorem State.report_flashJob (s : State) (ty n k d : Nat) : (s.report ty n k d).flashJob = s.flashJob := rfl
@[simp] theorem State.report_serial (s : State) (ty n k d : Nat) : (s.report ty n k d).serial = s.serial := rfl
@[simp] theorem State.report_shutter (s : State) (ty n k d : Nat) : (s.report ty n k d).shutter = s.shutter := rfl
@[simp] theorem State.report_boot (s : State) (ty n k d : Nat) : (s.report ty n k d).boot = s.boot := rfl
@[simp] theorem State.report_bootActive (s : State) (ty n k d : Nat) : (s.report ty n k d).bootActive = s.bootActive := rfl
@[simp] theorem State.report_missedTicks (s : State) (ty n k d : Nat) : (s.report ty n k d).missedTicks = s.missedTicks := rfl
@[simp] theorem State.report_jtag (s : State) (ty n k d : Nat) : (s.report ty n k d).jtag = s.jtag := rfl
@[simp] theorem State.report_vtOut (s : State) (ty n k d : Nat) : (s.report ty n k d).vtOut = s.vtOut := rfl
@[simp] theorem State.report_vtIn (s : State) (ty n k d : Nat) : (s.report ty n k d).vtIn = s.vtIn := rfl
@[simp] theorem State.report_released (s : State) (ty n k d : Nat) : (s.report ty n k d).released = s.released := rfl
@[simp] theorem State.report_getReg (s : State) (ty n k d : Nat) (a b e : Nat): (s.report ty n k d).getReg a b e= s.getReg a b e:= rfl
@[simp] theorem State.report_get (s : State) (ty n k d : Nat) (g : Field) (a : Nat): (s.report ty n k d).get g a= s.get g a:= rfl
@[simp] theorem State.report_flag (s : State) (ty n k d : Nat) (g : Field) (a : Nat): (s.report ty n k d).flag g a= s.flag g a:= rfl
@[simp] theorem State.report_domain (s : State) (ty n k d : Nat) (a : Nat): (s.report ty n k d).domain a= s.domain a:= rfl
@[simp] theorem State.report_domainOn (s : State) (ty n k d : Nat) (a : Nat): (s.report ty n k d).domainOn a= s.domainOn a:= rfl
@[simp] theorem State.report_domainUp (s : State) (ty n k d : Nat) (a : Nat): (s.report ty n k d).domainUp a= s.domainUp a:= rfl
@[simp] theorem State.report_linkUp (s : State) (ty n k d : Nat) : (s.report ty n k d).linkUp = s.linkUp := rfl
@[simp] theorem State.report_eng (s : State) (ty n k d : Nat) (a : Nat): (s.report ty n k d).eng a= s.eng a:= rfl
@[simp] theorem State.report_mem (s : State) (ty n k d : Nat) (a : Nat): (s.report ty n k d).mem a= s.mem a:= rfl
@[simp] theorem State.report_ctl (s : State) (ty n k d : Nat) (a : Nat): (s.report ty n k d).ctl a= s.ctl a:= rfl
@[simp] theorem State.report_pane (s : State) (ty n k d : Nat) (a : Nat): (s.report ty n k d).pane a= s.pane a:= rfl
@[simp] theorem State.report_link (s : State) (ty n k d : Nat) (a : Nat): (s.report ty n k d).link a= s.link a:= rfl
@[simp] theorem State.report_port (s : State) (ty n k d : Nat) (a : Nat): (s.report ty n k d).port a= s.port a:= rfl
@[simp] theorem State.report_run (s : State) (ty n k d : Nat) (a : Nat): (s.report ty n k d).run a= s.run a:= rfl
@[simp] theorem State.report_th (s : State) (ty n k d : Nat) (a : Nat): (s.report ty n k d).th a= s.th a:= rfl
@[simp] theorem State.report_stile (s : State) (ty n k d : Nat) (a : Nat): (s.report ty n k d).stile a= s.stile a:= rfl
@[simp] theorem State.report_head (s : State) (ty n k d : Nat) (a : Nat): (s.report ty n k d).head a= s.head a:= rfl
@[simp] theorem State.report_cam (s : State) (ty n k d : Nat) (a : Nat): (s.report ty n k d).cam a= s.cam a:= rfl
@[simp] theorem State.report_ddrCh (s : State) (ty n k d : Nat) (a : Nat): (s.report ty n k d).ddrCh a= s.ddrCh a:= rfl
@[simp] theorem State.report_bank (s : State) (ty n k d : Nat) (a : Nat): (s.report ty n k d).bank a= s.bank a:= rfl
@[simp] theorem State.report_surf (s : State) (ty n k d : Nat) (a : Nat): (s.report ty n k d).surf a= s.surf a:= rfl
@[simp] theorem State.report_side (s : State) (ty n k d : Nat) (a : Nat): (s.report ty n k d).side a= s.side a:= rfl

/-! ### reply -/

@[simp] theorem State.reply_stiles (s : State) (r : Nat) (d : List Byte) : (s.reply r d).stiles = s.stiles := rfl
@[simp] theorem State.reply_trlh (s : State) (r : Nat) (d : List Byte) : (s.reply r d).trlh = s.trlh := rfl
@[simp] theorem State.reply_ejected (s : State) (r : Nat) (d : List Byte) : (s.reply r d).ejected = s.ejected := rfl
@[simp] theorem State.reply_bridge (s : State) (r : Nat) (d : List Byte) : (s.reply r d).bridge = s.bridge := rfl
@[simp] theorem State.reply_trace (s : State) (r : Nat) (d : List Byte) : (s.reply r d).trace = s.trace := rfl
@[simp] theorem State.reply_nocNow (s : State) (r : Nat) (d : List Byte) : (s.reply r d).nocNow = s.nocNow := rfl
@[simp] theorem State.reply_inbox (s : State) (r : Nat) (d : List Byte) : (s.reply r d).inbox = s.inbox := rfl
@[simp] theorem State.reply_pending (s : State) (r : Nat) (d : List Byte) : (s.reply r d).pending = s.pending := rfl
@[simp] theorem State.reply_freeCount (s : State) (r : Nat) (d : List Byte) : (s.reply r d).freeCount = s.freeCount := rfl
@[simp] theorem State.reply_regs (s : State) (r : Nat) (d : List Byte) : (s.reply r d).regs = s.regs := rfl
@[simp] theorem State.reply_shadows (s : State) (r : Nat) (d : List Byte) : (s.reply r d).shadows = s.shadows := rfl
@[simp] theorem State.reply_unlock (s : State) (r : Nat) (d : List Byte) : (s.reply r d).unlock = s.unlock := rfl
@[simp] theorem State.reply_reports (s : State) (r : Nat) (d : List Byte) : (s.reply r d).reports = s.reports := rfl
@[simp] theorem State.reply_tick (s : State) (r : Nat) (d : List Byte) : (s.reply r d).tick = s.tick := rfl
@[simp] theorem State.reply_lintel (s : State) (r : Nat) (d : List Byte) : (s.reply r d).lintel = s.lintel := rfl
@[simp] theorem State.reply_linkLosses (s : State) (r : Nat) (d : List Byte) : (s.reply r d).linkLosses = s.linkLosses := rfl
@[simp] theorem State.reply_bridgeFresh (s : State) (r : Nat) (d : List Byte) : (s.reply r d).bridgeFresh = s.bridgeFresh := rfl
@[simp] theorem State.reply_ddr (s : State) (r : Nat) (d : List Byte) : (s.reply r d).ddr = s.ddr := rfl
@[simp] theorem State.reply_pins (s : State) (r : Nat) (d : List Byte) : (s.reply r d).pins = s.pins := rfl
@[simp] theorem State.reply_agg (s : State) (r : Nat) (d : List Byte) : (s.reply r d).agg = s.agg := rfl
@[simp] theorem State.reply_porter (s : State) (r : Nat) (d : List Byte) : (s.reply r d).porter = s.porter := rfl
@[simp] theorem State.reply_gangs (s : State) (r : Nat) (d : List Byte) : (s.reply r d).gangs = s.gangs := rfl
@[simp] theorem State.reply_doneTasks (s : State) (r : Nat) (d : List Byte) : (s.reply r d).doneTasks = s.doneTasks := rfl
@[simp] theorem State.reply_panes (s : State) (r : Nat) (d : List Byte) : (s.reply r d).panes = s.panes := rfl
@[simp] theorem State.reply_pctl (s : State) (r : Nat) (d : List Byte) : (s.reply r d).pctl = s.pctl := rfl
@[simp] theorem State.reply_rowPorts (s : State) (r : Nat) (d : List Byte) : (s.reply r d).rowPorts = s.rowPorts := rfl
@[simp] theorem State.reply_macroFlight (s : State) (r : Nat) (d : List Byte) : (s.reply r d).macroFlight = s.macroFlight := rfl
@[simp] theorem State.reply_bistFresh (s : State) (r : Nat) (d : List Byte) : (s.reply r d).bistFresh = s.bistFresh := rfl
@[simp] theorem State.reply_pant (s : State) (r : Nat) (d : List Byte) : (s.reply r d).pant = s.pant := rfl
@[simp] theorem State.reply_marchDue (s : State) (r : Nat) (d : List Byte) : (s.reply r d).marchDue = s.marchDue := rfl
@[simp] theorem State.reply_march (s : State) (r : Nat) (d : List Byte) : (s.reply r d).march = s.march := rfl
@[simp] theorem State.reply_arrayLink (s : State) (r : Nat) (d : List Byte) : (s.reply r d).arrayLink = s.arrayLink := rfl
@[simp] theorem State.reply_engMem (s : State) (r : Nat) (d : List Byte) : (s.reply r d).engMem = s.engMem := rfl
@[simp] theorem State.reply_engines (s : State) (r : Nat) (d : List Byte) : (s.reply r d).engines = s.engines := rfl
@[simp] theorem State.reply_heads (s : State) (r : Nat) (d : List Byte) : (s.reply r d).heads = s.heads := rfl
@[simp] theorem State.reply_glaz (s : State) (r : Nat) (d : List Byte) : (s.reply r d).glaz = s.glaz := rfl
@[simp] theorem State.reply_regionSel (s : State) (r : Nat) (d : List Byte) : (s.reply r d).regionSel = s.regionSel := rfl
@[simp] theorem State.reply_cams (s : State) (r : Nat) (d : List Byte) : (s.reply r d).cams = s.cams := rfl
@[simp] theorem State.reply_surfaces (s : State) (r : Nat) (d : List Byte) : (s.reply r d).surfaces = s.surfaces := rfl
@[simp] theorem State.reply_doorbells (s : State) (r : Nat) (d : List Byte) : (s.reply r d).doorbells = s.doorbells := rfl
@[simp] theorem State.reply_sigt (s : State) (r : Nat) (d : List Byte) : (s.reply r d).sigt = s.sigt := rfl
@[simp] theorem State.reply_gate (s : State) (r : Nat) (d : List Byte) : (s.reply r d).gate = s.gate := rfl
@[simp] theorem State.reply_latch (s : State) (r : Nat) (d : List Byte) : (s.reply r d).latch = s.latch := rfl
@[simp] theorem State.reply_hatchOpen (s : State) (r : Nat) (d : List Byte) : (s.reply r d).hatchOpen = s.hatchOpen := rfl
@[simp] theorem State.reply_flash (s : State) (r : Nat) (d : List Byte) : (s.reply r d).flash = s.flash := rfl
@[simp] theorem State.reply_fabric (s : State) (r : Nat) (d : List Byte) : (s.reply r d).fabric = s.fabric := rfl
@[simp] theorem State.reply_flashJob (s : State) (r : Nat) (d : List Byte) : (s.reply r d).flashJob = s.flashJob := rfl
@[simp] theorem State.reply_serial (s : State) (r : Nat) (d : List Byte) : (s.reply r d).serial = s.serial := rfl
@[simp] theorem State.reply_shutter (s : State) (r : Nat) (d : List Byte) : (s.reply r d).shutter = s.shutter := rfl
@[simp] theorem State.reply_boot (s : State) (r : Nat) (d : List Byte) : (s.reply r d).boot = s.boot := rfl
@[simp] theorem State.reply_bootActive (s : State) (r : Nat) (d : List Byte) : (s.reply r d).bootActive = s.bootActive := rfl
@[simp] theorem State.reply_missedTicks (s : State) (r : Nat) (d : List Byte) : (s.reply r d).missedTicks = s.missedTicks := rfl
@[simp] theorem State.reply_jtag (s : State) (r : Nat) (d : List Byte) : (s.reply r d).jtag = s.jtag := rfl
@[simp] theorem State.reply_vtOut (s : State) (r : Nat) (d : List Byte) : (s.reply r d).vtOut = s.vtOut := rfl
@[simp] theorem State.reply_vtIn (s : State) (r : Nat) (d : List Byte) : (s.reply r d).vtIn = s.vtIn := rfl
@[simp] theorem State.reply_released (s : State) (r : Nat) (d : List Byte) : (s.reply r d).released = s.released := rfl
@[simp] theorem State.reply_getReg (s : State) (r : Nat) (d : List Byte) (a b e : Nat): (s.reply r d).getReg a b e= s.getReg a b e:= rfl
@[simp] theorem State.reply_get (s : State) (r : Nat) (d : List Byte) (g : Field) (a : Nat): (s.reply r d).get g a= s.get g a:= rfl
@[simp] theorem State.reply_flag (s : State) (r : Nat) (d : List Byte) (g : Field) (a : Nat): (s.reply r d).flag g a= s.flag g a:= rfl
@[simp] theorem State.reply_domain (s : State) (r : Nat) (d : List Byte) (a : Nat): (s.reply r d).domain a= s.domain a:= rfl
@[simp] theorem State.reply_domainOn (s : State) (r : Nat) (d : List Byte) (a : Nat): (s.reply r d).domainOn a= s.domainOn a:= rfl
@[simp] theorem State.reply_domainUp (s : State) (r : Nat) (d : List Byte) (a : Nat): (s.reply r d).domainUp a= s.domainUp a:= rfl
@[simp] theorem State.reply_linkUp (s : State) (r : Nat) (d : List Byte) : (s.reply r d).linkUp = s.linkUp := rfl
@[simp] theorem State.reply_eng (s : State) (r : Nat) (d : List Byte) (a : Nat): (s.reply r d).eng a= s.eng a:= rfl
@[simp] theorem State.reply_mem (s : State) (r : Nat) (d : List Byte) (a : Nat): (s.reply r d).mem a= s.mem a:= rfl
@[simp] theorem State.reply_ctl (s : State) (r : Nat) (d : List Byte) (a : Nat): (s.reply r d).ctl a= s.ctl a:= rfl
@[simp] theorem State.reply_pane (s : State) (r : Nat) (d : List Byte) (a : Nat): (s.reply r d).pane a= s.pane a:= rfl
@[simp] theorem State.reply_link (s : State) (r : Nat) (d : List Byte) (a : Nat): (s.reply r d).link a= s.link a:= rfl
@[simp] theorem State.reply_port (s : State) (r : Nat) (d : List Byte) (a : Nat): (s.reply r d).port a= s.port a:= rfl
@[simp] theorem State.reply_run (s : State) (r : Nat) (d : List Byte) (a : Nat): (s.reply r d).run a= s.run a:= rfl
@[simp] theorem State.reply_th (s : State) (r : Nat) (d : List Byte) (a : Nat): (s.reply r d).th a= s.th a:= rfl
@[simp] theorem State.reply_stile (s : State) (r : Nat) (d : List Byte) (a : Nat): (s.reply r d).stile a= s.stile a:= rfl
@[simp] theorem State.reply_head (s : State) (r : Nat) (d : List Byte) (a : Nat): (s.reply r d).head a= s.head a:= rfl
@[simp] theorem State.reply_cam (s : State) (r : Nat) (d : List Byte) (a : Nat): (s.reply r d).cam a= s.cam a:= rfl
@[simp] theorem State.reply_ddrCh (s : State) (r : Nat) (d : List Byte) (a : Nat): (s.reply r d).ddrCh a= s.ddrCh a:= rfl
@[simp] theorem State.reply_bank (s : State) (r : Nat) (d : List Byte) (a : Nat): (s.reply r d).bank a= s.bank a:= rfl
@[simp] theorem State.reply_surf (s : State) (r : Nat) (d : List Byte) (a : Nat): (s.reply r d).surf a= s.surf a:= rfl
@[simp] theorem State.reply_side (s : State) (r : Nat) (d : List Byte) (a : Nat): (s.reply r d).side a= s.side a:= rfl

/-! ### setEng -/

@[simp] theorem State.setEng_stiles (s : State) (k : Nat) (x : Engine) : (s.setEng k x).stiles = s.stiles := rfl
@[simp] theorem State.setEng_trlh (s : State) (k : Nat) (x : Engine) : (s.setEng k x).trlh = s.trlh := rfl
@[simp] theorem State.setEng_ejected (s : State) (k : Nat) (x : Engine) : (s.setEng k x).ejected = s.ejected := rfl
@[simp] theorem State.setEng_bridge (s : State) (k : Nat) (x : Engine) : (s.setEng k x).bridge = s.bridge := rfl
@[simp] theorem State.setEng_trace (s : State) (k : Nat) (x : Engine) : (s.setEng k x).trace = s.trace := rfl
@[simp] theorem State.setEng_nocNow (s : State) (k : Nat) (x : Engine) : (s.setEng k x).nocNow = s.nocNow := rfl
@[simp] theorem State.setEng_inbox (s : State) (k : Nat) (x : Engine) : (s.setEng k x).inbox = s.inbox := rfl
@[simp] theorem State.setEng_pending (s : State) (k : Nat) (x : Engine) : (s.setEng k x).pending = s.pending := rfl
@[simp] theorem State.setEng_answer (s : State) (k : Nat) (x : Engine) : (s.setEng k x).answer = s.answer := rfl
@[simp] theorem State.setEng_freeCount (s : State) (k : Nat) (x : Engine) : (s.setEng k x).freeCount = s.freeCount := rfl
@[simp] theorem State.setEng_regs (s : State) (k : Nat) (x : Engine) : (s.setEng k x).regs = s.regs := rfl
@[simp] theorem State.setEng_shadows (s : State) (k : Nat) (x : Engine) : (s.setEng k x).shadows = s.shadows := rfl
@[simp] theorem State.setEng_unlock (s : State) (k : Nat) (x : Engine) : (s.setEng k x).unlock = s.unlock := rfl
@[simp] theorem State.setEng_reports (s : State) (k : Nat) (x : Engine) : (s.setEng k x).reports = s.reports := rfl
@[simp] theorem State.setEng_tick (s : State) (k : Nat) (x : Engine) : (s.setEng k x).tick = s.tick := rfl
@[simp] theorem State.setEng_lintel (s : State) (k : Nat) (x : Engine) : (s.setEng k x).lintel = s.lintel := rfl
@[simp] theorem State.setEng_linkLosses (s : State) (k : Nat) (x : Engine) : (s.setEng k x).linkLosses = s.linkLosses := rfl
@[simp] theorem State.setEng_bridgeFresh (s : State) (k : Nat) (x : Engine) : (s.setEng k x).bridgeFresh = s.bridgeFresh := rfl
@[simp] theorem State.setEng_ddr (s : State) (k : Nat) (x : Engine) : (s.setEng k x).ddr = s.ddr := rfl
@[simp] theorem State.setEng_pins (s : State) (k : Nat) (x : Engine) : (s.setEng k x).pins = s.pins := rfl
@[simp] theorem State.setEng_agg (s : State) (k : Nat) (x : Engine) : (s.setEng k x).agg = s.agg := rfl
@[simp] theorem State.setEng_porter (s : State) (k : Nat) (x : Engine) : (s.setEng k x).porter = s.porter := rfl
@[simp] theorem State.setEng_gangs (s : State) (k : Nat) (x : Engine) : (s.setEng k x).gangs = s.gangs := rfl
@[simp] theorem State.setEng_doneTasks (s : State) (k : Nat) (x : Engine) : (s.setEng k x).doneTasks = s.doneTasks := rfl
@[simp] theorem State.setEng_panes (s : State) (k : Nat) (x : Engine) : (s.setEng k x).panes = s.panes := rfl
@[simp] theorem State.setEng_pctl (s : State) (k : Nat) (x : Engine) : (s.setEng k x).pctl = s.pctl := rfl
@[simp] theorem State.setEng_rowPorts (s : State) (k : Nat) (x : Engine) : (s.setEng k x).rowPorts = s.rowPorts := rfl
@[simp] theorem State.setEng_macroFlight (s : State) (k : Nat) (x : Engine) : (s.setEng k x).macroFlight = s.macroFlight := rfl
@[simp] theorem State.setEng_bistFresh (s : State) (k : Nat) (x : Engine) : (s.setEng k x).bistFresh = s.bistFresh := rfl
@[simp] theorem State.setEng_pant (s : State) (k : Nat) (x : Engine) : (s.setEng k x).pant = s.pant := rfl
@[simp] theorem State.setEng_marchDue (s : State) (k : Nat) (x : Engine) : (s.setEng k x).marchDue = s.marchDue := rfl
@[simp] theorem State.setEng_march (s : State) (k : Nat) (x : Engine) : (s.setEng k x).march = s.march := rfl
@[simp] theorem State.setEng_arrayLink (s : State) (k : Nat) (x : Engine) : (s.setEng k x).arrayLink = s.arrayLink := rfl
@[simp] theorem State.setEng_engMem (s : State) (k : Nat) (x : Engine) : (s.setEng k x).engMem = s.engMem := rfl
@[simp] theorem State.setEng_heads (s : State) (k : Nat) (x : Engine) : (s.setEng k x).heads = s.heads := rfl
@[simp] theorem State.setEng_glaz (s : State) (k : Nat) (x : Engine) : (s.setEng k x).glaz = s.glaz := rfl
@[simp] theorem State.setEng_regionSel (s : State) (k : Nat) (x : Engine) : (s.setEng k x).regionSel = s.regionSel := rfl
@[simp] theorem State.setEng_cams (s : State) (k : Nat) (x : Engine) : (s.setEng k x).cams = s.cams := rfl
@[simp] theorem State.setEng_surfaces (s : State) (k : Nat) (x : Engine) : (s.setEng k x).surfaces = s.surfaces := rfl
@[simp] theorem State.setEng_doorbells (s : State) (k : Nat) (x : Engine) : (s.setEng k x).doorbells = s.doorbells := rfl
@[simp] theorem State.setEng_sigt (s : State) (k : Nat) (x : Engine) : (s.setEng k x).sigt = s.sigt := rfl
@[simp] theorem State.setEng_gate (s : State) (k : Nat) (x : Engine) : (s.setEng k x).gate = s.gate := rfl
@[simp] theorem State.setEng_latch (s : State) (k : Nat) (x : Engine) : (s.setEng k x).latch = s.latch := rfl
@[simp] theorem State.setEng_hatchOpen (s : State) (k : Nat) (x : Engine) : (s.setEng k x).hatchOpen = s.hatchOpen := rfl
@[simp] theorem State.setEng_flash (s : State) (k : Nat) (x : Engine) : (s.setEng k x).flash = s.flash := rfl
@[simp] theorem State.setEng_fabric (s : State) (k : Nat) (x : Engine) : (s.setEng k x).fabric = s.fabric := rfl
@[simp] theorem State.setEng_flashJob (s : State) (k : Nat) (x : Engine) : (s.setEng k x).flashJob = s.flashJob := rfl
@[simp] theorem State.setEng_serial (s : State) (k : Nat) (x : Engine) : (s.setEng k x).serial = s.serial := rfl
@[simp] theorem State.setEng_shutter (s : State) (k : Nat) (x : Engine) : (s.setEng k x).shutter = s.shutter := rfl
@[simp] theorem State.setEng_boot (s : State) (k : Nat) (x : Engine) : (s.setEng k x).boot = s.boot := rfl
@[simp] theorem State.setEng_bootActive (s : State) (k : Nat) (x : Engine) : (s.setEng k x).bootActive = s.bootActive := rfl
@[simp] theorem State.setEng_missedTicks (s : State) (k : Nat) (x : Engine) : (s.setEng k x).missedTicks = s.missedTicks := rfl
@[simp] theorem State.setEng_jtag (s : State) (k : Nat) (x : Engine) : (s.setEng k x).jtag = s.jtag := rfl
@[simp] theorem State.setEng_vtOut (s : State) (k : Nat) (x : Engine) : (s.setEng k x).vtOut = s.vtOut := rfl
@[simp] theorem State.setEng_vtIn (s : State) (k : Nat) (x : Engine) : (s.setEng k x).vtIn = s.vtIn := rfl
@[simp] theorem State.setEng_released (s : State) (k : Nat) (x : Engine) : (s.setEng k x).released = s.released := rfl
@[simp] theorem State.setEng_getReg (s : State) (k : Nat) (x : Engine) (a b e : Nat): (s.setEng k x).getReg a b e= s.getReg a b e:= rfl
@[simp] theorem State.setEng_get (s : State) (k : Nat) (x : Engine) (g : Field) (a : Nat): (s.setEng k x).get g a= s.get g a:= rfl
@[simp] theorem State.setEng_flag (s : State) (k : Nat) (x : Engine) (g : Field) (a : Nat): (s.setEng k x).flag g a= s.flag g a:= rfl
@[simp] theorem State.setEng_domain (s : State) (k : Nat) (x : Engine) (a : Nat): (s.setEng k x).domain a= s.domain a:= rfl
@[simp] theorem State.setEng_domainOn (s : State) (k : Nat) (x : Engine) (a : Nat): (s.setEng k x).domainOn a= s.domainOn a:= rfl
@[simp] theorem State.setEng_domainUp (s : State) (k : Nat) (x : Engine) (a : Nat): (s.setEng k x).domainUp a= s.domainUp a:= rfl
@[simp] theorem State.setEng_linkUp (s : State) (k : Nat) (x : Engine) : (s.setEng k x).linkUp = s.linkUp := rfl
@[simp] theorem State.setEng_mem (s : State) (k : Nat) (x : Engine) (a : Nat): (s.setEng k x).mem a= s.mem a:= rfl
@[simp] theorem State.setEng_ctl (s : State) (k : Nat) (x : Engine) (a : Nat): (s.setEng k x).ctl a= s.ctl a:= rfl
@[simp] theorem State.setEng_pane (s : State) (k : Nat) (x : Engine) (a : Nat): (s.setEng k x).pane a= s.pane a:= rfl
@[simp] theorem State.setEng_link (s : State) (k : Nat) (x : Engine) (a : Nat): (s.setEng k x).link a= s.link a:= rfl
@[simp] theorem State.setEng_port (s : State) (k : Nat) (x : Engine) (a : Nat): (s.setEng k x).port a= s.port a:= rfl
@[simp] theorem State.setEng_run (s : State) (k : Nat) (x : Engine) (a : Nat): (s.setEng k x).run a= s.run a:= rfl
@[simp] theorem State.setEng_th (s : State) (k : Nat) (x : Engine) (a : Nat): (s.setEng k x).th a= s.th a:= rfl
@[simp] theorem State.setEng_stile (s : State) (k : Nat) (x : Engine) (a : Nat): (s.setEng k x).stile a= s.stile a:= rfl
@[simp] theorem State.setEng_head (s : State) (k : Nat) (x : Engine) (a : Nat): (s.setEng k x).head a= s.head a:= rfl
@[simp] theorem State.setEng_cam (s : State) (k : Nat) (x : Engine) (a : Nat): (s.setEng k x).cam a= s.cam a:= rfl
@[simp] theorem State.setEng_ddrCh (s : State) (k : Nat) (x : Engine) (a : Nat): (s.setEng k x).ddrCh a= s.ddrCh a:= rfl
@[simp] theorem State.setEng_bank (s : State) (k : Nat) (x : Engine) (a : Nat): (s.setEng k x).bank a= s.bank a:= rfl
@[simp] theorem State.setEng_surf (s : State) (k : Nat) (x : Engine) (a : Nat): (s.setEng k x).surf a= s.surf a:= rfl
@[simp] theorem State.setEng_side (s : State) (k : Nat) (x : Engine) (a : Nat): (s.setEng k x).side a= s.side a:= rfl
theorem State.setEng_at (s : State) (k : Nat) (x : Engine) (j : Nat) : (s.setEng k x).eng j = if j = k then x else s.eng j := tblGet_set _ _ _ _ _
@[simp] theorem State.setEng_same (s : State) (k : Nat) (x : Engine) : (s.setEng k x).eng k = x := tblGet_set_same _ _ _ _
theorem State.setEng_other (s : State) (k : Nat) (x : Engine) (j : Nat) (h : j ≠ k) : (s.setEng k x).eng j = s.eng j := tblGet_set_other _ _ _ _ _ h

/-! ### setMem -/

@[simp] theorem State.setMem_stiles (s : State) (k : Nat) (x : EngMem) : (s.setMem k x).stiles = s.stiles := rfl
@[simp] theorem State.setMem_trlh (s : State) (k : Nat) (x : EngMem) : (s.setMem k x).trlh = s.trlh := rfl
@[simp] theorem State.setMem_ejected (s : State) (k : Nat) (x : EngMem) : (s.setMem k x).ejected = s.ejected := rfl
@[simp] theorem State.setMem_bridge (s : State) (k : Nat) (x : EngMem) : (s.setMem k x).bridge = s.bridge := rfl
@[simp] theorem State.setMem_trace (s : State) (k : Nat) (x : EngMem) : (s.setMem k x).trace = s.trace := rfl
@[simp] theorem State.setMem_nocNow (s : State) (k : Nat) (x : EngMem) : (s.setMem k x).nocNow = s.nocNow := rfl
@[simp] theorem State.setMem_inbox (s : State) (k : Nat) (x : EngMem) : (s.setMem k x).inbox = s.inbox := rfl
@[simp] theorem State.setMem_pending (s : State) (k : Nat) (x : EngMem) : (s.setMem k x).pending = s.pending := rfl
@[simp] theorem State.setMem_answer (s : State) (k : Nat) (x : EngMem) : (s.setMem k x).answer = s.answer := rfl
@[simp] theorem State.setMem_freeCount (s : State) (k : Nat) (x : EngMem) : (s.setMem k x).freeCount = s.freeCount := rfl
@[simp] theorem State.setMem_regs (s : State) (k : Nat) (x : EngMem) : (s.setMem k x).regs = s.regs := rfl
@[simp] theorem State.setMem_shadows (s : State) (k : Nat) (x : EngMem) : (s.setMem k x).shadows = s.shadows := rfl
@[simp] theorem State.setMem_unlock (s : State) (k : Nat) (x : EngMem) : (s.setMem k x).unlock = s.unlock := rfl
@[simp] theorem State.setMem_reports (s : State) (k : Nat) (x : EngMem) : (s.setMem k x).reports = s.reports := rfl
@[simp] theorem State.setMem_tick (s : State) (k : Nat) (x : EngMem) : (s.setMem k x).tick = s.tick := rfl
@[simp] theorem State.setMem_lintel (s : State) (k : Nat) (x : EngMem) : (s.setMem k x).lintel = s.lintel := rfl
@[simp] theorem State.setMem_linkLosses (s : State) (k : Nat) (x : EngMem) : (s.setMem k x).linkLosses = s.linkLosses := rfl
@[simp] theorem State.setMem_bridgeFresh (s : State) (k : Nat) (x : EngMem) : (s.setMem k x).bridgeFresh = s.bridgeFresh := rfl
@[simp] theorem State.setMem_ddr (s : State) (k : Nat) (x : EngMem) : (s.setMem k x).ddr = s.ddr := rfl
@[simp] theorem State.setMem_pins (s : State) (k : Nat) (x : EngMem) : (s.setMem k x).pins = s.pins := rfl
@[simp] theorem State.setMem_agg (s : State) (k : Nat) (x : EngMem) : (s.setMem k x).agg = s.agg := rfl
@[simp] theorem State.setMem_porter (s : State) (k : Nat) (x : EngMem) : (s.setMem k x).porter = s.porter := rfl
@[simp] theorem State.setMem_gangs (s : State) (k : Nat) (x : EngMem) : (s.setMem k x).gangs = s.gangs := rfl
@[simp] theorem State.setMem_doneTasks (s : State) (k : Nat) (x : EngMem) : (s.setMem k x).doneTasks = s.doneTasks := rfl
@[simp] theorem State.setMem_panes (s : State) (k : Nat) (x : EngMem) : (s.setMem k x).panes = s.panes := rfl
@[simp] theorem State.setMem_pctl (s : State) (k : Nat) (x : EngMem) : (s.setMem k x).pctl = s.pctl := rfl
@[simp] theorem State.setMem_rowPorts (s : State) (k : Nat) (x : EngMem) : (s.setMem k x).rowPorts = s.rowPorts := rfl
@[simp] theorem State.setMem_macroFlight (s : State) (k : Nat) (x : EngMem) : (s.setMem k x).macroFlight = s.macroFlight := rfl
@[simp] theorem State.setMem_bistFresh (s : State) (k : Nat) (x : EngMem) : (s.setMem k x).bistFresh = s.bistFresh := rfl
@[simp] theorem State.setMem_pant (s : State) (k : Nat) (x : EngMem) : (s.setMem k x).pant = s.pant := rfl
@[simp] theorem State.setMem_marchDue (s : State) (k : Nat) (x : EngMem) : (s.setMem k x).marchDue = s.marchDue := rfl
@[simp] theorem State.setMem_march (s : State) (k : Nat) (x : EngMem) : (s.setMem k x).march = s.march := rfl
@[simp] theorem State.setMem_arrayLink (s : State) (k : Nat) (x : EngMem) : (s.setMem k x).arrayLink = s.arrayLink := rfl
@[simp] theorem State.setMem_engines (s : State) (k : Nat) (x : EngMem) : (s.setMem k x).engines = s.engines := rfl
@[simp] theorem State.setMem_heads (s : State) (k : Nat) (x : EngMem) : (s.setMem k x).heads = s.heads := rfl
@[simp] theorem State.setMem_glaz (s : State) (k : Nat) (x : EngMem) : (s.setMem k x).glaz = s.glaz := rfl
@[simp] theorem State.setMem_regionSel (s : State) (k : Nat) (x : EngMem) : (s.setMem k x).regionSel = s.regionSel := rfl
@[simp] theorem State.setMem_cams (s : State) (k : Nat) (x : EngMem) : (s.setMem k x).cams = s.cams := rfl
@[simp] theorem State.setMem_surfaces (s : State) (k : Nat) (x : EngMem) : (s.setMem k x).surfaces = s.surfaces := rfl
@[simp] theorem State.setMem_doorbells (s : State) (k : Nat) (x : EngMem) : (s.setMem k x).doorbells = s.doorbells := rfl
@[simp] theorem State.setMem_sigt (s : State) (k : Nat) (x : EngMem) : (s.setMem k x).sigt = s.sigt := rfl
@[simp] theorem State.setMem_gate (s : State) (k : Nat) (x : EngMem) : (s.setMem k x).gate = s.gate := rfl
@[simp] theorem State.setMem_latch (s : State) (k : Nat) (x : EngMem) : (s.setMem k x).latch = s.latch := rfl
@[simp] theorem State.setMem_hatchOpen (s : State) (k : Nat) (x : EngMem) : (s.setMem k x).hatchOpen = s.hatchOpen := rfl
@[simp] theorem State.setMem_flash (s : State) (k : Nat) (x : EngMem) : (s.setMem k x).flash = s.flash := rfl
@[simp] theorem State.setMem_fabric (s : State) (k : Nat) (x : EngMem) : (s.setMem k x).fabric = s.fabric := rfl
@[simp] theorem State.setMem_flashJob (s : State) (k : Nat) (x : EngMem) : (s.setMem k x).flashJob = s.flashJob := rfl
@[simp] theorem State.setMem_serial (s : State) (k : Nat) (x : EngMem) : (s.setMem k x).serial = s.serial := rfl
@[simp] theorem State.setMem_shutter (s : State) (k : Nat) (x : EngMem) : (s.setMem k x).shutter = s.shutter := rfl
@[simp] theorem State.setMem_boot (s : State) (k : Nat) (x : EngMem) : (s.setMem k x).boot = s.boot := rfl
@[simp] theorem State.setMem_bootActive (s : State) (k : Nat) (x : EngMem) : (s.setMem k x).bootActive = s.bootActive := rfl
@[simp] theorem State.setMem_missedTicks (s : State) (k : Nat) (x : EngMem) : (s.setMem k x).missedTicks = s.missedTicks := rfl
@[simp] theorem State.setMem_jtag (s : State) (k : Nat) (x : EngMem) : (s.setMem k x).jtag = s.jtag := rfl
@[simp] theorem State.setMem_vtOut (s : State) (k : Nat) (x : EngMem) : (s.setMem k x).vtOut = s.vtOut := rfl
@[simp] theorem State.setMem_vtIn (s : State) (k : Nat) (x : EngMem) : (s.setMem k x).vtIn = s.vtIn := rfl
@[simp] theorem State.setMem_released (s : State) (k : Nat) (x : EngMem) : (s.setMem k x).released = s.released := rfl
@[simp] theorem State.setMem_getReg (s : State) (k : Nat) (x : EngMem) (a b e : Nat): (s.setMem k x).getReg a b e= s.getReg a b e:= rfl
@[simp] theorem State.setMem_get (s : State) (k : Nat) (x : EngMem) (g : Field) (a : Nat): (s.setMem k x).get g a= s.get g a:= rfl
@[simp] theorem State.setMem_flag (s : State) (k : Nat) (x : EngMem) (g : Field) (a : Nat): (s.setMem k x).flag g a= s.flag g a:= rfl
@[simp] theorem State.setMem_domain (s : State) (k : Nat) (x : EngMem) (a : Nat): (s.setMem k x).domain a= s.domain a:= rfl
@[simp] theorem State.setMem_domainOn (s : State) (k : Nat) (x : EngMem) (a : Nat): (s.setMem k x).domainOn a= s.domainOn a:= rfl
@[simp] theorem State.setMem_domainUp (s : State) (k : Nat) (x : EngMem) (a : Nat): (s.setMem k x).domainUp a= s.domainUp a:= rfl
@[simp] theorem State.setMem_linkUp (s : State) (k : Nat) (x : EngMem) : (s.setMem k x).linkUp = s.linkUp := rfl
@[simp] theorem State.setMem_eng (s : State) (k : Nat) (x : EngMem) (a : Nat): (s.setMem k x).eng a= s.eng a:= rfl
@[simp] theorem State.setMem_ctl (s : State) (k : Nat) (x : EngMem) (a : Nat): (s.setMem k x).ctl a= s.ctl a:= rfl
@[simp] theorem State.setMem_pane (s : State) (k : Nat) (x : EngMem) (a : Nat): (s.setMem k x).pane a= s.pane a:= rfl
@[simp] theorem State.setMem_link (s : State) (k : Nat) (x : EngMem) (a : Nat): (s.setMem k x).link a= s.link a:= rfl
@[simp] theorem State.setMem_port (s : State) (k : Nat) (x : EngMem) (a : Nat): (s.setMem k x).port a= s.port a:= rfl
@[simp] theorem State.setMem_run (s : State) (k : Nat) (x : EngMem) (a : Nat): (s.setMem k x).run a= s.run a:= rfl
@[simp] theorem State.setMem_th (s : State) (k : Nat) (x : EngMem) (a : Nat): (s.setMem k x).th a= s.th a:= rfl
@[simp] theorem State.setMem_stile (s : State) (k : Nat) (x : EngMem) (a : Nat): (s.setMem k x).stile a= s.stile a:= rfl
@[simp] theorem State.setMem_head (s : State) (k : Nat) (x : EngMem) (a : Nat): (s.setMem k x).head a= s.head a:= rfl
@[simp] theorem State.setMem_cam (s : State) (k : Nat) (x : EngMem) (a : Nat): (s.setMem k x).cam a= s.cam a:= rfl
@[simp] theorem State.setMem_ddrCh (s : State) (k : Nat) (x : EngMem) (a : Nat): (s.setMem k x).ddrCh a= s.ddrCh a:= rfl
@[simp] theorem State.setMem_bank (s : State) (k : Nat) (x : EngMem) (a : Nat): (s.setMem k x).bank a= s.bank a:= rfl
@[simp] theorem State.setMem_surf (s : State) (k : Nat) (x : EngMem) (a : Nat): (s.setMem k x).surf a= s.surf a:= rfl
@[simp] theorem State.setMem_side (s : State) (k : Nat) (x : EngMem) (a : Nat): (s.setMem k x).side a= s.side a:= rfl
theorem State.setMem_at (s : State) (k : Nat) (x : EngMem) (j : Nat) : (s.setMem k x).mem j = if j = k then x else s.mem j := tblGet_set _ _ _ _ _
@[simp] theorem State.setMem_same (s : State) (k : Nat) (x : EngMem) : (s.setMem k x).mem k = x := tblGet_set_same _ _ _ _
theorem State.setMem_other (s : State) (k : Nat) (x : EngMem) (j : Nat) (h : j ≠ k) : (s.setMem k x).mem j = s.mem j := tblGet_set_other _ _ _ _ _ h

/-! ### setCtl -/

@[simp] theorem State.setCtl_stiles (s : State) (k : Nat) (x : PaneCtl) : (s.setCtl k x).stiles = s.stiles := rfl
@[simp] theorem State.setCtl_trlh (s : State) (k : Nat) (x : PaneCtl) : (s.setCtl k x).trlh = s.trlh := rfl
@[simp] theorem State.setCtl_ejected (s : State) (k : Nat) (x : PaneCtl) : (s.setCtl k x).ejected = s.ejected := rfl
@[simp] theorem State.setCtl_bridge (s : State) (k : Nat) (x : PaneCtl) : (s.setCtl k x).bridge = s.bridge := rfl
@[simp] theorem State.setCtl_trace (s : State) (k : Nat) (x : PaneCtl) : (s.setCtl k x).trace = s.trace := rfl
@[simp] theorem State.setCtl_nocNow (s : State) (k : Nat) (x : PaneCtl) : (s.setCtl k x).nocNow = s.nocNow := rfl
@[simp] theorem State.setCtl_inbox (s : State) (k : Nat) (x : PaneCtl) : (s.setCtl k x).inbox = s.inbox := rfl
@[simp] theorem State.setCtl_pending (s : State) (k : Nat) (x : PaneCtl) : (s.setCtl k x).pending = s.pending := rfl
@[simp] theorem State.setCtl_answer (s : State) (k : Nat) (x : PaneCtl) : (s.setCtl k x).answer = s.answer := rfl
@[simp] theorem State.setCtl_freeCount (s : State) (k : Nat) (x : PaneCtl) : (s.setCtl k x).freeCount = s.freeCount := rfl
@[simp] theorem State.setCtl_regs (s : State) (k : Nat) (x : PaneCtl) : (s.setCtl k x).regs = s.regs := rfl
@[simp] theorem State.setCtl_shadows (s : State) (k : Nat) (x : PaneCtl) : (s.setCtl k x).shadows = s.shadows := rfl
@[simp] theorem State.setCtl_unlock (s : State) (k : Nat) (x : PaneCtl) : (s.setCtl k x).unlock = s.unlock := rfl
@[simp] theorem State.setCtl_reports (s : State) (k : Nat) (x : PaneCtl) : (s.setCtl k x).reports = s.reports := rfl
@[simp] theorem State.setCtl_tick (s : State) (k : Nat) (x : PaneCtl) : (s.setCtl k x).tick = s.tick := rfl
@[simp] theorem State.setCtl_lintel (s : State) (k : Nat) (x : PaneCtl) : (s.setCtl k x).lintel = s.lintel := rfl
@[simp] theorem State.setCtl_linkLosses (s : State) (k : Nat) (x : PaneCtl) : (s.setCtl k x).linkLosses = s.linkLosses := rfl
@[simp] theorem State.setCtl_bridgeFresh (s : State) (k : Nat) (x : PaneCtl) : (s.setCtl k x).bridgeFresh = s.bridgeFresh := rfl
@[simp] theorem State.setCtl_ddr (s : State) (k : Nat) (x : PaneCtl) : (s.setCtl k x).ddr = s.ddr := rfl
@[simp] theorem State.setCtl_pins (s : State) (k : Nat) (x : PaneCtl) : (s.setCtl k x).pins = s.pins := rfl
@[simp] theorem State.setCtl_agg (s : State) (k : Nat) (x : PaneCtl) : (s.setCtl k x).agg = s.agg := rfl
@[simp] theorem State.setCtl_porter (s : State) (k : Nat) (x : PaneCtl) : (s.setCtl k x).porter = s.porter := rfl
@[simp] theorem State.setCtl_gangs (s : State) (k : Nat) (x : PaneCtl) : (s.setCtl k x).gangs = s.gangs := rfl
@[simp] theorem State.setCtl_doneTasks (s : State) (k : Nat) (x : PaneCtl) : (s.setCtl k x).doneTasks = s.doneTasks := rfl
@[simp] theorem State.setCtl_panes (s : State) (k : Nat) (x : PaneCtl) : (s.setCtl k x).panes = s.panes := rfl
@[simp] theorem State.setCtl_rowPorts (s : State) (k : Nat) (x : PaneCtl) : (s.setCtl k x).rowPorts = s.rowPorts := rfl
@[simp] theorem State.setCtl_macroFlight (s : State) (k : Nat) (x : PaneCtl) : (s.setCtl k x).macroFlight = s.macroFlight := rfl
@[simp] theorem State.setCtl_bistFresh (s : State) (k : Nat) (x : PaneCtl) : (s.setCtl k x).bistFresh = s.bistFresh := rfl
@[simp] theorem State.setCtl_pant (s : State) (k : Nat) (x : PaneCtl) : (s.setCtl k x).pant = s.pant := rfl
@[simp] theorem State.setCtl_marchDue (s : State) (k : Nat) (x : PaneCtl) : (s.setCtl k x).marchDue = s.marchDue := rfl
@[simp] theorem State.setCtl_march (s : State) (k : Nat) (x : PaneCtl) : (s.setCtl k x).march = s.march := rfl
@[simp] theorem State.setCtl_arrayLink (s : State) (k : Nat) (x : PaneCtl) : (s.setCtl k x).arrayLink = s.arrayLink := rfl
@[simp] theorem State.setCtl_engMem (s : State) (k : Nat) (x : PaneCtl) : (s.setCtl k x).engMem = s.engMem := rfl
@[simp] theorem State.setCtl_engines (s : State) (k : Nat) (x : PaneCtl) : (s.setCtl k x).engines = s.engines := rfl
@[simp] theorem State.setCtl_heads (s : State) (k : Nat) (x : PaneCtl) : (s.setCtl k x).heads = s.heads := rfl
@[simp] theorem State.setCtl_glaz (s : State) (k : Nat) (x : PaneCtl) : (s.setCtl k x).glaz = s.glaz := rfl
@[simp] theorem State.setCtl_regionSel (s : State) (k : Nat) (x : PaneCtl) : (s.setCtl k x).regionSel = s.regionSel := rfl
@[simp] theorem State.setCtl_cams (s : State) (k : Nat) (x : PaneCtl) : (s.setCtl k x).cams = s.cams := rfl
@[simp] theorem State.setCtl_surfaces (s : State) (k : Nat) (x : PaneCtl) : (s.setCtl k x).surfaces = s.surfaces := rfl
@[simp] theorem State.setCtl_doorbells (s : State) (k : Nat) (x : PaneCtl) : (s.setCtl k x).doorbells = s.doorbells := rfl
@[simp] theorem State.setCtl_sigt (s : State) (k : Nat) (x : PaneCtl) : (s.setCtl k x).sigt = s.sigt := rfl
@[simp] theorem State.setCtl_gate (s : State) (k : Nat) (x : PaneCtl) : (s.setCtl k x).gate = s.gate := rfl
@[simp] theorem State.setCtl_latch (s : State) (k : Nat) (x : PaneCtl) : (s.setCtl k x).latch = s.latch := rfl
@[simp] theorem State.setCtl_hatchOpen (s : State) (k : Nat) (x : PaneCtl) : (s.setCtl k x).hatchOpen = s.hatchOpen := rfl
@[simp] theorem State.setCtl_flash (s : State) (k : Nat) (x : PaneCtl) : (s.setCtl k x).flash = s.flash := rfl
@[simp] theorem State.setCtl_fabric (s : State) (k : Nat) (x : PaneCtl) : (s.setCtl k x).fabric = s.fabric := rfl
@[simp] theorem State.setCtl_flashJob (s : State) (k : Nat) (x : PaneCtl) : (s.setCtl k x).flashJob = s.flashJob := rfl
@[simp] theorem State.setCtl_serial (s : State) (k : Nat) (x : PaneCtl) : (s.setCtl k x).serial = s.serial := rfl
@[simp] theorem State.setCtl_shutter (s : State) (k : Nat) (x : PaneCtl) : (s.setCtl k x).shutter = s.shutter := rfl
@[simp] theorem State.setCtl_boot (s : State) (k : Nat) (x : PaneCtl) : (s.setCtl k x).boot = s.boot := rfl
@[simp] theorem State.setCtl_bootActive (s : State) (k : Nat) (x : PaneCtl) : (s.setCtl k x).bootActive = s.bootActive := rfl
@[simp] theorem State.setCtl_missedTicks (s : State) (k : Nat) (x : PaneCtl) : (s.setCtl k x).missedTicks = s.missedTicks := rfl
@[simp] theorem State.setCtl_jtag (s : State) (k : Nat) (x : PaneCtl) : (s.setCtl k x).jtag = s.jtag := rfl
@[simp] theorem State.setCtl_vtOut (s : State) (k : Nat) (x : PaneCtl) : (s.setCtl k x).vtOut = s.vtOut := rfl
@[simp] theorem State.setCtl_vtIn (s : State) (k : Nat) (x : PaneCtl) : (s.setCtl k x).vtIn = s.vtIn := rfl
@[simp] theorem State.setCtl_released (s : State) (k : Nat) (x : PaneCtl) : (s.setCtl k x).released = s.released := rfl
@[simp] theorem State.setCtl_getReg (s : State) (k : Nat) (x : PaneCtl) (a b e : Nat): (s.setCtl k x).getReg a b e= s.getReg a b e:= rfl
@[simp] theorem State.setCtl_get (s : State) (k : Nat) (x : PaneCtl) (g : Field) (a : Nat): (s.setCtl k x).get g a= s.get g a:= rfl
@[simp] theorem State.setCtl_flag (s : State) (k : Nat) (x : PaneCtl) (g : Field) (a : Nat): (s.setCtl k x).flag g a= s.flag g a:= rfl
@[simp] theorem State.setCtl_domain (s : State) (k : Nat) (x : PaneCtl) (a : Nat): (s.setCtl k x).domain a= s.domain a:= rfl
@[simp] theorem State.setCtl_domainOn (s : State) (k : Nat) (x : PaneCtl) (a : Nat): (s.setCtl k x).domainOn a= s.domainOn a:= rfl
@[simp] theorem State.setCtl_domainUp (s : State) (k : Nat) (x : PaneCtl) (a : Nat): (s.setCtl k x).domainUp a= s.domainUp a:= rfl
@[simp] theorem State.setCtl_linkUp (s : State) (k : Nat) (x : PaneCtl) : (s.setCtl k x).linkUp = s.linkUp := rfl
@[simp] theorem State.setCtl_eng (s : State) (k : Nat) (x : PaneCtl) (a : Nat): (s.setCtl k x).eng a= s.eng a:= rfl
@[simp] theorem State.setCtl_mem (s : State) (k : Nat) (x : PaneCtl) (a : Nat): (s.setCtl k x).mem a= s.mem a:= rfl
@[simp] theorem State.setCtl_pane (s : State) (k : Nat) (x : PaneCtl) (a : Nat): (s.setCtl k x).pane a= s.pane a:= rfl
@[simp] theorem State.setCtl_link (s : State) (k : Nat) (x : PaneCtl) (a : Nat): (s.setCtl k x).link a= s.link a:= rfl
@[simp] theorem State.setCtl_port (s : State) (k : Nat) (x : PaneCtl) (a : Nat): (s.setCtl k x).port a= s.port a:= rfl
@[simp] theorem State.setCtl_run (s : State) (k : Nat) (x : PaneCtl) (a : Nat): (s.setCtl k x).run a= s.run a:= rfl
@[simp] theorem State.setCtl_th (s : State) (k : Nat) (x : PaneCtl) (a : Nat): (s.setCtl k x).th a= s.th a:= rfl
@[simp] theorem State.setCtl_stile (s : State) (k : Nat) (x : PaneCtl) (a : Nat): (s.setCtl k x).stile a= s.stile a:= rfl
@[simp] theorem State.setCtl_head (s : State) (k : Nat) (x : PaneCtl) (a : Nat): (s.setCtl k x).head a= s.head a:= rfl
@[simp] theorem State.setCtl_cam (s : State) (k : Nat) (x : PaneCtl) (a : Nat): (s.setCtl k x).cam a= s.cam a:= rfl
@[simp] theorem State.setCtl_ddrCh (s : State) (k : Nat) (x : PaneCtl) (a : Nat): (s.setCtl k x).ddrCh a= s.ddrCh a:= rfl
@[simp] theorem State.setCtl_bank (s : State) (k : Nat) (x : PaneCtl) (a : Nat): (s.setCtl k x).bank a= s.bank a:= rfl
@[simp] theorem State.setCtl_surf (s : State) (k : Nat) (x : PaneCtl) (a : Nat): (s.setCtl k x).surf a= s.surf a:= rfl
@[simp] theorem State.setCtl_side (s : State) (k : Nat) (x : PaneCtl) (a : Nat): (s.setCtl k x).side a= s.side a:= rfl
theorem State.setCtl_at (s : State) (k : Nat) (x : PaneCtl) (j : Nat) : (s.setCtl k x).ctl j = if j = k then x else s.ctl j := tblGet_set _ _ _ _ _
@[simp] theorem State.setCtl_same (s : State) (k : Nat) (x : PaneCtl) : (s.setCtl k x).ctl k = x := tblGet_set_same _ _ _ _
theorem State.setCtl_other (s : State) (k : Nat) (x : PaneCtl) (j : Nat) (h : j ≠ k) : (s.setCtl k x).ctl j = s.ctl j := tblGet_set_other _ _ _ _ _ h

/-! ### setPane -/

@[simp] theorem State.setPane_stiles (s : State) (k : Nat) (x : Pane) : (s.setPane k x).stiles = s.stiles := rfl
@[simp] theorem State.setPane_trlh (s : State) (k : Nat) (x : Pane) : (s.setPane k x).trlh = s.trlh := rfl
@[simp] theorem State.setPane_ejected (s : State) (k : Nat) (x : Pane) : (s.setPane k x).ejected = s.ejected := rfl
@[simp] theorem State.setPane_bridge (s : State) (k : Nat) (x : Pane) : (s.setPane k x).bridge = s.bridge := rfl
@[simp] theorem State.setPane_trace (s : State) (k : Nat) (x : Pane) : (s.setPane k x).trace = s.trace := rfl
@[simp] theorem State.setPane_nocNow (s : State) (k : Nat) (x : Pane) : (s.setPane k x).nocNow = s.nocNow := rfl
@[simp] theorem State.setPane_inbox (s : State) (k : Nat) (x : Pane) : (s.setPane k x).inbox = s.inbox := rfl
@[simp] theorem State.setPane_pending (s : State) (k : Nat) (x : Pane) : (s.setPane k x).pending = s.pending := rfl
@[simp] theorem State.setPane_answer (s : State) (k : Nat) (x : Pane) : (s.setPane k x).answer = s.answer := rfl
@[simp] theorem State.setPane_freeCount (s : State) (k : Nat) (x : Pane) : (s.setPane k x).freeCount = s.freeCount := rfl
@[simp] theorem State.setPane_regs (s : State) (k : Nat) (x : Pane) : (s.setPane k x).regs = s.regs := rfl
@[simp] theorem State.setPane_shadows (s : State) (k : Nat) (x : Pane) : (s.setPane k x).shadows = s.shadows := rfl
@[simp] theorem State.setPane_unlock (s : State) (k : Nat) (x : Pane) : (s.setPane k x).unlock = s.unlock := rfl
@[simp] theorem State.setPane_reports (s : State) (k : Nat) (x : Pane) : (s.setPane k x).reports = s.reports := rfl
@[simp] theorem State.setPane_tick (s : State) (k : Nat) (x : Pane) : (s.setPane k x).tick = s.tick := rfl
@[simp] theorem State.setPane_lintel (s : State) (k : Nat) (x : Pane) : (s.setPane k x).lintel = s.lintel := rfl
@[simp] theorem State.setPane_linkLosses (s : State) (k : Nat) (x : Pane) : (s.setPane k x).linkLosses = s.linkLosses := rfl
@[simp] theorem State.setPane_bridgeFresh (s : State) (k : Nat) (x : Pane) : (s.setPane k x).bridgeFresh = s.bridgeFresh := rfl
@[simp] theorem State.setPane_ddr (s : State) (k : Nat) (x : Pane) : (s.setPane k x).ddr = s.ddr := rfl
@[simp] theorem State.setPane_pins (s : State) (k : Nat) (x : Pane) : (s.setPane k x).pins = s.pins := rfl
@[simp] theorem State.setPane_agg (s : State) (k : Nat) (x : Pane) : (s.setPane k x).agg = s.agg := rfl
@[simp] theorem State.setPane_porter (s : State) (k : Nat) (x : Pane) : (s.setPane k x).porter = s.porter := rfl
@[simp] theorem State.setPane_gangs (s : State) (k : Nat) (x : Pane) : (s.setPane k x).gangs = s.gangs := rfl
@[simp] theorem State.setPane_doneTasks (s : State) (k : Nat) (x : Pane) : (s.setPane k x).doneTasks = s.doneTasks := rfl
@[simp] theorem State.setPane_pctl (s : State) (k : Nat) (x : Pane) : (s.setPane k x).pctl = s.pctl := rfl
@[simp] theorem State.setPane_rowPorts (s : State) (k : Nat) (x : Pane) : (s.setPane k x).rowPorts = s.rowPorts := rfl
@[simp] theorem State.setPane_macroFlight (s : State) (k : Nat) (x : Pane) : (s.setPane k x).macroFlight = s.macroFlight := rfl
@[simp] theorem State.setPane_bistFresh (s : State) (k : Nat) (x : Pane) : (s.setPane k x).bistFresh = s.bistFresh := rfl
@[simp] theorem State.setPane_pant (s : State) (k : Nat) (x : Pane) : (s.setPane k x).pant = s.pant := rfl
@[simp] theorem State.setPane_marchDue (s : State) (k : Nat) (x : Pane) : (s.setPane k x).marchDue = s.marchDue := rfl
@[simp] theorem State.setPane_march (s : State) (k : Nat) (x : Pane) : (s.setPane k x).march = s.march := rfl
@[simp] theorem State.setPane_arrayLink (s : State) (k : Nat) (x : Pane) : (s.setPane k x).arrayLink = s.arrayLink := rfl
@[simp] theorem State.setPane_engMem (s : State) (k : Nat) (x : Pane) : (s.setPane k x).engMem = s.engMem := rfl
@[simp] theorem State.setPane_engines (s : State) (k : Nat) (x : Pane) : (s.setPane k x).engines = s.engines := rfl
@[simp] theorem State.setPane_heads (s : State) (k : Nat) (x : Pane) : (s.setPane k x).heads = s.heads := rfl
@[simp] theorem State.setPane_glaz (s : State) (k : Nat) (x : Pane) : (s.setPane k x).glaz = s.glaz := rfl
@[simp] theorem State.setPane_regionSel (s : State) (k : Nat) (x : Pane) : (s.setPane k x).regionSel = s.regionSel := rfl
@[simp] theorem State.setPane_cams (s : State) (k : Nat) (x : Pane) : (s.setPane k x).cams = s.cams := rfl
@[simp] theorem State.setPane_surfaces (s : State) (k : Nat) (x : Pane) : (s.setPane k x).surfaces = s.surfaces := rfl
@[simp] theorem State.setPane_doorbells (s : State) (k : Nat) (x : Pane) : (s.setPane k x).doorbells = s.doorbells := rfl
@[simp] theorem State.setPane_sigt (s : State) (k : Nat) (x : Pane) : (s.setPane k x).sigt = s.sigt := rfl
@[simp] theorem State.setPane_gate (s : State) (k : Nat) (x : Pane) : (s.setPane k x).gate = s.gate := rfl
@[simp] theorem State.setPane_latch (s : State) (k : Nat) (x : Pane) : (s.setPane k x).latch = s.latch := rfl
@[simp] theorem State.setPane_hatchOpen (s : State) (k : Nat) (x : Pane) : (s.setPane k x).hatchOpen = s.hatchOpen := rfl
@[simp] theorem State.setPane_flash (s : State) (k : Nat) (x : Pane) : (s.setPane k x).flash = s.flash := rfl
@[simp] theorem State.setPane_fabric (s : State) (k : Nat) (x : Pane) : (s.setPane k x).fabric = s.fabric := rfl
@[simp] theorem State.setPane_flashJob (s : State) (k : Nat) (x : Pane) : (s.setPane k x).flashJob = s.flashJob := rfl
@[simp] theorem State.setPane_serial (s : State) (k : Nat) (x : Pane) : (s.setPane k x).serial = s.serial := rfl
@[simp] theorem State.setPane_shutter (s : State) (k : Nat) (x : Pane) : (s.setPane k x).shutter = s.shutter := rfl
@[simp] theorem State.setPane_boot (s : State) (k : Nat) (x : Pane) : (s.setPane k x).boot = s.boot := rfl
@[simp] theorem State.setPane_bootActive (s : State) (k : Nat) (x : Pane) : (s.setPane k x).bootActive = s.bootActive := rfl
@[simp] theorem State.setPane_missedTicks (s : State) (k : Nat) (x : Pane) : (s.setPane k x).missedTicks = s.missedTicks := rfl
@[simp] theorem State.setPane_jtag (s : State) (k : Nat) (x : Pane) : (s.setPane k x).jtag = s.jtag := rfl
@[simp] theorem State.setPane_vtOut (s : State) (k : Nat) (x : Pane) : (s.setPane k x).vtOut = s.vtOut := rfl
@[simp] theorem State.setPane_vtIn (s : State) (k : Nat) (x : Pane) : (s.setPane k x).vtIn = s.vtIn := rfl
@[simp] theorem State.setPane_released (s : State) (k : Nat) (x : Pane) : (s.setPane k x).released = s.released := rfl
@[simp] theorem State.setPane_getReg (s : State) (k : Nat) (x : Pane) (a b e : Nat): (s.setPane k x).getReg a b e= s.getReg a b e:= rfl
@[simp] theorem State.setPane_get (s : State) (k : Nat) (x : Pane) (g : Field) (a : Nat): (s.setPane k x).get g a= s.get g a:= rfl
@[simp] theorem State.setPane_flag (s : State) (k : Nat) (x : Pane) (g : Field) (a : Nat): (s.setPane k x).flag g a= s.flag g a:= rfl
@[simp] theorem State.setPane_domain (s : State) (k : Nat) (x : Pane) (a : Nat): (s.setPane k x).domain a= s.domain a:= rfl
@[simp] theorem State.setPane_domainOn (s : State) (k : Nat) (x : Pane) (a : Nat): (s.setPane k x).domainOn a= s.domainOn a:= rfl
@[simp] theorem State.setPane_domainUp (s : State) (k : Nat) (x : Pane) (a : Nat): (s.setPane k x).domainUp a= s.domainUp a:= rfl
@[simp] theorem State.setPane_linkUp (s : State) (k : Nat) (x : Pane) : (s.setPane k x).linkUp = s.linkUp := rfl
@[simp] theorem State.setPane_eng (s : State) (k : Nat) (x : Pane) (a : Nat): (s.setPane k x).eng a= s.eng a:= rfl
@[simp] theorem State.setPane_mem (s : State) (k : Nat) (x : Pane) (a : Nat): (s.setPane k x).mem a= s.mem a:= rfl
@[simp] theorem State.setPane_ctl (s : State) (k : Nat) (x : Pane) (a : Nat): (s.setPane k x).ctl a= s.ctl a:= rfl
@[simp] theorem State.setPane_link (s : State) (k : Nat) (x : Pane) (a : Nat): (s.setPane k x).link a= s.link a:= rfl
@[simp] theorem State.setPane_port (s : State) (k : Nat) (x : Pane) (a : Nat): (s.setPane k x).port a= s.port a:= rfl
@[simp] theorem State.setPane_run (s : State) (k : Nat) (x : Pane) (a : Nat): (s.setPane k x).run a= s.run a:= rfl
@[simp] theorem State.setPane_th (s : State) (k : Nat) (x : Pane) (a : Nat): (s.setPane k x).th a= s.th a:= rfl
@[simp] theorem State.setPane_stile (s : State) (k : Nat) (x : Pane) (a : Nat): (s.setPane k x).stile a= s.stile a:= rfl
@[simp] theorem State.setPane_head (s : State) (k : Nat) (x : Pane) (a : Nat): (s.setPane k x).head a= s.head a:= rfl
@[simp] theorem State.setPane_cam (s : State) (k : Nat) (x : Pane) (a : Nat): (s.setPane k x).cam a= s.cam a:= rfl
@[simp] theorem State.setPane_ddrCh (s : State) (k : Nat) (x : Pane) (a : Nat): (s.setPane k x).ddrCh a= s.ddrCh a:= rfl
@[simp] theorem State.setPane_bank (s : State) (k : Nat) (x : Pane) (a : Nat): (s.setPane k x).bank a= s.bank a:= rfl
@[simp] theorem State.setPane_surf (s : State) (k : Nat) (x : Pane) (a : Nat): (s.setPane k x).surf a= s.surf a:= rfl
@[simp] theorem State.setPane_side (s : State) (k : Nat) (x : Pane) (a : Nat): (s.setPane k x).side a= s.side a:= rfl
theorem State.setPane_at (s : State) (k : Nat) (x : Pane) (j : Nat) : (s.setPane k x).pane j = if j = k then x else s.pane j := tblGet_set _ _ _ _ _
@[simp] theorem State.setPane_same (s : State) (k : Nat) (x : Pane) : (s.setPane k x).pane k = x := tblGet_set_same _ _ _ _
theorem State.setPane_other (s : State) (k : Nat) (x : Pane) (j : Nat) (h : j ≠ k) : (s.setPane k x).pane j = s.pane j := tblGet_set_other _ _ _ _ _ h

/-! ### setTh -/

@[simp] theorem State.setTh_stiles (s : State) (k : Nat) (x : Trailhead) : (s.setTh k x).stiles = s.stiles := rfl
@[simp] theorem State.setTh_ejected (s : State) (k : Nat) (x : Trailhead) : (s.setTh k x).ejected = s.ejected := rfl
@[simp] theorem State.setTh_bridge (s : State) (k : Nat) (x : Trailhead) : (s.setTh k x).bridge = s.bridge := rfl
@[simp] theorem State.setTh_trace (s : State) (k : Nat) (x : Trailhead) : (s.setTh k x).trace = s.trace := rfl
@[simp] theorem State.setTh_nocNow (s : State) (k : Nat) (x : Trailhead) : (s.setTh k x).nocNow = s.nocNow := rfl
@[simp] theorem State.setTh_inbox (s : State) (k : Nat) (x : Trailhead) : (s.setTh k x).inbox = s.inbox := rfl
@[simp] theorem State.setTh_pending (s : State) (k : Nat) (x : Trailhead) : (s.setTh k x).pending = s.pending := rfl
@[simp] theorem State.setTh_answer (s : State) (k : Nat) (x : Trailhead) : (s.setTh k x).answer = s.answer := rfl
@[simp] theorem State.setTh_freeCount (s : State) (k : Nat) (x : Trailhead) : (s.setTh k x).freeCount = s.freeCount := rfl
@[simp] theorem State.setTh_regs (s : State) (k : Nat) (x : Trailhead) : (s.setTh k x).regs = s.regs := rfl
@[simp] theorem State.setTh_shadows (s : State) (k : Nat) (x : Trailhead) : (s.setTh k x).shadows = s.shadows := rfl
@[simp] theorem State.setTh_unlock (s : State) (k : Nat) (x : Trailhead) : (s.setTh k x).unlock = s.unlock := rfl
@[simp] theorem State.setTh_reports (s : State) (k : Nat) (x : Trailhead) : (s.setTh k x).reports = s.reports := rfl
@[simp] theorem State.setTh_tick (s : State) (k : Nat) (x : Trailhead) : (s.setTh k x).tick = s.tick := rfl
@[simp] theorem State.setTh_lintel (s : State) (k : Nat) (x : Trailhead) : (s.setTh k x).lintel = s.lintel := rfl
@[simp] theorem State.setTh_linkLosses (s : State) (k : Nat) (x : Trailhead) : (s.setTh k x).linkLosses = s.linkLosses := rfl
@[simp] theorem State.setTh_bridgeFresh (s : State) (k : Nat) (x : Trailhead) : (s.setTh k x).bridgeFresh = s.bridgeFresh := rfl
@[simp] theorem State.setTh_ddr (s : State) (k : Nat) (x : Trailhead) : (s.setTh k x).ddr = s.ddr := rfl
@[simp] theorem State.setTh_pins (s : State) (k : Nat) (x : Trailhead) : (s.setTh k x).pins = s.pins := rfl
@[simp] theorem State.setTh_agg (s : State) (k : Nat) (x : Trailhead) : (s.setTh k x).agg = s.agg := rfl
@[simp] theorem State.setTh_porter (s : State) (k : Nat) (x : Trailhead) : (s.setTh k x).porter = s.porter := rfl
@[simp] theorem State.setTh_gangs (s : State) (k : Nat) (x : Trailhead) : (s.setTh k x).gangs = s.gangs := rfl
@[simp] theorem State.setTh_doneTasks (s : State) (k : Nat) (x : Trailhead) : (s.setTh k x).doneTasks = s.doneTasks := rfl
@[simp] theorem State.setTh_panes (s : State) (k : Nat) (x : Trailhead) : (s.setTh k x).panes = s.panes := rfl
@[simp] theorem State.setTh_pctl (s : State) (k : Nat) (x : Trailhead) : (s.setTh k x).pctl = s.pctl := rfl
@[simp] theorem State.setTh_rowPorts (s : State) (k : Nat) (x : Trailhead) : (s.setTh k x).rowPorts = s.rowPorts := rfl
@[simp] theorem State.setTh_macroFlight (s : State) (k : Nat) (x : Trailhead) : (s.setTh k x).macroFlight = s.macroFlight := rfl
@[simp] theorem State.setTh_bistFresh (s : State) (k : Nat) (x : Trailhead) : (s.setTh k x).bistFresh = s.bistFresh := rfl
@[simp] theorem State.setTh_pant (s : State) (k : Nat) (x : Trailhead) : (s.setTh k x).pant = s.pant := rfl
@[simp] theorem State.setTh_marchDue (s : State) (k : Nat) (x : Trailhead) : (s.setTh k x).marchDue = s.marchDue := rfl
@[simp] theorem State.setTh_march (s : State) (k : Nat) (x : Trailhead) : (s.setTh k x).march = s.march := rfl
@[simp] theorem State.setTh_arrayLink (s : State) (k : Nat) (x : Trailhead) : (s.setTh k x).arrayLink = s.arrayLink := rfl
@[simp] theorem State.setTh_engMem (s : State) (k : Nat) (x : Trailhead) : (s.setTh k x).engMem = s.engMem := rfl
@[simp] theorem State.setTh_engines (s : State) (k : Nat) (x : Trailhead) : (s.setTh k x).engines = s.engines := rfl
@[simp] theorem State.setTh_heads (s : State) (k : Nat) (x : Trailhead) : (s.setTh k x).heads = s.heads := rfl
@[simp] theorem State.setTh_glaz (s : State) (k : Nat) (x : Trailhead) : (s.setTh k x).glaz = s.glaz := rfl
@[simp] theorem State.setTh_regionSel (s : State) (k : Nat) (x : Trailhead) : (s.setTh k x).regionSel = s.regionSel := rfl
@[simp] theorem State.setTh_cams (s : State) (k : Nat) (x : Trailhead) : (s.setTh k x).cams = s.cams := rfl
@[simp] theorem State.setTh_surfaces (s : State) (k : Nat) (x : Trailhead) : (s.setTh k x).surfaces = s.surfaces := rfl
@[simp] theorem State.setTh_doorbells (s : State) (k : Nat) (x : Trailhead) : (s.setTh k x).doorbells = s.doorbells := rfl
@[simp] theorem State.setTh_sigt (s : State) (k : Nat) (x : Trailhead) : (s.setTh k x).sigt = s.sigt := rfl
@[simp] theorem State.setTh_gate (s : State) (k : Nat) (x : Trailhead) : (s.setTh k x).gate = s.gate := rfl
@[simp] theorem State.setTh_latch (s : State) (k : Nat) (x : Trailhead) : (s.setTh k x).latch = s.latch := rfl
@[simp] theorem State.setTh_hatchOpen (s : State) (k : Nat) (x : Trailhead) : (s.setTh k x).hatchOpen = s.hatchOpen := rfl
@[simp] theorem State.setTh_flash (s : State) (k : Nat) (x : Trailhead) : (s.setTh k x).flash = s.flash := rfl
@[simp] theorem State.setTh_fabric (s : State) (k : Nat) (x : Trailhead) : (s.setTh k x).fabric = s.fabric := rfl
@[simp] theorem State.setTh_flashJob (s : State) (k : Nat) (x : Trailhead) : (s.setTh k x).flashJob = s.flashJob := rfl
@[simp] theorem State.setTh_serial (s : State) (k : Nat) (x : Trailhead) : (s.setTh k x).serial = s.serial := rfl
@[simp] theorem State.setTh_shutter (s : State) (k : Nat) (x : Trailhead) : (s.setTh k x).shutter = s.shutter := rfl
@[simp] theorem State.setTh_boot (s : State) (k : Nat) (x : Trailhead) : (s.setTh k x).boot = s.boot := rfl
@[simp] theorem State.setTh_bootActive (s : State) (k : Nat) (x : Trailhead) : (s.setTh k x).bootActive = s.bootActive := rfl
@[simp] theorem State.setTh_missedTicks (s : State) (k : Nat) (x : Trailhead) : (s.setTh k x).missedTicks = s.missedTicks := rfl
@[simp] theorem State.setTh_jtag (s : State) (k : Nat) (x : Trailhead) : (s.setTh k x).jtag = s.jtag := rfl
@[simp] theorem State.setTh_vtOut (s : State) (k : Nat) (x : Trailhead) : (s.setTh k x).vtOut = s.vtOut := rfl
@[simp] theorem State.setTh_vtIn (s : State) (k : Nat) (x : Trailhead) : (s.setTh k x).vtIn = s.vtIn := rfl
@[simp] theorem State.setTh_released (s : State) (k : Nat) (x : Trailhead) : (s.setTh k x).released = s.released := rfl
@[simp] theorem State.setTh_getReg (s : State) (k : Nat) (x : Trailhead) (a b e : Nat): (s.setTh k x).getReg a b e= s.getReg a b e:= rfl
@[simp] theorem State.setTh_get (s : State) (k : Nat) (x : Trailhead) (g : Field) (a : Nat): (s.setTh k x).get g a= s.get g a:= rfl
@[simp] theorem State.setTh_flag (s : State) (k : Nat) (x : Trailhead) (g : Field) (a : Nat): (s.setTh k x).flag g a= s.flag g a:= rfl
@[simp] theorem State.setTh_domain (s : State) (k : Nat) (x : Trailhead) (a : Nat): (s.setTh k x).domain a= s.domain a:= rfl
@[simp] theorem State.setTh_domainOn (s : State) (k : Nat) (x : Trailhead) (a : Nat): (s.setTh k x).domainOn a= s.domainOn a:= rfl
@[simp] theorem State.setTh_domainUp (s : State) (k : Nat) (x : Trailhead) (a : Nat): (s.setTh k x).domainUp a= s.domainUp a:= rfl
@[simp] theorem State.setTh_linkUp (s : State) (k : Nat) (x : Trailhead) : (s.setTh k x).linkUp = s.linkUp := rfl
@[simp] theorem State.setTh_eng (s : State) (k : Nat) (x : Trailhead) (a : Nat): (s.setTh k x).eng a= s.eng a:= rfl
@[simp] theorem State.setTh_mem (s : State) (k : Nat) (x : Trailhead) (a : Nat): (s.setTh k x).mem a= s.mem a:= rfl
@[simp] theorem State.setTh_ctl (s : State) (k : Nat) (x : Trailhead) (a : Nat): (s.setTh k x).ctl a= s.ctl a:= rfl
@[simp] theorem State.setTh_pane (s : State) (k : Nat) (x : Trailhead) (a : Nat): (s.setTh k x).pane a= s.pane a:= rfl
@[simp] theorem State.setTh_link (s : State) (k : Nat) (x : Trailhead) (a : Nat): (s.setTh k x).link a= s.link a:= rfl
@[simp] theorem State.setTh_port (s : State) (k : Nat) (x : Trailhead) (a : Nat): (s.setTh k x).port a= s.port a:= rfl
@[simp] theorem State.setTh_run (s : State) (k : Nat) (x : Trailhead) (a : Nat): (s.setTh k x).run a= s.run a:= rfl
@[simp] theorem State.setTh_stile (s : State) (k : Nat) (x : Trailhead) (a : Nat): (s.setTh k x).stile a= s.stile a:= rfl
@[simp] theorem State.setTh_head (s : State) (k : Nat) (x : Trailhead) (a : Nat): (s.setTh k x).head a= s.head a:= rfl
@[simp] theorem State.setTh_cam (s : State) (k : Nat) (x : Trailhead) (a : Nat): (s.setTh k x).cam a= s.cam a:= rfl
@[simp] theorem State.setTh_ddrCh (s : State) (k : Nat) (x : Trailhead) (a : Nat): (s.setTh k x).ddrCh a= s.ddrCh a:= rfl
@[simp] theorem State.setTh_bank (s : State) (k : Nat) (x : Trailhead) (a : Nat): (s.setTh k x).bank a= s.bank a:= rfl
@[simp] theorem State.setTh_surf (s : State) (k : Nat) (x : Trailhead) (a : Nat): (s.setTh k x).surf a= s.surf a:= rfl
@[simp] theorem State.setTh_side (s : State) (k : Nat) (x : Trailhead) (a : Nat): (s.setTh k x).side a= s.side a:= rfl
theorem State.setTh_at (s : State) (k : Nat) (x : Trailhead) (j : Nat) : (s.setTh k x).th j = if j = k then x else s.th j := tblGet_set _ _ _ _ _
@[simp] theorem State.setTh_same (s : State) (k : Nat) (x : Trailhead) : (s.setTh k x).th k = x := tblGet_set_same _ _ _ _
theorem State.setTh_other (s : State) (k : Nat) (x : Trailhead) (j : Nat) (h : j ≠ k) : (s.setTh k x).th j = s.th j := tblGet_set_other _ _ _ _ _ h

/-! ### setStile -/

@[simp] theorem State.setStile_trlh (s : State) (k : Nat) (x : Stile) : (s.setStile k x).trlh = s.trlh := rfl
@[simp] theorem State.setStile_ejected (s : State) (k : Nat) (x : Stile) : (s.setStile k x).ejected = s.ejected := rfl
@[simp] theorem State.setStile_bridge (s : State) (k : Nat) (x : Stile) : (s.setStile k x).bridge = s.bridge := rfl
@[simp] theorem State.setStile_trace (s : State) (k : Nat) (x : Stile) : (s.setStile k x).trace = s.trace := rfl
@[simp] theorem State.setStile_nocNow (s : State) (k : Nat) (x : Stile) : (s.setStile k x).nocNow = s.nocNow := rfl
@[simp] theorem State.setStile_inbox (s : State) (k : Nat) (x : Stile) : (s.setStile k x).inbox = s.inbox := rfl
@[simp] theorem State.setStile_pending (s : State) (k : Nat) (x : Stile) : (s.setStile k x).pending = s.pending := rfl
@[simp] theorem State.setStile_answer (s : State) (k : Nat) (x : Stile) : (s.setStile k x).answer = s.answer := rfl
@[simp] theorem State.setStile_freeCount (s : State) (k : Nat) (x : Stile) : (s.setStile k x).freeCount = s.freeCount := rfl
@[simp] theorem State.setStile_regs (s : State) (k : Nat) (x : Stile) : (s.setStile k x).regs = s.regs := rfl
@[simp] theorem State.setStile_shadows (s : State) (k : Nat) (x : Stile) : (s.setStile k x).shadows = s.shadows := rfl
@[simp] theorem State.setStile_unlock (s : State) (k : Nat) (x : Stile) : (s.setStile k x).unlock = s.unlock := rfl
@[simp] theorem State.setStile_reports (s : State) (k : Nat) (x : Stile) : (s.setStile k x).reports = s.reports := rfl
@[simp] theorem State.setStile_tick (s : State) (k : Nat) (x : Stile) : (s.setStile k x).tick = s.tick := rfl
@[simp] theorem State.setStile_lintel (s : State) (k : Nat) (x : Stile) : (s.setStile k x).lintel = s.lintel := rfl
@[simp] theorem State.setStile_linkLosses (s : State) (k : Nat) (x : Stile) : (s.setStile k x).linkLosses = s.linkLosses := rfl
@[simp] theorem State.setStile_bridgeFresh (s : State) (k : Nat) (x : Stile) : (s.setStile k x).bridgeFresh = s.bridgeFresh := rfl
@[simp] theorem State.setStile_ddr (s : State) (k : Nat) (x : Stile) : (s.setStile k x).ddr = s.ddr := rfl
@[simp] theorem State.setStile_pins (s : State) (k : Nat) (x : Stile) : (s.setStile k x).pins = s.pins := rfl
@[simp] theorem State.setStile_agg (s : State) (k : Nat) (x : Stile) : (s.setStile k x).agg = s.agg := rfl
@[simp] theorem State.setStile_porter (s : State) (k : Nat) (x : Stile) : (s.setStile k x).porter = s.porter := rfl
@[simp] theorem State.setStile_gangs (s : State) (k : Nat) (x : Stile) : (s.setStile k x).gangs = s.gangs := rfl
@[simp] theorem State.setStile_doneTasks (s : State) (k : Nat) (x : Stile) : (s.setStile k x).doneTasks = s.doneTasks := rfl
@[simp] theorem State.setStile_panes (s : State) (k : Nat) (x : Stile) : (s.setStile k x).panes = s.panes := rfl
@[simp] theorem State.setStile_pctl (s : State) (k : Nat) (x : Stile) : (s.setStile k x).pctl = s.pctl := rfl
@[simp] theorem State.setStile_rowPorts (s : State) (k : Nat) (x : Stile) : (s.setStile k x).rowPorts = s.rowPorts := rfl
@[simp] theorem State.setStile_macroFlight (s : State) (k : Nat) (x : Stile) : (s.setStile k x).macroFlight = s.macroFlight := rfl
@[simp] theorem State.setStile_bistFresh (s : State) (k : Nat) (x : Stile) : (s.setStile k x).bistFresh = s.bistFresh := rfl
@[simp] theorem State.setStile_pant (s : State) (k : Nat) (x : Stile) : (s.setStile k x).pant = s.pant := rfl
@[simp] theorem State.setStile_marchDue (s : State) (k : Nat) (x : Stile) : (s.setStile k x).marchDue = s.marchDue := rfl
@[simp] theorem State.setStile_march (s : State) (k : Nat) (x : Stile) : (s.setStile k x).march = s.march := rfl
@[simp] theorem State.setStile_arrayLink (s : State) (k : Nat) (x : Stile) : (s.setStile k x).arrayLink = s.arrayLink := rfl
@[simp] theorem State.setStile_engMem (s : State) (k : Nat) (x : Stile) : (s.setStile k x).engMem = s.engMem := rfl
@[simp] theorem State.setStile_engines (s : State) (k : Nat) (x : Stile) : (s.setStile k x).engines = s.engines := rfl
@[simp] theorem State.setStile_heads (s : State) (k : Nat) (x : Stile) : (s.setStile k x).heads = s.heads := rfl
@[simp] theorem State.setStile_glaz (s : State) (k : Nat) (x : Stile) : (s.setStile k x).glaz = s.glaz := rfl
@[simp] theorem State.setStile_regionSel (s : State) (k : Nat) (x : Stile) : (s.setStile k x).regionSel = s.regionSel := rfl
@[simp] theorem State.setStile_cams (s : State) (k : Nat) (x : Stile) : (s.setStile k x).cams = s.cams := rfl
@[simp] theorem State.setStile_surfaces (s : State) (k : Nat) (x : Stile) : (s.setStile k x).surfaces = s.surfaces := rfl
@[simp] theorem State.setStile_doorbells (s : State) (k : Nat) (x : Stile) : (s.setStile k x).doorbells = s.doorbells := rfl
@[simp] theorem State.setStile_sigt (s : State) (k : Nat) (x : Stile) : (s.setStile k x).sigt = s.sigt := rfl
@[simp] theorem State.setStile_gate (s : State) (k : Nat) (x : Stile) : (s.setStile k x).gate = s.gate := rfl
@[simp] theorem State.setStile_latch (s : State) (k : Nat) (x : Stile) : (s.setStile k x).latch = s.latch := rfl
@[simp] theorem State.setStile_hatchOpen (s : State) (k : Nat) (x : Stile) : (s.setStile k x).hatchOpen = s.hatchOpen := rfl
@[simp] theorem State.setStile_flash (s : State) (k : Nat) (x : Stile) : (s.setStile k x).flash = s.flash := rfl
@[simp] theorem State.setStile_fabric (s : State) (k : Nat) (x : Stile) : (s.setStile k x).fabric = s.fabric := rfl
@[simp] theorem State.setStile_flashJob (s : State) (k : Nat) (x : Stile) : (s.setStile k x).flashJob = s.flashJob := rfl
@[simp] theorem State.setStile_serial (s : State) (k : Nat) (x : Stile) : (s.setStile k x).serial = s.serial := rfl
@[simp] theorem State.setStile_shutter (s : State) (k : Nat) (x : Stile) : (s.setStile k x).shutter = s.shutter := rfl
@[simp] theorem State.setStile_boot (s : State) (k : Nat) (x : Stile) : (s.setStile k x).boot = s.boot := rfl
@[simp] theorem State.setStile_bootActive (s : State) (k : Nat) (x : Stile) : (s.setStile k x).bootActive = s.bootActive := rfl
@[simp] theorem State.setStile_missedTicks (s : State) (k : Nat) (x : Stile) : (s.setStile k x).missedTicks = s.missedTicks := rfl
@[simp] theorem State.setStile_jtag (s : State) (k : Nat) (x : Stile) : (s.setStile k x).jtag = s.jtag := rfl
@[simp] theorem State.setStile_vtOut (s : State) (k : Nat) (x : Stile) : (s.setStile k x).vtOut = s.vtOut := rfl
@[simp] theorem State.setStile_vtIn (s : State) (k : Nat) (x : Stile) : (s.setStile k x).vtIn = s.vtIn := rfl
@[simp] theorem State.setStile_released (s : State) (k : Nat) (x : Stile) : (s.setStile k x).released = s.released := rfl
@[simp] theorem State.setStile_getReg (s : State) (k : Nat) (x : Stile) (a b e : Nat): (s.setStile k x).getReg a b e= s.getReg a b e:= rfl
@[simp] theorem State.setStile_get (s : State) (k : Nat) (x : Stile) (g : Field) (a : Nat): (s.setStile k x).get g a= s.get g a:= rfl
@[simp] theorem State.setStile_flag (s : State) (k : Nat) (x : Stile) (g : Field) (a : Nat): (s.setStile k x).flag g a= s.flag g a:= rfl
@[simp] theorem State.setStile_domain (s : State) (k : Nat) (x : Stile) (a : Nat): (s.setStile k x).domain a= s.domain a:= rfl
@[simp] theorem State.setStile_domainOn (s : State) (k : Nat) (x : Stile) (a : Nat): (s.setStile k x).domainOn a= s.domainOn a:= rfl
@[simp] theorem State.setStile_domainUp (s : State) (k : Nat) (x : Stile) (a : Nat): (s.setStile k x).domainUp a= s.domainUp a:= rfl
@[simp] theorem State.setStile_linkUp (s : State) (k : Nat) (x : Stile) : (s.setStile k x).linkUp = s.linkUp := rfl
@[simp] theorem State.setStile_eng (s : State) (k : Nat) (x : Stile) (a : Nat): (s.setStile k x).eng a= s.eng a:= rfl
@[simp] theorem State.setStile_mem (s : State) (k : Nat) (x : Stile) (a : Nat): (s.setStile k x).mem a= s.mem a:= rfl
@[simp] theorem State.setStile_ctl (s : State) (k : Nat) (x : Stile) (a : Nat): (s.setStile k x).ctl a= s.ctl a:= rfl
@[simp] theorem State.setStile_pane (s : State) (k : Nat) (x : Stile) (a : Nat): (s.setStile k x).pane a= s.pane a:= rfl
@[simp] theorem State.setStile_link (s : State) (k : Nat) (x : Stile) (a : Nat): (s.setStile k x).link a= s.link a:= rfl
@[simp] theorem State.setStile_port (s : State) (k : Nat) (x : Stile) (a : Nat): (s.setStile k x).port a= s.port a:= rfl
@[simp] theorem State.setStile_run (s : State) (k : Nat) (x : Stile) (a : Nat): (s.setStile k x).run a= s.run a:= rfl
@[simp] theorem State.setStile_th (s : State) (k : Nat) (x : Stile) (a : Nat): (s.setStile k x).th a= s.th a:= rfl
@[simp] theorem State.setStile_head (s : State) (k : Nat) (x : Stile) (a : Nat): (s.setStile k x).head a= s.head a:= rfl
@[simp] theorem State.setStile_cam (s : State) (k : Nat) (x : Stile) (a : Nat): (s.setStile k x).cam a= s.cam a:= rfl
@[simp] theorem State.setStile_ddrCh (s : State) (k : Nat) (x : Stile) (a : Nat): (s.setStile k x).ddrCh a= s.ddrCh a:= rfl
@[simp] theorem State.setStile_bank (s : State) (k : Nat) (x : Stile) (a : Nat): (s.setStile k x).bank a= s.bank a:= rfl
@[simp] theorem State.setStile_surf (s : State) (k : Nat) (x : Stile) (a : Nat): (s.setStile k x).surf a= s.surf a:= rfl
@[simp] theorem State.setStile_side (s : State) (k : Nat) (x : Stile) (a : Nat): (s.setStile k x).side a= s.side a:= rfl
theorem State.setStile_at (s : State) (k : Nat) (x : Stile) (j : Nat) : (s.setStile k x).stile j = if j = k then x else s.stile j := tblGet_set _ _ _ _ _
@[simp] theorem State.setStile_same (s : State) (k : Nat) (x : Stile) : (s.setStile k x).stile k = x := tblGet_set_same _ _ _ _
theorem State.setStile_other (s : State) (k : Nat) (x : Stile) (j : Nat) (h : j ≠ k) : (s.setStile k x).stile j = s.stile j := tblGet_set_other _ _ _ _ _ h

/-! ### setHead -/

@[simp] theorem State.setHead_stiles (s : State) (k : Nat) (x : Head) : (s.setHead k x).stiles = s.stiles := rfl
@[simp] theorem State.setHead_trlh (s : State) (k : Nat) (x : Head) : (s.setHead k x).trlh = s.trlh := rfl
@[simp] theorem State.setHead_ejected (s : State) (k : Nat) (x : Head) : (s.setHead k x).ejected = s.ejected := rfl
@[simp] theorem State.setHead_bridge (s : State) (k : Nat) (x : Head) : (s.setHead k x).bridge = s.bridge := rfl
@[simp] theorem State.setHead_trace (s : State) (k : Nat) (x : Head) : (s.setHead k x).trace = s.trace := rfl
@[simp] theorem State.setHead_nocNow (s : State) (k : Nat) (x : Head) : (s.setHead k x).nocNow = s.nocNow := rfl
@[simp] theorem State.setHead_inbox (s : State) (k : Nat) (x : Head) : (s.setHead k x).inbox = s.inbox := rfl
@[simp] theorem State.setHead_pending (s : State) (k : Nat) (x : Head) : (s.setHead k x).pending = s.pending := rfl
@[simp] theorem State.setHead_answer (s : State) (k : Nat) (x : Head) : (s.setHead k x).answer = s.answer := rfl
@[simp] theorem State.setHead_freeCount (s : State) (k : Nat) (x : Head) : (s.setHead k x).freeCount = s.freeCount := rfl
@[simp] theorem State.setHead_regs (s : State) (k : Nat) (x : Head) : (s.setHead k x).regs = s.regs := rfl
@[simp] theorem State.setHead_shadows (s : State) (k : Nat) (x : Head) : (s.setHead k x).shadows = s.shadows := rfl
@[simp] theorem State.setHead_unlock (s : State) (k : Nat) (x : Head) : (s.setHead k x).unlock = s.unlock := rfl
@[simp] theorem State.setHead_reports (s : State) (k : Nat) (x : Head) : (s.setHead k x).reports = s.reports := rfl
@[simp] theorem State.setHead_tick (s : State) (k : Nat) (x : Head) : (s.setHead k x).tick = s.tick := rfl
@[simp] theorem State.setHead_lintel (s : State) (k : Nat) (x : Head) : (s.setHead k x).lintel = s.lintel := rfl
@[simp] theorem State.setHead_linkLosses (s : State) (k : Nat) (x : Head) : (s.setHead k x).linkLosses = s.linkLosses := rfl
@[simp] theorem State.setHead_bridgeFresh (s : State) (k : Nat) (x : Head) : (s.setHead k x).bridgeFresh = s.bridgeFresh := rfl
@[simp] theorem State.setHead_ddr (s : State) (k : Nat) (x : Head) : (s.setHead k x).ddr = s.ddr := rfl
@[simp] theorem State.setHead_pins (s : State) (k : Nat) (x : Head) : (s.setHead k x).pins = s.pins := rfl
@[simp] theorem State.setHead_agg (s : State) (k : Nat) (x : Head) : (s.setHead k x).agg = s.agg := rfl
@[simp] theorem State.setHead_porter (s : State) (k : Nat) (x : Head) : (s.setHead k x).porter = s.porter := rfl
@[simp] theorem State.setHead_gangs (s : State) (k : Nat) (x : Head) : (s.setHead k x).gangs = s.gangs := rfl
@[simp] theorem State.setHead_doneTasks (s : State) (k : Nat) (x : Head) : (s.setHead k x).doneTasks = s.doneTasks := rfl
@[simp] theorem State.setHead_panes (s : State) (k : Nat) (x : Head) : (s.setHead k x).panes = s.panes := rfl
@[simp] theorem State.setHead_pctl (s : State) (k : Nat) (x : Head) : (s.setHead k x).pctl = s.pctl := rfl
@[simp] theorem State.setHead_rowPorts (s : State) (k : Nat) (x : Head) : (s.setHead k x).rowPorts = s.rowPorts := rfl
@[simp] theorem State.setHead_macroFlight (s : State) (k : Nat) (x : Head) : (s.setHead k x).macroFlight = s.macroFlight := rfl
@[simp] theorem State.setHead_bistFresh (s : State) (k : Nat) (x : Head) : (s.setHead k x).bistFresh = s.bistFresh := rfl
@[simp] theorem State.setHead_pant (s : State) (k : Nat) (x : Head) : (s.setHead k x).pant = s.pant := rfl
@[simp] theorem State.setHead_marchDue (s : State) (k : Nat) (x : Head) : (s.setHead k x).marchDue = s.marchDue := rfl
@[simp] theorem State.setHead_march (s : State) (k : Nat) (x : Head) : (s.setHead k x).march = s.march := rfl
@[simp] theorem State.setHead_arrayLink (s : State) (k : Nat) (x : Head) : (s.setHead k x).arrayLink = s.arrayLink := rfl
@[simp] theorem State.setHead_engMem (s : State) (k : Nat) (x : Head) : (s.setHead k x).engMem = s.engMem := rfl
@[simp] theorem State.setHead_engines (s : State) (k : Nat) (x : Head) : (s.setHead k x).engines = s.engines := rfl
@[simp] theorem State.setHead_glaz (s : State) (k : Nat) (x : Head) : (s.setHead k x).glaz = s.glaz := rfl
@[simp] theorem State.setHead_regionSel (s : State) (k : Nat) (x : Head) : (s.setHead k x).regionSel = s.regionSel := rfl
@[simp] theorem State.setHead_cams (s : State) (k : Nat) (x : Head) : (s.setHead k x).cams = s.cams := rfl
@[simp] theorem State.setHead_surfaces (s : State) (k : Nat) (x : Head) : (s.setHead k x).surfaces = s.surfaces := rfl
@[simp] theorem State.setHead_doorbells (s : State) (k : Nat) (x : Head) : (s.setHead k x).doorbells = s.doorbells := rfl
@[simp] theorem State.setHead_sigt (s : State) (k : Nat) (x : Head) : (s.setHead k x).sigt = s.sigt := rfl
@[simp] theorem State.setHead_gate (s : State) (k : Nat) (x : Head) : (s.setHead k x).gate = s.gate := rfl
@[simp] theorem State.setHead_latch (s : State) (k : Nat) (x : Head) : (s.setHead k x).latch = s.latch := rfl
@[simp] theorem State.setHead_hatchOpen (s : State) (k : Nat) (x : Head) : (s.setHead k x).hatchOpen = s.hatchOpen := rfl
@[simp] theorem State.setHead_flash (s : State) (k : Nat) (x : Head) : (s.setHead k x).flash = s.flash := rfl
@[simp] theorem State.setHead_fabric (s : State) (k : Nat) (x : Head) : (s.setHead k x).fabric = s.fabric := rfl
@[simp] theorem State.setHead_flashJob (s : State) (k : Nat) (x : Head) : (s.setHead k x).flashJob = s.flashJob := rfl
@[simp] theorem State.setHead_serial (s : State) (k : Nat) (x : Head) : (s.setHead k x).serial = s.serial := rfl
@[simp] theorem State.setHead_shutter (s : State) (k : Nat) (x : Head) : (s.setHead k x).shutter = s.shutter := rfl
@[simp] theorem State.setHead_boot (s : State) (k : Nat) (x : Head) : (s.setHead k x).boot = s.boot := rfl
@[simp] theorem State.setHead_bootActive (s : State) (k : Nat) (x : Head) : (s.setHead k x).bootActive = s.bootActive := rfl
@[simp] theorem State.setHead_missedTicks (s : State) (k : Nat) (x : Head) : (s.setHead k x).missedTicks = s.missedTicks := rfl
@[simp] theorem State.setHead_jtag (s : State) (k : Nat) (x : Head) : (s.setHead k x).jtag = s.jtag := rfl
@[simp] theorem State.setHead_vtOut (s : State) (k : Nat) (x : Head) : (s.setHead k x).vtOut = s.vtOut := rfl
@[simp] theorem State.setHead_vtIn (s : State) (k : Nat) (x : Head) : (s.setHead k x).vtIn = s.vtIn := rfl
@[simp] theorem State.setHead_released (s : State) (k : Nat) (x : Head) : (s.setHead k x).released = s.released := rfl
@[simp] theorem State.setHead_getReg (s : State) (k : Nat) (x : Head) (a b e : Nat): (s.setHead k x).getReg a b e= s.getReg a b e:= rfl
@[simp] theorem State.setHead_get (s : State) (k : Nat) (x : Head) (g : Field) (a : Nat): (s.setHead k x).get g a= s.get g a:= rfl
@[simp] theorem State.setHead_flag (s : State) (k : Nat) (x : Head) (g : Field) (a : Nat): (s.setHead k x).flag g a= s.flag g a:= rfl
@[simp] theorem State.setHead_domain (s : State) (k : Nat) (x : Head) (a : Nat): (s.setHead k x).domain a= s.domain a:= rfl
@[simp] theorem State.setHead_domainOn (s : State) (k : Nat) (x : Head) (a : Nat): (s.setHead k x).domainOn a= s.domainOn a:= rfl
@[simp] theorem State.setHead_domainUp (s : State) (k : Nat) (x : Head) (a : Nat): (s.setHead k x).domainUp a= s.domainUp a:= rfl
@[simp] theorem State.setHead_linkUp (s : State) (k : Nat) (x : Head) : (s.setHead k x).linkUp = s.linkUp := rfl
@[simp] theorem State.setHead_eng (s : State) (k : Nat) (x : Head) (a : Nat): (s.setHead k x).eng a= s.eng a:= rfl
@[simp] theorem State.setHead_mem (s : State) (k : Nat) (x : Head) (a : Nat): (s.setHead k x).mem a= s.mem a:= rfl
@[simp] theorem State.setHead_ctl (s : State) (k : Nat) (x : Head) (a : Nat): (s.setHead k x).ctl a= s.ctl a:= rfl
@[simp] theorem State.setHead_pane (s : State) (k : Nat) (x : Head) (a : Nat): (s.setHead k x).pane a= s.pane a:= rfl
@[simp] theorem State.setHead_link (s : State) (k : Nat) (x : Head) (a : Nat): (s.setHead k x).link a= s.link a:= rfl
@[simp] theorem State.setHead_port (s : State) (k : Nat) (x : Head) (a : Nat): (s.setHead k x).port a= s.port a:= rfl
@[simp] theorem State.setHead_run (s : State) (k : Nat) (x : Head) (a : Nat): (s.setHead k x).run a= s.run a:= rfl
@[simp] theorem State.setHead_th (s : State) (k : Nat) (x : Head) (a : Nat): (s.setHead k x).th a= s.th a:= rfl
@[simp] theorem State.setHead_stile (s : State) (k : Nat) (x : Head) (a : Nat): (s.setHead k x).stile a= s.stile a:= rfl
@[simp] theorem State.setHead_cam (s : State) (k : Nat) (x : Head) (a : Nat): (s.setHead k x).cam a= s.cam a:= rfl
@[simp] theorem State.setHead_ddrCh (s : State) (k : Nat) (x : Head) (a : Nat): (s.setHead k x).ddrCh a= s.ddrCh a:= rfl
@[simp] theorem State.setHead_bank (s : State) (k : Nat) (x : Head) (a : Nat): (s.setHead k x).bank a= s.bank a:= rfl
@[simp] theorem State.setHead_surf (s : State) (k : Nat) (x : Head) (a : Nat): (s.setHead k x).surf a= s.surf a:= rfl
@[simp] theorem State.setHead_side (s : State) (k : Nat) (x : Head) (a : Nat): (s.setHead k x).side a= s.side a:= rfl
theorem State.setHead_at (s : State) (k : Nat) (x : Head) (j : Nat) : (s.setHead k x).head j = if j = k then x else s.head j := tblGet_set _ _ _ _ _
@[simp] theorem State.setHead_same (s : State) (k : Nat) (x : Head) : (s.setHead k x).head k = x := tblGet_set_same _ _ _ _
theorem State.setHead_other (s : State) (k : Nat) (x : Head) (j : Nat) (h : j ≠ k) : (s.setHead k x).head j = s.head j := tblGet_set_other _ _ _ _ _ h

/-! ### setCam -/

@[simp] theorem State.setCam_stiles (s : State) (k : Nat) (x : Camera) : (s.setCam k x).stiles = s.stiles := rfl
@[simp] theorem State.setCam_trlh (s : State) (k : Nat) (x : Camera) : (s.setCam k x).trlh = s.trlh := rfl
@[simp] theorem State.setCam_ejected (s : State) (k : Nat) (x : Camera) : (s.setCam k x).ejected = s.ejected := rfl
@[simp] theorem State.setCam_bridge (s : State) (k : Nat) (x : Camera) : (s.setCam k x).bridge = s.bridge := rfl
@[simp] theorem State.setCam_trace (s : State) (k : Nat) (x : Camera) : (s.setCam k x).trace = s.trace := rfl
@[simp] theorem State.setCam_nocNow (s : State) (k : Nat) (x : Camera) : (s.setCam k x).nocNow = s.nocNow := rfl
@[simp] theorem State.setCam_inbox (s : State) (k : Nat) (x : Camera) : (s.setCam k x).inbox = s.inbox := rfl
@[simp] theorem State.setCam_pending (s : State) (k : Nat) (x : Camera) : (s.setCam k x).pending = s.pending := rfl
@[simp] theorem State.setCam_answer (s : State) (k : Nat) (x : Camera) : (s.setCam k x).answer = s.answer := rfl
@[simp] theorem State.setCam_freeCount (s : State) (k : Nat) (x : Camera) : (s.setCam k x).freeCount = s.freeCount := rfl
@[simp] theorem State.setCam_regs (s : State) (k : Nat) (x : Camera) : (s.setCam k x).regs = s.regs := rfl
@[simp] theorem State.setCam_shadows (s : State) (k : Nat) (x : Camera) : (s.setCam k x).shadows = s.shadows := rfl
@[simp] theorem State.setCam_unlock (s : State) (k : Nat) (x : Camera) : (s.setCam k x).unlock = s.unlock := rfl
@[simp] theorem State.setCam_reports (s : State) (k : Nat) (x : Camera) : (s.setCam k x).reports = s.reports := rfl
@[simp] theorem State.setCam_tick (s : State) (k : Nat) (x : Camera) : (s.setCam k x).tick = s.tick := rfl
@[simp] theorem State.setCam_lintel (s : State) (k : Nat) (x : Camera) : (s.setCam k x).lintel = s.lintel := rfl
@[simp] theorem State.setCam_linkLosses (s : State) (k : Nat) (x : Camera) : (s.setCam k x).linkLosses = s.linkLosses := rfl
@[simp] theorem State.setCam_bridgeFresh (s : State) (k : Nat) (x : Camera) : (s.setCam k x).bridgeFresh = s.bridgeFresh := rfl
@[simp] theorem State.setCam_ddr (s : State) (k : Nat) (x : Camera) : (s.setCam k x).ddr = s.ddr := rfl
@[simp] theorem State.setCam_pins (s : State) (k : Nat) (x : Camera) : (s.setCam k x).pins = s.pins := rfl
@[simp] theorem State.setCam_agg (s : State) (k : Nat) (x : Camera) : (s.setCam k x).agg = s.agg := rfl
@[simp] theorem State.setCam_porter (s : State) (k : Nat) (x : Camera) : (s.setCam k x).porter = s.porter := rfl
@[simp] theorem State.setCam_gangs (s : State) (k : Nat) (x : Camera) : (s.setCam k x).gangs = s.gangs := rfl
@[simp] theorem State.setCam_doneTasks (s : State) (k : Nat) (x : Camera) : (s.setCam k x).doneTasks = s.doneTasks := rfl
@[simp] theorem State.setCam_panes (s : State) (k : Nat) (x : Camera) : (s.setCam k x).panes = s.panes := rfl
@[simp] theorem State.setCam_pctl (s : State) (k : Nat) (x : Camera) : (s.setCam k x).pctl = s.pctl := rfl
@[simp] theorem State.setCam_rowPorts (s : State) (k : Nat) (x : Camera) : (s.setCam k x).rowPorts = s.rowPorts := rfl
@[simp] theorem State.setCam_macroFlight (s : State) (k : Nat) (x : Camera) : (s.setCam k x).macroFlight = s.macroFlight := rfl
@[simp] theorem State.setCam_bistFresh (s : State) (k : Nat) (x : Camera) : (s.setCam k x).bistFresh = s.bistFresh := rfl
@[simp] theorem State.setCam_pant (s : State) (k : Nat) (x : Camera) : (s.setCam k x).pant = s.pant := rfl
@[simp] theorem State.setCam_marchDue (s : State) (k : Nat) (x : Camera) : (s.setCam k x).marchDue = s.marchDue := rfl
@[simp] theorem State.setCam_march (s : State) (k : Nat) (x : Camera) : (s.setCam k x).march = s.march := rfl
@[simp] theorem State.setCam_arrayLink (s : State) (k : Nat) (x : Camera) : (s.setCam k x).arrayLink = s.arrayLink := rfl
@[simp] theorem State.setCam_engMem (s : State) (k : Nat) (x : Camera) : (s.setCam k x).engMem = s.engMem := rfl
@[simp] theorem State.setCam_engines (s : State) (k : Nat) (x : Camera) : (s.setCam k x).engines = s.engines := rfl
@[simp] theorem State.setCam_heads (s : State) (k : Nat) (x : Camera) : (s.setCam k x).heads = s.heads := rfl
@[simp] theorem State.setCam_glaz (s : State) (k : Nat) (x : Camera) : (s.setCam k x).glaz = s.glaz := rfl
@[simp] theorem State.setCam_regionSel (s : State) (k : Nat) (x : Camera) : (s.setCam k x).regionSel = s.regionSel := rfl
@[simp] theorem State.setCam_surfaces (s : State) (k : Nat) (x : Camera) : (s.setCam k x).surfaces = s.surfaces := rfl
@[simp] theorem State.setCam_doorbells (s : State) (k : Nat) (x : Camera) : (s.setCam k x).doorbells = s.doorbells := rfl
@[simp] theorem State.setCam_sigt (s : State) (k : Nat) (x : Camera) : (s.setCam k x).sigt = s.sigt := rfl
@[simp] theorem State.setCam_gate (s : State) (k : Nat) (x : Camera) : (s.setCam k x).gate = s.gate := rfl
@[simp] theorem State.setCam_latch (s : State) (k : Nat) (x : Camera) : (s.setCam k x).latch = s.latch := rfl
@[simp] theorem State.setCam_hatchOpen (s : State) (k : Nat) (x : Camera) : (s.setCam k x).hatchOpen = s.hatchOpen := rfl
@[simp] theorem State.setCam_flash (s : State) (k : Nat) (x : Camera) : (s.setCam k x).flash = s.flash := rfl
@[simp] theorem State.setCam_fabric (s : State) (k : Nat) (x : Camera) : (s.setCam k x).fabric = s.fabric := rfl
@[simp] theorem State.setCam_flashJob (s : State) (k : Nat) (x : Camera) : (s.setCam k x).flashJob = s.flashJob := rfl
@[simp] theorem State.setCam_serial (s : State) (k : Nat) (x : Camera) : (s.setCam k x).serial = s.serial := rfl
@[simp] theorem State.setCam_shutter (s : State) (k : Nat) (x : Camera) : (s.setCam k x).shutter = s.shutter := rfl
@[simp] theorem State.setCam_boot (s : State) (k : Nat) (x : Camera) : (s.setCam k x).boot = s.boot := rfl
@[simp] theorem State.setCam_bootActive (s : State) (k : Nat) (x : Camera) : (s.setCam k x).bootActive = s.bootActive := rfl
@[simp] theorem State.setCam_missedTicks (s : State) (k : Nat) (x : Camera) : (s.setCam k x).missedTicks = s.missedTicks := rfl
@[simp] theorem State.setCam_jtag (s : State) (k : Nat) (x : Camera) : (s.setCam k x).jtag = s.jtag := rfl
@[simp] theorem State.setCam_vtOut (s : State) (k : Nat) (x : Camera) : (s.setCam k x).vtOut = s.vtOut := rfl
@[simp] theorem State.setCam_vtIn (s : State) (k : Nat) (x : Camera) : (s.setCam k x).vtIn = s.vtIn := rfl
@[simp] theorem State.setCam_released (s : State) (k : Nat) (x : Camera) : (s.setCam k x).released = s.released := rfl
@[simp] theorem State.setCam_getReg (s : State) (k : Nat) (x : Camera) (a b e : Nat): (s.setCam k x).getReg a b e= s.getReg a b e:= rfl
@[simp] theorem State.setCam_get (s : State) (k : Nat) (x : Camera) (g : Field) (a : Nat): (s.setCam k x).get g a= s.get g a:= rfl
@[simp] theorem State.setCam_flag (s : State) (k : Nat) (x : Camera) (g : Field) (a : Nat): (s.setCam k x).flag g a= s.flag g a:= rfl
@[simp] theorem State.setCam_domain (s : State) (k : Nat) (x : Camera) (a : Nat): (s.setCam k x).domain a= s.domain a:= rfl
@[simp] theorem State.setCam_domainOn (s : State) (k : Nat) (x : Camera) (a : Nat): (s.setCam k x).domainOn a= s.domainOn a:= rfl
@[simp] theorem State.setCam_domainUp (s : State) (k : Nat) (x : Camera) (a : Nat): (s.setCam k x).domainUp a= s.domainUp a:= rfl
@[simp] theorem State.setCam_linkUp (s : State) (k : Nat) (x : Camera) : (s.setCam k x).linkUp = s.linkUp := rfl
@[simp] theorem State.setCam_eng (s : State) (k : Nat) (x : Camera) (a : Nat): (s.setCam k x).eng a= s.eng a:= rfl
@[simp] theorem State.setCam_mem (s : State) (k : Nat) (x : Camera) (a : Nat): (s.setCam k x).mem a= s.mem a:= rfl
@[simp] theorem State.setCam_ctl (s : State) (k : Nat) (x : Camera) (a : Nat): (s.setCam k x).ctl a= s.ctl a:= rfl
@[simp] theorem State.setCam_pane (s : State) (k : Nat) (x : Camera) (a : Nat): (s.setCam k x).pane a= s.pane a:= rfl
@[simp] theorem State.setCam_link (s : State) (k : Nat) (x : Camera) (a : Nat): (s.setCam k x).link a= s.link a:= rfl
@[simp] theorem State.setCam_port (s : State) (k : Nat) (x : Camera) (a : Nat): (s.setCam k x).port a= s.port a:= rfl
@[simp] theorem State.setCam_run (s : State) (k : Nat) (x : Camera) (a : Nat): (s.setCam k x).run a= s.run a:= rfl
@[simp] theorem State.setCam_th (s : State) (k : Nat) (x : Camera) (a : Nat): (s.setCam k x).th a= s.th a:= rfl
@[simp] theorem State.setCam_stile (s : State) (k : Nat) (x : Camera) (a : Nat): (s.setCam k x).stile a= s.stile a:= rfl
@[simp] theorem State.setCam_head (s : State) (k : Nat) (x : Camera) (a : Nat): (s.setCam k x).head a= s.head a:= rfl
@[simp] theorem State.setCam_ddrCh (s : State) (k : Nat) (x : Camera) (a : Nat): (s.setCam k x).ddrCh a= s.ddrCh a:= rfl
@[simp] theorem State.setCam_bank (s : State) (k : Nat) (x : Camera) (a : Nat): (s.setCam k x).bank a= s.bank a:= rfl
@[simp] theorem State.setCam_surf (s : State) (k : Nat) (x : Camera) (a : Nat): (s.setCam k x).surf a= s.surf a:= rfl
@[simp] theorem State.setCam_side (s : State) (k : Nat) (x : Camera) (a : Nat): (s.setCam k x).side a= s.side a:= rfl
theorem State.setCam_at (s : State) (k : Nat) (x : Camera) (j : Nat) : (s.setCam k x).cam j = if j = k then x else s.cam j := tblGet_set _ _ _ _ _
@[simp] theorem State.setCam_same (s : State) (k : Nat) (x : Camera) : (s.setCam k x).cam k = x := tblGet_set_same _ _ _ _
theorem State.setCam_other (s : State) (k : Nat) (x : Camera) (j : Nat) (h : j ≠ k) : (s.setCam k x).cam j = s.cam j := tblGet_set_other _ _ _ _ _ h

/-! ### setDdr -/

@[simp] theorem State.setDdr_stiles (s : State) (k : Nat) (x : DdrChannel) : (s.setDdr k x).stiles = s.stiles := rfl
@[simp] theorem State.setDdr_trlh (s : State) (k : Nat) (x : DdrChannel) : (s.setDdr k x).trlh = s.trlh := rfl
@[simp] theorem State.setDdr_ejected (s : State) (k : Nat) (x : DdrChannel) : (s.setDdr k x).ejected = s.ejected := rfl
@[simp] theorem State.setDdr_bridge (s : State) (k : Nat) (x : DdrChannel) : (s.setDdr k x).bridge = s.bridge := rfl
@[simp] theorem State.setDdr_trace (s : State) (k : Nat) (x : DdrChannel) : (s.setDdr k x).trace = s.trace := rfl
@[simp] theorem State.setDdr_nocNow (s : State) (k : Nat) (x : DdrChannel) : (s.setDdr k x).nocNow = s.nocNow := rfl
@[simp] theorem State.setDdr_inbox (s : State) (k : Nat) (x : DdrChannel) : (s.setDdr k x).inbox = s.inbox := rfl
@[simp] theorem State.setDdr_pending (s : State) (k : Nat) (x : DdrChannel) : (s.setDdr k x).pending = s.pending := rfl
@[simp] theorem State.setDdr_answer (s : State) (k : Nat) (x : DdrChannel) : (s.setDdr k x).answer = s.answer := rfl
@[simp] theorem State.setDdr_freeCount (s : State) (k : Nat) (x : DdrChannel) : (s.setDdr k x).freeCount = s.freeCount := rfl
@[simp] theorem State.setDdr_regs (s : State) (k : Nat) (x : DdrChannel) : (s.setDdr k x).regs = s.regs := rfl
@[simp] theorem State.setDdr_shadows (s : State) (k : Nat) (x : DdrChannel) : (s.setDdr k x).shadows = s.shadows := rfl
@[simp] theorem State.setDdr_unlock (s : State) (k : Nat) (x : DdrChannel) : (s.setDdr k x).unlock = s.unlock := rfl
@[simp] theorem State.setDdr_reports (s : State) (k : Nat) (x : DdrChannel) : (s.setDdr k x).reports = s.reports := rfl
@[simp] theorem State.setDdr_tick (s : State) (k : Nat) (x : DdrChannel) : (s.setDdr k x).tick = s.tick := rfl
@[simp] theorem State.setDdr_lintel (s : State) (k : Nat) (x : DdrChannel) : (s.setDdr k x).lintel = s.lintel := rfl
@[simp] theorem State.setDdr_linkLosses (s : State) (k : Nat) (x : DdrChannel) : (s.setDdr k x).linkLosses = s.linkLosses := rfl
@[simp] theorem State.setDdr_bridgeFresh (s : State) (k : Nat) (x : DdrChannel) : (s.setDdr k x).bridgeFresh = s.bridgeFresh := rfl
@[simp] theorem State.setDdr_pins (s : State) (k : Nat) (x : DdrChannel) : (s.setDdr k x).pins = s.pins := rfl
@[simp] theorem State.setDdr_agg (s : State) (k : Nat) (x : DdrChannel) : (s.setDdr k x).agg = s.agg := rfl
@[simp] theorem State.setDdr_porter (s : State) (k : Nat) (x : DdrChannel) : (s.setDdr k x).porter = s.porter := rfl
@[simp] theorem State.setDdr_gangs (s : State) (k : Nat) (x : DdrChannel) : (s.setDdr k x).gangs = s.gangs := rfl
@[simp] theorem State.setDdr_doneTasks (s : State) (k : Nat) (x : DdrChannel) : (s.setDdr k x).doneTasks = s.doneTasks := rfl
@[simp] theorem State.setDdr_panes (s : State) (k : Nat) (x : DdrChannel) : (s.setDdr k x).panes = s.panes := rfl
@[simp] theorem State.setDdr_pctl (s : State) (k : Nat) (x : DdrChannel) : (s.setDdr k x).pctl = s.pctl := rfl
@[simp] theorem State.setDdr_rowPorts (s : State) (k : Nat) (x : DdrChannel) : (s.setDdr k x).rowPorts = s.rowPorts := rfl
@[simp] theorem State.setDdr_macroFlight (s : State) (k : Nat) (x : DdrChannel) : (s.setDdr k x).macroFlight = s.macroFlight := rfl
@[simp] theorem State.setDdr_bistFresh (s : State) (k : Nat) (x : DdrChannel) : (s.setDdr k x).bistFresh = s.bistFresh := rfl
@[simp] theorem State.setDdr_pant (s : State) (k : Nat) (x : DdrChannel) : (s.setDdr k x).pant = s.pant := rfl
@[simp] theorem State.setDdr_marchDue (s : State) (k : Nat) (x : DdrChannel) : (s.setDdr k x).marchDue = s.marchDue := rfl
@[simp] theorem State.setDdr_march (s : State) (k : Nat) (x : DdrChannel) : (s.setDdr k x).march = s.march := rfl
@[simp] theorem State.setDdr_arrayLink (s : State) (k : Nat) (x : DdrChannel) : (s.setDdr k x).arrayLink = s.arrayLink := rfl
@[simp] theorem State.setDdr_engMem (s : State) (k : Nat) (x : DdrChannel) : (s.setDdr k x).engMem = s.engMem := rfl
@[simp] theorem State.setDdr_engines (s : State) (k : Nat) (x : DdrChannel) : (s.setDdr k x).engines = s.engines := rfl
@[simp] theorem State.setDdr_heads (s : State) (k : Nat) (x : DdrChannel) : (s.setDdr k x).heads = s.heads := rfl
@[simp] theorem State.setDdr_glaz (s : State) (k : Nat) (x : DdrChannel) : (s.setDdr k x).glaz = s.glaz := rfl
@[simp] theorem State.setDdr_regionSel (s : State) (k : Nat) (x : DdrChannel) : (s.setDdr k x).regionSel = s.regionSel := rfl
@[simp] theorem State.setDdr_cams (s : State) (k : Nat) (x : DdrChannel) : (s.setDdr k x).cams = s.cams := rfl
@[simp] theorem State.setDdr_surfaces (s : State) (k : Nat) (x : DdrChannel) : (s.setDdr k x).surfaces = s.surfaces := rfl
@[simp] theorem State.setDdr_doorbells (s : State) (k : Nat) (x : DdrChannel) : (s.setDdr k x).doorbells = s.doorbells := rfl
@[simp] theorem State.setDdr_sigt (s : State) (k : Nat) (x : DdrChannel) : (s.setDdr k x).sigt = s.sigt := rfl
@[simp] theorem State.setDdr_gate (s : State) (k : Nat) (x : DdrChannel) : (s.setDdr k x).gate = s.gate := rfl
@[simp] theorem State.setDdr_latch (s : State) (k : Nat) (x : DdrChannel) : (s.setDdr k x).latch = s.latch := rfl
@[simp] theorem State.setDdr_hatchOpen (s : State) (k : Nat) (x : DdrChannel) : (s.setDdr k x).hatchOpen = s.hatchOpen := rfl
@[simp] theorem State.setDdr_flash (s : State) (k : Nat) (x : DdrChannel) : (s.setDdr k x).flash = s.flash := rfl
@[simp] theorem State.setDdr_fabric (s : State) (k : Nat) (x : DdrChannel) : (s.setDdr k x).fabric = s.fabric := rfl
@[simp] theorem State.setDdr_flashJob (s : State) (k : Nat) (x : DdrChannel) : (s.setDdr k x).flashJob = s.flashJob := rfl
@[simp] theorem State.setDdr_serial (s : State) (k : Nat) (x : DdrChannel) : (s.setDdr k x).serial = s.serial := rfl
@[simp] theorem State.setDdr_shutter (s : State) (k : Nat) (x : DdrChannel) : (s.setDdr k x).shutter = s.shutter := rfl
@[simp] theorem State.setDdr_boot (s : State) (k : Nat) (x : DdrChannel) : (s.setDdr k x).boot = s.boot := rfl
@[simp] theorem State.setDdr_bootActive (s : State) (k : Nat) (x : DdrChannel) : (s.setDdr k x).bootActive = s.bootActive := rfl
@[simp] theorem State.setDdr_missedTicks (s : State) (k : Nat) (x : DdrChannel) : (s.setDdr k x).missedTicks = s.missedTicks := rfl
@[simp] theorem State.setDdr_jtag (s : State) (k : Nat) (x : DdrChannel) : (s.setDdr k x).jtag = s.jtag := rfl
@[simp] theorem State.setDdr_vtOut (s : State) (k : Nat) (x : DdrChannel) : (s.setDdr k x).vtOut = s.vtOut := rfl
@[simp] theorem State.setDdr_vtIn (s : State) (k : Nat) (x : DdrChannel) : (s.setDdr k x).vtIn = s.vtIn := rfl
@[simp] theorem State.setDdr_released (s : State) (k : Nat) (x : DdrChannel) : (s.setDdr k x).released = s.released := rfl
@[simp] theorem State.setDdr_getReg (s : State) (k : Nat) (x : DdrChannel) (a b e : Nat): (s.setDdr k x).getReg a b e= s.getReg a b e:= rfl
@[simp] theorem State.setDdr_get (s : State) (k : Nat) (x : DdrChannel) (g : Field) (a : Nat): (s.setDdr k x).get g a= s.get g a:= rfl
@[simp] theorem State.setDdr_flag (s : State) (k : Nat) (x : DdrChannel) (g : Field) (a : Nat): (s.setDdr k x).flag g a= s.flag g a:= rfl
@[simp] theorem State.setDdr_domain (s : State) (k : Nat) (x : DdrChannel) (a : Nat): (s.setDdr k x).domain a= s.domain a:= rfl
@[simp] theorem State.setDdr_domainOn (s : State) (k : Nat) (x : DdrChannel) (a : Nat): (s.setDdr k x).domainOn a= s.domainOn a:= rfl
@[simp] theorem State.setDdr_domainUp (s : State) (k : Nat) (x : DdrChannel) (a : Nat): (s.setDdr k x).domainUp a= s.domainUp a:= rfl
@[simp] theorem State.setDdr_linkUp (s : State) (k : Nat) (x : DdrChannel) : (s.setDdr k x).linkUp = s.linkUp := rfl
@[simp] theorem State.setDdr_eng (s : State) (k : Nat) (x : DdrChannel) (a : Nat): (s.setDdr k x).eng a= s.eng a:= rfl
@[simp] theorem State.setDdr_mem (s : State) (k : Nat) (x : DdrChannel) (a : Nat): (s.setDdr k x).mem a= s.mem a:= rfl
@[simp] theorem State.setDdr_ctl (s : State) (k : Nat) (x : DdrChannel) (a : Nat): (s.setDdr k x).ctl a= s.ctl a:= rfl
@[simp] theorem State.setDdr_pane (s : State) (k : Nat) (x : DdrChannel) (a : Nat): (s.setDdr k x).pane a= s.pane a:= rfl
@[simp] theorem State.setDdr_link (s : State) (k : Nat) (x : DdrChannel) (a : Nat): (s.setDdr k x).link a= s.link a:= rfl
@[simp] theorem State.setDdr_port (s : State) (k : Nat) (x : DdrChannel) (a : Nat): (s.setDdr k x).port a= s.port a:= rfl
@[simp] theorem State.setDdr_run (s : State) (k : Nat) (x : DdrChannel) (a : Nat): (s.setDdr k x).run a= s.run a:= rfl
@[simp] theorem State.setDdr_th (s : State) (k : Nat) (x : DdrChannel) (a : Nat): (s.setDdr k x).th a= s.th a:= rfl
@[simp] theorem State.setDdr_stile (s : State) (k : Nat) (x : DdrChannel) (a : Nat): (s.setDdr k x).stile a= s.stile a:= rfl
@[simp] theorem State.setDdr_head (s : State) (k : Nat) (x : DdrChannel) (a : Nat): (s.setDdr k x).head a= s.head a:= rfl
@[simp] theorem State.setDdr_cam (s : State) (k : Nat) (x : DdrChannel) (a : Nat): (s.setDdr k x).cam a= s.cam a:= rfl
@[simp] theorem State.setDdr_bank (s : State) (k : Nat) (x : DdrChannel) (a : Nat): (s.setDdr k x).bank a= s.bank a:= rfl
@[simp] theorem State.setDdr_surf (s : State) (k : Nat) (x : DdrChannel) (a : Nat): (s.setDdr k x).surf a= s.surf a:= rfl
@[simp] theorem State.setDdr_side (s : State) (k : Nat) (x : DdrChannel) (a : Nat): (s.setDdr k x).side a= s.side a:= rfl
theorem State.setDdr_at (s : State) (k : Nat) (x : DdrChannel) (j : Nat) : (s.setDdr k x).ddrCh j = if j = k then x else s.ddrCh j := tblGet_set _ _ _ _ _
@[simp] theorem State.setDdr_same (s : State) (k : Nat) (x : DdrChannel) : (s.setDdr k x).ddrCh k = x := tblGet_set_same _ _ _ _
theorem State.setDdr_other (s : State) (k : Nat) (x : DdrChannel) (j : Nat) (h : j ≠ k) : (s.setDdr k x).ddrCh j = s.ddrCh j := tblGet_set_other _ _ _ _ _ h

/-! ### setBank -/

@[simp] theorem State.setBank_stiles (s : State) (k : Nat) (x : PantBank) : (s.setBank k x).stiles = s.stiles := rfl
@[simp] theorem State.setBank_trlh (s : State) (k : Nat) (x : PantBank) : (s.setBank k x).trlh = s.trlh := rfl
@[simp] theorem State.setBank_ejected (s : State) (k : Nat) (x : PantBank) : (s.setBank k x).ejected = s.ejected := rfl
@[simp] theorem State.setBank_bridge (s : State) (k : Nat) (x : PantBank) : (s.setBank k x).bridge = s.bridge := rfl
@[simp] theorem State.setBank_trace (s : State) (k : Nat) (x : PantBank) : (s.setBank k x).trace = s.trace := rfl
@[simp] theorem State.setBank_nocNow (s : State) (k : Nat) (x : PantBank) : (s.setBank k x).nocNow = s.nocNow := rfl
@[simp] theorem State.setBank_inbox (s : State) (k : Nat) (x : PantBank) : (s.setBank k x).inbox = s.inbox := rfl
@[simp] theorem State.setBank_pending (s : State) (k : Nat) (x : PantBank) : (s.setBank k x).pending = s.pending := rfl
@[simp] theorem State.setBank_answer (s : State) (k : Nat) (x : PantBank) : (s.setBank k x).answer = s.answer := rfl
@[simp] theorem State.setBank_freeCount (s : State) (k : Nat) (x : PantBank) : (s.setBank k x).freeCount = s.freeCount := rfl
@[simp] theorem State.setBank_regs (s : State) (k : Nat) (x : PantBank) : (s.setBank k x).regs = s.regs := rfl
@[simp] theorem State.setBank_shadows (s : State) (k : Nat) (x : PantBank) : (s.setBank k x).shadows = s.shadows := rfl
@[simp] theorem State.setBank_unlock (s : State) (k : Nat) (x : PantBank) : (s.setBank k x).unlock = s.unlock := rfl
@[simp] theorem State.setBank_reports (s : State) (k : Nat) (x : PantBank) : (s.setBank k x).reports = s.reports := rfl
@[simp] theorem State.setBank_tick (s : State) (k : Nat) (x : PantBank) : (s.setBank k x).tick = s.tick := rfl
@[simp] theorem State.setBank_lintel (s : State) (k : Nat) (x : PantBank) : (s.setBank k x).lintel = s.lintel := rfl
@[simp] theorem State.setBank_linkLosses (s : State) (k : Nat) (x : PantBank) : (s.setBank k x).linkLosses = s.linkLosses := rfl
@[simp] theorem State.setBank_bridgeFresh (s : State) (k : Nat) (x : PantBank) : (s.setBank k x).bridgeFresh = s.bridgeFresh := rfl
@[simp] theorem State.setBank_ddr (s : State) (k : Nat) (x : PantBank) : (s.setBank k x).ddr = s.ddr := rfl
@[simp] theorem State.setBank_pins (s : State) (k : Nat) (x : PantBank) : (s.setBank k x).pins = s.pins := rfl
@[simp] theorem State.setBank_agg (s : State) (k : Nat) (x : PantBank) : (s.setBank k x).agg = s.agg := rfl
@[simp] theorem State.setBank_porter (s : State) (k : Nat) (x : PantBank) : (s.setBank k x).porter = s.porter := rfl
@[simp] theorem State.setBank_gangs (s : State) (k : Nat) (x : PantBank) : (s.setBank k x).gangs = s.gangs := rfl
@[simp] theorem State.setBank_doneTasks (s : State) (k : Nat) (x : PantBank) : (s.setBank k x).doneTasks = s.doneTasks := rfl
@[simp] theorem State.setBank_panes (s : State) (k : Nat) (x : PantBank) : (s.setBank k x).panes = s.panes := rfl
@[simp] theorem State.setBank_pctl (s : State) (k : Nat) (x : PantBank) : (s.setBank k x).pctl = s.pctl := rfl
@[simp] theorem State.setBank_rowPorts (s : State) (k : Nat) (x : PantBank) : (s.setBank k x).rowPorts = s.rowPorts := rfl
@[simp] theorem State.setBank_macroFlight (s : State) (k : Nat) (x : PantBank) : (s.setBank k x).macroFlight = s.macroFlight := rfl
@[simp] theorem State.setBank_bistFresh (s : State) (k : Nat) (x : PantBank) : (s.setBank k x).bistFresh = s.bistFresh := rfl
@[simp] theorem State.setBank_marchDue (s : State) (k : Nat) (x : PantBank) : (s.setBank k x).marchDue = s.marchDue := rfl
@[simp] theorem State.setBank_march (s : State) (k : Nat) (x : PantBank) : (s.setBank k x).march = s.march := rfl
@[simp] theorem State.setBank_arrayLink (s : State) (k : Nat) (x : PantBank) : (s.setBank k x).arrayLink = s.arrayLink := rfl
@[simp] theorem State.setBank_engMem (s : State) (k : Nat) (x : PantBank) : (s.setBank k x).engMem = s.engMem := rfl
@[simp] theorem State.setBank_engines (s : State) (k : Nat) (x : PantBank) : (s.setBank k x).engines = s.engines := rfl
@[simp] theorem State.setBank_heads (s : State) (k : Nat) (x : PantBank) : (s.setBank k x).heads = s.heads := rfl
@[simp] theorem State.setBank_glaz (s : State) (k : Nat) (x : PantBank) : (s.setBank k x).glaz = s.glaz := rfl
@[simp] theorem State.setBank_regionSel (s : State) (k : Nat) (x : PantBank) : (s.setBank k x).regionSel = s.regionSel := rfl
@[simp] theorem State.setBank_cams (s : State) (k : Nat) (x : PantBank) : (s.setBank k x).cams = s.cams := rfl
@[simp] theorem State.setBank_surfaces (s : State) (k : Nat) (x : PantBank) : (s.setBank k x).surfaces = s.surfaces := rfl
@[simp] theorem State.setBank_doorbells (s : State) (k : Nat) (x : PantBank) : (s.setBank k x).doorbells = s.doorbells := rfl
@[simp] theorem State.setBank_sigt (s : State) (k : Nat) (x : PantBank) : (s.setBank k x).sigt = s.sigt := rfl
@[simp] theorem State.setBank_gate (s : State) (k : Nat) (x : PantBank) : (s.setBank k x).gate = s.gate := rfl
@[simp] theorem State.setBank_latch (s : State) (k : Nat) (x : PantBank) : (s.setBank k x).latch = s.latch := rfl
@[simp] theorem State.setBank_hatchOpen (s : State) (k : Nat) (x : PantBank) : (s.setBank k x).hatchOpen = s.hatchOpen := rfl
@[simp] theorem State.setBank_flash (s : State) (k : Nat) (x : PantBank) : (s.setBank k x).flash = s.flash := rfl
@[simp] theorem State.setBank_fabric (s : State) (k : Nat) (x : PantBank) : (s.setBank k x).fabric = s.fabric := rfl
@[simp] theorem State.setBank_flashJob (s : State) (k : Nat) (x : PantBank) : (s.setBank k x).flashJob = s.flashJob := rfl
@[simp] theorem State.setBank_serial (s : State) (k : Nat) (x : PantBank) : (s.setBank k x).serial = s.serial := rfl
@[simp] theorem State.setBank_shutter (s : State) (k : Nat) (x : PantBank) : (s.setBank k x).shutter = s.shutter := rfl
@[simp] theorem State.setBank_boot (s : State) (k : Nat) (x : PantBank) : (s.setBank k x).boot = s.boot := rfl
@[simp] theorem State.setBank_bootActive (s : State) (k : Nat) (x : PantBank) : (s.setBank k x).bootActive = s.bootActive := rfl
@[simp] theorem State.setBank_missedTicks (s : State) (k : Nat) (x : PantBank) : (s.setBank k x).missedTicks = s.missedTicks := rfl
@[simp] theorem State.setBank_jtag (s : State) (k : Nat) (x : PantBank) : (s.setBank k x).jtag = s.jtag := rfl
@[simp] theorem State.setBank_vtOut (s : State) (k : Nat) (x : PantBank) : (s.setBank k x).vtOut = s.vtOut := rfl
@[simp] theorem State.setBank_vtIn (s : State) (k : Nat) (x : PantBank) : (s.setBank k x).vtIn = s.vtIn := rfl
@[simp] theorem State.setBank_released (s : State) (k : Nat) (x : PantBank) : (s.setBank k x).released = s.released := rfl
@[simp] theorem State.setBank_getReg (s : State) (k : Nat) (x : PantBank) (a b e : Nat): (s.setBank k x).getReg a b e= s.getReg a b e:= rfl
@[simp] theorem State.setBank_get (s : State) (k : Nat) (x : PantBank) (g : Field) (a : Nat): (s.setBank k x).get g a= s.get g a:= rfl
@[simp] theorem State.setBank_flag (s : State) (k : Nat) (x : PantBank) (g : Field) (a : Nat): (s.setBank k x).flag g a= s.flag g a:= rfl
@[simp] theorem State.setBank_domain (s : State) (k : Nat) (x : PantBank) (a : Nat): (s.setBank k x).domain a= s.domain a:= rfl
@[simp] theorem State.setBank_domainOn (s : State) (k : Nat) (x : PantBank) (a : Nat): (s.setBank k x).domainOn a= s.domainOn a:= rfl
@[simp] theorem State.setBank_domainUp (s : State) (k : Nat) (x : PantBank) (a : Nat): (s.setBank k x).domainUp a= s.domainUp a:= rfl
@[simp] theorem State.setBank_linkUp (s : State) (k : Nat) (x : PantBank) : (s.setBank k x).linkUp = s.linkUp := rfl
@[simp] theorem State.setBank_eng (s : State) (k : Nat) (x : PantBank) (a : Nat): (s.setBank k x).eng a= s.eng a:= rfl
@[simp] theorem State.setBank_mem (s : State) (k : Nat) (x : PantBank) (a : Nat): (s.setBank k x).mem a= s.mem a:= rfl
@[simp] theorem State.setBank_ctl (s : State) (k : Nat) (x : PantBank) (a : Nat): (s.setBank k x).ctl a= s.ctl a:= rfl
@[simp] theorem State.setBank_pane (s : State) (k : Nat) (x : PantBank) (a : Nat): (s.setBank k x).pane a= s.pane a:= rfl
@[simp] theorem State.setBank_link (s : State) (k : Nat) (x : PantBank) (a : Nat): (s.setBank k x).link a= s.link a:= rfl
@[simp] theorem State.setBank_port (s : State) (k : Nat) (x : PantBank) (a : Nat): (s.setBank k x).port a= s.port a:= rfl
@[simp] theorem State.setBank_run (s : State) (k : Nat) (x : PantBank) (a : Nat): (s.setBank k x).run a= s.run a:= rfl
@[simp] theorem State.setBank_th (s : State) (k : Nat) (x : PantBank) (a : Nat): (s.setBank k x).th a= s.th a:= rfl
@[simp] theorem State.setBank_stile (s : State) (k : Nat) (x : PantBank) (a : Nat): (s.setBank k x).stile a= s.stile a:= rfl
@[simp] theorem State.setBank_head (s : State) (k : Nat) (x : PantBank) (a : Nat): (s.setBank k x).head a= s.head a:= rfl
@[simp] theorem State.setBank_cam (s : State) (k : Nat) (x : PantBank) (a : Nat): (s.setBank k x).cam a= s.cam a:= rfl
@[simp] theorem State.setBank_ddrCh (s : State) (k : Nat) (x : PantBank) (a : Nat): (s.setBank k x).ddrCh a= s.ddrCh a:= rfl
@[simp] theorem State.setBank_surf (s : State) (k : Nat) (x : PantBank) (a : Nat): (s.setBank k x).surf a= s.surf a:= rfl
@[simp] theorem State.setBank_side (s : State) (k : Nat) (x : PantBank) (a : Nat): (s.setBank k x).side a= s.side a:= rfl
theorem State.setBank_at (s : State) (k : Nat) (x : PantBank) (j : Nat) : (s.setBank k x).bank j = if j = k then x else s.bank j := tblGet_set _ _ _ _ _
@[simp] theorem State.setBank_same (s : State) (k : Nat) (x : PantBank) : (s.setBank k x).bank k = x := tblGet_set_same _ _ _ _
theorem State.setBank_other (s : State) (k : Nat) (x : PantBank) (j : Nat) (h : j ≠ k) : (s.setBank k x).bank j = s.bank j := tblGet_set_other _ _ _ _ _ h

/-! ### setLink -/

@[simp] theorem State.setLink_stiles (s : State) (k : Nat) (x : ArrayLink) : (s.setLink k x).stiles = s.stiles := rfl
@[simp] theorem State.setLink_trlh (s : State) (k : Nat) (x : ArrayLink) : (s.setLink k x).trlh = s.trlh := rfl
@[simp] theorem State.setLink_ejected (s : State) (k : Nat) (x : ArrayLink) : (s.setLink k x).ejected = s.ejected := rfl
@[simp] theorem State.setLink_bridge (s : State) (k : Nat) (x : ArrayLink) : (s.setLink k x).bridge = s.bridge := rfl
@[simp] theorem State.setLink_trace (s : State) (k : Nat) (x : ArrayLink) : (s.setLink k x).trace = s.trace := rfl
@[simp] theorem State.setLink_nocNow (s : State) (k : Nat) (x : ArrayLink) : (s.setLink k x).nocNow = s.nocNow := rfl
@[simp] theorem State.setLink_inbox (s : State) (k : Nat) (x : ArrayLink) : (s.setLink k x).inbox = s.inbox := rfl
@[simp] theorem State.setLink_pending (s : State) (k : Nat) (x : ArrayLink) : (s.setLink k x).pending = s.pending := rfl
@[simp] theorem State.setLink_answer (s : State) (k : Nat) (x : ArrayLink) : (s.setLink k x).answer = s.answer := rfl
@[simp] theorem State.setLink_freeCount (s : State) (k : Nat) (x : ArrayLink) : (s.setLink k x).freeCount = s.freeCount := rfl
@[simp] theorem State.setLink_regs (s : State) (k : Nat) (x : ArrayLink) : (s.setLink k x).regs = s.regs := rfl
@[simp] theorem State.setLink_shadows (s : State) (k : Nat) (x : ArrayLink) : (s.setLink k x).shadows = s.shadows := rfl
@[simp] theorem State.setLink_unlock (s : State) (k : Nat) (x : ArrayLink) : (s.setLink k x).unlock = s.unlock := rfl
@[simp] theorem State.setLink_reports (s : State) (k : Nat) (x : ArrayLink) : (s.setLink k x).reports = s.reports := rfl
@[simp] theorem State.setLink_tick (s : State) (k : Nat) (x : ArrayLink) : (s.setLink k x).tick = s.tick := rfl
@[simp] theorem State.setLink_lintel (s : State) (k : Nat) (x : ArrayLink) : (s.setLink k x).lintel = s.lintel := rfl
@[simp] theorem State.setLink_linkLosses (s : State) (k : Nat) (x : ArrayLink) : (s.setLink k x).linkLosses = s.linkLosses := rfl
@[simp] theorem State.setLink_bridgeFresh (s : State) (k : Nat) (x : ArrayLink) : (s.setLink k x).bridgeFresh = s.bridgeFresh := rfl
@[simp] theorem State.setLink_ddr (s : State) (k : Nat) (x : ArrayLink) : (s.setLink k x).ddr = s.ddr := rfl
@[simp] theorem State.setLink_pins (s : State) (k : Nat) (x : ArrayLink) : (s.setLink k x).pins = s.pins := rfl
@[simp] theorem State.setLink_agg (s : State) (k : Nat) (x : ArrayLink) : (s.setLink k x).agg = s.agg := rfl
@[simp] theorem State.setLink_porter (s : State) (k : Nat) (x : ArrayLink) : (s.setLink k x).porter = s.porter := rfl
@[simp] theorem State.setLink_gangs (s : State) (k : Nat) (x : ArrayLink) : (s.setLink k x).gangs = s.gangs := rfl
@[simp] theorem State.setLink_doneTasks (s : State) (k : Nat) (x : ArrayLink) : (s.setLink k x).doneTasks = s.doneTasks := rfl
@[simp] theorem State.setLink_panes (s : State) (k : Nat) (x : ArrayLink) : (s.setLink k x).panes = s.panes := rfl
@[simp] theorem State.setLink_pctl (s : State) (k : Nat) (x : ArrayLink) : (s.setLink k x).pctl = s.pctl := rfl
@[simp] theorem State.setLink_rowPorts (s : State) (k : Nat) (x : ArrayLink) : (s.setLink k x).rowPorts = s.rowPorts := rfl
@[simp] theorem State.setLink_macroFlight (s : State) (k : Nat) (x : ArrayLink) : (s.setLink k x).macroFlight = s.macroFlight := rfl
@[simp] theorem State.setLink_bistFresh (s : State) (k : Nat) (x : ArrayLink) : (s.setLink k x).bistFresh = s.bistFresh := rfl
@[simp] theorem State.setLink_pant (s : State) (k : Nat) (x : ArrayLink) : (s.setLink k x).pant = s.pant := rfl
@[simp] theorem State.setLink_marchDue (s : State) (k : Nat) (x : ArrayLink) : (s.setLink k x).marchDue = s.marchDue := rfl
@[simp] theorem State.setLink_march (s : State) (k : Nat) (x : ArrayLink) : (s.setLink k x).march = s.march := rfl
@[simp] theorem State.setLink_engMem (s : State) (k : Nat) (x : ArrayLink) : (s.setLink k x).engMem = s.engMem := rfl
@[simp] theorem State.setLink_engines (s : State) (k : Nat) (x : ArrayLink) : (s.setLink k x).engines = s.engines := rfl
@[simp] theorem State.setLink_heads (s : State) (k : Nat) (x : ArrayLink) : (s.setLink k x).heads = s.heads := rfl
@[simp] theorem State.setLink_glaz (s : State) (k : Nat) (x : ArrayLink) : (s.setLink k x).glaz = s.glaz := rfl
@[simp] theorem State.setLink_regionSel (s : State) (k : Nat) (x : ArrayLink) : (s.setLink k x).regionSel = s.regionSel := rfl
@[simp] theorem State.setLink_cams (s : State) (k : Nat) (x : ArrayLink) : (s.setLink k x).cams = s.cams := rfl
@[simp] theorem State.setLink_surfaces (s : State) (k : Nat) (x : ArrayLink) : (s.setLink k x).surfaces = s.surfaces := rfl
@[simp] theorem State.setLink_doorbells (s : State) (k : Nat) (x : ArrayLink) : (s.setLink k x).doorbells = s.doorbells := rfl
@[simp] theorem State.setLink_sigt (s : State) (k : Nat) (x : ArrayLink) : (s.setLink k x).sigt = s.sigt := rfl
@[simp] theorem State.setLink_gate (s : State) (k : Nat) (x : ArrayLink) : (s.setLink k x).gate = s.gate := rfl
@[simp] theorem State.setLink_latch (s : State) (k : Nat) (x : ArrayLink) : (s.setLink k x).latch = s.latch := rfl
@[simp] theorem State.setLink_hatchOpen (s : State) (k : Nat) (x : ArrayLink) : (s.setLink k x).hatchOpen = s.hatchOpen := rfl
@[simp] theorem State.setLink_flash (s : State) (k : Nat) (x : ArrayLink) : (s.setLink k x).flash = s.flash := rfl
@[simp] theorem State.setLink_fabric (s : State) (k : Nat) (x : ArrayLink) : (s.setLink k x).fabric = s.fabric := rfl
@[simp] theorem State.setLink_flashJob (s : State) (k : Nat) (x : ArrayLink) : (s.setLink k x).flashJob = s.flashJob := rfl
@[simp] theorem State.setLink_serial (s : State) (k : Nat) (x : ArrayLink) : (s.setLink k x).serial = s.serial := rfl
@[simp] theorem State.setLink_shutter (s : State) (k : Nat) (x : ArrayLink) : (s.setLink k x).shutter = s.shutter := rfl
@[simp] theorem State.setLink_boot (s : State) (k : Nat) (x : ArrayLink) : (s.setLink k x).boot = s.boot := rfl
@[simp] theorem State.setLink_bootActive (s : State) (k : Nat) (x : ArrayLink) : (s.setLink k x).bootActive = s.bootActive := rfl
@[simp] theorem State.setLink_missedTicks (s : State) (k : Nat) (x : ArrayLink) : (s.setLink k x).missedTicks = s.missedTicks := rfl
@[simp] theorem State.setLink_jtag (s : State) (k : Nat) (x : ArrayLink) : (s.setLink k x).jtag = s.jtag := rfl
@[simp] theorem State.setLink_vtOut (s : State) (k : Nat) (x : ArrayLink) : (s.setLink k x).vtOut = s.vtOut := rfl
@[simp] theorem State.setLink_vtIn (s : State) (k : Nat) (x : ArrayLink) : (s.setLink k x).vtIn = s.vtIn := rfl
@[simp] theorem State.setLink_released (s : State) (k : Nat) (x : ArrayLink) : (s.setLink k x).released = s.released := rfl
@[simp] theorem State.setLink_getReg (s : State) (k : Nat) (x : ArrayLink) (a b e : Nat): (s.setLink k x).getReg a b e= s.getReg a b e:= rfl
@[simp] theorem State.setLink_get (s : State) (k : Nat) (x : ArrayLink) (g : Field) (a : Nat): (s.setLink k x).get g a= s.get g a:= rfl
@[simp] theorem State.setLink_flag (s : State) (k : Nat) (x : ArrayLink) (g : Field) (a : Nat): (s.setLink k x).flag g a= s.flag g a:= rfl
@[simp] theorem State.setLink_domain (s : State) (k : Nat) (x : ArrayLink) (a : Nat): (s.setLink k x).domain a= s.domain a:= rfl
@[simp] theorem State.setLink_domainOn (s : State) (k : Nat) (x : ArrayLink) (a : Nat): (s.setLink k x).domainOn a= s.domainOn a:= rfl
@[simp] theorem State.setLink_domainUp (s : State) (k : Nat) (x : ArrayLink) (a : Nat): (s.setLink k x).domainUp a= s.domainUp a:= rfl
@[simp] theorem State.setLink_linkUp (s : State) (k : Nat) (x : ArrayLink) : (s.setLink k x).linkUp = s.linkUp := rfl
@[simp] theorem State.setLink_eng (s : State) (k : Nat) (x : ArrayLink) (a : Nat): (s.setLink k x).eng a= s.eng a:= rfl
@[simp] theorem State.setLink_mem (s : State) (k : Nat) (x : ArrayLink) (a : Nat): (s.setLink k x).mem a= s.mem a:= rfl
@[simp] theorem State.setLink_ctl (s : State) (k : Nat) (x : ArrayLink) (a : Nat): (s.setLink k x).ctl a= s.ctl a:= rfl
@[simp] theorem State.setLink_pane (s : State) (k : Nat) (x : ArrayLink) (a : Nat): (s.setLink k x).pane a= s.pane a:= rfl
@[simp] theorem State.setLink_port (s : State) (k : Nat) (x : ArrayLink) (a : Nat): (s.setLink k x).port a= s.port a:= rfl
@[simp] theorem State.setLink_run (s : State) (k : Nat) (x : ArrayLink) (a : Nat): (s.setLink k x).run a= s.run a:= rfl
@[simp] theorem State.setLink_th (s : State) (k : Nat) (x : ArrayLink) (a : Nat): (s.setLink k x).th a= s.th a:= rfl
@[simp] theorem State.setLink_stile (s : State) (k : Nat) (x : ArrayLink) (a : Nat): (s.setLink k x).stile a= s.stile a:= rfl
@[simp] theorem State.setLink_head (s : State) (k : Nat) (x : ArrayLink) (a : Nat): (s.setLink k x).head a= s.head a:= rfl
@[simp] theorem State.setLink_cam (s : State) (k : Nat) (x : ArrayLink) (a : Nat): (s.setLink k x).cam a= s.cam a:= rfl
@[simp] theorem State.setLink_ddrCh (s : State) (k : Nat) (x : ArrayLink) (a : Nat): (s.setLink k x).ddrCh a= s.ddrCh a:= rfl
@[simp] theorem State.setLink_bank (s : State) (k : Nat) (x : ArrayLink) (a : Nat): (s.setLink k x).bank a= s.bank a:= rfl
@[simp] theorem State.setLink_surf (s : State) (k : Nat) (x : ArrayLink) (a : Nat): (s.setLink k x).surf a= s.surf a:= rfl
@[simp] theorem State.setLink_side (s : State) (k : Nat) (x : ArrayLink) (a : Nat): (s.setLink k x).side a= s.side a:= rfl
theorem State.setLink_at (s : State) (k : Nat) (x : ArrayLink) (j : Nat) : (s.setLink k x).link j = if j = k then x else s.link j := tblGet_set _ _ _ _ _
@[simp] theorem State.setLink_same (s : State) (k : Nat) (x : ArrayLink) : (s.setLink k x).link k = x := tblGet_set_same _ _ _ _
theorem State.setLink_other (s : State) (k : Nat) (x : ArrayLink) (j : Nat) (h : j ≠ k) : (s.setLink k x).link j = s.link j := tblGet_set_other _ _ _ _ _ h

/-! ### setPort -/

@[simp] theorem State.setPort_stiles (s : State) (k : Nat) (x : RowPort) : (s.setPort k x).stiles = s.stiles := rfl
@[simp] theorem State.setPort_trlh (s : State) (k : Nat) (x : RowPort) : (s.setPort k x).trlh = s.trlh := rfl
@[simp] theorem State.setPort_ejected (s : State) (k : Nat) (x : RowPort) : (s.setPort k x).ejected = s.ejected := rfl
@[simp] theorem State.setPort_bridge (s : State) (k : Nat) (x : RowPort) : (s.setPort k x).bridge = s.bridge := rfl
@[simp] theorem State.setPort_trace (s : State) (k : Nat) (x : RowPort) : (s.setPort k x).trace = s.trace := rfl
@[simp] theorem State.setPort_nocNow (s : State) (k : Nat) (x : RowPort) : (s.setPort k x).nocNow = s.nocNow := rfl
@[simp] theorem State.setPort_inbox (s : State) (k : Nat) (x : RowPort) : (s.setPort k x).inbox = s.inbox := rfl
@[simp] theorem State.setPort_pending (s : State) (k : Nat) (x : RowPort) : (s.setPort k x).pending = s.pending := rfl
@[simp] theorem State.setPort_answer (s : State) (k : Nat) (x : RowPort) : (s.setPort k x).answer = s.answer := rfl
@[simp] theorem State.setPort_freeCount (s : State) (k : Nat) (x : RowPort) : (s.setPort k x).freeCount = s.freeCount := rfl
@[simp] theorem State.setPort_regs (s : State) (k : Nat) (x : RowPort) : (s.setPort k x).regs = s.regs := rfl
@[simp] theorem State.setPort_shadows (s : State) (k : Nat) (x : RowPort) : (s.setPort k x).shadows = s.shadows := rfl
@[simp] theorem State.setPort_unlock (s : State) (k : Nat) (x : RowPort) : (s.setPort k x).unlock = s.unlock := rfl
@[simp] theorem State.setPort_reports (s : State) (k : Nat) (x : RowPort) : (s.setPort k x).reports = s.reports := rfl
@[simp] theorem State.setPort_tick (s : State) (k : Nat) (x : RowPort) : (s.setPort k x).tick = s.tick := rfl
@[simp] theorem State.setPort_lintel (s : State) (k : Nat) (x : RowPort) : (s.setPort k x).lintel = s.lintel := rfl
@[simp] theorem State.setPort_linkLosses (s : State) (k : Nat) (x : RowPort) : (s.setPort k x).linkLosses = s.linkLosses := rfl
@[simp] theorem State.setPort_bridgeFresh (s : State) (k : Nat) (x : RowPort) : (s.setPort k x).bridgeFresh = s.bridgeFresh := rfl
@[simp] theorem State.setPort_ddr (s : State) (k : Nat) (x : RowPort) : (s.setPort k x).ddr = s.ddr := rfl
@[simp] theorem State.setPort_pins (s : State) (k : Nat) (x : RowPort) : (s.setPort k x).pins = s.pins := rfl
@[simp] theorem State.setPort_agg (s : State) (k : Nat) (x : RowPort) : (s.setPort k x).agg = s.agg := rfl
@[simp] theorem State.setPort_porter (s : State) (k : Nat) (x : RowPort) : (s.setPort k x).porter = s.porter := rfl
@[simp] theorem State.setPort_gangs (s : State) (k : Nat) (x : RowPort) : (s.setPort k x).gangs = s.gangs := rfl
@[simp] theorem State.setPort_doneTasks (s : State) (k : Nat) (x : RowPort) : (s.setPort k x).doneTasks = s.doneTasks := rfl
@[simp] theorem State.setPort_panes (s : State) (k : Nat) (x : RowPort) : (s.setPort k x).panes = s.panes := rfl
@[simp] theorem State.setPort_pctl (s : State) (k : Nat) (x : RowPort) : (s.setPort k x).pctl = s.pctl := rfl
@[simp] theorem State.setPort_macroFlight (s : State) (k : Nat) (x : RowPort) : (s.setPort k x).macroFlight = s.macroFlight := rfl
@[simp] theorem State.setPort_bistFresh (s : State) (k : Nat) (x : RowPort) : (s.setPort k x).bistFresh = s.bistFresh := rfl
@[simp] theorem State.setPort_pant (s : State) (k : Nat) (x : RowPort) : (s.setPort k x).pant = s.pant := rfl
@[simp] theorem State.setPort_marchDue (s : State) (k : Nat) (x : RowPort) : (s.setPort k x).marchDue = s.marchDue := rfl
@[simp] theorem State.setPort_march (s : State) (k : Nat) (x : RowPort) : (s.setPort k x).march = s.march := rfl
@[simp] theorem State.setPort_arrayLink (s : State) (k : Nat) (x : RowPort) : (s.setPort k x).arrayLink = s.arrayLink := rfl
@[simp] theorem State.setPort_engMem (s : State) (k : Nat) (x : RowPort) : (s.setPort k x).engMem = s.engMem := rfl
@[simp] theorem State.setPort_engines (s : State) (k : Nat) (x : RowPort) : (s.setPort k x).engines = s.engines := rfl
@[simp] theorem State.setPort_heads (s : State) (k : Nat) (x : RowPort) : (s.setPort k x).heads = s.heads := rfl
@[simp] theorem State.setPort_glaz (s : State) (k : Nat) (x : RowPort) : (s.setPort k x).glaz = s.glaz := rfl
@[simp] theorem State.setPort_regionSel (s : State) (k : Nat) (x : RowPort) : (s.setPort k x).regionSel = s.regionSel := rfl
@[simp] theorem State.setPort_cams (s : State) (k : Nat) (x : RowPort) : (s.setPort k x).cams = s.cams := rfl
@[simp] theorem State.setPort_surfaces (s : State) (k : Nat) (x : RowPort) : (s.setPort k x).surfaces = s.surfaces := rfl
@[simp] theorem State.setPort_doorbells (s : State) (k : Nat) (x : RowPort) : (s.setPort k x).doorbells = s.doorbells := rfl
@[simp] theorem State.setPort_sigt (s : State) (k : Nat) (x : RowPort) : (s.setPort k x).sigt = s.sigt := rfl
@[simp] theorem State.setPort_gate (s : State) (k : Nat) (x : RowPort) : (s.setPort k x).gate = s.gate := rfl
@[simp] theorem State.setPort_latch (s : State) (k : Nat) (x : RowPort) : (s.setPort k x).latch = s.latch := rfl
@[simp] theorem State.setPort_hatchOpen (s : State) (k : Nat) (x : RowPort) : (s.setPort k x).hatchOpen = s.hatchOpen := rfl
@[simp] theorem State.setPort_flash (s : State) (k : Nat) (x : RowPort) : (s.setPort k x).flash = s.flash := rfl
@[simp] theorem State.setPort_fabric (s : State) (k : Nat) (x : RowPort) : (s.setPort k x).fabric = s.fabric := rfl
@[simp] theorem State.setPort_flashJob (s : State) (k : Nat) (x : RowPort) : (s.setPort k x).flashJob = s.flashJob := rfl
@[simp] theorem State.setPort_serial (s : State) (k : Nat) (x : RowPort) : (s.setPort k x).serial = s.serial := rfl
@[simp] theorem State.setPort_shutter (s : State) (k : Nat) (x : RowPort) : (s.setPort k x).shutter = s.shutter := rfl
@[simp] theorem State.setPort_boot (s : State) (k : Nat) (x : RowPort) : (s.setPort k x).boot = s.boot := rfl
@[simp] theorem State.setPort_bootActive (s : State) (k : Nat) (x : RowPort) : (s.setPort k x).bootActive = s.bootActive := rfl
@[simp] theorem State.setPort_missedTicks (s : State) (k : Nat) (x : RowPort) : (s.setPort k x).missedTicks = s.missedTicks := rfl
@[simp] theorem State.setPort_jtag (s : State) (k : Nat) (x : RowPort) : (s.setPort k x).jtag = s.jtag := rfl
@[simp] theorem State.setPort_vtOut (s : State) (k : Nat) (x : RowPort) : (s.setPort k x).vtOut = s.vtOut := rfl
@[simp] theorem State.setPort_vtIn (s : State) (k : Nat) (x : RowPort) : (s.setPort k x).vtIn = s.vtIn := rfl
@[simp] theorem State.setPort_released (s : State) (k : Nat) (x : RowPort) : (s.setPort k x).released = s.released := rfl
@[simp] theorem State.setPort_getReg (s : State) (k : Nat) (x : RowPort) (a b e : Nat): (s.setPort k x).getReg a b e= s.getReg a b e:= rfl
@[simp] theorem State.setPort_get (s : State) (k : Nat) (x : RowPort) (g : Field) (a : Nat): (s.setPort k x).get g a= s.get g a:= rfl
@[simp] theorem State.setPort_flag (s : State) (k : Nat) (x : RowPort) (g : Field) (a : Nat): (s.setPort k x).flag g a= s.flag g a:= rfl
@[simp] theorem State.setPort_domain (s : State) (k : Nat) (x : RowPort) (a : Nat): (s.setPort k x).domain a= s.domain a:= rfl
@[simp] theorem State.setPort_domainOn (s : State) (k : Nat) (x : RowPort) (a : Nat): (s.setPort k x).domainOn a= s.domainOn a:= rfl
@[simp] theorem State.setPort_domainUp (s : State) (k : Nat) (x : RowPort) (a : Nat): (s.setPort k x).domainUp a= s.domainUp a:= rfl
@[simp] theorem State.setPort_linkUp (s : State) (k : Nat) (x : RowPort) : (s.setPort k x).linkUp = s.linkUp := rfl
@[simp] theorem State.setPort_eng (s : State) (k : Nat) (x : RowPort) (a : Nat): (s.setPort k x).eng a= s.eng a:= rfl
@[simp] theorem State.setPort_mem (s : State) (k : Nat) (x : RowPort) (a : Nat): (s.setPort k x).mem a= s.mem a:= rfl
@[simp] theorem State.setPort_ctl (s : State) (k : Nat) (x : RowPort) (a : Nat): (s.setPort k x).ctl a= s.ctl a:= rfl
@[simp] theorem State.setPort_pane (s : State) (k : Nat) (x : RowPort) (a : Nat): (s.setPort k x).pane a= s.pane a:= rfl
@[simp] theorem State.setPort_link (s : State) (k : Nat) (x : RowPort) (a : Nat): (s.setPort k x).link a= s.link a:= rfl
@[simp] theorem State.setPort_run (s : State) (k : Nat) (x : RowPort) (a : Nat): (s.setPort k x).run a= s.run a:= rfl
@[simp] theorem State.setPort_th (s : State) (k : Nat) (x : RowPort) (a : Nat): (s.setPort k x).th a= s.th a:= rfl
@[simp] theorem State.setPort_stile (s : State) (k : Nat) (x : RowPort) (a : Nat): (s.setPort k x).stile a= s.stile a:= rfl
@[simp] theorem State.setPort_head (s : State) (k : Nat) (x : RowPort) (a : Nat): (s.setPort k x).head a= s.head a:= rfl
@[simp] theorem State.setPort_cam (s : State) (k : Nat) (x : RowPort) (a : Nat): (s.setPort k x).cam a= s.cam a:= rfl
@[simp] theorem State.setPort_ddrCh (s : State) (k : Nat) (x : RowPort) (a : Nat): (s.setPort k x).ddrCh a= s.ddrCh a:= rfl
@[simp] theorem State.setPort_bank (s : State) (k : Nat) (x : RowPort) (a : Nat): (s.setPort k x).bank a= s.bank a:= rfl
@[simp] theorem State.setPort_surf (s : State) (k : Nat) (x : RowPort) (a : Nat): (s.setPort k x).surf a= s.surf a:= rfl
@[simp] theorem State.setPort_side (s : State) (k : Nat) (x : RowPort) (a : Nat): (s.setPort k x).side a= s.side a:= rfl
theorem State.setPort_at (s : State) (k : Nat) (x : RowPort) (j : Nat) : (s.setPort k x).port j = if j = k then x else s.port j := tblGet_set _ _ _ _ _
@[simp] theorem State.setPort_same (s : State) (k : Nat) (x : RowPort) : (s.setPort k x).port k = x := tblGet_set_same _ _ _ _
theorem State.setPort_other (s : State) (k : Nat) (x : RowPort) (j : Nat) (h : j ≠ k) : (s.setPort k x).port j = s.port j := tblGet_set_other _ _ _ _ _ h

/-! ### setRun -/

@[simp] theorem State.setRun_stiles (s : State) (k : Nat) (x : GangRun) : (s.setRun k x).stiles = s.stiles := rfl
@[simp] theorem State.setRun_trlh (s : State) (k : Nat) (x : GangRun) : (s.setRun k x).trlh = s.trlh := rfl
@[simp] theorem State.setRun_ejected (s : State) (k : Nat) (x : GangRun) : (s.setRun k x).ejected = s.ejected := rfl
@[simp] theorem State.setRun_bridge (s : State) (k : Nat) (x : GangRun) : (s.setRun k x).bridge = s.bridge := rfl
@[simp] theorem State.setRun_trace (s : State) (k : Nat) (x : GangRun) : (s.setRun k x).trace = s.trace := rfl
@[simp] theorem State.setRun_nocNow (s : State) (k : Nat) (x : GangRun) : (s.setRun k x).nocNow = s.nocNow := rfl
@[simp] theorem State.setRun_inbox (s : State) (k : Nat) (x : GangRun) : (s.setRun k x).inbox = s.inbox := rfl
@[simp] theorem State.setRun_pending (s : State) (k : Nat) (x : GangRun) : (s.setRun k x).pending = s.pending := rfl
@[simp] theorem State.setRun_answer (s : State) (k : Nat) (x : GangRun) : (s.setRun k x).answer = s.answer := rfl
@[simp] theorem State.setRun_freeCount (s : State) (k : Nat) (x : GangRun) : (s.setRun k x).freeCount = s.freeCount := rfl
@[simp] theorem State.setRun_regs (s : State) (k : Nat) (x : GangRun) : (s.setRun k x).regs = s.regs := rfl
@[simp] theorem State.setRun_shadows (s : State) (k : Nat) (x : GangRun) : (s.setRun k x).shadows = s.shadows := rfl
@[simp] theorem State.setRun_unlock (s : State) (k : Nat) (x : GangRun) : (s.setRun k x).unlock = s.unlock := rfl
@[simp] theorem State.setRun_reports (s : State) (k : Nat) (x : GangRun) : (s.setRun k x).reports = s.reports := rfl
@[simp] theorem State.setRun_tick (s : State) (k : Nat) (x : GangRun) : (s.setRun k x).tick = s.tick := rfl
@[simp] theorem State.setRun_lintel (s : State) (k : Nat) (x : GangRun) : (s.setRun k x).lintel = s.lintel := rfl
@[simp] theorem State.setRun_linkLosses (s : State) (k : Nat) (x : GangRun) : (s.setRun k x).linkLosses = s.linkLosses := rfl
@[simp] theorem State.setRun_bridgeFresh (s : State) (k : Nat) (x : GangRun) : (s.setRun k x).bridgeFresh = s.bridgeFresh := rfl
@[simp] theorem State.setRun_ddr (s : State) (k : Nat) (x : GangRun) : (s.setRun k x).ddr = s.ddr := rfl
@[simp] theorem State.setRun_pins (s : State) (k : Nat) (x : GangRun) : (s.setRun k x).pins = s.pins := rfl
@[simp] theorem State.setRun_agg (s : State) (k : Nat) (x : GangRun) : (s.setRun k x).agg = s.agg := rfl
@[simp] theorem State.setRun_porter (s : State) (k : Nat) (x : GangRun) : (s.setRun k x).porter = s.porter := rfl
@[simp] theorem State.setRun_doneTasks (s : State) (k : Nat) (x : GangRun) : (s.setRun k x).doneTasks = s.doneTasks := rfl
@[simp] theorem State.setRun_panes (s : State) (k : Nat) (x : GangRun) : (s.setRun k x).panes = s.panes := rfl
@[simp] theorem State.setRun_pctl (s : State) (k : Nat) (x : GangRun) : (s.setRun k x).pctl = s.pctl := rfl
@[simp] theorem State.setRun_rowPorts (s : State) (k : Nat) (x : GangRun) : (s.setRun k x).rowPorts = s.rowPorts := rfl
@[simp] theorem State.setRun_macroFlight (s : State) (k : Nat) (x : GangRun) : (s.setRun k x).macroFlight = s.macroFlight := rfl
@[simp] theorem State.setRun_bistFresh (s : State) (k : Nat) (x : GangRun) : (s.setRun k x).bistFresh = s.bistFresh := rfl
@[simp] theorem State.setRun_pant (s : State) (k : Nat) (x : GangRun) : (s.setRun k x).pant = s.pant := rfl
@[simp] theorem State.setRun_marchDue (s : State) (k : Nat) (x : GangRun) : (s.setRun k x).marchDue = s.marchDue := rfl
@[simp] theorem State.setRun_march (s : State) (k : Nat) (x : GangRun) : (s.setRun k x).march = s.march := rfl
@[simp] theorem State.setRun_arrayLink (s : State) (k : Nat) (x : GangRun) : (s.setRun k x).arrayLink = s.arrayLink := rfl
@[simp] theorem State.setRun_engMem (s : State) (k : Nat) (x : GangRun) : (s.setRun k x).engMem = s.engMem := rfl
@[simp] theorem State.setRun_engines (s : State) (k : Nat) (x : GangRun) : (s.setRun k x).engines = s.engines := rfl
@[simp] theorem State.setRun_heads (s : State) (k : Nat) (x : GangRun) : (s.setRun k x).heads = s.heads := rfl
@[simp] theorem State.setRun_glaz (s : State) (k : Nat) (x : GangRun) : (s.setRun k x).glaz = s.glaz := rfl
@[simp] theorem State.setRun_regionSel (s : State) (k : Nat) (x : GangRun) : (s.setRun k x).regionSel = s.regionSel := rfl
@[simp] theorem State.setRun_cams (s : State) (k : Nat) (x : GangRun) : (s.setRun k x).cams = s.cams := rfl
@[simp] theorem State.setRun_surfaces (s : State) (k : Nat) (x : GangRun) : (s.setRun k x).surfaces = s.surfaces := rfl
@[simp] theorem State.setRun_doorbells (s : State) (k : Nat) (x : GangRun) : (s.setRun k x).doorbells = s.doorbells := rfl
@[simp] theorem State.setRun_sigt (s : State) (k : Nat) (x : GangRun) : (s.setRun k x).sigt = s.sigt := rfl
@[simp] theorem State.setRun_gate (s : State) (k : Nat) (x : GangRun) : (s.setRun k x).gate = s.gate := rfl
@[simp] theorem State.setRun_latch (s : State) (k : Nat) (x : GangRun) : (s.setRun k x).latch = s.latch := rfl
@[simp] theorem State.setRun_hatchOpen (s : State) (k : Nat) (x : GangRun) : (s.setRun k x).hatchOpen = s.hatchOpen := rfl
@[simp] theorem State.setRun_flash (s : State) (k : Nat) (x : GangRun) : (s.setRun k x).flash = s.flash := rfl
@[simp] theorem State.setRun_fabric (s : State) (k : Nat) (x : GangRun) : (s.setRun k x).fabric = s.fabric := rfl
@[simp] theorem State.setRun_flashJob (s : State) (k : Nat) (x : GangRun) : (s.setRun k x).flashJob = s.flashJob := rfl
@[simp] theorem State.setRun_serial (s : State) (k : Nat) (x : GangRun) : (s.setRun k x).serial = s.serial := rfl
@[simp] theorem State.setRun_shutter (s : State) (k : Nat) (x : GangRun) : (s.setRun k x).shutter = s.shutter := rfl
@[simp] theorem State.setRun_boot (s : State) (k : Nat) (x : GangRun) : (s.setRun k x).boot = s.boot := rfl
@[simp] theorem State.setRun_bootActive (s : State) (k : Nat) (x : GangRun) : (s.setRun k x).bootActive = s.bootActive := rfl
@[simp] theorem State.setRun_missedTicks (s : State) (k : Nat) (x : GangRun) : (s.setRun k x).missedTicks = s.missedTicks := rfl
@[simp] theorem State.setRun_jtag (s : State) (k : Nat) (x : GangRun) : (s.setRun k x).jtag = s.jtag := rfl
@[simp] theorem State.setRun_vtOut (s : State) (k : Nat) (x : GangRun) : (s.setRun k x).vtOut = s.vtOut := rfl
@[simp] theorem State.setRun_vtIn (s : State) (k : Nat) (x : GangRun) : (s.setRun k x).vtIn = s.vtIn := rfl
@[simp] theorem State.setRun_released (s : State) (k : Nat) (x : GangRun) : (s.setRun k x).released = s.released := rfl
@[simp] theorem State.setRun_getReg (s : State) (k : Nat) (x : GangRun) (a b e : Nat): (s.setRun k x).getReg a b e= s.getReg a b e:= rfl
@[simp] theorem State.setRun_get (s : State) (k : Nat) (x : GangRun) (g : Field) (a : Nat): (s.setRun k x).get g a= s.get g a:= rfl
@[simp] theorem State.setRun_flag (s : State) (k : Nat) (x : GangRun) (g : Field) (a : Nat): (s.setRun k x).flag g a= s.flag g a:= rfl
@[simp] theorem State.setRun_domain (s : State) (k : Nat) (x : GangRun) (a : Nat): (s.setRun k x).domain a= s.domain a:= rfl
@[simp] theorem State.setRun_domainOn (s : State) (k : Nat) (x : GangRun) (a : Nat): (s.setRun k x).domainOn a= s.domainOn a:= rfl
@[simp] theorem State.setRun_domainUp (s : State) (k : Nat) (x : GangRun) (a : Nat): (s.setRun k x).domainUp a= s.domainUp a:= rfl
@[simp] theorem State.setRun_linkUp (s : State) (k : Nat) (x : GangRun) : (s.setRun k x).linkUp = s.linkUp := rfl
@[simp] theorem State.setRun_eng (s : State) (k : Nat) (x : GangRun) (a : Nat): (s.setRun k x).eng a= s.eng a:= rfl
@[simp] theorem State.setRun_mem (s : State) (k : Nat) (x : GangRun) (a : Nat): (s.setRun k x).mem a= s.mem a:= rfl
@[simp] theorem State.setRun_ctl (s : State) (k : Nat) (x : GangRun) (a : Nat): (s.setRun k x).ctl a= s.ctl a:= rfl
@[simp] theorem State.setRun_pane (s : State) (k : Nat) (x : GangRun) (a : Nat): (s.setRun k x).pane a= s.pane a:= rfl
@[simp] theorem State.setRun_link (s : State) (k : Nat) (x : GangRun) (a : Nat): (s.setRun k x).link a= s.link a:= rfl
@[simp] theorem State.setRun_port (s : State) (k : Nat) (x : GangRun) (a : Nat): (s.setRun k x).port a= s.port a:= rfl
@[simp] theorem State.setRun_th (s : State) (k : Nat) (x : GangRun) (a : Nat): (s.setRun k x).th a= s.th a:= rfl
@[simp] theorem State.setRun_stile (s : State) (k : Nat) (x : GangRun) (a : Nat): (s.setRun k x).stile a= s.stile a:= rfl
@[simp] theorem State.setRun_head (s : State) (k : Nat) (x : GangRun) (a : Nat): (s.setRun k x).head a= s.head a:= rfl
@[simp] theorem State.setRun_cam (s : State) (k : Nat) (x : GangRun) (a : Nat): (s.setRun k x).cam a= s.cam a:= rfl
@[simp] theorem State.setRun_ddrCh (s : State) (k : Nat) (x : GangRun) (a : Nat): (s.setRun k x).ddrCh a= s.ddrCh a:= rfl
@[simp] theorem State.setRun_bank (s : State) (k : Nat) (x : GangRun) (a : Nat): (s.setRun k x).bank a= s.bank a:= rfl
@[simp] theorem State.setRun_surf (s : State) (k : Nat) (x : GangRun) (a : Nat): (s.setRun k x).surf a= s.surf a:= rfl
@[simp] theorem State.setRun_side (s : State) (k : Nat) (x : GangRun) (a : Nat): (s.setRun k x).side a= s.side a:= rfl
theorem State.setRun_at (s : State) (k : Nat) (x : GangRun) (j : Nat) : (s.setRun k x).run j = if j = k then x else s.run j := tblGet_set _ _ _ _ _
@[simp] theorem State.setRun_same (s : State) (k : Nat) (x : GangRun) : (s.setRun k x).run k = x := tblGet_set_same _ _ _ _
theorem State.setRun_other (s : State) (k : Nat) (x : GangRun) (j : Nat) (h : j ≠ k) : (s.setRun k x).run j = s.run j := tblGet_set_other _ _ _ _ _ h

/-! ### setSurf -/

@[simp] theorem State.setSurf_stiles (s : State) (k : Nat) (x : Surface) : (s.setSurf k x).stiles = s.stiles := rfl
@[simp] theorem State.setSurf_trlh (s : State) (k : Nat) (x : Surface) : (s.setSurf k x).trlh = s.trlh := rfl
@[simp] theorem State.setSurf_ejected (s : State) (k : Nat) (x : Surface) : (s.setSurf k x).ejected = s.ejected := rfl
@[simp] theorem State.setSurf_bridge (s : State) (k : Nat) (x : Surface) : (s.setSurf k x).bridge = s.bridge := rfl
@[simp] theorem State.setSurf_trace (s : State) (k : Nat) (x : Surface) : (s.setSurf k x).trace = s.trace := rfl
@[simp] theorem State.setSurf_nocNow (s : State) (k : Nat) (x : Surface) : (s.setSurf k x).nocNow = s.nocNow := rfl
@[simp] theorem State.setSurf_inbox (s : State) (k : Nat) (x : Surface) : (s.setSurf k x).inbox = s.inbox := rfl
@[simp] theorem State.setSurf_pending (s : State) (k : Nat) (x : Surface) : (s.setSurf k x).pending = s.pending := rfl
@[simp] theorem State.setSurf_answer (s : State) (k : Nat) (x : Surface) : (s.setSurf k x).answer = s.answer := rfl
@[simp] theorem State.setSurf_freeCount (s : State) (k : Nat) (x : Surface) : (s.setSurf k x).freeCount = s.freeCount := rfl
@[simp] theorem State.setSurf_regs (s : State) (k : Nat) (x : Surface) : (s.setSurf k x).regs = s.regs := rfl
@[simp] theorem State.setSurf_shadows (s : State) (k : Nat) (x : Surface) : (s.setSurf k x).shadows = s.shadows := rfl
@[simp] theorem State.setSurf_unlock (s : State) (k : Nat) (x : Surface) : (s.setSurf k x).unlock = s.unlock := rfl
@[simp] theorem State.setSurf_reports (s : State) (k : Nat) (x : Surface) : (s.setSurf k x).reports = s.reports := rfl
@[simp] theorem State.setSurf_tick (s : State) (k : Nat) (x : Surface) : (s.setSurf k x).tick = s.tick := rfl
@[simp] theorem State.setSurf_lintel (s : State) (k : Nat) (x : Surface) : (s.setSurf k x).lintel = s.lintel := rfl
@[simp] theorem State.setSurf_linkLosses (s : State) (k : Nat) (x : Surface) : (s.setSurf k x).linkLosses = s.linkLosses := rfl
@[simp] theorem State.setSurf_bridgeFresh (s : State) (k : Nat) (x : Surface) : (s.setSurf k x).bridgeFresh = s.bridgeFresh := rfl
@[simp] theorem State.setSurf_ddr (s : State) (k : Nat) (x : Surface) : (s.setSurf k x).ddr = s.ddr := rfl
@[simp] theorem State.setSurf_pins (s : State) (k : Nat) (x : Surface) : (s.setSurf k x).pins = s.pins := rfl
@[simp] theorem State.setSurf_agg (s : State) (k : Nat) (x : Surface) : (s.setSurf k x).agg = s.agg := rfl
@[simp] theorem State.setSurf_porter (s : State) (k : Nat) (x : Surface) : (s.setSurf k x).porter = s.porter := rfl
@[simp] theorem State.setSurf_gangs (s : State) (k : Nat) (x : Surface) : (s.setSurf k x).gangs = s.gangs := rfl
@[simp] theorem State.setSurf_doneTasks (s : State) (k : Nat) (x : Surface) : (s.setSurf k x).doneTasks = s.doneTasks := rfl
@[simp] theorem State.setSurf_panes (s : State) (k : Nat) (x : Surface) : (s.setSurf k x).panes = s.panes := rfl
@[simp] theorem State.setSurf_pctl (s : State) (k : Nat) (x : Surface) : (s.setSurf k x).pctl = s.pctl := rfl
@[simp] theorem State.setSurf_rowPorts (s : State) (k : Nat) (x : Surface) : (s.setSurf k x).rowPorts = s.rowPorts := rfl
@[simp] theorem State.setSurf_macroFlight (s : State) (k : Nat) (x : Surface) : (s.setSurf k x).macroFlight = s.macroFlight := rfl
@[simp] theorem State.setSurf_bistFresh (s : State) (k : Nat) (x : Surface) : (s.setSurf k x).bistFresh = s.bistFresh := rfl
@[simp] theorem State.setSurf_pant (s : State) (k : Nat) (x : Surface) : (s.setSurf k x).pant = s.pant := rfl
@[simp] theorem State.setSurf_marchDue (s : State) (k : Nat) (x : Surface) : (s.setSurf k x).marchDue = s.marchDue := rfl
@[simp] theorem State.setSurf_march (s : State) (k : Nat) (x : Surface) : (s.setSurf k x).march = s.march := rfl
@[simp] theorem State.setSurf_arrayLink (s : State) (k : Nat) (x : Surface) : (s.setSurf k x).arrayLink = s.arrayLink := rfl
@[simp] theorem State.setSurf_engMem (s : State) (k : Nat) (x : Surface) : (s.setSurf k x).engMem = s.engMem := rfl
@[simp] theorem State.setSurf_engines (s : State) (k : Nat) (x : Surface) : (s.setSurf k x).engines = s.engines := rfl
@[simp] theorem State.setSurf_heads (s : State) (k : Nat) (x : Surface) : (s.setSurf k x).heads = s.heads := rfl
@[simp] theorem State.setSurf_glaz (s : State) (k : Nat) (x : Surface) : (s.setSurf k x).glaz = s.glaz := rfl
@[simp] theorem State.setSurf_regionSel (s : State) (k : Nat) (x : Surface) : (s.setSurf k x).regionSel = s.regionSel := rfl
@[simp] theorem State.setSurf_cams (s : State) (k : Nat) (x : Surface) : (s.setSurf k x).cams = s.cams := rfl
@[simp] theorem State.setSurf_doorbells (s : State) (k : Nat) (x : Surface) : (s.setSurf k x).doorbells = s.doorbells := rfl
@[simp] theorem State.setSurf_sigt (s : State) (k : Nat) (x : Surface) : (s.setSurf k x).sigt = s.sigt := rfl
@[simp] theorem State.setSurf_gate (s : State) (k : Nat) (x : Surface) : (s.setSurf k x).gate = s.gate := rfl
@[simp] theorem State.setSurf_latch (s : State) (k : Nat) (x : Surface) : (s.setSurf k x).latch = s.latch := rfl
@[simp] theorem State.setSurf_hatchOpen (s : State) (k : Nat) (x : Surface) : (s.setSurf k x).hatchOpen = s.hatchOpen := rfl
@[simp] theorem State.setSurf_flash (s : State) (k : Nat) (x : Surface) : (s.setSurf k x).flash = s.flash := rfl
@[simp] theorem State.setSurf_fabric (s : State) (k : Nat) (x : Surface) : (s.setSurf k x).fabric = s.fabric := rfl
@[simp] theorem State.setSurf_flashJob (s : State) (k : Nat) (x : Surface) : (s.setSurf k x).flashJob = s.flashJob := rfl
@[simp] theorem State.setSurf_serial (s : State) (k : Nat) (x : Surface) : (s.setSurf k x).serial = s.serial := rfl
@[simp] theorem State.setSurf_shutter (s : State) (k : Nat) (x : Surface) : (s.setSurf k x).shutter = s.shutter := rfl
@[simp] theorem State.setSurf_boot (s : State) (k : Nat) (x : Surface) : (s.setSurf k x).boot = s.boot := rfl
@[simp] theorem State.setSurf_bootActive (s : State) (k : Nat) (x : Surface) : (s.setSurf k x).bootActive = s.bootActive := rfl
@[simp] theorem State.setSurf_missedTicks (s : State) (k : Nat) (x : Surface) : (s.setSurf k x).missedTicks = s.missedTicks := rfl
@[simp] theorem State.setSurf_jtag (s : State) (k : Nat) (x : Surface) : (s.setSurf k x).jtag = s.jtag := rfl
@[simp] theorem State.setSurf_vtOut (s : State) (k : Nat) (x : Surface) : (s.setSurf k x).vtOut = s.vtOut := rfl
@[simp] theorem State.setSurf_vtIn (s : State) (k : Nat) (x : Surface) : (s.setSurf k x).vtIn = s.vtIn := rfl
@[simp] theorem State.setSurf_released (s : State) (k : Nat) (x : Surface) : (s.setSurf k x).released = s.released := rfl
@[simp] theorem State.setSurf_getReg (s : State) (k : Nat) (x : Surface) (a b e : Nat): (s.setSurf k x).getReg a b e= s.getReg a b e:= rfl
@[simp] theorem State.setSurf_get (s : State) (k : Nat) (x : Surface) (g : Field) (a : Nat): (s.setSurf k x).get g a= s.get g a:= rfl
@[simp] theorem State.setSurf_flag (s : State) (k : Nat) (x : Surface) (g : Field) (a : Nat): (s.setSurf k x).flag g a= s.flag g a:= rfl
@[simp] theorem State.setSurf_domain (s : State) (k : Nat) (x : Surface) (a : Nat): (s.setSurf k x).domain a= s.domain a:= rfl
@[simp] theorem State.setSurf_domainOn (s : State) (k : Nat) (x : Surface) (a : Nat): (s.setSurf k x).domainOn a= s.domainOn a:= rfl
@[simp] theorem State.setSurf_domainUp (s : State) (k : Nat) (x : Surface) (a : Nat): (s.setSurf k x).domainUp a= s.domainUp a:= rfl
@[simp] theorem State.setSurf_linkUp (s : State) (k : Nat) (x : Surface) : (s.setSurf k x).linkUp = s.linkUp := rfl
@[simp] theorem State.setSurf_eng (s : State) (k : Nat) (x : Surface) (a : Nat): (s.setSurf k x).eng a= s.eng a:= rfl
@[simp] theorem State.setSurf_mem (s : State) (k : Nat) (x : Surface) (a : Nat): (s.setSurf k x).mem a= s.mem a:= rfl
@[simp] theorem State.setSurf_ctl (s : State) (k : Nat) (x : Surface) (a : Nat): (s.setSurf k x).ctl a= s.ctl a:= rfl
@[simp] theorem State.setSurf_pane (s : State) (k : Nat) (x : Surface) (a : Nat): (s.setSurf k x).pane a= s.pane a:= rfl
@[simp] theorem State.setSurf_link (s : State) (k : Nat) (x : Surface) (a : Nat): (s.setSurf k x).link a= s.link a:= rfl
@[simp] theorem State.setSurf_port (s : State) (k : Nat) (x : Surface) (a : Nat): (s.setSurf k x).port a= s.port a:= rfl
@[simp] theorem State.setSurf_run (s : State) (k : Nat) (x : Surface) (a : Nat): (s.setSurf k x).run a= s.run a:= rfl
@[simp] theorem State.setSurf_th (s : State) (k : Nat) (x : Surface) (a : Nat): (s.setSurf k x).th a= s.th a:= rfl
@[simp] theorem State.setSurf_stile (s : State) (k : Nat) (x : Surface) (a : Nat): (s.setSurf k x).stile a= s.stile a:= rfl
@[simp] theorem State.setSurf_head (s : State) (k : Nat) (x : Surface) (a : Nat): (s.setSurf k x).head a= s.head a:= rfl
@[simp] theorem State.setSurf_cam (s : State) (k : Nat) (x : Surface) (a : Nat): (s.setSurf k x).cam a= s.cam a:= rfl
@[simp] theorem State.setSurf_ddrCh (s : State) (k : Nat) (x : Surface) (a : Nat): (s.setSurf k x).ddrCh a= s.ddrCh a:= rfl
@[simp] theorem State.setSurf_bank (s : State) (k : Nat) (x : Surface) (a : Nat): (s.setSurf k x).bank a= s.bank a:= rfl
@[simp] theorem State.setSurf_side (s : State) (k : Nat) (x : Surface) (a : Nat): (s.setSurf k x).side a= s.side a:= rfl
theorem State.setSurf_at (s : State) (k : Nat) (x : Surface) (j : Nat) : (s.setSurf k x).surf j = if j = k then x else s.surf j := tblGet_set _ _ _ _ _
@[simp] theorem State.setSurf_same (s : State) (k : Nat) (x : Surface) : (s.setSurf k x).surf k = x := tblGet_set_same _ _ _ _
theorem State.setSurf_other (s : State) (k : Nat) (x : Surface) (j : Nat) (h : j ≠ k) : (s.setSurf k x).surf j = s.surf j := tblGet_set_other _ _ _ _ _ h

/-! ### setSide -/

@[simp] theorem State.setSide_stiles (s : State) (k : Nat) (x : LintelSide) : (s.setSide k x).stiles = s.stiles := rfl
@[simp] theorem State.setSide_trlh (s : State) (k : Nat) (x : LintelSide) : (s.setSide k x).trlh = s.trlh := rfl
@[simp] theorem State.setSide_ejected (s : State) (k : Nat) (x : LintelSide) : (s.setSide k x).ejected = s.ejected := rfl
@[simp] theorem State.setSide_bridge (s : State) (k : Nat) (x : LintelSide) : (s.setSide k x).bridge = s.bridge := rfl
@[simp] theorem State.setSide_trace (s : State) (k : Nat) (x : LintelSide) : (s.setSide k x).trace = s.trace := rfl
@[simp] theorem State.setSide_nocNow (s : State) (k : Nat) (x : LintelSide) : (s.setSide k x).nocNow = s.nocNow := rfl
@[simp] theorem State.setSide_inbox (s : State) (k : Nat) (x : LintelSide) : (s.setSide k x).inbox = s.inbox := rfl
@[simp] theorem State.setSide_pending (s : State) (k : Nat) (x : LintelSide) : (s.setSide k x).pending = s.pending := rfl
@[simp] theorem State.setSide_answer (s : State) (k : Nat) (x : LintelSide) : (s.setSide k x).answer = s.answer := rfl
@[simp] theorem State.setSide_freeCount (s : State) (k : Nat) (x : LintelSide) : (s.setSide k x).freeCount = s.freeCount := rfl
@[simp] theorem State.setSide_regs (s : State) (k : Nat) (x : LintelSide) : (s.setSide k x).regs = s.regs := rfl
@[simp] theorem State.setSide_shadows (s : State) (k : Nat) (x : LintelSide) : (s.setSide k x).shadows = s.shadows := rfl
@[simp] theorem State.setSide_unlock (s : State) (k : Nat) (x : LintelSide) : (s.setSide k x).unlock = s.unlock := rfl
@[simp] theorem State.setSide_reports (s : State) (k : Nat) (x : LintelSide) : (s.setSide k x).reports = s.reports := rfl
@[simp] theorem State.setSide_tick (s : State) (k : Nat) (x : LintelSide) : (s.setSide k x).tick = s.tick := rfl
@[simp] theorem State.setSide_linkLosses (s : State) (k : Nat) (x : LintelSide) : (s.setSide k x).linkLosses = s.linkLosses := rfl
@[simp] theorem State.setSide_bridgeFresh (s : State) (k : Nat) (x : LintelSide) : (s.setSide k x).bridgeFresh = s.bridgeFresh := rfl
@[simp] theorem State.setSide_ddr (s : State) (k : Nat) (x : LintelSide) : (s.setSide k x).ddr = s.ddr := rfl
@[simp] theorem State.setSide_pins (s : State) (k : Nat) (x : LintelSide) : (s.setSide k x).pins = s.pins := rfl
@[simp] theorem State.setSide_agg (s : State) (k : Nat) (x : LintelSide) : (s.setSide k x).agg = s.agg := rfl
@[simp] theorem State.setSide_porter (s : State) (k : Nat) (x : LintelSide) : (s.setSide k x).porter = s.porter := rfl
@[simp] theorem State.setSide_gangs (s : State) (k : Nat) (x : LintelSide) : (s.setSide k x).gangs = s.gangs := rfl
@[simp] theorem State.setSide_doneTasks (s : State) (k : Nat) (x : LintelSide) : (s.setSide k x).doneTasks = s.doneTasks := rfl
@[simp] theorem State.setSide_panes (s : State) (k : Nat) (x : LintelSide) : (s.setSide k x).panes = s.panes := rfl
@[simp] theorem State.setSide_pctl (s : State) (k : Nat) (x : LintelSide) : (s.setSide k x).pctl = s.pctl := rfl
@[simp] theorem State.setSide_rowPorts (s : State) (k : Nat) (x : LintelSide) : (s.setSide k x).rowPorts = s.rowPorts := rfl
@[simp] theorem State.setSide_macroFlight (s : State) (k : Nat) (x : LintelSide) : (s.setSide k x).macroFlight = s.macroFlight := rfl
@[simp] theorem State.setSide_bistFresh (s : State) (k : Nat) (x : LintelSide) : (s.setSide k x).bistFresh = s.bistFresh := rfl
@[simp] theorem State.setSide_pant (s : State) (k : Nat) (x : LintelSide) : (s.setSide k x).pant = s.pant := rfl
@[simp] theorem State.setSide_marchDue (s : State) (k : Nat) (x : LintelSide) : (s.setSide k x).marchDue = s.marchDue := rfl
@[simp] theorem State.setSide_march (s : State) (k : Nat) (x : LintelSide) : (s.setSide k x).march = s.march := rfl
@[simp] theorem State.setSide_arrayLink (s : State) (k : Nat) (x : LintelSide) : (s.setSide k x).arrayLink = s.arrayLink := rfl
@[simp] theorem State.setSide_engMem (s : State) (k : Nat) (x : LintelSide) : (s.setSide k x).engMem = s.engMem := rfl
@[simp] theorem State.setSide_engines (s : State) (k : Nat) (x : LintelSide) : (s.setSide k x).engines = s.engines := rfl
@[simp] theorem State.setSide_heads (s : State) (k : Nat) (x : LintelSide) : (s.setSide k x).heads = s.heads := rfl
@[simp] theorem State.setSide_glaz (s : State) (k : Nat) (x : LintelSide) : (s.setSide k x).glaz = s.glaz := rfl
@[simp] theorem State.setSide_regionSel (s : State) (k : Nat) (x : LintelSide) : (s.setSide k x).regionSel = s.regionSel := rfl
@[simp] theorem State.setSide_cams (s : State) (k : Nat) (x : LintelSide) : (s.setSide k x).cams = s.cams := rfl
@[simp] theorem State.setSide_surfaces (s : State) (k : Nat) (x : LintelSide) : (s.setSide k x).surfaces = s.surfaces := rfl
@[simp] theorem State.setSide_doorbells (s : State) (k : Nat) (x : LintelSide) : (s.setSide k x).doorbells = s.doorbells := rfl
@[simp] theorem State.setSide_sigt (s : State) (k : Nat) (x : LintelSide) : (s.setSide k x).sigt = s.sigt := rfl
@[simp] theorem State.setSide_gate (s : State) (k : Nat) (x : LintelSide) : (s.setSide k x).gate = s.gate := rfl
@[simp] theorem State.setSide_latch (s : State) (k : Nat) (x : LintelSide) : (s.setSide k x).latch = s.latch := rfl
@[simp] theorem State.setSide_hatchOpen (s : State) (k : Nat) (x : LintelSide) : (s.setSide k x).hatchOpen = s.hatchOpen := rfl
@[simp] theorem State.setSide_flash (s : State) (k : Nat) (x : LintelSide) : (s.setSide k x).flash = s.flash := rfl
@[simp] theorem State.setSide_fabric (s : State) (k : Nat) (x : LintelSide) : (s.setSide k x).fabric = s.fabric := rfl
@[simp] theorem State.setSide_flashJob (s : State) (k : Nat) (x : LintelSide) : (s.setSide k x).flashJob = s.flashJob := rfl
@[simp] theorem State.setSide_serial (s : State) (k : Nat) (x : LintelSide) : (s.setSide k x).serial = s.serial := rfl
@[simp] theorem State.setSide_shutter (s : State) (k : Nat) (x : LintelSide) : (s.setSide k x).shutter = s.shutter := rfl
@[simp] theorem State.setSide_boot (s : State) (k : Nat) (x : LintelSide) : (s.setSide k x).boot = s.boot := rfl
@[simp] theorem State.setSide_bootActive (s : State) (k : Nat) (x : LintelSide) : (s.setSide k x).bootActive = s.bootActive := rfl
@[simp] theorem State.setSide_missedTicks (s : State) (k : Nat) (x : LintelSide) : (s.setSide k x).missedTicks = s.missedTicks := rfl
@[simp] theorem State.setSide_jtag (s : State) (k : Nat) (x : LintelSide) : (s.setSide k x).jtag = s.jtag := rfl
@[simp] theorem State.setSide_vtOut (s : State) (k : Nat) (x : LintelSide) : (s.setSide k x).vtOut = s.vtOut := rfl
@[simp] theorem State.setSide_vtIn (s : State) (k : Nat) (x : LintelSide) : (s.setSide k x).vtIn = s.vtIn := rfl
@[simp] theorem State.setSide_released (s : State) (k : Nat) (x : LintelSide) : (s.setSide k x).released = s.released := rfl
@[simp] theorem State.setSide_getReg (s : State) (k : Nat) (x : LintelSide) (a b e : Nat): (s.setSide k x).getReg a b e= s.getReg a b e:= rfl
@[simp] theorem State.setSide_get (s : State) (k : Nat) (x : LintelSide) (g : Field) (a : Nat): (s.setSide k x).get g a= s.get g a:= rfl
@[simp] theorem State.setSide_flag (s : State) (k : Nat) (x : LintelSide) (g : Field) (a : Nat): (s.setSide k x).flag g a= s.flag g a:= rfl
@[simp] theorem State.setSide_domain (s : State) (k : Nat) (x : LintelSide) (a : Nat): (s.setSide k x).domain a= s.domain a:= rfl
@[simp] theorem State.setSide_domainOn (s : State) (k : Nat) (x : LintelSide) (a : Nat): (s.setSide k x).domainOn a= s.domainOn a:= rfl
@[simp] theorem State.setSide_domainUp (s : State) (k : Nat) (x : LintelSide) (a : Nat): (s.setSide k x).domainUp a= s.domainUp a:= rfl
@[simp] theorem State.setSide_linkUp (s : State) (k : Nat) (x : LintelSide) : (s.setSide k x).linkUp = s.linkUp := rfl
@[simp] theorem State.setSide_eng (s : State) (k : Nat) (x : LintelSide) (a : Nat): (s.setSide k x).eng a= s.eng a:= rfl
@[simp] theorem State.setSide_mem (s : State) (k : Nat) (x : LintelSide) (a : Nat): (s.setSide k x).mem a= s.mem a:= rfl
@[simp] theorem State.setSide_ctl (s : State) (k : Nat) (x : LintelSide) (a : Nat): (s.setSide k x).ctl a= s.ctl a:= rfl
@[simp] theorem State.setSide_pane (s : State) (k : Nat) (x : LintelSide) (a : Nat): (s.setSide k x).pane a= s.pane a:= rfl
@[simp] theorem State.setSide_link (s : State) (k : Nat) (x : LintelSide) (a : Nat): (s.setSide k x).link a= s.link a:= rfl
@[simp] theorem State.setSide_port (s : State) (k : Nat) (x : LintelSide) (a : Nat): (s.setSide k x).port a= s.port a:= rfl
@[simp] theorem State.setSide_run (s : State) (k : Nat) (x : LintelSide) (a : Nat): (s.setSide k x).run a= s.run a:= rfl
@[simp] theorem State.setSide_th (s : State) (k : Nat) (x : LintelSide) (a : Nat): (s.setSide k x).th a= s.th a:= rfl
@[simp] theorem State.setSide_stile (s : State) (k : Nat) (x : LintelSide) (a : Nat): (s.setSide k x).stile a= s.stile a:= rfl
@[simp] theorem State.setSide_head (s : State) (k : Nat) (x : LintelSide) (a : Nat): (s.setSide k x).head a= s.head a:= rfl
@[simp] theorem State.setSide_cam (s : State) (k : Nat) (x : LintelSide) (a : Nat): (s.setSide k x).cam a= s.cam a:= rfl
@[simp] theorem State.setSide_ddrCh (s : State) (k : Nat) (x : LintelSide) (a : Nat): (s.setSide k x).ddrCh a= s.ddrCh a:= rfl
@[simp] theorem State.setSide_bank (s : State) (k : Nat) (x : LintelSide) (a : Nat): (s.setSide k x).bank a= s.bank a:= rfl
@[simp] theorem State.setSide_surf (s : State) (k : Nat) (x : LintelSide) (a : Nat): (s.setSide k x).surf a= s.surf a:= rfl
theorem State.setSide_at (s : State) (k : Nat) (x : LintelSide) (j : Nat) : (s.setSide k x).side j = if j = k then x else s.side j := tblGet_set _ _ _ _ _
@[simp] theorem State.setSide_same (s : State) (k : Nat) (x : LintelSide) : (s.setSide k x).side k = x := tblGet_set_same _ _ _ _
theorem State.setSide_other (s : State) (k : Nat) (x : LintelSide) (j : Nat) (h : j ≠ k) : (s.setSide k x).side j = s.side j := tblGet_set_other _ _ _ _ _ h

/-! ### setGate -/

@[simp] theorem State.setGate_stiles (s : State) (x : Gatehouse) : (s.setGate x).stiles = s.stiles := rfl
@[simp] theorem State.setGate_trlh (s : State) (x : Gatehouse) : (s.setGate x).trlh = s.trlh := rfl
@[simp] theorem State.setGate_ejected (s : State) (x : Gatehouse) : (s.setGate x).ejected = s.ejected := rfl
@[simp] theorem State.setGate_bridge (s : State) (x : Gatehouse) : (s.setGate x).bridge = s.bridge := rfl
@[simp] theorem State.setGate_trace (s : State) (x : Gatehouse) : (s.setGate x).trace = s.trace := rfl
@[simp] theorem State.setGate_nocNow (s : State) (x : Gatehouse) : (s.setGate x).nocNow = s.nocNow := rfl
@[simp] theorem State.setGate_inbox (s : State) (x : Gatehouse) : (s.setGate x).inbox = s.inbox := rfl
@[simp] theorem State.setGate_pending (s : State) (x : Gatehouse) : (s.setGate x).pending = s.pending := rfl
@[simp] theorem State.setGate_answer (s : State) (x : Gatehouse) : (s.setGate x).answer = s.answer := rfl
@[simp] theorem State.setGate_freeCount (s : State) (x : Gatehouse) : (s.setGate x).freeCount = s.freeCount := rfl
@[simp] theorem State.setGate_regs (s : State) (x : Gatehouse) : (s.setGate x).regs = s.regs := rfl
@[simp] theorem State.setGate_shadows (s : State) (x : Gatehouse) : (s.setGate x).shadows = s.shadows := rfl
@[simp] theorem State.setGate_unlock (s : State) (x : Gatehouse) : (s.setGate x).unlock = s.unlock := rfl
@[simp] theorem State.setGate_reports (s : State) (x : Gatehouse) : (s.setGate x).reports = s.reports := rfl
@[simp] theorem State.setGate_tick (s : State) (x : Gatehouse) : (s.setGate x).tick = s.tick := rfl
@[simp] theorem State.setGate_lintel (s : State) (x : Gatehouse) : (s.setGate x).lintel = s.lintel := rfl
@[simp] theorem State.setGate_linkLosses (s : State) (x : Gatehouse) : (s.setGate x).linkLosses = s.linkLosses := rfl
@[simp] theorem State.setGate_bridgeFresh (s : State) (x : Gatehouse) : (s.setGate x).bridgeFresh = s.bridgeFresh := rfl
@[simp] theorem State.setGate_ddr (s : State) (x : Gatehouse) : (s.setGate x).ddr = s.ddr := rfl
@[simp] theorem State.setGate_pins (s : State) (x : Gatehouse) : (s.setGate x).pins = s.pins := rfl
@[simp] theorem State.setGate_agg (s : State) (x : Gatehouse) : (s.setGate x).agg = s.agg := rfl
@[simp] theorem State.setGate_porter (s : State) (x : Gatehouse) : (s.setGate x).porter = s.porter := rfl
@[simp] theorem State.setGate_gangs (s : State) (x : Gatehouse) : (s.setGate x).gangs = s.gangs := rfl
@[simp] theorem State.setGate_doneTasks (s : State) (x : Gatehouse) : (s.setGate x).doneTasks = s.doneTasks := rfl
@[simp] theorem State.setGate_panes (s : State) (x : Gatehouse) : (s.setGate x).panes = s.panes := rfl
@[simp] theorem State.setGate_pctl (s : State) (x : Gatehouse) : (s.setGate x).pctl = s.pctl := rfl
@[simp] theorem State.setGate_rowPorts (s : State) (x : Gatehouse) : (s.setGate x).rowPorts = s.rowPorts := rfl
@[simp] theorem State.setGate_macroFlight (s : State) (x : Gatehouse) : (s.setGate x).macroFlight = s.macroFlight := rfl
@[simp] theorem State.setGate_bistFresh (s : State) (x : Gatehouse) : (s.setGate x).bistFresh = s.bistFresh := rfl
@[simp] theorem State.setGate_pant (s : State) (x : Gatehouse) : (s.setGate x).pant = s.pant := rfl
@[simp] theorem State.setGate_marchDue (s : State) (x : Gatehouse) : (s.setGate x).marchDue = s.marchDue := rfl
@[simp] theorem State.setGate_march (s : State) (x : Gatehouse) : (s.setGate x).march = s.march := rfl
@[simp] theorem State.setGate_arrayLink (s : State) (x : Gatehouse) : (s.setGate x).arrayLink = s.arrayLink := rfl
@[simp] theorem State.setGate_engMem (s : State) (x : Gatehouse) : (s.setGate x).engMem = s.engMem := rfl
@[simp] theorem State.setGate_engines (s : State) (x : Gatehouse) : (s.setGate x).engines = s.engines := rfl
@[simp] theorem State.setGate_heads (s : State) (x : Gatehouse) : (s.setGate x).heads = s.heads := rfl
@[simp] theorem State.setGate_glaz (s : State) (x : Gatehouse) : (s.setGate x).glaz = s.glaz := rfl
@[simp] theorem State.setGate_regionSel (s : State) (x : Gatehouse) : (s.setGate x).regionSel = s.regionSel := rfl
@[simp] theorem State.setGate_cams (s : State) (x : Gatehouse) : (s.setGate x).cams = s.cams := rfl
@[simp] theorem State.setGate_surfaces (s : State) (x : Gatehouse) : (s.setGate x).surfaces = s.surfaces := rfl
@[simp] theorem State.setGate_doorbells (s : State) (x : Gatehouse) : (s.setGate x).doorbells = s.doorbells := rfl
@[simp] theorem State.setGate_sigt (s : State) (x : Gatehouse) : (s.setGate x).sigt = s.sigt := rfl
@[simp] theorem State.setGate_latch (s : State) (x : Gatehouse) : (s.setGate x).latch = s.latch := rfl
@[simp] theorem State.setGate_hatchOpen (s : State) (x : Gatehouse) : (s.setGate x).hatchOpen = s.hatchOpen := rfl
@[simp] theorem State.setGate_flash (s : State) (x : Gatehouse) : (s.setGate x).flash = s.flash := rfl
@[simp] theorem State.setGate_fabric (s : State) (x : Gatehouse) : (s.setGate x).fabric = s.fabric := rfl
@[simp] theorem State.setGate_flashJob (s : State) (x : Gatehouse) : (s.setGate x).flashJob = s.flashJob := rfl
@[simp] theorem State.setGate_serial (s : State) (x : Gatehouse) : (s.setGate x).serial = s.serial := rfl
@[simp] theorem State.setGate_shutter (s : State) (x : Gatehouse) : (s.setGate x).shutter = s.shutter := rfl
@[simp] theorem State.setGate_boot (s : State) (x : Gatehouse) : (s.setGate x).boot = s.boot := rfl
@[simp] theorem State.setGate_bootActive (s : State) (x : Gatehouse) : (s.setGate x).bootActive = s.bootActive := rfl
@[simp] theorem State.setGate_missedTicks (s : State) (x : Gatehouse) : (s.setGate x).missedTicks = s.missedTicks := rfl
@[simp] theorem State.setGate_jtag (s : State) (x : Gatehouse) : (s.setGate x).jtag = s.jtag := rfl
@[simp] theorem State.setGate_vtOut (s : State) (x : Gatehouse) : (s.setGate x).vtOut = s.vtOut := rfl
@[simp] theorem State.setGate_vtIn (s : State) (x : Gatehouse) : (s.setGate x).vtIn = s.vtIn := rfl
@[simp] theorem State.setGate_released (s : State) (x : Gatehouse) : (s.setGate x).released = s.released := rfl
@[simp] theorem State.setGate_getReg (s : State) (x : Gatehouse) (a b e : Nat): (s.setGate x).getReg a b e= s.getReg a b e:= rfl
@[simp] theorem State.setGate_get (s : State) (x : Gatehouse) (g : Field) (a : Nat): (s.setGate x).get g a= s.get g a:= rfl
@[simp] theorem State.setGate_flag (s : State) (x : Gatehouse) (g : Field) (a : Nat): (s.setGate x).flag g a= s.flag g a:= rfl
@[simp] theorem State.setGate_domain (s : State) (x : Gatehouse) (a : Nat): (s.setGate x).domain a= s.domain a:= rfl
@[simp] theorem State.setGate_domainOn (s : State) (x : Gatehouse) (a : Nat): (s.setGate x).domainOn a= s.domainOn a:= rfl
@[simp] theorem State.setGate_domainUp (s : State) (x : Gatehouse) (a : Nat): (s.setGate x).domainUp a= s.domainUp a:= rfl
@[simp] theorem State.setGate_linkUp (s : State) (x : Gatehouse) : (s.setGate x).linkUp = s.linkUp := rfl
@[simp] theorem State.setGate_eng (s : State) (x : Gatehouse) (a : Nat): (s.setGate x).eng a= s.eng a:= rfl
@[simp] theorem State.setGate_mem (s : State) (x : Gatehouse) (a : Nat): (s.setGate x).mem a= s.mem a:= rfl
@[simp] theorem State.setGate_ctl (s : State) (x : Gatehouse) (a : Nat): (s.setGate x).ctl a= s.ctl a:= rfl
@[simp] theorem State.setGate_pane (s : State) (x : Gatehouse) (a : Nat): (s.setGate x).pane a= s.pane a:= rfl
@[simp] theorem State.setGate_link (s : State) (x : Gatehouse) (a : Nat): (s.setGate x).link a= s.link a:= rfl
@[simp] theorem State.setGate_port (s : State) (x : Gatehouse) (a : Nat): (s.setGate x).port a= s.port a:= rfl
@[simp] theorem State.setGate_run (s : State) (x : Gatehouse) (a : Nat): (s.setGate x).run a= s.run a:= rfl
@[simp] theorem State.setGate_th (s : State) (x : Gatehouse) (a : Nat): (s.setGate x).th a= s.th a:= rfl
@[simp] theorem State.setGate_stile (s : State) (x : Gatehouse) (a : Nat): (s.setGate x).stile a= s.stile a:= rfl
@[simp] theorem State.setGate_head (s : State) (x : Gatehouse) (a : Nat): (s.setGate x).head a= s.head a:= rfl
@[simp] theorem State.setGate_cam (s : State) (x : Gatehouse) (a : Nat): (s.setGate x).cam a= s.cam a:= rfl
@[simp] theorem State.setGate_ddrCh (s : State) (x : Gatehouse) (a : Nat): (s.setGate x).ddrCh a= s.ddrCh a:= rfl
@[simp] theorem State.setGate_bank (s : State) (x : Gatehouse) (a : Nat): (s.setGate x).bank a= s.bank a:= rfl
@[simp] theorem State.setGate_surf (s : State) (x : Gatehouse) (a : Nat): (s.setGate x).surf a= s.surf a:= rfl
@[simp] theorem State.setGate_side (s : State) (x : Gatehouse) (a : Nat): (s.setGate x).side a= s.side a:= rfl

/-! ### setLatch -/

@[simp] theorem State.setLatch_stiles (s : State) (x : Latch) : (s.setLatch x).stiles = s.stiles := rfl
@[simp] theorem State.setLatch_trlh (s : State) (x : Latch) : (s.setLatch x).trlh = s.trlh := rfl
@[simp] theorem State.setLatch_ejected (s : State) (x : Latch) : (s.setLatch x).ejected = s.ejected := rfl
@[simp] theorem State.setLatch_bridge (s : State) (x : Latch) : (s.setLatch x).bridge = s.bridge := rfl
@[simp] theorem State.setLatch_trace (s : State) (x : Latch) : (s.setLatch x).trace = s.trace := rfl
@[simp] theorem State.setLatch_nocNow (s : State) (x : Latch) : (s.setLatch x).nocNow = s.nocNow := rfl
@[simp] theorem State.setLatch_inbox (s : State) (x : Latch) : (s.setLatch x).inbox = s.inbox := rfl
@[simp] theorem State.setLatch_pending (s : State) (x : Latch) : (s.setLatch x).pending = s.pending := rfl
@[simp] theorem State.setLatch_answer (s : State) (x : Latch) : (s.setLatch x).answer = s.answer := rfl
@[simp] theorem State.setLatch_freeCount (s : State) (x : Latch) : (s.setLatch x).freeCount = s.freeCount := rfl
@[simp] theorem State.setLatch_regs (s : State) (x : Latch) : (s.setLatch x).regs = s.regs := rfl
@[simp] theorem State.setLatch_shadows (s : State) (x : Latch) : (s.setLatch x).shadows = s.shadows := rfl
@[simp] theorem State.setLatch_unlock (s : State) (x : Latch) : (s.setLatch x).unlock = s.unlock := rfl
@[simp] theorem State.setLatch_reports (s : State) (x : Latch) : (s.setLatch x).reports = s.reports := rfl
@[simp] theorem State.setLatch_tick (s : State) (x : Latch) : (s.setLatch x).tick = s.tick := rfl
@[simp] theorem State.setLatch_lintel (s : State) (x : Latch) : (s.setLatch x).lintel = s.lintel := rfl
@[simp] theorem State.setLatch_linkLosses (s : State) (x : Latch) : (s.setLatch x).linkLosses = s.linkLosses := rfl
@[simp] theorem State.setLatch_bridgeFresh (s : State) (x : Latch) : (s.setLatch x).bridgeFresh = s.bridgeFresh := rfl
@[simp] theorem State.setLatch_ddr (s : State) (x : Latch) : (s.setLatch x).ddr = s.ddr := rfl
@[simp] theorem State.setLatch_pins (s : State) (x : Latch) : (s.setLatch x).pins = s.pins := rfl
@[simp] theorem State.setLatch_agg (s : State) (x : Latch) : (s.setLatch x).agg = s.agg := rfl
@[simp] theorem State.setLatch_porter (s : State) (x : Latch) : (s.setLatch x).porter = s.porter := rfl
@[simp] theorem State.setLatch_gangs (s : State) (x : Latch) : (s.setLatch x).gangs = s.gangs := rfl
@[simp] theorem State.setLatch_doneTasks (s : State) (x : Latch) : (s.setLatch x).doneTasks = s.doneTasks := rfl
@[simp] theorem State.setLatch_panes (s : State) (x : Latch) : (s.setLatch x).panes = s.panes := rfl
@[simp] theorem State.setLatch_pctl (s : State) (x : Latch) : (s.setLatch x).pctl = s.pctl := rfl
@[simp] theorem State.setLatch_rowPorts (s : State) (x : Latch) : (s.setLatch x).rowPorts = s.rowPorts := rfl
@[simp] theorem State.setLatch_macroFlight (s : State) (x : Latch) : (s.setLatch x).macroFlight = s.macroFlight := rfl
@[simp] theorem State.setLatch_bistFresh (s : State) (x : Latch) : (s.setLatch x).bistFresh = s.bistFresh := rfl
@[simp] theorem State.setLatch_pant (s : State) (x : Latch) : (s.setLatch x).pant = s.pant := rfl
@[simp] theorem State.setLatch_marchDue (s : State) (x : Latch) : (s.setLatch x).marchDue = s.marchDue := rfl
@[simp] theorem State.setLatch_march (s : State) (x : Latch) : (s.setLatch x).march = s.march := rfl
@[simp] theorem State.setLatch_arrayLink (s : State) (x : Latch) : (s.setLatch x).arrayLink = s.arrayLink := rfl
@[simp] theorem State.setLatch_engMem (s : State) (x : Latch) : (s.setLatch x).engMem = s.engMem := rfl
@[simp] theorem State.setLatch_engines (s : State) (x : Latch) : (s.setLatch x).engines = s.engines := rfl
@[simp] theorem State.setLatch_heads (s : State) (x : Latch) : (s.setLatch x).heads = s.heads := rfl
@[simp] theorem State.setLatch_glaz (s : State) (x : Latch) : (s.setLatch x).glaz = s.glaz := rfl
@[simp] theorem State.setLatch_regionSel (s : State) (x : Latch) : (s.setLatch x).regionSel = s.regionSel := rfl
@[simp] theorem State.setLatch_cams (s : State) (x : Latch) : (s.setLatch x).cams = s.cams := rfl
@[simp] theorem State.setLatch_surfaces (s : State) (x : Latch) : (s.setLatch x).surfaces = s.surfaces := rfl
@[simp] theorem State.setLatch_doorbells (s : State) (x : Latch) : (s.setLatch x).doorbells = s.doorbells := rfl
@[simp] theorem State.setLatch_sigt (s : State) (x : Latch) : (s.setLatch x).sigt = s.sigt := rfl
@[simp] theorem State.setLatch_gate (s : State) (x : Latch) : (s.setLatch x).gate = s.gate := rfl
@[simp] theorem State.setLatch_hatchOpen (s : State) (x : Latch) : (s.setLatch x).hatchOpen = s.hatchOpen := rfl
@[simp] theorem State.setLatch_flash (s : State) (x : Latch) : (s.setLatch x).flash = s.flash := rfl
@[simp] theorem State.setLatch_fabric (s : State) (x : Latch) : (s.setLatch x).fabric = s.fabric := rfl
@[simp] theorem State.setLatch_flashJob (s : State) (x : Latch) : (s.setLatch x).flashJob = s.flashJob := rfl
@[simp] theorem State.setLatch_serial (s : State) (x : Latch) : (s.setLatch x).serial = s.serial := rfl
@[simp] theorem State.setLatch_shutter (s : State) (x : Latch) : (s.setLatch x).shutter = s.shutter := rfl
@[simp] theorem State.setLatch_boot (s : State) (x : Latch) : (s.setLatch x).boot = s.boot := rfl
@[simp] theorem State.setLatch_bootActive (s : State) (x : Latch) : (s.setLatch x).bootActive = s.bootActive := rfl
@[simp] theorem State.setLatch_missedTicks (s : State) (x : Latch) : (s.setLatch x).missedTicks = s.missedTicks := rfl
@[simp] theorem State.setLatch_jtag (s : State) (x : Latch) : (s.setLatch x).jtag = s.jtag := rfl
@[simp] theorem State.setLatch_vtOut (s : State) (x : Latch) : (s.setLatch x).vtOut = s.vtOut := rfl
@[simp] theorem State.setLatch_vtIn (s : State) (x : Latch) : (s.setLatch x).vtIn = s.vtIn := rfl
@[simp] theorem State.setLatch_released (s : State) (x : Latch) : (s.setLatch x).released = s.released := rfl
@[simp] theorem State.setLatch_getReg (s : State) (x : Latch) (a b e : Nat): (s.setLatch x).getReg a b e= s.getReg a b e:= rfl
@[simp] theorem State.setLatch_get (s : State) (x : Latch) (g : Field) (a : Nat): (s.setLatch x).get g a= s.get g a:= rfl
@[simp] theorem State.setLatch_flag (s : State) (x : Latch) (g : Field) (a : Nat): (s.setLatch x).flag g a= s.flag g a:= rfl
@[simp] theorem State.setLatch_domain (s : State) (x : Latch) (a : Nat): (s.setLatch x).domain a= s.domain a:= rfl
@[simp] theorem State.setLatch_domainOn (s : State) (x : Latch) (a : Nat): (s.setLatch x).domainOn a= s.domainOn a:= rfl
@[simp] theorem State.setLatch_domainUp (s : State) (x : Latch) (a : Nat): (s.setLatch x).domainUp a= s.domainUp a:= rfl
@[simp] theorem State.setLatch_linkUp (s : State) (x : Latch) : (s.setLatch x).linkUp = s.linkUp := rfl
@[simp] theorem State.setLatch_eng (s : State) (x : Latch) (a : Nat): (s.setLatch x).eng a= s.eng a:= rfl
@[simp] theorem State.setLatch_mem (s : State) (x : Latch) (a : Nat): (s.setLatch x).mem a= s.mem a:= rfl
@[simp] theorem State.setLatch_ctl (s : State) (x : Latch) (a : Nat): (s.setLatch x).ctl a= s.ctl a:= rfl
@[simp] theorem State.setLatch_pane (s : State) (x : Latch) (a : Nat): (s.setLatch x).pane a= s.pane a:= rfl
@[simp] theorem State.setLatch_link (s : State) (x : Latch) (a : Nat): (s.setLatch x).link a= s.link a:= rfl
@[simp] theorem State.setLatch_port (s : State) (x : Latch) (a : Nat): (s.setLatch x).port a= s.port a:= rfl
@[simp] theorem State.setLatch_run (s : State) (x : Latch) (a : Nat): (s.setLatch x).run a= s.run a:= rfl
@[simp] theorem State.setLatch_th (s : State) (x : Latch) (a : Nat): (s.setLatch x).th a= s.th a:= rfl
@[simp] theorem State.setLatch_stile (s : State) (x : Latch) (a : Nat): (s.setLatch x).stile a= s.stile a:= rfl
@[simp] theorem State.setLatch_head (s : State) (x : Latch) (a : Nat): (s.setLatch x).head a= s.head a:= rfl
@[simp] theorem State.setLatch_cam (s : State) (x : Latch) (a : Nat): (s.setLatch x).cam a= s.cam a:= rfl
@[simp] theorem State.setLatch_ddrCh (s : State) (x : Latch) (a : Nat): (s.setLatch x).ddrCh a= s.ddrCh a:= rfl
@[simp] theorem State.setLatch_bank (s : State) (x : Latch) (a : Nat): (s.setLatch x).bank a= s.bank a:= rfl
@[simp] theorem State.setLatch_surf (s : State) (x : Latch) (a : Nat): (s.setLatch x).surf a= s.surf a:= rfl
@[simp] theorem State.setLatch_side (s : State) (x : Latch) (a : Nat): (s.setLatch x).side a= s.side a:= rfl

/-! ### setFabric -/

@[simp] theorem State.setFabric_stiles (s : State) (x : Fabric) : (s.setFabric x).stiles = s.stiles := rfl
@[simp] theorem State.setFabric_trlh (s : State) (x : Fabric) : (s.setFabric x).trlh = s.trlh := rfl
@[simp] theorem State.setFabric_ejected (s : State) (x : Fabric) : (s.setFabric x).ejected = s.ejected := rfl
@[simp] theorem State.setFabric_bridge (s : State) (x : Fabric) : (s.setFabric x).bridge = s.bridge := rfl
@[simp] theorem State.setFabric_trace (s : State) (x : Fabric) : (s.setFabric x).trace = s.trace := rfl
@[simp] theorem State.setFabric_nocNow (s : State) (x : Fabric) : (s.setFabric x).nocNow = s.nocNow := rfl
@[simp] theorem State.setFabric_inbox (s : State) (x : Fabric) : (s.setFabric x).inbox = s.inbox := rfl
@[simp] theorem State.setFabric_pending (s : State) (x : Fabric) : (s.setFabric x).pending = s.pending := rfl
@[simp] theorem State.setFabric_answer (s : State) (x : Fabric) : (s.setFabric x).answer = s.answer := rfl
@[simp] theorem State.setFabric_freeCount (s : State) (x : Fabric) : (s.setFabric x).freeCount = s.freeCount := rfl
@[simp] theorem State.setFabric_regs (s : State) (x : Fabric) : (s.setFabric x).regs = s.regs := rfl
@[simp] theorem State.setFabric_shadows (s : State) (x : Fabric) : (s.setFabric x).shadows = s.shadows := rfl
@[simp] theorem State.setFabric_unlock (s : State) (x : Fabric) : (s.setFabric x).unlock = s.unlock := rfl
@[simp] theorem State.setFabric_reports (s : State) (x : Fabric) : (s.setFabric x).reports = s.reports := rfl
@[simp] theorem State.setFabric_tick (s : State) (x : Fabric) : (s.setFabric x).tick = s.tick := rfl
@[simp] theorem State.setFabric_lintel (s : State) (x : Fabric) : (s.setFabric x).lintel = s.lintel := rfl
@[simp] theorem State.setFabric_linkLosses (s : State) (x : Fabric) : (s.setFabric x).linkLosses = s.linkLosses := rfl
@[simp] theorem State.setFabric_bridgeFresh (s : State) (x : Fabric) : (s.setFabric x).bridgeFresh = s.bridgeFresh := rfl
@[simp] theorem State.setFabric_ddr (s : State) (x : Fabric) : (s.setFabric x).ddr = s.ddr := rfl
@[simp] theorem State.setFabric_pins (s : State) (x : Fabric) : (s.setFabric x).pins = s.pins := rfl
@[simp] theorem State.setFabric_agg (s : State) (x : Fabric) : (s.setFabric x).agg = s.agg := rfl
@[simp] theorem State.setFabric_porter (s : State) (x : Fabric) : (s.setFabric x).porter = s.porter := rfl
@[simp] theorem State.setFabric_gangs (s : State) (x : Fabric) : (s.setFabric x).gangs = s.gangs := rfl
@[simp] theorem State.setFabric_doneTasks (s : State) (x : Fabric) : (s.setFabric x).doneTasks = s.doneTasks := rfl
@[simp] theorem State.setFabric_panes (s : State) (x : Fabric) : (s.setFabric x).panes = s.panes := rfl
@[simp] theorem State.setFabric_pctl (s : State) (x : Fabric) : (s.setFabric x).pctl = s.pctl := rfl
@[simp] theorem State.setFabric_rowPorts (s : State) (x : Fabric) : (s.setFabric x).rowPorts = s.rowPorts := rfl
@[simp] theorem State.setFabric_macroFlight (s : State) (x : Fabric) : (s.setFabric x).macroFlight = s.macroFlight := rfl
@[simp] theorem State.setFabric_bistFresh (s : State) (x : Fabric) : (s.setFabric x).bistFresh = s.bistFresh := rfl
@[simp] theorem State.setFabric_pant (s : State) (x : Fabric) : (s.setFabric x).pant = s.pant := rfl
@[simp] theorem State.setFabric_marchDue (s : State) (x : Fabric) : (s.setFabric x).marchDue = s.marchDue := rfl
@[simp] theorem State.setFabric_march (s : State) (x : Fabric) : (s.setFabric x).march = s.march := rfl
@[simp] theorem State.setFabric_arrayLink (s : State) (x : Fabric) : (s.setFabric x).arrayLink = s.arrayLink := rfl
@[simp] theorem State.setFabric_engMem (s : State) (x : Fabric) : (s.setFabric x).engMem = s.engMem := rfl
@[simp] theorem State.setFabric_engines (s : State) (x : Fabric) : (s.setFabric x).engines = s.engines := rfl
@[simp] theorem State.setFabric_heads (s : State) (x : Fabric) : (s.setFabric x).heads = s.heads := rfl
@[simp] theorem State.setFabric_glaz (s : State) (x : Fabric) : (s.setFabric x).glaz = s.glaz := rfl
@[simp] theorem State.setFabric_regionSel (s : State) (x : Fabric) : (s.setFabric x).regionSel = s.regionSel := rfl
@[simp] theorem State.setFabric_cams (s : State) (x : Fabric) : (s.setFabric x).cams = s.cams := rfl
@[simp] theorem State.setFabric_surfaces (s : State) (x : Fabric) : (s.setFabric x).surfaces = s.surfaces := rfl
@[simp] theorem State.setFabric_doorbells (s : State) (x : Fabric) : (s.setFabric x).doorbells = s.doorbells := rfl
@[simp] theorem State.setFabric_sigt (s : State) (x : Fabric) : (s.setFabric x).sigt = s.sigt := rfl
@[simp] theorem State.setFabric_gate (s : State) (x : Fabric) : (s.setFabric x).gate = s.gate := rfl
@[simp] theorem State.setFabric_latch (s : State) (x : Fabric) : (s.setFabric x).latch = s.latch := rfl
@[simp] theorem State.setFabric_hatchOpen (s : State) (x : Fabric) : (s.setFabric x).hatchOpen = s.hatchOpen := rfl
@[simp] theorem State.setFabric_flash (s : State) (x : Fabric) : (s.setFabric x).flash = s.flash := rfl
@[simp] theorem State.setFabric_flashJob (s : State) (x : Fabric) : (s.setFabric x).flashJob = s.flashJob := rfl
@[simp] theorem State.setFabric_serial (s : State) (x : Fabric) : (s.setFabric x).serial = s.serial := rfl
@[simp] theorem State.setFabric_shutter (s : State) (x : Fabric) : (s.setFabric x).shutter = s.shutter := rfl
@[simp] theorem State.setFabric_boot (s : State) (x : Fabric) : (s.setFabric x).boot = s.boot := rfl
@[simp] theorem State.setFabric_bootActive (s : State) (x : Fabric) : (s.setFabric x).bootActive = s.bootActive := rfl
@[simp] theorem State.setFabric_missedTicks (s : State) (x : Fabric) : (s.setFabric x).missedTicks = s.missedTicks := rfl
@[simp] theorem State.setFabric_jtag (s : State) (x : Fabric) : (s.setFabric x).jtag = s.jtag := rfl
@[simp] theorem State.setFabric_vtOut (s : State) (x : Fabric) : (s.setFabric x).vtOut = s.vtOut := rfl
@[simp] theorem State.setFabric_vtIn (s : State) (x : Fabric) : (s.setFabric x).vtIn = s.vtIn := rfl
@[simp] theorem State.setFabric_released (s : State) (x : Fabric) : (s.setFabric x).released = s.released := rfl
@[simp] theorem State.setFabric_getReg (s : State) (x : Fabric) (a b e : Nat): (s.setFabric x).getReg a b e= s.getReg a b e:= rfl
@[simp] theorem State.setFabric_get (s : State) (x : Fabric) (g : Field) (a : Nat): (s.setFabric x).get g a= s.get g a:= rfl
@[simp] theorem State.setFabric_flag (s : State) (x : Fabric) (g : Field) (a : Nat): (s.setFabric x).flag g a= s.flag g a:= rfl
@[simp] theorem State.setFabric_domain (s : State) (x : Fabric) (a : Nat): (s.setFabric x).domain a= s.domain a:= rfl
@[simp] theorem State.setFabric_domainOn (s : State) (x : Fabric) (a : Nat): (s.setFabric x).domainOn a= s.domainOn a:= rfl
@[simp] theorem State.setFabric_domainUp (s : State) (x : Fabric) (a : Nat): (s.setFabric x).domainUp a= s.domainUp a:= rfl
@[simp] theorem State.setFabric_linkUp (s : State) (x : Fabric) : (s.setFabric x).linkUp = s.linkUp := rfl
@[simp] theorem State.setFabric_eng (s : State) (x : Fabric) (a : Nat): (s.setFabric x).eng a= s.eng a:= rfl
@[simp] theorem State.setFabric_mem (s : State) (x : Fabric) (a : Nat): (s.setFabric x).mem a= s.mem a:= rfl
@[simp] theorem State.setFabric_ctl (s : State) (x : Fabric) (a : Nat): (s.setFabric x).ctl a= s.ctl a:= rfl
@[simp] theorem State.setFabric_pane (s : State) (x : Fabric) (a : Nat): (s.setFabric x).pane a= s.pane a:= rfl
@[simp] theorem State.setFabric_link (s : State) (x : Fabric) (a : Nat): (s.setFabric x).link a= s.link a:= rfl
@[simp] theorem State.setFabric_port (s : State) (x : Fabric) (a : Nat): (s.setFabric x).port a= s.port a:= rfl
@[simp] theorem State.setFabric_run (s : State) (x : Fabric) (a : Nat): (s.setFabric x).run a= s.run a:= rfl
@[simp] theorem State.setFabric_th (s : State) (x : Fabric) (a : Nat): (s.setFabric x).th a= s.th a:= rfl
@[simp] theorem State.setFabric_stile (s : State) (x : Fabric) (a : Nat): (s.setFabric x).stile a= s.stile a:= rfl
@[simp] theorem State.setFabric_head (s : State) (x : Fabric) (a : Nat): (s.setFabric x).head a= s.head a:= rfl
@[simp] theorem State.setFabric_cam (s : State) (x : Fabric) (a : Nat): (s.setFabric x).cam a= s.cam a:= rfl
@[simp] theorem State.setFabric_ddrCh (s : State) (x : Fabric) (a : Nat): (s.setFabric x).ddrCh a= s.ddrCh a:= rfl
@[simp] theorem State.setFabric_bank (s : State) (x : Fabric) (a : Nat): (s.setFabric x).bank a= s.bank a:= rfl
@[simp] theorem State.setFabric_surf (s : State) (x : Fabric) (a : Nat): (s.setFabric x).surf a= s.surf a:= rfl
@[simp] theorem State.setFabric_side (s : State) (x : Fabric) (a : Nat): (s.setFabric x).side a= s.side a:= rfl

/-! ### setPorter -/

@[simp] theorem State.setPorter_stiles (s : State) (x : Porter) : (s.setPorter x).stiles = s.stiles := rfl
@[simp] theorem State.setPorter_trlh (s : State) (x : Porter) : (s.setPorter x).trlh = s.trlh := rfl
@[simp] theorem State.setPorter_ejected (s : State) (x : Porter) : (s.setPorter x).ejected = s.ejected := rfl
@[simp] theorem State.setPorter_bridge (s : State) (x : Porter) : (s.setPorter x).bridge = s.bridge := rfl
@[simp] theorem State.setPorter_trace (s : State) (x : Porter) : (s.setPorter x).trace = s.trace := rfl
@[simp] theorem State.setPorter_nocNow (s : State) (x : Porter) : (s.setPorter x).nocNow = s.nocNow := rfl
@[simp] theorem State.setPorter_inbox (s : State) (x : Porter) : (s.setPorter x).inbox = s.inbox := rfl
@[simp] theorem State.setPorter_pending (s : State) (x : Porter) : (s.setPorter x).pending = s.pending := rfl
@[simp] theorem State.setPorter_answer (s : State) (x : Porter) : (s.setPorter x).answer = s.answer := rfl
@[simp] theorem State.setPorter_freeCount (s : State) (x : Porter) : (s.setPorter x).freeCount = s.freeCount := rfl
@[simp] theorem State.setPorter_regs (s : State) (x : Porter) : (s.setPorter x).regs = s.regs := rfl
@[simp] theorem State.setPorter_shadows (s : State) (x : Porter) : (s.setPorter x).shadows = s.shadows := rfl
@[simp] theorem State.setPorter_unlock (s : State) (x : Porter) : (s.setPorter x).unlock = s.unlock := rfl
@[simp] theorem State.setPorter_reports (s : State) (x : Porter) : (s.setPorter x).reports = s.reports := rfl
@[simp] theorem State.setPorter_tick (s : State) (x : Porter) : (s.setPorter x).tick = s.tick := rfl
@[simp] theorem State.setPorter_lintel (s : State) (x : Porter) : (s.setPorter x).lintel = s.lintel := rfl
@[simp] theorem State.setPorter_linkLosses (s : State) (x : Porter) : (s.setPorter x).linkLosses = s.linkLosses := rfl
@[simp] theorem State.setPorter_bridgeFresh (s : State) (x : Porter) : (s.setPorter x).bridgeFresh = s.bridgeFresh := rfl
@[simp] theorem State.setPorter_ddr (s : State) (x : Porter) : (s.setPorter x).ddr = s.ddr := rfl
@[simp] theorem State.setPorter_pins (s : State) (x : Porter) : (s.setPorter x).pins = s.pins := rfl
@[simp] theorem State.setPorter_agg (s : State) (x : Porter) : (s.setPorter x).agg = s.agg := rfl
@[simp] theorem State.setPorter_gangs (s : State) (x : Porter) : (s.setPorter x).gangs = s.gangs := rfl
@[simp] theorem State.setPorter_doneTasks (s : State) (x : Porter) : (s.setPorter x).doneTasks = s.doneTasks := rfl
@[simp] theorem State.setPorter_panes (s : State) (x : Porter) : (s.setPorter x).panes = s.panes := rfl
@[simp] theorem State.setPorter_pctl (s : State) (x : Porter) : (s.setPorter x).pctl = s.pctl := rfl
@[simp] theorem State.setPorter_rowPorts (s : State) (x : Porter) : (s.setPorter x).rowPorts = s.rowPorts := rfl
@[simp] theorem State.setPorter_macroFlight (s : State) (x : Porter) : (s.setPorter x).macroFlight = s.macroFlight := rfl
@[simp] theorem State.setPorter_bistFresh (s : State) (x : Porter) : (s.setPorter x).bistFresh = s.bistFresh := rfl
@[simp] theorem State.setPorter_pant (s : State) (x : Porter) : (s.setPorter x).pant = s.pant := rfl
@[simp] theorem State.setPorter_marchDue (s : State) (x : Porter) : (s.setPorter x).marchDue = s.marchDue := rfl
@[simp] theorem State.setPorter_march (s : State) (x : Porter) : (s.setPorter x).march = s.march := rfl
@[simp] theorem State.setPorter_arrayLink (s : State) (x : Porter) : (s.setPorter x).arrayLink = s.arrayLink := rfl
@[simp] theorem State.setPorter_engMem (s : State) (x : Porter) : (s.setPorter x).engMem = s.engMem := rfl
@[simp] theorem State.setPorter_engines (s : State) (x : Porter) : (s.setPorter x).engines = s.engines := rfl
@[simp] theorem State.setPorter_heads (s : State) (x : Porter) : (s.setPorter x).heads = s.heads := rfl
@[simp] theorem State.setPorter_glaz (s : State) (x : Porter) : (s.setPorter x).glaz = s.glaz := rfl
@[simp] theorem State.setPorter_regionSel (s : State) (x : Porter) : (s.setPorter x).regionSel = s.regionSel := rfl
@[simp] theorem State.setPorter_cams (s : State) (x : Porter) : (s.setPorter x).cams = s.cams := rfl
@[simp] theorem State.setPorter_surfaces (s : State) (x : Porter) : (s.setPorter x).surfaces = s.surfaces := rfl
@[simp] theorem State.setPorter_doorbells (s : State) (x : Porter) : (s.setPorter x).doorbells = s.doorbells := rfl
@[simp] theorem State.setPorter_sigt (s : State) (x : Porter) : (s.setPorter x).sigt = s.sigt := rfl
@[simp] theorem State.setPorter_gate (s : State) (x : Porter) : (s.setPorter x).gate = s.gate := rfl
@[simp] theorem State.setPorter_latch (s : State) (x : Porter) : (s.setPorter x).latch = s.latch := rfl
@[simp] theorem State.setPorter_hatchOpen (s : State) (x : Porter) : (s.setPorter x).hatchOpen = s.hatchOpen := rfl
@[simp] theorem State.setPorter_flash (s : State) (x : Porter) : (s.setPorter x).flash = s.flash := rfl
@[simp] theorem State.setPorter_fabric (s : State) (x : Porter) : (s.setPorter x).fabric = s.fabric := rfl
@[simp] theorem State.setPorter_flashJob (s : State) (x : Porter) : (s.setPorter x).flashJob = s.flashJob := rfl
@[simp] theorem State.setPorter_serial (s : State) (x : Porter) : (s.setPorter x).serial = s.serial := rfl
@[simp] theorem State.setPorter_shutter (s : State) (x : Porter) : (s.setPorter x).shutter = s.shutter := rfl
@[simp] theorem State.setPorter_boot (s : State) (x : Porter) : (s.setPorter x).boot = s.boot := rfl
@[simp] theorem State.setPorter_bootActive (s : State) (x : Porter) : (s.setPorter x).bootActive = s.bootActive := rfl
@[simp] theorem State.setPorter_missedTicks (s : State) (x : Porter) : (s.setPorter x).missedTicks = s.missedTicks := rfl
@[simp] theorem State.setPorter_jtag (s : State) (x : Porter) : (s.setPorter x).jtag = s.jtag := rfl
@[simp] theorem State.setPorter_vtOut (s : State) (x : Porter) : (s.setPorter x).vtOut = s.vtOut := rfl
@[simp] theorem State.setPorter_vtIn (s : State) (x : Porter) : (s.setPorter x).vtIn = s.vtIn := rfl
@[simp] theorem State.setPorter_released (s : State) (x : Porter) : (s.setPorter x).released = s.released := rfl
@[simp] theorem State.setPorter_getReg (s : State) (x : Porter) (a b e : Nat): (s.setPorter x).getReg a b e= s.getReg a b e:= rfl
@[simp] theorem State.setPorter_get (s : State) (x : Porter) (g : Field) (a : Nat): (s.setPorter x).get g a= s.get g a:= rfl
@[simp] theorem State.setPorter_flag (s : State) (x : Porter) (g : Field) (a : Nat): (s.setPorter x).flag g a= s.flag g a:= rfl
@[simp] theorem State.setPorter_domain (s : State) (x : Porter) (a : Nat): (s.setPorter x).domain a= s.domain a:= rfl
@[simp] theorem State.setPorter_domainOn (s : State) (x : Porter) (a : Nat): (s.setPorter x).domainOn a= s.domainOn a:= rfl
@[simp] theorem State.setPorter_domainUp (s : State) (x : Porter) (a : Nat): (s.setPorter x).domainUp a= s.domainUp a:= rfl
@[simp] theorem State.setPorter_linkUp (s : State) (x : Porter) : (s.setPorter x).linkUp = s.linkUp := rfl
@[simp] theorem State.setPorter_eng (s : State) (x : Porter) (a : Nat): (s.setPorter x).eng a= s.eng a:= rfl
@[simp] theorem State.setPorter_mem (s : State) (x : Porter) (a : Nat): (s.setPorter x).mem a= s.mem a:= rfl
@[simp] theorem State.setPorter_ctl (s : State) (x : Porter) (a : Nat): (s.setPorter x).ctl a= s.ctl a:= rfl
@[simp] theorem State.setPorter_pane (s : State) (x : Porter) (a : Nat): (s.setPorter x).pane a= s.pane a:= rfl
@[simp] theorem State.setPorter_link (s : State) (x : Porter) (a : Nat): (s.setPorter x).link a= s.link a:= rfl
@[simp] theorem State.setPorter_port (s : State) (x : Porter) (a : Nat): (s.setPorter x).port a= s.port a:= rfl
@[simp] theorem State.setPorter_run (s : State) (x : Porter) (a : Nat): (s.setPorter x).run a= s.run a:= rfl
@[simp] theorem State.setPorter_th (s : State) (x : Porter) (a : Nat): (s.setPorter x).th a= s.th a:= rfl
@[simp] theorem State.setPorter_stile (s : State) (x : Porter) (a : Nat): (s.setPorter x).stile a= s.stile a:= rfl
@[simp] theorem State.setPorter_head (s : State) (x : Porter) (a : Nat): (s.setPorter x).head a= s.head a:= rfl
@[simp] theorem State.setPorter_cam (s : State) (x : Porter) (a : Nat): (s.setPorter x).cam a= s.cam a:= rfl
@[simp] theorem State.setPorter_ddrCh (s : State) (x : Porter) (a : Nat): (s.setPorter x).ddrCh a= s.ddrCh a:= rfl
@[simp] theorem State.setPorter_bank (s : State) (x : Porter) (a : Nat): (s.setPorter x).bank a= s.bank a:= rfl
@[simp] theorem State.setPorter_surf (s : State) (x : Porter) (a : Nat): (s.setPorter x).surf a= s.surf a:= rfl
@[simp] theorem State.setPorter_side (s : State) (x : Porter) (a : Nat): (s.setPorter x).side a= s.side a:= rfl

/-! ### setSigt -/

@[simp] theorem State.setSigt_stiles (s : State) (x : SigTable) : (s.setSigt x).stiles = s.stiles := rfl
@[simp] theorem State.setSigt_trlh (s : State) (x : SigTable) : (s.setSigt x).trlh = s.trlh := rfl
@[simp] theorem State.setSigt_ejected (s : State) (x : SigTable) : (s.setSigt x).ejected = s.ejected := rfl
@[simp] theorem State.setSigt_bridge (s : State) (x : SigTable) : (s.setSigt x).bridge = s.bridge := rfl
@[simp] theorem State.setSigt_trace (s : State) (x : SigTable) : (s.setSigt x).trace = s.trace := rfl
@[simp] theorem State.setSigt_nocNow (s : State) (x : SigTable) : (s.setSigt x).nocNow = s.nocNow := rfl
@[simp] theorem State.setSigt_inbox (s : State) (x : SigTable) : (s.setSigt x).inbox = s.inbox := rfl
@[simp] theorem State.setSigt_pending (s : State) (x : SigTable) : (s.setSigt x).pending = s.pending := rfl
@[simp] theorem State.setSigt_answer (s : State) (x : SigTable) : (s.setSigt x).answer = s.answer := rfl
@[simp] theorem State.setSigt_freeCount (s : State) (x : SigTable) : (s.setSigt x).freeCount = s.freeCount := rfl
@[simp] theorem State.setSigt_regs (s : State) (x : SigTable) : (s.setSigt x).regs = s.regs := rfl
@[simp] theorem State.setSigt_shadows (s : State) (x : SigTable) : (s.setSigt x).shadows = s.shadows := rfl
@[simp] theorem State.setSigt_unlock (s : State) (x : SigTable) : (s.setSigt x).unlock = s.unlock := rfl
@[simp] theorem State.setSigt_reports (s : State) (x : SigTable) : (s.setSigt x).reports = s.reports := rfl
@[simp] theorem State.setSigt_tick (s : State) (x : SigTable) : (s.setSigt x).tick = s.tick := rfl
@[simp] theorem State.setSigt_lintel (s : State) (x : SigTable) : (s.setSigt x).lintel = s.lintel := rfl
@[simp] theorem State.setSigt_linkLosses (s : State) (x : SigTable) : (s.setSigt x).linkLosses = s.linkLosses := rfl
@[simp] theorem State.setSigt_bridgeFresh (s : State) (x : SigTable) : (s.setSigt x).bridgeFresh = s.bridgeFresh := rfl
@[simp] theorem State.setSigt_ddr (s : State) (x : SigTable) : (s.setSigt x).ddr = s.ddr := rfl
@[simp] theorem State.setSigt_pins (s : State) (x : SigTable) : (s.setSigt x).pins = s.pins := rfl
@[simp] theorem State.setSigt_agg (s : State) (x : SigTable) : (s.setSigt x).agg = s.agg := rfl
@[simp] theorem State.setSigt_porter (s : State) (x : SigTable) : (s.setSigt x).porter = s.porter := rfl
@[simp] theorem State.setSigt_gangs (s : State) (x : SigTable) : (s.setSigt x).gangs = s.gangs := rfl
@[simp] theorem State.setSigt_doneTasks (s : State) (x : SigTable) : (s.setSigt x).doneTasks = s.doneTasks := rfl
@[simp] theorem State.setSigt_panes (s : State) (x : SigTable) : (s.setSigt x).panes = s.panes := rfl
@[simp] theorem State.setSigt_pctl (s : State) (x : SigTable) : (s.setSigt x).pctl = s.pctl := rfl
@[simp] theorem State.setSigt_rowPorts (s : State) (x : SigTable) : (s.setSigt x).rowPorts = s.rowPorts := rfl
@[simp] theorem State.setSigt_macroFlight (s : State) (x : SigTable) : (s.setSigt x).macroFlight = s.macroFlight := rfl
@[simp] theorem State.setSigt_bistFresh (s : State) (x : SigTable) : (s.setSigt x).bistFresh = s.bistFresh := rfl
@[simp] theorem State.setSigt_pant (s : State) (x : SigTable) : (s.setSigt x).pant = s.pant := rfl
@[simp] theorem State.setSigt_marchDue (s : State) (x : SigTable) : (s.setSigt x).marchDue = s.marchDue := rfl
@[simp] theorem State.setSigt_march (s : State) (x : SigTable) : (s.setSigt x).march = s.march := rfl
@[simp] theorem State.setSigt_arrayLink (s : State) (x : SigTable) : (s.setSigt x).arrayLink = s.arrayLink := rfl
@[simp] theorem State.setSigt_engMem (s : State) (x : SigTable) : (s.setSigt x).engMem = s.engMem := rfl
@[simp] theorem State.setSigt_engines (s : State) (x : SigTable) : (s.setSigt x).engines = s.engines := rfl
@[simp] theorem State.setSigt_heads (s : State) (x : SigTable) : (s.setSigt x).heads = s.heads := rfl
@[simp] theorem State.setSigt_glaz (s : State) (x : SigTable) : (s.setSigt x).glaz = s.glaz := rfl
@[simp] theorem State.setSigt_regionSel (s : State) (x : SigTable) : (s.setSigt x).regionSel = s.regionSel := rfl
@[simp] theorem State.setSigt_cams (s : State) (x : SigTable) : (s.setSigt x).cams = s.cams := rfl
@[simp] theorem State.setSigt_surfaces (s : State) (x : SigTable) : (s.setSigt x).surfaces = s.surfaces := rfl
@[simp] theorem State.setSigt_doorbells (s : State) (x : SigTable) : (s.setSigt x).doorbells = s.doorbells := rfl
@[simp] theorem State.setSigt_gate (s : State) (x : SigTable) : (s.setSigt x).gate = s.gate := rfl
@[simp] theorem State.setSigt_latch (s : State) (x : SigTable) : (s.setSigt x).latch = s.latch := rfl
@[simp] theorem State.setSigt_hatchOpen (s : State) (x : SigTable) : (s.setSigt x).hatchOpen = s.hatchOpen := rfl
@[simp] theorem State.setSigt_flash (s : State) (x : SigTable) : (s.setSigt x).flash = s.flash := rfl
@[simp] theorem State.setSigt_fabric (s : State) (x : SigTable) : (s.setSigt x).fabric = s.fabric := rfl
@[simp] theorem State.setSigt_flashJob (s : State) (x : SigTable) : (s.setSigt x).flashJob = s.flashJob := rfl
@[simp] theorem State.setSigt_serial (s : State) (x : SigTable) : (s.setSigt x).serial = s.serial := rfl
@[simp] theorem State.setSigt_shutter (s : State) (x : SigTable) : (s.setSigt x).shutter = s.shutter := rfl
@[simp] theorem State.setSigt_boot (s : State) (x : SigTable) : (s.setSigt x).boot = s.boot := rfl
@[simp] theorem State.setSigt_bootActive (s : State) (x : SigTable) : (s.setSigt x).bootActive = s.bootActive := rfl
@[simp] theorem State.setSigt_missedTicks (s : State) (x : SigTable) : (s.setSigt x).missedTicks = s.missedTicks := rfl
@[simp] theorem State.setSigt_jtag (s : State) (x : SigTable) : (s.setSigt x).jtag = s.jtag := rfl
@[simp] theorem State.setSigt_vtOut (s : State) (x : SigTable) : (s.setSigt x).vtOut = s.vtOut := rfl
@[simp] theorem State.setSigt_vtIn (s : State) (x : SigTable) : (s.setSigt x).vtIn = s.vtIn := rfl
@[simp] theorem State.setSigt_released (s : State) (x : SigTable) : (s.setSigt x).released = s.released := rfl
@[simp] theorem State.setSigt_getReg (s : State) (x : SigTable) (a b e : Nat): (s.setSigt x).getReg a b e= s.getReg a b e:= rfl
@[simp] theorem State.setSigt_get (s : State) (x : SigTable) (g : Field) (a : Nat): (s.setSigt x).get g a= s.get g a:= rfl
@[simp] theorem State.setSigt_flag (s : State) (x : SigTable) (g : Field) (a : Nat): (s.setSigt x).flag g a= s.flag g a:= rfl
@[simp] theorem State.setSigt_domain (s : State) (x : SigTable) (a : Nat): (s.setSigt x).domain a= s.domain a:= rfl
@[simp] theorem State.setSigt_domainOn (s : State) (x : SigTable) (a : Nat): (s.setSigt x).domainOn a= s.domainOn a:= rfl
@[simp] theorem State.setSigt_domainUp (s : State) (x : SigTable) (a : Nat): (s.setSigt x).domainUp a= s.domainUp a:= rfl
@[simp] theorem State.setSigt_linkUp (s : State) (x : SigTable) : (s.setSigt x).linkUp = s.linkUp := rfl
@[simp] theorem State.setSigt_eng (s : State) (x : SigTable) (a : Nat): (s.setSigt x).eng a= s.eng a:= rfl
@[simp] theorem State.setSigt_mem (s : State) (x : SigTable) (a : Nat): (s.setSigt x).mem a= s.mem a:= rfl
@[simp] theorem State.setSigt_ctl (s : State) (x : SigTable) (a : Nat): (s.setSigt x).ctl a= s.ctl a:= rfl
@[simp] theorem State.setSigt_pane (s : State) (x : SigTable) (a : Nat): (s.setSigt x).pane a= s.pane a:= rfl
@[simp] theorem State.setSigt_link (s : State) (x : SigTable) (a : Nat): (s.setSigt x).link a= s.link a:= rfl
@[simp] theorem State.setSigt_port (s : State) (x : SigTable) (a : Nat): (s.setSigt x).port a= s.port a:= rfl
@[simp] theorem State.setSigt_run (s : State) (x : SigTable) (a : Nat): (s.setSigt x).run a= s.run a:= rfl
@[simp] theorem State.setSigt_th (s : State) (x : SigTable) (a : Nat): (s.setSigt x).th a= s.th a:= rfl
@[simp] theorem State.setSigt_stile (s : State) (x : SigTable) (a : Nat): (s.setSigt x).stile a= s.stile a:= rfl
@[simp] theorem State.setSigt_head (s : State) (x : SigTable) (a : Nat): (s.setSigt x).head a= s.head a:= rfl
@[simp] theorem State.setSigt_cam (s : State) (x : SigTable) (a : Nat): (s.setSigt x).cam a= s.cam a:= rfl
@[simp] theorem State.setSigt_ddrCh (s : State) (x : SigTable) (a : Nat): (s.setSigt x).ddrCh a= s.ddrCh a:= rfl
@[simp] theorem State.setSigt_bank (s : State) (x : SigTable) (a : Nat): (s.setSigt x).bank a= s.bank a:= rfl
@[simp] theorem State.setSigt_surf (s : State) (x : SigTable) (a : Nat): (s.setSigt x).surf a= s.surf a:= rfl
@[simp] theorem State.setSigt_side (s : State) (x : SigTable) (a : Nat): (s.setSigt x).side a= s.side a:= rfl

/-! ### setGlaz -/

@[simp] theorem State.setGlaz_stiles (s : State) (x : Glazing) : (s.setGlaz x).stiles = s.stiles := rfl
@[simp] theorem State.setGlaz_trlh (s : State) (x : Glazing) : (s.setGlaz x).trlh = s.trlh := rfl
@[simp] theorem State.setGlaz_ejected (s : State) (x : Glazing) : (s.setGlaz x).ejected = s.ejected := rfl
@[simp] theorem State.setGlaz_bridge (s : State) (x : Glazing) : (s.setGlaz x).bridge = s.bridge := rfl
@[simp] theorem State.setGlaz_trace (s : State) (x : Glazing) : (s.setGlaz x).trace = s.trace := rfl
@[simp] theorem State.setGlaz_nocNow (s : State) (x : Glazing) : (s.setGlaz x).nocNow = s.nocNow := rfl
@[simp] theorem State.setGlaz_inbox (s : State) (x : Glazing) : (s.setGlaz x).inbox = s.inbox := rfl
@[simp] theorem State.setGlaz_pending (s : State) (x : Glazing) : (s.setGlaz x).pending = s.pending := rfl
@[simp] theorem State.setGlaz_answer (s : State) (x : Glazing) : (s.setGlaz x).answer = s.answer := rfl
@[simp] theorem State.setGlaz_freeCount (s : State) (x : Glazing) : (s.setGlaz x).freeCount = s.freeCount := rfl
@[simp] theorem State.setGlaz_regs (s : State) (x : Glazing) : (s.setGlaz x).regs = s.regs := rfl
@[simp] theorem State.setGlaz_shadows (s : State) (x : Glazing) : (s.setGlaz x).shadows = s.shadows := rfl
@[simp] theorem State.setGlaz_unlock (s : State) (x : Glazing) : (s.setGlaz x).unlock = s.unlock := rfl
@[simp] theorem State.setGlaz_reports (s : State) (x : Glazing) : (s.setGlaz x).reports = s.reports := rfl
@[simp] theorem State.setGlaz_tick (s : State) (x : Glazing) : (s.setGlaz x).tick = s.tick := rfl
@[simp] theorem State.setGlaz_lintel (s : State) (x : Glazing) : (s.setGlaz x).lintel = s.lintel := rfl
@[simp] theorem State.setGlaz_linkLosses (s : State) (x : Glazing) : (s.setGlaz x).linkLosses = s.linkLosses := rfl
@[simp] theorem State.setGlaz_bridgeFresh (s : State) (x : Glazing) : (s.setGlaz x).bridgeFresh = s.bridgeFresh := rfl
@[simp] theorem State.setGlaz_ddr (s : State) (x : Glazing) : (s.setGlaz x).ddr = s.ddr := rfl
@[simp] theorem State.setGlaz_pins (s : State) (x : Glazing) : (s.setGlaz x).pins = s.pins := rfl
@[simp] theorem State.setGlaz_agg (s : State) (x : Glazing) : (s.setGlaz x).agg = s.agg := rfl
@[simp] theorem State.setGlaz_porter (s : State) (x : Glazing) : (s.setGlaz x).porter = s.porter := rfl
@[simp] theorem State.setGlaz_gangs (s : State) (x : Glazing) : (s.setGlaz x).gangs = s.gangs := rfl
@[simp] theorem State.setGlaz_doneTasks (s : State) (x : Glazing) : (s.setGlaz x).doneTasks = s.doneTasks := rfl
@[simp] theorem State.setGlaz_panes (s : State) (x : Glazing) : (s.setGlaz x).panes = s.panes := rfl
@[simp] theorem State.setGlaz_pctl (s : State) (x : Glazing) : (s.setGlaz x).pctl = s.pctl := rfl
@[simp] theorem State.setGlaz_rowPorts (s : State) (x : Glazing) : (s.setGlaz x).rowPorts = s.rowPorts := rfl
@[simp] theorem State.setGlaz_macroFlight (s : State) (x : Glazing) : (s.setGlaz x).macroFlight = s.macroFlight := rfl
@[simp] theorem State.setGlaz_bistFresh (s : State) (x : Glazing) : (s.setGlaz x).bistFresh = s.bistFresh := rfl
@[simp] theorem State.setGlaz_pant (s : State) (x : Glazing) : (s.setGlaz x).pant = s.pant := rfl
@[simp] theorem State.setGlaz_marchDue (s : State) (x : Glazing) : (s.setGlaz x).marchDue = s.marchDue := rfl
@[simp] theorem State.setGlaz_march (s : State) (x : Glazing) : (s.setGlaz x).march = s.march := rfl
@[simp] theorem State.setGlaz_arrayLink (s : State) (x : Glazing) : (s.setGlaz x).arrayLink = s.arrayLink := rfl
@[simp] theorem State.setGlaz_engMem (s : State) (x : Glazing) : (s.setGlaz x).engMem = s.engMem := rfl
@[simp] theorem State.setGlaz_engines (s : State) (x : Glazing) : (s.setGlaz x).engines = s.engines := rfl
@[simp] theorem State.setGlaz_heads (s : State) (x : Glazing) : (s.setGlaz x).heads = s.heads := rfl
@[simp] theorem State.setGlaz_regionSel (s : State) (x : Glazing) : (s.setGlaz x).regionSel = s.regionSel := rfl
@[simp] theorem State.setGlaz_cams (s : State) (x : Glazing) : (s.setGlaz x).cams = s.cams := rfl
@[simp] theorem State.setGlaz_surfaces (s : State) (x : Glazing) : (s.setGlaz x).surfaces = s.surfaces := rfl
@[simp] theorem State.setGlaz_doorbells (s : State) (x : Glazing) : (s.setGlaz x).doorbells = s.doorbells := rfl
@[simp] theorem State.setGlaz_sigt (s : State) (x : Glazing) : (s.setGlaz x).sigt = s.sigt := rfl
@[simp] theorem State.setGlaz_gate (s : State) (x : Glazing) : (s.setGlaz x).gate = s.gate := rfl
@[simp] theorem State.setGlaz_latch (s : State) (x : Glazing) : (s.setGlaz x).latch = s.latch := rfl
@[simp] theorem State.setGlaz_hatchOpen (s : State) (x : Glazing) : (s.setGlaz x).hatchOpen = s.hatchOpen := rfl
@[simp] theorem State.setGlaz_flash (s : State) (x : Glazing) : (s.setGlaz x).flash = s.flash := rfl
@[simp] theorem State.setGlaz_fabric (s : State) (x : Glazing) : (s.setGlaz x).fabric = s.fabric := rfl
@[simp] theorem State.setGlaz_flashJob (s : State) (x : Glazing) : (s.setGlaz x).flashJob = s.flashJob := rfl
@[simp] theorem State.setGlaz_serial (s : State) (x : Glazing) : (s.setGlaz x).serial = s.serial := rfl
@[simp] theorem State.setGlaz_shutter (s : State) (x : Glazing) : (s.setGlaz x).shutter = s.shutter := rfl
@[simp] theorem State.setGlaz_boot (s : State) (x : Glazing) : (s.setGlaz x).boot = s.boot := rfl
@[simp] theorem State.setGlaz_bootActive (s : State) (x : Glazing) : (s.setGlaz x).bootActive = s.bootActive := rfl
@[simp] theorem State.setGlaz_missedTicks (s : State) (x : Glazing) : (s.setGlaz x).missedTicks = s.missedTicks := rfl
@[simp] theorem State.setGlaz_jtag (s : State) (x : Glazing) : (s.setGlaz x).jtag = s.jtag := rfl
@[simp] theorem State.setGlaz_vtOut (s : State) (x : Glazing) : (s.setGlaz x).vtOut = s.vtOut := rfl
@[simp] theorem State.setGlaz_vtIn (s : State) (x : Glazing) : (s.setGlaz x).vtIn = s.vtIn := rfl
@[simp] theorem State.setGlaz_released (s : State) (x : Glazing) : (s.setGlaz x).released = s.released := rfl
@[simp] theorem State.setGlaz_getReg (s : State) (x : Glazing) (a b e : Nat): (s.setGlaz x).getReg a b e= s.getReg a b e:= rfl
@[simp] theorem State.setGlaz_get (s : State) (x : Glazing) (g : Field) (a : Nat): (s.setGlaz x).get g a= s.get g a:= rfl
@[simp] theorem State.setGlaz_flag (s : State) (x : Glazing) (g : Field) (a : Nat): (s.setGlaz x).flag g a= s.flag g a:= rfl
@[simp] theorem State.setGlaz_domain (s : State) (x : Glazing) (a : Nat): (s.setGlaz x).domain a= s.domain a:= rfl
@[simp] theorem State.setGlaz_domainOn (s : State) (x : Glazing) (a : Nat): (s.setGlaz x).domainOn a= s.domainOn a:= rfl
@[simp] theorem State.setGlaz_domainUp (s : State) (x : Glazing) (a : Nat): (s.setGlaz x).domainUp a= s.domainUp a:= rfl
@[simp] theorem State.setGlaz_linkUp (s : State) (x : Glazing) : (s.setGlaz x).linkUp = s.linkUp := rfl
@[simp] theorem State.setGlaz_eng (s : State) (x : Glazing) (a : Nat): (s.setGlaz x).eng a= s.eng a:= rfl
@[simp] theorem State.setGlaz_mem (s : State) (x : Glazing) (a : Nat): (s.setGlaz x).mem a= s.mem a:= rfl
@[simp] theorem State.setGlaz_ctl (s : State) (x : Glazing) (a : Nat): (s.setGlaz x).ctl a= s.ctl a:= rfl
@[simp] theorem State.setGlaz_pane (s : State) (x : Glazing) (a : Nat): (s.setGlaz x).pane a= s.pane a:= rfl
@[simp] theorem State.setGlaz_link (s : State) (x : Glazing) (a : Nat): (s.setGlaz x).link a= s.link a:= rfl
@[simp] theorem State.setGlaz_port (s : State) (x : Glazing) (a : Nat): (s.setGlaz x).port a= s.port a:= rfl
@[simp] theorem State.setGlaz_run (s : State) (x : Glazing) (a : Nat): (s.setGlaz x).run a= s.run a:= rfl
@[simp] theorem State.setGlaz_th (s : State) (x : Glazing) (a : Nat): (s.setGlaz x).th a= s.th a:= rfl
@[simp] theorem State.setGlaz_stile (s : State) (x : Glazing) (a : Nat): (s.setGlaz x).stile a= s.stile a:= rfl
@[simp] theorem State.setGlaz_head (s : State) (x : Glazing) (a : Nat): (s.setGlaz x).head a= s.head a:= rfl
@[simp] theorem State.setGlaz_cam (s : State) (x : Glazing) (a : Nat): (s.setGlaz x).cam a= s.cam a:= rfl
@[simp] theorem State.setGlaz_ddrCh (s : State) (x : Glazing) (a : Nat): (s.setGlaz x).ddrCh a= s.ddrCh a:= rfl
@[simp] theorem State.setGlaz_bank (s : State) (x : Glazing) (a : Nat): (s.setGlaz x).bank a= s.bank a:= rfl
@[simp] theorem State.setGlaz_surf (s : State) (x : Glazing) (a : Nat): (s.setGlaz x).surf a= s.surf a:= rfl
@[simp] theorem State.setGlaz_side (s : State) (x : Glazing) (a : Nat): (s.setGlaz x).side a= s.side a:= rfl

/-! ### setAgg -/

@[simp] theorem State.setAgg_stiles (s : State) (x : AggState) : (s.setAgg x).stiles = s.stiles := rfl
@[simp] theorem State.setAgg_trlh (s : State) (x : AggState) : (s.setAgg x).trlh = s.trlh := rfl
@[simp] theorem State.setAgg_ejected (s : State) (x : AggState) : (s.setAgg x).ejected = s.ejected := rfl
@[simp] theorem State.setAgg_bridge (s : State) (x : AggState) : (s.setAgg x).bridge = s.bridge := rfl
@[simp] theorem State.setAgg_trace (s : State) (x : AggState) : (s.setAgg x).trace = s.trace := rfl
@[simp] theorem State.setAgg_nocNow (s : State) (x : AggState) : (s.setAgg x).nocNow = s.nocNow := rfl
@[simp] theorem State.setAgg_inbox (s : State) (x : AggState) : (s.setAgg x).inbox = s.inbox := rfl
@[simp] theorem State.setAgg_pending (s : State) (x : AggState) : (s.setAgg x).pending = s.pending := rfl
@[simp] theorem State.setAgg_answer (s : State) (x : AggState) : (s.setAgg x).answer = s.answer := rfl
@[simp] theorem State.setAgg_freeCount (s : State) (x : AggState) : (s.setAgg x).freeCount = s.freeCount := rfl
@[simp] theorem State.setAgg_regs (s : State) (x : AggState) : (s.setAgg x).regs = s.regs := rfl
@[simp] theorem State.setAgg_shadows (s : State) (x : AggState) : (s.setAgg x).shadows = s.shadows := rfl
@[simp] theorem State.setAgg_unlock (s : State) (x : AggState) : (s.setAgg x).unlock = s.unlock := rfl
@[simp] theorem State.setAgg_reports (s : State) (x : AggState) : (s.setAgg x).reports = s.reports := rfl
@[simp] theorem State.setAgg_tick (s : State) (x : AggState) : (s.setAgg x).tick = s.tick := rfl
@[simp] theorem State.setAgg_lintel (s : State) (x : AggState) : (s.setAgg x).lintel = s.lintel := rfl
@[simp] theorem State.setAgg_linkLosses (s : State) (x : AggState) : (s.setAgg x).linkLosses = s.linkLosses := rfl
@[simp] theorem State.setAgg_bridgeFresh (s : State) (x : AggState) : (s.setAgg x).bridgeFresh = s.bridgeFresh := rfl
@[simp] theorem State.setAgg_ddr (s : State) (x : AggState) : (s.setAgg x).ddr = s.ddr := rfl
@[simp] theorem State.setAgg_pins (s : State) (x : AggState) : (s.setAgg x).pins = s.pins := rfl
@[simp] theorem State.setAgg_porter (s : State) (x : AggState) : (s.setAgg x).porter = s.porter := rfl
@[simp] theorem State.setAgg_gangs (s : State) (x : AggState) : (s.setAgg x).gangs = s.gangs := rfl
@[simp] theorem State.setAgg_doneTasks (s : State) (x : AggState) : (s.setAgg x).doneTasks = s.doneTasks := rfl
@[simp] theorem State.setAgg_panes (s : State) (x : AggState) : (s.setAgg x).panes = s.panes := rfl
@[simp] theorem State.setAgg_pctl (s : State) (x : AggState) : (s.setAgg x).pctl = s.pctl := rfl
@[simp] theorem State.setAgg_rowPorts (s : State) (x : AggState) : (s.setAgg x).rowPorts = s.rowPorts := rfl
@[simp] theorem State.setAgg_macroFlight (s : State) (x : AggState) : (s.setAgg x).macroFlight = s.macroFlight := rfl
@[simp] theorem State.setAgg_bistFresh (s : State) (x : AggState) : (s.setAgg x).bistFresh = s.bistFresh := rfl
@[simp] theorem State.setAgg_pant (s : State) (x : AggState) : (s.setAgg x).pant = s.pant := rfl
@[simp] theorem State.setAgg_marchDue (s : State) (x : AggState) : (s.setAgg x).marchDue = s.marchDue := rfl
@[simp] theorem State.setAgg_march (s : State) (x : AggState) : (s.setAgg x).march = s.march := rfl
@[simp] theorem State.setAgg_arrayLink (s : State) (x : AggState) : (s.setAgg x).arrayLink = s.arrayLink := rfl
@[simp] theorem State.setAgg_engMem (s : State) (x : AggState) : (s.setAgg x).engMem = s.engMem := rfl
@[simp] theorem State.setAgg_engines (s : State) (x : AggState) : (s.setAgg x).engines = s.engines := rfl
@[simp] theorem State.setAgg_heads (s : State) (x : AggState) : (s.setAgg x).heads = s.heads := rfl
@[simp] theorem State.setAgg_glaz (s : State) (x : AggState) : (s.setAgg x).glaz = s.glaz := rfl
@[simp] theorem State.setAgg_regionSel (s : State) (x : AggState) : (s.setAgg x).regionSel = s.regionSel := rfl
@[simp] theorem State.setAgg_cams (s : State) (x : AggState) : (s.setAgg x).cams = s.cams := rfl
@[simp] theorem State.setAgg_surfaces (s : State) (x : AggState) : (s.setAgg x).surfaces = s.surfaces := rfl
@[simp] theorem State.setAgg_doorbells (s : State) (x : AggState) : (s.setAgg x).doorbells = s.doorbells := rfl
@[simp] theorem State.setAgg_sigt (s : State) (x : AggState) : (s.setAgg x).sigt = s.sigt := rfl
@[simp] theorem State.setAgg_gate (s : State) (x : AggState) : (s.setAgg x).gate = s.gate := rfl
@[simp] theorem State.setAgg_latch (s : State) (x : AggState) : (s.setAgg x).latch = s.latch := rfl
@[simp] theorem State.setAgg_hatchOpen (s : State) (x : AggState) : (s.setAgg x).hatchOpen = s.hatchOpen := rfl
@[simp] theorem State.setAgg_flash (s : State) (x : AggState) : (s.setAgg x).flash = s.flash := rfl
@[simp] theorem State.setAgg_fabric (s : State) (x : AggState) : (s.setAgg x).fabric = s.fabric := rfl
@[simp] theorem State.setAgg_flashJob (s : State) (x : AggState) : (s.setAgg x).flashJob = s.flashJob := rfl
@[simp] theorem State.setAgg_serial (s : State) (x : AggState) : (s.setAgg x).serial = s.serial := rfl
@[simp] theorem State.setAgg_shutter (s : State) (x : AggState) : (s.setAgg x).shutter = s.shutter := rfl
@[simp] theorem State.setAgg_boot (s : State) (x : AggState) : (s.setAgg x).boot = s.boot := rfl
@[simp] theorem State.setAgg_bootActive (s : State) (x : AggState) : (s.setAgg x).bootActive = s.bootActive := rfl
@[simp] theorem State.setAgg_missedTicks (s : State) (x : AggState) : (s.setAgg x).missedTicks = s.missedTicks := rfl
@[simp] theorem State.setAgg_jtag (s : State) (x : AggState) : (s.setAgg x).jtag = s.jtag := rfl
@[simp] theorem State.setAgg_vtOut (s : State) (x : AggState) : (s.setAgg x).vtOut = s.vtOut := rfl
@[simp] theorem State.setAgg_vtIn (s : State) (x : AggState) : (s.setAgg x).vtIn = s.vtIn := rfl
@[simp] theorem State.setAgg_released (s : State) (x : AggState) : (s.setAgg x).released = s.released := rfl
@[simp] theorem State.setAgg_getReg (s : State) (x : AggState) (a b e : Nat): (s.setAgg x).getReg a b e= s.getReg a b e:= rfl
@[simp] theorem State.setAgg_get (s : State) (x : AggState) (g : Field) (a : Nat): (s.setAgg x).get g a= s.get g a:= rfl
@[simp] theorem State.setAgg_flag (s : State) (x : AggState) (g : Field) (a : Nat): (s.setAgg x).flag g a= s.flag g a:= rfl
@[simp] theorem State.setAgg_domain (s : State) (x : AggState) (a : Nat): (s.setAgg x).domain a= s.domain a:= rfl
@[simp] theorem State.setAgg_domainOn (s : State) (x : AggState) (a : Nat): (s.setAgg x).domainOn a= s.domainOn a:= rfl
@[simp] theorem State.setAgg_domainUp (s : State) (x : AggState) (a : Nat): (s.setAgg x).domainUp a= s.domainUp a:= rfl
@[simp] theorem State.setAgg_linkUp (s : State) (x : AggState) : (s.setAgg x).linkUp = s.linkUp := rfl
@[simp] theorem State.setAgg_eng (s : State) (x : AggState) (a : Nat): (s.setAgg x).eng a= s.eng a:= rfl
@[simp] theorem State.setAgg_mem (s : State) (x : AggState) (a : Nat): (s.setAgg x).mem a= s.mem a:= rfl
@[simp] theorem State.setAgg_ctl (s : State) (x : AggState) (a : Nat): (s.setAgg x).ctl a= s.ctl a:= rfl
@[simp] theorem State.setAgg_pane (s : State) (x : AggState) (a : Nat): (s.setAgg x).pane a= s.pane a:= rfl
@[simp] theorem State.setAgg_link (s : State) (x : AggState) (a : Nat): (s.setAgg x).link a= s.link a:= rfl
@[simp] theorem State.setAgg_port (s : State) (x : AggState) (a : Nat): (s.setAgg x).port a= s.port a:= rfl
@[simp] theorem State.setAgg_run (s : State) (x : AggState) (a : Nat): (s.setAgg x).run a= s.run a:= rfl
@[simp] theorem State.setAgg_th (s : State) (x : AggState) (a : Nat): (s.setAgg x).th a= s.th a:= rfl
@[simp] theorem State.setAgg_stile (s : State) (x : AggState) (a : Nat): (s.setAgg x).stile a= s.stile a:= rfl
@[simp] theorem State.setAgg_head (s : State) (x : AggState) (a : Nat): (s.setAgg x).head a= s.head a:= rfl
@[simp] theorem State.setAgg_cam (s : State) (x : AggState) (a : Nat): (s.setAgg x).cam a= s.cam a:= rfl
@[simp] theorem State.setAgg_ddrCh (s : State) (x : AggState) (a : Nat): (s.setAgg x).ddrCh a= s.ddrCh a:= rfl
@[simp] theorem State.setAgg_bank (s : State) (x : AggState) (a : Nat): (s.setAgg x).bank a= s.bank a:= rfl
@[simp] theorem State.setAgg_surf (s : State) (x : AggState) (a : Nat): (s.setAgg x).surf a= s.surf a:= rfl
@[simp] theorem State.setAgg_side (s : State) (x : AggState) (a : Nat): (s.setAgg x).side a= s.side a:= rfl

/-! ### setBoot -/

@[simp] theorem State.setBoot_stiles (s : State) (x : BootFlow) : (s.setBoot x).stiles = s.stiles := rfl
@[simp] theorem State.setBoot_trlh (s : State) (x : BootFlow) : (s.setBoot x).trlh = s.trlh := rfl
@[simp] theorem State.setBoot_ejected (s : State) (x : BootFlow) : (s.setBoot x).ejected = s.ejected := rfl
@[simp] theorem State.setBoot_bridge (s : State) (x : BootFlow) : (s.setBoot x).bridge = s.bridge := rfl
@[simp] theorem State.setBoot_trace (s : State) (x : BootFlow) : (s.setBoot x).trace = s.trace := rfl
@[simp] theorem State.setBoot_nocNow (s : State) (x : BootFlow) : (s.setBoot x).nocNow = s.nocNow := rfl
@[simp] theorem State.setBoot_inbox (s : State) (x : BootFlow) : (s.setBoot x).inbox = s.inbox := rfl
@[simp] theorem State.setBoot_pending (s : State) (x : BootFlow) : (s.setBoot x).pending = s.pending := rfl
@[simp] theorem State.setBoot_answer (s : State) (x : BootFlow) : (s.setBoot x).answer = s.answer := rfl
@[simp] theorem State.setBoot_freeCount (s : State) (x : BootFlow) : (s.setBoot x).freeCount = s.freeCount := rfl
@[simp] theorem State.setBoot_regs (s : State) (x : BootFlow) : (s.setBoot x).regs = s.regs := rfl
@[simp] theorem State.setBoot_shadows (s : State) (x : BootFlow) : (s.setBoot x).shadows = s.shadows := rfl
@[simp] theorem State.setBoot_unlock (s : State) (x : BootFlow) : (s.setBoot x).unlock = s.unlock := rfl
@[simp] theorem State.setBoot_reports (s : State) (x : BootFlow) : (s.setBoot x).reports = s.reports := rfl
@[simp] theorem State.setBoot_tick (s : State) (x : BootFlow) : (s.setBoot x).tick = s.tick := rfl
@[simp] theorem State.setBoot_lintel (s : State) (x : BootFlow) : (s.setBoot x).lintel = s.lintel := rfl
@[simp] theorem State.setBoot_linkLosses (s : State) (x : BootFlow) : (s.setBoot x).linkLosses = s.linkLosses := rfl
@[simp] theorem State.setBoot_bridgeFresh (s : State) (x : BootFlow) : (s.setBoot x).bridgeFresh = s.bridgeFresh := rfl
@[simp] theorem State.setBoot_ddr (s : State) (x : BootFlow) : (s.setBoot x).ddr = s.ddr := rfl
@[simp] theorem State.setBoot_pins (s : State) (x : BootFlow) : (s.setBoot x).pins = s.pins := rfl
@[simp] theorem State.setBoot_agg (s : State) (x : BootFlow) : (s.setBoot x).agg = s.agg := rfl
@[simp] theorem State.setBoot_porter (s : State) (x : BootFlow) : (s.setBoot x).porter = s.porter := rfl
@[simp] theorem State.setBoot_gangs (s : State) (x : BootFlow) : (s.setBoot x).gangs = s.gangs := rfl
@[simp] theorem State.setBoot_doneTasks (s : State) (x : BootFlow) : (s.setBoot x).doneTasks = s.doneTasks := rfl
@[simp] theorem State.setBoot_panes (s : State) (x : BootFlow) : (s.setBoot x).panes = s.panes := rfl
@[simp] theorem State.setBoot_pctl (s : State) (x : BootFlow) : (s.setBoot x).pctl = s.pctl := rfl
@[simp] theorem State.setBoot_rowPorts (s : State) (x : BootFlow) : (s.setBoot x).rowPorts = s.rowPorts := rfl
@[simp] theorem State.setBoot_macroFlight (s : State) (x : BootFlow) : (s.setBoot x).macroFlight = s.macroFlight := rfl
@[simp] theorem State.setBoot_bistFresh (s : State) (x : BootFlow) : (s.setBoot x).bistFresh = s.bistFresh := rfl
@[simp] theorem State.setBoot_pant (s : State) (x : BootFlow) : (s.setBoot x).pant = s.pant := rfl
@[simp] theorem State.setBoot_marchDue (s : State) (x : BootFlow) : (s.setBoot x).marchDue = s.marchDue := rfl
@[simp] theorem State.setBoot_march (s : State) (x : BootFlow) : (s.setBoot x).march = s.march := rfl
@[simp] theorem State.setBoot_arrayLink (s : State) (x : BootFlow) : (s.setBoot x).arrayLink = s.arrayLink := rfl
@[simp] theorem State.setBoot_engMem (s : State) (x : BootFlow) : (s.setBoot x).engMem = s.engMem := rfl
@[simp] theorem State.setBoot_engines (s : State) (x : BootFlow) : (s.setBoot x).engines = s.engines := rfl
@[simp] theorem State.setBoot_heads (s : State) (x : BootFlow) : (s.setBoot x).heads = s.heads := rfl
@[simp] theorem State.setBoot_glaz (s : State) (x : BootFlow) : (s.setBoot x).glaz = s.glaz := rfl
@[simp] theorem State.setBoot_regionSel (s : State) (x : BootFlow) : (s.setBoot x).regionSel = s.regionSel := rfl
@[simp] theorem State.setBoot_cams (s : State) (x : BootFlow) : (s.setBoot x).cams = s.cams := rfl
@[simp] theorem State.setBoot_surfaces (s : State) (x : BootFlow) : (s.setBoot x).surfaces = s.surfaces := rfl
@[simp] theorem State.setBoot_doorbells (s : State) (x : BootFlow) : (s.setBoot x).doorbells = s.doorbells := rfl
@[simp] theorem State.setBoot_sigt (s : State) (x : BootFlow) : (s.setBoot x).sigt = s.sigt := rfl
@[simp] theorem State.setBoot_gate (s : State) (x : BootFlow) : (s.setBoot x).gate = s.gate := rfl
@[simp] theorem State.setBoot_latch (s : State) (x : BootFlow) : (s.setBoot x).latch = s.latch := rfl
@[simp] theorem State.setBoot_hatchOpen (s : State) (x : BootFlow) : (s.setBoot x).hatchOpen = s.hatchOpen := rfl
@[simp] theorem State.setBoot_flash (s : State) (x : BootFlow) : (s.setBoot x).flash = s.flash := rfl
@[simp] theorem State.setBoot_fabric (s : State) (x : BootFlow) : (s.setBoot x).fabric = s.fabric := rfl
@[simp] theorem State.setBoot_flashJob (s : State) (x : BootFlow) : (s.setBoot x).flashJob = s.flashJob := rfl
@[simp] theorem State.setBoot_serial (s : State) (x : BootFlow) : (s.setBoot x).serial = s.serial := rfl
@[simp] theorem State.setBoot_shutter (s : State) (x : BootFlow) : (s.setBoot x).shutter = s.shutter := rfl
@[simp] theorem State.setBoot_bootActive (s : State) (x : BootFlow) : (s.setBoot x).bootActive = s.bootActive := rfl
@[simp] theorem State.setBoot_missedTicks (s : State) (x : BootFlow) : (s.setBoot x).missedTicks = s.missedTicks := rfl
@[simp] theorem State.setBoot_jtag (s : State) (x : BootFlow) : (s.setBoot x).jtag = s.jtag := rfl
@[simp] theorem State.setBoot_vtOut (s : State) (x : BootFlow) : (s.setBoot x).vtOut = s.vtOut := rfl
@[simp] theorem State.setBoot_vtIn (s : State) (x : BootFlow) : (s.setBoot x).vtIn = s.vtIn := rfl
@[simp] theorem State.setBoot_released (s : State) (x : BootFlow) : (s.setBoot x).released = s.released := rfl
@[simp] theorem State.setBoot_getReg (s : State) (x : BootFlow) (a b e : Nat): (s.setBoot x).getReg a b e= s.getReg a b e:= rfl
@[simp] theorem State.setBoot_get (s : State) (x : BootFlow) (g : Field) (a : Nat): (s.setBoot x).get g a= s.get g a:= rfl
@[simp] theorem State.setBoot_flag (s : State) (x : BootFlow) (g : Field) (a : Nat): (s.setBoot x).flag g a= s.flag g a:= rfl
@[simp] theorem State.setBoot_domain (s : State) (x : BootFlow) (a : Nat): (s.setBoot x).domain a= s.domain a:= rfl
@[simp] theorem State.setBoot_domainOn (s : State) (x : BootFlow) (a : Nat): (s.setBoot x).domainOn a= s.domainOn a:= rfl
@[simp] theorem State.setBoot_domainUp (s : State) (x : BootFlow) (a : Nat): (s.setBoot x).domainUp a= s.domainUp a:= rfl
@[simp] theorem State.setBoot_linkUp (s : State) (x : BootFlow) : (s.setBoot x).linkUp = s.linkUp := rfl
@[simp] theorem State.setBoot_eng (s : State) (x : BootFlow) (a : Nat): (s.setBoot x).eng a= s.eng a:= rfl
@[simp] theorem State.setBoot_mem (s : State) (x : BootFlow) (a : Nat): (s.setBoot x).mem a= s.mem a:= rfl
@[simp] theorem State.setBoot_ctl (s : State) (x : BootFlow) (a : Nat): (s.setBoot x).ctl a= s.ctl a:= rfl
@[simp] theorem State.setBoot_pane (s : State) (x : BootFlow) (a : Nat): (s.setBoot x).pane a= s.pane a:= rfl
@[simp] theorem State.setBoot_link (s : State) (x : BootFlow) (a : Nat): (s.setBoot x).link a= s.link a:= rfl
@[simp] theorem State.setBoot_port (s : State) (x : BootFlow) (a : Nat): (s.setBoot x).port a= s.port a:= rfl
@[simp] theorem State.setBoot_run (s : State) (x : BootFlow) (a : Nat): (s.setBoot x).run a= s.run a:= rfl
@[simp] theorem State.setBoot_th (s : State) (x : BootFlow) (a : Nat): (s.setBoot x).th a= s.th a:= rfl
@[simp] theorem State.setBoot_stile (s : State) (x : BootFlow) (a : Nat): (s.setBoot x).stile a= s.stile a:= rfl
@[simp] theorem State.setBoot_head (s : State) (x : BootFlow) (a : Nat): (s.setBoot x).head a= s.head a:= rfl
@[simp] theorem State.setBoot_cam (s : State) (x : BootFlow) (a : Nat): (s.setBoot x).cam a= s.cam a:= rfl
@[simp] theorem State.setBoot_ddrCh (s : State) (x : BootFlow) (a : Nat): (s.setBoot x).ddrCh a= s.ddrCh a:= rfl
@[simp] theorem State.setBoot_bank (s : State) (x : BootFlow) (a : Nat): (s.setBoot x).bank a= s.bank a:= rfl
@[simp] theorem State.setBoot_surf (s : State) (x : BootFlow) (a : Nat): (s.setBoot x).surf a= s.surf a:= rfl
@[simp] theorem State.setBoot_side (s : State) (x : BootFlow) (a : Nat): (s.setBoot x).side a= s.side a:= rfl

/-! ### Registers -/

@[simp] theorem State.setReg_same (s : State) (ty n off : Nat) (v : Word) : (s.setReg ty n off v).getReg ty n off = v :=
  tblGet_set_same _ _ _ _

/-- A register write leaves what the file lists for every other register. -/
theorem State.setReg_find (s : State) (ty n off k : Nat) (v : Word) (h : k ≠ regKey ty n off) :
    tblFind (s.setReg ty n off v).regs k = tblFind s.regs k := tblFind_set_other _ _ _ _ _ h

theorem State.setReg_other (s : State) (ty n off ty' n' off' : Nat) (v : Word) (h : regKey ty' n' off' ≠ regKey ty n off) :
    (s.setReg ty n off v).getReg ty' n' off' = s.getReg ty' n' off' := by
  unfold State.getReg tblGet
  rw [State.setReg_find _ _ _ _ _ _ h]

/-- A field write leaves what the file lists for every other register. -/
theorem State.put_find (s : State) (f : Field) (n v k : Nat) (h : k ≠ regKey f.ty n f.off) :
    tblFind (s.put f n v).regs k = tblFind s.regs k := tblFind_set_other _ _ _ _ _ h

end Sys2Proof.Machine
end

