-- ==== Sys2Proof/Laws/Issue.lean ====
section
/-!
SUPPORT. What a syllable that is a bundle by itself does to an engine that is ready for it: the shared part of every Casement
instruction's meaning, said once.
-/

namespace Sys2Proof

theorem Syl.ok_ops (y : Syl) (h : y.ok = true) : y.ops < 2 ^ 19 := by
  simp only [Syl.ok, decide_eq_true_eq] at h
  exact h.2

theorem Syl.alone_parts (y : Syl) (h : y.alone = true) : y.ok = true ∧ y.stop = true ∧ y.cond = 0 ∧ y.gx = false := by
  simp only [Syl.alone, Bool.and_eq_true, beq_iff_eq, Bool.not_eq_true'] at h
  exact ⟨h.1.1.1, h.1.1.2, h.1.2, h.2⟩

end Sys2Proof

namespace Sys2Proof.Machine

/-! ### Fields of a syllable's word -/

/-- The word of a syllable that is a bundle by itself. -/
theorem sylWord_alone (op : Nat) (y : Syl) (h : y.alone = true) : sylWord op y = 2 ^ 31 + op * 2 ^ 20 + y.ops := by
  obtain ⟨_, h1, h2, h3⟩ := y.alone_parts h
  simp [sylWord, h1, h2, h3, bit]

/-- A field below bit 19 of a syllable's word is that field of its operands. -/
theorem sylWord_low (op lo n : Nat) (y : Syl) (h : y.alone = true) (hn : lo + n ≤ 19) :
    bitsAt (sylWord op y) lo n = bitsAt y.ops lo n := by
  rw [sylWord_alone op y h]
  unfold bitsAt
  have hd : 2 ^ (lo + n) ∣ 2 ^ 31 + op * 2 ^ 20 := by
    refine Dvd.dvd.add (pow_dvd_pow 2 (by omega)) ?_
    exact Dvd.dvd.mul_left (pow_dvd_pow 2 (by omega)) op
  obtain ⟨c, hc⟩ := hd
  rw [hc, pow_add, mul_assoc, Nat.mul_add_div (by positivity), Nat.mul_add_mod]

theorem sylWord_low_bit (op k : Nat) (y : Syl) (h : y.alone = true) (hk : k < 19) : bitOf (sylWord op y) k = bitOf y.ops k := by
  have := sylWord_low op k 1 y h (by omega)
  simp only [bitsAt, pow_one] at this
  simp only [bitOf, this]

theorem sylWord_op (op : Nat) (y : Syl) (h : y.alone = true) (hop : op < 128) : sylOp (sylWord op y) = op := by
  have ho := y.ok_ops (y.alone_parts h).1
  rw [sylWord_alone op y h]
  simp only [sylOp, bitsAt]
  omega

theorem sylWord_stop (op : Nat) (y : Syl) (h : y.alone = true) (hop : op < 128) : sylStop (sylWord op y) = true := by
  have ho := y.ok_ops (y.alone_parts h).1
  rw [sylWord_alone op y h]
  simp only [sylStop, bitOf, beq_iff_eq]
  omega

theorem sylWord_cond (op : Nat) (y : Syl) (h : y.alone = true) (hop : op < 128) : sylCond (sylWord op y) = 0 := by
  have ho := y.ok_ops (y.alone_parts h).1
  rw [sylWord_alone op y h]
  simp only [sylCond, bitsAt]
  omega

theorem sylWord_gx (op : Nat) (y : Syl) (h : y.alone = true) (_hop : op < 128) : sylGx (sylWord op y) = false := by
  have ho := y.ok_ops (y.alone_parts h).1
  rw [sylWord_alone op y h]
  simp only [sylGx, bitOf, beq_eq_false_iff_ne]
  omega

theorem sylWord_class (op : Nat) (y : Syl) (h : y.alone = true) (_hop : op < 128) : bitsAt (sylWord op y) 25 2 = op / 32 := by
  have ho := y.ok_ops (y.alone_parts h).1
  rw [sylWord_alone op y h]
  simp only [bitsAt]
  omega

/-! ### A ready engine -/

/-- The parts of readiness. -/
structure Ready (s : State) (e : EngineId) : Prop where
  ok : engineOk e = true
  issue : canIssue s e.ty e.num = true
  bundle : (s.core e).bundle = []
  loads : (s.core e).loads = []
  due : (s.core e).due = []
  late : (s.core e).late = []
  held : (s.core e).held = false
  stop : (s.core e).stopReq = false
  halt : (s.core e).haltReq = 0
  step : (s.core e).stepReq = 0
  event : boundaryEvent s e.ty e.num false = none
  fetch : fetchable e.ty e.num ((s.core e).pc % 2 ^ widthOf e.ty) = true
  row : s.rowClean e = true

theorem ready_parts (s : State) (e : EngineId) (h : s.ready e = true) : Ready s e := by
  simp only [State.ready, Bool.and_eq_true, beq_iff_eq, Bool.not_eq_true', Option.isNone_iff_eq_none] at h
  obtain ⟨⟨⟨⟨⟨⟨⟨⟨⟨⟨⟨⟨h1, h2⟩, h3⟩, h4⟩, h5⟩, h6⟩, h7⟩, h8⟩, h9⟩, h10⟩, h11⟩, h12⟩, h13⟩ := h
  exact ⟨h1, h2, h3, h4, h5, h6, h7, h8, h9, h10, h11, h12, h13⟩

/-- The state differs from another at most in how its engines are listed. -/
structure SameEngines (s0 s : State) : Prop where
  rest : s0 = { s with engines := s0.engines }
  engines : ∀ j, s0.eng j = s.eng j

theorem SameEngines.setEng (s : State) (k : Nat) (x : Engine) (h : x = s.eng k) : SameEngines (s.setEng k x) s := by
  refine ⟨rfl, fun j => ?_⟩
  rw [State.setEng_at, h]
  split
  · next hj => rw [hj]
  · rfl

theorem SameEngines.trans {a b c : State} (h1 : SameEngines a b) (h2 : SameEngines b c) : SameEngines a c := by
  refine ⟨?_, fun j => (h1.engines j).trans (h2.engines j)⟩
  rw [h1.rest, h2.rest]

/-- A ready engine settled is the same engine. -/
theorem settle_ready (s : State) (e : EngineId) (h : Ready s e) : SameEngines (settleEngine e.ty e.num s) s := by
  have hx : (s.core e) = s.eng (engKey e.ty e.num) := rfl
  have hl : SameEngines (landLoads e.ty e.num s) s := by
    unfold landLoads
    refine SameEngines.setEng s _ _ ?_
    rw [← hx, h.due]
    show { s.core e with phys := (s.core e).phys, due := [] } = s.core e
    conv_rhs => rw [show s.core e = { s.core e with due := (s.core e).due } from rfl, h.due]
  refine SameEngines.trans ?_ hl
  unfold settleEngine
  refine SameEngines.setEng _ _ _ ?_
  rw [hl.engines, ← hx]
  unfold landUpTo
  rw [h.late]
  show { s.core e with late := [], cyc := max (s.core e).cyc (s.core e).cyc } = s.core e
  rw [Nat.max_self]
  conv_rhs => rw [show s.core e = { s.core e with late := (s.core e).late } from rfl, h.late]

/-- Listing the engines otherwise does not change what the boundary finds. -/
theorem boundary_same (s0 s : State) (hs : SameEngines s0 s) (e : EngineId) (h : Ready s e) :
    boundary e.ty e.num ((s0.eng (engKey e.ty e.num)).stepReq == 2) s0 = none := by
  have hx : s0.eng (engKey e.ty e.num) = s.core e := hs.engines _
  have hev : boundaryEvent s0 e.ty e.num false = none := by
    have hb : boundaryEvent s0 e.ty e.num false = boundaryEvent s e.ty e.num false := by
      have hx' : s0.eng (engKey e.ty e.num) = s.eng (engKey e.ty e.num) := hs.engines _
      unfold boundaryEvent
      have hl : s0.link (engKey e.ty e.num) = s.link (engKey e.ty e.num) := by rw [hs.rest]; rfl
      have hi : s0.irqLine e.ty e.num = s.irqLine e.ty e.num := by
        have hp : s0.ipend e.ty e.num = s.ipend e.ty e.num := by rw [hs.rest]; rfl
        have hy : s0.sysReg e.ty e.num 0x0D = s.sysReg e.ty e.num 0x0D := by
          unfold State.sysReg
          rw [hx']
        unfold State.irqLine
        rw [hp, hy]
      simp only [hx', hl, hi]
    rw [hb]
    exact h.event
  unfold boundary
  simp only [hx, h.stop, h.halt, h.loads, h.step, Bool.false_eq_true, if_false, ne_eq, not_true_eq_false, false_and]
  rw [show ((0 : Nat) == 2) = false from rfl, hev]
  rfl

/-- A one-word bundle with its stop bit breaks no rule of R180. -/
theorem illegal_one (ty w : Nat) (hs : sylStop w = true) : illegalBundle ty [w] = none := by
  simp [illegalBundle, illegalFrom, hs]

/-- The instruction row of a ready engine is met without a trace. -/
theorem readRow_clean (ty n : Nat) (dm : Bool) (row : Nat) (s : State) (h : (s.mem (engKey ty n)).decode dm row = .clean) :
    readRow ty n dm row s = s := by
  unfold readRow
  rw [h]

/-- A syllable by itself at a ready engine runs as a bundle of one word. -/
theorem issue_runs (e : EngineId) (op : Nat) (y : Syl) (s : State) (hr : s.ready e = true) (hy : y.alone = true) (hop : op < 128) :
    ∃ s0, SameEngines s0 s ∧ issue e op y s = runBundle e.ty e.num [sylWord op y] y.stamp s0 := by
  have h := ready_parts s e hr
  refine ⟨settleEngine e.ty e.num s, settle_ready s e h, ?_⟩
  have hs := settle_ready s e h
  have hx : (settleEngine e.ty e.num s).eng (engKey e.ty e.num) = s.core e := hs.engines _
  have hm : (settleEngine e.ty e.num s).mem (engKey e.ty e.num) = s.mem (engKey e.ty e.num) := by rw [hs.rest]; rfl
  unfold issue issueWord
  have hheld : ¬((s.eng (engKey e.ty e.num)).held = true ∧ (s.eng (engKey e.ty e.num)).bundle = []) := fun hc => by
    rw [show (s.eng (engKey e.ty e.num)).held = false from h.held] at hc
    exact absurd hc.1 Bool.false_ne_true
  rw [if_pos h.issue]
  simp only [if_neg hheld, if_pos (show (s.eng (engKey e.ty e.num)).bundle = [] from h.bundle)]
  simp only [boundary_same _ s hs e h, Option.getD_none]
  unfold pushSyl
  simp only [hx, hm, h.bundle, List.length_nil, Nat.mul_zero, Nat.add_zero, h.fetch, Bool.not_true, Bool.false_eq_true, false_or]
  have hrow := h.row
  simp only [State.rowClean, Bool.or_eq_true, Bool.not_eq_true', beq_iff_eq] at hrow
  have hbad : ¬(decide ((s.core e).pc % 2 ^ widthOf e.ty + 4 ≤ imemBytes e.ty) = true ∧
      (s.mem (engKey e.ty e.num)).bad false [(s.core e).pc % 2 ^ widthOf e.ty / 8] = true) := by
    rintro ⟨ha, hb⟩
    rcases hrow with hrow | hrow
    · rw [ha] at hrow
      cases hrow
    · simp [EngMem.bad, hrow] at hb
  rw [if_neg hbad]
  have hclean : (if decide ((s.core e).pc % 2 ^ widthOf e.ty + 4 ≤ imemBytes e.ty) = true then
      readRow e.ty e.num false ((s.core e).pc % 2 ^ widthOf e.ty / 8) (settleEngine e.ty e.num s) else settleEngine e.ty e.num s) =
      settleEngine e.ty e.num s := by
    split
    · next ha =>
      refine readRow_clean _ _ _ _ _ ?_
      rw [hm]
      rcases hrow with hrow | hrow
      · rw [ha] at hrow
        cases hrow
      · exact hrow
    · rfl
  rw [hclean]
  simp [sylWord_stop op y hy hop]

/-- What a bundle sees at a ready engine once it has stalled for nothing. -/
theorem stall_ready (s0 s : State) (hs : SameEngines s0 s) (e : EngineId) (h : Ready s e) (ws : List Nat) :
    takeBundle e.ty ws (s0.eng (engKey e.ty e.num)) = s.core e := by
  rw [show s0.eng (engKey e.ty e.num) = s.core e from hs.engines _]
  unfold takeBundle stall landUpTo lastLanding
  simp only [h.late, List.filter_nil, List.foldl_nil, Nat.max_zero, max_self]
  conv_rhs => rw [show s.core e = { s.core e with late := (s.core e).late, bundle := (s.core e).bundle, held := (s.core e).held } from rfl,
    h.late, h.bundle, h.held]

/-- The effects of a syllable that stay in its engine's registers. -/
structure Eff.Plain (f : Eff) : Prop where
  g : f.g = none
  stores : f.stores = []
  rows : f.rows = []
  hand : f.hand = []
  fbar : f.fbar = false

/-- Plain effects leave the rest of the device. -/
theorem applyOutside_plain (ty n : Nat) (s : State) (f : Eff) (h : f.Plain) : applyOutside ty n s f = s := by
  unfold applyOutside readRows
  simp [h.g, h.stores, h.rows, h.hand]

/-- The engine after a bundle of one syllable with plain effects. -/
def Engine.committed (x : Engine) (ty : Nat) (f : Eff) : Engine :=
  { applyRegs ty x f with
    due := [], loads := f.loads, pc := f.jump.getD (pcOf ty (x.pc + 4)), cyc := x.cyc + 1 + f.cost, bundle := [], far := none }

theorem canIssue_far (s : State) (e : EngineId) (h : Ready s e) : (s.core e).far = none := by
  have := h.issue
  simp only [canIssue, Bool.and_eq_true, Option.isNone_iff_eq_none] at this
  exact this.1.2

/-- The commit of a bundle of one syllable with plain effects. -/
theorem commit_plain (e : EngineId) (s s0 : State) (hs : SameEngines s0 s) (h : Ready s e) (f : Eff) (hp : f.Plain) :
    commit (Ctx.now e.ty e.num 1 s0) [f] s0 =
      showPc e.ty e.num (s.core e).pc (s0.setEng (engKey e.ty e.num) ((s.core e).committed e.ty f)) := by
  have hx : s0.eng (engKey e.ty e.num) = s.core e := hs.engines _
  unfold commit
  simp only [List.foldl_cons, List.foldl_nil, Ctx.now]
  rw [applyOutside_plain _ _ _ _ hp, hx]
  have hl : (applyRegs e.ty (s.core e) f).loads = [] := h.loads
  have hstep : (applyRegs e.ty (s.core e) f).stepped = applyRegs e.ty (s.core e) f := by
    unfold Engine.stepped
    rw [if_pos (show (applyRegs e.ty (s.core e) f).stepReq = 0 from h.step)]
  rw [hstep, hl]
  unfold Engine.committed
  simp only [List.filter_nil, List.map_cons, List.map_nil, List.flatten_cons, List.flatten_nil, List.append_nil, List.sum_cons,
    List.sum_nil, Nat.add_zero]
  congr 3
  unfold Ctx.next
  cases hj : f.jump <;> simp [hj, hx]

/-- A bundle of one syllable with plain effects comes to its commit. -/
theorem finish_plain (e : EngineId) (w stamp : Nat) (s0 : State) (f : Eff) (hp : f.Plain)
    (hh : (Ctx.now e.ty e.num 1 s0).holds w = true) (hf : opEffect (Ctx.now e.ty e.num 1 s0) false w = .ok f) :
    finishBundle (Ctx.now e.ty e.num 1 s0) [w] false stamp s0 = commit (Ctx.now e.ty e.num 1 s0) [f] s0 := by
  have hrr : (Ctx.now e.ty e.num 1 s0).result false w = .ok f := by
    unfold Ctx.result
    rw [hh, if_pos rfl, hf]
  unfold finishBundle
  simp only [List.map_cons, List.map_nil, hrr]
  simp only [firstTrap, List.any_cons, List.any_nil, OpRes.isHalt, OpRes.isDouble, OpRes.isWait, Bool.or_self, Bool.false_eq_true, if_false,
    List.findSome?_cons, List.findSome?_nil, OpRes.farOf, List.filterMap_cons, List.filterMap_nil, OpRes.effOf]
  unfold afterBundle
  simp only [List.any_cons, List.any_nil, hp.fbar, Bool.or_self, Bool.false_and, Bool.false_eq_true, if_false]

theorem endBundle_run (ty n : Nat) (s : State) (h : (s.eng (engKey ty n)).stopReq = false) : endBundle ty n s = s := by
  unfold endBundle
  simp [h]

theorem showPc_eng (ty n pc k : Nat) (s : State) : (showPc ty n pc s).eng k = s.eng k := rfl

/-- A bundle of one syllable that is not reserved goes to its end. -/
theorem run_one (e : EngineId) (w stamp : Nat) (s1 : State) (hw : sylStop w = true) (hrep : sylOp w ≠ 0x1F)
    (hres : reservedSyl e.ty
        ((Ctx.now e.ty e.num 1 (s1.setEng (engKey e.ty e.num) (takeBundle e.ty [w] (s1.eng (engKey e.ty e.num))))).sr 0x13)
        ⟨(Ctx.now e.ty e.num 1 (s1.setEng (engKey e.ty e.num) (takeBundle e.ty [w] (s1.eng (engKey e.ty e.num))))).res,
          trapActive e.ty (Ctx.now e.ty e.num 1 (s1.setEng (engKey e.ty e.num) (takeBundle e.ty [w] (s1.eng (engKey e.ty e.num))))).sys,
          (Ctx.now e.ty e.num 1 (s1.setEng (engKey e.ty e.num) (takeBundle e.ty [w] (s1.eng (engKey e.ty e.num))))).reg (sylRa w)⟩ w =
        false) :
    runBundle e.ty e.num [w] stamp s1 =
      endBundle e.ty e.num (finishBundle
        (Ctx.now e.ty e.num 1 (s1.setEng (engKey e.ty e.num) (takeBundle e.ty [w] (s1.eng (engKey e.ty e.num))))) [w] false stamp
        (s1.setEng (engKey e.ty e.num) (takeBundle e.ty [w] (s1.eng (engKey e.ty e.num))))) := by
  unfold runBundle
  simp only [List.length_singleton]
  rw [illegal_one _ _ hw]
  simp only [isRepBundle, reservedFrom, hrep, if_false, hres, Bool.false_and, Bool.or_self, Bool.false_eq_true]

/-- A syllable by itself whose effects are plain, at a ready engine: the engine's registers, its PC and xxx_PC change, nothing else. -/
theorem issue_plain (e : EngineId) (op : Nat) (y : Syl) (s : State) (f : Eff) (hr : s.ready e = true) (hy : y.alone = true)
    (hop : op < 128) (hrep : op ≠ 0x1F) (hp : f.Plain)
    (hres : ∀ s0, SameEngines s0 s →
      reservedSyl e.ty ((Ctx.now e.ty e.num 1 s0).sr 0x13)
        ⟨(Ctx.now e.ty e.num 1 s0).res, trapActive e.ty (Ctx.now e.ty e.num 1 s0).sys,
          (Ctx.now e.ty e.num 1 s0).reg (sylRa (sylWord op y))⟩ (sylWord op y) = false)
    (hf : ∀ s0, SameEngines s0 s → opEffect (Ctx.now e.ty e.num 1 s0) false (sylWord op y) = .ok f) :
    ∃ s0, SameEngines s0 s ∧
      issue e op y s = showPc e.ty e.num (s.core e).pc (s0.setEng (engKey e.ty e.num) ((s.core e).committed e.ty f)) := by
  have h := ready_parts s e hr
  obtain ⟨s1, hs1, hi⟩ := issue_runs e op y s hr hy hop
  have hst := stall_ready s1 s hs1 e h [sylWord op y]
  have hs : SameEngines (s1.setEng (engKey e.ty e.num) (takeBundle e.ty [sylWord op y] (s1.eng (engKey e.ty e.num)))) s := by
    refine SameEngines.trans ?_ hs1
    rw [hst]
    exact SameEngines.setEng _ _ _ (hs1.engines _).symm
  refine ⟨_, hs, ?_⟩
  have hh : ∀ s0, (Ctx.now e.ty e.num 1 s0).holds (sylWord op y) = true := by
    intro s0
    unfold Ctx.holds
    rw [sylWord_cond op y hy hop]
    rfl
  rw [hi, run_one _ _ _ _ (sylWord_stop op y hy hop) (by rw [sylWord_op op y hy hop]; exact hrep) (hres _ hs),
    finish_plain _ _ _ _ f hp (hh _) (hf _ hs), commit_plain _ _ _ hs h f hp]
  refine endBundle_run _ _ _ ?_
  rw [showPc_eng, State.setEng_same]
  exact h.stop

/-- The commit of a bundle changes its engine, xxx_PC and the pins, and nothing else. -/
theorem onlyEngine_commit (e : EngineId) (s s0 : State) (hs : SameEngines s0 s) (x : Engine) (pc : Nat) (p : Pins) :
    OnlyEngine e s { showPc e.ty e.num pc (s0.setEng (engKey e.ty e.num) x) with pins := p } := by
  obtain ⟨hr, he⟩ := hs
  refine ⟨?_, fun k hk => ?_, fun k hk => ?_⟩
  · rw [hr]
    rfl
  · have h1 : k ≠ regKey e.ty e.num 0x048 := fun hc => hk (by rw [hc]; exact List.mem_singleton.2 rfl)
    have h2 : s0.regs = s.regs := by rw [hr]
    exact (State.put_find _ (R.ENG_PC_PC.on e.ty) _ _ _ h1).trans (congrArg (fun r => tblFind r k) h2)
  · exact (State.setEng_other _ _ _ _ hk).trans (he k)

/-- What a meaning that is one issue answers. -/
theorem exec_issue (i : Instr) (e : EngineId) (op : Nat) (y : Syl) (s : State)
    (hex : exec i s = need (engineOk e && y.ok) (done (issue e op y s))) (h : Ready s e) (hy : y.alone = true) :
    exec i s = .next { issue e op y s with pins := (issue e op y s).settledPins } := by
  rw [hex, h.ok, (y.alone_parts hy).1]
  rfl

/-- The engine that a bundle of plain effects makes of an engine whose PC and cycle count have moved on. -/
def Eff.onto (f : Eff) (ty : Nat) (x : Engine) : Engine :=
  { applyRegs ty x f with loads := f.loads, pc := f.jump.getD x.pc }

theorem committed_onto (s : State) (e : EngineId) (h : Ready s e) (f : Eff) :
    (s.core e).committed e.ty f =
      f.onto e.ty { s.core e with pc := pcOf e.ty ((s.core e).pc + 4), cyc := (s.core e).cyc + 1 + f.cost } := by
  have hfar := canIssue_far s e h
  have h1 := h.due
  have h3 := h.bundle
  revert hfar h1 h3
  generalize s.core e = x
  intro hfar h1 h3
  cases x
  simp only at hfar h1 h3
  subst hfar h1 h3
  simp [Engine.committed, Eff.onto, applyRegs]

/-- A meaning that is one issue, at a ready engine, with effects that stay in the engine's registers: what Runs says of it. -/
theorem runs_plain (i : Instr) (e : EngineId) (op : Nat) (y : Syl) (s : State) (f : Eff)
    (hex : exec i s = need (engineOk e && y.ok) (done (issue e op y s))) (hr : s.ready e = true) (hy : y.alone = true)
    (hop : op < 128) (hrep : op ≠ 0x1F) (hp : f.Plain)
    (hres : ∀ s0, SameEngines s0 s →
      reservedSyl e.ty ((Ctx.now e.ty e.num 1 s0).sr 0x13)
        ⟨(Ctx.now e.ty e.num 1 s0).res, trapActive e.ty (Ctx.now e.ty e.num 1 s0).sys,
          (Ctx.now e.ty e.num 1 s0).reg (sylRa (sylWord op y))⟩ (sylWord op y) = false)
    (hf : ∀ s0, SameEngines s0 s → opEffect (Ctx.now e.ty e.num 1 s0) false (sylWord op y) = .ok f) :
    Runs i e s (f.onto e.ty) := by
  have h := ready_parts s e hr
  obtain ⟨s0, hs, hi⟩ := issue_plain e op y s f hr hy hop hrep hp hres hf
  have hx := exec_issue i e op y s hex h hy
  rw [hi] at hx
  refine ⟨_, hx, onlyEngine_commit e s s0 hs _ _ _, ?_⟩
  have hc : ∀ p, ({ showPc e.ty e.num (s.core e).pc (s0.setEng (engKey e.ty e.num) ((s.core e).committed e.ty f)) with pins := p } :
      State).core e = (s.core e).committed e.ty f := fun p => State.setEng_same _ _ _
  rw [hc, committed_onto s e h f]
  rfl

/-! ### What a bundle sees -/

theorem reg_now (e : EngineId) (s s0 : State) (hs : SameEngines s0 s) (v : Nat) : (Ctx.now e.ty e.num 1 s0).reg v = s.vreg e v := by
  unfold Ctx.reg State.vreg Ctx.eng Ctx.phys Ctx.pos Ctx.sr State.vphys Ctx.now State.sysReg State.core
  simp only [hs.engines]

theorem phys_now (e : EngineId) (s s0 : State) (hs : SameEngines s0 s) (v : Nat) : (Ctx.now e.ty e.num 1 s0).phys v = s.vphys e v := by
  unfold Ctx.phys Ctx.pos Ctx.sr State.vphys Ctx.now State.sysReg
  simp only [hs.engines]

theorem sr_now (e : EngineId) (s s0 : State) (hs : SameEngines s0 s) (sel : Nat) :
    (Ctx.now e.ty e.num 1 s0).sr sel = s.sysReg e.ty e.num sel := by
  unfold Ctx.sr Ctx.now State.sysReg
  simp only [hs.engines]

theorem eng_now (e : EngineId) (s s0 : State) (hs : SameEngines s0 s) : (Ctx.now e.ty e.num 1 s0).eng = s.core e := hs.engines _

theorem mem_now (e : EngineId) (s s0 : State) (hs : SameEngines s0 s) :
    (Ctx.now e.ty e.num 1 s0).mem = s.mem (engKey e.ty e.num) := by
  obtain ⟨hr, _⟩ := hs
  unfold Ctx.mem Ctx.now State.mem
  rw [hr]

theorem link_now (e : EngineId) (s s0 : State) (hs : SameEngines s0 s) :
    (Ctx.now e.ty e.num 1 s0).link = s.link (engKey e.ty e.num) := by
  obtain ⟨hr, _⟩ := hs
  unfold Ctx.now State.link
  rw [hr]

/-! ### Results in one register, and flags alone -/

/-- A meaning that is one issue whose effect is one register and flags: what Writes says of it. -/
theorem writes_plain (i : Instr) (e : EngineId) (op : Nat) (y : Syl) (s : State) (v : Nat) (fs : FlagVals)
    (hex : exec i s = need (engineOk e && y.ok) (done (issue e op y s))) (hr : s.ready e = true) (hy : y.alone = true)
    (hop : op < 128) (hrep : op ≠ 0x1F)
    (hres : ∀ s0, SameEngines s0 s →
      reservedSyl e.ty ((Ctx.now e.ty e.num 1 s0).sr 0x13)
        ⟨(Ctx.now e.ty e.num 1 s0).res, trapActive e.ty (Ctx.now e.ty e.num 1 s0).sys,
          (Ctx.now e.ty e.num 1 s0).reg (sylRa (sylWord op y))⟩ (sylWord op y) = false)
    (hf : ∀ s0, SameEngines s0 s →
      opEffect (Ctx.now e.ty e.num 1 s0) false (sylWord op y) = .ok { regs := [(s.vphys e y.rd, v)], flags := fs }) :
    Writes i e s y.rd v fs := by
  obtain ⟨t, h1, h2, h3⟩ := runs_plain i e op y s _ hex hr hy hop hrep ⟨rfl, rfl, rfl, rfl, rfl⟩ hres hf
  refine ⟨t, h1, h2, h3.trans ?_⟩
  have hl := (ready_parts s e hr).loads
  simp [Eff.onto, applyRegs, physPuts, flagsSet, hl]

/-- A meaning that is one issue whose effect is flags alone: what Flags says of it. -/
theorem flags_plain (i : Instr) (e : EngineId) (op : Nat) (y : Syl) (s : State) (fs : FlagVals)
    (hex : exec i s = need (engineOk e && y.ok) (done (issue e op y s))) (hr : s.ready e = true) (hy : y.alone = true)
    (hop : op < 128) (hrep : op ≠ 0x1F)
    (hres : ∀ s0, SameEngines s0 s →
      reservedSyl e.ty ((Ctx.now e.ty e.num 1 s0).sr 0x13)
        ⟨(Ctx.now e.ty e.num 1 s0).res, trapActive e.ty (Ctx.now e.ty e.num 1 s0).sys,
          (Ctx.now e.ty e.num 1 s0).reg (sylRa (sylWord op y))⟩ (sylWord op y) = false)
    (hf : ∀ s0, SameEngines s0 s → opEffect (Ctx.now e.ty e.num 1 s0) false (sylWord op y) = .ok { flags := fs }) :
    Flags i e s fs := by
  obtain ⟨t, h1, h2, h3⟩ := runs_plain i e op y s _ hex hr hy hop hrep ⟨rfl, rfl, rfl, rfl, rfl⟩ hres hf
  refine ⟨t, h1, h2, h3.trans ?_⟩
  have hl := (ready_parts s e hr).loads
  simp [Eff.onto, applyRegs, physPuts, flagsSet, hl]

/-- A meaning that is one issue whose effect is one interlocked result: what Lands says of it. -/
theorem lands_plain (i : Instr) (e : EngineId) (op : Nat) (y : Syl) (s : State) (regs : List (Nat × Nat)) (fp : Nat) (nzcv : Option Nat)
    (unit lat : Nat) (hex : exec i s = need (engineOk e && y.ok) (done (issue e op y s))) (hr : s.ready e = true) (hy : y.alone = true)
    (hop : op < 128) (hrep : op ≠ 0x1F)
    (hres : ∀ s0, SameEngines s0 s →
      reservedSyl e.ty ((Ctx.now e.ty e.num 1 s0).sr 0x13)
        ⟨(Ctx.now e.ty e.num 1 s0).res, trapActive e.ty (Ctx.now e.ty e.num 1 s0).sys,
          (Ctx.now e.ty e.num 1 s0).reg (sylRa (sylWord op y))⟩ (sylWord op y) = false)
    (hf : ∀ s0, SameEngines s0 s → opEffect (Ctx.now e.ty e.num 1 s0) false (sylWord op y) =
      .ok { late := [⟨regs, fp, nzcv, unit, (s.core e).cyc + lat, (s.core e).pc, sylWord op y⟩] }) :
    Lands i e op y s regs fp nzcv unit lat := by
  obtain ⟨t, h1, h2, h3⟩ := runs_plain i e op y s _ hex hr hy hop hrep ⟨rfl, rfl, rfl, rfl, rfl⟩ hres hf
  refine ⟨t, h1, h2, h3.trans ?_⟩
  have hl := (ready_parts s e hr).loads
  have hlt := (ready_parts s e hr).late
  simp [Eff.onto, applyRegs, physPuts, insertLate, hl, hlt]

end Sys2Proof.Machine
end

