-- ==== Sys2Proof/Laws/Ops.lean ====
section
/-!
SUPPORT. What the named operations over registers do, each said once: what a register and a field read after a write, and which
registers an event, an error and a count touch.
-/

namespace Sys2Proof

/-! ### Bit fields -/

/-- A digit below its base and a count of bases below a bound stay below their product. -/
theorem add_mul_lt (a b m k : Nat) (ha : a < m) (hb : b < k) : a + m * b < m * k :=
  calc a + m * b < m + m * b := by omega
    _ = m * (b + 1) := by ring
    _ ≤ m * k := Nat.mul_le_mul_left _ hb

/-- A field replaced leaves the bits below it and above it. -/
theorem setBits_split (n lo w v : Nat) :
    setBits n lo w v = n % 2 ^ lo + 2 ^ lo * (v % 2 ^ w) + 2 ^ (lo + w) * (n / 2 ^ (lo + w)) := by
  unfold setBits bitsAt
  have h1 := Nat.div_add_mod n (2 ^ lo)
  have h2 := Nat.div_add_mod (n / 2 ^ lo) (2 ^ w)
  have h3 : n / 2 ^ lo / 2 ^ w = n / 2 ^ (lo + w) := by rw [Nat.div_div_eq_div_mul, pow_add]
  rw [h3] at h2
  have h4 : n = n % 2 ^ lo + (n / 2 ^ lo % 2 ^ w) * 2 ^ lo + 2 ^ (lo + w) * (n / 2 ^ (lo + w)) := by
    rw [← h2] at h1
    rw [pow_add] at h1 ⊢
    linear_combination -h1
  have h5 : n - n / 2 ^ lo % 2 ^ w * 2 ^ lo = n % 2 ^ lo + 2 ^ (lo + w) * (n / 2 ^ (lo + w)) := by omega
  rw [h5, mul_comm (v % 2 ^ w)]
  omega

/-- A field reads what was put into it. -/
theorem bitsAt_setBits (n lo w v : Nat) : bitsAt (setBits n lo w v) lo w = v % 2 ^ w := by
  have h0 : n % 2 ^ lo < 2 ^ lo := Nat.mod_lt _ (by positivity)
  have h1 : setBits n lo w v = n % 2 ^ lo + 2 ^ lo * (v % 2 ^ w + 2 ^ w * (n / 2 ^ (lo + w))) := by
    rw [setBits_split, pow_add]
    ring
  unfold bitsAt
  rw [h1, Nat.add_mul_div_left _ _ (by positivity), Nat.div_eq_of_lt h0, Nat.zero_add, Nat.add_mul_mod_self_left, Nat.mod_mod]

/-- A field replaced in a word of the width of a register stays one. -/
theorem setBits_lt (n lo w v : Nat) (hn : n < 2 ^ 32) (hw : lo + w ≤ 32) : setBits n lo w v < 2 ^ 32 := by
  have h0 : n % 2 ^ lo < 2 ^ lo := Nat.mod_lt _ (by positivity)
  have h1 : v % 2 ^ w < 2 ^ w := Nat.mod_lt _ (by positivity)
  have h2 : n / 2 ^ (lo + w) < 2 ^ (32 - (lo + w)) := by
    apply Nat.div_lt_of_lt_mul
    rw [← pow_add, Nat.add_sub_of_le hw]
    exact hn
  have h3 : (2 : Nat) ^ (lo + w) * 2 ^ (32 - (lo + w)) = 2 ^ 32 := by rw [← pow_add, Nat.add_sub_of_le hw]
  have h4 : n % 2 ^ lo + 2 ^ lo * (v % 2 ^ w) < 2 ^ (lo + w) := by
    rw [pow_add]
    exact add_mul_lt _ _ _ _ h0 h1
  rw [setBits_split, ← h3]
  exact add_mul_lt _ _ _ _ h4 h2

end Sys2Proof

namespace Sys2Proof.Machine

/-! ### Registers and fields -/

/-- A register reads what was stored in it. -/
@[simp] theorem State.getReg_setReg (s : State) (ty n off : Nat) (v : Word) : (s.setReg ty n off v).getReg ty n off = v := by
  simp [State.getReg, State.setReg]

/-- Another register keeps its word. -/
theorem State.getReg_setReg_other (s : State) (ty n off ty' n' off' : Nat) (v : Word) (h : regKey ty' n' off' ≠ regKey ty n off) :
    (s.setReg ty n off v).getReg ty' n' off' = s.getReg ty' n' off' := by
  simp only [State.getReg, State.setReg, tblGet, tblFind_set_other _ _ _ _ _ h]

/-- A field reads what was put into it, modulo its width. -/
theorem State.get_put (s : State) (f : Field) (n v : Nat) (h : f.lo + f.w ≤ 32) : (s.put f n v).get f n = v % 2 ^ f.w := by
  have hlt := setBits_lt (s.getReg f.ty n f.off).toNat f.lo f.w v (s.getReg f.ty n f.off).isLt h
  simp only [State.get, State.put, State.getReg_setReg, BitVec.toNat_ofNat]
  rw [Nat.mod_eq_of_lt hlt, bitsAt_setBits]

/-- A field of another register keeps its value. -/
theorem State.get_put_other (s : State) (f g : Field) (n m v : Nat) (h : g.key m ≠ f.key n) : (s.put f n v).get g m = s.get g m := by
  simp only [State.get, State.put]
  rw [State.getReg_setReg_other _ _ _ _ _ _ _ _ h]

/-- A register write touches the register file alone, and one key of it. -/
theorem State.setReg_only (s : State) (ty n off : Nat) (v : Word) : OnlyRegs [regKey ty n off] s (s.setReg ty n off v) := by
  refine ⟨rfl, fun k hk => ?_⟩
  simp only [List.mem_singleton] at hk
  simp only [State.setReg]
  exact tblFind_set_other _ _ _ _ _ hk

/-- A field write touches its own register alone. -/
theorem State.put_only (s : State) (f : Field) (n v : Nat) : OnlyRegs [f.key n] s (s.put f n v) := State.setReg_only s _ _ _ _

/-- Writes one after the other touch the registers of both. -/
theorem OnlyRegs.trans {ks ls : List Nat} {s t u : State} (h : OnlyRegs ks s t) (g : OnlyRegs ls t u) : OnlyRegs (ks ++ ls) s u := by
  refine ⟨?_, fun k hk => ?_⟩
  · rw [g.1, h.1]
  · simp only [List.mem_append, not_or] at hk
    rw [g.2 k hk.2, h.2 k hk.1]

/-- A count touches its own register alone (R45). -/
theorem State.count_only (s : State) (f : Field) (n k : Nat) : OnlyRegs [f.key n] s (s.count f n k) := State.put_only s f n _

/-- A count reads the sum, or the largest value of its width. -/
theorem State.get_count (s : State) (f : Field) (n k : Nat) (h : f.lo + f.w ≤ 32) :
    (s.count f n k).get f n = satAdd (s.get f n) k (2 ^ f.w - 1) := by
  rw [State.count, State.get_put _ _ _ _ h]
  apply Nat.mod_eq_of_lt
  have : 0 < 2 ^ f.w := by positivity
  unfold satAdd
  omega

/-- An event touches its page's EVT alone (R40). -/
theorem State.raise_only (s : State) (ty n k : Nat) : OnlyRegs [evtKey ty n] s (s.raise ty n k) :=
  State.put_only s ⟨ty, 0x10, 4, k, 1⟩ n 1

/-- What touches some registers touches no more than a larger list of them. -/
theorem OnlyRegs.mono {ks ls : List Nat} {s t : State} (h : OnlyRegs ks s t) (hs : ∀ k ∈ ks, k ∈ ls) : OnlyRegs ls s t :=
  ⟨h.1, fun k hk => h.2 k (fun hm => hk (hs k hm))⟩

/-- An error latched for the first time (R45). -/
theorem State.err_new (s : State) (ty n off code : Nat) (h : s.get (R.HDR_ERR_CODE_CODE.on ty) n = 0) :
    s.err ty n off code =
      ((s.put (R.HDR_ERR_CODE_OFFSET.on ty) n off).put (R.HDR_ERR_CODE_CODE.on ty) n code).count (R.HDR_ERR_COUNT.on ty) n 1 := by
  simp only [State.err, if_pos h]

/-- A later error: it is counted (R45). -/
theorem State.err_again (s : State) (ty n off code : Nat) (h : s.get (R.HDR_ERR_CODE_CODE.on ty) n ≠ 0) :
    s.err ty n off code = s.count (R.HDR_ERR_COUNT.on ty) n 1 := by
  simp only [State.err, if_neg h]

/-- An error touches its page's error registers alone (R45). -/
theorem State.err_only (s : State) (ty n off code : Nat) : OnlyRegs (errKeys ty n) s (s.err ty n off code) := by
  have hc : (R.HDR_ERR_CODE_OFFSET.on ty).key n = (R.HDR_ERR_CODE_CODE.on ty).key n := rfl
  by_cases h : s.get (R.HDR_ERR_CODE_CODE.on ty) n = 0
  · rw [State.err_new _ _ _ _ _ h]
    refine (((State.put_only _ _ _ _).trans (State.put_only _ _ _ _)).trans (State.count_only _ _ _ _)).mono (fun k hk => ?_)
    rw [hc] at hk
    simpa only [errKeys, List.mem_append, List.mem_cons, List.not_mem_nil, or_false, or_self] using hk
  · rw [State.err_again _ _ _ _ _ h]
    exact (State.count_only _ _ _ _).mono (fun k hk => List.mem_cons_of_mem _ hk)

/-- A page that has latched an error keeps it as the first (R45). -/
theorem State.err_first (s : State) (ty n off code : Nat) (h : s.get (R.HDR_ERR_CODE_CODE.on ty) n ≠ 0) :
    (s.err ty n off code).get (R.HDR_ERR_CODE_CODE.on ty) n = s.get (R.HDR_ERR_CODE_CODE.on ty) n := by
  unfold State.err
  rw [if_neg h, State.count]
  refine State.get_put_other _ _ _ _ _ _ ?_
  have h1 : (R.HDR_ERR_CODE_CODE.on ty).key n = regKey ty n 0x01C := rfl
  have h2 : (R.HDR_ERR_COUNT.on ty).key n = regKey ty n 0x020 := rfl
  rw [h1, h2, regKey, regKey]
  omega

/-! ### Outcomes -/

/-- A command whose unit exists has its own outcome. -/
@[simp] theorem need_true (r : Result) : need true r = r := rfl

/-- A command that names no unit of the device faults. -/
@[simp] theorem need_false (r : Result) : need false r = .fault .illFormed := rfl

/-- A meaning that completes settles the pins and nothing else. -/
theorem done_next (s t : State) (h : done s = .next t) : t = { s with pins := s.settledPins } := by
  simp only [done, Host.Outcome.next.injEq] at h
  exact h.symm

end Sys2Proof.Machine
end

