-- ==== Sys2Proof/Tests/Slice0.lean ====
section
/-!
SUPPORT. Tests: a term that each check of WellFormed refuses; the spec's worked examples and the vectors of the standards it names; and,
for every part of every obligation that has hypotheses, a witness: concrete values that meet all of them together. A witness is named
after its obligation and the place of the part in it, counted from 0.
-/

open Sys2Proof Sys2Proof.Machine

namespace Sys2Proof.Tests

set_option Elab.async false

/-! ### Ill-formed terms: one for each check of WellFormed -/

theorem test_wf_refuses_0 :
    ([.registerWrite ⟨30, 0⟩ (2 ^ 40) 0 0 0 0,
      .registerWrite ⟨30, 0⟩ 0 0 16 0 0,
      .lockKeyWrite ⟨30, 0⟩ 0x05 2 0,
      .cutMessageReceive 16 0 0,
      .cutMessageReceive 0 256 0,
      .frameInfoReceive 4,
      .lintelFrameReceive 2 ⟨[], [], 0, false, false⟩ [] 0,
      .bridgeReturn ⟨30, 0⟩ 2,
      .ddrTrainFull ⟨30, 0⟩ 2,
      .ddrTrainingDone 0 7 0 [],
      .admissionComplete 0 65536,
      .powerCapWrite ⟨30, 0⟩ false 65536,
      .taskStart 16,
      .hamperDrop 128 0 [],
      .hamperDrop 0 4 [],
      .addReg ⟨3, 18⟩ ⟨true, 0, false, 0, 0⟩] : List Instr).all (fun i => !i.wf) = true := by decide +kernel

theorem test_wf_refuses_1 :
    ([.addReg ⟨3, 0⟩ ⟨true, 16, false, 0, 0⟩,
      .aissue ⟨4, 0⟩ ⟨true, 0, false, 0, 0⟩,
      .rowcmd ⟨3, 0⟩ ⟨true, 0, false, 0, 0⟩,
      .spareLoadComplete 2,
      .pantryRequestArrive 64 ⟨30, 0⟩ ⟨false, 0, 0, [], 1, false, false, false⟩,
      .handoverStart ⟨30, 0⟩ 0 256,
      .requestIssue ⟨40, 0⟩ ⟨false, 0, 0, [], 1, false, false, false⟩ 0,
      .requestIssue ⟨30, 0⟩ ⟨false, 2 ^ 40, 0, [], 1, false, false, false⟩ 0,
      .requestInject 40 0 false,
      .flitArrive 44 0 0 [] 0,
      .flitArrive 0 6 0 [] 0,
      .flitArrive 0 0 3 [] 0,
      .responseTimeout 0 64,
      .headLinkTrainDone 0 16 0 false,
      .sideTransactionDone 0 5 [],
      .glazingLoadStart 32] : List Instr).all (fun i => !i.wf) = true := by decide +kernel

theorem test_wf_refuses_2 :
    ([.telltaleCrcCheck 0 256 [] 0,
      .csiFrameStart 4 0 0 false,
      .csiFrameStart 0 16 0 false,
      .csiLine 0 0 64 [] 0 false false,
      .csiLine 0 0 0 [] 3 false false,
      .bar0Access 0x2000000 none 0 0,
      .msixMessage 64,
      .trsmLinkChange false 5 0,
      .trsmLinkChange false 0 5,
      .t1sFrameReceive 2 0 0 false false false [],
      .t1sFrameReceive 0 256 0 false false false [],
      .canFrameReceive 4 0 0 0 0 false false [],
      .canFrameReceive 0 3 0 0 0 false false [],
      .canFrameReceive 0 0 (2 ^ 29) 0 0 false false [],
      .canFrameReceive 0 0 0 256 0 false false [],
      .canRecover ⟨30, 0⟩ 16] : List Instr).all (fun i => !i.wf) = true := by decide +kernel

theorem test_wf_refuses_3 :
    ([.debugGo ⟨30, 0⟩ 4 0,
      .hspTxdWrite ⟨30, 0⟩ 8 0,
      .hspByteReceive 0 256 0 false false false,
      .hspByteReceive 0 0 65536 false false false,
      .domainTransitionDone 30 0,
      .supplyOutOfLimits 3,
      .accessDr (2 ^ 76) 0,
      .arraySideEdge [0x92],
      .pdAoPowerOn [32],
      .lintelFrameReceive 0 ⟨[0], [], 0, false, false⟩ [] 0,
      .lintelFrameReceive 0 ⟨[], [0], 0, false, false⟩ [] 0,
      .lintelFrameReceive 0 ⟨[], [], 4, false, false⟩ [] 0,
      .paneBistDone 0 [312],
      .bar0Access 2 none 0 0,
      .bar2Write 0x40000000 [0],
      .bar2Write 0 (List.replicate 257 0)] : List Instr).all (fun i => !i.wf) = true := by decide +kernel

theorem test_wf_refuses_4 :
    ([.bootFlow 0 0,
      .bootFlow 13 0,
      .repMark ⟨3, 0⟩ ⟨true, 0, false, 2 ^ 19, 0⟩] : List Instr).all (fun i => !i.wf) = true := by decide +kernel

/-- The neighbours of some of these inside the bounds are well formed. -/
theorem test_wf_accepts :
    ([.registerWrite ⟨30, 0⟩ (2 ^ 40 - 1) 0 15 0, .lockKeyWrite ⟨30, 0⟩ 0x05 1 0, .taskStart 15, .hamperDrop 127 3 [],
      .addReg ⟨3, 17⟩ ⟨true, 15, true, 2 ^ 19 - 1, 0⟩, .aissue ⟨3, 0⟩ ⟨true, 0, false, 0, 0⟩, .rowcmd ⟨4, 127⟩ ⟨true, 0, false, 0, 0⟩,
      .flitArrive 43 5 2 [] 0, .bootFlow 12 0, .accessDr (2 ^ 76 - 1) 0] : List Instr).all Instr.wf = true := by decide +kernel

/-! ### States and operands that tests and witnesses use -/

/-- A state with power domains ON. -/
def on (ds : List Nat) : State := ds.foldl (fun s d => s.put (domainField d) 0 3) State.reset
/-- Every domain ON, and every gate engine's memory ready. -/
def allOn : State := on (List.range 30)
/-- An engine of every domain ON whose registers are given, RUNNING. -/
def withEngine (e : EngineId) (x : Engine) : State := (allOn.setEng (engKey e.ty e.num) x).setEngState e.ty e.num 1
/-- A descriptor: local address, far address low, rows and bytes. -/
def desc (loc far rows len : Nat) : DmaXfer := ⟨5, [0x400000 + len - 1, loc, far, 0, rows - 1, 0x100]⟩
/-- The head flit of a worm of a request from initiator (3, 0). -/
def headFlit (dest kind addr xs be : Nat) (data : List Byte) : Flit := ⟨0, 0, kind, 0, false, 3, 0, dest, 5, false, 0, xs, addr, be, data, 0, 0, false, false⟩
/-- Flits that have arrived at a trailhead on channel 0. -/
def arrivedAt (t : Nat) (fs : List Flit) : State := { allOn with ejected := [(t * 4, fs)] }
/-- A data flit of a worm. -/
def bodyFlit (xs be : Nat) (data : List Byte) : Flit := ⟨0, 0, 6, 0, false, 3, 0, 0, 5, false, 0, xs, 0, be, data, 0, 0, false, false⟩
/-- A state with a valid route of a trailhead to a destination. -/
def routed (t d : Nat) (s : State) : State := (s.setClosed t (destTrlh d) false).setTh t { s.th t with routes := [(d, BitVec.ofNat 64 (2 ^ 63 + 4))] }
/-- The Lintel UP on both sides, every domain ON. -/
def linked : State := (allOn.put R.LNTL_LINK_STAT_STATE 1 2).put R.LNTL_LINK_STAT_STATE 0 2
/-- A state whose Latch takes commands, with key slot 0 programmed for every use. -/
def latched : State :=
  { linked with latch := { linked.latch with ready := true, slots := [(0, 0x17F)], keys := [(0, 0x000102030405060708090A0B0C0D0E0F)] } }
/-- The command of slot 0 with arguments and the CMAC that belongs to them. -/
def signed (code : Nat) (args : List Byte) (s : State) : CmdFields :=
  let c : CmdFields := ⟨false, 0, 1, Config.deviceId.toNat, args, [], 9, false, false⟩
  { c with tag := (cmacBytes (s.cmdKey 0) (cmdBytes (critCmd code c))).take 8 }
/-- A container with a payload: MAGIC, LEN, the payload, a tag. -/
def container (payload : List Byte) : List Byte :=
  leBytes 4 0x4752474E ++ leBytes 4 0 ++ leBytes 4 payload.length ++ List.replicate 20 0 ++ payload ++ List.replicate 16 9
/-- Bytes in the flash from offset 0 on. -/
def flashed (bs : List Byte) (s : State) : State := { s with flash := { s.flash with data := memWrite erasedByte s.flash.data 0 bs } }
/-- DDR channel 1 READY with 6,656 MiB, every domain ON. -/
def ddrUp : State := (linked.put R.DDRC_STAT_STATE 1 2).put R.DDRC_USABLE 1 6656
/-- An itinerary of one variant whose Pantry table gives pane 3 every bank, with a declared power of 17,000 mW. -/
def ownerPlan : Itinerary := ⟨7, 0, 0, [], [], [], [⟨0, [], none, some (List.replicate 64 3), 7500, 17000⟩]⟩

/-- A pane controller that runs, with what it holds, every domain ON. -/
def running (p : Nat) (c : PaneCtl) : State := (allOn.setCtl p c).put R.PCTL_STATE_STATE p 1
/-- A controller in a microword at address 5, with 9 cycles left. -/
def micro (u : Word) : PaneCtl := { PaneCtl.idle with larder := [(5, u)], upc := 5, dispatch := false, remaining := 9, mop := 0x0102030405060708 }
/-- A pane that is a gang of its own, its controller running with what it holds, in an open render window; the current itinerary has one
task. -/
def ganged (p : Nat) (c : PaneCtl) : State :=
  let s := ((running p c).put R.PANE_MODE_IN_GANG p 1).put R.PANE_MODE_GANG_BASE p p
  let it : Itinerary := ⟨7, 0, 0, [], [⟨21, 0, 0, 5000, 0, 9, 0, 0, []⟩], [], [⟨0xFF, [⟨0, p, 0⟩], none, none, 0, 0⟩]⟩
  { s with tick := { s.tick with windowOpen := true }, porter := { s.porter with current := some it } }
/-- Its task is running. -/
def tasked (p : Nat) (c : PaneCtl) : State := (ganged p c).put R.PCTL_TASK_TASK_ID p 21
/-- A container of an extension region of one microword, 0x12345678, with its tag right under key slot 0. -/
def larderBox : List Byte := leBytes 68 0x3B848EDFA1ADA548221769155470213F1234567800000000000000000001000100000201000000000000000000000000000000000000000000000014000000014752474E
/-- A pane whose patch has been written. -/
def patched (key : Nat) (box : List Byte) : State := (latched.setCtl 2 { PaneCtl.idle with patch := some (box, key, 0), larder := [(0xA00, 0x12345678)] }).put R.PCTL_STATE_STATE 2 3
/-- The Porter at the end of its checks of an image. -/
def checking (img : List Byte) (ok : Bool) : State :=
  { allOn with porter := { allOn.porter with image := img, admitting := some ok }
               pctl := [0, 1].map (fun p => (p, { PaneCtl.idle with opTable := [(0x12, 0x2AFF080102003005)] })) }
/-- The image of an itinerary of one task on pane 0, on pane 1 when pane 0 is lost. -/
def planImage : List Byte :=
  ([84, 73, 89, 76, 1, 0, 0, 0, 7, 0, 0, 0, 80, 11, 0, 0, 0, 0, 106, 24, 1, 0, 1, 0, 192, 0, 0, 0, 232, 0, 0, 0, 248, 0, 0, 0] ++
    (List.replicate 28 0 ++ ((List.replicate 4 ([0, 1, 2, 0] ++ List.replicate 28 0)).flatten ++ ([1, 0, 0, 0, 136, 19, 0, 0, 0, 0, 0, 0, 1, 0, 255, 255, 224, 0, 0, 0, 0, 0, 0, 0, 0, 0, 0, 0, 0, 0, 0, 0,
    18, 0, 8, 0, 1, 0, 0, 0, 0, 0, 0, 0, 0, 0, 1, 0, 1, 0, 1, 0, 0, 0, 0, 0,
    255, 0, 1, 0, 248, 10, 0, 0, 0, 0, 0, 0, 0, 0, 0, 0, 8, 11, 0, 0, 100, 0, 100, 0, 0, 0, 0, 0, 0, 0, 0, 0,
    255, 0, 1, 0, 0, 11, 0, 0, 0, 0, 0, 0, 0, 0, 0, 0, 0, 0, 0, 0, 100, 0, 100, 0, 0, 0, 0, 0, 0, 0, 0, 0] ++
    (List.replicate 2496 0 ++ ([0, 0, 0, 0, 0, 0, 0, 0, 0, 0, 1, 0, 0, 0, 0, 0] ++ (List.replicate 64 65 ++ List.replicate 8 0))))))).map
      (BitVec.ofNat 8)
/-- A pane with some of everything. -/
def somePane : Pane :=
  { Pane.idle with planes := [(5, 0xF0F0F0), (6, 0xCCCC), (7, 0xAAAA)], x := 0x123456789ABCDEF, y := 0xFEDC, c := 0x3C3C, k := 0xFFFF0FF0, f := 0x1001
                   inb := [(0, [hampEntry 0x5A5A5A5A, hampEntry 3]), (9, [hampEntry 7])], inOcc := [(0, 2), (9, 1)], edgeCfg := 15, edges := [(0, 0x77), (9, 0x1234), (16, 0x3), (31, 0x55)] }
/-- Pane 3 with PE-ops in flight. -/
def inFlight (ops : List (BitVec 64)) : State := (running 3 { PaneCtl.idle with inflight := ops.map (fun o => ⟨o, 1⟩) }).setPane 3 somePane
/-- The row port of slat 26 with a command on quad 1, its engine's memory clean. -/
def rowPort (q : List RowCmd) (r : Option RowCmd) : State := allOn.setPort 26 ⟨[(1, q)], [(1, r)], [], none, 5, 6⟩
/-- An asset of one tell-tale on head 1, of one pixel, with the CRC that its state OFF must have. -/
def asset (crc : Nat) : List Byte :=
  leBytes 4 0x4C594754 ++ [1, 2] ++ leBytes 2 3 ++ leBytes 4 1 ++ leBytes 4 0x40 ++ leBytes 4 0x70 ++ List.replicate 16 0 ++ leBytes 4 0xB8 ++
  List.replicate 24 0 ++ leBytes 2 5 ++ [0, 2, 0, 0, 0, 0, 1, 1, 0, 0] ++ leBytes 4 0xB0 ++ List.replicate 16 0 ++ leBytes 4 0 ++
  leBytes 4 0x12345678 ++ List.replicate 8 0 ++ List.replicate 16 0 ++ leBytes 4 crc ++ List.replicate 44 0 ++ [15, 0, 0, 0, 0, 0, 0, 0]
/-- Glazing with that asset, head 1 enabled, the tick running. -/
def glazed (crc : Nat) : State :=
  let s := (allOn.put (R.HDR_CTL_ENABLE.on 0x0D) 1 1).put R.TICK_RUN_RUN 0 1
  { s with glaz := { s.glaz with sram := memWrite 0 s.glaz.sram 0 (asset crc) } }
/-- A frame in progress on head 1. -/
def scanning (c : Scan) (s : State) : State := s.setHead 1 { s.head 1 with scan := some c }
/-- A frame that is checked. -/
def checkedScan (source : Nat) : Scan := ⟨9, false, 70, source, none, true, false, [], false⟩
/-- A container of kind 2 with an asset of no tell-tale and no layer, its tag right under key slot 0. -/
def assetBox : List Byte := leBytes 112 0x4C9BB7A80137478CA82320962279F96E0000000000000000000000000000000000000000000000000000004000000000000000000000000000000000000000400000004000000000000002014C594754000000000000000000000000000000000000000000000040000000024752474E
/-- An itinerary of one head with one region whose task is not there. -/
def fillPlan : Itinerary := ⟨7, 0, 0, [⟨false, 0, 0, 0, 0, 0, 0⟩, ⟨true, 1, 2, 8, 4, 0, 0⟩], [], [⟨1, 0, 0, 8, 4, 5, 0x1234⟩], []⟩
/-- Head 1 enabled, that itinerary shown. -/
def filled (x : Head) : State :=
  let s := ((linked.put (R.HDR_CTL_ENABLE.on 0x0D) 1 1).put R.TICK_RUN_RUN 0 1).put R.HEAD_VTIME_ACTIVE 1 4
  { s.setHead 1 x with porter := { s.porter with shown := some fillPlan } }
/-- Camera 2 of an enabled receiver with 4 lines of 3 pixels of 12 bits, the Lintel UP and both DDR channels READY. -/
def camera (x : Camera) : State := routed 26 24 <| routed 26 25 <|
  let s := (((ddrUp.put R.DDRC_STAT_STATE 0 2).put R.DDRC_USABLE 0 6656).put (R.HDR_CTL_ENABLE.on 0x0F) 2 1).put R.CAMI_SIZE_HEIGHT 2 4
  (s.put R.CAMI_SIZE_WIDTH 2 3).setCam 2 { x with cfg := 0x802C }
/-- The Gatehouse enabled, every domain ON. -/
def gateOn : State := allOn.put (R.HDR_CTL_ENABLE.on 0x11) 0 1
/-- The Gatehouse with what it holds. -/
def gated (g : Gatehouse) : State := { gateOn with gate := g }
/-- CAN controller 1 integrated, in an error state with error counters, with what the Gatehouse holds. -/
def canUp (st tec rxe : Nat) (g : Gatehouse) : State :=
  (((gated { g with tec := tblSet 0 g.tec 1 tec, rxe := tblSet 0 g.rxe 1 rxe }).put (R.GATE_CAN_CFG_EN.nth 1) 0 1).put (R.GATE_CAN_STAT_SYNC.nth 1) 0 1).put (R.GATE_CAN_STAT_STATE.nth 1) 0 st
/-- T1S port 1 in PLCA mode as node 3, with what the Gatehouse holds. -/
def t1sUp (g : Gatehouse) : State :=
  ((((gated g).put (R.GATE_T1S_CFG_EN.nth 1) 0 1).put (R.GATE_T1S_CFG_PLCA_EN.nth 1) 0 1).put (R.GATE_T1S_CFG_NODE_ID.nth 1) 0 3).put (R.GATE_T1S_STAT_MODE.nth 1) 0 1
/-- A frame to send. -/
def txFrame (e : Option Nat) (collisions : Nat) : TxFrame := ⟨5, 0, false, 0, [1], e, collisions⟩
/-- A CAM entry of identifier 5 on CAN port 1, stream 7. -/
def camOf (cls route prot first count : Nat) : Nat :=
  5 + 7 * 2 ^ 32 + 255 * 2 ^ 46 + route * 2 ^ 54 + cls * 2 ^ 56 + 2 ^ 60 + 2 ^ 63 + prot * 2 ^ 64 + count * 2 ^ 75 + first * 2 ^ 82
/-- A profile with CRC-8 in byte 0 and a 4-bit counter in byte 1, at most 2 further. -/
def profOne : Nat := 2 ^ 30 + 2 ^ 28 + 2 * 2 ^ 24 + 8 * 2 ^ 32 + 0x1234 * 2 ^ 48
/-- A frame of identifier 5 from CAN port 1. -/
def canFrame (stamp : Nat) (data : List Byte) : ArrivedFrame := ⟨1, 0, false, 5, 255, stamp, data⟩
/-- Data that profile 1 accepts, with a counter value. -/
def protData (n : Nat) : List Byte := BitVec.ofNat 8 (protCrc 8 0x1D 0x1234 0 [0, BitVec.ofNat 8 n, 7]) :: [BitVec.ofNat 8 n, 7]
/-- A frame to be classified at a CAM entry, profile 1 in place, stream 7 at a last value. -/
def classifying (c last : Nat) (f : ArrivedFrame) : State :=
  gated { State.reset.gate with cam := [(4, c)], prof := [(1, profOne)], streams := [(7, some last)], arrived := [f] }
/-- Gate engine 1 RUNNING. -/
def engineRuns (e : Nat) (s : State) : State := s.put (R.ENG_STATE_STATE.on 5) e 1
/-- After the cutoff of a running tick. -/
def pastCutoff (s : State) : State := (s.put R.TICK_RUN_RUN 0 1).put R.TICK_PHASE_PAST_CUTOFF 0 1
/-- Descriptor 2: 8 bits from bit 8 on into entry 3, plus 5. -/
def descTwo : Nat := 3 + 8 * 2 ^ 16 + 7 * 2 ^ 30 + 2 ^ 40 + 5 * 2 ^ 64
/-- A signal table with entry 3 enabled and descriptor 2. -/
def signals (s : State) : State := { s with sigt := { s.sigt with cfg := [(3, 2 ^ 31)], desc := [(2, descTwo)] } }
/-- A held input. -/
def heldInj : HeldInput := ⟨9, 0, 0, 0, [], some (3, 77)⟩
/-- A held frame. -/
def heldFrame : HeldInput := ⟨9, 0, 2, 1, [1, 2, 3], none⟩
/-- A read of entry 5 of the committed bank. -/
def sigReq : NetReq := ⟨false, 64, 0xFFFF * 2 ^ 16, [], 1, false, false, false⟩
/-- An error pattern in a row of the signal table. -/
def struck (r : Nat) (e : BitVec 76) (s : State) : State := { s with sigt := { s.sigt with errs := [(r, e)] } }
/-- A fabric RELEASED with frames and held CRCs, net 1 running from oscillator A. -/
def releasedFabric (frames : Tbl (BitVec 512)) (held : Tbl Nat) : State :=
  { allOn.put R.HNGE_FAB_STATE_STATE 0 2 with fabric := { State.reset.fabric with
      frames := frames ++ [(4236, BitVec.ofNat 512 (2 * 2 ^ 208))], held := held, flops := [(0, 5)] } }
/-- A load that is under way. -/
def loadingFabric (copyB : Bool) (offset : Nat) : State :=
  { allOn.put R.HNGE_FAB_STATE_STATE 0 1 with fabric := { State.reset.fabric with load := some ⟨copyB, offset, 0⟩ } }
/-- A FLASH_WRITE of a container at an offset, under way. -/
def writingFlash (box : List Byte) (dst : Nat) : State :=
  { latched.put R.HNGE_FLASH_STAT_BUSY 0 1 with flashJob := some ⟨box, dst, 0⟩ }
/-- A container of an image of kind 1 with 4 bytes of payload, its tag right under key slot 0. -/
def goodBox : List Byte := leBytes 52 0x9B1A590E44F9AED759EB5C6B4AEA7DE906070809000000000000000000000000000000000000000000000004010300014752474E
/-- A read of one word of the flash window. -/
def flashReq (addr k : Nat) : NetReq := ⟨false, addr, 15 * 2 ^ (4 * k), [], 1, false, false, false⟩
/-- Serial port 3 in a mode, enabled, with its FIFOs. -/
def serialUp (mode : Nat) (tx : List (Bool × Nat)) (rx : List (Bool × Bool × Nat)) : State :=
  { (allOn.put (R.HSP_CFG_EN.nth 3) 0 1).put (R.HSP_CFG_MODE.nth 3) 0 mode with serial := [(3, ⟨tx, rx⟩)] }
/-- Debug level FULL, halts allowed, SASH_01 selected, with its registers and its state. -/
def debugging (st : Nat) (x : Engine) : State :=
  let s := ((((withEngine ⟨3, 1⟩ x).setEngState 3 1 st).put R.LTCH_DBG_LEVEL 0 2).put R.DBG_ALLOW_EN 0 1).put R.LTCH_DBG_CEIL 0 2
  (s.put R.DBG_ENG_SEL_TYPE 0 3).put R.DBG_ENG_SEL_INSTANCE 0 1
/-- The same with pane 1 a gang of its own. -/
def debugGang (st : Nat) (x : Engine) : State :=
  (((debugging st x).put R.PANE_MODE_IN_GANG 1 1).put R.PANE_MODE_GANG_BASE 1 1).put R.PCTL_STATE_STATE 1 (if st = 2 then 2 else 1)
/-- A syllable ORI v(2), v(1), 5 that is a bundle by itself. -/
def oriSyl : Syl := ⟨true, 0, false, 2 * 2 ^ 14 + 1 * 2 ^ 9 + 5, 3⟩
/-- A syllable at the PC of SASH_01. -/
def withCode (w : Nat) (s : State) : State :=
  { s with engMem := [(engKey 3 1, { (s.mem (engKey 3 1)) with imem := memWrite 0 [] 0 (leBytes 4 w) })] }
/-- The response that grants a debug level, in place. -/
def answering (level : Nat) (s : State) : State :=
  { s with latch := { s.latch with response := (List.range 4).map (fun k => (k, word (leNum (((s.dbgAnswer level).drop (4 * k)).take 4)))) } }
/-- A syllable with RD, RA, RB and FN that is a bundle by itself. -/
def syl (rd ra rb fn : Nat) : Syl := ⟨true, 0, false, rd * 2 ^ 14 + ra * 2 ^ 9 + rb * 2 ^ 4 + fn, 0⟩
/-- A syllable with an operand field that is a bundle by itself. -/
def sylOps (ops : Nat) : Syl := ⟨true, 0, false, ops, 0⟩
/-- An engine with a number in every register. -/
def holding (v : Nat) : Engine := { Engine.idle with phys := (List.range 136).map (fun k => (k, v)) }
/-- An engine with system registers. -/
def withSys (t : Tbl Nat) : Engine := { Engine.idle with sys := t }
/-- SASH_01 driving a gang that is its pane alone, its controller with what it holds. -/
def driving (c : PaneCtl) : State :=
  ((((withEngine ⟨3, 1⟩ Engine.idle).setCtl 1 c).put R.PANE_MODE_IN_GANG 1 1).put R.PANE_MODE_GANG_BASE 1 1).put R.PCTL_STATE_STATE 1 1
/-- A macro-op that a pane of no gang ends: A 5 and B 3 in every PE, K 1 in PE 0 alone. -/
def endedMacro (op w param : Nat) : BitVec 64 := BitVec.ofNat 64 (op + w * 2 ^ 15 + param * 2 ^ 23 + 0 * 2 ^ 31 + 256 * 2 ^ 42 + 512 * 2 ^ 53)
def macroFound : MacroStart := ⟨[(0, BitVec.allOnes 65536), (2, BitVec.allOnes 65536), (256, BitVec.allOnes 65536), (257, 1)], [], 0, 1⟩
def endsMacroOp (m : BitVec 64) : State :=
  (running 3 { PaneCtl.idle with dispatch := false, remaining := 2, seq := 4, runs := [⟨4, m, 0, [], some macroFound, false⟩] }).setReg 0x02 3 0x068 0x01000000

/-- The command completes in a state of which this holds. -/
def nextHas (r : Result) (p : State → Bool) : Bool :=
  match r with
  | .next t => p t
  | _ => false

/-! ### The worked examples of the spec and vectors of the standards it names; each test's source is in its comment -/

/-- 02, after R31: the page of SLAT_077 and its ID register. -/
theorem test_page_of_slat_77 :
    targetOf State.reset 0 0x300044D000 = .page 4 77 0 ∧ (State.reset.getReg 4 77 0).toNat = 0x044D0100 := by decide +kernel
/-- 11, Table 11-2: the window of SLAT_077, its instruction memory and its local memory. -/
theorem test_window_of_slat_77 :
    targetOf State.reset 0 0x3509340000 = .engine 4 77 0 ∧ targetOf State.reset 0 0x3509360000 = .engine 4 77 0x20000 := by decide +kernel
/-- 12: 0x10_0028_003C falls in Pantry bank 5 at offset 0x3C; 12 bytes from there are served as ROTATE alone. -/
theorem test_rotate_example :
    targetOf State.reset 0 0x100028003C = .pantry 5 0x3C ∧ pantFits ⟨false, 0x100028003C, 0xFFF, [], 1, true, false, false⟩ = true ∧
    reqWords ⟨false, 0x100028003C, 0xFFF, [], 1, true, false, false⟩ = [7, 8] := by decide +kernel
/-- 13, Table 13-10: the route W, S, S, S, S from the stile of TRLH_10 ends at that of TRLH_32. -/
theorem test_route_10_to_32 :
    [3, 2, 2, 2, 2].foldl (fun st p => st.bind (fun k => stilNext k p)) (some (trlhStile 10)) = some (trlhStile 32) ∧
    trlhPort 32 = 4 := by decide +kernel
/-- 05, after R109: op 1 of the 4-bit add, from its fields. -/
theorem test_pe_op_assembled :
    assemble { PaneCtl.idle with ttR := 0x96, ttC := 0xE8, a := 0x101, b := 0x201, d := 0x301, first := false } 0x0481 =
      0x96E8202805808240 := by decide +kernel
/-- 07, Table 07-11: the first PE-op of ADD has the tables that ignore C. -/
theorem test_pe_op_c0first :
    assemble { PaneCtl.idle with ttR := 0x96, ttC := 0xE8, a := 0x100, b := 0x200, d := 0x300, first := true } 0x0481 =
      0x3CC0200801800240 := by decide +kernel
/-- 07: the macro-op word of ADD, field by field, and ADD's cost at WIDTH 4 from coefficients 1 and 2. -/
theorem test_macro_op_fields :
    (mopD 0x6008008000020004, mopB 0x6008008000020004, mopA 0x6008008000020004, mopWidth 0x6008008000020004, mopOp 0x6008008000020004) =
      (0x300, 0x200, 0x100, 4, 4) ∧ entryCost 0x0000000001002000 4 = 6 := by decide +kernel
/-- 05, before R121: the check symbols of D5 = 0x3, and the decoding of an error 0x4 in D5. -/
theorem test_symbol_code :
    checkBits (3 * 2 ^ 20) = 0xC2E ∧ syndrome (4 * 2 ^ 20) = (0xA, 0x9, 0x3) ∧ decodeWord (4 * 2 ^ 20) = .corrected 5 4 := by decide +kernel
/-- 05, before Table 05-11: physical column 141 of a pane serves logical column 137, segment 2 column 9. -/
theorem test_physical_column : logCol State.reset 9 141 = some (2, 9) ∧ physCol State.reset 9 2 2 1 = 141 := by decide +kernel
/-- 08, Table 08-14: the words of ADD v9, v10, v11 (S 0) and of B.NE, and the slots they take. -/
theorem test_syllable_words :
    sylWord 0x00 ⟨false, 0, false, 9 * 2 ^ 14 + 10 * 2 ^ 9 + 11 * 2 ^ 4, 0⟩ = 0x000254B0 ∧ sylWord 0x60 ⟨true, 2, false, 0x7FFF0, 0⟩ = 0x9607FFF0 ∧
    sylWord 0x60 ⟨true, 15, true, 0x7FFF0, 0⟩ = 0xFE0FFFF0 ∧ illegalBundle 3 [0x000254B0, 0x04430C02, 0x9607FFF0] = none := by decide +kernel
/-- 08, before R192: with WPOS 2, v12 is physical register 44. -/
theorem test_window_register : physReg 3 2 12 = 44 := by decide +kernel
/-- 10, the odometer: three DADD, each with the carry of the one before. -/
theorem test_odometer :
    (aluDecimal 32 false 0x99999999 1 false false).1 = 0 ∧ (aluDecimal 32 false 0x99999999 1 false false).2.contains (2, true) = true ∧
    (aluDecimal 32 false 0x23456789 0 true true).1 = 0x23456790 := by decide +kernel
/-- The same as a command: bundle 1 on SASH_00 leaves 0 in v8 and C set. -/
theorem test_dadd_step :
    nextHas (exec (.dadd ⟨3, 0⟩ (syl 8 8 1 0)) (withEngine ⟨3, 0⟩ { Engine.idle with phys := [(1, 1), (8, 0x99999999)] })) (fun t =>
      t.vreg ⟨3, 0⟩ 8 == 0 && bitOf (t.flgOf ⟨3, 0⟩) 2) = true := by decide +kernel
/-- ADD of 0xFFFFFFFF and 1 (R209): 0, Z and C set, N and V clear; the destination is also a source. -/
theorem test_add_wraps :
    nextHas (exec (.addReg ⟨3, 1⟩ (syl 9 9 10 8)) (withEngine ⟨3, 1⟩ { Engine.idle with phys := [(9, 0xFFFFFFFF), (10, 1)] })) (fun t =>
      t.vreg ⟨3, 1⟩ 9 == 0) = true ∧ aluAdd 32 0xFFFFFFFF 1 false = (0, [(0, false), (1, true), (2, true), (3, false)]) := by decide +kernel
/-- SUB in C24 (R210): 0 − 1 borrows; the most negative number less 1 overflows. -/
theorem test_sub_24 :
    aluSub 24 0 1 false = (0xFFFFFF, [(0, true), (1, false), (2, false), (3, false)]) ∧
    aluSub 24 0x800000 1 false = (0x7FFFFF, [(0, false), (1, false), (2, true), (3, true)]) := by decide +kernel
/-- Binary32 (IEEE 754): 1 / 3 and the square root of 2, rounded to nearest. -/
theorem test_fp_divide_root : (fpDiv fmtS 0 0x3F800000 0x40400000).1 = 0x3EAAAAAB ∧ (fpSqrt fmtS 0 0x40000000).1 = 0x3FB504F3 := by decide +kernel
/-- Binary16 (IEEE 754): 65,504 + 65,504 overflows to infinity; binary64 0.1 narrows to 0x3DCCCCCD. -/
theorem test_fp_overflow_narrow : (fpAdd fmtH 0 false 0x7BFF 0x7BFF).1 = 0x7C00 ∧ (fpConvert fmtD fmtS 0 0x3FB999999999999A).1 = 0x3DCCCCCD := by
  decide +kernel
/-- 10, Table 10-8: a finite number over +0 is +infinity with DZ alone. -/
theorem test_fp_divide_by_zero : (fpDiv fmtS 0 0x3F800000 0).1 = 0x7F800000 := by decide +kernel
/-- 14, R356: the check value of a 3 by 1 rectangle at depth 8. -/
theorem test_rectangle_crc :
    streamCrc ((pixelBits 8 ⟨0x31, 0x32, 0x33⟩) ++ (pixelBits 8 ⟨0x34, 0x35, 0x36⟩) ++ (pixelBits 8 ⟨0x37, 0x38, 0x39⟩)) = 0x0376E6E7 := by
  decide +kernel
/-- 16, the vehicle speed of Meadow: descriptor 256 on the bytes 0x3A, 0x40 from byte 4 on. -/
theorem test_vehicle_speed :
    signalRaw [0, 0, 0x5C, 0, 0x3A, 0x40] (signalPlaces 0x05001953C0270412) = 0x3A40 ∧ signalValue 0x05001953C0270412 0x3A40 = (0x2D82, false) := by
  decide +kernel
/-- CRC catalogue check values of "123456789": CRC-32/MPEG-2, CRC-16/IBM-3740 (R297). -/
theorem test_crc_check_values :
    crc32 ([0x31, 0x32, 0x33, 0x34, 0x35, 0x36, 0x37, 0x38, 0x39].map (BitVec.ofNat 8)) = 0x0376E6E7 ∧
    crc16 ([0x31, 0x32, 0x33, 0x34, 0x35, 0x36, 0x37, 0x38, 0x39].map (BitVec.ofNat 8)) = 0x29B1 := by decide +kernel
/-- FIPS 197, appendix C.1: AES-128 of 00112233…FF under 000102…0F, and back. -/
theorem test_aes_block :
    blockNum (aesEncrypt (numBlock 16 0x000102030405060708090A0B0C0D0E0F) (numBlock 16 0x00112233445566778899AABBCCDDEEFF)) =
      0x69C4E0D86A7B0430D8CDB78070B4C55A ∧
    blockNum (aesDecrypt (numBlock 16 0x000102030405060708090A0B0C0D0E0F) (numBlock 16 0x69C4E0D86A7B0430D8CDB78070B4C55A)) =
      0x00112233445566778899AABBCCDDEEFF := by decide +kernel
/-- RFC 4493, example 2: AES-CMAC of one block. -/
theorem test_cmac_block :
    blockNum (aesCmac (numBlock 16 0x2B7E151628AED2A6ABF7158809CF4F3C) (numBlock 16 0x6BC1BEE22E409F96E93D7E117393172A)) =
      0x070A16B46B4D4144F79BDD9DD04A287C := by decide +kernel
/-- 01, R22: a channel of 8 GiB has 6.5 GiB of data; in interleaved mode the blocks of 4 KiB alternate (R23). -/
theorem test_ddr_map : ddrMap 0 0x1000 = (1, 0) ∧ ddrMap 0 0x2004 = (0, 0x1004) ∧ ddrMap 2 0x1000 = (1, 0x1000) := by decide +kernel
/-- An empty queue idles (log entry 1). -/
theorem test_idle_step : step State.reset = .next State.reset := rfl
/-- R43: a W1C bit that is written 1 clears, a bit written 0 stays. -/
theorem test_event_clears :
    nextHas (exec (.registerWrite ⟨30, 0⟩ (pageAddr 0x14 0 0x010) 1 15 0) (allOn.setReg 0x14 0 0x010 3)) (fun t =>
      (t.getReg 0x14 0 0x010).toNat == 2) = true := by decide +kernel

/-! ### Lemmas for witnesses that hold keys and signatures -/

/-- The checks of a critical command but for its device and its tag. -/
def sideChecks (code : Nat) (c : CmdFields) (s : State) : Bool :=
  let u := s.storedCtr (ctrSlot c.slot)
  !s.shutter.resetLow && s.latch.ready && s.latch.rolling.isNone && !s.latchBusy c.gate && !s.vendor && argsOk code c.args &&
  (if c.slot = 0xFE then s.get R.LTCH_LIFECYCLE_STATE 0 == 3 && code == 0x09 else s.slotAllows c.slot code) && !c.aesFault &&
  (code == 0x0B || (decide (u < s.nextCtr c ∧ s.nextCtr c ≤ u + 65536) &&
    (u / 1024 == s.nextCtr c / 1024 || (!c.journalFail && s.domainOn 1))))

/-- A signed command passes when the other checks pass. -/
theorem signed_authentic (code : Nat) (args : List Byte) (s0 s : State) (hk : s0.cmdKey 0 = s.cmdKey 0)
    (h : sideChecks code (signed code args s0) s = true) : s.authentic code (signed code args s0) = true := by
  have hd : decide ((signed code args s0).device = Config.deviceId.toNat) = true := decide_eq_true rfl
  have ht : decide ((signed code args s0).tag =
      (cmacBytes (s.cmdKey (signed code args s0).slot) (cmdBytes (critCmd code (signed code args s0)))).take 8) = true := by
    rw [decide_eq_true_eq]
    show (cmacBytes (s0.cmdKey 0) _).take 8 = (cmacBytes (s.cmdKey 0) _).take 8
    rw [hk]
    rfl
  simp only [sideChecks, Bool.and_eq_true] at h
  simp only [State.authentic, Bool.and_eq_true]
  exact ⟨⟨⟨⟨⟨h.1.1.1, h.1.1.2⟩, hd⟩, h.1.2⟩, ht⟩, h.2⟩

/-- The bytes of the response that stands. -/
def givenBytes (s : State) : List Byte := (List.range 4).flatMap (fun k => leBytes 4 (tblGet 0 s.latch.response k).toNat)

/-- The response put in place is the one that grants the level. -/
theorem answering_given (level : Nat) (s : State) : givenBytes (answering level s) = (answering level s).dbgAnswer level := by
  have e : (answering level s).dbgAnswer level = s.dbgAnswer level := rfl
  rw [e]
  exact words_carry (s.dbgAnswer level) (cmacBytes_length _ _)

/-- The state with other response registers. -/
def withResponse (r : Tbl Word) (s : State) : State := { s with latch := { s.latch with response := r } }

/-- One of two responses is not the one that grants the level. -/
theorem some_response_wrong (level : Nat) (s : State) (a b : Tbl Word) (h : givenBytes (withResponse a s) ≠ givenBytes (withResponse b s)) :
    ∃ r, (r = a ∨ r = b) ∧ givenBytes (withResponse r s) ≠ (withResponse r s).dbgAnswer level := by
  by_cases ha : givenBytes (withResponse a s) = s.dbgAnswer level
  · exact ⟨b, .inr rfl, fun hb => h (ha.trans hb.symm)⟩
  · exact ⟨a, .inl rfl, ha⟩

/-- A resynchronisation's other checks look at the length of its arguments alone. -/
theorem sideChecks_resync (a : List Byte) (s0 s : State) (h : a.length = 16) :
    sideChecks 0x0B (signed 0x0B a s0) s = sideChecks 0x0B (signed 0x0B (List.replicate 16 0) s0) s := by
  have e : argsOk 0x0B a = argsOk 0x0B (List.replicate 16 0) := by simp [argsOk, h]
  simp only [sideChecks, signed, State.nextCtr, e]
  rfl

theorem nonce_length (s : State) : s.nonce.length = 8 := by simp [State.nonce, cmacBytes_length]

theorem nonce_counter (s : State) (n : Nat) :
    (s.nonce ++ leBytes 8 n).take 8 = s.nonce ∧ ((s.nonce ++ leBytes 8 n).drop 8).take 8 = leBytes 8 n := by
  have h := nonce_length s
  constructor
  · rw [← h, List.take_left]
  · rw [← h, List.drop_left, h]
    exact List.take_of_length_le (by simp)

/-- A channel with no error patterns holds clean words. -/
theorem ddrUp_clean (w : Nat) : decodeWord (tblGet 0 (ddrUp.ddrCh 1).errs w).toNat = .clean := by
  rw [show (ddrUp.ddrCh 1).errs = [] by decide +kernel]
  exact (by decide +kernel : decodeWord 0 = .clean)

/-- What holds of a pane that is its own gang holds of every pane of the gang. -/
theorem alone_all {s : State} {p : Nat} {P : Nat → Prop} (hg : s.paneGang p = [p]) (h : P p) : ∀ q, q ∈ s.paneGang p → P q := by
  intro q hq
  rw [hg, List.mem_singleton] at hq
  exact hq ▸ h

/-- A pane that is its own gang, with nothing left to settle. -/
theorem alone_quiet {s : State} {p : Nat} (hg : s.paneGang p = [p])
    (h : s.gangOn p = true ∧ s.gangInit p = false ∧ (s.ctl p).openRun = true ∧ (s.ctl p).red = none ∧ (s.ctl p).edgeWait = [] ∧
      occMismatch (s.pane p).inb (s.pane p).inOcc = none ∧ occMismatch (s.pane p).outb (s.pane p).outOcc = none) : s.gangQuiet p :=
  ⟨h.1, h.2.1, alone_all hg h.2.2⟩

/-- A controller of a pane that is its own gang, in a microword. -/
theorem alone_micro {s : State} {p cls : Nat} (hg : s.paneGang p = [p]) (hq : s.gangQuiet p)
    (h : p < 16 ∧ executing s p = true ∧ muClass (muNow (s.ctl p)) = cls ∧ microBad (muNow (s.ctl p)) = false) :
    s.inMicroword p cls :=
  ⟨h.1, by rw [hg]; exact List.mem_singleton.mpr rfl, hq, alone_all hg h.2⟩

/-- A fabric that loads what lies at flash offset 0, under key slot 0. -/
def loadingFrom (bs : List Byte) (s : State) : State :=
  { s with flash := ⟨memWrite erasedByte [] 0 bs, []⟩, fabric := { s.fabric with load := some ⟨false, 0, 0⟩ } }

theorem loadingFrom_steps (bs : List Byte) (s : State) (kindOk : Nat → Bool) (key : Nat) (base : Bool) (b : List Byte) :
    contSteps kindOk key base b (loadingFrom bs s) = contSteps kindOk key base b s := rfl

theorem loadingFrom_key (bs : List Byte) (s : State) (k : Nat) : (loadingFrom bs s).imgKey k = s.imgKey k := rfl

theorem loadingFrom_open (bs : List Byte) (s : State) (h : s.domainOn 1 = true) :
    (loadingFrom bs s).domainOn 1 = true ∧ (loadingFrom bs s).fabric.load = some ⟨false, 0, 0⟩ := ⟨h, rfl⟩

/-- Its flash holds the bytes. -/
theorem loadingFrom_read (bs : List Byte) (s : State) (a n : Nat) (h : a + n ≤ bs.length) :
    flashRead a n (loadingFrom bs s) = (loadingFrom bs s, some ((bs.drop a).take n)) := by
  refine flashRead_clean bs _ rfl (fun j hj => ?_) a n h
  have e : (loadingFrom bs s).flash.data = memWrite erasedByte [] 0 bs := rfl
  rw [e, memWrite_get, if_pos ⟨Nat.zero_le _, by omega⟩, Nat.sub_zero, List.getD_eq_getElem _ _ hj, List.getD_eq_getElem _ _ hj]

/-- The copy of the container of zeros passes. -/
theorem loading_passes (s : State) (l : FabricLoad) (h0 : l.offset = 0) (h1 : l.key = 0)
    (hs : contSteps (fun k => k == 3) 0 false zeroHead s = 0) :
    (copySteps l.offset l.key (loadingFrom (zeroBox (s.imgKey 0)) s)).2.code = 0 := by
  rw [h0, h1]
  obtain ⟨s1, s2, s3, s4, s5, s6, s7, s8⟩ := zeroBox_slices (s.imgKey 0)
  have len := zeroBox_length (s.imgKey 0)
  have k2 : contSteps (fun k => k == 3) 0 false zeroHead (loadingFrom (zeroBox (s.imgKey 0)) s) = 0 :=
    (loadingFrom_steps _ s _ _ _ _).trans hs
  have key : (loadingFrom (zeroBox (s.imgKey 0)) s).imgKey 0 = s.imgKey 0 := loadingFrom_key _ s 0
  generalize zeroBox (s.imgKey 0) = box at *
  have read (a n : Nat) (h : a + n ≤ 288424) : flashRead a n (loadingFrom box s) = (loadingFrom box s, some ((box.drop a).take n)) :=
    loadingFrom_read box s a n (by omega)
  have k3 : contLen zeroHead = bitstreamLen := by decide +kernel
  have k4 : bitstreamHeaderOk zeroTop = true := by decide +kernel
  have k5 := zeroTop_park
  obtain ⟨k, r, hc⟩ := copyFrames_zero 32 (loadingFrom box s)
    (fun n hn => (read (32 + 0x100 + 68 * n) 68 (by omega)).trans (by rw [s3 n hn])) 4237 0
    ⟨[], [], some (List.replicate 96 1), argNum zeroTop 8 4, argNum zeroTop 12 4⟩ (Nat.le_refl 4237) rfl
  refine copySteps_passes 0 _ zeroHead zeroTop box (List.replicate 96 1) k r (by decide) (by rw [read 0 32 (by omega), s1]) k2 k3
    (by rw [Nat.zero_add, read 32 0x100 (by omega), s2]) k4 k5 (by rw [Nat.zero_add]; exact hc)
    ((read 0 288424 (Nat.le_refl _)).trans (by rw [s4])) ?_ ?_
  · show leNum ((box.drop 288404).take 4) = crc32 ((box.drop 32).take 288372)
    rw [s5, s6, leNum_leBytes]
    exact Nat.mod_eq_of_lt (crc32_lt _)
  · have l : contLen box = 288376 := by
      have a : contLen box = contLen zeroHead := by
        rw [← s1, List.drop_zero]
        simp only [contLen, argNum]
        rw [List.drop_take, List.take_take]
        rfl
      rw [a, k3]
    simp only [contTagOk, contTag, l, key]
    rw [show 0x20 + 288376 = 288408 from rfl, s7, s8]
    exact beq_self_eq_true _

/-! ### Witnesses -/

theorem witness_StepRunsFrontCommand_1 : ∃ (s : State),
    s.pending = [] :=
  ⟨State.reset, by decide +kernel⟩

theorem witness_AfterReset_5 : ∃ (d : Nat),
    1 < d ∧ d < 30 :=
  ⟨9, by decide +kernel⟩

theorem witness_AfterReset_6 : ∃ (t : Nat) (d : Nat),
    t < 40 ∧ d < 128 :=
  ⟨1, 2, by decide +kernel⟩

theorem witness_AfterReset_7 : ∃ (t : Nat) (k : Nat),
    t < 40 ∧ k < 38 ∧ k ≠ 30 :=
  ⟨1, 2, by decide +kernel⟩

theorem witness_EveryCommandCompletes_0 : ∃ (i : Instr),
    i.wf = true :=
  ⟨.tickStop 30, by decide +kernel⟩

theorem witness_EveryStepKeepsThePins_0 : ∃ (s : State) (t : State),
    s.PinsAgree ∧ step s = .next t :=
  ⟨State.reset, State.reset, by unfold State.PinsAgree; decide +kernel, rfl⟩

theorem witness_PowerCapBelowAnItinerary_0 : ∃ (mw : Nat) (v : Nat) (it : Itinerary) (s : State),
    s.pageOpen 0x0B 0 = true ∧ mw < 65536 ∧ it ∈ s.porter.current.toList ++ s.porter.staged.toList ∧ v < 80 ∧ mw < (it.variant v).powerTotal :=
  ⟨9000, 0, ownerPlan, { linked with porter := { linked.porter with current := some ownerPlan } }, by decide +kernel⟩

theorem witness_HostInterruptLine_0 : ∃ (i : Instr) (s : State) (t : State),
    exec i s = .next t :=
  ⟨.tapReset, State.reset, { State.reset with jtag := { State.reset.jtag with instr := 2 } }, rfl⟩

theorem witness_HostInterruptLine_1 : ∃ (s : State) (r : Word) (k : Nat),
    (fullRead ⟨30, 0⟩ false 0x13 0 0x064 s).2 = ⟨rspOk, wordBytes r⟩ ∧ k < 32 :=
  ⟨allOn, 0, 2, by decide +kernel⟩

theorem witness_RegisterArithmetic_0 : ∃ (e : EngineId) (y : Syl) (s : State),
    s.ready e = true ∧ y.alone = true ∧ y.fn < 2 :=
  ⟨⟨3, 1⟩, syl 2 1 3 0, withEngine ⟨3, 1⟩ (holding 5), by decide +kernel⟩

theorem witness_RegisterLogic_0 : ∃ (e : EngineId) (y : Syl) (s : State),
    s.ready e = true ∧ y.alone = true ∧ y.fn < 2 :=
  ⟨⟨4, 1⟩, syl 2 1 3 0, withEngine ⟨4, 1⟩ (holding 5), by decide +kernel⟩

theorem witness_RegisterLogic_1 : ∃ (e : EngineId) (y : Syl) (s : State),
    s.ready e = true ∧ y.alone = true ∧ y.fn = 0 ∧ y.rd = 0 :=
  ⟨⟨3, 1⟩, syl 0 1 3 0, withEngine ⟨3, 1⟩ (holding 5), by decide +kernel⟩

theorem witness_Shifts_0 : ∃ (e : EngineId) (y : Syl) (s : State),
    s.ready e = true ∧ y.alone = true ∧ y.fn < 2 :=
  ⟨⟨3, 1⟩, syl 2 1 3 0, withEngine ⟨3, 1⟩ (holding 5), by decide +kernel⟩

theorem witness_Shifts_1 : ∃ (e : EngineId) (y : Syl) (s : State),
    s.ready e = true ∧ y.alone = true ∧ bitsAt y.ops 5 2 = 0 :=
  ⟨⟨5, 1⟩, sylOps (2 * 2 ^ 14 + 1 * 2 ^ 9 + 3), withEngine ⟨5, 1⟩ (holding 5), by decide +kernel⟩

theorem witness_Immediates_0 : ∃ (e : EngineId) (y : Syl) (s : State),
    s.ready e = true ∧ y.alone = true :=
  ⟨⟨3, 1⟩, syl 2 1 3 1, withEngine ⟨3, 1⟩ (holding 5), by decide +kernel⟩

theorem witness_Immediates_1 : ∃ (e : EngineId) (y : Syl) (s : State),
    s.ready e = true ∧ y.alone = true :=
  ⟨⟨3, 1⟩, syl 2 1 3 1, withEngine ⟨3, 1⟩ (holding 5), by decide +kernel⟩

theorem witness_Immediates_2 : ∃ (e : EngineId) (y : Syl) (s : State),
    s.ready e = true ∧ y.alone = true :=
  ⟨⟨3, 1⟩, syl 2 1 3 1, withEngine ⟨3, 1⟩ (holding 5), by decide +kernel⟩

theorem witness_Immediates_3 : ∃ (e : EngineId) (y : Syl) (s : State),
    s.ready e = true ∧ y.alone = true :=
  ⟨⟨3, 1⟩, syl 2 1 3 1, withEngine ⟨3, 1⟩ (holding 5), by decide +kernel⟩

theorem witness_Immediates_4 : ∃ (e : EngineId) (y : Syl) (s : State),
    s.ready e = true ∧ y.alone = true :=
  ⟨⟨3, 1⟩, syl 2 1 3 1, withEngine ⟨3, 1⟩ (holding 5), by decide +kernel⟩

theorem witness_Immediates_5 : ∃ (e : EngineId) (y : Syl) (s : State),
    s.ready e = true ∧ y.alone = true :=
  ⟨⟨3, 1⟩, syl 2 1 3 1, withEngine ⟨3, 1⟩ (holding 5), by decide +kernel⟩

theorem witness_Immediates_6 : ∃ (e : EngineId) (y : Syl) (s : State),
    s.ready e = true ∧ y.alone = true ∧ y.rd = 0 :=
  ⟨⟨3, 1⟩, syl 0 1 3 1, withEngine ⟨3, 1⟩ (holding 5), by decide +kernel⟩

theorem witness_FieldOperations_0 : ∃ (e : EngineId) (y : Syl) (s : State),
    s.ready e = true ∧ y.alone = true ∧ (y.fn = 0 ∨ y.fn = 4) :=
  ⟨⟨3, 1⟩, syl 2 1 3 0, withEngine ⟨3, 1⟩ (holding 5), by decide +kernel⟩

theorem witness_FieldOperations_1 : ∃ (e : EngineId) (y : Syl) (s : State),
    s.ready e = true ∧ y.alone = true ∧ (y.fn = 2 ∨ y.fn = 6) :=
  ⟨⟨3, 1⟩, syl 2 1 3 2, withEngine ⟨3, 1⟩ (holding 5), by decide +kernel⟩

theorem witness_FieldOperations_2 : ∃ (e : EngineId) (y : Syl) (s : State),
    s.ready e = true ∧ y.alone = true ∧ y.rb = 0 ∧ y.fn = 0 :=
  ⟨⟨3, 1⟩, syl 2 1 0 0, withEngine ⟨3, 1⟩ (holding 5), by decide +kernel⟩

theorem witness_FieldOperations_3 : ∃ (e : EngineId) (y : Syl) (s : State),
    s.ready e = true ∧ y.alone = true ∧ y.rb = 0 ∧ y.fn = 1 :=
  ⟨⟨3, 1⟩, syl 2 1 0 1, withEngine ⟨3, 1⟩ (holding 5), by decide +kernel⟩

theorem witness_FieldOperations_4 : ∃ (e : EngineId) (y : Syl) (s : State),
    s.ready e = true ∧ y.alone = true ∧ y.rb = 0 ∧ y.fn = 2 :=
  ⟨⟨4, 1⟩, syl 2 1 0 2, withEngine ⟨4, 1⟩ (holding 5), by decide +kernel⟩

theorem witness_FieldOperations_5 : ∃ (e : EngineId) (y : Syl) (s : State),
    s.ready e = true ∧ y.alone = true ∧ e.ty = 3 ∧ y.fn = 0 :=
  ⟨⟨3, 1⟩, syl 2 1 3 0, withEngine ⟨3, 1⟩ (holding 5), by decide +kernel⟩

theorem witness_FieldOperations_6 : ∃ (e : EngineId) (y : Syl) (s : State),
    s.ready e = true ∧ y.alone = true ∧ e.ty = 3 ∧ y.fn = 1 :=
  ⟨⟨3, 1⟩, syl 2 1 3 1, withEngine ⟨3, 1⟩ (holding 5), by decide +kernel⟩

theorem witness_FieldOperations_7 : ∃ (e : EngineId) (y : Syl) (s : State),
    s.ready e = true ∧ y.alone = true ∧ e.ty = 3 ∧ y.fn = 0 :=
  ⟨⟨3, 1⟩, syl 2 1 3 0, withEngine ⟨3, 1⟩ (holding 5), by decide +kernel⟩

theorem witness_FieldOperations_8 : ∃ (e : EngineId) (y : Syl) (s : State),
    s.ready e = true ∧ y.alone = true ∧ e.ty ≠ 3 ∧ y.rb = 0 ∧ y.fn < 3 :=
  ⟨⟨4, 1⟩, syl 2 1 0 1, withEngine ⟨4, 1⟩ (holding 5), by decide +kernel⟩

theorem witness_FieldOperations_9 : ∃ (e : EngineId) (y : Syl) (s : State),
    s.ready e = true ∧ y.alone = true ∧ e.ty ≠ 3 ∧ y.rb = 0 ∧ 4 ≤ y.fn ∧ y.fn < 7 :=
  ⟨⟨4, 1⟩, syl 2 1 0 5, withEngine ⟨4, 1⟩ (holding 5), by decide +kernel⟩

theorem witness_FieldOperations_10 : ∃ (e : EngineId) (y : Syl) (s : State),
    s.ready e = true ∧ y.alone = true ∧ e.ty ≠ 3 ∧ y.rb = 0 ∧ y.fn < 3 :=
  ⟨⟨4, 1⟩, syl 2 1 0 1, withEngine ⟨4, 1⟩ (holding 5), by decide +kernel⟩

theorem witness_MultiplyDivideDecimal_0 : ∃ (e : EngineId) (y : Syl) (s : State),
    s.ready e = true ∧ y.alone = true ∧ y.fn = 0 :=
  ⟨⟨3, 1⟩, syl 2 1 3 0, withEngine ⟨3, 1⟩ (holding 5), by decide +kernel⟩

theorem witness_MultiplyDivideDecimal_1 : ∃ (e : EngineId) (y : Syl) (s : State),
    s.ready e = true ∧ y.alone = true ∧ y.fn = 1 :=
  ⟨⟨3, 1⟩, syl 2 1 3 1, withEngine ⟨3, 1⟩ (holding 5), by decide +kernel⟩

theorem witness_MultiplyDivideDecimal_2 : ∃ (e : EngineId) (y : Syl) (s : State),
    s.ready e = true ∧ y.alone = true ∧ y.fn = 2 :=
  ⟨⟨3, 1⟩, syl 2 1 3 2, withEngine ⟨3, 1⟩ (holding 5), by decide +kernel⟩

theorem witness_MultiplyDivideDecimal_3 : ∃ (e : EngineId) (y : Syl) (s : State),
    s.ready e = true ∧ y.alone = true ∧ y.fn = 3 ∧ y.rd % 2 = 0 :=
  ⟨⟨3, 1⟩, syl 2 1 3 3, withEngine ⟨3, 1⟩ (holding 5), by decide +kernel⟩

theorem witness_MultiplyDivideDecimal_4 : ∃ (e : EngineId) (y : Syl) (s : State),
    s.ready e = true ∧ y.alone = true ∧ y.fn = 4 ∧ y.rd % 2 = 0 :=
  ⟨⟨3, 1⟩, syl 2 1 3 4, withEngine ⟨3, 1⟩ (holding 5), by decide +kernel⟩

theorem witness_MultiplyDivideDecimal_5 : ∃ (e : EngineId) (y : Syl) (s : State),
    let z := s.vreg e y.rb
    s.ready e = true ∧ y.alone = true ∧ y.fn = 0 ∧ z ≠ 0 :=
  ⟨⟨3, 1⟩, syl 2 1 3 0, withEngine ⟨3, 1⟩ (holding 5), by decide +kernel⟩

theorem witness_MultiplyDivideDecimal_6 : ∃ (e : EngineId) (y : Syl) (s : State),
    let z := s.vreg e y.rb
    s.ready e = true ∧ y.alone = true ∧ y.fn = 2 ∧ z ≠ 0 :=
  ⟨⟨3, 1⟩, syl 2 1 3 2, withEngine ⟨3, 1⟩ (holding 5), by decide +kernel⟩

theorem witness_MultiplyDivideDecimal_7 : ∃ (e : EngineId) (y : Syl) (s : State),
    let z := s.vreg e y.rb
    s.ready e = true ∧ y.alone = true ∧ y.fn = 1 ∧ z ≠ 0 :=
  ⟨⟨3, 1⟩, syl 2 1 3 1, withEngine ⟨3, 1⟩ (holding 5), by decide +kernel⟩

theorem witness_MultiplyDivideDecimal_8 : ∃ (e : EngineId) (y : Syl) (s : State),
    let z := s.vreg e y.rb
    s.ready e = true ∧ y.alone = true ∧ y.fn = 3 ∧ z ≠ 0 :=
  ⟨⟨3, 1⟩, syl 2 1 3 3, withEngine ⟨3, 1⟩ (holding 5), by decide +kernel⟩

theorem witness_MultiplyDivideDecimal_9 : ∃ (e : EngineId) (y : Syl) (s : State),
    let z := s.vreg e y.rb
    s.ready e = true ∧ y.alone = true ∧ y.fn < 4 ∧ z = 0 ∧ trapActive e.ty (s.core e).sys = false :=
  ⟨⟨3, 1⟩, syl 2 1 3 0, withEngine ⟨3, 1⟩ (Engine.idle), by decide +kernel⟩

theorem witness_MultiplyDivideDecimal_10 : ∃ (e : EngineId) (y : Syl) (s : State),
    let w := widthOf e.ty
    let x := s.vreg e y.ra
    let z := s.vreg e y.rb
    let digits := fun (n : Nat) => (List.range (w / 4)).map (fun k => n / 16 ^ k % 16)
    let good := (digits x ++ digits z).all (fun d => decide (d ≤ 9))
    s.ready e = true ∧ y.alone = true ∧ y.fn < 2 ∧ good = true :=
  ⟨⟨3, 1⟩, syl 2 1 3 1, withEngine ⟨3, 1⟩ (holding 5), by decide +kernel⟩

theorem witness_MultiplyDivideDecimal_11 : ∃ (e : EngineId) (y : Syl) (s : State),
    let w := widthOf e.ty
    let x := s.vreg e y.ra
    let z := s.vreg e y.rb
    let digits := fun (n : Nat) => (List.range (w / 4)).map (fun k => n / 16 ^ k % 16)
    let good := (digits x ++ digits z).all (fun d => decide (d ≤ 9))
    s.ready e = true ∧ y.alone = true ∧ y.fn < 2 ∧ good = false :=
  ⟨⟨3, 1⟩, syl 2 1 3 1, withEngine ⟨3, 1⟩ (holding 0xA5), by decide +kernel⟩

theorem witness_FloatingPoint_0 : ∃ (e : EngineId) (y : Syl) (s : State),
    let fmt := y.fn % 4
    let even := fun (v : Nat) => fmt = 2 → v % 2 = 0
    s.ready e = true ∧ y.alone = true ∧ e.ty = 3 ∧ y.fn % 4 ≠ 3 ∧ y.fn < 4 ∧ even y.rd ∧ even y.ra ∧ even y.rb :=
  ⟨⟨3, 1⟩, syl 2 1 3 1, withEngine ⟨3, 1⟩ (holding 5), by decide +kernel⟩

theorem witness_FloatingPoint_1 : ∃ (e : EngineId) (y : Syl) (s : State),
    let fmt := y.fn % 4
    let even := fun (v : Nat) => fmt = 2 → v % 2 = 0
    s.ready e = true ∧ y.alone = true ∧ e.ty = 3 ∧ y.fn % 4 ≠ 3 ∧ even y.rd ∧ even y.ra ∧ even y.rb :=
  ⟨⟨3, 1⟩, syl 2 1 3 1, withEngine ⟨3, 1⟩ (holding 5), by decide +kernel⟩

theorem witness_FloatingPoint_2 : ∃ (e : EngineId) (y : Syl) (s : State),
    let fmt := y.fn % 4
    let even := fun (v : Nat) => fmt = 2 → v % 2 = 0
    s.ready e = true ∧ y.alone = true ∧ e.ty = 3 ∧ y.fn % 4 ≠ 3 ∧ y.fn < 4 ∧ y.rb = 0 ∧ even y.ra ∧ even y.rd :=
  ⟨⟨3, 1⟩, syl 2 1 0 1, withEngine ⟨3, 1⟩ (holding 5), by decide +kernel⟩

theorem witness_FloatingPoint_3 : ∃ (e : EngineId) (y : Syl) (s : State),
    let fmt := y.fn % 4
    let even := fun (v : Nat) => fmt = 2 → v % 2 = 0
    s.ready e = true ∧ y.alone = true ∧ e.ty = 3 ∧ y.fn % 4 ≠ 3 ∧ y.fn < 4 ∧ y.rb = 0 ∧ even y.ra :=
  ⟨⟨3, 1⟩, syl 2 1 0 1, withEngine ⟨3, 1⟩ (holding 5), by decide +kernel⟩

theorem witness_FloatingPoint_4 : ∃ (e : EngineId) (y : Syl) (s : State),
    let fmt := y.fn % 4
    let even := fun (v : Nat) => fmt = 2 → v % 2 = 0
    s.ready e = true ∧ y.alone = true ∧ e.ty = 3 ∧ y.fn % 4 ≠ 3 ∧ y.fn / 4 ≠ 3 ∧ even y.rd ∧ even y.ra ∧ even y.rb :=
  ⟨⟨3, 1⟩, syl 2 1 3 1, withEngine ⟨3, 1⟩ (holding 5), by decide +kernel⟩

theorem witness_FloatingPoint_5 : ∃ (e : EngineId) (y : Syl) (s : State),
    let fmt := y.fn % 4
    let even := fun (v : Nat) => fmt = 2 → v % 2 = 0
    s.ready e = true ∧ y.alone = true ∧ e.ty = 3 ∧ y.fn % 4 ≠ 3 ∧ y.fn < 8 ∧ y.rd = 0 ∧ even y.ra ∧ even y.rb :=
  ⟨⟨3, 1⟩, syl 0 1 3 1, withEngine ⟨3, 1⟩ (holding 5), by decide +kernel⟩

theorem witness_FloatingPoint_6 : ∃ (e : EngineId) (y : Syl) (s : State),
    let fmt := y.fn % 4
    let even := fun (v : Nat) => fmt = 2 → v % 2 = 0
    s.ready e = true ∧ y.alone = true ∧ e.ty = 3 ∧ y.fn % 4 ≠ 3 ∧ y.fn < 4 ∧ y.rb < 3 ∧ y.rb ≠ fmt ∧ even y.rd ∧ (y.rb = 2 → y.ra % 2 = 0) :=
  ⟨⟨3, 1⟩, syl 2 1 0 1, withEngine ⟨3, 1⟩ (holding 5), by decide +kernel⟩

theorem witness_FloatingPoint_7 : ∃ (e : EngineId) (y : Syl) (s : State),
    let fmt := y.fn % 4
    let even := fun (v : Nat) => fmt = 2 → v % 2 = 0
    s.ready e = true ∧ y.alone = true ∧ e.ty = 3 ∧ y.fn % 4 ≠ 3 ∧ y.fn < 4 ∧ y.rb / 8 = 1 ∧ y.rb % 2 = 0 ∧ even y.ra :=
  ⟨⟨3, 1⟩, syl 2 1 8 1, withEngine ⟨3, 1⟩ (holding 5), by decide +kernel⟩

theorem witness_FloatingPoint_8 : ∃ (e : EngineId) (y : Syl) (s : State),
    let fmt := y.fn % 4
    let even := fun (v : Nat) => fmt = 2 → v % 2 = 0
    s.ready e = true ∧ y.alone = true ∧ e.ty = 3 ∧ y.fn % 4 ≠ 3 ∧ y.fn < 4 ∧ (y.rb = 16 ∨ y.rb = 20) ∧ even y.rd :=
  ⟨⟨3, 1⟩, syl 2 1 16 1, withEngine ⟨3, 1⟩ (holding 5), by decide +kernel⟩

theorem witness_LocalLoads_0 : ∃ (e : EngineId) (y : Syl) (s : State),
    let addr := fun (n : Nat) => wrapInt 32 ((s.vreg e y.ra : Int) + signedOf 9 y.imm9 * n)
    let fits := fun (a n : Nat) => a % n = 0 ∧ a + n ≤ 65536 ∧ s.dataClean e a n = true
    s.ready e = true ∧ y.alone = true ∧ e.ty = 3 ∧ fits (addr 1) 1 :=
  ⟨⟨3, 1⟩, syl 2 1 0 2, withEngine ⟨3, 1⟩ (Engine.idle), by decide +kernel⟩

theorem witness_LocalLoads_1 : ∃ (e : EngineId) (y : Syl) (s : State),
    let addr := fun (n : Nat) => wrapInt 32 ((s.vreg e y.ra : Int) + signedOf 9 y.imm9 * n)
    let fits := fun (a n : Nat) => a % n = 0 ∧ a + n ≤ 65536 ∧ s.dataClean e a n = true
    s.ready e = true ∧ y.alone = true ∧ e.ty = 3 ∧ fits (addr 2) 2 :=
  ⟨⟨3, 1⟩, syl 2 1 0 2, withEngine ⟨3, 1⟩ (Engine.idle), by decide +kernel⟩

theorem witness_LocalLoads_2 : ∃ (e : EngineId) (y : Syl) (s : State),
    let addr := fun (n : Nat) => wrapInt 32 ((s.vreg e y.ra : Int) + signedOf 9 y.imm9 * n)
    let fits := fun (a n : Nat) => a % n = 0 ∧ a + n ≤ 65536 ∧ s.dataClean e a n = true
    s.ready e = true ∧ y.alone = true ∧ e.ty = 3 ∧ fits (addr 4) 4 :=
  ⟨⟨3, 1⟩, syl 2 1 0 2, withEngine ⟨3, 1⟩ (Engine.idle), by decide +kernel⟩

theorem witness_LocalLoads_3 : ∃ (e : EngineId) (y : Syl) (s : State),
    let addr := fun (n : Nat) => wrapInt 32 ((s.vreg e y.ra : Int) + signedOf 9 y.imm9 * n)
    let fits := fun (a n : Nat) => a % n = 0 ∧ a + n ≤ 65536 ∧ s.dataClean e a n = true
    s.ready e = true ∧ y.alone = true ∧ e.ty = 3 ∧ y.rd % 2 = 0 ∧ fits (addr 8) 8 :=
  ⟨⟨3, 1⟩, syl 2 1 0 2, withEngine ⟨3, 1⟩ (Engine.idle), by decide +kernel⟩

theorem witness_LocalLoads_4 : ∃ (e : EngineId) (y : Syl) (s : State),
    let addr := fun (n : Nat) => wrapInt 32 ((s.vreg e y.ra : Int) + signedOf 9 y.imm9 * n)
    let fits := fun (a n : Nat) => a % n = 0 ∧ a + n ≤ 65536 ∧ s.dataClean e a n = true
    let a := addr 4 / 4 * 4
    s.ready e = true ∧ y.alone = true ∧ e.ty = 3 ∧ fits a 4 :=
  ⟨⟨3, 1⟩, syl 2 1 0 2, withEngine ⟨3, 1⟩ (Engine.idle), by decide +kernel⟩

theorem witness_LocalLoads_5 : ∃ (e : EngineId) (y : Syl) (s : State),
    let a24 := 3 * wrapInt 24 ((s.vreg e y.ra : Int) + signedOf 9 y.imm9)
    s.ready e = true ∧ y.alone = true ∧ e.ty ≠ 3 ∧ a24 + 3 ≤ 65536 ∧ s.dataClean e a24 3 = true :=
  ⟨⟨4, 1⟩, syl 2 1 0 2, withEngine ⟨4, 1⟩ (Engine.idle), by decide +kernel⟩

theorem witness_LocalStores_0 : ∃ (e : EngineId) (y : Syl) (s : State),
    let addr := fun (n : Nat) => wrapInt 32 ((s.vreg e y.ra : Int) + signedOf 9 y.imm9 * n)
    let fits := fun (a n : Nat) => a % n = 0 ∧ a + n ≤ 65536 ∧ s.dataClean e a n = true
    s.ready e = true ∧ y.alone = true ∧ e.ty = 3 ∧ fits (addr 1) 1 :=
  ⟨⟨3, 1⟩, syl 2 1 0 2, withEngine ⟨3, 1⟩ (Engine.idle), by decide +kernel⟩

theorem witness_LocalStores_1 : ∃ (e : EngineId) (y : Syl) (s : State),
    let addr := fun (n : Nat) => wrapInt 32 ((s.vreg e y.ra : Int) + signedOf 9 y.imm9 * n)
    let fits := fun (a n : Nat) => a % n = 0 ∧ a + n ≤ 65536 ∧ s.dataClean e a n = true
    s.ready e = true ∧ y.alone = true ∧ e.ty = 3 ∧ fits (addr 2) 2 :=
  ⟨⟨3, 1⟩, syl 2 1 0 2, withEngine ⟨3, 1⟩ (Engine.idle), by decide +kernel⟩

theorem witness_LocalStores_2 : ∃ (e : EngineId) (y : Syl) (s : State),
    let addr := fun (n : Nat) => wrapInt 32 ((s.vreg e y.ra : Int) + signedOf 9 y.imm9 * n)
    let fits := fun (a n : Nat) => a % n = 0 ∧ a + n ≤ 65536 ∧ s.dataClean e a n = true
    s.ready e = true ∧ y.alone = true ∧ e.ty = 3 ∧ fits (addr 4) 4 :=
  ⟨⟨3, 1⟩, syl 2 1 0 2, withEngine ⟨3, 1⟩ (Engine.idle), by decide +kernel⟩

theorem witness_LocalStores_3 : ∃ (e : EngineId) (y : Syl) (s : State),
    let addr := fun (n : Nat) => wrapInt 32 ((s.vreg e y.ra : Int) + signedOf 9 y.imm9 * n)
    let fits := fun (a n : Nat) => a % n = 0 ∧ a + n ≤ 65536 ∧ s.dataClean e a n = true
    s.ready e = true ∧ y.alone = true ∧ e.ty = 3 ∧ y.rd % 2 = 0 ∧ fits (addr 8) 8 :=
  ⟨⟨3, 1⟩, syl 2 1 0 2, withEngine ⟨3, 1⟩ (Engine.idle), by decide +kernel⟩

theorem witness_LocalStores_4 : ∃ (e : EngineId) (y : Syl) (s : State),
    let addr := fun (n : Nat) => wrapInt 32 ((s.vreg e y.ra : Int) + signedOf 9 y.imm9 * n)
    let fits := fun (a n : Nat) => a % n = 0 ∧ a + n ≤ 65536 ∧ s.dataClean e a n = true
    let a := addr 4 / 4 * 4
    s.ready e = true ∧ y.alone = true ∧ e.ty = 3 ∧ fits a 4 :=
  ⟨⟨3, 1⟩, syl 2 1 0 2, withEngine ⟨3, 1⟩ (Engine.idle), by decide +kernel⟩

theorem witness_LocalStores_5 : ∃ (e : EngineId) (y : Syl) (s : State),
    let a24 := 3 * wrapInt 24 ((s.vreg e y.ra : Int) + signedOf 9 y.imm9)
    s.ready e = true ∧ y.alone = true ∧ e.ty ≠ 3 ∧ a24 + 3 ≤ 65536 ∧ s.dataClean e a24 3 = true :=
  ⟨⟨4, 1⟩, syl 2 1 0 2, withEngine ⟨4, 1⟩ (Engine.idle), by decide +kernel⟩

theorem witness_LocalAccessTraps_0 : ∃ (e : EngineId) (y : Syl) (s : State),
    let a := wrapInt 32 ((s.vreg e y.ra : Int) + signedOf 9 y.imm9 * 4)
    s.ready e = true ∧ y.alone = true ∧ e.ty = 3 ∧ trapActive e.ty (s.core e).sys = false ∧ a % 4 ≠ 0 :=
  ⟨⟨3, 1⟩, syl 2 1 0 2, withEngine ⟨3, 1⟩ (holding 5), by decide +kernel⟩

theorem witness_LocalAccessTraps_1 : ∃ (e : EngineId) (y : Syl) (s : State),
    let a := wrapInt 32 ((s.vreg e y.ra : Int) + signedOf 9 y.imm9 * 4)
    s.ready e = true ∧ y.alone = true ∧ e.ty = 3 ∧ trapActive e.ty (s.core e).sys = false ∧ a % 4 = 0 ∧ 65536 < a + 4 :=
  ⟨⟨3, 1⟩, syl 2 1 0 2, withEngine ⟨3, 1⟩ (holding 0x10000), by decide +kernel⟩

theorem witness_LocalAccessTraps_2 : ∃ (e : EngineId) (y : Syl) (s : State),
    let a := wrapInt 32 ((s.vreg e y.ra : Int) + signedOf 9 y.imm9 * 4)
    s.ready e = true ∧ y.alone = true ∧ e.ty = 3 ∧ trapActive e.ty (s.core e).sys = false ∧ a % 4 = 0 ∧ a + 4 ≤ 65536 ∧ (s.mem (engKey e.ty e.num)).decode true (a / 8) = .uncorrectable :=
  ⟨⟨3, 1⟩, syl 2 1 0 0, { withEngine ⟨3, 1⟩ Engine.idle with engMem := [(engKey 3 1, { EngMem.idle with errs := [(rowKey true 0, 1 + 2 ^ 40)] })] }, by decide +kernel⟩

theorem witness_Transfers_0 : ∃ (e : EngineId) (y : Syl) (s : State),
    s.ready e = true ∧ y.alone = true :=
  ⟨⟨3, 1⟩, sylOps 40, withEngine ⟨3, 1⟩ (Engine.idle), by decide +kernel⟩

theorem witness_Transfers_1 : ∃ (e : EngineId) (y : Syl) (s : State),
    let wst := s.sysReg e.ty e.num 2
    let res := bitsAt wst 4 4
    let full := if e.ty = 3 then 6 else 2
    s.ready e = true ∧ y.alone = true ∧ res < full :=
  ⟨⟨3, 1⟩, sylOps 40, withEngine ⟨3, 1⟩ (Engine.idle), by decide +kernel⟩

theorem witness_Transfers_2 : ∃ (e : EngineId) (y : Syl) (s : State),
    let wst := s.sysReg e.ty e.num 2
    let res := bitsAt wst 4 4
    let full := if e.ty = 3 then 6 else 2
    let quiet := trapActive e.ty (s.core e).sys = false
    s.ready e = true ∧ y.alone = true ∧ full ≤ res ∧ quiet :=
  ⟨⟨3, 1⟩, sylOps 40, withEngine ⟨3, 1⟩ (withSys [(2, 96)]), by decide +kernel⟩

theorem witness_Transfers_3 : ∃ (e : EngineId) (y : Syl) (s : State),
    let t := s.vreg e y.ra
    let plain := y.rd = 0 ∧ y.rb = 0 ∧ y.fn = 0
    s.ready e = true ∧ y.alone = true ∧ plain ∧ t % 4 = 0 :=
  ⟨⟨3, 1⟩, syl 0 1 0 0, withEngine ⟨3, 1⟩ (holding 64), by decide +kernel⟩

theorem witness_Transfers_4 : ∃ (e : EngineId) (y : Syl) (s : State),
    let wst := s.sysReg e.ty e.num 2
    let res := bitsAt wst 4 4
    let t := s.vreg e y.ra
    let full := if e.ty = 3 then 6 else 2
    let plain := y.rd = 0 ∧ y.rb = 0 ∧ y.fn = 0
    s.ready e = true ∧ y.alone = true ∧ plain ∧ t % 4 = 0 ∧ res < full :=
  ⟨⟨3, 1⟩, syl 0 1 0 0, withEngine ⟨3, 1⟩ (holding 64), by decide +kernel⟩

theorem witness_Transfers_5 : ∃ (e : EngineId) (y : Syl) (s : State),
    let t := s.vreg e y.ra
    let plain := y.rd = 0 ∧ y.rb = 0 ∧ y.fn = 0
    let quiet := trapActive e.ty (s.core e).sys = false
    s.ready e = true ∧ y.alone = true ∧ plain ∧ t % 4 ≠ 0 ∧ quiet :=
  ⟨⟨3, 1⟩, syl 0 1 0 0, withEngine ⟨3, 1⟩ (holding 5), by decide +kernel⟩

theorem witness_Transfers_6 : ∃ (e : EngineId) (y : Syl) (s : State),
    let wst := s.sysReg e.ty e.num 2
    let res := bitsAt wst 4 4
    let full := if e.ty = 3 then 6 else 2
    let plain := y.rd = 0 ∧ y.rb = 0 ∧ y.fn = 0
    let quiet := trapActive e.ty (s.core e).sys = false
    s.ready e = true ∧ y.alone = true ∧ plain ∧ full ≤ res ∧ quiet :=
  ⟨⟨3, 1⟩, syl 0 1 0 0, withEngine ⟨3, 1⟩ (withSys [(2, 96)]), by decide +kernel⟩

theorem witness_Transfers_7 : ∃ (e : EngineId) (y : Syl) (s : State),
    let wst := s.sysReg e.ty e.num 2
    let res := bitsAt wst 4 4
    s.ready e = true ∧ y.alone = true ∧ y.ops = 0 ∧ res ≠ 1 :=
  ⟨⟨3, 1⟩, sylOps 0, withEngine ⟨3, 1⟩ (withSys [(1, 64), (2, 33)]), by decide +kernel⟩

theorem witness_Transfers_8 : ∃ (e : EngineId) (y : Syl) (s : State),
    let wst := s.sysReg e.ty e.num 2
    let res := bitsAt wst 4 4
    let quiet := trapActive e.ty (s.core e).sys = false
    s.ready e = true ∧ y.alone = true ∧ y.ops = 0 ∧ res = 1 ∧ quiet :=
  ⟨⟨3, 1⟩, sylOps 0, withEngine ⟨3, 1⟩ (Engine.idle), by decide +kernel⟩

theorem witness_Transfers_9 : ∃ (e : EngineId) (y : Syl) (s : State),
    let wst := s.sysReg e.ty e.num 2
    let res := bitsAt wst 4 4
    s.ready e = true ∧ y.alone = true ∧ y.ops = 0 ∧ trapActive e.ty (s.core e).sys = true ∧ res ≠ 1 :=
  ⟨⟨3, 1⟩, sylOps 0, withEngine ⟨3, 1⟩ (withSys [(0, 512), (2, 33), (5, 64)]), by decide +kernel⟩

theorem witness_SoftwareTraps_0 : ∃ (e : EngineId) (y : Syl) (s : State),
    s.ready e = true ∧ y.alone = true ∧ trapActive e.ty (s.core e).sys = false ∧ y.rd = 0 ∧ y.ra = 0 :=
  ⟨⟨3, 1⟩, syl 0 0 3 1, withEngine ⟨3, 1⟩ (Engine.idle), by decide +kernel⟩

theorem witness_SoftwareTraps_1 : ∃ (e : EngineId) (y : Syl) (s : State),
    s.ready e = true ∧ y.alone = true ∧ trapActive e.ty (s.core e).sys = false ∧ y.rd = 0 ∧ y.ra = 0 ∧ (s.core e).brkHalt = false :=
  ⟨⟨3, 1⟩, syl 0 0 3 1, withEngine ⟨3, 1⟩ (Engine.idle), by decide +kernel⟩

theorem witness_SoftwareTraps_2 : ∃ (e : EngineId) (y : Syl) (s : State),
    s.ready e = true ∧ y.alone = true ∧ trapActive e.ty (s.core e).sys = false ∧ 2 ≤ y.fn :=
  ⟨⟨3, 1⟩, syl 2 1 3 2, withEngine ⟨3, 1⟩ (Engine.idle), by decide +kernel⟩

theorem witness_SoftwareTraps_3 : ∃ (e : EngineId) (y : Syl) (s : State),
    s.ready e = true ∧ y.alone = true ∧ e.ty = 5 ∧ trapActive e.ty (s.core e).sys = true ∧ y.rd = 0 ∧ y.ra = 0 :=
  ⟨⟨5, 1⟩, syl 0 0 3 1, withEngine ⟨5, 1⟩ (withSys [(0, 512)]), by decide +kernel⟩

theorem witness_SoftwareTraps_4 : ∃ (e : EngineId) (y : Syl) (s : State),
    s.ready e = true ∧ y.alone = true ∧ e.ty = 5 ∧ trapActive e.ty (s.core e).sys = true ∧ y.fn < 4 ∧ s.vreg e y.rb = 0 :=
  ⟨⟨5, 1⟩, syl 2 1 3 0, withEngine ⟨5, 1⟩ (withSys [(0, 512)]), by decide +kernel⟩

theorem witness_ConditionFalse_0 : ∃ (i : Instr) (e : EngineId) (op : Nat) (y : Syl) (s : State),
    let f := s.sysReg e.ty e.num 0
    let n := bitOf f 0
    let z := bitOf f 1
    let c := bitOf f 2
    let v := bitOf f 3
    let last := if e.ty = 3 then (s.link (engKey e.ty e.num)).g else bitOf f 4
    let tests := [true, z, !z, c, !c, n, !n, v, !v, c && !z, !c || z, n == v, n != v, !z && n == v, z || n != v, last == y.gx]
    i.syllable = some (e, op, y) ∧ i.wf = true ∧ s.ready e = true ∧ y.stop = true ∧ op ≠ 0x1F ∧ tests.getD y.cond false = false ∧ reservedSyl e.ty (s.sysReg e.ty e.num 0x13) ⟨bitsAt (s.sysReg e.ty e.num 2) 4 4, trapActive e.ty (s.core e).sys, s.vreg e y.ra⟩ (sylWord op y) = false :=
  ⟨.addReg ⟨3, 1⟩ ⟨true, 1, false, 0, 0⟩, ⟨3, 1⟩, 0, ⟨true, 1, false, 0, 0⟩, withEngine ⟨3, 1⟩ Engine.idle, by decide +kernel⟩

theorem witness_BundleCollects_0 : ∃ (i : Instr) (e : EngineId) (op : Nat) (y : Syl) (s : State),
    i.syllable = some (e, op, y) ∧ i.wf = true ∧ s.ready e = true ∧ y.stop = false :=
  ⟨.addi ⟨3, 1⟩ ⟨false, 0, false, 32768, 0⟩, ⟨3, 1⟩, 0x10, ⟨false, 0, false, 32768, 0⟩, withEngine ⟨3, 1⟩ Engine.idle, by decide +kernel⟩

theorem witness_BundleCollects_1 : ∃ (e : EngineId) (y1 : Syl) (y2 : Syl) (s : State),
    s.ready e = true ∧ e.ty = 3 ∧ y1.ok = true ∧ y1.stop = false ∧ y1.cond = 0 ∧ y1.gx = false ∧ y2.alone = true ∧ y2.fn = 0 ∧ (y1.rd ≠ y2.rd ∨ y1.rd = 0) ∧ fetchable 3 e.num ((s.core e).pc % 2 ^ 32 + 4) = true ∧ (s.core e).pc % 8 = 0 ∧ (s.core e).pc < 131072 :=
  ⟨⟨3, 1⟩, ⟨false, 0, false, 32773, 0⟩, syl 3 1 1 0, withEngine ⟨3, 1⟩ (holding 5), by decide +kernel⟩

theorem witness_SystemRegisters_0 : ∃ (e : EngineId) (y : Syl) (s : State),
    let sel := y.ops % 2 ^ 9
    s.ready e = true ∧ y.alone = true ∧ y.ra = 0 ∧ selValid e.ty sel = true ∧ sel = 0 :=
  ⟨⟨3, 1⟩, sylOps (2 * 2 ^ 14 + 0), withEngine ⟨3, 1⟩ (Engine.idle), by decide +kernel⟩

theorem witness_SystemRegisters_1 : ∃ (e : EngineId) (y : Syl) (s : State),
    let sel := y.ops % 2 ^ 9
    s.ready e = true ∧ y.alone = true ∧ y.ra = 0 ∧ selValid e.ty sel = true ∧ sel = 0x0C :=
  ⟨⟨3, 1⟩, sylOps (2 * 2 ^ 14 + 12), withEngine ⟨3, 1⟩ (Engine.idle), by decide +kernel⟩

theorem witness_SystemRegisters_2 : ∃ (e : EngineId) (y : Syl) (s : State),
    let sel := y.ops % 2 ^ 9
    s.ready e = true ∧ y.alone = true ∧ y.ra = 0 ∧ selValid e.ty sel = true ∧ sel = 0x30 :=
  ⟨⟨3, 1⟩, sylOps (2 * 2 ^ 14 + 48), withEngine ⟨3, 1⟩ (Engine.idle), by decide +kernel⟩

theorem witness_SystemRegisters_3 : ∃ (e : EngineId) (y : Syl) (s : State),
    let sel := y.ops % 2 ^ 9
    s.ready e = true ∧ y.alone = true ∧ y.ra = 0 ∧ selValid e.ty sel = true ∧ sel = 0x31 :=
  ⟨⟨3, 1⟩, sylOps (2 * 2 ^ 14 + 49), withEngine ⟨3, 1⟩ (Engine.idle), by decide +kernel⟩

theorem witness_SystemRegisters_4 : ∃ (e : EngineId) (y : Syl) (s : State),
    let sel := y.ops % 2 ^ 9
    s.ready e = true ∧ y.alone = true ∧ y.ra = 0 ∧ selValid e.ty sel = true ∧ sel ∉ [0, 0x0C, 0x0E, 0x0F, 0x30, 0x31] :=
  ⟨⟨3, 1⟩, sylOps (2 * 2 ^ 14 + 4), withEngine ⟨3, 1⟩ (Engine.idle), by decide +kernel⟩

theorem witness_SystemRegisters_5 : ∃ (e : EngineId) (y : Syl) (s : State),
    let sel := y.ops % 2 ^ 9
    s.ready e = true ∧ y.alone = true ∧ y.ra = 0 ∧ selValid e.ty sel = true ∧ sel = 0x0E :=
  ⟨⟨3, 1⟩, sylOps (2 * 2 ^ 14 + 14), withEngine ⟨3, 1⟩ (Engine.idle), by decide +kernel⟩

theorem witness_SystemRegisters_6 : ∃ (e : EngineId) (y : Syl) (s : State),
    let sel := y.ops % 2 ^ 9
    s.ready e = true ∧ y.alone = true ∧ y.ra = 0 ∧ selValid e.ty sel = true ∧ sel = 0x0F :=
  ⟨⟨3, 1⟩, sylOps (2 * 2 ^ 14 + 15), withEngine ⟨3, 1⟩ (Engine.idle), by decide +kernel⟩

theorem witness_SystemRegisters_7 : ∃ (e : EngineId) (y : Syl) (s : State),
    let sel := y.ops % 2 ^ 9
    s.ready e = true ∧ y.alone = true ∧ y.rd = 0 ∧ selWritable e.ty sel = true ∧ sel ≠ 0 ∧ sel ≠ 2 ∧ sel ≠ 0x13 :=
  ⟨⟨3, 1⟩, sylOps (1 * 2 ^ 9 + 4), withEngine ⟨3, 1⟩ (holding 64), by decide +kernel⟩

theorem witness_SystemRegisters_8 : ∃ (e : EngineId) (y : Syl) (s : State),
    let sel := y.ops % 2 ^ 9
    s.ready e = true ∧ y.alone = true ∧ y.rd = 0 ∧ sel = 0 :=
  ⟨⟨3, 1⟩, sylOps (1 * 2 ^ 9), withEngine ⟨3, 1⟩ (holding 35), by decide +kernel⟩

theorem witness_WindowMoves_0 : ∃ (e : EngineId) (y : Syl) (s : State),
    let wst := s.sysReg 3 e.num 2
    let res := bitsAt wst 4 4
    let wsp := s.sysReg 3 e.num 3
    s.ready e = true ∧ y.alone = true ∧ y.ops = 0 ∧ e.ty = 3 ∧ s.sysReg 3 e.num 3 % 8 = 0 ∧ res ≠ 1 ∧ 64 ≤ wsp ∧ wsp ≤ 65536 :=
  ⟨⟨3, 1⟩, sylOps 0, withEngine ⟨3, 1⟩ (withSys [(2, 34), (3, 1024)]), by decide +kernel⟩

theorem witness_WindowMoves_1 : ∃ (e : EngineId) (y : Syl) (s : State),
    let wst := s.sysReg 3 e.num 2
    let res := bitsAt wst 4 4
    let wsp := s.sysReg 3 e.num 3
    s.ready e = true ∧ y.alone = true ∧ y.ops = 0 ∧ e.ty = 3 ∧ s.sysReg 3 e.num 3 % 8 = 0 ∧ res < (if trapActive 3 (s.core e).sys then 7 else 6) ∧ wsp + 64 ≤ 65536 ∧ s.dataClean e wsp 64 = true :=
  ⟨⟨3, 1⟩, sylOps 0, withEngine ⟨3, 1⟩ (withSys [(2, 34), (3, 1024)]), by decide +kernel⟩

theorem witness_WaitsAndBarriers_0 : ∃ (e : EngineId) (y : Syl) (s : State),
    let wakes := s.ipend e.ty e.num &&& s.sysReg e.ty e.num 0x0D ≠ 0
    s.ready e = true ∧ y.alone = true ∧ y.ops = 0 ∧ wakes :=
  ⟨⟨3, 1⟩, sylOps 0, (withEngine ⟨3, 1⟩ (withSys [(13, 16)])).put ⟨3, 0x05C, 4, 4, 1⟩ 1 1, by decide +kernel⟩

theorem witness_WaitsAndBarriers_1 : ∃ (e : EngineId) (y : Syl) (s : State),
    let wakes := s.ipend e.ty e.num &&& s.sysReg e.ty e.num 0x0D ≠ 0
    s.ready e = true ∧ y.alone = true ∧ y.ops = 0 ∧ (¬wakes) ∧ (s.link (engKey e.ty e.num)).taskEnd = none :=
  ⟨⟨3, 1⟩, sylOps 0, withEngine ⟨3, 1⟩ (Engine.idle), by decide +kernel⟩

theorem witness_WaitsAndBarriers_2 : ∃ (e : EngineId) (y : Syl) (s : State),
    s.ready e = true ∧ y.alone = true ∧ y.ops = 0 :=
  ⟨⟨3, 1⟩, sylOps 0, withEngine ⟨3, 1⟩ (Engine.idle), by decide +kernel⟩

theorem witness_WaitsAndBarriers_3 : ∃ (e : EngineId) (y : Syl) (s : State),
    s.ready e = true ∧ y.alone = true ∧ y.ops = 0 ∧ e.ty = 3 ∧ bitOf (s.sysReg 3 e.num 0x20) 15 = false :=
  ⟨⟨3, 1⟩, sylOps 0, withEngine ⟨3, 1⟩ (Engine.idle), by decide +kernel⟩

theorem witness_ArrayInstructions_0 : ∃ (e : EngineId) (y : Syl) (s : State),
    s.ready e = true ∧ y.alone = true ∧ e.ty = 3 ∧ y.rd = 0 ∧ y.rb = 0 ∧ y.fn = 0 ∧ y.ra % 2 = 0 :=
  ⟨⟨3, 1⟩, syl 0 2 0 0, driving PaneCtl.idle, by decide +kernel⟩

theorem witness_ArrayInstructions_1 : ∃ (e : EngineId) (y : Syl) (s : State),
    s.ready e = true ∧ y.alone = true ∧ e.ty = 3 ∧ y.ops = 0 :=
  ⟨⟨3, 1⟩, sylOps 0, driving PaneCtl.idle, by decide +kernel⟩

theorem witness_ArrayInstructions_2 : ∃ (e : EngineId) (y : Syl) (s : State) (b : Nat),
    s.ready e = true ∧ y.alone = true ∧ e.ty = 3 ∧ y.ops = 0 ∧ s.drivenGang e.num = some b ∧ s.queuesOpen b = false :=
  ⟨⟨3, 1⟩, sylOps 0, driving { PaneCtl.idle with queue := List.replicate 32 5 }, 1, by decide +kernel⟩

theorem witness_ArrayInstructions_3 : ∃ (e : EngineId) (y : Syl) (s : State),
    s.ready e = true ∧ y.alone = true ∧ e.ty = 3 ∧ y.ops = 0 ∧ s.drivenGang e.num = none ∧ trapActive 3 (s.core e).sys = false :=
  ⟨⟨3, 1⟩, sylOps 0, withEngine ⟨3, 1⟩ (Engine.idle), by decide +kernel⟩

theorem witness_ArrayInstructions_4 : ∃ (e : EngineId) (y : Syl) (s : State),
    let link := s.link (engKey e.ty e.num)
    s.ready e = true ∧ y.alone = true ∧ e.ty = 3 ∧ y.rd = 0 ∧ y.rb = 0 ∧ y.fn = 0 ∧ s.vreg e y.ra ≤ link.rcnt :=
  ⟨⟨3, 1⟩, syl 0 1 0 0, withEngine ⟨3, 1⟩ (Engine.idle), by decide +kernel⟩

theorem witness_ArrayInstructions_5 : ∃ (e : EngineId) (y : Syl) (s : State),
    let link := s.link (engKey e.ty e.num)
    s.ready e = true ∧ y.alone = true ∧ e.ty = 3 ∧ y.rd = 0 ∧ y.rb = 0 ∧ y.fn = 0 ∧ link.rcnt < s.vreg e y.ra :=
  ⟨⟨3, 1⟩, syl 0 1 0 0, withEngine ⟨3, 1⟩ (holding 5), by decide +kernel⟩

theorem witness_ArrayInstructions_6 : ∃ (e : EngineId) (y : Syl) (s : State),
    s.ready e = true ∧ y.alone = true ∧ e.ty = 3 ∧ y.ra = 0 ∧ y.rb = 0 ∧ y.fn = 0 :=
  ⟨⟨3, 1⟩, syl 2 0 0 0, withEngine ⟨3, 1⟩ (Engine.idle), by decide +kernel⟩

theorem witness_RowPortAndDmaInstructions_0 : ∃ (e : EngineId) (y : Syl) (s : State),
    let cmd := s.vreg e y.ra
    let quad := bitsAt cmd 20 2
    let p := s.port e.num
    s.ready e = true ∧ y.alone = true ∧ e.ty = 4 ∧ y.rd = 0 ∧ y.fn = 0 ∧ (tblGet [] p.queue quad).length < 4 :=
  ⟨⟨4, 1⟩, syl 0 1 2 0, withEngine ⟨4, 1⟩ (Engine.idle), by decide +kernel⟩

theorem witness_RowPortAndDmaInstructions_1 : ∃ (e : EngineId) (y : Syl) (s : State),
    let cmd := s.vreg e y.ra
    let quad := bitsAt cmd 20 2
    let p := s.port e.num
    s.ready e = true ∧ y.alone = true ∧ e.ty = 4 ∧ y.rd = 0 ∧ y.fn = 0 ∧ 4 ≤ (tblGet [] p.queue quad).length :=
  ⟨⟨4, 1⟩, syl 0 1 2 0, { withEngine ⟨4, 1⟩ Engine.idle with rowPorts := [(1, { RowPort.idle with queue := [(0, List.replicate 4 ⟨0, 0, 0, []⟩)] })] }, by decide +kernel⟩

theorem witness_RowPortAndDmaInstructions_2 : ∃ (e : EngineId) (y : Syl) (s : State),
    let p := s.port e.num
    let idle := ((List.range 4).filter (fun q => y.fn == 0 || bitOf y.fn q)).all
        (fun q => tblGet [] p.queue q == [] && (tblGet none p.run q).isNone)
    s.ready e = true ∧ y.alone = true ∧ e.ty = 4 ∧ y.rd = 0 ∧ y.ra = 0 ∧ y.rb = 0 ∧ idle = true :=
  ⟨⟨4, 1⟩, syl 0 0 0 0, withEngine ⟨4, 1⟩ (Engine.idle), by decide +kernel⟩

theorem witness_RowPortAndDmaInstructions_3 : ∃ (e : EngineId) (y : Syl) (s : State),
    let p := s.port e.num
    let idle := ((List.range 4).filter (fun q => y.fn == 0 || bitOf y.fn q)).all
        (fun q => tblGet [] p.queue q == [] && (tblGet none p.run q).isNone)
    s.ready e = true ∧ y.alone = true ∧ e.ty = 4 ∧ y.rd = 0 ∧ y.ra = 0 ∧ y.rb = 0 ∧ idle = false :=
  ⟨⟨4, 1⟩, syl 0 0 0 0, { withEngine ⟨4, 1⟩ Engine.idle with rowPorts := [(1, { RowPort.idle with queue := [(0, List.replicate 4 ⟨0, 0, 0, []⟩)] })] }, by decide +kernel⟩

theorem witness_RowPortAndDmaInstructions_4 : ∃ (e : EngineId) (y : Syl) (s : State),
    let x := s.core e
    let cmd := s.vreg e y.ra
    let a := 3 * cmd
    s.ready e = true ∧ y.alone = true ∧ e.ty ≠ 3 ∧ y.rb = 0 ∧ y.fn = 0 ∧ a + 18 ≤ 65536 ∧ s.dataClean e a 18 = true ∧ x.dmaQueue.length < 8 :=
  ⟨⟨4, 1⟩, syl 2 1 0 0, withEngine ⟨4, 1⟩ (Engine.idle), by decide +kernel⟩

theorem witness_RowPortAndDmaInstructions_5 : ∃ (e : EngineId) (y : Syl) (s : State),
    let x := s.core e
    let cmd := s.vreg e y.ra
    s.ready e = true ∧ y.alone = true ∧ e.ty ≠ 3 ∧ y.rd = 0 ∧ y.rb = 0 ∧ y.fn = 0 ∧ (x.dmaDone + 4096 - cmd % 4096) % 4096 < 2048 :=
  ⟨⟨4, 1⟩, syl 0 1 0 0, withEngine ⟨4, 1⟩ { Engine.idle with dmaDone := 4 }, by decide +kernel⟩

theorem witness_RowPortAndDmaInstructions_6 : ∃ (e : EngineId) (y : Syl) (s : State),
    let x := s.core e
    let cmd := s.vreg e y.ra
    s.ready e = true ∧ y.alone = true ∧ e.ty ≠ 3 ∧ y.rd = 0 ∧ y.rb = 0 ∧ y.fn = 0 ∧ 2048 ≤ (x.dmaDone + 4096 - cmd % 4096) % 4096 :=
  ⟨⟨4, 1⟩, syl 0 1 0 0, withEngine ⟨4, 1⟩ ({ holding 5 with dmaDone := 4 }), by decide +kernel⟩

theorem witness_RowPortAndDmaInstructions_7 : ∃ (e : EngineId) (y : Syl) (s : State),
    s.ready e = true ∧ y.alone = true ∧ e.ty ≠ 3 ∧ y.ra = 0 ∧ y.rb = 0 ∧ y.fn < 2 :=
  ⟨⟨4, 1⟩, syl 2 0 0 1, withEngine ⟨4, 1⟩ (Engine.idle), by decide +kernel⟩

theorem witness_FarAccesses_0 : ∃ (e : EngineId) (y : Syl) (s : State),
    let a := s.vreg e y.ra + 2 ^ 32 * (s.vreg e (y.ra + 1) % 2 ^ 8)
    s.ready e = true ∧ y.alone = true ∧ e.ty = 3 ∧ y.ra % 2 = 0 ∧ y.rb = 0 ∧ y.fn = 0 ∧ a % 4 = 0 :=
  ⟨⟨3, 1⟩, syl 3 2 0 0, withEngine ⟨3, 1⟩ (Engine.idle), by decide +kernel⟩

theorem witness_FarAccesses_1 : ∃ (e : EngineId) (y : Syl) (s : State),
    let a := s.vreg e y.ra + 2 ^ 32 * (s.vreg e (y.ra + 1) % 2 ^ 8)
    s.ready e = true ∧ y.alone = true ∧ e.ty = 3 ∧ y.ra % 2 = 0 ∧ y.rb = 0 ∧ y.fn = 0 ∧ a % 4 ≠ 0 ∧ trapActive e.ty (s.core e).sys = false :=
  ⟨⟨3, 1⟩, syl 3 2 0 0, withEngine ⟨3, 1⟩ (holding 5), by decide +kernel⟩

theorem witness_FarAccesses_2 : ∃ (e : EngineId) (y : Syl) (s : State),
    let a := s.vreg e y.ra + 2 ^ 32 * (s.vreg e (y.ra + 1) % 2 ^ 8)
    s.ready e = true ∧ y.alone = true ∧ e.ty = 3 ∧ y.ra % 2 = 0 ∧ y.rb = 0 ∧ y.fn = 0 ∧ a % 4 = 0 ∧ s.engState e.ty e.num = 1 :=
  ⟨⟨3, 1⟩, syl 3 2 0 0, withEngine ⟨3, 1⟩ (Engine.idle), by decide +kernel⟩

theorem witness_StringInstructions_0 : ∃ (e : EngineId) (y : Syl) (s : State),
    let rps := s.sysReg 3 e.num 0x13
    let n : Nat := 2 ^ bitsAt rps 16 2
    let dst := s.sysReg 3 e.num 0x12
    let clean := fun (a : Nat) => a % n = 0 ∧ a + n ≤ 65536 ∧ s.dataClean e a n = true
    s.ready e = true ∧ y.alone = true ∧ e.ty = 3 ∧ rps % 4 = 0 ∧ bitsAt rps 16 2 ≠ 3 ∧ y.rd = 0 ∧ y.ra = 0 ∧ y.fn = 0 ∧ clean dst :=
  ⟨⟨3, 1⟩, syl 0 0 1 0, withEngine ⟨3, 1⟩ (withSys [(0x11, 64), (0x12, 128)]), by decide +kernel⟩

theorem witness_StringInstructions_1 : ∃ (e : EngineId) (y : Syl) (s : State),
    let rps := s.sysReg 3 e.num 0x13
    let n : Nat := 2 ^ bitsAt rps 16 2
    let src := s.sysReg 3 e.num 0x11
    let dst := s.sysReg 3 e.num 0x12
    let clean := fun (a : Nat) => a % n = 0 ∧ a + n ≤ 65536 ∧ s.dataClean e a n = true
    s.ready e = true ∧ y.alone = true ∧ e.ty = 3 ∧ rps % 4 = 0 ∧ bitsAt rps 16 2 ≠ 3 ∧ y.ops = 0 ∧ clean src ∧ clean dst :=
  ⟨⟨3, 1⟩, sylOps 0, withEngine ⟨3, 1⟩ (withSys [(0x11, 64), (0x12, 128)]), by decide +kernel⟩

theorem witness_StringInstructions_2 : ∃ (e : EngineId) (y : Syl) (s : State),
    let rps := s.sysReg 3 e.num 0x13
    let n : Nat := 2 ^ bitsAt rps 16 2
    let src := s.sysReg 3 e.num 0x11
    let dst := s.sysReg 3 e.num 0x12
    let clean := fun (a : Nat) => a % n = 0 ∧ a + n ≤ 65536 ∧ s.dataClean e a n = true
    s.ready e = true ∧ y.alone = true ∧ e.ty = 3 ∧ rps % 4 = 0 ∧ bitsAt rps 16 2 ≠ 3 ∧ y.ops = 0 ∧ clean src ∧ clean dst :=
  ⟨⟨3, 1⟩, sylOps 0, withEngine ⟨3, 1⟩ (withSys [(0x11, 64), (0x12, 128)]), by decide +kernel⟩

theorem witness_StringInstructions_3 : ∃ (e : EngineId) (y : Syl) (s : State),
    let rps := s.sysReg 3 e.num 0x13
    let n : Nat := 2 ^ bitsAt rps 16 2
    let dst := s.sysReg 3 e.num 0x12
    let clean := fun (a : Nat) => a % n = 0 ∧ a + n ≤ 65536 ∧ s.dataClean e a n = true
    s.ready e = true ∧ y.alone = true ∧ e.ty = 3 ∧ rps % 4 = 0 ∧ bitsAt rps 16 2 ≠ 3 ∧ y.rd = 0 ∧ y.ra = 0 ∧ y.fn = 0 ∧ clean dst :=
  ⟨⟨3, 1⟩, syl 0 0 1 0, withEngine ⟨3, 1⟩ (withSys [(0x11, 64), (0x12, 128)]), by decide +kernel⟩

theorem witness_StringInstructions_4 : ∃ (e : EngineId) (y : Syl) (s : State),
    let rps := s.sysReg 3 e.num 0x13
    s.ready e = true ∧ y.alone = true ∧ e.ty = 3 ∧ rps % 4 = 0 ∧ bitsAt rps 16 2 ≠ 3 ∧ y.ops = 0 :=
  ⟨⟨3, 1⟩, sylOps 0, withEngine ⟨3, 1⟩ (withSys [(0x11, 64), (0x12, 128)]), by decide +kernel⟩

theorem witness_StringInstructions_5 : ∃ (e : EngineId) (y : Syl) (s : State),
    let rps := s.sysReg 3 e.num 0x13
    let n : Nat := 2 ^ bitsAt rps 16 2
    let dst := s.sysReg 3 e.num 0x12
    let clean := fun (a : Nat) => a % n = 0 ∧ a + n ≤ 65536 ∧ s.dataClean e a n = true
    s.ready e = true ∧ y.alone = true ∧ e.ty = 3 ∧ rps % 4 = 0 ∧ bitsAt rps 16 2 ≠ 3 ∧ s.sysReg 3 e.num 0x10 ≥ 2 ∧ clean dst :=
  ⟨⟨3, 1⟩, sylOps 0, withEngine ⟨3, 1⟩ (withSys [(0x10, 3), (0x11, 64), (0x12, 128)]), by decide +kernel⟩

theorem witness_ResultsLand_0 : ∃ (e : EngineId),
    engineOk e = true :=
  ⟨⟨4, 3⟩, by decide +kernel⟩

theorem witness_ResultsLand_1 : ∃ (e : EngineId) (s : State) (r : LateRes) (l : List LateRes),
    engineOk e = true ∧ (s.core e).late = r :: l ∧ (∀ q, q ∈ l → max (s.core e).cyc r.landAt < q.landAt) :=
  ⟨⟨3, 1⟩, withEngine (⟨3, 1⟩ : EngineId) { Engine.idle with late := (⟨[(9, 7)], 4, some 2, 2, 12, 0x40, 77⟩ : LateRes) :: ([⟨[(10, 8)], 0, none, 1, 14, 0x44, 78⟩] : List LateRes), sys := sysPut 3 [] 0x20 (31 * 2 ^ 9) }, ⟨[(9, 7)], 4, some 2, 2, 12, 0x40, 77⟩, [⟨[(10, 8)], 0, none, 1, 14, 0x44, 78⟩], by decide +kernel⟩

theorem witness_BoundaryTraps_0 : ∃ (e : EngineId) (s : State) (k : Nat),
    let link := s.link (engKey e.ty e.num)
    engineOk e = true ∧ canIssue s e.ty e.num = true ∧ (s.core e).bundle = [] ∧ (s.core e).loads = [] ∧ (s.core e).due = [] ∧ (s.core e).late = [] ∧ (s.core e).stopReq = false ∧ (s.core e).haltReq = 0 ∧ (s.core e).stepReq = 0 ∧ trapActive e.ty (s.core e).sys = false ∧ (e.ty ≠ 3 ∨ link.taskEnd = none) ∧ (e.ty = 3 → bitOf (s.sysReg e.ty e.num 0x20) 15 = false) ∧ bitOf (s.sysReg e.ty e.num 0) 8 = true ∧ s.irqLine e.ty e.num = some k :=
  ⟨⟨4, 9⟩, setIrq (⟨4, 9⟩ : EngineId).ty (⟨4, 9⟩ : EngineId).num 2 (withEngine (⟨4, 9⟩ : EngineId) { Engine.idle with pc := 0x80, sys := sysPut (⟨4, 9⟩ : EngineId).ty (sysPut (⟨4, 9⟩ : EngineId).ty [] 0x0D 0xFF) 0 0x103 }), 2, by decide +kernel⟩

theorem witness_BoundaryTraps_1 : ∃ (e : EngineId) (s : State) (tsn : Nat),
    let link := s.link (engKey e.ty e.num)
    engineOk e = true ∧ canIssue s e.ty e.num = true ∧ (s.core e).bundle = [] ∧ (s.core e).loads = [] ∧ (s.core e).due = [] ∧ (s.core e).late = [] ∧ (s.core e).stopReq = false ∧ (s.core e).haltReq = 0 ∧ (s.core e).stepReq = 0 ∧ trapActive e.ty (s.core e).sys = false ∧ e.ty = 3 ∧ link.taskEnd = some tsn :=
  ⟨⟨3, 1⟩, (withEngine (⟨3, 1⟩ : EngineId) { Engine.idle with pc := 0x80, sys := sysPut (⟨3, 1⟩ : EngineId).ty [] 4 0x1000 }).setLink (engKey (⟨3, 1⟩ : EngineId).ty (⟨3, 1⟩ : EngineId).num) { ArrayLink.idle with taskEnd := some 6, g := true }, 6, by decide +kernel⟩

theorem witness_EngineStartsAndStops_0 : ∃ (e : EngineId) (s : State),
    engineOk e = true ∧ s.pageOpen e.ty e.num = true ∧ (s.mem (engKey e.ty e.num)).initRunning = false ∧ s.engState e.ty e.num ≠ 3 ∧ s.flag (R.HDR_CTL_ENABLE.on e.ty) e.num = false :=
  ⟨⟨3, 2⟩, ((allOn.setReg 3 2 0x044 0x1234).setReg 3 2 0x04C 5).setMem (engKey (⟨3, 2⟩ : EngineId).ty (⟨3, 2⟩ : EngineId).num) EngMem.idle, by decide +kernel⟩

theorem witness_EngineStartsAndStops_1 : ∃ (e : EngineId) (s : State),
    engineOk e = true ∧ s.pageOpen e.ty e.num = true ∧ (s.core e).far = none ∧ (s.core e).bundle = [] ∧ (s.core e).held = false ∧ s.engState e.ty e.num = 1 :=
  ⟨⟨4, 9⟩, (withEngine (⟨4, 9⟩ : EngineId) { Engine.idle with pc := 0x80, haltReq := 1 }).put (R.HDR_CTL_ENABLE.on 4) 9 1, by decide +kernel⟩

theorem witness_EngineStartsAndStops_2 : ∃ (e : EngineId) (s : State),
    engineOk e = true ∧ (s.mem (engKey e.ty e.num)).initRunning = true ∧ e ≠ ⟨5, 0⟩ :=
  ⟨⟨4, 9⟩, allOn.setMem (engKey (⟨4, 9⟩ : EngineId).ty (⟨4, 9⟩ : EngineId).num) { EngMem.idle with initRunning := true, scrubRow := 9 }, by decide +kernel⟩

theorem witness_EngineStartsAndStops_3 : ∃ (s : State),
    (s.mem (engKey 5 0)).initRunning = true ∧ s.flag (R.HDR_CTL_ENABLE.on 5) 0 = true :=
  ⟨allOn.setMem (engKey 5 0) { EngMem.idle with initRunning := true }, by decide +kernel⟩

theorem witness_EngineWatchdogAndChecks_0 : ∃ (e : EngineId) (v : Word) (s : State),
    engineOk e = true ∧ s.pageOpen e.ty e.num = true ∧ v = 0xC35A :=
  ⟨⟨4, 9⟩, 0xC35A, (withEngine (⟨4, 9⟩ : EngineId) Engine.idle).setReg 4 9 0x04C 0x80000007, by decide +kernel⟩

theorem witness_EngineWatchdogAndChecks_1 : ∃ (e : EngineId) (v : Word) (s : State),
    engineOk e = true ∧ s.pageOpen e.ty e.num = true ∧ v ≠ 0xC35A ∧ s.get (R.HDR_ERR_CODE_CODE.on e.ty) e.num = 0 :=
  ⟨⟨4, 9⟩, 0xC35B, (withEngine (⟨4, 9⟩ : EngineId) Engine.idle).setReg 4 9 0x04C 0x80000007, by decide +kernel⟩

theorem witness_EngineWatchdogAndChecks_2 : ∃ (e : EngineId) (s : State),
    let half := (s.core e).wdgFull / 2
    engineOk e = true ∧ s.flag (R.ENG_WDG_CFG_EN.on e.ty) e.num = true ∧ s.engState e.ty e.num = 1 ∧ half < s.get (R.ENG_WDG_COUNT_CYCLES.on e.ty) e.num :=
  ⟨⟨4, 9⟩, ((withEngine (⟨4, 9⟩ : EngineId) { Engine.idle with wdgFull := 2048 }).setReg 4 9 0x04C 0x80000002).put (R.ENG_WDG_COUNT_CYCLES.on 4) 9 2048, by decide +kernel⟩

theorem witness_EngineWatchdogAndChecks_3 : ∃ (e : EngineId) (s : State),
    engineOk e = true ∧ s.engState e.ty e.num = 1 ∧ s.flag (R.ENG_WDG_CFG_EN.on e.ty) e.num = true ∧ s.get (R.ENG_WDG_COUNT_CYCLES.on e.ty) e.num ≤ (s.core e).wdgFull / 2 :=
  ⟨⟨4, 9⟩, ((withEngine (⟨4, 9⟩ : EngineId) { Engine.idle with wdgFull := 2048 }).setReg (⟨4, 9⟩ : EngineId).ty (⟨4, 9⟩ : EngineId).num 0x04C 0x80000002).put (R.ENG_WDG_COUNT_CYCLES.on (⟨4, 9⟩ : EngineId).ty) (⟨4, 9⟩ : EngineId).num 1024, by decide +kernel⟩

theorem witness_EngineWatchdogAndChecks_4 : ∃ (e : EngineId) (s : State),
    engineOk e = true ∧ s.engState e.ty e.num = 1 ∧ e.ty ≠ 4 :=
  ⟨⟨3, 1⟩, withEngine (⟨3, 1⟩ : EngineId) Engine.idle, by decide +kernel⟩

theorem witness_EngineWatchdogAndChecks_5 : ∃ (e : EngineId) (s : State),
    let k := engKey e.ty e.num
    let m := s.mem k
    let ri := m.scrubRow % (imemBytes e.ty / 8)
    let rd := m.scrubRow % 8192
    engineOk e = true ∧ s.domainOn (pageDomain e.ty e.num) = true ∧ m.decode false ri = .clean ∧ m.decode true rd = .clean :=
  ⟨⟨4, 9⟩, allOn.setMem (engKey (⟨4, 9⟩ : EngineId).ty (⟨4, 9⟩ : EngineId).num) { EngMem.idle with scrubRow := 9 }, by decide +kernel⟩

theorem witness_EngineWatchdogAndChecks_6 : ∃ (e : EngineId) (s : State) (sym : Nat) (val : Nat),
    let k := engKey e.ty e.num
    let m := s.mem k
    let ri := m.scrubRow % (imemBytes e.ty / 8)
    let rd := m.scrubRow % 8192
    engineOk e = true ∧ s.domainOn (pageDomain e.ty e.num) = true ∧ m.decode false ri = .clean ∧ m.decode true rd = .corrected sym val :=
  ⟨⟨4, 9⟩, allOn.setMem (engKey (⟨4, 9⟩ : EngineId).ty (⟨4, 9⟩ : EngineId).num) { EngMem.idle with scrubRow := 9, errs := [(2 ^ 20 + 9, 5 * 2 ^ 12)] }, 3, 5, by decide +kernel⟩

theorem witness_EngineWatchdogAndChecks_7 : ∃ (e : EngineId) (s : State),
    engineOk e = true ∧ s.pageOpen e.ty e.num = true ∧ e.ty ≠ 5 :=
  ⟨⟨4, 9⟩, setIrq 4 9 1 (setIrq 4 9 0 (allOn.put (R.ENG_TASK_CUT.on 4) 9 1)), by decide +kernel⟩

theorem witness_EngineDma_0 : ∃ (e : EngineId) (s : State) (d : DmaXfer) (l : List DmaXfer),
    engineOk e = true ∧ e.ty ≠ 3 ∧ s.domainOn (pageDomain e.ty e.num) = true ∧ (s.core e).dmaQueue = d :: l ∧ (s.core e).dmaRun = none ∧ descBad d = true ∧ s.flag (R.ENG_DMA_ERR_V.on e.ty) e.num = false :=
  ⟨⟨4, 9⟩, withEngine (⟨4, 9⟩ : EngineId) { Engine.idle with dmaQueue := (desc 0x102 0x2000 1 64 : DmaXfer) :: ([desc 0 0 1 4] : List DmaXfer) }, desc 0x102 0x2000 1 64, [desc 0 0 1 4], by decide +kernel⟩

theorem witness_EngineDma_1 : ∃ (e : EngineId) (s : State) (d : DmaXfer) (l : List DmaXfer),
    let loc := d.words.getD 1 0 % 2 ^ 16
    let out := bitOf (d.words.getD 0 0) 23
    let rows := d.words.getD 4 0 % 2 ^ 12 + 1
    engineOk e = true ∧ e.ty ≠ 3 ∧ s.domainOn (pageDomain e.ty e.num) = true ∧ (s.core e).dmaQueue = d :: l ∧ (s.core e).dmaRun = none ∧ descBad d = false ∧ (out = true → s.dataClean e loc (rows * (d.words.getD 0 0 % 2 ^ 16 + 1)) = true) :=
  ⟨⟨4, 9⟩, withEngine (⟨4, 9⟩ : EngineId) { Engine.idle with dmaQueue := (desc 0x100 0x2004 2 128 : DmaXfer) :: ([desc 0 0 1 4] : List DmaXfer) }, desc 0x100 0x2004 2 128, [desc 0 0 1 4], by decide +kernel⟩

theorem witness_EngineDma_2 : ∃ (e : EngineId) (s : State) (d : DmaXfer) (l : List DmaXfer) (r : DmaRun),
    engineOk e = true ∧ e.ty ≠ 3 ∧ s.domainOn (pageDomain e.ty e.num) = true ∧ (s.core e).dmaQueue = d :: l ∧ (s.core e).dmaRun = some r ∧ r.out = [] ∧ r.err = none ∧ d.words.getD 4 0 % 2 ^ 12 + 1 ≤ r.row ∧ tblGet [] s.inbox ((engInit e.ty e.num).src * 32 + dmaInit e.ty e.num) = [] :=
  ⟨⟨4, 9⟩, withEngine (⟨4, 9⟩ : EngineId) { Engine.idle with dmaQueue := (desc 0x100 0x2004 2 128 : DmaXfer) :: ([desc 0 0 1 4] : List DmaXfer), dmaRun := some (⟨2, 0, [], none⟩ : DmaRun) }, desc 0x100 0x2004 2 128, [desc 0 0 1 4], ⟨2, 0, [], none⟩, by decide +kernel⟩

theorem witness_SpareSash_0 : ∃ (k : Nat) (s : State),
    k < 2 ∧ s.flag R.SASH_SPARE_STAT_LOADING (16 + k) = true :=
  ⟨1, (allOn.put R.SASH_SPARE_STAT_LOADING 17 1).put R.SASH_SPARE_STAT_PANE 17 3, by decide +kernel⟩

theorem witness_SpareSash_1 : ∃ (k : Nat) (s : State),
    k < 2 ∧ s.pageOpen 3 (16 + k) = true :=
  ⟨1, allOn, by decide +kernel⟩

theorem witness_SpareSash_2 : ∃ (code : Nat) (s : State),
    code < 256 ∧ s.pageOpen 0x0B 0 = true ∧ code ≤ 0x91 :=
  ⟨0x85, allOn, by decide +kernel⟩

theorem witness_RegisterWriteByAccessType_0 : ∃ (ty : Nat) (n : Nat) (s : State),
    s.pageOpen ty n = true ∧ ty < 0x18 :=
  ⟨0x13, 0, allOn, by decide +kernel⟩

theorem witness_RegisterWriteByAccessType_1 : ∃ (i : Initiator) (ty : Nat) (n : Nat) (off : Nat) (stamp : Nat) (v : Word) (s : State) (r : RegInfo),
    s.pageOpen ty n = true ∧ ty < 0x18 ∧ 0x40 ≤ off ∧ off < 0x400 ∧ off % 4 = 0 ∧ findReg (regsOf ty) off = some r ∧ r.safe = 0 ∧ r.locked = false ∧ pageBad ⟨i, false, ty, n, off, v, stamp⟩ s = none ∧ pageSpecial ⟨i, false, ty, n, off, v, stamp⟩ s = none ∧ s.flag R.TICK_PHASE_PAST_CUTOFF 0 = false :=
  ⟨⟨3, 0⟩, 0x13, 0, 0x040, 3, 5, allOn, ((findReg (regsOf 0x13) 0x040).getD ⟨0,0,0,0,0,0,0,0,false⟩), by decide +kernel⟩

theorem witness_RegisterWriteByAccessType_2 : ∃ (ty : Nat) (n : Nat) (s : State),
    s.pageOpen ty n = true ∧ ty ≠ 0x11 ∧ (ty = 3 ∨ ty = 4 ∨ ty = 5 → (s.mem (engKey ty n)).initRunning = false ∧ s.engState ty n < 2 ∧ s.flag (R.HDR_CTL_ENABLE.on ty) n = (s.engState ty n == 1)) :=
  ⟨0x13, 0, allOn, by decide +kernel⟩

theorem witness_RegisterWriteByAccessType_3 : ∃ (s : State),
    s.pageOpen 0x11 0 = true :=
  ⟨allOn, by decide +kernel⟩

theorem witness_RegisterWriteByAccessType_4 : ∃ (mw : Nat) (s : State),
    s.pageOpen 0x0B 0 = true ∧ 8000 ≤ mw ∧ mw ≤ 40000 ∧ (∀ (it : Itinerary), it ∈ s.porter.current.toList ++ s.porter.staged.toList → ∀ (v : Nat), v < 80 → (it.variant v).powerTotal ≤ mw) :=
  ⟨17000, { allOn with porter := { allOn.porter with current := some ownerPlan } }, by decide +kernel⟩

theorem witness_RegisterWriteByAccessType_5 : ∃ (ty : Nat) (n : Nat) (s : State),
    s.pageOpen ty n = true ∧ s.debugLevel = 2 :=
  ⟨0x13, 0, allOn.put R.LTCH_DBG_LEVEL 0 2, by decide +kernel⟩

theorem witness_RegisterWriteByAccessType_6 : ∃ (ty : Nat) (n : Nat) (s : State),
    s.pageOpen ty n = true ∧ s.debugLevel ≠ 2 ∧ s.get (R.HDR_ERR_CODE_CODE.on ty) n = 0 :=
  ⟨0x13, 0, allOn, by decide +kernel⟩

theorem witness_LockedSequence_0 : ∃ (ty : Nat) (n : Nat) (v : Word) (s : State),
    s.pageOpen ty n = true ∧ v = 0x5EA10000 ∧ s.flag (R.HDR_LOCK_HARD_LOCK.on ty) n = false :=
  ⟨0x13, 0, 0x5EA10000, allOn, by decide +kernel⟩

theorem witness_LockedSequence_1 : ∃ (ty : Nat) (n : Nat) (v : Word) (s : State),
    s.pageOpen ty n = true ∧ v = 1 :=
  ⟨0x13, 0, 1, allOn, by decide +kernel⟩

theorem witness_LockedSequence_2 : ∃ (ty : Nat) (n : Nat) (v : Word) (s : State),
    s.pageOpen ty n = true ∧ bitsAt v.toNat 16 16 ≠ 0x5EA1 ∧ bitsAt v.toNat 16 16 ≠ 0 ∧ s.get (R.HDR_ERR_CODE_CODE.on ty) n = 0 :=
  ⟨0x13, 0, 0x12340000, allOn.setWindow 0x13 0 (some ⟨3, 0⟩), by decide +kernel⟩

theorem witness_LockedSequence_3 : ∃ (ty : Nat) (n : Nat) (s : State) (i : Initiator),
    n < pageCount ty ∧ s.window ty n = some i ∧ s.get (R.HDR_ERR_CODE_CODE.on ty) n = 0 :=
  ⟨0x13, 0, allOn.setWindow 0x13 0 (some ⟨3, 0⟩), ⟨3, 0⟩, by decide +kernel⟩

theorem witness_LockedSequence_4 : ∃ (i : Initiator) (ty : Nat) (n : Nat) (off : Nat) (s : State) (r : RegInfo),
    s.pageOpen ty n = true ∧ ty < 0x18 ∧ 0x40 ≤ off ∧ off < 0x400 ∧ off % 4 = 0 ∧ findReg (regsOf ty) off = some r ∧ r.safe = 0 ∧ r.locked = true ∧ s.window ty n ≠ some i ∧ s.get (R.HDR_ERR_CODE_CODE.on ty) n = 0 :=
  ⟨⟨3, 0⟩, 0x16, 0, 0x050, allOn, ((findReg (regsOf 0x16) 0x050).getD ⟨0,0,0,0,0,0,0,0,false⟩), by decide +kernel⟩

theorem witness_SoftResetOfAPage_0 : ∃ (ty : Nat) (n : Nat) (s : State),
    s.pageOpen ty n = true ∧ ty ∉ [0x08, 0x0C, 0x0E, 0x16, 0x18] ∧ s.flag (R.HDR_CTL_FENCE.on ty) n = true ∧ s.drained ty n = true :=
  ⟨0x12, 0, (allOn.put (R.HDR_CTL_FENCE.on 0x12) 0 1).put (R.HDR_STAT_DRAINED.on 0x12) 0 1, by decide +kernel⟩

theorem witness_SoftResetOfAPage_1 : ∃ (s : State),
    s.pageOpen 0x13 0 = true ∧ s.flag (R.HDR_CTL_FENCE.on 0x13) 0 = true ∧ s.drained 0x13 0 = true :=
  ⟨((allOn.put (R.HDR_CTL_FENCE.on 0x13) 0 1).put (R.HDR_STAT_DRAINED.on 0x13) 0 1).setReg 0x13 0 0x040 7, by decide +kernel⟩

theorem witness_SoftResetOfAPage_2 : ∃ (ty : Nat) (n : Nat) (s : State),
    s.pageOpen ty n = true ∧ ty ∉ [0x08, 0x0E] ∧ s.flag (R.HDR_CTL_FENCE.on ty) n = false ∧ s.get (R.HDR_ERR_CODE_CODE.on ty) n = 0 :=
  ⟨0x12, 0, allOn, by decide +kernel⟩

theorem witness_RequestsAtTheirTargets_0 : ∃ (t : Nat) (s : State),
    t < 40 ∧ takeRequest t s = none :=
  ⟨3, allOn, by decide +kernel⟩

theorem witness_RequestsAtTheirTargets_1 : ∃ (t : Nat) (stamp : Nat) (s : State) (f : Flit) (body : List Flit) (s1 : State),
    t < 40 ∧ takeRequest t { s with nocNow := max s.nocNow stamp } = some (f :: body, s1) ∧ poisoned body = true :=
  ⟨30, 9, arrivedAt 30 ((headFlit 30 1 0xC004C000 1 (15 * 2 ^ 20) (List.replicate 64 7) : Flit) :: ([bodyFlit 0xC0 0 []] : List Flit)), headFlit 30 1 0xC004C000 1 (15 * 2 ^ 20) (List.replicate 64 7), [bodyFlit 0xC0 0 []], { (arrivedAt 30 ((headFlit 30 1 0xC004C000 1 (15 * 2 ^ 20) (List.replicate 64 7) : Flit) :: ([bodyFlit 0xC0 0 []] : List Flit)) : State) with ejected := [], nocNow := 9 }, by decide +kernel⟩

theorem witness_RequestsAtTheirTargets_2 : ∃ (t : Nat) (stamp : Nat) (s : State) (f : Flit) (body : List Flit) (s1 : State),
    t < 40 ∧ takeRequest t { s with nocNow := max s.nocNow stamp } = some (f :: body, s1) ∧ poisoned body = false ∧ (wormNetIn t f body).req.addr = pageAddr 0x13 0 0 ∧ (wormNetIn t f body).req.write = true ∧ (wormNetIn t f body).req.be = 15 * 2 ^ 20 ∧ (wormNetIn t f body).req.flits = 1 ∧ (wormNetIn t f body).req.rotate = false ∧ s1.pageOpen 0x13 0 = true :=
  ⟨30, 9, arrivedAt 30 [(headFlit 30 1 0xC004C000 0 (15 * 2 ^ 20) (List.replicate 64 7) : Flit)], headFlit 30 1 0xC004C000 0 (15 * 2 ^ 20) (List.replicate 64 7), [], { (arrivedAt 30 [(headFlit 30 1 0xC004C000 0 (15 * 2 ^ 20) (List.replicate 64 7) : Flit)] : State) with ejected := [], nocNow := 9 }, by decide +kernel⟩

theorem witness_RequestsAtTheirTargets_3 : ∃ (off : Nat) (s : State),
    off < 2 ^ 25 ∧ s.domainOn 7 = true ∧ bitOf (s.getReg 0x10 0 0x044).toNat (bitsAt off 20 5) = false :=
  ⟨0x1200010, allOn.setReg 0x10 0 0x044 (word (2 ^ 32 - 1 - 2 ^ 18)), by decide +kernel⟩

theorem witness_RequestsAtTheirTargets_4 : ∃ (s : State),
    s.domainOn 7 = true ∧ bitOf (s.getReg 0x10 0 0x044).toNat 0x13 = true ∧ s.pathOpen 31 (.page 0x13 0 0x014) = true ∧ s.pageOpen 0x13 0 = true :=
  ⟨routed 31 30 ((allOn.setReg 0x10 0 0x044 (word (2 ^ 19))).setReg 0x13 0 0x014 1), by decide +kernel⟩

theorem witness_MonitorsOfTheDevice_0 : ∃ (v : Word) (s : State),
    s.pageOpen 0x16 0 = true ∧ v = 0xA5C3 ∧ s.flag R.SHUT_HWDG_CFG_EN 0 = true :=
  ⟨0xA5C3, allOn.setReg 0x16 0 0x080 0x80000010, by decide +kernel⟩

theorem witness_MonitorsOfTheDevice_1 : ∃ (v : Word) (s : State),
    s.pageOpen 0x16 0 = true ∧ v ≠ 0xA5C3 ∧ s.get (R.HDR_ERR_CODE_CODE.on 0x16) 0 = 0 :=
  ⟨0xA5C4, allOn.setReg 0x16 0 0x080 0x80000010, by decide +kernel⟩

theorem witness_MonitorsOfTheDevice_2 : ∃ (s : State),
    s.flag R.SHUT_HWDG_CFG_EN 0 = true ∧ s.shutter.hwdg = 1 :=
  ⟨{ allOn.setReg 0x16 0 0x080 0x80000010 with shutter := { allOn.shutter with hwdg := 1 } }, by decide +kernel⟩

theorem witness_MonitorsOfTheDevice_3 : ∃ (s : State),
    s.flag R.SHUT_HWDG_CFG_EN 0 = true ∧ s.shutter.hwdg = 2 :=
  ⟨{ allOn.setReg 0x16 0 0x080 0x80000010 with shutter := { allOn.shutter with hwdg := 2 } }, by decide +kernel⟩

theorem witness_MonitorsOfTheDevice_4 : ∃ (k : Nat) (khz : Nat) (s : State),
    s.clockRuns k = true ∧ k < 18 ∧ khz < 2 ^ 32 ∧ s.clockNominal k ≤ 101 * 10 * khz ∧ 99 * 10 * khz ≤ s.clockNominal k :=
  ⟨0, 25200, allOn, by decide +kernel⟩

theorem witness_MonitorsOfTheDevice_5 : ∃ (k : Nat) (s : State),
    k < 3 ∧ 0 < k ∧ s.flag ⟨0x16, 0x054, 4, k, 1⟩ 0 = false :=
  ⟨1, allOn, by decide +kernel⟩

theorem witness_MonitorsOfTheDevice_6 : ∃ (k : Nat) (s : State),
    k < 3 ∧ s.flag ⟨0x16, 0x054, 4, 0, 1⟩ 0 = false :=
  ⟨0, allOn, by decide +kernel⟩

theorem witness_MonitorsOfTheDevice_7 : ∃ (k : Nat),
    k < 3 :=
  ⟨0, by decide +kernel⟩

theorem witness_MonitorsOfTheDevice_8 : ∃ (k : Nat) (s : State) (r : FaultRec),
    s.reports[k]? = some r ∧ (pageOnArray r.ty r.num = false ∨ s.linkUp = true) ∧ r.cls < 6 ∧ (r.cls = 0 → (r.ty, r.num) ∉ s.agg.holdPages) :=
  ⟨1, { allOn with reports := [⟨0x16, 0, 5, 5⟩, (⟨0x0D, 2, 3, 0⟩ : FaultRec)] }, ⟨0x0D, 2, 3, 0⟩, by decide +kernel⟩

theorem witness_MonitorsOfTheDevice_9 : ∃ (s : State),
    s.agg.thermalArmed = true :=
  ⟨allOn, by decide +kernel⟩

theorem witness_MonitorsOfTheDevice_11 : ∃ (p : Nat) (s : State),
    p < 16 ∧ s.flag R.TICK_RUN_RUN 0 = true ∧ s.domainOn (14 + p) = true :=
  ⟨3, allOn.put R.TICK_RUN_RUN 0 1, by decide +kernel⟩

theorem witness_TickGenerator_0 : ∃ (s : State),
    s.pageOpen 0x17 0 = true ∧ s.flag R.TICK_RUN_RUN 0 = false :=
  ⟨allOn.setReg 0x17 0 0x048 0xFFFFF0, by decide +kernel⟩

theorem witness_TickGenerator_1 : ∃ (s : State),
    s.pageOpen 0x17 0 = true ∧ s.flag R.TICK_RUN_RUN 0 = true :=
  ⟨(allOn.put R.TICK_RUN_RUN 0 1).put R.TICK_SNAP 0 9, by decide +kernel⟩

theorem witness_TickGenerator_2 : ∃ (s : State),
    s.pageOpen 0x17 0 = true ∧ s.flag R.TICK_PHASE_PAST_CUTOFF 0 = false :=
  ⟨allOn, by decide +kernel⟩

theorem witness_TickGenerator_3 : ∃ (s : State),
    s.flag R.TICK_RUN_RUN 0 = true ∧ s.flag R.TICK_RUN_SRC 0 = false :=
  ⟨allOn.put R.TICK_RUN_RUN 0 1, by decide +kernel⟩

theorem witness_TickGenerator_5 : ∃ (age : Nat) (arrival : Nat) (s : State),
    s.linkUp = true ∧ age ≤ arrival :=
  ⟨3, 1000, allOn.put R.LNTL_LINK_STAT_STATE 1 2, by decide +kernel⟩

theorem witness_TheTickEdge_0 : ∃ (s : State),
    s.flag R.TICK_RUN_RUN 0 = true ∧ s.flag R.TICK_PHASE_PAST_CUTOFF 0 = false :=
  ⟨allOn.put R.TICK_RUN_RUN 0 1, by decide +kernel⟩

theorem witness_TheTickEdge_1 : ∃ (s : State),
    s.flag R.TICK_RUN_RUN 0 = true ∧ s.flag R.TICK_PHASE_PAST_CUTOFF 0 = true :=
  ⟨{ (linked.put R.TICK_RUN_RUN 0 1).put R.TICK_PHASE_PAST_CUTOFF 0 1 with tick := { linked.tick with lastEdge := 100, len := 400000, cut := 2500 }, shadows := [⟨regKey 0x15 0 0x104, 7, 9⟩, ⟨regKey 0x15 0 0x104, 8, 10⟩, ⟨regKey 0x15 0 0x108, 8, 99999999⟩] }, by decide +kernel⟩

theorem witness_TheTickEdge_2 : ∃ (s : State),
    s.tick.edgePending = true ∧ s.linkUp = true ∧ s.domainOn 9 = true :=
  ⟨{ linked with tick := { linked.tick with edgePending := true, lastEdge := 100, len := 400000, cut := 2500 }, shadows := [⟨regKey 0x01 2 0x048, 7, 9⟩, ⟨regKey 0x01 3 0x048, 7, 99999999⟩], porter := { linked.porter with staged := some { emptyItinerary with id := 77 } } }, by decide +kernel⟩

theorem witness_TheTickEdge_3 : ∃ (p : Nat) (s : State),
    s.tick.windowOpen = true ∧ p < 16 ∧ s.flag R.PANE_MODE_IN_GANG p = false ∧ s.taskNow p ≠ 0 ∧ s.pcState p ≠ 2 ∧ (∀ q, q < 16 → q ≠ p → s.flag R.PANE_MODE_IN_GANG q = false ∧ s.taskNow q = 0) :=
  ⟨3, { allOn.put R.PCTL_TASK_TASK_ID 3 9 with tick := { allOn.tick with windowOpen := true } }, by decide +kernel⟩

theorem witness_TheTickEdge_4 : ∃ (s : State),
    s.gateRuns = true ∧ s.gate.statDue = true :=
  ⟨({ allOn with gate := { allOn.gate with statDue := true } }.setReg 0x11 0 0x008 1).setReg 0x11 0 0x040 0x3, by decide +kernel⟩

theorem witness_TheLink_0 : ∃ (s : State),
    s.pageOpen 0x0A 1 = true ∧ s.get R.LNTL_LINK_STAT_STATE 1 = 0 :=
  ⟨allOn, by decide +kernel⟩

theorem witness_TheLink_1 : ∃ (ok : Bool) (s : State),
    s.get R.LNTL_LINK_STAT_STATE 1 = 1 ∧ ok = true ∧ s.domainOn 8 = true ∧ s.domainOn 9 = true :=
  ⟨true, allOn.put R.LNTL_LINK_STAT_STATE 1 1, by decide +kernel⟩

theorem witness_TheLink_2 : ∃ (ok : Bool) (s : State),
    s.get R.LNTL_LINK_STAT_STATE 1 = 1 ∧ ok = false :=
  ⟨false, allOn.put R.LNTL_LINK_STAT_STATE 1 1, by decide +kernel⟩

theorem witness_TheLink_3 : ∃ (side : Nat) (s : State),
    side < 2 ∧ s.linkUp = true :=
  ⟨1, { linked with reports := [⟨3, 1, 2, 2⟩, ⟨0x16, 0, 5, 5⟩] }, by decide +kernel⟩

theorem witness_TheLink_4 : ∃ (i : Initiator) (b : Nat) (s : State),
    b < 2 ∧ s.pageOpen 0x08 (32 + b) = true ∧ s.linkUp = true ∧ s.domainOn 8 = true ∧ s.window 0x08 (32 + b) = some i ∧ s.flag (R.HDR_LOCK_HARD_LOCK.on 0x08) (32 + b) = false ∧ s.get R.STIL_MODE_MODE (32 + b) = 0 :=
  ⟨⟨3, 0⟩, 1, (linked.put R.STIL_MODE_BR_DOWN 33 1).setWindow 0x08 33 (some ⟨3, 0⟩), by decide +kernel⟩

theorem witness_TheLink_5 : ∃ (side : Nat) (s : State),
    let x := s.side (1 - side)
    side < 2 ∧ s.linkUp = true ∧ x.resend = [] ∧ x.nakOut = false ∧ x.credits = [] ∧ (s.side side).waits = false ∧ (∀ e, e ∈ x.flits → e.1 < 2) :=
  ⟨0, linked.setSide 1 { LintelSide.idle with slot := 1, nextSeq := 300, sinceEdge := 20 }, by decide +kernel⟩

theorem witness_TheLink_6 : ∃ (side : Nat) (ready : LintelReady) (s : State) (b : Nat) (f : Flit),
    let x := s.side (1 - side)
    let waiting := x.flits.filter (fun e => e.2.1 != [])
    let own := [0, 1, 2, 3, 2, 3, 1, 2, 3, 2, 3, 1, 2, 3, 2, 3].getD x.slot 3
    let has := fun c => if c = 0 then x.sinceCut.isSome || x.messages != [] || ready.ctl != [] else if c = 1 then ready.pix != []
        else waiting.any (fun e => e.1 == c - 2)
    let cls := if has own then own else (waiting.head?.map (fun e => e.1 + 2)).getD 15
    side < 2 ∧ s.linkUp = true ∧ b < 2 ∧ x.resend = [] ∧ x.nakOut = false ∧ x.credits = [] ∧ (s.side side).waits = false ∧ x.flits = [(b, f.bytes, f)] ∧ leNum (f.bytes.take 24) ≠ 0 ∧ tblGet [] (s.side side).rxPart b = [] ∧ cls = 2 + b :=
  ⟨1, ⟨[], [], 0, false, false⟩, linked.setSide 0 { LintelSide.idle with slot := 2, flits := [(1, ({ headFlit 3 1 64 0 15 (List.replicate 64 7) with vc := 1 }).bytes, { headFlit 3 1 64 0 15 (List.replicate 64 7) with vc := 1 })] }, 1, { headFlit 3 1 64 0 15 (List.replicate 64 7) with vc := 1 }, by decide +kernel⟩

theorem witness_TheLink_7 : ∃ (side : Nat) (s : State) (g : List Byte) (rest : List (List Byte)),
    let x := s.side (1 - side)
    side < 2 ∧ s.linkUp = true ∧ x.resend = g :: rest ∧ g.length = 256 ∧ bitsAt (leNum (g.take 8)) 48 4 = 15 ∧ bitsAt (leNum (g.take 8)) 4 12 = 0 ∧ x.nakOut = false ∧ bitsAt (leNum (g.take 8)) 56 8 = (s.get R.LNTL_LINK_STAT_LAST_SEQ side + 1) % 256 :=
  ⟨0, linked.setSide 1 { LintelSide.idle with slot := 15, resend := [(leBytes 8 (1 * 2 ^ 56 + 15 * 2 ^ 48) ++ List.replicate 248 7), [1]] }, (leBytes 8 (1 * 2 ^ 56 + 15 * 2 ^ 48) ++ List.replicate 248 7), [[1]], by decide +kernel⟩

theorem witness_TheLink_8 : ∃ (side : Nat) (s : State) (k : Nat),
    side < 2 ∧ s.linkUp = true ∧ k < 32 ∧ (s.side side).crcFails < 7 :=
  ⟨0, linked.setSide 0 { LintelSide.idle with crcFails := 6 }, 3, by decide +kernel⟩

theorem witness_TheLink_9 : ∃ (side : Nat) (s : State) (k : Nat),
    side < 2 ∧ s.linkUp = true ∧ k < 32 ∧ (s.side side).crcFails = 7 :=
  ⟨1, linked.setSide 1 { LintelSide.idle with crcFails := 7 }, 31, by decide +kernel⟩

theorem witness_CommandsThatLatchActsOn_0 : ∃ (c : CmdFields) (s : State),
    s.authentic 0x05 c = true :=
  ⟨signed 0x05 (leBytes 4 1) latched, latched, signed_authentic _ _ _ _ (by decide +kernel) (by decide +kernel)⟩

theorem witness_CommandsThatLatchActsOn_1 : ∃ (c : CmdFields) (s : State) (k : List Nat),
    let target := (c.args.getD 0 0).toNat
    let revoke := (c.args.getD 1 0).toNat
    let use := (c.args.getD 2 0).toNat
    s.authentic 0x09 c = true ∧ target < 32 ∧ bitOf (tblGet 0 s.latch.slots target) 8 = false ∧ (revoke = 0xFF ∨ revoke < 32 ∧ bitOf (tblGet 0 s.latch.slots revoke) 8 = true) ∧ use &&& (if c.slot = 0xFE then 0x7F else s.slotStat c.slot % 256) = use ∧ aesUnwrap (numBlock 16 (s.cmdKey c.slot).toNat) (((c.args.drop 8).take 24).map (fun b => b.toNat)) = some k :=
  ⟨signed 0x09 ([1, 0, 1, 1, 0, 0, 0, 0] ++ (leBytes 24 0x1FA68B0A8112B447AEF34BD8FB5A7B829D3E862371D2CFE5).reverse) latched, latched, [0x00,0x11,0x22,0x33,0x44,0x55,0x66,0x77,0x88,0x99,0xAA,0xBB,0xCC,0xDD,0xEE,0xFF], signed_authentic _ _ _ _ (by decide +kernel) (by decide +kernel), by decide +kernel⟩

theorem witness_CommandsThatLatchActsOn_2 : ∃ (c : CmdFields) (s : State),
    s.authentic 0x0B c = true ∧ c.args.take 8 = s.nonce ∧ s.storedCtr (ctrSlot c.slot) < leNum ((c.args.drop 8).take 8) ∧ c.journalFail = false ∧ s.domainOn 1 = true := by
  obtain ⟨h1, h2⟩ := nonce_counter latched 70000
  refine ⟨signed 0x0B (latched.nonce ++ leBytes 8 70000) latched, latched, ?_, h1, ?_, rfl, by decide +kernel⟩
  · refine signed_authentic _ _ _ _ (by decide +kernel) ?_
    rw [sideChecks_resync _ _ _ (by simp [nonce_length])]
    decide +kernel
  · show latched.storedCtr 0 < leNum (((latched.nonce ++ leBytes 8 70000).drop 8).take 8)
    rw [h2]
    decide +kernel

theorem witness_CommandsThatLatchActsOn_3 : ∃ (h : Nat) (v : Word) (c : CmdFields) (s : State),
    s.authentic 0x0C c = true ∧ h < 4 ∧ c.args = leBytes 8 (pageAddr 0x0D h 0x054) ++ leBytes 4 v.toNat ++ leBytes 4 0 ∧ s.pathOpen 39 (.page 0x0D h 0x054) = true ∧ s.pageOpen 0x0D h = true ∧ s.flag R.TICK_PHASE_PAST_CUTOFF 0 = false ∧ headBad h 0x054 v.toNat s = none :=
  ⟨1, 0x21, signed 0x0C (leBytes 8 (pageAddr 0x0D 1 0x054) ++ leBytes 4 0x21 ++ leBytes 4 0) latched, routed 39 (targetDest (.page 0x0D 1 0x054)) latched, signed_authentic _ _ _ _ (by decide +kernel) (by decide +kernel), by decide +kernel⟩

theorem witness_CommandsThatLatchActsOn_4 : ∃ (v : Word) (c : CmdFields) (s : State),
    s.authentic 0x0A c = true ∧ c.args = leBytes 8 (pageAddr 0x0B 0 0x088) ++ leBytes 4 v.toNat ++ leBytes 4 0 ∧ s.pathOpen 39 (.page 0x0B 0 0x088) = true ∧ s.pageOpen 0x0B 0 = true ∧ v.toNat % 256 ≤ 0x91 :=
  ⟨0x80000003, signed 0x0A (leBytes 8 (pageAddr 0x0B 0 0x088) ++ leBytes 4 0x80000003 ++ leBytes 4 0) latched, routed 39 (targetDest (.page 0x0B 0 0x088)) latched, signed_authentic _ _ _ _ (by decide +kernel) (by decide +kernel), by decide +kernel⟩

theorem witness_CommandsThatLatchActsOn_5 : ∃ (v : Word) (c : CmdFields) (s : State),
    s.authentic 0x0A c = true ∧ c.args = leBytes 8 (pageAddr 0x0B 0 0x060) ++ leBytes 4 v.toNat ++ leBytes 4 0 :=
  ⟨0x80000003, signed 0x0A (leBytes 8 (pageAddr 0x0B 0 0x060) ++ leBytes 4 0x80000003 ++ leBytes 4 0) latched, routed 39 (targetDest (.page 0x0B 0 0x088)) latched, signed_authentic _ _ _ _ (by decide +kernel) (by decide +kernel), by decide +kernel⟩

theorem witness_CommandsThatLatchActsOn_6 : ∃ (c : CmdFields) (s : State),
    let good := { c with tag := (cmacBytes (s.cmdKey c.slot) (cmdBytes (critCmd 0x0C c))).take 8 }
    s.authentic 0x0C good = true ∧ c.tag ≠ good.tag :=
  ⟨{ signed 0x0C (leBytes 8 (pageAddr 0x0D 1 0x054) ++ leBytes 4 0x21 ++ leBytes 4 0) latched with tag := List.replicate 9 0 }, latched, signed_authentic _ _ _ _ (by decide +kernel) (by decide +kernel), fun h => absurd (congrArg List.length h) (by rw [List.length_take]; simp; omega)⟩

theorem witness_CommandsThatLatchActsOn_7 : ∃ (j : RollJob) (s : State),
    s.latch.rolling = some j ∧ s.latch.waiting = [] :=
  ⟨⟨3, 77, 5, 0, true⟩, { latched with latch := { latched.latch with rolling := some ⟨3, 77, 5, 0, true⟩ } }, by decide +kernel⟩

theorem witness_CommandsThatLatchActsOn_8 : ∃ (s : State),
    s.latch.ready = false ∧ s.flag R.SHUT_SUPPLY_BND_LOW 0 = false ∧ s.domainUp 1 = true ∧ s.latch.waiting = [] :=
  ⟨{ allOn with latch := { allOn.latch with ready := false, journal := [(0, [(0, 5), (32, 2), (0, 9)])] } }, by decide +kernel⟩

theorem witness_CommandsThatLatchActsOn_9 : ∃ (s : State),
    s.domainOn 1 = true ∧ s.sector < 2 ∧ tblGet false s.latch.dirty (1 - s.sector) = true :=
  ⟨{ latched with latch := { latched.latch with dirty := [(1, true)], journal := [(1, [(0, 5)]), (0, [(0, 9)])] } }, by decide +kernel⟩

theorem witness_CommandsForOtherBlocks_0 : ∃ (d : Nat) (c : CmdFields) (s : State),
    s.authentic 0x01 c = true ∧ 1 ≤ d ∧ d < 30 ∧ leNum c.args = 2 ^ d ∧ s.shutter.profile = none ∧ s.domainOn d = false ∧ s.moves d = false ∧ s.domainOn (domainParent d) = true ∧ (9 < d → s.linkUp = true) :=
  ⟨10, signed 0x01 (leBytes 4 (2 ^ 10)) latched, latched.put (domainField 10) 0 0, signed_authentic _ _ _ _ (by decide +kernel) (by decide +kernel), by decide +kernel⟩

theorem witness_CommandsForOtherBlocks_1 : ∃ (d : Nat) (c : CmdFields) (s : State),
    s.authentic 0x02 c = true ∧ 9 < d ∧ d < 30 ∧ leNum c.args = 2 ^ d ∧ s.shutter.profile = none ∧ s.domainOn d = true ∧ s.moves d = false ∧ s.linkUp = true ∧ s.domainOn 8 = true ∧ s.domainInUse d = false :=
  ⟨12, signed 0x02 (leBytes 4 (2 ^ 12)) latched, latched, signed_authentic _ _ _ _ (by decide +kernel) (by decide +kernel), by decide +kernel⟩

theorem witness_CommandsForOtherBlocks_2 : ∃ (c : CmdFields) (s : State),
    let d := leNum c.args % 32
    let target := bitsAt (leNum c.args) 8 2
    s.authentic 0x03 c = true ∧ s.moves (domainParent d) = false ∧ setDomainRefusal d target s = none ∧ s.domain d ≠ target :=
  ⟨signed 0x03 (leBytes 4 (12 + 2 * 256)) latched, latched, signed_authentic _ _ _ _ (by decide +kernel) (by decide +kernel), by decide +kernel⟩

theorem witness_CommandsForOtherBlocks_3 : ∃ (c : CmdFields) (s : State) (code : Nat),
    let d := leNum c.args % 32
    let target := bitsAt (leNum c.args) 8 2
    s.authentic 0x03 c = true ∧ s.moves (domainParent d) = false ∧ setDomainRefusal d target s = some code :=
  ⟨signed 0x03 (leBytes 4 (31 + 2 * 256)) latched, latched, 0x0101, signed_authentic _ _ _ _ (by decide +kernel) (by decide +kernel), by decide +kernel⟩

theorem witness_CommandsForOtherBlocks_4 : ∃ (c : CmdFields) (s : State),
    s.authentic 0x04 c = true ∧ s.domainOn 9 = true ∧ s.linkUp = true ∧ s.porter.admitting = none :=
  ⟨signed 0x04 (leBytes 8 0x3200000000 ++ leBytes 4 64 ++ [0, 0, 0, 0] ++ List.replicate 8 0) latched, flashed (List.replicate 64 5) latched, signed_authentic _ _ _ _ (by decide +kernel) (by decide +kernel), by decide +kernel⟩

theorem witness_CommandsForOtherBlocks_5 : ∃ (p : Nat) (box : List Byte) (c : CmdFields) (s : State),
    s.authentic 0x06 c = true ∧ p < 16 ∧ leNum ((c.args.drop 8).take 2) = 2 ^ p ∧ s.linkUp = true ∧ s.domainUp (14 + p) = true ∧ s.porter.admitting = none ∧ (∀ q, q < 16 → (s.ctl q).patch = none) ∧ s.pcState p = 0 ∧ s.panePinned p = false ∧ (fetchContainer ⟨p, 9⟩ (s.get R.TRLH_DDR_MAP_MODE p) (leNum (c.args.take 8)) s).2 = some box ∧ payloadOk (contPayload box) (s.getReg 0x02 p 0x068).toNat = true :=
  ⟨2, container ([0, 2, 0, 0, 1, 0, 1, 0, 0, 0, 0, 0, 0, 0, 0, 0] ++ leBytes 4 0x12345678), signed 0x06 (leBytes 8 0x3200000000 ++ leBytes 2 4 ++ [0, 0, 0, 0, 0, 0]) latched, routed 2 38 (flashed (container ([0, 2, 0, 0, 1, 0, 1, 0, 0, 0, 0, 0, 0, 0, 0, 0] ++ leBytes 4 0x12345678)) latched), signed_authentic _ _ _ _ (by decide +kernel) (by decide +kernel), by decide +kernel⟩

theorem witness_CommandsForOtherBlocks_6 : ∃ (c : CmdFields) (s : State),
    s.authentic 0x07 c = true ∧ s.domainOn 1 = true ∧ s.fabState ≠ 1 ∧ s.fabState ≠ 2 ∧ leNum (c.args.take 4) + 288424 ≤ 0x7FE000 :=
  ⟨signed 0x07 (leBytes 4 0x1000 ++ [0, 0, 0, 0]) latched, latched, signed_authentic _ _ _ _ (by decide +kernel) (by decide +kernel), by decide +kernel⟩

theorem witness_CommandsForOtherBlocks_7 : ∃ (box : List Byte) (c : CmdFields) (s : State),
    let dst := leNum ((c.args.drop 8).take 4)
    s.authentic 0x08 c = true ∧ s.domainOn 1 = true ∧ s.flashJob = none ∧ s.fabric.load = none ∧ s.fabState ≠ 2 ∧ (fetchContainer ⟨38, 0⟩ 0 (leNum (c.args.take 8)) s).2 = some box ∧ dst % 4096 = 0 ∧ dst + (48 + contLen box + 4095) / 4096 * 4096 ≤ 0x7FE000 :=
  ⟨container [1, 2, 3], signed 0x08 (leBytes 8 0x3200000000 ++ leBytes 4 0x1000 ++ [0, 0, 0, 0]) latched, flashed (container [1, 2, 3]) latched, signed_authentic _ _ _ _ (by decide +kernel) (by decide +kernel), by decide +kernel⟩

theorem witness_CommandsForOtherBlocks_8 : ∃ (ok : Bool) (s : State) (v : Nat) (k : Nat) (r : Refused),
    s.domainOn 9 = true ∧ s.porter.admitting = some ok ∧ admissionFault s s.porter.image ok = some (v, r) ∧ r.item = some k :=
  ⟨false, checking [] false, 0, 0, ⟨2, 0, some 0, 0⟩, by decide +kernel⟩

theorem witness_CommandsForOtherBlocks_9 : ∃ (ok : Bool) (s : State),
    s.domainOn 9 = true ∧ s.porter.admitting = some ok ∧ admissionFault s s.porter.image ok = none :=
  ⟨true, checking planImage true, by decide +kernel⟩

theorem witness_CommandsForOtherBlocks_10 : ∃ (p : Nat) (key : Nat) (old : Nat) (box : List Byte) (s : State),
    let pay := contPayload box
    let r := payNum pay 0 1
    let good := (r ≠ 0 ∨ key = 0xFF) ∧ contCheck (fun k => k == 1) key (r == 0) (readBack s p box) s = 0
    p < 16 ∧ (s.ctl p).patch = some (box, key, old) ∧ payNum (contPayload box) 0 1 ≤ 1 ∧ good :=
  ⟨2, 0, 0, larderBox, patched 0 larderBox, by decide +kernel⟩

theorem witness_CommandsForOtherBlocks_11 : ∃ (p : Nat) (key : Nat) (old : Nat) (box : List Byte) (s : State),
    let pay := contPayload box
    let r := payNum pay 0 1
    let good := (r ≠ 0 ∨ key = 0xFF) ∧ contCheck (fun k => k == 1) key (r == 0) (readBack s p box) s = 0
    p < 16 ∧ (s.ctl p).patch = some (box, key, old) ∧ payNum (contPayload box) 0 1 ≤ 1 ∧ (¬good) ∧ s.get (R.HDR_ERR_CODE_CODE.on 0x02) p = 0 :=
  ⟨2, 5, 0, larderBox, patched 5 larderBox, by decide +kernel⟩

theorem witness_PowerDomainsAndResets_0 : ∃ (d : Nat) (s : State),
    14 ≤ d ∧ d < 30 ∧ s.movingTo d = psOn + 1 ∧ s.domain d = psOff ∧ s.shutter.profile = none ∧ s.latch.held = none :=
  ⟨16, { (linked.put (domainField 16) 0 0) with shutter := { linked.shutter with moving := [(16, 4)] } }, by decide +kernel⟩

theorem witness_PowerDomainsAndResets_1 : ∃ (d : Nat) (s : State),
    14 ≤ d ∧ d < 30 ∧ s.movingTo d = psOff + 1 ∧ s.domain d = psOn ∧ s.mayEnd d psOff = true ∧ s.shutter.profile = none ∧ s.latch.held = none :=
  ⟨16, { (domainTrlhs 16).foldl (fun s t => s.put (R.HDR_STAT_DRAINED.on 0x09) t 1) linked with shutter := { linked.shutter with moving := [(16, 1)] } }, by decide +kernel⟩

theorem witness_PowerDomainsAndResets_2 : ∃ (d : Nat) (s : State),
    d < 30 ∧ s.domain d = psOff ∧ s.movingTo d = psOn + 1 ∧ s.shutter.profile = none ∧ s.latch.held = none :=
  ⟨4, { (allOn.put (domainField 4) 0 0).put ⟨0x16, 0x048, 4, 4, 1⟩ 0 1 with shutter := { allOn.shutter with moving := [(4, 4)] } }, by decide +kernel⟩

theorem witness_PowerDomainsAndResets_3 : ∃ (p : Profile) (s : State),
    s.shutter.profile = some p ∧ p.waitLink = true ∧ s.get (R.HDR_ERR_CODE_CODE.on 0x16) 0 = 0 :=
  ⟨⟨true, false, [14], true⟩, { allOn with shutter := { allOn.shutter with profile := some ⟨true, false, [14], true⟩ } }, by decide +kernel⟩

theorem witness_PowerDomainsAndResets_7 : ∃ (s : State),
    s.bootActive = true ∧ s.domainOn 2 = true ∧ s.engState 5 0 = 1 ∧ s.bootEnded 4 = false ∧ s.bootFailed 2 = false ∧ s.bootStarted 4 = false ∧ s.bootEnded 2 = true ∧ s.flag R.TICK_RUN_RUN 0 = false :=
  ⟨{ (allOn.setEngState 5 0 1) with bootActive := true, boot := { allOn.boot with ended := 6 } }, by decide +kernel⟩

theorem witness_PowerDomainsAndResets_8 : ∃ (k : Nat) (n : Nat) (s : State),
    1 < k ∧ k < 12 ∧ s.bootActive = true ∧ s.domainOn 2 = true ∧ s.engState 5 0 = 1 ∧ s.bootEnded k = false ∧ n ∈ bootNeeds k ∧ s.bootFailed n = true :=
  ⟨9, 7, { (allOn.setEngState 5 0 1) with bootActive := true, boot := { allOn.boot with ended := 128, failed := 128 } }, by decide +kernel⟩

theorem witness_HatchFrames_0 : ∃ (ty : Nat) (n : Nat) (s : State),
    ty < 0x18 ∧ s.pageOpen ty n = true ∧ s.hatchWaits = false ∧ s.pathOpen 30 (.page ty n 0x014) = true :=
  ⟨3, 2, routed 30 (targetDest (.page 3 2 0x014)) allOn, by decide +kernel⟩

theorem witness_HatchFrames_1 : ∃ (ty : Nat) (n : Nat) (s : State),
    ty < 0x18 ∧ s.pageOpen ty n = true ∧ s.hatchWaits = false ∧ s.pathOpen 30 (.page ty n 0x014) = true :=
  ⟨3, 2, routed 30 (targetDest (.page 3 2 0x014)) allOn, by decide +kernel⟩

theorem witness_HatchFrames_2 : ∃ (c : CmdFields) (s : State),
    s.authentic 0x05 c = true ∧ c.gate = false ∧ c.slot < 256 ∧ c.ctr < 2 ^ 32 ∧ s.hatchWaits = false :=
  ⟨signed 0x05 (leBytes 4 1) latched, latched, signed_authentic _ _ _ _ (by decide +kernel) (by decide +kernel), by decide +kernel⟩

theorem witness_HatchFrames_3 : ∃ (a : Nat) (bad : Nat),
    let f : List Byte := [1, 0] ++ leBytes 5 a
    bad < 2 ^ 16 ∧ bad ≠ crc16 f :=
  ⟨0x3000000000, 7, by decide +kernel⟩

theorem witness_HatchFrames_5 : ∃ (s : State),
    s.hatchOpen = true :=
  ⟨{ allOn with hatchOpen := true }, by decide +kernel⟩

theorem witness_TransomCommands_0 : ∃ (off : Nat) (data : List Byte) (s : State) (k : Nat),
    let a := s.get R.TRSM_WIN_BASE_ADDR 0 * 4096 + off
    s.domainOn 7 = true ∧ k < data.length ∧ openBuffers s (a + k) = [] :=
  ⟨0, [1, 2], allOn, 1, by decide +kernel⟩

theorem witness_TransomCommands_1 : ∃ (off : Nat) (data : List Byte) (s : State) (e : Nat) (b : Nat),
    let a := s.get R.TRSM_WIN_BASE_ADDR 0 * 4096 + off
    s.domainOn 7 = true ∧ data ≠ [] ∧ (∀ k, k < data.length → openBuffers s (a + k) = [(e, b)]) :=
  ⟨0x2000, [1, 2, 3], allOn.setSurf 4 { Surface.idle with cfg := 0x83000000, addrs := [(0, 9), (1, 2)] }, 4, 1, by decide +kernel⟩

theorem witness_TransomCommands_2 : ∃ (s : State),
    s.pageOpen 0x10 0 = true ∧ s.doorbells.length < 16 :=
  ⟨allOn, by decide +kernel⟩

theorem witness_TransomCommands_3 : ∃ (s : State),
    s.pageOpen 0x10 0 = true ∧ s.doorbells.length = 16 :=
  ⟨{ allOn with doorbells := List.replicate 16 (4, 1) }, by decide +kernel⟩

theorem witness_TransomCommands_4 : ∃ (e : Nat) (b : Nat) (rest : List (Nat × Nat)) (s : State),
    s.domainOn 7 = true ∧ s.doorbells = (e, b) :: rest ∧ (s.surf e).enabled = true ∧ b < (s.surf e).bufs ∧ (s.surf e).state b < 2 ∧ tblGet false (s.surf e).failed b = false :=
  ⟨4, 1, [(5, 0)], { allOn with doorbells := [(4, 1), (5, 0)], surfaces := [(4, { Surface.idle with cfg := 0x83000000, addrs := [(0, 9), (1, 2)] })] }, by decide +kernel⟩

theorem witness_TransomCommands_5 : ∃ (e : Nat) (b : Nat) (rest : List (Nat × Nat)) (s : State) (why : Nat),
    s.domainOn 7 = true ∧ s.doorbells = (e, b) :: rest ∧ (why = (if (s.surf e).enabled = false then 2 else if (s.surf e).bufs ≤ b ∨ 2 ≤ (s.surf e).state b then 3 else if tblGet false (s.surf e).failed b = true then 4 else 0)) ∧ why ≠ 0 :=
  ⟨4, 1, [(5, 0)], { allOn with doorbells := [(4, 1), (5, 0)] }, 2, by decide +kernel⟩

theorem witness_TransomCommands_6 : ∃ (v : Nat) (s : State),
    v < 64 ∧ s.domainOn 7 = true ∧ s.flag R.TRSM_LINK_STAT_UP 0 = true ∧ bitOf s.pins.vecWait v = true ∧ bitOf (s.getReg 0x10 0 (0x80C + 16 * v)).toNat 0 = false :=
  ⟨3, { (allOn.put R.TRSM_LINK_STAT_UP 0 1).setReg 0x10 0 0x83C 0 with pins := { allOn.pins with vecWait := 8 } }, by decide +kernel⟩

theorem witness_TransomCommands_7 : ∃ (up : Bool) (speed : Nat) (width : Nat) (s : State),
    s.domainOn 7 = true ∧ speed < 5 ∧ width < 5 ∧ s.getReg 0x10 0 0x040 ≠ word (width * 16 + speed * 2 + bit up) :=
  ⟨true, 4, 3, allOn, by decide +kernel⟩

theorem witness_DdrChannels_0 : ∃ (ch : Nat) (s : State),
    ch < 2 ∧ s.pageOpen 0x0C ch = true ∧ (s.ddrState ch = ddrDown ∨ s.ddrState ch = ddrLostState) ∧ s.get R.DDRC_CFG_DENSITY 0 = s.get R.DDRC_CFG_DENSITY 1 ∧ s.get R.DDRC_CFG_RANKS2 0 = s.get R.DDRC_CFG_RANKS2 1 :=
  ⟨1, allOn, by decide +kernel⟩

theorem witness_DdrChannels_1 : ∃ (ch : Nat) (s : State),
    ch < 2 ∧ s.pageOpen 0x0C ch = true ∧ (s.ddrState ch = ddrDown ∨ s.ddrState ch = ddrLostState) ∧ s.get R.DDRC_CFG_DENSITY 0 = s.get R.DDRC_CFG_DENSITY 1 ∧ s.get R.DDRC_CFG_RANKS2 0 = s.get R.DDRC_CFG_RANKS2 1 :=
  ⟨1, allOn, by decide +kernel⟩

theorem witness_DdrChannels_2 : ∃ (ch : Nat) (ms : Nat) (s : State),
    ch < 2 ∧ ms < 2 ^ R.DDRC_TRAIN_STAT_MS.w ∧ s.ddrState ch = ddrTraining ∧ (s.ddrCh ch).fullMode = true :=
  ⟨1, 17, (allOn.put R.DDRC_STAT_STATE 1 1).setDdr 1 { DdrChannel.idle with fullMode := true }, by decide +kernel⟩

theorem witness_DdrChannels_3 : ∃ (ch : Nat) (fail : Nat) (record : List Word) (s : State),
    let agrees := tblGet 0 (s.ddrCh ch).record 0 = trainWord s ch
    ch < 2 ∧ fail < 7 ∧ s.ddrState ch = ddrTraining ∧ (s.ddrCh ch).fullMode = false ∧ (0 < fail ∨ ¬agrees) :=
  ⟨1, 3, [], allOn.put R.DDRC_STAT_STATE 1 1, by decide +kernel⟩

theorem witness_DdrChannels_4 : ∃ (ch : Nat) (s : State),
    let k := s.get R.DDRC_TRAIN_IDX_WORD ch
    ch < 2 ∧ s.pageOpen 0x0C ch = true ∧ s.ddrState ch ≠ ddrTraining ∧ k < 512 :=
  ⟨1, allOn.put R.DDRC_TRAIN_IDX_WORD 1 511, by decide +kernel⟩

theorem witness_DdrChannels_5 : ∃ (ch : Nat) (s : State),
    let k := s.get R.DDRC_TRAIN_IDX_WORD ch
    ch < 2 ∧ s.pageOpen 0x0C ch = true ∧ s.ddrState ch ≠ ddrTraining ∧ k < 512 :=
  ⟨1, allOn.put R.DDRC_TRAIN_IDX_WORD 1 511, by decide +kernel⟩

theorem witness_DdrChannels_6 : ∃ (ch : Nat) (a : Nat) (n : Nat) (s : State),
    ch < 2 ∧ s.domainUp 11 = true ∧ s.ddrState ch = ddrReady ∧ a + n ≤ s.ddrUsable ch ∧ (∀ (w : Nat), a / 8 ≤ w → w < (a + n + 7) / 8 → decodeWord (tblGet 0 (s.ddrCh ch).errs w).toNat = .clean) :=
  ⟨1, 13, 20, ddrUp, by decide +kernel, by decide +kernel, by decide +kernel, by decide +kernel, fun w _ _ => ddrUp_clean w⟩

theorem witness_DdrChannels_7 : ∃ (ch : Nat) (a : Nat) (bs : List Byte) (s : State),
    ch < 2 ∧ s.domainUp 11 = true ∧ s.ddrState ch = ddrReady ∧ a + bs.length ≤ s.ddrUsable ch ∧ (∀ (w : Nat), a / 64 * 8 ≤ w → w < (a + bs.length + 63) / 64 * 8 → decodeWord (tblGet 0 (s.ddrCh ch).errs w).toNat = .clean) :=
  ⟨1, 61, [1, 2, 3, 4], ddrUp, by decide +kernel, by decide +kernel, by decide +kernel, by decide +kernel, fun w _ _ => ddrUp_clean w⟩

theorem witness_DdrChannels_8 : ∃ (ch : Nat) (s : State),
    let b := (s.ddrCh ch).scrubBlock
    ch < 2 ∧ s.domainOn 11 = true ∧ s.ddrState ch = ddrReady ∧ s.get R.DDRC_SCRUB_INTERVAL ch ≠ 0 ∧ (∀ (k : Nat), k < 8 → decodeWord (tblGet 0 (s.ddrCh ch).errs (8 * b + k)).toNat = .clean) :=
  ⟨1, ddrUp, by decide +kernel⟩

theorem witness_DdrChannels_9 : ∃ (ch : Nat) (s : State),
    ch < 2 ∧ s.domainUp 11 = true ∧ s.ddrState ch = ddrReady ∧ (s.ddrCh ch).held = [] :=
  ⟨1, ddrUp, by decide +kernel⟩

theorem witness_DdrChannels_10 : ∃ (ch : Nat) (s : State),
    ch < 2 ∧ s.ddrState ch = ddrSrefExit :=
  ⟨1, ddrUp.put R.DDRC_STAT_STATE 1 3, by decide +kernel⟩

theorem witness_DdrChannels_11 : ∃ (ch : Nat) (s : State),
    ch < 2 ∧ s.ddrState ch = ddrSrefExit ∧ (s.ddrCh ch).held = [] :=
  ⟨1, ddrUp.put R.DDRC_STAT_STATE 1 3, by decide +kernel⟩

theorem witness_PantryBanks_0 : ∃ (b : Nat) (i : Initiator) (q : NetReq) (s : State),
    b < 64 ∧ s.targetOpen (.pantry b (q.addr % 0x80000)) = true ∧ s.flag R.PANT_OWNER_HANDING b = false ∧ s.debugLevel = 0 ∧ ownerTakes s (s.get R.PANT_OWNER_OWNER b) i = true ∧ pantFits q = true :=
  ⟨3, ⟨33, 0⟩, ⟨false, 0x1000180010, 255, [], 1, false, false, false⟩, allOn.put R.PANT_OWNER_OWNER 3 0x31, by decide +kernel⟩

theorem witness_PantryBanks_1 : ∃ (b : Nat) (i : Initiator) (q : NetReq) (s : State),
    b < 64 ∧ s.targetOpen (.pantry b (q.addr % 0x80000)) = true ∧ s.flag R.PANT_OWNER_HANDING b = false ∧ s.debugLevel = 0 ∧ ownerTakes s (s.get R.PANT_OWNER_OWNER b) i = false :=
  ⟨3, ⟨3, 0⟩, ⟨false, 0x1000180010, 255, [], 1, false, false, false⟩, allOn.put R.PANT_OWNER_OWNER 3 0x31, by decide +kernel⟩

theorem witness_PantryBanks_2 : ∃ (b : Nat) (w : Nat) (i : Initiator) (q : NetReq) (s : State),
    b < 64 ∧ s.domainUp 10 = true ∧ q.flits = 1 ∧ q.rotate = false ∧ q.addr % 0x80000 / 64 = w / 8 ∧ q.be = 255 * 2 ^ (8 * (w % 8)) ∧ (s.bank b).sashQ = [⟨⟨i, q, none, none⟩, [w], [], false, false, false⟩] ∧ (s.bank b).genQ = [] ∧ q.write = false ∧ decodeWord (tblGet 0 (s.bank b).errs w).toNat = .clean :=
  ⟨3, 10, ⟨3, 0⟩, ⟨false, 0x1000180050, 255 * 2 ^ 16, [], 1, false, false, false⟩, allOn.setBank 3 { PantBank.idle with sashQ := [⟨⟨⟨3, 0⟩, ⟨false, 0x1000180050, 255 * 2 ^ 16, [], 1, false, false, false⟩, none, none⟩, [10], [], false, false, false⟩], data := [(80, 7), (87, 9), (88, 1)] }, by decide +kernel⟩

theorem witness_PantryBanks_3 : ∃ (b : Nat) (w : Nat) (i : Initiator) (q : NetReq) (s : State),
    b < 64 ∧ s.domainUp 10 = true ∧ q.flits = 1 ∧ q.rotate = false ∧ q.addr % 0x80000 / 64 = w / 8 ∧ q.be = 255 * 2 ^ (8 * (w % 8)) ∧ (s.bank b).sashQ = [⟨⟨i, q, none, none⟩, [w], [], false, false, false⟩] ∧ (s.bank b).genQ = [] ∧ q.write = true :=
  ⟨3, 10, ⟨3, 0⟩, ⟨true, 0x1000180050, 255 * 2 ^ 16, List.replicate 64 6, 1, false, false, false⟩, allOn.setBank 3 { PantBank.idle with sashQ := [⟨⟨⟨3, 0⟩, ⟨true, 0x1000180050, 255 * 2 ^ 16, List.replicate 64 6, 1, false, false, false⟩, none, none⟩, [10], [], false, false, false⟩], data := [(80, 7), (87, 9), (88, 1)] }, by decide +kernel⟩

theorem witness_PantryBanks_4 : ∃ (b : Nat) (w : Nat) (rest : List Nat) (s : State),
    b < 64 ∧ s.domainUp 10 = true ∧ (s.bank b).sashQ = [] ∧ (s.bank b).genQ = [] ∧ (s.bank b).writeBack = w :: rest :=
  ⟨3, 10, [4, 10], allOn.setBank 3 { PantBank.idle with writeBack := [10, 4, 10], errs := [(10, 5)], data := [(80, 7)] }, by decide +kernel⟩

theorem witness_PantryBanks_5 : ∃ (b : Nat) (s : State),
    let w := s.get R.PANT_SCRUB_NEXT_WORD b
    b < 64 ∧ s.domainOn 10 = true ∧ (s.bank b).sashQ = [] ∧ (s.bank b).genQ = [] ∧ s.get R.PANT_SCRUB_INTERVAL b ≠ 0 ∧ decodeWord (tblGet 0 (s.bank b).errs w).toNat = .clean :=
  ⟨3, (allOn.put R.PANT_SCRUB_INTERVAL 3 4).put R.PANT_SCRUB_NEXT_WORD 3 65535, by decide +kernel⟩

theorem witness_PantryBanks_6 : ∃ (i : Initiator) (b : Nat) (code : Nat) (s : State),
    b < 64 ∧ code < 256 ∧ s.pageOpen 0x06 b = true ∧ s.window 0x06 b = some i ∧ s.flag (R.HDR_LOCK_HARD_LOCK.on 0x06) b = false ∧ s.bankPinnedAt b = false ∧ s.flag R.PANT_OWNER_HANDING b = false ∧ ownerCode code = true ∧ (s.flag R.PANT_OWNER_FAILED b = false ∨ code = 0x40) :=
  ⟨⟨5, 0⟩, 3, 0x12, (allOn.setWindow 6 3 (some ⟨5, 0⟩)).setBank 3 { PantBank.idle with sashQ := [⟨⟨⟨3, 0⟩, ⟨false, 0x1000180050, 255 * 2 ^ 16, [], 1, false, false, false⟩, none, none⟩, [10], [], false, false, false⟩] }, by decide +kernel⟩

theorem witness_PantryBanks_7 : ∃ (i : Initiator) (b : Nat) (code : Nat) (s : State),
    b < 64 ∧ code < 256 ∧ s.pageOpen 0x06 b = true ∧ s.window 0x06 b = some i ∧ s.flag (R.HDR_LOCK_HARD_LOCK.on 0x06) b = false ∧ s.bankPinnedAt b = true ∧ s.get (R.HDR_ERR_CODE_CODE.on 0x06) b = 0 :=
  ⟨⟨5, 0⟩, 3, 0x12, { allOn.setWindow 6 3 (some ⟨5, 0⟩) with porter := { allOn.porter with current := some ownerPlan } }, by decide +kernel⟩

theorem witness_PantryBanks_8 : ∃ (b : Nat) (s : State),
    b < 64 ∧ s.domainUp 10 = true ∧ s.flag R.PANT_OWNER_HANDING b = true ∧ handReady (s.bank b) = true :=
  ⟨3, (allOn.put R.PANT_OWNER_HANDING 3 1).put R.PANT_OWNER_NEXT_FLD 3 0x12, by decide +kernel⟩

theorem witness_PantryBanks_9 : ∃ (s : State),
    s.pageOpen 0x07 0 = true ∧ s.march = none ∧ marchMask s ≠ [] ∧ (∀ b, b ∈ marchMask s → s.get R.PANT_OWNER_OWNER b = 0x40 ∧ s.flag R.PANT_OWNER_HANDING b = false) :=
  ⟨allOn.put R.MRCH_MASK_LO_BANKS 0 6, by decide +kernel⟩

theorem witness_PantryBanks_10 : ∃ (s : State),
    s.pageOpen 0x07 0 = true ∧ s.march = none ∧ marchMask s = [] ∧ s.get (R.HDR_ERR_CODE_CODE.on 0x07) 0 = 0 :=
  ⟨(allOn.put R.MRCH_MASK_LO_BANKS 0 0).put R.MRCH_MASK_HI_BANKS 0 0, by decide +kernel⟩

theorem witness_PantryBanks_11 : ∃ (s : State),
    s.march = none ∧ s.domainOn 10 = true ∧ s.marchDue = true :=
  ⟨{ allOn with marchDue := true }, by decide +kernel⟩

theorem witness_PantryBanks_12 : ∃ (s : State),
    s.marchDue = false :=
  ⟨allOn, by decide +kernel⟩

theorem witness_PantryBanks_13 : ∃ (m : MarchRun) (s : State),
    s.domainOn 10 = true ∧ s.march = some m ∧ m.preserve = false ∧ m.banks = [5] ∧ s.porter.current = none ∧ (s.bank 5).sashQ = [] ∧ (s.bank 5).genQ = [] :=
  ⟨⟨false, true, [5], [], []⟩, { allOn.setBank 5 { PantBank.idle with data := [(4, 4)], errs := [(1, 1)] } with march := some ⟨false, true, [5], [], []⟩ }, by decide +kernel⟩

theorem witness_Trailheads_0 : ∃ (i : Initiator) (q : NetReq) (dest : Nat) (route : Nat) (alt : Bool) (s : State),
    let c := cleanReq i.src i.init q
    i.src < 40 ∧ requestPath s i.src (targetOf s (s.get R.TRLH_DDR_MAP_MODE i.src) c.addr) = .send dest route alt ∧ urgentRight s i.src i.init dest = false ∧ reservedRate (s.th i.src) dest = 0 ∧ (s.th i.src).queueB.length < 16 :=
  ⟨⟨3, 0⟩, ⟨false, 0x3000300040, 15, [], 1, false, false, false⟩, 0, 4, false, routed 3 0 allOn, by decide +kernel⟩

theorem witness_Trailheads_1 : ∃ (i : Initiator) (q : NetReq) (dest : Nat) (route : Nat) (alt : Bool) (s : State),
    let c := cleanReq i.src i.init q
    i.src < 40 ∧ requestPath s i.src (targetOf s (s.get R.TRLH_DDR_MAP_MODE i.src) c.addr) = .send dest route alt ∧ urgentRight s i.src i.init dest = false ∧ reservedRate (s.th i.src) dest = 0 ∧ (s.th i.src).queueB.length = 16 ∧ waitsForPlace i.src i.init = false :=
  ⟨⟨3, 0⟩, ⟨false, 0x3000300040, 15, [], 1, false, false, false⟩, 0, 4, false, (routed 3 0 allOn).setTh 3 { (routed 3 0 allOn).th 3 with queueB := List.replicate 16 (0, ⟨false, 0x3000300040, 15, [], 1, false, false, false⟩) }, by decide +kernel⟩

theorem witness_Trailheads_2 : ∃ (i : Initiator) (q : NetReq) (s : State),
    let c := cleanReq i.src i.init q
    i.src < 40 ∧ requestPath s i.src (targetOf s (s.get R.TRLH_DDR_MAP_MODE i.src) c.addr) = .answer rspClosed :=
  ⟨⟨3, 0⟩, ⟨false, 0x3000300040, 15, [], 1, false, false, false⟩, allOn, by decide +kernel⟩

theorem witness_Trailheads_3 : ∃ (k : Nat) (init : Nat) (dest : Nat) (route : Nat) (alt : Bool) (q : NetReq) (s : State),
    k < 40 ∧ (s.th k).queueS = [] ∧ (s.th k).queueA = [] ∧ (s.th k).queueB = [(init, q)] ∧ (s.th k).tags = [] ∧ (s.th k).outQueue = [] ∧ q.write = false ∧ requestPath s k (targetOf s (s.get R.TRLH_DDR_MAP_MODE k) q.addr) = .send dest route alt ∧ 0 < creditHeld s (injectStile k alt) (trlhPort k) 0 ∧ s.get R.STIL_MODE_MODE (injectStile k alt) ≠ 1 :=
  ⟨3, 0, 0, 4, false, ⟨false, 0x3000300040, 15, [], 1, false, false, false⟩, (routed 3 0 allOn).setTh 3 { (routed 3 0 allOn).th 3 with queueB := [(0, ⟨false, 0x3000300040, 15, [], 1, false, false, false⟩)] }, by decide +kernel⟩

theorem witness_Trailheads_4 : ∃ (k : Nat) (f : Flit) (u : TagUse) (s : State),
    k < 40 ∧ tblGet [] s.ejected (k * 4 + 1) = [f] ∧ f.kind = 2 ∧ bitsAt f.xs 2 2 = 0 ∧ f.xs / 16 = rspOk ∧ tblGet none (s.th k).tags f.tag = some u ∧ u.quarantine = false ∧ u.lost = false :=
  ⟨3, ⟨0, 1, 2, 1, false, 0, 0, 3, 5, false, 0, 0, 0, 0, List.replicate 64 7, 0, 0, false, false⟩, ⟨0, ⟨false, 0, 15, [], 1, false, false, false⟩, 2, false, false⟩, { allOn.setTh 3 { Trailhead.idle with tags := [(5, some ⟨0, ⟨false, 0, 15, [], 1, false, false, false⟩, 2, false, false⟩)] } with ejected := [(13, [⟨0, 1, 2, 1, false, 0, 0, 3, 5, false, 0, 0, 0, 0, List.replicate 64 7, 0, 0, false, false⟩])] }, by decide +kernel⟩

theorem witness_Trailheads_5 : ∃ (k : Nat) (f : Flit) (u : TagUse) (s : State),
    k < 40 ∧ tblGet [] s.ejected (k * 4 + 1) = [f] ∧ f.kind = 2 ∧ bitsAt f.xs 2 2 = 0 ∧ f.xs / 16 = rspOk ∧ tblGet none (s.th k).tags f.tag = some u ∧ u.quarantine = true :=
  ⟨3, ⟨0, 1, 2, 1, false, 0, 0, 3, 5, false, 0, 0, 0, 0, List.replicate 64 7, 0, 0, false, false⟩, ⟨0, ⟨false, 0, 15, [], 1, false, false, false⟩, 2, true, false⟩, { allOn.setTh 3 { Trailhead.idle with tags := [(5, some ⟨0, ⟨false, 0, 15, [], 1, false, false, false⟩, 2, true, false⟩)] } with ejected := [(13, [⟨0, 1, 2, 1, false, 0, 0, 3, 5, false, 0, 0, 0, 0, List.replicate 64 7, 0, 0, false, false⟩])] }, by decide +kernel⟩

theorem witness_Trailheads_6 : ∃ (k : Nat) (tag : Nat) (u : TagUse) (s : State),
    k < 40 ∧ tblGet none (s.th k).tags tag = some u ∧ u.quarantine = false :=
  ⟨3, 5, ⟨0, ⟨false, 0, 15, [], 1, false, false, false⟩, 2, false, false⟩, allOn.setTh 3 { Trailhead.idle with tags := [(5, some ⟨0, ⟨false, 0, 15, [], 1, false, false, false⟩, 2, false, false⟩)] }, by decide +kernel⟩

theorem witness_Trailheads_7 : ∃ (k : Nat) (tag : Nat) (u : TagUse) (s : State),
    k < 40 ∧ tblGet none (s.th k).tags tag = some u ∧ u.quarantine = true :=
  ⟨3, 5, ⟨0, ⟨false, 0, 15, [], 1, false, false, false⟩, 2, true, false⟩, allOn.setTh 3 { Trailhead.idle with tags := [(5, some ⟨0, ⟨false, 0, 15, [], 1, false, false, false⟩, 2, true, false⟩)] }, by decide +kernel⟩

theorem witness_Trailheads_8 : ∃ (k : Nat) (s : State),
    k < 32 ∧ s.pageOpen 0x09 k = true ∧ bitOf (s.get R.DBG_FLT_INVALID_LO 0) k = false :=
  ⟨3, allOn.setTh 3 { Trailhead.idle with issued := 4, responded := 3, tags := [(5, some ⟨0, ⟨false, 0, 15, [], 1, false, false, false⟩, 2, false, false⟩)] }, by decide +kernel⟩

theorem witness_Trailheads_9 : ∃ (k : Nat) (v : Word) (s : State),
    let e := s.get R.TRLH_RT_IDX k % 512
    let route := s.get R.TRLH_RT_LO k + bitsAt v.toNat 0 16 * 2 ^ 32
    k < 40 ∧ s.pageOpen 0x09 k = true ∧ e ∉ (s.th k).pinned ∧ routeValid k (bitOf e 7) (e % 128) route = true :=
  ⟨3, 0x80000000, (allOn.put R.TRLH_RT_IDX 3 7).put R.TRLH_RT_LO 3 34, by decide +kernel⟩

theorem witness_Trailheads_10 : ∃ (k : Nat) (v : Word) (s : State),
    let e := s.get R.TRLH_RT_IDX k % 512
    let route := s.get R.TRLH_RT_LO k + bitsAt v.toNat 0 16 * 2 ^ 32
    k < 40 ∧ s.pageOpen 0x09 k = true ∧ e ∉ (s.th k).pinned ∧ routeValid k (bitOf e 7) (e % 128) route = false ∧ s.get (R.HDR_ERR_CODE_CODE.on 0x09) k = 0 :=
  ⟨3, 0x80000000, allOn.put R.TRLH_RT_IDX 3 9, by decide +kernel⟩

theorem witness_Trailheads_11 : ∃ (k : Nat) (s : State),
    let e := s.get R.TRLH_RT_IDX k % 512
    k < 40 ∧ s.pageOpen 0x09 k = true ∧ e ∈ (s.th k).pinned ∧ s.get (R.HDR_ERR_CODE_CODE.on 0x09) k = 0 :=
  ⟨3, (allOn.put R.TRLH_RT_IDX 3 9).setTh 3 { Trailhead.idle with pinned := [9] }, by decide +kernel⟩

theorem witness_StilesAndClosing_0 : ∃ (n : Nat) (port : Nat) (vc : Nat) (k : Nat) (f : Flit) (s : State),
    let out := bitsAt f.route (3 * f.hop) 3
    n < 44 ∧ port < 6 ∧ vc < 3 ∧ f.vc = vc ∧ f.kind = 0 ∧ f.hop ≤ 15 ∧ s.get R.STIL_MODE_MODE n = 0 ∧ (s.stile n).links = [(port * 4 + vc, [f])] ∧ (s.stile n).wormLeft = [] ∧ (s.stile n).dropping = [] ∧ (s.stile n).holder = [] ∧ (∀ (j : Nat), j < 44 → (s.stile j).buf = []) ∧ (∀ (j : Nat), j < 40 → (s.th j).outQueue = []) ∧ (∀ (j : Nat), j < 4 → s.flag (R.STIL_PRB_CTL_EN.nth j) n = false) ∧ 4 ≤ out ∧ portPresent n out = true ∧ localTrlh n out = some k ∧ s.domainUp (trlhDomain k) = true :=
  ⟨1, 1, 0, 0, ⟨4, 0, 0, 0, true, 3, 0, 0, 5, false, 0, 0, 0, 15, [], 0, 0, false, false⟩, allOn.setStile 1 { Stile.idle with links := [(4, [⟨4, 0, 0, 0, true, 3, 0, 0, 5, false, 0, 0, 0, 15, [], 0, 0, false, false⟩])], used := [(4, 1)] }, by decide +kernel⟩

theorem witness_StilesAndClosing_1 : ∃ (n : Nat) (port : Nat) (vc : Nat) (f : Flit) (s : State),
    n < 44 ∧ port < 6 ∧ vc < 3 ∧ s.get R.STIL_MODE_MODE n = 2 ∧ (s.stile n).links = [(port * 4 + vc, [f])] ∧ f.isResponse = true :=
  ⟨0, 1, 1, ⟨4, 0, 2, 1, false, 3, 0, 0, 5, false, 0, 0, 0, 15, [], 0, 0, false, false⟩, (allOn.put R.STIL_MODE_MODE 0 2).setStile 0 { Stile.idle with links := [(5, [⟨4, 0, 2, 1, false, 3, 0, 0, 5, false, 0, 0, 0, 15, [], 0, 0, false, false⟩])], used := [(5, 1)] }, by decide +kernel⟩

theorem witness_StilesAndClosing_2 : ∃ (i : Initiator) (n : Nat) (s : State),
    n < 44 ∧ s.pageOpen 0x08 n = true ∧ s.window 0x08 n = some i ∧ s.flag (R.HDR_LOCK_HARD_LOCK.on 0x08) n = false ∧ s.get R.STIL_MODE_MODE n = 0 :=
  ⟨⟨30, 0⟩, 3, allOn.setWindow 8 3 (some ⟨30, 0⟩), by decide +kernel⟩

theorem witness_StilesAndClosing_3 : ∃ (i : Initiator) (n : Nat) (s : State),
    n < 44 ∧ s.pageOpen 0x08 n = true ∧ s.window 0x08 n = some i ∧ s.flag (R.HDR_LOCK_HARD_LOCK.on 0x08) n = false ∧ s.get R.STIL_MODE_MODE n = 1 :=
  ⟨⟨30, 0⟩, 3, (allOn.put R.STIL_MODE_MODE 3 1).setWindow 8 3 (some ⟨30, 0⟩), by decide +kernel⟩

theorem witness_StilesAndClosing_4 : ∃ (i : Initiator) (n : Nat) (s : State),
    n < 44 ∧ s.pageOpen 0x08 n = true ∧ s.window 0x08 n = some i ∧ s.flag (R.HDR_LOCK_HARD_LOCK.on 0x08) n = false ∧ s.get R.STIL_MODE_MODE n = 0 :=
  ⟨⟨30, 0⟩, 3, allOn.setWindow 8 3 (some ⟨30, 0⟩), by decide +kernel⟩

theorem witness_StilesAndClosing_5 : ∃ (n : Nat) (s : State),
    n < 44 ∧ s.get R.STIL_MODE_MODE n = 1 ∧ (s.stile n).buf = [] ∧ (s.stile n).wormLeft = [] :=
  ⟨3, allOn.put R.STIL_MODE_MODE 3 1, by decide +kernel⟩

theorem witness_StilesAndClosing_6 : ∃ (k : Nat) (s : State),
    k < 40 ∧ s.pageOpen 0x09 k = true ∧ s.flag (R.HDR_CTL_FENCE.on 0x09) k = true :=
  ⟨3, (routed 3 4 allOn).put (R.HDR_CTL_FENCE.on 0x09) 3 1, by decide +kernel⟩

theorem witness_StilesAndClosing_7 : ∃ (k : Nat) (s : State),
    k < 40 ∧ s.pageOpen 0x09 k = true ∧ s.flag (R.HDR_CTL_FENCE.on 0x09) k = false ∧ s.get (R.HDR_ERR_CODE_CODE.on 0x09) k = 0 :=
  ⟨3, allOn, by decide +kernel⟩

theorem witness_StilesAndClosing_8 : ∃ (k : Nat) (s : State),
    k < 40 ∧ s.pageOpen 0x09 k = true :=
  ⟨3, routed 3 4 allOn, by decide +kernel⟩

theorem witness_StilesAndClosing_9 : ∃ (k : Nat) (f : Flit) (s : State),
    k < 40 ∧ f.kind = 5 ∧ f.src < 40 ∧ tblGet [] s.ejected (k * 4 + 2) = [f] ∧ f.xs / 16 = 1 :=
  ⟨3, ⟨0, 1, 5, 2, false, 9, 0, 3, 0, false, 0, 16, 0, 0, [], 0, 0, false, false⟩, { allOn with ejected := [(14, [⟨0, 1, 5, 2, false, 9, 0, 3, 0, false, 0, 16, 0, 0, [], 0, 0, false, false⟩])] }, by decide +kernel⟩

theorem witness_StilesAndClosing_10 : ∃ (k : Nat) (f : Flit) (s : State),
    k < 40 ∧ f.kind = 5 ∧ f.src < 40 ∧ tblGet [] s.ejected (k * 4 + 2) = [f] ∧ f.xs / 16 = 3 :=
  ⟨3, ⟨0, 1, 5, 2, false, 9, 0, 3, 0, false, 0, 48, 0, 0, [], 0, 0, false, false⟩, { allOn with ejected := [(14, [⟨0, 1, 5, 2, false, 9, 0, 3, 0, false, 0, 48, 0, 0, [], 0, 0, false, false⟩])] }, by decide +kernel⟩

theorem witness_StilesAndClosing_11 : ∃ (k : Nat) (f : Flit) (s : State),
    k < 40 ∧ f.kind = 5 ∧ f.src < 40 ∧ tblGet [] s.ejected (k * 4) = [f] ∧ f.xs / 16 = 2 :=
  ⟨3, ⟨0, 1, 5, 0, false, 9, 0, 3, 0, false, 0, 32, 0, 0, [], 0, 0, false, false⟩, { allOn.setTh 3 { Trailhead.idle with draining := true, ackWait := [9, 4] } with ejected := [(12, [⟨0, 1, 5, 0, false, 9, 0, 3, 0, false, 0, 32, 0, 0, [], 0, 0, false, false⟩])] }, by decide +kernel⟩

theorem witness_StilesAndClosing_12 : ∃ (k : Nat) (s : State),
    k < 40 ∧ (s.th k).draining = true ∧ (s.th k).ackWait = [] ∧ openTags (s.th k) = [] :=
  ⟨3, allOn.setTh 3 { Trailhead.idle with draining := true }, by decide +kernel⟩

theorem witness_StilesAndClosing_13 : ∃ (k : Nat) (s : State),
    k < 40 ∧ (s.th k).draining = true :=
  ⟨3, allOn.setTh 3 { Trailhead.idle with draining := true, ackWait := [9], tags := [(5, some ⟨0, ⟨false, 0, 15, [], 1, false, false, false⟩, 2, false, false⟩)] }, by decide +kernel⟩

theorem witness_StilesAndClosing_14 : ∃ (s : State),
    s.pageOpen 0x08 0 = true :=
  ⟨{ allOn.put R.STIL_TRACE_IDX 0 16383 with trace := [(16383, 8)] }, by decide +kernel⟩

theorem witness_Microwords_0 : ∃ (p : Nat) (s : State),
    s.inMicroword p 0 ∧ (∀ (q : Nat), q ∈ s.paneGang p → mayIssue s q (assemble (s.ctl q) (muOperand (muNow (s.ctl q)))) = true) :=
  ⟨3, running 3 { micro 0x00076851 with const := 3, stepA := 1, stepB := 2047 }, alone_micro (by decide +kernel) (alone_quiet (by decide +kernel) (by decide +kernel)) (by decide +kernel), alone_all (by decide +kernel) (by decide +kernel)⟩

theorem witness_Microwords_1 : ∃ (p : Nat) (s : State),
    s.inMicroword p 0 ∧ mayIssue s p (assemble (s.ctl p) (muOperand (muNow (s.ctl p)))) = false :=
  ⟨3, running 3 (micro 0x0007A85C), alone_micro (by decide +kernel) (alone_quiet (by decide +kernel) (by decide +kernel)) (by decide +kernel), by decide +kernel⟩

theorem witness_Microwords_2 : ∃ (p : Nat) (n : Nat) (s : State),
    s.inMicroword p 1 ∧ 0 < n ∧ (∀ (q : Nat), q ∈ s.paneGang p → (s.ctl q).lc0 = n ∧ n ≤ (s.ctl q).remaining ∧ bitsAt (muOperand (muNow (s.ctl q))) 2 2 = 0 ∧ bitsAt (muOperand (muNow (s.ctl q))) 13 3 ≠ 5) :=
  ⟨3, 2, running 3 { micro 0x10070851 with lc0 := 2, lc0r := 7, const := 3, stepA := 1, stepB := 2047 }, alone_micro (by decide +kernel) (alone_quiet (by decide +kernel) (by decide +kernel)) (by decide +kernel), by decide +kernel, alone_all (by decide +kernel) (by decide +kernel)⟩

theorem witness_Microwords_3 : ∃ (p : Nat) (n : Nat) (s : State),
    s.inMicroword p 2 ∧ 0 < n ∧ (∀ (q : Nat), q ∈ s.paneGang p → (s.ctl q).lc1 = n ∧ n ≤ (s.ctl q).remaining ∧ bitsAt (muOperand (muNow (s.ctl q))) 2 2 = 0 ∧ bitsAt (muOperand (muNow (s.ctl q))) 13 3 ≠ 5) :=
  ⟨3, 2, running 3 { micro 0x20000851 with lc1 := 2, lc1r := 7, const := 3, stepA := 1, stepB := 2047, remaining := 2 }, alone_micro (by decide +kernel) (alone_quiet (by decide +kernel) (by decide +kernel)) (by decide +kernel), by decide +kernel, alone_all (by decide +kernel) (by decide +kernel)⟩

theorem witness_Microwords_4 : ∃ (p : Nat) (s : State),
    s.inMicroword p 1 ∧ (s.ctl p).lc0 = 0 :=
  ⟨3, running 3 { micro 0x10070851 with lc0r := 7 }, alone_micro (by decide +kernel) (alone_quiet (by decide +kernel) (by decide +kernel)) (by decide +kernel), by decide +kernel⟩

theorem witness_Microwords_5 : ∃ (p : Nat) (s : State),
    s.inMicroword p 2 ∧ (s.ctl p).lc1 = 0 :=
  ⟨3, running 3 { micro 0x20070851 with lc1r := 7 }, alone_micro (by decide +kernel) (alone_quiet (by decide +kernel) (by decide +kernel)) (by decide +kernel), by decide +kernel⟩

theorem witness_Microwords_6 : ∃ (p : Nat) (s : State),
    s.inMicroword p 3 :=
  ⟨3, running 3 (micro 0x300796E8), alone_micro (by decide +kernel) (alone_quiet (by decide +kernel) (by decide +kernel)) (by decide +kernel)⟩

theorem witness_Microwords_7 : ∃ (p : Nat) (s : State),
    s.inMicroword p 4 :=
  ⟨3, running 3 (micro 0x400700E8), alone_micro (by decide +kernel) (alone_quiet (by decide +kernel) (by decide +kernel)) (by decide +kernel)⟩

theorem witness_Microwords_8 : ∃ (p : Nat) (s : State),
    s.inMicroword p 5 :=
  ⟨3, running 3 (micro 0x50074805), alone_micro (by decide +kernel) (alone_quiet (by decide +kernel) (by decide +kernel)) (by decide +kernel)⟩

theorem witness_Microwords_9 : ∃ (p : Nat) (s : State),
    s.inMicroword p 6 :=
  ⟨3, running 3 (micro 0x6007CFFF), alone_micro (by decide +kernel) (alone_quiet (by decide +kernel) (by decide +kernel)) (by decide +kernel)⟩

theorem witness_Microwords_10 : ∃ (p : Nat) (s : State),
    s.inMicroword p 7 :=
  ⟨3, running 3 { micro 0x70073000 with lc0 := 1 }, alone_micro (by decide +kernel) (alone_quiet (by decide +kernel) (by decide +kernel)) (by decide +kernel)⟩

theorem witness_Microwords_11 : ∃ (p : Nat) (s : State),
    s.inMicroword p 8 ∧ (∀ (q : Nat), q ∈ s.paneGang p → muOperand (muNow (s.ctl q)) < (s.ctl q).remaining) :=
  ⟨3, running 3 (micro 0x80070003), alone_micro (by decide +kernel) (alone_quiet (by decide +kernel) (by decide +kernel)) (by decide +kernel), alone_all (by decide +kernel) (by decide +kernel)⟩

theorem witness_Microwords_12 : ∃ (p : Nat) (s : State),
    s.inMicroword p 8 ∧ (∀ (q : Nat), q ∈ s.paneGang p → (s.ctl q).remaining ≤ muOperand (muNow (s.ctl q))) :=
  ⟨3, running 3 (micro 0x80070009), alone_micro (by decide +kernel) (alone_quiet (by decide +kernel) (by decide +kernel)) (by decide +kernel), alone_all (by decide +kernel) (by decide +kernel)⟩

theorem witness_Microwords_13 : ∃ (p : Nat) (s : State),
    p < 16 ∧ p ∈ s.paneGang p ∧ s.gangBase p = p ∧ s.taskNow p ≠ 0 ∧ s.gangQuiet p ∧ (∀ (q : Nat), q ∈ s.paneGang p → executing s q = true ∧ microBad (muNow (s.ctl q)) = true ∧ ∀ (r : MacroRun), r ∈ (s.ctl q).runs → r.seq = (s.ctl q).seq) :=
  ⟨3, (running 3 { micro 0x90070009 with queue := [7] }).put R.PCTL_TASK_TASK_ID 3 4, by unfold State.gangQuiet; decide +kernel⟩

theorem witness_Microwords_14 : ∃ (c : PaneCtl) (o : Nat),
    c.ttR < 256 ∧ c.ttC < 256 ∧ c.a < 2048 ∧ c.b < 2048 ∧ c.d < 2048 ∧ o < 65536 :=
  ⟨{ PaneCtl.idle with a := 2047, ttC := 255 }, 65535, by decide +kernel⟩

theorem witness_Microwords_15 : ∃ (c : PaneCtl) (o : Nat),
    c.ttR < 256 ∧ c.ttC < 256 ∧ c.a < 2048 ∧ c.b < 2048 ∧ c.d < 2048 ∧ o < 65536 :=
  ⟨{ PaneCtl.idle with a := 2047, ttC := 255 }, 65535, by decide +kernel⟩

theorem witness_Microwords_16 : ∃ (c : PaneCtl) (o : Nat),
    c.ttR < 256 ∧ c.ttC < 256 ∧ c.a < 2048 ∧ c.b < 2048 ∧ c.d < 2048 ∧ o < 65536 :=
  ⟨{ PaneCtl.idle with a := 2047, ttC := 255 }, 65535, by decide +kernel⟩

theorem witness_Microwords_17 : ∃ (c : PaneCtl) (o : Nat),
    c.ttR < 256 ∧ c.ttC < 256 ∧ c.a < 2048 ∧ c.b < 2048 ∧ c.d < 2048 ∧ o < 65536 :=
  ⟨{ PaneCtl.idle with a := 2047, ttC := 255 }, 65535, by decide +kernel⟩

theorem witness_Microwords_18 : ∃ (c : PaneCtl) (o : Nat),
    c.ttR < 256 ∧ c.ttC < 256 ∧ c.a < 2048 ∧ c.b < 2048 ∧ c.d < 2048 ∧ o < 65536 :=
  ⟨{ PaneCtl.idle with a := 2047, ttC := 255 }, 65535, by decide +kernel⟩

theorem witness_Microwords_19 : ∃ (c : PaneCtl) (o : Nat),
    c.ttR < 256 ∧ c.ttC < 256 ∧ c.a < 2048 ∧ c.b < 2048 ∧ c.d < 2048 ∧ o < 65536 :=
  ⟨{ PaneCtl.idle with a := 2047, ttC := 255 }, 65535, by decide +kernel⟩

theorem witness_Microwords_20 : ∃ (c : PaneCtl) (o : Nat),
    c.ttR < 256 ∧ c.ttC < 256 ∧ c.a < 2048 ∧ c.b < 2048 ∧ c.d < 2048 ∧ o < 65536 :=
  ⟨{ PaneCtl.idle with a := 2047, ttC := 255 }, 65535, by decide +kernel⟩

theorem witness_Microwords_21 : ∃ (c : PaneCtl) (o : Nat),
    c.ttR < 256 ∧ c.ttC < 256 ∧ c.a < 2048 ∧ c.b < 2048 ∧ c.d < 2048 ∧ o < 65536 :=
  ⟨{ PaneCtl.idle with a := 2047, ttC := 255 }, 65535, by decide +kernel⟩

theorem witness_Microwords_22 : ∃ (c : PaneCtl) (o : Nat),
    c.ttR < 256 ∧ c.ttC < 256 ∧ c.a < 2048 ∧ c.b < 2048 ∧ c.d < 2048 ∧ o < 65536 :=
  ⟨{ PaneCtl.idle with a := 2047, ttC := 255 }, 65535, by decide +kernel⟩

theorem witness_Microwords_23 : ∃ (c : PaneCtl) (o : Nat),
    c.ttR < 256 ∧ c.ttC < 256 ∧ c.a < 2048 ∧ c.b < 2048 ∧ c.d < 2048 ∧ o < 65536 :=
  ⟨{ PaneCtl.idle with a := 2047, ttC := 255 }, 65535, by decide +kernel⟩

theorem witness_Microwords_24 : ∃ (c : PaneCtl) (o : Nat),
    c.ttR < 256 ∧ c.ttC < 256 ∧ c.a < 2048 ∧ c.b < 2048 ∧ c.d < 2048 ∧ o < 65536 :=
  ⟨{ PaneCtl.idle with a := 2047, ttC := 255 }, 65535, by decide +kernel⟩

theorem witness_Microwords_25 : ∃ (c : PaneCtl) (o : Nat),
    c.ttR < 256 ∧ c.ttC < 256 ∧ c.a < 2048 ∧ c.b < 2048 ∧ c.d < 2048 ∧ o < 65536 :=
  ⟨{ PaneCtl.idle with a := 2047, ttC := 255 }, 65535, by decide +kernel⟩

theorem witness_Microwords_26 : ∃ (c : PaneCtl) (o : Nat),
    c.ttR < 256 ∧ c.ttC < 256 ∧ c.a < 2048 ∧ c.b < 2048 ∧ c.d < 2048 ∧ o < 65536 :=
  ⟨{ PaneCtl.idle with a := 2047, ttC := 255 }, 65535, by decide +kernel⟩

theorem witness_Microwords_27 : ∃ (c : PaneCtl) (o : Nat) (k : Nat),
    c.ttR < 256 ∧ c.ttC < 256 ∧ c.a < 2048 ∧ c.b < 2048 ∧ c.d < 2048 ∧ o < 65536 ∧ k < 8 :=
  ⟨{ PaneCtl.idle with a := 2047, ttC := 255 }, 65535, 7, by decide +kernel⟩

theorem witness_Microwords_28 : ∃ (p : Nat) (m : BitVec 64) (st : MacroStart) (s : State),
    s.endsMacro p m st ∧ bitOf (mopParam m) 4 = false ∧ mopOp m = 0x004 :=
  ⟨3, endedMacro 4 8 0, macroFound, endsMacroOp (endedMacro 4 8 0), by unfold State.endsMacro; decide +kernel⟩

theorem witness_Microwords_29 : ∃ (p : Nat) (m : BitVec 64) (st : MacroStart) (s : State),
    s.endsMacro p m st ∧ bitOf (mopParam m) 4 = false ∧ mopOp m = 0x005 :=
  ⟨3, endedMacro 5 8 4, macroFound, endsMacroOp (endedMacro 5 8 4), by unfold State.endsMacro; decide +kernel⟩

theorem witness_Microwords_30 : ∃ (p : Nat) (m : BitVec 64) (st : MacroStart) (s : State),
    s.endsMacro p m st ∧ bitOf (mopParam m) 4 = false ∧ mopOp m = 0x006 :=
  ⟨3, endedMacro 6 8 0, macroFound, endsMacroOp (endedMacro 6 8 0), by unfold State.endsMacro; decide +kernel⟩

theorem witness_Microwords_31 : ∃ (p : Nat) (m : BitVec 64) (st : MacroStart) (s : State),
    s.endsMacro p m st ∧ bitOf (mopParam m) 4 = false ∧ mopOp m = 0x007 ∧ bitOf (mopParam m) 0 = false :=
  ⟨3, endedMacro 7 8 0, macroFound, endsMacroOp (endedMacro 7 8 0), by unfold State.endsMacro; decide +kernel⟩

theorem witness_Microwords_32 : ∃ (p : Nat) (m : BitVec 64) (st : MacroStart) (s : State),
    s.endsMacro p m st ∧ bitOf (mopParam m) 4 = false ∧ mopOp m = 0x010 ∧ bitOf (mopParam m) 0 = false :=
  ⟨3, endedMacro 16 8 0, macroFound, endsMacroOp (endedMacro 16 8 0), by unfold State.endsMacro; decide +kernel⟩

theorem witness_Microwords_33 : ∃ (p : Nat) (m : BitVec 64) (st : MacroStart) (s : State),
    s.endsMacro p m st ∧ bitOf (mopParam m) 4 = false ∧ mopOp m = 0x011 ∧ bitOf (mopParam m) 0 = false :=
  ⟨3, endedMacro 17 8 0, macroFound, endsMacroOp (endedMacro 17 8 0), by unfold State.endsMacro; decide +kernel⟩

theorem witness_Microwords_34 : ∃ (p : Nat) (m : BitVec 64) (st : MacroStart) (s : State),
    s.endsMacro p m st ∧ bitOf (mopParam m) 4 = false ∧ mopOp m = 0x018 :=
  ⟨3, endedMacro 24 2 0, macroFound, endsMacroOp (endedMacro 24 2 0), by unfold State.endsMacro; decide +kernel⟩

theorem witness_Microwords_35 : ∃ (p : Nat) (m : BitVec 64) (st : MacroStart) (s : State),
    s.endsMacro p m st ∧ bitOf (mopParam m) 4 = false ∧ mopOp m = 0x028 :=
  ⟨3, endedMacro 40 1 0, macroFound, endsMacroOp (endedMacro 40 1 0), by unfold State.endsMacro; decide +kernel⟩

theorem witness_Microwords_36 : ∃ (p : Nat) (m : BitVec 64) (st : MacroStart) (s : State),
    let neg := bitOf (mopParam m) 2
    s.endsMacro p m st ∧ bitOf (mopParam m) 4 = false ∧ mopOp m = 0x029 ∧ neg = false :=
  ⟨3, endedMacro 41 1 0, macroFound, endsMacroOp (endedMacro 41 1 0), by unfold State.endsMacro; decide +kernel⟩

theorem witness_Microwords_37 : ∃ (p : Nat) (m : BitVec 64) (st : MacroStart) (s : State),
    s.endsMacro p m st ∧ bitOf (mopParam m) 4 = false ∧ mopOp m = 0x032 :=
  ⟨3, endedMacro 50 1 0, macroFound, endsMacroOp (endedMacro 50 1 0), by unfold State.endsMacro; decide +kernel⟩

theorem witness_Microwords_38 : ∃ (p : Nat) (m : BitVec 64) (st : MacroStart) (s : State),
    s.endsMacro p m st ∧ bitOf (mopParam m) 4 = false ∧ mopOp m = 0x02B :=
  ⟨3, endedMacro 43 1 0, macroFound, endsMacroOp (endedMacro 43 1 0), by unfold State.endsMacro; decide +kernel⟩

theorem witness_Microwords_39 : ∃ (p : Nat) (m : BitVec 64) (st : MacroStart) (s : State),
    s.endsMacro p m st ∧ bitOf (mopParam m) 4 = false ∧ mopOp m = 0x02C :=
  ⟨3, endedMacro 44 1 0, macroFound, endsMacroOp (endedMacro 44 1 0), by unfold State.endsMacro; decide +kernel⟩

theorem witness_PaneControllers_0 : ∃ (p : Nat) (tsn : Nat) (m : BitVec 64) (rest : List (BitVec 64 × Nat)) (s : State),
    p < 16 ∧ tblGet [] s.macroFlight p = (m, tsn) :: rest ∧ s.gangOn p = true ∧ s.gangInit p = false ∧ s.taskNow p ≠ 0 ∧ tsn = s.gangTsn p :=
  ⟨3, 0, 9, [(8, 1)], { tasked 3 PaneCtl.idle with macroFlight := [(3, [(9, 0), (8, 1)])] }, by decide +kernel⟩

theorem witness_PaneControllers_1 : ∃ (p : Nat) (tsn : Nat) (m : BitVec 64) (rest : List (BitVec 64 × Nat)) (s : State),
    p < 16 ∧ tblGet [] s.macroFlight p = (m, tsn) :: rest ∧ s.gangOn p = true ∧ s.gangInit p = false ∧ (s.taskNow p = 0 ∨ tsn ≠ s.gangTsn p) :=
  ⟨3, 5, 9, [], { tasked 3 PaneCtl.idle with macroFlight := [(3, [(9, 5)])] }, by decide +kernel⟩

theorem witness_PaneControllers_2 : ∃ (p : Nat) (m : BitVec 64) (s : State),
    let op := bitsAt m.toNat 0 10
    let w := bitsAt m.toNat 15 8
    let cost := fun (e : BitVec 64) => bitsAt e.toNat 32 8 * w * w + bitsAt e.toNat 24 8 * w + bitsAt e.toNat 12 12
    p < 16 ∧ p ∈ s.paneGang p ∧ bitsAt m.toNat 0 10 ≠ 0x1FF ∧ s.gangQuiet p ∧ (∀ (q : Nat), q ∈ s.paneGang p → s.expands q = true ∧ (s.ctl q).dispatch = true ∧ (s.ctl q).queue.head? = some m) ∧ (∀ (q : Nat), q ∈ s.paneGang p → bitsAt (tblGet 0 (s.ctl q).opTable op).toNat 0 12 ≠ 0 ∧ bitsAt (tblGet 0 (s.ctl q).opTable op).toNat 40 8 ≤ w ∧ w ≤ bitsAt (tblGet 0 (s.ctl q).opTable op).toNat 48 8) ∧ bitsAt m.toNat 10 5 = 0 ∧ op ≠ 0x1FC ∧ op ≠ 0x1FD ∧ (∀ (q : Nat), q ∈ s.paneGang p → 1 < cost (tblGet 0 (s.ctl q).opTable op)) :=
  ⟨3, 0x0123456789040012, tasked 3 { PaneCtl.idle with queue := [0x0123456789040012, 7], opTable := [(0x12, 0x2AFF080102003005)], dispatch := true }, by unfold State.gangQuiet; decide +kernel⟩

theorem witness_PaneControllers_3 : ∃ (p : Nat) (m : BitVec 64) (s : State),
    let op := bitsAt m.toNat 0 10
    let w := bitsAt m.toNat 15 8
    p < 16 ∧ p ∈ s.paneGang p ∧ bitsAt m.toNat 0 10 ≠ 0x1FF ∧ s.gangQuiet p ∧ (∀ (q : Nat), q ∈ s.paneGang p → s.expands q = true ∧ (s.ctl q).dispatch = true ∧ (s.ctl q).queue.head? = some m) ∧ (∀ (q : Nat), q ∈ s.paneGang p → bitsAt (tblGet 0 (s.ctl q).opTable op).toNat 0 12 ≠ 0 ∧ bitsAt (tblGet 0 (s.ctl q).opTable op).toNat 40 8 ≤ w ∧ w ≤ bitsAt (tblGet 0 (s.ctl q).opTable op).toNat 48 8) ∧ bitsAt m.toNat 10 5 = 0 ∧ op = 0x1FC :=
  ⟨3, 0x01234567000001FC, tasked 3 { PaneCtl.idle with queue := [0x01234567000001FC], opTable := [(0x1FC, 0x2AFF000000001005)], dispatch := true, const := 0x0909090908080808 }, by unfold State.gangQuiet; decide +kernel⟩

theorem witness_PaneControllers_4 : ∃ (p : Nat) (m : BitVec 64) (s : State),
    let op := bitsAt m.toNat 0 10
    let w := bitsAt m.toNat 15 8
    p < 16 ∧ p ∈ s.paneGang p ∧ bitsAt m.toNat 0 10 ≠ 0x1FF ∧ s.gangQuiet p ∧ (∀ (q : Nat), q ∈ s.paneGang p → s.expands q = true ∧ (s.ctl q).dispatch = true ∧ (s.ctl q).queue.head? = some m) ∧ (∀ (q : Nat), q ∈ s.paneGang p → bitsAt (tblGet 0 (s.ctl q).opTable op).toNat 0 12 ≠ 0 ∧ bitsAt (tblGet 0 (s.ctl q).opTable op).toNat 40 8 ≤ w ∧ w ≤ bitsAt (tblGet 0 (s.ctl q).opTable op).toNat 48 8) ∧ bitsAt m.toNat 10 5 = 0 ∧ op = 0x1FD :=
  ⟨3, 0x01234567000001FD, tasked 3 { PaneCtl.idle with queue := [0x01234567000001FD], opTable := [(0x1FD, 0x2AFF000000001005)], dispatch := true, const := 0x0909090908080808 }, by unfold State.gangQuiet; decide +kernel⟩

theorem witness_PaneControllers_5 : ∃ (p : Nat) (m : BitVec 64) (s : State),
    let op := bitsAt m.toNat 0 10
    p < 16 ∧ p ∈ s.paneGang p ∧ bitsAt m.toNat 0 10 ≠ 0x1FF ∧ s.gangQuiet p ∧ (∀ (q : Nat), q ∈ s.paneGang p → s.expands q = true ∧ (s.ctl q).dispatch = true ∧ (s.ctl q).queue.head? = some m) ∧ s.gangBase p = p ∧ s.taskNow p ≠ 0 ∧ (bitsAt m.toNat 10 5 ≠ 0 ∨ ∀ (q : Nat), q ∈ s.paneGang p → bitsAt (tblGet 0 (s.ctl q).opTable op).toNat 0 12 = 0) :=
  ⟨3, 0x0123456789040012, tasked 3 { PaneCtl.idle with queue := [0x0123456789040012, 7], dispatch := true }, by unfold State.gangQuiet; decide +kernel⟩

theorem witness_PaneControllers_6 : ∃ (p : Nat) (s : State),
    p < 16 ∧ p ∈ s.paneGang p ∧ s.gangQuiet p ∧ (∀ (q : Nat), q ∈ s.paneGang p → (s.ctl q).dispatch = false) ∧ (∀ (q : Nat), q ∈ s.paneGang p → (s.ctl q).upc = 0) :=
  ⟨3, tasked 3 { PaneCtl.idle with dispatch := false, remaining := 5 }, by unfold State.gangQuiet; decide +kernel⟩

theorem witness_PaneControllers_7 : ∃ (p : Nat) (s : State),
    p < 16 ∧ p ∈ s.paneGang p ∧ s.gangQuiet p ∧ (∀ (q : Nat), q ∈ s.paneGang p → (s.ctl q).dispatch = false) ∧ (∀ (q : Nat), q ∈ s.paneGang p → (s.ctl q).upc ≠ 0 ∧ (s.ctl q).remaining = 0 ∧ ∀ (r : MacroRun), r ∈ (s.ctl q).runs → r.seq = (s.ctl q).seq) :=
  ⟨3, tasked 3 { PaneCtl.idle with dispatch := false, upc := 6, mop := 0x12 }, by unfold State.gangQuiet; decide +kernel⟩

theorem witness_PaneControllers_8 : ∃ (p : Nat) (k : Nat) (rest : List Nat) (d : TaskDef) (s : State),
    p < 16 ∧ s.flag R.PANE_MODE_IN_GANG p = true ∧ s.gangBase p = p ∧ s.taskNow p = 0 ∧ s.tick.windowOpen = true ∧ p ∈ s.paneGang p ∧ s.gangOn p = true ∧ s.gangInit p = false ∧ (∀ (q : Nat), q ∈ s.paneGang p → s.pcState q = 1 ∧ (s.pane q).rebuilding = false) ∧ s.run p = ⟨k :: rest, (s.run p).lost, false⟩ ∧ s.entryTask k = some d ∧ d.depends ∉ (s.run p).lost :=
  ⟨3, 0, [4], ⟨21, 0, 0, 5000, 0, 9, 0, 0, []⟩, (ganged 3 PaneCtl.idle).setRun 3 ⟨[0, 4], [8], false⟩, by decide +kernel⟩

theorem witness_PaneControllers_9 : ∃ (p : Nat) (k : Nat) (rest : List Nat) (d : TaskDef) (s : State),
    p < 16 ∧ s.flag R.PANE_MODE_IN_GANG p = true ∧ s.gangBase p = p ∧ s.taskNow p = 0 ∧ s.tick.windowOpen = true ∧ p ∈ s.paneGang p ∧ s.gangOn p = true ∧ s.gangInit p = false ∧ (∀ (q : Nat), q ∈ s.paneGang p → s.pcState q = 1 ∧ (s.pane q).rebuilding = false) ∧ s.run p = ⟨k :: rest, (s.run p).lost, false⟩ ∧ s.entryTask k = some d ∧ d.depends ∈ (s.run p).lost ∧ rest = [] :=
  ⟨3, 0, [], ⟨21, 0, 0, 5000, 0, 9, 0, 0, []⟩, (ganged 3 PaneCtl.idle).setRun 3 ⟨[0], [9], false⟩, by decide +kernel⟩

theorem witness_PaneControllers_10 : ∃ (p : Nat) (s : State),
    p < 16 ∧ p ∈ s.paneGang p ∧ s.taskNow p ≠ 0 ∧ s.gangOn p = true ∧ (∀ (q : Nat), q ∈ s.paneGang p → (s.ctl q).dispatch = true ∧ (s.ctl q).inflight = [] ∧ (s.pane q).outb = [] ∧ (s.ctl q).queue.head?.map mopOp = some 0x1FF) :=
  ⟨3, tasked 3 { PaneCtl.idle with queue := [0x1FF], dispatch := true }, by decide +kernel⟩

theorem witness_PaneControllers_11 : ∃ (p : Nat) (s : State),
    p < 16 ∧ p ∈ s.paneGang p ∧ s.taskNow p ≠ 0 ∧ s.gangOn p = true ∧ (s.pane p).outb ≠ [] :=
  ⟨3, (tasked 3 { PaneCtl.idle with queue := [0x1FF], dispatch := true }).setPane 3 { Pane.idle with outb := [(4, [7])] }, by decide +kernel⟩

theorem witness_PaneControllers_12 : ∃ (p : Nat) (s : State),
    p < 16 ∧ p ∈ s.paneGang p ∧ s.gangBase p = p ∧ s.taskNow p ≠ 0 ∧ s.gangQuiet p ∧ s.pcState p ≠ 2 ∧ (∀ (q : Nat), q ∈ s.paneGang p → ∀ (r : MacroRun), r ∈ (s.ctl q).runs → r.seq = (s.ctl q).seq) :=
  ⟨3, tasked 3 { PaneCtl.idle with queue := [7, 8], inflight := [⟨5, 1⟩] }, by unfold State.gangQuiet; decide +kernel⟩

theorem witness_PaneControllers_13 : ∃ (p : Nat) (n : Nat) (g : Bool) (rest : List (Bool × Nat)) (s : State),
    p < 16 ∧ s.domainOn (14 + p) = true ∧ (s.ctl p).results = (g, n) :: rest :=
  ⟨3, 70, true, [(false, 3)], running 3 { PaneCtl.idle with results := [(true, 70), (false, 3)] }, by decide +kernel⟩

theorem witness_ProcessingElements_0 : ∃ (p : Nat) (q : Nat) (r : Nat) (c : Nat) (i : Issued) (rest : List Issued) (s : State),
    p < 16 ∧ q ∈ s.paneGang p ∧ r < 256 ∧ c < 256 ∧ (∀ (j : Nat), j ∈ s.paneGang p → (s.ctl j).inflight ≠ [] ∧ (s.pane j).errs = []) ∧ (s.ctl q).inflight = i :: rest ∧ (bitsAt i.op.toNat 12 3 = 7 → s.isTwin q = true) ∧ tblWf [] (s.pane q).inb = true ∧ s.gangOn p = true ∧ stalled s p = false ∧ (∀ (j : Nat), j ∈ s.paneGang p → PaneCtl.openRun { s.ctl j with inflight := (s.ctl j).inflight.tail } = true ∧ (∀ (e : MacroRun), e ∈ (s.ctl j).runs → e.start = none → e.edgeCfg = (s.pane j).edgeCfg ∧ e.edges = (s.pane j).edges) ∧ s.paneGang (s.gangBase j) = s.paneGang p) :=
  ⟨3, 3, 0, 7, ⟨0x96e800a01803836a, 1⟩, [], inFlight [0x96e800a01803836a], by decide +kernel⟩

theorem witness_ProcessingElements_1 : ∃ (p : Nat) (i : Issued) (s : State),
    p < 16 ∧ s.flag R.PANE_MODE_IN_GANG p = false ∧ (s.pane p).errs = [] ∧ (s.ctl p).inflight = [i] ∧ bitsAt i.op.toNat 12 3 ≠ 7 ∧ bitOf i.op.toNat 0 = true ∧ (s.ctl p).dispatch = true ∧ (s.ctl p).red = none ∧ s.domainOn (14 + p) = true ∧ (∀ (e : MacroRun), e ∈ (s.ctl p).runs → e.start = none → e.edgeCfg = (s.pane p).edgeCfg ∧ e.edges = (s.pane p).edges) ∧ tblWf [] (s.pane p).inb = true :=
  ⟨3, ⟨0x96e800a01803e401, 1⟩, inFlight [0x96e800a01803e401], by decide +kernel⟩

theorem witness_ProcessingElements_2 : ∃ (p : Nat) (s : State),
    p < 16 ∧ (s.pane p).initRunning = true :=
  ⟨3, allOn.setPane 3 { somePane with initRunning := true }, by decide +kernel⟩

theorem witness_ProcessingElements_3 : ∃ (p : Nat) (s : State),
    p < 16 ∧ s.domainOn (14 + p) = true ∧ s.pcState p ≤ 1 ∧ (s.pane p).errs = [] :=
  ⟨3, (allOn.setPane 3 somePane).put R.PANE_SCRUB_NEXT_ADDR 3 2000, by decide +kernel⟩

theorem witness_ProcessingElements_4 : ∃ (p : Nat) (s : State) (e : Nat) (j : Nat) (v : Nat) (pat : BitVec 76),
    let a := s.get R.PANE_SCRUB_NEXT_ADDR p
    let n := s.get R.PANE_SCRUB_ROWS_PER_TICK p
    p < 16 ∧ s.domainOn (14 + p) = true ∧ s.pcState p ≤ 1 ∧ (s.pane p).errs = [(a * 1024 + e, pat)] ∧ e < 1024 ∧ decodeWord pat.toNat = .corrected j v ∧ n = 1 ∧ a < 2047 ∧ s.get R.PANE_STEER_CTL_CE_THRESH p = 0 :=
  ⟨3, ((allOn.setPane 3 { somePane with errs := [(5 * 1024 + 13, 1)] }).put R.PANE_SCRUB_NEXT_ADDR 3 5).put R.PANE_SCRUB_ROWS_PER_TICK 3 1 |>.put R.PANE_STEER_CTL_CE_THRESH 3 0, 13, 0, 1, 1, by decide +kernel⟩

theorem witness_ProcessingElements_5 : ∃ (p : Nat) (s : State),
    p < 16 ∧ (s.pane p).rebuilding = true ∧ (s.pane p).rebuildBad = false :=
  ⟨3, allOn.setPane 3 { somePane with rebuilding := true }, by decide +kernel⟩

theorem witness_ProcessingElements_6 : ∃ (p : Nat) (s : State),
    p < 16 ∧ (s.pane p).rebuilding = true ∧ (s.pane p).rebuildBad = true ∧ s.flag R.PANE_MODE_IN_GANG p = false :=
  ⟨3, allOn.setPane 3 { somePane with rebuilding := true, rebuildBad := true }, by decide +kernel⟩

theorem witness_ProcessingElements_7 : ∃ (p : Nat) (s : State),
    p < 16 ∧ s.pageOpen 0x01 p = true ∧ s.pcState p = 0 :=
  ⟨3, allOn, by decide +kernel⟩

theorem witness_ProcessingElements_8 : ∃ (p : Nat) (s : State),
    p < 16 ∧ s.pageOpen 0x01 p = true ∧ s.pcState p ≠ 0 ∧ s.get (R.HDR_ERR_CODE_CODE.on 0x01) p = 0 :=
  ⟨3, running 3 PaneCtl.idle, by decide +kernel⟩

theorem witness_ProcessingElements_9 : ∃ (p : Nat) (s : State),
    p < 16 ∧ s.flag R.PANE_BIST_STAT_BUSY p = true :=
  ⟨3, allOn.put R.PANE_BIST_STAT_BUSY 3 1, by decide +kernel⟩

theorem witness_ProcessingElements_10 : ∃ (p : Nat) (col : Nat) (seg : Nat) (lc : Nat) (s : State),
    p < 16 ∧ s.flag R.PANE_BIST_STAT_BUSY p = true ∧ col < 264 ∧ logCol s p col = some (seg, lc) ∧ s.flag R.PANE_STEER_CTL_AUTO p = true ∧ s.flag (R.PANE_STEER_A_EN.nth seg) p = false :=
  ⟨3, 70, 1, 4, allOn.put R.PANE_BIST_STAT_BUSY 3 1, by decide +kernel⟩

theorem witness_ProcessingElements_11 : ∃ (p : Nat) (k : Nat) (s : State),
    p < 16 ∧ s.pageOpen 0x02 p = true ∧ k < 6 :=
  ⟨3, 4, (allOn.setCtl 3 { PaneCtl.idle with hamp := [(4, 0x123456789A)], hampFrozen := true }).setPane 3 somePane, by decide +kernel⟩

theorem witness_ProcessingElements_12 : ∃ (slat : Nat) (quad : Nat) (c : RowCmd) (rest : List RowCmd) (s : State),
    let width := 2 ^ bitsAt c.cmd 1 3
    slat < 128 ∧ quad < 4 ∧ tblGet none (s.port slat).run quad = none ∧ tblGet [] (s.port slat).queue quad = c :: rest ∧ s.domainOn (14 + slat / 8) = true ∧ tblGet none (s.port slat).ahead quad = none ∧ rowBad s slat c.cmd c.addr = false ∧ (bitOf c.cmd 23 = true ∨ c.addr + 4 * width ≤ 65536 ∧ ∀ (k : Nat), k < 32 → (s.mem (engKey 4 slat)).decode true (c.addr / 8 + k) = .clean) :=
  ⟨26, 1, ⟨0x020646, 64, 0, []⟩, [⟨1, 2, 0, []⟩], rowPort [⟨0x020646, 64, 0, []⟩, ⟨1, 2, 0, []⟩] none, by decide +kernel⟩

theorem witness_ProcessingElements_13 : ∃ (slat : Nat) (quad : Nat) (c : RowCmd) (rest : List RowCmd) (s : State),
    slat < 128 ∧ quad < 4 ∧ tblGet none (s.port slat).run quad = none ∧ tblGet [] (s.port slat).queue quad = c :: rest ∧ s.domainOn (14 + slat / 8) = true ∧ tblGet none (s.port slat).ahead quad = none ∧ rowBad s slat c.cmd c.addr = true :=
  ⟨26, 1, ⟨0x020646, 66, 0, []⟩, [], rowPort [⟨0x020646, 66, 0, []⟩] none, by decide +kernel⟩

theorem witness_ProcessingElements_14 : ∃ (slat : Nat) (quad : Nat) (c : RowCmd) (s : State),
    let p := slat / 8
    let row := 32 * (if bitOf c.cmd 22 then (slat % 8) ^^^ 1 else slat % 8) + bitsAt c.cmd 17 5
    let u := row * 8 + bitsAt c.cmd 14 3
    slat < 128 ∧ quad < 4 ∧ tblGet none (s.port slat).run quad = some c ∧ s.domainOn (14 + slat / 8) = true ∧ (s.port slat).held = none ∧ occMismatch (s.pane (slat / 8)).inb (s.pane (slat / 8)).inOcc = none ∧ occMismatch (s.pane (slat / 8)).outb (s.pane (slat / 8)).outOcc = none ∧ bitOf c.cmd 23 = false ∧ (tblGet [] (s.pane p).inb u).length < 16 ∧ bitsAt c.cmd 1 3 ≤ 5 :=
  ⟨26, 1, ⟨0x020646, 64, 1, [0x12345678, 0x9ABCDEF0, 1, 2, 3, 4, 5, 6]⟩, rowPort [] (some ⟨0x020646, 64, 1, [0x12345678, 0x9ABCDEF0, 1, 2, 3, 4, 5, 6]⟩), by decide +kernel⟩

theorem witness_ProcessingElements_15 : ∃ (slat : Nat) (quad : Nat) (c : RowCmd) (s : State),
    let p := slat / 8
    let row := 32 * (if bitOf c.cmd 22 then (slat % 8) ^^^ 1 else slat % 8) + bitsAt c.cmd 17 5
    let u := row * 8 + bitsAt c.cmd 14 3
    slat < 128 ∧ quad < 4 ∧ tblGet none (s.port slat).run quad = some c ∧ s.domainOn (14 + slat / 8) = true ∧ (s.port slat).held = none ∧ occMismatch (s.pane (slat / 8)).inb (s.pane (slat / 8)).inOcc = none ∧ occMismatch (s.pane (slat / 8)).outb (s.pane (slat / 8)).outOcc = none ∧ bitOf c.cmd 23 = false ∧ 16 ≤ (tblGet [] (s.pane p).inb u).length :=
  ⟨26, 1, ⟨0x020646, 64, 1, [0x12345678, 0x9ABCDEF0, 1, 2, 3, 4, 5, 6]⟩, (rowPort [] (some ⟨0x020646, 64, 1, [0x12345678, 0x9ABCDEF0, 1, 2, 3, 4, 5, 6]⟩)).setPane 3 { Pane.idle with inb := [((32 * 2 + 1) * 8, List.replicate 16 4)], inOcc := [((32 * 2 + 1) * 8, 16)] }, by decide +kernel⟩

theorem witness_ProcessingElements_16 : ∃ (slat : Nat) (quad : Nat) (c : RowCmd) (s : State),
    let p := slat / 8
    let row := 32 * (if bitOf c.cmd 22 then (slat % 8) ^^^ 1 else slat % 8) + bitsAt c.cmd 17 5
    let u := row * 8 + bitsAt c.cmd 14 3
    slat < 128 ∧ quad < 4 ∧ tblGet none (s.port slat).run quad = some c ∧ s.domainOn (14 + slat / 8) = true ∧ (s.port slat).held = none ∧ occMismatch (s.pane (slat / 8)).inb (s.pane (slat / 8)).inOcc = none ∧ occMismatch (s.pane (slat / 8)).outb (s.pane (slat / 8)).outOcc = none ∧ bitOf c.cmd 23 = false ∧ (tblGet [] (s.pane p).inb u).length < 16 ∧ (s.ctl p).hampFrozen = false ∧ s.taskNow (s.gangBase p) ≠ 0 ∧ s.gangBase p = p ∧ s.paneGang p = [p] :=
  ⟨26, 1, ⟨0x020646, 64, 1, [0x12345678, 0x9ABCDEF0]⟩, { rowPort [] (some ⟨0x020646, 64, 1, [0x12345678, 0x9ABCDEF0]⟩) with regs := (((rowPort [] none).put R.PCTL_TASK_TASK_ID 3 9)).regs }, by decide +kernel⟩

theorem witness_ProcessingElements_17 : ∃ (slat : Nat) (quad : Nat) (c : RowCmd) (s : State),
    let p := slat / 8
    let row := 32 * (if bitOf c.cmd 22 then (slat % 8) ^^^ 1 else slat % 8) + bitsAt c.cmd 17 5
    let u := row * 8 + bitsAt c.cmd 14 3
    slat < 128 ∧ quad < 4 ∧ tblGet none (s.port slat).run quad = some c ∧ s.domainOn (14 + slat / 8) = true ∧ (s.port slat).held = none ∧ occMismatch (s.pane (slat / 8)).inb (s.pane (slat / 8)).inOcc = none ∧ occMismatch (s.pane (slat / 8)).outb (s.pane (slat / 8)).outOcc = none ∧ bitOf c.cmd 23 = true ∧ tblGet [] (s.pane p).outb u = [] :=
  ⟨26, 1, ⟨0x820646, 64, 1, []⟩, rowPort [] (some ⟨0x820646, 64, 1, []⟩), by decide +kernel⟩

theorem witness_ProcessingElements_18 : ∃ (slat : Nat) (quad : Nat) (c : RowCmd) (s : State) (entry : BitVec 34) (more : List (BitVec 34)),
    let p := slat / 8
    let row := 32 * (if bitOf c.cmd 22 then (slat % 8) ^^^ 1 else slat % 8) + bitsAt c.cmd 17 5
    let u := row * 8 + bitsAt c.cmd 14 3
    let k := c.next
    let planes := bitsAt c.cmd 9 5 + 1
    slat < 128 ∧ quad < 4 ∧ tblGet none (s.port slat).run quad = some c ∧ s.domainOn (14 + slat / 8) = true ∧ (s.port slat).held = none ∧ occMismatch (s.pane (slat / 8)).inb (s.pane (slat / 8)).inOcc = none ∧ occMismatch (s.pane (slat / 8)).outb (s.pane (slat / 8)).outOcc = none ∧ bitOf c.cmd 23 = true ∧ tblGet [] (s.pane p).outb u = entry :: more ∧ entryOk entry = true ∧ k + 1 < planes :=
  ⟨26, 1, ⟨0x820646, 64, 1, []⟩, (rowPort [] (some ⟨0x820646, 64, 1, []⟩)).setPane 3 { Pane.idle with outb := [((32 * 2 + 1) * 8, [hampEntry 0xF00D, 5])], outOcc := [((32 * 2 + 1) * 8, 2)] }, hampEntry 0xF00D, [5], by decide +kernel⟩

theorem witness_ProcessingElements_19 : ∃ (slat : Nat) (quad : Nat) (c : RowCmd) (s : State) (entry : BitVec 34) (more : List (BitVec 34)),
    let p := slat / 8
    let row := 32 * (if bitOf c.cmd 22 then (slat % 8) ^^^ 1 else slat % 8) + bitsAt c.cmd 17 5
    let u := row * 8 + bitsAt c.cmd 14 3
    let k := c.next
    let planes := bitsAt c.cmd 9 5 + 1
    slat < 128 ∧ quad < 4 ∧ tblGet none (s.port slat).run quad = some c ∧ s.domainOn (14 + slat / 8) = true ∧ (s.port slat).held = none ∧ occMismatch (s.pane (slat / 8)).inb (s.pane (slat / 8)).inOcc = none ∧ occMismatch (s.pane (slat / 8)).outb (s.pane (slat / 8)).outOcc = none ∧ bitOf c.cmd 23 = true ∧ tblGet [] (s.pane p).outb u = entry :: more ∧ entryOk entry = true ∧ k = 0 ∧ planes = 1 ∧ c.words = [] ∧ bitsAt c.cmd 1 3 ≤ 5 ∧ bitsAt c.cmd 4 5 < 2 ^ bitsAt c.cmd 1 3 ∧ c.addr % 4 = 0 ∧ c.addr + 128 ≤ 65536 ∧ (∀ (j : Nat), j < 32 → (s.mem (engKey 4 slat)).decode true (c.addr / 8 + j) = .clean) :=
  ⟨26, 1, ⟨0x820014, 64, 0, []⟩, (rowPort [] (some ⟨0x820014, 64, 0, []⟩)).setPane 3 { Pane.idle with outb := [((32 * 2 + 1) * 8, [hampEntry 0xF00D])], outOcc := [((32 * 2 + 1) * 8, 1)] }, hampEntry 0xF00D, [], by decide +kernel⟩

theorem witness_ProcessingElements_20 : ∃ (i : Initiator) (p : Nat) (q : NetReq) (s : State),
    let addr := q.addr % 2 ^ 24 / 8192
    let ok := i.src = p ∧ 1 ≤ i.init ∧ i.init ≤ 8 ∧ s.pcState p = 0 ∧ (s.pane p).initRunning = false ∧ s.flag R.PANE_BIST_STAT_BUSY p = false ∧
        q.rotate = false ∧ q.flits = 1 ∧ q.dma = true
    p < 16 ∧ s.targetOpen (.plane p (q.addr % 2 ^ 24)) = true ∧ ok ∧ (s.pane p).errs = [] ∧ q.write = true ∧ q.data.length = 64 :=
  ⟨⟨3, 1⟩, 3, ⟨true, 5 * 8192 + 128, 15, List.replicate 64 7, 1, false, false, true⟩, allOn.setPane 3 somePane, by decide +kernel⟩

theorem witness_ProcessingElements_21 : ∃ (i : Initiator) (p : Nat) (q : NetReq) (s : State),
    let addr := q.addr % 2 ^ 24 / 8192
    let ok := i.src = p ∧ 1 ≤ i.init ∧ i.init ≤ 8 ∧ s.pcState p = 0 ∧ (s.pane p).initRunning = false ∧ s.flag R.PANE_BIST_STAT_BUSY p = false ∧
        q.rotate = false ∧ q.flits = 1 ∧ q.dma = true
    p < 16 ∧ s.targetOpen (.plane p (q.addr % 2 ^ 24)) = true ∧ ok ∧ (s.pane p).errs = [] ∧ q.write = false :=
  ⟨⟨3, 1⟩, 3, ⟨false, 5 * 8192, 15, [], 1, false, false, true⟩, allOn.setPane 3 somePane, by decide +kernel⟩

theorem witness_ProcessingElements_22 : ∃ (i : Initiator) (p : Nat) (q : NetReq) (s : State),
    let addr := q.addr % 2 ^ 24 / 8192
    let ok := i.src = p ∧ 1 ≤ i.init ∧ i.init ≤ 8 ∧ s.pcState p = 0 ∧ (s.pane p).initRunning = false ∧ s.flag R.PANE_BIST_STAT_BUSY p = false ∧
        q.rotate = false ∧ q.flits = 1 ∧ q.dma = true
    p < 16 ∧ s.targetOpen (.plane p (q.addr % 2 ^ 24)) = true ∧ (¬ok) ∧ s.get (R.HDR_ERR_CODE_CODE.on 0x01) p = 0 :=
  ⟨⟨3, 9⟩, 3, ⟨false, 5 * 8192, 15, [], 1, false, false, true⟩, allOn.setPane 3 somePane, by decide +kernel⟩

theorem witness_DisplayHeads_0 : ∃ (h : Nat) (s : State),
    let x := s.head h
    h < 4 ∧ s.domainOn 5 = true ∧ s.flag (R.HDR_CTL_ENABLE.on 0x0D) h = true ∧ s.flag R.TICK_RUN_RUN 0 = true ∧ 0 < x.due ∧ s.flag R.GLAZ_LOAD_STAT_BUSY 0 = false :=
  ⟨1, (glazed 6434645).setHead 1 { Head.idle with due := 1, frames := 4294967295 }, by decide +kernel⟩

theorem witness_DisplayHeads_1 : ∃ (h : Nat) (s : State),
    let x := s.head h
    h < 4 ∧ s.domainOn 5 = true ∧ s.flag (R.HDR_CTL_ENABLE.on 0x0D) h = true ∧ s.flag R.TICK_RUN_RUN 0 = true ∧ x.due = 0 :=
  ⟨1, glazed 6434645, by decide +kernel⟩

theorem witness_DisplayHeads_2 : ∃ (h : Nat) (k : Nat) (it : Itinerary) (hd : HeadRec) (r : RegionRec) (s : State),
    h < 4 ∧ s.domainOn 5 = true ∧ s.domainOn 9 = true ∧ s.linkUp = true ∧ s.flag (R.HDR_CTL_ENABLE.on 0x0D) h = true ∧ s.porter.shown = some it ∧ it.heads[h]? = some hd ∧ hd.enable = true ∧ (s.head h).nextLine < hd.height ∧ regionsAt it h (s.head h).nextLine = [(k, r)] ∧ r.x = 0 ∧ r.w = hd.width ∧ it.hasTask s.porter.shownVariant r.task = false ∧ (s.head h).scan = none ∧ 0 < (s.head h).due ∧ (s.head h).lines.length < 2 :=
  ⟨1, 0, fillPlan, ⟨true, 1, 2, 8, 4, 0, 0⟩, ⟨1, 0, 0, 8, 4, 5, 0x1234⟩, filled { Head.idle with due := 1 }, by decide +kernel⟩

theorem witness_DisplayHeads_3 : ∃ (h : Nat) (k : Nat) (it : Itinerary) (hd : HeadRec) (r : RegionRec) (s : State) (c : Scan),
    h < 4 ∧ s.domainOn 5 = true ∧ s.domainOn 9 = true ∧ s.linkUp = true ∧ s.flag (R.HDR_CTL_ENABLE.on 0x0D) h = true ∧ s.porter.shown = some it ∧ it.heads[h]? = some hd ∧ hd.enable = true ∧ (s.head h).nextLine < hd.height ∧ regionsAt it h (s.head h).nextLine = [(k, r)] ∧ r.x = 0 ∧ r.w = hd.width ∧ it.hasTask s.porter.shownVariant r.task = false ∧ (s.head h).scan = some c ∧ c.source = 1 ∧ c.cut = none ∧ (s.head h).lines.length = 2 :=
  ⟨1, 0, fillPlan, ⟨true, 1, 2, 8, 4, 0, 0⟩, ⟨1, 0, 0, 8, 4, 5, 0x1234⟩, scanning (checkedScan 1) (filled { Head.idle with nextLine := 2, lines := [(0, [1, 2]), (1, [3])] }), checkedScan 1, by decide +kernel⟩

theorem witness_DisplayHeads_4 : ∃ (h : Nat) (c : Scan) (s : State),
    h < 4 ∧ s.domainOn 5 = true ∧ s.flag (R.HDR_CTL_ENABLE.on 0x0D) h = true ∧ (s.head h).scan = some c ∧ c.source = 1 ∧ c.cut = none ∧ (s.head h).nextLine < s.get R.HEAD_VTIME_ACTIVE h :=
  ⟨1, checkedScan 1, scanning (checkedScan 1) (filled { Head.idle with nextLine := 3 }), by decide +kernel⟩

theorem witness_DisplayHeads_5 : ∃ (h : Nat) (s : State),
    let x := s.head h
    h < 4 ∧ s.pageOpen 0x0D h = true ∧ x.copying = true ∧ s.domainOn 5 = true :=
  ⟨1, allOn.setHead 1 { Head.idle with copying := true, lut := [(4, 5)] }, by decide +kernel⟩

theorem witness_DisplayHeads_6 : ∃ (h : Nat) (s : State),
    let x := s.head h
    let table := s.get R.HEAD_LUT_IDX_TABLE h
    let k := s.get R.HEAD_LUT_IDX_INDEX h
    h < 4 ∧ s.pageOpen 0x0D h = true ∧ x.copying = false ∧ k < (if table = 0 then 4913 else 1024) :=
  ⟨1, (allOn.put R.HEAD_LUT_IDX_TABLE 1 1).put R.HEAD_LUT_IDX_INDEX 1 1023, by decide +kernel⟩

theorem witness_DisplayHeads_7 : ∃ (h : Nat) (s : State),
    let x := s.head h
    h < 4 ∧ s.pageOpen 0x0D h = true ∧ x.copying = true ∧ s.get (R.HDR_ERR_CODE_CODE.on 0x0D) h = 0 :=
  ⟨1, allOn.setHead 1 { Head.idle with copying := true }, by decide +kernel⟩

theorem witness_DisplayHeads_8 : ∃ (h : Nat) (s : State),
    let table := s.get R.HEAD_LUT_IDX_TABLE h
    let k := s.get R.HEAD_LUT_IDX_INDEX h
    h < 4 ∧ s.pageOpen 0x0D h = true ∧ k < (if table = 0 then 4913 else 1024) :=
  ⟨1, ((allOn.setHead 1 { Head.idle with lutSpare := [(8192 + 7, 99)] }).put R.HEAD_LUT_IDX_TABLE 1 1).put R.HEAD_LUT_IDX_INDEX 1 7, by decide +kernel⟩

theorem witness_DisplayHeads_9 : ∃ (h : Nat) (s : State),
    h < 4 ∧ s.pageOpen 0x0D h = true :=
  ⟨1, allOn, by decide +kernel⟩

theorem witness_DisplayHeads_10 : ∃ (h : Nat) (s : State),
    h < 4 ∧ s.get R.HEAD_LINK_STAT_STATE h = 1 ∧ s.domainOn 5 = true :=
  ⟨1, allOn.put R.HEAD_LINK_STAT_STATE 1 1, by decide +kernel⟩

theorem witness_DisplayHeads_11 : ∃ (h : Nat) (s : State),
    h < 4 ∧ s.get R.HEAD_LINK_STAT_STATE h = 2 ∧ (s.get R.HEAD_PHY_PRIMARY h = 1 ∨ s.get R.HEAD_PHY_PRIMARY h = 2) ∧ s.domainOn 5 = true :=
  ⟨1, (allOn.put R.HEAD_LINK_STAT_STATE 1 2).put R.HEAD_PHY_PRIMARY 1 2, by decide +kernel⟩

theorem witness_DisplayHeads_12 : ∃ (h : Nat) (s : State),
    h < 4 ∧ s.domainOn 5 = true :=
  ⟨1, allOn, by decide +kernel⟩

theorem witness_DisplayHeads_13 : ∃ (h : Nat) (s : State),
    h < 4 ∧ s.pageOpen 0x0D h = true ∧ s.flag R.HEAD_SIDE_CMD_GO h = false :=
  ⟨1, allOn, by decide +kernel⟩

theorem witness_DisplayHeads_14 : ∃ (h : Nat) (s : State),
    h < 4 ∧ s.pageOpen 0x0D h = true ∧ s.flag R.HEAD_SIDE_CMD_GO h = true ∧ s.get (R.HDR_ERR_CODE_CODE.on 0x0D) h = 0 :=
  ⟨1, allOn.put R.HEAD_SIDE_CMD_GO 1 1, by decide +kernel⟩

theorem witness_DisplayHeads_15 : ∃ (h : Nat) (s : State),
    h < 4 ∧ s.flag R.HEAD_SIDE_CMD_GO h = true ∧ s.domainOn 5 = true :=
  ⟨1, ((allOn.put R.HEAD_SIDE_CMD_GO 1 1).put R.HEAD_SIDE_CMD_READ 1 1).put R.HEAD_SIDE_CMD_LEN_M1 1 4, by decide +kernel⟩

theorem witness_DisplayHeads_16 : ∃ (h : Nat) (s : State) (m : List Byte) (i : FrameInfo),
    h < 4 ∧ s.linkUp = true ∧ s.domainOn 5 = true ∧ s.flag (R.HDR_CTL_ENABLE.on 0x0D) h = true ∧ (s.side 0).messages = [m] ∧ m = packInfo h i ∧ i.variant < 256 ∧ i.picSnap < 2 ^ 32 ∧ i.itinId < 2 ^ 32 ∧ i.surfCount = i.surfs.length ∧ i.surfs.length ≤ 6 ∧ (∀ k, k ∈ i.surfs → k < 2 ^ 16) :=
  ⟨1, (filled Head.idle).setSide 0 { LintelSide.idle with messages := [packInfo 1 ⟨true, false, 3, 5, 7, 2, [1, 2]⟩] }, packInfo 1 ⟨true, false, 3, 5, 7, 2, [1, 2]⟩, ⟨true, false, 3, 5, 7, 2, [1, 2]⟩, by decide +kernel⟩

theorem witness_DisplayHeads_17 : ∃ (h : Nat) (s : State),
    h < 4 ∧ s.linkUp = true ∧ s.domainOn 5 = true ∧ s.flag (R.HDR_CTL_ENABLE.on 0x0D) h = true ∧ (s.side 0).messages.find? (isInfo h) = none :=
  ⟨1, (filled Head.idle).setSide 0 { LintelSide.idle with messages := [packInfo 2 ⟨true, false, 3, 5, 7, 2, [1, 2]⟩] }, by decide +kernel⟩

theorem witness_DisplayHeads_18 : ∃ (h : Nat) (c : Scan) (s : State),
    h < 4 ∧ s.domainOn 5 = true ∧ s.flag (R.HDR_CTL_ENABLE.on 0x0D) h = true ∧ (s.head h).scan = some c ∧ c.cut = none ∧ (∀ (k : Nat), k ∈ headTts s.glazRd h → c.seen = true → c.suspended = false → k ∈ c.checked) ∧ c.source = 2 :=
  ⟨1, { checkedScan 2 with seen := false }, scanning { checkedScan 2 with seen := false } (glazed 6434645), by decide +kernel⟩

theorem witness_DisplayHeads_19 : ∃ (h : Nat) (c : Scan) (s : State) (i : FrameInfo),
    h < 4 ∧ s.domainOn 5 = true ∧ s.flag (R.HDR_CTL_ENABLE.on 0x0D) h = true ∧ (s.head h).scan = some c ∧ c.cut = none ∧ (∀ (k : Nat), k ∈ headTts s.glazRd h → c.seen = true → c.suspended = false → k ∈ c.checked) ∧ c.source = 1 ∧ (s.head h).info = some i :=
  ⟨1, { checkedScan 1 with checked := [0] }, scanning { checkedScan 1 with checked := [0] } ((glazed 6434645).setHead 1 { Head.idle with info := some ⟨true, false, 3, 5, 7, 2, [1, 2]⟩ }), ⟨true, false, 3, 5, 7, 2, [1, 2]⟩, by decide +kernel⟩

theorem witness_GlazingChecks_0 : ∃ (slot : Nat) (s : State),
    slot < 32 ∧ s.pageOpen 0x0E 0 = true ∧ s.flag R.GLAZ_LOAD_STAT_BUSY 0 = false :=
  ⟨3, scanning (checkedScan 2) (glazed 6434645), by decide +kernel⟩

theorem witness_GlazingChecks_1 : ∃ (slot : Nat) (s : State),
    slot < 32 ∧ s.pageOpen 0x0E 0 = true ∧ s.flag R.GLAZ_LOAD_STAT_BUSY 0 = true ∧ s.get (R.HDR_ERR_CODE_CODE.on 0x0E) 0 = 0 :=
  ⟨3, allOn.put R.GLAZ_LOAD_STAT_BUSY 0 1, by decide +kernel⟩

theorem witness_GlazingChecks_2 : ∃ (head : List Byte) (rest : List Byte) (s : State),
    let a := s.get R.GLAZ_LOAD_ADDR_OFFSET 0
    let slot := s.get R.GLAZ_LOAD_CTL_SLOT 0
    let payload := rest.take (contLen head)
    let g := { s.glaz with sram := memWrite 0 s.glaz.sram 0 payload, errs := tblDrop s.glaz.errs 0 ((payload.length + 7) / 8) }
    s.domainOn 4 = true ∧ s.flag R.GLAZ_LOAD_STAT_BUSY 0 = true ∧ s.flash.errs = [] ∧ (List.range 32).map (fun k => flashByte s.flash (a + k)) = head ∧ contSteps (fun k => k == 2) slot false head s = 0 ∧ contLen head ≤ sramSize ∧ a + contSize head ≤ journalBase ∧ (List.range (contSize head - 32)).map (fun k => flashByte s.flash (a + 32 + k)) = rest ∧ contTagOk slot (head ++ rest) s = true ∧ assetCheck (fun a n => g.num a n) (contLen head) s.headArea = 0 :=
  ⟨assetBox.take 32, assetBox.drop 32, flashed assetBox (latched.put R.GLAZ_LOAD_STAT_BUSY 0 1), by decide +kernel⟩

theorem witness_GlazingChecks_3 : ∃ (head : List Byte) (s : State),
    let a := s.get R.GLAZ_LOAD_ADDR_OFFSET 0
    let slot := s.get R.GLAZ_LOAD_CTL_SLOT 0
    s.domainOn 4 = true ∧ s.flag R.GLAZ_LOAD_STAT_BUSY 0 = true ∧ s.flash.errs = [] ∧ (List.range 32).map (fun k => flashByte s.flash (a + k)) = head ∧ contSteps (fun k => k == 2) slot false head s ≠ 0 ∧ s.get (R.HDR_ERR_CODE_CODE.on 0x0E) 0 = 0 :=
  ⟨List.replicate 32 7, flashed (List.replicate 32 7) (latched.put R.GLAZ_LOAD_STAT_BUSY 0 1), by decide +kernel⟩

theorem witness_GlazingChecks_4 : ∃ (h : Nat) (tt : Nat) (other : Nat) (flips : Flips) (c : Scan) (s : State),
    let p := s.pair tt h
    let crc := streamCrc (turnBits flips (rectBits s.glazRd (ttDef s.glazRd tt) p.shown (s.headDepth h)))
    let want := ttExp s.glazRd tt h p.shown
    h < 4 ∧ tt < 256 ∧ s.domainOn 4 = true ∧ s.domainOn 5 = true ∧ s.glaz.errs = [] ∧ (s.head h).scan = some c ∧ c.seen = true ∧ c.suspended = false ∧ tt ∉ c.checked ∧ tt ∈ headTts s.glazRd h ∧ crc = want ∧ other % 2 ^ 32 = 0 ∧ p.esc ≠ 2 :=
  ⟨1, 0, 0, [], checkedScan 2, (scanning (checkedScan 2) (glazed 6434645)).setPair 0 1 ⟨1, 1, 5, 0, 0, 0⟩, by decide +kernel⟩

theorem witness_GlazingChecks_5 : ∃ (h : Nat) (tt : Nat) (other : Nat) (flips : Flips) (c : Scan) (s : State),
    let p := s.pair tt h
    let crc := streamCrc (turnBits flips (rectBits s.glazRd (ttDef s.glazRd tt) p.shown (s.headDepth h)))
    let want := ttExp s.glazRd tt h p.shown
    let n := min (p.count + 1) 15
    h < 4 ∧ tt < 256 ∧ s.domainOn 4 = true ∧ s.domainOn 5 = true ∧ s.glaz.errs = [] ∧ (s.head h).scan = some c ∧ c.seen = true ∧ c.suspended = false ∧ tt ∉ c.checked ∧ tt ∈ headTts s.glazRd h ∧ crc ≠ want ∧ other % 2 ^ 32 = 0 ∧ p.esc ≠ 2 ∧ n < s.get R.GLAZ_ESC_MISS_LIMIT 0 :=
  ⟨1, 0, 0, [3], checkedScan 2, scanning (checkedScan 2) (glazed 6434645), by decide +kernel⟩

theorem witness_GlazingChecks_6 : ∃ (h : Nat) (tt : Nat) (other : Nat) (flips : Flips) (c : Scan) (s : State),
    let p := s.pair tt h
    let crc := streamCrc (turnBits flips (rectBits s.glazRd (ttDef s.glazRd tt) p.shown (s.headDepth h)))
    let want := ttExp s.glazRd tt h p.shown
    let n := min (p.count + 1) 15
    h < 4 ∧ tt < 256 ∧ s.domainOn 4 = true ∧ s.domainOn 5 = true ∧ s.glaz.errs = [] ∧ (s.head h).scan = some c ∧ c.seen = true ∧ c.suspended = false ∧ tt ∉ c.checked ∧ tt ∈ headTts s.glazRd h ∧ crc ≠ want ∧ other % 2 ^ 32 = 0 ∧ p.esc ≠ 2 ∧ s.get R.GLAZ_ESC_MISS_LIMIT 0 ≤ n :=
  ⟨1, 0, 0, [3], checkedScan 2, (scanning (checkedScan 2) (glazed 6434645)).setPair 0 1 ⟨1, 1, 5, 0, 0, 0⟩, by decide +kernel⟩

theorem witness_GlazingChecks_7 : ∃ (h : Nat) (tt : Nat) (other : Nat) (flips : Flips) (c : Scan) (s : State),
    let p := s.pair tt h
    let crc := streamCrc (turnBits flips (rectBits s.glazRd (ttDef s.glazRd tt) p.shown (s.headDepth h)))
    let want := ttExp s.glazRd tt h p.shown
    h < 4 ∧ tt < 256 ∧ s.domainOn 4 = true ∧ s.domainOn 5 = true ∧ s.glaz.errs = [] ∧ (s.head h).scan = some c ∧ c.seen = true ∧ c.suspended = false ∧ tt ∉ c.checked ∧ tt ∈ headTts s.glazRd h ∧ crc = want ∧ other % 2 ^ 32 ≠ 0 ∧ s.flag R.GLAZ_FAULT_CHECKER 0 = false :=
  ⟨1, 0, 9, [], checkedScan 2, scanning (checkedScan 2) (glazed 6434645), by decide +kernel⟩

theorem witness_GlazingChecks_8 : ∃ (h : Nat) (tt : Nat) (s : State),
    h < 4 ∧ tt < 256 ∧ s.pageOpen 0x0E 0 = true :=
  ⟨1, 40, ((allOn.setPair 40 1 ⟨2, 3, 5, 0, 0, 0⟩).setPair 40 2 ⟨2, 3, 5, 0, 0, 0⟩).put ⟨0x0E, 0x084, 4, 8, 1⟩ 0 1, by decide +kernel⟩

theorem witness_GlazingChecks_9 : ∃ (h : Nat) (tt : Nat) (s : State),
    h < 4 ∧ tt < 256 ∧ s.pageOpen 0x0E 0 = true :=
  ⟨1, 40, ((allOn.setPair 40 1 ⟨2, 3, 5, 0, 0, 0⟩).setPair 40 2 ⟨2, 3, 5, 0, 0, 0⟩).put ⟨0x0E, 0x084, 4, 8, 1⟩ 0 1, by decide +kernel⟩

theorem witness_GlazingChecks_10 : ∃ (h : Nat) (s : State),
    h < 4 ∧ s.domainOn 4 = true ∧ s.domainOn 5 = true ∧ s.flag (R.HDR_CTL_ENABLE.on 0x0D) h = true ∧ headTts s.glazRd h ≠ [] ∧ s.flag R.TICK_RUN_RUN 0 = true ∧ (0 < (s.head h).due ∨ (s.head h).scan.isSome = true) ∧ bitOf (s.get R.GLAZ_FAULT_FRAME_MISSING 0) h = false :=
  ⟨1, (glazed 6434645).setHead 1 { Head.idle with due := 1 }, by decide +kernel⟩

theorem witness_GlazingChecks_11 : ∃ (h : Nat) (s : State),
    h < 4 ∧ s.domainOn 4 = true ∧ s.domainOn 5 = true ∧ s.flag (R.HDR_CTL_ENABLE.on 0x0D) h = true ∧ headTts s.glazRd h ≠ [] ∧ s.flag R.TICK_RUN_RUN 0 = true ∧ (0 < (s.head h).due ∨ (s.head h).scan.isSome = true) ∧ bitOf (s.get R.GLAZ_FAULT_FRAME_MISSING 0) h = true :=
  ⟨1, ((glazed 6434645).setHead 1 { Head.idle with due := 1 }).put R.GLAZ_FAULT_FRAME_MISSING 0 2, by decide +kernel⟩

theorem witness_GlazingChecks_12 : ∃ (s : State),
    let row := s.glaz.scrubRow
    let pat := tblGet 0 s.glaz.errs row
    s.domainOn 4 = true ∧ decodeWord pat.toNat = .clean :=
  ⟨{ glazed 5 with glaz := { (glazed 5).glaz with scrubRow := 262143 } }, by decide +kernel⟩

theorem witness_GlazingChecks_13 : ∃ (j : Nat) (v : Nat) (s : State),
    let row := s.glaz.scrubRow
    let pat := tblGet 0 s.glaz.errs row
    s.domainOn 4 = true ∧ decodeWord pat.toNat = .corrected j v :=
  ⟨0, 1, { glazed 5 with glaz := { (glazed 5).glaz with errs := [(0, 1)] } }, by decide +kernel⟩

theorem witness_GlazingChecks_14 : ∃ (s : State),
    let row := s.glaz.scrubRow
    let pat := tblGet 0 s.glaz.errs row
    s.domainOn 4 = true ∧ decodeWord pat.toNat = .uncorrectable :=
  ⟨{ glazed 5 with glaz := { (glazed 5).glaz with errs := [(0, 17)] } }, by decide +kernel⟩

theorem witness_Cameras_0 : ∃ (c : Nat) (vc : Nat) (f : CamFrame) (s : State),
    let x := s.cam c
    c < 4 ∧ s.domainOn 6 = true ∧ s.flag (R.HDR_CTL_ENABLE.on 0x0F) c = true ∧ vc = s.get R.CAMI_RX_CFG_VC c ∧ s.linkUp = true ∧ (x.frame = none ∨ x.frame = some f ∧ f.link = false ∧ f.hdr = false ∧ f.crc = false) ∧ x.pix = [] :=
  ⟨2, 0, ⟨1, none, false, false, false, false⟩, camera { Camera.idle with frame := some ⟨1, none, false, false, false, false⟩ }, by decide +kernel⟩

theorem witness_Cameras_1 : ∃ (c : Nat) (vc : Nat) (s : State),
    c < 4 ∧ s.domainOn 6 = true ∧ s.flag (R.HDR_CTL_ENABLE.on 0x0F) c = true ∧ vc ≠ s.get R.CAMI_RX_CFG_VC c :=
  ⟨2, 3, camera Camera.idle, by decide +kernel⟩

theorem witness_Cameras_2 : ∃ (c : Nat) (s : State),
    c < 4 ∧ s.domainOn 6 = true ∧ s.flag (R.HDR_CTL_ENABLE.on 0x0F) c = true :=
  ⟨2, camera Camera.idle, by decide +kernel⟩

theorem witness_Cameras_3 : ∃ (c : Nat) (vc : Nat) (dt : Nat) (n : Nat) (pixels : List Nat) (f : CamFrame) (crcOk : Bool) (s : State),
    let x := s.cam c
    let height := s.get R.CAMI_SIZE_HEIGHT c
    let good := crcOk = true ∧ pixels.length = s.get R.CAMI_SIZE_WIDTH c ∧ f.lines < height
    c < 4 ∧ s.domainOn 6 = true ∧ s.flag (R.HDR_CTL_ENABLE.on 0x0F) c = true ∧ s.linkUp = true ∧ (s.cam c).frame = some f ∧ vc = bitsAt (s.cam c).cfg 12 4 ∧ dt = (s.cam c).cfg % 64 ∧ good ∧ f.lines + 1 < height ∧ x.pix = [.start n] :=
  ⟨2, 8, 0x2C, 9, [1, 2, 3], ⟨1, none, false, false, false, false⟩, true, camera { Camera.idle with frame := some ⟨1, none, false, false, false, false⟩, pix := [.start 9] }, by decide +kernel⟩

theorem witness_Cameras_4 : ∃ (c : Nat) (vc : Nat) (dt : Nat) (k : Nat) (pixels : List Nat) (f : CamFrame) (crcOk : Bool) (s : State),
    let x := s.cam c
    let height := s.get R.CAMI_SIZE_HEIGHT c
    let wide := fun (v lo : Nat) => bitsAt v lo 8 * 4 + bitsAt v lo 8 / 64
    let data := pixels.flatMap (fun v => if dt = 0x2B then leBytes 2 (v % 2 ^ 10) else if dt = 0x2C then leBytes 2 (v % 2 ^ 12)
        else if dt = 0x24 then leBytes 4 (wide v 16 * 2 ^ 20 + wide v 8 * 2 ^ 10 + wide v 0) else leBytes 2 (v % 2 ^ 16))
    let a := s.get (R.LNTL_CAM_BUF_ADDR c k) 0 * 4096 + f.lines * (s.get (R.LNTL_CAM_FMT_STRIDE_64 c) 0 * 64)
    let good := crcOk = true ∧ pixels.length = s.get R.CAMI_SIZE_WIDTH c ∧ f.lines < height
    c < 4 ∧ s.domainOn 6 = true ∧ s.flag (R.HDR_CTL_ENABLE.on 0x0F) c = true ∧ s.linkUp = true ∧ (s.cam c).frame = some f ∧ vc = bitsAt (s.cam c).cfg 12 4 ∧ dt = (s.cam c).cfg % 64 ∧ good ∧ f.lines + 1 < height ∧ x.pix = [] ∧ x.writing = some k ∧ (storeBytes ⟨26, 0⟩ a data s).2 = rspOk :=
  ⟨2, 8, 0x2C, 1, [1, 2, 3], ⟨1, none, false, false, false, false⟩, true, camera { Camera.idle with frame := some ⟨1, none, false, false, false, false⟩, bufs := [(1, ⟨1, 7, 0⟩)], lines := 1 }, by decide +kernel⟩

theorem witness_Cameras_5 : ∃ (c : Nat) (vc : Nat) (dt : Nat) (k : Nat) (pixels : List Nat) (f : CamFrame) (crcOk : Bool) (s : State),
    let x := s.cam c
    let height := s.get R.CAMI_SIZE_HEIGHT c
    let wide := fun (v lo : Nat) => bitsAt v lo 8 * 4 + bitsAt v lo 8 / 64
    let data := pixels.flatMap (fun v => if dt = 0x2B then leBytes 2 (v % 2 ^ 10) else if dt = 0x2C then leBytes 2 (v % 2 ^ 12)
        else if dt = 0x24 then leBytes 4 (wide v 16 * 2 ^ 20 + wide v 8 * 2 ^ 10 + wide v 0) else leBytes 2 (v % 2 ^ 16))
    let a := s.get (R.LNTL_CAM_BUF_ADDR c k) 0 * 4096 + f.lines * (s.get (R.LNTL_CAM_FMT_STRIDE_64 c) 0 * 64)
    let good := crcOk = true ∧ pixels.length = s.get R.CAMI_SIZE_WIDTH c ∧ f.lines < height
    c < 4 ∧ s.domainOn 6 = true ∧ s.flag (R.HDR_CTL_ENABLE.on 0x0F) c = true ∧ s.linkUp = true ∧ (s.cam c).frame = some f ∧ vc = bitsAt (s.cam c).cfg 12 4 ∧ dt = (s.cam c).cfg % 64 ∧ good ∧ f.lines + 1 < height ∧ x.pix = [] ∧ x.writing = some k ∧ (storeBytes ⟨26, 0⟩ a data s).2 ≠ rspOk ∧ s.domainUp 6 = true :=
  ⟨2, 8, 0x2C, 1, [1, 2, 3], ⟨1, none, false, false, false, false⟩, true, (camera { Camera.idle with frame := some ⟨1, none, false, false, false, false⟩, bufs := [(1, ⟨1, 7, 0⟩)], lines := 1 }).put (R.HDR_CTL_FENCE.on 0x0C) 0 1, by decide +kernel⟩

theorem witness_Cameras_6 : ∃ (c : Nat) (vc : Nat) (dt : Nat) (pixels : List Nat) (f : CamFrame) (crcOk : Bool) (s : State),
    let height := s.get R.CAMI_SIZE_HEIGHT c
    let good := crcOk = true ∧ pixels.length = s.get R.CAMI_SIZE_WIDTH c ∧ f.lines < height
    c < 4 ∧ s.domainOn 6 = true ∧ s.flag (R.HDR_CTL_ENABLE.on 0x0F) c = true ∧ s.linkUp = true ∧ (s.cam c).frame = some f ∧ vc = bitsAt (s.cam c).cfg 12 4 ∧ dt = (s.cam c).cfg % 64 ∧ good ∧ f.lines + 1 = height :=
  ⟨2, 8, 0x2C, [1, 2, 3], ⟨3, none, false, false, false, false⟩, true, camera { Camera.idle with frame := some ⟨3, none, false, false, false, false⟩ }, by decide +kernel⟩

theorem witness_Cameras_7 : ∃ (c : Nat) (vc : Nat) (dt : Nat) (pixels : List Nat) (f : CamFrame) (crcOk : Bool) (s : State),
    let height := s.get R.CAMI_SIZE_HEIGHT c
    let good := crcOk = true ∧ pixels.length = s.get R.CAMI_SIZE_WIDTH c ∧ f.lines < height
    c < 4 ∧ s.domainOn 6 = true ∧ s.flag (R.HDR_CTL_ENABLE.on 0x0F) c = true ∧ s.linkUp = true ∧ (s.cam c).frame = some f ∧ vc = bitsAt (s.cam c).cfg 12 4 ∧ dt = (s.cam c).cfg % 64 ∧ (¬good) :=
  ⟨2, 8, 0x2C, [1, 2, 3], ⟨4, none, false, false, false, false⟩, false, camera { Camera.idle with frame := some ⟨4, none, false, false, false, false⟩ }, by decide +kernel⟩

theorem witness_Cameras_8 : ∃ (c : Nat) (vc : Nat) (n : Nat) (f : CamFrame) (d : List Byte) (s : State),
    let height := s.get R.CAMI_SIZE_HEIGHT c
    c < 4 ∧ s.domainOn 6 = true ∧ s.flag (R.HDR_CTL_ENABLE.on 0x0F) c = true ∧ s.linkUp = true ∧ (s.cam c).frame = some f ∧ vc = bitsAt (s.cam c).cfg 12 4 ∧ f.link = false ∧ f.hdr = false ∧ f.crc = false ∧ f.size = false ∧ f.last = some d ∧ f.lines = height ∧ (s.cam c).pix = [.start n] :=
  ⟨2, 8, 9, ⟨4, some [1, 2], false, false, false, false⟩, [1, 2], camera { Camera.idle with frame := some ⟨4, some [1, 2], false, false, false, false⟩, pix := [.start 9] }, by decide +kernel⟩

theorem witness_Cameras_9 : ∃ (c : Nat) (vc : Nat) (f : CamFrame) (s : State),
    let height := s.get R.CAMI_SIZE_HEIGHT c
    c < 4 ∧ s.domainOn 6 = true ∧ s.flag (R.HDR_CTL_ENABLE.on 0x0F) c = true ∧ s.linkUp = true ∧ (s.cam c).frame = some f ∧ vc = bitsAt (s.cam c).cfg 12 4 ∧ f.link = false ∧ f.hdr = false ∧ f.crc = false ∧ f.size = false ∧ f.lines ≠ height :=
  ⟨2, 8, ⟨3, none, false, false, false, false⟩, camera { Camera.idle with frame := some ⟨3, none, false, false, false, false⟩ }, by decide +kernel⟩

theorem witness_Cameras_10 : ∃ (c : Nat) (k : Nat) (n : Nat) (s : State),
    let x := s.cam c
    c < 4 ∧ s.linkUp = true ∧ s.domainOn 9 = true ∧ (s.cam c).pix = [.start n] ∧ (s.cam c).writing = none ∧ k < 4 ∧ (x.buf k).st = 0 ∧ s.flag (R.LNTL_CAM_BUF_VALID c k) 0 = true ∧ (∀ (j : Nat), j < k → (x.buf j).st ≠ 0 ∨ s.flag (R.LNTL_CAM_BUF_VALID c j) 0 = false) :=
  ⟨2, 1, 9, (camera { Camera.idle with pix := [.start 9] }).put (R.LNTL_CAM_BUF_VALID 2 1) 0 1, by decide +kernel⟩

theorem witness_Cameras_11 : ∃ (c : Nat) (n : Nat) (s : State),
    let x := s.cam c
    c < 4 ∧ s.linkUp = true ∧ s.domainOn 9 = true ∧ (s.cam c).pix = [.start n] ∧ (s.cam c).writing = none ∧ (∀ (j : Nat), j < 4 → (x.buf j).st ≠ 0 ∨ s.flag (R.LNTL_CAM_BUF_VALID c j) 0 = false) :=
  ⟨2, 9, camera { Camera.idle with pix := [.start 9] }, by decide +kernel⟩

theorem witness_Cameras_12 : ∃ (c : Nat) (k : Nat) (s : State),
    let x := s.cam c
    c < 4 ∧ s.domainOn 9 = true ∧ (s.cam c).writing = some k ∧ x.lines = s.get (R.LNTL_CAM_FMT_HEIGHT c) 0 :=
  ⟨2, 1, (camera { Camera.idle with bufs := [(1, ⟨1, 7, 0⟩), (3, ⟨2, 6, 5⟩)], lines := 3 }).put (R.LNTL_CAM_FMT_HEIGHT 2) 0 3, by decide +kernel⟩

theorem witness_Cameras_13 : ∃ (c : Nat) (k : Nat) (s : State),
    let x := s.cam c
    c < 4 ∧ s.domainOn 9 = true ∧ (s.cam c).writing = some k ∧ x.lines ≠ s.get (R.LNTL_CAM_FMT_HEIGHT c) 0 :=
  ⟨2, 1, camera { Camera.idle with bufs := [(1, ⟨1, 7, 0⟩)], lines := 3 }, by decide +kernel⟩

theorem witness_Cameras_14 : ∃ (c : Nat) (s : State),
    c < 4 ∧ (s.cam c).pulseDue = true ∧ s.domainOn 6 = true :=
  ⟨2, camera { Camera.idle with pulseDue := true }, by decide +kernel⟩

theorem witness_Cameras_15 : ∃ (c : Nat) (s : State),
    c < 4 ∧ (s.cam c).pulseDue = false :=
  ⟨2, camera Camera.idle, by decide +kernel⟩

theorem witness_Cameras_16 : ∃ (c : Nat),
    c < 4 :=
  ⟨2, by decide +kernel⟩

theorem witness_Gatehouse_0 : ∃ (j : Nat) (fcs : Bool) (sym : Bool) (jabber : Bool) (frame : List Byte) (s : State),
    let short := frame.length < 64 ∨ 1522 < frame.length
    let ours := bitOf (frame.getD 0 0).toNat 0 = true ∨ frame.take 6 = s.macBytes
    j < 2 ∧ s.t1sOn j = true ∧ (jabber = true ∨ fcs = false ∨ sym = false ∨ short ∨ ¬ours) :=
  ⟨1, true, true, true, ([255, 255, 255, 255, 255, 255] ++ List.replicate 6 1 ++ [8, 0] ++ List.replicate 60 7), t1sUp State.reset.gate, by decide +kernel⟩

theorem witness_Gatehouse_1 : ∃ (j : Nat) (fcs : Bool) (sym : Bool) (jabber : Bool) (frame : List Byte) (s : State),
    let short := frame.length < 64 ∨ 1522 < frame.length
    let ours := bitOf (frame.getD 0 0).toNat 0 = true ∨ frame.take 6 = s.macBytes
    j < 2 ∧ s.t1sOn j = true ∧ jabber = false ∧ fcs = true ∧ sym = true ∧ (¬short) ∧ ours :=
  ⟨1, true, true, false, ([255, 255, 255, 255, 255, 255] ++ List.replicate 6 1 ++ [8, 0] ++ List.replicate 60 7), t1sUp State.reset.gate, by decide +kernel⟩

theorem witness_Gatehouse_2 : ∃ (k : Nat) (fmt : Nat) (fd : Bool) (data : List Byte) (s : State),
    let allowed := if fmt = 2 then s.flag (R.GATE_CAN_CFG_XL_EN.nth k) 0 else !fd || s.flag (R.GATE_CAN_CFG_FD_EN.nth k) 0
    k < 4 ∧ s.canActive k = true ∧ canLengthOk fmt fd data.length = true ∧ allowed = false :=
  ⟨1, 0, true, [1, 2], canUp 0 3 200 State.reset.gate, by decide +kernel⟩

theorem witness_Gatehouse_3 : ∃ (k : Nat) (fmt : Nat) (fd : Bool) (remote : Bool) (data : List Byte) (s : State),
    let allowed := if fmt = 2 then s.flag (R.GATE_CAN_CFG_XL_EN.nth k) 0 else !fd || s.flag (R.GATE_CAN_CFG_FD_EN.nth k) 0
    k < 4 ∧ s.canActive k = true ∧ canLengthOk fmt fd data.length = true ∧ allowed = true ∧ remote = true ∧ fmt ≠ 2 :=
  ⟨1, 0, false, true, [], canUp 1 3 200 State.reset.gate, by decide +kernel⟩

theorem witness_Gatehouse_4 : ∃ (k : Nat) (fmt : Nat) (fd : Bool) (remote : Bool) (data : List Byte) (s : State),
    let allowed := if fmt = 2 then s.flag (R.GATE_CAN_CFG_XL_EN.nth k) 0 else !fd || s.flag (R.GATE_CAN_CFG_FD_EN.nth k) 0
    k < 4 ∧ s.canActive k = true ∧ canLengthOk fmt fd data.length = true ∧ allowed = true ∧ (remote = false ∨ fmt = 2) :=
  ⟨1, 0, false, false, [1, 2], canUp 0 3 20 { State.reset.gate with arrived := [canFrame 40 [], canFrame 60 []] }, by decide +kernel⟩

theorem witness_Gatehouse_5 : ∃ (k : Nat) (s : State),
    k < 4 ∧ s.canOn k = true ∧ s.canActive k = true :=
  ⟨1, canUp 0 125 20 State.reset.gate, by decide +kernel⟩

theorem witness_Gatehouse_6 : ∃ (k : Nat) (s : State),
    let tec := tblGet 0 s.gate.tec k
    let st := s.get (R.GATE_CAN_STAT_STATE.nth k) 0
    k < 4 ∧ s.canOn k = true ∧ 255 < tec ∧ st ≠ 2 :=
  ⟨1, canUp 1 260 20 State.reset.gate, by decide +kernel⟩

theorem witness_Gatehouse_7 : ∃ (k : Nat) (mayUse : Bool) (s : State),
    let st := s.get (R.GATE_CAN_STAT_STATE.nth k) 0
    k < 4 ∧ s.canOn k = true ∧ st = 2 ∧ mayUse = (s.flag (R.GATE_CAN_CFG_AUTO_RECOVER.nth k) 0 || tblGet false s.gate.mayRecover k) :=
  ⟨1, true, canUp 2 260 20 { State.reset.gate with mayRecover := [(1, true)] }, by decide +kernel⟩

theorem witness_Gatehouse_8 : ∃ (k : Nat) (s : State),
    k < 4 ∧ s.canOn k = true :=
  ⟨1, (canUp 0 0 0 State.reset.gate).put (R.GATE_CAN_STAT_SYNC.nth 1) 0 0, by decide +kernel⟩

theorem witness_Gatehouse_9 : ∃ (mask : Nat) (s : State),
    s.pageOpen 0x11 0 = true ∧ mask < 16 :=
  ⟨3, canUp 2 260 20 State.reset.gate, by decide +kernel⟩

theorem witness_Gatehouse_10 : ∃ (k : Nat) (f : TxFrame) (s : State),
    k < 4 ∧ s.canActive k = true ∧ s.flag (R.GATE_CAN_CFG_LISTEN.nth k) 0 = false ∧ s.nextTx k = some f :=
  ⟨1, txFrame (some 1) 0, canUp 0 5 20 { State.reset.gate with txq := [(1, [txFrame (some 1) 0, txFrame (some 0) 0])] }, by decide +kernel⟩

theorem witness_Gatehouse_11 : ∃ (j : Nat) (f : TxFrame) (s : State),
    j < 2 ∧ s.t1sSends j = true ∧ s.nextTx (4 + j) = some f :=
  ⟨1, txFrame none 0, t1sUp { State.reset.gate with txq := [(5, [txFrame (some 1) 0])], status := [(5, some (txFrame none 0))] }, by decide +kernel⟩

theorem witness_Gatehouse_12 : ∃ (j : Nat) (f : TxFrame) (s : State),
    j < 2 ∧ s.t1sSends j = true ∧ s.nextTx (4 + j) = some f ∧ f.collisions < 15 :=
  ⟨1, txFrame none 14, t1sUp { State.reset.gate with txq := [(5, [txFrame (some 1) 0])], status := [(5, some (txFrame none 14))] }, by decide +kernel⟩

theorem witness_Gatehouse_13 : ∃ (j : Nat) (f : TxFrame) (s : State),
    j < 2 ∧ s.t1sSends j = true ∧ s.nextTx (4 + j) = some f ∧ 15 ≤ f.collisions :=
  ⟨1, txFrame (some 1) 15, t1sUp { State.reset.gate with txq := [(5, [txFrame (some 1) 15, txFrame (some 0) 0])] }, by decide +kernel⟩

theorem witness_Gatehouse_14 : ∃ (j : Nat) (s : State),
    j < 2 ∧ s.t1sOn j = true ∧ s.get (R.GATE_T1S_STAT_MODE.nth j) 0 = 1 ∧ s.get (R.GATE_T1S_CFG_NODE_ID.nth j) 0 ≠ 0 :=
  ⟨1, t1sUp State.reset.gate, by decide +kernel⟩

theorem witness_Gatehouse_15 : ∃ (j : Nat) (s : State),
    j < 2 ∧ s.t1sOn j = true ∧ s.flag (R.GATE_T1S_CFG_PLCA_EN.nth j) 0 = true :=
  ⟨1, (t1sUp State.reset.gate).put (R.GATE_T1S_STAT_MODE.nth 1) 0 3, by decide +kernel⟩

theorem witness_Gatehouse_16 : ∃ (f : ArrivedFrame) (rest : List ArrivedFrame) (s : State),
    s.gateRuns = true ∧ s.gate.arrived = f :: rest :=
  ⟨canFrame 9 [1], [], (classifying (camOf 0 1 0 0 0) 4 (canFrame 9 [1])), by decide +kernel⟩

theorem witness_Gatehouse_17 : ∃ (f : ArrivedFrame) (rest : List ArrivedFrame) (s : State),
    s.gateRuns = true ∧ s.gate.arrived = f :: rest ∧ (∀ (x c' : Nat), camHit s.gate.cam f = some (x, c') → nodeOk c' f = false) := by
  refine ⟨canFrame 9 [1], [], classifying (camOf 0 1 0 0 0 + 1) 4 (canFrame 9 [1]), by decide +kernel, rfl, fun x c' h => ?_⟩
  rw [show camHit _ _ = none by decide +kernel] at h
  cases h

theorem witness_Gatehouse_18 : ∃ (f : ArrivedFrame) (rest : List ArrivedFrame) (idx : Nat) (c : Nat) (s : State),
    let p := tblGet 0 s.gate.prof (camProt c)
    let fieldsBad := profLen p ≠ 0 ∧ f.data.length ≠ profLen p ∨ profFits p f.data.length = false
    let hit := camHit s.gate.cam f = some (idx, c) ∧ nodeOk c f = true
    s.gateRuns = true ∧ s.gate.arrived = f :: rest ∧ hit ∧ camProt c ≠ 0 ∧ fieldsBad :=
  ⟨canFrame 9 [1], [], 4, camOf 0 1 1 0 0, (classifying (camOf 0 1 1 0 0) 4 (canFrame 9 [1])), by decide +kernel⟩

theorem witness_Gatehouse_19 : ∃ (f : ArrivedFrame) (rest : List ArrivedFrame) (idx : Nat) (c : Nat) (s : State),
    let p := tblGet 0 s.gate.prof (camProt c)
    let fieldsBad := profLen p ≠ 0 ∧ f.data.length ≠ profLen p ∨ profFits p f.data.length = false
    let crcBad := profCrcBits p ≠ 0 ∧ protCrc (profCrcBits p) (profPoly p) (profDataId p) (profOfs p) f.data ≠
        beNum ((f.data.drop (profOfs p)).take (profCrcBits p / 8))
    let hit := camHit s.gate.cam f = some (idx, c) ∧ nodeOk c f = true
    s.gateRuns = true ∧ s.gate.arrived = f :: rest ∧ hit ∧ camProt c ≠ 0 ∧ (¬fieldsBad) ∧ crcBad :=
  ⟨canFrame 9 [1, 2, 3], [], 4, camOf 0 1 1 0 0, (classifying (camOf 0 1 1 0 0) 4 (canFrame 9 [1, 2, 3])), by decide +kernel⟩

theorem witness_Gatehouse_20 : ∃ (f : ArrivedFrame) (rest : List ArrivedFrame) (idx : Nat) (c : Nat) (l : Nat) (s : State),
    let p := tblGet 0 s.gate.prof (camProt c)
    let fieldsBad := profLen p ≠ 0 ∧ f.data.length ≠ profLen p ∨ profFits p f.data.length = false
    let crcBad := profCrcBits p ≠ 0 ∧ protCrc (profCrcBits p) (profPoly p) (profDataId p) (profOfs p) f.data ≠
        beNum ((f.data.drop (profOfs p)).take (profCrcBits p / 8))
    let n := profCntBits p
    let count := protCounter p f.data
    let delta := (count + 2 ^ n - l % 2 ^ n) % 2 ^ n
    let hit := camHit s.gate.cam f = some (idx, c) ∧ nodeOk c f = true
    s.gateRuns = true ∧ s.gate.arrived = f :: rest ∧ hit ∧ camProt c ≠ 0 ∧ (¬fieldsBad) ∧ (¬crcBad) ∧ n ≠ 0 ∧ tblGet none s.gate.streams (camStream c) = some l ∧ delta = 0 :=
  ⟨canFrame 9 (protData 4), [], 4, camOf 0 1 1 0 0, 4, (classifying (camOf 0 1 1 0 0) 4 (canFrame 9 (protData 4))), by decide +kernel⟩

theorem witness_Gatehouse_21 : ∃ (f : ArrivedFrame) (rest : List ArrivedFrame) (idx : Nat) (c : Nat) (l : Nat) (s : State),
    let p := tblGet 0 s.gate.prof (camProt c)
    let fieldsBad := profLen p ≠ 0 ∧ f.data.length ≠ profLen p ∨ profFits p f.data.length = false
    let crcBad := profCrcBits p ≠ 0 ∧ protCrc (profCrcBits p) (profPoly p) (profDataId p) (profOfs p) f.data ≠
        beNum ((f.data.drop (profOfs p)).take (profCrcBits p / 8))
    let n := profCntBits p
    let count := protCounter p f.data
    let delta := (count + 2 ^ n - l % 2 ^ n) % 2 ^ n
    let hit := camHit s.gate.cam f = some (idx, c) ∧ nodeOk c f = true
    s.gateRuns = true ∧ s.gate.arrived = f :: rest ∧ hit ∧ camProt c ≠ 0 ∧ (¬fieldsBad) ∧ (¬crcBad) ∧ n ≠ 0 ∧ tblGet none s.gate.streams (camStream c) = some l ∧ profDelta p < delta :=
  ⟨canFrame 9 (protData 8), [], 4, camOf 0 1 1 0 0, 4, (classifying (camOf 0 1 1 0 0) 4 (canFrame 9 (protData 8))), by decide +kernel⟩

theorem witness_Gatehouse_22 : ∃ (f : ArrivedFrame) (rest : List ArrivedFrame) (idx : Nat) (c : Nat) (l : Nat) (s : State),
    let p := tblGet 0 s.gate.prof (camProt c)
    let fieldsBad := profLen p ≠ 0 ∧ f.data.length ≠ profLen p ∨ profFits p f.data.length = false
    let crcBad := profCrcBits p ≠ 0 ∧ protCrc (profCrcBits p) (profPoly p) (profDataId p) (profOfs p) f.data ≠
        beNum ((f.data.drop (profOfs p)).take (profCrcBits p / 8))
    let n := profCntBits p
    let count := protCounter p f.data
    let delta := (count + 2 ^ n - l % 2 ^ n) % 2 ^ n
    let hit := camHit s.gate.cam f = some (idx, c) ∧ nodeOk c f = true
    s.gateRuns = true ∧ s.gate.arrived = f :: rest ∧ hit ∧ camProt c ≠ 0 ∧ (¬fieldsBad) ∧ (¬crcBad) ∧ n ≠ 0 ∧ tblGet none s.gate.streams (camStream c) = some l ∧ delta ≠ 0 ∧ delta ≤ profDelta p ∧ camRoute c = 1 ∧ s.get (R.ENG_STATE_STATE.on 5) 0 = 1 ∧ tblGet [] s.gate.rxq 0 = [] :=
  ⟨canFrame 9 (protData 1), [], 4, camOf 0 1 1 0 0, 15, engineRuns 0 (classifying (camOf 0 1 1 0 0) 15 (canFrame 9 (protData 1))), by decide +kernel⟩

theorem witness_Gatehouse_23 : ∃ (f : ArrivedFrame) (rest : List ArrivedFrame) (idx : Nat) (c : Nat) (s : State),
    let hit := camHit s.gate.cam f = some (idx, c) ∧ nodeOk c f = true
    let e := if camRoute c = 3 then s.get R.GATE_CMD_CFG_ENG 0 else camRoute c - 1
    s.gateRuns = true ∧ s.gate.arrived = f :: rest ∧ hit ∧ camProt c = 0 ∧ camRoute c ≠ 0 ∧ s.get (R.ENG_STATE_STATE.on 5) e ≠ 1 :=
  ⟨canFrame 9 [1], [], 4, camOf 2 2 0 0 0, (classifying (camOf 2 2 0 0 0) 4 (canFrame 9 [1])), by decide +kernel⟩

theorem witness_Gatehouse_24 : ∃ (f : ArrivedFrame) (rest : List ArrivedFrame) (idx : Nat) (c : Nat) (s : State),
    let hit := camHit s.gate.cam f = some (idx, c) ∧ nodeOk c f = true
    let e := if camRoute c = 3 then s.get R.GATE_CMD_CFG_ENG 0 else camRoute c - 1
    let q := tblGet [] s.gate.rxq e
    let cls := servedClass idx c f.stamp s
    let room := q.length < 64 ∧ (cls = 0 ∨ q.length < 56 ∧ (cls ≠ 2 ∨ (q.filter (fun x => x.cls == 2)).length < 32))
    s.gateRuns = true ∧ s.gate.arrived = f :: rest ∧ hit ∧ camProt c = 0 ∧ camRoute c ≠ 0 ∧ s.get (R.ENG_STATE_STATE.on 5) e = 1 ∧ (¬room) :=
  ⟨canFrame 9 [1], [], 4, camOf 2 2 0 0 0, engineRuns 1 (gated { State.reset.gate with cam := [(4, camOf 2 2 0 0 0)], arrived := [canFrame 9 [1]], rxq := [(1, List.replicate 32 ⟨canFrame 3 [], 2, 4⟩)] }), by decide +kernel⟩

theorem witness_Gatehouse_25 : ∃ (f : ArrivedFrame) (rest : List ArrivedFrame) (idx : Nat) (c : Nat) (s : State),
    let hit := camHit s.gate.cam f = some (idx, c) ∧ nodeOk c f = true
    let e := if camRoute c = 3 then s.get R.GATE_CMD_CFG_ENG 0 else camRoute c - 1
    let q := tblGet [] s.gate.rxq e
    let cls := servedClass idx c f.stamp s
    let room := q.length < 64 ∧ (cls = 0 ∨ q.length < 56 ∧ (cls ≠ 2 ∨ (q.filter (fun x => x.cls == 2)).length < 32))
    s.gateRuns = true ∧ s.gate.arrived = f :: rest ∧ hit ∧ camProt c = 0 ∧ camRoute c ≠ 0 ∧ s.get (R.ENG_STATE_STATE.on 5) e = 1 ∧ room :=
  ⟨canFrame 9 [1], [], 4, camOf 2 2 0 0 0, engineRuns 1 (gated { State.reset.gate with cam := [(4, camOf 2 2 0 0 0)], arrived := [canFrame 9 [1]], rxq := [(1, List.replicate 31 ⟨canFrame 3 [], 2, 4⟩)] }), by decide +kernel⟩

theorem witness_Gatehouse_26 : ∃ (f : ArrivedFrame) (rest : List ArrivedFrame) (idx : Nat) (c : Nat) (s : State),
    let hit := camHit s.gate.cam f = some (idx, c) ∧ nodeOk c f = true
    let cls := servedClass idx c f.stamp s
    let q := heldClasses s
    let room := q.length < 512 ∧ (cls = 0 ∨ q.length < 448 ∧ (cls ≠ 2 ∨ (q.filter (fun x => x == 2)).length < 128))
    s.gateRuns = true ∧ s.gate.arrived = f :: rest ∧ hit ∧ camProt c = 0 ∧ camRoute c = 0 ∧ s.flag R.TICK_RUN_RUN 0 = true ∧ s.flag R.TICK_PHASE_PAST_CUTOFF 0 = true ∧ s.cutoffCycle ≤ f.stamp ∧ room :=
  ⟨canFrame 2000000 [1], [], 4, camOf 0 0 0 2 1, pastCutoff (classifying (camOf 0 0 0 2 1) 4 (canFrame 2000000 [1])), by decide +kernel⟩

theorem witness_Gatehouse_27 : ∃ (f : ArrivedFrame) (rest : List ArrivedFrame) (idx : Nat) (c : Nat) (s : State),
    let hit := camHit s.gate.cam f = some (idx, c) ∧ nodeOk c f = true
    let cls := servedClass idx c f.stamp s
    let q := heldClasses s
    let room := q.length < 512 ∧ (cls = 0 ∨ q.length < 448 ∧ (cls ≠ 2 ∨ (q.filter (fun x => x == 2)).length < 128))
    s.gateRuns = true ∧ s.gate.arrived = f :: rest ∧ hit ∧ camProt c = 0 ∧ camRoute c = 0 ∧ s.flag R.TICK_RUN_RUN 0 = true ∧ s.flag R.TICK_PHASE_PAST_CUTOFF 0 = true ∧ s.cutoffCycle ≤ f.stamp ∧ (¬room) :=
  ⟨canFrame 2000000 [1], [], 4, camOf 1 0 0 2 1, pastCutoff (gated { State.reset.gate with cam := [(4, camOf 1 0 0 2 1)], arrived := [canFrame 2000000 [1]], held := List.replicate 448 ⟨1, 0, 0, 0, [], none⟩ }), by decide +kernel⟩

theorem witness_Gatehouse_28 : ∃ (f : ArrivedFrame) (rest : List ArrivedFrame) (idx : Nat) (c : Nat) (s : State) (w : Nat),
    let hit := camHit s.gate.cam f = some (idx, c) ∧ nodeOk c f = true
    let places := signalPlaces w
    let taken := (∀ b, b ∈ places → b < 8 * f.data.length) ∧ cfgEn (s.sigCfg (w % 2 ^ 16)) = true
    s.gateRuns = true ∧ s.gate.arrived = f :: rest ∧ hit ∧ camProt c = 0 ∧ camRoute c = 0 ∧ (s.flag R.TICK_PHASE_PAST_CUTOFF 0 = false ∧ s.gate.held = [] ∨ s.flag R.TICK_PHASE_PAST_CUTOFF 0 = true ∧ (s.flag R.TICK_RUN_RUN 0 = false ∨ f.stamp < s.cutoffCycle)) ∧ camCount c = 1 ∧ s.sigDesc (camFirst c) = some w ∧ s.rowsClean [descRow (camFirst c) 0, descRow (camFirst c) 1, cfgRow (w % 2 ^ 16) 0, cfgRow (w % 2 ^ 16) 1] = true ∧ taken :=
  ⟨canFrame 9 [1, 2, 3], [], 4, camOf 0 0 0 2 1, signals (classifying (camOf 0 0 0 2 1) 4 (canFrame 9 [1, 2, 3])), descTwo, by decide +kernel⟩

theorem witness_Gatehouse_29 : ∃ (f : ArrivedFrame) (rest : List ArrivedFrame) (idx : Nat) (c : Nat) (s : State) (w : Nat),
    let hit := camHit s.gate.cam f = some (idx, c) ∧ nodeOk c f = true
    let places := signalPlaces w
    let taken := (∀ b, b ∈ places → b < 8 * f.data.length) ∧ cfgEn (s.sigCfg (w % 2 ^ 16)) = true
    s.gateRuns = true ∧ s.gate.arrived = f :: rest ∧ hit ∧ camProt c = 0 ∧ camRoute c = 0 ∧ (s.flag R.TICK_PHASE_PAST_CUTOFF 0 = false ∧ s.gate.held = [] ∨ s.flag R.TICK_PHASE_PAST_CUTOFF 0 = true ∧ (s.flag R.TICK_RUN_RUN 0 = false ∨ f.stamp < s.cutoffCycle)) ∧ camCount c = 1 ∧ s.sigDesc (camFirst c) = some w ∧ s.rowsClean [descRow (camFirst c) 0, descRow (camFirst c) 1, cfgRow (w % 2 ^ 16) 0, cfgRow (w % 2 ^ 16) 1] = true ∧ (¬taken) :=
  ⟨canFrame 9 [1], [], 4, camOf 0 0 0 2 1, signals (classifying (camOf 0 0 0 2 1) 4 (canFrame 9 [1])), descTwo, by decide +kernel⟩

theorem witness_Gatehouse_30 : ∃ (kind : Nat) (value : Word) (s : State) (code : Nat),
    let ty := if kind < 2 then 0x11 else 0x12
    let idx := s.tabIndex kind
    let v := stagedEntry s kind value
    kind < 4 ∧ s.pageOpen ty 0 = true ∧ tabRefusal s kind idx v = some code ∧ s.get (R.HDR_ERR_CODE_CODE.on ty) 0 = 0 :=
  ⟨1, 0, gateOn, 0x103, by decide +kernel⟩

theorem witness_Gatehouse_31 : ∃ (kind : Nat) (value : Word) (s : State),
    let ty := if kind < 2 then 0x11 else 0x12
    let idx := s.tabIndex kind
    let v := stagedEntry s kind value
    kind < 4 ∧ s.pageOpen ty 0 = true ∧ tabRefusal s kind idx v = none ∧ s.flag (R.HDR_CTL_ENABLE.on 0x11) 0 = true ∧ s.gate.tbQueue.length < 64 :=
  ⟨0, 0, gated { State.reset.gate with staging := [(0, 5), (1, 7 + 255 * 2 ^ 14 + 2 ^ 22 + 2 ^ 28 + 2 ^ 31)] }, by decide +kernel⟩

theorem witness_Gatehouse_32 : ∃ (kind : Nat) (value : Word) (s : State),
    let ty := if kind < 2 then 0x11 else 0x12
    let idx := s.tabIndex kind
    let v := stagedEntry s kind value
    kind < 4 ∧ s.pageOpen ty 0 = true ∧ tabRefusal s kind idx v = none ∧ s.flag (R.HDR_CTL_ENABLE.on 0x11) 0 = true ∧ 64 ≤ s.gate.tbQueue.length ∧ s.get (R.HDR_ERR_CODE_CODE.on ty) 0 = 0 :=
  ⟨0, 0, gated { State.reset.gate with staging := [(0, 5), (1, 7 + 255 * 2 ^ 14 + 2 ^ 22 + 2 ^ 28 + 2 ^ 31)] , tbQueue := List.replicate 64 ⟨2, 1, 0, 9⟩ }, by decide +kernel⟩

theorem witness_Gatehouse_33 : ∃ (kind : Nat) (value : Word) (s : State),
    let ty := if kind < 2 then 0x11 else 0x12
    let idx := s.tabIndex kind
    let v := stagedEntry s kind value
    kind < 4 ∧ s.pageOpen ty 0 = true ∧ tabRefusal s kind idx v = none ∧ s.flag (R.HDR_CTL_ENABLE.on 0x11) 0 = false :=
  ⟨2, 0, { allOn with gate := { State.reset.gate with staging := [(8, 2 ^ 31)] } }, by decide +kernel⟩

theorem witness_Gatehouse_34 : ∃ (stamp : Nat) (s : State),
    let held := s.flag R.TICK_RUN_RUN 0 = true ∧ s.flag R.TICK_PHASE_PAST_CUTOFF 0 = true ∧ s.cutoffCycle ≤ stamp / 10
    s.pageOpen 0x12 0 = true ∧ held :=
  ⟨20000000, pastCutoff (signals gateOn), by decide +kernel⟩

theorem witness_Gatehouse_35 : ∃ (stamp : Nat) (s : State),
    let e := s.get R.SIGT_INJ_ENTRY_ENTRY 0
    let held := s.flag R.TICK_RUN_RUN 0 = true ∧ s.flag R.TICK_PHASE_PAST_CUTOFF 0 = true ∧ s.cutoffCycle ≤ stamp / 10
    s.pageOpen 0x12 0 = true ∧ (¬held) ∧ (s.flag R.TICK_PHASE_PAST_CUTOFF 0 = true ∨ s.gate.held = []) ∧ cfgEn (s.sigCfg e) = true :=
  ⟨500, (((signals gateOn).put R.SIGT_INJ_ENTRY_ENTRY 0 3).put R.SIGT_INJ_LO_VALUE 0 7), by decide +kernel⟩

theorem witness_Gatehouse_36 : ∃ (stamp : Nat) (s : State),
    let e := s.get R.SIGT_INJ_ENTRY_ENTRY 0
    let held := s.flag R.TICK_RUN_RUN 0 = true ∧ s.flag R.TICK_PHASE_PAST_CUTOFF 0 = true ∧ s.cutoffCycle ≤ stamp / 10
    s.pageOpen 0x12 0 = true ∧ (¬held) ∧ (s.flag R.TICK_PHASE_PAST_CUTOFF 0 = true ∨ s.gate.held = []) ∧ cfgEn (s.sigCfg e) = false :=
  ⟨500, gateOn, by decide +kernel⟩

theorem witness_Gatehouse_37 : ∃ (h : HeldInput) (rest : List HeldInput) (s : State),
    let waits := s.flag R.TICK_RUN_RUN 0 = true ∧ s.flag R.TICK_PHASE_PAST_CUTOFF 0 = true
    s.domainOn 2 = true ∧ s.gate.held = h :: rest ∧ waits :=
  ⟨heldInj, [heldFrame], pastCutoff (gated { State.reset.gate with held := [heldInj, heldFrame] }), by decide +kernel⟩

theorem witness_Gatehouse_38 : ∃ (h : HeldInput) (rest : List HeldInput) (s : State) (e : Nat) (v : Nat),
    let waits := s.flag R.TICK_RUN_RUN 0 = true ∧ s.flag R.TICK_PHASE_PAST_CUTOFF 0 = true
    s.domainOn 2 = true ∧ s.gate.held = h :: rest ∧ (¬waits) ∧ h.inject = some (e, v) ∧ cfgEn (s.sigCfg e) = true :=
  ⟨heldInj, [heldFrame], signals (gated { State.reset.gate with held := [heldInj, heldFrame] }), 3, 77, by decide +kernel⟩

theorem witness_Gatehouse_39 : ∃ (h : HeldInput) (rest : List HeldInput) (s : State) (w : Nat),
    let waits := s.flag R.TICK_RUN_RUN 0 = true ∧ s.flag R.TICK_PHASE_PAST_CUTOFF 0 = true
    s.domainOn 2 = true ∧ s.gate.held = h :: rest ∧ (¬waits) ∧ h.inject = none ∧ h.count = 1 ∧ s.sigDesc h.first = some w ∧ s.rowsClean [descRow h.first 0, descRow h.first 1, cfgRow (w % 2 ^ 16) 0, cfgRow (w % 2 ^ 16) 1] = true ∧ cfgEn (s.sigCfg (w % 2 ^ 16)) = true ∧ (∀ b, b ∈ signalPlaces w → b < 8 * h.data.length) :=
  ⟨heldFrame, [heldInj], signals (gated { State.reset.gate with held := [heldFrame, heldInj] }), descTwo, by decide +kernel⟩

theorem witness_Gatehouse_40 : ∃ (q : NetReq) (s : State),
    s.targetOpen (.signals (q.addr % 0x100000)) = true ∧ sigReadOk q = false :=
  ⟨{ sigReq with be := 5 }, gateOn, by decide +kernel⟩

theorem witness_Gatehouse_41 : ∃ (q : NetReq) (seq : Option Nat) (s : State),
    let onTime := ∀ n, n ∈ seq.toList → n = s.edges % 16
    s.targetOpen (.signals (q.addr % 0x100000)) = true ∧ sigReadOk q = true ∧ (¬onTime) :=
  ⟨sigReq, some 3, gateOn, by decide +kernel⟩

theorem witness_Gatehouse_42 : ∃ (q : NetReq) (seq : Option Nat) (s : State),
    let block := q.addr % 2 ^ 20 / 64
    let es := ((List.range 4).filter (fun j => (List.range 16).any (fun k => bitOf q.be (16 * j + k)))).map (fun j => 4 * block + j)
    let onTime := ∀ n, n ∈ seq.toList → n = s.edges % 16
    s.targetOpen (.signals (q.addr % 0x100000)) = true ∧ sigReadOk q = true ∧ onTime ∧ s.rowsClean (es.flatMap (fun e => [slotRow e (s.sig e).sel 0, slotRow e (s.sig e).sel 1])) = true :=
  ⟨sigReq, some 0, ({ gateOn with sigt := { gateOn.sigt with entries := [(5, ⟨⟨9, 1, false, false, false, true, 40⟩, SigSlot.empty, false, 0, 40⟩)] } } : State).put R.TICK_SNAP 0 1, by decide +kernel⟩

theorem witness_Gatehouse_43 : ∃ (q : NetReq) (seq : Option Nat) (s : State),
    let block := q.addr % 2 ^ 20 / 64
    let es := ((List.range 4).filter (fun j => (List.range 16).any (fun k => bitOf q.be (16 * j + k)))).map (fun j => 4 * block + j)
    let onTime := ∀ n, n ∈ seq.toList → n = s.edges % 16
    s.targetOpen (.signals (q.addr % 0x100000)) = true ∧ sigReadOk q = true ∧ onTime ∧ (∃ e ∈ es, s.slotBad e = true) :=
  ⟨sigReq, none, struck (slotRow 5 false 1) (1 + 2 ^ 40) gateOn, by decide +kernel⟩

theorem witness_Gatehouse_44 : ∃ (s : State),
    s.domainOn 2 = true :=
  ⟨struck 0 3 gateOn, by decide +kernel⟩

theorem witness_Gatehouse_45 : ∃ (e : Nat) (s : State),
    s.pageOpen 0x11 0 = true ∧ e < 2 :=
  ⟨1, gated { State.reset.gate with rxq := [(1, [⟨canFrame 3 [], 0, 4⟩, ⟨canFrame 4 [], 0, 4⟩])] }, by decide +kernel⟩

theorem witness_Gatehouse_46 : ∃ (e : Nat) (s : State),
    let p := (stagedFrame s e).1
    let q := tblGet [] s.gate.txq p
    s.pageOpen 0x11 0 = true ∧ e < 2 ∧ p < 6 ∧ q.length < 16 :=
  ⟨1, gated { State.reset.gate with stage := [(1024, 5), (1028, 2), (1030, 1), (1032, 9)], staged := [(1, true)] }, by decide +kernel⟩

theorem witness_Gatehouse_47 : ∃ (e : Nat) (s : State),
    let p := (stagedFrame s e).1
    let q := tblGet [] s.gate.txq p
    s.pageOpen 0x11 0 = true ∧ e < 2 ∧ (¬(p < 6 ∧ q.length < 16)) ∧ s.get (R.HDR_ERR_CODE_CODE.on 0x11) 0 = 0 :=
  ⟨1, gated { State.reset.gate with stage := [(1030, 7)], staged := [(1, true)] }, by decide +kernel⟩

theorem witness_Gatehouse_48 : ∃ (i : Initiator) (s : State),
    s.pageOpen 0x11 0 = true ∧ i.src ≠ 33 ∧ i.src ≠ 34 ∧ s.get (R.HDR_ERR_CODE_CODE.on 0x11) 0 = 0 :=
  ⟨⟨30, 0⟩, gateOn, by decide +kernel⟩

theorem witness_Gatehouse_49 : ∃ (s : State),
    s.pageOpen 0x11 0 = true :=
  ⟨gated { State.reset.gate with arrived := [canFrame 3 []], counts := [(32, 5), (65, 4)] }, by decide +kernel⟩

theorem witness_Hinge_0 : ∃ (auth : Bool) (s : State),
    s.pageOpen 0x15 0 = true ∧ s.get (R.HDR_ERR_CODE_CODE.on 0x15) 0 = 0 ∧ auth = true ∧ s.fabState = 2 :=
  ⟨true, releasedFabric [] [], by decide +kernel⟩

theorem witness_Hinge_1 : ∃ (auth : Bool) (s : State),
    s.pageOpen 0x15 0 = true ∧ s.get (R.HDR_ERR_CODE_CODE.on 0x15) 0 = 0 ∧ auth = true ∧ s.fabState ≠ 2 :=
  ⟨true, allOn, by decide +kernel⟩

theorem witness_Hinge_2 : ∃ (auth : Bool) (s : State),
    s.pageOpen 0x15 0 = true ∧ s.get (R.HDR_ERR_CODE_CODE.on 0x15) 0 = 0 ∧ auth = false :=
  ⟨false, releasedFabric [] [], by decide +kernel⟩

theorem witness_Hinge_3 : ∃ (l : FabricLoad) (s : State),
    s.domainOn 1 = true ∧ s.fabric.load = some l ∧ (let e := (copySteps l.offset l.key s).2; e.code = 0) := by
  have h := loadingFrom_open (zeroBox (latched.imgKey 0)) latched (by decide +kernel)
  exact ⟨⟨false, 0, 0⟩, loadingFrom (zeroBox (latched.imgKey 0)) latched, h.1, h.2, loading_passes latched _ rfl rfl (by decide +kernel)⟩

theorem witness_Hinge_4 : ∃ (l : FabricLoad) (s : State),
    let e := (copySteps l.offset l.key s).2
    s.domainOn 1 = true ∧ s.fabric.load = some l ∧ e.code ≠ 0 :=
  ⟨⟨false, 0, 0⟩, loadingFabric false 0, by decide +kernel⟩

theorem witness_Hinge_5 : ∃ (l : FabricLoad) (s : State),
    let e := (copySteps l.offset l.key s).2
    s.domainOn 1 = true ∧ s.fabric.load = some l ∧ e.code ≠ 0 ∧ (l.copyB = true ∨ s.flag R.HNGE_BS_ALT_EN 0 = false) :=
  ⟨⟨true, 0x800000, 0⟩, loadingFabric true 0x800000, by decide +kernel⟩

theorem witness_Hinge_6 : ∃ (l : FabricLoad) (s : State),
    let e := (copySteps l.offset l.key s).2
    s.domainOn 1 = true ∧ s.fabric.load = some l ∧ e.code ≠ 0 ∧ l.copyB = false ∧ s.flag R.HNGE_BS_ALT_EN 0 = true :=
  ⟨⟨false, 0, 0⟩, (loadingFabric false 0).put R.HNGE_BS_ALT_EN 0 1, by decide +kernel⟩

theorem witness_Hinge_7 : ∃ (s : State),
    let n := s.fabric.scrubNext
    let noise := (tblGet 0 s.fabric.heldErrs n).toNat
    let unread := decodeWord noise = .uncorrectable
    let bad := unread ∨ crc32 (leBytes 64 (tblGet 0 s.fabric.frames n).toNat) ≠ tblGet 0 s.fabric.held n ^^^ residue noise % 2 ^ 32
    s.domainOn 1 = true ∧ s.fabState = 2 ∧ s.flag R.HNGE_SCRUB_CFG_EN 0 = true ∧ (¬bad) :=
  ⟨((releasedFabric [] [(0, (crc32 (leBytes 64 0)))]).put R.HNGE_SCRUB_CFG_EN 0 1).put R.HNGE_SCRUB_CFG_ACTION 0 1, by decide +kernel⟩

theorem witness_Hinge_8 : ∃ (s : State),
    let n := s.fabric.scrubNext
    let action := s.get R.HNGE_SCRUB_CFG_ACTION 0
    let noise := (tblGet 0 s.fabric.heldErrs n).toNat
    let unread := decodeWord noise = .uncorrectable
    let bad := unread ∨ crc32 (leBytes 64 (tblGet 0 s.fabric.frames n).toNat) ≠ tblGet 0 s.fabric.held n ^^^ residue noise % 2 ^ 32
    s.domainOn 1 = true ∧ s.fabState = 2 ∧ s.flag R.HNGE_SCRUB_CFG_EN 0 = true ∧ bad ∧ action = 0 :=
  ⟨((releasedFabric [(0, 1)] [(0, (crc32 (leBytes 64 0)))]).put R.HNGE_SCRUB_CFG_EN 0 1).put R.HNGE_SCRUB_CFG_ACTION 0 0, by decide +kernel⟩

theorem witness_Hinge_9 : ∃ (s : State),
    let n := s.fabric.scrubNext
    let action := s.get R.HNGE_SCRUB_CFG_ACTION 0
    let noise := (tblGet 0 s.fabric.heldErrs n).toNat
    let unread := decodeWord noise = .uncorrectable
    let bad := unread ∨ crc32 (leBytes 64 (tblGet 0 s.fabric.frames n).toNat) ≠ tblGet 0 s.fabric.held n ^^^ residue noise % 2 ^ 32
    let again := n ∈ s.fabric.mismatch
    s.domainOn 1 = true ∧ s.fabState = 2 ∧ s.flag R.HNGE_SCRUB_CFG_EN 0 = true ∧ bad ∧ (2 ≤ action ∨ action = 1 ∧ (again ∨ unread)) :=
  ⟨((releasedFabric [(0, 1)] [(0, (crc32 (leBytes 64 0)))]).put R.HNGE_SCRUB_CFG_EN 0 1).put R.HNGE_SCRUB_CFG_ACTION 0 2, by decide +kernel⟩

theorem witness_Hinge_10 : ∃ (s : State) (b : List Byte),
    let n := s.fabric.scrubNext
    let action := s.get R.HNGE_SCRUB_CFG_ACTION 0
    let noise := (tblGet 0 s.fabric.heldErrs n).toNat
    let unread := decodeWord noise = .uncorrectable
    let bad := unread ∨ crc32 (leBytes 64 (tblGet 0 s.fabric.frames n).toNat) ≠ tblGet 0 s.fabric.held n ^^^ residue noise % 2 ^ 32
    let again := n ∈ s.fabric.mismatch
    let copy := (flashRead (s.get R.HNGE_FAB_STATE_OFFSET 0 + 32 + 0x100 + 68 * n) 68 s).2
    s.domainOn 1 = true ∧ s.fabState = 2 ∧ s.flag R.HNGE_SCRUB_CFG_EN 0 = true ∧ bad ∧ action = 1 ∧ (¬again) ∧ (¬unread) ∧ copy = some b ∧ argNum b 64 4 = crc32 (b.take 64) :=
  ⟨{ (((releasedFabric [(0, 1)] [(0, (crc32 (leBytes 64 0)))]).put R.HNGE_SCRUB_CFG_EN 0 1).put R.HNGE_SCRUB_CFG_ACTION 0 1) with flash := { State.reset.flash with data := memWrite erasedByte [] 288 (leBytes 64 0 ++ leBytes 4 ((crc32 (leBytes 64 0)))) } }, leBytes 64 0 ++ leBytes 4 (crc32 (leBytes 64 0)), by decide +kernel⟩

theorem witness_Hinge_11 : ∃ (s : State),
    let n := s.fabric.scrubNext
    let action := s.get R.HNGE_SCRUB_CFG_ACTION 0
    let noise := (tblGet 0 s.fabric.heldErrs n).toNat
    let unread := decodeWord noise = .uncorrectable
    let bad := unread ∨ crc32 (leBytes 64 (tblGet 0 s.fabric.frames n).toNat) ≠ tblGet 0 s.fabric.held n ^^^ residue noise % 2 ^ 32
    let again := n ∈ s.fabric.mismatch
    let copy := (flashRead (s.get R.HNGE_FAB_STATE_OFFSET 0 + 32 + 0x100 + 68 * n) 68 s).2
    s.domainOn 1 = true ∧ s.fabState = 2 ∧ s.flag R.HNGE_SCRUB_CFG_EN 0 = true ∧ bad ∧ action = 1 ∧ (¬again) ∧ (¬unread) ∧ (∀ (b : List Byte), copy = some b → argNum b 64 4 ≠ crc32 (b.take 64)) :=
  ⟨((releasedFabric [(0, 1)] [(0, (crc32 (leBytes 64 0)))]).put R.HNGE_SCRUB_CFG_EN 0 1).put R.HNGE_SCRUB_CFG_ACTION 0 1, by decide +kernel⟩

theorem witness_Hinge_12 : ∃ (s : State),
    s.pageOpen 0x15 0 = true :=
  ⟨allOn, by decide +kernel⟩

theorem witness_Hinge_13 : ∃ (s : State),
    s.pageOpen 0x15 0 = true :=
  ⟨allOn, by decide +kernel⟩

theorem witness_Hinge_14 : ∃ (s : State),
    s.domainOn 1 = true ∧ s.fabric.capWait ≠ [] :=
  ⟨{ releasedFabric [] [] with fabric := { (releasedFabric [] []).fabric with capWait := [1] } }, by decide +kernel⟩

theorem witness_Hinge_15 : ∃ (j : FlashJob) (s : State),
    let s0 := ({ s with flashJob := none }.put R.HNGE_FLASH_STAT_BUSY 0 0).put R.HNGE_FLASH_STAT_OP 0 0
    let step := contCheck (fun _ => true) j.key true j.container s0
    s.domainOn 1 = true ∧ s.flashJob = some j ∧ step ≠ 0 :=
  ⟨⟨[1, 2], 0x1000, 0⟩, writingFlash [1, 2] 0x1000, by decide +kernel⟩

theorem witness_Hinge_16 : ∃ (j : FlashJob) (done : Bool) (s : State),
    let s0 := ({ s with flashJob := none }.put R.HNGE_FLASH_STAT_BUSY 0 0).put R.HNGE_FLASH_STAT_OP 0 0
    let step := contCheck (fun _ => true) j.key true j.container s0
    s.domainOn 1 = true ∧ s.flashJob = some j ∧ step = 0 ∧ done = true :=
  ⟨⟨goodBox, 0x1000, 0⟩, true, writingFlash goodBox 0x1000, by decide +kernel⟩

theorem witness_Hinge_17 : ∃ (j : FlashJob) (done : Bool) (s : State),
    let s0 := ({ s with flashJob := none }.put R.HNGE_FLASH_STAT_BUSY 0 0).put R.HNGE_FLASH_STAT_OP 0 0
    let step := contCheck (fun _ => true) j.key true j.container s0
    s.domainOn 1 = true ∧ s.flashJob = some j ∧ step = 0 ∧ done = false ∧ s.get (R.HDR_ERR_CODE_CODE.on 0x15) 0 = 0 :=
  ⟨⟨goodBox, 0x1000, 0⟩, false, writingFlash goodBox 0x1000, by decide +kernel⟩

theorem witness_Hinge_18 : ∃ (q : NetReq) (k : Nat) (s : State),
    let a := q.addr % 0x800000 / 64 * 64 + 4 * k
    s.targetOpen (.flash (q.addr % flashSize)) = true ∧ k < 16 ∧ q.be = 15 * 2 ^ (4 * k) ∧ q.write = false ∧ q.rotate = false ∧ q.flits = 1 ∧ 0x7FE000 ≤ a ∧ s.get (R.HDR_ERR_CODE_CODE.on 0x15) 0 = 0 :=
  ⟨flashReq 0x7FE000 3, 3, allOn, by decide +kernel⟩

theorem witness_Hinge_19 : ∃ (q : NetReq) (k : Nat) (s : State),
    let a := q.addr % 0x800000 / 64 * 64 + 4 * k
    let busy := ∃ j ∈ s.flashJob.toList, j.dst ≤ a ∧ a < j.dst + (contSize j.container + 4095) / 4096 * 4096
    s.targetOpen (.flash (q.addr % flashSize)) = true ∧ k < 16 ∧ q.be = 15 * 2 ^ (4 * k) ∧ q.write = false ∧ q.rotate = false ∧ q.flits = 1 ∧ a < 0x7FE000 ∧ busy :=
  ⟨flashReq 0x1040 3, 3, writingFlash goodBox 0x1000, by decide +kernel⟩

theorem witness_Hinge_20 : ∃ (q : NetReq) (k : Nat) (s : State),
    let a := q.addr % 0x800000 / 64 * 64 + 4 * k
    let busy := ∃ j ∈ s.flashJob.toList, j.dst ≤ a ∧ a < j.dst + (contSize j.container + 4095) / 4096 * 4096
    let row := decodeWord (tblGet 0 s.flash.errs (a / 8)).toNat
    s.targetOpen (.flash (q.addr % flashSize)) = true ∧ k < 16 ∧ q.be = 15 * 2 ^ (4 * k) ∧ q.write = false ∧ q.rotate = false ∧ q.flits = 1 ∧ a < 0x7FE000 ∧ (¬busy) ∧ row ≠ .uncorrectable :=
  ⟨flashReq 0 3, 3, flashed (List.replicate 30 7) allOn, by decide +kernel⟩

theorem witness_Hinge_21 : ∃ (q : NetReq) (k : Nat) (s : State),
    let a := q.addr % 0x800000 / 64 * 64 + 4 * k
    let busy := ∃ j ∈ s.flashJob.toList, j.dst ≤ a ∧ a < j.dst + (contSize j.container + 4095) / 4096 * 4096
    let row := decodeWord (tblGet 0 s.flash.errs (a / 8)).toNat
    s.targetOpen (.flash (q.addr % flashSize)) = true ∧ k < 16 ∧ q.be = 15 * 2 ^ (4 * k) ∧ q.write = false ∧ q.rotate = false ∧ q.flits = 1 ∧ a < 0x7FE000 ∧ (¬busy) ∧ row = .uncorrectable :=
  ⟨flashReq 0 3, 3, { allOn with flash := { allOn.flash with errs := [(1, 1 + 2 ^ 40)] } }, by decide +kernel⟩

theorem witness_Hinge_22 : ∃ (k : Nat) (value : Word) (s : State),
    let x := s.hsp k
    let mode := s.get (R.HSP_CFG_MODE.nth k) 0
    s.pageOpen 0x15 0 = true ∧ k < 8 ∧ x.tx.length < 16 ∧ (bitOf value.toNat 8 = false ∨ mode = 2 ∨ mode = 3 ∨ mode = 5) :=
  ⟨3, 0x141, serialUp 2 [(false, 5)] [], by decide +kernel⟩

theorem witness_Hinge_23 : ∃ (k : Nat) (s : State),
    let x := s.hsp k
    s.pageOpen 0x15 0 = true ∧ k < 8 ∧ 16 ≤ x.tx.length ∧ s.get (R.HDR_ERR_CODE_CODE.on 0x15) 0 = 0 :=
  ⟨3, serialUp 2 (List.replicate 16 (false, 5)) [], by decide +kernel⟩

theorem witness_Hinge_24 : ∃ (k : Nat) (value : Word) (s : State),
    let x := s.hsp k
    let mode := s.get (R.HSP_CFG_MODE.nth k) 0
    s.pageOpen 0x15 0 = true ∧ k < 8 ∧ x.tx.length < 16 ∧ (¬(bitOf value.toNat 8 = false ∨ mode = 2 ∨ mode = 3 ∨ mode = 5)) ∧ s.get (R.HDR_ERR_CODE_CODE.on 0x15) 0 = 0 :=
  ⟨3, 0x141, serialUp 1 [(false, 5)] [], by decide +kernel⟩

theorem witness_Hinge_25 : ∃ (k : Nat) (s : State),
    let x := s.hsp k
    s.pageOpen 0x15 0 = true ∧ k < 8 ∧ x.rx = [] :=
  ⟨3, serialUp 1 [(false, 5)] [], by decide +kernel⟩

theorem witness_Hinge_26 : ∃ (k : Nat) (s : State) (brk : Bool) (err : Bool) (d : Nat) (rest : List (Bool × Bool × Nat)),
    let x := s.hsp k
    s.pageOpen 0x15 0 = true ∧ k < 8 ∧ x.rx = (brk, err, d) :: rest :=
  ⟨3, serialUp 1 [(false, 5)] [(true, false, 9), (false, false, 4)], true, false, 9, [(false, false, 4)], by decide +kernel⟩

theorem witness_Hinge_27 : ∃ (k : Nat) (s : State),
    let mode := s.get (R.HSP_CFG_MODE.nth k) 0
    k < 8 ∧ s.domainOn 1 = true ∧ s.flag (R.HSP_CFG_EN.nth k) 0 = true ∧ mode ≠ 0 :=
  ⟨3, serialUp 2 [] [], by decide +kernel⟩

theorem witness_Hinge_28 : ∃ (k : Nat) (s : State),
    let x := s.hsp k
    k < 8 ∧ s.domainOn 1 = true ∧ s.flag (R.HSP_CFG_EN.nth k) 0 = true ∧ x.tx ≠ [] :=
  ⟨3, serialUp 5 [(false, 5)] [], by decide +kernel⟩

theorem witness_TestAccessPort_1 : ∃ (dr : Nat) (s : State),
    let op := bitsAt dr 72 2
    let j := s.jtag
    j.busy = false ∧ (op = 0 ∨ op = 3) :=
  ⟨7, allOn, by decide +kernel⟩

theorem witness_TestAccessPort_2 : ∃ (dr : Nat) (s : State),
    let op := bitsAt dr 72 2
    let j := s.jtag
    let a := if bitOf dr 75 then (j.addr + 4) % 2 ^ 40 else bitsAt dr 32 40 / 4 * 4
    let level := accessLevel (targetOf s (s.get R.TRLH_DDR_MAP_MODE 39) a) (decide (op = 2)) (bitOf dr 74)
    j.busy = false ∧ (op = 1 ∨ op = 2) ∧ s.debugLevel < level :=
  ⟨2 ^ 72 * 2 + 2 ^ 32 * 0x3001300014 + 5, allOn, by decide +kernel⟩

theorem witness_TestAccessPort_3 : ∃ (dr : Nat) (s : State),
    let op := bitsAt dr 72 2
    let j := s.jtag
    let a := if bitOf dr 75 then (j.addr + 4) % 2 ^ 40 else bitsAt dr 32 40 / 4 * 4
    let level := accessLevel (targetOf s (s.get R.TRLH_DDR_MAP_MODE 39) a) (decide (op = 2)) (bitOf dr 74)
    j.busy = false ∧ (op = 1 ∨ op = 2) ∧ level ≤ s.debugLevel :=
  ⟨2 ^ 72 * 2 + 2 ^ 32 * 0x3001300014 + 5, debugging 1 Engine.idle, by decide +kernel⟩

theorem witness_TestAccessPort_4 : ∃ (s : State),
    let j := s.jtag
    j.busy = true ∧ tblGet [] s.inbox 1248 = [] :=
  ⟨{ allOn with jtag := { allOn.jtag with busy := true, reading := true } }, by decide +kernel⟩

theorem witness_TestAccessPort_5 : ∃ (dr : Nat) (s : State) (r : Answer) (q : NetReq) (rest : List (Answer × NetReq)),
    let op := bitsAt dr 72 2
    let j := s.jtag
    j.busy = true ∧ tblGet [] s.inbox 1248 = (r, q) :: rest ∧ (op = 0 ∨ op = 3) :=
  ⟨0, { allOn with jtag := { allOn.jtag with busy := true, reading := true }, inbox := [(1248, [(⟨rspOk, List.replicate 64 7⟩, farReq false 64 4 0)])] }, ⟨rspOk, List.replicate 64 7⟩, farReq false 64 4 0, [], by decide +kernel⟩

theorem witness_TestAccessPort_6 : ∃ (req : Nat) (s : State),
    let given := (List.range 4).flatMap (fun k => leBytes 4 (tblGet 0 s.latch.response k).toNat)
    s.pageOpen 0x14 0 = true ∧ req < 3 ∧ s.flag R.LTCH_DBG_LOCKED 0 = false ∧ s.vendor = false ∧ given = s.dbgAnswer req ∧ req ≤ s.get R.LTCH_DBG_CEIL 0 :=
  ⟨1, answering 1 (debugging 2 { Engine.idle with brkHalt := true }), by decide +kernel, by decide +kernel, by decide +kernel, by decide +kernel, answering_given _ _, by decide +kernel⟩

theorem witness_TestAccessPort_7 : ∃ (req : Nat) (s : State),
    let given := (List.range 4).flatMap (fun k => leBytes 4 (tblGet 0 s.latch.response k).toNat)
    s.pageOpen 0x14 0 = true ∧ req < 3 ∧ s.flag R.LTCH_DBG_LOCKED 0 = false ∧ s.vendor = false ∧ given = s.dbgAnswer req ∧ s.get R.LTCH_DBG_CEIL 0 < req :=
  ⟨2, answering 2 ((debugging 1 Engine.idle).put R.LTCH_DBG_CEIL 0 1), by decide +kernel, by decide +kernel, by decide +kernel, by decide +kernel, answering_given _ _, by decide +kernel⟩

theorem witness_TestAccessPort_8 : ∃ (req : Nat) (s : State),
    let given := (List.range 4).flatMap (fun k => leBytes 4 (tblGet 0 s.latch.response k).toNat)
    s.pageOpen 0x14 0 = true ∧ req < 3 ∧ s.flag R.LTCH_DBG_LOCKED 0 = false ∧ s.vendor = false ∧ given ≠ s.dbgAnswer req := by
  obtain ⟨r, hr, h⟩ := some_response_wrong 2 (debugging 1 Engine.idle) [] [(0, 1)] (by decide +kernel)
  refine ⟨2, withResponse r (debugging 1 Engine.idle), ?_, by decide, ?_, ?_, h⟩ <;> rcases hr with rfl | rfl <;> decide +kernel

theorem witness_DebugPortAndRunControl_0 : ∃ (e : EngineId) (s : State),
    let may := s.debugLevel = 2 ∧ s.haltAllowed e.ty = true ∧ s.engState e.ty e.num = 1
    s.pageOpen 0x18 0 = true ∧ s.selType = e.ty ∧ s.selNum = e.num ∧ engineOk e = true ∧ may :=
  ⟨⟨3, 1⟩, debugGang 1 Engine.idle, by decide +kernel⟩

theorem witness_DebugPortAndRunControl_1 : ∃ (e : EngineId) (s : State),
    let may := s.debugLevel = 2 ∧ s.haltAllowed e.ty = true ∧ s.engState e.ty e.num = 1
    s.pageOpen 0x18 0 = true ∧ s.selType = e.ty ∧ s.selNum = e.num ∧ engineOk e = true ∧ (¬may) ∧ s.get (R.HDR_ERR_CODE_CODE.on 0x18) 0 = 0 :=
  ⟨⟨3, 1⟩, debugging 2 Engine.idle, by decide +kernel⟩

theorem witness_DebugPortAndRunControl_2 : ∃ (e : EngineId) (s : State),
    s.pageOpen 0x18 0 = true ∧ s.selType = e.ty ∧ s.selNum = e.num ∧ engineOk e = true ∧ s.engineGang e.ty e.num = none ∧ s.engState e.ty e.num = 2 :=
  ⟨⟨3, 1⟩, debugging 2 Engine.idle, by decide +kernel⟩

theorem witness_DebugPortAndRunControl_3 : ∃ (e : EngineId) (s : State),
    s.pageOpen 0x18 0 = true ∧ s.selType = e.ty ∧ s.selNum = e.num ∧ engineOk e = true ∧ s.engineGang e.ty e.num = none ∧ s.engState e.ty e.num = 1 :=
  ⟨⟨3, 1⟩, debugging 1 { Engine.idle with haltReq := 1 }, by decide +kernel⟩

theorem witness_DebugPortAndRunControl_4 : ∃ (e : EngineId) (s : State) (ps : List Nat),
    s.pageOpen 0x18 0 = true ∧ s.selType = e.ty ∧ s.selNum = e.num ∧ engineOk e = true ∧ s.engineGang e.ty e.num = some ps ∧ s.engState e.ty e.num = 2 :=
  ⟨⟨3, 1⟩, debugGang 2 Engine.idle, [1], by decide +kernel⟩

theorem witness_DebugPortAndRunControl_5 : ∃ (e : EngineId) (s : State),
    s.pageOpen 0x18 0 = true ∧ s.selType = e.ty ∧ s.selNum = e.num ∧ engineOk e = true :=
  ⟨⟨3, 1⟩, debugging 2 Engine.idle, by decide +kernel⟩

theorem witness_DebugPortAndRunControl_6 : ∃ (e : EngineId) (s : State),
    s.pageOpen 0x18 0 = true ∧ s.selType = e.ty ∧ s.selNum = e.num ∧ engineOk e = true :=
  ⟨⟨3, 1⟩, debugging 2 { Engine.idle with brkHalt := true }, by decide +kernel⟩

theorem witness_DebugPortAndRunControl_7 : ∃ (e : EngineId) (s : State),
    let x := s.core e
    engineOk e = true ∧ s.engState e.ty e.num = 1 ∧ x.late = [] ∧ x.due = [] ∧ x.bundle = [] ∧ x.loads = [] ∧ x.far = none ∧ x.held = false ∧ s.holdsWindow e.ty e.num = false ∧ x.haltReq = 0 :=
  ⟨⟨3, 1⟩, debugging 1 Engine.idle, by decide +kernel⟩

theorem witness_DebugPortAndRunControl_8 : ∃ (e : EngineId) (s : State),
    let x := s.core e
    engineOk e = true ∧ s.engState e.ty e.num = 1 ∧ x.late = [] ∧ x.due = [] ∧ x.bundle = [] ∧ x.loads = [] ∧ x.far = none ∧ x.held = false ∧ s.holdsWindow e.ty e.num = false ∧ 1 ≤ x.haltReq ∧ x.haltReq ≤ 3 ∧ s.engineGang e.ty e.num = none :=
  ⟨⟨3, 1⟩, debugging 1 { Engine.idle with haltReq := 1 }, by decide +kernel⟩

theorem witness_DebugPortAndRunControl_9 : ∃ (e : EngineId) (s : State) (ps : List Nat),
    let x := s.core e
    let others := fun (y : Nat × Nat) => y = (e.ty, e.num) ∨ s.engState y.1 y.2 ≠ 1
    engineOk e = true ∧ s.engState e.ty e.num = 1 ∧ x.late = [] ∧ x.due = [] ∧ x.bundle = [] ∧ x.loads = [] ∧ x.far = none ∧ x.held = false ∧ s.holdsWindow e.ty e.num = false ∧ 1 ≤ x.haltReq ∧ x.haltReq ≤ 3 ∧ s.engineGang e.ty e.num = some ps ∧ (∀ y, y ∈ s.haltUnit e.ty e.num → others y) :=
  ⟨⟨3, 1⟩, debugGang 1 { Engine.idle with haltReq := 1 }, [1], by decide +kernel⟩

theorem witness_DebugPortAndRunControl_10 : ∃ (e : EngineId) (s : State),
    s.pageOpen 0x18 0 = true ∧ s.selType = e.ty ∧ s.selNum = e.num ∧ engineOk e = true ∧ s.engState e.ty e.num ≠ 2 :=
  ⟨⟨3, 1⟩, debugging 1 Engine.idle, by decide +kernel⟩

theorem witness_DebugPortAndRunControl_11 : ∃ (y : Syl) (e : EngineId) (s : State),
    let k := engKey e.ty e.num
    let r := s.setEngState e.ty e.num 1
    s.pageOpen 0x18 0 = true ∧ s.selType = e.ty ∧ s.selNum = e.num ∧ engineOk e = true ∧ s.engState e.ty e.num = 2 ∧ s.engineGang e.ty e.num = none ∧ r.ready e = true ∧ s.holdsWindow e.ty e.num = false ∧ y.alone = true ∧ y.rd ≠ 0 ∧ (s.core e).pc + 4 ≤ imemBytes e.ty ∧ leNum ((s.mem k).bytes false (s.core e).pc 4) = sylWord 0x12 y :=
  ⟨oriSyl, ⟨3, 1⟩, withCode (sylWord 0x12 oriSyl) (debugging 2 Engine.idle), by decide +kernel⟩

theorem witness_DebugPortAndRunControl_12 : ∃ (e : EngineId) (s : State),
    let space := s.get R.DBG_REG_IDX_SPACE 0
    let num := s.get R.DBG_REG_IDX_NUM 0
    let st := s.engState e.ty e.num
    s.pageOpen 0x18 0 = true ∧ s.selType = e.ty ∧ s.selNum = e.num ∧ engineOk e = true ∧ (st = 2 ∨ st = 3) ∧ space = 0 ∧ num < 8 + 16 * windowPositions e.ty :=
  ⟨⟨3, 1⟩, ((debugging 2 Engine.idle).put R.DBG_REG_IDX_SPACE 0 0).put R.DBG_REG_IDX_NUM 0 5, by decide +kernel⟩

theorem witness_DebugPortAndRunControl_13 : ∃ (e : EngineId) (s : State),
    let space := s.get R.DBG_REG_IDX_SPACE 0
    let num := s.get R.DBG_REG_IDX_NUM 0
    let st := s.engState e.ty e.num
    s.pageOpen 0x18 0 = true ∧ s.selType = e.ty ∧ s.selNum = e.num ∧ engineOk e = true ∧ (st = 2 ∨ st = 3) ∧ space = 2 :=
  ⟨⟨3, 1⟩, ((debugging 3 Engine.idle).put R.DBG_REG_IDX_SPACE 0 2).put R.DBG_REG_IDX_NUM 0 0, by decide +kernel⟩

theorem witness_DebugPortAndRunControl_14 : ∃ (e : EngineId) (s : State),
    let space := s.get R.DBG_REG_IDX_SPACE 0
    let num := s.get R.DBG_REG_IDX_NUM 0
    let st := s.engState e.ty e.num
    s.pageOpen 0x18 0 = true ∧ s.selType = e.ty ∧ s.selNum = e.num ∧ engineOk e = true ∧ (st = 2 ∨ st = 3) ∧ space = 1 ∧ 4 ≤ num ∧ num ≤ 9 :=
  ⟨⟨3, 1⟩, ((debugging 2 Engine.idle).put R.DBG_REG_IDX_SPACE 0 1).put R.DBG_REG_IDX_NUM 0 9, by decide +kernel⟩

theorem witness_DebugPortAndRunControl_15 : ∃ (e : EngineId) (s : State),
    let num := s.get R.DBG_REG_IDX_NUM 0
    let st := s.engState e.ty e.num
    s.pageOpen 0x18 0 = true ∧ s.selType = e.ty ∧ s.selNum = e.num ∧ engineOk e = true ∧ st ≠ 2 ∧ st ≠ 3 ∧ s.get (R.HDR_ERR_CODE_CODE.on 0x18) 0 = 0 :=
  ⟨⟨3, 1⟩, ((debugging 1 Engine.idle).put R.DBG_REG_IDX_SPACE 0 0).put R.DBG_REG_IDX_NUM 0 5, by decide +kernel⟩

theorem witness_DebugPortAndRunControl_16 : ∃ (e : EngineId) (s : State),
    let num := s.get R.DBG_REG_IDX_NUM 0
    let st := s.engState e.ty e.num
    s.pageOpen 0x18 0 = true ∧ s.selType = e.ty ∧ s.selNum = e.num ∧ engineOk e = true ∧ (st ≠ 2 ∨ s.debugLevel ≠ 2) ∧ s.get (R.HDR_ERR_CODE_CODE.on 0x18) 0 = 0 :=
  ⟨⟨3, 1⟩, ((debugging 3 Engine.idle).put R.DBG_REG_IDX_SPACE 0 0).put R.DBG_REG_IDX_NUM 0 5, by decide +kernel⟩

theorem witness_DebugPortAndRunControl_17 : ∃ (e : EngineId) (s : State),
    let space := s.get R.DBG_REG_IDX_SPACE 0
    let num := s.get R.DBG_REG_IDX_NUM 0
    let st := s.engState e.ty e.num
    s.pageOpen 0x18 0 = true ∧ s.selType = e.ty ∧ s.selNum = e.num ∧ engineOk e = true ∧ st = 2 ∧ s.debugLevel = 2 ∧ space = 0 ∧ num < 8 + 16 * windowPositions e.ty :=
  ⟨⟨3, 1⟩, ((debugging 2 Engine.idle).put R.DBG_REG_IDX_SPACE 0 0).put R.DBG_REG_IDX_NUM 0 5, by decide +kernel⟩

theorem witness_DebugPortAndRunControl_18 : ∃ (e : EngineId) (s : State),
    let space := s.get R.DBG_REG_IDX_SPACE 0
    let num := s.get R.DBG_REG_IDX_NUM 0
    let st := s.engState e.ty e.num
    s.pageOpen 0x18 0 = true ∧ s.selType = e.ty ∧ s.selNum = e.num ∧ engineOk e = true ∧ st = 2 ∧ s.debugLevel = 2 ∧ space = 1 ∧ num = 4 :=
  ⟨⟨3, 1⟩, ((debugging 2 Engine.idle).put R.DBG_REG_IDX_SPACE 0 1).put R.DBG_REG_IDX_NUM 0 4, by decide +kernel⟩

theorem witness_DebugPortAndRunControl_19 : ∃ (e : EngineId) (s : State),
    let space := s.get R.DBG_REG_IDX_SPACE 0
    let num := s.get R.DBG_REG_IDX_NUM 0
    let st := s.engState e.ty e.num
    s.pageOpen 0x18 0 = true ∧ s.selType = e.ty ∧ s.selNum = e.num ∧ engineOk e = true ∧ st = 2 ∧ s.debugLevel = 2 ∧ space = 2 :=
  ⟨⟨3, 1⟩, ((debugging 2 Engine.idle).put R.DBG_REG_IDX_SPACE 0 2).put R.DBG_REG_IDX_NUM 0 0, by decide +kernel⟩

theorem witness_DebugPortAndRunControl_20 : ∃ (data : Nat) (e : EngineId) (s : State),
    let k := engKey e.ty e.num
    let out := tblGet [] s.vtOut k
    s.pageOpen 0x18 0 = true ∧ engineOk e = true ∧ data < 256 ∧ out.length < 16 :=
  ⟨65, ⟨3, 1⟩, { debugging 1 Engine.idle with vtOut := [(engKey 3 1, [3])], vtIn := [(engKey 3 1, [4])] }, by decide +kernel⟩

theorem witness_DebugPortAndRunControl_21 : ∃ (data : Nat) (e : EngineId) (s : State),
    let k := engKey e.ty e.num
    let out := tblGet [] s.vtOut k
    s.pageOpen 0x18 0 = true ∧ engineOk e = true ∧ data < 256 ∧ 16 ≤ out.length :=
  ⟨65, ⟨3, 1⟩, { debugging 1 Engine.idle with vtOut := [(engKey 3 1, List.replicate 16 3)], vtIn := [(engKey 3 1, [4])] }, by decide +kernel⟩

theorem witness_DebugPortAndRunControl_22 : ∃ (data : Nat) (e : EngineId) (s : State),
    let k := engKey e.ty e.num
    let out := tblGet [] s.vtOut k
    let mine := s.selType = e.ty ∧ s.selNum = e.num
    s.pageOpen 0x18 0 = true ∧ engineOk e = true ∧ data < 256 ∧ mine ∧ out = [] :=
  ⟨65, ⟨3, 1⟩, debugging 1 Engine.idle, by decide +kernel⟩

theorem witness_DebugPortAndRunControl_23 : ∃ (data : Nat) (e : EngineId) (s : State) (b : Nat) (rest : List Nat),
    let k := engKey e.ty e.num
    let out := tblGet [] s.vtOut k
    let mine := s.selType = e.ty ∧ s.selNum = e.num
    s.pageOpen 0x18 0 = true ∧ engineOk e = true ∧ data < 256 ∧ mine ∧ out = b :: rest :=
  ⟨65, ⟨3, 1⟩, { debugging 1 Engine.idle with vtOut := [(engKey 3 1, [3, 5])], vtIn := [(engKey 3 1, [4])] }, 3, [5], by decide +kernel⟩

theorem witness_DebugPortAndRunControl_24 : ∃ (data : Nat) (e : EngineId) (s : State),
    let k := engKey e.ty e.num
    let inp := tblGet [] s.vtIn k
    let mine := s.selType = e.ty ∧ s.selNum = e.num
    s.pageOpen 0x18 0 = true ∧ engineOk e = true ∧ data < 256 ∧ mine ∧ inp.length < 16 :=
  ⟨65, ⟨3, 1⟩, { debugging 1 Engine.idle with vtOut := [(engKey 3 1, [3])], vtIn := [(engKey 3 1, [4])] }, by decide +kernel⟩

theorem witness_DebugPortAndRunControl_25 : ∃ (data : Nat) (e : EngineId) (s : State),
    let k := engKey e.ty e.num
    let inp := tblGet [] s.vtIn k
    let mine := s.selType = e.ty ∧ s.selNum = e.num
    s.pageOpen 0x18 0 = true ∧ engineOk e = true ∧ data < 256 ∧ mine ∧ 16 ≤ inp.length ∧ s.get (R.HDR_ERR_CODE_CODE.on 0x18) 0 = 0 :=
  ⟨65, ⟨3, 1⟩, { debugging 1 Engine.idle with vtOut := [(engKey 3 1, [3])], vtIn := [(engKey 3 1, List.replicate 16 4)] }, by decide +kernel⟩

theorem witness_DebugPortAndRunControl_26 : ∃ (data : Nat) (e : EngineId) (s : State),
    let k := engKey e.ty e.num
    let inp := tblGet [] s.vtIn k
    s.pageOpen 0x18 0 = true ∧ engineOk e = true ∧ data < 256 ∧ inp = [] :=
  ⟨65, ⟨3, 1⟩, debugging 1 Engine.idle, by decide +kernel⟩

theorem witness_DebugPortAndRunControl_27 : ∃ (data : Nat) (e : EngineId) (s : State) (b : Nat) (rest : List Nat),
    let k := engKey e.ty e.num
    let inp := tblGet [] s.vtIn k
    s.pageOpen 0x18 0 = true ∧ engineOk e = true ∧ data < 256 ∧ inp = b :: rest :=
  ⟨65, ⟨3, 1⟩, { debugging 1 Engine.idle with vtOut := [(engKey 3 1, [9])], vtIn := [(engKey 3 1, [3, 5])] }, 3, [5], by decide +kernel⟩

end Sys2Proof.Tests
end

section
/-!
PROOFS. More laws of fields: what a field and an event leave of the bits beside them, what a settled outcome reads.
-/

namespace Sys2Proof

/-! ### Bits of a number with a field replaced -/

/-- A bit of a number with a field replaced is the value's inside the field, the number's outside. -/
theorem testBit_setBits (n lo w v j : Nat) :
    (setBits n lo w v).testBit j = if lo ≤ j ∧ j < lo + w then v.testBit (j - lo) else n.testBit j := by
  have hlow : n % 2 ^ lo < 2 ^ lo := Nat.mod_lt _ (by positivity)
  have hfield : v % 2 ^ w < 2 ^ w := Nat.mod_lt _ (by positivity)
  have hbelow : 2 ^ lo * (v % 2 ^ w) + n % 2 ^ lo < 2 ^ (lo + w) := by
    rw [pow_add, Nat.add_comm]
    exact add_mul_lt _ _ _ _ hlow hfield
  have hsum : setBits n lo w v = 2 ^ (lo + w) * (n / 2 ^ (lo + w)) + (2 ^ lo * (v % 2 ^ w) + n % 2 ^ lo) := by
    rw [setBits_split]
    ring
  rw [hsum, Nat.testBit_two_pow_mul_add _ hbelow, Nat.testBit_two_pow_mul_add _ hlow]
  by_cases h1 : j < lo
  · simp [h1, show j < lo + w by omega, Nat.not_le.2 h1]
  · by_cases h2 : j < lo + w
    · simp [h1, h2, Nat.not_lt.1 h1, show j - lo < w by omega]
    · simp [h2, Nat.testBit_div_two_pow, Nat.sub_add_cancel (Nat.not_lt.1 h2)]

/-- A field beside the one replaced keeps its value. -/
theorem bitsAt_setBits_disjoint (n lo w v lo' w' : Nat) (h : lo' + w' ≤ lo ∨ lo + w ≤ lo') :
    bitsAt (setBits n lo w v) lo' w' = bitsAt n lo' w' := by
  refine Nat.eq_of_testBit_eq fun j => ?_
  simp only [bitsAt, Nat.testBit_mod_two_pow, Nat.testBit_div_two_pow, testBit_setBits]
  by_cases hj : j < w'
  · rw [if_neg (by omega)]
  · simp [hj]

/-- Setting one bit is the OR with its power of two. -/
theorem setBits_one (n k : Nat) : setBits n k 1 1 = n ||| 2 ^ k := by
  refine Nat.eq_of_testBit_eq fun j => ?_
  rw [testBit_setBits, Nat.testBit_or, Nat.testBit_two_pow]
  by_cases hj : k = j
  · subst hj
    simp
  · rw [if_neg (by omega)]
    simp [hj]

end Sys2Proof

namespace Sys2Proof.Machine

/-! ### Fields, events -/

/-- A field of the same register beside the one written keeps its value. -/
theorem State.get_put_disjoint (s : State) (f g : Field) (n v : Nat) (hty : g.ty = f.ty) (hoff : g.off = f.off) (hw : f.lo + f.w ≤ 32)
    (h : g.lo + g.w ≤ f.lo ∨ f.lo + f.w ≤ g.lo) : (s.put f n v).get g n = s.get g n := by
  have hlt := setBits_lt (s.getReg f.ty n f.off).toNat f.lo f.w v (s.getReg f.ty n f.off).isLt hw
  simp only [State.get, State.put, hty, hoff, State.getReg_setReg, BitVec.toNat_ofNat]
  rw [Nat.mod_eq_of_lt hlt, bitsAt_setBits_disjoint _ _ _ _ _ _ h]

/-- Registers of one page at different offsets have different keys. -/
theorem regKey_ne_of_off (ty n off off' : Nat) (h : off' ≠ off) : regKey ty n off' ≠ regKey ty n off := by
  unfold regKey
  omega

/-- A field at another offset of the page keeps its value. -/
theorem State.get_put_off (s : State) (f g : Field) (n v : Nat) (hty : g.ty = f.ty) (h : g.off ≠ f.off) :
    (s.put f n v).get g n = s.get g n := by
  refine State.get_put_other s f g n n v ?_
  rw [Field.key, Field.key, hty]
  exact regKey_ne_of_off _ _ _ _ h

/-- A register at another offset of the page keeps its word. -/
theorem State.getReg_put_off (s : State) (f : Field) (ty n v off : Nat) (hty : ty = f.ty) (h : off ≠ f.off) :
    (s.put f n v).getReg ty n off = s.getReg ty n off := by
  subst hty
  exact State.getReg_setReg_other _ _ _ _ _ _ _ _ (regKey_ne_of_off _ _ _ _ h)

/-- An event leaves every field of its page outside EVT. -/
theorem State.get_raise_off (s : State) (g : Field) (ty n k : Nat) (hty : g.ty = ty) (h : g.off ≠ 0x10) :
    (s.raise ty n k).get g n = s.get g n := State.get_put_off s ⟨ty, 0x10, 4, k, 1⟩ g n 1 hty h

/-- A page's EVT after an event: its bit is raised, the others stay (R40). -/
theorem State.getReg_raise (s : State) (ty n k : Nat) : (s.raise ty n k).getReg ty n 0x10 = s.getReg ty n 0x10 ||| word (2 ^ k) := by
  simp only [State.raise, State.put, State.getReg_setReg, setBits_one]
  apply BitVec.eq_of_toNat_eq
  simp

/-- A register reads the same where the file lists the same for it. -/
theorem State.getReg_of_find (s t : State) (ty n off : Nat) (h : tblFind t.regs (regKey ty n off) = tblFind s.regs (regKey ty n off)) :
    t.getReg ty n off = s.getReg ty n off := by
  rw [State.getReg, State.getReg, tblGet, tblGet, h]

/-- A field reads the same where the file lists the same for its register. -/
theorem State.get_of_find (s t : State) (f : Field) (n : Nat) (h : tblFind t.regs (f.key n) = tblFind s.regs (f.key n)) :
    t.get f n = s.get f n := by
  rw [State.get, State.get, State.getReg_of_find s t f.ty n f.off h]

/-! ### Outcomes -/

/-- A state with its pins at given levels. -/
def State.withPins (s : State) (p : Pins) : State := { s with pins := p }

/-- A meaning that completes ends in its state with some levels on the pins. -/
theorem next_of_done {r : Result} {s : State} (h : r = done s) : ∃ p, r = .next (s.withPins p) := ⟨s.settledPins, h⟩

@[simp] theorem State.withPins_regs (s : State) (p : Pins) : (s.withPins p).regs = s.regs := by rw [State.withPins]
@[simp] theorem State.withPins_answer (s : State) (p : Pins) : (s.withPins p).answer = s.answer := by rw [State.withPins]
@[simp] theorem State.withPins_reports (s : State) (p : Pins) : (s.withPins p).reports = s.reports := by rw [State.withPins]

@[simp] theorem State.withPins_get (s : State) (p : Pins) (f : Field) (n : Nat) : (s.withPins p).get f n = s.get f n :=
  State.get_of_find _ _ _ _ (by rw [State.withPins_regs])

@[simp] theorem State.withPins_flag (s : State) (p : Pins) (f : Field) (n : Nat) : (s.withPins p).flag f n = s.flag f n := by
  rw [State.flag, State.flag, State.withPins_get]

@[simp] theorem State.withPins_getReg (s : State) (p : Pins) (ty n off : Nat) : (s.withPins p).getReg ty n off = s.getReg ty n off :=
  State.getReg_of_find _ _ _ _ _ (by rw [State.withPins_regs])

@[simp] theorem State.withPins_ddrCh (s : State) (p : Pins) (k : Nat) : (s.withPins p).ddrCh k = s.ddrCh k := by
  rw [State.ddrCh, State.ddrCh, State.withPins]

end Sys2Proof.Machine
end

section
/-!
PROOFS. The Lintel (O41).
-/

namespace Sys2Proof.Machine

/-! ### LINK_DOWN -/

/-- LINK_DOWN of a side is the loss of the link. -/
theorem exec_linkDown (side : Nat) (s : State) (h : side < 2) : exec (.linkDown side) s = done (linkDown s) := by
  show need (decide (side < 2)) (done (linkDown s)) = _
  rw [decide_eq_true h, need_true]

/-- What LINK_DOWN leaves on its way to the aggregator. -/
theorem reports_of_linkDown (side : Nat) (s t : State) (h : side < 2) (hrun : exec (.linkDown side) s = .next t) :
    t.reports = (linkDown s).reports := by
  rw [exec_linkDown side s h] at hrun
  rw [done_next _ _ hrun]

/-- A read of the signal table by an engine behind STIL_26, at its second hop: south over BR0 to STIL_37, then to TRLH_32 at port L0. An
error has struck it in its buffer, so the second CRC check will find it (R323). -/
def struckRead : Flit where
  route := 2 + 2 * 8 + 4 * 64
  hop := 1
  kind := 0
  vc := 0
  cb := true
  src := 28
  init := 0
  dest := 32
  tag := 0
  rspAlt := false
  tickSeq := 0
  xs := 0
  addr := 0x3100000000 / 64
  be := 0xFF
  data := []
  map := 0
  epoch := 0
  hurt := true
  dma := false

/-- The Lintel as its first training between two powered ends leaves it: UP, with both bridges in SERVICE (R18, R20). -/
def lintelTrained : State :=
  trainingDone true (((State.reset.put (domainField 8) 0 psOn).put (domainField 9) 0 psOn).put R.LNTL_LINK_STAT_STATE 1 lnkTraining)

/-- STIL_32 holds the struck read at its north input; all 16 credits of BR0 toward STIL_37 are spent. -/
def struckAtBridge : State :=
  (lintelTrained.setStile 32 { Stile.idle with buf := [(0, [struckRead])] }).setStile 37 { Stile.idle with used := [(0, 16)] }

theorem struckAtBridge_linkUp : struckAtBridge.linkUp = true := by decide +kernel

theorem struckAtBridge_noReports : struckAtBridge.reports = [] := by decide +kernel

/-- While the link is up the read waits for a credit. -/
theorem struckAtBridge_waits : stileMove struckAtBridge 32 = none := by decide +kernel

/-- The loss of the link discards what waits for the bridge (R20), so the read leaves its buffer, the second CRC check fails, and STIL_32
reports its own fault (R325) before LNTL_1 reports the loss. -/
theorem struckAtBridge_reports :
    (linkDown struckAtBridge).reports = [⟨0x08, 32, 5, clsUnit⟩, ⟨0x0A, 1, 0, clsArray⟩] := by decide +kernel

/-- Refutes O41: its LINK_DOWN clause leaves no report but those that waited and LNTL_1's, and a stile at a bridge end may add one. -/
theorem not_theLink : ¬ Obligations.TheLink := by
  unfold Obligations.TheLink
  rintro ⟨-, -, hdown, -⟩
  obtain ⟨t, hrun, -, -, -, -, -, hreports, -⟩ := hdown 1 struckAtBridge (by decide) struckAtBridge_linkUp
  rw [reports_of_linkDown 1 _ t (by decide) hrun, struckAtBridge_reports, struckAtBridge_noReports] at hreports
  exact absurd hreports (by decide)

end Sys2Proof.Machine
end

section
/-!
PROOFS. The DDR channels (O47).
-/

namespace Sys2Proof.Machine

/-! ### The DDRC page -/

/-- An open page of a block other than a trailhead takes writes: it is not fenced, and its domain is up (R35, R328). -/
theorem pageOpen_reached (s : State) (ty n off : Nat) (hty : ty ≠ 0x09) (h : s.pageOpen ty n = true) :
    s.fenced (.page ty n off) = false ∧ s.domainUp (pageDomain ty n) = true := by
  simp only [State.pageOpen, Bool.and_eq_true, Bool.or_eq_true, beq_iff_eq, Bool.not_eq_true'] at h
  obtain ⟨⟨-, hup⟩, hfence⟩ := h
  have hflag : s.flag (R.HDR_CTL_FENCE.on 0x09) (pageTrlh ty n) = false := hfence.resolve_left fun h => hty h.1
  exact ⟨by simp [State.fenced, targetIsPage, targetTrlh, hflag], hup⟩

/-- A write of DDRC_TRAIN_CTL reaches its own rule. -/
theorem regWrite_trainCtl (i : Initiator) (ch : Nat) (v : Word) (s : State) (h : s.pageOpen 0x0C ch = true) :
    regWrite ⟨i, false, 0x0C, ch, 0x04C, v, 0⟩ s =
      done ((trainCtlWrite ⟨i, false, 0x0C, ch, 0x04C, v, 0⟩ s).1.reply (trainCtlWrite ⟨i, false, 0x0C, ch, 0x04C, v, 0⟩ s).2 []) := by
  obtain ⟨hfence, hup⟩ := pageOpen_reached s 0x0C ch 0x04C (by decide) h
  have hword : wordWrite ⟨i, false, 0x0C, ch, 0x04C, v, 0⟩ s = trainCtlWrite ⟨i, false, 0x0C, ch, 0x04C, v, 0⟩ s := rfl
  simp [regWrite, pageWrite, afterWrite, hfence, hup, hword]

/-- A write of DDRC_TRAIN_DATA reaches its own rule. -/
theorem regWrite_trainData (i : Initiator) (ch : Nat) (v : Word) (s : State) (h : s.pageOpen 0x0C ch = true) :
    regWrite ⟨i, false, 0x0C, ch, 0x058, v, 0⟩ s =
      done ((trainDataWrite ⟨i, false, 0x0C, ch, 0x058, v, 0⟩ s).1.reply (trainDataWrite ⟨i, false, 0x0C, ch, 0x058, v, 0⟩ s).2 []) := by
  obtain ⟨hfence, hup⟩ := pageOpen_reached s 0x0C ch 0x058 (by decide) h
  have hword : wordWrite ⟨i, false, 0x0C, ch, 0x058, v, 0⟩ s = trainDataWrite ⟨i, false, 0x0C, ch, 0x058, v, 0⟩ s := rfl
  simp [regWrite, pageWrite, afterWrite, hfence, hup, hword]

/-- A read of DDRC_TRAIN_DATA that is no peek takes the word and the index on. -/
theorem regRead_trainData (i : Initiator) (ch : Nat) (s : State) (h : s.pageOpen 0x0C ch = true) :
    regRead i true 0x0C ch 0x058 s = done { (trainDataRead ch s).1 with answer := [⟨rspOk, wordBytes (trainDataRead ch s).2⟩] } := by
  obtain ⟨hfence, hup⟩ := pageOpen_reached s 0x0C ch 0x058 (by decide) h
  have hread : pageRead i true 0x0C ch 0x058 s = ((trainDataRead ch s).1, ⟨rspOk, wordBytes (trainDataRead ch s).2⟩) := rfl
  simp [regRead, pageFetch, hfence, hup, hread]

/-! ### Training (R26) -/

/-- A channel as a training asked for leaves it: TRAINING, with the mode in DDRC_TRAIN_CTL and in its hidden state. -/
def trainStarted (ch : Nat) (full : Bool) (s : State) : State :=
  (((s.put R.DDRC_TRAIN_CTL_MODE ch (bit full)).put R.DDRC_TRAIN_CTL_START ch 1).put R.DDRC_STAT_STATE ch ddrTraining).setDdr ch
    { s.ddrCh ch with fullMode := full }

/-- START of a DOWN or LOST channel whose geometry agrees with the other's. -/
theorem trainCtlWrite_starts (i : Initiator) (ch : Nat) (full : Bool) (s : State) (hst : s.ddrState ch = ddrDown ∨ s.ddrState ch = ddrLostState)
    (hd : s.get R.DDRC_CFG_DENSITY 0 = s.get R.DDRC_CFG_DENSITY 1) (hr : s.get R.DDRC_CFG_RANKS2 0 = s.get R.DDRC_CFG_RANKS2 1) :
    trainCtlWrite ⟨i, false, 0x0C, ch, 0x04C, word (1 + 2 * bit full), 0⟩ s = (trainStarted ch full s, rspOk) := by
  have hstart : bitOf (word (1 + 2 * bit full)).toNat 0 = true := by cases full <;> decide
  have hmode : bitOf (word (1 + 2 * bit full)).toNat 1 = full := by cases full <;> decide
  simp only [trainCtlWrite, hstart, hmode, hst, hd, hr, if_true, ne_eq, not_true, or_self, if_false]
  rfl

/-- The command starts a training of a channel in the mode given, and changes nothing else. -/
def TrainStarts (c : Instr) (ch : Nat) (full : Bool) (s : State) : Prop :=
  ∃ t, exec c s = .next t ∧ t.answered rspOk ∧ t.ddrState ch = ddrTraining ∧ t.flag R.DDRC_TRAIN_CTL_START ch = true ∧
    t.flag R.DDRC_TRAIN_CTL_MODE ch = full ∧ t.ddrCh ch = { s.ddrCh ch with fullMode := full } ∧
    t = { s with ddr := t.ddr, regs := t.regs, answer := t.answer, pins := t.pins } ∧ (∀ k, k ≠ ch → t.ddrCh k = s.ddrCh k) ∧
    RegsBut [R.DDRC_TRAIN_CTL.key ch, R.DDRC_STAT_STATE.key ch] s t

/-- A command that writes START and the mode to DDRC_TRAIN_CTL starts the training. -/
theorem train_starts (c : Instr) (i : Initiator) (ch : Nat) (full : Bool) (s : State)
    (hexec : exec c s = regWrite ⟨i, false, 0x0C, ch, 0x04C, word (1 + 2 * bit full), 0⟩ s) (hopen : s.pageOpen 0x0C ch = true)
    (hst : s.ddrState ch = ddrDown ∨ s.ddrState ch = ddrLostState) (hd : s.get R.DDRC_CFG_DENSITY 0 = s.get R.DDRC_CFG_DENSITY 1)
    (hr : s.get R.DDRC_CFG_RANKS2 0 = s.get R.DDRC_CFG_RANKS2 1) : TrainStarts c ch full s := by
  have hdone := hexec.trans (regWrite_trainCtl i ch (word (1 + 2 * bit full)) s hopen)
  rw [trainCtlWrite_starts i ch full s hst hd hr] at hdone
  obtain ⟨p, hrun⟩ := next_of_done hdone
  refine ⟨_, hrun, rfl, ?_, ?_, ?_, ?_, ?_, fun k hk => ?_, fun k hk => ?_⟩
  · simp [State.ddrState, trainStarted, State.get_put]
  · simp (disch := decide) [State.flag, trainStarted, State.get_put, State.get_put_off]
  · cases full <;> simp (disch := decide) [State.flag, trainStarted, State.get_put, State.get_put_off, State.get_put_disjoint, bit]
  · simp [trainStarted]
  · simp only [State.withPins, State.reply, trainStarted, State.setDdr, State.put, State.setReg]
  · simp [trainStarted, State.setDdr_other _ _ _ _ hk]
  · simp only [List.mem_cons, List.not_mem_nil, or_false, not_or] at hk
    obtain ⟨hctl, hstat⟩ := hk
    simp only [trainStarted, State.withPins_regs, State.reply_regs, State.setDdr_regs]
    rw [State.put_find _ R.DDRC_STAT_STATE _ _ _ hstat, State.put_find _ R.DDRC_TRAIN_CTL_START _ _ _ hctl,
      State.put_find _ R.DDRC_TRAIN_CTL_MODE _ _ _ hctl]

theorem train_full (i : Initiator) (ch : Nat) (s : State) (hch : ch < 2) (hopen : s.pageOpen 0x0C ch = true)
    (hst : s.ddrState ch = ddrDown ∨ s.ddrState ch = ddrLostState) (hd : s.get R.DDRC_CFG_DENSITY 0 = s.get R.DDRC_CFG_DENSITY 1)
    (hr : s.get R.DDRC_CFG_RANKS2 0 = s.get R.DDRC_CFG_RANKS2 1) : TrainStarts (.ddrTrainFull i ch) ch true s := by
  have hexec : exec (.ddrTrainFull i ch) s = regWrite ⟨i, false, 0x0C, ch, 0x04C, 3, 0⟩ s := by
    show need (decide (ch < 2)) _ = _
    rw [decide_eq_true hch, need_true]
  exact train_starts (.ddrTrainFull i ch) i ch true s hexec hopen hst hd hr

theorem train_restore (i : Initiator) (ch : Nat) (s : State) (hch : ch < 2) (hopen : s.pageOpen 0x0C ch = true)
    (hst : s.ddrState ch = ddrDown ∨ s.ddrState ch = ddrLostState) (hd : s.get R.DDRC_CFG_DENSITY 0 = s.get R.DDRC_CFG_DENSITY 1)
    (hr : s.get R.DDRC_CFG_RANKS2 0 = s.get R.DDRC_CFG_RANKS2 1) : TrainStarts (.ddrTrainRestore i ch) ch false s := by
  have hexec : exec (.ddrTrainRestore i ch) s = regWrite ⟨i, false, 0x0C, ch, 0x04C, 1, 0⟩ s := by
    show need (decide (ch < 2)) _ = _
    rw [decide_eq_true hch, need_true]
  exact train_starts (.ddrTrainRestore i ch) i ch false s hexec hopen hst hd hr

/-- A list of values written to successive keys of a table, as far as n: each key reads its value. -/
theorem tblGet_zip_set {α : Type} [DecidableEq α] (d : α) (n a : Nat) (l : List α) (t : Tbl α) (k : Nat) :
    tblGet d (((List.range' a n).zip l).foldl (fun t p => tblSet d t p.1 p.2) t) k =
      if a ≤ k ∧ k < a + min n l.length then l.getD (k - a) d else tblGet d t k := by
  induction n generalizing a l t with
  | zero => simp [show ¬(a ≤ k ∧ k < a) by omega]
  | succ n ih =>
    cases l with
    | nil => simp [show ¬(a ≤ k ∧ k < a) by omega]
    | cons x l =>
      rw [List.range'_succ, List.zip_cons_cons, List.foldl_cons, ih, tblGet_set]
      simp only [List.length_cons]
      by_cases hk : k = a
      · subst hk
        rw [if_neg (by omega), if_pos rfl, if_pos (by omega)]
        simp
      · by_cases hin : a + 1 ≤ k ∧ k < a + 1 + min n l.length
        · rw [if_pos hin, if_pos (by omega), show k - a = (k - (a + 1)) + 1 by omega, List.getD_cons_succ]
        · rw [if_neg hin, if_neg hk, if_neg (by omega)]

/-- The record that a FULL training leaves: word 0 made for the rate and the rank count, the others as the training gives them. -/
def fullRecord (s : State) (ch : Nat) (record : List Word) : Tbl Word :=
  ((List.range 512).zip (trainWord s ch :: record.drop 1)).foldl (fun t p => tblSet 0 t p.1 p.2) []

theorem fullRecord_word (s : State) (ch : Nat) (record : List Word) (k : Nat) (h : k < 512) :
    tblGet 0 (fullRecord s ch record) k = if k = 0 then trainWord s ch else record.getD k 0 := by
  rw [fullRecord, List.range_eq_range', tblGet_zip_set]
  cases k with
  | zero => simp
  | succ k =>
    by_cases hk : k + 1 < record.length
    · rw [if_pos (by simp; omega), if_neg (by omega)]
      simp [List.getD_eq_getElem?_getD]
    · rw [if_neg (by simp; omega), if_neg (by omega), tblGet_nil]
      simp [List.getD_eq_getElem?_getD, List.getElem?_eq_none (Nat.not_lt.1 hk)]

/-- DDRC_TRAIN_CTL and DDRC_TRAIN_STAT as a training that ends leaves them. -/
def trainStopped (ch failStep ms : Nat) (s : State) : State :=
  ((s.put R.DDRC_TRAIN_CTL_START ch 0).put R.DDRC_TRAIN_STAT_FAIL_STEP ch failStep).put R.DDRC_TRAIN_STAT_MS ch ms

/-- A channel READY with its data rate and usable size, by the configuration of a state. -/
def trainReady (ch : Nat) (cfg s : State) : State :=
  (((s.put R.DDRC_STAT_STATE ch ddrReady).put R.DDRC_STAT_MTS ch (rateMts (cfg.get R.DDRC_CFG_RATE ch))).put R.DDRC_USABLE ch
    (usableMib (cfg.get R.DDRC_CFG_DENSITY ch) (cfg.get R.DDRC_CFG_RANKS2 ch))).raise 0x0C ch 1

theorem trainStopped_ddrCh (ch failStep ms k : Nat) (s : State) : (trainStopped ch failStep ms s).ddrCh k = s.ddrCh k := by
  rw [trainStopped, State.put_ddrCh, State.put_ddrCh, State.put_ddrCh]

theorem trainReady_ddrCh (ch k : Nat) (cfg s : State) : (trainReady ch cfg s).ddrCh k = s.ddrCh k := by
  rw [trainReady, State.raise_ddrCh, State.put_ddrCh, State.put_ddrCh, State.put_ddrCh]

/-- A FULL training scrambles the first bytes of each rank: no register, and no other channel. -/
theorem scrambleLow_regs (ch : Nat) (s : State) : (scrambleLow ch s).regs = s.regs := rfl

theorem scrambleLow_other (ch k : Nat) (s : State) (h : k ≠ ch) : (scrambleLow ch s).ddrCh k = s.ddrCh k := State.setDdr_other s ch _ k h

/-- A channel with its training record replaced. -/
def State.setRecord (s : State) (ch : Nat) (record : Tbl Word) : State := s.setDdr ch { s.ddrCh ch with record := record }

@[simp] theorem State.setRecord_regs (s : State) (ch : Nat) (r : Tbl Word) : (s.setRecord ch r).regs = s.regs := by
  rw [State.setRecord, State.setDdr_regs]

@[simp] theorem State.setRecord_get (s : State) (ch : Nat) (r : Tbl Word) (f : Field) (n : Nat) : (s.setRecord ch r).get f n = s.get f n := by
  rw [State.setRecord, State.setDdr_get]

@[simp] theorem State.setRecord_getReg (s : State) (ch : Nat) (r : Tbl Word) (ty n off : Nat) :
    (s.setRecord ch r).getReg ty n off = s.getReg ty n off := by
  rw [State.setRecord, State.setDdr_getReg]

@[simp] theorem State.setRecord_same (s : State) (ch : Nat) (r : Tbl Word) : ((s.setRecord ch r).ddrCh ch).record = r := by
  simp [State.setRecord]

theorem State.setRecord_other (s : State) (ch k : Nat) (r : Tbl Word) (h : k ≠ ch) : (s.setRecord ch r).ddrCh k = s.ddrCh k :=
  State.setDdr_other s ch _ k h

/-- A FULL training that ends well. -/
theorem ddrTrainingDone_full (ch ms : Nat) (record : List Word) (s : State) (hst : s.ddrState ch = ddrTraining)
    (hfull : (s.ddrCh ch).fullMode = true) :
    ddrTrainingDone ch 0 ms record s =
      ((trainReady ch s (scrambleLow ch (trainStopped ch 0 ms s))).setRecord ch (fullRecord s ch record)).raise 0x0C ch 0 := by
  have hfail : trainFail s ch 0 = 0 := by simp [trainFail, hfull]
  simp only [ddrTrainingDone, hst, if_true, hfail, hfull]
  rfl

/-- A channel whose training has failed: DOWN, with the event. -/
def trainFailed (ch failStep ms : Nat) (s : State) : State :=
  ((trainStopped ch failStep ms s).put R.DDRC_STAT_STATE ch ddrDown).raise 0x0C ch 5

/-- A RESTORE that fails. -/
theorem ddrTrainingDone_fails (ch step ms : Nat) (record : List Word) (s : State) (hst : s.ddrState ch = ddrTraining)
    (hrestore : (s.ddrCh ch).fullMode = false) (hfail : trainFail s ch step ≠ 0) :
    ddrTrainingDone ch step ms record s = trainFailed ch (trainFail s ch step) ms s := by
  simp only [ddrTrainingDone, hst, if_true, if_neg hfail, hrestore, Bool.false_eq_true, if_false]
  rfl

/-- FAIL_STEP of a RESTORE: 6 where the record is of another rate or rank count. -/
theorem trainFail_restore (s : State) (ch step : Nat) (hrestore : (s.ddrCh ch).fullMode = false) :
    trainFail s ch step = if tblGet 0 (s.ddrCh ch).record 0 = trainWord s ch then step else 6 := by
  simp [trainFail, hrestore]

theorem exec_ddrTrainingDone (ch step ms : Nat) (record : List Word) (s : State) (hch : ch < 2) :
    exec (.ddrTrainingDone ch step ms record) s = done (ddrTrainingDone ch step ms record s) := by
  show need (decide (ch < 2)) _ = _
  rw [decide_eq_true hch, need_true]

theorem rateMts_lt (code : Nat) : rateMts code < 2 ^ 16 := by
  unfold rateMts
  split
  · decide
  · split <;> decide

theorem usableMib_lt (density ranks2 : Nat) (h : ranks2 < 2) : usableMib density ranks2 < 2 ^ 32 := by
  have hd : densityMib density ≤ 4096 := by
    unfold densityMib
    split <;> decide
  have hm : (ranks2 + 1) * densityMib density ≤ 2 * 4096 := Nat.mul_le_mul (by omega) hd
  unfold usableMib
  rw [Nat.mul_assoc 2]
  omega

/-- A field is below the power of its width. -/
theorem State.get_lt (s : State) (f : Field) (n : Nat) : s.get f n < 2 ^ f.w := Nat.mod_lt _ (by positivity)

/-- A FULL training that ends well makes the channel READY (R26). -/
theorem full_training_ends (ch ms : Nat) (record : List Word) (s : State) (hch : ch < 2) (hms : ms < 2 ^ R.DDRC_TRAIN_STAT_MS.w)
    (hst : s.ddrState ch = ddrTraining) (hfull : (s.ddrCh ch).fullMode = true) :
    ∃ t, exec (.ddrTrainingDone ch 0 ms record) s = .next t ∧ t.ddrState ch = ddrReady ∧
      t.get R.DDRC_USABLE ch = usableMib (s.get R.DDRC_CFG_DENSITY ch) (s.get R.DDRC_CFG_RANKS2 ch) ∧
      t.get R.DDRC_STAT_MTS ch = rateMts (s.get R.DDRC_CFG_RATE ch) ∧ t.get R.DDRC_TRAIN_STAT_MS ch = ms ∧
      t.flag R.DDRC_TRAIN_CTL_START ch = false ∧ Raises 0x0C ch 3 s t ∧
      (∀ (k : Nat), k < 512 → tblGet 0 (t.ddrCh ch).record k = if k = 0 then trainWord s ch else record.getD k 0) ∧
      (∀ k, k ≠ ch → t.ddrCh k = s.ddrCh k) := by
  have hdone := exec_ddrTrainingDone ch 0 ms record s hch
  rw [ddrTrainingDone_full ch ms record s hst hfull] at hdone
  obtain ⟨p, hrun⟩ := next_of_done hdone
  have hscramble (f : Field) (u : State) : (scrambleLow ch u).get f ch = u.get f ch := rfl
  have hscrambleReg (u : State) : (scrambleLow ch u).getReg 0x0C ch 0x10 = u.getReg 0x0C ch 0x10 := rfl
  refine ⟨_, hrun, ?_, ?_, ?_, ?_, ?_, ?_, fun k hk => ?_, fun k hk => ?_⟩
  · simp (disch := decide) only [State.ddrState, State.withPins_get, State.setRecord_get, trainReady, State.get_raise_off, State.get_put_off,
      State.get_put_disjoint, State.get_put]
    decide
  · simp (disch := decide) only [State.withPins_get, State.setRecord_get, trainReady, State.get_raise_off, State.get_put]
    exact Nat.mod_eq_of_lt (usableMib_lt _ _ (State.get_lt s _ _))
  · simp (disch := decide) only [State.withPins_get, State.setRecord_get, trainReady, State.get_raise_off, State.get_put_off, State.get_put]
    exact Nat.mod_eq_of_lt (rateMts_lt _)
  · simp (disch := decide) only [State.withPins_get, State.setRecord_get, trainReady, State.get_raise_off, State.get_put_off, hscramble, trainStopped,
      State.get_put]
    exact Nat.mod_eq_of_lt hms
  · simp (disch := decide) [State.flag, trainReady, State.get_raise_off, State.get_put_off, hscramble, trainStopped, State.get_put]
  · simp (disch := decide) only [Raises, State.withPins_getReg, State.setRecord_getReg, trainReady, State.getReg_raise, State.getReg_put_off, hscrambleReg,
      trainStopped]
    rw [BitVec.or_assoc]
    rfl
  · rw [State.withPins_ddrCh, State.raise_ddrCh, State.setRecord_same]
    exact fullRecord_word s ch record k hk
  · rw [State.withPins_ddrCh, State.raise_ddrCh, State.setRecord_other _ _ _ _ hk, trainReady_ddrCh, scrambleLow_other _ _ _ hk, trainStopped_ddrCh]

/-- A RESTORE that fails leaves the channel DOWN with the step (R26). -/
theorem restore_fails (ch fail ms : Nat) (record : List Word) (s : State) (hch : ch < 2) (hfail : fail < 7)
    (hst : s.ddrState ch = ddrTraining) (hrestore : (s.ddrCh ch).fullMode = false)
    (hbad : 0 < fail ∨ ¬ tblGet 0 (s.ddrCh ch).record 0 = trainWord s ch) :
    ∃ t, exec (.ddrTrainingDone ch fail ms record) s = .next t ∧ t.ddrState ch = ddrDown ∧
      t.get R.DDRC_TRAIN_STAT_FAIL_STEP ch = (if tblGet 0 (s.ddrCh ch).record 0 = trainWord s ch then fail else 6) ∧
      Raises 0x0C ch 32 s t ∧ t.flag R.DDRC_TRAIN_CTL_START ch = false ∧ t = { s with regs := t.regs, pins := t.pins } := by
  have hstep := trainFail_restore s ch fail hrestore
  have hlt : trainFail s ch fail < 2 ^ 4 := by
    rw [hstep]
    split <;> omega
  have hne : trainFail s ch fail ≠ 0 := by
    rw [hstep]
    split
    · next hagrees => exact (hbad.resolve_right (not_not_intro hagrees)).ne'
    · decide
  have hdone := exec_ddrTrainingDone ch fail ms record s hch
  rw [ddrTrainingDone_fails ch fail ms record s hst hrestore hne] at hdone
  obtain ⟨p, hrun⟩ := next_of_done hdone
  refine ⟨_, hrun, ?_, ?_, ?_, ?_, ?_⟩
  · simp (disch := decide) [State.ddrState, trainFailed, State.get_raise_off, State.get_put]
  · simp (disch := decide) only [State.withPins_get, trainFailed, State.get_raise_off, State.get_put_off, trainStopped, State.get_put_disjoint, State.get_put]
    rw [Nat.mod_eq_of_lt hlt, hstep]
  · simp (disch := decide) only [Raises, State.withPins_getReg, trainFailed, State.getReg_raise, State.getReg_put_off, trainStopped]
    rfl
  · simp (disch := decide) [State.flag, trainFailed, State.get_raise_off, State.get_put_off, trainStopped, State.get_put]
  · simp only [State.withPins, trainFailed, State.raise, trainStopped, State.put, State.setReg]

/-! ### The training record -/

/-- A write of the training record outside TRAINING. -/
theorem trainDataWrite_stores (i : Initiator) (ch : Nat) (v : Word) (s : State) (hst : s.ddrState ch ≠ ddrTraining) :
    trainDataWrite ⟨i, false, 0x0C, ch, 0x058, v, 0⟩ s =
      ((s.setRecord ch (tblSet 0 (s.ddrCh ch).record (s.get R.DDRC_TRAIN_IDX_WORD ch) v)).put R.DDRC_TRAIN_IDX_WORD ch
        ((s.get R.DDRC_TRAIN_IDX_WORD ch + 1) % 512), rspOk) := by
  simp only [trainDataWrite, hst, if_false]
  rfl

/-- A write of DDRC_TRAIN_DATA stores the word at the index, which advances (R26). -/
theorem train_data_written (i : Initiator) (ch : Nat) (v : Word) (s : State) (hch : ch < 2) (hopen : s.pageOpen 0x0C ch = true)
    (hst : s.ddrState ch ≠ ddrTraining) :
    ∃ t, exec (.trainDataAccess i ch (some v)) s = .next t ∧ t.answered rspOk ∧
      tblGet 0 (t.ddrCh ch).record (s.get R.DDRC_TRAIN_IDX_WORD ch) = v ∧
      t.get R.DDRC_TRAIN_IDX_WORD ch = (s.get R.DDRC_TRAIN_IDX_WORD ch + 1) % 512 ∧
      t = { s with ddr := t.ddr, regs := t.regs, answer := t.answer, pins := t.pins } ∧
      (∀ j, j ≠ s.get R.DDRC_TRAIN_IDX_WORD ch → tblGet 0 (t.ddrCh ch).record j = tblGet 0 (s.ddrCh ch).record j) ∧
      RegsBut [R.DDRC_TRAIN_IDX_WORD.key ch] s t := by
  have hexec : exec (.trainDataAccess i ch (some v)) s = regWrite ⟨i, false, 0x0C, ch, 0x058, v, 0⟩ s := by
    show need (decide (ch < 2)) _ = _
    rw [decide_eq_true hch, need_true]
  have hdone := hexec.trans (regWrite_trainData i ch v s hopen)
  rw [trainDataWrite_stores i ch v s hst] at hdone
  obtain ⟨p, hrun⟩ := next_of_done hdone
  refine ⟨_, hrun, rfl, ?_, ?_, ?_, fun j hj => ?_, fun k hk => ?_⟩
  · simp
  · simp [State.get_put]
  · simp only [State.withPins, State.reply, State.setRecord, State.setDdr, State.put, State.setReg]
  · simp [tblGet_set_other _ _ _ _ _ hj]
  · simp only [State.withPins_regs, State.reply_regs]
    rw [State.put_find _ R.DDRC_TRAIN_IDX_WORD _ _ _ (List.mem_singleton.not.1 hk), State.setRecord_regs]

/-- A read of DDRC_TRAIN_DATA answers the word at the index, which advances (R26). -/
theorem train_data_read (i : Initiator) (ch : Nat) (s : State) (hch : ch < 2) (hopen : s.pageOpen 0x0C ch = true) :
    ∃ t, exec (.trainDataAccess i ch none) s = .next t ∧
      t.answer = [⟨rspOk, wordBytes (tblGet 0 (s.ddrCh ch).record (s.get R.DDRC_TRAIN_IDX_WORD ch))⟩] ∧
      t.get R.DDRC_TRAIN_IDX_WORD ch = (s.get R.DDRC_TRAIN_IDX_WORD ch + 1) % 512 ∧ OnlyRegs [R.DDRC_TRAIN_IDX_WORD.key ch] s t := by
  have hexec : exec (.trainDataAccess i ch none) s = regRead i true 0x0C ch 0x058 s := by
    show need (decide (ch < 2)) _ = _
    rw [decide_eq_true hch, need_true]
  have hrun := hexec.trans (regRead_trainData i ch s hopen)
  have hput := State.put_only s R.DDRC_TRAIN_IDX_WORD ch ((s.get R.DDRC_TRAIN_IDX_WORD ch + 1) % 512)
  refine ⟨_, hrun, rfl, ?_, ?_, hput.2⟩
  · exact (State.get_put s R.DDRC_TRAIN_IDX_WORD ch _ (by decide)).trans (Nat.mod_mod _ _)
  · simp only [trainDataRead, State.put, State.setReg]

end Sys2Proof.Machine
end

section
/-!
PROOFS. The DDR channels (O47): requests, scrub, loss and self-refresh.
-/

namespace Sys2Proof.Machine

/-! ### Clean words (R24) -/

/-- The words of a channel from lo up to hi carry no error. -/
def WordsClean (s : State) (ch lo hi : Nat) : Prop :=
  ∀ w, lo ≤ w → w < hi → decodeWord (tblGet 0 (s.ddrCh ch).errs w).toNat = .clean

theorem WordsClean.mono {s : State} {ch lo hi lo' hi' : Nat} (h : WordsClean s ch lo hi) (hlo : lo ≤ lo') (hhi : hi' ≤ hi) :
    WordsClean s ch lo' hi' := fun w h1 h2 => h w (by omega) (by omega)

/-- The eight words of a clean block. -/
theorem wordsClean_block (s : State) (ch b : Nat) (h : ∀ k, k < 8 → decodeWord (tblGet 0 (s.ddrCh ch).errs (8 * b + k)).toNat = .clean) :
    WordsClean s ch (8 * b) (8 * b + 8) := by
  intro w hlo hhi
  obtain ⟨k, rfl⟩ := Nat.exists_eq_add_of_le hlo
  exact h k (by omega)

/-- Clean words are read without a trace. -/
theorem ddrWords_clean (ch w n : Nat) (s : State) (h : WordsClean s ch w (w + n)) : ddrWords ch w n s = (s, false) := by
  induction n generalizing w with
  | zero => rfl
  | succ n ih =>
    have hword : ddrWord ch w s = (s, false) := by simp only [ddrWord, h w (by omega) (by omega)]
    have hrest : ddrWords ch (w + 1) n s = (s, false) := ih (w + 1) (h.mono (by omega) (by omega))
    simp only [ddrWords, hword, hrest, Bool.or_false]

/-- The reads of a write's blocks, clean, leave no trace. -/
theorem ddrMergeReads_clean (ch b enables p n : Nat) (s : State) (h : WordsClean s ch (8 * b) (8 * (b + n))) :
    ddrMergeReads ch b enables p n s = (s, false) := by
  induction n generalizing b p with
  | zero => rfl
  | succ n ih =>
    have hblock : ddrWords ch (8 * b) 8 s = (s, false) := ddrWords_clean ch (8 * b) 8 s (h.mono le_rfl (by omega))
    have hrest : ddrMergeReads ch (b + 1) enables (p + 64) n s = (s, false) := ih (b + 1) (p + 64) (h.mono (by omega) (by omega))
    simp only [ddrMergeReads, hblock, ite_self, hrest, Bool.or_false]

/-! ### Reads and writes (R24) -/

/-- A request to a READY channel of a domain that is up. -/
theorem ddrAnswer_ready (ch : Nat) (q : DdrRequest) (s : State) (hup : s.domainUp 11 = true) (hst : s.ddrState ch = ddrReady) :
    ddrAnswer ch q s =
      match q.data with
      | none => { (ddrServeRead ch q.addr q.len s).1 with answer := [(ddrServeRead ch q.addr q.len s).2] }
      | some d => { (ddrServeWrite ch q.addr q.enables d s).1 with answer := [(ddrServeWrite ch q.addr q.enables d s).2] } := by
  simp only [ddrAnswer, hup, if_true, ddrRequest, hst]
  cases q.data <;> rfl

/-- A read of clean words answers the bytes that the channel holds. -/
theorem ddrServeRead_clean (ch a n : Nat) (s : State) (hfit : a + n ≤ s.ddrUsable ch) (h : WordsClean s ch (a / 8) ((a + n + 7) / 8)) :
    ddrServeRead ch a n s = (s, ⟨rspOk, ddrBytes s ch a n⟩) := by
  have hwords : ddrWords ch (a / 8) ((a + n + 7) / 8 - a / 8) s = (s, false) :=
    ddrWords_clean ch _ _ s (h.mono le_rfl (by omega))
  simp [ddrServeRead, Nat.not_lt.2 hfit, hwords]

theorem clean_read (ch a n : Nat) (s : State) (hch : ch < 2) (hup : s.domainUp 11 = true) (hst : s.ddrState ch = ddrReady)
    (hfit : a + n ≤ s.ddrUsable ch) (h : WordsClean s ch (a / 8) ((a + n + 7) / 8)) :
    ∃ t, exec (.ddrRead ch a n) s = .next t ∧ t.answer = [⟨rspOk, ddrBytes s ch a n⟩] ∧ t = { s with answer := t.answer, pins := t.pins } := by
  have hdone : exec (.ddrRead ch a n) s = done { s with answer := [⟨rspOk, ddrBytes s ch a n⟩] } := by
    show need (decide (ch < 2)) _ = _
    rw [decide_eq_true hch, need_true, ddrAnswer_ready ch _ s hup hst]
    simp only [ddrServeRead_clean ch a n s hfit h]
  obtain ⟨p, hrun⟩ := next_of_done hdone
  exact ⟨_, hrun, rfl, rfl⟩

/-- A channel with bytes put into its data region by their enables, the words of n blocks from b on codewords again. -/
def State.ddrStore (s : State) (ch a enables : Nat) (bs : List Byte) (b n : Nat) : State :=
  s.setDdr ch { s.ddrCh ch with data := ddrPut (s.ddrCh ch).data a enables bs, errs := clearErrs (s.ddrCh ch).errs (8 * b) (8 * n) }

/-- A write over clean words stores its bytes. -/
theorem ddrServeWrite_clean (ch a en : Nat) (bs : List Byte) (s : State) (hfit : a + bs.length ≤ s.ddrUsable ch)
    (h : WordsClean s ch (a / 64 * 8) ((a + bs.length + 63) / 64 * 8)) :
    ddrServeWrite ch a en bs s = (s.ddrStore ch a en bs (a / 64) ((a % 64 + bs.length + 63) / 64), ⟨rspOk, []⟩) := by
  have hreads (e : Nat) : ddrMergeReads ch (a / 64) e 0 ((a % 64 + bs.length + 63) / 64) s = (s, false) :=
    ddrMergeReads_clean ch _ e 0 _ s (h.mono (by omega) (by omega))
  simp only [ddrServeWrite, if_neg (Nat.not_lt.2 hfit), hreads, Bool.false_eq_true, if_false]
  rfl

theorem bitOf_half (n k : Nat) : bitOf (n / 2) k = bitOf n (k + 1) := by
  rw [bitOf, bitOf, Nat.div_div_eq_div_mul, Nat.pow_succ']

/-- What the data region lists after a write: the bytes enabled, and what it listed. -/
theorem tblFind_ddrPut (m : Memory) (a en : Nat) (bs : List Byte) (b : Nat) :
    tblFind (ddrPut m a en bs) b =
      if a ≤ b ∧ b < a + bs.length ∧ bitOf en (b - a) = true then some (bs.getD (b - a) 0) else tblFind m b := by
  induction bs generalizing m a en with
  | nil => simp [ddrPut, show ¬(a ≤ b ∧ b < a ∧ bitOf en (b - a) = true) by omega]
  | cons x bs ih =>
    rw [ddrPut, ih]
    by_cases hb : b = a
    · subst hb
      rw [if_neg (by omega)]
      by_cases hbit : bitOf en 0 = true
      · simp [hbit, tblFind_put]
      · simp [hbit]
    · have hkeep : tblFind (if bitOf en 0 = true then tblPut m a x else m) b = tblFind m b := by
        split
        · rw [tblFind_put, if_neg hb]
        · rfl
      rw [hkeep]
      by_cases hlt : b < a
      · rw [if_neg fun h => by omega, if_neg fun h => by omega]
      · obtain ⟨k, rfl⟩ : ∃ k, b = a + 1 + k := ⟨b - (a + 1), by omega⟩
        have hsub : a + 1 + k - a = k + 1 := by omega
        have hiff : (a + 1 ≤ a + 1 + k ∧ a + 1 + k < a + 1 + bs.length ∧ bitOf en (k + 1) = true) ↔
            (a ≤ a + 1 + k ∧ a + 1 + k < a + (x :: bs).length ∧ bitOf en (k + 1) = true) := by
          rw [List.length_cons]
          exact ⟨fun ⟨_, h2, h3⟩ => ⟨by omega, by omega, h3⟩, fun ⟨_, h2, h3⟩ => ⟨by omega, by omega, h3⟩⟩
        rw [Nat.add_sub_cancel_left, hsub, bitOf_half, List.getD_cons_succ]
        simp only [hiff]

/-- The bytes of a channel after a write of some. -/
theorem ddrByte_store (s : State) (ch a en : Nat) (bs : List Byte) (b0 n b : Nat) :
    ddrByte (s.ddrStore ch a en bs b0 n) ch b =
      if a ≤ b ∧ b < a + bs.length ∧ bitOf en (b - a) = true then bs.getD (b - a) 0 else ddrByte s ch b := by
  have hepoch : ddrEpoch (s.ddrStore ch a en bs b0 n) ch b = ddrEpoch s ch b := by
    simp [ddrEpoch, State.ddrStore, State.ddrUsable]
  rw [ddrByte, hepoch, State.ddrStore, State.setDdr_same]
  simp only [tblFind_ddrPut]
  split
  · rfl
  · rfl

theorem clean_write (ch a en : Nat) (bs : List Byte) (s : State) (hch : ch < 2) (hup : s.domainUp 11 = true) (hst : s.ddrState ch = ddrReady)
    (hfit : a + bs.length ≤ s.ddrUsable ch) (h : WordsClean s ch (a / 64 * 8) ((a + bs.length + 63) / 64 * 8)) :
    ∃ t, exec (.ddrWrite ch a en bs) s = .next t ∧ t.answered rspOk ∧
      (∀ (b : Nat), ddrByte t ch b = if a ≤ b ∧ b < a + bs.length ∧ bitOf en (b - a) = true then bs.getD (b - a) 0 else ddrByte s ch b) ∧
      t = { s with ddr := t.ddr, answer := t.answer, pins := t.pins } ∧ (∀ k, k ≠ ch → t.ddrCh k = s.ddrCh k) := by
  have hdone : exec (.ddrWrite ch a en bs) s =
      done { s.ddrStore ch a en bs (a / 64) ((a % 64 + bs.length + 63) / 64) with answer := [⟨rspOk, []⟩] } := by
    show need (decide (ch < 2)) _ = _
    rw [decide_eq_true hch, need_true, ddrAnswer_ready ch _ s hup hst]
    simp only [ddrServeWrite_clean ch a en bs s hfit h]
  obtain ⟨p, hrun⟩ := next_of_done hdone
  refine ⟨_, hrun, rfl, fun b => ?_, ?_, fun k hk => ?_⟩
  · exact ddrByte_store s ch a en bs (a / 64) ((a % 64 + bs.length + 63) / 64) b
  · simp only [State.withPins, State.ddrStore, State.setDdr]
  · exact State.setDdr_other s ch _ k hk

/-! ### Scrub (R27) -/

/-- A channel with the scrub at a block. -/
def State.scrubAt (s : State) (ch b : Nat) : State := s.setDdr ch { s.ddrCh ch with scrubBlock := b }

theorem exec_ddrScrubBlock_clean (ch : Nat) (s : State) (hch : ch < 2) (hon : s.domainOn 11 = true) (hst : s.ddrState ch = ddrReady)
    (hint : s.get R.DDRC_SCRUB_INTERVAL ch ≠ 0) (h : WordsClean s ch (8 * (s.ddrCh ch).scrubBlock) (8 * (s.ddrCh ch).scrubBlock + 8)) :
    exec (.ddrScrubBlock ch) s = done (
      if s.ddrUsable ch ≤ 64 * ((s.ddrCh ch).scrubBlock + 1) then (s.scrubAt ch 0).raise 0x0C ch 6
      else s.scrubAt ch ((s.ddrCh ch).scrubBlock + 1)) := by
  show execDdrScrubBlock ch s = _
  have hwords := ddrWords_clean ch _ 8 s h
  simp only [execDdrScrubBlock, hch, decide_true, need_true, hon, hst, hint, ne_eq, not_false_eq_true, and_self, if_true, hwords, Bool.false_eq_true,
    if_false]
  split <;> rfl

theorem clean_scrub (ch : Nat) (s : State) (hch : ch < 2) (hon : s.domainOn 11 = true) (hst : s.ddrState ch = ddrReady)
    (hint : s.get R.DDRC_SCRUB_INTERVAL ch ≠ 0) (h : WordsClean s ch (8 * (s.ddrCh ch).scrubBlock) (8 * (s.ddrCh ch).scrubBlock + 8)) :
    ∃ t, exec (.ddrScrubBlock ch) s = .next t ∧
      t.ddrCh ch = { s.ddrCh ch with
        scrubBlock := if s.ddrUsable ch ≤ 64 * ((s.ddrCh ch).scrubBlock + 1) then 0 else (s.ddrCh ch).scrubBlock + 1 } ∧
      Raises 0x0C ch (if s.ddrUsable ch ≤ 64 * ((s.ddrCh ch).scrubBlock + 1) then 64 else 0) s t ∧ (∀ k, k ≠ ch → t.ddrCh k = s.ddrCh k) ∧
      t = { s with ddr := t.ddr, regs := t.regs, pins := t.pins } ∧ RegsBut [evtKey 0x0C ch] s t := by
  have hdone := exec_ddrScrubBlock_clean ch s hch hon hst hint h
  by_cases hlast : s.ddrUsable ch ≤ 64 * ((s.ddrCh ch).scrubBlock + 1)
  · simp only [if_pos hlast] at hdone ⊢
    obtain ⟨p, hrun⟩ := next_of_done hdone
    refine ⟨_, hrun, ?_, ?_, fun k hk => ?_, ?_, ?_⟩
    · simp [State.scrubAt]
    · simp only [Raises, State.withPins_getReg, State.getReg_raise]
      rfl
    · simp [State.scrubAt, State.setDdr_other _ _ _ _ hk]
    · simp only [State.withPins, State.scrubAt, State.setDdr, State.raise, State.put, State.setReg]
    · simp only [RegsBut, State.withPins_regs]
      exact (State.raise_only (s.scrubAt ch 0) 0x0C ch 6).2
  · simp only [if_neg hlast] at hdone ⊢
    obtain ⟨p, hrun⟩ := next_of_done hdone
    refine ⟨_, hrun, ?_, ?_, fun k hk => ?_, ?_, fun _ _ => rfl⟩
    · simp [State.scrubAt]
    · simp [Raises, State.scrubAt]
    · simp [State.scrubAt, State.setDdr_other _ _ _ _ hk]
    · simp only [State.withPins, State.scrubAt, State.setDdr]

end Sys2Proof.Machine
end

section
/-!
PROOFS. The DDR channels (O47): loss and self-refresh.
-/

namespace Sys2Proof.Machine

/-! ### What a response on the network touches (R308) -/

/-- From s to t no DDR channel changes, and no register but the counts of lost responses, TRLH_LOST_RSP. -/
def KeepsDdr (s t : State) : Prop := t.ddr = s.ddr ∧ ∀ k, keyOff k ≠ R.TRLH_LOST_RSP.off → tblFind t.regs k = tblFind s.regs k

theorem KeepsDdr.refl (s : State) : KeepsDdr s s := ⟨rfl, fun _ _ => rfl⟩

theorem KeepsDdr.trans {s t u : State} (h : KeepsDdr s t) (g : KeepsDdr t u) : KeepsDdr s u :=
  ⟨g.1.trans h.1, fun k hk => (g.2 k hk).trans (h.2 k hk)⟩

/-- What keeps the channels step by step keeps them along a list. -/
theorem KeepsDdr.foldl {α : Type} (f : State → α → State) (hf : ∀ s a, KeepsDdr s (f s a)) (l : List α) (s : State) :
    KeepsDdr s (l.foldl f s) := by
  induction l generalizing s with
  | nil => exact KeepsDdr.refl s
  | cons a l ih => exact (hf s a).trans (ih (f s a))

/-- Flits on links and in queues are no registers. -/
theorem sendFlit_keepsDdr (stile port : Nat) (f : Flit) (s : State) : KeepsDdr s (sendFlit stile port f s) := ⟨rfl, fun _ _ => rfl⟩

/-- One flit of a trailhead's queue: it goes, or it waits behind those that wait. -/
def flushStep (t : Nat) (r : State × List (Nat × Flit)) (e : Nat × Flit) : State × List (Nat × Flit) :=
  if r.2.all (fun d => d.1 != e.1 || d.2.vc != e.2.vc) && maySend r.1 e.1 (trlhPort t) e.2 then
    (sendFlit e.1 (trlhPort t) e.2 r.1, r.2)
  else (r.1, r.2 ++ [e])

theorem flushStep_keepsDdr (t : Nat) (l : List (Nat × Flit)) (r : State × List (Nat × Flit)) :
    KeepsDdr r.1 (l.foldl (flushStep t) r).1 := by
  induction l generalizing r with
  | nil => exact KeepsDdr.refl _
  | cons e l ih =>
    refine KeepsDdr.trans ?_ (ih (flushStep t r e))
    unfold flushStep
    split
    · exact sendFlit_keepsDdr _ _ _ _
    · exact KeepsDdr.refl _

theorem flushOut_keepsDdr (t : Nat) (s : State) : KeepsDdr s (flushOut t s) := by
  obtain ⟨hddr, hregs⟩ := flushStep_keepsDdr t (s.th t).outQueue (s.setTh t { s.th t with outQueue := [] }, [])
  exact ⟨hddr, hregs⟩

theorem postFlits_keepsDdr (t stile : Nat) (fs : List Flit) (s : State) : KeepsDdr s (postFlits t stile fs s) :=
  KeepsDdr.trans ⟨rfl, fun _ _ => rfl⟩ (flushOut_keepsDdr t _)

theorem count_lostRsp_keepsDdr (t : Nat) (s : State) : KeepsDdr s (s.count R.TRLH_LOST_RSP t 1) := by
  refine ⟨rfl, fun k hk => ?_⟩
  refine (State.count_only s R.TRLH_LOST_RSP t 1).2 k fun hmem => hk ?_
  rw [List.mem_singleton.1 hmem, Field.key, regKey, keyOff]
  show (9 * 0x100000 + t * 0x1000 + 0x0B0) % 0x1000 = 0x0B0
  omega

theorem sendResponse_keepsDdr (r : ReplyTo) (a : Answer) (s : State) : KeepsDdr s (sendResponse r a s) := by
  unfold sendResponse
  split
  · exact count_lostRsp_keepsDdr _ _
  · exact postFlits_keepsDdr _ _ _ _

theorem answerHeld_keepsDdr (q : DdrRequest) (a : Answer) (s : State) : KeepsDdr s (answerHeld q a s) := by
  unfold answerHeld
  split
  · exact sendResponse_keepsDdr _ _ _
  · exact ⟨rfl, fun _ _ => rfl⟩

/-- The offset in the key of a channel's register. -/
theorem ddrKey_off (ch off : Nat) (h : off < 0x1000) (hne : off ≠ R.TRLH_LOST_RSP.off) : keyOff (regKey 0x0C ch off) ≠ R.TRLH_LOST_RSP.off := by
  have hoff : keyOff (regKey 0x0C ch off) = off := by
    rw [keyOff, regKey]
    omega
  rwa [hoff]

/-- A field of a register that is no TRLH_LOST_RSP. -/
theorem KeepsDdr.get {s t : State} (h : KeepsDdr s t) (f : Field) (n : Nat) (hf : keyOff (f.key n) ≠ R.TRLH_LOST_RSP.off) :
    t.get f n = s.get f n := State.get_of_find s t f n (h.2 _ hf)

theorem KeepsDdr.ddrCh {s t : State} (h : KeepsDdr s t) (k : Nat) : t.ddrCh k = s.ddrCh k := by
  rw [State.ddrCh, h.1, State.ddrCh]

/-! ### Loss (R25) -/

theorem bitOf_eq_testBit (n k : Nat) : bitOf n k = n.testBit k := by
  rw [Nat.testBit_eq_decide_div_mod_eq]
  rfl

/-- The Porter's page is another page than a channel's. -/
theorem portLost_key_ne (ch off : Nat) : regKey 0x0C ch off ≠ R.PORT_LOST_DDR_CHANNELS.key 0 := by
  show 0x0C * 0x100000 + ch * 0x1000 + off ≠ 0x0B * 0x100000 + 0 * 0x1000 + 0x084
  omega

/-- The lost set is no register of a channel. -/
theorem getReg_put_portLost (s : State) (v ch off : Nat) :
    (s.put R.PORT_LOST_DDR_CHANNELS 0 v).getReg 0x0C ch off = s.getReg 0x0C ch off :=
  State.getReg_setReg_other _ _ _ _ _ _ _ _ (portLost_key_ne ch off)

theorem get_put_portLost (s : State) (g : Field) (v ch : Nat) (hg : g.ty = 0x0C) :
    (s.put R.PORT_LOST_DDR_CHANNELS 0 v).get g ch = s.get g ch := by
  rw [State.get, State.get, hg, getReg_put_portLost]

/-- A channel LOST: its state and rate, the event, the report. -/
def channelLost (ch : Nat) (s : State) : State :=
  (((s.put R.DDRC_STAT_STATE ch ddrLostState).put R.DDRC_STAT_MTS ch 0).raise 0x0C ch 4).report 0x0C ch 4 clsUnit

/-- A channel LOST and in the Porter's lost set (R495). -/
def lossShown (ch : Nat) (s : State) : State :=
  (channelLost ch s).put R.PORT_LOST_DDR_CHANNELS 0 ((channelLost ch s).get R.PORT_LOST_DDR_CHANNELS 0 ||| 2 ^ ch)

/-- A channel that holds no request any more. -/
def State.clearHeld (s : State) (ch : Nat) : State := s.setDdr ch { s.ddrCh ch with held := [] }

@[simp] theorem State.clearHeld_get (s : State) (ch : Nat) (f : Field) (n : Nat) : (s.clearHeld ch).get f n = s.get f n := rfl
@[simp] theorem State.clearHeld_getReg (s : State) (ch ty n off : Nat) : (s.clearHeld ch).getReg ty n off = s.getReg ty n off := rfl
@[simp] theorem State.clearHeld_regs (s : State) (ch : Nat) : (s.clearHeld ch).regs = s.regs := rfl
@[simp] theorem State.clearHeld_reports (s : State) (ch : Nat) : (s.clearHeld ch).reports = s.reports := rfl

theorem lossShown_ddrCh (ch k : Nat) (s : State) : (lossShown ch s).ddrCh k = s.ddrCh k := by
  rw [lossShown, State.put_ddrCh, channelLost, State.report_ddrCh, State.raise_ddrCh, State.put_ddrCh, State.put_ddrCh]

/-- A channel's loss is shown, and what it holds is answered. -/
theorem ddrLose_eq (ch : Nat) (s : State) :
    ddrLose ch s = (s.ddrCh ch).held.foldl (fun s q => answerHeld q ⟨rspEcc, []⟩ s) ((lossShown ch s).clearHeld ch) := by
  rw [← lossShown_ddrCh ch ch s]
  rfl

theorem ddrLose_keeps (ch : Nat) (s : State) : KeepsDdr ((lossShown ch s).clearHeld ch) (ddrLose ch s) := by
  rw [ddrLose_eq]
  exact KeepsDdr.foldl _ (fun s q => answerHeld_keepsDdr q _ s) _ _

theorem lossShown_state (ch : Nat) (s : State) : (lossShown ch s).get R.DDRC_STAT_STATE ch = ddrLostState := by
  rw [lossShown, get_put_portLost _ _ _ _ rfl, channelLost, State.report_get]
  simp (disch := decide) only [State.get_raise_off, State.get_put_disjoint, State.get_put]
  decide

theorem lossShown_mts (ch : Nat) (s : State) : (lossShown ch s).get R.DDRC_STAT_MTS ch = 0 := by
  rw [lossShown, get_put_portLost _ _ _ _ rfl, channelLost, State.report_get]
  simp (disch := decide) only [State.get_raise_off, State.get_put]
  decide

theorem lossShown_lost (ch : Nat) (s : State) (hch : ch < 2) : bitOf ((lossShown ch s).get R.PORT_LOST_DDR_CHANNELS 0) ch = true := by
  rw [lossShown, State.get_put _ _ _ _ (by decide), bitOf_eq_testBit, Nat.testBit_mod_two_pow, Nat.testBit_or, Nat.testBit_two_pow_self]
  simp [hch]

theorem lossShown_evt (ch : Nat) (s : State) : (lossShown ch s).getReg 0x0C ch 0x10 = s.getReg 0x0C ch 0x10 ||| word 16 := by
  rw [lossShown, getReg_put_portLost, channelLost, State.report_getReg]
  simp (disch := decide) only [State.getReg_raise, State.getReg_put_off]
  rfl

theorem lossShown_reports (ch : Nat) (s : State) : (lossShown ch s).reports = s.reports ++ [⟨0x0C, ch, 4, clsUnit⟩] := by
  rw [lossShown, State.put_reports, channelLost, State.report, State.raise_reports, State.put_reports, State.put_reports]

/-- The registers that a loss touches. -/
theorem lossShown_find (ch : Nat) (s : State) :
    RegsBut [R.DDRC_STAT_STATE.key ch, R.DDRC_STAT_MTS.key ch, evtKey 0x0C ch, R.PORT_LOST_DDR_CHANNELS.key 0] s (lossShown ch s) := by
  intro k hk
  simp only [List.mem_cons, List.not_mem_nil, or_false, not_or] at hk
  obtain ⟨hstate, hmts, hevt, hlost⟩ := hk
  rw [lossShown, State.put_find _ R.PORT_LOST_DDR_CHANNELS _ _ _ hlost, channelLost, State.report_regs, State.raise,
    State.put_find _ ⟨0x0C, 0x10, 4, 4, 1⟩ _ _ _ hevt, State.put_find _ R.DDRC_STAT_MTS _ _ _ hmts,
    State.put_find _ R.DDRC_STAT_STATE _ _ _ hstate]

/-- A channel that holds no request keeps its hidden state. -/
theorem clearHeld_ddrCh (s : State) (ch k : Nat) (h : (s.ddrCh ch).held = []) : (s.clearHeld ch).ddrCh k = s.ddrCh k := by
  rw [State.clearHeld, State.setDdr_at]
  split
  · next hk => rw [hk, ← h]
  · rfl

/-- Loss of PHY lock takes a READY channel LOST (R25). -/
theorem phy_lock_lost (ch : Nat) (s : State) (hch : ch < 2) (hup : s.domainUp 11 = true) (hst : s.ddrState ch = ddrReady)
    (hheld : (s.ddrCh ch).held = []) :
    ∃ t, exec (.ddrPhyLockLost ch) s = .next t ∧ t.ddrState ch = ddrLostState ∧ t.get R.DDRC_STAT_MTS ch = 0 ∧ Raises 0x0C ch 16 s t ∧
      Reports 0x0C ch 4 clsUnit s t ∧ bitOf (t.get R.PORT_LOST_DDR_CHANNELS 0) ch = true ∧
      t = { s with ddr := t.ddr, regs := t.regs, reports := t.reports, pins := t.pins } ∧ (∀ k, t.ddrCh k = s.ddrCh k) ∧
      RegsBut [R.DDRC_STAT_STATE.key ch, R.DDRC_STAT_MTS.key ch, evtKey 0x0C ch, R.PORT_LOST_DDR_CHANNELS.key 0] s t := by
  have hdone : exec (.ddrPhyLockLost ch) s = done ((lossShown ch s).clearHeld ch) := by
    show need (decide (ch < 2)) _ = _
    rw [decide_eq_true hch, need_true, if_pos ⟨hup, hst⟩, ddrLose_eq, hheld, List.foldl_nil]
  obtain ⟨p, hrun⟩ := next_of_done hdone
  refine ⟨_, hrun, ?_, ?_, ?_, ?_, ?_, ?_, fun k => ?_, ?_⟩
  · rw [State.ddrState, State.withPins_get, State.clearHeld_get, lossShown_state]
  · rw [State.withPins_get, State.clearHeld_get, lossShown_mts]
  · rw [Raises, State.withPins_getReg, State.clearHeld_getReg, lossShown_evt]
  · rw [Reports, State.withPins_reports, State.clearHeld_reports, lossShown_reports]
  · rw [State.withPins_get, State.clearHeld_get, lossShown_lost ch s hch]
  · simp only [State.withPins, State.clearHeld, State.setDdr, lossShown, channelLost, State.report, State.raise, State.put, State.setReg]
  · rw [State.withPins_ddrCh, clearHeld_ddrCh _ _ _ (by rw [lossShown_ddrCh, hheld]), lossShown_ddrCh]
  · simp only [RegsBut, State.withPins_regs, State.clearHeld_regs]
    exact lossShown_find ch s

/-! ### Self-refresh exit (R25, R28) -/

/-- A self-refresh exit that does not end in time takes the channel LOST, whatever it holds (R25). -/
theorem sref_exit_timeout (ch : Nat) (s : State) (hch : ch < 2) (hst : s.ddrState ch = ddrSrefExit) :
    ∃ t, exec (.ddrSrefExitTimeout ch) s = .next t ∧ t.ddrState ch = ddrLostState ∧ (t.ddrCh ch).held = [] ∧
      bitOf (t.get R.PORT_LOST_DDR_CHANNELS 0) ch = true ∧ bitOf (t.getReg 0x0C ch 0x010).toNat 4 = true := by
  have hdone : exec (.ddrSrefExitTimeout ch) s = done (ddrLose ch s) := by
    show need (decide (ch < 2)) _ = _
    rw [decide_eq_true hch, need_true, if_pos hst]
  obtain ⟨p, hrun⟩ := next_of_done hdone
  have hkeep := ddrLose_keeps ch s
  refine ⟨_, hrun, ?_, ?_, ?_, ?_⟩
  · rw [State.ddrState, State.withPins_get, hkeep.get R.DDRC_STAT_STATE ch (ddrKey_off ch 0x044 (by decide) (by decide)), State.clearHeld_get,
      lossShown_state]
  · rw [State.withPins_ddrCh, hkeep.ddrCh, State.clearHeld, State.setDdr_same]
  · rw [State.withPins_get, hkeep.get R.PORT_LOST_DDR_CHANNELS 0 (by decide), State.clearHeld_get, lossShown_lost ch s hch]
  · rw [State.withPins_getReg, State.getReg, tblGet, hkeep.2 _ (ddrKey_off ch 0x010 (by decide) (by decide))]
    show bitOf ((lossShown ch s).getReg 0x0C ch 0x010).toNat 4 = true
    rw [lossShown_evt, bitOf_eq_testBit, BitVec.toNat_or, Nat.testBit_or, show (word 16).toNat.testBit 4 = true from by decide, Bool.or_true]

/-- The registers of a channel that has left self-refresh: READY at its data rate, with the event. -/
def srefEnded (ch : Nat) (s : State) : State :=
  (((s.put R.DDRC_STAT_STATE ch ddrReady).put R.DDRC_STAT_SREF ch 0).put R.DDRC_STAT_MTS ch (rateMts (s.get R.DDRC_CFG_RATE ch))).raise 0x0C ch 1

theorem srefEnded_state (ch : Nat) (s : State) : (srefEnded ch s).get R.DDRC_STAT_STATE ch = ddrReady := by
  simp (disch := decide) only [srefEnded, State.get_raise_off, State.get_put_disjoint, State.get_put]
  decide

theorem srefEnded_mts (ch : Nat) (s : State) : (srefEnded ch s).get R.DDRC_STAT_MTS ch = rateMts (s.get R.DDRC_CFG_RATE ch) := by
  simp (disch := decide) only [srefEnded, State.get_raise_off, State.get_put]
  exact Nat.mod_eq_of_lt (rateMts_lt _)

theorem srefEnded_evt (ch : Nat) (s : State) : (srefEnded ch s).getReg 0x0C ch 0x10 = s.getReg 0x0C ch 0x10 ||| word 2 := by
  simp (disch := decide) only [srefEnded, State.getReg_raise, State.getReg_put_off]
  rfl

theorem srefEnded_ddrCh (ch k : Nat) (s : State) : (srefEnded ch s).ddrCh k = s.ddrCh k := by
  rw [srefEnded, State.raise_ddrCh, State.put_ddrCh, State.put_ddrCh, State.put_ddrCh]

/-- A state without the answers of the command before. -/
def State.unanswered (s : State) : State := { s with answer := [] }

@[simp] theorem State.unanswered_get (s : State) (f : Field) (n : Nat) : s.unanswered.get f n = s.get f n := rfl
@[simp] theorem State.unanswered_getReg (s : State) (ty n off : Nat) : s.unanswered.getReg ty n off = s.getReg ty n off := rfl
@[simp] theorem State.unanswered_ddrCh (s : State) (k : Nat) : s.unanswered.ddrCh k = s.ddrCh k := rfl

/-- A self-refresh exit that ends makes the channel READY (R28). -/
theorem sref_exit_done (ch : Nat) (s : State) (hch : ch < 2) (hst : s.ddrState ch = ddrSrefExit) (hheld : (s.ddrCh ch).held = []) :
    ∃ t, exec (.ddrSrefExitDone ch) s = .next t ∧ t.ddrState ch = ddrReady ∧ t.get R.DDRC_STAT_MTS ch = rateMts (s.get R.DDRC_CFG_RATE ch) ∧
      Raises 0x0C ch 2 s t ∧ (∀ k, t.ddrCh k = s.ddrCh k) ∧ t = { s with ddr := t.ddr, regs := t.regs, answer := [], pins := t.pins } := by
  have hdone : exec (.ddrSrefExitDone ch) s = done ((srefEnded ch s).clearHeld ch).unanswered := by
    show need (decide (ch < 2)) _ = _
    rw [decide_eq_true hch, need_true, if_pos hst]
    simp only [hheld, ddrServeHeld, State.unanswered, State.clearHeld, srefEnded_ddrCh]
    simp only [srefEnded]
  obtain ⟨p, hrun⟩ := next_of_done hdone
  refine ⟨_, hrun, ?_, ?_, ?_, fun k => ?_, ?_⟩
  · rw [State.ddrState, State.withPins_get, State.unanswered_get, State.clearHeld_get, srefEnded_state]
  · rw [State.withPins_get, State.unanswered_get, State.clearHeld_get, srefEnded_mts]
  · rw [Raises, State.withPins_getReg, State.unanswered_getReg, State.clearHeld_getReg, srefEnded_evt]
  · rw [State.withPins_ddrCh, State.unanswered_ddrCh, clearHeld_ddrCh _ _ _ (by rw [srefEnded_ddrCh, hheld]), srefEnded_ddrCh]
  · simp only [State.withPins, State.unanswered, State.clearHeld, State.setDdr, srefEnded, State.raise, State.put, State.setReg]

/-- Settles O47: each command by its lemma above. -/
theorem ddrChannels : Obligations.DdrChannels := by
  unfold Obligations.DdrChannels
  refine ⟨fun i ch s hch hopen hst hd hr => ⟨?_, ?_⟩, fun ch ms record s hch hms hst hfull => ?_,
    fun ch fail ms record s hch hfail hst hrestore hbad => ?_, fun i ch v s hch hopen hst _ => ⟨?_, ?_⟩,
    fun ch a n s hch hup hst hfit hclean => ?_, fun ch a en bs s hch hup hst hfit hclean => ?_,
    fun ch s hch hon hst hint hclean => ?_, fun ch s hch hup hst hheld => ?_, fun ch s hch hst => ⟨?_, fun hheld => ?_⟩⟩
  · exact train_full i ch s hch hopen hst hd hr
  · exact train_restore i ch s hch hopen hst hd hr
  · exact full_training_ends ch ms record s hch hms hst hfull
  · exact restore_fails ch fail ms record s hch hfail hst hrestore hbad
  · exact train_data_written i ch v s hch hopen hst
  · exact train_data_read i ch s hch hopen
  · exact clean_read ch a n s hch hup hst hfit hclean
  · exact clean_write ch a en bs s hch hup hst hfit hclean
  · exact clean_scrub ch s hch hon hst hint (wordsClean_block s ch _ hclean)
  · exact phy_lock_lost ch s hch hup hst hheld
  · exact sref_exit_timeout ch s hch hst
  · exact sref_exit_done ch s hch hst hheld

end Sys2Proof.Machine
end

section
/-!
PROOFS. More laws of fields: what a flag reads after a write, and a field inside one that is cleared.
-/

namespace Sys2Proof

/-- The low bits of the signed value of a number are the number's. -/
theorem wrapInt_signedOf (w n : Nat) : wrapInt w (signedOf w n) = n % 2 ^ w := by
  have hlt : n % 2 ^ w < 2 ^ w := Nat.mod_lt _ (by positivity)
  unfold wrapInt signedOf
  split
  · rw [Int.emod_eq_of_lt (by omega) (by omega), Int.toNat_natCast]
  · rw [Int.sub_emod_right, Int.emod_eq_of_lt (by omega) (by omega), Int.toNat_natCast]

end Sys2Proof

namespace Sys2Proof.Machine

/-! ### Flags -/

/-- A one-bit field reads the Boolean put into it. -/
theorem State.flag_put_bit (s : State) (f : Field) (n : Nat) (b : Bool) (hlo : f.lo < 32) (hw : f.w = 1) : (s.put f n (bit b)).flag f n = b := by
  rw [State.flag, State.get_put s f n _ (by omega), hw]
  cases b <;> rfl

/-- A field inside one that is set to 0 reads 0. -/
theorem State.get_put_zero (s : State) (f g : Field) (n : Nat) (hty : g.ty = f.ty) (hoff : g.off = f.off) (hw : f.lo + f.w ≤ 32)
    (hlo : f.lo ≤ g.lo) (hhi : g.lo + g.w ≤ f.lo + f.w) : (s.put f n 0).get g n = 0 := by
  have hlt := setBits_lt (s.getReg f.ty n f.off).toNat f.lo f.w 0 (s.getReg f.ty n f.off).isLt hw
  simp only [State.get, State.put, hty, hoff, State.getReg_setReg, BitVec.toNat_ofNat]
  rw [Nat.mod_eq_of_lt hlt]
  refine Nat.eq_of_testBit_eq fun j => ?_
  simp only [bitsAt, Nat.testBit_mod_two_pow, Nat.testBit_div_two_pow, testBit_setBits, Nat.zero_testBit]
  by_cases hj : j < g.w
  · rw [if_pos (by omega), Bool.and_false]
  · simp [hj]

/-- A one-bit field at another offset of the page written keeps its value. -/
theorem State.flag_put_off (s : State) (f g : Field) (n v : Nat) (hty : g.ty = f.ty) (h : g.off ≠ f.off) :
    (s.put f n v).flag g n = s.flag g n := by
  rw [State.flag, State.flag, State.get_put_off s f g n v hty h]

/-- A one-bit field beside the one written keeps its value. -/
theorem State.flag_put_disjoint (s : State) (f g : Field) (n v : Nat) (hty : g.ty = f.ty) (hoff : g.off = f.off) (hw : f.lo + f.w ≤ 32)
    (h : g.lo + g.w ≤ f.lo ∨ f.lo + f.w ≤ g.lo) : (s.put f n v).flag g n = s.flag g n := by
  rw [State.flag, State.flag, State.get_put_disjoint s f g n v hty hoff hw h]

/-- An event leaves every one-bit field of its page outside EVT. -/
theorem State.flag_raise_off (s : State) (g : Field) (ty n k : Nat) (hty : g.ty = ty) (h : g.off ≠ 0x10) :
    (s.raise ty n k).flag g n = s.flag g n := by
  rw [State.flag, State.flag, State.get_raise_off s g ty n k hty h]

end Sys2Proof.Machine
end

section
/-!
PROOFS. The tick generator (O39).
-/

namespace Sys2Proof.Machine

/-! ### The state of the generator -/

/-- A state with another hidden state of the tick generator. -/
def State.withTick (s : State) (x : TickState) : State := { s with tick := x }

@[simp] theorem State.withTick_tick (s : State) (x : TickState) : (s.withTick x).tick = x := rfl
@[simp] theorem State.withTick_regs (s : State) (x : TickState) : (s.withTick x).regs = s.regs := rfl
@[simp] theorem State.withTick_get (s : State) (x : TickState) (f : Field) (n : Nat) : (s.withTick x).get f n = s.get f n := rfl
@[simp] theorem State.withTick_flag (s : State) (x : TickState) (f : Field) (n : Nat) : (s.withTick x).flag f n = s.flag f n := rfl
@[simp] theorem State.withTick_getReg (s : State) (x : TickState) (ty n off : Nat) : (s.withTick x).getReg ty n off = s.getReg ty n off := rfl

/-! ### Writes of the TICK page -/

/-- A write to the open TICK page, accepted by the register's own rule, has the outcome of that rule. -/
theorem regWrite_tick (i : Initiator) (auth : Bool) (off : Nat) (v : Word) (stamp : Nat) (s u : State) (hoff : off % 4 = 0)
    (hopen : s.pageOpen 0x17 0 = true) (hrule : wordWrite ⟨i, auth, 0x17, 0, off, v, stamp⟩ s = (u, rspOk)) :
    regWrite ⟨i, auth, 0x17, 0, off, v, stamp⟩ s = done (u.reply rspOk []) := by
  obtain ⟨hfence, hup⟩ := pageOpen_reached s 0x17 0 off (by decide) hopen
  simp [regWrite, pageWrite, afterWrite, hoff, hfence, hup, hrule]

/-- An authenticated write of TICK_RUN starts or stops the generator by its bit 0 (R50). -/
theorem wordWrite_tickRun (v : Word) (stamp : Nat) (s : State) :
    wordWrite ⟨latchInit, true, 0x17, 0, 0x040, v, stamp⟩ s = (if bitOf v.toNat 0 then tickStart stamp s else tickStop s, rspOk) := rfl

/-- TICK_START is the generator's start, answered. -/
theorem exec_tickStart (stamp : Nat) (s : State) (hopen : s.pageOpen 0x17 0 = true) :
    exec (.tickStart stamp) s = done ((tickStart stamp s).reply rspOk []) :=
  regWrite_tick latchInit true 0x040 1 stamp s _ rfl hopen (by rw [wordWrite_tickRun, if_pos (by decide)])

/-- TICK_STOP is the generator's stop, answered. -/
theorem exec_tickStop (stamp : Nat) (s : State) (hopen : s.pageOpen 0x17 0 = true) :
    exec (.tickStop stamp) s = done ((tickStop s).reply rspOk []) :=
  regWrite_tick latchInit true 0x040 0 stamp s _ rfl hopen (by rw [wordWrite_tickRun, if_neg (by decide)])

/-- TICK_SLEW_WRITE is the write of the shadow of TICK_SLEW, answered. -/
theorem exec_tickSlewWrite (i : Initiator) (v : Word) (stamp : Nat) (s : State) (hopen : s.pageOpen 0x17 0 = true) :
    exec (.tickSlewWrite i v stamp) s = done ((slewWrite ⟨i, false, 0x17, 0, 0x048, v, stamp⟩ s).1.reply rspOk []) :=
  regWrite_tick i false 0x048 v stamp s _ rfl hopen rfl

/-! ### Start and stop (R48 to R51) -/

/-- The registers as the start leaves them: RUN, the source, TICK_SNAP and TICK_PHASE. -/
def startRegs (s : State) : State :=
  (((s.put R.TICK_RUN_RUN 0 (bit true)).put R.TICK_RUN_SRC 0 (bit (!s.refGood))).put R.TICK_SNAP 0 0).put R.TICK_PHASE 0 0

/-- The generator's hidden state in the first tick after a start at a cycle. -/
def startedTick (cycle : Nat) (s : State) : TickState :=
  let e := effectivePeriod (s.get R.TICK_PERIOD 0) (signedOf 24 (s.get R.TICK_SLEW_SLEW 0))
  let sum := s.tick.acc + e % 2 ^ 24
  { s.tick with
    acc := sum % 2 ^ 24, len := e / 2 ^ 24 + sum / 2 ^ 24, lastEdge := cycle, cut := s.get R.TICK_CUTOFF_CYCLES 0
    arrayCutoff := none }

/-- The start leaves every field of the page outside TICK_RUN, TICK_SNAP and TICK_PHASE. -/
theorem startRegs_get (s : State) (g : Field) (hty : g.ty = 0x17) (hrun : g.off ≠ 0x040) (hsnap : g.off ≠ 0x050) (hphase : g.off ≠ 0x054) :
    (startRegs s).get g 0 = s.get g 0 := by
  rw [startRegs, State.get_put_off _ _ _ _ _ hty hphase, State.get_put_off _ _ _ _ _ hty hsnap, State.get_put_off _ _ _ _ _ hty hrun,
    State.get_put_off _ _ _ _ _ hty hrun]

theorem startRegs_run (s : State) : (startRegs s).flag R.TICK_RUN_RUN 0 = true := by
  simp (disch := decide) only [startRegs, State.flag_put_off, State.flag_put_disjoint, State.flag_put_bit]

theorem startRegs_src (s : State) : (startRegs s).flag R.TICK_RUN_SRC 0 = decide (s.tick.goodWindows < 1000) := by
  simp (disch := decide) only [startRegs, State.flag_put_off, State.flag_put_bit]
  simp only [State.refGood, ← decide_not, Nat.not_le]

theorem startRegs_snap (s : State) : (startRegs s).get R.TICK_SNAP 0 = 0 := by
  simp (disch := decide) only [startRegs, State.get_put_off, State.get_put, Nat.zero_mod]

theorem startRegs_only (s : State) : OnlyRegs [R.TICK_RUN_RUN.key 0, R.TICK_SNAP.key 0, R.TICK_PHASE.key 0] s (startRegs s) := by
  have hsrc : R.TICK_RUN_SRC.key 0 = R.TICK_RUN_RUN.key 0 := rfl
  refine ((((State.put_only _ _ _ _).trans (State.put_only _ _ _ _)).trans (State.put_only _ _ _ _)).trans
    (State.put_only _ _ _ _)).mono (fun k hk => ?_)
  rw [hsrc] at hk
  simpa only [List.cons_append, List.nil_append, List.mem_cons, List.not_mem_nil, or_false, or_self_left] using hk

/-- The start of a stopped generator. -/
theorem tickStart_stopped (stamp : Nat) (s : State) (hrun : s.flag R.TICK_RUN_RUN 0 = false) :
    tickStart stamp s = (startRegs s).withTick (startedTick (stamp / 10) s) := by
  have hstart : tickStart stamp s = openTick ((startRegs s).withTick { s.tick with arrayCutoff := none }) (stamp / 10) := by
    rw [tickStart, hrun]
    rfl
  simp (disch := decide) only [hstart, openTick, State.slew, State.withTick_get, State.withTick_tick, startRegs_get]
  rfl

theorem tick_start (stamp : Nat) (s : State) (hopen : s.pageOpen 0x17 0 = true) (hrun : s.flag R.TICK_RUN_RUN 0 = false) :
    ∃ t, exec (.tickStart stamp) s = .next t ∧ t.answered rspOk ∧ t.flag R.TICK_RUN_RUN 0 = true ∧
      t.flag R.TICK_RUN_SRC 0 = decide (s.tick.goodWindows < 1000) ∧ t.get R.TICK_SNAP 0 = 0 ∧ t.tick = startedTick (stamp / 10) s ∧
      t = { s with tick := t.tick, regs := t.regs, answer := t.answer, pins := t.pins } ∧
      RegsBut [R.TICK_RUN_RUN.key 0, R.TICK_SNAP.key 0, R.TICK_PHASE.key 0] s t := by
  have hdone := exec_tickStart stamp s hopen
  rw [tickStart_stopped stamp s hrun] at hdone
  obtain ⟨p, hexec⟩ := next_of_done hdone
  refine ⟨_, hexec, rfl, ?_, ?_, ?_, rfl, ?_, fun k hk => ?_⟩
  · simp only [State.withPins_flag, State.reply_flag, State.withTick_flag, startRegs_run]
  · simp only [State.withPins_flag, State.reply_flag, State.withTick_flag, startRegs_src]
  · simp only [State.withPins_get, State.reply_get, State.withTick_get, startRegs_snap]
  · simp only [State.withPins, State.reply, State.withTick, startRegs, State.put, State.setReg]
  · rw [State.withPins_regs, State.reply_regs, State.withTick_regs]
    exact (startRegs_only s).2 k hk

/-- The registers as the stop leaves them: RUN and TICK_PHASE. -/
def stopRegs (s : State) : State := (s.put R.TICK_RUN_RUN 0 (bit false)).put R.TICK_PHASE 0 0

theorem stopRegs_run (s : State) : (stopRegs s).flag R.TICK_RUN_RUN 0 = false := by
  simp (disch := decide) only [stopRegs, State.flag_put_off, State.flag_put_bit]

/-- TICK_PHASE of 0 has PAST_CUTOFF 0. -/
theorem stopRegs_pastCutoff (s : State) : (stopRegs s).flag R.TICK_PHASE_PAST_CUTOFF 0 = false := by
  rw [State.flag, stopRegs, State.get_put_zero _ R.TICK_PHASE R.TICK_PHASE_PAST_CUTOFF 0 rfl rfl (by decide) (by decide) (by decide)]
  rfl

theorem stopRegs_only (s : State) : OnlyRegs [R.TICK_RUN_RUN.key 0, R.TICK_PHASE.key 0] s (stopRegs s) :=
  (State.put_only _ _ _ _).trans (State.put_only _ _ _ _)

/-- The stop of a running generator. -/
theorem tickStop_running (s : State) (hrun : s.flag R.TICK_RUN_RUN 0 = true) :
    tickStop s = (stopRegs s).withTick { s.tick with arrayCutoff := none } := by
  rw [tickStop, hrun]
  rfl

theorem tick_stop (stamp : Nat) (s : State) (hopen : s.pageOpen 0x17 0 = true) (hrun : s.flag R.TICK_RUN_RUN 0 = true) :
    ∃ t, exec (.tickStop stamp) s = .next t ∧ t.answered rspOk ∧ t.flag R.TICK_RUN_RUN 0 = false ∧ t.flag R.TICK_PHASE_PAST_CUTOFF 0 = false ∧
      t.tick = { s.tick with arrayCutoff := none } ∧ t = { s with tick := t.tick, regs := t.regs, answer := t.answer, pins := t.pins } ∧
      RegsBut [R.TICK_RUN_RUN.key 0, R.TICK_PHASE.key 0] s t := by
  have hdone := exec_tickStop stamp s hopen
  rw [tickStop_running s hrun] at hdone
  obtain ⟨p, hexec⟩ := next_of_done hdone
  refine ⟨_, hexec, rfl, ?_, ?_, rfl, ?_, fun k hk => ?_⟩
  · simp only [State.withPins_flag, State.reply_flag, State.withTick_flag, stopRegs_run]
  · simp only [State.withPins_flag, State.reply_flag, State.withTick_flag, stopRegs_pastCutoff]
  · simp only [State.withPins, State.reply, State.withTick, stopRegs, State.put, State.setReg]
  · rw [State.withPins_regs, State.reply_regs, State.withTick_regs]
    exact (stopRegs_only s).2 k hk

/-! ### The slew (R49) -/

/-- The slew nearest to a signed number within the bounds of 429,496 either way. -/
def boundedSlew (x : Int) : Int := max (-429496) (min 429496 x)

/-- The clamp gives the nearest slew within the bounds, and says whether that is another one. -/
theorem clampSlew_eq (v : Nat) : clampSlew v = (wrapInt 24 (boundedSlew (signedOf 24 v)), decide (signedOf 24 v ≠ boundedSlew (signedOf 24 v))) := by
  have hself := wrapInt_signedOf 24 v
  unfold clampSlew boundedSlew
  generalize signedOf 24 v = x at *
  by_cases hhigh : 429496 < x
  · have hy : max (-429496) (min 429496 x) = 429496 := by omega
    simp [hy, hhigh, hhigh.ne']
  · by_cases hlow : x < -429496
    · have hy : max (-429496) (min 429496 x) = -429496 := by omega
      simp [hy, hhigh, hlow, hlow.ne]
    · have hy : max (-429496) (min 429496 x) = x := by omega
      simp [hy, hhigh, hlow, hself]

/-- A state with one more TB write waiting for its commit. -/
def State.addShadow (s : State) (w : ShadowWrite) : State := { s with shadows := s.shadows ++ [w] }

@[simp] theorem State.addShadow_regs (s : State) (w : ShadowWrite) : (s.addShadow w).regs = s.regs := rfl
@[simp] theorem State.addShadow_getReg (s : State) (w : ShadowWrite) (ty n off : Nat) : (s.addShadow w).getReg ty n off = s.getReg ty n off := rfl

/-- Before the cutoff a TB write is not counted as deferred. -/
theorem shadowWrite_beforeCutoff (w : WriteReq) (v : Nat) (s : State) (h : s.flag R.TICK_PHASE_PAST_CUTOFF 0 = false) :
    shadowWrite w v s = s.addShadow ⟨regKey w.ty w.n w.off, word v, w.stamp⟩ := by
  simp [shadowWrite, State.addShadow, h]

/-- A write of TICK_SLEW before the cutoff. -/
theorem slewWrite_beforeCutoff (i : Initiator) (v : Word) (stamp : Nat) (s : State) (h : s.flag R.TICK_PHASE_PAST_CUTOFF 0 = false) :
    (slewWrite ⟨i, false, 0x17, 0, 0x048, v, stamp⟩ s).1 =
      let u := s.addShadow ⟨regKey 0x17 0 0x048, word (wrapInt 24 (boundedSlew (signedOf 24 v.toNat))), stamp⟩
      if signedOf 24 v.toNat ≠ boundedSlew (signedOf 24 v.toNat) then u.raise 0x17 0 3 else u := by
  simp only [slewWrite, clampSlew_eq, shadowWrite_beforeCutoff _ _ _ h, decide_eq_true_eq]

theorem tick_slew_write (i : Initiator) (v : Word) (stamp : Nat) (s : State) (hopen : s.pageOpen 0x17 0 = true)
    (hphase : s.flag R.TICK_PHASE_PAST_CUTOFF 0 = false) :
    let x := signedOf 24 v.toNat
    ∃ t, exec (.tickSlewWrite i v stamp) s = .next t ∧ t.answered rspOk ∧
      t.shadows = s.shadows ++ [⟨regKey 0x17 0 0x048, word (wrapInt 24 (boundedSlew x)), stamp⟩] ∧ (x ≠ boundedSlew x → Raises 0x17 0 8 s t) ∧
      (x = boundedSlew x → t.regs = s.regs) ∧ t = { s with shadows := t.shadows, regs := t.regs, answer := t.answer, pins := t.pins } ∧
      RegsBut [evtKey 0x17 0] s t := by
  intro x
  have hdone := exec_tickSlewWrite i v stamp s hopen
  rw [slewWrite_beforeCutoff i v stamp s hphase] at hdone
  obtain ⟨p, hexec⟩ := next_of_done hdone
  by_cases hx : x = boundedSlew x
  · rw [if_neg (not_not.2 hx)] at hexec
    exact ⟨_, hexec, rfl, rfl, fun hne => absurd hx hne, fun _ => rfl, rfl, fun _ _ => rfl⟩
  · rw [if_pos hx] at hexec
    refine ⟨_, hexec, rfl, rfl, fun _ => ?_, fun heq => absurd heq hx, ?_, fun k hk => ?_⟩
    · rw [Raises, State.withPins_getReg, State.reply_getReg, State.getReg_raise, State.addShadow_getReg]
      rfl
    · simp only [State.withPins, State.reply, State.addShadow, State.raise, State.put, State.setReg]
    · rw [State.withPins_regs, State.reply_regs, (State.raise_only _ 0x17 0 3).2 k hk, State.addShadow_regs]

/-! ### The reference (R51), the pulse end, the CUT message (R55) -/

/-- The loss of the reference by a generator that follows it: holdover, with the event. -/
def holdover (s : State) : State := ((s.withTick { s.tick with goodWindows := 0 }).put R.TICK_RUN_SRC 0 (bit true)).raise 0x17 0 4

theorem exec_referenceLost_running (s : State) (hrun : s.flag R.TICK_RUN_RUN 0 = true) (hsrc : s.flag R.TICK_RUN_SRC 0 = false) :
    exec .referenceLost s = done (holdover s) := by
  have hcond : (s.flag R.TICK_RUN_RUN 0 && !s.flag R.TICK_RUN_SRC 0) = true := by rw [hrun, hsrc]; rfl
  exact congrArg done (if_pos hcond)

theorem reference_lost (s : State) (hrun : s.flag R.TICK_RUN_RUN 0 = true) (hsrc : s.flag R.TICK_RUN_SRC 0 = false) :
    ∃ t, exec .referenceLost s = .next t ∧ t.flag R.TICK_RUN_SRC 0 = true ∧ t.flag R.TICK_RUN_RUN 0 = true ∧ Raises 0x17 0 0x10 s t ∧
      t.tick = { s.tick with goodWindows := 0 } ∧ t = { s with tick := t.tick, regs := t.regs, pins := t.pins } ∧
      RegsBut [R.TICK_RUN_RUN.key 0, evtKey 0x17 0] s t := by
  obtain ⟨p, hexec⟩ := next_of_done (exec_referenceLost_running s hrun hsrc)
  refine ⟨_, hexec, ?_, ?_, ?_, rfl, ?_, fun k hk => ?_⟩
  · simp (disch := decide) only [State.withPins_flag, holdover, State.flag_raise_off, State.flag_put_bit]
  · simp (disch := decide) only [State.withPins_flag, holdover, State.flag_raise_off, State.flag_put_disjoint, State.withTick_flag, hrun]
  · rw [Raises, State.withPins_getReg, holdover, State.getReg_raise, State.getReg_put_off _ _ _ _ _ _ rfl (by decide), State.withTick_getReg]
    rfl
  · simp only [State.withPins, holdover, State.withTick, State.raise, State.put, State.setReg]
  · rw [State.withPins_regs, holdover, ((State.put_only _ R.TICK_RUN_SRC 0 _).trans (State.raise_only _ 0x17 0 4)).2 k hk, State.withTick_regs]

/-- The CUT message of the coming commit fixes the array-side cutoff, unless an earlier copy has (R55). -/
theorem cutMessage_coming (age arrival : Nat) (s : State) (hlink : s.linkUp = true) :
    cutMessage ((s.edges + 1) % 16) age arrival s =
      s.withTick { s.tick with arrayCutoff := some (s.tick.arrayCutoff.getD (arrival - age)) } := by
  cases hcut : s.tick.arrayCutoff with
  | none => rw [cutMessage, if_pos ⟨rfl, hlink, hcut⟩, State.withTick, Option.getD_none]
  | some c =>
    rw [cutMessage, if_neg (by simp [hcut]), Option.getD_some, ← hcut]
    rfl

theorem cut_message (age arrival : Nat) (s : State) (hlink : s.linkUp = true) :
    ∃ t, exec (.cutMessageReceive ((s.edges + 1) % 16) age arrival) s = .next t ∧
      t.tick = { s.tick with arrayCutoff := some (s.tick.arrayCutoff.getD (arrival - age)) } ∧ t = { s with tick := t.tick, pins := t.pins } := by
  have hdone : exec (.cutMessageReceive ((s.edges + 1) % 16) age arrival) s = done _ := congrArg done (cutMessage_coming age arrival s hlink)
  obtain ⟨p, hexec⟩ := next_of_done hdone
  exact ⟨_, hexec, rfl, rfl⟩

/-- The pins' settling leaves TICK_OUT as the pulse end has lowered it. -/
theorem tick_out_pulse_end (s : State) :
    ∃ t, exec .tickOutPulseEnd s = .next t ∧ t.pins.tickOut = false ∧ t = { s with pins := t.pins } := ⟨_, rfl, rfl, rfl⟩

/-- Settles O39: each command by its lemma above. -/
theorem tickGenerator : Obligations.TickGenerator := by
  unfold Obligations.TickGenerator
  refine ⟨fun stamp s hopen hrun => ?_, fun stamp s hopen hrun => ?_, fun i v stamp s hopen hphase => ?_, fun s hrun hsrc => ?_,
    fun s => ?_, fun age arrival s hlink _ => ?_⟩
  · exact tick_start stamp s hopen hrun
  · exact tick_stop stamp s hopen hrun
  · exact tick_slew_write i v stamp s hopen hphase
  · exact reference_lost s hrun hsrc
  · exact tick_out_pulse_end s
  · exact cut_message age arrival s hlink

end Sys2Proof.Machine
end

section
/-!
PROOFS. More laws of the error registers: what a page latches, and its count (R45).
-/

namespace Sys2Proof.Machine

/-- An error that a page latches as its first (R45). -/
theorem State.err_latches (s : State) (ty n off code : Nat) (hoff : off < 2 ^ 12) (hcode : code < 2 ^ 16)
    (h : s.get (R.HDR_ERR_CODE_CODE.on ty) n = 0) : Latches ty n off code (s.err ty n off code) := by
  have hne : R.HDR_ERR_CODE.off ≠ R.HDR_ERR_COUNT.off := by decide
  rw [State.err_new s ty n off code h, State.count]
  constructor
  · rw [State.get_put_off _ (R.HDR_ERR_COUNT.on ty) (R.HDR_ERR_CODE_CODE.on ty) _ _ rfl hne,
      State.get_put _ _ _ _ (show (0 + 16 : Nat) ≤ 32 by decide)]
    exact Nat.mod_eq_of_lt hcode
  · rw [State.get_put_off _ (R.HDR_ERR_COUNT.on ty) (R.HDR_ERR_CODE_OFFSET.on ty) _ _ rfl hne,
      State.get_put_disjoint _ (R.HDR_ERR_CODE_CODE.on ty) (R.HDR_ERR_CODE_OFFSET.on ty) _ _ rfl rfl (show (0 + 16 : Nat) ≤ 32 by decide)
        (.inr (show (0 + 16 : Nat) ≤ 16 by decide)),
      State.get_put _ _ _ _ (show (16 + 12 : Nat) ≤ 32 by decide)]
    exact Nat.mod_eq_of_lt hoff

/-- Every error is counted (R45). -/
theorem State.err_count (s : State) (ty n off code : Nat) :
    (s.err ty n off code).get (R.HDR_ERR_COUNT.on ty) n = satAdd (s.get (R.HDR_ERR_COUNT.on ty) n) 1 (2 ^ R.HDR_ERR_COUNT.w - 1) := by
  have hne : R.HDR_ERR_COUNT.off ≠ R.HDR_ERR_CODE.off := by decide
  have hw : (R.HDR_ERR_COUNT.on ty).lo + (R.HDR_ERR_COUNT.on ty).w ≤ 32 := show (0 + 32 : Nat) ≤ 32 by decide
  by_cases h : s.get (R.HDR_ERR_CODE_CODE.on ty) n = 0
  · rw [State.err_new s ty n off code h, State.get_count _ _ _ _ hw,
      State.get_put_off _ (R.HDR_ERR_CODE_CODE.on ty) (R.HDR_ERR_COUNT.on ty) _ _ rfl hne,
      State.get_put_off _ (R.HDR_ERR_CODE_OFFSET.on ty) (R.HDR_ERR_COUNT.on ty) _ _ rfl hne]
  · exact State.err_again s ty n off code h ▸ State.get_count _ _ _ _ hw

end Sys2Proof.Machine
end

section
/-!
PROOFS. The power cap (O5).
-/

namespace Sys2Proof.Machine

/-- A member of a list, or the start of the fold, is no more than the fold of max. -/
theorem le_foldl_max (l : List Nat) (a x : Nat) (h : x ≤ a ∨ x ∈ l) : x ≤ l.foldl max a := by
  induction l generalizing a with
  | nil => exact h.resolve_right List.not_mem_nil
  | cons b l ih =>
    refine ih _ ?_
    rcases h with h | h
    · exact .inl (h.trans (le_max_left _ _))
    · exact (List.mem_cons.1 h).imp_left fun hx => hx.le.trans (le_max_right _ _)

/-- A POWER_TOTAL of the current or the staged itinerary is no more than the largest (R100). -/
theorem powerTotal_le_powerFloor (s : State) (it : Itinerary) (v : Nat) (hit : it ∈ s.porter.current.toList ++ s.porter.staged.toList)
    (hv : v < 80) : (it.variant v).powerTotal ≤ s.powerFloor :=
  le_foldl_max _ _ _ (.inr (List.mem_flatMap.2 ⟨it, hit, List.mem_map.2 ⟨v, List.mem_range.2 hv, rfl⟩⟩))

/-- POWER_CAP_WRITE of a value below the largest POWER_TOTAL is refused by the PORT page's value rule. -/
theorem exec_powerCapWrite_low (i : Initiator) (mw : Nat) (s : State) (hopen : s.pageOpen 0x0B 0 = true) (hmw : mw < 65536)
    (hlow : mw < s.powerFloor) :
    exec (.powerCapWrite i true mw) s = done ((s.err 0x0B 0 0x060 0x0101).reply rspRefused []) := by
  obtain ⟨hfence, hup⟩ := pageOpen_reached s 0x0B 0 0x060 (by decide) hopen
  have hval : (word mw).toNat = mw := by
    rw [word, BitVec.toNat_ofNat, Nat.mod_eq_of_lt (by omega)]
  have hbad : portBad 0x060 (word mw).toNat s = some 0x0101 := by
    rw [portBad, if_pos rfl, if_pos (.inr (.inr (by rwa [hval, Nat.mod_eq_of_lt hmw])))]
  obtain ⟨r, hword⟩ : ∃ r, wordWrite ⟨i, true, 0x0B, 0, 0x060, word mw, 0⟩ s = valueWrite r ⟨i, true, 0x0B, 0, 0x060, word mw, 0⟩ s := ⟨_, rfl⟩
  have hrule : wordWrite ⟨i, true, 0x0B, 0, 0x060, word mw, 0⟩ s = (s.err 0x0B 0 0x060 0x0101, rspRefused) := by
    rw [hword, valueWrite, show pageBad ⟨i, true, 0x0B, 0, 0x060, word mw, 0⟩ s = some 0x0101 from hbad]
    rfl
  show regWrite ⟨i, true, 0x0B, 0, 0x060, word mw, 0⟩ s = _
  simp [regWrite, pageWrite, afterWrite, hfence, hup, hrule]

/-- Settles O5, by the PORT page's value rule and the rules of a latched error. -/
theorem powerCapBelowAnItinerary : Obligations.PowerCapBelowAnItinerary := by
  unfold Obligations.PowerCapBelowAnItinerary
  intro i mw v it s hopen hmw hit hv hlow
  have hfloor : mw < s.powerFloor := hlow.trans_le (powerTotal_le_powerFloor s it v hit hv)
  obtain ⟨p, hexec⟩ := next_of_done (exec_powerCapWrite_low i mw s hopen hmw hfloor)
  obtain ⟨hrest, hregs⟩ := State.err_only s 0x0B 0 0x060 0x0101
  refine ⟨_, hexec, rfl, ⟨?_, hregs⟩, ?_, fun h => ?_, fun h => ?_⟩
  · rw [hrest]
    rfl
  · rw [State.withPins_get, State.reply_get, State.err_count]
    rfl
  · obtain ⟨hcode, hoff⟩ := State.err_latches s 0x0B 0 0x060 0x0101 (by decide) (by decide) h
    exact ⟨by rwa [State.withPins_get, State.reply_get], by rwa [State.withPins_get, State.reply_get]⟩
  · rw [State.withPins_get, State.reply_get, State.err_first s 0x0B 0 0x060 0x0101 h]

end Sys2Proof.Machine
end

section
/-!
PROOFS. Laws of gangs: what a fold over the panes of a gang does and leaves, which panes and engines a gang has, which registers say so.
-/

namespace Sys2Proof.Machine

/-! ### Folds -/

/-- What one step of a fold brings about and every step keeps holds at its end. -/
theorem foldl_sets {α : Type} (P : State → Prop) (F : State → α → State) (l : List α) (a : α) (ha : a ∈ l) (hset : ∀ t, P (F t a))
    (hkeep : ∀ t, ∀ b ∈ l, P t → P (F t b)) (s : State) : P (l.foldl F s) := by
  obtain ⟨l₁, l₂, rfl⟩ := List.append_of_mem ha
  rw [List.foldl_append, List.foldl_cons]
  exact List.foldlRecOn l₂ F (hset _) fun t ht b hb => hkeep t b (List.mem_append_right _ (List.mem_cons_of_mem _ hb)) ht

/-- What every step of a fold leaves as it was. -/
theorem foldl_keeps {α β : Type} (rd : State → β) (F : State → α → State) (l : List α) (h : ∀ t, ∀ a ∈ l, rd (F t a) = rd t) (s : State) :
    rd (l.foldl F s) = rd s :=
  List.foldlRecOn (motive := fun t => rd t = rd s) l F rfl fun t ht a ha => (h t a ha).trans ht

/-- What the steps of a fold for all elements but one leave as it was: that one step alone has touched it. -/
theorem foldl_at {α β : Type} (rd : State → β) (F : State → α → State) (l : List α) (hl : l.Nodup) (a : α) (ha : a ∈ l)
    (hother : ∀ t, ∀ b ∈ l, b ≠ a → rd (F t b) = rd t) (s : State) : ∃ t, rd t = rd s ∧ rd (l.foldl F s) = rd (F t a) := by
  obtain ⟨l₁, l₂, rfl⟩ := List.append_of_mem ha
  rw [List.nodup_middle, List.nodup_cons, List.mem_append, not_or] at hl
  obtain ⟨⟨hl₁, hl₂⟩, -⟩ := hl
  refine ⟨l₁.foldl F s, foldl_keeps rd F l₁ (fun t b hb => ?_) s, ?_⟩
  · exact hother t b (List.mem_append_left _ hb) fun h => hl₁ (h ▸ hb)
  · rw [List.foldl_append, List.foldl_cons]
    exact foldl_keeps rd F l₂ (fun t b hb => hother t b (List.mem_append_right _ (List.mem_cons_of_mem _ hb)) fun h => hl₂ (h ▸ hb)) _

/-- A fold that appends a record for each element appends the records in order. -/
theorem foldl_appends {α β : Type} (rd : State → List β) (F : State → α → State) (f : α → β) (h : ∀ t a, rd (F t a) = rd t ++ [f a])
    (l : List α) (s : State) : rd (l.foldl F s) = rd s ++ l.map f := by
  induction l generalizing s with
  | nil => exact (List.append_nil _).symm
  | cons a l ih => rw [List.foldl_cons, ih, h, List.map_cons, List.append_assoc, List.singleton_append]

/-! ### The panes of a gang -/

theorem gangPanes_nodup (size base : Nat) : (gangPanes size base).Nodup :=
  List.nodup_range.map fun _ _ h => Nat.add_left_cancel h

theorem State.paneGang_nodup (s : State) (p : Nat) : (s.paneGang p).Nodup := by
  unfold State.paneGang
  split
  · exact gangPanes_nodup _ _
  · exact List.nodup_singleton p

theorem gangPanes_lt (size base q : Nat) (hq : q ∈ gangPanes size base) : q < base + 16 := by
  simp only [gangPanes, List.mem_map, List.mem_range] at hq
  obtain ⟨k, hk, rfl⟩ := hq
  split at hk <;> omega

/-- The number of a pane of a gang is one of a page. -/
theorem State.paneGang_lt (s : State) (p q : Nat) (hp : p < 16) (hq : q ∈ s.paneGang p) : q < 31 := by
  unfold State.paneGang at hq
  split at hq
  · have hbase : s.get R.PANE_MODE_GANG_BASE p < 2 ^ 4 := State.get_lt s R.PANE_MODE_GANG_BASE p
    have hlt := gangPanes_lt _ _ q hq
    omega
  · rw [List.mem_singleton] at hq
    omega

/-! ### Keys of registers -/

theorem keyOff_regKey (ty n off : Nat) (h : off < 0x1000) : keyOff (regKey ty n off) = off := by
  unfold keyOff regKey
  omega

theorem regKey_ne_of_num (ty n m off off' : Nat) (hn : n ≠ m) (ho : off < 0x1000) (ho' : off' < 0x1000) :
    regKey ty n off ≠ regKey ty m off' := by
  unfold regKey
  omega

/-- A register of a page type is none of a later type. -/
theorem regKey_ne_of_ty_lt (ty ty' n m off off' : Nat) (hty : ty < ty') (hn : n < 256) (ho : off < 0x1000) :
    regKey ty n off ≠ regKey ty' m off' := by
  unfold regKey
  omega

/-! ### Which registers say what makes up a gang -/

/-- The registers that say which panes and which engines make up a gang, PANE_MODE and SASH_XBAR, stay. -/
def SameGangs (s t : State) : Prop := ∀ k, keyOff k = R.PANE_MODE.off ∨ keyOff k = R.SASH_XBAR.off → tblFind t.regs k = tblFind s.regs k

theorem SameGangs.of_regs {s t : State} (h : t.regs = s.regs) : SameGangs s t := fun k _ => by rw [h]

theorem SameGangs.trans {s t u : State} (h : SameGangs s t) (g : SameGangs t u) : SameGangs s u := fun k hk => (g k hk).trans (h k hk)

/-- A register at neither offset is none of them. -/
theorem SameGangs.setReg (s : State) (ty n off : Nat) (v : Word) (ho : off < 0x1000) (h1 : off ≠ R.PANE_MODE.off) (h2 : off ≠ R.SASH_XBAR.off) :
    SameGangs s (s.setReg ty n off v) := by
  refine fun k hk => State.setReg_find s ty n off k v fun h => ?_
  rw [h, keyOff_regKey ty n off ho] at hk
  exact hk.elim h1 h2

theorem SameGangs.put (s : State) (f : Field) (n v : Nat) (ho : f.off < 0x1000) (h1 : f.off ≠ R.PANE_MODE.off) (h2 : f.off ≠ R.SASH_XBAR.off) :
    SameGangs s (s.put f n v) := SameGangs.setReg s f.ty n f.off _ ho h1 h2

theorem SameGangs.foldl {α : Type} (F : State → α → State) (l : List α) (h : ∀ t a, SameGangs t (F t a)) (s : State) :
    SameGangs s (l.foldl F s) :=
  List.foldlRecOn (motive := SameGangs s) l F (SameGangs.of_regs rfl) fun t ht a _ => ht.trans (h t a)

theorem SameGangs.get {s t : State} (h : SameGangs s t) (f : Field) (n : Nat) (ho : f.off = R.PANE_MODE.off ∨ f.off = R.SASH_XBAR.off) :
    t.get f n = s.get f n := by
  have hlt : f.off < 0x1000 := by
    rcases ho with ho | ho <;> rw [ho] <;> decide
  refine State.get_of_find s t f n (h _ ?_)
  rwa [Field.key, keyOff_regKey _ _ _ hlt]

theorem SameGangs.flag {s t : State} (h : SameGangs s t) (f : Field) (n : Nat) (ho : f.off = R.PANE_MODE.off ∨ f.off = R.SASH_XBAR.off) :
    t.flag f n = s.flag f n := by
  rw [State.flag, State.flag, h.get f n ho]

theorem SameGangs.paneGang {s t : State} (h : SameGangs s t) (p : Nat) : t.paneGang p = s.paneGang p := by
  simp only [State.paneGang, h.flag R.PANE_MODE_IN_GANG p (.inl rfl), h.get R.PANE_MODE_GANG_SIZE p (.inl rfl),
    h.get R.PANE_MODE_GANG_BASE p (.inl rfl)]

theorem SameGangs.gangBase {s t : State} (h : SameGangs s t) (p : Nat) : t.gangBase p = s.gangBase p := by
  simp only [State.gangBase, h.flag R.PANE_MODE_IN_GANG p (.inl rfl), h.get R.PANE_MODE_GANG_BASE p (.inl rfl)]

theorem SameGangs.paneSash {s t : State} (h : SameGangs s t) (p : Nat) : t.paneSash p = s.paneSash p := by
  simp only [State.paneSash, State.paneSpare, h.flag R.SASH_XBAR_REPLACED p (.inr rfl), h.get R.SASH_XBAR_SPARE p (.inr rfl)]

theorem SameGangs.paneEngines {s t : State} (h : SameGangs s t) (p : Nat) : t.paneEngines p = s.paneEngines p := by
  rw [State.paneEngines, State.paneEngines, h.paneSash]

/-! ### A pane controller -/

/-- A pane controller: its hidden state and the registers of its page. -/
def State.controller (s : State) (j : Nat) : PaneCtl × (Fin 0x1000 → Word) := (s.ctl j, fun off => s.getReg 0x02 j off)

theorem controller_of_regs {s t : State} (j : Nat) (hc : t.ctl j = s.ctl j) (hr : t.regs = s.regs) : t.controller j = s.controller j := by
  simp only [State.controller, hc, State.getReg, hr]

theorem controller_ctl {s t : State} {j : Nat} (h : t.controller j = s.controller j) : t.ctl j = s.ctl j := (Prod.mk.inj h).1

theorem controller_getReg {s t : State} {j : Nat} (h : t.controller j = s.controller j) (off : Nat) (ho : off < 0x1000) :
    t.getReg 0x02 j off = s.getReg 0x02 j off := congrFun (Prod.mk.inj h).2 ⟨off, ho⟩

theorem controller_get {s t : State} {j : Nat} (h : t.controller j = s.controller j) (f : Field) (hty : f.ty = 0x02) (ho : f.off < 0x1000) :
    t.get f j = s.get f j := by
  rw [State.get, State.get, hty, controller_getReg h f.off ho]

theorem controller_setCtl_other (s : State) (q j : Nat) (x : PaneCtl) (h : j ≠ q) : (s.setCtl q x).controller j = s.controller j :=
  Prod.ext (State.setCtl_other s q x j h) rfl

theorem controller_setReg_other (s : State) (ty q j off : Nat) (v : Word) (h : ∀ off', off' < 0x1000 → regKey 0x02 j off' ≠ regKey ty q off) :
    (s.setReg ty q off v).controller j = s.controller j :=
  Prod.ext rfl (funext fun off' => State.setReg_other s ty q off 0x02 j off' v (h off' off'.2))

/-- A write to another controller's page leaves a controller. -/
theorem controller_put_pctl (s : State) (f : Field) (q j v : Nat) (hty : f.ty = 0x02) (ho : f.off < 0x1000) (h : j ≠ q) :
    (s.put f q v).controller j = s.controller j :=
  controller_setReg_other s f.ty q j f.off _ fun off' ho' => by
    rw [hty]
    exact regKey_ne_of_num 0x02 j q off' f.off h ho' ho

/-- A write to an engine's page leaves every controller. -/
theorem controller_put_engine (s : State) (f : Field) (n j v : Nat) (hty : 0x02 < f.ty) (hj : j < 256) :
    (s.put f n v).controller j = s.controller j :=
  controller_setReg_other s f.ty n j f.off _ fun off' ho' => regKey_ne_of_ty_lt 0x02 f.ty j n off' f.off hty hj ho'

end Sys2Proof.Machine
end

section
/-!
PROOFS. What follows each cycle of a gang's controllers (R114, R145, R149), where nothing of it leaves a result.
-/

namespace Sys2Proof.Machine

/-! ### What a cycle's end does to the controllers -/

/-- Of a gang's controllers, macroops that had ended have left the lists of those still to execute; nothing else of the device changes. -/
def RunsDrop (gang : List Nat) (s t : State) : Prop :=
  t = { s with pctl := t.pctl } ∧ ∀ q, ∃ l, l <:+ (s.ctl q).runs ∧ t.ctl q = { s.ctl q with runs := l } ∧ (q ∉ gang → l = (s.ctl q).runs)

/-- Nothing of the device changes, the controllers' table being written again. -/
def SameCtl (s t : State) : Prop := t = { s with pctl := t.pctl } ∧ ∀ q, t.ctl q = s.ctl q

theorem SameCtl.refl (s : State) : SameCtl s s := ⟨rfl, fun _ => rfl⟩

theorem SameCtl.trans {s t u : State} (h : SameCtl s t) (g : SameCtl t u) : SameCtl s u :=
  ⟨by rw [g.1, h.1], fun q => (g.2 q).trans (h.2 q)⟩

theorem SameCtl.runsDrop {s t : State} (gang : List Nat) (h : SameCtl s t) : RunsDrop gang s t :=
  ⟨h.1, fun q => ⟨_, List.suffix_rfl, h.2 q, fun _ => rfl⟩⟩

theorem RunsDrop.trans {gang : List Nat} {s t u : State} (h : RunsDrop gang s t) (g : RunsDrop gang t u) : RunsDrop gang s u := by
  refine ⟨by rw [g.1, h.1], fun q => ?_⟩
  obtain ⟨l, hl, ht, hout⟩ := h.2 q
  obtain ⟨m, hm, hu, hout'⟩ := g.2 q
  rw [ht] at hm hu hout'
  exact ⟨m, hm.trans hl, hu, fun hq => (hout' hq).trans (hout hq)⟩

theorem RunsDrop.regs {gang : List Nat} {s t : State} (h : RunsDrop gang s t) : t.regs = s.regs := by rw [h.1]

theorem RunsDrop.pane {gang : List Nat} {s t : State} (h : RunsDrop gang s t) (q : Nat) : t.pane q = s.pane q := by
  rw [State.pane, State.pane, h.1]

theorem RunsDrop.paneGang {gang : List Nat} {s t : State} (h : RunsDrop gang s t) (p : Nat) : t.paneGang p = s.paneGang p :=
  (SameGangs.of_regs h.regs).paneGang p

/-- A state equal in every table but the controllers', from which nothing has been dropped. -/
theorem SameCtl.of_setCtl (s : State) (q : Nat) (x : PaneCtl) (h : x = s.ctl q) : SameCtl s (s.setCtl q x) := by
  refine ⟨rfl, fun j => ?_⟩
  rw [State.setCtl_at]
  split
  · next hj => rw [h, hj]
  · rfl

/-! ### Macroops at their end (R114) -/

/-- A macroop that leaves no result: abandoned, or none of the base image's with a result of its own (R165, R174). -/
def MacroRun.idle (r : MacroRun) : Prop := r.cut = true ∨ (macroOut r.mop 0 0 0 false false).isSome = false

/-- A controller no macroop of which can leave a result now: its oldest is not at its end, or none of them leaves one. -/
def PaneCtl.harmless (c : PaneCtl) : Prop := (c.runs ≠ [] ∧ c.openRun = true) ∨ ∀ r ∈ c.runs, r.idle

/-- The oldest macroop of a gang that is not at its end in some pane stays. -/
theorem settleRun_open (base q : Nat) (s : State) (hq : q ∈ s.paneGang base) (hne : (s.ctl q).runs ≠ []) (hopen : (s.ctl q).openRun = true) :
    settleRun base s = s := by
  refine if_pos (.inr ?_)
  rw [Bool.not_eq_true', List.all_eq_false]
  refine ⟨q, hq, ?_⟩
  rw [PaneCtl.openRun] at hopen
  cases hruns : (s.ctl q).runs with
  | nil => exact absurd hruns hne
  | cons r rest => simpa [hruns] using hopen

/-- The oldest macroop of one controller of the gang leaves its list. -/
theorem RunsDrop.drop {gang : List Nat} (s : State) (q : Nat) (hq : q ∈ gang) :
    RunsDrop gang s (s.setCtl q { s.ctl q with runs := (s.ctl q).runs.drop 1 }) := by
  refine ⟨rfl, fun j => ?_⟩
  rw [State.setCtl_at]
  split
  · next hj => exact ⟨_, List.drop_suffix 1 _, by rw [hj], fun hout => absurd (hj ▸ hq) hout⟩
  · exact ⟨_, List.suffix_rfl, rfl, fun _ => rfl⟩

/-- Macroops that leave no result go from the lists, and that is all. -/
theorem settleRun_idle (base : Nat) (s : State) (h : ∀ q ∈ s.paneGang base, ∀ r ∈ (s.ctl q).runs, r.idle) :
    RunsDrop (s.paneGang base) s (settleRun base s) := by
  unfold settleRun
  extract_lets gang past acts s1
  split
  · exact (SameCtl.refl s).runsDrop _
  · have hacts : ∀ q ∈ gang, acts q = none := by
      intro q hq
      cases hhead : (s.ctl q).runs.head? with
      | none => simp only [acts, hhead]
      | some r =>
        have hidle : r.idle := h q hq r (List.mem_of_head? hhead)
        rw [MacroRun.idle] at hidle
        simp only [acts, hhead]
        exact if_neg fun ⟨hcut, _, hout⟩ => by simp_all
    have hs1 : s1 = s := List.foldlRecOn (motive := fun t => t = s) gang _ rfl fun t ht q hq => by rw [hacts q hq, ht]
    rw [hs1]
    exact List.foldlRecOn (motive := RunsDrop gang s) gang _ ((SameCtl.refl s).runsDrop _) fun t ht q hq => ht.trans (RunsDrop.drop t q hq)

theorem settleRuns_open (base q n : Nat) (s : State) (hq : q ∈ s.paneGang base) (hne : (s.ctl q).runs ≠ []) (hopen : (s.ctl q).openRun = true) :
    settleRuns base n s = s := by
  cases n with
  | zero => rfl
  | succ n => simp only [settleRuns, settleRun_open base q s hq hne hopen, Nat.lt_irrefl, if_false]

theorem settleRuns_idle (base n : Nat) (s : State) (h : ∀ q ∈ s.paneGang base, ∀ r ∈ (s.ctl q).runs, r.idle) :
    RunsDrop (s.paneGang base) s (settleRuns base n s) := by
  induction n generalizing s with
  | zero => exact (SameCtl.refl s).runsDrop _
  | succ n ih =>
    have hstep := settleRun_idle base s h
    simp only [settleRuns]
    split
    · rw [← hstep.paneGang base] at h ⊢
      refine (hstep.paneGang base ▸ hstep).trans (ih _ fun q hq r hr => ?_)
      obtain ⟨l, hl, ht, -⟩ := hstep.2 q
      rw [ht] at hr
      exact h q hq r (hl.subset hr)
    · exact (SameCtl.refl s).runsDrop _

/-! ### The end of a cycle -/

/-- A pane in which nothing but macroops without a result can end now: no reduction open, no edge write waiting for its answer, the two copies
of every occupancy equal (R114, R145, R149). -/
def State.endsIdly (s : State) (q : Nat) : Prop :=
  (s.ctl q).red = none ∧ (s.ctl q).edgeWait = [] ∧ occMismatch (s.pane q).inb (s.pane q).inOcc = none ∧
    occMismatch (s.pane q).outb (s.pane q).outOcc = none

theorem RunsDrop.endsIdly {gang : List Nat} {s t : State} (h : RunsDrop gang s t) (q : Nat) (hs : s.endsIdly q) : t.endsIdly q := by
  obtain ⟨l, -, hctl, -⟩ := h.2 q
  rw [State.endsIdly, hctl, h.pane]
  exact hs

theorem closeReductions_none (base q : Nat) (s : State) (hq : q ∈ s.paneGang base) (hred : (s.ctl q).red = none) : closeReductions base s = s := by
  refine if_pos ?_
  rw [Bool.not_eq_true', List.all_eq_false]
  exact ⟨q, hq, by simp [hred]⟩

theorem edgeAnswers_none (q : Nat) (s : State) (hwait : (s.ctl q).edgeWait = []) : SameCtl s (edgeAnswers q s) := by
  unfold edgeAnswers
  extract_lets c
  split
  · exact SameCtl.refl s
  · rw [show c.edgeWait = [] from hwait, List.foldl_nil]
    refine SameCtl.of_setCtl s q _ ?_
    rw [← hwait]

theorem hampCompare_equal (q : Nat) (s : State) (hin : occMismatch (s.pane q).inb (s.pane q).inOcc = none)
    (hout : occMismatch (s.pane q).outb (s.pane q).outOcc = none) : hampCompare q s = s := by
  simp only [hampCompare, hin, hout, ite_self]

theorem closeTail_sameCtl (gang : List Nat) (s : State) (h : ∀ q ∈ gang, s.endsIdly q) :
    SameCtl s (gang.foldl (fun t q => hampCompare q (edgeAnswers q t)) s) := by
  refine List.foldlRecOn (motive := SameCtl s) gang _ (SameCtl.refl s) fun t ht q hq => ?_
  obtain ⟨-, hwait, hin, hout⟩ := (ht.runsDrop gang).endsIdly q (h q hq)
  have hanswers := edgeAnswers_none q t hwait
  have hpane : (edgeAnswers q t).pane q = t.pane q := (hanswers.runsDrop gang).pane q
  rw [hampCompare_equal q _ (by rwa [hpane]) (by rwa [hpane])]
  exact ht.trans hanswers

/-- Once the macroops at their end are gone, the end of a cycle changes nothing. -/
theorem closeCycle_settled (base : Nat) (s : State) (hbase : base ∈ s.paneGang base) (hends : ∀ q ∈ s.paneGang base, s.endsIdly q)
    (hruns : RunsDrop (s.paneGang base) s (settleRuns base (s.ctl base).runs.length s)) :
    SameCtl (settleRuns base (s.ctl base).runs.length s) (closeCycle base s) := by
  have hgang := hruns.paneGang base
  have hends' : ∀ q ∈ s.paneGang base, (settleRuns base (s.ctl base).runs.length s).endsIdly q := fun q hq => hruns.endsIdly q (hends q hq)
  unfold closeCycle
  rw [closeReductions_none base base _ (hgang ▸ hbase) (hends' base hbase).1]
  simp only [hgang]
  exact closeTail_sameCtl _ _ hends'

/-- The end of a cycle after which no macroop can leave a result. -/
theorem closeCycle_harmless (base : Nat) (s : State) (hbase : base ∈ s.paneGang base) (hends : ∀ q ∈ s.paneGang base, s.endsIdly q)
    (h : ∀ q ∈ s.paneGang base, (s.ctl q).harmless) : RunsDrop (s.paneGang base) s (closeCycle base s) := by
  have hruns : RunsDrop (s.paneGang base) s (settleRuns base (s.ctl base).runs.length s) := by
    by_cases hopen : ∃ q ∈ s.paneGang base, (s.ctl q).runs ≠ [] ∧ (s.ctl q).openRun = true
    · obtain ⟨q, hq, hne, hq'⟩ := hopen
      rw [settleRuns_open base q _ s hq hne hq']
      exact (SameCtl.refl s).runsDrop _
    · exact settleRuns_idle base _ s fun q hq => (h q hq).resolve_left fun hq' => hopen ⟨q, hq, hq'⟩
  exact hruns.trans ((closeCycle_settled base s hbase hends hruns).runsDrop _)

/-- The end of a cycle after which the oldest macroop of every controller is not at its end. -/
theorem closeCycle_open (base : Nat) (s : State) (hbase : base ∈ s.paneGang base) (hends : ∀ q ∈ s.paneGang base, s.endsIdly q)
    (hopen : ∀ q ∈ s.paneGang base, (s.ctl q).openRun = true) : SameCtl s (closeCycle base s) := by
  have hsame : SameCtl s (settleRuns base (s.ctl base).runs.length s) := by
    by_cases hne : ∃ q ∈ s.paneGang base, (s.ctl q).runs ≠ []
    · obtain ⟨q, hq, hne⟩ := hne
      rw [settleRuns_open base q _ s hq hne (hopen q hq)]
      exact SameCtl.refl s
    · have hnil : ∀ q ∈ s.paneGang base, (s.ctl q).runs = [] := fun q hq => not_not.1 fun h => hne ⟨q, hq, h⟩
      have hruns := settleRuns_idle base (s.ctl base).runs.length s fun q hq r hr => by rw [hnil q hq] at hr; cases hr
      refine ⟨hruns.1, fun q => ?_⟩
      obtain ⟨l, hl, hctl, hout⟩ := hruns.2 q
      have hl' : l = (s.ctl q).runs := by
        by_cases hq : q ∈ s.paneGang base
        · rw [hnil q hq] at hl ⊢
          exact List.suffix_nil.1 hl
        · exact hout hq
      rw [hctl, hl']
  exact hsame.trans (closeCycle_settled base s hbase hends (hsame.runsDrop _))

end Sys2Proof.Machine
end

section
/-!
PROOFS. Steps of a gang's controllers: a step of every controller of a gang, the macroop queue (R155, R156),
dispatch (R157, R164, R167).
-/

namespace Sys2Proof.Machine

/-! ### Outcomes -/

/-- A command whose unit exists has its own outcome. -/
theorem need_of {ok : Prop} [Decidable ok] (h : ok) (r : Result) : need (decide ok) r = r := by
  rw [decide_eq_true h, need_true]

@[simp] theorem State.withPins_ctl (s : State) (p : Pins) (q : Nat) : (s.withPins p).ctl q = s.ctl q := by
  rw [State.ctl, State.ctl, State.withPins]

@[simp] theorem State.withPins_pane (s : State) (p : Pins) (q : Nat) : (s.withPins p).pane q = s.pane q := by
  rw [State.pane, State.pane, State.withPins]

@[simp] theorem State.withPins_run (s : State) (p : Pins) (q : Nat) : (s.withPins p).run q = s.run q := by
  rw [State.run, State.run, State.withPins]

@[simp] theorem State.withPins_link (s : State) (p : Pins) (k : Nat) : (s.withPins p).link k = s.link k := by
  rw [State.link, State.link, State.withPins]

@[simp] theorem State.withPins_port (s : State) (p : Pins) (k : Nat) : (s.withPins p).port k = s.port k := by
  rw [State.port, State.port, State.withPins]

/-- A field replaced in a number of some width stays one. -/
theorem setBits_lt_two_pow (n lo w v k : Nat) (hn : n < 2 ^ k) (hw : lo + w ≤ k) : setBits n lo w v < 2 ^ k := by
  refine Nat.lt_pow_two_of_testBit _ fun j hj => ?_
  rw [testBit_setBits, if_neg (by omega)]
  exact Nat.testBit_lt_two_pow (hn.trans_le (Nat.pow_le_pow_right (by decide) hj))

/-! ### A step of every controller of a gang -/

/-- The controllers of a gang have become the given ones; nothing else of the device changes. -/
def GangCtl (gang : List Nat) (f : Nat → PaneCtl) (s t : State) : Prop :=
  t = { s with pctl := t.pctl } ∧ (∀ q, q ∈ gang → t.ctl q = f q) ∧ ∀ q, q ∉ gang → t.ctl q = s.ctl q

theorem GangCtl.trans {gang : List Nat} {f g : Nat → PaneCtl} {s t u : State} (h : GangCtl gang f s t) (k : GangCtl gang g t u) :
    GangCtl gang g s u :=
  ⟨by rw [k.1, h.1], k.2.1, fun q hq => (k.2.2 q hq).trans (h.2.2 q hq)⟩

theorem GangCtl.sameCtl {gang : List Nat} {f : Nat → PaneCtl} {s t u : State} (h : GangCtl gang f s t) (k : SameCtl t u) : GangCtl gang f s u :=
  ⟨by rw [k.1, h.1], fun q hq => (k.2 q).trans (h.2.1 q hq), fun q hq => (k.2 q).trans (h.2.2 q hq)⟩

theorem GangCtl.regs {gang : List Nat} {f : Nat → PaneCtl} {s t : State} (h : GangCtl gang f s t) : t.regs = s.regs := by rw [h.1]

theorem GangCtl.pane {gang : List Nat} {f : Nat → PaneCtl} {s t : State} (h : GangCtl gang f s t) (q : Nat) : t.pane q = s.pane q := by
  rw [State.pane, State.pane, h.1]

theorem GangCtl.paneGang {gang : List Nat} {f : Nat → PaneCtl} {s t : State} (h : GangCtl gang f s t) (p : Nat) :
    t.paneGang p = s.paneGang p := (SameGangs.of_regs h.regs).paneGang p

/-- Steps that each set one controller of a gang, to a value that the state before them all gives. -/
theorem foldl_setCtl (F : State → Nat → State) (f : Nat → PaneCtl) (l : List Nat) (hl : l.Nodup) (s : State)
    (h : ∀ t, ∀ q ∈ l, t = { s with pctl := t.pctl } → t.ctl q = s.ctl q → F t q = t.setCtl q (f q)) : GangCtl l f s (l.foldl F s) := by
  induction l generalizing s with
  | nil => exact ⟨rfl, fun _ hq => (List.not_mem_nil hq).elim, fun _ _ => rfl⟩
  | cons a l ih =>
    obtain ⟨ha, hl⟩ := List.nodup_cons.1 hl
    rw [List.foldl_cons, h s a List.mem_cons_self rfl rfl]
    have hne : ∀ q ∈ l, q ≠ a := fun q hq hqa => ha (hqa ▸ hq)
    obtain ⟨hframe, hin, hout⟩ := ih hl (s.setCtl a (f a)) fun t q hq ht hctl =>
      h t q (List.mem_cons_of_mem _ hq) ht (hctl.trans (State.setCtl_other _ _ _ _ (hne q hq)))
    refine ⟨hframe, fun q hq => ?_, fun q hq => ?_⟩
    · rcases List.mem_cons.1 hq with rfl | hq
      · rw [hout _ ha, State.setCtl_same]
      · exact hin q hq
    · rw [List.mem_cons, not_or] at hq
      rw [hout q hq.2, State.setCtl_other _ _ _ _ hq.1]

/-! ### The queue (R155, R156) -/

/-- The state with the oldest macroop on its way to a gang taken off the wire. -/
def State.setFlight (s : State) (p : Nat) (rest : List (BitVec 64 × Nat)) : State := { s with macroFlight := tblSet [] s.macroFlight p rest }

theorem exec_macroEnqueue (p : Nat) (s : State) (hp : p < 16) : exec (.macroEnqueue p) s = done (macroEnqueue p s) := need_of hp _

/-- A macroop that arrives at a clocked, initialised gang is queued in every controller, or counted as discarded by every one. -/
theorem macroEnqueue_eq (p tsn : Nat) (m : BitVec 64) (rest : List (BitVec 64 × Nat)) (s : State)
    (hflight : tblGet [] s.macroFlight p = (m, tsn) :: rest) (hon : s.gangOn p = true) (hinit : s.gangInit p = false) :
    macroEnqueue p s = (s.paneGang p).foldl (fun t q => if s.taskNow p ≠ 0 ∧ tsn = s.gangTsn p then
      t.setCtl q { t.ctl q with queue := (t.ctl q).queue ++ [m] } else t.count R.PCTL_DISCARDS q 1) (s.setFlight p rest) := by
  simp only [macroEnqueue, hflight, hon, hinit, Bool.not_true, Bool.or_self, Bool.false_eq_true, if_false]
  rfl

theorem macro_enqueued (p tsn : Nat) (m : BitVec 64) (rest : List (BitVec 64 × Nat)) (s : State) (hp : p < 16)
    (hflight : tblGet [] s.macroFlight p = (m, tsn) :: rest) (hon : s.gangOn p = true) (hinit : s.gangInit p = false)
    (htask : s.taskNow p ≠ 0) (htsn : tsn = s.gangTsn p) :
    ∃ t, exec (.macroEnqueue p) s = .next t ∧ tblGet [] t.macroFlight p = rest ∧
      (∀ (q : Nat), q ∈ s.paneGang p → t.ctl q = { s.ctl q with queue := (s.ctl q).queue ++ [m] }) ∧
      (∀ (q : Nat), q ∉ s.paneGang p → t.ctl q = s.ctl q) ∧ (∀ (k : Nat), k ≠ p → tblGet [] t.macroFlight k = tblGet [] s.macroFlight k) ∧
      t = { s with macroFlight := t.macroFlight, pctl := t.pctl, pins := t.pins } := by
  have hdone := exec_macroEnqueue p s hp
  rw [macroEnqueue_eq p tsn m rest s hflight hon hinit] at hdone
  simp only [if_pos (And.intro htask htsn)] at hdone
  have hgang := foldl_setCtl (fun t q => t.setCtl q { t.ctl q with queue := (t.ctl q).queue ++ [m] })
    (fun q => { s.ctl q with queue := (s.ctl q).queue ++ [m] }) _ (s.paneGang_nodup p) (s.setFlight p rest)
    fun t q _ _ hctl => by rw [hctl]; rfl
  revert hdone hgang
  generalize List.foldl _ _ _ = u
  rintro hdone ⟨hframe, hin, hout⟩
  obtain ⟨pins, hexec⟩ := next_of_done hdone
  have hu : u.macroFlight = tblSet [] s.macroFlight p rest := by rw [hframe]; rfl
  have hfl : (u.withPins pins).macroFlight = tblSet [] s.macroFlight p rest := hu
  refine ⟨_, hexec, ?_, fun q hq => ?_, fun q hq => ?_, fun k hk => ?_, ?_⟩
  · rw [hfl, tblGet_set_same]
  · rw [State.withPins_ctl, hin q hq]
  · rw [State.withPins_ctl, hout q hq]
    rfl
  · rw [hfl, tblGet_set_other _ _ _ _ _ hk]
  · rw [hframe]
    rfl

/-- The DISCARDS of one controller counted leave those of another. -/
theorem get_count_pctl_other (s : State) (f : Field) (q j k : Nat) (hty : f.ty = 0x02) (ho : f.off < 0x1000) (h : j ≠ q) :
    (s.count f q k).get f j = s.get f j :=
  controller_get (controller_put_pctl s f q j _ hty ho h) f hty ho

theorem macro_discarded (p tsn : Nat) (m : BitVec 64) (rest : List (BitVec 64 × Nat)) (s : State) (hp : p < 16)
    (hflight : tblGet [] s.macroFlight p = (m, tsn) :: rest) (hon : s.gangOn p = true) (hinit : s.gangInit p = false)
    (hlate : s.taskNow p = 0 ∨ tsn ≠ s.gangTsn p) :
    ∃ t, exec (.macroEnqueue p) s = .next t ∧ tblGet [] t.macroFlight p = rest ∧
      (∀ (q : Nat), q ∈ s.paneGang p → t.get R.PCTL_DISCARDS q = min (s.get R.PCTL_DISCARDS q + 1) (2 ^ 32 - 1)) ∧
      t = { s with macroFlight := t.macroFlight, regs := t.regs, pins := t.pins } ∧
      RegsBut ((s.paneGang p).map (fun q => R.PCTL_DISCARDS.key q)) s t := by
  have hdone := exec_macroEnqueue p s hp
  rw [macroEnqueue_eq p tsn m rest s hflight hon hinit] at hdone
  have hnot : ¬(s.taskNow p ≠ 0 ∧ tsn = s.gangTsn p) := fun ⟨htask, htsn⟩ => hlate.elim htask fun hne => hne htsn
  simp only [if_neg hnot] at hdone
  revert hdone
  generalize hu : List.foldl _ _ _ = u
  intro hdone
  have hframe : u = { s.setFlight p rest with regs := u.regs } := by
    rw [← hu]
    refine List.foldlRecOn (motive := fun v : State => v = { s.setFlight p rest with regs := v.regs }) _ _ ?_ fun t ht q _ => ?_
    · rfl
    · rw [ht]
      rfl
  obtain ⟨pins, hexec⟩ := next_of_done hdone
  have hfl : (u.withPins pins).macroFlight = tblSet [] s.macroFlight p rest := by rw [hframe]; rfl
  refine ⟨_, hexec, ?_, fun q hq => ?_, ?_, fun k hk => ?_⟩
  · rw [hfl, tblGet_set_same]
  · obtain ⟨t, ht, hat⟩ := foldl_at (fun t => t.get R.PCTL_DISCARDS q) (fun t q => t.count R.PCTL_DISCARDS q 1) _ (s.paneGang_nodup p) q hq
      (fun t j _ hj => get_count_pctl_other t R.PCTL_DISCARDS j q 1 rfl (by decide) hj.symm) (s.setFlight p rest)
    rw [State.withPins_get, ← hu, hat, State.get_count _ _ _ _ (by decide), ht]
    rfl
  · rw [hframe]
    rfl
  · rw [State.withPins_regs, ← hu]
    exact foldl_keeps (fun t => tblFind t.regs k) _ _
      (fun t q hq => State.put_find t _ q _ k fun h => hk (List.mem_map.2 ⟨q, hq, h.symm⟩)) (s.setFlight p rest)

/-! ### Macroops in flight -/

/-- A PE-op of a controller's oldest macroop is in flight. -/
def PaneCtl.headInFlight (c : PaneCtl) : Prop := ∃ r rest, c.runs = r :: rest ∧ c.inflight.all (fun i => i.seq != r.seq) = false

/-- At a macroop boundary, the oldest macroop that is not at its end has a PE-op in flight. -/
theorem PaneCtl.openRun_dispatch (c : PaneCtl) (hopen : c.openRun = true) (hdisp : c.dispatch = true) : c.runs = [] ∨ c.headInFlight := by
  cases hruns : c.runs with
  | nil => exact .inl rfl
  | cons r rest =>
    refine .inr ⟨r, rest, hruns, ?_⟩
    simpa [PaneCtl.openRun, hruns, PaneCtl.pastRun, hdisp] using hopen

theorem PaneCtl.headInFlight.openRun {c : PaneCtl} (h : c.headInFlight) : c.openRun = true := by
  obtain ⟨r, rest, hruns, hall⟩ := h
  simp only [PaneCtl.openRun, hruns, PaneCtl.pastRun, hall, Bool.and_false, Bool.not_false]

theorem PaneCtl.headInFlight.harmless {c : PaneCtl} (h : c.headInFlight) : c.harmless := by
  obtain ⟨r, rest, hruns, -⟩ := id h
  exact .inl ⟨by rw [hruns]; exact List.cons_ne_nil r rest, h.openRun⟩

/-- Macroops dispatched behind it leave the oldest macroop's PE-op in flight. -/
theorem PaneCtl.headInFlight.append {c d : PaneCtl} (h : c.headInFlight) (l : List MacroRun) (hruns : d.runs = c.runs ++ l)
    (hfly : d.inflight = c.inflight) : d.headInFlight := by
  obtain ⟨r, rest, hc, hall⟩ := h
  exact ⟨r, rest ++ l, by rw [hruns, hc, List.cons_append], by rw [hfly, hall]⟩

/-- A controller's part of a quiet gang (R35, R105, R114, R145, R149). -/
theorem State.gangQuiet.endsIdly {s : State} {p : Nat} (h : s.gangQuiet p) (q : Nat) (hq : q ∈ s.paneGang p) : s.endsIdly q :=
  (h.2.2 q hq).2

theorem State.gangQuiet.openRun {s : State} {p : Nat} (h : s.gangQuiet p) (q : Nat) (hq : q ∈ s.paneGang p) : (s.ctl q).openRun = true :=
  (h.2.2 q hq).1

/-! ### Dispatch (R157, R164, R167) -/

/-- A controller that has taken a macroop from its queue, with the edge configuration and edge registers that will govern its PE-ops (R114). -/
def PaneCtl.taken (c : PaneCtl) (bad : Bool) (m : BitVec 64) (edges : Nat × Tbl Word) : PaneCtl :=
  { c with
    queue := c.queue.drop 1, mop := m, seq := c.seq + 1, macrosTick := satAdd c.macrosTick 1 (2 ^ 32 - 1)
    runs := c.runs ++ [⟨c.seq + 1, m, edges.1, edges.2, none, bad⟩] }

theorem takeHead_eq (bad : Bool) (q : Nat) (m : BitVec 64) (s : State) (hhead : (s.ctl q).queue.head? = some m) :
    takeHead bad q s = s.setCtl q ((s.ctl q).taken bad m (edgePage s q)) := by
  obtain ⟨rest, hqueue⟩ := List.head?_eq_some_iff.1 hhead
  simp only [takeHead, hqueue, PaneCtl.taken, List.drop_succ_cons, List.drop_zero]

theorem edgePage_of_regs {s t : State} (h : t.regs = s.regs) (q : Nat) : edgePage t q = edgePage s q := by
  simp only [edgePage, State.getReg, h]

/-- Every controller of a gang whose queues have a macroop at the head takes it. -/
theorem takeHeads (bad : Bool) (m : BitVec 64) (gang : List Nat) (hl : gang.Nodup) (s : State)
    (hhead : ∀ q ∈ gang, (s.ctl q).queue.head? = some m) :
    GangCtl gang (fun q => (s.ctl q).taken bad m (edgePage s q)) s (gang.foldl (fun t q => takeHead bad q t) s) := by
  refine foldl_setCtl _ _ gang hl s fun t q hq ht hctl => ?_
  rw [takeHead_eq bad q m t (by rw [hctl]; exact hhead q hq), hctl, edgePage_of_regs (show t.regs = s.regs by rw [ht]) q]

/-- The controllers of a clocked, initialised gang that all expand macroops and have one other than TASK_END at the head dispatch it. -/
theorem canDispatch_of (p : Nat) (m : BitVec 64) (s : State) (hm : mopOp m ≠ opTaskEnd) (hquiet : s.gangQuiet p)
    (hhead : ∀ q ∈ s.paneGang p, s.expands q = true ∧ (s.ctl q).dispatch = true ∧ (s.ctl q).queue.head? = some m) : canDispatch s p = true := by
  obtain ⟨hon, hinit, -⟩ := hquiet
  rw [canDispatch, hon, hinit, Bool.not_false, Bool.true_and, Bool.true_and, List.all_eq_true]
  intro q hq
  obtain ⟨hexp, hdisp, hq⟩ := hhead q hq
  obtain ⟨rest, hqueue⟩ := List.head?_eq_some_iff.1 hq
  simpa [hexp, hdisp, hqueue] using hm

/-- Whether a controller finds the macroop at its head unlisted or malformed (R160). -/
theorem headBad_eq (c : PaneCtl) (m : BitVec 64) (hhead : c.queue.head? = some m) :
    c.headBad = (!listed (c.entry m) (mopWidth m) || mopReserved m != 0) := by
  obtain ⟨rest, hqueue⟩ := List.head?_eq_some_iff.1 hhead
  simp only [PaneCtl.headBad, hqueue]

/-- The controllers of a gang that all find their head listed and well formed execute it from the next cycle on. -/
theorem dispatchGang_listed (p : Nat) (s : State) (hcan : canDispatch s p = true) (hgood : ∀ q ∈ s.paneGang p, (s.ctl q).headBad = false) :
    dispatchGang p s = closeCycle p ((s.paneGang p).foldl (fun t q => t.setCtl q (t.ctl q).dispatched)
      ((s.paneGang p).foldl (fun t q => takeHead false q t) s)) := by
  have hfaults : headFaults s p = [] := List.filter_eq_nil_iff.2 fun q hq => by rw [hgood q hq]; exact Bool.false_ne_true
  simp only [dispatchGang, hcan, hfaults, if_true, bne_self_eq_false]

/-- After the dispatch of a listed macroop, before what follows the cycle. -/
theorem dispatchHeads (m : BitVec 64) (gang : List Nat) (hl : gang.Nodup) (s : State) (hhead : ∀ q ∈ gang, (s.ctl q).queue.head? = some m) :
    GangCtl gang (fun q => ((s.ctl q).taken false m (edgePage s q)).dispatched) s
      (gang.foldl (fun t q => t.setCtl q (t.ctl q).dispatched) (gang.foldl (fun t q => takeHead false q t) s)) := by
  have htake := takeHeads false m gang hl s hhead
  exact htake.trans (foldl_setCtl _ _ gang hl _ fun t q hq _ hctl => by rw [hctl, htake.2.1 q hq])

/-- A dispatch leaves the reduction, the edge writes that wait, the PE-ops in flight and the list of macroops to execute. -/
theorem PaneCtl.dispatched_keeps (c : PaneCtl) :
    c.dispatched.red = c.red ∧ c.dispatched.edgeWait = c.edgeWait ∧ c.dispatched.inflight = c.inflight ∧ c.dispatched.runs = c.runs ∧
      c.dispatched.queue = c.queue ∧ c.dispatched.seq = c.seq := by
  unfold PaneCtl.dispatched
  extract_lets m setc e c1
  split
  · exact ⟨rfl, rfl, rfl, rfl, rfl, rfl⟩
  split
  · exact ⟨rfl, rfl, rfl, rfl, rfl, rfl⟩
  split <;> exact ⟨rfl, rfl, rfl, rfl, rfl, rfl⟩

/-- A controller in the dispatch of a macroop that is not SETC and costs more than a cycle (R157, R164). -/
theorem PaneCtl.dispatched_taken (c : PaneCtl) (m : BitVec 64) (edges : Nat × Tbl Word) (hlo : mopOp m ≠ opSetcLo) (hhi : mopOp m ≠ opSetcHi)
    (hcost : 1 < entryCost (c.entry m) (mopWidth m)) :
    (c.taken false m edges).dispatched = { c with
      queue := c.queue.drop 1, mop := m, seq := c.seq + 1, macrosTick := satAdd c.macrosTick 1 (2 ^ 32 - 1), a := mopA m, b := mopB m
      d := mopD m, stepA := 1, stepB := 1, stepD := 1, lc0 := mopWidth m, lc0r := mopWidth m, lc1 := 0, lc1r := 0, first := true
      waitLeft := 0, remaining := entryCost (c.entry m) (mopWidth m) - 1, dispatch := false, upc := opEntryAddr (c.entry m)
      runs := c.runs ++ [⟨c.seq + 1, m, edges.1, edges.2, none, false⟩] } := by
  have hmop : (c.taken false m edges).mop = m := rfl
  have hentry : (c.taken false m edges).entry m = c.entry m := rfl
  have hcost' : entryCost (c.entry m) (mopWidth m) - 1 ≠ 0 := by omega
  simp only [PaneCtl.dispatched, hmop, hentry, beq_eq_false_iff_ne.2 hlo, beq_eq_false_iff_ne.2 hhi, Bool.or_self, Bool.false_eq_true, if_false,
    if_neg hlo, if_neg hhi, if_neg hcost']
  rfl

/-- Such a macroop, or one before it, is then not at its end. -/
theorem PaneCtl.dispatched_taken_openRun (c : PaneCtl) (m : BitVec 64) (edges : Nat × Tbl Word) (hopen : c.openRun = true)
    (hdisp : c.dispatch = true) (hlo : mopOp m ≠ opSetcLo) (hhi : mopOp m ≠ opSetcHi) (hcost : 1 < entryCost (c.entry m) (mopWidth m)) :
    (c.taken false m edges).dispatched.openRun = true := by
  rw [c.dispatched_taken m edges hlo hhi hcost]
  rcases c.openRun_dispatch hopen hdisp with hnil | hfly
  · simp only [PaneCtl.openRun, hnil, List.nil_append, PaneCtl.pastRun, bne_self_eq_false, Bool.or_self, Bool.false_and, Bool.not_false]
  · exact PaneCtl.headInFlight.openRun (hfly.append _ rfl rfl)

/-- A controller after the dispatch of SETC_LO or SETC_HI, which writes half of the constant register (R167). -/
theorem PaneCtl.dispatched_setc (c : PaneCtl) (hi : Bool) (hop : mopOp c.mop = if hi then opSetcHi else opSetcLo) :
    c.dispatched.const.toNat = setBits c.const.toNat (if hi then 32 else 0) 32 (c.mop.toNat / 2 ^ 32) ∧ c.dispatched.dispatch = c.dispatch ∧
      (c.dispatched.a, c.dispatched.b, c.dispatched.d) = (c.a, c.b, c.d) := by
  cases hi with
  | false =>
    have hlt := setBits_lt_two_pow c.const.toNat 0 32 (c.mop.toNat / 2 ^ 32) 64 c.const.isLt (by decide)
    simp only [Bool.false_eq_true, if_false] at hop ⊢
    simp only [PaneCtl.dispatched, hop, if_true, beq_self_eq_true, Bool.true_or, BitVec.toNat_ofNat, Nat.mod_eq_of_lt hlt, and_self]
  | true =>
    have hlt := setBits_lt_two_pow c.const.toNat 32 32 (c.mop.toNat / 2 ^ 32) 64 c.const.isLt (by decide)
    have hne : opSetcHi ≠ opSetcLo := by decide
    simp only [if_true] at hop ⊢
    simp only [PaneCtl.dispatched, hop, if_true, if_neg hne, beq_self_eq_true, Bool.or_true, BitVec.toNat_ofNat, Nat.mod_eq_of_lt hlt, and_self]

/-- SETC leaves no result of its own. -/
theorem macroOut_setc (m : BitVec 64) (hi : Bool) (hop : mopOp m = if hi then opSetcHi else opSetcLo) :
    (macroOut m 0 0 0 false false).isSome = false := by
  rw [macroOut, hop]
  cases hi <;> rfl

theorem exec_macroDispatch (p : Nat) (s : State) (hp : p < 16) : exec (.macroDispatch p) s = done (dispatchGang p s) := need_of hp _

/-- After a step that leaves its reductions and the edge writes that wait, a gang that was quiet ends its cycle idly. -/
theorem GangCtl.endsIdly {p : Nat} {f : Nat → PaneCtl} {s t : State} (h : GangCtl (s.paneGang p) f s t) (hquiet : s.gangQuiet p)
    (hred : ∀ q ∈ s.paneGang p, (f q).red = (s.ctl q).red) (hwait : ∀ q ∈ s.paneGang p, (f q).edgeWait = (s.ctl q).edgeWait) :
    ∀ q ∈ t.paneGang p, t.endsIdly q := by
  intro q hq
  rw [h.paneGang] at hq
  rw [State.endsIdly, h.2.1 q hq, h.pane, hred q hq, hwait q hq]
  exact hquiet.endsIdly q hq

/-- A step of the controllers of a quiet gang after which no macroop is at its end. -/
theorem GangCtl.closeCycle_open {p : Nat} {f : Nat → PaneCtl} {s t : State} (h : GangCtl (s.paneGang p) f s t) (hquiet : s.gangQuiet p)
    (hp : p ∈ s.paneGang p) (hred : ∀ q ∈ s.paneGang p, (f q).red = (s.ctl q).red)
    (hwait : ∀ q ∈ s.paneGang p, (f q).edgeWait = (s.ctl q).edgeWait) (hopen : ∀ q ∈ s.paneGang p, (f q).openRun = true) :
    GangCtl (s.paneGang p) f s (closeCycle p t) := by
  refine h.sameCtl (Machine.closeCycle_open p t (h.paneGang p ▸ hp) (h.endsIdly hquiet hred hwait) fun q hq => ?_)
  rw [h.paneGang] at hq
  rw [h.2.1 q hq]
  exact hopen q hq

/-- A step of the controllers of a quiet gang after which no macroop at its end can leave a result: some macroops may go. -/
theorem GangCtl.closeCycle_harmless {p : Nat} {f : Nat → PaneCtl} {s t : State} (h : GangCtl (s.paneGang p) f s t) (hquiet : s.gangQuiet p)
    (hp : p ∈ s.paneGang p) (hred : ∀ q ∈ s.paneGang p, (f q).red = (s.ctl q).red)
    (hwait : ∀ q ∈ s.paneGang p, (f q).edgeWait = (s.ctl q).edgeWait) (hidle : ∀ q ∈ s.paneGang p, (f q).harmless) :
    closeCycle p t = { s with pctl := (closeCycle p t).pctl } ∧
      ∀ q ∈ s.paneGang p, ∃ l, l <:+ (f q).runs ∧ (closeCycle p t).ctl q = { f q with runs := l } := by
  have hdrop := Machine.closeCycle_harmless p t (h.paneGang p ▸ hp) (h.endsIdly hquiet hred hwait) fun q hq => by
    rw [h.paneGang] at hq
    rw [h.2.1 q hq]
    exact hidle q hq
  refine ⟨by rw [hdrop.1, h.1], fun q hq => ?_⟩
  obtain ⟨l, hl, hctl, -⟩ := hdrop.2 q
  rw [h.2.1 q hq] at hl hctl
  exact ⟨l, hl, hctl⟩

/-- A listed macroop that is not SETC and costs more than a cycle is dispatched. -/
theorem macro_dispatched (p : Nat) (m : BitVec 64) (s : State) (hp : p < 16) (hbase : p ∈ s.paneGang p) (hend : mopOp m ≠ opTaskEnd)
    (hquiet : s.gangQuiet p)
    (hhead : ∀ q ∈ s.paneGang p, s.expands q = true ∧ (s.ctl q).dispatch = true ∧ (s.ctl q).queue.head? = some m)
    (hgood : ∀ q ∈ s.paneGang p, (s.ctl q).headBad = false) (hlo : mopOp m ≠ opSetcLo) (hhi : mopOp m ≠ opSetcHi)
    (hcost : ∀ q ∈ s.paneGang p, 1 < entryCost ((s.ctl q).entry m) (mopWidth m)) :
    ∃ t, exec (.macroDispatch p) s = .next t ∧ t = { s with pctl := t.pctl, pins := t.pins } ∧
      (∀ q, q ∈ s.paneGang p → t.ctl q = ((s.ctl q).taken false m (edgePage s q)).dispatched) ∧ ∀ q, q ∉ s.paneGang p → t.ctl q = s.ctl q := by
  have hdone := exec_macroDispatch p s hp
  rw [dispatchGang_listed p s (canDispatch_of p m s hend hquiet hhead) hgood] at hdone
  have hstep := dispatchHeads m (s.paneGang p) (s.paneGang_nodup p) s fun q hq => (hhead q hq).2.2
  have hend := hstep.closeCycle_open hquiet hbase (fun q _ => (PaneCtl.dispatched_keeps _).1) (fun q _ => (PaneCtl.dispatched_keeps _).2.1)
    fun q hq => (s.ctl q).dispatched_taken_openRun m _ (hquiet.openRun q hq) (hhead q hq).2.1 hlo hhi (hcost q hq)
  obtain ⟨pins, hexec⟩ := next_of_done hdone
  obtain ⟨hframe, hin, hout⟩ := hend
  refine ⟨_, hexec, ?_, fun q hq => ?_, fun q hq => ?_⟩
  · rw [hframe]
    rfl
  · rw [State.withPins_ctl, hin q hq]
  · rw [State.withPins_ctl, hout q hq]

theorem exec_setcLo (p : Nat) (m : BitVec 64) (s : State) (hp : p < 16) (hhead : (s.ctl p).queue.head? = some m) (hop : mopOp m = opSetcLo) :
    exec (.setcLo p) s = done (dispatchGang p s) := by
  have hif : exec (.setcLo p) s = done (if ((s.ctl p).queue.head?.map mopOp) = some opSetcLo then dispatchGang p s else s) := need_of hp _
  rwa [hhead, Option.map_some, hop, if_pos rfl] at hif

theorem exec_setcHi (p : Nat) (m : BitVec 64) (s : State) (hp : p < 16) (hhead : (s.ctl p).queue.head? = some m) (hop : mopOp m = opSetcHi) :
    exec (.setcHi p) s = done (dispatchGang p s) := by
  have hif : exec (.setcHi p) s = done (if ((s.ctl p).queue.head?.map mopOp) = some opSetcHi then dispatchGang p s else s) := need_of hp _
  rwa [hhead, Option.map_some, hop, if_pos rfl] at hif

/-- After SETC, which leaves no result, no macroop at its end can leave one. -/
theorem PaneCtl.dispatched_taken_harmless (c : PaneCtl) (hi : Bool) (m : BitVec 64) (edges : Nat × Tbl Word) (hopen : c.openRun = true)
    (hdisp : c.dispatch = true) (hop : mopOp m = if hi then opSetcHi else opSetcLo) : (c.taken false m edges).dispatched.harmless := by
  obtain ⟨-, -, hfly, hruns, -, -⟩ := (c.taken false m edges).dispatched_keeps
  rcases c.openRun_dispatch hopen hdisp with hnil | hhead
  · refine .inr fun r hr => .inr ?_
    rw [hruns, PaneCtl.taken, hnil, List.nil_append, List.mem_singleton] at hr
    rw [hr]
    exact macroOut_setc m hi hop
  · exact PaneCtl.headInFlight.harmless (hhead.append _ hruns hfly)

/-- SETC at the head of every queue of the gang writes half of the constant register in every controller (R167). -/
theorem setc_dispatched (c : Instr) (hi : Bool) (p : Nat) (m : BitVec 64) (s : State) (hexec : exec c s = done (dispatchGang p s))
    (hbase : p ∈ s.paneGang p) (hquiet : s.gangQuiet p)
    (hhead : ∀ q ∈ s.paneGang p, s.expands q = true ∧ (s.ctl q).dispatch = true ∧ (s.ctl q).queue.head? = some m)
    (hgood : ∀ q ∈ s.paneGang p, (s.ctl q).headBad = false) (hop : mopOp m = if hi then opSetcHi else opSetcLo) :
    ∃ t, exec c s = .next t ∧ t = { s with pctl := t.pctl, pins := t.pins } ∧
      ∀ q, q ∈ s.paneGang p → (t.ctl q).const.toNat = setBits (s.ctl q).const.toNat (if hi then 32 else 0) 32 (m.toNat / 2 ^ 32) ∧
        (t.ctl q).queue = (s.ctl q).queue.drop 1 ∧ (t.ctl q).dispatch = true ∧ (t.ctl q).inflight = (s.ctl q).inflight ∧
        ((t.ctl q).a, (t.ctl q).b, (t.ctl q).d) = ((s.ctl q).a, (s.ctl q).b, (s.ctl q).d) := by
  have hend : mopOp m ≠ opTaskEnd := by
    rw [hop]
    cases hi <;> decide
  have hstep := dispatchHeads m (s.paneGang p) (s.paneGang_nodup p) s fun q hq => (hhead q hq).2.2
  rw [dispatchGang_listed p s (canDispatch_of p m s hend hquiet hhead) hgood] at hexec
  obtain ⟨hframe, hctl⟩ := hstep.closeCycle_harmless hquiet hbase (fun q _ => (PaneCtl.dispatched_keeps _).1)
    (fun q _ => (PaneCtl.dispatched_keeps _).2.1)
    fun q hq => (s.ctl q).dispatched_taken_harmless hi m _ (hquiet.openRun q hq) (hhead q hq).2.1 hop
  obtain ⟨pins, hrun⟩ := next_of_done hexec
  refine ⟨_, hrun, ?_, fun q hq => ?_⟩
  · rw [hframe]
    rfl
  · obtain ⟨l, -, hl⟩ := hctl q hq
    obtain ⟨hconst, hdisp, habd⟩ := ((s.ctl q).taken false m (edgePage s q)).dispatched_setc hi hop
    obtain ⟨-, -, hfly, -, hqueue, -⟩ := ((s.ctl q).taken false m (edgePage s q)).dispatched_keeps
    rw [State.withPins_ctl, hl]
    exact ⟨hconst, hqueue, hdisp.trans (hhead q hq).2.1, hfly, habd⟩

end Sys2Proof.Machine
end

section
/-!
PROOFS. The cost of a macroop reached (R165, R175).
-/

namespace Sys2Proof.Machine

/-! ### A fault of a controller (R175) -/

/-- A fault recorded in a controller's page with a word of PCTL_MACRO_FAULT, raised and reported. -/
def State.recordFault (s : State) (q evt : Nat) (v : Word) : State := ((s.setReg 0x02 q 0x058 v).raise 0x02 q evt).report 0x02 q evt clsHold

theorem macroFault_eq (q kind upc evt : Nat) (s : State) :
    macroFault q kind upc evt s = s.recordFault q evt (word (kind * 2 ^ 30 + mopOp (s.ctl q).mop * 2 ^ 12 + upc)) := by
  rw [macroFault, State.recordFault]

@[simp] theorem State.recordFault_ctl (s : State) (q evt : Nat) (v : Word) (j : Nat) : (s.recordFault q evt v).ctl j = s.ctl j := by
  rw [State.recordFault, State.report_ctl, State.raise_ctl, State.setReg_ctl]

@[simp] theorem State.recordFault_pane (s : State) (q evt : Nat) (v : Word) (j : Nat) : (s.recordFault q evt v).pane j = s.pane j := by
  rw [State.recordFault, State.report_pane, State.raise_pane, State.setReg_pane]

@[simp] theorem State.recordFault_run (s : State) (q evt : Nat) (v : Word) (j : Nat) : (s.recordFault q evt v).run j = s.run j := by
  rw [State.recordFault, State.report_run, State.raise_run, State.setReg_run]


theorem State.recordFault_reports (s : State) (q evt : Nat) (v : Word) :
    (s.recordFault q evt v).reports = s.reports ++ [⟨0x02, q, evt, clsHold⟩] := by
  rw [State.recordFault, State.report, State.raise_reports, State.setReg_reports]

/-- The fault raises its event. -/
theorem State.recordFault_evt (s : State) (q evt : Nat) (v : Word) :
    (s.recordFault q evt v).getReg 0x02 q 0x10 = s.getReg 0x02 q 0x10 ||| word (2 ^ evt) := by
  rw [State.recordFault, State.report_getReg, State.getReg_raise, State.setReg_other _ _ _ _ _ _ _ _ (regKey_ne_of_off _ _ _ _ (by decide))]

/-- PCTL_MACRO_FAULT holds the word. -/
theorem State.recordFault_word (s : State) (q evt : Nat) (v : Word) : (s.recordFault q evt v).getReg 0x02 q 0x058 = v := by
  rw [State.recordFault, State.report_getReg, State.raise, State.getReg_put_off _ _ _ _ _ _ rfl (show (0x058 : Nat) ≠ 0x10 by decide),
    State.getReg_setReg]

/-- The registers of a controller that a fault leaves. -/
theorem State.recordFault_find (s : State) (q evt : Nat) (v : Word) (k : Nat) (hevt : k ≠ evtKey 0x02 q) (hword : k ≠ regKey 0x02 q 0x058) :
    tblFind (s.recordFault q evt v).regs k = tblFind s.regs k := by
  rw [State.recordFault, State.report_regs, State.raise, State.put_find _ ⟨0x02, 0x10, 4, evt, 1⟩ q 1 k hevt, State.setReg_find _ _ _ _ _ _ hword]

theorem State.recordFault_sameGangs (s : State) (q evt : Nat) (v : Word) : SameGangs s (s.recordFault q evt v) := by
  rw [State.recordFault]
  refine ((SameGangs.setReg s 0x02 q 0x058 v (by decide) (by decide) (by decide)).trans ?_).trans (SameGangs.of_regs (State.report_regs _ _ _ _ _))
  rw [State.raise]
  exact SameGangs.put _ _ q 1 (show (0x10 : Nat) < 0x1000 by decide) (show (0x10 : Nat) ≠ 0x040 by decide) (show (0x10 : Nat) ≠ 0x08C by decide)

theorem State.recordFault_controller_other (s : State) (q evt : Nat) (v : Word) (j : Nat) (h : j ≠ q) :
    (s.recordFault q evt v).controller j = s.controller j := by
  rw [State.recordFault, controller_of_regs j (State.report_ctl _ _ _ _ _ _) (State.report_regs _ _ _ _ _), State.raise,
    controller_put_pctl _ _ q j 1 rfl (show (0x10 : Nat) < 0x1000 by decide) h,
    controller_setReg_other s 0x02 q j 0x058 v fun off ho => regKey_ne_of_num 0x02 j q off 0x058 h ho (by decide)]

/-! ### The end of the cost (R165) -/

/-- Steps over a gang that see each controller as it was before them all. -/
theorem foldl_congr_ctl (F G : State → Nat → State) (l : List Nat) (hl : l.Nodup) (s : State)
    (hG : ∀ t q j, j ≠ q → (G t q).ctl j = t.ctl j) (h : ∀ t, ∀ q ∈ l, t.ctl q = s.ctl q → F t q = G t q) : l.foldl F s = l.foldl G s := by
  induction l generalizing s with
  | nil => rfl
  | cons a l ih =>
    obtain ⟨ha, hl⟩ := List.nodup_cons.1 hl
    rw [List.foldl_cons, List.foldl_cons, h s a List.mem_cons_self rfl]
    refine ih hl _ fun t q hq hctl => h t q (List.mem_cons_of_mem _ hq) (hctl.trans (hG s a q ?_))
    exact fun hqa => ha (hqa ▸ hq)

/-- A controller whose padding has ended. -/
def PaneCtl.padded (c : PaneCtl) : PaneCtl := { c with dispatch := true, remaining := 0, padTick := satAdd c.padTick c.remaining (2 ^ 25 - 1) }

/-- A controller that has abandoned its microprogram. -/
def PaneCtl.abandoned (c : PaneCtl) : PaneCtl :=
  { c with dispatch := true, upc := 0, first := true, runs := c.runs.map (fun r => if r.seq = c.seq then { r with cut := true } else r) }

/-- What the cost reached does to one controller. -/
def costStep (t : State) (q : Nat) : State :=
  if (t.ctl q).dispatch then t
  else if (t.ctl q).upc = 0 then t.setCtl q (t.ctl q).padded
  else if (t.ctl q).remaining = 0 then (macroFault q 2 (t.ctl q).upc 3 t).setCtl q (t.ctl q).abandoned
  else t

theorem costReached_eq (p : Nat) (s : State) (hon : s.gangOn p = true) :
    costReached p s = closeCycle p ((s.paneGang p).foldl costStep s) := by
  rw [costReached, hon]
  rfl

theorem exec_macroCostReached (p : Nat) (s : State) (hp : p < 16) (hquiet : s.gangQuiet p) :
    exec (.macroCostReached p) s = done (closeCycle p ((s.paneGang p).foldl costStep s)) := by
  rw [← costReached_eq p s hquiet.1]
  exact need_of hp _

/-- Padding ends in every controller of the gang. -/
theorem padding_ends (p : Nat) (s : State) (hp : p < 16) (hbase : p ∈ s.paneGang p) (hquiet : s.gangQuiet p)
    (hdisp : ∀ q ∈ s.paneGang p, (s.ctl q).dispatch = false) (hupc : ∀ q ∈ s.paneGang p, (s.ctl q).upc = 0) :
    GangRuns (.macroCostReached p) p s PaneCtl.padded := by
  intro hopen
  have hstep := foldl_setCtl costStep (fun q => (s.ctl q).padded) _ (s.paneGang_nodup p) s fun t q hq _ hctl => by
    rw [costStep, hctl, hdisp q hq, hupc q hq]
    rfl
  obtain ⟨hframe, hin, hout⟩ := hstep.closeCycle_open hquiet hbase (fun q _ => rfl) (fun q _ => rfl) hopen
  obtain ⟨pins, hexec⟩ := next_of_done (exec_macroCostReached p s hp hquiet)
  refine ⟨_, hexec, ?_, fun q hq => ?_, fun q hq => ?_⟩
  · rw [hframe]
    rfl
  · rw [State.withPins_ctl, hin q hq]
  · rw [State.withPins_ctl, hout q hq]

/-- The word of PCTL_MACRO_FAULT for a cost reached before the microprogram's end. -/
def State.costFault (s : State) (q : Nat) : Word := word (2 * 2 ^ 30 + mopOp (s.ctl q).mop * 2 ^ 12 + (s.ctl q).upc)

/-- The controllers of a gang abandon their microprograms, each with a fault of its word. -/
def abandonAll (c : Nat → PaneCtl) (w : Nat → Word) (t : State) (q : Nat) : State := (t.recordFault q 3 (w q)).setCtl q (c q).abandoned

theorem abandonAll_controller_other (c : Nat → PaneCtl) (w : Nat → Word) (t : State) (q j : Nat) (h : j ≠ q) :
    (abandonAll c w t q).controller j = t.controller j := by
  rw [abandonAll, controller_setCtl_other _ _ _ _ h, State.recordFault_controller_other _ _ _ _ _ h]

theorem costStep_abandons (p : Nat) (s : State) (hdisp : ∀ q ∈ s.paneGang p, (s.ctl q).dispatch = false)
    (hcost : ∀ q ∈ s.paneGang p, (s.ctl q).upc ≠ 0 ∧ (s.ctl q).remaining = 0) :
    (s.paneGang p).foldl costStep s = (s.paneGang p).foldl (abandonAll s.ctl s.costFault) s := by
  refine foldl_congr_ctl _ _ _ (s.paneGang_nodup p) s (fun t q j hj => controller_ctl (abandonAll_controller_other _ _ t q j hj)) fun t q hq hctl => ?_
  obtain ⟨hupc, hrem⟩ := hcost q hq
  rw [costStep, hctl, hdisp q hq, if_neg Bool.false_ne_true, if_neg hupc, if_pos hrem, macroFault_eq, hctl, abandonAll, State.costFault]

/-- The device without its controllers' hidden state, its registers and the fault records on their way. -/
def State.sansFaults (s : State) : State := { s with pctl := [], regs := [], reports := [] }

theorem State.eq_of_sansFaults {s t : State} (h : t.sansFaults = s.sansFaults) : t = { s with pctl := t.pctl, regs := t.regs, reports := t.reports } :=
  congrArg (fun v : State => { v with pctl := t.pctl, regs := t.regs, reports := t.reports }) h

theorem State.sansFaults_setCtl (s : State) (q : Nat) (x : PaneCtl) : (s.setCtl q x).sansFaults = s.sansFaults := by
  simp only [State.sansFaults, State.setCtl]

theorem State.sansFaults_recordFault (s : State) (q evt : Nat) (v : Word) : (s.recordFault q evt v).sansFaults = s.sansFaults := by
  simp only [State.sansFaults, State.recordFault, State.report, State.raise, State.put, State.setReg]

/-- What an abandoned microprogram leaves, whatever the word of its fault. -/
theorem abandonAll_step (c : Nat → PaneCtl) (w : Nat → Word) (t : State) (q : Nat) :
    (abandonAll c w t q).ctl q = (c q).abandoned ∧ (abandonAll c w t q).regs = (t.recordFault q 3 (w q)).regs ∧
      (abandonAll c w t q).reports = t.reports ++ [⟨0x02, q, 3, clsHold⟩] := by
  rw [abandonAll]
  exact ⟨State.setCtl_same _ _ _, State.setCtl_regs _ _ _, (State.setCtl_reports _ _ _).trans (State.recordFault_reports _ _ _ _)⟩

/-- What the abandoned microprograms of a gang leave. -/
theorem abandonAll_fold (c : Nat → PaneCtl) (w : Nat → Word) (gang : List Nat) (hl : gang.Nodup) (s : State) :
    let u := gang.foldl (abandonAll c w) s
    u = { s with pctl := u.pctl, regs := u.regs, reports := u.reports } ∧ SameGangs s u ∧
      (∀ q ∈ gang, u.ctl q = (c q).abandoned ∧ Raises 0x02 q 8 s u ∧ u.getReg 0x02 q 0x058 = w q) ∧ (∀ q, q ∉ gang → u.ctl q = s.ctl q) ∧
      u.reports = s.reports ++ gang.map (fun q => ⟨0x02, q, 3, clsHold⟩) ∧
      RegsBut (gang.map (evtKey 0x02) ++ gang.map (fun q => regKey 0x02 q 0x058)) s u := by
  refine ⟨?_, ?_, fun q hq => ?_, fun q hq => ?_, ?_, fun k hk => ?_⟩
  · refine State.eq_of_sansFaults (foldl_keeps State.sansFaults _ gang (fun t q _ => ?_) s)
    rw [abandonAll, State.sansFaults_setCtl, State.sansFaults_recordFault]
  · refine SameGangs.foldl _ gang (fun t q => (State.recordFault_sameGangs t q 3 (w q)).trans (SameGangs.of_regs ?_)) s
    exact (abandonAll_step c w t q).2.1
  · obtain ⟨t, ht, hat⟩ := foldl_at (fun t => t.controller q) (abandonAll c w) gang hl q hq
      (fun t j _ hj => abandonAll_controller_other c w t j q hj.symm) s
    obtain ⟨hctl, hregs, -⟩ := abandonAll_step c w t q
    have hread : ∀ off, (abandonAll c w t q).getReg 0x02 q off = (t.recordFault q 3 (w q)).getReg 0x02 q off := fun off => by
      rw [State.getReg, State.getReg, hregs]
    refine ⟨(controller_ctl hat).trans hctl, ?_, ?_⟩
    · rw [Raises, controller_getReg hat 0x10 (by decide), ← controller_getReg ht 0x10 (by decide), hread, State.recordFault_evt]
      rfl
    · rw [controller_getReg hat 0x058 (by decide), hread, State.recordFault_word]
  · refine foldl_keeps (fun t => t.ctl q) _ gang (fun t j hj => ?_) s
    exact controller_ctl (abandonAll_controller_other c w t j q fun h => hq (h ▸ hj))
  · exact foldl_appends State.reports _ _ (fun t q => (abandonAll_step c w t q).2.2) gang s
  · rw [List.mem_append, not_or] at hk
    refine foldl_keeps (fun t => tblFind t.regs k) _ gang (fun t q hq => ?_) s
    rw [(abandonAll_step c w t q).2.1]
    exact State.recordFault_find t q 3 (w q) k (fun h => hk.1 (List.mem_map.2 ⟨q, hq, h.symm⟩)) fun h => hk.2 (List.mem_map.2 ⟨q, hq, h.symm⟩)

/-- Abandoned at its cost, a controller that executes one macroop alone has every macroop on its list cut. -/
theorem PaneCtl.abandoned_cut (c : PaneCtl) (h : ∀ r ∈ c.runs, r.seq = c.seq) : ∀ r ∈ c.abandoned.runs, r.cut = true := by
  intro r hr
  obtain ⟨x, hx, rfl⟩ := List.mem_map.1 hr
  rw [if_pos (h x hx)]

theorem microprograms_abandoned (p : Nat) (s : State) (hp : p < 16) (hbase : p ∈ s.paneGang p) (hquiet : s.gangQuiet p)
    (hdisp : ∀ q ∈ s.paneGang p, (s.ctl q).dispatch = false)
    (hcost : ∀ q ∈ s.paneGang p, (s.ctl q).upc ≠ 0 ∧ (s.ctl q).remaining = 0 ∧ ∀ r ∈ (s.ctl q).runs, r.seq = (s.ctl q).seq) :
    ∃ t, exec (.macroCostReached p) s = .next t ∧ t = { s with pctl := t.pctl, regs := t.regs, reports := t.reports, pins := t.pins } ∧
      (∀ q, q ∈ s.paneGang p → t.ctl q = { s.ctl q with dispatch := true, upc := 0, first := true, runs := (t.ctl q).runs } ∧
        (∀ (r : MacroRun), r ∈ (t.ctl q).runs → r.cut = true) ∧ Raises 0x02 q 8 s t ∧ t.getReg 0x02 q 0x058 = s.costFault q) ∧
      (∀ q, q ∉ s.paneGang p → t.ctl q = s.ctl q) ∧
      t.reports = s.reports ++ (s.paneGang p).map (fun q => ⟨0x02, q, 3, clsHold⟩) ∧
      RegsBut ((s.paneGang p).map (evtKey 0x02) ++ (s.paneGang p).map (fun q => regKey 0x02 q 0x058)) s t := by
  have hdone := exec_macroCostReached p s hp hquiet
  rw [costStep_abandons p s hdisp fun q hq => ⟨(hcost q hq).1, (hcost q hq).2.1⟩] at hdone
  have hfold := abandonAll_fold s.ctl s.costFault (s.paneGang p) (s.paneGang_nodup p) s
  revert hdone hfold
  generalize List.foldl _ _ _ = u
  rintro hdone ⟨hframe, hgangs, hin, hout, hreports, hregs⟩
  have hpane : ∀ q, u.pane q = s.pane q := fun q => by rw [State.pane, State.pane, hframe]
  have hgang := hgangs.paneGang p
  have hdrop := closeCycle_harmless p u (hgang ▸ hbase)
    (fun q hq => by
      rw [hgang] at hq
      rw [State.endsIdly, hpane, (hin q hq).1]
      exact hquiet.endsIdly q hq)
    fun q hq => by
      rw [hgang] at hq
      rw [(hin q hq).1]
      exact .inr fun r hr => .inl ((s.ctl q).abandoned_cut (hcost q hq).2.2 r hr)
  rw [hgang] at hdrop
  obtain ⟨pins, hexec⟩ := next_of_done hdone
  refine ⟨_, hexec, ?_, fun q hq => ?_, fun q hq => ?_, ?_, fun k hk => ?_⟩
  · rw [hdrop.1, hframe]
    rfl
  · obtain ⟨l, hl, hctl, -⟩ := hdrop.2 q
    obtain ⟨habandoned, hevt, hword⟩ := hin q hq
    rw [habandoned] at hl hctl
    refine ⟨?_, fun r hr => ?_, ?_, ?_⟩
    · rw [State.withPins_ctl, hctl]
      rfl
    · rw [State.withPins_ctl, hctl] at hr
      exact (s.ctl q).abandoned_cut (hcost q hq).2.2 r (hl.subset hr)
    · rw [Raises, State.withPins_getReg, State.getReg, hdrop.regs]
      exact hevt
    · rw [State.withPins_getReg, State.getReg, hdrop.regs]
      exact hword
  · obtain ⟨l, -, hctl, hl⟩ := hdrop.2 q
    rw [State.withPins_ctl, hctl, hl hq, hout q hq]
  · rw [State.withPins_reports, hdrop.1]
    exact hreports
  · rw [State.withPins_regs, hdrop.regs]
    exact hregs k hk

end Sys2Proof.Machine
end

section
/-!
PROOFS. The end of a task as at a cut-off (R97, R174, R175, R266).
-/

namespace Sys2Proof.Machine

/-! ### The parts of a cut-off -/

/-- A controller that has dropped what it held of a task (R174). -/
def PaneCtl.cutOff (c : PaneCtl) : PaneCtl :=
  { c with queue := [], dispatch := true, upc := 0, remaining := 0, waitLeft := 0
           runs := if c.dispatch then c.runs else c.runs.map (fun r => if r.seq = c.seq then { r with cut := true } else r) }

/-- The registers in which a controller records the overrun of a task (R97). -/
def recordOverrun (overrun : Bool) (id q : Nat) (s : State) : State :=
  if overrun then ((s.put R.PCTL_OVERRUN_LAST_TASK q id).count R.PCTL_OVERRUN_COUNT q 1).raise 0x02 q 0 else s

/-- The engines of a pane learn that the task has been cut off. -/
def cutEngines (es : List (Nat × Nat)) (s : State) : State := es.foldl (fun s e => s.put (R.ENG_TASK_CUT.on e.1) e.2 1) s

/-- The slats of a pane abandon their streams. -/
def cutSlats (q : Nat) (s : State) : State :=
  (paneSlats q).foldl (fun s n => setIrq 4 n 1 (s.setPort n { s.port n with queue := [], run := [], ahead := [], held := none })) s

/-- The cut-off in one pane. -/
def cutPane (overrun : Bool) (id : Nat) (s : State) (q : Nat) : State :=
  cutSlats q (cutEngines (s.paneEngines q) (recordOverrun overrun id q (dropMacros q s)))

/-- A controller's page shows no task. -/
def clearTask (s : State) (q : Nat) : State := (s.put R.PCTL_TASK_TASK_ID q 0).put R.PCTL_TASK_BUDGET_CYCLES q 0

/-- The panes of a gang after the cut-off of its task, before the sash and the Porter's account learn of it. -/
def cutPanes (overrun : Bool) (p : Nat) (s : State) : State :=
  (s.paneGang p).foldl clearTask ((s.paneGang p).foldl (cutPane overrun (s.taskNow p)) s)

/-- The sash's TASK_END trap, the gang's lost tasks, the report of an overrun. -/
def announceCut (overrun : Bool) (p id : Nat) (u : State) : State :=
  let k := engKey 3 (u.paneSash p)
  let v := u.setLink k { u.link k with taskEnd := some (u.gangTsn p) }
  let w := v.setRun p { v.run p with lost := id :: (v.run p).lost }
  if overrun then w.report 0x02 p 0 clsHold else w

/-- The cut-off of the running task of a gang, at its base pane. -/
theorem cutTask_eq (overrun : Bool) (p : Nat) (s : State) (hbase : s.gangBase p = p) (htask : s.taskNow p ≠ 0) :
    cutTask p overrun s = announceCut overrun p (s.taskNow p) (cutPanes overrun p s) := by
  simp only [cutTask, hbase, if_neg htask]
  rfl

/-! ### What each part leaves -/

/-- What the cut-off of the panes of a gang leaves: the PEs, the engines, the gangs' accounts, what the engines are told, the reports. -/
def State.cutLeaves (s : State) := (s.panes, s.engines, s.engMem, s.gangs, s.arrayLink, s.reports)

theorem cutLeaves_put (s : State) (f : Field) (n v : Nat) : (s.put f n v).cutLeaves = s.cutLeaves := by
  rw [State.cutLeaves, State.put_panes, State.put_engines, State.put_engMem, State.put_gangs, State.put_arrayLink, State.put_reports, State.cutLeaves]

theorem cutLeaves_setCtl (s : State) (q : Nat) (x : PaneCtl) : (s.setCtl q x).cutLeaves = s.cutLeaves := by
  rw [State.cutLeaves, State.setCtl_panes, State.setCtl_engines, State.setCtl_engMem, State.setCtl_gangs, State.setCtl_arrayLink,
    State.setCtl_reports, State.cutLeaves]

theorem cutLeaves_setPort (s : State) (n : Nat) (x : RowPort) : (s.setPort n x).cutLeaves = s.cutLeaves := by
  rw [State.cutLeaves, State.setPort_panes, State.setPort_engines, State.setPort_engMem, State.setPort_gangs, State.setPort_arrayLink,
    State.setPort_reports, State.cutLeaves]

theorem paneEngines_ty (s : State) (q : Nat) (e : Nat × Nat) (he : e ∈ s.paneEngines q) : 0x02 < e.1 := by
  rcases List.mem_cons.1 he with rfl | he
  · exact Nat.lt_succ_self 2
  · obtain ⟨n, -, rfl⟩ := List.mem_map.1 he
    exact show (2 : Nat) < 4 by decide

theorem dropMacros_ctl (q : Nat) (s : State) : (dropMacros q s).ctl q = (s.ctl q).cutOff := by
  rw [dropMacros, State.count, State.put_ctl, State.setCtl_same, PaneCtl.cutOff]

theorem dropMacros_controller_other (q j : Nat) (s : State) (h : j ≠ q) : (dropMacros q s).controller j = s.controller j := by
  rw [dropMacros, State.count, controller_put_pctl _ R.PCTL_DISCARDS q j _ rfl (by decide) h, controller_setCtl_other _ _ _ _ h]

theorem dropMacros_leaves (q : Nat) (s : State) : (dropMacros q s).cutLeaves = s.cutLeaves := by
  rw [dropMacros, State.count, cutLeaves_put, cutLeaves_setCtl]

theorem dropMacros_sameGangs (q : Nat) (s : State) : SameGangs s (dropMacros q s) := by
  rw [dropMacros, State.count]
  exact (SameGangs.of_regs (State.setCtl_regs _ _ _)).trans (SameGangs.put _ R.PCTL_DISCARDS q _ (by decide) (by decide) (by decide))

theorem recordOverrun_ctl (overrun : Bool) (id q j : Nat) (s : State) : (recordOverrun overrun id q s).ctl j = s.ctl j := by
  cases overrun with
  | false => rfl
  | true =>
    simp only [recordOverrun, if_true, State.raise, State.count]
    rw [State.put_ctl, State.put_ctl, State.put_ctl]

theorem recordOverrun_leaves (overrun : Bool) (id q : Nat) (s : State) : (recordOverrun overrun id q s).cutLeaves = s.cutLeaves := by
  cases overrun with
  | false => rfl
  | true =>
    simp only [recordOverrun, if_true, State.raise, State.count]
    rw [cutLeaves_put, cutLeaves_put, cutLeaves_put]

theorem recordOverrun_controller_other (overrun : Bool) (id q j : Nat) (s : State) (h : j ≠ q) :
    (recordOverrun overrun id q s).controller j = s.controller j := by
  cases overrun with
  | false => rfl
  | true =>
    simp only [recordOverrun, if_true, State.raise, State.count]
    rw [controller_put_pctl _ ⟨0x02, 0x10, 4, 0, 1⟩ q j 1 rfl (by decide) h, controller_put_pctl _ R.PCTL_OVERRUN_COUNT q j _ rfl (by decide) h,
      controller_put_pctl _ R.PCTL_OVERRUN_LAST_TASK q j _ rfl (by decide) h]

theorem recordOverrun_sameGangs (overrun : Bool) (id q : Nat) (s : State) : SameGangs s (recordOverrun overrun id q s) := by
  cases overrun with
  | false => exact SameGangs.of_regs rfl
  | true =>
    simp only [recordOverrun, if_true, State.raise, State.count]
    refine ((SameGangs.put _ R.PCTL_OVERRUN_LAST_TASK q id (by decide) (by decide) (by decide)).trans
      (SameGangs.put _ R.PCTL_OVERRUN_COUNT q _ (by decide) (by decide) (by decide))).trans
      (SameGangs.put _ ⟨0x02, 0x10, 4, 0, 1⟩ q 1 (by decide) (by decide) (by decide))

theorem cutEngines_leaves (es : List (Nat × Nat)) (s : State) : (cutEngines es s).cutLeaves = s.cutLeaves :=
  foldl_keeps State.cutLeaves _ es (fun t _ _ => cutLeaves_put t _ _ _) s

theorem cutEngines_port (es : List (Nat × Nat)) (s : State) (n : Nat) : (cutEngines es s).port n = s.port n :=
  foldl_keeps (fun t => t.port n) _ es (fun t _ _ => State.put_port t _ _ _ n) s

theorem cutEngines_controller (es : List (Nat × Nat)) (s : State) (j : Nat) (hes : ∀ e ∈ es, 0x02 < e.1) (hj : j < 256) :
    (cutEngines es s).controller j = s.controller j :=
  foldl_keeps (fun t => t.controller j) _ es (fun t e he => controller_put_engine t (R.ENG_TASK_CUT.on e.1) e.2 j 1 (hes e he) hj) s

theorem cutEngines_sameGangs (es : List (Nat × Nat)) (s : State) : SameGangs s (cutEngines es s) :=
  SameGangs.foldl _ es (fun t e => SameGangs.put t (R.ENG_TASK_CUT.on e.1) e.2 1 (show (0x058 : Nat) < 0x1000 by decide)
    (show (0x058 : Nat) ≠ 0x040 by decide) (show (0x058 : Nat) ≠ 0x08C by decide)) s

theorem cutSlats_leaves (q : Nat) (s : State) : (cutSlats q s).cutLeaves = s.cutLeaves :=
  foldl_keeps State.cutLeaves _ (paneSlats q) (fun t n _ => by rw [setIrq, cutLeaves_put, cutLeaves_setPort]) s

theorem cutSlats_controller (q j : Nat) (s : State) (hj : j < 256) : (cutSlats q s).controller j = s.controller j :=
  foldl_keeps (fun t => t.controller j) _ (paneSlats q) (fun t n _ => by
    rw [setIrq, controller_put_engine _ ⟨4, 0x05C, 4, 1, 1⟩ n j 1 (by decide) hj]
    exact controller_of_regs j (State.setPort_ctl _ _ _ _) (State.setPort_regs _ _ _)) s

theorem cutSlats_sameGangs (q : Nat) (s : State) : SameGangs s (cutSlats q s) :=
  SameGangs.foldl _ (paneSlats q) (fun t n => (SameGangs.of_regs (State.setPort_regs _ _ _)).trans
    (SameGangs.put _ ⟨4, 0x05C, 4, 1, 1⟩ n 1 (by decide) (by decide) (by decide))) s

theorem cutPane_leaves (overrun : Bool) (id q : Nat) (s : State) : (cutPane overrun id s q).cutLeaves = s.cutLeaves := by
  rw [cutPane, cutSlats_leaves, cutEngines_leaves, recordOverrun_leaves, dropMacros_leaves]

/-- The cut-off in a pane of its own controller. -/
theorem cutPane_controller (overrun : Bool) (id q j : Nat) (s : State) (hj : j < 256) :
    (cutPane overrun id s q).controller j = (recordOverrun overrun id q (dropMacros q s)).controller j := by
  rw [cutPane, cutSlats_controller q j _ hj, cutEngines_controller _ _ j (paneEngines_ty s q) hj]

theorem cutPane_controller_other (overrun : Bool) (id q j : Nat) (s : State) (hj : j < 256) (h : j ≠ q) :
    (cutPane overrun id s q).controller j = s.controller j := by
  rw [cutPane_controller overrun id q j s hj, recordOverrun_controller_other overrun id q j _ h, dropMacros_controller_other q j s h]

theorem cutPane_sameGangs (overrun : Bool) (id q : Nat) (s : State) : SameGangs s (cutPane overrun id s q) :=
  (((dropMacros_sameGangs q s).trans (recordOverrun_sameGangs overrun id q _)).trans (cutEngines_sameGangs _ _)).trans (cutSlats_sameGangs q _)

theorem clearTask_leaves (q : Nat) (s : State) : (clearTask s q).cutLeaves = s.cutLeaves := by
  rw [clearTask, cutLeaves_put, cutLeaves_put]

theorem clearTask_ctl (q j : Nat) (s : State) : (clearTask s q).ctl j = s.ctl j := by
  rw [clearTask, State.put_ctl, State.put_ctl]

theorem clearTask_sameGangs (q : Nat) (s : State) : SameGangs s (clearTask s q) :=
  (SameGangs.put s R.PCTL_TASK_TASK_ID q 0 (by decide) (by decide) (by decide)).trans
    (SameGangs.put _ R.PCTL_TASK_BUDGET_CYCLES q 0 (by decide) (by decide) (by decide))

/-- Registers at different offsets, of whatever pages, have different keys. -/
theorem regKey_ne_of_off_ne (ty ty' n n' off off' : Nat) (h : off ≠ off') (ho : off < 0x1000) (ho' : off' < 0x1000) :
    regKey ty n off ≠ regKey ty' n' off' := fun hk => by
  have hoff := congrArg keyOff hk
  rw [keyOff_regKey _ _ _ ho, keyOff_regKey _ _ _ ho'] at hoff
  exact h hoff

theorem clearTask_getReg (q j off : Nat) (s : State) (ho : off < 0x1000) (h1 : off ≠ R.PCTL_TASK.off) (h2 : off ≠ R.PCTL_TASK_BUDGET.off) :
    (clearTask s q).getReg 0x02 j off = s.getReg 0x02 j off := by
  rw [clearTask, State.put, State.setReg_other _ _ _ _ _ _ _ _ (regKey_ne_of_off_ne 0x02 0x02 j q off 0x04C h2 ho (by decide)), State.put,
    State.setReg_other _ _ _ _ _ _ _ _ (regKey_ne_of_off_ne 0x02 0x02 j q off 0x044 h1 ho (by decide))]

theorem clearTask_taskNow (q : Nat) (s : State) : (clearTask s q).taskNow q = 0 := by
  rw [clearTask, State.taskNow, State.get_put_off _ R.PCTL_TASK_BUDGET_CYCLES R.PCTL_TASK_TASK_ID q 0 rfl (by decide), State.get_put _ _ _ _ (by decide),
    Nat.zero_mod]

theorem clearTask_taskNow_other (q j : Nat) (s : State) (h : j ≠ q) : (clearTask s q).taskNow j = s.taskNow j :=
  controller_get (t := clearTask s q) ((controller_put_pctl _ R.PCTL_TASK_BUDGET_CYCLES q j 0 rfl (by decide) h).trans
    (controller_put_pctl s R.PCTL_TASK_TASK_ID q j 0 rfl (by decide) h)) R.PCTL_TASK_TASK_ID rfl (by decide)

/-! ### The row ports -/

/-- A row port that has abandoned its streams. -/
def RowPort.abandoned (x : RowPort) : Prop := x.queue = [] ∧ x.run = [] ∧ x.ahead = [] ∧ x.held = none

theorem setPort_abandoned (s : State) (n m : Nat) (h : m = n ∨ (s.port m).abandoned) :
    ((setIrq 4 n 1 (s.setPort n { s.port n with queue := [], run := [], ahead := [], held := none })).port m).abandoned := by
  rw [setIrq, State.put_port, State.setPort_at]
  split
  · exact ⟨rfl, rfl, rfl, rfl⟩
  · next hne => exact h.resolve_left hne

theorem cutSlats_abandons (q n : Nat) (s : State) (hn : n ∈ paneSlats q) : ((cutSlats q s).port n).abandoned :=
  foldl_sets (fun t => (t.port n).abandoned) _ (paneSlats q) n hn (fun t => setPort_abandoned t n n (.inl rfl))
    (fun t m _ ht => setPort_abandoned t m n (.inr ht)) s

theorem cutSlats_keeps_abandoned (q n : Nat) (s : State) (h : (s.port n).abandoned) : ((cutSlats q s).port n).abandoned :=
  List.foldlRecOn (motive := fun t => (t.port n).abandoned) (paneSlats q) _ h fun t ht m _ => setPort_abandoned t m n (.inr ht)

theorem dropMacros_port (q n : Nat) (s : State) : (dropMacros q s).port n = s.port n := by
  rw [dropMacros, State.count, State.put_port, State.setCtl_port]

theorem recordOverrun_port (overrun : Bool) (id q n : Nat) (s : State) : (recordOverrun overrun id q s).port n = s.port n := by
  cases overrun with
  | false => rfl
  | true =>
    simp only [recordOverrun, if_true, State.raise, State.count]
    rw [State.put_port, State.put_port, State.put_port]

theorem clearTask_port (q n : Nat) (s : State) : (clearTask s q).port n = s.port n := by
  rw [clearTask, State.put_port, State.put_port]

theorem cutPane_keeps_abandoned (overrun : Bool) (id q n : Nat) (s : State) (h : (s.port n).abandoned) :
    ((cutPane overrun id s q).port n).abandoned := by
  rw [cutPane]
  refine cutSlats_keeps_abandoned q n _ ?_
  rwa [cutEngines_port, recordOverrun_port, dropMacros_port]

theorem cutPane_abandons (overrun : Bool) (id q n : Nat) (s : State) (hn : n ∈ paneSlats q) : ((cutPane overrun id s q).port n).abandoned := by
  rw [cutPane]
  exact cutSlats_abandons q n _ hn

/-! ### The cut-off in all panes of a gang -/

theorem cutPanes_leaves (overrun : Bool) (p : Nat) (s : State) : (cutPanes overrun p s).cutLeaves = s.cutLeaves :=
  (foldl_keeps State.cutLeaves clearTask _ (fun t q _ => clearTask_leaves q t) _).trans
    (foldl_keeps State.cutLeaves _ _ (fun t q _ => cutPane_leaves overrun _ q t) s)

theorem cutPanes_sameGangs (overrun : Bool) (p : Nat) (s : State) : SameGangs s (cutPanes overrun p s) :=
  (SameGangs.foldl _ _ (fun t q => cutPane_sameGangs overrun _ q t) s).trans (SameGangs.foldl clearTask _ (fun t q => clearTask_sameGangs q t) _)

theorem cutPanes_port (overrun : Bool) (p q n : Nat) (s : State) (hq : q ∈ s.paneGang p) (hn : n ∈ paneSlats q) :
    ((cutPanes overrun p s).port n).abandoned := by
  refine List.foldlRecOn (motive := fun t => (t.port n).abandoned) _ clearTask ?_ fun t ht j _ => by rwa [clearTask_port]
  exact foldl_sets (fun t => (t.port n).abandoned) (cutPane overrun (s.taskNow p)) _ q hq (fun t => cutPane_abandons overrun _ q n t hn)
    (fun t j _ ht => cutPane_keeps_abandoned overrun _ j n t ht) s

theorem cutPanes_taskNow (overrun : Bool) (p q : Nat) (s : State) (hq : q ∈ s.paneGang p) : (cutPanes overrun p s).taskNow q = 0 := by
  refine foldl_sets (fun t => t.taskNow q = 0) clearTask _ q hq (fun t => clearTask_taskNow q t) (fun t j _ ht => ?_) _
  by_cases hj : q = j
  · rw [hj]
    exact clearTask_taskNow j t
  · rw [clearTask_taskNow_other j q t hj]
    exact ht

/-- A controller of the gang after the cut-off: the parts that concern it, on a state that shows it as it was. -/
theorem cutPanes_controller (overrun : Bool) (p q : Nat) (s : State) (hp : p < 16) (hq : q ∈ s.paneGang p) :
    ∃ t, t.controller q = s.controller q ∧ (cutPanes overrun p s).ctl q = (s.ctl q).cutOff ∧
      ∀ off, off < 0x1000 → off ≠ R.PCTL_TASK.off → off ≠ R.PCTL_TASK_BUDGET.off →
        (cutPanes overrun p s).getReg 0x02 q off = (recordOverrun overrun (s.taskNow p) q (dropMacros q t)).getReg 0x02 q off := by
  have hlt : q < 256 := (s.paneGang_lt p q hp hq).trans (by decide)
  obtain ⟨t, ht, hat⟩ := foldl_at (fun t => t.controller q) (cutPane overrun (s.taskNow p)) _ (s.paneGang_nodup p) q hq
    (fun t j _ hj => cutPane_controller_other overrun _ j q t hlt hj.symm) s
  rw [cutPane_controller overrun _ q q t hlt] at hat
  refine ⟨t, ht, ?_, fun off ho h1 h2 => ?_⟩
  · refine (foldl_keeps (fun t => t.ctl q) clearTask _ (fun t j _ => clearTask_ctl j q t) _).trans ((controller_ctl hat).trans ?_)
    rw [recordOverrun_ctl, dropMacros_ctl, controller_ctl ht]
  · exact (foldl_keeps (fun t => t.getReg 0x02 q off) clearTask _ (fun t j _ => clearTask_getReg j q off t ho h1 h2) _).trans
      (controller_getReg hat off ho)

/-! ### What becomes known of it -/

theorem announceCut_keeps (overrun : Bool) (p id : Nat) (u : State) :
    let v := announceCut overrun p id u
    v.regs = u.regs ∧ v.pctl = u.pctl ∧ v.rowPorts = u.rowPorts ∧ v.panes = u.panes ∧ v.engines = u.engines ∧ v.engMem = u.engMem := by
  cases overrun with
  | false =>
    simp only [announceCut, Bool.false_eq_true, if_false]
    refine ⟨?_, ?_, ?_, ?_, ?_, ?_⟩
    · rw [State.setRun_regs, State.setLink_regs]
    · rw [State.setRun_pctl, State.setLink_pctl]
    · rw [State.setRun_rowPorts, State.setLink_rowPorts]
    · rw [State.setRun_panes, State.setLink_panes]
    · rw [State.setRun_engines, State.setLink_engines]
    · rw [State.setRun_engMem, State.setLink_engMem]
  | true =>
    simp only [announceCut, if_true]
    refine ⟨?_, ?_, ?_, ?_, ?_, ?_⟩
    · rw [State.report_regs, State.setRun_regs, State.setLink_regs]
    · rw [State.report_pctl, State.setRun_pctl, State.setLink_pctl]
    · rw [State.report_rowPorts, State.setRun_rowPorts, State.setLink_rowPorts]
    · rw [State.report_panes, State.setRun_panes, State.setLink_panes]
    · rw [State.report_engines, State.setRun_engines, State.setLink_engines]
    · rw [State.report_engMem, State.setRun_engMem, State.setLink_engMem]

theorem announceCut_run (overrun : Bool) (p id : Nat) (u : State) :
    (announceCut overrun p id u).run p = { u.run p with lost := id :: (u.run p).lost } := by
  cases overrun with
  | false =>
    simp only [announceCut, Bool.false_eq_true, if_false]
    rw [State.setRun_same, State.setLink_run]
  | true =>
    simp only [announceCut, if_true]
    rw [State.report_run, State.setRun_same, State.setLink_run]

theorem announceCut_link (overrun : Bool) (p id : Nat) (u : State) :
    ((announceCut overrun p id u).link (engKey 3 (u.paneSash p))).taskEnd = some (u.gangTsn p) := by
  cases overrun with
  | false =>
    simp only [announceCut, Bool.false_eq_true, if_false]
    rw [State.setRun_link, State.setLink_same]
  | true =>
    simp only [announceCut, if_true]
    rw [State.report_link, State.setRun_link, State.setLink_same]

theorem announceCut_reports (overrun : Bool) (p id : Nat) (u : State) :
    (announceCut overrun p id u).reports = u.reports ++ if overrun then [⟨0x02, p, 0, clsHold⟩] else [] := by
  cases overrun with
  | false => exact (List.append_nil _).symm
  | true => rfl

end Sys2Proof.Machine
end

section
/-!
PROOFS. The running task of a gang cut off (R97, R174, R266).
-/

namespace Sys2Proof.Machine
/-! ### The cut-off of the running task -/

/-- From s to t the running task of the gang of a base pane has been cut off (R97, R174, R266). -/
structure CutShort (overrun : Bool) (p : Nat) (s t : State) : Prop where
  sameGangs : SameGangs s t
  panes : t.panes = s.panes
  engines : t.engines = s.engines
  engMem : t.engMem = s.engMem
  reports : t.reports = s.reports ++ if overrun then [⟨0x02, p, 0, clsHold⟩] else []
  run : t.run p = { s.run p with lost := s.taskNow p :: (s.run p).lost }
  link : (t.link (engKey 3 (s.paneSash p))).taskEnd = some (s.gangTsn p)
  ctl : ∀ q ∈ s.paneGang p, t.ctl q = (s.ctl q).cutOff
  taskNow : ∀ q ∈ s.paneGang p, t.taskNow q = 0
  port : ∀ q ∈ s.paneGang p, ∀ n ∈ paneSlats q, (t.port n).abandoned
  page : ∀ q ∈ s.paneGang p, ∃ u, u.controller q = s.controller q ∧
    ∀ off, off < 0x1000 → off ≠ R.PCTL_TASK.off → off ≠ R.PCTL_TASK_BUDGET.off →
      t.getReg 0x02 q off = (recordOverrun overrun (s.taskNow p) q (dropMacros q u)).getReg 0x02 q off

theorem cutTask_cutShort (overrun : Bool) (p : Nat) (s : State) (hp : p < 16) (hin : p ∈ s.paneGang p) (hbase : s.gangBase p = p)
    (htask : s.taskNow p ≠ 0) : CutShort overrun p s (cutTask p overrun s) := by
  rw [cutTask_eq overrun p s hbase htask]
  have hgangs := cutPanes_sameGangs overrun p s
  have hleaves := cutPanes_leaves overrun p s
  simp only [State.cutLeaves, Prod.mk.injEq] at hleaves
  obtain ⟨hpanes, hengines, hengMem, hrun, -, hreports⟩ := hleaves
  have hpctl : ∀ q ∈ s.paneGang p, (cutPanes overrun p s).ctl q = (s.ctl q).cutOff := fun q hq => by
    obtain ⟨-, -, hctl, -⟩ := cutPanes_controller overrun p q s hp hq
    exact hctl
  obtain ⟨hregs, hctl, hports, hpanes', hengines', hengMem'⟩ := announceCut_keeps overrun p (s.taskNow p) (cutPanes overrun p s)
  constructor
  case sameGangs => exact hgangs.trans (SameGangs.of_regs hregs)
  case panes => rw [hpanes', hpanes]
  case engines => rw [hengines', hengines]
  case engMem => rw [hengMem', hengMem]
  case reports => rw [announceCut_reports, hreports]
  case run => rw [announceCut_run, State.run, hrun, ← State.run]
  case link =>
    rw [← hgangs.paneSash p, announceCut_link, State.gangTsn, hpctl p hin]
    rfl
  case ctl =>
    intro q hq
    rw [State.ctl, hctl]
    exact hpctl q hq
  case taskNow =>
    intro q hq
    rw [State.taskNow, State.get, State.getReg, hregs]
    exact cutPanes_taskNow overrun p q s hq
  case port =>
    intro q hq n hn
    rw [State.port, hports]
    exact cutPanes_port overrun p q n s hq hn
  case page =>
    intro q hq
    obtain ⟨u, hu, -, hpage⟩ := cutPanes_controller overrun p q s hp hq
    refine ⟨u, hu, fun off ho h1 h2 => ?_⟩
    rw [State.getReg, hregs]
    exact hpage off ho h1 h2

theorem dropMacros_getReg (q off : Nat) (s : State) (ho : off ≠ R.PCTL_DISCARDS.off) : (dropMacros q s).getReg 0x02 q off = s.getReg 0x02 q off := by
  rw [dropMacros, State.count, State.getReg_put_off _ R.PCTL_DISCARDS _ _ _ _ rfl ho, State.setCtl_getReg]

theorem dropMacros_discards (q : Nat) (s : State) :
    (dropMacros q s).get R.PCTL_DISCARDS q = min (s.get R.PCTL_DISCARDS q + (s.ctl q).queue.length) (2 ^ 32 - 1) := by
  rw [dropMacros, State.get_count _ _ _ _ (by decide), State.setCtl_get, satAdd]

/-- A cut-off without an overrun leaves the registers of a controller's page but for PCTL_TASK, PCTL_TASK_BUDGET and PCTL_DISCARDS. -/
theorem CutShort.getReg {p : Nat} {s t : State} (h : CutShort false p s t) (q : Nat) (hq : q ∈ s.paneGang p) (off : Nat) (ho : off < 0x1000)
    (h1 : off ≠ R.PCTL_TASK.off) (h2 : off ≠ R.PCTL_TASK_BUDGET.off) (h3 : off ≠ R.PCTL_DISCARDS.off) :
    t.getReg 0x02 q off = s.getReg 0x02 q off := by
  obtain ⟨u, hu, hpage⟩ := h.page q hq
  rw [hpage off ho h1 h2, recordOverrun, if_neg Bool.false_ne_true, dropMacros_getReg q off u h3, controller_getReg hu off ho]

theorem recordOverrun_getReg (id q off : Nat) (s : State) (h1 : off ≠ R.PCTL_OVERRUN.off) (h2 : off ≠ 0x10) :
    (recordOverrun true id q s).getReg 0x02 q off = s.getReg 0x02 q off := by
  rw [recordOverrun, if_pos rfl, State.raise, State.count, State.getReg_put_off _ ⟨0x02, 0x10, 4, 0, 1⟩ _ _ _ _ rfl h2,
    State.getReg_put_off _ R.PCTL_OVERRUN_COUNT _ _ _ _ rfl h1, State.getReg_put_off _ R.PCTL_OVERRUN_LAST_TASK _ _ _ _ rfl h1]

theorem recordOverrun_evt (id q : Nat) (s : State) :
    (recordOverrun true id q s).getReg 0x02 q 0x10 = s.getReg 0x02 q 0x10 ||| word 1 := by
  rw [recordOverrun, if_pos rfl, State.getReg_raise, State.count, State.getReg_put_off _ R.PCTL_OVERRUN_COUNT _ _ _ _ rfl (by decide),
    State.getReg_put_off _ R.PCTL_OVERRUN_LAST_TASK _ _ _ _ rfl (by decide), pow_zero]

theorem recordOverrun_last (id q : Nat) (s : State) : (recordOverrun true id q s).get R.PCTL_OVERRUN_LAST_TASK q = id % 2 ^ 16 := by
  rw [recordOverrun, if_pos rfl, State.get_raise_off _ R.PCTL_OVERRUN_LAST_TASK _ _ _ rfl (by decide), State.count,
    State.get_put_disjoint _ R.PCTL_OVERRUN_COUNT R.PCTL_OVERRUN_LAST_TASK _ _ rfl rfl (by decide) (by decide), State.get_put _ _ _ _ (by decide)]

theorem recordOverrun_count (id q : Nat) (s : State) :
    (recordOverrun true id q s).get R.PCTL_OVERRUN_COUNT q = min (s.get R.PCTL_OVERRUN_COUNT q + 1) (2 ^ 16 - 1) := by
  rw [recordOverrun, if_pos rfl, State.get_raise_off _ R.PCTL_OVERRUN_COUNT _ _ _ rfl (by decide), State.get_count _ _ _ _ (by decide),
    State.get_put_disjoint _ R.PCTL_OVERRUN_LAST_TASK R.PCTL_OVERRUN_COUNT _ _ rfl rfl (by decide) (by decide), satAdd]

/-- What a cut-off by the budget leaves in a controller's page (R97). -/
theorem CutShort.overrun {p : Nat} {s t : State} (h : CutShort true p s t) (q : Nat) (hq : q ∈ s.paneGang p) :
    t.get R.PCTL_OVERRUN_LAST_TASK q = s.taskNow p % 2 ^ 16 ∧
      t.get R.PCTL_OVERRUN_COUNT q = min (s.get R.PCTL_OVERRUN_COUNT q + 1) (2 ^ 16 - 1) ∧ Raises 0x02 q 1 s t ∧
      t.get R.PCTL_DISCARDS q = min (s.get R.PCTL_DISCARDS q + (s.ctl q).queue.length) (2 ^ 32 - 1) := by
  obtain ⟨u, hu, hpage⟩ := h.page q hq
  have hfield : ∀ f : Field, f.ty = 0x02 → f.off < 0x1000 → f.off ≠ R.PCTL_TASK.off → f.off ≠ R.PCTL_TASK_BUDGET.off →
      t.get f q = (recordOverrun true (s.taskNow p) q (dropMacros q u)).get f q := fun f hty ho h1 h2 => by
    rw [State.get, State.get, hty, hpage f.off ho h1 h2]
  have hdrop : ∀ f : Field, f.ty = 0x02 → f.off < 0x1000 → f.off ≠ R.PCTL_DISCARDS.off → (dropMacros q u).get f q = s.get f q :=
    fun f hty ho h1 => by rw [State.get, State.get, hty, dropMacros_getReg q f.off u h1, controller_getReg hu f.off ho]
  refine ⟨?_, ?_, ?_, ?_⟩
  · rw [hfield R.PCTL_OVERRUN_LAST_TASK rfl (by decide) (by decide) (by decide), recordOverrun_last]
  · rw [hfield R.PCTL_OVERRUN_COUNT rfl (by decide) (by decide) (by decide), recordOverrun_count, hdrop R.PCTL_OVERRUN_COUNT rfl (by decide) (by decide)]
  · rw [Raises, hpage 0x10 (by decide) (by decide) (by decide), recordOverrun_evt, dropMacros_getReg q 0x10 u (by decide),
      controller_getReg hu 0x10 (by decide)]
  · have hover : (recordOverrun true (s.taskNow p) q (dropMacros q u)).get R.PCTL_DISCARDS q = (dropMacros q u).get R.PCTL_DISCARDS q :=
      congrArg (fun w : Word => bitsAt w.toNat 0 32) (recordOverrun_getReg _ q R.PCTL_DISCARDS.off _ (by decide) (by decide))
    rw [hfield R.PCTL_DISCARDS rfl (by decide) (by decide) (by decide), hover, dropMacros_discards,
      controller_get hu R.PCTL_DISCARDS rfl (by decide), controller_ctl hu]

/-- What follows the cycle of a cut-off leaves no result: no macroop at its end is but cut. -/
theorem CutShort.closeCycle {overrun : Bool} {p : Nat} {s t : State} (h : CutShort overrun p s t) (hin : p ∈ s.paneGang p)
    (hends : ∀ q ∈ s.paneGang p, s.endsIdly q) (hidle : ∀ q ∈ s.paneGang p, (s.ctl q).cutOff.harmless) :
    RunsDrop (s.paneGang p) t (Machine.closeCycle p t) := by
  have hgang := h.sameGangs.paneGang p
  have hdrop := closeCycle_harmless p t (hgang ▸ hin)
    (fun q hq => by
      rw [hgang] at hq
      rw [State.endsIdly, h.ctl q hq, State.pane, h.panes]
      exact hends q hq)
    fun q hq => by
      rw [hgang] at hq
      rw [h.ctl q hq]
      exact hidle q hq
  rwa [hgang] at hdrop

/-! ### TASK_CUT_OFF (R97) -/

/-- After a cut-off, no macroop at its end leaves a result: each is cut, or one of its PE-ops is still in flight. -/
theorem PaneCtl.cutOff_harmless (c : PaneCtl) (hopen : c.openRun = true) (hseq : ∀ r ∈ c.runs, r.seq = c.seq) : c.cutOff.harmless := by
  cases hdisp : c.dispatch with
  | false =>
    refine .inr fun r hr => .inl ?_
    rw [PaneCtl.cutOff, hdisp, if_neg Bool.false_ne_true] at hr
    obtain ⟨x, hx, rfl⟩ := List.mem_map.1 hr
    rw [if_pos (hseq x hx)]
  | true =>
    have hruns : c.cutOff.runs = c.runs ++ [] := by rw [PaneCtl.cutOff, hdisp, if_pos rfl, List.append_nil]
    rcases c.openRun_dispatch hopen hdisp with hnil | hfly
    · refine .inr fun r hr => ?_
      rw [hruns, hnil] at hr
      cases hr
    · exact (hfly.append (d := c.cutOff) [] hruns rfl).harmless

theorem exec_taskCutOff (p : Nat) (s : State) (hp : p < 16) (hbase : s.gangBase p = p) (hon : s.gangOn p = true) (hhalt : s.pcState p ≠ 2) :
    exec (.taskCutOff p false) s = done (closeCycle p (cutTask p true s)) := by
  have hcut : budgetCut p false s = closeCycle p (cutTask p true s) := by
    simp only [budgetCut, hbase, hon, Bool.not_true, Bool.false_or, beq_iff_eq, if_neg hhalt, Bool.not_false, if_true]
  rw [← hcut]
  exact need_of hp _

theorem task_cut_off (p : Nat) (s : State) (hp : p < 16) (hin : p ∈ s.paneGang p) (hbase : s.gangBase p = p) (htask : s.taskNow p ≠ 0)
    (hquiet : s.gangQuiet p) (hhalt : s.pcState p ≠ 2) (hseq : ∀ q ∈ s.paneGang p, ∀ r ∈ (s.ctl q).runs, r.seq = (s.ctl q).seq) :
    ∃ t, exec (.taskCutOff p false) s = .next t ∧ t.reports = s.reports ++ [⟨0x02, p, 0, clsHold⟩] ∧
      (t.run p) = { s.run p with lost := s.taskNow p :: (s.run p).lost } ∧
      (∀ (q : Nat), q ∈ s.paneGang p → t.taskNow q = 0 ∧ t.get R.PCTL_OVERRUN_LAST_TASK q = s.taskNow p % 2 ^ 16 ∧
        t.get R.PCTL_OVERRUN_COUNT q = min (s.get R.PCTL_OVERRUN_COUNT q + 1) (2 ^ 16 - 1) ∧ Raises 0x02 q 1 s t ∧
        t.get R.PCTL_DISCARDS q = min (s.get R.PCTL_DISCARDS q + (s.ctl q).queue.length) (2 ^ 32 - 1) ∧
        t.ctl q = { s.ctl q with queue := [], dispatch := true, upc := 0, remaining := 0, waitLeft := 0, runs := (t.ctl q).runs } ∧
        (∀ (n : Nat), n ∈ paneSlats q → (t.port n).queue = [] ∧ (t.port n).run = [] ∧ (t.port n).ahead = [] ∧ (t.port n).held = none)) ∧
      (t.link (engKey 3 (s.paneSash p))).taskEnd = some (s.gangTsn p) ∧ t.panes = s.panes ∧ t.engines = s.engines ∧ t.engMem = s.engMem := by
  have hcut := cutTask_cutShort true p s hp hin hbase htask
  have hdrop := hcut.closeCycle hin (fun q hq => hquiet.endsIdly q hq) fun q hq => (s.ctl q).cutOff_harmless (hquiet.openRun q hq) (hseq q hq)
  obtain ⟨pins, hexec⟩ := next_of_done (exec_taskCutOff p s hp hbase hquiet.1 hhalt)
  revert hexec hdrop
  generalize closeCycle p (cutTask p true s) = w
  generalize cutTask p true s = v at hcut
  intro hdrop hexec
  have hread : ∀ ty n off, (w.withPins pins).getReg ty n off = v.getReg ty n off := fun ty n off => by
    rw [State.withPins_getReg, State.getReg, hdrop.regs, ← State.getReg]
  have hget : ∀ f n, (w.withPins pins).get f n = v.get f n := fun f n => by rw [State.get, hread, ← State.get]
  refine ⟨_, hexec, ?_, ?_, fun q hq => ?_, ?_, ?_, ?_, ?_⟩
  · rw [State.withPins_reports, hdrop.1]
    exact hcut.reports
  · rw [State.withPins_run, hdrop.1]
    exact hcut.run
  · obtain ⟨hlast, hcount, hevt, hdiscards⟩ := hcut.overrun q hq
    obtain ⟨l, -, hctl, -⟩ := hdrop.2 q
    refine ⟨(hget _ q).trans (hcut.taskNow q hq), (hget _ q).trans hlast, (hget _ q).trans hcount, (hread _ _ _).trans hevt,
      (hget _ q).trans hdiscards, ?_, fun n hn => ?_⟩
    · rw [State.withPins_ctl, hctl, hcut.ctl q hq]
      rfl
    · rw [State.withPins_port, hdrop.1]
      exact hcut.port q hq n hn
  · rw [State.withPins_link, hdrop.1]
    exact hcut.link
  · rw [hdrop.1]
    exact hcut.panes
  · rw [hdrop.1]
    exact hcut.engines
  · rw [hdrop.1]
    exact hcut.engMem

end Sys2Proof.Machine
end

section
/-!
PROOFS. A macroop that the op table does not list (R160, R175).
-/

namespace Sys2Proof.Machine

/-- Controllers of a gang record a fault each, one of the words given. -/
def recordFaults (evt : Nat) (w : Word) (gang : List Nat) (s : State) : State := gang.foldl (fun t q => t.recordFault q evt w) s

theorem recordFaults_ctl (evt : Nat) (w : Word) (gang : List Nat) (s : State) (j : Nat) : (recordFaults evt w gang s).ctl j = s.ctl j :=
  foldl_keeps (fun t => t.ctl j) _ gang (fun t q _ => State.recordFault_ctl t q evt w j) s

theorem recordFaults_pane (evt : Nat) (w : Word) (gang : List Nat) (s : State) (j : Nat) : (recordFaults evt w gang s).pane j = s.pane j :=
  foldl_keeps (fun t => t.pane j) _ gang (fun t q _ => State.recordFault_pane t q evt w j) s

theorem recordFaults_run (evt : Nat) (w : Word) (gang : List Nat) (s : State) (j : Nat) : (recordFaults evt w gang s).run j = s.run j :=
  foldl_keeps (fun t => t.run j) _ gang (fun t q _ => State.recordFault_run t q evt w j) s

theorem recordFaults_sameGangs (evt : Nat) (w : Word) (gang : List Nat) (s : State) : SameGangs s (recordFaults evt w gang s) :=
  SameGangs.foldl _ gang (fun t q => State.recordFault_sameGangs t q evt w) s

theorem recordFaults_reports (evt : Nat) (w : Word) (gang : List Nat) (s : State) :
    (recordFaults evt w gang s).reports = s.reports ++ gang.map (fun q => ⟨0x02, q, evt, clsHold⟩) :=
  foldl_appends State.reports _ _ (fun t q => State.recordFault_reports t q evt w) gang s

/-- The registers of a page that a fault leaves. -/
theorem recordFaults_getReg (evt : Nat) (w : Word) (gang : List Nat) (s : State) (j off : Nat) (ho : off < 0x1000) (hevt : off ≠ 0x10)
    (hword : off ≠ 0x058) : (recordFaults evt w gang s).getReg 0x02 j off = s.getReg 0x02 j off :=
  foldl_keeps (fun t => t.getReg 0x02 j off) _ gang (fun t q _ => State.getReg_of_find _ _ _ _ _ (State.recordFault_find t q evt w _
    (regKey_ne_of_off_ne 0x02 0x02 j q off 0x10 hevt ho (by decide)) (regKey_ne_of_off_ne 0x02 0x02 j q off 0x058 hword ho (by decide)))) s

theorem recordFaults_page (evt : Nat) (w : Word) (gang : List Nat) (hl : gang.Nodup) (s : State) (q : Nat) (hq : q ∈ gang) :
    (recordFaults evt w gang s).getReg 0x02 q 0x10 = s.getReg 0x02 q 0x10 ||| word (2 ^ evt) ∧
      (recordFaults evt w gang s).getReg 0x02 q 0x058 = w := by
  obtain ⟨t, ht, hat⟩ := foldl_at (fun t => t.controller q) (fun t q => t.recordFault q evt w) gang hl q hq
    (fun t j _ hj => State.recordFault_controller_other t j evt w q hj.symm) s
  constructor
  · rw [recordFaults, controller_getReg hat 0x10 (by decide), ← controller_getReg ht 0x10 (by decide), State.recordFault_evt]
  · rw [recordFaults, controller_getReg hat 0x058 (by decide), State.recordFault_word]

/-- The word of PCTL_MACRO_FAULT for a macroop that is not listed. -/
def unlistedFault (m : BitVec 64) : Word := word (1 * 2 ^ 30 + mopOp m * 2 ^ 12 + 0)

/-- The faults of controllers that have taken the same macroop. -/
theorem recordHeads_eq (m : BitVec 64) (gang : List Nat) (hl : gang.Nodup) (s : State) (hmop : ∀ q ∈ gang, (s.ctl q).mop = m) :
    recordHeads gang s = recordFaults 2 (unlistedFault m) gang s :=
  foldl_congr_ctl _ _ gang hl s (fun t q j _ => State.recordFault_ctl t q 2 _ j) fun t q hq hctl => by
    rw [macroFault_eq, hctl, hmop q hq, unlistedFault]

/-- Every controller of a gang has taken a macroop and recorded that it is not listed; no hamper and no account of the gang has changed. -/
structure HeadsFaulted (m : BitVec 64) (gang : List Nat) (s t : State) : Prop where
  sameGangs : SameGangs s t
  pane : ∀ q, t.pane q = s.pane q
  run : ∀ q, t.run q = s.run q
  reports : t.reports = s.reports ++ gang.map (fun q => ⟨0x02, q, 2, clsHold⟩)
  ctl : ∀ q ∈ gang, t.ctl q = (s.ctl q).taken true m (edgePage s q)
  evt : ∀ q ∈ gang, t.getReg 0x02 q 0x10 = s.getReg 0x02 q 0x10 ||| word 4
  fault : ∀ q ∈ gang, t.getReg 0x02 q 0x058 = unlistedFault m
  getReg : ∀ q off, off < 0x1000 → off ≠ 0x10 → off ≠ 0x058 → t.getReg 0x02 q off = s.getReg 0x02 q off

theorem headsFaulted (m : BitVec 64) (gang : List Nat) (hl : gang.Nodup) (s : State) (hhead : ∀ q ∈ gang, (s.ctl q).queue.head? = some m) :
    HeadsFaulted m gang s (recordFaults 2 (unlistedFault m) gang (gang.foldl (fun t q => takeHead true q t) s)) := by
  have htake := takeHeads true m gang hl s hhead
  generalize List.foldl _ _ _ = u at htake
  have hread : ∀ ty n off, u.getReg ty n off = s.getReg ty n off := fun ty n off => by rw [State.getReg, htake.regs, ← State.getReg]
  constructor
  case sameGangs => exact (SameGangs.of_regs htake.regs).trans (recordFaults_sameGangs 2 _ gang u)
  case pane => exact fun q => (recordFaults_pane 2 _ gang u q).trans (htake.pane q)
  case run =>
    intro q
    rw [recordFaults_run, htake.1]
    rfl
  case reports => rw [recordFaults_reports, htake.1]
  case ctl => exact fun q hq => (recordFaults_ctl 2 _ gang u q).trans (htake.2.1 q hq)
  case evt =>
    intro q hq
    rw [(recordFaults_page 2 _ gang hl u q hq).1, hread]
    rfl
  case fault => exact fun q hq => (recordFaults_page 2 _ gang hl u q hq).2
  case getReg => exact fun q off ho h1 h2 => (recordFaults_getReg 2 _ gang u q off ho h1 h2).trans (hread _ _ _)

/-- A gang every controller of which finds its head unlisted or malformed: they take it, record it, and the task ends as at a cut-off. -/
theorem dispatchGang_unlisted (p : Nat) (m : BitVec 64) (s : State) (hin : p ∈ s.paneGang p) (hcan : canDispatch s p = true)
    (hhead : ∀ q ∈ s.paneGang p, (s.ctl q).queue.head? = some m) (hbad : ∀ q ∈ s.paneGang p, (s.ctl q).headBad = true) :
    dispatchGang p s = closeCycle p (cutTask p false (recordFaults 2 (unlistedFault m) (s.paneGang p)
      ((s.paneGang p).foldl (fun t q => takeHead true q t) s))) := by
  have hfaults : headFaults s p = s.paneGang p := List.filter_eq_self.2 hbad
  have hne : s.paneGang p ≠ [] := List.ne_nil_of_mem hin
  have htake := takeHeads true m (s.paneGang p) (s.paneGang_nodup p) s hhead
  simp only [dispatchGang, hcan, hfaults, if_true, if_neg hne, bne_iff_ne.2 hne]
  rw [recordHeads_eq m _ (s.paneGang_nodup p) _ fun q hq => by rw [htake.2.1 q hq]; rfl]

/-- The macroop that a controller has taken to abandon it leaves no result, and those before it are not at their end. -/
theorem PaneCtl.taken_cutOff_harmless (c : PaneCtl) (m : BitVec 64) (edges : Nat × Tbl Word) (hopen : c.openRun = true) (hdisp : c.dispatch = true) :
    (c.taken true m edges).cutOff.harmless := by
  have hruns : (c.taken true m edges).cutOff.runs = c.runs ++ [⟨c.seq + 1, m, edges.1, edges.2, none, true⟩] := by
    rw [PaneCtl.cutOff, show (c.taken true m edges).dispatch = true from hdisp, if_pos rfl]
    rfl
  rcases c.openRun_dispatch hopen hdisp with hnil | hfly
  · refine .inr fun r hr => .inl ?_
    rw [hruns, hnil, List.nil_append, List.mem_singleton] at hr
    rw [hr]
  · exact (hfly.append (d := (c.taken true m edges).cutOff) _ hruns rfl).harmless

theorem macro_unlisted (p : Nat) (m : BitVec 64) (s : State) (hp : p < 16) (hin : p ∈ s.paneGang p) (hend : mopOp m ≠ opTaskEnd)
    (hquiet : s.gangQuiet p)
    (hhead : ∀ q ∈ s.paneGang p, s.expands q = true ∧ (s.ctl q).dispatch = true ∧ (s.ctl q).queue.head? = some m)
    (hbad : ∀ q ∈ s.paneGang p, (s.ctl q).headBad = true) (hbase : s.gangBase p = p) (htask : s.taskNow p ≠ 0) :
    ∃ t, exec (.macroDispatch p) s = .next t ∧ t.taskNow p = 0 ∧
      (∀ (q : Nat), q ∈ s.paneGang p → Raises 0x02 q 4 s t ∧ t.getReg 0x02 q 0x058 = unlistedFault m ∧
        (t.ctl q).queue = [] ∧ (t.ctl q).dispatch = true ∧ (t.ctl q).upc = 0 ∧ (t.ctl q).inflight = (s.ctl q).inflight) ∧
      t.reports = s.reports ++ (s.paneGang p).map (fun q => ⟨0x02, q, 2, clsHold⟩) ∧ (t.run p).lost = s.taskNow p :: (s.run p).lost := by
  have hnodup := s.paneGang_nodup p
  have hdone := exec_macroDispatch p s hp
  rw [dispatchGang_unlisted p m s hin (canDispatch_of p m s hend hquiet hhead) (fun q hq => (hhead q hq).2.2) hbad] at hdone
  have hfault := headsFaulted m (s.paneGang p) hnodup s fun q hq => (hhead q hq).2.2
  generalize recordFaults 2 _ _ _ = u at hdone hfault
  have hgang := hfault.sameGangs.paneGang p
  have htask' : u.taskNow p = s.taskNow p :=
    congrArg (fun w : Word => bitsAt w.toNat 0 16) (hfault.getReg p R.PCTL_TASK.off (by decide) (by decide) (by decide))
  have hcut := cutTask_cutShort false p u hp (hgang ▸ hin) ((hfault.sameGangs.gangBase p).trans hbase) (htask' ▸ htask)
  have hdrop := hcut.closeCycle (hgang ▸ hin)
    (fun q hq => by
      rw [hgang] at hq
      rw [State.endsIdly, hfault.ctl q hq, hfault.pane]
      exact hquiet.endsIdly q hq)
    fun q hq => by
      rw [hgang] at hq
      rw [hfault.ctl q hq]
      exact (s.ctl q).taken_cutOff_harmless m _ (hquiet.openRun q hq) (hhead q hq).2.1
  obtain ⟨pins, hexec⟩ := next_of_done hdone
  generalize closeCycle p (cutTask p false u) = w at hexec hdrop
  generalize cutTask p false u = v at hcut hdrop
  have hread : ∀ ty n off, (w.withPins pins).getReg ty n off = v.getReg ty n off := fun ty n off => by
    rw [State.withPins_getReg, State.getReg, hdrop.regs, ← State.getReg]
  refine ⟨_, hexec, ?_, fun q hq => ?_, ?_, ?_⟩
  · exact congrArg (fun x : Word => bitsAt x.toNat 0 16) (hread 0x02 p R.PCTL_TASK.off) |>.trans (hcut.taskNow p (hgang ▸ hin))
  · have hq' : q ∈ u.paneGang p := hgang ▸ hq
    obtain ⟨l, -, hctl, -⟩ := hdrop.2 q
    rw [State.withPins_ctl, hctl, hcut.ctl q hq', hfault.ctl q hq, Raises, hread, hread,
      hcut.getReg q hq' 0x10 (by decide) (by decide) (by decide) (by decide), hfault.evt q hq,
      hcut.getReg q hq' 0x058 (by decide) (by decide) (by decide) (by decide), hfault.fault q hq]
    exact ⟨rfl, rfl, rfl, rfl, rfl, rfl⟩
  · rw [State.withPins_reports, hdrop.1]
    exact hcut.reports.trans ((List.append_nil _).trans hfault.reports)
  · rw [State.withPins_run, hdrop.1]
    exact (congrArg GangRun.lost hcut.run).trans (by rw [htask', hfault.run])

end Sys2Proof.Machine
end

section
/-!
PROOFS. A task skipped (R98), the end of a task (R96, R167), a reduction's result (R147).
-/

namespace Sys2Proof.Machine

/-! ### Changes of registers alone -/

/-- The device without its registers. -/
def State.sansRegs (s : State) : State := { s with regs := [] }

theorem State.eq_of_sansRegs {s t : State} (h : t.sansRegs = s.sansRegs) : t = { s with regs := t.regs } :=
  congrArg (fun v : State => { v with regs := t.regs }) h

theorem State.sansRegs_put (s : State) (f : Field) (n v : Nat) : (s.put f n v).sansRegs = s.sansRegs := by
  simp only [State.sansRegs, State.put, State.setReg]

/-! ### A task skipped (R98) -/

/-- A controller records that a task of its gang was skipped. -/
def recordSkip (id : Nat) (t : State) (q : Nat) : State :=
  ((t.put R.PCTL_SKIPPED_LAST_TASK q id).count R.PCTL_SKIPPED_COUNT q 1).raise 0x02 q 1

theorem recordSkip_sansRegs (id : Nat) (t : State) (q : Nat) : (recordSkip id t q).sansRegs = t.sansRegs := by
  rw [recordSkip, State.raise, State.count, State.sansRegs_put, State.sansRegs_put, State.sansRegs_put]

theorem recordSkip_controller_other (id : Nat) (t : State) (q j : Nat) (h : j ≠ q) : (recordSkip id t q).controller j = t.controller j := by
  rw [recordSkip, State.raise, State.count, controller_put_pctl _ ⟨0x02, 0x10, 4, 1, 1⟩ q j 1 rfl (by decide) h,
    controller_put_pctl _ R.PCTL_SKIPPED_COUNT q j _ rfl (by decide) h, controller_put_pctl _ R.PCTL_SKIPPED_LAST_TASK q j _ rfl (by decide) h]

theorem recordSkip_last (id : Nat) (t : State) (q : Nat) : (recordSkip id t q).get R.PCTL_SKIPPED_LAST_TASK q = id % 2 ^ 16 := by
  rw [recordSkip, State.get_raise_off _ R.PCTL_SKIPPED_LAST_TASK _ _ _ rfl (by decide), State.count,
    State.get_put_disjoint _ R.PCTL_SKIPPED_COUNT R.PCTL_SKIPPED_LAST_TASK _ _ rfl rfl (by decide) (by decide), State.get_put _ _ _ _ (by decide)]

theorem recordSkip_count (id : Nat) (t : State) (q : Nat) :
    (recordSkip id t q).get R.PCTL_SKIPPED_COUNT q = min (t.get R.PCTL_SKIPPED_COUNT q + 1) (2 ^ 16 - 1) := by
  rw [recordSkip, State.get_raise_off _ R.PCTL_SKIPPED_COUNT _ _ _ rfl (by decide), State.get_count _ _ _ _ (by decide),
    State.get_put_disjoint _ R.PCTL_SKIPPED_LAST_TASK R.PCTL_SKIPPED_COUNT _ _ rfl rfl (by decide) (by decide), satAdd]

theorem recordSkip_evt (id : Nat) (t : State) (q : Nat) : (recordSkip id t q).getReg 0x02 q 0x10 = t.getReg 0x02 q 0x10 ||| word 2 := by
  rw [recordSkip, State.getReg_raise, State.count, State.getReg_put_off _ R.PCTL_SKIPPED_COUNT _ _ _ _ rfl (by decide),
    State.getReg_put_off _ R.PCTL_SKIPPED_LAST_TASK _ _ _ _ rfl (by decide), pow_one]

/-- What the controllers of a gang record of a skipped task. -/
theorem recordSkips (id : Nat) (gang : List Nat) (hl : gang.Nodup) (s : State) :
    let u := gang.foldl (recordSkip id) s
    u = { s with regs := u.regs } ∧ ∀ q ∈ gang, u.get R.PCTL_SKIPPED_LAST_TASK q = id % 2 ^ 16 ∧ Raises 0x02 q 2 s u ∧
      u.get R.PCTL_SKIPPED_COUNT q = min (s.get R.PCTL_SKIPPED_COUNT q + 1) (2 ^ 16 - 1) := by
  refine ⟨State.eq_of_sansRegs (foldl_keeps State.sansRegs (recordSkip id) gang (fun t q _ => recordSkip_sansRegs id t q) s), fun q hq => ?_⟩
  · obtain ⟨t, ht, hat⟩ := foldl_at (fun t => t.controller q) (recordSkip id) gang hl q hq
      (fun t j _ hj => recordSkip_controller_other id t j q hj.symm) s
    refine ⟨?_, ?_, ?_⟩
    · rw [controller_get hat R.PCTL_SKIPPED_LAST_TASK rfl (by decide), recordSkip_last]
    · rw [Raises, controller_getReg hat 0x10 (by decide), recordSkip_evt, controller_getReg ht 0x10 (by decide)]
    · rw [controller_get hat R.PCTL_SKIPPED_COUNT rfl (by decide), recordSkip_count, controller_get ht R.PCTL_SKIPPED_COUNT rfl (by decide)]

theorem skipTask_eq (base id : Nat) (s : State) :
    skipTask base id s =
      (((s.paneGang base).foldl (recordSkip id) s).setRun base { s.run base with lost := id :: (s.run base).lost }).report 0x02 base 1 clsHold := by
  have hrun : ((s.paneGang base).foldl (recordSkip id) s).run base = s.run base :=
    foldl_keeps (fun t => t.run base) (recordSkip id) _ (fun t q _ => by
      rw [recordSkip, State.raise_run, State.count, State.put_run, State.put_run]) s
  rw [← hrun]
  rfl

/-! ### TASK_START -/

theorem exec_taskStart (p : Nat) (s : State) (hp : p < 16) : exec (.taskStart p) s = done (taskStart p s) := need_of hp _

theorem taskStart_next (p : Nat) (s : State) (hin : s.flag R.PANE_MODE_IN_GANG p = true) (hbase : s.gangBase p = p) (hnone : s.taskNow p = 0)
    (hwindow : s.tick.windowOpen = true) (hon : s.gangOn p = true) (hinit : s.gangInit p = false)
    (hpanes : ∀ q ∈ s.paneGang p, s.pcState q = 1 ∧ (s.pane q).rebuilding = false) (hstopped : (s.run p).stopped = false) :
    taskStart p s = startNext p (s.run p).left s := by
  refine if_pos ?_
  have hall : (s.paneGang p).all (fun q => s.pcState q == pcRun && !(s.pane q).rebuilding) = true := by
    refine List.all_eq_true.2 fun q hq => ?_
    rw [(hpanes q hq).1, (hpanes q hq).2]
    rfl
  rw [canStart, hin, hbase, hnone, hwindow, hon, hinit, hall, hstopped, beq_self_eq_true]
  rfl

theorem startNext_skips (p k : Nat) (rest : List Nat) (d : TaskDef) (s : State) (hentry : s.entryTask k = some d) (hlost : d.depends ∈ (s.run p).lost) :
    startNext p (k :: rest) s = startNext p rest (skipTask p d.id s) := by
  simp only [startNext, hentry, List.contains_iff_mem.2 hlost, if_true]

theorem task_skipped (p k : Nat) (d : TaskDef) (s : State) (hp : p < 16) (hstart : taskStart p s = startNext p (s.run p).left s)
    (hrun : s.run p = ⟨[k], (s.run p).lost, false⟩) (hentry : s.entryTask k = some d) (hlost : d.depends ∈ (s.run p).lost) :
    ∃ t, exec (.taskStart p) s = .next t ∧ t.run p = ⟨[], d.id :: (s.run p).lost, false⟩ ∧ t.reports = s.reports ++ [⟨0x02, p, 1, clsHold⟩] ∧
      (∀ (q : Nat), q ∈ s.paneGang p → t.get R.PCTL_SKIPPED_LAST_TASK q = d.id % 2 ^ 16 ∧ Raises 0x02 q 2 s t ∧
        t.get R.PCTL_SKIPPED_COUNT q = min (s.get R.PCTL_SKIPPED_COUNT q + 1) (2 ^ 16 - 1)) ∧
      t = { s with gangs := t.gangs, regs := t.regs, reports := t.reports, pins := t.pins } := by
  have hdone := exec_taskStart p s hp
  have hleft : (s.run p).left = [k] := congrArg GangRun.left hrun
  rw [hstart, hleft, startNext_skips p k [] d s hentry hlost, startNext, skipTask_eq] at hdone
  have hskips := recordSkips d.id (s.paneGang p) (s.paneGang_nodup p) s
  revert hdone hskips
  generalize List.foldl _ _ _ = u
  rintro hdone ⟨hframe, hpages⟩
  obtain ⟨pins, hexec⟩ := next_of_done hdone
  refine ⟨_, hexec, ?_, ?_, fun q hq => ?_, ?_⟩
  · rw [State.withPins_run, State.setRun_same, State.report_run, State.setRun_same]
    exact congrArg (GangRun.mk [] _) (congrArg GangRun.stopped hrun)
  · rw [hframe]
    rfl
  · rw [Raises, State.withPins_get, State.withPins_get, State.withPins_getReg, State.setRun_get, State.setRun_get, State.setRun_getReg,
      State.report_get, State.report_get, State.report_getReg, State.setRun_get, State.setRun_get, State.setRun_getReg]
    exact hpages q hq
  · rw [hframe]
    rfl

/-! ### TASK_END -/

/-- A controller takes TASK_END off its queue and shows no task. -/
def endTask (t : State) (q : Nat) : State := clearTask (t.setCtl q { t.ctl q with queue := (t.ctl q).queue.drop 1 }) q

theorem endTask_ctl (t : State) (q j : Nat) :
    (endTask t q).ctl j = (t.setCtl q { t.ctl q with queue := (t.ctl q).queue.drop 1 }).ctl j := clearTask_ctl q j _

theorem endTask_frame (t : State) (q : Nat) : endTask t q = { t with pctl := (endTask t q).pctl, regs := (endTask t q).regs } := by
  simp only [endTask, clearTask, State.setCtl, State.put, State.setReg]

theorem clearTask_budget (q : Nat) (s : State) : (clearTask s q).get R.PCTL_TASK_BUDGET_CYCLES q = 0 := by
  rw [clearTask, State.get_put _ _ _ _ (by decide), Nat.zero_mod]

theorem endTask_controller_other (t : State) (q j : Nat) (h : j ≠ q) : (endTask t q).controller j = t.controller j := by
  rw [endTask, clearTask, controller_put_pctl _ R.PCTL_TASK_BUDGET_CYCLES q j 0 rfl (by decide) h,
    controller_put_pctl _ R.PCTL_TASK_TASK_ID q j 0 rfl (by decide) h, controller_setCtl_other _ _ _ _ h]

/-- What the end of a task leaves in the controllers of a gang. -/
theorem endTasks (gang : List Nat) (hl : gang.Nodup) (s : State) :
    let u := gang.foldl endTask s
    u = { s with pctl := u.pctl, regs := u.regs } ∧ ∀ q ∈ gang, u.ctl q = { s.ctl q with queue := (s.ctl q).queue.drop 1 } ∧
      u.taskNow q = 0 ∧ u.get R.PCTL_TASK_BUDGET_CYCLES q = 0 := by
  refine ⟨?_, fun q hq => ?_⟩
  · refine List.foldlRecOn (motive := fun v : State => v = { s with pctl := v.pctl, regs := v.regs }) _ endTask rfl fun t ht q _ => ?_
    rw [endTask_frame t q, ht]
  · obtain ⟨t, ht, hat⟩ := foldl_at (fun t => t.controller q) endTask gang hl q hq
      (fun t j _ hj => endTask_controller_other t j q hj.symm) s
    refine ⟨?_, ?_, ?_⟩
    · rw [controller_ctl hat, endTask_ctl, State.setCtl_same, controller_ctl ht]
    · exact (controller_get hat R.PCTL_TASK_TASK_ID rfl (by decide)).trans (clearTask_taskNow q _)
    · exact (controller_get hat R.PCTL_TASK_BUDGET_CYCLES rfl (by decide)).trans (clearTask_budget q _)

theorem exec_taskEnd (p : Nat) (s : State) (hp : p < 16) : exec (.taskEnd p) s = done (taskEnd p s) := need_of hp _

theorem canEnd_iff (p : Nat) (s : State) :
    canEnd s p = true ↔ s.taskNow p ≠ 0 ∧ s.gangOn p = true ∧ ∀ q ∈ s.paneGang p, (s.ctl q).dispatch = true ∧ (s.ctl q).inflight = [] ∧
      (s.pane q).outb = [] ∧ (s.ctl q).queue.head?.map mopOp = some opTaskEnd := by
  simp only [canEnd, Bool.and_eq_true, bne_iff_ne, List.all_eq_true, beq_iff_eq, and_assoc]
  refine and_congr_right fun _ => and_congr_right fun _ => forall₂_congr fun q _ => and_congr_right fun _ => and_congr_right fun _ =>
    and_congr_right fun _ => ?_
  cases (s.ctl q).queue with
  | nil => simp
  | cons m l => simp

theorem task_ended (p : Nat) (s : State) (hp : p < 16) (htask : s.taskNow p ≠ 0) (hon : s.gangOn p = true)
    (hends : ∀ q ∈ s.paneGang p, (s.ctl q).dispatch = true ∧ (s.ctl q).inflight = [] ∧ (s.pane q).outb = [] ∧
      (s.ctl q).queue.head?.map mopOp = some opTaskEnd) :
    ∃ t, exec (.taskEnd p) s = .next t ∧ t.doneTasks = s.taskNow p :: s.doneTasks ∧
      t = { s with pctl := t.pctl, regs := t.regs, doneTasks := t.doneTasks, pins := t.pins } ∧
      (∀ (q : Nat), q ∈ s.paneGang p → t.ctl q = { s.ctl q with queue := (s.ctl q).queue.drop 1 } ∧ t.taskNow q = 0 ∧
        t.get R.PCTL_TASK_BUDGET_CYCLES q = 0) := by
  have hdone := exec_taskEnd p s hp
  have heq : taskEnd p s = let u := (s.paneGang p).foldl endTask s; { u with doneTasks := s.taskNow p :: u.doneTasks } :=
    if_pos ((canEnd_iff p s).2 ⟨htask, hon, hends⟩)
  rw [heq] at hdone
  have hends := endTasks (s.paneGang p) (s.paneGang_nodup p) s
  revert hdone hends
  generalize List.foldl _ _ _ = u
  rintro hdone ⟨hframe, hpages⟩
  obtain ⟨pins, hexec⟩ := next_of_done hdone
  refine ⟨_, hexec, ?_, ?_, hpages⟩
  · rw [hframe]
    rfl
  · rw [hframe]
    rfl

theorem task_not_ended (p : Nat) (s : State) (hp : p < 16) (hin : p ∈ s.paneGang p) (hout : (s.pane p).outb ≠ []) :
    ∃ t, exec (.taskEnd p) s = .next t ∧ t = { s with pins := t.pins } := by
  have hdone := exec_taskEnd p s hp
  have heq : taskEnd p s = s := if_neg fun hcan => by
    obtain ⟨-, -, hends⟩ := (canEnd_iff p s).1 hcan
    obtain ⟨-, -, hempty, -⟩ := hends p hin
    exact hout hempty
  rw [heq] at hdone
  obtain ⟨pins, hexec⟩ := next_of_done hdone
  exact ⟨_, hexec, rfl⟩

/-! ### REDUCTION_RESULT_DELIVER (R147) -/

/-- The sash learns of a result of its pane's controller. -/
def State.tellSash (s : State) (p sash : Nat) (g : Bool) (n : Nat) (rest : List (Bool × Nat)) : State :=
  setIrq 3 sash 2 ((s.setCtl p { s.ctl p with results := rest }).setLink (engKey 3 sash)
    { s.link (engKey 3 sash) with g := g, tally := n, rcnt := (s.link (engKey 3 sash)).rcnt + 1 })

/-- The controller's page shows a result. -/
def State.showResult (s : State) (p : Nat) (g : Bool) (n : Nat) : State :=
  (((s.put R.PCTL_RED_LAST_GOR p (bit g)).put R.PCTL_RED_LAST_TALLY p n).countWrap R.PCTL_RED_LAST_SEQ p 1).countWrap R.PCTL_RED_COUNT p 1

theorem deliverResult_eq (p n : Nat) (g : Bool) (rest : List (Bool × Nat)) (s : State) (hon : s.domainOn (14 + p) = true)
    (hresults : (s.ctl p).results = (g, n) :: rest) :
    deliverResult p s = (s.tellSash p (s.paneSash p) g n rest).showResult p g n := by
  simp only [deliverResult, hresults, hon, Bool.not_true, Bool.false_eq_true, if_false]
  rfl

/-- The device without what a controller and the engines are told of a result. -/
def State.sansResult (s : State) : State := { s with pctl := [], arrayLink := [], regs := [] }

theorem State.eq_of_sansResult {s t : State} (h : t.sansResult = s.sansResult) :
    t = { s with pctl := t.pctl, arrayLink := t.arrayLink, regs := t.regs } :=
  congrArg (fun v : State => { v with pctl := t.pctl, arrayLink := t.arrayLink, regs := t.regs }) h

theorem tellSash_sansResult (s : State) (p sash : Nat) (g : Bool) (n : Nat) (rest : List (Bool × Nat)) :
    (s.tellSash p sash g n rest).sansResult = s.sansResult := by
  simp only [State.sansResult, State.tellSash, setIrq, State.setLink, State.setCtl, State.put, State.setReg]

theorem tellSash_ctl (s : State) (p sash : Nat) (g : Bool) (n : Nat) (rest : List (Bool × Nat)) (j : Nat) :
    (s.tellSash p sash g n rest).ctl j = (s.setCtl p { s.ctl p with results := rest }).ctl j := by
  rw [State.tellSash, setIrq, State.put_ctl, State.setLink_ctl]

theorem tellSash_link (s : State) (p sash : Nat) (g : Bool) (n : Nat) (rest : List (Bool × Nat)) :
    (s.tellSash p sash g n rest).link (engKey 3 sash) =
      { s.link (engKey 3 sash) with g := g, tally := n, rcnt := (s.link (engKey 3 sash)).rcnt + 1 } := by
  rw [State.tellSash, setIrq, State.put_link, State.setLink_same]

theorem tellSash_link_other (s : State) (p sash : Nat) (g : Bool) (n : Nat) (rest : List (Bool × Nat)) (j : Nat) (h : j ≠ engKey 3 sash) :
    (s.tellSash p sash g n rest).link j = s.link j := by
  rw [State.tellSash, setIrq, State.put_link, State.setLink_other _ _ _ _ h, State.setCtl_link]

theorem tellSash_find (s : State) (p sash : Nat) (g : Bool) (n : Nat) (rest : List (Bool × Nat)) (k : Nat) (h : k ≠ regKey 3 sash 0x05C) :
    tblFind (s.tellSash p sash g n rest).regs k = tblFind s.regs k := by
  rw [State.tellSash, setIrq, State.put_find _ ⟨3, 0x05C, 4, 2, 1⟩ _ _ _ h, State.setLink_regs, State.setCtl_regs]

theorem tellSash_irq (s : State) (p sash : Nat) (g : Bool) (n : Nat) (rest : List (Bool × Nat)) :
    bitOf ((s.tellSash p sash g n rest).getReg 3 sash 0x05C).toNat 2 = true := by
  have hbit : (s.tellSash p sash g n rest).get ⟨3, 0x05C, 4, 2, 1⟩ sash = 1 := by
    rw [State.tellSash, setIrq, State.get_put _ _ _ _ (by decide)]
    rfl
  exact decide_eq_true hbit

theorem showResult_sansRegs (s : State) (p : Nat) (g : Bool) (n : Nat) : (s.showResult p g n).sansRegs = s.sansRegs := by
  rw [State.showResult, State.countWrap, State.sansRegs_put, State.countWrap, State.sansRegs_put, State.sansRegs_put, State.sansRegs_put]

theorem showResult_find (s : State) (p : Nat) (g : Bool) (n k : Nat) (h1 : k ≠ regKey 0x02 p 0x248) (h2 : k ≠ regKey 0x02 p 0x24C) :
    tblFind (s.showResult p g n).regs k = tblFind s.regs k := by
  rw [State.showResult, State.countWrap, State.put_find _ R.PCTL_RED_COUNT _ _ _ h2, State.countWrap, State.put_find _ R.PCTL_RED_LAST_SEQ _ _ _ h1,
    State.put_find _ R.PCTL_RED_LAST_TALLY _ _ _ h1, State.put_find _ R.PCTL_RED_LAST_GOR _ _ _ h1]

/-- The fields of a shown result. -/
theorem showResult_page (s : State) (p : Nat) (g : Bool) (n : Nat) :
    (s.showResult p g n).flag R.PCTL_RED_LAST_GOR p = g ∧ (s.showResult p g n).get R.PCTL_RED_LAST_TALLY p = n % 2 ^ 21 ∧
      (s.showResult p g n).get R.PCTL_RED_LAST_SEQ p = (s.get R.PCTL_RED_LAST_SEQ p + 1) % 2 ^ 8 ∧
      (s.showResult p g n).get R.PCTL_RED_COUNT p = (s.get R.PCTL_RED_COUNT p + 1) % 2 ^ 32 := by
  have hshow : s.showResult p g n =
    (((s.put R.PCTL_RED_LAST_GOR p (bit g)).put R.PCTL_RED_LAST_TALLY p n).countWrap R.PCTL_RED_LAST_SEQ p 1).countWrap R.PCTL_RED_COUNT p 1 := rfl
  refine ⟨?_, ?_, ?_, ?_⟩
  · have hgor : (s.showResult p g n).get R.PCTL_RED_LAST_GOR p = bit g % 2 ^ 1 := by
      rw [hshow, State.countWrap, State.get_put_off _ R.PCTL_RED_COUNT R.PCTL_RED_LAST_GOR _ _ rfl (by decide), State.countWrap,
        State.get_put_disjoint _ R.PCTL_RED_LAST_SEQ R.PCTL_RED_LAST_GOR _ _ rfl rfl (by decide) (by decide),
        State.get_put_disjoint _ R.PCTL_RED_LAST_TALLY R.PCTL_RED_LAST_GOR _ _ rfl rfl (by decide) (by decide), State.get_put _ _ _ _ (by decide)]
    rw [State.flag, hgor]
    cases g <;> rfl
  · rw [hshow, State.countWrap, State.get_put_off _ R.PCTL_RED_COUNT R.PCTL_RED_LAST_TALLY _ _ rfl (by decide), State.countWrap,
      State.get_put_disjoint _ R.PCTL_RED_LAST_SEQ R.PCTL_RED_LAST_TALLY _ _ rfl rfl (by decide) (by decide), State.get_put _ _ _ _ (by decide)]
  · rw [hshow, State.countWrap, State.get_put_off _ R.PCTL_RED_COUNT R.PCTL_RED_LAST_SEQ _ _ rfl (by decide), State.countWrap,
      State.get_put _ _ _ _ (by decide),
      State.get_put_disjoint _ R.PCTL_RED_LAST_TALLY R.PCTL_RED_LAST_SEQ _ _ rfl rfl (by decide) (by decide),
      State.get_put_disjoint _ R.PCTL_RED_LAST_GOR R.PCTL_RED_LAST_SEQ _ _ rfl rfl (by decide) (by decide)]
  · rw [hshow, State.countWrap, State.get_put _ _ _ _ (by decide), State.countWrap,
      State.get_put_off _ R.PCTL_RED_LAST_SEQ R.PCTL_RED_COUNT _ _ rfl (by decide),
      State.get_put_off _ R.PCTL_RED_LAST_TALLY R.PCTL_RED_COUNT _ _ rfl (by decide),
      State.get_put_off _ R.PCTL_RED_LAST_GOR R.PCTL_RED_COUNT _ _ rfl (by decide)]

theorem exec_reductionResultDeliver (p : Nat) (s : State) (hp : p < 16) : exec (.reductionResultDeliver p) s = done (deliverResult p s) :=
  need_of hp _

theorem result_delivered (p n : Nat) (g : Bool) (rest : List (Bool × Nat)) (s : State) (hp : p < 16) (hon : s.domainOn (14 + p) = true)
    (hresults : (s.ctl p).results = (g, n) :: rest) :
    ∃ t, exec (.reductionResultDeliver p) s = .next t ∧ t.ctl p = { s.ctl p with results := rest } ∧
      t.link (engKey 3 (s.paneSash p)) =
        { s.link (engKey 3 (s.paneSash p)) with g := g, tally := n, rcnt := (s.link (engKey 3 (s.paneSash p))).rcnt + 1 } ∧
      t.flag R.PCTL_RED_LAST_GOR p = g ∧ t.get R.PCTL_RED_LAST_TALLY p = n % 2 ^ 21 ∧
      t.get R.PCTL_RED_LAST_SEQ p = (s.get R.PCTL_RED_LAST_SEQ p + 1) % 256 ∧
      t.get R.PCTL_RED_COUNT p = (s.get R.PCTL_RED_COUNT p + 1) % 2 ^ 32 ∧
      bitOf (t.getReg 3 (s.paneSash p) 0x05C).toNat 2 = true ∧
      t = { s with pctl := t.pctl, arrayLink := t.arrayLink, regs := t.regs, pins := t.pins } ∧
      (∀ (q : Nat), q ≠ p → t.ctl q = s.ctl q) ∧ (∀ (j : Nat), j ≠ engKey 3 (s.paneSash p) → t.link j = s.link j) ∧
      RegsBut [regKey 0x02 p 0x248, regKey 0x02 p 0x24C, regKey 3 (s.paneSash p) 0x05C] s t := by
  have hdone := exec_reductionResultDeliver p s hp
  rw [deliverResult_eq p n g rest s hon hresults] at hdone
  obtain ⟨pins, hexec⟩ := next_of_done hdone
  have htell := State.eq_of_sansResult (tellSash_sansResult s p (s.paneSash p) g n rest)
  have hctl := tellSash_ctl s p (s.paneSash p) g n rest
  have hlink := tellSash_link s p (s.paneSash p) g n rest
  have hlink' := tellSash_link_other s p (s.paneSash p) g n rest
  have hfind := tellSash_find s p (s.paneSash p) g n rest
  have hirq := tellSash_irq s p (s.paneSash p) g n rest
  generalize s.tellSash p (s.paneSash p) g n rest = u at hexec htell hctl hlink hlink' hfind hirq
  obtain ⟨hgor, htally, hseq, hcount⟩ := showResult_page u p g n
  have hshow := State.eq_of_sansRegs (showResult_sansRegs u p g n)
  have hfind' := showResult_find u p g n
  generalize u.showResult p g n = v at hexec hgor htally hseq hcount hshow hfind'
  have hget : ∀ f : Field, f.ty = 0x02 → f.off < 0x1000 → u.get f p = s.get f p := fun f hty ho =>
    State.get_of_find s u f p (hfind _ (by rw [Field.key, hty]; exact regKey_ne_of_ty_lt 0x02 3 p _ f.off 0x05C (by decide) (by omega) ho))
  have hpctl : v.pctl = u.pctl := by rw [hshow]
  have harray : v.arrayLink = u.arrayLink := by rw [hshow]
  refine ⟨_, hexec, ?_, ?_, ?_, ?_, ?_, ?_, ?_, ?_, fun q hq => ?_, fun j hj => ?_, fun k hk => ?_⟩
  · rw [State.withPins_ctl, State.ctl, hpctl, ← State.ctl, hctl, State.setCtl_same]
  · rw [State.withPins_link, State.link, harray, ← State.link, hlink]
  · rw [State.withPins_flag, hgor]
  · rw [State.withPins_get, htally]
  · rw [State.withPins_get, hseq, hget R.PCTL_RED_LAST_SEQ rfl (by decide)]
    rfl
  · rw [State.withPins_get, hcount, hget R.PCTL_RED_COUNT rfl (by decide)]
  · have hkeep : v.getReg 3 (s.paneSash p) 0x05C = u.getReg 3 (s.paneSash p) 0x05C := State.getReg_of_find _ _ _ _ _
      (hfind' _ (regKey_ne_of_ty_lt 0x02 3 p _ 0x248 0x05C (by decide) (by omega) (by decide)).symm
        (regKey_ne_of_ty_lt 0x02 3 p _ 0x24C 0x05C (by decide) (by omega) (by decide)).symm)
    rw [State.withPins_getReg, hkeep, hirq]
  · rw [hshow, htell]
    rfl
  · rw [State.withPins_ctl, State.ctl, hpctl, ← State.ctl, hctl, State.setCtl_other _ _ _ _ hq]
  · rw [State.withPins_link, State.link, harray, ← State.link, hlink' j hj]
  · simp only [List.mem_cons, List.not_mem_nil, or_false, not_or] at hk
    rw [State.withPins_regs, hfind' k hk.1 hk.2.1, hfind k hk.2.2]

end Sys2Proof.Machine
end

section
/-!
PROOFS. The start of a task (R87, R104, R136, R266).
-/

namespace Sys2Proof.Machine

/-! ### The first cycles in a pane -/

/-- The device without what the start of a task touches. -/
def State.sansStart (s : State) : State := { s with panes := [], pctl := [], arrayLink := [], regs := [] }

theorem State.eq_of_sansStart {s t : State} (h : t.sansStart = s.sansStart) :
    t = { s with panes := t.panes, pctl := t.pctl, arrayLink := t.arrayLink, regs := t.regs } :=
  congrArg (fun v : State => { v with panes := t.panes, pctl := t.pctl, arrayLink := t.arrayLink, regs := t.regs }) h

theorem State.sansStart_put (s : State) (f : Field) (n v : Nat) : (s.put f n v).sansStart = s.sansStart := by
  simp only [State.sansStart, State.put, State.setReg]

theorem State.sansStart_setPane (s : State) (q : Nat) (x : Pane) : (s.setPane q x).sansStart = s.sansStart := by
  simp only [State.sansStart, State.setPane]

theorem State.sansStart_setCtl (s : State) (q : Nat) (x : PaneCtl) : (s.setCtl q x).sansStart = s.sansStart := by
  simp only [State.sansStart, State.setCtl]

theorem State.sansStart_setLink (s : State) (k : Nat) (x : ArrayLink) : (s.setLink k x).sansStart = s.sansStart := by
  simp only [State.sansStart, State.setLink]

/-- A count in the hampers of a pane writes its controller's hidden state, or nothing. -/
theorem hampCount_eq (p k n : Nat) (s : State) : ∃ x, hampCount p k n s = s.setCtl p x ∨ hampCount p k n s = s := by
  by_cases hfrozen : (s.ctl p).hampFrozen = true
  · exact ⟨s.ctl p, .inr (if_pos hfrozen)⟩
  · exact ⟨_, .inl (if_neg hfrozen)⟩

/-- What no count in the hampers of a pane touches. -/
theorem hampCount_keeps {β : Type} (rd : State → β) (p : Nat) (hset : ∀ t x, rd (State.setCtl t p x) = rd t) (k n : Nat) (s : State) :
    rd (hampCount p k n s) = rd s := by
  obtain ⟨x, h | h⟩ := hampCount_eq p k n s
  · rw [h, hset]
  · rw [h]

/-- What neither a pane's hidden state nor its PEs are read for, flushed hampers leave. -/
theorem flushHampers_keeps {β : Type} (rd : State → β) (p : Nat) (hset : ∀ t x, rd (State.setCtl t p x) = rd t)
    (hpane : ∀ t x, rd (State.setPane t p x) = rd t) (s : State) : rd (flushHampers p s) = rd s := by
  rw [flushHampers, hpane, hampCount_keeps rd p hset, hampCount_keeps rd p hset]

/-- The PEs of a pane at the start of a task. -/
def Pane.started (x : Pane) : Pane :=
  { x with x := 0, y := 0, c := 0, f := 0, k := BitVec.allOnes 65536, inb := [], outb := [], inOcc := [], outOcc := [] }

theorem taskStartPane_keeps {β : Type} (rd : State → β) (p tsn : Nat) (hset : ∀ t x, rd (State.setCtl t p x) = rd t)
    (hpane : ∀ t x, rd (State.setPane t p x) = rd t) (s : State) : rd (taskStartPane p tsn s) = rd s := by
  rw [taskStartPane, hpane, hset, flushHampers_keeps rd p hset hpane]

theorem taskStartPane_pane (p tsn : Nat) (s : State) : (taskStartPane p tsn s).pane p = (s.pane p).started := by
  rw [taskStartPane, State.setPane_same, State.setCtl_pane, flushHampers, State.setPane_same]
  rfl

theorem taskStartPane_tsn (p tsn : Nat) (s : State) : ((taskStartPane p tsn s).ctl p).tsn = tsn := by
  rw [taskStartPane, State.setPane_ctl, State.setCtl_same]

/-- A task starts in a pane, and its controller shows it. -/
def startPane (tsn k : Nat) (d : TaskDef) (t : State) (q : Nat) : State :=
  (((taskStartPane q tsn t).put R.PCTL_TASK_ENTRY q k).put R.PCTL_TASK_TASK_ID q d.id).put R.PCTL_TASK_BUDGET_CYCLES q d.budget

theorem startPane_sansStart (tsn k : Nat) (d : TaskDef) (t : State) (q : Nat) : (startPane tsn k d t q).sansStart = t.sansStart := by
  rw [startPane, State.sansStart_put, State.sansStart_put, State.sansStart_put]
  exact taskStartPane_keeps State.sansStart q tsn (fun t x => State.sansStart_setCtl t q x) (fun t x => State.sansStart_setPane t q x) t

theorem startPane_sameGangs (tsn k : Nat) (d : TaskDef) (t : State) (q : Nat) : SameGangs t (startPane tsn k d t q) := by
  have hregs : (taskStartPane q tsn t).regs = t.regs :=
    taskStartPane_keeps State.regs q tsn (fun t x => State.setCtl_regs t q x) (fun t x => State.setPane_regs t q x) t
  exact (((SameGangs.of_regs hregs).trans (SameGangs.put _ R.PCTL_TASK_ENTRY q k (by decide) (by decide) (by decide))).trans
    (SameGangs.put _ R.PCTL_TASK_TASK_ID q d.id (by decide) (by decide) (by decide))).trans
    (SameGangs.put _ R.PCTL_TASK_BUDGET_CYCLES q d.budget (by decide) (by decide) (by decide))

/-- The start of a task in a pane leaves the other controllers and the other panes' PEs. -/
theorem startPane_other (tsn k : Nat) (d : TaskDef) (t : State) (q j : Nat) (h : j ≠ q) :
    (startPane tsn k d t q).controller j = t.controller j ∧ (startPane tsn k d t q).pane j = t.pane j := by
  constructor
  · rw [startPane, controller_put_pctl _ R.PCTL_TASK_BUDGET_CYCLES q j _ rfl (by decide) h,
      controller_put_pctl _ R.PCTL_TASK_TASK_ID q j _ rfl (by decide) h, controller_put_pctl _ R.PCTL_TASK_ENTRY q j _ rfl (by decide) h]
    exact taskStartPane_keeps (fun t => t.controller j) q tsn (fun t x => controller_setCtl_other t q j x h)
      (fun t x => controller_of_regs j (State.setPane_ctl t q x j) (State.setPane_regs t q x)) t
  · rw [startPane, State.put_pane, State.put_pane, State.put_pane]
    exact taskStartPane_keeps (fun t => t.pane j) q tsn (fun t x => State.setCtl_pane t q x j) (fun t x => State.setPane_other t q x j h) t

/-- What a pane and its controller show of the task that starts. -/
theorem startPane_shows (tsn k : Nat) (d : TaskDef) (t : State) (q : Nat) :
    (startPane tsn k d t q).get R.PCTL_TASK_TASK_ID q = d.id % 2 ^ 16 ∧ ((startPane tsn k d t q).ctl q).tsn = tsn ∧
      (startPane tsn k d t q).get R.PCTL_TASK_ENTRY q = k % 2 ^ 10 ∧ (startPane tsn k d t q).get R.PCTL_TASK_BUDGET_CYCLES q = d.budget % 2 ^ 25 ∧
      (startPane tsn k d t q).pane q = (t.pane q).started := by
  refine ⟨?_, ?_, ?_, ?_, ?_⟩
  · rw [startPane, State.get_put_off _ R.PCTL_TASK_BUDGET_CYCLES R.PCTL_TASK_TASK_ID _ _ rfl (by decide), State.get_put _ _ _ _ (by decide)]
  · rw [startPane, State.put_ctl, State.put_ctl, State.put_ctl, taskStartPane_tsn]
  · rw [startPane, State.get_put_off _ R.PCTL_TASK_BUDGET_CYCLES R.PCTL_TASK_ENTRY _ _ rfl (by decide),
      State.get_put_disjoint _ R.PCTL_TASK_TASK_ID R.PCTL_TASK_ENTRY _ _ rfl rfl (by decide) (by decide), State.get_put _ _ _ _ (by decide)]
  · rw [startPane, State.get_put _ _ _ _ (by decide)]
  · rw [startPane, State.put_pane, State.put_pane, State.put_pane, taskStartPane_pane]

/-- The start of a task in every pane of a gang. -/
theorem startPanes (tsn k : Nat) (d : TaskDef) (gang : List Nat) (hl : gang.Nodup) (s : State) :
    let u := gang.foldl (startPane tsn k d) s
    u.sansStart = s.sansStart ∧ SameGangs s u ∧ ∀ q ∈ gang, u.get R.PCTL_TASK_TASK_ID q = d.id % 2 ^ 16 ∧ (u.ctl q).tsn = tsn ∧
      u.get R.PCTL_TASK_ENTRY q = k % 2 ^ 10 ∧ u.get R.PCTL_TASK_BUDGET_CYCLES q = d.budget % 2 ^ 25 ∧ u.pane q = (s.pane q).started := by
  refine ⟨foldl_keeps State.sansStart (startPane tsn k d) gang (fun t q _ => startPane_sansStart tsn k d t q) s,
    SameGangs.foldl (startPane tsn k d) gang (fun t q => startPane_sameGangs tsn k d t q) s, fun q hq => ?_⟩
  obtain ⟨t, ht, hat⟩ := foldl_at (fun t => (t.controller q, t.pane q)) (startPane tsn k d) gang hl q hq
    (fun t j _ hj => Prod.ext (startPane_other tsn k d t j q hj.symm).1 (startPane_other tsn k d t j q hj.symm).2) s
  obtain ⟨hctl, hpane⟩ := Prod.mk.inj hat
  obtain ⟨hid, htsn, hentry, hbudget, hstarted⟩ := startPane_shows tsn k d t q
  refine ⟨?_, ?_, ?_, ?_, ?_⟩
  · rw [controller_get hctl R.PCTL_TASK_TASK_ID rfl (by decide), hid]
  · rw [controller_ctl hctl, htsn]
  · rw [controller_get hctl R.PCTL_TASK_ENTRY rfl (by decide), hentry]
  · rw [controller_get hctl R.PCTL_TASK_BUDGET_CYCLES rfl (by decide), hbudget]
  · rw [hpane, hstarted, (Prod.mk.inj ht).2]

/-! ### What the engines learn -/

/-- An engine learns of the task that starts (R266). -/
def tellStart (tsn id : Nat) (t : State) (e : Nat × Nat) : State :=
  setIrq e.1 e.2 0 (((t.put (R.ENG_TASK_TSN.on e.1) e.2 tsn).put (R.ENG_TASK_TASK_ID.on e.1) e.2 id).setLink (engKey e.1 e.2)
    { t.link (engKey e.1 e.2) with g := false, tally := 0, rcnt := 0 })

theorem tellStart_sansStart (tsn id : Nat) (t : State) (e : Nat × Nat) : (tellStart tsn id t e).sansStart = t.sansStart := by
  rw [tellStart, setIrq, State.sansStart_put, State.sansStart_setLink, State.sansStart_put, State.sansStart_put]

theorem tellStart_sameGangs (tsn id : Nat) (t : State) (e : Nat × Nat) : SameGangs t (tellStart tsn id t e) := by
  have hput : ∀ (u : State) (f : Field) (n v : Nat), f.off = 0x058 ∨ f.off = 0x05C → SameGangs u (u.put f n v) := fun u f n v h => by
    rcases h with h | h <;> exact SameGangs.put u f n v (h ▸ by decide) (h ▸ by decide) (h ▸ by decide)
  exact (((hput t (R.ENG_TASK_TSN.on e.1) e.2 tsn (.inl rfl)).trans (hput _ (R.ENG_TASK_TASK_ID.on e.1) e.2 id (.inl rfl))).trans
    (SameGangs.of_regs (State.setLink_regs _ _ _))).trans (hput _ ⟨e.1, 0x05C, 4, 0, 1⟩ e.2 1 (.inr rfl))

theorem tellStart_controller (tsn id : Nat) (t : State) (e : Nat × Nat) (j : Nat) (he : 0x02 < e.1) (hj : j < 256) :
    (tellStart tsn id t e).controller j = t.controller j := by
  rw [tellStart, setIrq, controller_put_engine _ ⟨e.1, 0x05C, 4, 0, 1⟩ e.2 j 1 he hj,
    controller_of_regs j (State.setLink_ctl _ _ _ j) (State.setLink_regs _ _ _),
    controller_put_engine _ (R.ENG_TASK_TASK_ID.on e.1) e.2 j id he hj, controller_put_engine _ (R.ENG_TASK_TSN.on e.1) e.2 j tsn he hj]

theorem tellStart_pane (tsn id : Nat) (t : State) (e : Nat × Nat) (j : Nat) : (tellStart tsn id t e).pane j = t.pane j := by
  rw [tellStart, setIrq, State.put_pane, State.setLink_pane, State.put_pane, State.put_pane]

/-- The TASK register of an engine shows a TSN and a task. -/
def State.engineShows (t : State) (tsn id : Nat) (e : Nat × Nat) : Prop :=
  t.get (R.ENG_TASK_TSN.on e.1) e.2 = tsn % 2 ^ 8 ∧ t.get (R.ENG_TASK_TASK_ID.on e.1) e.2 = id % 2 ^ 16

theorem State.engineShows_of_getReg {t u : State} {tsn id : Nat} {e : Nat × Nat} (h : u.getReg e.1 e.2 0x058 = t.getReg e.1 e.2 0x058)
    (ht : t.engineShows tsn id e) : u.engineShows tsn id e :=
  ⟨(congrArg (fun w : Word => bitsAt w.toNat 16 8) h).trans ht.1, (congrArg (fun w : Word => bitsAt w.toNat 0 16) h).trans ht.2⟩

theorem tellStart_shows (tsn id : Nat) (t : State) (e : Nat × Nat) : (tellStart tsn id t e).engineShows tsn id e := by
  refine State.engineShows_of_getReg (State.getReg_put_off _ ⟨e.1, 0x05C, 4, 0, 1⟩ e.1 e.2 1 0x058 rfl (show (0x058 : Nat) ≠ 0x05C by decide)) ⟨?_, ?_⟩
  · rw [State.setLink_get]
    exact (State.get_put_disjoint _ (R.ENG_TASK_TASK_ID.on e.1) (R.ENG_TASK_TSN.on e.1) e.2 id rfl rfl
      (show 0 + 16 ≤ 32 by decide) (.inr (show 0 + 16 ≤ 16 by decide))).trans
      (State.get_put t (R.ENG_TASK_TSN.on e.1) e.2 tsn (show 16 + 8 ≤ 32 by decide))
  · rw [State.setLink_get]
    exact State.get_put _ (R.ENG_TASK_TASK_ID.on e.1) e.2 id (show 0 + 16 ≤ 32 by decide)

/-- Another engine's TASK register stays. -/
theorem tellStart_other (tsn id : Nat) (t : State) (e e' : Nat × Nat) (h : e ≠ e') (he : e.2 < 256) (he' : e'.2 < 256) :
    (tellStart tsn id t e').getReg e.1 e.2 0x058 = t.getReg e.1 e.2 0x058 := by
  have hkey : regKey e.1 e.2 0x058 ≠ regKey e'.1 e'.2 0x058 := fun hk => by
    unfold regKey at hk
    exact h (Prod.ext (by omega) (by omega))
  refine State.getReg_of_find _ _ _ _ _ ?_
  rw [tellStart, setIrq, State.put_find _ ⟨e'.1, 0x05C, 4, 0, 1⟩ _ _ _ (regKey_ne_of_off_ne _ _ _ _ 0x058 0x05C (by decide) (by decide) (by decide)),
    State.setLink_regs, State.put_find _ (R.ENG_TASK_TASK_ID.on e'.1) _ _ _ hkey, State.put_find _ (R.ENG_TASK_TSN.on e'.1) _ _ _ hkey]

theorem foldl_tellStart_shows (tsn id : Nat) (es : List (Nat × Nat)) (hes : ∀ e ∈ es, e.2 < 256) (s : State) (e : Nat × Nat) (he : e ∈ es) :
    (es.foldl (tellStart tsn id) s).engineShows tsn id e := by
  refine foldl_sets (fun t => t.engineShows tsn id e) (tellStart tsn id) es e he (fun t => tellStart_shows tsn id t e) (fun t e' he' ht => ?_) s
  by_cases heq : e = e'
  · exact heq ▸ tellStart_shows tsn id t e
  · exact State.engineShows_of_getReg (tellStart_other tsn id t e e' heq (hes e he) (hes e' he')) ht

/-- The engines of the panes of a gang. -/
def State.gangEngines (s : State) (p : Nat) : List (Nat × Nat) := (s.paneGang p).flatMap s.paneEngines

/-- Two folds agree whose steps agree wherever what the steps keep holds. -/
theorem foldl_congr_of {α : Type} (I : State → Prop) (F G : State → α → State) (l : List α) (hI : ∀ t a, I t → I (F t a))
    (hFG : ∀ t a, I t → F t a = G t a) (s : State) (hs : I s) : l.foldl F s = l.foldl G s := by
  induction l generalizing s with
  | nil => rfl
  | cons a l ih =>
    rw [List.foldl_cons, List.foldl_cons, ← hFG s a hs]
    exact ih _ (hI s a hs)

theorem taskStartEngines_eq (p tsn id : Nat) (s : State) : taskStartEngines p tsn id s = (s.gangEngines p).foldl (tellStart tsn id) s := by
  rw [State.gangEngines, List.foldl_flatMap]
  refine foldl_congr_of (SameGangs s) (fun t q => (t.paneEngines q).foldl (tellStart tsn id) t) _ _ (fun t q ht => ?_) (fun t q ht => ?_) s
    (SameGangs.of_regs rfl)
  · exact ht.trans (SameGangs.foldl (tellStart tsn id) _ (fun t e => tellStart_sameGangs tsn id t e) t)
  · show (t.paneEngines q).foldl _ t = _
    rw [ht.paneEngines]

theorem State.paneSash_lt (s : State) (q : Nat) (hq : q < 31) : s.paneSash q < 256 := by
  have hlt : s.get R.SASH_XBAR_SPARE q < 2 ^ R.SASH_XBAR_SPARE.w := State.get_lt s R.SASH_XBAR_SPARE q
  have hw : 2 ^ R.SASH_XBAR_SPARE.w ≤ 128 := by decide
  rw [State.paneSash, State.paneSpare]
  split
  · next k hk =>
    split at hk
    · cases hk
      omega
    · cases hk
  · omega

theorem State.gangEngines_bounds (s : State) (p : Nat) (hp : p < 16) (e : Nat × Nat) (he : e ∈ s.gangEngines p) : 0x02 < e.1 ∧ e.2 < 256 := by
  obtain ⟨q, hq, he⟩ := List.mem_flatMap.1 he
  have hlt := s.paneGang_lt p q hp hq
  refine ⟨paneEngines_ty s q e he, ?_⟩
  rcases List.mem_cons.1 he with rfl | he
  · exact s.paneSash_lt q hlt
  · obtain ⟨n, hn, rfl⟩ := List.mem_map.1 he
    obtain ⟨k, hk, rfl⟩ := List.mem_map.1 hn
    have hk := List.mem_range.1 hk
    exact show 8 * q + k < 256 by omega

/-- What the engines of a gang learn of the task that starts. -/
theorem startEngines (p tsn id : Nat) (s : State) (hp : p < 16) :
    let u := taskStartEngines p tsn id s
    u.sansStart = s.sansStart ∧ (∀ j, j < 256 → u.controller j = s.controller j) ∧ (∀ j, u.pane j = s.pane j) ∧
      ∀ e ∈ s.gangEngines p, u.engineShows tsn id e := by
  have hes := s.gangEngines_bounds p hp
  rw [taskStartEngines_eq]
  refine ⟨?_, fun j hj => ?_, fun j => ?_, fun e he => ?_⟩
  · exact foldl_keeps State.sansStart (tellStart tsn id) _ (fun t e _ => tellStart_sansStart tsn id t e) s
  · exact foldl_keeps (fun t => t.controller j) (tellStart tsn id) _ (fun t e he => tellStart_controller tsn id t e j (hes e he).1 hj) s
  · exact foldl_keeps (fun t => t.pane j) (tellStart tsn id) _ (fun t e _ => tellStart_pane tsn id t e j) s
  · exact foldl_tellStart_shows tsn id _ (fun e he => (hes e he).2) s e he

/-! ### TASK_START of an entry whose task is not skipped -/

/-- The next sequence number of a gang's tasks (R266). -/
def State.nextTsn (s : State) (p : Nat) : Nat := (s.gangTsn p + 1) % 256

theorem startNext_starts (p k : Nat) (rest : List Nat) (d : TaskDef) (s : State) (hentry : s.entryTask k = some d)
    (hkept : d.depends ∉ (s.run p).lost) :
    startNext p (k :: rest) s =
      (taskStartEngines p (s.nextTsn p) d.id ((s.paneGang p).foldl (startPane (s.nextTsn p) k d) (s.setRun p { s.run p with left := rest }))).put
        R.PCTL_RED_LAST_SEQ p 0 := by
  have hnot : (s.run p).lost.contains d.depends = false := Bool.eq_false_iff.2 fun h => hkept (List.contains_iff_mem.1 h)
  have hgang : (s.setRun p { s.run p with left := rest }).paneGang p = s.paneGang p := (SameGangs.of_regs (State.setRun_regs _ _ _)).paneGang p
  simp only [startNext, hentry, hnot, Bool.false_eq_true, if_false, hgang]
  rfl

/-- Clearing a result's sequence number leaves a controller's registers at other offsets. -/
theorem getReg_put_seq (s : State) (p ty q off : Nat) (ho : off < 0x1000) (h : off ≠ 0x248) :
    (s.put R.PCTL_RED_LAST_SEQ p 0).getReg ty q off = s.getReg ty q off :=
  State.getReg_of_find _ _ _ _ _ (State.put_find _ R.PCTL_RED_LAST_SEQ _ _ _ (regKey_ne_of_off_ne ty 0x02 q p off 0x248 h ho (by decide)))

theorem task_started (p k : Nat) (rest : List Nat) (d : TaskDef) (s : State) (hp : p < 16) (hstart : taskStart p s = startNext p (s.run p).left s)
    (hleft : (s.run p).left = k :: rest) (hentry : s.entryTask k = some d) (hkept : d.depends ∉ (s.run p).lost) :
    ∃ t, exec (.taskStart p) s = .next t ∧ t.run p = { s.run p with left := rest } ∧
      (∀ q ∈ s.paneGang p, t.get R.PCTL_TASK_TASK_ID q = d.id % 2 ^ 16 ∧ (t.ctl q).tsn = s.nextTsn p ∧ t.get R.PCTL_TASK_ENTRY q = k % 2 ^ 10 ∧
        t.get R.PCTL_TASK_BUDGET_CYCLES q = d.budget % 2 ^ 25 ∧ t.pane q = (s.pane q).started) ∧
      (∀ e ∈ s.gangEngines p, t.engineShows (s.nextTsn p) d.id e) ∧
      t = { s with gangs := t.gangs, panes := t.panes, pctl := t.pctl, arrayLink := t.arrayLink, regs := t.regs, pins := t.pins } := by
  have hdone := exec_taskStart p s hp
  rw [hstart, hleft, startNext_starts p k rest d s hentry hkept] at hdone
  obtain ⟨hsans, hgangs, hshows⟩ := startPanes (s.nextTsn p) k d (s.paneGang p) (s.paneGang_nodup p) (s.setRun p { s.run p with left := rest })
  generalize List.foldl _ _ _ = u at hdone hsans hgangs hshows
  obtain ⟨hsans', hctl, hpane, hengines⟩ := startEngines p (s.nextTsn p) d.id u hp
  generalize taskStartEngines p _ _ u = v at hdone hsans' hctl hpane hengines
  have hframe := State.eq_of_sansStart ((State.sansStart_put v R.PCTL_RED_LAST_SEQ p 0).trans (hsans'.trans hsans))
  have hread := getReg_put_seq v p
  have hctl' : (v.put R.PCTL_RED_LAST_SEQ p 0).ctl = v.ctl := funext fun j => State.put_ctl v _ p 0 j
  have hpane' : (v.put R.PCTL_RED_LAST_SEQ p 0).pane = v.pane := funext fun j => State.put_pane v _ p 0 j
  obtain ⟨pins, hexec⟩ := next_of_done hdone
  generalize v.put R.PCTL_RED_LAST_SEQ p 0 = w at hexec hframe hread hctl' hpane'
  have hgangs' : SameGangs s u := (SameGangs.of_regs (State.setRun_regs _ _ _)).trans hgangs
  have hlist : u.gangEngines p = s.gangEngines p := by
    rw [State.gangEngines, State.gangEngines, hgangs'.paneGang p, funext hgangs'.paneEngines]
  refine ⟨_, hexec, ?_, fun q hq => ?_, fun e he => ?_, ?_⟩
  · have hrun : w.gangs = (s.setRun p { s.run p with left := rest }).gangs := by rw [hframe]
    rw [State.withPins_run, State.run, hrun, ← State.run, State.setRun_same]
  · obtain ⟨hid, htsn, hk, hbudget, hstarted⟩ := hshows q hq
    have hq256 : q < 256 := (s.paneGang_lt p q hp hq).trans (by decide)
    have hget : ∀ f : Field, f.ty = 0x02 → f.off < 0x1000 → f.off ≠ 0x248 → (w.withPins pins).get f q = u.get f q := fun f hty ho h => by
      rw [State.withPins_get, State.get, hread f.ty q f.off ho h, ← State.get, controller_get (hctl q hq256) f hty ho]
    refine ⟨?_, ?_, ?_, ?_, ?_⟩
    · rw [hget R.PCTL_TASK_TASK_ID rfl (by decide) (by decide), hid]
    · rw [State.withPins_ctl, hctl', controller_ctl (hctl q hq256), htsn]
    · rw [hget R.PCTL_TASK_ENTRY rfl (by decide) (by decide), hk]
    · rw [hget R.PCTL_TASK_BUDGET_CYCLES rfl (by decide) (by decide), hbudget]
    · rw [State.withPins_pane, hpane', hpane q, hstarted, State.setRun_pane]
  · refine State.engineShows_of_getReg ?_ (hengines e (hlist ▸ he))
    rw [State.withPins_getReg, hread e.1 e.2 0x058 (by decide) (by decide)]
  · rw [hframe]
    rfl

end Sys2Proof.Machine
end

section
/-!
PROOFS. The queues, dispatch, cost and tasks of a gang (O52).
-/

namespace Sys2Proof.Machine

/-- A listed, well-formed macroop at the head of a queue is no fault. -/
theorem PaneCtl.headBad_eq_false (c : PaneCtl) (m : BitVec 64) (hhead : c.queue.head? = some m) (hres : mopReserved m = 0)
    (hlist : opEntryAddr (c.entry m) ≠ 0 ∧ opEntryWmin (c.entry m) ≤ mopWidth m ∧ mopWidth m ≤ opEntryWmax (c.entry m)) : c.headBad = false := by
  obtain ⟨haddr, hmin, hmax⟩ := hlist
  rw [headBad_eq c m hhead, listed, bne_iff_ne.2 haddr, decide_eq_true hmin, decide_eq_true hmax, hres]
  rfl

/-- A macroop with a reserved bit set, or whose entry has no microprogram, is a fault at the head of a queue (R160). -/
theorem PaneCtl.headBad_eq_true (c : PaneCtl) (m : BitVec 64) (hhead : c.queue.head? = some m)
    (hbad : mopReserved m ≠ 0 ∨ opEntryAddr (c.entry m) = 0) : c.headBad = true := by
  rw [headBad_eq c m hhead]
  rcases hbad with hres | haddr
  · rw [bne_iff_ne.2 hres, Bool.or_true]
  · simp only [listed, haddr, bne_self_eq_false, Bool.false_and, Bool.not_false, Bool.true_or]

theorem unlistedFault_eq (m : BitVec 64) : unlistedFault m = word (2 ^ 30 + mopOp m * 2 ^ 12) := by
  rw [unlistedFault, Nat.one_mul, Nat.add_zero]

/-- Settles O52: each clause is a lemma of its command; what follows a cycle leaves the controllers as the command has left them, because in
a quiet gang no macroop at its end has a result. -/
theorem paneControllers : Obligations.PaneControllers := by
  unfold Obligations.PaneControllers
  refine ⟨fun p tsn m rest s hp hflight hon hinit => ⟨?_, ?_⟩, fun p m s hp hin hend hquiet hhead => ?_, fun p s hp hin hquiet hdisp => ⟨?_, ?_⟩,
    fun p k rest d s hp hgang hbase hnone hwindow hin hon hinit hpanes hrun hentry => ?_, fun p s hp hin htask hon => ⟨?_, ?_⟩, ?_, ?_⟩
  · exact macro_enqueued p tsn m rest s hp hflight hon hinit
  · exact macro_discarded p tsn m rest s hp hflight hon hinit
  · have hmops : ∀ q ∈ s.paneGang p, (s.ctl q).queue.head? = some m := fun q hq => (hhead q hq).2.2
    refine ⟨fun hlist hres => ⟨fun hlo hhi hcost => ?_, fun hlo => ?_, fun hhi => ?_⟩, fun hbase htask hbad => ?_⟩
    · have hgood := fun q hq => (s.ctl q).headBad_eq_false m (hmops q hq) hres (hlist q hq)
      obtain ⟨t, hexec, hframe, hctl, hout⟩ := macro_dispatched p m s hp hin hend hquiet hhead hgood hlo hhi hcost
      exact ⟨t, hexec, hframe, fun q hq => (hctl q hq).trans ((s.ctl q).dispatched_taken m _ hlo hhi (hcost q hq)), hout⟩
    · exact setc_dispatched (.setcLo p) false p m s (exec_setcLo p m s hp (hmops p hin) hlo) hin hquiet hhead
        (fun q hq => (s.ctl q).headBad_eq_false m (hmops q hq) hres (hlist q hq)) hlo
    · exact setc_dispatched (.setcHi p) true p m s (exec_setcHi p m s hp (hmops p hin) hhi) hin hquiet hhead
        (fun q hq => (s.ctl q).headBad_eq_false m (hmops q hq) hres (hlist q hq)) hhi
    · have hfault := macro_unlisted p m s hp hin hend hquiet hhead
        (fun q hq => (s.ctl q).headBad_eq_true m (hmops q hq) (hbad.imp_right fun haddr => haddr q hq)) hbase htask
      rwa [unlistedFault_eq] at hfault
  · exact padding_ends p s hp hin hquiet hdisp
  · exact microprograms_abandoned p s hp hin hquiet hdisp
  · have hleft : (s.run p).left = k :: rest := congrArg GangRun.left hrun
    have hstart := taskStart_next p s hgang hbase hnone hwindow hon hinit hpanes (congrArg GangRun.stopped hrun)
    refine ⟨fun hkept => ?_, fun hlost hlast => ?_⟩
    · obtain ⟨t, hexec, hleft', hshows, hengines, hframe⟩ := task_started p k rest d s hp hstart hleft hentry hkept
      refine ⟨t, hexec, hleft', hshows, fun q hq e he => ?_, hframe⟩
      obtain ⟨htsn, hid⟩ := hengines e (List.mem_flatMap.2 ⟨q, hq, he⟩)
      exact ⟨htsn.trans (Nat.mod_mod _ _), hid⟩
    · exact task_skipped p k d s hp hstart (hlast ▸ hrun) hentry hlost
  · exact task_ended p s hp htask hon
  · exact task_not_ended p s hp hin
  · exact fun p s hp hin hbase htask hquiet hhalt hseq => task_cut_off p s hp hin hbase htask hquiet hhalt hseq
  · exact fun p n g rest s hp hon hresults => result_delivered p n g rest s hp hon hresults

end Sys2Proof.Machine
end

section
/-!
PROOFS. The initialisation of a pane whose domain is not ON (O53).
-/

namespace Sys2Proof.Machine

theorem exec_paneInitDone (p : Nat) (s : State) (hp : p < 16) : exec (.paneInitDone p) s = done (paneInitDone p s) := need_of hp _

/-- An initialisation gets no further while the domain of its pane is not ON (R35, R105). -/
theorem paneInitDone_of_not_domainOn (p : Nat) (s : State) (h : s.domainOn (14 + p) = false) : paneInitDone p s = s :=
  if_neg fun ⟨_, hon⟩ => Bool.false_ne_true (h.symm.trans hon)

theorem pane_of_paneInitDone_not_domainOn (p : Nat) (s t : State) (hp : p < 16) (h : s.domainOn (14 + p) = false)
    (hrun : exec (.paneInitDone p) s = .next t) : t.pane p = s.pane p := by
  rw [exec_paneInitDone p s hp, paneInitDone_of_not_domainOn p s h] at hrun
  rw [done_next s t hrun]
  rfl

/-- Transitions of power domains that end one after the other: domain and state reached (R473). -/
def reachStates (ms : List (Nat × Nat)) (s : State) : State := ms.foldl (fun t m => reachState m.1 m.2 t) s

/-- PD_PANE_3 has come up from OFF under PD_BLINTEL and PD_NOC, and has gone to IDLE before the initialisation of its pane ended: the transition
takes at most 1 µs, the initialisation 3.2 µs (R105, Table 19-2). -/
def initialisingInIdle : State := reachStates [(8, psOn), (9, psOn), (17, psOn), (17, psIdle)] State.reset

theorem initialisingInIdle_domain : initialisingInIdle.domain 17 = psIdle := by decide +kernel

theorem initialisingInIdle_initRunning : (initialisingInIdle.pane 3).initRunning = true := by decide +kernel

/-- Refutes O53: its clause on PANE_INIT_DONE has the initialisation end in whatever state the pane's domain is; in IDLE the pane's clock stands
still, and it goes on (R35). -/
theorem not_processingElements : ¬ Obligations.ProcessingElements := by
  unfold Obligations.ProcessingElements
  rintro ⟨-, -, hinit, -⟩
  obtain ⟨t, hrun, hended, -⟩ := hinit 3 initialisingInIdle (by decide) initialisingInIdle_initRunning
  have hoff : initialisingInIdle.domainOn (14 + 3) = false := by
    rw [State.domainOn, initialisingInIdle_domain]
    decide
  have hkept := pane_of_paneInitDone_not_domainOn 3 initialisingInIdle t (by decide) hoff hrun
  have hstill : (t.pane 3).initRunning = true := by rw [hkept, initialisingInIdle_initRunning]
  rw [hended] at hstill
  exact Bool.false_ne_true hstill

end Sys2Proof.Machine
end

section
/-!
PROOFS. The SEQ microword in a gang whose panes name different bases (O51).
-/

namespace Sys2Proof.Machine

/-! ### A pane that misses the edge at which its gang is formed -/

/-- Gangs as the array-side edge forms them for a variant with one task, on the gang of a size code and a base (R115). -/
def formOnly (size base : Nat) (s : State) : State :=
  (List.range 16).foldl (formGang ⟨7, 0, 0, [], [], [], [⟨0xFF, [⟨size, base, 0⟩], none, none, 0, 0⟩]⟩ 0) s

/-- Panes 0 and 1 ON and initialised. -/
def twoPanesUp : State := paneInitDone 1 (paneInitDone 0 (reachStates [(8, psOn), (9, psOn), (14, psOn), (15, psOn)] State.reset))

/-- Pane 1 was a gang of its own. PD_PANE_1 is in RETAIN at the edge that makes panes 0 and 1 a gang, so that edge does not write pane 1's page. ON
again, the page still shows the old gang, and its controller is in RUN. What a pane loses in RETAIN, the registers of its PEs and the bits
in its hampers (R104), has no part in this and is left out. -/
def edgeMissed : State := setDomainState 15 psOn (formOnly 1 0 (setDomainState 15 psRetain (formOnly 0 1 twoPanesUp)))

/-- A controller at a SEQ microword with COND G and NEXT 0x008 (Table 07-8), with cycles left. -/
def atSeqOnG : PaneCtl := { PaneCtl.idle with larder := [(5, 0x70086000)], upc := 5, dispatch := false, remaining := 9 }

/-- Both controllers of the gang are at that microword. The last result had GOR 1, which the page of the gang's base pane shows (R147). -/
def seqAfterEdgeMissed : State := ((edgeMissed.setCtl 0 atSeqOnG).setCtl 1 atSeqOnG).put R.PCTL_RED_LAST_GOR 0 1

theorem seqAfterEdgeMissed_gang : seqAfterEdgeMissed.paneGang 0 = [0, 1] := by decide +kernel

/-- The two panes' pages name bases whose last results differ: pane 0 the gang's, pane 1 itself. -/
theorem seqAfterEdgeMissed_gors :
    seqAfterEdgeMissed.flag R.PCTL_RED_LAST_GOR (seqAfterEdgeMissed.gangBase 0) = true ∧
      seqAfterEdgeMissed.flag R.PCTL_RED_LAST_GOR (seqAfterEdgeMissed.gangBase 1) = false := by decide +kernel

theorem seqAfterEdgeMissed_ctl (q : Nat) (hq : q ∈ seqAfterEdgeMissed.paneGang 0) : seqAfterEdgeMissed.ctl q = atSeqOnG := by
  revert q
  decide +kernel

theorem seqAfterEdgeMissed_inMicroword : seqAfterEdgeMissed.inMicroword 0 7 := by
  unfold State.inMicroword State.gangQuiet
  decide +kernel

/-! ### Where pane 1's controller goes -/

/-- A controller in the state in which a meaning ends. -/
theorem ctl_of_done {r : Result} {s t : State} (h : r = done s) (hrun : r = .next t) (q : Nat) : t.ctl q = s.ctl q := by
  rw [done_next s t (h ▸ hrun), State.ctl, State.ctl]

theorem exec_microwordSeq (p : Nat) (s : State) (hp : p < 16) : exec (.microwordSeq p) s = done (microAll p 7 s) := need_of hp _

/-- Pane 1's controller takes the GOR of the base that its own page names, 0, for bit 0 of its next address (R163). -/
theorem seqAfterEdgeMissed_upc : ((microAll 0 7 seqAfterEdgeMissed).ctl 1).upc = 0x008 := by decide +kernel

/-- Refutes O51: its SEQ clause has every controller of the gang pick its next address by the GOR in the page of pane p's base, and its hypotheses do
not say that the other panes' pages name that base; the model's controllers go by their own pages. -/
theorem not_microwords : ¬ Obligations.Microwords := by
  unfold Obligations.Microwords
  rintro ⟨-, -, -, -, hplain, -⟩
  obtain ⟨-, -, -, -, hseq, -⟩ := hplain 0 seqAfterEdgeMissed
  obtain ⟨t, hrun, -, hctl, -⟩ := hseq seqAfterEdgeMissed_inMicroword fun q hq => by
    rw [seqAfterEdgeMissed_ctl q hq]
    rfl
  have hmem : 1 ∈ seqAfterEdgeMissed.paneGang 0 := by
    rw [seqAfterEdgeMissed_gang]
    decide
  have hclause : (t.ctl 1).upc = 0x009 := by
    rw [hctl 1 hmem, seqAfterEdgeMissed_ctl 1 hmem, seqAfterEdgeMissed_gors.1]
    decide
  have hmodel : (t.ctl 1).upc = 0x008 := by
    rw [ctl_of_done (exec_microwordSeq 0 _ (by decide)) hrun 1, seqAfterEdgeMissed_upc]
  rw [hclause] at hmodel
  exact absurd hmodel (by decide)

end Sys2Proof.Machine
end

section
/-!
PROOFS. The fields of a syllable's word, and the Casement instructions as issues of their syllables.
-/

namespace Sys2Proof

theorem Syl.cond_lt (y : Syl) (h : y.ok = true) : y.cond < 16 := by
  simp only [Syl.ok, decide_eq_true_eq] at h
  exact h.1

end Sys2Proof

namespace Sys2Proof.Machine

/-! ### Fields of a syllable's word (R182) -/

theorem bit_le_one (b : Bool) : bit b ≤ 1 := by cases b <;> decide

/-- A field below bit 19 of a syllable's word is that field of its operands. -/
theorem bitsAt_sylWord (op lo n : Nat) (y : Syl) (hn : lo + n ≤ 19) : bitsAt (sylWord op y) lo n = bitsAt y.ops lo n := by
  have hword : sylWord op y = 2 ^ 19 * (2 ^ 12 * bit y.stop + 2 ^ 8 * y.cond + 2 * op + bit y.gx) + y.ops := by
    unfold sylWord
    ring
  have hpow : (2 : Nat) ^ 19 = 2 ^ lo * (2 ^ n * 2 ^ (19 - (lo + n))) := by
    rw [← pow_add, ← pow_add]
    congr 1
    omega
  rw [hword, hpow, bitsAt, bitsAt, mul_assoc, Nat.mul_add_div (by positivity), mul_assoc, Nat.mul_add_mod]

theorem sylOp_sylWord (op : Nat) (y : Syl) (h : y.ok = true) (hop : op < 128) : sylOp (sylWord op y) = op := by
  have hops := y.ok_ops h
  have hgx := bit_le_one y.gx
  simp only [sylOp, bitsAt, sylWord]
  omega

theorem sylCond_sylWord (op : Nat) (y : Syl) (h : y.ok = true) (hop : op < 128) : sylCond (sylWord op y) = y.cond := by
  have hops := y.ok_ops h
  have hgx := bit_le_one y.gx
  have hcond := y.cond_lt h
  simp only [sylCond, bitsAt, sylWord]
  omega

theorem bit_beq_one (b : Bool) : (bit b == 1) = b := by cases b <;> rfl

theorem sylStop_sylWord (op : Nat) (y : Syl) (h : y.ok = true) (hop : op < 128) : sylStop (sylWord op y) = y.stop := by
  have hops := y.ok_ops h
  have hgx := bit_le_one y.gx
  have hcond := y.cond_lt h
  have hstop := bit_le_one y.stop
  have hbit : sylWord op y / 2 ^ 31 % 2 = bit y.stop := by
    unfold sylWord
    omega
  rw [sylStop, bitOf, hbit, bit_beq_one]

theorem sylGx_sylWord (op : Nat) (y : Syl) (h : y.ok = true) : sylGx (sylWord op y) = y.gx := by
  have hops := y.ok_ops h
  have hgx := bit_le_one y.gx
  have hbit : sylWord op y / 2 ^ 19 % 2 = bit y.gx := by
    unfold sylWord
    omega
  rw [sylGx, bitOf, hbit, bit_beq_one]

/-- The class of a syllable's opcode. -/
theorem class_sylWord (op : Nat) (y : Syl) (h : y.ok = true) (hop : op < 128) : bitsAt (sylWord op y) 25 2 = op / 32 := by
  have hops := y.ok_ops h
  have hgx := bit_le_one y.gx
  simp only [bitsAt, sylWord]
  omega

/-! ### The Casement instructions -/

/-- What every Casement instruction has in common: an opcode of 7 bits, a syllable whose fields fit when the instruction is well formed, and a meaning
that is the issue of that syllable. -/
theorem syllable_cases (i : Instr) (e : EngineId) (op : Nat) (y : Syl) (s : State) (h : i.syllable = some (e, op, y)) :
    op < 128 ∧ (i.wf = true → y.ok = true) ∧ exec i s = need i.wf (done (issue e op y s)) := by
  cases i <;> simp only [Instr.syllable, Option.some.injEq, Prod.mk.injEq, reduceCtorEq] at h <;> obtain ⟨rfl, rfl, rfl⟩ := h <;>
    exact ⟨by decide, fun hwf => by simp only [Instr.wf, Bool.and_eq_true] at hwf; tauto, rfl⟩

theorem syllable_op_lt (i : Instr) (e : EngineId) (op : Nat) (y : Syl) (h : i.syllable = some (e, op, y)) : op < 128 := by
  obtain ⟨hop, -⟩ := syllable_cases i e op y State.reset h
  exact hop

theorem syllable_ok (i : Instr) (e : EngineId) (op : Nat) (y : Syl) (h : i.syllable = some (e, op, y)) (hwf : i.wf = true) : y.ok = true := by
  obtain ⟨-, hok, -⟩ := syllable_cases i e op y State.reset h
  exact hok hwf

/-- A well-formed Casement instruction is the issue of its syllable. -/
theorem exec_syllable (i : Instr) (e : EngineId) (op : Nat) (y : Syl) (s : State) (h : i.syllable = some (e, op, y)) (hwf : i.wf = true) :
    exec i s = done (issue e op y s) := by
  obtain ⟨-, -, hexec⟩ := syllable_cases i e op y s h
  rw [hexec, hwf, need_true]

end Sys2Proof.Machine
end

section
/-!
PROOFS. From a ready engine to the commit of a bundle, of one syllable or of more (R178, R181).
-/

namespace Sys2Proof.Machine

/-! ### A syllable reaches a ready engine (R178) -/

/-- A syllable whose address can be fetched, from a row that reads clean where it lies in memory, completes the bundle or joins it. -/
theorem pushSyl_fetched (ty n w stamp : Nat) (s : State) (a : Nat)
    (ha : a = ((s.eng (engKey ty n)).pc + 4 * (s.eng (engKey ty n)).bundle.length) % 2 ^ widthOf ty)
    (hfetch : fetchable ty n a = true) (hrow : a + 4 ≤ imemBytes ty → (s.mem (engKey ty n)).decode false (a / 8) = .clean) :
    pushSyl ty n w stamp s =
      if sylStop w ∨ (s.eng (engKey ty n)).bundle.length + 1 = bundleMax ty then runBundle ty n ((s.eng (engKey ty n)).bundle ++ [w]) stamp s
      else s.setEng (engKey ty n) { s.eng (engKey ty n) with bundle := (s.eng (engKey ty n)).bundle ++ [w] } := by
  have hgood : ¬(decide (a + 4 ≤ imemBytes ty) = true ∧ (s.mem (engKey ty n)).bad false [a / 8] = true) := by
    rintro ⟨hin, hbad⟩
    simp [EngMem.bad, hrow (of_decide_eq_true hin)] at hbad
  have hread : (if decide (a + 4 ≤ imemBytes ty) = true then readRow ty n false (a / 8) s else s) = s := by
    split
    · next hin => exact readRow_clean _ _ _ _ _ (hrow (of_decide_eq_true hin))
    · rfl
  unfold pushSyl
  simp only [← ha, hfetch, Bool.not_true, Bool.false_eq_true, false_or, if_neg hgood, hread, List.length_append, List.length_singleton]

/-- The row of a ready engine's PC reads clean where it lies in instruction memory. -/
theorem row_clean_of_ready (s : State) (e : EngineId) (h : Ready s e) (hin : (s.core e).pc % 2 ^ widthOf e.ty + 4 ≤ imemBytes e.ty) :
    (s.mem (engKey e.ty e.num)).decode false ((s.core e).pc % 2 ^ widthOf e.ty / 8) = .clean := by
  have hrow := h.row
  simp only [State.rowClean, Bool.or_eq_true, Bool.not_eq_true', decide_eq_false_iff_not, beq_iff_eq] at hrow
  exact hrow.resolve_left (not_not_intro hin)

theorem SameEngines.mem {s0 s : State} (h : SameEngines s0 s) (k : Nat) : s0.mem k = s.mem k := by
  rw [h.rest]
  rfl

/-- A syllable at a ready engine runs as a bundle by itself when it has its stop bit, and waits for the rest of its bundle when not. -/
theorem issue_ready (e : EngineId) (op : Nat) (y : Syl) (s : State) (h : Ready s e) :
    ∃ s0, SameEngines s0 s ∧ issue e op y s =
      if sylStop (sylWord op y) then runBundle e.ty e.num [sylWord op y] y.stamp s0
      else s0.setEng (engKey e.ty e.num) { s.core e with bundle := [sylWord op y] } := by
  have hs := settle_ready s e h
  have hx : (settleEngine e.ty e.num s).eng (engKey e.ty e.num) = s.core e := hs.engines _
  have hbundle : (s.eng (engKey e.ty e.num)).bundle = [] := h.bundle
  have hheld : ¬((s.eng (engKey e.ty e.num)).held = true ∧ (s.eng (engKey e.ty e.num)).bundle = []) := fun hc =>
    Bool.false_ne_true (h.held.symm.trans hc.1)
  have hshort : ¬0 + 1 = bundleMax e.ty := by
    unfold bundleMax
    split <;> decide
  have hpush := pushSyl_fetched e.ty e.num (sylWord op y) y.stamp (settleEngine e.ty e.num s) ((s.core e).pc % 2 ^ widthOf e.ty)
    (by rw [hx, h.bundle]; rfl) h.fetch (fun hin => by rw [hs.mem]; exact row_clean_of_ready s e h hin)
  refine ⟨_, hs, ?_⟩
  rw [issue, issueWord, if_pos h.issue]
  simp only [if_neg hheld, if_pos hbundle, boundary_same _ s hs e h, Option.getD_none]
  rw [hpush, hx, h.bundle]
  simp only [List.length_nil, hshort, or_false, List.nil_append]

/-- A syllable that follows another of its bundle reaches its engine without a boundary between them (R195). -/
theorem issue_within (e : EngineId) (op : Nat) (y : Syl) (s : State) (hissue : canIssue s e.ty e.num = true) (hbundle : (s.core e).bundle ≠ []) :
    issue e op y s = pushSyl e.ty e.num (sylWord op y) y.stamp s := by
  have hb : ¬(s.eng (engKey e.ty e.num)).bundle = [] := hbundle
  rw [issue, issueWord, if_pos hissue]
  simp only [hb, and_false, if_false]

/-! ### A bundle at its engine, from what it sees to its commit -/

/-- An engine from which a bundle of these words has been taken is the engine of a ready state. -/
theorem takeBundle_of_ready (s : State) (e : EngineId) (h : Ready s e) (ws vs : List Nat) :
    takeBundle e.ty ws { s.core e with bundle := vs } = s.core e := by
  have hlate := h.late
  have hbundle := h.bundle
  have hheld := h.held
  revert hlate hbundle hheld
  generalize s.core e = x
  intro hlate hbundle hheld
  cases x
  simp only at hlate hbundle hheld
  subst hlate hbundle hheld
  simp [takeBundle, stall, landUpTo, lastLanding]

/-- A bundle that breaks no rule and is no REP goes to its end, and sees the engine as it was before its first syllable. -/
theorem runBundle_of_legal (e : EngineId) (ws vs : List Nat) (stamp : Nat) (s s0 : State) (h : Ready s e)
    (hrest : s0 = { s with engines := s0.engines }) (hx : s0.core e = { s.core e with bundle := vs })
    (hothers : ∀ k, k ≠ engKey e.ty e.num → s0.eng k = s.eng k)
    (hlegal : illegalBundle e.ty ws = none) (hrep : isRepBundle ws = false)
    (hres : reservedFrom e.ty (s.sysReg e.ty e.num 0x13) (s.vreg e) (wstRes (s.sysReg e.ty e.num 2)) (trapActive e.ty (s.core e).sys)
      false 0 ws = none) :
    ∃ s1, SameEngines s1 s ∧ runBundle e.ty e.num ws stamp s0 =
      endBundle e.ty e.num (finishBundle (Ctx.now e.ty e.num ws.length s1) ws false stamp s1) := by
  have htake : takeBundle e.ty ws (s0.eng (engKey e.ty e.num)) = s.core e := by
    rw [show s0.eng (engKey e.ty e.num) = _ from hx, takeBundle_of_ready s e h]
  have hs : SameEngines (s0.setEng (engKey e.ty e.num) (s.core e)) s := by
    refine ⟨by rw [hrest]; rfl, fun k => ?_⟩
    rw [State.setEng_at]
    split
    · next hk => rw [hk]; rfl
    · next hk => exact hothers k hk
  have hreg : (Ctx.now e.ty e.num ws.length (s0.setEng (engKey e.ty e.num) (s.core e))).reg = s.vreg e := funext (reg_now e s _ hs)
  have hsr : ∀ sel, (Ctx.now e.ty e.num ws.length (s0.setEng (engKey e.ty e.num) (s.core e))).sr sel = s.sysReg e.ty e.num sel := sr_now e s _ hs
  have hsys : (Ctx.now e.ty e.num ws.length (s0.setEng (engKey e.ty e.num) (s.core e))).sys = (s.core e).sys := congrArg Engine.sys (eng_now e s _ hs)
  refine ⟨_, hs, ?_⟩
  unfold runBundle
  simp only [htake, hlegal, hrep, hreg, hsr, hsys, Ctx.res, hres, Bool.false_eq_true, if_false]

/-- No trap among syllables that all have effects. -/
theorem firstTrap_of_ok (rs : List (Nat × OpRes)) (h : ∀ r ∈ rs, ∃ f, r.2 = .ok f) (i : Nat) : firstTrap i rs = none := by
  induction rs generalizing i with
  | nil => rfl
  | cons r rs ih =>
    obtain ⟨w, res⟩ := r
    obtain ⟨f, rfl⟩ : ∃ f, res = .ok f := h _ List.mem_cons_self
    exact ih (fun r hr => h r (List.mem_cons_of_mem _ hr)) (i + 1)

/-- A bundle whose syllables all have effects, no FBAR among them, comes to its commit. -/
theorem finishBundle_of_ok (c : Ctx) (ws : List Nat) (stamp : Nat) (s : State) (fs : List Eff) (hres : ws.map (c.result false) = fs.map .ok)
    (hfbar : ∀ f ∈ fs, f.fbar = false) : finishBundle c ws false stamp s = commit c fs s := by
  have hok : ∀ r ∈ ws.map (fun w => (w, c.result false w)), ∃ f, r.2 = .ok f := by
    intro r hr
    obtain ⟨w, hw, rfl⟩ := List.mem_map.1 hr
    have hmem : c.result false w ∈ fs.map OpRes.ok := hres ▸ List.mem_map_of_mem hw
    obtain ⟨f, -, hf⟩ := List.mem_map.1 hmem
    exact ⟨f, hf.symm⟩
  have hnone (p : OpRes → Bool) (hp : ∀ f, p (.ok f) = false) : (ws.map (fun w => (w, c.result false w))).any (fun r => p r.2) = false := by
    rw [List.any_eq_false]
    intro r hr
    obtain ⟨f, hf⟩ := hok r hr
    rw [hf, hp]
    exact Bool.false_ne_true
  have hfar : (ws.map (fun w => (w, c.result false w))).findSome? (fun r => r.2.farOf) = none := by
    rw [List.findSome?_eq_none_iff]
    intro r hr
    obtain ⟨f, hf⟩ := hok r hr
    rw [hf]
    rfl
  have heff : (ws.map (fun w => (w, c.result false w))).filterMap (fun r => r.2.effOf) = fs := by
    have hsplit : (ws.map (fun w => (w, c.result false w))).filterMap (fun r => r.2.effOf) = (ws.map (c.result false)).filterMap OpRes.effOf := by
      simp only [List.filterMap_map]
      rfl
    rw [hsplit, hres, List.filterMap_map]
    exact List.filterMap_some
  have hany : fs.any (fun f => f.fbar) = false := by
    rw [List.any_eq_false]
    exact fun f hf => by rw [hfbar f hf]; exact Bool.false_ne_true
  unfold finishBundle
  simp only [firstTrap_of_ok _ hok, hnone OpRes.isHalt (fun _ => rfl), hnone OpRes.isDouble (fun _ => rfl), hnone OpRes.isWait (fun _ => rfl),
    hfar, heff, Bool.false_eq_true, if_false, afterBundle, hany, Bool.false_and]

/-- The engine after a bundle of some syllables has committed their effects. -/
def Engine.bundled (x : Engine) (ty len : Nat) (fs : List Eff) : Engine :=
  { fs.foldl (applyRegs ty) x with
    due := [], loads := (fs.map Eff.loads).flatten, pc := ((fs.filterMap Eff.jump).head?).getD (pcOf ty (x.pc + 4 * len))
    cyc := x.cyc + 1 + (fs.map Eff.cost).sum, bundle := [], far := none }

/-- Effects in an engine's registers leave its other parts. -/
theorem foldl_applyRegs (ty : Nat) (fs : List Eff) (x : Engine) :
    fs.foldl (applyRegs ty) x =
      { x with phys := (fs.foldl (applyRegs ty) x).phys, sys := (fs.foldl (applyRegs ty) x).sys, late := (fs.foldl (applyRegs ty) x).late } := by
  induction fs generalizing x with
  | nil => rfl
  | cons f fs ih =>
    rw [List.foldl_cons, ih]
    rfl

/-- The commit of a bundle at a ready engine, whose effects outside the engine's registers have left `s1`. -/
theorem commit_ready (e : EngineId) (len : Nat) (s s0 s1 : State) (fs : List Eff) (hs : SameEngines s0 s) (h : Ready s e)
    (hout : fs.foldl (applyOutside e.ty e.num) s0 = s1) (hx : s1.eng (engKey e.ty e.num) = s.core e) :
    commit (Ctx.now e.ty e.num len s0) fs s0 =
      showPc e.ty e.num (s.core e).pc (s1.setEng (engKey e.ty e.num) ((s.core e).bundled e.ty len fs)) := by
  have hnext : (Ctx.now e.ty e.num len s0).next = pcOf e.ty ((s.core e).pc + 4 * len) := by
    rw [Ctx.next, show (Ctx.now e.ty e.num len s0).eng = s.core e from hs.engines _]
    rfl
  have hregs := foldl_applyRegs e.ty fs (s.core e)
  have hstep : (fs.foldl (applyRegs e.ty) (s.core e)).stepped = fs.foldl (applyRegs e.ty) (s.core e) := by
    rw [Engine.stepped, if_pos (by rw [hregs]; exact h.step)]
  have hloads : (fs.foldl (applyRegs e.ty) (s.core e)).loads = [] := by
    rw [hregs]
    exact h.loads
  have hcyc : (fs.foldl (applyRegs e.ty) (s.core e)).cyc = (s.core e).cyc := by rw [hregs]
  unfold commit
  simp only [hnext, show (Ctx.now e.ty e.num len s0).ty = e.ty from rfl, show (Ctx.now e.ty e.num len s0).n = e.num from rfl, hout,
    show (Ctx.now e.ty e.num len s0).key = engKey e.ty e.num from rfl, hx, hstep, hloads, hcyc, List.filter_nil, Engine.bundled]

/-- Plain effects leave the rest of the device, however many. -/
theorem foldl_applyOutside_plain (ty n : Nat) (fs : List Eff) (s : State) (h : ∀ f ∈ fs, f.Plain) : fs.foldl (applyOutside ty n) s = s := by
  induction fs with
  | nil => rfl
  | cons f fs ih =>
    rw [List.foldl_cons, applyOutside_plain ty n s f (h f List.mem_cons_self)]
    exact ih fun g hg => h g (List.mem_cons_of_mem _ hg)

/-- The engine of a ready state after a bundle that loads nothing and transfers nowhere: its registers are new, its PC is past the bundle and its
cycles further. -/
theorem bundled_of_ready (s : State) (e : EngineId) (h : Ready s e) (len : Nat) (fs : List Eff) (hloads : ∀ f ∈ fs, f.loads = [])
    (hjump : ∀ f ∈ fs, f.jump = none) :
    (s.core e).bundled e.ty len fs =
      { s.core e with
        phys := (fs.foldl (applyRegs e.ty) (s.core e)).phys, sys := (fs.foldl (applyRegs e.ty) (s.core e)).sys
        late := (fs.foldl (applyRegs e.ty) (s.core e)).late, pc := pcOf e.ty ((s.core e).pc + 4 * len)
        cyc := (s.core e).cyc + 1 + (fs.map Eff.cost).sum } := by
  have hregs := foldl_applyRegs e.ty fs (s.core e)
  have hnoload : (fs.map Eff.loads).flatten = [] := by
    rw [List.flatten_eq_nil_iff]
    intro l hl
    obtain ⟨f, hf, rfl⟩ := List.mem_map.1 hl
    exact hloads f hf
  have hnojump : fs.filterMap Eff.jump = [] := List.filterMap_eq_nil_iff.2 hjump
  have hbundled : (s.core e).bundled e.ty len fs =
      { s.core e with
        phys := (fs.foldl (applyRegs e.ty) (s.core e)).phys, sys := (fs.foldl (applyRegs e.ty) (s.core e)).sys
        late := (fs.foldl (applyRegs e.ty) (s.core e)).late, due := [], loads := [], pc := pcOf e.ty ((s.core e).pc + 4 * len)
        cyc := (s.core e).cyc + 1 + (fs.map Eff.cost).sum, bundle := [], far := none } := by
    rw [Engine.bundled, hregs, hnoload, hnojump]
    rfl
  simp only [hbundled, h.due, h.bundle, h.loads, canIssue_far s e h]

theorem bundled_stopReq (x : Engine) (ty len : Nat) (fs : List Eff) : (x.bundled ty len fs).stopReq = x.stopReq := by
  rw [Engine.bundled, foldl_applyRegs]

/-- A legal bundle at a ready engine, whose syllables all come to effects: they are committed together (R181). -/
theorem runBundle_commits (e : EngineId) (ws vs : List Nat) (stamp : Nat) (s s0 : State) (fs : List Eff) (h : Ready s e)
    (hrest : s0 = { s with engines := s0.engines }) (hx : s0.core e = { s.core e with bundle := vs })
    (hothers : ∀ k, k ≠ engKey e.ty e.num → s0.eng k = s.eng k) (hlegal : illegalBundle e.ty ws = none) (hrep : isRepBundle ws = false)
    (hres : reservedFrom e.ty (s.sysReg e.ty e.num 0x13) (s.vreg e) (wstRes (s.sysReg e.ty e.num 2)) (trapActive e.ty (s.core e).sys)
      false 0 ws = none)
    (hfs : ∀ s1, SameEngines s1 s → ws.map ((Ctx.now e.ty e.num ws.length s1).result false) = fs.map .ok) (hfbar : ∀ f ∈ fs, f.fbar = false)
    (hout : ∀ s1, SameEngines s1 s → (fs.foldl (applyOutside e.ty e.num) s1).eng (engKey e.ty e.num) = s.core e) :
    ∃ s1, SameEngines s1 s ∧ runBundle e.ty e.num ws stamp s0 = showPc e.ty e.num (s.core e).pc
      ((fs.foldl (applyOutside e.ty e.num) s1).setEng (engKey e.ty e.num) ((s.core e).bundled e.ty ws.length fs)) := by
  obtain ⟨s1, hs1, hrun⟩ := runBundle_of_legal e ws vs stamp s s0 h hrest hx hothers hlegal hrep hres
  refine ⟨s1, hs1, ?_⟩
  rw [hrun, finishBundle_of_ok _ _ _ _ fs (hfs s1 hs1) hfbar, commit_ready e _ s s1 _ fs hs1 h rfl (hout s1 hs1),
    endBundle_run _ _ _ (by rw [showPc_eng, State.setEng_same, bundled_stopReq]; exact h.stop)]

/-- A syllable that is a bundle by itself and comes to effects, at a ready engine: they are committed. -/
theorem exec_commits (i : Instr) (e : EngineId) (op : Nat) (y : Syl) (s : State) (f : Eff) (hi : i.syllable = some (e, op, y)) (hwf : i.wf = true)
    (h : Ready s e) (hstop : y.stop = true) (hrep : op ≠ 0x1F)
    (hres : reservedSyl e.ty (s.sysReg e.ty e.num 0x13)
      ⟨wstRes (s.sysReg e.ty e.num 2), trapActive e.ty (s.core e).sys, s.vreg e y.ra⟩ (sylWord op y) = false)
    (hf : ∀ s1, SameEngines s1 s → (Ctx.now e.ty e.num 1 s1).result false (sylWord op y) = .ok f) (hfbar : f.fbar = false)
    (hout : ∀ s1, SameEngines s1 s → (applyOutside e.ty e.num s1 f).eng (engKey e.ty e.num) = s.core e) :
    ∃ s1, SameEngines s1 s ∧ exec i s = done (showPc e.ty e.num (s.core e).pc
      ((applyOutside e.ty e.num s1 f).setEng (engKey e.ty e.num) ((s.core e).bundled e.ty 1 [f]))) := by
  have hop := syllable_op_lt i e op y hi
  have hok := syllable_ok i e op y hi hwf
  have hw : sylStop (sylWord op y) = true := (sylStop_sylWord op y hok hop).trans hstop
  have hra : sylRa (sylWord op y) = y.ra := bitsAt_sylWord op 9 5 y (by decide)
  obtain ⟨s0, hs0, hissue⟩ := issue_ready e op y s h
  obtain ⟨s1, hs1, hrun⟩ := runBundle_commits e [sylWord op y] [] y.stamp s s0 [f] h hs0.rest
    ((hs0.engines _).trans (by rw [← h.bundle]; rfl)) (fun k _ => hs0.engines k) (illegal_one _ _ hw) rfl (by
      simp only [reservedFrom, sylOp_sylWord op y hok hop, hrep, if_false, hra, hres, Bool.false_and, Bool.or_self, Bool.false_eq_true])
    (fun s1 hs1 => congrArg (fun r => [r]) (hf s1 hs1)) (fun g hg => by rw [List.mem_singleton.1 hg, hfbar]) hout
  refine ⟨s1, hs1, ?_⟩
  rw [exec_syllable i e op y s hi hwf, hissue, if_pos hw, hrun]
  rfl

/-- The engine of a state in which a commit ends. -/
theorem core_of_commit (e : EngineId) (pc : Nat) (s1 : State) (x : Engine) (p : Pins) :
    ((showPc e.ty e.num pc (s1.setEng (engKey e.ty e.num) x)).withPins p).core e = x := State.setEng_same _ _ _

/-- A meaning that commits a bundle in its engine alone: what Runs says of it. -/
theorem runs_of_commit (i : Instr) (e : EngineId) (s s1 : State) (x : Engine) (pc : Nat) (f : Engine → Engine) (hs : SameEngines s1 s)
    (hexec : exec i s = done (showPc e.ty e.num pc (s1.setEng (engKey e.ty e.num) x)))
    (hx : x = f { s.core e with pc := pcOf e.ty ((s.core e).pc + 4), cyc := x.cyc }) : Runs i e s f := by
  obtain ⟨p, hnext⟩ := next_of_done hexec
  exact ⟨_, hnext, onlyEngine_commit e s s1 hs x pc p, by rw [core_of_commit]; exact hx⟩

end Sys2Proof.Machine
end

section
/-!
PROOFS. A syllable whose condition is false (O19).
-/

namespace Sys2Proof.Machine

/-! ### A condition that does not hold (R184) -/

theorem condHolds_eq_getD (cond : Nat) (gx : Bool) (flg : Nat) (last : Bool) (h : cond < 16) :
    condHolds cond gx flg last =
      [true, bitOf flg 1, !bitOf flg 1, bitOf flg 2, !bitOf flg 2, bitOf flg 0, !bitOf flg 0, bitOf flg 3, !bitOf flg 3,
        bitOf flg 2 && !bitOf flg 1, !bitOf flg 2 || bitOf flg 1, bitOf flg 0 == bitOf flg 3, bitOf flg 0 != bitOf flg 3,
        !bitOf flg 1 && bitOf flg 0 == bitOf flg 3, bitOf flg 1 || bitOf flg 0 != bitOf flg 3, last == gx].getD cond false := by
  interval_cases cond <;> rfl

/-- A bundle finds a syllable's condition as it stands in the state of its engine. -/
theorem holds_now (e : EngineId) (op len : Nat) (y : Syl) (s s1 : State) (hs : SameEngines s1 s) (hok : y.ok = true) (hop : op < 128) :
    (Ctx.now e.ty e.num len s1).holds (sylWord op y) =
      condHolds y.cond y.gx (s.sysReg e.ty e.num 0) (if e.ty = 3 then (s.link (engKey e.ty e.num)).g else bitOf (s.sysReg e.ty e.num 0) 4) := by
  have hflg : (Ctx.now e.ty e.num len s1).flg = s.sysReg e.ty e.num 0 := sr_now e s s1 hs 0
  have hlink : (Ctx.now e.ty e.num len s1).link = s.link (engKey e.ty e.num) := link_now e s s1 hs
  have hc32 : ((Ctx.now e.ty e.num len s1).c32 = true) = (e.ty = 3) := beq_iff_eq.eq
  simp only [Ctx.holds, hflg, hlink, hc32, sylCond_sylWord op y hok hop, sylGx_sylWord op y hok]

/-- Settles O19: the syllable comes to no effects, and a bundle without effects only moves on the PC and the cycles. -/
theorem conditionFalse : Obligations.ConditionFalse := by
  unfold Obligations.ConditionFalse
  intro i e op y s hi hwf hr hstop hop f n z c v last tests htests hres
  have h := ready_parts s e hr
  have hok := syllable_ok i e op y hi hwf
  have hf : ∀ s1, SameEngines s1 s → (Ctx.now e.ty e.num 1 s1).result false (sylWord op y) = .ok {} := by
    intro s1 hs1
    rw [Ctx.result, holds_now e op 1 y s s1 hs1 hok (syllable_op_lt i e op y hi), condHolds_eq_getD _ _ _ _ (y.cond_lt hok)]
    exact if_neg (by rw [show _ = false from htests]; exact Bool.false_ne_true)
  have hout : ∀ s1, applyOutside e.ty e.num s1 {} = s1 := fun s1 => applyOutside_plain _ _ _ _ ⟨rfl, rfl, rfl, rfl, rfl⟩
  obtain ⟨s1, hs1, hexec⟩ := exec_commits i e op y s {} hi hwf h hstop hop hres hf rfl (fun s1 hs1 => by rw [hout]; exact hs1.engines _)
  rw [hout] at hexec
  exact runs_of_commit i e s s1 _ _ id hs1 hexec (bundled_of_ready s e h 1 [{}] (by simp) (by simp))

end Sys2Proof.Machine
end

section
/-!
PROOFS. Syllables that are collected and then act together (O20).
-/

namespace Sys2Proof.Machine

/-- A ready engine is ready whatever the levels on the pins. -/
theorem Ready.withPins {s : State} {e : EngineId} (h : Ready s e) (p : Pins) : Ready (s.withPins p) e :=
  ⟨h.ok, h.issue, h.bundle, h.loads, h.due, h.late, h.held, h.stop, h.halt, h.step, h.event, h.fetch, h.row⟩

/-- A syllable without its stop bit joins the bundle of a ready engine and has no effect yet (R178). -/
theorem exec_collects (i : Instr) (e : EngineId) (op : Nat) (y : Syl) (s : State) (hi : i.syllable = some (e, op, y)) (hwf : i.wf = true)
    (h : Ready s e) (hstop : y.stop = false) :
    ∃ s0 p, SameEngines s0 s ∧
      exec i s = .next ((s0.setEng (engKey e.ty e.num) { s.core e with bundle := [sylWord op y] }).withPins p) := by
  have hw : sylStop (sylWord op y) = false :=
    (sylStop_sylWord op y (syllable_ok i e op y hi hwf) (syllable_op_lt i e op y hi)).trans hstop
  obtain ⟨s0, hs0, hissue⟩ := issue_ready e op y s h
  rw [hw, if_neg Bool.false_ne_true] at hissue
  obtain ⟨p, hnext⟩ := next_of_done ((exec_syllable i e op y s hi hwf).trans (congrArg done hissue))
  exact ⟨s0, p, hs0, hnext⟩

/-! ### Two syllables of a bundle (R181) -/

/-- An immediate instruction that sets no flags writes v(RD) and nothing else. -/
theorem writesOf_addi (ty : Nat) (y : Syl) (h : y.ok = true) :
    writesOf ty (sylWord 0x10 y) = ([y.rd].filter (fun v => v != 0)).map SylTarget.reg := by
  have hop := sylOp_sylWord 0x10 y h (by decide)
  have hrd : sylRd (sylWord 0x10 y) = y.rd := bitsAt_sylWord _ 14 5 y (by decide)
  simp [writesOf, writesRegs, writesOther, hop, hrd]

/-- ADD without SF writes v(RD) and nothing else. -/
theorem writesOf_add (ty : Nat) (y : Syl) (h : y.ok = true) (hsf : bitOf (sylWord 0x00 y) 0 = false) :
    writesOf ty (sylWord 0x00 y) = ([y.rd].filter (fun v => v != 0)).map SylTarget.reg := by
  have hop := sylOp_sylWord 0x00 y h (by decide)
  have hrd : sylRd (sylWord 0x00 y) = y.rd := bitsAt_sylWord _ 14 5 y (by decide)
  simp [writesOf, writesRegs, writesOther, hop, hrd, hsf]

/-- SF of a syllable is bit 0 of its FN. -/
theorem bitOf_sylWord_sf (op : Nat) (y : Syl) (h : y.fn = 0) : bitOf (sylWord op y) 0 = false := by
  have hlow := bitsAt_sylWord op 0 4 y (by decide)
  rw [show bitsAt y.ops 0 4 = 0 from h] at hlow
  simp only [bitsAt, bitOf, beq_eq_false_iff_ne] at hlow ⊢
  omega

/-- Two syllables of class ALU, the second with the stop bit, break no rule of R180 in C32 unless both write the same. -/
theorem illegalBundle_two_alu (w1 w2 : Nat) (h1 : bitsAt w1 25 2 = 0) (h2 : bitsAt w2 25 2 = 0) (hstop : sylStop w2 = true)
    (hapart : ∀ t ∈ writesOf 3 w2, t ∉ writesOf 3 w1) : illegalBundle 3 [w1, w2] = none := by
  have hslot1 : slotOf 3 none w1 = 0 := by simp [slotOf, h1]
  have hslot2 : slotOf 3 (some 0) w2 = 1 := by simp [slotOf, h2]
  simpa [illegalBundle, illegalFrom, hslot1, hslot2, hstop, bundleMax] using hapart

/-- ADDI followed by ADD, ending the bundle, breaks no rule of R180 unless both write the same register. -/
theorem illegalBundle_addi_add (y1 y2 : Syl) (h1 : y1.ok = true) (h2 : y2.ok = true) (hstop : y2.stop = true) (hfn : y2.fn = 0)
    (hrd : y1.rd ≠ y2.rd ∨ y1.rd = 0) : illegalBundle 3 [sylWord 0x10 y1, sylWord 0x00 y2] = none := by
  refine illegalBundle_two_alu _ _ (class_sylWord 0x10 y1 h1 (by decide)) (class_sylWord 0x00 y2 h2 (by decide))
    ((sylStop_sylWord 0x00 y2 h2 (by decide)).trans hstop) fun t ht => ?_
  rw [writesOf_add 3 y2 h2 (bitOf_sylWord_sf 0x00 y2 hfn)] at ht
  obtain ⟨v, hv, rfl⟩ := List.mem_map.1 ht
  obtain ⟨hv2, hv0⟩ := List.mem_filter.1 hv
  obtain rfl := List.mem_singleton.1 hv2
  have hv0 : y2.rd ≠ 0 := bne_iff_ne.1 hv0
  rw [writesOf_addi 3 y1 h1]
  rcases hrd with hne | h0
  · simp [Ne.symm hne]
  · simp [h0]

/-- ADDI followed by ADD with FN 0, no GX set, holds no reserved encoding (R200). -/
theorem reservedFrom_addi_add (rps : Nat) (value : Nat → Nat) (res : Nat) (ta : Bool) (y1 y2 : Syl) (h1 : y1.ok = true) (h2 : y2.ok = true)
    (hgx1 : y1.gx = false) (hgx2 : y2.gx = false) (hfn : y2.fn = 0) :
    reservedFrom 3 rps value res ta false 0 [sylWord 0x10 y1, sylWord 0x00 y2] = none := by
  have hop1 := sylOp_sylWord 0x10 y1 h1 (by decide)
  have hop2 := sylOp_sylWord 0x00 y2 h2 (by decide)
  have hclass1 := class_sylWord 0x10 y1 h1 (by decide)
  have hclass2 := class_sylWord 0x00 y2 h2 (by decide)
  have hg1 := (sylGx_sylWord 0x10 y1 h1).trans hgx1
  have hg2 := (sylGx_sylWord 0x00 y2 h2).trans hgx2
  have hfn2 : sylFn (sylWord 0x00 y2) = 0 := (bitsAt_sylWord _ 0 4 y2 (by decide)).trans hfn
  have hfree1 : ∀ c, reservedSyl 3 rps c (sylWord 0x10 y1) = false := by simp [reservedSyl, reservedAlu, hop1, hclass1, hg1]
  have hfree2 : ∀ c, reservedSyl 3 rps c (sylWord 0x00 y2) = false := by simp [reservedSyl, reservedAlu, hop2, hclass2, hg2, hfn2]
  simp [reservedFrom, hop1, hop2, hfree1, hfree2]

/-- A syllable with no condition comes to its effects. -/
theorem result_of_always (e : EngineId) (op len : Nat) (y : Syl) (s1 : State) (rep : Bool) (hok : y.ok = true) (hop : op < 128) (hcond : y.cond = 0) :
    (Ctx.now e.ty e.num len s1).result rep (sylWord op y) = opEffect (Ctx.now e.ty e.num len s1) rep (sylWord op y) := by
  have hholds : (Ctx.now e.ty e.num len s1).holds (sylWord op y) = true := by
    rw [Ctx.holds, sylCond_sylWord op y hok hop, hcond]
    rfl
  rw [Ctx.result, if_pos hholds]

/-- What ADDI comes to (R212). -/
theorem opEffect_addi (c : Ctx) (rep : Bool) (y : Syl) (hok : y.ok = true) :
    opEffect c rep (sylWord 0x10 y) = .ok { regs := [(c.phys y.rd, (c.reg y.ra + wrapInt c.w (signedOf 9 y.imm9)) % 2 ^ c.w)] } := by
  have hop := sylOp_sylWord 0x10 y hok (by decide)
  have hrd : sylRd (sylWord 0x10 y) = y.rd := bitsAt_sylWord _ 14 5 y (by decide)
  have hra : sylRa (sylWord 0x10 y) = y.ra := bitsAt_sylWord _ 9 5 y (by decide)
  have himm : sylImm9 (sylWord 0x10 y) = y.imm9 := bitsAt_sylWord _ 0 9 y (by decide)
  simp [opEffect, opImm, Ctx.put, Ctx.imm9, sextTo, aluAdd, bit, hop, hrd, hra, himm]

/-- What ADD without SF comes to (R209). -/
theorem opEffect_add (c : Ctx) (rep : Bool) (y : Syl) (hok : y.ok = true) (hfn : y.fn = 0) :
    opEffect c rep (sylWord 0x00 y) = .ok { regs := [(c.phys y.rd, (c.reg y.ra + c.reg y.rb) % 2 ^ c.w)] } := by
  have hop := sylOp_sylWord 0x00 y hok (by decide)
  have hrd : sylRd (sylWord 0x00 y) = y.rd := bitsAt_sylWord _ 14 5 y (by decide)
  have hra : sylRa (sylWord 0x00 y) = y.ra := bitsAt_sylWord _ 9 5 y (by decide)
  have hrb : sylRb (sylWord 0x00 y) = y.rb := bitsAt_sylWord _ 4 5 y (by decide)
  have hsf := bitOf_sylWord_sf 0x00 y hfn
  simp [opEffect, opArith, Ctx.putFlags, aluAdd, bit, hop, hrd, hra, hrb, hsf]

/-- The address after a bundle's first syllable lies in the row of the first one, at a PC in instruction memory that is a multiple of 8. -/
theorem second_in_row (pc : Nat) (h8 : pc % 8 = 0) (hin : pc < 131072) :
    (pc + 4 * 1) % 2 ^ widthOf 3 = pc % 2 ^ widthOf 3 + 4 ∧ (pc + 4 * 1) % 2 ^ widthOf 3 / 8 = pc % 2 ^ widthOf 3 / 8 ∧
      pc % 2 ^ widthOf 3 + 4 ≤ imemBytes 3 := by
  have hw : widthOf 3 = 32 := rfl
  have hm : imemBytes 3 = 131072 := rfl
  rw [hw, hm]
  omega

/-- The engine takes the second syllable of a bundle: nothing but its buffer has changed. -/
theorem canIssue_collected (s s0 : State) (e : EngineId) (hs : SameEngines s0 s) (h : Ready s e) (ws : List Nat) (p : Pins) :
    canIssue ((s0.setEng (engKey e.ty e.num) { s.core e with bundle := ws }).withPins p) e.ty e.num = true := by
  have heng : ((s0.setEng (engKey e.ty e.num) { s.core e with bundle := ws }).withPins p).eng (engKey e.ty e.num) =
    { s.core e with bundle := ws } := State.setEng_same _ _ _
  rw [← h.issue]
  unfold canIssue
  rw [heng, hs.rest]
  rfl

/-- The second syllable of a bundle, with the stop bit, in the row of the first: the bundle runs. -/
theorem issue_second (e : EngineId) (op : Nat) (y : Syl) (s t : State) (w : Nat) (h : Ready s e) (hty : e.ty = 3)
    (hissue : canIssue t e.ty e.num = true) (hcore : t.core e = { s.core e with bundle := [w] })
    (hmem : t.mem (engKey e.ty e.num) = s.mem (engKey e.ty e.num)) (hok : y.ok = true) (hop : op < 128) (hstop : y.stop = true)
    (hfetch : fetchable 3 e.num ((s.core e).pc % 2 ^ 32 + 4) = true) (h8 : (s.core e).pc % 8 = 0) (hin : (s.core e).pc < 131072) :
    issue e op y t = runBundle e.ty e.num [w, sylWord op y] y.stamp t := by
  have heng : t.eng (engKey e.ty e.num) = { s.core e with bundle := [w] } := hcore
  obtain ⟨haddr, hrow, hfits⟩ := second_in_row (s.core e).pc h8 hin
  have hclean : (t.mem (engKey e.ty e.num)).decode false (((s.core e).pc % 2 ^ widthOf 3 + 4) / 8) = .clean := by
    rw [← haddr, hrow, hmem, ← hty]
    exact row_clean_of_ready s e h (by rw [hty]; exact hfits)
  rw [issue_within e op y t hissue (by rw [hcore]; exact List.cons_ne_nil _ _),
    pushSyl_fetched e.ty e.num (sylWord op y) y.stamp t ((s.core e).pc % 2 ^ widthOf 3 + 4) (by rw [heng, hty, ← haddr]; rfl)
      (by rw [hty]; exact hfetch) (fun _ => hclean),
    if_pos (Or.inl ((sylStop_sylWord op y hok hop).trans hstop)), heng]
  rfl

theorem Eff.plain_iff (f : Eff) : f.Plain ↔ f.g = none ∧ f.stores = [] ∧ f.rows = [] ∧ f.hand = [] ∧ f.fbar = false :=
  ⟨fun ⟨h1, h2, h3, h4, h5⟩ => ⟨h1, h2, h3, h4, h5⟩, fun ⟨h1, h2, h3, h4, h5⟩ => ⟨h1, h2, h3, h4, h5⟩⟩

/-- A bundle of ADDI and ADD, its ADDI collected: both results are of the registers as the bundle found them (R181). -/
theorem runBundle_addi_add (e : EngineId) (y1 y2 : Syl) (s t : State) (h : Ready s e) (hty : e.ty = 3) (h1 : y1.ok = true)
    (hcond1 : y1.cond = 0) (hgx1 : y1.gx = false) (h2 : y2.alone = true) (hfn : y2.fn = 0) (hrd : y1.rd ≠ y2.rd ∨ y1.rd = 0)
    (hrest : t = { s with engines := t.engines }) (hcore : t.core e = { s.core e with bundle := [sylWord 0x10 y1] })
    (hothers : ∀ k, k ≠ engKey e.ty e.num → t.eng k = s.eng k) :
    ∃ s1 cyc, SameEngines s1 s ∧ runBundle e.ty e.num [sylWord 0x10 y1, sylWord 0x00 y2] y2.stamp t =
      showPc e.ty e.num (s.core e).pc (s1.setEng (engKey e.ty e.num) { s.core e with
        phys := physPut (physPut (s.core e).phys (s.vphys e y1.rd) ((s.vreg e y1.ra + wrapInt 32 (signedOf 9 y1.imm9)) % 2 ^ 32))
          (s.vphys e y2.rd) ((s.vreg e y2.ra + s.vreg e y2.rb) % 2 ^ 32)
        pc := pcOf e.ty ((s.core e).pc + 8), cyc := cyc }) := by
  obtain ⟨hok2, hstop2, hcond2, hgx2⟩ := y2.alone_parts h2
  have hop1 := sylOp_sylWord 0x10 y1 h1 (by decide)
  obtain ⟨s1, hs1, hrun⟩ := runBundle_commits e [sylWord 0x10 y1, sylWord 0x00 y2] [sylWord 0x10 y1] y2.stamp s t
    [{ regs := [(s.vphys e y1.rd, (s.vreg e y1.ra + wrapInt 32 (signedOf 9 y1.imm9)) % 2 ^ 32)] },
      { regs := [(s.vphys e y2.rd, (s.vreg e y2.ra + s.vreg e y2.rb) % 2 ^ 32)] }]
    h hrest hcore hothers (by rw [hty]; exact illegalBundle_addi_add y1 y2 h1 hok2 hstop2 hfn hrd) (by rw [isRepBundle, hop1]; rfl)
    (by rw [hty]; exact reservedFrom_addi_add _ _ _ _ y1 y2 h1 hok2 hgx1 hgx2 hfn)
    (fun s1 hs1 => by
      have hreg : (Ctx.now e.ty e.num 2 s1).reg = s.vreg e := funext (reg_now e s s1 hs1)
      have hphys : (Ctx.now e.ty e.num 2 s1).phys = s.vphys e := funext (phys_now e s s1 hs1)
      have hwidth : (Ctx.now e.ty e.num 2 s1).w = 32 := congrArg widthOf hty
      simp only [List.map_cons, List.map_nil, List.length_cons, List.length_nil, result_of_always e _ _ _ s1 false h1 _ hcond1,
        result_of_always e _ _ _ s1 false hok2 _ hcond2, opEffect_addi _ _ y1 h1, opEffect_add _ _ y2 hok2 hfn, hreg, hphys, hwidth,
        Nat.reduceAdd, Nat.reduceLT])
    (by simp) (fun s1 hs1 => by rw [foldl_applyOutside_plain _ _ _ _ (by simp [Eff.plain_iff])]; exact hs1.engines _)
  rw [foldl_applyOutside_plain _ _ _ _ (by simp [Eff.plain_iff]), bundled_of_ready s e h _ _ (by simp) (by simp)] at hrun
  exact ⟨s1, _, hs1, hrun⟩

/-- Settles O20: the first syllable is collected; the second completes the bundle, and its commit writes both
results in the order of the syllables. -/
theorem bundleCollects : Obligations.BundleCollects := by
  unfold Obligations.BundleCollects
  refine ⟨fun i e op y s hi hwf hr hstop => ?_, fun e y1 y2 s hr hty h1 hstop1 hcond1 hgx1 h2 hfn hrd hfetch h8 hin => ?_⟩
  · have h := ready_parts s e hr
    obtain ⟨s0, p, hs0, hexec⟩ := exec_collects i e op y s hi hwf h hstop
    refine ⟨_, hexec, ?_, State.setEng_same _ _ _, fun k hk => (State.setEng_other _ _ _ _ hk).trans (hs0.engines k)⟩
    rw [hs0.rest]
    rfl
  · have h := ready_parts s e hr
    obtain ⟨hok2, hstop2, -, -⟩ := y2.alone_parts h2
    obtain ⟨s0, p, hs0, hfirst⟩ := exec_collects (.addi e y1) e 0x10 y1 s rfl (by rw [Instr.wf, h.ok, h1]; rfl) h hstop1
    set t := (s0.setEng (engKey e.ty e.num) { s.core e with bundle := [sylWord 0x10 y1] }).withPins p with ht
    have hcore : t.core e = { s.core e with bundle := [sylWord 0x10 y1] } := State.setEng_same _ _ _
    obtain ⟨s1, cyc, hs1, hrun⟩ := runBundle_addi_add e y1 y2 (s.withPins p) t (h.withPins p) hty h1 hcond1 hgx1 h2 hfn hrd
      (by rw [ht, hs0.rest]; rfl) hcore (fun k hk => (State.setEng_other _ _ _ _ hk).trans (hs0.engines k))
    have hsecond : issue e 0x00 y2 t = runBundle e.ty e.num [sylWord 0x10 y1, sylWord 0x00 y2] y2.stamp t :=
      issue_second e 0x00 y2 s t _ h hty (canIssue_collected s s0 e hs0 h _ p) hcore (hs0.mem _) hok2 (by decide)
        hstop2 hfetch h8 hin
    obtain ⟨q, hnext⟩ := next_of_done ((exec_syllable (.addReg e y2) e 0x00 y2 t rfl (by rw [Instr.wf, h.ok, hok2]; rfl)).trans
      (congrArg done (hsecond.trans hrun)))
    obtain ⟨hframe, hregs, hothers⟩ := onlyEngine_commit e (s.withPins p) s1 hs1 _ _ q
    refine ⟨t, _, hfirst, hnext, ⟨hframe, hregs, hothers⟩, ?_⟩
    rw [core_of_commit, hty]
    rfl

end Sys2Proof.Machine
end

section
/-!
PROOFS. The window moves (O22).
-/

namespace Sys2Proof.Machine

/-! ### Bytes of a memory after a store (R259) -/

theorem residue_zero : residue 0 = 0 := by decide +kernel

/-- A row of data memory that has been settled is a codeword; every other row has the errors it had. -/
theorem EngMem.err_settleRow (m : EngMem) (row r : Nat) :
    (m.settleRow true row).err true r = if r = row then 0 else m.err true r := by
  unfold EngMem.settleRow
  split
  · next hzero =>
    split
    · next hr => rw [hr, hzero]
    · rfl
  · simp only [EngMem.err, if_true, tblGet_set, rowKey, Nat.add_left_cancel_iff]
    split <;> rfl

theorem EngMem.err_settleRow_imem (m : EngMem) (row r : Nat) (hr : r < 2 ^ 20) : (m.settleRow true row).err false r = m.err false r := by
  unfold EngMem.settleRow
  split
  · rfl
  · have hkey : rowKey false r ≠ rowKey true row := by
      simp only [rowKey, if_true, Bool.false_eq_true, if_false]
      omega
    simp only [EngMem.err, if_true, tblGet_set_other _ _ _ _ _ hkey]

theorem EngMem.imem_settleRow (m : EngMem) (row : Nat) : (m.settleRow true row).imem = m.imem := by
  unfold EngMem.settleRow
  split <;> rfl

/-- The byte at an address of data memory, in a row without errors. -/
theorem EngMem.byte_of_err_zero (m : EngMem) (a : Nat) (h : m.err true (a / 8) = 0) : m.byte true a = tblGet 0 m.dmem a := by
  have hnoise : BitVec.ofNat 8 (bitsAt 0 (8 * (a % 8)) 8) = 0#8 := by simp [bitsAt]
  simp only [EngMem.byte, h, residue_zero, hnoise, if_true, BitVec.xor_zero]

/-- Settling a row changes no byte that the decoder delivers (R119). -/
theorem EngMem.byte_settleRow (m : EngMem) (row a : Nat) : (m.settleRow true row).byte true a = m.byte true a := by
  have herr := m.err_settleRow row (a / 8)
  by_cases hzero : m.err true row = 0
  · simp only [EngMem.settleRow, hzero, if_true]
  · have hdmem : (m.settleRow true row).dmem = memWrite 0 m.dmem (8 * row) (m.row true row) := by
      simp only [EngMem.settleRow, hzero, if_false, if_true]
    have hget := memWrite_get 0 m.dmem (8 * row) (m.row true row) a
    rw [show (m.row true row).length = 8 by simp [EngMem.row, EngMem.bytes]] at hget
    by_cases ha : a / 8 = row
    · rw [if_pos ha] at herr
      rw [EngMem.byte_of_err_zero _ _ herr, hdmem, hget, if_pos (by omega)]
      have hk : a - 8 * row < 8 := by omega
      have hadd : 8 * row + (a - 8 * row) = a := by omega
      simp [EngMem.row, EngMem.bytes, hk, hadd]
    · rw [if_neg ha] at herr
      rw [if_neg (by omega)] at hget
      simp only [EngMem.byte, herr, hdmem, hget, if_true]

/-- Several rows of data memory settled. -/
def EngMem.settleRows (m : EngMem) (rows : List Nat) : EngMem := rows.foldl (fun m r => m.settleRow true r) m

theorem EngMem.byte_settleRows (m : EngMem) (rows : List Nat) (a : Nat) : (m.settleRows rows).byte true a = m.byte true a := by
  induction rows generalizing m with
  | nil => rfl
  | cons row rows ih => exact (ih _).trans (m.byte_settleRow row a)

theorem EngMem.err_settleRows (m : EngMem) (rows : List Nat) (r : Nat) :
    (m.settleRows rows).err true r = if r ∈ rows then 0 else m.err true r := by
  induction rows generalizing m with
  | nil => rfl
  | cons row rows ih =>
    refine (ih _).trans ?_
    rw [m.err_settleRow row r]
    by_cases hrow : r = row <;> simp [hrow]

/-- Settling rows of data memory leaves instruction memory. -/
theorem EngMem.byte_settleRows_imem (m : EngMem) (rows : List Nat) (a : Nat) (ha : a / 8 < 2 ^ 20) :
    (m.settleRows rows).byte false a = m.byte false a := by
  induction rows generalizing m with
  | nil => rfl
  | cons row rows ih =>
    refine (ih _).trans ?_
    simp only [EngMem.byte, m.err_settleRow_imem row _ ha, m.imem_settleRow, Bool.false_eq_true, if_false]

/-- A store to data memory settles the rows it touches and writes its bytes. -/
theorem EngMem.store_eq (m : EngMem) (a : Nat) (bytes : List Byte) :
    m.store true a bytes = { m.settleRows (rowsOf a bytes.length) with dmem := memWrite 0 (m.settleRows (rowsOf a bytes.length)).dmem a bytes } :=
  rfl

theorem mem_rowsOf (a n b : Nat) (h1 : a ≤ b) (h2 : b < a + n) : b / 8 ∈ rowsOf a n :=
  List.mem_map.2 ⟨b / 8 - a / 8, List.mem_range.2 (by omega), by omega⟩

/-- A byte of data memory after a store (R259). -/
theorem EngMem.byte_store (m : EngMem) (a : Nat) (bytes : List Byte) (b : Nat) :
    (m.store true a bytes).byte true b = if a ≤ b ∧ b < a + bytes.length then bytes.getD (b - a) 0 else m.byte true b := by
  have hwrite := memWrite_get 0 (m.settleRows (rowsOf a bytes.length)).dmem a bytes b
  by_cases hin : a ≤ b ∧ b < a + bytes.length
  · have herr : (m.store true a bytes).err true (b / 8) = 0 :=
      (m.err_settleRows _ _).trans (if_pos (mem_rowsOf a _ b hin.1 hin.2))
    rw [EngMem.byte_of_err_zero _ _ herr, m.store_eq, hwrite, if_pos hin, if_pos hin]
  · rw [if_neg hin] at hwrite ⊢
    rw [← m.byte_settleRows (rowsOf a bytes.length) b, m.store_eq]
    simp only [EngMem.byte, EngMem.err, if_true, hwrite]

/-- A store to data memory leaves every byte of instruction memory. -/
theorem EngMem.byte_store_imem (m : EngMem) (ty a : Nat) (bytes : List Byte) (b : Nat) (hb : b < imemBytes ty) :
    (m.store true a bytes).byte false b = m.byte false b := by
  have hrow : b / 8 < 2 ^ 20 := by
    unfold imemBytes at hb
    split at hb
    · omega
    · split at hb <;> omega
  exact m.byte_settleRows_imem _ _ hrow

/-! ### A bundle that stores -/

/-- What changes one engine alone from a state with new memories of that engine changes that engine and its memories. -/
theorem onlyEngineMem_of_setMem (e : EngineId) (s t : State) (m : EngMem) (h : OnlyEngine e (s.setMem (engKey e.ty e.num) m) t) :
    OnlyEngineMem e s t ∧ t.mem (engKey e.ty e.num) = m := by
  obtain ⟨hrest, hregs, hothers⟩ := h
  have hengMem : t.engMem = (s.setMem (engKey e.ty e.num) m).engMem := (congrArg State.engMem hrest).trans rfl
  have hmem (k : Nat) : t.mem k = (s.setMem (engKey e.ty e.num) m).mem k := by rw [State.mem, State.mem, hengMem]
  refine ⟨⟨hrest.trans ?_, hregs, hothers, fun k hk => ?_⟩, ?_⟩
  · rw [hengMem]
    rfl
  · rw [hmem, State.setMem_other _ _ _ _ hk]
  · rw [hmem, State.setMem_same]

theorem SameEngines.dmemStore {s1 s : State} (h : SameEngines s1 s) (ty n a : Nat) (bytes : List Byte) :
    SameEngines (dmemStore ty n a bytes s1) (dmemStore ty n a bytes s) := by
  refine ⟨?_, h.engines⟩
  rw [h.rest]
  rfl

/-- A meaning that stores bytes and then commits a bundle in its engine: what Stores says of it. -/
theorem stores_of_commit (i : Instr) (e : EngineId) (s s1 : State) (x : Engine) (pc a : Nat) (bytes : List Byte) (f : Engine → Engine)
    (hs : SameEngines s1 s) (hexec : exec i s = done (showPc e.ty e.num pc ((dmemStore e.ty e.num a bytes s1).setEng (engKey e.ty e.num) x)))
    (hx : x = f { s.core e with pc := s.nextPc e, cyc := x.cyc }) : Stores i e s a bytes f := by
  obtain ⟨p, hnext⟩ := next_of_done hexec
  obtain ⟨hframe, hmem⟩ := onlyEngineMem_of_setMem e s _ _ (onlyEngine_commit e _ _ (hs.dmemStore e.ty e.num a bytes) x pc p)
  refine ⟨_, hnext, hframe, by rw [core_of_commit]; exact hx, fun b => ?_, fun b hb => ?_⟩
  · exact (congrArg (fun m => m.byte true b) hmem).trans (EngMem.byte_store _ a bytes b)
  · exact (congrArg (fun m => m.byte false b) hmem).trans (EngMem.byte_store_imem _ e.ty a bytes b hb)

/-! ### WSPILL and WFILL -/

theorem wrapInt_sub (w a b : Nat) (hb : b ≤ a) (ha : a < 2 ^ w) : wrapInt w ((a : Int) - b) = a - b := by
  have hcast : (a : Int) - b = ((a - b : Nat) : Int) := (Nat.cast_sub hb).symm
  rw [wrapInt, hcast, ← Int.natCast_mod, Int.toNat_natCast, Nat.mod_eq_of_lt (by omega)]

/-- Rows of data memory that read clean trap nothing (R194). -/
theorem eccAt_clean (c : Ctx) (a size shown : Nat) (hc : c.c32 = true) (h : (rowsOf a size).all (fun r => c.mem.decode true r == .clean) = true) :
    c.eccAt a size shown = none := by
  rw [Ctx.eccAt, if_pos hc, Option.map_eq_none_iff, List.find?_eq_none]
  intro r hr
  simp [EngMem.bad, beq_iff_eq.1 (List.all_eq_true.1 h r hr)]

/-- Rows of data memory that read clean are met without a trace (R259). -/
theorem readRows_clean (ty n : Nat) (rows : List Nat) (s : State)
    (h : rows.all (fun r => (s.mem (engKey ty n)).decode true r == .clean) = true) : readRows ty n true rows s = s := by
  induction rows with
  | nil => rfl
  | cons row rows ih =>
    simp only [List.all_cons, Bool.and_eq_true, beq_iff_eq] at h
    obtain ⟨hrow, hrows⟩ := h
    have hstep : readRow ty n true row s = s := readRow_clean ty n true row s hrow
    rw [readRows, List.foldl_cons, hstep]
    exact ih hrows

/-- The position of the oldest resident frame in C32. -/
theorem oldestPos_c32 (wst : Nat) : oldestPos 3 wst = (wst % 8 + 17 - bitsAt wst 4 4) % 8 := rfl

theorem wstOf_c32 (wst res : Nat) : wstOf 3 (wstPos 3 wst) res = wst % 8 + 16 * res :=
  congrArg (· + 16 * res) (Nat.mod_mod wst 8)

/-- The effects of WSPILL in C32, from WST, WSP and the registers (R188). -/
def spillEff (wst wsp : Nat) (phys : Tbl Nat) : Eff :=
  { sys := [(3, wsp - 64), (2, wst % 8 + 16 * (bitsAt wst 4 4 - 1))]
    stores := [(wsp - 64, (List.range 16).flatMap
      (fun k => leBytes 4 (tblGet 0 phys (8 + 16 * ((wst % 8 + 17 - bitsAt wst 4 4) % 8) + k))))]
    cost := 7 }

theorem applyOutside_spillEff (ty n wst wsp : Nat) (phys : Tbl Nat) (s : State) :
    applyOutside ty n s (spillEff wst wsp phys) = dmemStore ty n (wsp - 64) ((List.range 16).flatMap
      (fun k => leBytes 4 (tblGet 0 phys (8 + 16 * ((wst % 8 + 17 - bitsAt wst 4 4) % 8) + k)))) s := rfl

/-- The effects of WFILL in C32, from WST, WSP and the 32-bit numbers in data memory (R188). -/
def fillEff (wst wsp : Nat) (data : Nat → Nat) : Eff :=
  { sys := [(3, wsp + 64), (2, wst % 8 + 16 * (bitsAt wst 4 4 + 1))]
    rows := rowsOf wsp 64
    regs := (List.range 16).map (fun k => (8 + 16 * (((wst % 8 + 17 - bitsAt wst 4 4) % 8 + 7) % 8) + k, data (wsp + 4 * k)))
    cost := 7 }

/-- What WSPILL comes to in C32 at an aligned WSP with 64 bytes below it. -/
theorem opEffect_wspill (c : Ctx) (rep : Bool) (y : Syl) (hok : y.ok = true) (hty : c.ty = 3) (h8 : c.sr 3 % 8 = 0) (hlow : 64 ≤ c.sr 3)
    (hhigh : c.sr 3 ≤ 65536) : opEffect c rep (sylWord 0x6A y) = .ok (spillEff (c.sr 2) (c.sr 3) c.eng.phys) := by
  have hop := sylOp_sylWord 0x6A y hok (by decide)
  have hc32 : c.c32 = true := beq_iff_eq.2 hty
  have hw : c.w = 32 := congrArg widthOf hty
  have hwrap : wrapInt 32 ((c.sr 3 : Int) - 64) = c.sr 3 - 64 := wrapInt_sub 32 _ 64 hlow (by omega)
  have hmove : c.moveTrap (c.sr 3 - 64) false = none := by
    simp [Ctx.moveTrap, Ctx.byteAddr, Ctx.posBytes, dmemBytes, hc32, h8]
    omega
  have heff : opEffect c rep (sylWord 0x6A y) = opWindow c (sylWord 0x6A y) := by simp [opEffect, hop]
  rw [heff]
  simp [opWindow, spillEff, hop, hc32, hw, hwrap, hmove, hty, Ctx.byteAddr, Ctx.regBytes, Ctx.pos, Ctx.res, wstRes, wstOf_c32, oldestPos_c32,
    List.flatMap_def]

/-- What WFILL comes to in C32 at an aligned WSP, with 64 bytes from it on that read clean. -/
theorem opEffect_wfill (c : Ctx) (rep : Bool) (y : Syl) (hok : y.ok = true) (hty : c.ty = 3) (h8 : c.sr 3 % 8 = 0) (hhigh : c.sr 3 + 64 ≤ 65536)
    (hclean : (rowsOf (c.sr 3) 64).all (fun r => c.mem.decode true r == .clean) = true) :
    opEffect c rep (sylWord 0x6B y) = .ok (fillEff (c.sr 2) (c.sr 3) (fun a => c.peek a 4)) := by
  have hop := sylOp_sylWord 0x6B y hok (by decide)
  have hc32 : c.c32 = true := beq_iff_eq.2 hty
  have hw : c.w = 32 := congrArg widthOf hty
  have hmod : (c.sr 3 + 64) % 4294967296 = c.sr 3 + 64 := Nat.mod_eq_of_lt (by omega)
  have hmove : c.moveTrap (c.sr 3) true = none := by
    simp [Ctx.moveTrap, Ctx.byteAddr, Ctx.posBytes, dmemBytes, hc32, h8, eccAt_clean c _ _ _ hc32 hclean]
    omega
  have heff : opEffect c rep (sylWord 0x6B y) = opWindow c (sylWord 0x6B y) := by simp [opEffect, hop]
  rw [heff]
  simp [opWindow, fillEff, hop, hc32, hw, hmod, hmove, hty, Ctx.byteAddr, Ctx.regBytes, Ctx.posBytes, Ctx.pos, Ctx.res, wstRes, wstOf_c32,
    oldestPos_c32, windowPositions, mul_comm]

/-- WSPILL and WFILL are reserved by the count of resident frames alone, their operands being 0 (R189). -/
theorem reservedSyl_window (op rps : Nat) (c : BrCtx) (y : Syl) (hop : op = 0x6A ∨ op = 0x6B) (h : y.alone = true) (hops : y.ops = 0)
    (hspill : op = 0x6A → c.res ≠ 1) (hfill : op = 0x6B → c.res < if c.ta then 7 else 6) : reservedSyl 3 rps c (sylWord op y) = false := by
  obtain ⟨hok, -, -, hgx⟩ := y.alone_parts h
  have hg := (sylGx_sylWord op y hok).trans hgx
  have hlow : sylDisp (sylWord op y) = 0 := (bitsAt_sylWord op 0 19 y (by decide)).trans (by rw [hops]; rfl)
  rcases hop with rfl | rfl
  · have hclass := class_sylWord 0x6A y hok (by decide)
    have hop := sylOp_sylWord 0x6A y hok (by decide)
    simp [reservedSyl, reservedBr, hg, hclass, hop, hlow, hspill rfl]
  · have hclass := class_sylWord 0x6B y hok (by decide)
    have hop := sylOp_sylWord 0x6B y hok (by decide)
    have hroom := hfill rfl
    simp [reservedSyl, reservedBr, hg, hclass, hop, hlow]
    omega

/-- WSPILL at a ready C32 engine with more than one resident frame (R188). -/
theorem wspill_stores (e : EngineId) (y : Syl) (s : State) (h : Ready s e) (hy : y.alone = true) (hops : y.ops = 0) (hty : e.ty = 3)
    (h8 : s.sysReg e.ty e.num 3 % 8 = 0) (hres : bitsAt (s.sysReg e.ty e.num 2) 4 4 ≠ 1) (hlow : 64 ≤ s.sysReg e.ty e.num 3)
    (hhigh : s.sysReg e.ty e.num 3 ≤ 65536) :
    let wst := s.sysReg e.ty e.num 2
    let wsp := s.sysReg e.ty e.num 3
    Stores (.wspill e y) e s (wsp - 64)
      ((List.range 16).flatMap
        (fun k => leBytes 4 (tblGet 0 (s.core e).phys (8 + 16 * ((wst % 8 + 17 - bitsAt wst 4 4) % 8) + k))))
      (fun x => { x with sys := sysPut e.ty (sysPut e.ty x.sys 3 (wsp - 64)) 2 (wst % 8 + 16 * (bitsAt wst 4 4 - 1)) }) := by
  intro wst wsp
  obtain ⟨hok, hstop, hcond, -⟩ := y.alone_parts hy
  have hf : ∀ s1, SameEngines s1 s →
      (Ctx.now e.ty e.num 1 s1).result false (sylWord 0x6A y) = .ok (spillEff wst wsp (s.core e).phys) := fun s1 hs1 => by
    have hsr := sr_now e s s1 hs1
    rw [result_of_always e _ _ y s1 false hok (by decide) hcond,
      opEffect_wspill _ false y hok hty (by rw [hsr]; exact h8) (by rw [hsr]; exact hlow) (by rw [hsr]; exact hhigh), hsr, hsr, eng_now e s s1 hs1]
  obtain ⟨s1, hs1, hexec⟩ := exec_commits (.wspill e y) e 0x6A y s _ rfl (by rw [Instr.wf, h.ok, hok]; rfl) h hstop (by decide)
    (by rw [hty]; exact reservedSyl_window 0x6A _ _ y (Or.inl rfl) hy hops (fun _ => hty ▸ hres) (fun hc => absurd hc (by decide)))
    hf rfl (fun s1 hs1 => hs1.engines _)
  rw [applyOutside_spillEff] at hexec
  exact stores_of_commit _ e s s1 _ _ _ _ _ hs1 hexec
    (bundled_of_ready s e h 1 [spillEff wst wsp (s.core e).phys] (by simp [spillEff]) (by simp [spillEff]))

/-- WFILL at a ready C32 engine with room for a frame, from memory that reads clean (R188). -/
theorem wfill_runs (e : EngineId) (y : Syl) (s : State) (h : Ready s e) (hy : y.alone = true) (hops : y.ops = 0) (hty : e.ty = 3)
    (h8 : s.sysReg e.ty e.num 3 % 8 = 0) (hroom : bitsAt (s.sysReg e.ty e.num 2) 4 4 < if trapActive e.ty (s.core e).sys then 7 else 6)
    (hhigh : s.sysReg e.ty e.num 3 + 64 ≤ 65536) (hclean : s.dataClean e (s.sysReg e.ty e.num 3) 64 = true) :
    let wst := s.sysReg e.ty e.num 2
    let wsp := s.sysReg e.ty e.num 3
    Runs (.wfill e y) e s (fun x => { x with
      phys := physPuts x.phys ((List.range 16).map
        (fun k => (8 + 16 * (((wst % 8 + 17 - bitsAt wst 4 4) % 8 + 7) % 8) + k, s.data e (wsp + 4 * k) 4)))
      sys := sysPut e.ty (sysPut e.ty x.sys 3 (wsp + 64)) 2 (wst % 8 + 16 * (bitsAt wst 4 4 + 1)) }) := by
  intro wst wsp
  obtain ⟨hok, hstop, hcond, -⟩ := y.alone_parts hy
  have hf : ∀ s1, SameEngines s1 s →
      (Ctx.now e.ty e.num 1 s1).result false (sylWord 0x6B y) = .ok (fillEff wst wsp (fun a => s.data e a 4)) := fun s1 hs1 => by
    have hsr := sr_now e s s1 hs1
    have hmem := mem_now e s s1 hs1
    rw [result_of_always e _ _ y s1 false hok (by decide) hcond, opEffect_wfill _ false y hok hty (by rw [hsr]; exact h8) (by rw [hsr]; exact hhigh)
      (by rw [hsr, show (Ctx.now e.ty e.num 1 s1).mem = _ from hmem]; exact hclean), hsr, hsr]
    simp only [Ctx.peek, show (Ctx.now e.ty e.num 1 s1).mem = _ from hmem]
    rfl
  have hout : ∀ s1, SameEngines s1 s → applyOutside e.ty e.num s1 (fillEff wst wsp (fun a => s.data e a 4)) = s1 := fun s1 hs1 =>
    readRows_clean e.ty e.num (rowsOf wsp 64) s1 (by rw [hs1.mem]; exact hclean)
  obtain ⟨s1, hs1, hexec⟩ := exec_commits (.wfill e y) e 0x6B y s _ rfl (by rw [Instr.wf, h.ok, hok]; rfl) h hstop (by decide)
    (by rw [hty]; exact reservedSyl_window 0x6B _ _ y (Or.inr rfl) hy hops (fun hc => absurd hc (by decide)) (fun _ => hty ▸ hroom))
    hf rfl (fun s1 hs1 => by rw [hout s1 hs1]; exact hs1.engines _)
  rw [hout s1 hs1] at hexec
  refine runs_of_commit _ e s s1 _ _ _ hs1 hexec ?_
  rw [bundled_of_ready s e h 1 [fillEff wst wsp (fun a => s.data e a 4)] (by simp [fillEff]) (by simp [fillEff])]
  simp only [List.foldl_cons, List.foldl_nil, applyRegs, fillEff, if_true, Nat.mul_one]

/-- Settles O22: each move comes to its effects, and the commit of a bundle makes them. -/
theorem windowMoves : Obligations.WindowMoves := by
  unfold Obligations.WindowMoves
  intro e y s hr hy hops hty h8 wst res wsp old
  have h := ready_parts s e hr
  refine ⟨fun hres hlow hhigh => ?_, fun hroom hhigh hclean => ?_⟩
  · have hspill := wspill_stores e y s h hy hops hty
    rw [hty] at hspill
    exact hspill h8 hres hlow hhigh
  · have hfill := wfill_runs e y s h hy hops hty
    rw [hty] at hfill
    exact hfill h8 hroom hhigh hclean

end Sys2Proof.Machine
end

section
/-!
PROOFS. A slat engine that has started; a load that is due while the engine's clock stands still (O28).
-/

namespace Sys2Proof.Machine

/-- PD_PANE_0 has come up under PD_BLINTEL and PD_NOC, and its first slat engine has started (R263, Table 19-2). -/
def slatStarted : State := startEngine 4 0 (reachStates [(8, psOn), (9, psOn), (14, psOn)] State.reset)

/-- A syllable that is a bundle by itself, of given operands. -/
def bundleOf (ops : Nat) : Syl := ⟨true, 0, false, ops, 0⟩

/-- The slat has run LD.W v1 from address 0 and the bundle after it, MOVI v2, so that the load lands at this bundle's end (R191);
then its pane's domain has gone to IDLE. -/
def loadDueInIdle : State :=
  reachState 14 psIdle (issue ⟨4, 0⟩ 0x16 (bundleOf (2 * 2 ^ 14 + 5)) (issue ⟨4, 0⟩ 0x44 (bundleOf (2 ^ 14)) slatStarted))

theorem loadDueInIdle_domain : loadDueInIdle.domain 14 = psIdle := by decide +kernel

theorem loadDueInIdle_due : (loadDueInIdle.core ⟨4, 0⟩).due = [(1, 0)] := by decide +kernel

/-- An engine in the state in which a meaning ends. -/
theorem core_of_done {r : Result} {s t : State} (h : r = done s) (hrun : r = .next t) (e : EngineId) : t.core e = s.core e := by
  rw [done_next s t (h ▸ hrun)]
  rfl

/-- No load lands while the engine's clock stands still (R35, R191). -/
theorem loadWriteback_of_not_engineUp (e : EngineId) (s t : State) (hok : engineOk e = true) (hdown : engineUp s e = false)
    (hrun : exec (.loadWriteback e) s = .next t) : t.core e = s.core e := by
  have hexec : exec (.loadWriteback e) s = need (engineOk e) (done (if engineUp s e then landLoads e.ty e.num s else s)) := rfl
  rw [hok, need_true, hdown, if_neg Bool.false_ne_true] at hexec
  exact core_of_done hexec hrun e

/-- Refutes O28: its clause on LOAD_WRITEBACK has due loads land in whatever state the engine's domain is; in IDLE the engine's clock stands still and
they stay due (R35). -/
theorem not_resultsLand : ¬ Obligations.ResultsLand := by
  unfold Obligations.ResultsLand
  rintro ⟨hwriteback, -⟩
  obtain ⟨t, hrun, -, -, hlanded⟩ := hwriteback ⟨4, 0⟩ loadDueInIdle (by decide)
  have hdown : engineUp loadDueInIdle ⟨4, 0⟩ = false := by
    rw [engineUp, State.domainOn, show pageDomain 4 0 = 14 from rfl, loadDueInIdle_domain]
    rfl
  have hkept : (t.core ⟨4, 0⟩).due = [(1, 0)] := by
    rw [loadWriteback_of_not_engineUp ⟨4, 0⟩ loadDueInIdle t (by decide) hdown hrun, loadDueInIdle_due]
  rw [hlanded] at hkept
  exact List.cons_ne_nil _ _ hkept.symm

end Sys2Proof.Machine
end

section
/-!
PROOFS. An engine held at a WFI is at no bundle boundary (O29).
-/

namespace Sys2Proof.Machine

/-- The first slat engine of PD_PANE_0 runs with interrupts on and line 0 enabled, has come to a WFI with nothing pending, and waits there;
then line 0 is latched (R198, R226). -/
def heldAtWfi : State :=
  (issue ⟨4, 0⟩ 0x6C (bundleOf 0) ((slatStarted.setSys 4 0 0 0x100).setSys 4 0 0x0D 1)).setReg 4 0 0x05C 1

theorem heldAtWfi_held : (heldAtWfi.core ⟨4, 0⟩).held = true := by decide +kernel

theorem heldAtWfi_canIssue : canIssue heldAtWfi 4 0 = true := by decide +kernel

/-- Nothing but the wait keeps the interrupt of line 0 from being taken. -/
theorem heldAtWfi_quiet :
    let x := heldAtWfi.core ⟨4, 0⟩
    x.bundle = [] ∧ x.loads = [] ∧ x.due = [] ∧ x.late = [] ∧ x.stopReq = false ∧ x.haltReq = 0 ∧ x.stepReq = 0 ∧
      trapActive 4 x.sys = false := by
  decide +kernel

theorem heldAtWfi_irq : bitOf (heldAtWfi.sysReg 4 0 0) 8 = true ∧ heldAtWfi.irqLine 4 0 = some 0 := by decide +kernel

/-- A held engine that may issue is at no boundary: TRAP_ENTRY finds no more than a trap of the syllable at PC. -/
theorem exec_trapEntry_held (e : EngineId) (s : State) (hok : engineOk e = true) (hissue : canIssue s e.ty e.num = true)
    (hheld : (s.core e).held = true) : exec (.trapEntry e) s = done (trapSyllable e.ty e.num s) := by
  have hheld' : (s.eng (engKey e.ty e.num)).held = true := hheld
  rw [show exec (.trapEntry e) s = execTrapEntry e s from rfl, execTrapEntry, hok, need_true]
  simp only [hissue, hheld', Bool.not_true, Bool.false_eq_true, and_false, if_false]

/-- The syllable at the engine's PC is no trap: the engine stays where it is. -/
theorem heldAtWfi_stays : ((trapSyllable 4 0 heldAtWfi).core ⟨4, 0⟩).pc = 0 := by decide +kernel

/-- The vector that the clause names. -/
theorem heldAtWfi_vector : pcOf 4 (heldAtWfi.sysReg 4 0 4 + 64 * (16 + 0)) = 0x400 := by decide +kernel

/-- Refutes O29: its first clause lets the engine be held at a WFI, which is at no bundle boundary. The interrupt is then not taken;
the WFI completes, and the interrupt is taken at the boundary after it (R226). -/
theorem not_boundaryTraps : ¬ Obligations.BoundaryTraps := by
  unfold Obligations.BoundaryTraps
  intro hclaim
  obtain ⟨hbundle, hloads, hdue, hlate, hstop, hhalt, hstep, hactive⟩ := heldAtWfi_quiet
  obtain ⟨hinterrupt, -⟩ := hclaim ⟨4, 0⟩ heldAtWfi (by decide) heldAtWfi_canIssue hbundle hloads hdue hlate hstop hhalt hstep hactive
  obtain ⟨t, hrun, ⟨hpc, -⟩, -⟩ := hinterrupt 0 (Or.inl (by decide)) (fun hty => absurd hty (by decide)) heldAtWfi_irq.1 heldAtWfi_irq.2
  have hentered : (t.core ⟨4, 0⟩).pc = 0x400 := hpc.trans heldAtWfi_vector
  have hstays : (t.core ⟨4, 0⟩).pc = 0 := by
    rw [core_of_done (exec_trapEntry_held ⟨4, 0⟩ heldAtWfi (by decide) heldAtWfi_canIssue heldAtWfi_held) hrun, heldAtWfi_stays]
  rw [hentered] at hstays
  exact absurd hstays (by decide)

end Sys2Proof.Machine
end

section
/-!
PROOFS. What a bundle of one syllable sees at a ready engine, and the forms in which its effects reach the statements.
-/

namespace Sys2Proof.Machine

/-! ### Fields of a syllable's word (R182) -/

theorem sylRd_sylWord (op : Nat) (y : Syl) : sylRd (sylWord op y) = y.rd := bitsAt_sylWord op 14 5 y (by decide)

theorem sylRa_sylWord (op : Nat) (y : Syl) : sylRa (sylWord op y) = y.ra := bitsAt_sylWord op 9 5 y (by decide)

theorem sylRb_sylWord (op : Nat) (y : Syl) : sylRb (sylWord op y) = y.rb := bitsAt_sylWord op 4 5 y (by decide)

theorem sylFn_sylWord (op : Nat) (y : Syl) : sylFn (sylWord op y) = y.fn := bitsAt_sylWord op 0 4 y (by decide)

theorem sylImm9_sylWord (op : Nat) (y : Syl) : sylImm9 (sylWord op y) = y.imm9 := bitsAt_sylWord op 0 9 y (by decide)

theorem sylImm14_sylWord (op : Nat) (y : Syl) : sylImm14 (sylWord op y) = y.imm14 := bitsAt_sylWord op 0 14 y (by decide)

/-- A bit of FN is that bit of the syllable's word. -/
theorem bitOf_sylWord_fn (op k : Nat) (y : Syl) (hk : k < 4) : bitOf (sylWord op y) k = bitOf y.fn k := by
  have hlow := bitsAt_sylWord op 0 4 y (by decide)
  have hfn : y.fn = bitsAt y.ops 0 4 := rfl
  rw [hfn, ← hlow]
  simp only [bitsAt, bitOf, pow_zero, Nat.div_one]
  interval_cases k <;> congr 1 <;> omega

/-- SF, bit 0 of FN, where FN is 0 or 1 (R209). -/
theorem sf_sylWord (op : Nat) (y : Syl) (h : y.fn < 2) : bitOf (sylWord op y) 0 = decide (y.fn = 1) := by
  rw [bitOf_sylWord_fn op 0 y (by decide)]
  interval_cases y.fn <;> rfl

/-! ### What the bundle sees (R181) -/

/-- A bundle sees an engine as it stands in a state. -/
structure Ctx.Sees (c : Ctx) (e : EngineId) (s : State) : Prop where
  ty : c.ty = e.ty
  num : c.n = e.num
  sys : c.sys = (s.core e).sys
  eng : c.eng = s.core e
  mem : c.mem = s.mem (engKey e.ty e.num)
  link : c.link = s.link (engKey e.ty e.num)
  ipend : c.s.ipend c.ty c.n = s.ipend e.ty e.num

theorem sees_now (e : EngineId) (len : Nat) (s s1 : State) (hs : SameEngines s1 s) : (Ctx.now e.ty e.num len s1).Sees e s where
  ty := rfl
  num := rfl
  sys := congrArg Engine.sys (hs.engines _)
  eng := hs.engines _
  mem := mem_now e s s1 hs
  link := link_now e s s1 hs
  ipend := by
    rw [hs.rest]
    rfl

variable {c : Ctx} {e : EngineId} {s : State}

theorem Ctx.Sees.w (h : c.Sees e s) : c.w = widthOf e.ty := congrArg widthOf h.ty

theorem Ctx.Sees.c32 (h : c.Sees e s) : c.c32 = (e.ty == 3) := congrArg (· == 3) h.ty

theorem Ctx.Sees.sr (h : c.Sees e s) (sel : Nat) : c.sr sel = s.sysReg e.ty e.num sel := by
  rw [Ctx.sr, h.ty, h.sys]
  rfl

theorem Ctx.Sees.phys (h : c.Sees e s) (v : Nat) : c.phys v = s.vphys e v := by
  rw [Ctx.phys, Ctx.pos, h.sr, h.ty]
  rfl

theorem Ctx.Sees.reg (h : c.Sees e s) (v : Nat) : c.reg v = s.vreg e v := by
  rw [Ctx.reg, h.eng, h.phys]
  rfl

theorem Ctx.Sees.pair (h : c.Sees e s) (v : Nat) : c.pair v = s.vpair e v := by
  rw [Ctx.pair, h.reg, h.reg, h.w]
  rfl

theorem Ctx.Sees.carry (h : c.Sees e s) : c.carry = s.carry e := by
  rw [Ctx.carry, Ctx.flg, h.sr]
  rfl

theorem Ctx.Sees.peek (h : c.Sees e s) (a n : Nat) : c.peek a n = s.data e a n := by
  rw [Ctx.peek, h.mem]
  rfl

/-! ### A syllable by itself at a ready engine -/

/-- A Casement instruction that is a bundle by itself at a ready engine; the array, row-port and DMA instructions, which not every type of engine has,
and the REP mark apart. -/
structure Alone (i : Instr) (e : EngineId) (op : Nat) (y : Syl) (s : State) : Prop where
  syllable : i.syllable = some (e, op, y)
  ready : s.ready e = true
  alone : y.alone = true
  op_lt : op < 0x70
  rep : op ≠ 0x1F

theorem alone_of_ready (i : Instr) {op : Nat} {y : Syl} (hi : i.syllable = some (e, op, y)) (hr : s.ready e = true) (hy : y.alone = true)
    (hop : op < 0x70 ∧ op ≠ 0x1F := by decide) : Alone i e op y s := ⟨hi, hr, hy, hop.1, hop.2⟩

/-- A Casement instruction that every engine has is well formed when its engine exists and its fields fit. -/
theorem wf_syllable (i : Instr) (e : EngineId) (op : Nat) (y : Syl) (h : i.syllable = some (e, op, y)) (hop : op < 0x70) :
    i.wf = (engineOk e && y.ok) := by
  cases i <;> simp only [Instr.syllable, Option.some.injEq, Prod.mk.injEq, reduceCtorEq] at h <;> obtain ⟨rfl, rfl, rfl⟩ := h <;>
    simp [Instr.wf] at hop ⊢

variable {i : Instr} {op : Nat} {y : Syl}

theorem Alone.ok (h : Alone i e op y s) : y.ok = true := by
  obtain ⟨hok, -, -, -⟩ := y.alone_parts h.alone
  exact hok

theorem Alone.op_lt_128 (h : Alone i e op y s) : op < 128 := h.op_lt.trans (by decide)

theorem Alone.sylOp (h : Alone i e op y s) : sylOp (sylWord op y) = op := sylOp_sylWord op y h.ok h.op_lt_128

theorem Alone.wf (h : Alone i e op y s) : i.wf = true := by
  rw [wf_syllable i e op y h.syllable h.op_lt, (ready_parts s e h.ready).ok, h.ok]
  rfl

/-- The instruction is the issue of its syllable. -/
theorem Alone.exec (h : Alone i e op y s) : exec i s = need (engineOk e && y.ok) (done (issue e op y s)) := by
  obtain ⟨-, -, hexec⟩ := syllable_cases i e op y s h.syllable
  rw [hexec, wf_syllable i e op y h.syllable h.op_lt]

/-- A syllable of class ALU or MUL without GX is reserved by its operand fields (R200). -/
theorem Alone.reservedSyl_alu_eq (h : Alone i e op y s) (hop : op < 0x22) (ty rps : Nat) (b : BrCtx) :
    reservedSyl ty rps b (sylWord op y) = reservedAlu ty (sylWord op y) := by
  obtain ⟨hok, -, -, hgx⟩ := y.alone_parts h.alone
  rw [reservedSyl, sylGx_sylWord op y hok, hgx, class_sylWord op y hok h.op_lt_128, h.sylOp, Bool.false_and, Bool.false_or]
  obtain hclass | hclass : op / 32 = 0 ∨ op / 32 = 1 := by omega
  · simp only [hclass]
  · simp only [hclass, if_pos hop]

/-- So is one of class LSU. -/
theorem Alone.reservedSyl_lsu_eq (h : Alone i e op y s) (hop : 0x40 ≤ op ∧ op < 0x60) (ty rps : Nat) (b : BrCtx) :
    reservedSyl ty rps b (sylWord op y) = reservedLsu ty (sylWord op y) rps := by
  obtain ⟨hok, -, -, hgx⟩ := y.alone_parts h.alone
  have hclass : op / 32 = 2 := by omega
  rw [reservedSyl, sylGx_sylWord op y hok, hgx, class_sylWord op y hok h.op_lt_128, Bool.false_and, Bool.false_or]
  simp only [hclass]

/-- So is one of class BR, with what it depends on. -/
theorem Alone.reservedSyl_br_eq (h : Alone i e op y s) (hop : 0x60 ≤ op) (ty rps : Nat) (b : BrCtx) :
    reservedSyl ty rps b (sylWord op y) = reservedBr ty b (sylWord op y) := by
  obtain ⟨hok, -, -, hgx⟩ := y.alone_parts h.alone
  have hop_lt := h.op_lt
  have hclass : op / 32 = 3 := by omega
  rw [reservedSyl, sylGx_sylWord op y hok, hgx, class_sylWord op y hok h.op_lt_128, Bool.false_and, Bool.false_or]
  simp only [hclass]

/-- A syllable whose effects stay in its engine's registers: what Runs says of it. -/
theorem Alone.runs (h : Alone i e op y s) (f : Eff) (hp : f.Plain) (hres : ∀ rps b, reservedSyl e.ty rps b (sylWord op y) = false)
    (hf : ∀ c : Ctx, c.Sees e s → opEffect c false (sylWord op y) = .ok f) : Runs i e s (f.onto e.ty) :=
  runs_plain i e op y s f h.exec h.ready h.alone h.op_lt_128 h.rep hp (fun _ _ => hres _ _) (fun s1 hs1 => hf _ (sees_now e 1 s s1 hs1))

/-- A syllable that puts a result in v(RD). -/
theorem Alone.writes (h : Alone i e op y s) (v : Nat) (hres : ∀ rps b, reservedSyl e.ty rps b (sylWord op y) = false)
    (hf : ∀ c : Ctx, c.Sees e s → opEffect c false (sylWord op y) = c.put y.rd v) : Writes i e s y.rd v [] := by
  refine writes_plain i e op y s v [] h.exec h.ready h.alone h.op_lt_128 h.rep (fun _ _ => hres _ _) fun s1 hs1 => ?_
  have hc := sees_now e 1 s s1 hs1
  rw [hf _ hc, Ctx.put, hc.phys]

/-- A syllable that puts a result and flags. -/
theorem Alone.writes_flags (h : Alone i e op y s) (v : Nat) (fs : FlagVals) (hres : ∀ rps b, reservedSyl e.ty rps b (sylWord op y) = false)
    (hf : ∀ c : Ctx, c.Sees e s → opEffect c false (sylWord op y) = .ok { regs := [(c.phys y.rd, v)], flags := fs }) :
    Writes i e s y.rd v fs := by
  refine writes_plain i e op y s v fs h.exec h.ready h.alone h.op_lt_128 h.rep (fun _ _ => hres _ _) fun s1 hs1 => ?_
  have hc := sees_now e 1 s s1 hs1
  rw [hf _ hc, hc.phys]

/-- A syllable that puts a result and, with SF, its flags (R209). -/
theorem Alone.writes_sf (h : Alone i e op y s) (r : Nat × FlagVals) (hfn : y.fn < 2)
    (hres : ∀ rps b, reservedSyl e.ty rps b (sylWord op y) = false)
    (hf : ∀ c : Ctx, c.Sees e s → opEffect c false (sylWord op y) = c.putFlags (sylWord op y) r) :
    Writes i e s y.rd r.1 (if y.fn = 1 then r.2 else []) := by
  refine h.writes_flags _ _ hres fun c hc => ?_
  rw [hf c hc, Ctx.putFlags, sf_sylWord op y hfn, sylRd_sylWord]
  simp only [decide_eq_true_eq]

/-- A syllable that sets flags alone. -/
theorem Alone.flags (h : Alone i e op y s) (fs : FlagVals) (hres : ∀ rps b, reservedSyl e.ty rps b (sylWord op y) = false)
    (hf : ∀ c : Ctx, c.Sees e s → opEffect c false (sylWord op y) = .ok { flags := fs }) : Flags i e s fs :=
  flags_plain i e op y s fs h.exec h.ready h.alone h.op_lt_128 h.rep (fun _ _ => hres _ _) fun s1 hs1 => hf _ (sees_now e 1 s s1 hs1)

/-- A syllable that leaves one interlocked result (R193). -/
theorem Alone.lands (h : Alone i e op y s) (regs : List (Nat × Nat)) (fp : Nat) (nzcv : Option Nat) (unit lat : Nat)
    (hres : ∀ rps b, reservedSyl e.ty rps b (sylWord op y) = false)
    (hf : ∀ c : Ctx, c.Sees e s → opEffect c false (sylWord op y) =
      .ok { late := [⟨regs, fp, nzcv, unit, (s.core e).cyc + lat, (s.core e).pc, sylWord op y⟩] }) :
    Lands i e op y s regs fp nzcv unit lat :=
  lands_plain i e op y s regs fp nzcv unit lat h.exec h.ready h.alone h.op_lt_128 h.rep (fun _ _ => hres _ _)
    fun s1 hs1 => hf _ (sees_now e 1 s s1 hs1)

/-- A syllable that comes to effects of any kind: they are committed (R181). -/
theorem Alone.commits (h : Alone i e op y s) (f : Eff) (hres : ∀ rps b, reservedSyl e.ty rps b (sylWord op y) = false)
    (hf : ∀ c : Ctx, c.Sees e s → opEffect c false (sylWord op y) = .ok f) (hfbar : f.fbar = false)
    (hout : ∀ s1, SameEngines s1 s → (applyOutside e.ty e.num s1 f).eng (engKey e.ty e.num) = s.core e) :
    ∃ s1, SameEngines s1 s ∧ Machine.exec i s = done (showPc e.ty e.num (s.core e).pc
      ((applyOutside e.ty e.num s1 f).setEng (engKey e.ty e.num) ((s.core e).bundled e.ty 1 [f]))) := by
  obtain ⟨hok, hstop, hcond, -⟩ := y.alone_parts h.alone
  exact exec_commits i e op y s f h.syllable h.wf (ready_parts s e h.ready) hstop h.rep (hres _ _)
    (fun s1 hs1 => (result_of_always e op 1 y s1 false hok h.op_lt_128 hcond).trans (hf _ (sees_now e 1 s s1 hs1))) hfbar hout

end Sys2Proof.Machine
end

section
/-!
PROOFS. The ALU instructions over registers and immediates (O7, O8, O9, O10).
-/

namespace Sys2Proof.Machine

variable {i : Instr} {e : EngineId} {op : Nat} {y : Syl} {s : State} {c : Ctx}

/-! ### Reserved encodings of class ALU (R200) -/

theorem Alone.reservedSyl_alu (h : Alone i e op y s) (hop : op < 0x22) (hfree : reservedAlu e.ty (sylWord op y) = false) (rps : Nat) (b : BrCtx) :
    reservedSyl e.ty rps b (sylWord op y) = false := (h.reservedSyl_alu_eq hop _ _ _).trans hfree

/-- With FN 0 or 1 the instructions of Table 09-1 that set flags by SF, and the shifts, are not reserved. -/
theorem Alone.reservedAlu_sf (h : Alone i e op y s) (hop : op ≤ 0x0B) (hfn : y.fn < 2) : reservedAlu e.ty (sylWord op y) = false := by
  simp only [reservedAlu, h.sylOp, sylFn_sylWord, if_pos hop, bne_eq_false_iff_eq]
  omega

/-- CMP and TST with RD and FN 0 are not reserved. -/
theorem Alone.reservedAlu_compare (h : Alone i e op y s) (hop : op = 0x0C ∨ op = 0x0D) (hrd : y.rd = 0) (hfn : y.fn = 0) :
    reservedAlu e.ty (sylWord op y) = false := by
  have hnot : ¬op ≤ 0x0B := by omega
  simp only [reservedAlu, h.sylOp, sylRd_sylWord, sylFn_sylWord, if_neg hnot, if_pos hop, hrd, hfn]
  rfl

/-- The immediate instructions that have every encoding. -/
theorem Alone.reservedAlu_imm (h : Alone i e op y s) (hop : (0x10 ≤ op ∧ op ≤ 0x13) ∨ op = 0x16 ∨ op = 0x17) :
    reservedAlu e.ty (sylWord op y) = false := by
  have h1 : ¬op ≤ 0x0B := by omega
  have h2 : ¬(op = 0x0C ∨ op = 0x0D) := by omega
  have h3 : op ≠ 0x0E := by omega
  have h4 : op ≠ 0x0F := by omega
  have h5 : op ≤ 0x13 ∨ op = 0x16 ∨ op = 0x17 := by omega
  simp only [reservedAlu, h.sylOp, if_neg h1, if_neg h2, if_neg h3, if_neg h4, if_pos h5]

theorem bit_false_eq : bit false = 0 := rfl

/-! ### Add, subtract, logic and compare (R209, R210) -/

theorem Alone.opEffect_arith (h : Alone i e op y s) (hop : op ≤ 0x07 ∨ op = 0x0C ∨ op = 0x0D) (c : Ctx) :
    opEffect c false (sylWord op y) = opArith c (sylWord op y) := by
  simp only [opEffect, h.sylOp, if_pos hop]

/-- An instruction of Table 09-1 with a result, by what it computes. -/
theorem Alone.writes_arith (h : Alone i e op y s) (hop : op ≤ 0x07) (hfn : y.fn < 2) (r : Nat × FlagVals)
    (hr : ∀ c : Ctx, c.Sees e s → opArith c (sylWord op y) = c.putFlags (sylWord op y) r) :
    Writes i e s y.rd r.1 (if y.fn = 1 then r.2 else []) :=
  h.writes_sf r hfn (h.reservedSyl_alu (by omega) (h.reservedAlu_sf (by omega) hfn)) fun c hc => (h.opEffect_arith (Or.inl hop) c).trans (hr c hc)

/-- A logical instruction at a ready engine. -/
theorem Alone.writes_logic (h : Alone i e op y s) (hop : op ≤ 0x07) (hfn : y.fn < 2) (r : Nat)
    (hr : ∀ c : Ctx, c.Sees e s → opArith c (sylWord op y) = c.putFlags (sylWord op y) (aluLogic c.w r)) :
    Writes i e s y.rd r (if y.fn = 1 then flagsNZ (widthOf e.ty) r else []) :=
  h.writes_arith hop hfn (aluLogic (widthOf e.ty) r) fun c hc => by rw [hr c hc, hc.w]

/-- Settles O7: each instruction puts the sum or difference that the ALU computes, with its flags. -/
theorem registerArithmetic : Obligations.RegisterArithmetic := by
  unfold Obligations.RegisterArithmetic
  intro e y s hr hy hfn w x z k flags
  have hadd : Writes (.addReg e y) e s y.rd (aluAdd w x z false).1 (if y.fn = 1 then (aluAdd w x z false).2 else []) :=
    have h := alone_of_ready (.addReg e y) rfl hr hy
    h.writes_arith (by decide) hfn _ fun c hc => by simp only [opArith, h.sylOp, sylRa_sylWord, sylRb_sylWord, hc.reg, hc.w, w, x, z]
  have hsub : Writes (.subReg e y) e s y.rd (aluSub w x z false).1 (if y.fn = 1 then (aluSub w x z false).2 else []) :=
    have h := alone_of_ready (.subReg e y) rfl hr hy
    h.writes_arith (by decide) hfn _ fun c hc => by simp only [opArith, h.sylOp, sylRa_sylWord, sylRb_sylWord, hc.reg, hc.w, w, x, z]
  have hadc : Writes (.adc e y) e s y.rd (aluAdd w x z (s.carry e)).1 (if y.fn = 1 then (aluAdd w x z (s.carry e)).2 else []) :=
    have h := alone_of_ready (.adc e y) rfl hr hy
    h.writes_arith (by decide) hfn _ fun c hc => by
      simp only [opArith, h.sylOp, sylRa_sylWord, sylRb_sylWord, hc.reg, hc.w, hc.carry, w, x, z]
  have hsbc : Writes (.sbc e y) e s y.rd (aluSub w x z (!s.carry e)).1 (if y.fn = 1 then (aluSub w x z (!s.carry e)).2 else []) :=
    have h := alone_of_ready (.sbc e y) rfl hr hy
    h.writes_arith (by decide) hfn _ fun c hc => by
      simp only [opArith, h.sylOp, sylRa_sylWord, sylRb_sylWord, hc.reg, hc.w, hc.carry, w, x, z]
  have hborrow : bit (!s.carry e) = 1 - k := by
    simp only [k]
    cases s.carry e <;> rfl
  simp only [aluAdd, aluSub, flagsNZ, overflows, hborrow, bit_false_eq, Nat.cast_zero, sub_zero, add_zero, List.cons_append,
    List.nil_append] at hadd hsub hadc hsbc
  exact ⟨hadd, hsub, hadc, hsbc⟩

/-- Settles O8: logic puts its result with N and Z; CMP and TST set the flags of a difference and of a conjunction. -/
theorem registerLogic : Obligations.RegisterLogic := by
  unfold Obligations.RegisterLogic
  intro e y s hr hy w x z nz sf d
  refine ⟨fun hfn => ⟨?_, ?_, ?_, ?_⟩, fun hfn hrd => ⟨?_, ?_⟩⟩
  · have h := alone_of_ready (.andReg e y) rfl hr hy
    exact h.writes_logic (by decide) hfn (x &&& z) fun c hc => by simp only [opArith, h.sylOp, sylRa_sylWord, sylRb_sylWord, hc.reg, x, z]
  · have h := alone_of_ready (.orReg e y) rfl hr hy
    exact h.writes_logic (by decide) hfn (x ||| z) fun c hc => by simp only [opArith, h.sylOp, sylRa_sylWord, sylRb_sylWord, hc.reg, x, z]
  · have h := alone_of_ready (.xor e y) rfl hr hy
    exact h.writes_logic (by decide) hfn (x ^^^ z) fun c hc => by simp only [opArith, h.sylOp, sylRa_sylWord, sylRb_sylWord, hc.reg, x, z]
  · have h := alone_of_ready (.andn e y) rfl hr hy
    exact h.writes_logic (by decide) hfn (x &&& notW w z) fun c hc => by
      simp only [opArith, h.sylOp, sylRa_sylWord, sylRb_sylWord, hc.reg, hc.w, w, x, z]
  · have h := alone_of_ready (.cmp e y) rfl hr hy
    have hflags : Flags (.cmp e y) e s (aluSub w x z false).2 :=
      h.flags _ (h.reservedSyl_alu (by decide) (h.reservedAlu_compare (Or.inl rfl) hrd hfn)) fun c hc =>
        (h.opEffect_arith (by decide) c).trans (by simp only [opArith, h.sylOp, sylRa_sylWord, sylRb_sylWord, hc.reg, hc.w, w, x, z])
    simp only [aluSub, overflows, bit_false_eq, Nat.add_zero, Nat.cast_zero, sub_zero] at hflags
    exact hflags
  · have h := alone_of_ready (.tst e y) rfl hr hy
    exact h.flags _ (h.reservedSyl_alu (by decide) (h.reservedAlu_compare (Or.inr rfl) hrd hfn)) fun c hc =>
      (h.opEffect_arith (by decide) c).trans (by
        simp only [opArith, h.sylOp, sylRa_sylWord, sylRb_sylWord, hc.reg, hc.w, aluLogic, flagsNZ, nz, w, x, z])

/-! ### Shifts (R211) -/

theorem aluShift_shl (w x k : Nat) (carry : Bool) :
    aluShift w 0 x k carry =
      let r := if k = 0 then x else x * 2 ^ k % 2 ^ w
      (r, flagsNZ w r ++ [(2, if k = 0 then carry else decide (k ≤ w) && bitOf x (w - k))]) := by
  by_cases hk : k = 0 <;> simp [aluShift, hk]

theorem aluShift_shr (w x k : Nat) (carry : Bool) :
    aluShift w 1 x k carry =
      let r := if k = 0 then x else x / 2 ^ k
      (r, flagsNZ w r ++ [(2, if k = 0 then carry else decide (k ≤ w) && bitOf x (k - 1))]) := by
  by_cases hk : k = 0 <;> simp [aluShift, hk]

theorem aluShift_sar (w x k : Nat) (carry : Bool) :
    aluShift w 2 x k carry =
      let r := if k = 0 then x else wrapInt w (signedOf w x / (2 ^ k : Nat))
      (r, flagsNZ w r ++ [(2, if k = 0 then carry else if k ≤ w then bitOf x (k - 1) else bitOf x (w - 1))]) := by
  by_cases hk : k = 0 <;> simp [aluShift, hk]

theorem aluShift_ror (w x k : Nat) (carry : Bool) :
    aluShift w 3 x k carry =
      let r := if k = 0 then x else (x / 2 ^ (k % w) + x * 2 ^ (w - k % w)) % 2 ^ w
      (r, flagsNZ w r ++ [(2, if k = 0 then carry else bitOf r (w - 1))]) := by
  by_cases hk : k = 0 <;> simp [aluShift, hk]

/-- A shift by a register. -/
theorem Alone.writes_shift (h : Alone i e op y s) (hop : 0x08 ≤ op ∧ op ≤ 0x0B) (hfn : y.fn < 2) :
    let r := aluShift (widthOf e.ty) (op - 8) (s.vreg e y.ra) (s.vreg e y.rb % 256) (s.carry e)
    Writes i e s y.rd r.1 (if y.fn = 1 then r.2 else []) := by
  intro r
  refine h.writes_sf r hfn (h.reservedSyl_alu (by omega) (h.reservedAlu_sf hop.2 hfn)) fun c hc => ?_
  have hno : ¬(op ≤ 0x07 ∨ op = 0x0C ∨ op = 0x0D) := by omega
  simp only [opEffect, h.sylOp, if_neg hno, if_pos hop.2, opShift, sylRa_sylWord, sylRb_sylWord, hc.reg, hc.w, hc.carry, r]

/-- SHI is reserved by bits [6:5] of its operands alone. -/
theorem Alone.reservedAlu_shi (h : Alone i e 0x14 y s) (hzero : bitsAt y.ops 5 2 = 0) : reservedAlu e.ty (sylWord 0x14 y) = false := by
  simp [reservedAlu, h.sylOp, bitsAt_sylWord, hzero]

/-- An instruction of Table 09-2 is an immediate of the ALU. -/
theorem Alone.opEffect_imm (h : Alone i e op y s) (hop : 0x10 ≤ op ∧ op ≤ 0x17) (c : Ctx) :
    opEffect c false (sylWord op y) = opImm c (sylWord op y) := by
  have h1 : ¬(op ≤ 0x07 ∨ op = 0x0C ∨ op = 0x0D) := by omega
  have h2 : ¬op ≤ 0x0B := by omega
  have h3 : ¬(op = 0x0E ∨ op = 0x0F ∨ op = 0x1A ∨ op = 0x1B) := by omega
  simp only [opEffect, h.sylOp, if_neg h1, if_neg h2, if_neg h3, if_pos hop.2]

/-- SHI puts the ALU's shift of the kind that it names (R212). -/
theorem shi_writes (hr : s.ready e = true) (hy : y.alone = true) (hzero : bitsAt y.ops 5 2 = 0) :
    Writes (.shi e y) e s y.rd (aluShift (widthOf e.ty) (bitsAt y.ops 7 2) (s.vreg e y.ra) (bitsAt y.ops 0 5) (s.carry e)).1 [] := by
  have h := alone_of_ready (.shi e y) rfl hr hy
  refine h.writes _ (h.reservedSyl_alu (by decide) (h.reservedAlu_shi hzero)) fun c hc => (h.opEffect_imm (by decide) c).trans ?_
  have hkind : bitsAt (sylWord 0x14 y) 7 2 = bitsAt y.ops 7 2 := bitsAt_sylWord _ 7 2 y (by decide)
  have hcount : bitsAt (sylWord 0x14 y) 0 5 = bitsAt y.ops 0 5 := bitsAt_sylWord _ 0 5 y (by decide)
  simp only [opImm, h.sylOp, sylRd_sylWord, sylRa_sylWord, hkind, hcount, hc.reg, hc.w, hc.carry]

/-- Settles O9: the four shifts by a register, and SHI, are the ALU's shift of the kind that the opcode, or RB, names. -/
theorem shifts : Obligations.Shifts := by
  unfold Obligations.Shifts
  intro e y s hr hy w x shl shr sar ror k flags
  refine ⟨fun hfn => ⟨?_, ?_, ?_, ?_⟩, fun hzero => ?_⟩
  · have h := (alone_of_ready (.shl e y) rfl hr hy).writes_shift (by decide) hfn
    rwa [show 0x08 - 8 = 0 from rfl, aluShift_shl] at h
  · have h := (alone_of_ready (.shr e y) rfl hr hy).writes_shift (by decide) hfn
    rwa [show 0x09 - 8 = 1 from rfl, aluShift_shr] at h
  · have h := (alone_of_ready (.sar e y) rfl hr hy).writes_shift (by decide) hfn
    rwa [show 0x0A - 8 = 2 from rfl, aluShift_sar] at h
  · have h := (alone_of_ready (.ror e y) rfl hr hy).writes_shift (by decide) hfn
    rwa [show 0x0B - 8 = 3 from rfl, aluShift_ror] at h
  · have h := shi_writes hr hy hzero
    have hkind : bitsAt y.ops 7 2 < 4 := Nat.mod_lt _ (by decide)
    revert h hkind
    generalize bitsAt y.ops 7 2 = kind
    intro h hkind
    interval_cases kind
    · rwa [aluShift_shl] at h
    · rwa [aluShift_shr] at h
    · rwa [aluShift_sar] at h
    · rwa [aluShift_ror] at h

/-! ### Immediates (R212) -/

theorem Alone.writes_imm (h : Alone i e op y s) (hop : (0x10 ≤ op ∧ op ≤ 0x13) ∨ op = 0x16 ∨ op = 0x17) (v : Nat)
    (hv : ∀ c : Ctx, c.Sees e s → opImm c (sylWord op y) = c.put y.rd v) : Writes i e s y.rd v [] :=
  h.writes v (h.reservedSyl_alu (by omega) (h.reservedAlu_imm hop)) fun c hc => (h.opEffect_imm (by omega) c).trans (hv c hc)

/-- Settles O10: each immediate instruction puts the ALU's result of its extended immediate; CMPI sets the flags of the difference. -/
theorem immediates : Obligations.Immediates := by
  unfold Obligations.Immediates
  intro e y s hr hy w x k r d
  have himm (op : Nat) (c : Ctx) (hc : c.Sees e s) : c.imm9 (sylWord op y) = k := by
    simp only [Ctx.imm9, sextTo, sylImm9_sylWord, hc.w, k, w]
  refine ⟨?_, ?_, ?_, ?_, ?_, ?_, fun hrd => ?_⟩
  · have h := alone_of_ready (.addi e y) rfl hr hy
    exact h.writes_imm (by decide) _ fun c hc => by
      simp only [opImm, h.sylOp, sylRd_sylWord, sylRa_sylWord, himm _ c hc, hc.reg, hc.w, aluAdd, bit_false_eq, add_zero, x, w]
  · have h := alone_of_ready (.andi e y) rfl hr hy
    exact h.writes_imm (by decide) _ fun c hc => by simp only [opImm, h.sylOp, sylRd_sylWord, sylRa_sylWord, himm _ c hc, hc.reg, x]
  · have h := alone_of_ready (.ori e y) rfl hr hy
    exact h.writes_imm (by decide) _ fun c hc => by simp only [opImm, h.sylOp, sylRd_sylWord, sylRa_sylWord, himm _ c hc, hc.reg, x]
  · have h := alone_of_ready (.xori e y) rfl hr hy
    exact h.writes_imm (by decide) _ fun c hc => by simp only [opImm, h.sylOp, sylRd_sylWord, sylRa_sylWord, himm _ c hc, hc.reg, x]
  · have h := alone_of_ready (.movi e y) rfl hr hy
    exact h.writes_imm (by decide) _ fun c hc => by simp only [opImm, h.sylOp, sylRd_sylWord, sylImm14_sylWord, sextTo, hc.w, w]
  · have h := alone_of_ready (.movh e y) rfl hr hy
    exact h.writes_imm (by decide) _ fun c hc => by simp only [opImm, h.sylOp, sylRd_sylWord, sylImm14_sylWord, hc.reg, hc.w, w]
  · have h := alone_of_ready (.cmpi e y) rfl hr hy
    have hfree : reservedAlu e.ty (sylWord 0x15 y) = false := by simp [reservedAlu, h.sylOp, sylRd_sylWord, hrd]
    have hflags : Flags (.cmpi e y) e s (aluSub w x k false).2 :=
      h.flags _ (h.reservedSyl_alu (by decide) hfree) fun c hc => (h.opEffect_imm (by decide) c).trans (by
        simp only [opImm, h.sylOp, sylRa_sylWord, himm _ c hc, hc.reg, hc.w, x, w])
    simp only [aluSub, overflows, bit_false_eq, Nat.add_zero, Nat.cast_zero, sub_zero] at hflags
    exact hflags

end Sys2Proof.Machine
end

section
/-!
PROOFS. Bit fields and bit counts (O11).
-/

namespace Sys2Proof.Machine

variable {i : Instr} {e : EngineId} {op : Nat} {y : Syl} {s : State} {c : Ctx}

/-! ### Bit counts (Table 09-3) -/

theorem bitOf_eq_true (x k : Nat) : bitOf x k = true ↔ x / 2 ^ k % 2 = 1 := beq_iff_eq

theorem bitOf_div_two (x k : Nat) : bitOf (x / 2) k = bitOf x (k + 1) := by
  rw [bitOf, bitOf, Nat.div_div_eq_div_mul, pow_succ']

/-- The zeros above the highest 1, from the logarithm of the low bits. -/
theorem clz_eq (w x : Nat) : clz w x = if x % 2 ^ w = 0 then w else w - 1 - Nat.log2 (x % 2 ^ w) := by
  induction w with
  | zero => simp [clz, Nat.mod_one]
  | succ k ih =>
    have hlow : x % 2 ^ k < 2 ^ k := Nat.mod_lt _ (by positivity)
    have hsplit : x % 2 ^ (k + 1) = x % 2 ^ k + 2 ^ k * (x / 2 ^ k % 2) := Nat.mod_pow_succ
    by_cases hbit : bitOf x k = true
    · rw [(bitOf_eq_true x k).1 hbit, Nat.mul_one] at hsplit
      have hne : x % 2 ^ (k + 1) ≠ 0 := by omega
      have hlog : Nat.log2 (x % 2 ^ (k + 1)) = k := (Nat.log2_eq_iff hne).2 ⟨by omega, Nat.mod_lt _ (by positivity)⟩
      rw [clz, if_pos hbit, if_neg hne, hlog, Nat.add_sub_cancel, Nat.sub_self]
    · have hzero : x / 2 ^ k % 2 = 0 := by
        rw [bitOf_eq_true] at hbit
        omega
      have hsame : x % 2 ^ (k + 1) = x % 2 ^ k := by simpa only [hzero, mul_zero, add_zero] using hsplit
      rw [clz, if_neg hbit, hsame, ih]
      by_cases hx : x % 2 ^ k = 0
      · rw [if_pos hx, if_pos hx]
      · have hlog : Nat.log2 (x % 2 ^ k) < k := (Nat.log2_lt hx).2 hlow
        rw [if_neg hx, if_neg hx]
        omega

theorem popc_eq (w x : Nat) : popc w x = ((List.range w).filter (bitOf x)).length := by
  induction w with
  | zero => rfl
  | succ k ih =>
    rw [popc, ih, List.range_succ, List.filter_append, List.length_append, Nat.add_comm]
    cases hbit : bitOf x k <;> simp [hbit, bit]

theorem ctz_eq (w x : Nat) : ctz w x = ((List.range w).find? (bitOf x)).getD w := by
  induction w generalizing x with
  | zero => rfl
  | succ k ih =>
    have hstep : bitOf x ∘ Nat.succ = bitOf (x / 2) := funext fun j => (bitOf_div_two x j).symm
    rw [ctz, List.range_succ_eq_map, List.find?_cons]
    cases hbit : bitOf x 0
    · simp only [Bool.false_eq_true, if_false, List.find?_map, hstep, ih]
      cases (List.range k).find? (bitOf (x / 2)) <;> rfl
    · rfl

/-! ### MINMAX, BITCNT, EXT, INS (R213) -/

/-- An instruction of Table 09-3 that puts a result, where its fields are not reserved. -/
theorem Alone.writes_field (h : Alone i e op y s) (hop : op = 0x0E ∨ op = 0x0F ∨ op = 0x1A ∨ op = 0x1B)
    (hfree : reservedAlu e.ty (sylWord op y) = false) (v : Nat) (hv : ∀ c : Ctx, c.Sees e s → opField c (sylWord op y) = c.put y.rd v) :
    Writes i e s y.rd v [] := by
  refine h.writes v (h.reservedSyl_alu (by omega) hfree) fun c hc => (Eq.trans ?_ (hv c hc))
  have h1 : ¬(op ≤ 0x07 ∨ op = 0x0C ∨ op = 0x0D) := by omega
  have h2 : ¬op ≤ 0x0B := by omega
  simp only [opEffect, h.sylOp, if_neg h1, if_neg h2, if_pos hop]

theorem minmax_writes (hr : s.ready e = true) (hy : y.alone = true) (hfn : y.fn = 0 ∨ y.fn = 2 ∨ y.fn = 4 ∨ y.fn = 6) :
    Writes (.minmax e y) e s y.rd (aluMinMax (widthOf e.ty) y.fn (s.vreg e y.ra) (s.vreg e y.rb)) [] := by
  have h := alone_of_ready (.minmax e y) rfl hr hy
  have hfree : reservedAlu e.ty (sylWord 0x0E y) = false := by
    rcases hfn with hfn | hfn | hfn | hfn <;> simp [reservedAlu, h.sylOp, sylFn_sylWord, hfn]
  exact h.writes_field (by decide) hfree _ fun c hc => by
    simp only [opField, h.sylOp, sylRd_sylWord, sylRa_sylWord, sylRb_sylWord, sylFn_sylWord, hc.reg, hc.w]

theorem bitcnt_writes (hr : s.ready e = true) (hy : y.alone = true) (hrb : y.rb = 0) (hfn : y.fn ≤ 2) :
    Writes (.bitcnt e y) e s y.rd (aluBitCount (widthOf e.ty) y.fn (s.vreg e y.ra)) [] := by
  have h := alone_of_ready (.bitcnt e y) rfl hr hy
  have hfree : reservedAlu e.ty (sylWord 0x0F y) = false := by simp [reservedAlu, h.sylOp, sylFn_sylWord, sylRb_sylWord, hrb, hfn]
  exact h.writes_field (by decide) hfree _ fun c hc => by
    simp only [opField, h.sylOp, sylRd_sylWord, sylRa_sylWord, sylFn_sylWord, hc.reg, hc.w]

/-- EXT in C32, FN[0] asking for the sign. -/
theorem ext_writes_c32 (hr : s.ready e = true) (hy : y.alone = true) (hty : e.ty = 3) (hfn : y.fn < 2) :
    Writes (.extField e y) e s y.rd (extBits (decide (y.fn = 1)) (s.vreg e y.ra) (s.vreg e y.rb)) [] := by
  have h := alone_of_ready (.extField e y) rfl hr hy
  have hfree : reservedAlu e.ty (sylWord 0x1A y) = false := by
    simp [reservedAlu, h.sylOp, sylFn_sylWord, hty]
    omega
  have hc32 : (e.ty == 3) = true := beq_iff_eq.2 hty
  exact h.writes_field (by decide) hfree _ fun c hc => by
    simp only [opField, h.sylOp, sylRd_sylWord, sylRa_sylWord, sylRb_sylWord, sf_sylWord _ y hfn, hc.reg, hc.c32, hc32, if_true]

theorem ins_writes_c32 (hr : s.ready e = true) (hy : y.alone = true) (hty : e.ty = 3) (hfn : y.fn = 0) :
    Writes (.insField e y) e s y.rd (insBits (s.vreg e y.rd) (s.vreg e y.ra) (s.vreg e y.rb)) [] := by
  have h := alone_of_ready (.insField e y) rfl hr hy
  have hfree : reservedAlu e.ty (sylWord 0x1B y) = false := by simp [reservedAlu, h.sylOp, sylFn_sylWord, hty, hfn]
  have hc32 : (e.ty == 3) = true := beq_iff_eq.2 hty
  exact h.writes_field (by decide) hfree _ fun c hc => by
    simp only [opField, h.sylOp, sylRd_sylWord, sylRa_sylWord, sylRb_sylWord, hc.reg, hc.c32, hc32, if_true]

/-- EXT in C24, of a byte that there is. -/
theorem ext_writes_c24 (hr : s.ready e = true) (hy : y.alone = true) (hty : e.ty ≠ 3) (hrb : y.rb = 0) (hfn : y.fn < 8) (hbyte : y.fn % 4 ≠ 3) :
    Writes (.extField e y) e s y.rd (extByte y.fn (s.vreg e y.ra)) [] := by
  have h := alone_of_ready (.extField e y) rfl hr hy
  have hfree : reservedAlu e.ty (sylWord 0x1A y) = false := by
    simp [reservedAlu, h.sylOp, sylFn_sylWord, sylRb_sylWord, hty, hrb, hbyte]
    omega
  have hc32 : (e.ty == 3) = false := beq_eq_false_iff_ne.2 hty
  exact h.writes_field (by decide) hfree _ fun c hc => by
    simp only [opField, h.sylOp, sylRd_sylWord, sylRa_sylWord, sylFn_sylWord, hc.reg, hc.c32, hc32, Bool.false_eq_true, if_false]

theorem ins_writes_c24 (hr : s.ready e = true) (hy : y.alone = true) (hty : e.ty ≠ 3) (hrb : y.rb = 0) (hfn : y.fn < 3) :
    Writes (.insField e y) e s y.rd (insByte y.fn (s.vreg e y.rd) (s.vreg e y.ra)) [] := by
  have h := alone_of_ready (.insField e y) rfl hr hy
  have hfree : reservedAlu e.ty (sylWord 0x1B y) = false := by
    simp [reservedAlu, h.sylOp, sylFn_sylWord, sylRb_sylWord, hty, hrb]
    omega
  have hc32 : (e.ty == 3) = false := beq_eq_false_iff_ne.2 hty
  exact h.writes_field (by decide) hfree _ fun c hc => by
    simp only [opField, h.sylOp, sylRd_sylWord, sylRa_sylWord, sylFn_sylWord, hc.reg, hc.c32, hc32, Bool.false_eq_true, if_false]

/-- The byte that EXT takes in C24, without and with sign. -/
theorem extByte_eq (k x : Nat) (hk : k < 3) : extByte k x = x / 2 ^ (8 * k) % 256 := by
  interval_cases k <;> rfl

theorem extByte_signed (k x : Nat) (hlow : 4 ≤ k) (hhigh : k < 7) :
    extByte k x = wrapInt 24 (signedOf 8 (x / 2 ^ (8 * (k - 4)) % 256)) := by
  interval_cases k <;> rfl

/-- Settles O11: each instruction puts the field, the count or the operand that Table 09-3 gives. -/
theorem fieldOperations : Obligations.FieldOperations := by
  unfold Obligations.FieldOperations
  intro e y s hr hy w x z p l less
  refine ⟨fun hfn => ?_, fun hfn => ?_, fun hrb hfn => ?_, fun hrb hfn => ?_, fun hrb hfn => ?_, fun hty hfn => ?_, fun hty hfn => ?_,
    fun hty hfn => ?_, fun hty hrb hfn => ?_, fun hty hrb hlow hhigh => ?_, fun hty hrb hfn => ?_⟩
  · have h := minmax_writes hr hy (by omega)
    have hmin : bitOf y.fn 1 = false := by rcases hfn with hfn | hfn <;> rw [hfn] <;> rfl
    simpa only [aluMinMax, hmin, Bool.false_eq_true, if_false] using h
  · have h := minmax_writes hr hy (by omega)
    have hmax : bitOf y.fn 1 = true := by rcases hfn with hfn | hfn <;> rw [hfn] <;> rfl
    simpa only [aluMinMax, hmax, if_true] using h
  · have h := bitcnt_writes hr hy hrb (by omega)
    simpa only [hfn, aluBitCount, clz_eq] using h
  · have h := bitcnt_writes hr hy hrb (by omega)
    simpa only [hfn, aluBitCount, popc_eq] using h
  · have h := bitcnt_writes hr hy hrb (by omega)
    simpa only [hfn, aluBitCount, ctz_eq] using h
  · have h := ext_writes_c32 hr hy hty (by omega)
    rwa [hfn] at h
  · have h := ext_writes_c32 hr hy hty (by omega)
    rwa [hfn] at h
  · exact ins_writes_c32 hr hy hty hfn
  · have h := ext_writes_c24 hr hy hty hrb (by omega) (by omega)
    rwa [extByte_eq _ _ hfn] at h
  · have h := ext_writes_c24 hr hy hty hrb (by omega) (by omega)
    rwa [extByte_signed _ _ hlow hhigh] at h
  · have h := ins_writes_c24 hr hy hty hrb hfn
    rwa [insByte, Nat.mod_eq_of_lt (by omega)] at h

end Sys2Proof.Machine
end

section
/-!
PROOFS. Traps that the statements describe otherwise than the engine takes them (O12, O13, O16, O18).
-/

namespace Sys2Proof.Machine

/-- A system register reads what was stored in it. -/
theorem sysGet_sysPut (ty : Nat) (t : Tbl Nat) (sel v : Nat) : sysGet ty (sysPut ty t sel v) sel = v := by
  simp [sysGet, sysPut]

/-- Another system register keeps its value. -/
theorem sysGet_sysPut_other (ty : Nat) (t : Tbl Nat) (sel sel' v : Nat) (h : sel' ≠ sel) :
    sysGet ty (sysPut ty t sel v) sel' = sysGet ty t sel' := by
  simp only [sysGet, sysPut, tblGet, tblFind_set_other _ _ _ _ _ h]

/-- TVAL as a trap by the statements leaves it. -/
theorem trapSys_tval (ty : Nat) (t : Tbl Nat) (cause tval info pc next flg : Nat) :
    sysGet ty (trapSys ty t cause tval info pc next flg) 9 = tval := by
  unfold trapSys
  rw [sysGet_sysPut_other _ _ _ _ _ (by decide), sysGet_sysPut_other _ _ _ _ _ (by decide), sysGet_sysPut]

/-- An instruction that traps at a ready engine leaves its TVAL there. -/
theorem Traps.tval {i : Instr} {e : EngineId} {s u : State} {cause tval info rsm next : Nat} (h : Traps i e s cause tval info rsm next)
    (hrun : exec i s = done u) : u.sysReg e.ty e.num 9 = tval := by
  obtain ⟨t, hnext, -, hcore⟩ := h
  have htval : sysGet e.ty (t.core e).sys 9 = tval := by
    rw [hcore]
    exact trapSys_tval _ _ _ _ _ _ _ _
  rw [core_of_done hrun hnext] at htval
  exact htval

/-! ### A trap of a C24 engine: TVAL has 24 bits (R177) -/

/-- It is ready with no handler active; DIV v0, v0, v0 leaves in TVAL 0x100000, and ADD with FN 2, which is reserved, 2. -/
theorem slatStarted_traps :
    slatStarted.ready ⟨4, 0⟩ = true ∧ trapActive 4 (slatStarted.core ⟨4, 0⟩).sys = false ∧
    (issue ⟨4, 0⟩ 0x21 (bundleOf 0) slatStarted).sysReg 4 0 9 = 0x100000 ∧
    (issue ⟨4, 0⟩ 0x00 (bundleOf 2) slatStarted).sysReg 4 0 9 = 2 := by decide +kernel

/-- Refutes O12: of a DIV by 0 it has the whole syllable in TVAL, whatever the engine; a C24 TVAL holds its low 24 bits. -/
theorem not_multiplyDivideDecimal : ¬ Obligations.MultiplyDivideDecimal := by
  unfold Obligations.MultiplyDivideDecimal
  intro hclaim
  obtain ⟨hready, hquiet, hdiv, -⟩ := slatStarted_traps
  obtain ⟨-, -, -, -, -, -, -, -, -, htrap, -⟩ := hclaim ⟨4, 0⟩ (bundleOf 0) slatStarted hready (by decide)
  have htval := (htrap (by decide) rfl hquiet).tval (u := issue ⟨4, 0⟩ 0x21 (bundleOf 0) slatStarted) rfl
  exact absurd (hdiv.symm.trans htval) (by decide)

/-- Refutes O18: of a reserved ADD it has the whole syllable in TVAL, whatever the engine; a C24 TVAL holds its low 24 bits. -/
theorem not_softwareTraps : ¬ Obligations.SoftwareTraps := by
  unfold Obligations.SoftwareTraps
  rintro ⟨hclaim, -⟩
  obtain ⟨hready, hquiet, -, hadd⟩ := slatStarted_traps
  obtain ⟨-, -, htrap⟩ := hclaim ⟨4, 0⟩ (bundleOf 2) slatStarted hready (by decide) hquiet
  have htval := (htrap (by decide)).tval (u := issue ⟨4, 0⟩ 0x00 (bundleOf 2) slatStarted) rfl
  exact absurd (hadd.symm.trans htval) (by decide)

/-! ### Traps of a sash engine -/

/-- PD_PANE_0 has come up under PD_BLINTEL and PD_NOC, and its sash engine has started (R263, Table 19-2). -/
def sashStarted : State := startEngine 3 0 (reachStates [(8, psOn), (9, psOn), (14, psOn)] State.reset)

/-- It is ready; FCLASS v1, v0 of binary64, whose RD is odd, leaves no result to land. -/
theorem sashStarted_fclass : sashStarted.ready ⟨3, 0⟩ = true ∧
    ((issue ⟨3, 0⟩ 0x2D (bundleOf (2 ^ 14 + 2)) sashStarted).core ⟨3, 0⟩).late = [] := by decide +kernel

/-- Refutes O13: it has FCLASS of binary64 write any v(RD); with FN[1:0] = 0b10 an odd RD is a reserved encoding (R200), and the engine traps. -/
theorem not_floatingPoint : ¬ Obligations.FloatingPoint := by
  unfold Obligations.FloatingPoint
  intro hclaim
  obtain ⟨hready, hlate⟩ := sashStarted_fclass
  obtain ⟨-, -, hclass, -⟩ := hclaim ⟨3, 0⟩ (bundleOf (2 ^ 14 + 2)) sashStarted hready (by decide) rfl (by decide)
  obtain ⟨-, t, hrun, -, hcore⟩ := hclass (by decide) (by decide) (by decide)
  have hnone : (t.core ⟨3, 0⟩).late = [] := by
    rw [core_of_done (s := issue ⟨3, 0⟩ 0x2D (bundleOf (2 ^ 14 + 2)) sashStarted) rfl hrun, hlate]
  rw [hcore] at hnone
  exact List.cons_ne_nil _ _ hnone

/-- Two symbols of row 0 of its data memory have been struck: the row is uncorrectable (R119). -/
def rowStruck : State := sashStarted.setMem (engKey 3 0) { sashStarted.mem (engKey 3 0) with errs := [(rowKey true 0, 0x11)] }

/-- Its engine is ready with no handler active; LD.W v1 from address 4, in row 0, leaves in TVAL the address of the row. -/
theorem rowStruck_load :
    rowStruck.ready ⟨3, 0⟩ = true ∧ trapActive 3 (rowStruck.core ⟨3, 0⟩).sys = false ∧
    (rowStruck.mem (engKey 3 0)).decode true 0 = .uncorrectable ∧
    (issue ⟨3, 0⟩ 0x44 (bundleOf (2 ^ 14 + 1)) rowStruck).sysReg 3 0 9 = 0 := by decide +kernel

/-- Refutes O16: of a load from an uncorrectable row it has the load's own address in TVAL; TVAL shows that of the row, 8 bytes long, so a load
from its second half shows 4 less (R194, R217). -/
theorem not_localAccessTraps : ¬ Obligations.LocalAccessTraps := by
  unfold Obligations.LocalAccessTraps
  intro hclaim
  obtain ⟨hready, hquiet, hrow, hzero⟩ := rowStruck_load
  obtain ⟨-, -, htrap⟩ := hclaim ⟨3, 0⟩ (bundleOf (2 ^ 14 + 1)) rowStruck hready (by decide) rfl hquiet
  obtain ⟨hload, -⟩ := htrap (by decide) (by decide) hrow
  have htval := hload.tval (u := issue ⟨3, 0⟩ 0x44 (bundleOf (2 ^ 14 + 1)) rowStruck) rfl
  exact absurd (hzero.symm.trans htval) (by decide)

end Sys2Proof.Machine
end

section
/-!
PROOFS. The waits and barriers (O23), and where a bundle of one syllable goes that does not come to plain effects.
-/

namespace Sys2Proof.Machine

variable {i : Instr} {e : EngineId} {op : Nat} {y : Syl} {s : State} {c : Ctx}

/-! ### The end of a bundle of one syllable -/

/-- A syllable that is not reserved comes to the end of its bundle, which sees the engine as it was (R181). -/
theorem Alone.issue_finish (h : Alone i e op y s) (hres : ∀ rps b, reservedSyl e.ty rps b (sylWord op y) = false) :
    ∃ s1, SameEngines s1 s ∧ issue e op y s =
      endBundle e.ty e.num (finishBundle (Ctx.now e.ty e.num 1 s1) [sylWord op y] false y.stamp s1) := by
  have hready := ready_parts s e h.ready
  obtain ⟨hok, hstop, -, -⟩ := y.alone_parts h.alone
  have hw : sylStop (sylWord op y) = true := (sylStop_sylWord op y hok h.op_lt_128).trans hstop
  obtain ⟨s0, hs0, hissue⟩ := issue_ready e op y s hready
  rw [if_pos hw] at hissue
  obtain ⟨s1, hs1, hrun⟩ := runBundle_of_legal e [sylWord op y] [] y.stamp s s0 hready hs0.rest
    ((hs0.engines _).trans (by rw [← hready.bundle]; rfl)) (fun k _ => hs0.engines k) (illegal_one _ _ hw) rfl
    (by simp only [reservedFrom, h.sylOp, h.rep, if_false, hres, Bool.false_and, Bool.or_self, Bool.false_eq_true])
  exact ⟨s1, hs1, hissue.trans hrun⟩

/-- A syllable by itself comes to what its opcode gives. -/
theorem Alone.result (h : Alone i e op y s) (s1 : State) :
    (Ctx.now e.ty e.num 1 s1).result false (sylWord op y) = opEffect (Ctx.now e.ty e.num 1 s1) false (sylWord op y) := by
  obtain ⟨hok, -, hcond, -⟩ := y.alone_parts h.alone
  exact result_of_always e op 1 y s1 false hok h.op_lt_128 hcond

theorem finishBundle_wait (c : Ctx) (w stamp : Nat) (s : State) (h : c.result false w = .wait) :
    finishBundle c [w] false stamp s = waitBundle c.ty c.n [w] s := by
  simp [finishBundle, h, firstTrap, OpRes.isHalt, OpRes.isDouble, OpRes.isWait]

theorem finishBundle_ok (c : Ctx) (w stamp : Nat) (s : State) (f : Eff) (h : c.result false w = .ok f) :
    finishBundle c [w] false stamp s = afterBundle c.ty c.n [f] (commit c [f] s) := by
  simp [finishBundle, h, firstTrap, OpRes.isHalt, OpRes.isDouble, OpRes.isWait, OpRes.farOf, OpRes.effOf]

/-! ### A wait (R198) -/

/-- The engine of a bundle that waits: at its PC, its cycles further. -/
theorem waitBundle_core (e : EngineId) (ws : List Nat) (s s1 : State) (hs : SameEngines s1 s) (h : Ready s e) :
    (waitBundle e.ty e.num ws s1).core e =
      { s.core e with cyc := (s.core e).cyc + 1 + Config.freeValue s1.freeCount, held := holdsEvents e.ty ws } := by
  have hbundle := h.bundle
  have hfar := canIssue_far s e h
  have hx : s1.eng (engKey e.ty e.num) = s.core e := hs.engines _
  have hdrop : (dropBundle e.ty e.num s1).eng (engKey e.ty e.num) = s.core e := by
    rw [dropBundle, State.setEng_same, hx, ← hbundle, ← hfar]
  have hpass : (passCycles e.ty e.num (dropBundle e.ty e.num s1)).eng (engKey e.ty e.num) =
      { s.core e with cyc := (s.core e).cyc + 1 + Config.freeValue s1.freeCount } := by
    rw [passCycles, State.setEng_same, show (dropBundle e.ty e.num s1).draw.2.eng (engKey e.ty e.num) = s.core e from hdrop]
    rfl
  rw [State.core, waitBundle, State.setEng_same, hpass]

theorem waitBundle_rest (ty n : Nat) (ws : List Nat) (s : State) :
    waitBundle ty n ws s = { s with engines := (waitBundle ty n ws s).engines, freeCount := s.freeCount + 1 } := by
  simp only [waitBundle, passCycles, dropBundle, State.setEng, State.draw]

/-- A bundle that waits changes its engine and the count of free values alone. -/
theorem waitBundle_frame (e : EngineId) (ws : List Nat) (s s1 : State) (hs : SameEngines s1 s) :
    waitBundle e.ty e.num ws s1 = { s with engines := (waitBundle e.ty e.num ws s1).engines, freeCount := s.freeCount + 1 } ∧
      ∀ k, k ≠ engKey e.ty e.num → (waitBundle e.ty e.num ws s1).eng k = s.eng k := by
  refine ⟨?_, fun k hk => ?_⟩
  · have hrest := waitBundle_rest e.ty e.num ws s1
    revert hrest
    generalize waitBundle e.ty e.num ws s1 = t
    intro hrest
    rw [hrest, hs.rest]
  · have hpass : (passCycles e.ty e.num (dropBundle e.ty e.num s1)).eng k = (dropBundle e.ty e.num s1).eng k := State.setEng_other _ _ _ _ hk
    rw [waitBundle, State.setEng_other _ _ _ _ hk, hpass, dropBundle, State.setEng_other _ _ _ _ hk, hs.engines]

/-- A syllable that waits: what Waits says of it. -/
theorem Alone.waits (h : Alone i e op y s) (held : Bool) (hres : ∀ rps b, reservedSyl e.ty rps b (sylWord op y) = false)
    (hheld : holdsEvents e.ty [sylWord op y] = held) (hf : ∀ c : Ctx, c.Sees e s → opEffect c false (sylWord op y) = .wait) :
    Waits i e held s := by
  have hready := ready_parts s e h.ready
  obtain ⟨s1, hs1, hissue⟩ := h.issue_finish hres
  rw [finishBundle_wait _ _ _ _ ((h.result s1).trans (hf _ (sees_now e 1 s s1 hs1)))] at hissue
  have hcore := waitBundle_core e [sylWord op y] s s1 hs1 hready
  obtain ⟨hframe, hothers⟩ := waitBundle_frame e [sylWord op y] s s1 hs1
  rw [hheld] at hcore
  change issue e op y s = endBundle e.ty e.num (waitBundle e.ty e.num [sylWord op y] s1) at hissue
  generalize waitBundle e.ty e.num [sylWord op y] s1 = u at hissue hcore hframe hothers
  have hstop : (u.eng (engKey e.ty e.num)).stopReq = false := ((congrArg Engine.stopReq hcore).trans rfl).trans hready.stop
  rw [endBundle_run _ _ _ hstop] at hissue
  obtain ⟨p, hnext⟩ := next_of_done ((exec_syllable i e op y s h.syllable h.wf).trans (congrArg done hissue))
  have hlevels : (u.withPins p).core e = u.core e := rfl
  refine ⟨_, hnext, congrArg (fun t => State.withPins t p) hframe, by rw [hlevels, hcore], ?_, hothers⟩
  rw [hlevels, hcore]
  show (s.core e).cyc < (s.core e).cyc + 1 + _
  omega

/-! ### A bundle that leaves its engine as it was -/

/-- A syllable without effects, but for the cycles that it costs. -/
theorem Alone.runs_id (h : Alone i e op y s) (cost : Nat) (hres : ∀ rps b, reservedSyl e.ty rps b (sylWord op y) = false)
    (hf : ∀ c : Ctx, c.Sees e s → opEffect c false (sylWord op y) = .ok { cost := cost }) : Runs i e s id := by
  obtain ⟨t, hnext, hframe, hcore⟩ := h.runs { cost := cost } ⟨rfl, rfl, rfl, rfl, rfl⟩ hres hf
  refine ⟨t, hnext, hframe, hcore.trans ?_⟩
  have hloads := (ready_parts s e h.ready).loads
  simp [Eff.onto, applyRegs, physPuts, hloads]

/-- An FBAR with no enabled FP exception pending (R228). -/
theorem Alone.runs_fbar (h : Alone i e op y s) (hres : ∀ rps b, reservedSyl e.ty rps b (sylWord op y) = false)
    (hf : ∀ c : Ctx, c.Sees e s → opEffect c false (sylWord op y) = .ok { fbar := true }) (hpend : bitOf (s.sysReg e.ty e.num 0x20) 15 = false) :
    Runs i e s id := by
  have hready := ready_parts s e h.ready
  obtain ⟨s1, hs1, hissue⟩ := h.issue_finish hres
  have hout : [({ fbar := true } : Eff)].foldl (applyOutside e.ty e.num) s1 = s1 := rfl
  have hcommit := commit_ready e 1 s s1 s1 [{ fbar := true }] hs1 hready hout (hs1.engines _)
  have hbundled := bundled_of_ready s e hready 1 [{ fbar := true }] (by simp) (by simp)
  have hafter : afterBundle e.ty e.num [{ fbar := true }] (commit (Ctx.now e.ty e.num 1 s1) [{ fbar := true }] s1) =
      commit (Ctx.now e.ty e.num 1 s1) [{ fbar := true }] s1 := by
    have hsys : ((commit (Ctx.now e.ty e.num 1 s1) [{ fbar := true }] s1).eng (engKey e.ty e.num)).sys = (s.core e).sys := by
      rw [hcommit, showPc_eng, State.setEng_same, hbundled]
      rfl
    have hclear : bitOf (sysGet e.ty (s.core e).sys 0x20) 15 = false := hpend
    simp only [afterBundle, hsys, hclear, Bool.and_false, Bool.false_and, Bool.false_eq_true, if_false]
  have hrun : issue e op y s = showPc e.ty e.num (s.core e).pc (s1.setEng (engKey e.ty e.num) ((s.core e).bundled e.ty 1 [{ fbar := true }])) := by
    rw [hissue, finishBundle_ok _ _ _ _ _ ((h.result s1).trans (hf _ (sees_now e 1 s s1 hs1)))]
    refine (congrArg (endBundle e.ty e.num) (hafter.trans hcommit)).trans (endBundle_run _ _ _ ?_)
    rw [showPc_eng, State.setEng_same, bundled_stopReq]
    exact hready.stop
  exact runs_of_commit i e s s1 _ _ id hs1 ((exec_syllable i e op y s h.syllable h.wf).trans (congrArg done hrun)) hbundled

/-! ### WFI, SYNC and FBAR (R226 to R228) -/

/-- WFI, SYNC and, in C32, FBAR with no operand are not reserved. -/
theorem Alone.reservedSyl_wait (h : Alone i e op y s) (hop : op = 0x6C ∨ op = 0x6D ∨ op = 0x6E ∧ e.ty = 3) (hops : y.ops = 0) (rps : Nat)
    (b : BrCtx) : reservedSyl e.ty rps b (sylWord op y) = false := by
  have hdisp : sylDisp (sylWord op y) = 0 := (bitsAt_sylWord op 0 19 y (by decide)).trans (by rw [hops]; rfl)
  rw [h.reservedSyl_br_eq (by omega)]
  rcases hop with rfl | rfl | ⟨rfl, hty⟩
  · simp [reservedBr, h.sylOp, hdisp]
  · simp [reservedBr, h.sylOp, hdisp]
  · simp [reservedBr, h.sylOp, hdisp, hty]

theorem Alone.opEffect_wait (h : Alone i e op y s) (hop : 0x6C ≤ op ∧ op ≤ 0x6E) (c : Ctx) :
    opEffect c false (sylWord op y) = opWait c (sylWord op y) := by
  obtain rfl | rfl | rfl : op = 0x6C ∨ op = 0x6D ∨ op = 0x6E := by omega
  · simp [opEffect, h.sylOp]
  · simp [opEffect, h.sylOp]
  · simp [opEffect, h.sylOp]

/-- Settles O23: WFI completes or waits by what is pending, SYNC costs its cycles, and FBAR checks for a double trap only. -/
theorem waitsAndBarriers : Obligations.WaitsAndBarriers := by
  unfold Obligations.WaitsAndBarriers
  intro e y s hr hy hops wakes
  refine ⟨fun hwakes => ?_, fun hidle hnone => ?_, ?_, fun hty hpend => ?_⟩
  · have h := alone_of_ready (.wfi e y) rfl hr hy
    refine h.runs_id 0 (h.reservedSyl_wait (Or.inl rfl) hops) fun c hc => (h.opEffect_wait (by decide) c).trans ?_
    simp only [opWait, h.sylOp, hc.ipend, hc.sr]
    exact if_pos (Or.inl hwakes)
  · have h := alone_of_ready (.wfi e y) rfl hr hy
    refine h.waits true (h.reservedSyl_wait (Or.inl rfl) hops) (by simp [holdsEvents, h.sylOp])
      fun c hc => (h.opEffect_wait (by decide) c).trans ?_
    simp only [opWait, h.sylOp, hc.ipend, hc.sr, hc.link, hnone]
    exact if_neg (not_or.2 ⟨hidle, fun hend => Bool.false_ne_true hend.2⟩)
  · have h := alone_of_ready (.sync e y) rfl hr hy
    exact h.runs_id 3 (h.reservedSyl_wait (Or.inr (Or.inl rfl)) hops) fun c _ => (h.opEffect_wait (by decide) c).trans (by
      simp only [opWait, h.sylOp])
  · have h := alone_of_ready (.fbar e y) rfl hr hy
    exact h.runs_fbar (h.reservedSyl_wait (Or.inr (Or.inr ⟨rfl, hty⟩)) hops)
      (fun c _ => (h.opEffect_wait (by decide) c).trans (by simp only [opWait, h.sylOp])) (by rw [hty]; exact hpend)

end Sys2Proof.Machine
end

section
/-!
PROOFS. Loads from and stores to local memory (O14, O15).
-/

namespace Sys2Proof.Machine

variable {i : Instr} {e : EngineId} {op : Nat} {y : Syl} {s : State} {c : Ctx}

/-! ### An access that traps nothing (R217) -/

/-- Rows that read clean trap nothing, of whatever an access reads in C32, and of one word in C24 (R194). -/
theorem Ctx.Sees.eccAt_clean (hc : c.Sees e s) (a size shown : Nat) (hsize : e.ty ≠ 3 → size = 3) (hclean : s.dataClean e a size = true) :
    c.eccAt a size shown = none := by
  rw [State.dataClean, ← hc.mem] at hclean
  by_cases hty : e.ty = 3
  · exact Machine.eccAt_clean c a size shown (by rw [hc.c32]; exact beq_iff_eq.2 hty) hclean
  · rw [hsize hty] at hclean ⊢
    have hgood : c.mem.bad true (rowsOf a 3) = false := by
      rw [EngMem.bad, List.any_eq_false]
      intro r hr
      simp [beq_iff_eq.1 (List.all_eq_true.1 hclean r hr)]
    have hc32 : c.c32 = false := by rw [hc.c32]; exact beq_eq_false_iff_ne.2 hty
    simp [Ctx.eccAt, hc32, hgood]

/-- An access at an aligned address inside data memory, to rows that read clean, traps nothing. -/
theorem Ctx.Sees.localTrap_none (hc : c.Sees e s) (a size shown : Nat) (aligned reads : Bool) (halign : aligned = true → a % size = 0)
    (hin : a + size ≤ 65536) (hsize : e.ty ≠ 3 → size = 3) (hclean : s.dataClean e a size = true) :
    c.localTrap a size shown aligned reads = none := by
  have h1 : ¬(aligned = true ∧ a % size ≠ 0) := fun hbad => hbad.2 (halign hbad.1)
  rw [Ctx.localTrap, if_neg h1, if_neg (Nat.not_lt.2 hin), hc.eccAt_clean a size shown hsize hclean]
  split <;> rfl

/-! ### Loads (R191, R218) -/

/-- The engine of a ready state after a bundle that reads rows and leaves loads pending. -/
theorem bundled_loads (s : State) (e : EngineId) (h : Ready s e) (rows : List Nat) (rs : List (Nat × Nat)) :
    (s.core e).bundled e.ty 1 [{ rows := rows, loads := rs }] =
      { s.core e with loads := rs, pc := pcOf e.ty ((s.core e).pc + 4), cyc := (s.core e).cyc + 1 } := by
  have hbundled : (s.core e).bundled e.ty 1 [{ rows := rows, loads := rs }] =
      { s.core e with due := [], loads := rs, pc := pcOf e.ty ((s.core e).pc + 4), cyc := (s.core e).cyc + 1, bundle := [], far := none } := by
    simp [Engine.bundled, applyRegs, physPuts]
  simp only [hbundled, h.due, h.bundle, canIssue_far s e h]

/-- A syllable that reads rows that are clean and leaves loads pending: what Loads says of it. -/
theorem Alone.loads_of_effect (h : Alone i e op y s) (rows : List Nat) (rs : List (Nat × Nat))
    (hres : ∀ rps b, reservedSyl e.ty rps b (sylWord op y) = false)
    (hclean : rows.all (fun r => (s.mem (engKey e.ty e.num)).decode true r == .clean) = true)
    (hf : ∀ c : Ctx, c.Sees e s → opEffect c false (sylWord op y) = .ok { rows := rows, loads := rs }) : Loads i e s rs := by
  have hready := ready_parts s e h.ready
  have hout : ∀ s1, SameEngines s1 s → applyOutside e.ty e.num s1 { rows := rows, loads := rs } = s1 := fun s1 hs1 =>
    readRows_clean e.ty e.num rows s1 (by rw [hs1.mem]; exact hclean)
  obtain ⟨s1, hs1, hexec⟩ := h.commits { rows := rows, loads := rs } hres hf rfl (fun s1 hs1 => by rw [hout s1 hs1]; exact hs1.engines _)
  rw [hout s1 hs1] at hexec
  refine runs_of_commit i e s s1 _ _ _ hs1 hexec ?_
  rw [bundled_loads s e hready]

/-- The loads of Table 09-5 that an engine type has, with an even RD for a pair, are not reserved. -/
theorem Alone.reservedSyl_load (h : Alone i e op y s) (hop : 0x40 ≤ op ∧ op ≤ 0x46) (hpair : op ≠ 0x45 ∨ y.rd % 2 = 0)
    (hword : e.ty ≠ 3 → op = 0x44) (rps : Nat) (b : BrCtx) : reservedSyl e.ty rps b (sylWord op y) = false := by
  rw [h.reservedSyl_lsu_eq (by omega)]
  simp only [reservedLsu, h.sylOp, if_pos hop.2, sylRd_sylWord]
  by_cases hty : e.ty = 3
  · rcases hpair with hop | hrd
    · simp [hty, hop]
    · simp [hty, hrd]
  · simp [hty, hword hty]

theorem Alone.opEffect_load (h : Alone i e op y s) (hop : 0x40 ≤ op ∧ op ≤ 0x46) (c : Ctx) :
    opEffect c false (sylWord op y) = opLoad c (sylWord op y) := by
  obtain ⟨h1, h2⟩ := hop
  have hop := h.sylOp
  interval_cases op <;> simp [opEffect, hop]

/-- A load of some bytes at an address where it traps nothing: the values that its conversion makes of the number read are pending. -/
theorem Alone.loads (h : Alone i e op y s) (hop : 0x40 ≤ op ∧ op ≤ 0x46) (a size shown : Nat) (aligned : Bool) (f : Nat → List Nat)
    (hpair : op ≠ 0x45 ∨ y.rd % 2 = 0) (hword : e.ty ≠ 3 → op = 0x44 ∧ size = 3) (halign : aligned = true → a % size = 0)
    (hin : a + size ≤ 65536) (hclean : s.dataClean e a size = true)
    (hf : ∀ c : Ctx, c.Sees e s → opLoad c (sylWord op y) = c.load (sylWord op y) a size shown aligned f) :
    Loads i e s ((List.range (f (s.data e a size)).length).map (fun k => (s.vphys e (y.rd + k), (f (s.data e a size)).getD k 0))) := by
  refine h.loads_of_effect (rowsOf a size) _ (h.reservedSyl_load hop hpair fun hty => (hword hty).1) hclean fun c hc => ?_
  have hnone := hc.localTrap_none a size shown aligned true halign hin (fun hty => (hword hty).2) hclean
  simp only [h.opEffect_load hop, hf c hc, Ctx.load, hnone, hc.peek, hc.phys, sylRd_sylWord]

/-- The address of a local access in C32, scaled by its size (R183). -/
theorem Ctx.Sees.addr32 (hc : c.Sees e s) (op size : Nat) (y : Syl) :
    c.addr32 (sylWord op y) size = wrapInt 32 ((s.vreg e y.ra : Int) + signedOf 9 y.imm9 * size) := by
  rw [Ctx.addr32, hc.reg, sylRa_sylWord, sylImm9_sylWord]

/-- The word address of a local access in C24. -/
theorem Ctx.Sees.addr24 (hc : c.Sees e s) (op : Nat) (y : Syl) :
    c.addr24 (sylWord op y) = wrapInt 24 ((s.vreg e y.ra : Int) + signedOf 9 y.imm9) := by
  rw [Ctx.addr24, hc.reg, sylRa_sylWord, sylImm9_sylWord]

theorem Ctx.Sees.c32_true (hc : c.Sees e s) (hty : e.ty = 3) : c.c32 = true := hc.c32.trans (beq_iff_eq.2 hty)

theorem Ctx.Sees.c32_false (hc : c.Sees e s) (hty : e.ty ≠ 3) : c.c32 = false := hc.c32.trans (beq_eq_false_iff_ne.2 hty)

/-- A load of C32 at an address that is aligned, inside and clean. -/
theorem Alone.loads_c32 (h : Alone i e op y s) (hop : 0x40 ≤ op ∧ op ≤ 0x46) (hty : e.ty = 3) (hpair : op ≠ 0x45 ∨ y.rd % 2 = 0)
    (a size shown : Nat) (f : Nat → List Nat) (hfits : a % size = 0 ∧ a + size ≤ 65536 ∧ s.dataClean e a size = true)
    (hf : ∀ c : Ctx, c.Sees e s → opLoad c (sylWord op y) = c.load (sylWord op y) a size shown true f) :
    Loads i e s ((List.range (f (s.data e a size)).length).map (fun k => (s.vphys e (y.rd + k), (f (s.data e a size)).getD k 0))) := by
  obtain ⟨halign, hin, hclean⟩ := hfits
  exact h.loads hop a size shown true f hpair (fun hne => absurd hty hne) (fun _ => halign) hin hclean hf

/-- LD.W of C24, whose address counts words of 3 bytes. -/
theorem loads_c24 (hr : s.ready e = true) (hy : y.alone = true) (hty : e.ty ≠ 3) (a : Nat)
    (ha : a = wrapInt 24 ((s.vreg e y.ra : Int) + signedOf 9 y.imm9)) (hin : 3 * a + 3 ≤ 65536) (hclean : s.dataClean e (3 * a) 3 = true) :
    Loads (.ldW e y) e s [(s.vphys e y.rd, s.data e (3 * a) 3)] := by
  have h := alone_of_ready (.ldW e y) rfl hr hy
  refine h.loads (by decide) (3 * a) 3 a false (fun v => [v]) (Or.inl (by decide)) (fun _ => ⟨rfl, rfl⟩)
    (fun hf => absurd hf Bool.false_ne_true) hin hclean fun c hc => ?_
  rw [opLoad, if_neg (Bool.eq_false_iff.1 (hc.c32_false hty)), hc.addr24, ← ha]

/-- Settles O14: each load reads its bytes where nothing traps, and leaves what its conversion makes of them pending. -/
theorem localLoads : Obligations.LocalLoads := by
  unfold Obligations.LocalLoads
  intro e y s hr hy addr fits v at1 a24
  refine ⟨fun hty => ⟨fun hfits => ⟨?_, ?_⟩, fun hfits => ⟨?_, ?_⟩, fun hfits => ?_, fun hrd hfits => ?_, fun hfits => ?_⟩,
    fun hty hin hclean => ?_⟩
  · have h := alone_of_ready (.ldB e y) rfl hr hy
    exact h.loads_c32 (by decide) hty (Or.inl (by decide)) (addr 1) 1 (addr 1) (fun v => [sextTo 32 8 v]) hfits fun c hc => by
      simp only [opLoad, hc.c32_true hty, h.sylOp, hc.addr32, if_true, addr]
  · have h := alone_of_ready (.ldBu e y) rfl hr hy
    exact h.loads_c32 (by decide) hty (Or.inl (by decide)) (addr 1) 1 (addr 1) (fun v => [v]) hfits fun c hc => by
      simp only [opLoad, hc.c32_true hty, h.sylOp, hc.addr32, if_true, addr]
  · have h := alone_of_ready (.ldH e y) rfl hr hy
    exact h.loads_c32 (by decide) hty (Or.inl (by decide)) (addr 2) 2 (addr 2) (fun v => [sextTo 32 16 v]) hfits fun c hc => by
      simp only [opLoad, hc.c32_true hty, h.sylOp, hc.addr32, if_true, addr]
  · have h := alone_of_ready (.ldHu e y) rfl hr hy
    exact h.loads_c32 (by decide) hty (Or.inl (by decide)) (addr 2) 2 (addr 2) (fun v => [v]) hfits fun c hc => by
      simp only [opLoad, hc.c32_true hty, h.sylOp, hc.addr32, if_true, addr]
  · have h := alone_of_ready (.ldW e y) rfl hr hy
    exact h.loads_c32 (by decide) hty (Or.inl (by decide)) (addr 4) 4 (addr 4) (fun v => [v]) hfits fun c hc => by
      simp only [opLoad, hc.c32_true hty, h.sylOp, hc.addr32, if_true, addr]
  · have h := alone_of_ready (.ldD e y) rfl hr hy
    exact h.loads_c32 (by decide) hty (Or.inr hrd) (addr 8) 8 (addr 8) (fun v => [v % 2 ^ 32, v / 2 ^ 32]) hfits fun c hc => by
      simp only [opLoad, hc.c32_true hty, h.sylOp, hc.addr32, if_true, addr]
  · have h := alone_of_ready (.ldWr e y) rfl hr hy
    exact h.loads_c32 (by decide) hty (Or.inl (by decide)) (addr 4 / 4 * 4) 4 (addr 4) (fun v => [rotRight (addr 4 % 4) v]) hfits fun c hc => by
      simp only [opLoad, hc.c32_true hty, h.sylOp, hc.addr32, if_true, addr]
  · exact loads_c24 hr hy hty _ rfl hin hclean

/-! ### Stores (R218, R259) -/

/-- A syllable that reads rows that are clean and stores bytes: what Stores says of it. -/
theorem Alone.stores_of_effect (h : Alone i e op y s) (rows : List Nat) (a : Nat) (bytes : List Byte)
    (hres : ∀ rps b, reservedSyl e.ty rps b (sylWord op y) = false)
    (hclean : rows.all (fun r => (s.mem (engKey e.ty e.num)).decode true r == .clean) = true)
    (hf : ∀ c : Ctx, c.Sees e s → opEffect c false (sylWord op y) = .ok { stores := [(a, bytes)], rows := rows }) :
    Stores i e s a bytes id := by
  have hready := ready_parts s e h.ready
  have hout : ∀ s1, SameEngines s1 s →
      applyOutside e.ty e.num s1 { stores := [(a, bytes)], rows := rows } = dmemStore e.ty e.num a bytes s1 := fun s1 hs1 =>
    congrArg (dmemStore e.ty e.num a bytes) (readRows_clean e.ty e.num rows s1 (by rw [hs1.mem]; exact hclean))
  obtain ⟨s1, hs1, hexec⟩ := h.commits { stores := [(a, bytes)], rows := rows } hres hf rfl
    (fun s1 hs1 => by rw [hout s1 hs1]; exact hs1.engines _)
  rw [hout s1 hs1] at hexec
  refine stores_of_commit i e s s1 _ _ a bytes id hs1 hexec ?_
  rw [bundled_of_ready s e hready 1 [{ stores := [(a, bytes)], rows := rows }] (by simp) (by simp)]
  rfl

/-- The stores of Table 09-5 that an engine type has, with an even RD for a pair, are not reserved. -/
theorem Alone.reservedSyl_store (h : Alone i e op y s) (hop : 0x48 ≤ op ∧ op ≤ 0x4C) (hpair : op ≠ 0x4B ∨ y.rd % 2 = 0)
    (hword : e.ty ≠ 3 → op = 0x4A) (rps : Nat) (b : BrCtx) : reservedSyl e.ty rps b (sylWord op y) = false := by
  have hload : ¬op ≤ 0x46 := by omega
  rw [h.reservedSyl_lsu_eq (by omega)]
  simp only [reservedLsu, h.sylOp, if_neg hload, if_pos hop, sylRd_sylWord]
  by_cases hty : e.ty = 3
  · rcases hpair with hop | hrd
    · simp [hty, hop]
    · simp [hty, hrd]
  · simp [hty, hword hty]

theorem Alone.opEffect_store (h : Alone i e op y s) (hop : 0x48 ≤ op ∧ op ≤ 0x4C) (c : Ctx) :
    opEffect c false (sylWord op y) = opStore c (sylWord op y) := by
  obtain ⟨h1, h2⟩ := hop
  have hop := h.sylOp
  interval_cases op <;> simp [opEffect, hop]

/-- A store of some bytes at an address where it traps nothing. -/
theorem Alone.stores (h : Alone i e op y s) (hop : 0x48 ≤ op ∧ op ≤ 0x4C) (a size shown v : Nat) (aligned : Bool)
    (hpair : op ≠ 0x4B ∨ y.rd % 2 = 0) (hword : e.ty ≠ 3 → op = 0x4A ∧ size = 3) (halign : aligned = true → a % size = 0)
    (hin : a + size ≤ 65536) (hclean : s.dataClean e a size = true)
    (hf : ∀ c : Ctx, c.Sees e s → opStore c (sylWord op y) = c.store a size shown v aligned) :
    Stores i e s a (leBytes size v) id := by
  have hrows : (if size < 8 then rowsOf a size else []).all (fun r => (s.mem (engKey e.ty e.num)).decode true r == .clean) = true := by
    split
    · exact hclean
    · rfl
  refine h.stores_of_effect _ a _ (h.reservedSyl_store hop hpair fun hty => (hword hty).1) hrows fun c hc => ?_
  have hnone := hc.localTrap_none a size shown aligned (decide (size < 8)) halign hin (fun hty => (hword hty).2) hclean
  simp only [h.opEffect_store hop, hf c hc, Ctx.store, hnone]

/-- A store of C32 at an address that is aligned, inside and clean. -/
theorem Alone.stores_c32 (h : Alone i e op y s) (hop : 0x48 ≤ op ∧ op ≤ 0x4C) (hty : e.ty = 3) (hpair : op ≠ 0x4B ∨ y.rd % 2 = 0)
    (a size shown v : Nat) (hfits : a % size = 0 ∧ a + size ≤ 65536 ∧ s.dataClean e a size = true)
    (hf : ∀ c : Ctx, c.Sees e s → opStore c (sylWord op y) = c.store a size shown v true) : Stores i e s a (leBytes size v) id := by
  obtain ⟨halign, hin, hclean⟩ := hfits
  exact h.stores hop a size shown v true hpair (fun hne => absurd hty hne) (fun _ => halign) hin hclean hf

/-- ST.W of C24, whose address counts words of 3 bytes. -/
theorem stores_c24 (hr : s.ready e = true) (hy : y.alone = true) (hty : e.ty ≠ 3) (a : Nat)
    (ha : a = wrapInt 24 ((s.vreg e y.ra : Int) + signedOf 9 y.imm9)) (hin : 3 * a + 3 ≤ 65536) (hclean : s.dataClean e (3 * a) 3 = true) :
    Stores (.stW e y) e s (3 * a) (leBytes 3 (s.vreg e y.rd)) id := by
  have h := alone_of_ready (.stW e y) rfl hr hy
  refine h.stores (by decide) (3 * a) 3 a (s.vreg e y.rd) false (Or.inl (by decide)) (fun _ => ⟨rfl, rfl⟩)
    (fun hf => absurd hf Bool.false_ne_true) hin hclean fun c hc => ?_
  rw [opStore, if_neg (Bool.eq_false_iff.1 (hc.c32_false hty)), hc.addr24, ← ha, hc.reg, sylRd_sylWord]

/-- Settles O15: each store writes the low bytes of its operand where nothing traps. -/
theorem localStores : Obligations.LocalStores := by
  unfold Obligations.LocalStores
  intro e y s hr hy addr fits v a24
  refine ⟨fun hty => ⟨fun hfits => ?_, fun hfits => ?_, fun hfits => ?_, fun hrd hfits => ?_, fun hfits => ?_⟩, fun hty hin hclean => ?_⟩
  · have h := alone_of_ready (.stB e y) rfl hr hy
    exact h.stores_c32 (by decide) hty (Or.inl (by decide)) (addr 1) 1 (addr 1) v hfits fun c hc => by
      simp only [opStore, hc.c32_true hty, h.sylOp, hc.addr32, hc.reg, sylRd_sylWord, if_true, addr, v]
  · have h := alone_of_ready (.stH e y) rfl hr hy
    exact h.stores_c32 (by decide) hty (Or.inl (by decide)) (addr 2) 2 (addr 2) v hfits fun c hc => by
      simp only [opStore, hc.c32_true hty, h.sylOp, hc.addr32, hc.reg, sylRd_sylWord, if_true, addr, v]
  · have h := alone_of_ready (.stW e y) rfl hr hy
    exact h.stores_c32 (by decide) hty (Or.inl (by decide)) (addr 4) 4 (addr 4) v hfits fun c hc => by
      simp only [opStore, hc.c32_true hty, h.sylOp, hc.addr32, hc.reg, sylRd_sylWord, if_true, addr, v]
  · have h := alone_of_ready (.stD e y) rfl hr hy
    exact h.stores_c32 (by decide) hty (Or.inr hrd) (addr 8) 8 (addr 8) (s.vpair e y.rd) hfits fun c hc => by
      simp only [opStore, hc.c32_true hty, h.sylOp, hc.addr32, hc.pair, sylRd_sylWord, if_true, addr]
  · have h := alone_of_ready (.stWr e y) rfl hr hy
    exact h.stores_c32 (by decide) hty (Or.inl (by decide)) (addr 4 / 4 * 4) 4 (addr 4) (rotLeft (addr 4 % 4) v) hfits fun c hc => by
      simp only [opStore, hc.c32_true hty, h.sylOp, hc.addr32, hc.reg, sylRd_sylWord, if_true, addr, v]
  · exact stores_c24 hr hy hty _ rfl hin hclean

end Sys2Proof.Machine
end

section
/-!
PROOFS. A synchronous trap at a ready engine (R194 to R196).
-/

namespace Sys2Proof.Machine

variable {i : Instr} {e : EngineId} {op : Nat} {y : Syl} {s : State} {c : Ctx}

/-- The first trap of a bundle of one syllable is its own. -/
theorem finishBundle_trap (c : Ctx) (w stamp : Nat) (s : State) (cause tval info : Nat) (h : c.result false w = .trap cause tval info)
    (hcause : cause ≠ 0x0A) : finishBundle c [w] false stamp s = syncTrap c.ty c.n cause 0 tval info c.eng.pc c.next s := by
  simp [finishBundle, h, firstTrap, hcause]

theorem canIssue_rep (s : State) (e : EngineId) (h : Ready s e) : (s.core e).rep = none := by
  have hissue := h.issue
  simp only [canIssue, Bool.and_eq_true, Option.isNone_iff_eq_none] at hissue
  exact hissue.2

/-- An engine with no result pending waits for none. -/
theorem landAll_of_ready (s : State) (e : EngineId) (h : Ready s e) : landAll e.ty (s.core e) = s.core e := by
  have hlate := h.late
  revert hlate
  generalize s.core e = x
  intro hlate
  cases x
  simp only at hlate
  subst hlate
  simp [landAll, landUpTo, lastLanding]

/-- TCAUSE of a synchronous trap of the first slot. -/
theorem tcauseOf_sync (ty cause info : Nat) : tcauseOf ty cause 0 info false = info * 2 ^ (if ty = 3 then 16 else 15) + cause := by
  unfold tcauseOf
  split <;> simp [bit]

/-- TVEC is not among what a trap writes. -/
theorem trapSys_tvec (ty : Nat) (t : Tbl Nat) (cause tval info pc next flg : Nat) :
    sysGet ty (trapSys ty t cause tval info pc next flg) 4 = sysGet ty t 4 := by
  unfold trapSys
  rw [sysGet_sysPut_other _ _ _ _ _ (by decide), sysGet_sysPut_other _ _ _ _ _ (by decide), sysGet_sysPut_other _ _ _ _ _ (by decide),
    sysGet_sysPut_other _ _ _ _ _ (by decide), sysGet_sysPut_other _ _ _ _ _ (by decide), sysGet_sysPut_other _ _ _ _ _ (by decide),
    sysGet_sysPut_other _ _ _ _ _ (by decide), sysGet_sysPut_other _ _ _ _ _ (by decide)]

/-- TCAUSE as a trap leaves it. -/
theorem trapSys_tcause (ty : Nat) (t : Tbl Nat) (cause tval info pc next flg : Nat) :
    sysGet ty (trapSys ty t cause tval info pc next flg) 8 = info * 2 ^ (if ty = 3 then 16 else 15) + cause := by
  unfold trapSys
  rw [sysGet_sysPut_other _ _ _ _ _ (by decide), sysGet_sysPut_other _ _ _ _ _ (by decide), sysGet_sysPut_other _ _ _ _ _ (by decide),
    sysGet_sysPut]

/-- The engine of a ready state once it has taken a synchronous trap. -/
def State.trapped (s : State) (e : EngineId) (cause tval info rsm next : Nat) : Engine :=
  { s.core e with
    sys := trapSys e.ty (s.core e).sys cause tval info rsm next (s.flgOf e)
    pc := pcOf e.ty (s.sysReg e.ty e.num 4 + 64 * cause), cyc := (s.core e).cyc + 4 }

/-- A synchronous trap of the first slot at a ready engine with no handler active (R196). -/
theorem syncTrap_ready (e : EngineId) (s s1 : State) (hs : SameEngines s1 s) (h : Ready s e) (cause tval info rsm next : Nat)
    (hquiet : trapActive e.ty (s.core e).sys = false) (htval : tval < 2 ^ widthOf e.ty) :
    syncTrap e.ty e.num cause 0 tval info rsm next s1 = s1.setEng (engKey e.ty e.num) (s.trapped e cause tval info rsm next) := by
  have hx : s1.eng (engKey e.ty e.num) = s.core e := hs.engines _
  have hlink : s1.link (engKey e.ty e.num) = s.link (engKey e.ty e.num) := link_now e s s1 hs
  have hsave : saveLoad e.ty (s.core e) = sysPut e.ty (s.core e).sys 0xA (setBits (sysGet e.ty (s.core e).sys 0xA) (widthOf e.ty - 1) 1 0) := by
    rw [saveLoad, h.loads]
  have hstep : (s.core e).stepped = s.core e := by rw [Engine.stepped, if_pos h.step]
  rw [syncTrap, hx, hquiet, if_neg Bool.false_ne_true, enterTrap]
  simp only [hx, landAll_of_ready s e h, hlink, hsave, hstep, tcauseOf_sync, Nat.mod_eq_of_lt htval]
  have hsys : ∀ u, u = trapSys e.ty (s.core e).sys cause tval info rsm next (s.flgOf e) →
      ({ s.core e with
        sys := u, loads := [], due := [], bundle := [], far := none, rep := none, held := false
        cyc := (s.core e).cyc + 4, pc := vectorOf e.ty u cause } : Engine) = s.trapped e cause tval info rsm next := fun u hu => by
    rw [State.trapped, vectorOf, hu, trapSys_tvec]
    simp only [h.loads, h.due, h.bundle, h.held, canIssue_far s e h, canIssue_rep s e h]
    rfl
  exact congrArg (s1.setEng (engKey e.ty e.num)) (hsys _ rfl)

theorem nextPc_now (e : EngineId) (s s1 : State) (hs : SameEngines s1 s) : (Ctx.now e.ty e.num 1 s1).next = s.nextPc e := by
  rw [Ctx.next, eng_now e s s1 hs]
  rfl

/-- A new engine in a state that is otherwise as before changes that engine alone. -/
theorem onlyEngine_of_setEng (e : EngineId) (s s1 : State) (hs : SameEngines s1 s) (x : Engine) (p : Pins) :
    OnlyEngine e s ((s1.setEng (engKey e.ty e.num) x).withPins p) := by
  refine ⟨?_, fun k _ => ?_, fun k hk => (State.setEng_other _ _ _ _ hk).trans (hs.engines k)⟩
  · rw [hs.rest]
    rfl
  · rw [hs.rest]
    rfl

/-- A syllable that takes a synchronous trap with no handler active: what Traps says of it. -/
theorem Alone.traps (h : Alone i e op y s) (cause tval info : Nat) (hcause : cause ≠ 0x0A) (hquiet : trapActive e.ty (s.core e).sys = false)
    (htval : tval < 2 ^ widthOf e.ty) (hres : ∀ rps b, reservedSyl e.ty rps b (sylWord op y) = false)
    (hf : ∀ c : Ctx, c.Sees e s → opEffect c false (sylWord op y) = .trap cause tval info) :
    Traps i e s cause tval info (s.core e).pc (s.nextPc e) := by
  have hready := ready_parts s e h.ready
  obtain ⟨s1, hs1, hissue⟩ := h.issue_finish hres
  rw [finishBundle_trap _ _ _ _ _ _ _ ((h.result s1).trans (hf _ (sees_now e 1 s s1 hs1))) hcause, nextPc_now e s s1 hs1, eng_now e s s1 hs1] at hissue
  have htrap : issue e op y s = s1.setEng (engKey e.ty e.num) (s.trapped e cause tval info (s.core e).pc (s.nextPc e)) := by
    refine hissue.trans ((congrArg (endBundle e.ty e.num) (syncTrap_ready e s s1 hs1 hready cause tval info _ _ hquiet htval)).trans
      (endBundle_run _ _ _ ?_))
    rw [State.setEng_same]
    exact hready.stop
  obtain ⟨p, hnext⟩ := next_of_done ((exec_syllable i e op y s h.syllable h.wf).trans (congrArg done htrap))
  have hcore : ((s1.setEng (engKey e.ty e.num) (s.trapped e cause tval info (s.core e).pc (s.nextPc e))).withPins p).core e =
      s.trapped e cause tval info (s.core e).pc (s.nextPc e) := State.setEng_same _ _ _
  exact ⟨_, hnext, onlyEngine_of_setEng e s s1 hs1 _ p, by rw [hcore]; rfl⟩

end Sys2Proof.Machine
end

section
/-!
PROOFS. What the fault of a sash engine leaves (R199, R264, R267, R272).
-/

namespace Sys2Proof.Machine

/-- The engines, and the responses that wait for their initiators. -/
def State.farLeaves (s : State) := (s.engines, s.inbox)

theorem farLeaves_put (s : State) (f : Field) (n v : Nat) : (s.put f n v).farLeaves = s.farLeaves := by
  rw [State.farLeaves, State.put_engines, State.put_inbox, State.farLeaves]

theorem farLeaves_count (s : State) (f : Field) (n k : Nat) : (s.count f n k).farLeaves = s.farLeaves := farLeaves_put s f n _

theorem farLeaves_raise (s : State) (ty n k : Nat) : (s.raise ty n k).farLeaves = s.farLeaves := by
  rw [State.farLeaves, State.raise_engines, State.raise_inbox, State.farLeaves]

theorem farLeaves_report (s : State) (ty n k d : Nat) : (s.report ty n k d).farLeaves = s.farLeaves := by
  rw [State.farLeaves, State.report_engines, State.report_inbox, State.farLeaves]

theorem farLeaves_setCtl (s : State) (p : Nat) (x : PaneCtl) : (s.setCtl p x).farLeaves = s.farLeaves := by
  rw [State.farLeaves, State.setCtl_engines, State.setCtl_inbox, State.farLeaves]

theorem farLeaves_setPort (s : State) (n : Nat) (x : RowPort) : (s.setPort n x).farLeaves = s.farLeaves := by
  rw [State.farLeaves, State.setPort_engines, State.setPort_inbox, State.farLeaves]

theorem farLeaves_setLink (s : State) (k : Nat) (x : ArrayLink) : (s.setLink k x).farLeaves = s.farLeaves := by
  rw [State.farLeaves, State.setLink_engines, State.setLink_inbox, State.farLeaves]

theorem farLeaves_setRun (s : State) (b : Nat) (x : GangRun) : (s.setRun b x).farLeaves = s.farLeaves := by
  rw [State.farLeaves, State.setRun_engines, State.setRun_inbox, State.farLeaves]

theorem dropMacros_farLeaves (q : Nat) (s : State) : (dropMacros q s).farLeaves = s.farLeaves := by
  rw [dropMacros, farLeaves_count, farLeaves_setCtl]

/-- The cut-off in one pane, as cutTask has it (R174). -/
theorem cutPane_farLeaves (overrun : Bool) (id q : Nat) (s : State) : (cutPane overrun id s q).farLeaves = s.farLeaves := by
  have hslats (t : State) : (cutSlats q t).farLeaves = t.farLeaves :=
    foldl_keeps State.farLeaves _ (paneSlats q) (fun t n _ => by rw [setIrq, farLeaves_put, farLeaves_setPort]) t
  have hengines (es : List (Nat × Nat)) (t : State) : (cutEngines es t).farLeaves = t.farLeaves :=
    foldl_keeps State.farLeaves _ es (fun t _ _ => farLeaves_put t _ _ _) t
  rw [cutPane, hslats, hengines, recordOverrun]
  split
  · rw [farLeaves_raise, farLeaves_count, farLeaves_put, dropMacros_farLeaves]
  · rw [dropMacros_farLeaves]

theorem announceCut_farLeaves (overrun : Bool) (p id : Nat) (s : State) : (announceCut overrun p id s).farLeaves = s.farLeaves := by
  cases overrun with
  | false => exact (farLeaves_setRun _ _ _).trans (farLeaves_setLink _ _ _)
  | true => exact (farLeaves_report _ _ _ _ _).trans ((farLeaves_setRun _ _ _).trans (farLeaves_setLink _ _ _))

theorem cutTask_farLeaves (p : Nat) (overrun : Bool) (s : State) : (cutTask p overrun s).farLeaves = s.farLeaves := by
  by_cases htask : s.taskNow (s.gangBase p) = 0
  · rw [cutTask]
    simp only [htask, if_true]
  · have hcut : cutTask p overrun s = announceCut overrun (s.gangBase p) (s.taskNow (s.gangBase p))
        ((s.paneGang (s.gangBase p)).foldl clearTask ((s.paneGang (s.gangBase p)).foldl (cutPane overrun (s.taskNow (s.gangBase p))) s)) := by
      simp only [cutTask, if_neg htask]
      rfl
    rw [hcut, announceCut_farLeaves,
      foldl_keeps State.farLeaves clearTask _ (fun t q _ => (farLeaves_put _ _ _ _).trans (farLeaves_put t _ _ _)),
      foldl_keeps State.farLeaves _ _ (fun t q _ => cutPane_farLeaves overrun _ q t)]

theorem skipTask_farLeaves (base id : Nat) (s : State) : (skipTask base id s).farLeaves = s.farLeaves := by
  rw [skipTask, farLeaves_report, farLeaves_setRun]
  exact foldl_keeps State.farLeaves _ _ (fun t q _ => by rw [farLeaves_raise, farLeaves_count, farLeaves_put]) s

theorem stopGang_farLeaves (p : Nat) (s : State) : (stopGang p s).farLeaves = s.farLeaves := by
  rw [stopGang, farLeaves_setRun]
  refine (foldl_keeps State.farLeaves _ _ (fun t k _ => ?_) _).trans (cutTask_farLeaves p false s)
  split
  · exact skipTask_farLeaves _ _ t
  · rfl

theorem losePane_farLeaves (p : Nat) (s : State) : (losePane p s).farLeaves = s.farLeaves := by
  have hlost := farLeaves_put s R.PORT_LOST_PANE_PANES 0 (s.get R.PORT_LOST_PANE_PANES 0 ||| 2 ^ p)
  rw [losePane]
  split
  · exact (stopGang_farLeaves p _).trans hlost
  · exact hlost

theorem assignSpare_farLeaves (p : Nat) (s : State) : (assignSpare p s).farLeaves = s.farLeaves := by
  rw [assignSpare]
  split
  · exact losePane_farLeaves p s
  · rw [farLeaves_raise, farLeaves_raise, farLeaves_put, farLeaves_put, farLeaves_put, farLeaves_put]

/-- What follows the fault of a sash engine changes no engine and takes no response. -/
theorem faultFollows_farLeaves (n : Nat) (s : State) : (faultFollows 3 n s).farLeaves = s.farLeaves := by
  have hgang (p : Nat) : (if s.flag R.PANE_MODE_IN_GANG p then stopGang p s else s).farLeaves = s.farLeaves := by
    split
    · exact stopGang_farLeaves p s
    · rfl
  rw [faultFollows, if_pos rfl]
  split
  · rfl
  · next p _ =>
    show (if n < 16 then assignSpare p (if s.flag R.PANE_MODE_IN_GANG p then stopGang p s else s)
      else losePane p (if s.flag R.PANE_MODE_IN_GANG p then stopGang p s else s)).farLeaves = s.farLeaves
    split
    · rw [assignSpare_farLeaves, hgang]
    · rw [losePane_farLeaves, hgang]

theorem leaveRunning_farLeaves (ty n v : Nat) (s : State) : (leaveRunning ty n v s).farLeaves = s.farLeaves := by
  rw [leaveRunning, State.setEngState, farLeaves_put, wdgStop]
  split
  · exact farLeaves_put _ _ _ _
  · rfl

/-- The page of an engine that stops as a fault, and its event (R264). -/
def faultShown (ty n kind evt : Nat) (s : State) : State :=
  ((leaveRunning ty n esFaulted s).put (R.ENG_STATE_FAULT_KIND.on ty) n kind).raise ty n evt

/-- An engine that has stopped as a fault: nothing of it is under way. -/
def Engine.faulted (x : Engine) : Engine :=
  { x with bundle := [], far := none, rep := none, stopReq := false, haltReq := 0, stepReq := 0, held := false }

theorem engineFault_eq (ty n kind evt : Nat) (s : State) :
    engineFault ty n kind evt s = faultFollows ty n
      (((faultShown ty n kind evt s).setEng (engKey ty n) ((faultShown ty n kind evt s).eng (engKey ty n)).faulted).report ty n evt clsUnit) := rfl

theorem faultShown_farLeaves (ty n kind evt : Nat) (s : State) : (faultShown ty n kind evt s).farLeaves = s.farLeaves := by
  rw [faultShown, farLeaves_raise, farLeaves_put, leaveRunning_farLeaves]

/-- A sash engine that has stopped as a fault waits for no response; no response has been taken (R264). -/
theorem engineFault_far (n kind evt : Nat) (s : State) :
    ((engineFault 3 n kind evt s).eng (engKey 3 n)).far = none ∧ ((engineFault 3 n kind evt s).eng (engKey 3 n)).stopReq = false ∧
      (engineFault 3 n kind evt s).inbox = s.inbox := by
  have hbefore := faultShown_farLeaves 3 n kind evt s
  have hfault := engineFault_eq 3 n kind evt s
  revert hbefore hfault
  generalize faultShown 3 n kind evt s = s1
  intro hbefore hfault
  have hleaves : (engineFault 3 n kind evt s).farLeaves = (s1.setEng (engKey 3 n) (s1.eng (engKey 3 n)).faulted).farLeaves := by
    rw [hfault, faultFollows_farLeaves, farLeaves_report]
  generalize engineFault 3 n kind evt s = t at hleaves
  have hengines : t.engines = (s1.setEng (engKey 3 n) (s1.eng (engKey 3 n)).faulted).engines := congrArg Prod.fst hleaves
  have hinbox : t.inbox = (s1.setEng (engKey 3 n) (s1.eng (engKey 3 n)).faulted).inbox := congrArg Prod.snd hleaves
  have hcore : t.eng (engKey 3 n) = (s1.eng (engKey 3 n)).faulted := by
    rw [State.eng, hengines]
    exact State.setEng_same s1 (engKey 3 n) _
  rw [hcore, hinbox, State.setEng_inbox]
  exact ⟨rfl, rfl, congrArg Prod.snd hbefore⟩

end Sys2Proof.Machine
end

section
/-!
PROOFS. Far loads and stores: the request, the trap of a misaligned address, the response (O26).
-/

namespace Sys2Proof.Machine

variable {i : Instr} {e : EngineId} {op : Nat} {y : Syl} {s : State} {c : Ctx}

/-! ### A request leaves the engines (R321) -/

theorem countLocal_engines (t code : Nat) (s : State) : (countLocal t code s).engines = s.engines := by
  unfold countLocal State.count
  split
  · rw [State.raise_engines, State.put_engines]
  · split
    · rw [State.put_engines]
    · split <;> rw [State.raise_engines, State.put_engines]

theorem deliver_engines (t init : Nat) (q : NetReq) (a : Answer) (s : State) : (deliver t init q a s).engines = s.engines := by
  unfold deliver
  split <;> rfl

theorem answerLocal_engines (t init : Nat) (q : NetReq) (code : Nat) (s : State) : (answerLocal t init q code s).engines = s.engines := by
  rw [answerLocal, deliver_engines, State.setTh_engines, addStat, State.setTh_engines, countLocal_engines]

theorem issueRequest_engines (t init : Nat) (q : NetReq) (stamp : Nat) (s : State) : (issueRequest t init q stamp s).engines = s.engines := by
  unfold issueRequest
  simp only
  split
  · exact answerLocal_engines _ _ _ _ _
  · split
    · rfl
    · split
      · rfl
      · split
        · exact answerLocal_engines _ _ _ _ _
        · rfl

/-! ### A syllable that sends a request -/

theorem finishBundle_far (c : Ctx) (w stamp : Nat) (s : State) (q : NetReq) (h : c.result false w = .far q) :
    finishBundle c [w] false stamp s =
      issueRequest (engInit c.ty c.n).src (engInit c.ty c.n).init q stamp
        (s.setEng c.key { c.eng with bundle := [], far := some ⟨[w], false, c.sys, c.link, c.resp⟩ }) := by
  simp [finishBundle, h, firstTrap, OpRes.isHalt, OpRes.isDouble, OpRes.isWait, OpRes.farOf]

/-- An engine that waits for the response to a far access of one syllable (R194). -/
def State.waitsFar (s : State) (e : EngineId) (w : Nat) : Engine :=
  { s.core e with far := some ⟨[w], false, (s.core e).sys, s.link (engKey e.ty e.num), []⟩ }

/-- A syllable that sends a request: its engine waits, and the trailhead has the request. -/
theorem Alone.sends (h : Alone i e op y s) (q : NetReq) (hres : ∀ rps b, reservedSyl e.ty rps b (sylWord op y) = false)
    (hf : ∀ c : Ctx, c.Sees e s → c.resp = [] → opEffect c false (sylWord op y) = .far q) :
    ∃ t, Machine.exec i s = .next t ∧ OnlyEngine e s { s with engines := t.engines } ∧ t.core e = s.waitsFar e (sylWord op y) ∧
      t = { issueRequest (engInit e.ty e.num).src (engInit e.ty e.num).init q y.stamp { s with engines := t.engines } with pins := t.pins } := by
  have hready := ready_parts s e h.ready
  obtain ⟨s1, hs1, hissue⟩ := h.issue_finish hres
  have hc := sees_now e 1 s s1 hs1
  set u := s1.setEng (engKey e.ty e.num) (s.waitsFar e (sylWord op y)) with hu
  have hengine : ({ (Ctx.now e.ty e.num 1 s1).eng with
      bundle := []
      far := some ⟨[sylWord op y], false, (Ctx.now e.ty e.num 1 s1).sys, (Ctx.now e.ty e.num 1 s1).link, []⟩ } : Engine) =
      s.waitsFar e (sylWord op y) := by
    rw [State.waitsFar, hc.eng, hc.sys, hc.link, ← hready.bundle]
  have hsent : finishBundle (Ctx.now e.ty e.num 1 s1) [sylWord op y] false y.stamp s1 =
      issueRequest (engInit e.ty e.num).src (engInit e.ty e.num).init q y.stamp u := by
    rw [finishBundle_far _ _ _ _ _ ((h.result s1).trans (hf _ hc rfl)), hu, ← hengine]
    rfl
  have hengines : (issueRequest (engInit e.ty e.num).src (engInit e.ty e.num).init q y.stamp u).engines = u.engines :=
    issueRequest_engines _ _ _ _ _
  have hcore : (issueRequest (engInit e.ty e.num).src (engInit e.ty e.num).init q y.stamp u).eng (engKey e.ty e.num) =
      s.waitsFar e (sylWord op y) := by
    rw [State.eng, hengines]
    exact State.setEng_same _ _ _
  have hu' : u = { s with engines := u.engines } := by
    rw [hu, hs1.rest]
    rfl
  have hdone : issue e op y s = issueRequest (engInit e.ty e.num).src (engInit e.ty e.num).init q y.stamp u := by
    rw [hissue, hsent]
    exact endBundle_run _ _ _ (by rw [hcore]; exact hready.stop)
  obtain ⟨p, hnext⟩ := next_of_done ((exec_syllable i e op y s h.syllable h.wf).trans (congrArg done hdone))
  refine ⟨_, hnext, ⟨rfl, fun _ _ => rfl, fun k hk => ?_⟩, hcore, ?_⟩
  · rw [State.withPins, State.eng]
    show tblGet Engine.idle (issueRequest _ _ q y.stamp u).engines k = s.eng k
    rw [hengines]
    exact (State.setEng_other _ _ _ _ hk).trans (hs1.engines k)
  · have hsame : ({ s with engines := (issueRequest (engInit e.ty e.num).src (engInit e.ty e.num).init q y.stamp u).engines } : State) = u := by
      rw [hengines, ← hu']
    rw [State.withPins]
    exact congrArg (fun v => { issueRequest (engInit e.ty e.num).src (engInit e.ty e.num).init q y.stamp v with pins := p }) hsame.symm

/-! ### LDF and STF in C32 (R219) -/

/-- The far address in the pair RA of a C32 engine. -/
def State.farAddr32 (s : State) (e : EngineId) (y : Syl) : Nat := s.vreg e y.ra + 2 ^ 32 * (s.vreg e (y.ra + 1) % 2 ^ 8)

theorem Ctx.Sees.farAddr (hc : c.Sees e s) (op : Nat) (y : Syl) (hty : e.ty = 3) : c.farAddr (sylWord op y) = s.farAddr32 e y := by
  rw [Ctx.farAddr, if_pos (hc.c32_true hty), sylRa_sylWord, hc.reg, hc.reg]
  rfl

theorem Alone.reservedSyl_far (h : Alone i e op y s) (hop : op = 0x50 ∨ op = 0x51) (hty : e.ty = 3) (hra : y.ra % 2 = 0) (hrb : y.rb = 0)
    (hfn : y.fn = 0) (rps : Nat) (b : BrCtx) : reservedSyl e.ty rps b (sylWord op y) = false := by
  rw [h.reservedSyl_lsu_eq (by omega)]
  rcases hop with rfl | rfl
  · simp [reservedLsu, h.sylOp, sylRa_sylWord, sylRb_sylWord, sylFn_sylWord, hty, hra, hrb, hfn]
  · simp [reservedLsu, h.sylOp, sylRa_sylWord, sylRb_sylWord, sylFn_sylWord, hty, hra, hrb, hfn]

theorem Alone.opEffect_far (h : Alone i e op y s) (hop : op = 0x50 ∨ op = 0x51) (c : Ctx) :
    opEffect c false (sylWord op y) = opFar c (sylWord op y) := by
  rcases hop with rfl | rfl
  · simp [opEffect, h.sylOp]
  · simp [opEffect, h.sylOp]

/-- The four bytes of an aligned far access lie in one block of 64 bytes. -/
theorem farHead_aligned (a : Nat) (ha : a % 4 = 0) : farHead a 4 = 4 := by
  unfold farHead
  omega

/-- An aligned far access with no response yet sends its one request. -/
theorem farDo_sends (c : Ctx) (write : Bool) (a v : Nat) (f : Nat → Eff) (ha : a % 4 = 0) (hresp : c.resp = []) :
    c.farDo write a 4 v f = .far (farReq write a 4 v) := by
  simp [Ctx.farDo, hresp, farParts, farHead_aligned a ha]

theorem Alone.opFar_misaligned (h : Alone i e op y s) (hop : op = 0x50 ∨ op = 0x51) (hty : e.ty = 3) (ha : s.farAddr32 e y % 4 ≠ 0)
    (hc : c.Sees e s) : opEffect c false (sylWord op y) = .trap 6 (s.farAddr32 e y % 2 ^ 32) 0 := by
  have hw : c.w = 32 := hc.w.trans (by rw [hty]; rfl)
  simp only [h.opEffect_far hop, opFar, hc.farAddr op y hty, if_pos ha, hw]

theorem ldf_sends (hr : s.ready e = true) (hy : y.alone = true) (hty : e.ty = 3) (hra : y.ra % 2 = 0) (hrb : y.rb = 0) (hfn : y.fn = 0)
    (ha : s.farAddr32 e y % 4 = 0) :
    ∃ t, exec (.ldf e y) s = .next t ∧ OnlyEngine e s { s with engines := t.engines } ∧ t.core e = s.waitsFar e (sylWord 0x50 y) ∧
      t = { issueRequest (engInit e.ty e.num).src (engInit e.ty e.num).init (farReq false (s.farAddr32 e y) 4 0) y.stamp
        { s with engines := t.engines } with pins := t.pins } := by
  have h := alone_of_ready (.ldf e y) rfl hr hy
  refine h.sends _ (h.reservedSyl_far (Or.inl rfl) hty hra hrb hfn) fun c hc hresp => ?_
  rw [h.opEffect_far (Or.inl rfl), opFar]
  simp only [hc.farAddr _ y hty, ha, h.sylOp, ne_eq, not_true_eq_false, if_false, if_true, farDo_sends c false _ 0 _ ha hresp]

theorem stf_sends (hr : s.ready e = true) (hy : y.alone = true) (hty : e.ty = 3) (hra : y.ra % 2 = 0) (hrb : y.rb = 0) (hfn : y.fn = 0)
    (ha : s.farAddr32 e y % 4 = 0) :
    ∃ t, exec (.stf e y) s = .next t ∧ OnlyEngine e s { s with engines := t.engines } ∧ t.core e = s.waitsFar e (sylWord 0x51 y) ∧
      t = { issueRequest (engInit e.ty e.num).src (engInit e.ty e.num).init (farReq true (s.farAddr32 e y) 4 (s.vreg e y.rd)) y.stamp
        { s with engines := t.engines } with pins := t.pins } := by
  have h := alone_of_ready (.stf e y) rfl hr hy
  refine h.sends _ (h.reservedSyl_far (Or.inr rfl) hty hra hrb hfn) fun c hc hresp => ?_
  have hnot : ¬(0x51 : Nat) = 0x50 := by decide
  rw [h.opEffect_far (Or.inr rfl), opFar]
  simp only [hc.farAddr _ y hty, ha, h.sylOp, ne_eq, not_true_eq_false, if_false, if_neg hnot, hc.c32_true hty, if_true, sylRd_sylWord, hc.reg,
    farDo_sends c true _ _ _ ha hresp]

theorem Alone.far_misaligned (h : Alone i e op y s) (hop : op = 0x50 ∨ op = 0x51) (hty : e.ty = 3) (hra : y.ra % 2 = 0) (hrb : y.rb = 0)
    (hfn : y.fn = 0) (ha : s.farAddr32 e y % 4 ≠ 0) (hquiet : trapActive e.ty (s.core e).sys = false) :
    Traps i e s 6 (s.farAddr32 e y % 2 ^ 32) 0 (s.core e).pc (s.nextPc e) := by
  refine h.traps 6 _ 0 (by decide) hquiet ?_ (h.reservedSyl_far hop hty hra hrb hfn) fun c hc => h.opFar_misaligned hop hty ha hc
  rw [hty]
  exact Nat.mod_lt _ (by decide)

end Sys2Proof.Machine
end

section
/-!
PROOFS. The response to a far access (O26).
-/

namespace Sys2Proof.Machine

variable {i : Instr} {e : EngineId} {op : Nat} {y : Syl} {s s2 : State} {c : Ctx}

/-! ### A ready engine some cycles later -/

/-- A state in which only cycles of an engine, responses and draws of free values have come since another. -/
structure Later (e : EngineId) (s s2 : State) : Prop where
  rest : s2 = { s with engines := s2.engines, inbox := s2.inbox, freeCount := s2.freeCount }
  core : s2.core e = { s.core e with cyc := (s2.core e).cyc }

theorem Later.sysReg (h : Later e s s2) (sel : Nat) : s2.sysReg e.ty e.num sel = s.sysReg e.ty e.num sel :=
  (congrArg (fun x => sysGet e.ty (Engine.sys x) sel) h.core).trans rfl

theorem Later.link (h : Later e s s2) (k : Nat) : s2.link k = s.link k := by
  rw [h.rest]
  rfl

theorem Later.mem (h : Later e s s2) (k : Nat) : s2.mem k = s.mem k := by
  rw [h.rest]
  rfl

theorem Later.ipend (h : Later e s s2) : s2.ipend e.ty e.num = s.ipend e.ty e.num := by
  rw [h.rest]
  rfl

theorem Later.engState (h : Later e s s2) : s2.engState e.ty e.num = s.engState e.ty e.num := by
  rw [h.rest]
  rfl

theorem Later.domainOn (h : Later e s s2) (d : Nat) : s2.domainOn d = s.domainOn d := by
  rw [h.rest]
  rfl

theorem Later.vphys (h : Later e s s2) (v : Nat) : s2.vphys e v = s.vphys e v := by
  rw [State.vphys, h.sysReg, State.vphys]

theorem Later.vreg (h : Later e s s2) (v : Nat) : s2.vreg e v = s.vreg e v := by
  rw [State.vreg, h.vphys, h.core, State.vreg]

theorem Later.pc (h : Later e s s2) : (s2.core e).pc = (s.core e).pc := (congrArg Engine.pc h.core).trans rfl

theorem Later.boundaryEvent (h : Later e s s2) : boundaryEvent s2 e.ty e.num false = boundaryEvent s e.ty e.num false := by
  have hsys : (s2.eng (engKey e.ty e.num)).sys = (s.eng (engKey e.ty e.num)).sys := (congrArg Engine.sys h.core).trans rfl
  have hirq : s2.irqLine e.ty e.num = s.irqLine e.ty e.num := by rw [State.irqLine, h.ipend, h.sysReg, State.irqLine]
  simp only [Machine.boundaryEvent, h.link, hsys, hirq]

/-- An engine that was ready is ready. -/
theorem Later.ready (h : Later e s s2) (hr : Ready s e) : Ready s2 e where
  ok := hr.ok
  issue := by
    have hfar : (s2.eng (engKey e.ty e.num)).far = (s.eng (engKey e.ty e.num)).far := (congrArg Engine.far h.core).trans rfl
    have hrep : (s2.eng (engKey e.ty e.num)).rep = (s.eng (engKey e.ty e.num)).rep := (congrArg Engine.rep h.core).trans rfl
    rw [canIssue, h.engState, h.domainOn, hfar, hrep]
    exact hr.issue
  bundle := (congrArg Engine.bundle h.core).trans hr.bundle
  loads := (congrArg Engine.loads h.core).trans hr.loads
  due := (congrArg Engine.due h.core).trans hr.due
  late := (congrArg Engine.late h.core).trans hr.late
  held := (congrArg Engine.held h.core).trans hr.held
  stop := (congrArg Engine.stopReq h.core).trans hr.stop
  halt := (congrArg Engine.haltReq h.core).trans hr.halt
  step := (congrArg Engine.stepReq h.core).trans hr.step
  event := h.boundaryEvent.trans hr.event
  fetch := by
    rw [h.pc]
    exact hr.fetch
  row := by
    rw [State.rowClean, h.pc, h.mem]
    exact hr.row

/-! ### FAR_ACCESS_RESPONSE (R194) -/

/-- The place of an engine's responses. -/
def boxOf (e : EngineId) : Nat := (engInit e.ty e.num).src * 32 + (engInit e.ty e.num).init

/-- A state with an engine waiting for a far access, the response first in its inbox. -/
def State.farDue (s : State) (e : EngineId) (w : Nat) (r : Answer) (q : NetReq) (rest : List (Answer × NetReq)) : State :=
  { s.setEng (engKey e.ty e.num) (s.waitsFar e w) with inbox := tblSet [] s.inbox (boxOf e) ((r, q) :: rest) }

/-- The same once the response has been taken. -/
def State.farTaken (s : State) (e : EngineId) (w : Nat) (r : Answer) (q : NetReq) (rest : List (Answer × NetReq)) : State :=
  let u := s.farDue e w r q rest
  passCycles e.ty e.num (({ u with inbox := tblSet [] u.inbox (boxOf e) rest } : State).setEng (engKey e.ty e.num) { u.core e with far := none })

/-- What the waiting bundle sees when its response has come. -/
def State.farCtx (s : State) (e : EngineId) (w : Nat) (r : Answer) (q : NetReq) (rest : List (Answer × NetReq)) : Ctx :=
  ⟨e.ty, e.num, 1, s.farTaken e w r q rest, (s.core e).sys, s.link (engKey e.ty e.num), [r]⟩

variable {w : Nat} {r : Answer} {q : NetReq} {rest : List (Answer × NetReq)}

theorem farDue_core : (s.farDue e w r q rest).core e = s.waitsFar e w := State.setEng_same _ _ _

theorem farTaken_inbox : tblGet [] (s.farTaken e w r q rest).inbox (boxOf e) = rest := by
  have hinbox : (s.farTaken e w r q rest).inbox = tblSet [] (s.farDue e w r q rest).inbox (boxOf e) rest := rfl
  rw [hinbox, tblGet_set_same]

theorem later_farTaken (hr : Ready s e) : Later e s (s.farTaken e w r q rest) where
  rest := by simp only [State.farTaken, State.farDue, passCycles, State.setEng, State.draw]
  core := by
    have hfar := canIssue_far s e hr
    have htaken : (s.farTaken e w r q rest).core e =
        { s.waitsFar e w with far := none, cyc := (s.core e).cyc + 1 + Config.freeValue s.freeCount } := by
      rw [State.farTaken, State.core, passCycles, State.setEng_same, farDue_core]
      have hbefore : ((({ s.farDue e w r q rest with inbox := tblSet [] (s.farDue e w r q rest).inbox (boxOf e) rest } : State).setEng
          (engKey e.ty e.num) { s.waitsFar e w with far := none }).draw.2).eng (engKey e.ty e.num) = { s.waitsFar e w with far := none } :=
        State.setEng_same _ _ _
      rw [hbefore]
      rfl
    rw [htaken, State.waitsFar, ← hfar]

theorem sees_farCtx (hr : Ready s e) : (s.farCtx e w r q rest).Sees e (s.farTaken e w r q rest) where
  ty := rfl
  num := rfl
  sys := (congrArg Engine.sys (later_farTaken hr).core).symm
  eng := rfl
  mem := rfl
  link := ((later_farTaken hr).link _).symm
  ipend := rfl

/-- A response that stands first in its engine's inbox ends the wait. -/
theorem farResponse_eq (stamp : Nat) : farResponse e.ty e.num stamp (s.farDue e w r q rest) =
    endBundle e.ty e.num (finishBundle (s.farCtx e w r q rest) [w] false stamp (s.farTaken e w r q rest)) := by
  have hfar : ((s.farDue e w r q rest).eng (engKey e.ty e.num)).far = some ⟨[w], false, (s.core e).sys, s.link (engKey e.ty e.num), []⟩ :=
    congrArg Engine.far (farDue_core (s := s) (e := e) (w := w) (r := r) (q := q) (rest := rest))
  have hbox : tblGet [] (s.farDue e w r q rest).inbox ((engInit e.ty e.num).src * 32 + (engInit e.ty e.num).init) = (r, q) :: rest :=
    tblGet_set_same [] s.inbox (boxOf e) ((r, q) :: rest)
  have htake : takeFar e.ty e.num (s.farDue e w r q rest) =
      some (r, { s.farDue e w r q rest with inbox := tblSet [] (s.farDue e w r q rest).inbox (boxOf e) rest }) := by
    simp only [takeFar, hbox]
    rfl
  simp only [farResponse, hfar, htake, Bool.false_eq_true, if_false]
  rfl

theorem exec_farAccessResponse (hr : Ready s e) (stamp : Nat) : exec (.farAccessResponse e stamp) (s.farDue e w r q rest) =
    done (endBundle e.ty e.num (finishBundle (s.farCtx e w r q rest) [w] false stamp (s.farTaken e w r q rest))) := by
  have hup : engineUp (s.farDue e w r q rest) e = true := by
    have hissue := hr.issue
    simp only [canIssue, Bool.and_eq_true] at hissue
    exact hissue.1.1.2
  have hexec : exec (.farAccessResponse e stamp) (s.farDue e w r q rest) =
      need (engineOk e) (done (if engineUp (s.farDue e w r q rest) e then farResponse e.ty e.num stamp (s.farDue e w r q rest)
        else s.farDue e w r q rest)) := rfl
  rw [hexec, hr.ok, need_true, hup, if_pos rfl, farResponse_eq]

/-! ### What LDF comes to with its response -/

theorem Alone.farCtx_result (h : Alone i e op y s) :
    (s.farCtx e w r q rest).result false (sylWord op y) = opEffect (s.farCtx e w r q rest) false (sylWord op y) := by
  obtain ⟨hok, -, hcond, -⟩ := y.alone_parts h.alone
  have hholds : (s.farCtx e w r q rest).holds (sylWord op y) = true := by
    rw [Ctx.holds, sylCond_sylWord op y hok h.op_lt_128, hcond]
    rfl
  rw [Ctx.result, if_pos hholds]

theorem farAddr_farCtx (hr : Ready s e) (hty : e.ty = 3) (op : Nat) (y : Syl) : (s.farCtx e w r q rest).farAddr (sylWord op y) = s.farAddr32 e y := by
  have hlater := later_farTaken (w := w) (r := r) (q := q) (rest := rest) hr
  rw [(sees_farCtx hr).farAddr op y hty, State.farAddr32, hlater.vreg, hlater.vreg, State.farAddr32]

/-- RSP_OK brings the word read (R194). -/
theorem ldf_ok (h : Alone (.ldf e y) e 0x50 y s) (hty : e.ty = 3) (ha : s.farAddr32 e y % 4 = 0) (hcode : r.code = rspOk) :
    (s.farCtx e w r q rest).result false (sylWord 0x50 y) =
      .ok { regs := [(s.vphys e y.rd, leNum ((r.data.drop (s.farAddr32 e y % 64)).take 4))] } := by
  have hready := ready_parts s e h.ready
  have hc := sees_farCtx (w := w) (r := r) (q := q) (rest := rest) hready
  have hphys : (s.farCtx e w r q rest).phys y.rd = s.vphys e y.rd := (hc.phys _).trans ((later_farTaken hready).vphys _)
  have hresp : (s.farCtx e w r q rest).resp = [r] := rfl
  have hbytes : farBytes (s.farAddr32 e y) 4 [r] = (r.data.drop (s.farAddr32 e y % 64)).take 4 := by
    simp [farBytes, farHead_aligned _ ha]
  rw [h.farCtx_result, h.opEffect_far (Or.inl rfl), opFar]
  simp [farAddr_farCtx hready hty, ha, h.sylOp, Ctx.farDo, hresp, hcode, farParts, farHead_aligned _ ha, hc.c32_true hty, hbytes, sylRd_sylWord, hphys]

/-- Any other code is a trap (R194). -/
theorem ldf_refused (h : Alone (.ldf e y) e 0x50 y s) (hty : e.ty = 3) (ha : s.farAddr32 e y % 4 = 0) (hcode : r.code ≠ rspOk) :
    (s.farCtx e w r q rest).result false (sylWord 0x50 y) = .trap 7 (s.farAddr32 e y % 2 ^ 32) r.code := by
  have hready := ready_parts s e h.ready
  have hc := sees_farCtx (w := w) (r := r) (q := q) (rest := rest) hready
  have hw : (s.farCtx e w r q rest).w = 32 := hc.w.trans (by rw [hty]; rfl)
  have hresp : (s.farCtx e w r q rest).resp = [r] := rfl
  rw [h.farCtx_result, h.opEffect_far (Or.inl rfl), opFar]
  simp [farAddr_farCtx hready hty, ha, h.sylOp, Ctx.farDo, hresp, hcode, hw]

/-! ### The end of the wait -/

theorem SameEngines.refl (s : State) : SameEngines s s := ⟨rfl, fun _ => rfl⟩

theorem vphys_ne_zero (s : State) (e : EngineId) (v : Nat) (h : v ≠ 0) : s.vphys e v ≠ 0 := by
  unfold State.vphys physReg
  split <;> omega

theorem afterBundle_of_no_fbar (ty n : Nat) (f : Eff) (s : State) (h : f.fbar = false) : afterBundle ty n [f] s = s := by
  simp [afterBundle, h]

theorem inbox_of_commit (e : EngineId) (pc : Nat) (s : State) (x : Engine) (p : Pins) :
    ((showPc e.ty e.num pc (s.setEng (engKey e.ty e.num) x)).withPins p).inbox = s.inbox := rfl

/-- A commit takes from what its bundle sees the engine and the address of the next bundle. -/
theorem commit_of_next (c : Ctx) (len : Nat) (fs : List Eff) (s : State) (h : c.next = (Ctx.now c.ty c.n len s).next) :
    commit c fs s = commit (Ctx.now c.ty c.n len s) fs s := by
  simp only [commit, h]
  rfl

/-- A response with which the waiting bundle writes a register: it completes. -/
theorem response_writes (hr : Ready s e) (p v stamp : Nat)
    (hresult : (s.farCtx e w r q rest).result false w = .ok { regs := [(p, v)] }) :
    ∃ t, exec (.farAccessResponse e stamp) (s.farDue e w r q rest) = .next t ∧ tblGet [] t.inbox (boxOf e) = rest ∧
      t.core e = { s.core e with phys := physPut (s.core e).phys p v, pc := s.nextPc e, cyc := (t.core e).cyc } := by
  have hlater := later_farTaken (w := w) (r := r) (q := q) (rest := rest) hr
  have hready := hlater.ready hr
  generalize hs2 : s.farTaken e w r q rest = s2 at hlater hready
  have hplain : ({ regs := [(p, v)] } : Eff).Plain := ⟨rfl, rfl, rfl, rfl, rfl⟩
  have hcommit : commit (s.farCtx e w r q rest) [{ regs := [(p, v)] }] s2 = commit (Ctx.now e.ty e.num 1 s2) [{ regs := [(p, v)] }] s2 :=
    commit_of_next (s.farCtx e w r q rest) 1 _ s2 (by rw [Ctx.next, Ctx.next, ← hs2]; rfl)
  have hfinish : finishBundle (s.farCtx e w r q rest) [w] false stamp s2 = showPc e.ty e.num (s2.core e).pc
      (s2.setEng (engKey e.ty e.num) ((s2.core e).bundled e.ty 1 [{ regs := [(p, v)] }])) := by
    rw [finishBundle_ok _ _ _ _ _ hresult, afterBundle_of_no_fbar _ _ _ _ rfl, hcommit]
    exact commit_ready e 1 s2 s2 s2 _ (SameEngines.refl s2) hready (applyOutside_plain e.ty e.num s2 _ hplain) rfl
  have hend : endBundle e.ty e.num (finishBundle (s.farCtx e w r q rest) [w] false stamp s2) =
      finishBundle (s.farCtx e w r q rest) [w] false stamp s2 := by
    refine endBundle_run _ _ _ ?_
    rw [hfinish, showPc_eng, State.setEng_same, bundled_stopReq]
    exact hready.stop
  have hexec := exec_farAccessResponse (w := w) (r := r) (q := q) (rest := rest) hr stamp
  rw [hs2, hend, hfinish] at hexec
  obtain ⟨pins, hnext⟩ := next_of_done hexec
  refine ⟨_, hnext, ?_, ?_⟩
  · rw [inbox_of_commit, ← hs2, farTaken_inbox]
  · rw [core_of_commit, bundled_of_ready s2 e hready 1 [{ regs := [(p, v)] }] (by simp) (by simp), hlater.core]
    rfl

/-- A response with which the waiting bundle traps, with no handler active. -/
theorem response_traps (hr : Ready s e) (cause tval info stamp : Nat) (hcause : cause ≠ 0x0A) (htval : tval < 2 ^ widthOf e.ty)
    (hquiet : trapActive e.ty (s.core e).sys = false) (hresult : (s.farCtx e w r q rest).result false w = .trap cause tval info) :
    ∃ t, exec (.farAccessResponse e stamp) (s.farDue e w r q rest) = .next t ∧ tblGet [] t.inbox (boxOf e) = rest ∧ (t.core e).far = none ∧
      (t.core e).pc = pcOf e.ty (s.sysReg e.ty e.num 4 + 64 * cause) ∧
      t.sysReg e.ty e.num 8 = info * 2 ^ (if e.ty = 3 then 16 else 15) + cause := by
  have hlater := later_farTaken (w := w) (r := r) (q := q) (rest := rest) hr
  have hready := hlater.ready hr
  generalize hs2 : s.farTaken e w r q rest = s2 at hlater hready
  have hquiet2 : trapActive e.ty (s2.core e).sys = false := by
    rw [hlater.core]
    exact hquiet
  have hfinish := finishBundle_trap (s.farCtx e w r q rest) w stamp s2 cause tval info hresult hcause
  have htrap := syncTrap_ready e s2 s2 (SameEngines.refl s2) hready cause tval info (s.farCtx e w r q rest).eng.pc (s.farCtx e w r q rest).next
    hquiet2 htval
  have hfinal := hfinish.trans htrap
  generalize (s.farCtx e w r q rest).eng.pc = rsm at hfinal
  generalize (s.farCtx e w r q rest).next = next at hfinal
  have hend : endBundle e.ty e.num (finishBundle (s.farCtx e w r q rest) [w] false stamp s2) =
      s2.setEng (engKey e.ty e.num) (s2.trapped e cause tval info rsm next) := by
    rw [hfinal]
    refine endBundle_run _ _ _ ?_
    rw [State.setEng_same]
    exact hready.stop
  have hexec := exec_farAccessResponse (w := w) (r := r) (q := q) (rest := rest) hr stamp
  rw [hs2, hend] at hexec
  obtain ⟨pins, hnext⟩ := next_of_done hexec
  have hcore : ((s2.setEng (engKey e.ty e.num) (s2.trapped e cause tval info rsm next)).withPins pins).core e =
      s2.trapped e cause tval info rsm next := State.setEng_same _ _ _
  refine ⟨_, hnext, ?_, ?_, ?_, ?_⟩
  · rw [← farTaken_inbox (s := s) (e := e) (w := w) (r := r) (q := q) (rest := rest), hs2]
    rfl
  · rw [hcore]
    exact canIssue_far s2 e hready
  · rw [hcore, State.trapped, hlater.sysReg]
  · rw [State.sysReg, show State.eng _ _ = _ from hcore]
    exact trapSys_tcause _ _ _ _ _ _ _ _

/-- A response with which the waiting bundle of a sash engine traps in an active handler: the engine stops, and waits for nothing (R199). -/
theorem response_faults (hr : Ready s e) (hty : e.ty = 3) (cause tval info stamp : Nat) (hcause : cause ≠ 0x0A)
    (hactive : trapActive e.ty (s.core e).sys = true) (hresult : (s.farCtx e w r q rest).result false w = .trap cause tval info) :
    ∃ t, exec (.farAccessResponse e stamp) (s.farDue e w r q rest) = .next t ∧ tblGet [] t.inbox (boxOf e) = rest ∧ (t.core e).far = none := by
  have hlater := later_farTaken (w := w) (r := r) (q := q) (rest := rest) hr
  generalize hs2 : s.farTaken e w r q rest = s2 at hlater
  have hactive2 : trapActive e.ty (s2.eng (engKey e.ty e.num)).sys = true := by
    rw [show s2.eng (engKey e.ty e.num) = _ from hlater.core]
    exact hactive
  have hfault : finishBundle (s.farCtx e w r q rest) [w] false stamp s2 = engineFault e.ty e.num fkDoubleTrap 4 s2 := by
    rw [finishBundle_trap _ _ _ _ _ _ _ hresult hcause]
    exact if_pos hactive2
  obtain ⟨hfar, hstop, hinbox⟩ := engineFault_far e.num fkDoubleTrap 4 s2
  rw [← hty] at hfar hstop hinbox
  have hexec := exec_farAccessResponse (w := w) (r := r) (q := q) (rest := rest) hr stamp
  rw [hs2, hfault, endBundle_run _ _ _ hstop] at hexec
  obtain ⟨pins, hnext⟩ := next_of_done hexec
  refine ⟨_, hnext, ?_, hfar⟩
  rw [← farTaken_inbox (s := s) (e := e) (w := w) (r := r) (q := q) (rest := rest), hs2, ← hinbox]
  rfl

/-- Settles O26: the request goes out, or traps, when the syllable issues; the response that stands first ends the wait, by its code. -/
theorem farAccesses : Obligations.FarAccesses := by
  unfold Obligations.FarAccesses
  intro e y s hr hy hty hra hrb hfn k a box sends
  have hready := ready_parts s e hr
  refine ⟨fun ha => ⟨?_, ?_⟩, fun ha hquiet => ⟨?_, ?_⟩, ?_⟩
  · obtain ⟨t, hnext, hframe, hcore, ht⟩ := ldf_sends hr hy hty hra hrb hfn ha
    exact ⟨t, hnext, hframe, by rw [hcore]; rfl, ht⟩
  · obtain ⟨t, hnext, hframe, hcore, ht⟩ := stf_sends hr hy hty hra hrb hfn ha
    exact ⟨t, hnext, hframe, by rw [hcore]; rfl, ht⟩
  · exact (alone_of_ready (.ldf e y) rfl hr hy).far_misaligned (Or.inl rfl) hty hra hrb hfn ha hquiet
  · exact (alone_of_ready (.stf e y) rfl hr hy).far_misaligned (Or.inr rfl) hty hra hrb hfn ha hquiet
  · intro r q rest stamp ha _ w u
    have h := alone_of_ready (.ldf e y) rfl hr hy
    have htval : a % 2 ^ 32 < 2 ^ widthOf e.ty := by
      rw [hty]
      exact Nat.mod_lt _ (by decide)
    by_cases hcode : r.code = rspOk
    · obtain ⟨t, hnext, hinbox, hcore⟩ := response_writes hready _ _ stamp (ldf_ok (r := r) (q := q) (rest := rest) h hty ha hcode)
      refine ⟨t, hnext, ?_, hinbox, fun _ => ⟨by rw [hcore], ?_⟩, fun hne => absurd hcode hne⟩
      · rw [hcore]
        exact canIssue_far s e hready
      · have hphys : t.vphys e y.rd = s.vphys e y.rd := by
          rw [State.vphys, State.sysReg, show t.eng (engKey e.ty e.num) = _ from hcore]
          rfl
        rw [State.vreg, hphys, hcore]
        split
        · rfl
        · next hrd =>
          rw [physPut, if_neg (vphys_ne_zero s e y.rd hrd), tblGet_set_same]
          rfl
    · have hresult := ldf_refused (w := w) (q := q) (rest := rest) h hty ha hcode
      cases hactive : trapActive e.ty (s.core e).sys
      · obtain ⟨t, hnext, hinbox, hfar, hpc, htcause⟩ := response_traps hready 7 _ r.code stamp (by decide) htval hactive hresult
        rw [if_pos hty] at htcause
        exact ⟨t, hnext, hfar, hinbox, fun hok => absurd hok hcode, fun _ _ => ⟨hpc, htcause⟩⟩
      · obtain ⟨t, hnext, hinbox, hfar⟩ := response_faults hready hty 7 _ r.code stamp (by decide) hactive hresult
        exact ⟨t, hnext, hfar, hinbox, fun hok => absurd hok hcode, fun _ hquiet => absurd hquiet (by decide)⟩

end Sys2Proof.Machine
end

section
/-!
PROOFS. More laws of pages: a write that an open page's own rule accepts.
-/

namespace Sys2Proof.Machine

/-- A write to an open page, accepted by the register's own rule, has the outcome of that rule. -/
theorem regWrite_open (w : WriteReq) (s u : State) (hty : w.ty < 0x11) (htrlh : w.ty ≠ 0x09) (hoff : w.off % 4 = 0)
    (hopen : s.pageOpen w.ty w.n = true) (hrule : wordWrite w s = (u, rspOk)) : regWrite w s = done (u.reply rspOk []) := by
  obtain ⟨hfence, hup⟩ := pageOpen_reached s w.ty w.n w.off htrlh hopen
  have hgate : w.ty ≠ 0x11 := by omega
  have hlatch : w.ty ≠ 0x14 := by omega
  have hdebug : w.ty ≠ 0x18 := by omega
  simp [regWrite, pageWrite, afterWrite, hoff, hfence, hup, hrule, hgate, hlatch, hdebug]

end Sys2Proof.Machine
end

section
/-!
PROOFS. What a loader's read of an image leaves: the registers of the spare sash engines (O33).
-/

namespace Sys2Proof.Machine

/-! ### SASH_SPARE_STAT -/

/-- From s to t the register file lists the same for every SASH_SPARE_STAT. -/
def KeepsSpares (s t : State) : Prop := ∀ n, n < 256 → tblFind t.regs (R.SASH_SPARE_STAT.key n) = tblFind s.regs (R.SASH_SPARE_STAT.key n)

section

variable {s t u : State}

theorem KeepsSpares.refl (s : State) : KeepsSpares s s := fun _ _ => rfl

theorem KeepsSpares.trans (h : KeepsSpares s t) (g : KeepsSpares t u) : KeepsSpares s u := fun n hn => (g n hn).trans (h n hn)

/-- What changes no register keeps them. -/
theorem KeepsSpares.step (h : KeepsSpares s t) (hregs : u.regs = t.regs) : KeepsSpares s u := fun n hn => by rw [hregs, h n hn]

/-- A register of a page type after the SASH pages is none of them. -/
theorem KeepsSpares.setReg (h : KeepsSpares s t) (ty n off : Nat) (v : Word) (hty : 3 < ty) : KeepsSpares s (t.setReg ty n off v) :=
  fun m hm => (State.setReg_find t ty n off _ v (regKey_ne_of_ty_lt 3 ty m n 0x094 off hty hm (by decide))).trans (h m hm)

theorem KeepsSpares.put (h : KeepsSpares s t) (f : Field) (n v : Nat) (hty : 3 < f.ty) : KeepsSpares s (t.put f n v) := h.setReg f.ty n f.off _ hty

theorem KeepsSpares.count (h : KeepsSpares s t) (f : Field) (n k : Nat) (hty : 3 < f.ty) : KeepsSpares s (t.count f n k) := h.put f n _ hty

theorem KeepsSpares.countWrap (h : KeepsSpares s t) (f : Field) (n k : Nat) (hty : 3 < f.ty) : KeepsSpares s (t.countWrap f n k) :=
  h.put f n _ hty

theorem KeepsSpares.raise (h : KeepsSpares s t) (ty n k : Nat) (hty : 3 < ty) : KeepsSpares s (t.raise ty n k) :=
  h.put ⟨ty, 0x10, 4, k, 1⟩ n 1 hty

theorem KeepsSpares.report (h : KeepsSpares s t) (ty n k cls : Nat) : KeepsSpares s (t.report ty n k cls) := h.step rfl

theorem KeepsSpares.setDdr (h : KeepsSpares s t) (ch : Nat) (x : DdrChannel) : KeepsSpares s (t.setDdr ch x) := h.step rfl

theorem KeepsSpares.setBank (h : KeepsSpares s t) (b : Nat) (x : PantBank) : KeepsSpares s (t.setBank b x) := h.step rfl

/-- What touches no register but the counts of lost responses keeps them. -/
theorem KeepsDdr.keepsSpares (h : KeepsDdr s t) : KeepsSpares s t := by
  refine fun n _ => h.2 _ ?_
  rw [Field.key, keyOff_regKey _ _ _ (by decide)]
  decide

theorem KeepsSpares.get (h : KeepsSpares s t) (f : Field) (n : Nat) (hn : n < 256) (hty : f.ty = 3) (hoff : f.off = 0x094) :
    t.get f n = s.get f n := by
  refine State.get_of_find s t f n ?_
  rw [Field.key, hty, hoff]
  exact h n hn

end

/-! ### The Footpath (R308, R321) -/

theorem countLocal_keepsSpares (t code : Nat) (s : State) : KeepsSpares s (countLocal t code s) := by
  unfold countLocal
  split
  · exact ((KeepsSpares.refl s).count _ _ _ (by decide)).raise _ _ _ (by decide)
  · split
    · exact (KeepsSpares.refl s).count _ _ _ (by decide)
    · split
      · exact ((KeepsSpares.refl s).count _ _ _ (by decide)).raise _ _ _ (by decide)
      · exact ((KeepsSpares.refl s).count _ _ _ (by decide)).raise _ _ _ (by decide)

theorem directRequest_keepsSpares (i : Initiator) (tg : Target) (q : NetReq) (s : State) : KeepsSpares s (directRequest i tg q s).1 := by
  unfold directRequest
  split
  · next code _ => exact (countLocal_keepsSpares i.src code s).step rfl
  · exact (KeepsSpares.refl s).step rfl

theorem answerNet_keepsSpares (i : NetIn) (a : Answer) (s : State) : KeepsSpares s (answerNet i a s) := by
  unfold answerNet
  split
  · exact (sendResponse_keepsDdr _ a s).keepsSpares
  · exact (KeepsSpares.refl s).step rfl

/-! ### DDR (R24, R25) -/

theorem ddrLose_keepsSpares (ch : Nat) (s : State) : KeepsSpares s (ddrLose ch s) := by
  refine KeepsSpares.trans ?_ (ddrLose_keeps ch s).keepsSpares
  rw [State.clearHeld, lossShown, channelLost]
  refine KeepsSpares.setDdr ?_ _ _
  exact (((((KeepsSpares.refl s).put _ _ _ (by decide)).put _ _ _ (by decide)).raise _ _ _ (by decide)).report _ _ _ _).put _ _ _ (by decide)

theorem ddrWord_keepsSpares (ch w : Nat) (s : State) : KeepsSpares s (ddrWord ch w s).1 := by
  have hloc (t : State) (addr symbol e : Nat) (ue : Bool) (h : KeepsSpares s t) : KeepsSpares s (ddrErrLoc ch addr symbol e ue t) :=
    (h.put _ _ _ (by decide)).setReg _ _ _ _ (by decide)
  unfold ddrWord
  dsimp only
  split
  · exact KeepsSpares.refl s
  · exact ((hloc _ _ _ _ _ ((KeepsSpares.refl s).setDdr _ _)).count _ _ _ (by decide)).raise _ _ _ (by decide)
  · exact (((hloc s _ _ _ _ (KeepsSpares.refl s)).count _ _ _ (by decide)).raise _ _ _ (by decide)).report _ _ _ _

theorem ddrWords_keepsSpares (ch n : Nat) (w : Nat) (s : State) : KeepsSpares s (ddrWords ch w n s).1 := by
  induction n generalizing w s with
  | zero => exact KeepsSpares.refl s
  | succ n ih => exact (ddrWord_keepsSpares ch w s).trans (ih (w + 1) _)

theorem ddrCountUe_keepsSpares (ch : Nat) (s : State) : KeepsSpares s (ddrCountUe ch s) := by
  unfold ddrCountUe
  dsimp only
  split
  · exact ((KeepsSpares.refl s).setDdr _ _).trans (ddrLose_keepsSpares ch _)
  · exact (KeepsSpares.refl s).setDdr _ _

theorem ddrServeRead_keepsSpares (ch addr len : Nat) (s : State) : KeepsSpares s (ddrServeRead ch addr len s).1 := by
  have hwords := ddrWords_keepsSpares ch ((addr + len + 7) / 8 - addr / 8) (addr / 8) s
  by_cases hin : s.ddrUsable ch < addr + len
  · rw [ddrServeRead, if_pos hin]
    exact KeepsSpares.refl s
  · rw [ddrServeRead, if_neg hin]
    dsimp only
    split
    · exact hwords.trans (ddrCountUe_keepsSpares ch _)
    · exact hwords

theorem ddrRequest_read (ch x n : Nat) (s u : State) (a : Answer) (hready : s.ddrState ch = ddrReady) (hread : ddrServeRead ch x n s = (u, a)) :
    ddrRequest ch ⟨x, n, 0, none, none⟩ s = (u, some a) := by
  simp only [ddrRequest, if_pos hready, hread]

theorem ddrRequest_keepsSpares (ch x n : Nat) (s : State) : KeepsSpares s (ddrRequest ch ⟨x, n, 0, none, none⟩ s).1 := by
  by_cases hready : s.ddrState ch = ddrReady
  · have hkeeps := ddrServeRead_keepsSpares ch x n s
    cases hread : ddrServeRead ch x n s with
    | mk u a =>
      rw [hread] at hkeeps
      rw [ddrRequest_read ch x n s u a hready hread]
      exact hkeeps
  · rw [ddrRequest, if_neg hready]
    split
    · exact (KeepsSpares.refl s).setDdr _ _
    · split
      · exact KeepsSpares.refl s
      · exact KeepsSpares.refl s

theorem ddrNow_keepsSpares (ch x n : Nat) (s : State) : KeepsSpares s (ddrNow ch x n s).1 := by
  have hrequest := ddrRequest_keepsSpares ch x n s
  rw [ddrNow]
  split
  · exact KeepsSpares.refl s
  · exact hrequest

/-! ### Pantry (R279, R282, R283, R286) -/

theorem pantWord_keepsSpares (b w : Nat) (s : State) : KeepsSpares s (pantWord b w s).1 := by
  have hloc (t : State) (symbol e : Nat) (ue : Bool) (h : KeepsSpares s t) : KeepsSpares s (pantErrLoc b w symbol e ue t) :=
    h.setReg _ _ _ _ (by decide)
  unfold pantWord
  dsimp only
  split
  · exact KeepsSpares.refl s
  · exact ((hloc _ _ _ _ ((KeepsSpares.refl s).setBank _ _)).count _ _ _ (by decide)).raise _ _ _ (by decide)
  · exact (((hloc s _ _ _ (KeepsSpares.refl s)).count _ _ _ (by decide)).raise _ _ _ (by decide)).report _ _ _ _

theorem headDecode_keepsSpares (b w : Nat) (reads : Bool) (s : State) : KeepsSpares s (headDecode b w reads s).1 := by
  unfold headDecode
  split
  · exact pantWord_keepsSpares b w s
  · exact KeepsSpares.refl s

theorem headApply_regs (b : Nat) (r : PantReq) (bad : Bool) (v : List Byte) (s : State) : (headApply b r bad v s).1.regs = s.regs := by
  unfold headApply
  split
  · rfl
  · split
    · dsimp only
      split
      · rfl
      · rfl
    · rfl

theorem pantFinish_keepsSpares (r : PantReq) (s : State) : KeepsSpares s (pantFinish r s) := by
  unfold pantFinish
  split
  · exact KeepsSpares.refl s
  · exact answerNet_keepsSpares _ _ s

theorem pantServe_keepsSpares (b : Nat) (sash : Bool) (r : PantReq) (bad : Bool) (v : List Byte) (s : State) :
    KeepsSpares s (pantServe b sash r bad v s) :=
  ((KeepsSpares.refl s).step (headApply_regs b r bad v s)).trans (KeepsSpares.trans ((KeepsSpares.refl _).step rfl) (pantFinish_keepsSpares _ _))

theorem pantBoth_keepsSpares (b : Nat) (r g : PantReq) (s : State) : KeepsSpares s (pantBoth b r g s) := by
  unfold pantBoth
  dsimp only
  split
  · exact ((headDecode_keepsSpares b _ _ s).trans (pantServe_keepsSpares _ _ _ _ _ _)).trans (pantServe_keepsSpares _ _ _ _ _ _)
  · exact ((headDecode_keepsSpares b _ _ s).trans (pantServe_keepsSpares _ _ _ _ _ _)).trans (pantServe_keepsSpares _ _ _ _ _ _)

theorem pantOne_keepsSpares (b : Nat) (sash : Bool) (r : PantReq) (s : State) : KeepsSpares s (pantOne b sash r s) :=
  (headDecode_keepsSpares b _ _ s).trans (pantServe_keepsSpares _ _ _ _ _ _)

theorem pantAccess_keepsSpares (b : Nat) (s : State) : KeepsSpares s (pantAccess b s) := by
  have hone (sash : Bool) (r : PantReq) : KeepsSpares s (countAccess b (pantOne b sash r s)) := (pantOne_keepsSpares b sash r s).step rfl
  unfold pantAccess
  dsimp only
  split
  · exact KeepsSpares.refl s
  · exact hone true _
  · exact hone false _
  · split
    · exact (pantBoth_keepsSpares b _ _ s).step rfl
    · split
      · exact hone false _
      · exact (hone true _).step rfl

theorem pantUntil_keepsSpares (b n : Nat) (s : State) : KeepsSpares s (pantUntil b n s) := by
  induction n generalizing s with
  | zero => exact KeepsSpares.refl s
  | succ n ih =>
    unfold pantUntil
    split
    · exact KeepsSpares.refl s
    · exact (pantAccess_keepsSpares b s).trans (ih _)

theorem handComplete_keepsSpares (b : Nat) (s : State) : KeepsSpares s (handComplete b s) := by
  unfold handComplete
  dsimp only
  split
  · refine KeepsSpares.raise (KeepsSpares.countWrap (KeepsSpares.setBank ?_ _ _) _ _ _ (by decide)) _ _ _ (by decide)
    exact (((KeepsSpares.refl s).put _ _ _ (by decide)).put _ _ _ (by decide)).put _ _ _ (by decide)
  · exact KeepsSpares.refl s

theorem pantFlush_keepsSpares (b : Nat) (s : State) : KeepsSpares s (pantFlush b s) := by
  have hfirst := pantUntil_keepsSpares b (bankWork (s.bank b) * 2) s
  unfold pantFlush
  dsimp only
  split
  · exact hfirst
  · exact (hfirst.trans (handComplete_keepsSpares b _)).trans (pantUntil_keepsSpares b _ _)

theorem pantArrive_keepsSpares (b : Nat) (i : NetIn) (s : State) : KeepsSpares s (pantArrive b i s) := by
  unfold pantArrive
  extract_lets owner next mine coming
  split
  · refine KeepsSpares.trans ?_ (answerNet_keepsSpares _ _ _)
    exact (((KeepsSpares.refl s).count _ _ _ (by decide)).put _ _ _ (by decide)).raise _ _ _ (by decide)
  · split
    · exact answerNet_keepsSpares _ _ s
    · split
      · exact (KeepsSpares.refl s).setBank _ _
      · exact (KeepsSpares.refl s).setBank _ _

theorem pantNow_keepsSpares (b : Nat) (x : NetIn) (s : State) : KeepsSpares s (pantNow b x s).1 :=
  ((((KeepsSpares.refl s).step rfl).trans (pantArrive_keepsSpares b x { s with answer := [] })).trans (pantFlush_keepsSpares b _)).step rfl

/-! ### Flash (R462) -/

theorem flashWord_keepsSpares (w : Nat) (s : State) : KeepsSpares s (flashWord w s).1 := by
  unfold flashWord
  split
  · exact KeepsSpares.refl s
  · exact ((KeepsSpares.refl s).count _ _ _ (by decide)).raise _ _ _ (by decide)
  · exact ((KeepsSpares.refl s).count _ _ _ (by decide)).raise _ _ _ (by decide)

theorem flashWords_keepsSpares (n w : Nat) (s : State) : KeepsSpares s (flashWords w n s).1 := by
  induction n generalizing w s with
  | zero => exact KeepsSpares.refl s
  | succ n ih =>
    unfold flashWords
    dsimp only
    split
    · exact flashWord_keepsSpares w s
    · exact (flashWord_keepsSpares w s).trans (ih (w + 1) _)

/-! ### The image, block by block -/

theorem fetchTarget_keepsSpares (i : Initiator) (a n : Nat) (tg : Target) (s : State) : KeepsSpares s (fetchTarget i a n tg s).1 := by
  unfold fetchTarget
  split
  · exact KeepsSpares.refl s
  · split
    · exact ddrNow_keepsSpares _ _ n s
    · exact pantNow_keepsSpares _ _ s
    · split
      · exact flashWords_keepsSpares _ _ s
      · exact KeepsSpares.refl s
    · exact KeepsSpares.refl s

theorem fetchBlock_keepsSpares (i : Initiator) (mode a n : Nat) (s : State) : KeepsSpares s (fetchBlock i mode a n s).1 := by
  have hdirect := directRequest_keepsSpares i (targetOf s mode a) (blockReq a n) s
  unfold fetchBlock
  dsimp only
  split
  · exact fetchTarget_keepsSpares i a n _ s
  · split
    · next s1 code heq =>
      rw [heq] at hdirect
      exact hdirect
    · next s1 heq =>
      rw [heq] at hdirect
      exact hdirect.trans (fetchTarget_keepsSpares i a n _ s1)

theorem fetchFrom_keepsSpares (i : Initiator) (mode fuel : Nat) (a n : Nat) (s : State) : KeepsSpares s (fetchFrom i mode fuel a n s).1 := by
  induction fuel generalizing a n s with
  | zero => exact KeepsSpares.refl s
  | succ fuel ih =>
    have hblock := fetchBlock_keepsSpares i mode a (min n (64 - a % 64)) s
    unfold fetchFrom
    dsimp only
    split
    · exact KeepsSpares.refl s
    · split
      · next s1 heq =>
        rw [heq] at hblock
        exact hblock
      · next s1 b heq =>
        rw [heq] at hblock
        have hrest := hblock.trans (ih (a + min n (64 - a % 64)) (n - min n (64 - a % 64)) s1)
        split
        · next s2 heq2 =>
          rw [heq2] at hrest
          exact hrest
        · next s2 rest heq2 =>
          rw [heq2] at hrest
          exact hrest

theorem fetchBytes_keepsSpares (i : Initiator) (mode a n : Nat) (s : State) : KeepsSpares s (fetchBytes i mode a n s).1 :=
  fetchFrom_keepsSpares i mode _ a n s

end Sys2Proof.Machine
end

section
/-!
PROOFS. What the loss of a pane leaves of the register file (O33).
-/

namespace Sys2Proof.Machine

/-- From s to t the register file lists the same for every page after the PCTL pages, but for the task registers and the latched interrupt
lines of engines. -/
def KeepsBesideTasks (s t : State) : Prop :=
  ∀ k, 0x300000 ≤ k → keyOff k ≠ R.ENG_TASK.off → keyOff k ≠ 0x05C → tblFind t.regs k = tblFind s.regs k

section

variable {s t u : State}

theorem KeepsBesideTasks.refl (s : State) : KeepsBesideTasks s s := fun _ _ _ _ => rfl

theorem KeepsBesideTasks.trans (h : KeepsBesideTasks s t) (g : KeepsBesideTasks t u) : KeepsBesideTasks s u :=
  fun k hk h1 h2 => (g k hk h1 h2).trans (h k hk h1 h2)

theorem KeepsBesideTasks.step (h : KeepsBesideTasks s t) (hregs : u.regs = t.regs) : KeepsBesideTasks s u :=
  fun k hk h1 h2 => by rw [hregs, h k hk h1 h2]

theorem KeepsBesideTasks.setRun (h : KeepsBesideTasks s t) (b : Nat) (x : GangRun) : KeepsBesideTasks s (t.setRun b x) := h.step rfl

theorem KeepsBesideTasks.setCtl (h : KeepsBesideTasks s t) (p : Nat) (x : PaneCtl) : KeepsBesideTasks s (t.setCtl p x) := h.step rfl

theorem KeepsBesideTasks.setPort (h : KeepsBesideTasks s t) (n : Nat) (x : RowPort) : KeepsBesideTasks s (t.setPort n x) := h.step rfl

theorem KeepsBesideTasks.report (h : KeepsBesideTasks s t) (ty n k cls : Nat) : KeepsBesideTasks s (t.report ty n k cls) := h.step rfl

/-- A field of a PCTL page. -/
theorem KeepsBesideTasks.put_pctl (h : KeepsBesideTasks s t) (f : Field) (n v : Nat) (hn : n < 256) (hty : f.ty = 0x02) (ho : f.off < 0x1000) :
    KeepsBesideTasks s (t.put f n v) := by
  refine fun k hk h1 h2 => (State.put_find t f n v k fun heq => ?_).trans (h k hk h1 h2)
  rw [heq, hty, regKey] at hk
  omega

/-- A field of a task register, or a latched interrupt line. -/
theorem KeepsBesideTasks.put_engine (h : KeepsBesideTasks s t) (f : Field) (n v : Nat) (ho : f.off = R.ENG_TASK.off ∨ f.off = 0x05C) :
    KeepsBesideTasks s (t.put f n v) := by
  refine fun k hk h1 h2 => (State.put_find t f n v k fun heq => ?_).trans (h k hk h1 h2)
  have hlt : f.off < 0x1000 := by
    rcases ho with ho | ho <;> rw [ho] <;> decide
  rw [heq, keyOff_regKey _ _ _ hlt] at h1 h2
  exact ho.elim h1 h2

theorem KeepsBesideTasks.foldl {α : Type} (F : State → α → State) (l : List α) (hF : ∀ t, ∀ a ∈ l, KeepsBesideTasks t (F t a)) (s : State) :
    KeepsBesideTasks s (l.foldl F s) :=
  List.foldlRecOn (motive := KeepsBesideTasks s) l F (KeepsBesideTasks.refl s) fun t ht a ha => ht.trans (hF t a ha)

theorem KeepsBesideTasks.get (h : KeepsBesideTasks s t) (f : Field) (n : Nat) (hty : 3 ≤ f.ty) (ho : f.off < 0x1000) (h1 : f.off ≠ R.ENG_TASK.off)
    (h2 : f.off ≠ 0x05C) : t.get f n = s.get f n := by
  have hoff : keyOff (f.key n) = f.off := keyOff_regKey _ _ _ ho
  rw [← hoff] at h1 h2
  refine State.get_of_find s t f n (h _ ?_ h1 h2)
  rw [Field.key, regKey]
  omega

end

theorem State.gangBase_lt (s : State) (p : Nat) (hp : p < 16) : s.gangBase p < 16 := by
  have hget : s.get R.PANE_MODE_GANG_BASE p < 2 ^ R.PANE_MODE_GANG_BASE.w := State.get_lt s R.PANE_MODE_GANG_BASE p
  rw [State.gangBase]
  split
  · exact hget
  · exact hp

theorem cutPane_keepsBesideTasks (id q : Nat) (s : State) (hq : q < 256) : KeepsBesideTasks s (cutPane false id s q) := by
  have hdrop : KeepsBesideTasks s (dropMacros q s) := ((KeepsBesideTasks.refl s).setCtl q _).put_pctl _ _ _ hq rfl (by decide)
  have hengines (es : List (Nat × Nat)) (t : State) : KeepsBesideTasks t (cutEngines es t) :=
    KeepsBesideTasks.foldl _ es (fun t e _ => (KeepsBesideTasks.refl t).put_engine (R.ENG_TASK_CUT.on e.1) e.2 1 (.inl rfl)) t
  have hslats (t : State) : KeepsBesideTasks t (cutSlats q t) :=
    KeepsBesideTasks.foldl _ (paneSlats q) (fun t n _ => ((KeepsBesideTasks.refl t).setPort _ _).put_engine ⟨4, 0x05C, 4, 1, 1⟩ n 1 (.inr rfl)) t
  exact (hdrop.trans (hengines (s.paneEngines q) _)).trans (hslats _)

theorem clearTask_keepsBesideTasks (q : Nat) (s : State) (hq : q < 256) : KeepsBesideTasks s (clearTask s q) :=
  ((KeepsBesideTasks.refl s).put_pctl _ _ _ hq rfl (by decide)).put_pctl _ _ _ hq rfl (by decide)

theorem announceCut_keepsBesideTasks (p id : Nat) (s : State) : KeepsBesideTasks s (announceCut false p id s) :=
  (KeepsBesideTasks.refl s).step rfl

theorem cutTask_keepsBesideTasks (p : Nat) (s : State) (hp : p < 16) : KeepsBesideTasks s (cutTask p false s) := by
  have hgang (q : Nat) (hq : q ∈ s.paneGang (s.gangBase p)) : q < 256 := (s.paneGang_lt _ q (s.gangBase_lt p hp) hq).trans (by decide)
  by_cases htask : s.taskNow (s.gangBase p) = 0
  · rw [cutTask]
    simp only [htask, if_true]
    exact KeepsBesideTasks.refl s
  · have hcut : cutTask p false s = announceCut false (s.gangBase p) (s.taskNow (s.gangBase p))
        ((s.paneGang (s.gangBase p)).foldl clearTask ((s.paneGang (s.gangBase p)).foldl (cutPane false (s.taskNow (s.gangBase p))) s)) := by
      simp only [cutTask, if_neg htask]
      rfl
    have hpanes := KeepsBesideTasks.foldl (cutPane false (s.taskNow (s.gangBase p))) _ (fun t q hq => cutPane_keepsBesideTasks _ q t (hgang q hq)) s
    have htasks := KeepsBesideTasks.foldl clearTask _ (fun t q hq => clearTask_keepsBesideTasks q t (hgang q hq))
    rw [hcut]
    exact (hpanes.trans (htasks _)).trans (announceCut_keepsBesideTasks _ _ _)

theorem skipTask_keepsBesideTasks (base id : Nat) (s : State) (hbase : base < 16) : KeepsBesideTasks s (skipTask base id s) := by
  unfold skipTask
  refine ((KeepsBesideTasks.foldl _ _ (fun t q hq => ?_) s).setRun _ _).report _ _ _ _
  have hlt : q < 256 := (s.paneGang_lt base q hbase hq).trans (by decide)
  exact (((KeepsBesideTasks.refl t).put_pctl _ _ _ hlt rfl (by decide)).put_pctl _ _ _ hlt rfl (by decide)).put_pctl ⟨0x02, 0x10, 4, 1, 1⟩ q 1 hlt rfl
    (by decide)

theorem stopGang_keepsBesideTasks (p : Nat) (s : State) (hp : p < 16) : KeepsBesideTasks s (stopGang p s) := by
  unfold stopGang
  refine ((cutTask_keepsBesideTasks p s hp).trans (KeepsBesideTasks.foldl _ _ (fun t k _ => ?_) _)).setRun _ _
  split
  · exact skipTask_keepsBesideTasks _ _ t (s.gangBase_lt p hp)
  · exact KeepsBesideTasks.refl t

/-- What the loss of a pane leaves: every page after the PCTL pages but the lost set, the task registers, the interrupt lines (R499). -/
theorem losePane_find (p k : Nat) (s : State) (hp : p < 16) (hk : 0x300000 ≤ k) (h1 : keyOff k ≠ R.ENG_TASK.off) (h2 : keyOff k ≠ 0x05C)
    (h3 : k ≠ R.PORT_LOST_PANE.key 0) : tblFind (losePane p s).regs k = tblFind s.regs k := by
  have hlost := State.put_find s R.PORT_LOST_PANE_PANES 0 (s.get R.PORT_LOST_PANE_PANES 0 ||| 2 ^ p) k h3
  unfold losePane
  dsimp only
  split
  · exact (stopGang_keepsBesideTasks p _ hp k hk h1 h2).trans hlost
  · exact hlost

/-- A lost pane is in the lost set (R495). -/
theorem losePane_lost (p : Nat) (s : State) (hp : p < 16) : bitOf ((losePane p s).get R.PORT_LOST_PANE_PANES 0) p = true := by
  have hput : bitOf ((s.put R.PORT_LOST_PANE_PANES 0 (s.get R.PORT_LOST_PANE_PANES 0 ||| 2 ^ p)).get R.PORT_LOST_PANE_PANES 0) p = true := by
    rw [State.get_put _ _ _ _ (by decide), bitOf_eq_testBit, Nat.testBit_mod_two_pow, Nat.testBit_or, Nat.testBit_two_pow_self, Bool.or_true,
      Bool.and_true]
    exact decide_eq_true hp
  unfold losePane
  dsimp only
  split
  · rw [(stopGang_keepsBesideTasks p _ hp).get R.PORT_LOST_PANE_PANES 0 (by decide) (by decide) (by decide) (by decide)]
    exact hput
  · exact hput

end Sys2Proof.Machine
end

section
/-!
PROOFS. The spare sash engines and the lost set (O33).
-/

namespace Sys2Proof.Machine

/-! ### The end of a spare's load (R272) -/

/-- What the loader of spare k reads: the image at the reload address of the sash that the spare replaces. -/
def State.spareImage (s : State) (k : Nat) : State × Option (List Byte) :=
  let p := s.get R.SASH_SPARE_STAT_PANE (16 + k)
  fetchBytes (loaderInit k) (s.get R.TRLH_DDR_MAP_MODE (28 + k)) (s.get R.SASH_RELOAD_HI_ADDR p * 2 ^ 32 + 64 * s.get R.SASH_RELOAD_LO_ADDR p)
    (64 * s.get R.SASH_RELOAD_LEN_IMEM_BLOCKS p + 64 * s.get R.SASH_RELOAD_LEN_DMEM_BLOCKS p) (s.put R.SASH_SPARE_STAT_LOADING (16 + k) 0)

/-- The memories of an engine that hold an image, instruction memory first, and 0 beyond. -/
def EngMem.loaded (b : List Byte) (im row : Nat) : EngMem :=
  { EngMem.idle with imem := memWrite 0 [] 0 (b.take im), dmem := memWrite 0 [] 0 (b.drop im), scrubRow := row }

theorem exec_spareLoadComplete (k : Nat) (s : State) (hk : k < 2) : exec (.spareLoadComplete k) s = done (spareLoaded k s) := need_of hk _

theorem spareLoaded_fails (k : Nat) (s : State) (hload : s.flag R.SASH_SPARE_STAT_LOADING (16 + k) = true) (hnone : (s.spareImage k).2 = none) :
    spareLoaded k s = losePane (s.get R.SASH_SPARE_STAT_PANE (16 + k))
      (((s.spareImage k).1.put R.SASH_SPARE_STAT_ASSIGNED (16 + k) 0).raise 3 (16 + k) 10) := by
  unfold spareLoaded
  simp only [hload, Bool.not_true, Bool.false_eq_true, if_false]
  split
  · next s1 heq =>
    rw [show s1 = (s.spareImage k).1 from (congrArg Prod.fst heq).symm]
  · next s1 b heq => exact absurd ((congrArg Prod.snd heq).symm.trans hnone) (Option.some_ne_none b)

theorem spareLoaded_stores (k : Nat) (s : State) (b : List Byte) (hload : s.flag R.SASH_SPARE_STAT_LOADING (16 + k) = true)
    (hsome : (s.spareImage k).2 = some b) :
    ∃ row, spareLoaded k s = (s.spareImage k).1.setMem (engKey 3 (16 + k))
      (EngMem.loaded b (64 * s.get R.SASH_RELOAD_LEN_IMEM_BLOCKS (s.get R.SASH_SPARE_STAT_PANE (16 + k))) row) := by
  unfold spareLoaded
  simp only [hload, Bool.not_true, Bool.false_eq_true, if_false]
  split
  · next s1 heq => exact absurd (hsome.symm.trans (congrArg Prod.snd heq)) (Option.some_ne_none b)
  · next s1 c heq =>
    have hc : c = b := Option.some.inj ((congrArg Prod.snd heq).symm.trans hsome)
    rw [show s1 = (s.spareImage k).1 from (congrArg Prod.fst heq).symm, hc]
    exact ⟨_, rfl⟩

/-- When the loader has read, LOADING is 0. -/
theorem spareImage_loading (k : Nat) (s : State) (hk : k < 2) : (s.spareImage k).1.get R.SASH_SPARE_STAT_LOADING (16 + k) = 0 := by
  have hkept : (s.spareImage k).1.get R.SASH_SPARE_STAT_LOADING (16 + k) =
      (s.put R.SASH_SPARE_STAT_LOADING (16 + k) 0).get R.SASH_SPARE_STAT_LOADING (16 + k) :=
    (fetchBytes_keepsSpares _ _ _ _ _).get R.SASH_SPARE_STAT_LOADING (16 + k) (by omega) rfl rfl
  rw [hkept, State.get_put _ _ _ _ (by decide)]
  rfl

theorem losePane_spareStat (p n : Nat) (s : State) (f : Field) (hp : p < 16) (hn : n < 256) (hty : f.ty = 3) (hoff : f.off = 0x094) :
    (losePane p s).get f n = s.get f n := by
  have hkey : f.key n = regKey 3 n 0x094 := by rw [Field.key, hty, hoff]
  have hkeyOff : keyOff (f.key n) = 0x094 := by rw [hkey, keyOff_regKey _ _ _ (by decide)]
  refine State.get_of_find s _ f n (losePane_find p _ s hp ?_ ?_ ?_ ?_)
  · rw [hkey, regKey]
    omega
  · rw [hkeyOff]
    decide
  · rw [hkeyOff]
    decide
  · rw [hkey]
    exact regKey_ne_of_ty_lt 3 0x0B n 0 0x094 _ (by decide) hn (by decide)

theorem losePane_sashEvt (p n : Nat) (s : State) (hp : p < 16) (hn : n < 256) : (losePane p s).getReg 3 n 0x10 = s.getReg 3 n 0x10 := by
  have hkeyOff : keyOff (regKey 3 n 0x10) = 0x10 := keyOff_regKey _ _ _ (by decide)
  refine State.getReg_of_find s _ 3 n 0x10 (losePane_find p _ s hp ?_ ?_ ?_ ?_)
  · rw [regKey]
    omega
  · rw [hkeyOff]
    decide
  · rw [hkeyOff]
    decide
  · exact regKey_ne_of_ty_lt 3 0x0B n 0 0x10 _ (by decide) hn (by decide)

/-- An event is raised in its page's EVT (R40). -/
theorem State.raise_bit (s : State) (ty n k : Nat) (hk : k < 32) : bitOf ((s.raise ty n k).getReg ty n 0x10).toNat k = true := by
  rw [State.getReg_raise, bitOf_eq_testBit, BitVec.toNat_or, Nat.testBit_or, BitVec.toNat_ofNat, Nat.testBit_mod_two_pow, Nat.testBit_two_pow_self]
  simp [hk]

/-- A load that fails ends the spare's assignment with LOAD_FAIL and the loss of the pane (R272). -/
theorem spare_load_fails (k : Nat) (s : State) (hk : k < 2) (hload : s.flag R.SASH_SPARE_STAT_LOADING (16 + k) = true)
    (hnone : (s.spareImage k).2 = none) :
    let t := spareLoaded k s
    t.flag R.SASH_SPARE_STAT_LOADING (16 + k) = false ∧ t.flag R.SASH_SPARE_STAT_ASSIGNED (16 + k) = false ∧
      bitOf (t.getReg 3 (16 + k) 0x10).toNat 10 = true ∧
      bitOf (t.get R.PORT_LOST_PANE_PANES 0) (s.get R.SASH_SPARE_STAT_PANE (16 + k)) = true := by
  have hp : s.get R.SASH_SPARE_STAT_PANE (16 + k) < 16 := State.get_lt s R.SASH_SPARE_STAT_PANE (16 + k)
  have hn : 16 + k < 256 := by omega
  dsimp only
  rw [spareLoaded_fails k s hload hnone]
  refine ⟨?_, ?_, ?_, losePane_lost _ _ hp⟩
  · rw [State.flag, losePane_spareStat _ _ _ R.SASH_SPARE_STAT_LOADING hp hn rfl rfl,
      State.get_raise_off _ R.SASH_SPARE_STAT_LOADING 3 _ _ rfl (by decide),
      State.get_put_disjoint _ R.SASH_SPARE_STAT_ASSIGNED R.SASH_SPARE_STAT_LOADING _ _ rfl rfl (by decide) (.inr (by decide)),
        spareImage_loading k s hk]
    rfl
  · rw [State.flag, losePane_spareStat _ _ _ R.SASH_SPARE_STAT_ASSIGNED hp hn rfl rfl,
      State.get_raise_off _ R.SASH_SPARE_STAT_ASSIGNED 3 _ _ rfl (by decide),
      State.get_put _ _ _ _ (by decide)]
    rfl
  · rw [losePane_sashEvt _ _ _ hp hn]
    exact State.raise_bit _ _ _ _ (by decide)

/-- The byte at an address of a memory no row of which has been struck. -/
theorem EngMem.byte_of_no_errs (m : EngMem) (dm : Bool) (a : Nat) (h : m.errs = []) :
    m.byte dm a = tblGet 0 (if dm then m.dmem else m.imem) a := by
  have herr : m.err dm (a / 8) = 0 := by
    rw [EngMem.err, h]
    rfl
  have hnoise : BitVec.ofNat 8 (bitsAt 0 (8 * (a % 8)) 8) = 0#8 := by simp [bitsAt]
  simp only [EngMem.byte, herr, residue_zero, hnoise, BitVec.xor_zero]

/-- A memory written from address 0 on holds the bytes, and 0 beyond. -/
theorem tblGet_memWrite_zero (l : List Byte) (x : Nat) : tblGet 0 (memWrite 0 [] 0 l) x = l.getD x 0 := by
  rw [memWrite_get]
  split
  · rfl
  · next h => rw [tblGet_nil, List.getD_eq_default _ _ (by omega)]

theorem EngMem.byte_loaded (b : List Byte) (im row : Nat) (dm : Bool) (x : Nat) :
    (EngMem.loaded b im row).byte dm x = (if dm then b.drop im else b.take im).getD x 0 := by
  rw [EngMem.byte_of_no_errs _ _ _ rfl]
  cases dm <;> exact tblGet_memWrite_zero _ x

/-- A load that succeeds fills the spare's memories (R272). -/
theorem spare_load_succeeds (k : Nat) (s : State) (b : List Byte) (hk : k < 2) (hload : s.flag R.SASH_SPARE_STAT_LOADING (16 + k) = true)
    (hsome : (s.spareImage k).2 = some b) :
    let im := 64 * s.get R.SASH_RELOAD_LEN_IMEM_BLOCKS (s.get R.SASH_SPARE_STAT_PANE (16 + k))
    let t := spareLoaded k s
    t.flag R.SASH_SPARE_STAT_LOADING (16 + k) = false ∧ (t.mem (engKey 3 (16 + k))).errs = [] ∧
      (∀ x, (t.mem (engKey 3 (16 + k))).byte false x = (b.take im).getD x 0) ∧
      ∀ x, (t.mem (engKey 3 (16 + k))).byte true x = (b.drop im).getD x 0 := by
  obtain ⟨row, hstores⟩ := spareLoaded_stores k s b hload hsome
  dsimp only
  rw [hstores, State.setMem_same]
  refine ⟨?_, rfl, EngMem.byte_loaded b _ row false, EngMem.byte_loaded b _ row true⟩
  rw [State.setMem_flag, State.flag, spareImage_loading k s hk]
  rfl

/-! ### TB writes of the array die (R38, R274, R502) -/

/-- The low 32 bits of a register word are the word. -/
theorem and_ones (n : Nat) (h : n < 2 ^ 32) : n &&& 0xFFFFFFFF = n :=
  (Nat.and_two_pow_sub_one_eq_mod n 32).trans (Nat.mod_eq_of_lt h)

/-- A write of a register whose bits are all TB: it goes to the shadow, and nothing else of an array-side page changes (R38). -/
theorem genericWrite_shadow (r : RegInfo) (w : WriteReq) (s : State) (harray : pageOnArray w.ty w.n = true) (hdirect : r.direct = 0)
    (hw1c : r.w1c = 0) (htb : r.tb ≠ 0) :
    genericWrite r w s = ((s.setReg w.ty w.n w.off (s.getReg w.ty w.n w.off)).addShadow
      ⟨regKey w.ty w.n w.off, word (w.value.toNat &&& r.tb), w.stamp⟩, rspOk) := by
  have hkept : word (applyWord r (s.getReg w.ty w.n w.off).toNat w.value.toNat) = s.getReg w.ty w.n w.off := by
    have hold := (s.getReg w.ty w.n w.off).isLt
    generalize s.getReg w.ty w.n w.off = old at hold
    have hmerge : applyWord r old.toNat w.value.toNat = old.toNat := by
      simp only [applyWord, maskMerge, hdirect, hw1c, Nat.and_zero, Nat.or_zero, Nat.xor_zero]
      rw [and_ones old.toNat hold, and_ones old.toNat hold]
    rw [hmerge, word, BitVec.ofNat_toNat, BitVec.setWidth_eq]
  simp only [genericWrite, hkept, if_neg htb, shadowWrite, harray, State.addShadow]
  rfl

/-- An authenticated write of such a register leaves one TB write for the coming edge (R38). -/
theorem shadow_written (r : RegInfo) (w : WriteReq) (s : State) (hty : w.ty < 0x11) (htrlh : w.ty ≠ 0x09) (hoff : w.off % 4 = 0)
    (hopen : s.pageOpen w.ty w.n = true) (hrule : wordWrite w s = genericWrite r w s) (harray : pageOnArray w.ty w.n = true)
    (hdirect : r.direct = 0) (hw1c : r.w1c = 0) (htb : r.tb ≠ 0) (v : Word) (hv : word (w.value.toNat &&& r.tb) = v) :
    ∃ t, regWrite w s = .next t ∧ t.answer = [⟨rspOk, []⟩] ∧
      t = { s with shadows := s.shadows ++ [⟨regKey w.ty w.n w.off, v, w.stamp⟩], regs := t.regs, answer := t.answer, pins := t.pins } ∧
      t.getReg w.ty w.n w.off = s.getReg w.ty w.n w.off ∧ RegsBut [regKey w.ty w.n w.off] s t := by
  rw [genericWrite_shadow r w s harray hdirect hw1c htb, hv] at hrule
  obtain ⟨p, hnext⟩ := next_of_done (regWrite_open w s _ hty htrlh hoff hopen hrule)
  refine ⟨_, hnext, rfl, ?_, ?_, fun k hk => ?_⟩
  · simp only [State.withPins, State.reply, State.addShadow, State.setReg]
  · rw [State.withPins_getReg, State.reply_getReg, State.addShadow_getReg, State.getReg_setReg]
  · rw [State.withPins_regs, State.reply_regs, State.addShadow_regs, (State.setReg_only s w.ty w.n w.off _).2 k hk]

/-- An authenticated write of a block's unlocked register goes by the block's value rules (R36). -/
theorem wordWrite_value (r : RegInfo) (i : Initiator) (ty n off : Nat) (v : Word) (stamp : Nat) (s : State) (hoff : 0x040 ≤ off)
    (hfind : findReg (regsOf ty) off = some r) (hunlocked : r.locked = false) :
    wordWrite ⟨i, true, ty, n, off, v, stamp⟩ s = valueWrite r ⟨i, true, ty, n, off, v, stamp⟩ s := by
  have hblock : blockWrite r ⟨i, true, ty, n, off, v, stamp⟩ s = valueWrite r ⟨i, true, ty, n, off, v, stamp⟩ s := by
    simp [blockWrite, hunlocked]
  rw [← hblock, wordWrite]
  dsimp only
  split
  · omega
  · omega
  · omega
  · omega
  · omega
  · rw [if_neg (by omega), hfind]

theorem findReg_spareCtl : findReg (regsOf 3) 0x090 = some ⟨0x090, 1, 4, 0x1, 0x0, 0x0, 0x3, 0x3, false⟩ := by decide +kernel

theorem findReg_lostCmd : findReg (regsOf 0x0B) 0x088 = some ⟨0x088, 1, 4, 0x0, 0x0, 0x0, 0x800000FF, 0x800000FF, false⟩ := by decide +kernel

/-- A write of SASH_SPARE_CTL of a spare has no rule but its access types (R271). -/
theorem wordWrite_spareCtl (k stamp : Nat) (v : Word) (s : State) :
    wordWrite ⟨latchInit, true, 3, 16 + k, 0x090, v, stamp⟩ s =
      genericWrite ⟨0x090, 1, 4, 0x1, 0x0, 0x0, 0x3, 0x3, false⟩ ⟨latchInit, true, 3, 16 + k, 0x090, v, stamp⟩ s := by
  have hbad : pageBad ⟨latchInit, true, 3, 16 + k, 0x090, v, stamp⟩ s = none := by simp [pageBad, engBad]
  have hspecial : pageSpecial ⟨latchInit, true, 3, 16 + k, 0x090, v, stamp⟩ s = none := by simp [pageSpecial, engSpecial]
  rw [wordWrite_value _ latchInit 3 (16 + k) 0x090 v stamp s (by decide) findReg_spareCtl rfl, valueWrite, hbad, hspecial]

/-- A write of PORT_LOST_CMD that names a unit has no rule but its access types (R502). -/
theorem wordWrite_lostCmd (stamp : Nat) (v : Word) (s : State) (hv : v.toNat % 256 ≤ 0x91) :
    wordWrite ⟨latchInit, true, 0x0B, 0, 0x088, v, stamp⟩ s =
      genericWrite ⟨0x088, 1, 4, 0x0, 0x0, 0x0, 0x800000FF, 0x800000FF, false⟩ ⟨latchInit, true, 0x0B, 0, 0x088, v, stamp⟩ s := by
  have hbad : pageBad ⟨latchInit, true, 0x0B, 0, 0x088, v, stamp⟩ s = none := by
    simp [pageBad, portBad, Nat.not_lt.2 hv]
  have hspecial : pageSpecial ⟨latchInit, true, 0x0B, 0, 0x088, v, stamp⟩ s = none := by simp [pageSpecial]
  rw [wordWrite_value _ latchInit 0x0B 0 0x088 v stamp s (by decide) findReg_lostCmd rfl, valueWrite, hbad, hspecial]

theorem spare_released (k stamp : Nat) (s : State) (hk : k < 2) (hopen : s.pageOpen 3 (16 + k) = true) :
    ∃ t, exec (.spareRelease k stamp) s = .next t ∧ t.answer = [⟨rspOk, []⟩] ∧
      t = { s with shadows := s.shadows ++ [⟨regKey 3 (16 + k) 0x090, 2, stamp⟩], regs := t.regs, answer := t.answer, pins := t.pins } ∧
      t.getReg 3 (16 + k) 0x090 = s.getReg 3 (16 + k) 0x090 ∧ RegsBut [regKey 3 (16 + k) 0x090] s t := by
  have hexec : exec (.spareRelease k stamp) s = regWrite ⟨latchInit, true, 3, 16 + k, 0x090, 2, stamp⟩ s := need_of hk _
  have harray : pageOnArray 3 (16 + k) = true := by
    simp only [pageOnArray, pageDomain, domainOnArray, decide_eq_true_eq]
    split <;> omega
  rw [hexec]
  exact shadow_written _ ⟨latchInit, true, 3, 16 + k, 0x090, 2, stamp⟩ s (show 3 < 0x11 by decide) (show 3 ≠ 0x09 by decide)
    (show 0x090 % 4 = 0 by decide) hopen
    (wordWrite_spareCtl k stamp 2 s) harray rfl rfl (show 0x3 ≠ 0 by decide) 2 (show word ((2 : Word).toNat &&& 0x3) = 2 by decide)

theorem lost_commanded (stamp : Nat) (v : Word) (s : State) (hopen : s.pageOpen 0x0B 0 = true) (hunit : v.toNat % 256 ≤ 0x91)
    (hv : word (v.toNat &&& 0x800000FF) = v) :
    ∃ t, regWrite ⟨latchInit, true, 0x0B, 0, 0x088, v, stamp⟩ s = .next t ∧ t.answer = [⟨rspOk, []⟩] ∧
      t = { s with shadows := s.shadows ++ [⟨regKey 0x0B 0 0x088, v, stamp⟩], regs := t.regs, answer := t.answer, pins := t.pins } ∧
      t.getReg 0x0B 0 0x088 = s.getReg 0x0B 0 0x088 ∧ RegsBut [regKey 0x0B 0 0x088] s t :=
  shadow_written _ ⟨latchInit, true, 0x0B, 0, 0x088, v, stamp⟩ s (show 0x0B < 0x11 by decide) (show 0x0B ≠ 0x09 by decide)
    (show 0x088 % 4 = 0 by decide) hopen
    (wordWrite_lostCmd stamp v s hunit) (show pageOnArray 0x0B 0 = true by decide) rfl rfl (show 0x800000FF ≠ 0 by decide) v hv

/-- A unit's code, without and with SET, lies in the TB bits of PORT_LOST_CMD (R502). -/
theorem lostCode_tb : ∀ code ≤ 0x91, word ((word code).toNat &&& 0x800000FF) = word code ∧
    word ((word (2 ^ 31 + code)).toNat &&& 0x800000FF) = word (2 ^ 31 + code) := by decide

/-- Settles O33: what the loader reads leaves SASH_SPARE_STAT, the loss of the pane leaves it and the spare's events, and the commands that only
write a shadow change nothing else. -/
theorem spareSash : Obligations.SpareSash := by
  unfold Obligations.SpareSash
  refine ⟨fun k s hk hload => ?_, fun k stamp s hk hopen => spare_released k stamp s hk hopen, fun code stamp s hcode hopen hunit => ?_⟩
  · obtain ⟨p, hnext⟩ := next_of_done (exec_spareLoadComplete k s hk)
    refine ⟨_, hnext, ?_, fun hnone => ?_, fun b hsome => ?_⟩
    · cases hread : (s.spareImage k).2 with
      | none => exact (spare_load_fails k s hk hload hread).1
      | some b => exact (spare_load_succeeds k s b hk hload hread).1
    · obtain ⟨-, hassigned, hevt, hlost⟩ := spare_load_fails k s hk hload hnone
      exact ⟨hassigned, hevt, fun _ => hlost⟩
    · obtain ⟨-, hmem⟩ := spare_load_succeeds k s b hk hload hsome
      exact hmem
  · obtain ⟨hclear, hset⟩ := lostCode_tb code hunit
    have hexec (v : Word) (c : Instr) (hc : exec c s = need (decide (code < 256)) (regWrite ⟨latchInit, true, 0x0B, 0, 0x088, v, stamp⟩ s)) :
        exec c s = regWrite ⟨latchInit, true, 0x0B, 0, 0x088, v, stamp⟩ s := hc.trans (need_of hcode _)
    have hlow : (word code).toNat % 256 ≤ 0x91 := by
      rw [BitVec.toNat_ofNat]
      omega
    have hhigh : (word (2 ^ 31 + code)).toNat % 256 ≤ 0x91 := by
      rw [BitVec.toNat_ofNat]
      omega
    rw [hexec (word code) (.lostClear code stamp) rfl, hexec (word (2 ^ 31 + code)) (.lostSet code stamp) rfl]
    exact ⟨lost_commanded stamp _ s hopen hlow hclear, lost_commanded stamp _ s hopen hhigh hset⟩

end Sys2Proof.Machine
end

section
/-!
PROOFS. A lockstep mismatch of an engine whose domain is not on (O31).
-/

namespace Sys2Proof.Machine

/-- The sash engine of PD_PANE_0 runs; then the domain has come to IDLE, in which the engine's clock stands still (R35). -/
def sashInIdle : State := reachState 14 psIdle sashStarted

theorem sashInIdle_domain : sashInIdle.domain 14 = psIdle := by decide +kernel

theorem sashInIdle_running : sashInIdle.engState 3 0 = 1 := by decide +kernel

theorem sashInIdle_not_on : sashInIdle.domainOn (pageDomain 3 0) = false := by
  rw [State.domainOn, show pageDomain 3 0 = 14 from rfl, sashInIdle_domain]
  rfl

/-- There is nothing to compare while the engine's clock stands still (R35, R262). -/
theorem lockstepMismatch_of_not_on (ty n : Nat) (s : State) (hdown : s.domainOn (pageDomain ty n) = false) : lockstepMismatch ty n s = s := by
  rw [lockstepMismatch, if_neg]
  rintro ⟨-, -, hon⟩
  exact Bool.false_ne_true (hdown.symm.trans hon)

/-- Refutes O31: its clauses on WDG_WARN, WDG_EXPIRE and LOCKSTEP_MISMATCH have a running engine warn or stop in whatever state its domain is; in
IDLE the engine's clock stands still (R35), there is nothing to compare, and the engine's STATE stays RUNNING. -/
theorem not_engineWatchdogAndChecks : ¬ Obligations.EngineWatchdogAndChecks := by
  unfold Obligations.EngineWatchdogAndChecks
  rintro ⟨-, -, hstops, -⟩
  obtain ⟨-, hlockstep⟩ := hstops ⟨3, 0⟩ sashInIdle (by decide) sashInIdle_running
  obtain ⟨t, hrun, ⟨hfaulted, -⟩⟩ := hlockstep (by decide)
  have hexec : exec (.lockstepMismatch ⟨3, 0⟩) sashInIdle = done sashInIdle := by
    have hdef : exec (.lockstepMismatch ⟨3, 0⟩) sashInIdle = done (lockstepMismatch 3 0 sashInIdle) := rfl
    rw [hdef, lockstepMismatch_of_not_on 3 0 sashInIdle sashInIdle_not_on]
  obtain ⟨p, hnext⟩ := next_of_done hexec
  have hkept : t.engState 3 0 = 1 := by
    rw [Host.Outcome.next.inj (hrun.symm.trans hnext), State.engState, State.withPins_get]
    exact sashInIdle_running
  exact absurd (hkept.symm.trans hfaulted) (by decide)

end Sys2Proof.Machine
end

section
/-!
PROOFS. Engines that start and stop (O30).
-/

namespace Sys2Proof.Machine

/-! ### Fields of one page that stand in other registers -/

theorem State.get_put_on (s : State) (f g : Field) (ty n v : Nat) (h : g.off ≠ f.off) :
    (s.put (f.on ty) n v).get (g.on ty) n = s.get (g.on ty) n := State.get_put_off s (f.on ty) (g.on ty) n v rfl h

theorem State.flag_put_on (s : State) (f g : Field) (ty n v : Nat) (h : g.off ≠ f.off) :
    (s.put (f.on ty) n v).flag (g.on ty) n = s.flag (g.on ty) n := State.flag_put_off s (f.on ty) (g.on ty) n v rfl h

theorem State.get_raise_on (s : State) (g : Field) (ty n k : Nat) (h : g.off ≠ 0x10) :
    (s.raise ty n k).get (g.on ty) n = s.get (g.on ty) n := State.get_raise_off s (g.on ty) ty n k rfl h

theorem State.getReg_put_on (s : State) (f : Field) (ty n v off : Nat) (h : off ≠ f.off) :
    (s.put (f.on ty) n v).getReg ty n off = s.getReg ty n off := State.getReg_put_off s (f.on ty) ty n v off rfl h

/-- FENCE stands beside ENABLE in CTL (R43). -/
theorem State.enable_put_fence (s : State) (ty n v : Nat) :
    (s.put (R.HDR_CTL_FENCE.on ty) n v).flag (R.HDR_CTL_ENABLE.on ty) n = s.flag (R.HDR_CTL_ENABLE.on ty) n :=
  State.flag_put_disjoint s (R.HDR_CTL_FENCE.on ty) (R.HDR_CTL_ENABLE.on ty) n v rfl rfl (show 1 + 1 ≤ 32 by decide) (.inl (show 0 + 1 ≤ 1 by decide))

@[simp] theorem State.withPins_eng (s : State) (p : Pins) (k : Nat) : (s.withPins p).eng k = s.eng k := by
  rw [State.eng, State.eng, State.withPins]

@[simp] theorem State.withPins_mem (s : State) (p : Pins) (k : Nat) : (s.withPins p).mem k = s.mem k := by
  rw [State.mem, State.mem, State.withPins]

/-! ### CTL of an engine's page (R43, R263) -/

theorem engineOk_page {e : EngineId} (hok : engineOk e = true) : e.ty = 3 ∨ e.ty = 4 ∨ e.ty = 5 := by
  simp only [engineOk, Bool.and_eq_true, Bool.or_eq_true, beq_iff_eq, or_assoc] at hok
  exact hok.1

/-- From u to t the command has been answered RSP_OK, without data, and has settled the pins. -/
def Answered (u t : State) : Prop :=
  t.answer = [⟨rspOk, []⟩] ∧ t = { u with answer := t.answer, pins := t.pins } ∧ t.regs = u.regs ∧ (∀ k, t.eng k = u.eng k) ∧ ∀ k, t.link k = u.link k

section

variable {u t : State} (h : Answered u t)
include h

theorem Answered.regs : t.regs = u.regs := by
  obtain ⟨-, -, hregs, -⟩ := h
  exact hregs

theorem Answered.answer : t.answer = [⟨rspOk, []⟩] := by
  obtain ⟨hanswer, -⟩ := h
  exact hanswer

theorem Answered.frame : t = { u with answer := t.answer, pins := t.pins } := by
  obtain ⟨-, hframe, -⟩ := h
  exact hframe

theorem Answered.eng (k : Nat) : t.eng k = u.eng k := by
  obtain ⟨-, -, -, heng, -⟩ := h
  exact heng k

theorem Answered.link (k : Nat) : t.link k = u.link k := by
  obtain ⟨-, -, -, -, hlink⟩ := h
  exact hlink k

theorem Answered.get (f : Field) (n : Nat) : t.get f n = u.get f n := State.get_of_find _ _ _ _ (by rw [h.regs])

theorem Answered.flag (f : Field) (n : Nat) : t.flag f n = u.flag f n := by rw [State.flag, State.flag, h.get]

theorem Answered.engState (ty n : Nat) : t.engState ty n = u.engState ty n := h.get _ _

theorem Answered.getReg (ty n off : Nat) : t.getReg ty n off = u.getReg ty n off := State.getReg_of_find _ _ _ _ _ (by rw [h.regs])

end

theorem answered_of_done {r : Result} {u : State} (h : r = done (u.reply rspOk [])) : ∃ t, r = .next t ∧ Answered u t := by
  obtain ⟨p, hnext⟩ := next_of_done h
  exact ⟨_, hnext, rfl, rfl, rfl, fun _ => rfl, fun _ => rfl⟩

/-- A write of an engine's CTL without SOFT_RESET starts or stops the engine, and writes FENCE. -/
theorem wordWrite_engineCtl (i : Initiator) (ty n : Nat) (v : Word) (s u : State) (hty : ty = 3 ∨ ty = 4 ∨ ty = 5) (hreset : bitOf v.toNat 2 = false)
    (hrule : (if bitOf v.toNat 0 then enableWrite ⟨i, false, ty, n, 0x008, v, 0⟩ s else disableWrite ⟨i, false, ty, n, 0x008, v, 0⟩ s) = (u, rspOk)) :
    wordWrite ⟨i, false, ty, n, 0x008, v, 0⟩ s = (u.put (R.HDR_CTL_FENCE.on ty) n (bitsAt v.toNat 1 1), rspOk) := by
  have hctl : wordWrite ⟨i, false, ty, n, 0x008, v, 0⟩ s = ctlWrite ⟨i, false, ty, n, 0x008, v, 0⟩ s := rfl
  have henable : enableCtl ⟨i, false, ty, n, 0x008, v, 0⟩ s = (u, rspOk) := by
    rw [← hrule]
    rcases hty with rfl | rfl | rfl
    · rfl
    · rfl
    · rfl
  have hstile : ty ≠ 0x08 := by omega
  simp [hctl, ctlWrite, hreset, henable, hstile]

/-- The access that it answers RSP_OK. -/
theorem engineCtl_written (i : Initiator) (e : EngineId) (v : Word) (s u : State) (hok : engineOk e = true) (hopen : s.pageOpen e.ty e.num = true)
    (hreset : bitOf v.toNat 2 = false)
    (hrule : (if bitOf v.toNat 0 then enableWrite ⟨i, false, e.ty, e.num, 0x008, v, 0⟩ s else disableWrite ⟨i, false, e.ty, e.num, 0x008, v, 0⟩ s) =
      (u, rspOk)) :
    ∃ t, regWrite ⟨i, false, e.ty, e.num, 0x008, v, 0⟩ s = .next t ∧
      Answered (u.put (R.HDR_CTL_FENCE.on e.ty) e.num (bitsAt v.toNat 1 1)) t := by
  have hty := engineOk_page hok
  exact answered_of_done (regWrite_open ⟨i, false, e.ty, e.num, 0x008, v, 0⟩ s _ (show e.ty < 0x11 by omega) (show e.ty ≠ 0x09 by omega)
    (show 0x008 % 4 = 0 by decide) hopen (wordWrite_engineCtl i e.ty e.num v s u hty hreset hrule))

/-! ### The start (R263, R268) -/

/-- The core of an engine that starts: reset, at START, with a full watchdog. -/
def Engine.started (s : State) (ty n : Nat) : Engine :=
  { Engine.idle with
    pc := pcOf ty (s.get (R.ENG_START_ADDR.on ty) n), brkHalt := (s.eng (engKey ty n)).brkHalt
    wdgFull := s.get (R.ENG_WDG_CFG_PERIOD.on ty) n * 1024 }

/-- The cores and links after a start. -/
def startCleared (ty n : Nat) (s : State) : State :=
  ((s.setEng (engKey ty n) { Engine.started s ty n with wdgFull := 0 }).setLink (engKey ty n) ArrayLink.idle).setEng (engKey ty n)
    (Engine.started s ty n)

/-- The registers after a start: a full count, RUNNING, ENABLE, STARTED. -/
def startShown (ty n full : Nat) (s : State) : State :=
  (((s.put (R.ENG_WDG_COUNT_CYCLES.on ty) n full).put (R.ENG_STATE_STATE.on ty) n esRunning).put (R.HDR_CTL_ENABLE.on ty) n 1).raise ty n 0

theorem startEngine_eq (ty n : Nat) (s : State) :
    startEngine ty n s = startShown ty n (s.get (R.ENG_WDG_CFG_PERIOD.on ty) n * 1024) (startCleared ty n s) := by
  rw [startEngine, wdgLoad, startCleared, startShown, State.setLink_eng, State.setEng_same]
  rfl

section

variable (ty n full : Nat) (s : State)

theorem startShown_engState : (startShown ty n full s).engState ty n = 1 := by
  rw [State.engState, startShown, State.get_raise_on _ R.ENG_STATE_STATE _ _ _ (by decide),
    State.get_put_on _ R.HDR_CTL_ENABLE R.ENG_STATE_STATE _ _ _ (by decide), State.get_put _ _ _ _ (show 0 + 2 ≤ 32 by decide)]
  rfl

theorem startShown_enable : (startShown ty n full s).flag (R.HDR_CTL_ENABLE.on ty) n = true := by
  rw [State.flag, startShown, State.get_raise_on _ R.HDR_CTL_ENABLE _ _ _ (by decide), State.get_put _ _ _ _ (show 0 + 1 ≤ 32 by decide)]
  rfl

theorem startShown_count : (startShown ty n full s).get (R.ENG_WDG_COUNT_CYCLES.on ty) n = full % 2 ^ R.ENG_WDG_COUNT_CYCLES.w := by
  rw [startShown, State.get_raise_on _ R.ENG_WDG_COUNT_CYCLES _ _ _ (by decide),
    State.get_put_on _ R.HDR_CTL_ENABLE R.ENG_WDG_COUNT_CYCLES _ _ _ (by decide),
    State.get_put_on _ R.ENG_STATE_STATE R.ENG_WDG_COUNT_CYCLES _ _ _ (by decide), State.get_put _ _ _ _ (show 0 + 30 ≤ 32 by decide)]

theorem startShown_evt : (startShown ty n full s).getReg ty n 0x10 = s.getReg ty n 0x10 ||| word 1 := by
  rw [startShown, State.getReg_raise, State.getReg_put_on _ R.HDR_CTL_ENABLE _ _ _ _ (by decide),
    State.getReg_put_on _ R.ENG_STATE_STATE _ _ _ _ (by decide), State.getReg_put_on _ R.ENG_WDG_COUNT_CYCLES _ _ _ _ (by decide)]
  rfl

theorem startShown_only : OnlyRegs [(R.HDR_CTL_ENABLE.on ty).key n, (R.ENG_STATE_STATE.on ty).key n,
    (R.ENG_WDG_COUNT_CYCLES.on ty).key n, evtKey ty n] s
    (startShown ty n full s) := by
  refine ((((State.put_only s _ n full).trans (State.put_only _ _ n esRunning)).trans (State.put_only _ _ n 1)).trans
    (State.raise_only _ ty n 0)).mono fun k hk => ?_
  simp only [List.mem_append, List.mem_cons, List.not_mem_nil, or_false] at hk ⊢
  rcases hk with ((hcount | hstate) | henable) | hevt
  · exact .inr (.inr (.inl hcount))
  · exact .inr (.inl hstate)
  · exact .inl henable
  · exact .inr (.inr (.inr hevt))

theorem startShown_eng (k : Nat) : (startShown ty n full s).eng k = s.eng k := by
  rw [startShown, State.raise_eng, State.put_eng, State.put_eng, State.put_eng]

theorem startShown_mem (k : Nat) : (startShown ty n full s).mem k = s.mem k := by
  rw [startShown, State.raise_mem, State.put_mem, State.put_mem, State.put_mem]

theorem startShown_link (k : Nat) : (startShown ty n full s).link k = s.link k := by
  rw [startShown, State.raise_link, State.put_link, State.put_link, State.put_link]

theorem startCleared_regs : (startCleared ty n s).regs = s.regs := by rw [startCleared, State.setEng_regs, State.setLink_regs, State.setEng_regs]

theorem startCleared_mem (k : Nat) : (startCleared ty n s).mem k = s.mem k := by
  rw [startCleared, State.setEng_mem, State.setLink_mem, State.setEng_mem]

theorem startCleared_eng : (startCleared ty n s).eng (engKey ty n) = Engine.started s ty n := State.setEng_same _ _ _

theorem startCleared_link : (startCleared ty n s).link (engKey ty n) = ArrayLink.idle := by
  rw [startCleared, State.setEng_link, State.setLink_same]

theorem startCleared_other (k : Nat) (hk : k ≠ engKey ty n) : (startCleared ty n s).eng k = s.eng k ∧ (startCleared ty n s).link k = s.link k := by
  rw [startCleared, State.setEng_other _ _ _ _ hk, State.setLink_eng, State.setEng_other _ _ _ _ hk, State.setEng_link,
    State.setLink_other _ _ _ _ hk, State.setEng_link]
  exact ⟨rfl, rfl⟩

end

/-! ### The stop (R263, R268) -/

theorem wdgLeft_le (s : State) (ty n v : Nat) : wdgLeft s ty n v ≤ s.get (R.ENG_WDG_COUNT_CYCLES.on ty) n := by
  unfold wdgLeft
  extract_lets known low
  split
  · exact le_rfl
  · next hlow =>
    have := Nat.mod_lt v (show 0 < known - low by omega)
    omega

/-- A count that stops keeps the cycles that remain; nothing else is touched but the count of free values. -/
theorem wdgStop_keeps (ty n : Nat) (s : State) :
    wdgStop ty n s = { s with regs := (wdgStop ty n s).regs, freeCount := (wdgStop ty n s).freeCount } ∧
      RegsBut [(R.ENG_WDG_COUNT_CYCLES.on ty).key n] s (wdgStop ty n s) ∧
      (wdgStop ty n s).get (R.ENG_WDG_COUNT_CYCLES.on ty) n ≤ s.get (R.ENG_WDG_COUNT_CYCLES.on ty) n ∧
      (wdgRuns s ty n = false → (wdgStop ty n s).get (R.ENG_WDG_COUNT_CYCLES.on ty) n = s.get (R.ENG_WDG_COUNT_CYCLES.on ty) n) := by
  unfold wdgStop
  split
  · next hruns =>
    refine ⟨rfl, (State.put_only s.draw.2 (R.ENG_WDG_COUNT_CYCLES.on ty) n _).2, ?_, fun hidle => absurd (hruns.symm.trans hidle) (by decide)⟩
    rw [State.get_put _ _ _ _ (show 0 + 30 ≤ 32 by decide)]
    exact (Nat.mod_le _ _).trans (wdgLeft_le s ty n _)
  · exact ⟨rfl, fun _ _ => rfl, le_rfl, fun _ => rfl⟩

theorem wdgStop_eng (ty n k : Nat) (s : State) : (wdgStop ty n s).eng k = s.eng k := by
  rw [State.eng, State.eng, (wdgStop_keeps ty n s).1]

theorem wdgStop_enable (ty n : Nat) (s : State) : (wdgStop ty n s).flag (R.HDR_CTL_ENABLE.on ty) n = s.flag (R.HDR_CTL_ENABLE.on ty) n := by
  obtain ⟨-, hregs, -⟩ := wdgStop_keeps ty n s
  have hkey : (R.HDR_CTL_ENABLE.on ty).key n ≠ (R.ENG_WDG_COUNT_CYCLES.on ty).key n := regKey_ne_of_off ty n _ _ (show 0x008 ≠ 0x054 by decide)
  rw [State.flag, State.flag, State.get_of_find s _ _ _ (hregs _ fun hm => hkey (List.mem_singleton.1 hm))]

/-- The core of an engine that has stopped. -/
def Engine.stopped (x : Engine) : Engine := { x with stopReq := false, haltReq := 0, stepReq := 0, rep := none, bundle := [], held := false }

theorem Engine.stopped_atBoundary (x : Engine) (hbundle : x.bundle = []) (hheld : x.held = false) :
    x.stopped = { x with stopReq := false, haltReq := 0, stepReq := 0, rep := none } := by
  rw [Engine.stopped, ← hbundle, ← hheld]

theorem stopEngine_eq (ty n : Nat) (s : State) :
    stopEngine ty n s = (wdgStop ty n (s.setEng (engKey ty n) (s.eng (engKey ty n)).stopped)).put (R.ENG_STATE_STATE.on ty) n esStopped := rfl

/-- A running engine at a bundle boundary stops at once. -/
theorem disableWrite_stops (w : WriteReq) (s : State) (hfar : (s.eng (engKey w.ty w.n)).far = none) (hbundle : (s.eng (engKey w.ty w.n)).bundle = [])
    (hheld : (s.eng (engKey w.ty w.n)).held = false) (hrun : s.engState w.ty w.n = 1) :
    disableWrite w s = (stopEngine w.ty w.n (s.put (R.HDR_CTL_ENABLE.on w.ty) w.n 0), rspOk) := by
  have hstate : (s.put (R.HDR_CTL_ENABLE.on w.ty) w.n 0).engState w.ty w.n = esRunning :=
    (State.get_put_on s R.HDR_CTL_ENABLE R.ENG_STATE_STATE w.ty w.n 0 (by decide)).trans hrun
  simp [disableWrite, hstate, hfar, hbundle, hheld]

/-! ### The value that the commands write -/

theorem enableValue (b : Bool) : bitOf (word (1 + 2 * bit b)).toNat 2 = false ∧ bitOf (word (1 + 2 * bit b)).toNat 0 = true := by
  cases b <;> decide

theorem disableValue (b : Bool) : bitOf (word (2 * bit b)).toNat 2 = false ∧ bitOf (word (2 * bit b)).toNat 0 = false := by
  cases b <;> decide

/-- ENGINE_ENABLE of a stopped engine. -/
theorem engine_enabled (i : Initiator) (e : EngineId) (s : State) (hok : engineOk e = true) (hopen : s.pageOpen e.ty e.num = true)
    (hinit : (s.mem (engKey e.ty e.num)).initRunning = false) (hstate : s.engState e.ty e.num ≠ 3)
    (hoff : s.flag (R.HDR_CTL_ENABLE.on e.ty) e.num = false) :
    ∃ v t, exec (.engineEnable i e) s = .next t ∧ Answered ((startEngine e.ty e.num s).put (R.HDR_CTL_FENCE.on e.ty) e.num v) t := by
  obtain ⟨hreset, hon⟩ := enableValue (s.flag (R.HDR_CTL_FENCE.on e.ty) e.num)
  have hrule (w : WriteReq) (hty : w.ty = e.ty) (hn : w.n = e.num) : enableWrite w s = (startEngine e.ty e.num s, rspOk) := by
    simp [enableWrite, hty, hn, hinit, hstate, hoff]
  obtain ⟨t, hnext, hanswered⟩ := engineCtl_written i e (word (1 + 2 * bit (s.flag (R.HDR_CTL_FENCE.on e.ty) e.num))) s _ hok hopen hreset
    ((if_pos hon).trans (hrule _ rfl rfl))
  have hexec : exec (.engineEnable i e) s =
    need (engineOk e) (regWrite ⟨i, false, e.ty, e.num, 0x008, word (1 + 2 * bit (s.flag (R.HDR_CTL_FENCE.on e.ty) e.num)), 0⟩ s) := rfl
  rw [hok, need_true, hnext] at hexec
  exact ⟨_, t, hexec, hanswered⟩

/-- ENGINE_DISABLE of a running engine at a bundle boundary. -/
theorem engine_disabled (i : Initiator) (e : EngineId) (s : State) (hok : engineOk e = true) (hopen : s.pageOpen e.ty e.num = true)
    (hfar : (s.core e).far = none) (hbundle : (s.core e).bundle = []) (hheld : (s.core e).held = false) (hrun : s.engState e.ty e.num = 1) :
    ∃ v t, exec (.engineDisable i e) s = .next t ∧
      Answered ((stopEngine e.ty e.num (s.put (R.HDR_CTL_ENABLE.on e.ty) e.num 0)).put (R.HDR_CTL_FENCE.on e.ty) e.num v) t := by
  obtain ⟨hreset, hon⟩ := disableValue (s.flag (R.HDR_CTL_FENCE.on e.ty) e.num)
  obtain ⟨t, hnext, hanswered⟩ := engineCtl_written i e (word (2 * bit (s.flag (R.HDR_CTL_FENCE.on e.ty) e.num))) s _ hok hopen hreset
    ((if_neg (ne_true_of_eq_false hon)).trans (disableWrite_stops _ s hfar hbundle hheld hrun))
  have hexec : exec (.engineDisable i e) s =
    need (engineOk e) (regWrite ⟨i, false, e.ty, e.num, 0x008, word (2 * bit (s.flag (R.HDR_CTL_FENCE.on e.ty) e.num)), 0⟩ s) := rfl
  rw [hok, need_true, hnext] at hexec
  exact ⟨_, t, hexec, hanswered⟩

/-! ### What the commands leave -/

/-- What a start under a write of FENCE leaves. -/
theorem startEngine_leaves (ty n v : Nat) (s : State) :
    let t := (startEngine ty n s).put (R.HDR_CTL_FENCE.on ty) n v
    t.engState ty n = 1 ∧ t.flag (R.HDR_CTL_ENABLE.on ty) n = true ∧ Raises ty n 1 s t ∧
      t.get (R.ENG_WDG_COUNT_CYCLES.on ty) n = s.get (R.ENG_WDG_CFG_PERIOD.on ty) n * 1024 % 2 ^ R.ENG_WDG_COUNT_CYCLES.w ∧
      RegsBut [(R.HDR_CTL_ENABLE.on ty).key n, (R.ENG_STATE_STATE.on ty).key n, (R.ENG_WDG_COUNT_CYCLES.on ty).key n, evtKey ty n] s t := by
  dsimp only
  rw [startEngine_eq]
  refine ⟨?_, ?_, ?_, ?_, fun k hk => ?_⟩
  · rw [State.engState, State.get_put_on _ R.HDR_CTL_FENCE R.ENG_STATE_STATE _ _ _ (by decide)]
    exact startShown_engState ty n _ _
  · rw [State.enable_put_fence]
    exact startShown_enable ty n _ _
  · rw [Raises, State.getReg_put_on _ R.HDR_CTL_FENCE _ _ _ _ (by decide)]
    rw [startShown_evt, State.getReg_of_find s _ _ _ _ (by rw [startCleared_regs])]
  · rw [State.get_put_on _ R.HDR_CTL_FENCE R.ENG_WDG_COUNT_CYCLES _ _ _ (by decide)]
    exact startShown_count ty n _ _
  · rw [State.put_find _ (R.HDR_CTL_FENCE.on ty) n v k (List.ne_of_not_mem_cons hk)]
    rw [(startShown_only ty n _ _).2 k hk, startCleared_regs]

theorem startEngine_eng (ty n : Nat) (s : State) : (startEngine ty n s).eng (engKey ty n) = Engine.started s ty n := by
  rw [startEngine_eq, startShown_eng, startCleared_eng]

theorem startEngine_evt (ty n : Nat) (s : State) : (startEngine ty n s).getReg ty n 0x10 = s.getReg ty n 0x10 ||| word 1 := by
  rw [startEngine_eq, startShown_evt, State.getReg_of_find s _ _ _ _ (by rw [startCleared_regs])]

theorem startEngine_mem (ty n k : Nat) (s : State) : (startEngine ty n s).mem k = s.mem k := by
  rw [startEngine_eq, startShown_mem, startCleared_mem]

theorem startEngine_link (ty n : Nat) (s : State) : (startEngine ty n s).link (engKey ty n) = ArrayLink.idle := by
  rw [startEngine_eq, startShown_link, startCleared_link]

theorem startEngine_other (ty n : Nat) (s : State) (k : Nat) (hk : k ≠ engKey ty n) :
    (startEngine ty n s).eng k = s.eng k ∧ (startEngine ty n s).link k = s.link k := by
  rw [startEngine_eq, startShown_eng, startShown_link]
  exact startCleared_other ty n s k hk

theorem startEngine_frame (ty n : Nat) (s : State) :
    startEngine ty n s =
      { s with engines := (startEngine ty n s).engines, arrayLink := (startEngine ty n s).arrayLink, regs := (startEngine ty n s).regs } := by
  simp only [startEngine, wdgLoad, State.setEngState, State.raise, State.put, State.setReg, State.setEng, State.setLink]

/-- What a stop after a write of ENABLE, and under a write of FENCE, leaves of the registers. -/
theorem stopEngine_leaves (e : EngineId) (v : Nat) (s : State) :
    let t := (stopEngine e.ty e.num (s.put (R.HDR_CTL_ENABLE.on e.ty) e.num 0)).put (R.HDR_CTL_FENCE.on e.ty) e.num v
    t.engState e.ty e.num = 0 ∧ t.flag (R.HDR_CTL_ENABLE.on e.ty) e.num = false ∧ WdgKept e s t ∧
      RegsBut [(R.HDR_CTL_ENABLE.on e.ty).key e.num, (R.ENG_STATE_STATE.on e.ty).key e.num, wdgKey e] s t := by
  have hruns (x : Engine) : wdgRuns ((s.put (R.HDR_CTL_ENABLE.on e.ty) e.num 0).setEng (engKey e.ty e.num) x) e.ty e.num = wdgRuns s e.ty e.num := by
    rw [wdgRuns, wdgRuns, State.engState, State.engState, State.setEng_flag, State.setEng_get,
      State.flag_put_on s R.HDR_CTL_ENABLE R.ENG_WDG_CFG_EN e.ty e.num 0 (by decide),
      State.get_put_on s R.HDR_CTL_ENABLE R.ENG_STATE_STATE e.ty e.num 0 (by decide)]
  have hcount (x : Engine) : ((s.put (R.HDR_CTL_ENABLE.on e.ty) e.num 0).setEng (engKey e.ty e.num) x).get (R.ENG_WDG_COUNT_CYCLES.on e.ty) e.num =
      s.get (R.ENG_WDG_COUNT_CYCLES.on e.ty) e.num := by
    rw [State.setEng_get, State.get_put_on s R.HDR_CTL_ENABLE R.ENG_WDG_COUNT_CYCLES e.ty e.num 0 (by decide)]
  have hon (x : Engine) : ((s.put (R.HDR_CTL_ENABLE.on e.ty) e.num 0).setEng (engKey e.ty e.num) x).flag
    (R.HDR_CTL_ENABLE.on e.ty) e.num = false := by
    rw [State.setEng_flag, State.flag, State.get_put _ _ _ _ (show 0 + 1 ≤ 32 by decide)]
    rfl
  dsimp only
  rw [stopEngine_eq, State.put_eng]
  generalize (s.eng (engKey e.ty e.num)).stopped = x
  obtain ⟨-, hregs, hle, hkept⟩ := wdgStop_keeps e.ty e.num ((s.put (R.HDR_CTL_ENABLE.on e.ty) e.num 0).setEng (engKey e.ty e.num) x)
  rw [hcount] at hle hkept
  rw [hruns] at hkept
  have hshown (u : State) : ((u.put (R.ENG_STATE_STATE.on e.ty) e.num esStopped).put (R.HDR_CTL_FENCE.on e.ty) e.num v).get
      (R.ENG_WDG_COUNT_CYCLES.on e.ty) e.num = u.get (R.ENG_WDG_COUNT_CYCLES.on e.ty) e.num := by
    rw [State.get_put_on _ R.HDR_CTL_FENCE R.ENG_WDG_COUNT_CYCLES _ _ _ (by decide),
      State.get_put_on _ R.ENG_STATE_STATE R.ENG_WDG_COUNT_CYCLES _ _ _ (by decide)]
  refine ⟨?_, ?_, ⟨(hshown _).trans_le hle, fun hidle => (hshown _).trans (hkept hidle)⟩, fun k hk => ?_⟩
  · rw [State.engState, State.get_put_on _ R.HDR_CTL_FENCE R.ENG_STATE_STATE _ _ _ (by decide), State.get_put _ _ _ _ (show 0 + 2 ≤ 32 by decide)]
    rfl
  · rw [State.enable_put_fence, State.flag_put_on _ R.ENG_STATE_STATE R.HDR_CTL_ENABLE _ _ _ (by decide), wdgStop_enable, hon]
  · simp only [List.mem_cons, List.not_mem_nil, or_false, not_or] at hk
    obtain ⟨hctl, hstate, hwdg⟩ := hk
    rw [State.put_find _ (R.HDR_CTL_FENCE.on e.ty) e.num v k hctl, State.put_find _ _ _ _ _ hstate,
      hregs k (fun hm => hwdg (List.mem_singleton.1 hm)),
      State.setEng_regs, State.put_find s _ _ _ _ hctl]

theorem stopEngine_eng (ty n : Nat) (s : State) : (stopEngine ty n s).eng (engKey ty n) = (s.eng (engKey ty n)).stopped := by
  rw [stopEngine_eq, State.put_eng, wdgStop_eng, State.setEng_same]

theorem stopEngine_other (ty n : Nat) (s : State) (k : Nat) (hk : k ≠ engKey ty n) : (stopEngine ty n s).eng k = s.eng k := by
  rw [stopEngine_eq, State.put_eng, wdgStop_eng, State.setEng_other _ _ _ _ hk]

theorem stopEngine_frame (ty n : Nat) (s : State) :
    stopEngine ty n s =
      { s with engines := (stopEngine ty n s).engines, regs := (stopEngine ty n s).regs, freeCount := (stopEngine ty n s).freeCount } := by
  have hstop := (wdgStop_keeps ty n (s.setEng (engKey ty n) (s.eng (engKey ty n)).stopped)).1
  rw [stopEngine_eq, hstop]
  simp only [State.put, State.setReg, State.setEng]

/-! ### The end of memory initialisation (R260) -/

/-- The memories of an engine are 0, and the event is raised. -/
def memsCleared (ty n : Nat) (s : State) : State := (s.setMem (engKey ty n) EngMem.idle).raise ty n 8

theorem engineInitDone_of_running (ty n : Nat) (s : State) (hrun : (s.mem (engKey ty n)).initRunning = true) :
    engineInitDone ty n s =
      if ty = 5 ∧ n = 0 ∧ (memsCleared ty n s).flag (R.HDR_CTL_ENABLE.on 5) 0 then bootStart (memsCleared ty n s) else memsCleared ty n s :=
        if_pos hrun

theorem exec_engineMemInitDone (e : EngineId) (s : State) (hok : engineOk e = true) :
    exec (.engineMemInitDone e) s = done (engineInitDone e.ty e.num s) := by
  have hexec : exec (.engineMemInitDone e) s = need (engineOk e) (done (engineInitDone e.ty e.num s)) := rfl
  rw [hexec, hok, need_true]

theorem memsCleared_mem (ty n : Nat) (s : State) : (memsCleared ty n s).mem (engKey ty n) = EngMem.idle := by
  rw [memsCleared, State.raise_mem, State.setMem_same]

theorem memsCleared_evt (ty n : Nat) (s : State) : (memsCleared ty n s).getReg ty n 0x10 = s.getReg ty n 0x10 ||| word 0x100 := by
  rw [memsCleared, State.getReg_raise, State.setMem_getReg, show 2 ^ 8 = 0x100 by decide]

theorem memsCleared_enable (ty n : Nat) (s : State) :
    (memsCleared ty n s).flag (R.HDR_CTL_ENABLE.on ty) n = s.flag (R.HDR_CTL_ENABLE.on ty) n := by
  rw [memsCleared, State.flag, State.get_raise_on _ R.HDR_CTL_ENABLE _ _ _ (by decide), State.setMem_get, State.flag]

theorem memsCleared_start (ty n : Nat) (s : State) :
    (memsCleared ty n s).get (R.ENG_START_ADDR.on ty) n = s.get (R.ENG_START_ADDR.on ty) n := by
  rw [memsCleared, State.get_raise_on _ R.ENG_START_ADDR _ _ _ (by decide), State.setMem_get]

theorem memsCleared_only (ty n : Nat) (s : State) :
    OnlyRegs [evtKey ty n] (s.setMem (engKey ty n) EngMem.idle) (memsCleared ty n s) := State.raise_only _ _ _ _

theorem memsCleared_other (ty n k : Nat) (s : State) (hk : k ≠ engKey ty n) : (memsCleared ty n s).mem k = s.mem k := by
  rw [memsCleared, State.raise_mem, State.setMem_other _ _ _ _ hk]

/-! ### The boot flow of GENG_0 (R263, R483) -/

theorem bootStart_regs (s : State) : (bootStart s).regs = ((startEngine 5 0 s).setReg 0x16 0 0x060 0).regs := by rw [bootStart]

/-- Of the engine's page it leaves what the start leaves. -/
theorem bootStart_find (s : State) (off : Nat) (ho : off < 0x1000) :
    tblFind (bootStart s).regs (regKey 5 0 off) = tblFind (startEngine 5 0 s).regs (regKey 5 0 off) := by
  rw [bootStart_regs]
  exact State.setReg_find _ _ _ _ _ _ (regKey_ne_of_ty_lt 5 0x16 0 0 off _ (by decide) (by decide) ho)

theorem bootStart_engState (s : State) : (bootStart s).engState 5 0 = 1 := by
  rw [State.engState, State.get_of_find (startEngine 5 0 s) (bootStart s) (R.ENG_STATE_STATE.on 5) 0 (bootStart_find s 0x040 (by decide)),
    startEngine_eq]
  exact startShown_engState 5 0 _ _

theorem bootStart_evt (s : State) : (bootStart s).getReg 5 0 0x10 = s.getReg 5 0 0x10 ||| word 1 := by
  rw [State.getReg_of_find _ _ _ _ _ (bootStart_find s 0x10 (by decide)), startEngine_evt]

theorem bootStart_eng (s : State) : (bootStart s).eng (engKey 5 0) = Engine.started s 5 0 := by
  rw [← startEngine_eng 5 0 s, bootStart, State.eng, State.setReg_engines, State.eng]

theorem bootStart_mem (s : State) (k : Nat) : (bootStart s).mem k = s.mem k := by
  rw [← startEngine_mem 5 0 k s, bootStart, State.mem, State.setReg_engMem, State.mem]

/-! ### The commands -/

/-- A field replaced after other changes of the device. -/
theorem put_frame (s : State) (f : Field) (n v : Nat) : s.put f n v = { s with regs := (s.put f n v).regs } := rfl

theorem stopped_frame (e : EngineId) (v : Nat) (s t : State)
    (ht : t = (stopEngine e.ty e.num (s.put (R.HDR_CTL_ENABLE.on e.ty) e.num 0)).put (R.HDR_CTL_FENCE.on e.ty) e.num v) :
    t = { s with engines := t.engines, regs := t.regs, freeCount := t.freeCount } := by
  have hput := put_frame s (R.HDR_CTL_ENABLE.on e.ty) e.num 0
  generalize s.put (R.HDR_CTL_ENABLE.on e.ty) e.num 0 = s1 at ht hput
  have hstop := stopEngine_frame e.ty e.num s1
  generalize stopEngine e.ty e.num s1 = s2 at ht hstop
  rw [ht, put_frame, hstop, hput]

theorem started_frame (e : EngineId) (v : Nat) (s t : State) (ht : t = (startEngine e.ty e.num s).put (R.HDR_CTL_FENCE.on e.ty) e.num v) :
    t = { s with engines := t.engines, arrayLink := t.arrayLink, regs := t.regs } := by
  have hstart := startEngine_frame e.ty e.num s
  generalize startEngine e.ty e.num s = s1 at ht hstart
  rw [ht, put_frame, hstart]

theorem engineEnable_starts (i : Initiator) (e : EngineId) (s : State) (hok : engineOk e = true) (hopen : s.pageOpen e.ty e.num = true)
    (hinit : (s.mem (engKey e.ty e.num)).initRunning = false) (hstopped : s.engState e.ty e.num ≠ 3)
    (hoff : s.flag (R.HDR_CTL_ENABLE.on e.ty) e.num = false) :
    ∃ t, exec (.engineEnable i e) s = .next t ∧ t.answer = [⟨rspOk, []⟩] ∧ t.engState e.ty e.num = 1 ∧
      t.flag (R.HDR_CTL_ENABLE.on e.ty) e.num = true ∧ Raises e.ty e.num 1 s t ∧
      t.get (R.ENG_WDG_COUNT_CYCLES.on e.ty) e.num = s.get (R.ENG_WDG_CFG_PERIOD.on e.ty) e.num * 1024 % 2 ^ (R.ENG_WDG_COUNT_CYCLES).w ∧
      t.core e = Engine.started s e.ty e.num ∧ t.link (engKey e.ty e.num) = ArrayLink.idle ∧
      t = { s with engines := t.engines, arrayLink := t.arrayLink, regs := t.regs, answer := t.answer, pins := t.pins } ∧
      (∀ k, k ≠ engKey e.ty e.num → t.eng k = s.eng k ∧ t.link k = s.link k) ∧
      RegsBut [(R.HDR_CTL_ENABLE.on e.ty).key e.num, (R.ENG_STATE_STATE.on e.ty).key e.num, (R.ENG_WDG_COUNT_CYCLES.on e.ty).key e.num,
        evtKey e.ty e.num] s t := by
  obtain ⟨v, t, hnext, hanswered⟩ := engine_enabled i e s hok hopen hinit hstopped hoff
  obtain ⟨hstate, henable, hevt, hcount, hbut⟩ := startEngine_leaves e.ty e.num v s
  have hstarted := started_frame e v s _ rfl
  have heng (k : Nat) : t.eng k = (startEngine e.ty e.num s).eng k := (hanswered.eng k).trans (State.put_eng _ _ _ _ _)
  have hlink (k : Nat) : t.link k = (startEngine e.ty e.num s).link k := (hanswered.link k).trans (State.put_link _ _ _ _ _)
  generalize (startEngine e.ty e.num s).put (R.HDR_CTL_FENCE.on e.ty) e.num v = u at hanswered hstate henable hevt hcount hbut hstarted
  refine ⟨t, hnext, hanswered.answer, (hanswered.engState _ _).trans hstate, (hanswered.flag _ _).trans henable, (hanswered.getReg _ _ _).trans hevt,
    (hanswered.get _ _).trans hcount, (heng _).trans (startEngine_eng e.ty e.num s), (hlink _).trans (startEngine_link e.ty e.num s), ?_,
    fun k hk => ?_, fun k hk => ?_⟩
  · rw [hanswered.frame, hstarted]
  · rw [heng, hlink]
    exact startEngine_other e.ty e.num s k hk
  · rw [hanswered.regs, hbut k hk]

theorem engineDisable_stops (i : Initiator) (e : EngineId) (s : State) (hok : engineOk e = true) (hopen : s.pageOpen e.ty e.num = true)
    (hfar : (s.core e).far = none) (hbundle : (s.core e).bundle = []) (hheld : (s.core e).held = false) (hrun : s.engState e.ty e.num = 1) :
    ∃ t, exec (.engineDisable i e) s = .next t ∧ t.answer = [⟨rspOk, []⟩] ∧ t.engState e.ty e.num = 0 ∧
      t.flag (R.HDR_CTL_ENABLE.on e.ty) e.num = false ∧
      t.core e = { s.core e with stopReq := false, haltReq := 0, stepReq := 0, rep := none } ∧
      t = { s with engines := t.engines, regs := t.regs, answer := t.answer, freeCount := t.freeCount, pins := t.pins } ∧
      (∀ k, k ≠ engKey e.ty e.num → t.eng k = s.eng k) ∧ WdgKept e s t ∧
      RegsBut [(R.HDR_CTL_ENABLE.on e.ty).key e.num, (R.ENG_STATE_STATE.on e.ty).key e.num, wdgKey e] s t := by
  obtain ⟨v, t, hnext, hanswered⟩ := engine_disabled i e s hok hopen hfar hbundle hheld hrun
  obtain ⟨hstate, henable, ⟨hle, hidle⟩, hbut⟩ := stopEngine_leaves e v s
  have hstopped := stopped_frame e v s _ rfl
  have heng (k : Nat) : t.eng k = (stopEngine e.ty e.num (s.put (R.HDR_CTL_ENABLE.on e.ty) e.num 0)).eng k :=
    (hanswered.eng k).trans (State.put_eng _ _ _ _ _)
  generalize (stopEngine e.ty e.num (s.put (R.HDR_CTL_ENABLE.on e.ty) e.num 0)).put (R.HDR_CTL_FENCE.on e.ty) e.num v = u
    at hanswered hstate henable hle hidle hbut hstopped
  have hcount := hanswered.get (R.ENG_WDG_COUNT_CYCLES.on e.ty) e.num
  refine ⟨t, hnext, hanswered.answer, (hanswered.engState _ _).trans hstate, (hanswered.flag _ _).trans henable, ?_, ?_, fun k hk => ?_,
    ⟨hcount.trans_le hle, fun h => hcount.trans (hidle h)⟩, fun k hk => ?_⟩
  · rw [State.core, heng, stopEngine_eng, State.put_eng]
    exact Engine.stopped_atBoundary _ hbundle hheld
  · rw [hanswered.frame, hstopped]
  · rw [heng, stopEngine_other _ _ _ _ hk, State.put_eng]
  · rw [hanswered.regs, hbut k hk]

/-- The boot flow of GENG_0 begins when its memories are clear. -/
theorem engineMemInitDone_boots (s : State) (hrun : (s.mem (engKey 5 0)).initRunning = true) (henable : s.flag (R.HDR_CTL_ENABLE.on 5) 0 = true) :
    ∃ p, exec (.engineMemInitDone ⟨5, 0⟩) s = .next ((bootStart (memsCleared 5 0 s)).withPins p) := by
  have hexec := exec_engineMemInitDone ⟨5, 0⟩ s (by decide)
  have hon : (memsCleared 5 0 s).flag (R.HDR_CTL_ENABLE.on 5) 0 = true := (memsCleared_enable 5 0 s).trans henable
  rw [engineInitDone_of_running 5 0 s hrun, if_pos ⟨rfl, rfl, hon⟩] at hexec
  exact next_of_done hexec

/-- Settles O30: CTL starts and stops an engine through the model's start and stop, and the end of initialisation clears the memories. -/
theorem engineStartsAndStops : Obligations.EngineStartsAndStops := by
  unfold Obligations.EngineStartsAndStops
  refine ⟨engineEnable_starts, engineDisable_stops, fun e s hok hrun hne => ?_, fun s hrun henable => ?_⟩
  · have hexec := exec_engineMemInitDone e s hok
    have hnot : ¬(e.ty = 5 ∧ e.num = 0 ∧ (memsCleared e.ty e.num s).flag (R.HDR_CTL_ENABLE.on 5) 0 = true) := by
      rintro ⟨hty, hnum, -⟩
      exact hne (by rw [← hty, ← hnum])
    rw [engineInitDone_of_running _ _ _ hrun, if_neg hnot] at hexec
    obtain ⟨p, hnext⟩ := next_of_done hexec
    obtain ⟨-, hbut⟩ := memsCleared_only e.ty e.num s
    refine ⟨_, hnext, ?_, ?_, ?_, fun k hk => ?_, fun k hk => ?_⟩
    · rw [State.withPins_mem, memsCleared_mem]
    · rw [Raises, State.withPins_getReg, memsCleared_evt]
    · simp only [State.withPins, memsCleared, State.raise, State.put, State.setReg, State.setMem]
    · rw [State.withPins_mem, memsCleared_other _ _ _ _ hk]
    · rw [State.withPins_regs, hbut k hk, State.setMem_regs]
  · obtain ⟨p, hnext⟩ := engineMemInitDone_boots s hrun henable
    refine ⟨_, hnext, ?_, ?_, ?_, ?_, ?_, ?_⟩
    · rw [State.withPins_mem, bootStart_mem, memsCleared_mem]
    · rw [State.engState, State.withPins_get]
      exact bootStart_engState _
    · rw [State.withPins, bootStart]
    · rw [State.withPins, bootStart]
    · rw [State.core, State.withPins_eng, bootStart_eng, Engine.started, memsCleared_start]
    · rw [Raises, State.withPins_getReg, bootStart_evt, memsCleared_evt, BitVec.or_assoc]
      rfl

end Sys2Proof.Machine
end

section
/-!
PROOFS. DMA transfers of an engine (O32).
-/

namespace Sys2Proof.Machine

/-! ### Latched interrupt lines (R265) -/

theorem State.getReg_setIrq (s : State) (ty n k : Nat) : (setIrq ty n k s).getReg ty n 0x05C = s.getReg ty n 0x05C ||| word (2 ^ k) := by
  simp only [setIrq, State.put, State.getReg_setReg, setBits_one]
  apply BitVec.eq_of_toNat_eq
  simp

theorem State.getReg_setIrq_off (s : State) (ty n k off : Nat) (h : off ≠ 0x05C) : (setIrq ty n k s).getReg ty n off = s.getReg ty n off :=
  State.getReg_put_off s ⟨ty, 0x05C, 4, k, 1⟩ ty n 1 off rfl h

theorem State.getReg_raise_off (s : State) (ty n k off : Nat) (h : off ≠ 0x10) : (s.raise ty n k).getReg ty n off = s.getReg ty n off :=
  State.getReg_put_off s ⟨ty, 0x10, 4, k, 1⟩ ty n 1 off rfl h

theorem State.setIrq_only (s : State) (ty n k : Nat) : OnlyRegs [regKey ty n 0x05C] s (setIrq ty n k s) := State.put_only s ⟨ty, 0x05C, 4, k, 1⟩ n 1

theorem State.setIrq_eng (s : State) (ty n k j : Nat) : (setIrq ty n k s).eng j = s.eng j := State.put_eng _ _ _ _ _

/-! ### The end of a transfer (R238, R270) -/

/-- The engine's core when a transfer has ended. -/
def Engine.dmaEnded (x : Engine) (d : DmaXfer) (err : Bool) : Engine :=
  { x with dmaQueue := x.dmaQueue.drop 1, dmaRun := none, dmaDone := d.seq, dmaErr := x.dmaErr || err }

/-- The core after the end of a transfer, and its interrupt line. -/
def dmaEnded (ty n : Nat) (d : DmaXfer) (err : Bool) (s : State) : State :=
  let s1 := s.setEng (engKey ty n) ((s.eng (engKey ty n)).dmaEnded d err)
  if descIrq d then setIrq ty n 2 s1 else s1

theorem dmaFinish_good (ty n : Nat) (d : DmaXfer) (s : State) : dmaFinish ty n d none s = dmaEnded ty n d false s := rfl

theorem dmaFinish_bad (ty n : Nat) (d : DmaXfer) (code : Nat) (s : State) :
    dmaFinish ty n d (some (code, none)) s =
      (let s3 := setIrq ty n 3 ((dmaEnded ty n d true s).raise ty n 7)
       if s3.flag (R.ENG_DMA_ERR_V.on ty) n then s3 else s3.setReg ty n 0x068 (word (2 ^ 31 + code * 2 ^ 12 + d.seq))) := rfl

section

variable (ty n : Nat) (d : DmaXfer) (err : Bool) (s : State)

theorem dmaEnded_eng : (dmaEnded ty n d err s).eng (engKey ty n) = (s.eng (engKey ty n)).dmaEnded d err := by
  unfold dmaEnded
  dsimp only
  split
  · rw [State.setIrq_eng, State.setEng_same]
  · rw [State.setEng_same]

theorem dmaEnded_other (k : Nat) (hk : k ≠ engKey ty n) : (dmaEnded ty n d err s).eng k = s.eng k := by
  unfold dmaEnded
  dsimp only
  split
  · rw [State.setIrq_eng, State.setEng_other _ _ _ _ hk]
  · rw [State.setEng_other _ _ _ _ hk]

theorem dmaEnded_irq : (dmaEnded ty n d err s).getReg ty n 0x05C = s.getReg ty n 0x05C ||| word (if descIrq d then 4 else 0) := by
  unfold dmaEnded
  dsimp only
  split
  · rw [State.getReg_setIrq, State.setEng_getReg, show 2 ^ 2 = 4 by decide]
  · rw [State.setEng_getReg]
    exact (BitVec.or_zero).symm

theorem dmaEnded_getReg (off : Nat) (h : off ≠ 0x05C) : (dmaEnded ty n d err s).getReg ty n off = s.getReg ty n off := by
  unfold dmaEnded
  dsimp only
  split
  · rw [State.getReg_setIrq_off _ _ _ _ _ h, State.setEng_getReg]
  · rw [State.setEng_getReg]

theorem dmaEnded_regs : RegsBut [regKey ty n 0x05C] s (dmaEnded ty n d err s) := by
  unfold dmaEnded
  dsimp only
  split
  · intro k hk
    rw [(State.setIrq_only _ _ _ _).2 k hk, State.setEng_regs]
  · exact fun _ _ => rfl

theorem dmaEnded_frame : dmaEnded ty n d err s = { s with engines := (dmaEnded ty n d err s).engines, regs := (dmaEnded ty n d err s).regs } := by
  unfold dmaEnded
  dsimp only
  split
  · simp only [setIrq, State.put, State.setReg, State.setEng]
  · simp only [State.setEng]

end

/-! ### A descriptor out of its format (R270) -/

/-- What the refusal of a descriptor records: the event, IRQ_3, DMA_ERR. -/
def dmaRefused (ty n seq : Nat) (s : State) : State := (setIrq ty n 3 (s.raise ty n 7)).setReg ty n 0x068 (word (2 ^ 31 + 0xFE * 2 ^ 12 + seq))

theorem dmaFinish_refused (ty n : Nat) (d : DmaXfer) (s : State) (hfirst : s.flag (R.ENG_DMA_ERR_V.on ty) n = false) :
    dmaFinish ty n d (some (0xFE, none)) s = dmaRefused ty n d.seq (dmaEnded ty n d true s) := by
  have hkept : (setIrq ty n 3 ((dmaEnded ty n d true s).raise ty n 7)).flag (R.ENG_DMA_ERR_V.on ty) n = s.flag (R.ENG_DMA_ERR_V.on ty) n := by
    have hreg : (setIrq ty n 3 ((dmaEnded ty n d true s).raise ty n 7)).getReg ty n 0x068 = s.getReg ty n 0x068 := by
      rw [State.getReg_setIrq_off _ _ _ _ _ (by decide), State.getReg_raise_off _ _ _ _ _ (by decide), dmaEnded_getReg _ _ _ _ _ _ (by decide)]
    exact congrArg (fun v : Word => bitsAt v.toNat 31 1 == 1) hreg
  rw [dmaFinish_bad, dmaRefused]
  dsimp only
  rw [hkept, hfirst, if_neg Bool.false_ne_true]

theorem dmaRefused_eng (ty n seq k : Nat) (s : State) : (dmaRefused ty n seq s).eng k = s.eng k := by
  rw [dmaRefused, State.setReg_eng, State.setIrq_eng, State.raise_eng]

theorem dmaRefused_evt (ty n seq : Nat) (s : State) : (dmaRefused ty n seq s).getReg ty n 0x10 = s.getReg ty n 0x10 ||| word 0x80 := by
  rw [dmaRefused, State.getReg_setReg_other _ _ _ _ _ _ _ _ (regKey_ne_of_off _ _ _ _ (by decide)), State.getReg_setIrq_off _ _ _ _ _ (by decide),
    State.getReg_raise, show 2 ^ 7 = 0x80 by decide]

theorem dmaRefused_err (ty n seq : Nat) (s : State) : (dmaRefused ty n seq s).getReg ty n 0x068 = word (2 ^ 31 + 0xFE * 2 ^ 12 + seq) := by
  rw [dmaRefused, State.getReg_setReg]

theorem dmaRefused_irq (ty n seq : Nat) (s : State) : (dmaRefused ty n seq s).getReg ty n 0x05C = s.getReg ty n 0x05C ||| word 8 := by
  rw [dmaRefused, State.getReg_setReg_other _ _ _ _ _ _ _ _ (regKey_ne_of_off _ _ _ _ (by decide)), State.getReg_setIrq,
    State.getReg_raise_off _ _ _ _ _ (by decide), show 2 ^ 3 = 8 by decide]

theorem dmaRefused_regs (ty n seq : Nat) (s : State) :
    RegsBut [evtKey ty n, regKey ty n 0x068, regKey ty n 0x05C] s (dmaRefused ty n seq s) := by
  intro k hk
  simp only [List.mem_cons, List.not_mem_nil, or_false, not_or] at hk
  obtain ⟨hevt, herr, hirq⟩ := hk
  rw [dmaRefused, State.setReg_find _ _ _ _ _ _ herr, (State.setIrq_only _ _ _ _).2 k (fun hm => hirq (List.mem_singleton.1 hm)),
    (State.raise_only _ _ _ _).2 k (fun hm => hevt (List.mem_singleton.1 hm))]

theorem dmaRefused_frame (ty n seq : Nat) (s : State) : dmaRefused ty n seq s = { s with regs := (dmaRefused ty n seq s).regs } := by
  simp only [dmaRefused, setIrq, State.raise, State.put, State.setReg]

theorem irqWord (b : Bool) : word (if b then 4 else 0) ||| word 8 = word (8 + (if b then 4 else 0)) := by
  cases b <;> decide

theorem exec_dmaDescriptorStart (e : EngineId) (stamp : Nat) (s : State) (hok : engineOk e = true) (hsash : e.ty ≠ 3)
    (hon : s.domainOn (pageDomain e.ty e.num) = true) : exec (.dmaDescriptorStart e stamp) s = done (dmaStart e.ty e.num stamp s) := by
  have hexec : exec (.dmaDescriptorStart e stamp) s =
    need (engineOk e && e.ty != 3) (done (if engineUp s e then dmaStart e.ty e.num stamp s else s)) :=
    rfl
  rw [hexec, hok, bne_iff_ne.2 hsash, engineUp, hon]
  rfl

theorem dmaStart_refuses (e : EngineId) (stamp : Nat) (s : State) (d : DmaXfer) (l : List DmaXfer) (hqueue : (s.core e).dmaQueue = d :: l)
    (hidle : (s.core e).dmaRun = none) (hbad : descBad d = true) :
    dmaStart e.ty e.num stamp s = dmaFinish e.ty e.num d (some (0xFE, none)) s := by
  rw [State.core] at hqueue hidle
  simp only [dmaStart, hqueue, hidle, hbad, if_true]

theorem Engine.dmaEnded_cons (x : Engine) (d : DmaXfer) (l : List DmaXfer) (err : Bool) (hqueue : x.dmaQueue = d :: l) :
    x.dmaEnded d err = { x with dmaQueue := l, dmaRun := none, dmaDone := d.seq, dmaErr := x.dmaErr || err } := by
  rw [Engine.dmaEnded, hqueue, List.drop_one, List.tail_cons]

theorem Engine.dmaEnded_good (x : Engine) (d : DmaXfer) (l : List DmaXfer) (hqueue : x.dmaQueue = d :: l) :
    x.dmaEnded d false = { x with dmaQueue := l, dmaRun := none, dmaDone := d.seq } := by
  rw [Engine.dmaEnded_cons x d l false hqueue, Bool.or_false]

/-- A refused descriptor's transfer has not begun. -/
theorem Engine.dmaEnded_refused (x : Engine) (d : DmaXfer) (l : List DmaXfer) (hqueue : x.dmaQueue = d :: l) (hidle : x.dmaRun = none) :
    x.dmaEnded d true = { x with dmaQueue := l, dmaDone := d.seq, dmaErr := true } := by
  rw [Engine.dmaEnded_cons x d l true hqueue, Bool.or_true, ← hidle]

theorem descriptor_refused (e : EngineId) (stamp : Nat) (s : State) (d : DmaXfer) (l : List DmaXfer) (hok : engineOk e = true) (hsash : e.ty ≠ 3)
    (hon : s.domainOn (pageDomain e.ty e.num) = true) (hqueue : (s.core e).dmaQueue = d :: l) (hidle : (s.core e).dmaRun = none)
    (hbad : descBad d = true) (hfirst : s.flag (R.ENG_DMA_ERR_V.on e.ty) e.num = false) :
    ∃ t, exec (.dmaDescriptorStart e stamp) s = .next t ∧
      t.core e = { s.core e with dmaQueue := l, dmaDone := d.seq, dmaErr := true } ∧ Raises e.ty e.num 0x80 s t ∧
      t.getReg e.ty e.num 0x068 = word (2 ^ 31 + 0xFE * 2 ^ 12 + d.seq) ∧
      t.getReg e.ty e.num 0x05C = s.getReg e.ty e.num 0x05C ||| word (8 + (if bitOf (d.words.getD 0 0) 22 then 4 else 0)) ∧
      t = { s with engines := t.engines, regs := t.regs, pins := t.pins } ∧ (∀ k, k ≠ engKey e.ty e.num → t.eng k = s.eng k) ∧
      RegsBut [evtKey e.ty e.num, regKey e.ty e.num 0x068, regKey e.ty e.num 0x05C] s t := by
  have hexec := exec_dmaDescriptorStart e stamp s hok hsash hon
  rw [dmaStart_refuses e stamp s d l hqueue hidle hbad, dmaFinish_refused _ _ _ _ hfirst] at hexec
  obtain ⟨p, hnext⟩ := next_of_done hexec
  refine ⟨_, hnext, ?_, ?_, ?_, ?_, ?_, fun k hk => ?_, fun k hk => ?_⟩
  · rw [State.core, State.withPins_eng, dmaRefused_eng, dmaEnded_eng]
    exact Engine.dmaEnded_refused _ d l hqueue hidle
  · rw [Raises, State.withPins_getReg, dmaRefused_evt, dmaEnded_getReg _ _ _ _ _ _ (by decide)]
  · rw [State.withPins_getReg, dmaRefused_err]
  · rw [State.withPins_getReg, dmaRefused_irq, dmaEnded_irq, BitVec.or_assoc, irqWord]
    rfl
  · rw [State.withPins, dmaRefused_frame, dmaEnded_frame]
  · rw [State.withPins_eng, dmaRefused_eng, dmaEnded_other _ _ _ _ _ _ hk]
  · rw [State.withPins_regs, dmaRefused_regs _ _ _ _ k hk,
      dmaEnded_regs _ _ _ _ _ k (fun hm => hk (List.mem_cons_of_mem _ (List.mem_cons_of_mem _ hm)))]

/-! ### What a request of an engine touches (R321) -/

/-- From s to t nothing changes but the trailheads, what they keep for initiators, registers and the answer. -/
def Requested (s t : State) : Prop := t = { s with trlh := t.trlh, inbox := t.inbox, regs := t.regs, answer := t.answer }

theorem Requested.trans {s t u : State} (h : Requested s t) (g : Requested t u) : Requested s u := by
  rw [Requested] at h g ⊢
  rw [g, h]

theorem setTh_requested (s : State) (t : Nat) (x : Trailhead) : Requested s (s.setTh t x) := rfl

theorem addStat_requested (t init slot k : Nat) (s : State) : Requested s (addStat t init slot k s) := rfl

theorem countLocal_requested (t code : Nat) (s : State) : Requested s (countLocal t code s) := by
  unfold countLocal
  split
  · rfl
  · split
    · rfl
    · split
      · rfl
      · rfl

theorem deliver_requested (t init : Nat) (q : NetReq) (a : Answer) (s : State) : Requested s (deliver t init q a s) := by
  unfold deliver
  dsimp only
  split
  · rfl
  · rfl

theorem answerLocal_requested (t init : Nat) (q : NetReq) (code : Nat) (s : State) : Requested s (answerLocal t init q code s) :=
  (((countLocal_requested t code s).trans (addStat_requested t init 0 1 _)).trans (setTh_requested _ t _)).trans (deliver_requested t init q _ _)

theorem issueRequest_requested (t init : Nat) (q : NetReq) (stamp : Nat) (s : State) : Requested s (issueRequest t init q stamp s) := by
  have hqueued (h : Trailhead) (slot k : Nat) (x : Trailhead) : Requested s ((addStat t init slot k (s.setTh t h)).setTh t x) :=
    ((setTh_requested s t h).trans (addStat_requested t init slot k _)).trans (setTh_requested _ t x)
  unfold issueRequest
  dsimp only
  split
  · exact answerLocal_requested _ _ _ _ _
  · split
    · exact hqueued _ _ _ _
    · split
      · exact hqueued _ _ _ _
      · split
        · exact answerLocal_requested _ _ _ _ _
        · exact hqueued _ _ _ _

/-! ### Reads of local memory (R259) -/

theorem mem_rowsOf_iff (a n r : Nat) : r ∈ rowsOf a n ↔ a / 8 ≤ r ∧ r < max (a / 8) ((a + n + 7) / 8) := by
  rw [rowsOf, List.mem_map]
  constructor
  · rintro ⟨k, hk, rfl⟩
    have := List.mem_range.1 hk
    omega
  · rintro ⟨hlo, hhi⟩
    exact ⟨r - a / 8, List.mem_range.2 (by omega), by omega⟩

/-- Part of a clean range is clean. -/
theorem State.dataClean_part {s : State} {e : EngineId} {a n b m : Nat} (h : s.dataClean e a n = true) (hlo : a ≤ b) (hhi : b + m ≤ a + n) :
    s.dataClean e b m = true := by
  rw [State.dataClean, List.all_eq_true] at h ⊢
  intro r hr
  rw [mem_rowsOf_iff] at hr
  exact h r ((mem_rowsOf_iff _ _ _).2 (by omega))

theorem dmaRead_clean (e : EngineId) (a n : Nat) (s : State) (h : s.dataClean e a n = true) : dmaRead e.ty e.num a n s = (s.data e a n, s) := by
  have hgood : (s.mem (engKey e.ty e.num)).bad true (rowsOf a n) = false := by
    rw [State.dataClean, List.all_eq_true] at h
    rw [EngMem.bad, List.any_eq_false]
    intro r hr
    rw [beq_iff_eq.1 (h r hr)]
    decide
  rw [dmaRead, readRows_clean _ _ _ _ h]
  simp only [hgood, State.data, Bool.false_eq_true, if_false]

/-! ### The requests of a transfer (R270) -/

/-- The bytes that the next request of a transfer carries. -/
def dmaValue (s : State) (e : EngineId) (d : DmaXfer) (r : DmaRun) : Nat :=
  let x := dmaNextReq d r 0
  if descOut d then s.data e x.2.1 x.2.2 else 0

/-- A transfer in progress after its next request. -/
def DmaRun.next (r : DmaRun) (d : DmaXfer) (v : Nat) : DmaRun :=
  let x := dmaNextReq d r v
  let col := r.col + x.2.2
  { r with
    row := if col = descLen d then r.row + 1 else r.row
    col := if col = descLen d then 0 else col
    out := r.out ++ [(x.1, x.2.1)] }

/-- The rows of local memory that an outward transfer reads are clean. -/
def State.dmaClean (s : State) (e : EngineId) (d : DmaXfer) : Prop :=
  descOut d = true → s.dataClean e (descLocal d) (descRows d * descLen d) = true

/-- From s to t the DMA engine of e has brought its transfer to r, by requests alone. -/
def DmaBrought (e : EngineId) (s t : State) (r : DmaRun) : Prop :=
  t.core e = { s.core e with dmaRun := some r } ∧ (∀ k, k ≠ engKey e.ty e.num → t.eng k = s.eng k) ∧
    t = { s with engines := t.engines, trlh := t.trlh, inbox := t.inbox, regs := t.regs, answer := t.answer }

theorem DmaBrought.trans {e : EngineId} {s t u : State} {r r' : DmaRun} (h : DmaBrought e s t r) (g : DmaBrought e t u r') : DmaBrought e s u r' := by
  obtain ⟨hcore, hother, hframe⟩ := h
  obtain ⟨gcore, gother, gframe⟩ := g
  refine ⟨?_, fun k hk => (gother k hk).trans (hother k hk), ?_⟩
  · rw [gcore, hcore]
  · rw [gframe, hframe]

theorem DmaBrought.clean {e : EngineId} {s t : State} {r : DmaRun} {d : DmaXfer} (h : DmaBrought e s t r) (hclean : s.dmaClean e d) :
    t.dmaClean e d := by
  obtain ⟨-, -, hframe⟩ := h
  intro hout
  rw [State.dataClean, State.mem, hframe]
  exact hclean hout

/-- One request of a transfer. -/
theorem dmaRequest_brings (e : EngineId) (stamp : Nat) (q : NetReq) (r : DmaRun) (s : State) :
    DmaBrought e s (issueRequest (engInit e.ty e.num).src (dmaInit e.ty e.num) q stamp
      (s.setEng (engKey e.ty e.num) { s.core e with dmaRun := some r })) r := by
  have hrequested := issueRequest_requested (engInit e.ty e.num).src (dmaInit e.ty e.num) q stamp
    (s.setEng (engKey e.ty e.num) { s.core e with dmaRun := some r })
  generalize issueRequest (engInit e.ty e.num).src (dmaInit e.ty e.num) q stamp
    (s.setEng (engKey e.ty e.num) { s.core e with dmaRun := some r }) = t at hrequested
  have heng (k : Nat) : t.eng k = (s.setEng (engKey e.ty e.num) { s.core e with dmaRun := some r }).eng k := by
    rw [State.eng, hrequested, State.eng]
  refine ⟨?_, fun k hk => ?_, ?_⟩
  · rw [State.core, heng, State.setEng_same]
  · rw [heng, State.setEng_other _ _ _ _ hk]
  · rw [hrequested]
    simp only [State.setEng]

theorem dmaNextReq_within (d : DmaXfer) (r : DmaRun) (v : Nat) (hcol : r.col < descLen d) (hrow : r.row < descRows d) :
    descLocal d ≤ (dmaNextReq d r v).2.1 ∧
      (dmaNextReq d r v).2.1 + (dmaNextReq d r v).2.2 ≤ descLocal d + descRows d * descLen d := by
  have hrows : (r.row + 1) * descLen d ≤ descRows d * descLen d := Nat.mul_le_mul_right _ hrow
  simp only [dmaNextReq]
  rw [Nat.add_mul, Nat.one_mul] at hrows
  generalize descRows d * descLen d = total at *
  generalize r.row * descLen d = before at *
  omega

theorem DmaRun.next_col (r : DmaRun) (d : DmaXfer) (v : Nat) (hcol : r.col < descLen d) : (r.next d v).col < descLen d := by
  have hpart : (dmaNextReq d r v).2.2 ≤ descLen d - r.col := min_le_left _ _
  rw [DmaRun.next]
  dsimp only
  split_ifs with hfull
  · omega
  · omega

/-- One step of the loop that issues requests. -/
theorem dmaIssue_step (e : EngineId) (stamp fuel : Nat) (d : DmaXfer) (l : List DmaXfer) (r : DmaRun) (s : State)
    (hqueue : (s.core e).dmaQueue = d :: l) (hrun : (s.core e).dmaRun = some r) (hgo : ¬(r.err.isSome ∨ 8 ≤ r.out.length ∨ descRows d ≤ r.row))
    (hcol : r.col < descLen d) (hclean : s.dmaClean e d) :
    dmaIssue e.ty e.num stamp (fuel + 1) s = dmaIssue e.ty e.num stamp fuel
      (issueRequest (engInit e.ty e.num).src (dmaInit e.ty e.num) (dmaNextReq d r (dmaValue s e d r)).1 stamp
        (s.setEng (engKey e.ty e.num) { s.core e with dmaRun := some (r.next d (dmaValue s e d r)) })) := by
  have hread : (if descOut d then dmaRead e.ty e.num (dmaNextReq d r 0).2.1 (dmaNextReq d r 0).2.2 s else (0, s)) = (dmaValue s e d r, s) := by
    unfold dmaValue
    dsimp only
    split
    · next hout =>
      obtain ⟨hlo, hhi⟩ := dmaNextReq_within d r 0 hcol (by omega)
      exact dmaRead_clean e _ _ s (State.dataClean_part (hclean hout) hlo hhi)
    · rfl
  rw [State.core] at hqueue hrun
  rw [dmaIssue]
  simp only [hqueue, hrun, if_neg hgo, hread]
  rw [← hqueue]
  rfl

/-- The loop brings a transfer on: at most eight requests are outstanding, after those that already were. -/
theorem dmaIssue_brings (e : EngineId) (stamp fuel : Nat) (d : DmaXfer) (l : List DmaXfer) (r : DmaRun) (s : State)
    (hqueue : (s.core e).dmaQueue = d :: l) (hrun : (s.core e).dmaRun = some r) (herr : r.err = none) (hlen : r.out.length ≤ 8)
    (hcol : r.col < descLen d) (hclean : s.dmaClean e d) :
    ∃ r', DmaBrought e s (dmaIssue e.ty e.num stamp fuel s) r' ∧ r'.err = none ∧ r'.out.length ≤ 8 ∧ r.out <+: r'.out := by
  induction fuel generalizing r s with
  | zero => exact ⟨r, ⟨by rw [dmaIssue, ← hrun], fun _ _ => rfl, rfl⟩, herr, hlen, ⟨[], List.append_nil _⟩⟩
  | succ fuel ih =>
    by_cases hgo : r.err.isSome ∨ 8 ≤ r.out.length ∨ descRows d ≤ r.row
    · have hstops : dmaIssue e.ty e.num stamp (fuel + 1) s = s := by
        rw [State.core] at hqueue hrun
        simp only [dmaIssue, hqueue, hrun, if_pos hgo]
      exact ⟨r, ⟨by rw [hstops, ← hrun], fun _ _ => by rw [hstops], by rw [hstops]⟩, herr, hlen, ⟨[], List.append_nil _⟩⟩
    · have hbrought := dmaRequest_brings e stamp (dmaNextReq d r (dmaValue s e d r)).1 (r.next d (dmaValue s e d r)) s
      rw [dmaIssue_step e stamp fuel d l r s hqueue hrun hgo hcol hclean]
      generalize issueRequest (engInit e.ty e.num).src (dmaInit e.ty e.num) (dmaNextReq d r (dmaValue s e d r)).1 stamp
        (s.setEng (engKey e.ty e.num) { s.core e with dmaRun := some (r.next d (dmaValue s e d r)) }) = s1 at hbrought
      have hcore := hbrought.1
      obtain ⟨r', hrest, herr', hlen', hextends⟩ := ih (r.next d (dmaValue s e d r)) s1 (by rw [hcore]; exact hqueue) (by rw [hcore]) herr
        (by rw [DmaRun.next, List.length_append, List.length_singleton]; omega) (DmaRun.next_col r d _ hcol) (hbrought.clean hclean)
      exact ⟨r', hbrought.trans hrest, herr', hlen', List.IsPrefix.trans ⟨_, rfl⟩ hextends⟩

/-- A transfer before its first request. -/
def DmaRun.first : DmaRun := ⟨0, 0, [], none⟩

/-- The first request is at the far address, up to the next 64-byte boundary (R270). -/
theorem DmaRun.first_next (d : DmaXfer) (v : Nat) :
    (DmaRun.first.next d v).out = [({ farReq (descOut d) (descFar d % 2 ^ 40) (min (descLen d) (64 - descFar d % 2 ^ 40 % 64)) v with dma := true },
      descLocal d)] := by
  simp [DmaRun.next, DmaRun.first, dmaNextReq]

theorem dmaStart_starts (e : EngineId) (stamp : Nat) (s : State) (d : DmaXfer) (l : List DmaXfer) (hqueue : (s.core e).dmaQueue = d :: l)
    (hidle : (s.core e).dmaRun = none) (hgood : descBad d = false) :
    dmaStart e.ty e.num stamp s =
      dmaIssue e.ty e.num stamp 8 (s.setEng (engKey e.ty e.num) { s.core e with dmaRun := some DmaRun.first }) := by
  rw [State.core] at hqueue hidle
  simp only [dmaStart, hqueue, hidle, hgood, Bool.false_eq_true, if_false]
  rw [← hqueue]
  rfl

theorem dmaValue_first (s : State) (e : EngineId) (d : DmaXfer) (x : Engine) :
    dmaValue (s.setEng (engKey e.ty e.num) x) e d DmaRun.first =
      if descOut d then s.data e (descLocal d) (min (descLen d) (64 - descFar d % 2 ^ 40 % 64)) else 0 := by
  simp [dmaValue, DmaRun.first, dmaNextReq, State.data]

/-- A well-formed descriptor begins a transfer. -/
theorem dmaStart_brings (e : EngineId) (stamp : Nat) (s : State) (d : DmaXfer) (l : List DmaXfer) (hqueue : (s.core e).dmaQueue = d :: l)
    (hidle : (s.core e).dmaRun = none) (hgood : descBad d = false) (hclean : s.dmaClean e d) :
    ∃ r, DmaBrought e s (dmaStart e.ty e.num stamp s) r ∧ r.err = none ∧ r.out.length ≤ 8 ∧
      r.out.head? = some ({ farReq (descOut d) (descFar d % 2 ^ 40) (min (descLen d) (64 - descFar d % 2 ^ 40 % 64))
        (if descOut d then s.data e (descLocal d) (min (descLen d) (64 - descFar d % 2 ^ 40 % 64)) else 0) with dma := true }, descLocal d) := by
  have hfirst : DmaBrought e s (s.setEng (engKey e.ty e.num) { s.core e with dmaRun := some DmaRun.first }) DmaRun.first :=
    ⟨State.setEng_same _ _ _, fun k hk => State.setEng_other _ _ _ _ hk, rfl⟩
  have hvalue := dmaValue_first s e d { s.core e with dmaRun := some DmaRun.first }
  rw [dmaStart_starts e stamp s d l hqueue hidle hgood]
  generalize s.setEng (engKey e.ty e.num) { s.core e with dmaRun := some DmaRun.first } = s1 at hfirst hvalue
  have hcore := hfirst.1
  have hcol : DmaRun.first.col < descLen d := Nat.succ_pos _
  have hgo : ¬(DmaRun.first.err.isSome ∨ 8 ≤ DmaRun.first.out.length ∨ descRows d ≤ DmaRun.first.row) := by
    rintro (herr | hlen | hrow)
    · exact Bool.false_ne_true herr
    · exact absurd hlen (by decide)
    · exact absurd hrow (Nat.not_le.2 (Nat.succ_pos _))
  have hstep := dmaIssue_step e stamp 7 d l DmaRun.first s1 (by rw [hcore]; exact hqueue) (by rw [hcore]) hgo hcol (hfirst.clean hclean)
  have hone := dmaRequest_brings e stamp (dmaNextReq d DmaRun.first (dmaValue s1 e d DmaRun.first)).1
    (DmaRun.first.next d (dmaValue s1 e d DmaRun.first)) s1
  generalize issueRequest (engInit e.ty e.num).src (dmaInit e.ty e.num) (dmaNextReq d DmaRun.first (dmaValue s1 e d DmaRun.first)).1 stamp
    (s1.setEng (engKey e.ty e.num) { s1.core e with dmaRun := some (DmaRun.first.next d (dmaValue s1 e d DmaRun.first)) }) = s2 at hstep hone
  rw [hvalue] at hone
  have hbrought := hfirst.trans hone
  have hcore2 := hbrought.1
  obtain ⟨r, hrest, herr, hlen, hextends⟩ := dmaIssue_brings e stamp 7 d l _ s2 (by rw [hcore2]; exact hqueue) (by rw [hcore2]) rfl
    (by rw [DmaRun.first_next]; exact Nat.succ_le_succ (Nat.zero_le _)) (DmaRun.next_col _ d _ hcol) (hbrought.clean hclean)
  rw [DmaRun.first_next] at hextends
  obtain ⟨rest, hout⟩ := hextends
  rw [hstep]
  exact ⟨r, hbrought.trans hrest, herr, hlen, by rw [← hout]; rfl⟩

theorem descriptor_started (e : EngineId) (stamp : Nat) (s : State) (d : DmaXfer) (l : List DmaXfer) (hok : engineOk e = true) (hsash : e.ty ≠ 3)
    (hon : s.domainOn (pageDomain e.ty e.num) = true) (hqueue : (s.core e).dmaQueue = d :: l) (hidle : (s.core e).dmaRun = none)
    (hgood : descBad d = false) (hclean : s.dmaClean e d) :
    ∃ t, exec (.dmaDescriptorStart e stamp) s = .next t ∧ (∃ r, (t.core e).dmaRun = some r ∧ r.err = none ∧
      r.out.head? = some ({ farReq (descOut d) (descFar d % 2 ^ 40) (min (descLen d) (64 - descFar d % 2 ^ 40 % 64))
        (if descOut d then s.data e (descLocal d) (min (descLen d) (64 - descFar d % 2 ^ 40 % 64)) else 0) with dma := true }, descLocal d) ∧
      r.out.length ≤ 8 ∧ t.core e = { s.core e with dmaRun := some r }) ∧ (∀ k, k ≠ engKey e.ty e.num → t.eng k = s.eng k) ∧
      t = { s with engines := t.engines, trlh := t.trlh, inbox := t.inbox, regs := t.regs, pins := t.pins, answer := t.answer } := by
  obtain ⟨r, ⟨hcore, hother, hframe⟩, herr, hlen, hhead⟩ := dmaStart_brings e stamp s d l hqueue hidle hgood hclean
  obtain ⟨p, hnext⟩ := next_of_done (exec_dmaDescriptorStart e stamp s hok hsash hon)
  have hcoreNext : ((dmaStart e.ty e.num stamp s).withPins p).core e = { s.core e with dmaRun := some r } := by
    rw [State.core, State.withPins_eng]
    exact hcore
  refine ⟨_, hnext, ⟨r, by rw [hcoreNext], herr, hhead, hlen, hcoreNext⟩, fun k hk => ?_, ?_⟩
  · rw [State.withPins_eng, hother k hk]
  · generalize dmaStart e.ty e.num stamp s = t at hframe
    rw [State.withPins, hframe]

/-! ### The last responses (R270) -/

/-- What has arrived for an engine's DMA has been taken. -/
def State.taken (s : State) (e : EngineId) : State :=
  { s with inbox := tblSet [] s.inbox ((engInit e.ty e.num).src * 32 + dmaInit e.ty e.num) [] }

@[simp] theorem State.taken_regs (s : State) (e : EngineId) : (s.taken e).regs = s.regs := rfl
@[simp] theorem State.taken_eng (s : State) (e : EngineId) (k : Nat) : (s.taken e).eng k = s.eng k := rfl
@[simp] theorem State.taken_getReg (s : State) (e : EngineId) (ty n off : Nat) : (s.taken e).getReg ty n off = s.getReg ty n off := rfl

theorem exec_dmaTransferComplete (e : EngineId) (stamp : Nat) (s : State) (hok : engineOk e = true) (hsash : e.ty ≠ 3)
    (hon : s.domainOn (pageDomain e.ty e.num) = true) : exec (.dmaTransferComplete e stamp) s = done (dmaComplete e.ty e.num stamp s) := by
  have hexec : exec (.dmaTransferComplete e stamp) s =
    need (engineOk e && e.ty != 3) (done (if engineUp s e then dmaComplete e.ty e.num stamp s else s)) := rfl
  rw [hexec, hok, bne_iff_ne.2 hsash, engineUp, hon]
  rfl

theorem dmaIssue_done (e : EngineId) (stamp fuel : Nat) (d : DmaXfer) (l : List DmaXfer) (r : DmaRun) (s : State)
    (hqueue : (s.core e).dmaQueue = d :: l) (hrun : (s.core e).dmaRun = some r) (hstop : r.err.isSome ∨ 8 ≤ r.out.length ∨ descRows d ≤ r.row) :
    dmaIssue e.ty e.num stamp (fuel + 1) s = s := by
  rw [State.core] at hqueue hrun
  simp only [dmaIssue, hqueue, hrun, if_pos hstop]

theorem dmaComplete_ends (e : EngineId) (stamp : Nat) (s : State) (d : DmaXfer) (l : List DmaXfer) (r : DmaRun)
    (hqueue : (s.core e).dmaQueue = d :: l) (hrun : (s.core e).dmaRun = some r) (hout : r.out = []) (herr : r.err = none) (hrows : descRows d ≤ r.row)
    (hnone : tblGet [] s.inbox ((engInit e.ty e.num).src * 32 + dmaInit e.ty e.num) = []) :
    dmaComplete e.ty e.num stamp s = dmaEnded e.ty e.num d false (s.taken e) := by
  have hadvance : dmaAdvance e.ty e.num stamp s = s.taken e := by
    simp only [dmaAdvance, hnone, List.foldl_nil]
    exact dmaIssue_done e stamp 7 d l r (s.taken e) hqueue hrun (.inr (.inr hrows))
  have hqueueTaken : ((s.taken e).eng (engKey e.ty e.num)).dmaQueue = d :: l := hqueue
  have hrunTaken : ((s.taken e).eng (engKey e.ty e.num)).dmaRun = some r := hrun
  simp only [dmaComplete, hadvance, hqueueTaken, hrunTaken, hout, herr, hrows, true_and, or_true, if_true, Option.map_none, dmaFinish_good]

/-- Settles O32: the refusal of a descriptor, the loop that issues a transfer's requests, the end of a transfer. -/
theorem engineDma : Obligations.EngineDma := by
  unfold Obligations.EngineDma
  refine ⟨descriptor_refused, descriptor_started, fun e stamp s d l r hok hsash hon hqueue hrun hout herr hrows hnone => ?_⟩
  have hexec := exec_dmaTransferComplete e stamp s hok hsash hon
  rw [dmaComplete_ends e stamp s d l r hqueue hrun hout herr hrows hnone] at hexec
  obtain ⟨p, hnext⟩ := next_of_done hexec
  refine ⟨_, hnext, ?_, ?_, fun k hk => ?_, fun k hk => ?_⟩
  · rw [State.core, State.withPins_eng, dmaEnded_eng, State.taken_eng]
    exact Engine.dmaEnded_good _ d l hqueue
  · rw [State.withPins_getReg, dmaEnded_irq, State.taken_getReg]
    rfl
  · rw [State.withPins_eng, dmaEnded_other _ _ _ _ _ _ hk, State.taken_eng]
  · rw [State.withPins_regs, dmaEnded_regs _ _ _ _ _ k hk, State.taken_regs]

end Sys2Proof.Machine
end
